-- ==== Sys2Proof/Word.lean ====
section
/-! DEFINITION. The word types of the device (R8: a word is 32 bits) and their plainest conversions. -/

namespace Sys2Proof

/-- A 32-bit word: a header word, a parameter word, a payload word, a register (R8). -/
abbrev Word := BitVec 32

/-- A byte of pool memory, of a packet or of an SPI transaction. -/
abbrev Byte := BitVec 8

/-- The low 32 bits of a number, as a word (R9: low word first). -/
def lo32 (n : Nat) : Word := BitVec.ofNat 32 n

/-- Bits 63..32 of a number, as a word (R9). -/
def hi32 (n : Nat) : Word := BitVec.ofNat 32 (n / 2 ^ 32)

/-- A 64-bit number held in two words, least significant word first (R9). -/
def join64 (lo hi : Word) : Nat := lo.toNat + hi.toNat * 2 ^ 32

/-- One word from a flag. -/
def flagWord (b : Bool) : Word := if b then 1#32 else 0#32

end Sys2Proof
end

