-- ==== Sys2Proof/Packets.lean ====
section
/-! DEFINITION. What the rows of the opcode table carry: senders and sources, command packets, the data of samples and spectra that
events bring, and the messages of the pair link. -/

namespace Sys2Proof

/-- The sender of a control-port datagram (R80): the Ethernet port by which it comes, address family, address and UDP port. -/
structure Sender where
  link : Nat
  v6 : Bool
  addr : Nat
  port : Nat
deriving DecidableEq, Repr

/-- A command source (R54, R74): the sixteen queue pairs, the management SPI, the Ethernet control port, the pair link. -/
inductive Src where
  | qp (q : Fin 16)
  | spi
  | ctlport (snd : Sender)
  | pairLink
deriving DecidableEq, Repr

/-- A command packet as it reaches the device (R41): its source and its words, the four of the header and the parameters sent inline. `fetched`
is what host memory returns at the INDIRECT address, `none` when that read fails (R60). -/
structure Packet where
  src : Src
  words : List Word
  fetched : Option (List Word)
deriving DecidableEq, Repr

/-- What a fetch of one submission entry brings (R60, R72): a failed access to the queue's own memory, or the bytes of an entry and what host
memory returns at its INDIRECT address. -/
inductive Fetched where
  | dmaError
  | entry (bytes : List Byte) (fetched : Option (List Word))
deriving DecidableEq, Repr

/-- The flags of a spectrum (R257) that its frame's samples fix. -/
structure SpecFlags where
  ovr : Bool
  nbr : Bool
  fade : Bool
  holdover : Bool
  slew : Bool
  cal : Bool
  mixedGain : Bool
deriving DecidableEq, Repr, Inhabited

/-- A stretch of the analogue input of one channel (R167): the differential voltage over one LSB at the sampling points of consecutive
indices from `first`. -/
structure Volts where
  channel : Nat
  first : Nat
  values : List Rat
deriving DecidableEq, Repr

/-- What the active-slice monitor sums for one channel over a window of 2^16 SC (R180): for each position of an SC, the sum and the sum of
squares of the slice that serves it. -/
structure SliceSums where
  channel : Nat
  sums : List (Int × Nat)
deriving DecidableEq, Repr

/-- A word that a read or a scrub pass finds in error (R101, R102): the slot of its partition (256 to 261 for the stores that R641 numbers 0 to
5), its offset there, and whether the code corrected it. -/
structure MemError where
  place : Nat
  offset : Nat
  corrected : Bool
deriving DecidableEq, Repr

/-- A command as it crosses the pair link (R589): MSEQ, its source numbered as in R54, its header with the words of its parameters, and the
host data of a MEM_WRITE. -/
structure Forwarded where
  mseq : Nat
  origin : Nat
  opcode : Nat
  flags : Byte
  tag : Word
  atIndex : Nat
  params : List Word
  data : List Byte
deriving DecidableEq, Repr

/-- A heartbeat as it arrives (R585, R587): whether the sender is PRIMARY or MIRROR, whether an ELIGIBLE one, its HB_TIMEOUT, LIVE and MSEQ, its
SAMPLE_INDEX at the launch marker, whether it is unlocked or coasts, and LAST_SENT as (context, SEQ, index). -/
structure Heartbeat where
  primary : Bool
  mirror : Bool
  eligible : Bool
  hbTimeout : Nat
  live : Nat
  mseq : Nat
  index : Nat
  coasting : Bool
  lastSent : List (Nat × Nat × Nat)
deriving DecidableEq, Repr

/-- Mirror state (R593, R594, R604). -/
inductive MirrorState where
  | checkpoint (ctx seq cell : Nat) (ends : Bool)
  | stepBoundary (b : Nat)
  | switchIndex (w : Nat)
deriving DecidableEq, Repr

/-- The flash as a board fits it (R621): the bytes of slots A and B, and the preferred slot of the boot record. -/
structure FlashImage where
  a : List Byte
  b : List Byte
  preferred : Nat
deriving DecidableEq, Repr

end Sys2Proof
end

