-- ==== Sys2Proof/Machine/Units.lean ====
section
/-! DEFINITION. The units of the device: every register, queue, counter, mode and pin the spec gives the block, as plain data, unit by
unit. Indices (SAMPLE_INDEX and what derives from it) are natural numbers, since R13 says that they do not wrap. -/

namespace Sys2Proof.Machine


/-- A status code (R17, R48). -/
inductive Status where
  | ok | deferred | queued | replaced
  | badOpcode | badParam | badLength | noUnit | busy | late
  | noMemory | outFull | noGain | markLost
  | mode | clock
  | internal
deriving DecidableEq, Repr

/-- The operating modes (R38, R110, R111): codes 0..5 in this order. -/
inductive Mode where
  | quiet | analyse | integrate | record | calibrate | shadow
deriving DecidableEq, Repr

/-- The three parts of the family (R1). -/
inductive Variant where
  | ka4820 | ka2820 | ka1820
deriving DecidableEq, Repr

/-- A reply entry or a notice (R45): `payload` holds the RLEN payload words that the destination can read. -/
structure Entry where
  tag : Word
  opcode : Nat
  status : Status
  rlen : Nat
  index : Nat
  payload : List Word
deriving DecidableEq, Repr

/-- Where a fetched command that has not completed stands (R51, R57, R49): behind an ordering condition; accepted and
held for its effective index (`none`: the index V of the next lock, R715); or started and awaiting its condition. Log entry 20 (DEDUCED, unsafe). -/
inductive Phase where
  | waiting
  | held (eff : Option Nat)
  | running
deriving DecidableEq, Repr

/-- A fetched command that has not completed (R41, R52, R68). `id` numbers commands in fetch order; `replied` tells that
its first reply (DEFERRED or QUEUED) is written; `mute` that its replies are discarded (R91). `origin` is the source number of
R54, that of the primary for a forwarded command (R589, R591), and `mseq` its MSEQ. -/
structure Cmd where
  id : Nat
  opcode : Nat
  src : Src
  flags : Byte
  plen : Nat
  tag : Word
  atIndex : Nat
  inline : List Word
  fetched : Option (List Word)
  arrival : Nat
  phase : Phase
  replied : Bool
  mute : Bool
  origin : Nat
  mseq : Nat
deriving DecidableEq, Repr

/-- The registers of one queue pair (R66-R69), its reply-queue entries not yet consumed by the host, the replies a
stopped pair holds (R71), and the reply entries written since the last interrupt (R69). -/
structure QueuePair where
  sqBaseLo : Word
  sqBaseHi : Word
  sqSize : Word
  sqTail : Nat
  sqHead : Nat
  rqBaseLo : Word
  rqBaseHi : Word
  rqSize : Word
  rqHead : Nat
  rqTail : Nat
  rxbBaseLo : Word
  rxbBaseHi : Word
  ctrl : Word
  err : Bool
  errCode : Nat
  coal : Word
  cmdCount : Word
  rejCount : Word
  rqwbLo : Word
  rqwbHi : Word
  unsignalled : Nat
  rq : List Entry
  heldReplies : List Entry
deriving DecidableEq, Repr, Inhabited

/-- The notice buffer of one destination (R76, R77): held notices, oldest first, and the notices lost since the last
NOTICE_LOSS. -/
structure NoticeBuffer where
  held : List Entry
  lost : Nat
deriving DecidableEq, Repr, Inhabited

/-- The management SPI source (R77-R79): unread replies and notices, oldest first (the flag marks a notice), and LOST. -/
structure SpiPort where
  unread : List (Bool × Entry)
  lost : Bool
deriving DecidableEq, Repr

/-- One allow-list slot of the control port (R91). -/
structure AllowSlot where
  valid : Bool
  v6 : Bool
  prefixLen : Nat
  address : List Word
deriving DecidableEq, Repr, Inhabited

/-- A packet the control port remembers (R81), as its words, with the number of the command it became and its final reply. -/
structure Remembered where
  sender : Sender
  packet : List Word
  cmd : Nat
  reply : Option Entry
deriving DecidableEq, Repr

/-- The Ethernet control port (R80, R81, R91). `last` is the sender of the most recently accepted datagram (R77). -/
structure CtlPort where
  portEn : Nat
  udpPort : Nat
  slots : List AllowSlot
  discarded : Nat
  last : Option Sender
  remembered : List Remembered
deriving DecidableEq, Repr

/-- The global status and interrupt block (R84-R86). `bar2` is the MSI-X table and PBA, as (offset, word) pairs; `turn` the queue pair that was
served last (R74); `dead` the ranges of host addresses at which an access of the device fails (R60). -/
structure Global where
  gintStatus : Word
  gintEnable : Word
  gintVector : Word
  indexHi : Word
  noticeLostCount : Nat
  msixEnabled : Bool
  bar2 : List (Nat × Word)
  turn : Nat
  dead : List (Nat × Nat)
deriving DecidableEq, Repr

/-- A shared-pool partition (R96-R102): its slot and generation, its AUs and role, the command whose MEM_FREE of it is
deferred, its error and pass counts, the line offsets of poisoned 64-bit words, its contents as (offset, byte) pairs in
canonical form (unlisted offsets read 0: R98 zeroes a new partition), and the size its slot takes when a deferred free
ends (R107 step 3). -/
structure Partition where
  slot : Nat
  generation : Nat
  au : Nat
  role : Nat
  freeCmd : Option Nat
  ce : Nat
  ue : Nat
  passes : Nat
  poisoned : List Nat
  data : List Host.Cell
  nextAu : Option Nat
deriving DecidableEq, Repr, Inhabited

/-- A MEM_READ or MEM_WRITE in progress (R116). -/
structure Transfer where
  cmd : Nat
  write : Bool
  slot : Nat
  offset : Nat
  length : Nat
  host : Nat
deriving DecidableEq, Repr

/-- The shared pool (R92-R105, R114, R115): partitions by slot, the last GENERATION of every slot that was ever used,
transfers in progress, the scrub period in seconds, and the pool totals of R114. -/
structure Pool where
  parts : List Partition
  generations : List (Nat × Nat)
  transfers : List Transfer
  scrubPeriod : Nat
  ceTotal : Nat
  ueTotal : Nat
  passes : Nat
deriving DecidableEq, Repr

/-- The timebase states of TIME_STATUS (R154), in code order. -/
inductive TbState where
  | locked | relocking | holdover | qualified | slew | waitRef
deriving DecidableEq, Repr

/-- A TIME_SYNC that waits for its edge (R126, R156). -/
structure SyncWait where
  cmd : Nat
  pps : Bool
  apply : Bool
  syncIndex : Nat
deriving DecidableEq, Repr

/-- A captured APPLY that waits for its re-phase edge (R126): the captured edge, and its index in the old numbering. -/
structure ApplyCapture where
  at_ : Nat
  syncRef : Nat
  syncIndex : Nat
deriving DecidableEq, Repr

/-- A TIME_REF_RESUME that replied DEFERRED and waits for the reference (R158). -/
structure ResumeWait where
  cmd : Nat
  step : Bool
deriving DecidableEq, Repr

/-- A pending STEP (R139, R741): its boundary, the resume it serves, whether it interrupts a slew, and whether JUMP is
measured again before it (R141). -/
structure StepWait where
  boundary : Nat
  cmd : Option Nat
  fromSlew : Bool
  remeasure : Bool
deriving DecidableEq, Repr

/-- A relock that carries out a STEP (R139, R741, R141): its boundary, the JUMP it makes, whether REF_COUNT is still to be
corrected, and the resume it serves. -/
structure RelockStep where
  boundary : Nat
  jump : Int
  correct : Bool
  cmd : Option Nat
deriving DecidableEq, Repr

/-- The time unit (R117-R164). `refCount` is REF_COUNT at index `refIndex`, from which it counts on (R124, R133); `jumpKnown` tells that JUMP is
final (R137); `returnPolicy` is the policy of the last qualification with its SLEW_MAX (R141); `ppsAt` the place of the last accepted PPS edge in the
present numbering, in sixteenths of a sample, `ppsRun` the pulses missed since, and `ppsHeld` the place held at a loss (R137, R143); `offsets` P_t of each stamp target in 2^-16 ps by
effective index, newest first (R147-R149), `configCmds` the TIME_SPLL_CONFIGs that wait for lock; `everLocked` that the first lock after power-up is past (R125). -/
structure TimeUnit where
  refFreq : Nat
  refDiv : Nat
  fbDiv : Nat
  indexStart : Nat
  refCount : Nat
  refIndex : Nat
  syncRef : Nat
  syncIndex : Nat
  gen : Nat
  tb : TbState
  everLocked : Bool
  refPresent : Bool
  qualifying : Bool
  estimatedRelock : Bool
  holdDac : Nat
  vcoBand : Nat
  holdStart : Nat
  tj : Int
  tjEntry : Int
  jump : Int
  jumpKnown : Bool
  ppsWait : Bool
  ppsDelta : Option Int
  ambiguous : Bool
  indexEstimated : Bool
  unlockIndex : Nat
  unlockCount : Nat
  refLossCount : Nat
  lockAttempts : Nat
  policy : Nat
  returnPolicy : Nat × Nat
  ppsDisambig : Bool
  qualMs : Nat
  slewLimit : Nat
  slewMax : Nat
  resume : Option ResumeWait
  step : Option StepWait
  relockStep : Option RelockStep
  syncs : List SyncWait
  applyCapture : Option ApplyCapture
  configCmds : List Nat
  epochTai : Nat
  ptpAdjust : Int
  ppsInEn : Bool
  ppsNotice : Bool
  ppsOutEn : Bool
  ppsOutWidth : Nat
  ppsLast : Option Nat
  ppsAt : Option Int
  ppsRun : Nat
  ppsPhase : Int
  ppsHeld : Option Int
  ppsAccepted : Nat
  ppsMissing : Nat
  ppsSpurious : Nat
  offsets : List (List (Nat × Int))
deriving DecidableEq, Repr

/-- What every product says of the samples of an instant (R40, R134, R135): HOLDOVER, SLEW, and the calibration tag. -/
structure ClockNote where
  holdover : Bool
  slew : Bool
  cal : Bool
deriving DecidableEq, Repr, Inhabited

/-- A span of sample indices, from `lo` to below `hi`; `none`: it has not ended. -/
structure Span where
  lo : Nat
  hi : Option Nat
deriving DecidableEq, Repr, Inhabited

/-- One converter channel (R165-R201). The attenuator setting, OVR_GUARD and OVR_NOTICE are kept by effective index, newest first; `cal` is
the injection switch. `inv` holds the INV windows of the channel (R187), `tile` those of a tile link that retrains (R630). The four counts are
of what was delivered before `countFrom`; what has been delivered since is counted from the samples themselves. `ovrCarried` are the OVR samples
since the last CONV_OVR in earlier numberings. -/
structure Channel where
  attens : List (Nat × Nat)
  cal : Bool
  guards : List (Nat × Nat)
  notices : List (Nat × Bool)
  retired : Option Nat
  frozenSpare : Option Nat
  noSpareSince : Option Nat
  inv : List Span
  tile : List Span
  ovrSamples : Nat
  ovrEvents : Nat
  nbrSamples : Nat
  invSamples : Nat
  countFrom : Nat
  ovrCarried : Nat
  lastOvrNotice : Option Nat
deriving DecidableEq, Repr, Inhabited

/-- The converter tiles (R165-R201): the channels, the rotation step counter j, DWELL_LOG2 and HOLD, and the analogue input that the
converters have sampled in this numbering, as far as it is not 0 V. -/
structure ConvUnit where
  channels : List Channel
  step : Nat
  dwellLog2 : Nat
  hold : Bool
  signal : List Volts
deriving DecidableEq, Repr

/-- One coefficient bank of an equaliser (R202, R203): h[0] to h[63] in 2^-14, BULK, DELAY_INT and DELAY_FRAC. -/
structure EqBank where
  taps : List Int
  bulk : Nat
  delayInt : Nat
  delayFrac : Nat
deriving DecidableEq, Repr, Inhabited

/-- A running swap (R208-R210): its target, its start and end indices, and whether it fades. -/
structure EqSwap where
  target : Bool
  start : Nat
  stop : Nat
  fade : Bool
deriving DecidableEq, Repr

/-- A held swap request (R211). -/
structure EqHeld where
  tag : Word
  bank : Bool
  fadeSc : Nat
  start : Nat
deriving DecidableEq, Repr

/-- The last request presented with no swap running before it (R211): its index and TAG, the bank active before it, and
whether it started a swap. -/
structure EqPresented where
  index : Nat
  tag : Word
  active : Bool
  started : Bool
deriving DecidableEq, Repr

/-- What an equaliser computes with from index `start` on (R202, R209, R210): the bank in force, and over the first `len` samples the bank
that a fade leaves, or a hard swap's INV window. -/
structure EqEra where
  start : Nat
  bank : EqBank
  prev : EqBank
  len : Nat
  fade : Bool
deriving DecidableEq, Repr, Inhabited

/-- A channel equaliser (R202-R213): banks A and B, the active bank (true: B), the running swap, the held request, the counters, and what it
has computed with by index, newest first. `clipCount` counts limited outputs before `clipFrom` (R204). -/
structure Equaliser where
  bankA : EqBank
  bankB : EqBank
  active : Bool
  running : Option EqSwap
  held : Option EqHeld
  presented : Option EqPresented
  swapCount : Nat
  replacedCount : Nat
  eras : List EqEra
  clipCount : Nat
  clipFrom : Nat
deriving DecidableEq, Repr, Inhabited

/-- An output grid of a tuner (R226): its anchor E, the index at which it ended, K, d and the mode. -/
structure TunerGrid where
  start : Nat
  stop : Option Nat
  snap : Bool
  decim : Nat
  delayAdj : Nat
deriving DecidableEq, Repr, Inhabited

/-- A tuner (R215-R232): K and DELAY_ADJ with 32 fractional bits, FREQ, PHASE and phase mode, the grid anchor (R226; none: never run), CONFIG_RESET (R216). `grids`, `gains` and `ncos` (FREQ and ACC) are its
grids and settings by index, newest first, and `retunes` the indices of R230. The three counts are of outputs before `countFrom` (R240). -/
structure Tuner where
  enabled : Bool
  snap : Bool
  decim : Nat
  gainShift : Nat
  delayAdj : Nat
  freq : Nat
  phase : Nat
  continuous : Bool
  configReset : Bool
  anchor : Option Nat
  grids : List TunerGrid
  gains : List (Nat × Nat)
  ncos : List (Nat × Nat × Nat)
  retunes : List Nat
  invCount : Nat
  clipCount : Nat
  ovrCount : Nat
  countFrom : Nat
deriving DecidableEq, Repr, Inhabited

/-- A non-negative dyadic number m 2^e, the form in which binary32 and binary64 powers are held (R248, R252). -/
structure Dyad where
  m : Nat
  e : Int
deriving DecidableEq, Repr, Inhabited

/-- The settings of an engine's product output (R260, R266): SEL (true: bins), FORMAT, DETECT and DECIM. -/
structure ProductOutput where
  bins : Bool
  format : Nat
  detect : Nat
  decim : Nat
deriving DecidableEq, Repr, Inhabited

/-- An open group of frames (R260, R285): its first frame number, the frames and valid frames so far, the summed
INV_COUNT, the flags ORed, the key index of the first and last frame in 2^-32 sample, the first FRAME_START and the last
FRAME_END, the accumulated entries, and the complex bins of its first frame. -/
structure Group where
  first : Nat
  frames : Nat
  valid : Nat
  invCount : Nat
  flags : SpecFlags
  regrid : Bool
  firstInvalid : Bool
  firstInv : Nat
  firstFlags : SpecFlags
  firstKey : Nat
  lastKey : Nat
  start : Nat
  firstStop : Nat
  stop : Nat
  entries : List Dyad
  sample : List Dyad
  cplx : List (Word × Word)
deriving DecidableEq, Repr

/-- A bound WBUF region (R243): partition handle, first AU, AUs. -/
structure WbufRegion where
  handle : Word
  offset : Nat
  au : Nat
deriving DecidableEq, Repr

/-- A user window bank (R245): the entries of T that are not 32,768, in index order, and READY. -/
structure UserBank where
  table : List (Nat × Nat)
  ready : Bool
deriving DecidableEq, Repr, Inhabited

/-- What SPEC_CONFIG sets on an engine (R264). -/
structure EngineConfig where
  tuner : Bool
  window : Nat
  log2n : Nat
  map : Nat
  hop : Nat
  binStart : Nat
  binCount : Nat
  d : Nat
deriving DecidableEq, Repr, Inhabited

/-- A spectrum engine (R241-R268): 0-3 are W0-W3, 4-7 Z0-Z3. `anchor` is E_g of the current or last grid and `live` tells
that the grid runs. -/
structure Engine where
  enabled : Bool
  cfg : EngineConfig
  wbuf : Option WbufRegion
  overrate : Bool
  bindingLost : Bool
  anchor : Option Nat
  live : Bool
  frame : Nat
  spectra : Nat
  invalidSpectra : Nat
  prodRecords : Nat
  out : ProductOutput
  nextOut : List (Nat × ProductOutput)
  group : Option Group
  bank0 : UserBank
  bank1 : UserBank
deriving DecidableEq, Repr, Inhabited

/-- What DENS_CONFIG sets on a density engine (R292). Handle 0: no region. -/
structure DensityConfig where
  zoom : Bool
  persist : Nat
  underDrop : Bool
  overDrop : Bool
  decayLog2 : Nat
  decayShift : Nat
  rows : Nat
  cols : Nat
  bottom : Int
  step : Nat
  frameSc : Nat
  ring : Word
  ringOffset : Nat
  nslots : Nat
  layer : Word
  layerOffset : Nat
deriving DecidableEq, Repr, Inhabited

/-- The open density frame (R273, R279). -/
structure DensityFrame where
  start : Nat
  spectra : Nat
  skipped : Nat
  discarded : Nat
  flags : SpecFlags
  regrid : Bool
  cleared : Bool
deriving DecidableEq, Repr

/-- What happens to a density engine at an index (R275, R283, R292, R293): a decay step, a clear, a configuration, a stop and a start. -/
inductive DensAct where
  | decay
  | clear
  | config (c : DensityConfig)
  | stop
  | start
deriving DecidableEq, Repr

/-- A density engine (R269-R294). `cells` and `exported` hold the non-zero counts of the active and of the export buffer by cell number
r COLS + j, and `late` what happened at an index that the spectra have not reached. -/
structure Density where
  enabled : Bool
  cfg : DensityConfig
  mismatch : Bool
  anchor : Option Nat
  seq : Nat
  frame : Option DensityFrame
  cells : List (Nat × Nat)
  exported : List (Nat × Nat)
  late : List (Nat × DensAct)
  frames : Nat
  exportLost : Nat
  layerSkipped : Nat
  newest : Nat
deriving DecidableEq, Repr, Inhabited

/-- What SPGM_CONFIG sets on a spectrogram unit (R295). -/
structure SpgmConfig where
  engine : Nat
  detect : Nat
  log8 : Bool
  mergeMap : Nat
  colMerge : Nat
  lineSpectra : Nat
  bottom : Int
  step : Nat
  ring : Word
  ringOffset : Nat
  nslots : Nat
  layer : Word
  layerOffset : Nat
  layerLines : Nat
deriving DecidableEq, Repr, Inhabited

/-- What happens to a spectrogram unit at an index (R295, R296). -/
inductive SpgmAct where
  | config (c : SpgmConfig)
  | enable (on : Bool)
deriving DecidableEq, Repr

/-- A spectrogram unit SG0-SG7 (R285-R297). `late`: what happened at an index that the spectra have not reached. -/
structure Spgm where
  enabled : Bool
  cfg : SpgmConfig
  overrate : Bool
  line : Nat
  group : Option Group
  late : List (Nat × SpgmAct)
  lines : Nat
  invalidLines : Nat
  linesLost : Nat
deriving DecidableEq, Repr, Inhabited

/-- DISABLED, ENABLED or ARMED (R300). -/
inductive SlotState where
  | disabled | enabled | armed
deriving DecidableEq, Repr, Inhabited

/-- What TRIG_SLOT_CONFIG sets (R328, R329). -/
structure SlotConfig where
  type : Nat
  channel : Nat
  source : Nat
  actEn : Bool
  single : Bool
  notice : Bool
  shift : Nat
  holdoff : Nat
  sheafMask : Nat
  armMask : Nat
  timerMask : Nat
  p0 : Word
  p1 : Word
  p2 : Word
  p3 : Word
deriving DecidableEq, Repr, Inhabited

/-- A change of a slot's state that its source has reported and the unit has not decided (R304, R316): from index `at_` on
(an interval) or at it only (a pulse), with the stamp and the data words a record would carry (R321, R323). -/
structure SlotReport where
  at_ : Nat
  value : Bool
  stamp : Nat
  data : List Word
deriving DecidableEq, Repr, Inhabited

/-- A condition slot (R299-R334): its detector (comparator, width count, run start), the index before which inputs do not
count, the index of the next input that its LEVEL or EDGE detector takes, its state q at EVAL_INDEX and the last index at which it held, the stamp and data of the rise, the reports not yet
decided, its timer, and its counters. -/
structure TrigSlot where
  cfg : SlotConfig
  st : SlotState
  armIndex : Nat
  since : Nat
  fed : Nat
  lastFiring : Option Nat
  comp : Bool
  width : Nat
  runStart : Nat
  q : Bool
  lastTrue : Option Nat
  stamp : Nat
  data : List Word
  reports : List SlotReport
  timerAt : Option Nat
  asserts : Nat
  counted : Nat
  firings : Nat
  wins : Nat
  suppressed : Nat
  heldOff : Nat
  blanked : Nat
deriving DecidableEq, Repr, Inhabited

/-- The settings of a mask comparator (R306, R331). -/
structure MaskSettings where
  zoom : Bool
  below : Bool
  offset : Int
  base : Nat
  npts : Nat
deriving DecidableEq, Repr, Inhabited

/-- A mask comparator (R306-R308): its settings by effective index, oldest first, and the entries of T that are not
+32,767. -/
structure TrigMask where
  settings : List (Nat × MaskSettings)
  table : List (Nat × Nat)
deriving DecidableEq, Repr, Inhabited

/-- A TRIG_FORCE that waits for the decision of its index (R333). -/
structure ForceWait where
  cmd : Nat
  slot : Nat
  index : Nat
deriving DecidableEq, Repr

/-- A command's change, effective at an index, that comes before a trigger there (R315, R342): a configuration, a state for the slots of a
mask (R328, R330), or the arming or disarming of sheaves (R360). -/
inductive TrigChange where
  | config (slot : Nat) (c : SlotConfig)
  | arm (mask : Nat) (st : SlotState)
  | sheaves (mask : Nat) (arm finish : Bool)
deriving DecidableEq, Repr

/-- What a source other than a sample stream reports to the condition slots (R304-R310): an engine (0-7), a Thresher (8-11), a mask comparator
(12-15) or an interval-unit input (16-24), the event index of the source, the stamp, the spectrum or edge number, whether its grid ends there
(then nothing else counts), INVALID, and the columns, the violating columns or the flagged bins (`none`: lost, R309) of the spectrum. -/
structure TrigEvent where
  source : Nat
  index : Nat
  stamp : Nat
  seq : Nat
  stop : Bool
  invalid : Bool
  cols : List Dyad
  viol : List (Nat × Int)
  flags : Option (List Nat)
deriving DecidableEq, Repr

/-- The trigger unit (R298-R335): slots, mask comparators, EVAL_INDEX, the next index to decide, the changes that its decisions have not
reached, what its sources have reported, SEQ, the record queue to the MQ and its losses, the
last TRIG_EVENT notice and those withheld since, and the forced firings that wait. -/
structure TrigUnit where
  slots : List TrigSlot
  masks : List TrigMask
  evalIndex : Nat
  next : Nat
  changes : List (Nat × TrigChange)
  events : List TrigEvent
  seq : Nat
  records : List (List Word)
  recordsLost : Nat
  lastNotice : Option Nat
  withheld : Nat
  forced : List ForceWait
deriving DecidableEq, Repr

/-- A spectrum record in a history ring (R336): its key index in 2^-32 sample, its bytes, flags, INVALID and stamp. -/
structure RingRecord where
  key : Nat
  bytes : List Byte
  invalid : Bool
  flags : SpecFlags
  stamp : Nat
deriving DecidableEq, Repr

/-- A run of a ring that has ended (R337), for triggers that are decided later: its first index, the index at which it ended, the closure
reason of R350, and its records. -/
structure PastRun where
  start : Nat
  stop : Nat
  reason : Nat
  records : List RingRecord
deriving DecidableEq, Repr

/-- A history ring (R336-R338): its source, its AUs, its depth and record size, the index at which its run starts (`none`:
no run), for a spectra source the records of the run, oldest first, the run before it, and the elements whose ring words were found uncorrectable
(R102). -/
structure CapRing where
  kind : Nat
  unit : Nat
  handle : Word
  auOffset : Nat
  auCount : Nat
  depth : Nat
  recSize : Nat
  run : Option Nat
  records : List RingRecord
  past : Option PastRun
  bad : List Nat
deriving DecidableEq, Repr

/-- A reduction lane (R352-R355). -/
structure Lane where
  kind : Nat
  deadband : Nat
  param : Nat
  cap : Nat
deriving DecidableEq, Repr, Inhabited

/-- What CAP_SHEAF_CONFIG sets (R359). -/
structure SheafConfig where
  kind : Nat
  unit : Nat
  full : Bool
  ring : Bool
  pre : Nat
  len : Nat
  nseg : Nat
  handle : Word
  offset : Nat
  lanes : List Lane
deriving DecidableEq, Repr, Inhabited

/-- An open or closing segment (R340-R350): its trigger, its number, the element number and index of its first element, its
length in elements as far as known, END, the stamp of the first element, TIMEBASE_GEN, the element size, the records of a spectra source
once they are fixed, and its closure reason once one applies. -/
structure Segment where
  k : Nat
  trigSeq : Nat
  number : Nat
  first : Nat
  start : Nat
  count : Nat
  stop : Nat
  preShort : Bool
  stamp : Nat
  gen : Nat
  esize : Nat
  records : List RingRecord
  close : Option Nat
deriving DecidableEq, Repr, Inhabited

/-- A sheaf (R339-R361): its configuration, the element size for which its slots are laid out, ARMED with the arming index A, the segment open and the segments
closed by an event whose slot is not yet complete, SEG_SEQ of the next segment, END of the previous segment, FINISH, and
its status and counters. `sinceArm` counts the segments closed since arming. -/
structure Sheaf where
  configured : Bool
  cfg : SheafConfig
  esize : Nat
  armed : Bool
  armIndex : Nat
  finish : Bool
  seg : Option Segment
  closing : List Segment
  next : Nat
  lastEnd : Option Nat
  sinceArm : Nat
  sourceChanged : Bool
  bindingLost : Bool
  lastClose : Nat
  segments : Nat
  ignored : Nat
  preShort : Nat
  early : Nat
  truncated : Nat
deriving DecidableEq, Repr, Inhabited

/-- The capture unit (R336-R362), with the segment headers that the MQ has not taken. -/
structure CapUnit where
  rings : List CapRing
  sheaves : List Sheaf
  queue : List (List Word)
deriving DecidableEq, Repr

/-- What INT_CONFIG sets (R383). -/
structure IntConfig where
  products : Nat
  zoom : Bool
  exclude : Bool
  anchor : Bool
  notice : Bool
  sumLog2 : Nat
  accShift : Nat
  firstBin : Nat
  nbins : Nat
  frameLen : Nat
  handle : Word
  offset : Nat
deriving DecidableEq, Repr, Inhabited

/-- The open integration frame (R367-R371): its interval, PARTIAL, the four set counts, the flags and RETUNE, an unlock
inside it, and the saturated accumulators by product and output word. -/
structure IntFrame where
  start : Nat
  stop : Nat
  partialFrame : Bool
  sets : Nat
  invalidSets : Nat
  taintedSets : Nat
  warmupSets : Nat
  flags : SpecFlags
  retune : Bool
  gap : Bool
  sat : List (Nat × Nat)
deriving DecidableEq, Repr, Inhabited

/-- What a Thresher said of a spectrum (R377, R379): its flags lost, in warm-up, or the flagged engine bins. -/
inductive ThOut where
  | lost
  | warmup
  | flags (bins : List Nat)
deriving DecidableEq, Repr

/-- A member spectrum that has arrived at the integration unit (R364). -/
structure IntMember where
  engine : Nat
  number : Nat
  key : Nat
  invalid : Bool
  flags : SpecFlags
  bins : List (Word × Word)
  th : ThOut
deriving DecidableEq, Repr

/-- A span of an unlock gap that tainted sets are still to be counted for (R368): the next key index of the old grid, its
spacing, and the first key index of the grid after the gap once it is known, all in 2^-32 sample. -/
structure IntGap where
  key : Nat
  hop : Nat
  stop : Option Nat
deriving DecidableEq, Repr

/-- What happens to the integration unit at an index (R370, R371, R383, R384): a configuration, ENABLE, the end of its mode with a CLOSE, the
start of a mode that runs it, a configuration of its sources that it cannot follow, and a retune of a source tuner. -/
inductive IntAct where
  | config (c : IntConfig)
  | enable (on : Bool)
  | leave (close : Nat)
  | enter
  | source
  | retune
deriving DecidableEq, Repr

/-- The integration unit (R363-R390). `base` is the E of ANCHOR = 1, and `late` what happened at an index that the sets have not reached. -/
structure IntUnit where
  enabled : Bool
  cfg : IntConfig
  base : Nat
  configGen : Nat
  mismatch : Bool
  bindingLost : Bool
  seq : Nat
  frame : Option IntFrame
  members : List IntMember
  gap : Option IntGap
  late : List (Nat × IntAct)
  header0 : List Word
  header1 : List Word
  queue : List (List Word)
  frames : Nat
  droppedSets : Nat
  satFrames : Nat
  lastNotice : Option Nat
  withheld : Nat
deriving DecidableEq, Repr

/-- What TH_CONFIG sets (R387). -/
structure ThConfig where
  zoom : Bool
  skLog2 : Nat
  powExcess : Nat
  skLo : Nat
  skHi : Nat
  first : Nat
  count : Nat
  handle : Word
  offset : Nat
deriving DecidableEq, Repr, Inhabited

/-- What happens to a Thresher at an index (R379, R387, R388): a configuration, a start and a stop. -/
inductive ThAct where
  | config (c : ThConfig)
  | start
  | stop
deriving DecidableEq, Repr

/-- A Thresher (R376-R389): `valid` are the valid spectra since its restart, and `late` what happened at an index that the spectra have not reached. -/
structure Thresher where
  enabled : Bool
  cfg : ThConfig
  bindingLost : Bool
  late : List (Nat × ThAct)
  valid : Nat
  skFlags : Nat
  powFlags : Nat
  dropped : Nat
  restarts : Nat
deriving DecidableEq, Repr, Inhabited

/-- An entry of the destination table (R406-R409, R424). -/
inductive Destination where
  | none
  | udp (port : Nat) (v6 : Bool) (dscp src dst mac : Nat) (addr : List Word)
  | hostRing (base slotsLog2 slotSize ptr vector : Nat) (intEn : Bool) (count time : Nat)
  | pair (remote : Nat)
deriving DecidableEq, Repr, Inhabited

/-- A destination entry with the state of a HOST_RING (R408): PROD, the CONS last read, and the packets written since the last
interrupt. -/
structure DestEntry where
  dest : Destination
  prod : Nat
  cons : Nat
  unsignalled : Nat
deriving DecidableEq, Repr, Inhabited

/-- What STRM_CONFIG sets (R425). -/
structure StreamConfig where
  pkind : Nat
  unit : Nat
  quant : Nat
  vdif : Bool
  pack : Nat
  level : Nat
  vblockLog2 : Nat
  dests : List Nat
  stripe : Nat
  blocks : Nat
  payload64 : Nat
  thresh : Nat
  sourceId : Word
  ring : Word
  auOffset : Nat
  auCount : Nat
  w7 : Word
  w8 : Word
  w9 : Word
deriving DecidableEq, Repr, Inhabited

/-- Where the bytes of an item lie (R398): at hand; in a slot of a pool region, with its trailer (R280, R348); in a half of
the integration region, behind its header (R373); or in a region without a trailer. -/
inductive ItemSource where
  | bytes (l : List Byte)
  | slot (handle : Word) (offset size trailer : Nat)
  | half (header : List Word) (handle : Word) (offset size configGen : Nat)
  | region (handle : Word) (offset size : Nat)
deriving DecidableEq, Repr

/-- An item that a context has still to send (R393, R398). -/
structure StreamItem where
  seq : Nat
  index : Nat
  source : ItemSource
deriving DecidableEq, Repr

/-- The elements of one sample packet (R394, R404): number and count, index, stamp and TIMEBASE_GEN of the first, the VDIF
element number of the first, the first of a run, and the last before a stop or gap; and, from the moment at which a new numbering begins, the
containers and what the samples say. -/
structure StreamPiece where
  first : Nat
  count : Nat
  index : Nat
  stamp : Nat
  gen : Nat
  q : Nat
  fresh : Bool
  last : Bool
  settled : Option (List Word × ClockNote)
deriving DecidableEq, Repr, Inhabited

/-- A generated packet in the context's store (R412, R414): SEQ, its bytes as sent, its offset in the ring, its first element
or item index, LAST, and whether the live read pointer has sent it. -/
structure StoredPacket where
  seq : Nat
  bytes : List Byte
  offset : Nat
  index : Nat
  first : Bool
  last : Bool
  sent : Bool
deriving DecidableEq, Repr

/-- A rewind mark (R415, R416). -/
structure Mark where
  seq : Option Nat
  lost : Bool
deriving DecidableEq, Repr, Inhabited

/-- A STRM_MARK that waits for its packet (R415): from the first packet at element index `at_` or later. -/
structure MarkWait where
  cmd : Nat
  mark : Nat
  at_ : Nat
deriving DecidableEq, Repr

/-- A running rewind (R417). -/
structure Rewind where
  cmd : Nat
  next : Nat
  stop : Nat
  override : Option Nat
  resent : Nat
  lost : Bool
deriving DecidableEq, Repr

/-- A stream context (R391-R418). `configured`: by a STRM_CONFIG; `run` is the next element of the present run of a sample stream,
`fresh` that it is the first after a start or gap, and `pieces` the packets still to form from runs that have ended; `items` are the items
offered, `offset` the bytes of the first already cut into packets, and `lastSent` the SEQ and index of the last packet sent. -/
structure StreamCtx where
  cfg : StreamConfig
  configured : Bool
  started : Bool
  startIndex : Nat
  stopIndex : Option Nat
  seq : Nat
  run : Option Nat
  fresh : Bool
  pieces : List StreamPiece
  items : List StreamItem
  offset : Nat
  packets : List StoredPacket
  writeOffset : Nat
  marks : List Mark
  markWaits : List MarkWait
  rewind : Option Rewind
  bindingLost : Bool
  sent : Nat
  dropped : Nat
  retx : Nat
  clipped : Nat
  spoiled : Nat
  skipped : Nat
  packetsSent : Nat
  lastSent : Option (Nat × Nat)
deriving DecidableEq, Repr, Inhabited

/-- An Ethernet port (R410, R419, R423, R430). The FEC counters are counts of the line that no row carries. -/
structure EthPort where
  en : Bool
  ptpEn : Bool
  ptpEntry : Nat
  mac : Nat
  mtu : Nat
  ipv4 : Word
  ipv6 : List Word
  linkUp : Bool
  txFrames : Nat
  rxFrames : Nat
  rxDiscarded : Nat
  pauseIgnored : Nat
  ptpRxLost : Nat
deriving DecidableEq, Repr, Inhabited

/-- The stream engine (R391-R432), with the context last served of each egress class on each link (R104). -/
structure StreamUnit where
  ports : List EthPort
  dests : List DestEntry
  ctxs : List StreamCtx
  turns : List Nat
deriving DecidableEq, Repr

/-- A memory-to-memory job (R444, R449). -/
structure PackJob where
  cmd : Nat
  elem : Nat
  pred : Nat
  level : Nat
  rawOk : Bool
  stride : Nat
  blockBytes : Nat
  inHandle : Word
  inOffset : Nat
  length : Nat
  outHandle : Word
  outOffset : Nat
  outLength : Nat
deriving DecidableEq, Repr

/-- A packer (R433-R450): the inline choices of R442, its jobs, running job first, and its counters. -/
structure Packer where
  samplePred : Nat
  itemPred : Nat
  itemElem : Nat
  jobs : List PackJob
  blocks : Nat
  noGain : Nat
  outFull : Nat
  inBytes : Nat
  outBytes : Nat
deriving DecidableEq, Repr, Inhabited

/-- An item in the MQ's ring (R453): its SEQ, its first byte position, its size, and ACCEPT_INDEX. Positions count bytes from
power-up and wrap in the partition. -/
structure MqItem where
  seq : Nat
  start : Nat
  size : Nat
  accept : Nat
deriving DecidableEq, Repr

/-- A HOST item of MQ_PUT (R466). -/
structure HostItem where
  cmd : Nat
  tag : Nat
  payload : List Word
deriving DecidableEq, Repr

/-- The item that is open (R455): a HOST item being written, its SEQ, ACCEPT_INDEX and LOSS, and whether a flush has cut it (R460). -/
structure MqOpen where
  item : HostItem
  seq : Nat
  accept : Nat
  loss : Bool
  aborted : Bool
deriving DecidableEq, Repr

/-- A deferred MQ_READ (R465). -/
structure MqRead where
  cmd : Nat
  host : Option Nat
  minItems : Nat
  maxBytes : Nat
deriving DecidableEq, Repr

/-- The metadata queue (R451-R470): binding, producers, LINGER, THRESHOLD; the position up to which lines are written and the
line buffer that follows it (R456); the items not yet freed; the read positions of the host and of stream contexts; SEQ; the open item and
the HOST items behind it; the deferred MQ_READ; ARMED of MQ_LEVEL; and the producers whose next item carries LOSS. -/
structure MqUnit where
  handle : Word
  mask : Nat
  turn : Nat
  linger : Nat
  threshold : Nat
  lineEnd : Nat
  buffer : List Byte
  items : List MqItem
  hostPos : Nat
  readers : List (Nat × Nat)
  seq : Nat
  open_ : Option MqOpen
  hostQueue : List HostItem
  read : Option MqRead
  armed : Bool
  loss : List Nat
  dropped : Nat
  aborted : Nat
  flushed : Nat
  ueItems : Nat
  padBytes : Nat
deriving DecidableEq, Repr

/-- An interval-unit input (R471-R479): its settings, the raw time of its last accepted edge in ticks of 1/16 sample, the level
of R473, its counters, the stamp of its last accepted edge, and the delay line that serves it. -/
structure TdcInput where
  enabled : Bool
  falling : Bool
  stuckNotice : Bool
  stuckUs : Nat
  stuck : Bool
  active : Bool
  last : Option Nat
  accepted : Nat
  overrun : Nat
  stuckEvents : Nat
  lastStamp : Nat
  line : Nat
deriving DecidableEq, Repr, Inhabited

/-- A delay line (R477, R545): retired or not, its table, the index and the dwell count at which that was computed, and the two
figures of that calibration. -/
structure TdcLine where
  retired : Bool
  table : List Nat
  calIndex : Nat
  calDwell : Nat
  dnl : Nat
  misses : Nat
deriving DecidableEq, Repr, Inhabited

/-- What TDC_SLOT_CONFIG sets (R495). `x0` and `period` are in 2^-32 sample. -/
structure TdcConfig where
  event : Bool
  start : Nat
  stop : Nat
  expect : Nat
  each : Bool
  stats : Bool
  notice : Bool
  count : Nat
  statsN : Nat
  timeoutNs : Nat
  halfWindow : Nat
  spacing : Nat
  width : Nat
  x0 : Nat
  period : Nat
deriving DecidableEq, Repr, Inhabited

/-- One edge or launch as a slot keeps it: raw time in ticks, stamp in 2^-32 sample modulo 2^96, TIMEBASE_GEN, and the flags
HOLDOVER, SLEW and CAL. -/
structure TdcEdge where
  raw : Nat
  stamp : Nat
  gen : Nat
  holdover : Bool
  slew : Bool
  cal : Bool
deriving DecidableEq, Repr, Inhabited

/-- An open measurement (R483): its opening edge, whether START opened it, and EXTRA. For an EVENT window `first` is the edge
that hit it. -/
structure TdcOpen where
  first : TdcEdge
  byStart : Bool
  extra : Bool
deriving DecidableEq, Repr, Inhabited

/-- The results gathered for one statistics record (R487). -/
structure TdcStats where
  n : Nat
  valid : Nat
  missed : Nat
  extra : Nat
  near : Nat
  order : Nat
  sum : Int
  sumSq : Nat
  lo : Int
  hi : Int
  clock : Bool
  holdover : Bool
  slew : Bool
  cal : Bool
  gen : Nat
  firstStamp : Nat
deriving DecidableEq, Repr, Inhabited

/-- A measurement slot (R481-R488): ARMED with the index A from which edges count; Q of R483 in ticks; the window number of
R484; the launch number of R486 with the index of launch 0 and the suspension of R533; the open measurement; the statistics; and the counts. -/
structure TdcSlot where
  cfg : TdcConfig
  armed : Bool
  since : Nat
  q : Nat
  window : Nat
  launch : Nat
  launchBase : Nat
  suspend : Bool
  suspended : Bool
  open_ : Option TdcOpen
  gathered : TdcStats
  results : Nat
  statSeq : Nat
  lost : Nat
  outside : Nat
  lastResult : List Word
  lastStats : List Word
deriving DecidableEq, Repr, Inhabited

/-- The interval unit (R471-R499): inputs by code, delay lines, the spare line, the next input to be relieved, rotation,
tables ready, dwells completed since the tables were built, slots, and the items that wait for the MQ (slot and words). -/
structure TdcUnit where
  inputs : List TdcInput
  lines : List TdcLine
  spare : Nat
  relief : Nat
  rotating : Bool
  notReady : Bool
  dwells : Nat
  slots : List TdcSlot
  queue : List (Nat × List Word)
deriving DecidableEq, Repr

/-- A monitor input (R500-R514): its configuration, the latest result entry, its limit states, and OVR of its last
result. -/
structure McInput where
  order : Nat
  dr : Nat
  single : Bool
  threshNotice : Bool
  ovrNotice : Bool
  detCh : Nat
  high : Int
  low : Int
  hyst : Nat
  latest : List Word
  highState : Bool
  lowState : Bool
  prevOvr : Bool
deriving DecidableEq, Repr, Inhabited

/-- Who asked for a conversion (R506-R511). -/
inductive McKind where
  | sequence
  | system
  | convert (cmd : Nat)
  | urgent (cmd : Nat)
deriving DecidableEq, Repr

/-- A running or aborted conversion (R506, R509): its input, the settings it runs with, and the RESTARTED and CONTINUOUS bits
its result will carry. -/
structure McConversion where
  kind : McKind
  input : Nat
  order : Nat
  dr : Nat
  detCh : Nat
  restarted : Bool
  continuous : Bool
deriving DecidableEq, Repr

/-- The monitor converter (R500-R523). `seqNext` is the next input of the pass, `streamBroken` tells that a continuous stream
was interrupted, `sysPos` is the next input of the running system pass (0: none). `hot` and `offSupply` are the inputs that a system pass
found beyond the limits of R629. -/
structure McUnit where
  inputs : List McInput
  seqMask : Nat
  run : Bool
  sysHistory : Bool
  pendingSeq : Option (Nat × Bool × Bool)
  seqNext : Nat
  streamBroken : Bool
  running : Option McConversion
  aborted : Option McConversion
  sysDue : Bool
  sysPos : Nat
  converts : List (Nat × Nat)
  urgents : List (Nat × Nat)
  history : List (List Word)
  aborts : Nat
  lost : Nat
  ovrResults : Nat
  hot : List Nat
  offSupply : List Nat
deriving DecidableEq, Repr

/-- The corrections of one slice (R544): OFFSET in 1/64 LSB, GAIN in 2^-16, SKEW in 1/256 ps, the rotation step of its last
calibration, and the changes made there. -/
structure SliceCorr where
  offset : Int
  gain : Int
  skew : Int
  step : Nat
  dOffset : Int
  dGain : Int
  dSkew : Int
deriving DecidableEq, Repr, Inhabited

/-- A commanded activity (R529-R534): the activity codes it holds (a TDC_ARM of two probes has two), its command, the slots, the
channels or the handle it names, the index from which it has waited, the index at which the last activity that conflicts with it ended, its start index
once it runs, with the length of a
measurement in samples and what it reads at its start: the CAL positions, then D of each channel in 2^-16 ps and G in 2^-32 sample (R539). -/
structure Activity where
  codes : List Nat
  cmd : Nat
  key : Nat
  waitFrom : Nat
  clear : Nat
  start : Option Nat
  length : Nat
  taken : List Int
deriving DecidableEq, Repr

/-- The maintenance arbiter (R529-R548): commanded activities in the order of R532; the TDC_CAL dwell in progress by its first
index, the deferral of the next by the index it fell due, and its priority of R533; the earliest boundary at which the slice rotation may
advance (R177, R536); STARTS, WAITS and MAX_WAIT_MS by activity code; the slice corrections by channel, and since when a background scrub is deferred. -/
structure MaintUnit where
  acts : List Activity
  dwell : Option Nat
  deferred : Option Nat
  priority : Bool
  sliceFrom : Nat
  starts : List Nat
  waits : List Nat
  maxWait : List Nat
  slices : List (List SliceCorr)
  scrubFrom : Option Nat
deriving DecidableEq, Repr

/-- The timing and link settings of DISP_TIMING (R572). -/
structure DispTiming where
  video : Bool
  deep : Bool
  teFalling : Bool
  margin : Nat
  crcLimit : Nat
  hact : Nat
  htotal : Nat
  vact : Nat
  vtotal : Nat
  hsa : Nat
  hbp : Nat
  vsa : Nat
  vbp : Nat
  pixHz : Nat
  laneMbps : Nat
  teDelay : Nat
deriving DecidableEq, Repr

/-- A layer of the display (R553, R574), with the palette entries that are not 0. -/
structure DispLayer where
  en : Bool
  format : Nat
  zpos : Nat
  opaque_ : Bool
  reduce : Bool
  logmap : Bool
  dir : Bool
  alpha : Nat
  x : Nat
  y : Nat
  w : Nat
  h : Nat
  handle : Word
  offset : Nat
  pitch : Nat
  colour : Word
  scale : Nat
  bottom : Int
  step : Nat
  lines : Nat
  palette : List (Nat × Nat)
deriving DecidableEq, Repr, Inhabited

/-- A whole layer state: L0-L5 and the background colour (R554). -/
structure DispState where
  layers : List DispLayer
  bg : Nat
deriving DecidableEq, Repr, Inhabited

/-- OFF, LINK or RUN (R573). -/
inductive DispMode where
  | off | link | run
deriving DecidableEq, Repr

/-- What starts a line on the DSI link (R564): the sync event of the first VSA line, that of every other line in HS, or none while the lanes are in
LP-11. -/
inductive LineStart where
  | vsync | hsync | lp11
deriving DecidableEq, Repr

/-- A line in video mode (R564): its start, the HSA, HBP and HFP pixel clocks about its pixels, and the bytes of the pixel packet. -/
structure VideoLine where
  start : LineStart
  hsa : Nat
  hbp : Nat
  pixels : List Byte
  hfp : Nat
deriving DecidableEq, Repr

/-- A DCS command that carries pixels in command mode (R565). -/
inductive DcsWrite where
  | memoryStart | memoryContinue
deriving DecidableEq, Repr

/-- A frame as the frame store holds it (R550): its composition number, its pixels in D-bit components, and the layers it skipped. -/
structure DispFrame where
  number : Nat
  pixels : List (Nat × Nat × Nat)
  skipped : Nat
deriving DecidableEq, Repr

/-- The last frame comparison that failed (R566): FRAME, computed and read-back CRC, and the index at the end of its scan-out. -/
structure DispCrc where
  frame : Nat
  computed : Word
  readback : Word
  at_ : Nat
deriving DecidableEq, Repr

/-- The display (R549-R579). `running` tells that frame period 0 has begun; `fixed` is the layer state fixed at the latch line, `current` that of
the composition that runs, `composed` its frame, and `shown` the frame that scan-out sends (`none`: background); `pastLatch`, `sending` and
`compare` describe the frame period; `teReady` is an accepted edge that will start a frame; `leaving` the state that waits for the next
frame start with the commands to complete; `refs` the partitions it references (R562); `panel` the commands of DISP_PANEL_CMD, and whether
the first awaits its response. -/
structure DispUnit where
  timing : DispTiming
  mode : DispMode
  vblank : Bool
  pending : List DispLayer
  latched : DispState
  fixed : DispState
  current : DispState
  running : Bool
  frame : Nat
  composed : Option DispFrame
  shown : Option DispFrame
  pastLatch : Bool
  sending : Bool
  compare : Bool
  linkReset : Option DispCrc
  teReady : Bool
  teLost : Bool
  leaving : Option (DispMode × List Nat)
  refs : List Word
  panel : List Nat
  panelWait : Option Bool
  fsIndex : Nat
  consec : Nat
  crcMismatches : Nat
  linkResets : Nat
  overruns : Nat
  lateCommits : Nat
  teIgnored : Nat
  teLostEvents : Nat
  skipMask : Nat
  renderErrors : Nat
  storeUe : Nat
  layerUe : Nat
deriving DecidableEq, Repr

/-- The roles of R584. -/
inductive Role where
  | solo | primary | mirror
deriving DecidableEq, Repr, Inhabited

/-- The conditions of a MIRROR (R584), in code order. -/
inductive Condition where
  | joining | eligible | isolated | diverged
deriving DecidableEq, Repr

/-- The states of the pair link (R613), in code order. -/
inductive LinkState where
  | down | training | up | incompatible
deriving DecidableEq, Repr

/-- A forwarded command that still lacks a status (R591): MSEQ, its own command, its own final status and the mirror's. -/
structure ForwardRecord where
  mseq : Nat
  cmd : Nat
  own : Option Status
  other : Option Status
deriving DecidableEq, Repr

/-- A checkpoint (R594): from the cell that starts at an index on, packets are numbered from SEQ; `ends` that no cell from there on holds a
packet. -/
structure Checkpoint where
  ctx : Nat
  seq : Nat
  cell : Nat
  ends : Bool
deriving DecidableEq, Repr

/-- The pair unit (R580-R614). `otherHb` is the HB_TIMEOUT that the primary's heartbeat carries (R585); `live` its own LIVE and `otherLive` the
partner's; `mirrored` that the partner is its MIRROR and `otherEligible` that this one is ELIGIBLE; `join` the PAIR_JOIN that runs and `m0` its cut;
`joinMode` the mode the snapshot brings and `joined` the index at which it arrived; `coasting` that the partner was unlocked or coasted, and
`heardAt` the index of the last heartbeat, `liveAt` that of the last that advanced LIVE; `lastSent` LAST_SENT by context; `switchAt` the W of a PAIR_SWITCH as the mirror knows it, and `handover` the W at which this device last exchanged roles; `itemFloor`
the SEQ up to which the old primary sent the items of a context (R606). -/
structure PairUnit where
  role : Role
  condition : Condition
  link : LinkState
  fourLanes : Bool
  linkEn : Bool
  strobeEn : Bool
  autoRejoin : Bool
  yieldMask : Nat
  hbTimeout : Nat
  otherHb : Nat
  live : Nat
  strobe : Bool
  otherLive : Nat
  strobeSeen : Bool
  deposed : Bool
  skew : Int
  coasting : Bool
  latency : Nat
  heardAt : Option Nat
  liveAt : Option Nat
  mirrored : Bool
  otherEligible : Bool
  suppressed : Bool
  mseq : Nat
  divergeMseq : Nat
  join : Option Nat
  m0 : Nat
  joinMode : Mode
  joined : Option Nat
  switchAt : Option Nat
  handover : Option Nat
  lastSent : List (Nat × Nat × Nat)
  itemFloor : List (Nat × Nat)
  checkpoints : List Checkpoint
  forwarded : List ForwardRecord
  noMirrorCount : Nat
  takeovers : Nat
  resourceMismatch : Nat
  hbMissed : Nat
  relayDropped : Nat
  retrains : Nat
deriving DecidableEq, Repr

/-- A black-box entry (R631): the index of the event, the reporting unit's group, whether the SPLL was unlocked and the
timebase in holdover, the channel, tile, slice, pair, port or slot concerned, the event code, SEQ and three data words. -/
structure BbEntry where
  index : Nat
  unit : Nat
  unlocked : Bool
  holdover : Bool
  place : Nat
  event : Nat
  seq : Nat
  data : List Word
deriving DecidableEq, Repr

/-- The black box (R631-R635): the live ring, oldest first; SEQ of the next entry; the frozen copy with its freezing
entry; the suppressed count; and the counters of its register block. -/
structure BlackBox where
  live : List BbEntry
  nextSeq : Nat
  frozen : Option (List BbEntry)
  freezeEvent : Nat
  freezeSeq : Nat
  suppressed : Nat
  lastReset : Nat
  warmResets : Nat
  watchdogResets : Nat
  coreRecoveries : Nat
  linkErrors : List Nat
  fallback : Bool
deriving DecidableEq, Repr

/-- An image slot of the flash (R621): its bytes as (offset, byte XOR 0xFF) pairs, so that an erased byte is not listed, and A_VALID or
B_VALID of FW_STATUS. -/
structure FlashSlot where
  data : List Host.Cell
  valid : Bool
deriving DecidableEq, Repr, Inhabited

/-- A FW_LOAD that waits for its erase (R647). -/
structure FlashErase where
  cmd : Nat
  slot : Nat
  data : List Byte
deriving DecidableEq, Repr

/-- A FW_ACTIVATE that runs (R636). -/
structure Activation where
  cmd : Nat
  slot : Nat
  prefer : Bool
  raise : Bool
deriving DecidableEq, Repr

/-- The firmware store (R621-R623, R636, R646-R649): slots A and B, the boot record, the fused minimum SECVER, the running slot and whether
the ROM serves the device. -/
structure Firmware where
  slots : List FlashSlot
  preferred : Nat
  fusedSecver : Nat
  running : Nat
  recovery : Bool
  loadOffset : Nat
  erase : Option FlashErase
  activate : Option Activation
deriving DecidableEq, Repr

/-- What a lockstep pair does (R624, R664). -/
inductive CoreState where
  | running | recovering | halted | retired
deriving DecidableEq, Repr, Inhabited

/-- A lockstep pair (R624-R626, R663): its state, the indices of its halts, and its debug registers. -/
structure CorePair where
  st : CoreState
  halts : List Nat
  cause : Nat
  number : Nat
  pc : Word
  gprs : List Word
  bps : List Word
  bpEn : Word
  wpAddr : List Word
  wpCtrl : List Word
deriving DecidableEq, Repr, Inhabited

/-- A tile link (R21, R630): the indices of its latest failures, the retraining attempt that runs (0: none) and since when samples
are INV, or since when the link has failed for good. -/
structure TileLink where
  recent : List Nat
  attempt : Nat
  since : Nat
  dead : Option Nat
deriving DecidableEq, Repr, Inhabited

/-- The counts of a store that its own logic scrubs (R101, R641): corrected and uncorrectable errors, and completed passes. -/
structure EccCount where
  ce : Nat
  ue : Nat
  passes : Nat
deriving DecidableEq, Repr, Inhabited

/-- The control complex, the reset pins and the tile links (R615-R630, R665): RESET_N low, a thermal trip and whether the die has cooled below
110 °C, a WARM reset that is held off, the PCIe link, WDT_MS, the error counts of the stores in the order of R641, and the control-complex memory as debug writes left it, the replies that wait while both pairs are halted (R665), and the number
that the next command had when the firmware started (R622). -/
structure HubUnit where
  resetLow : Bool
  tripped : Bool
  cooled : Bool
  warmHeld : Bool
  pcieUp : Bool
  wdtMs : Nat
  cores : List CorePair
  tiles : List TileLink
  fw : Firmware
  eccs : List EccCount
  ctlMem : List Host.Cell
  replies : List (Cmd × Entry)
  bootId : Nat
deriving DecidableEq, Repr

/-- The groups of digital I/O balls that boundary scan covers (R655), named as in R698. AIN, CAL, REFIN, the DSI lanes, AUXIN, the supplies and
the grounds are not among them; neither is the TAP itself. Log entry 113 (PRESUMED, unsafe). -/
inductive BallGroup where
  | sync | ppsIn | ppsOut | probeOut | probeRet
  | qspiClk | qspiCsN | qspiIo | mspiSclk | mspiCsN | mspiMosi | mspiMiso | mspiIrqN | pwrGood
  | evt | resetN | perstN | faultN | gpio | ncTest | sysclkIn | dsiTe
  | mirRx | mirTx | ethRefclk | pcieRefclk | ethRx | ethTx | pcieRx | pcieTx
deriving DecidableEq, Repr

/-- A ball (R698): its group, its number there, and whether it is the _N ball of a differential pair. -/
structure Ball where
  group : BallGroup
  number : Nat
  negative : Bool
deriving DecidableEq, Repr

/-- What the TAP puts on a ball. -/
inductive BallDrive where
  | level (b : Bool)
  | pulse (b : Bool)
  | train (b : Bool)
  | highZ
deriving DecidableEq, Repr

/-- How many signals a group has (R698). -/
def BallGroup.signals : BallGroup → Nat
  | .probeOut | .probeRet => 2
  | .qspiIo | .ncTest => 4
  | .evt | .mirRx | .mirTx => 8
  | .gpio | .ethRx | .ethTx | .pcieRx | .pcieTx => 16
  | _ => 1

/-- A group of differential pairs (R698). -/
def BallGroup.differential : BallGroup → Bool
  | .sync | .evt | .mirRx | .mirTx | .ethRefclk | .pcieRefclk | .ethRx | .ethTx | .pcieRx | .pcieTx => true
  | _ => false

/-- The AC-coupled lanes: PCIe, the four Ethernet ports and the pair link (R655). -/
def BallGroup.acCoupled : BallGroup → Bool
  | .mirRx | .mirTx | .ethRx | .ethTx | .pcieRx | .pcieTx => true
  | _ => false

/-- The groups whose balls the device can drive (R678-R687). -/
def BallGroup.isOutput : BallGroup → Bool
  | .ppsOut | .probeOut | .qspiClk | .qspiCsN | .qspiIo | .mspiMiso | .mspiIrqN | .faultN | .gpio | .mirTx | .ethTx | .pcieTx => true
  | _ => false

/-- The balls of a group, by number, the _P ball of a pair first. -/
def BallGroup.balls (g : BallGroup) : List Ball :=
  (List.range g.signals).flatMap fun n => ⟨g, n, false⟩ :: if g.differential then [⟨g, n, true⟩] else []

/-- The groups in the order of R698. -/
def scanGroups : List BallGroup :=
  [.sync, .ppsIn, .ppsOut, .probeOut, .probeRet, .qspiClk, .qspiCsN, .qspiIo, .mspiSclk, .mspiCsN, .mspiMosi, .mspiMiso, .mspiIrqN, .pwrGood,
   .evt, .resetN, .perstN, .faultN, .gpio, .ncTest, .sysclkIn, .mirRx, .dsiTe, .mirTx, .ethRefclk, .pcieRefclk, .ethRx, .ethTx, .pcieRx, .pcieTx]

/-- How many balls boundary scan covers: those of `scanGroups`. -/
def scanCells : Nat := (scanGroups.map fun g => if g.differential then 2 * g.signals else g.signals).foldl (· + ·) 0

/-- The serial debug port (R651-R666): the instruction register, the Gauntlet's challenge, failures and LEVEL, the result the next Capture-DR
of DBG_ACCESS loads, TEST_REFUSED, DEBUG_WRITES, whether a write came since the last opening, and the cells of the boundary-scan register. -/
structure DebugUnit where
  ir : Nat
  challenge : List Word
  failures : Nat
  level : Nat
  data : Word
  addr : Nat
  status : Nat
  testRefused : Nat
  writes : Nat
  wrote : Bool
  cells : List Bool
deriving DecidableEq, Repr

/-- The past that products of earlier samples still need: the notes of R134 and R40 by index, newest first, and the gaps of this numbering,
from U to V (R127), the first index that it delivered, and the index J at which the device joined a pair (R597). -/
structure History where
  notes : List (Nat × ClockNote)
  gaps : List Span
  first : Nat
  joined : Nat
deriving DecidableEq, Repr

/-- A snapshot (R597): the units of the primary as they stand when the joining device starts from them. -/
structure Snapshot where
  mode : Mode
  m0 : Nat
  cmds : List Cmd
  pool : Pool
  time : TimeUnit
  conv : ConvUnit
  eqs : List Equaliser
  tuners : List Tuner
  engines : List Engine
  dens : List Density
  spgm : List Spgm
  trig : TrigUnit
  cap : CapUnit
  intg : IntUnit
  th : List Thresher
  strm : StreamUnit
  packers : List Packer
  mq : MqUnit
  tdc : TdcUnit
  maint : MaintUnit
deriving DecidableEq, Repr

end Sys2Proof.Machine
end

