-- ==== Sys2Proof/Syntax.lean ====
section
/-! DEFINITION. The commands of the block: one constructor of Instr per row of the opcode table, with the row's
operands. A row that is a command opcode carries the packet the device takes; a row that is an event carries what the
outside world (a host write, a pin, a converter, a link) supplies at that event. `k` is the SAMPLE_INDEX at which the
row happens (R30: everything is keyed to the sample index). -/

namespace Sys2Proof

open Sys2Proof.Machine

/-- The commands of the block, one constructor per row of the opcode table. -/
inductive Instr where
  /-- SQ_TAIL_DOORBELL (R71): A host write to SQ_TAIL exposes new submission entries, or stops the pair with TAIL_RANGE if the value is out of range. -/
  | sqTailDoorbell (k : Nat) (q : Fin 16) (value : Word)
  /-- RQ_HEAD_WRITE (R71): A host write to RQ_HEAD releases consumed reply entries, or stops the pair with HEAD_RANGE if the value is out of range. -/
  | rqHeadWrite (k : Nat) (q : Fin 16) (value : Word)
  /-- QP_ENABLE (R70): Setting QP_CTRL.EN resets SQ_HEAD and RQ_TAIL from the host indices after checking base alignment and sizes. -/
  | qpEnable (k : Nat) (q : Fin 16) (ctrl : Word)
  /-- QP_DISABLE (R73): Clearing QP_CTRL.EN stops fetching while the commands already fetched complete and reply. -/
  | qpDisable (k : Nat) (q : Fin 16) (ctrl : Word)
  /-- GINT_STATUS_CLEAR (R84): A write of 1s to GINT_STATUS clears the latched interrupt causes. -/
  | gintStatusClear (k : Nat) (value : Word)
  /-- INDEX_LO_READ (R84): A read of INDEX_LO returns SAMPLE_INDEX[31:0] and latches INDEX_HI. -/
  | indexLoRead (k : Nat) (size : Nat) (offset : Nat)
  /-- REGISTER_WRITE (R82): A write to a register-window location that has no behaviour of its own stores the value, or is ignored if the location is reserved or fused off. -/
  | registerWrite (k : Nat) (bar : Nat) (size : Nat) (offset : Nat) (value : BitVec 64)
  /-- COMMAND_FETCH (R72): The device fetches an SQ entry once the RQ has room for its two reserved entries, taking sources round robin. -/
  | commandFetch (k : Nat) (q : Fin 16) (got : Fetched)
  /-- COAL_TIME_EXPIRY (R69): TIME µs after the first pending reply entry, the device raises the queue pair's vector. -/
  | coalTimeExpiry (k : Nat) (q : Fin 16)
  /-- NOTICE_DELIVERY (R76): Once its destination has room again, the device writes a held notice, starting with NOTICE_LOSS after a loss. -/
  | noticeDelivery (k : Nat) (dest : Fin 18)
  /-- SPI_SUBMIT (R79): The SPI SUBMIT instruction delivers one packet, which is discarded and sets LOST if SUBMIT_OK is 0 or the packet is cut short. -/
  | spiSubmit (k : Nat) (bytes : List Byte)
  /-- SPI_READ_REPLY (R78): The SPI READ_REPLY instruction returns the oldest unread reply or notice, or bytes of 0xFF if there is none. -/
  | spiReadReply (k : Nat) (cut : Bool)
  /-- SPI_READ_STATUS (R79): The SPI READ_STATUS instruction returns REPLY_READY, SUBMIT_OK and LOST, and clears LOST. -/
  | spiReadStatus (k : Nat)
  /-- CTLPORT_DATAGRAM (R80): A UDP datagram arriving at the control port is filtered by the allow list and its packets are executed, with repeated packets answered from the stored replies. -/
  | ctlportDatagram (k : Nat) (sender : Sender) (udp : Nat) (bytes : List Byte)
  /-- TIMED_EXECUTE (R51): When SAMPLE_INDEX reaches the AT of a pending TIMED command, the device executes it and writes its reply. -/
  | timedExecute
  /-- SCHEDULED_EFFECT (R31): At the effective index chosen for a command sent without TIMED, the device applies that command's sample-domain action. -/
  | scheduledEffect
  /-- SYS_NOP (R87): Completes with OK once its ordering conditions are met; with TIMED it marks AT. -/
  | sysNop (k : Nat) (p : Packet)
  /-- SYS_MODE (R110): Accepts a mode change with an effective index E, checks the layout fit and reserves AUs. -/
  | sysMode (k : Nat) (p : Packet)
  /-- SYS_NOTICE_ROUTE (R88): Sets the destination of one unit group's notices. -/
  | sysNoticeRoute (k : Nat) (p : Packet)
  /-- SYS_CANCEL (R89): Withdraws a pending TIMED command from the same source, starting at fetch. -/
  | sysCancel (k : Nat) (p : Packet)
  /-- SYS_GET_INDEX (R90): Returns a DTS of SAMPLE_INDEX at completion. -/
  | sysGetIndex (k : Nat) (p : Packet)
  /-- SYS_CTLPORT (R91): Configures the Ethernet control port and one allow-list slot. -/
  | sysCtlport (k : Nat) (p : Packet)
  /-- SYS_GET_MODE (R111): Returns the current mode, the shadowed mode and the pool counts. -/
  | sysGetMode (k : Nat) (p : Packet)
  /-- SYS_COMPAT (R693): Sets COMPAT_LEVEL in QUIET on a SOLO device and restarts every unit at the new level's power-up values. -/
  | sysCompat (k : Nat) (p : Packet)
  /-- MODE_CHANGE_EFFECT (R107): At E the device stops the units the new mode does not run, drains, applies the default layout if LAYOUT = DEFAULT and replies. -/
  | modeChangeEffect
  /-- MEM_ALLOC (R112): Allocates and zeroes a partition of COUNT AUs with a role and returns its handle. -/
  | memAlloc (k : Nat) (p : Packet)
  /-- MEM_FREE (R113): Frees a partition at once, or replies DEFERRED while references remain. -/
  | memFree (k : Nat) (p : Packet)
  /-- MEM_FREE_RELEASE (R99): When the last reference to a partition whose free is deferred ends, the device releases its AUs and writes the second reply. -/
  | memFreeRelease (k : Nat) (slot : Nat)
  /-- MEM_QUERY (R114): Returns the size, role, references and error counts of a partition or of the whole pool. -/
  | memQuery (k : Nat) (p : Packet)
  /-- MEM_SCRUB (R115): Sets the scrub period, or stops scrubbing. -/
  | memScrub (k : Nat) (p : Packet)
  /-- MEM_READ (R116): Starts copying partition data to host memory. -/
  | memRead (k : Nat) (p : Packet)
  /-- MEM_WRITE (R116): Starts copying host data into a partition. -/
  | memWrite (k : Nat) (p : Packet)
  /-- MEM_TRANSFER_END (R116): When the last byte of a MEM_READ or MEM_WRITE has been transferred, the command completes with the count of uncorrectable words read. -/
  | memTransferEnd (k : Nat) (cmd : Nat) (ok : Bool) (hostData : List Byte) (errors : List MemError)
  /-- SCRUB (R529): When the scrub period falls due, a background scrub pass over one partition starts, correcting single-bit errors. -/
  | scrub (k : Nat) (slot : Nat) (corrected : Nat) (newUncorrectable : List Nat)
  /-- TIME_SPLL_CONFIG (R153): Reconfigures the SPLL and restarts the timebase at INDEX_START. -/
  | timeSpllConfig (k : Nat) (p : Packet)
  /-- TIME_STATUS (R154): Returns the timebase state, holdover data and counters. -/
  | timeStatus (k : Nat) (p : Packet)
  /-- TIME_SET_EPOCH (R155): Sets EPOCH_TAI. -/
  | timeSetEpoch (k : Nat) (p : Packet)
  /-- TIME_SYNC (R156): Waits, with DEFERRED, for a SYNC or PPS edge in order to record it or apply a new epoch. -/
  | timeSync (k : Nat) (p : Packet)
  /-- TIME_REF_POLICY (R157): Sets the reference return policy and its parameters. -/
  | timeRefPolicy (k : Nat) (p : Packet)
  /-- TIME_REF_RESUME (R158): Ends a holdover by a slew or a step, immediately, deferred or timed. -/
  | timeRefResume (k : Nat) (p : Packet)
  /-- TIME_PPS_CONFIG (R159): Configures PPS_IN stamping and notices, and the PPS_OUT pulse. -/
  | timePpsConfig (k : Nat) (p : Packet)
  /-- TIME_OFFSET (R160): Sets the reference-plane offset P_t of one stamp target. -/
  | timeOffset (k : Nat) (p : Packet)
  /-- TIME_GET_OFFSET (R161): Returns P_t, A_t and their total in samples for one target. -/
  | timeGetOffset (k : Nat) (p : Packet)
  /-- TIME_PPS_READ (R162): Returns the stamp and PPS_PHASE of the last accepted PPS edge, with the PPS counts. -/
  | timePpsRead (k : Nat) (p : Packet)
  /-- TIME_PTP_ADJUST (R163): Sets PTP_ADJUST, or adds to it with saturation. -/
  | timePtpAdjust (k : Nat) (p : Packet)
  /-- UNLOCK_DETECTED (R127): The lock detector declares an SPLL unlock: samples are marked INV, products close, queues drain, the output is muted and a band search starts. -/
  | unlockDetected (k : Nat) (jrem : Int)
  /-- LOCK_CONFIRMED (R127): After the band search the lock is confirmed: the output is unmuted, the dividers are re-phased to V from the SYNC epoch and delivery resumes. -/
  | lockConfirmed (edge : Nat) (band : Nat)
  /-- LOCK_ATTEMPT_FAIL (R130): A lock that is not confirmed in time leads to a retry; after the fourth failure the device asserts FAULT_N and retries every 10 ms. -/
  | lockAttemptFail (k : Nat)
  /-- REF_MISSING_EDGE (R132): When no REFIN edge arrives within 1.5 periods, the device declares reference loss and enters holdover with the tracker mean. -/
  | refMissingEdge (k : Nat) (dac : Nat)
  /-- REF_FREQ_CHECK (R132): The 1 ms frequency monitor expires, and holdover is entered if REFIN lies beyond ±200 ppm. -/
  | refFreqCheck (k : Nat) (dac : Nat) (deviationPpb : Int)
  /-- REF_QUAL_EXPIRY (R136): At the end of QUAL_MS the returning reference is tested and either qualifies or restarts qualification. -/
  | refQualExpiry (k : Nat) (deviationPpb : Int)
  /-- JUMP_KNOWN (R137): After 1,024 edges, or the PPS resolution, JUMP becomes final and the return policy acts. -/
  | jumpKnown (k : Nat) (measured : Int)
  /-- PPS_DISAMBIG_TIMEOUT (R137): When no PPS edge is accepted within 1 s + 10 µs after qualification, JUMP stands as measured from REFIN alone. -/
  | ppsDisambigTimeout (k : Nat)
  /-- SLEW_END (R138): When J_rem lies within the lock window, the slew ends, HOLDOVER clears and the tracker resumes. -/
  | slewEnd (k : Nat)
  /-- STEP_BOUNDARY (R139): At B the timebase steps: products close, REF_COUNT is corrected, the clock relocks on the reference grid and TIMEBASE_GEN increments. -/
  | stepBoundary (measured : Int)
  /-- SYNC_EDGE_CAPTURE (R126): A REFIN edge samples the chosen SYNC source high, completing the waiting TIME_SYNC commands. -/
  | syncEdgeCapture (k : Nat) (pps : Bool)
  /-- TIMEBASE_REPHASE (R742): At the first alignment edge at least 1 µs after an APPLY capture, or at the restart of TIME_SPLL_CONFIG, the numbering restarts at V′. -/
  | timebaseRephase (edge : Nat) (band : Nat)
  /-- TIME_SYNC_TIMEOUT (R156): When TIMEOUT seconds pass with no SYNC edge, TIME_SYNC completes with FOUND = 0. -/
  | timeSyncTimeout (k : Nat) (cmd : Nat)
  /-- PPS_IN_EDGE (R143): A rising PPS_IN edge is accepted or counted as spurious, and an accepted edge gives a stamp and PPS_PHASE. -/
  | ppsInEdge (k : Nat) (cycle : Nat) (tap : Nat)
  /-- PPS_MISSING_TIMEOUT (R143): When no PPS edge is accepted k s + 10 µs after the last one, a missing pulse is counted. -/
  | ppsMissingTimeout (k : Nat)
  /-- PPS_OUT_PULSE (R146): At each index that is a multiple of fs, advanced by the PPS_OUT offset, the device launches a PPS_OUT pulse. -/
  | ppsOutPulse (k : Nat) (second : Nat)
  /-- CONV_CONFIG (R194): Sets OVR_GUARD and OVR_NOTICE for one channel. -/
  | convConfig (k : Nat) (p : Packet)
  /-- CONV_ATTEN (R195): Sets the attenuators of the masked channels at the effective index, with INV windows. -/
  | convAtten (k : Nat) (p : Packet)
  /-- CONV_INPUT (R196): Sets the injection switch of the masked channels to INPUT or CAL. -/
  | convInput (k : Nat) (p : Packet)
  /-- CONV_ROTATION (R197): Sets DWELL_LOG2 and HOLD for the slice rotation. -/
  | convRotation (k : Nat) (p : Packet)
  /-- CONV_STATUS (R198): Returns the settings, spare slice and counters of one channel, and clears them on request. -/
  | convStatus (k : Nat) (p : Packet)
  /-- CONV_ATTEN_INFO (R199): Returns the factory delay and attenuation data for one setting. -/
  | convAttenInfo (k : Nat) (p : Packet)
  /-- OVER_RANGE (R201): A channel input exceeds full scale, and OVR samples are counted. -/
  | overRange (channel : Nat) (first : Nat) (values : List Rat)
  /-- SLICE_SWAP (R177): At a rotation boundary the dwell ends: the spare's correction is checked and the spare takes over a position. -/
  | sliceSwap (k : Nat) (results : List (Int × Int × Int))
  /-- SLICE_MONITOR_WINDOW (R180): At the end of each 2^16 SC window the active-slice monitor tests the active slices and retires a failed one. -/
  | sliceMonitorWindow (k : Nat) (sums : List SliceSums)
  /-- EQ_LOAD (R234): Writes one equaliser bank that is not in use. -/
  | eqLoad (k : Nat) (p : Packet)
  /-- EQ_SWAP (R235): Requests a hard swap or a fade of the equaliser bank at E. -/
  | eqSwap (k : Nat) (p : Packet)
  /-- EQ_HELD_START (R211): When a running swap ends, a held swap request starts. -/
  | eqHeldStart (k : Nat) (channel : Nat)
  /-- EQ_STATUS (R236): Returns the bank state and counters of one equaliser. -/
  | eqStatus (k : Nat) (p : Packet)
  /-- TUNER_CONFIG (R237): Applies the decimation, gain and delay to the masked tuners. -/
  | tunerConfig (k : Nat) (p : Packet)
  /-- TUNER_RETUNE (R238): Sets the NCO frequency, phase and phase mode of one tuner. -/
  | tunerRetune (k : Nat) (p : Packet)
  /-- TUNER_ENABLE (R239): Starts or stops the masked tuners. -/
  | tunerEnable (k : Nat) (p : Packet)
  /-- TUNER_STATUS (R240): Returns the state and counters of one tuner. -/
  | tunerStatus (k : Nat) (p : Packet)
  /-- SPEC_CONFIG (R264): Configures the FFT length, window, hop, bins and WBUF of the masked engines. -/
  | specConfig (k : Nat) (p : Packet)
  /-- SPEC_ENABLE (R265): Starts or stops the masked spectrum engines. -/
  | specEnable (k : Nat) (p : Packet)
  /-- SPEC_OUTPUT (R266): Sets the product output format, detection and decimation. -/
  | specOutput (k : Nat) (p : Packet)
  /-- SPEC_WINDOW_LOAD (R267): Writes user window coefficients, and commits them with COMMIT. -/
  | specWindowLoad (k : Nat) (p : Packet)
  /-- SPEC_STATUS (R268): Returns the state and counters of one engine. -/
  | specStatus (k : Nat) (p : Packet)
  /-- SPECTRUM_DONE (R253): An engine completes the spectrum of a frame and offers it to its consumers in frame order. -/
  | spectrumDone (k : Nat) (engine : Nat) (volts : List Volts) (linesLost : List Nat) (thresherDrops : Bool) (errors : List MemError)
  /-- DENSITY_FRAME_CLOSE (R277): At a frame boundary the density engine swaps buffers and exports the closed frame to its ring and layer. -/
  | densityFrameClose (k : Nat) (unit : Nat) (exportLost : Bool) (layerBusy : Bool)
  /-- DECAY_STEP (R274): At each decay index the active buffer's counts decay by the DECAY_SHIFT rule. -/
  | decayStep (k : Nat)
  /-- DENS_CONFIG (R292): Configures one density engine. -/
  | densConfig (k : Nat) (p : Packet)
  /-- DENS_ENABLE (R293): Starts or stops the masked density engines. -/
  | densEnable (k : Nat) (p : Packet)
  /-- DENS_CLEAR (R276): Zeroes the active buffer of the masked engines at the effective index. -/
  | densClear (k : Nat) (p : Packet)
  /-- DENS_STATUS (R294): Returns the state and counters of one density engine. -/
  | densStatus (k : Nat) (p : Packet)
  /-- SPGM_CONFIG (R295): Configures one spectrogram instance. -/
  | spgmConfig (k : Nat) (p : Packet)
  /-- SPGM_ENABLE (R296): Starts or stops the masked spectrogram instances. -/
  | spgmEnable (k : Nat) (p : Packet)
  /-- SPGM_STATUS (R297): Returns the state and counters of one spectrogram instance. -/
  | spgmStatus (k : Nat) (p : Packet)
  /-- TRIG_DECIDE (R315): Once every enabled or armed slot has reported index k, the unit evaluates the states, fires slots and executes the winner's action. -/
  | trigDecide (k : Nat) (volts : List Volts)
  /-- TRIG_SLOT_CONFIG (R328): Configures one condition slot and restarts it. -/
  | trigSlotConfig (k : Nat) (p : Packet)
  /-- TRIG_ARM (R330): Sets the masked slots to DISABLED, ENABLED or ARMED. -/
  | trigArm (k : Nat) (p : Packet)
  /-- TRIG_MASK_CONFIG (R331): Configures one channel's frequency-mask comparator. -/
  | trigMaskConfig (k : Nat) (p : Packet)
  /-- TRIG_MASK_LOAD (R332): Writes entries of the mask table that no configuration uses. -/
  | trigMaskLoad (k : Nat) (p : Packet)
  /-- TRIG_FORCE (R333): Fires an armed slot at the effective index regardless of its condition. -/
  | trigForce (k : Nat) (p : Packet)
  /-- TRIG_STATUS (R334): Returns the state and counters of one slot. -/
  | trigStatus (k : Nat) (p : Packet)
  /-- SEGMENT_CLOSE (R349): A segment closes at END, or early for a closure reason, and its slot completes. -/
  | segmentClose (k : Nat) (sheaf : Nat) (dropped : Bool) (volts : List Volts) (errors : List MemError)
  /-- CAP_SOURCE (R358): Binds or unbinds the history ring of one source. -/
  | capSource (k : Nat) (p : Packet)
  /-- CAP_SHEAF_CONFIG (R359): Configures one idle sheaf, with its region and reduction lanes. -/
  | capSheafConfig (k : Nat) (p : Packet)
  /-- CAP_ARM (R360): Arms or disarms the masked sheaves. -/
  | capArm (k : Nat) (p : Packet)
  /-- CAP_STATUS (R361): Returns the state and counters of one sheaf. -/
  | capStatus (k : Nat) (p : Packet)
  /-- INT_SET_ACCUMULATE (R365): Once every member spectrum of a set has arrived, the integration unit accumulates or counts the set. -/
  | intSetAccumulate (k : Nat) (number : Nat) (drop : Bool) (errors : List MemError)
  /-- INT_FRAME_CLOSE (R374): An integration frame closes at its boundary, or early, and its header is written and queued for the MQ. -/
  | intFrameClose (k : Nat)
  /-- INT_CONFIG (R383): Configures the integration products, frames and region. -/
  | intConfig (k : Nat) (p : Packet)
  /-- INT_ENABLE (R384): Starts or stops the integration unit. -/
  | intEnable (k : Nat) (p : Packet)
  /-- INT_STATUS (R385): Returns the integration state and counters. -/
  | intStatus (k : Nat) (p : Packet)
  /-- INT_HEADER (R386): Returns the header of the frame last closed in one half. -/
  | intHeader (k : Nat) (p : Packet)
  /-- TH_CONFIG (R387): Configures one Thresher and restarts it. -/
  | thConfig (k : Nat) (p : Packet)
  /-- TH_ENABLE (R388): Starts or stops the masked Threshers. -/
  | thEnable (k : Nat) (p : Packet)
  /-- TH_STATUS (R389): Returns the state and counters of one Thresher. -/
  | thStatus (k : Nat) (p : Packet)
  /-- STRM_PACKET_GENERATE (R394): A context cuts its product into a packet, requantises or compresses it, numbers it and stores it in its queue or ring. -/
  | strmPacketGenerate (k : Nat) (ctx : Nat) (volts : List Volts) (choice : List Byte) (errors : List MemError)
  /-- STRM_PACKET_SEND (R412): When its destination can take it, the live read pointer sends the next packet, or a rewind resends one. -/
  | strmPacketSend (k : Nat) (ctx : Nat) (rewind : Bool) (errors : List MemError)
  /-- HOST_RING_CONS_POLL (R408): While a host ring is full, the device rereads CONS at least every 1 µs. -/
  | hostRingConsPoll (k : Nat) (entry : Nat) (cons : Nat)
  /-- REWIND_DONE (R417): A rewind ends after its last packet, or with MARK_LOST, and writes its second reply. -/
  | rewindDone (k : Nat) (ctx : Nat)
  /-- ARP_REQUEST (R410): An ARP request for the port's IPv4 address is answered with an ARP reply. -/
  | arpRequest (k : Nat) (port : Nat) (mac : Nat) (ip : Nat) (target : Nat)
  /-- NEIGHBOUR_SOLICITATION (R410): A neighbour solicitation for the port's IPv6 address is answered with a neighbour advertisement. -/
  | neighbourSolicitation (k : Nat) (port : Nat) (mac : Nat) (ip : List Word) (target : List Word)
  /-- PTP_FRAME_RX (R419): A received PTP frame is stamped and delivered to the PTP_ENTRY host ring, or counted as lost if the ring is full. -/
  | ptpFrameRx (k : Nat) (port : Nat) (stamp : Nat) (frame : List Byte)
  /-- PAUSE_FRAME (R410): A received PAUSE or PFC frame is discarded and counted, never obeyed. -/
  | pauseFrame (k : Nat) (port : Nat)
  /-- OTHER_FRAME (R410): Any other received frame is discarded and counted. -/
  | otherFrame (k : Nat) (port : Nat)
  /-- ETH_LINK_CHANGE (R432): An Ethernet port's link goes up or down. -/
  | ethLinkChange (k : Nat) (port : Nat) (up : Bool)
  /-- EGRESS_DOWN_TIMEOUT (R608): An Ethernet port used by a started context has been down for 1 ms, which fires the EGRESS yield class. -/
  | egressDownTimeout (k : Nat) (port : Nat)
  /-- STRM_PORT_CONFIG (R423): Configures one Ethernet port. -/
  | strmPortConfig (k : Nat) (p : Packet)
  /-- STRM_DEST (R424): Writes one destination entry. -/
  | strmDest (k : Nat) (p : Packet)
  /-- STRM_CONFIG (R425): Configures a stopped stream context. -/
  | strmConfig (k : Nat) (p : Packet)
  /-- STRM_ENABLE (R426): Starts or stops the masked contexts. -/
  | strmEnable (k : Nat) (p : Packet)
  /-- STRM_MARK (R427): Sets or clears a rewind mark. -/
  | strmMark (k : Nat) (p : Packet)
  /-- STRM_REWIND (R428): Starts resending packets from a mark or a SEQ, replying DEFERRED. -/
  | strmRewind (k : Nat) (p : Packet)
  /-- STRM_STATUS (R429): Returns the state and counters of one context. -/
  | strmStatus (k : Nat) (p : Packet)
  /-- STRM_PORT_STATUS (R430): Returns the state and counters of one port. -/
  | strmPortStatus (k : Nat) (p : Packet)
  /-- STRM_PTP_SEND (R431): Transmits one frame and replies with its egress stamp. -/
  | strmPtpSend (k : Nat) (p : Packet)
  /-- PK_CONFIG (R448): Sets the inline predictor and element choices of one packer. -/
  | pkConfig (k : Nat) (p : Packet)
  /-- PK_ENCODE (R449): Queues a memory-to-memory encoding job. -/
  | pkEncode (k : Nat) (p : Packet)
  /-- PK_JOB_END (R445): A packer job ends with OK, NO_GAIN or OUT_FULL and replies with its counts. -/
  | pkJobEnd (k : Nat) (packer : Nat) (choices : List (List Byte)) (errors : List MemError)
  /-- PK_STATUS (R450): Returns the load and counters of one packer. -/
  | pkStatus (k : Nat) (p : Packet)
  /-- MQ_ITEM_ACCEPT (R454): A producer's item is accepted into the MQ if every consumer has room, and dropped otherwise. -/
  | mqItemAccept (k : Nat) (producer : Nat)
  /-- MQ_LINGER_EXPIRY (R456): After LINGER ns with no item open and no doubleword arriving, the partly filled line is padded and written. -/
  | mqLingerExpiry (k : Nat)
  /-- MQ_READ_COMPLETE (R465): A deferred MQ_READ completes once MIN_ITEMS items are readable. -/
  | mqReadComplete (k : Nat) (errors : List MemError)
  /-- MQ_READ_TIMEOUT (R465): A deferred MQ_READ completes when its timeout expires, returning what is readable. -/
  | mqReadTimeout (k : Nat) (errors : List MemError)
  /-- MQ_CONFIG (R464): Sets the producers, LINGER, THRESHOLD and the bound partition. -/
  | mqConfig (k : Nat) (p : Packet)
  /-- MQ_READ (R465): Returns whole items for the host pointer, or defers. -/
  | mqRead (k : Nat) (p : Packet)
  /-- MQ_PUT (R466): Queues one HOST item. -/
  | mqPut (k : Nat) (p : Packet)
  /-- MQ_FLUSH (R460): Discards every item and resets the read pointers in one cycle. -/
  | mqFlush (k : Nat) (p : Packet)
  /-- MQ_STATUS (R469): Returns the MQ state and counters. -/
  | mqStatus (k : Nat) (p : Packet)
  /-- TDC_EDGE (R472): An edge on an enabled input is accepted and stamped, or dropped as an overrun, and offered to the trigger, time unit and measurement slots. -/
  | tdcEdge (k : Nat) (input : Nat) (cycle : Nat) (tap : Nat)
  /-- TDC_MEASURE_TIMEOUT (R483): An open interval measurement reaches TIMEOUT and closes with TIMEOUT = 1. -/
  | tdcMeasureTimeout (k : Nat) (slot : Nat)
  /-- TDC_WINDOW_CLOSE (R484): An EVENT window closes with no edge and gives a MISSED result. -/
  | tdcWindowClose (k : Nat) (slot : Nat)
  /-- PROBE_LAUNCH (R486): A probe slot launches its scheduled start pulse on PROBE0_OUT or PROBE1_OUT. -/
  | probeLaunch (k : Nat) (slot : Nat)
  /-- TDC_STUCK_TIMEOUT (R473): An input level stays active for STUCK_US, which sets STUCK. -/
  | tdcStuckTimeout (k : Nat) (input : Nat)
  /-- TDC_DWELL_END (R477): The spare delay line's dwell ends: its table is computed and it relieves the next input, or it is retired. -/
  | tdcDwellEnd (k : Nat) (hits : List Nat)
  /-- TDC_TABLES_READY (R479): All 13 delay lines finish calibrating after a lock, and NOT_READY clears. -/
  | tdcTablesReady (k : Nat) (hits : List (List Nat))
  /-- TDC_INPUT (R494): Configures one interval-unit input. -/
  | tdcInput (k : Nat) (p : Packet)
  /-- TDC_SLOT_CONFIG (R495): Configures one disarmed measurement slot. -/
  | tdcSlotConfig (k : Nat) (p : Packet)
  /-- TDC_ARM (R496): Arms or disarms the masked measurement slots. -/
  | tdcArm (k : Nat) (p : Packet)
  /-- TDC_READ (R497): Returns the last result and statistics record of a slot. -/
  | tdcRead (k : Nat) (p : Packet)
  /-- TDC_STATUS (R498): Returns the state and counters of one input. -/
  | tdcStatus (k : Nat) (p : Packet)
  /-- MC_CONVERSION_END (R512): A monitor conversion ends, its result updates the latest value, the history and the limit states, and it starts the next conversion. -/
  | mcConversionEnd (k : Nat) (volts : Rat) (value : Int) (overload : Bool)
  /-- MC_SYSTEM_PASS (R508): Every 100 ms a system pass over M16–M29 falls due and starts at the next conversion boundary. -/
  | mcSystemPass (k : Nat)
  /-- MC_INPUT (R518): Configures one monitor input. -/
  | mcInput (k : Nat) (p : Packet)
  /-- MC_SEQUENCE (R519): Sets and runs or stops the conversion sequence. -/
  | mcSequence (k : Nat) (p : Packet)
  /-- MC_CONVERT (R520): Converts one input once, aborting running work with URGENT. -/
  | mcConvert (k : Nat) (p : Packet)
  /-- MC_READ (R521): Returns the latest result of an input, or entries from the history. -/
  | mcRead (k : Nat) (p : Packet)
  /-- MC_STATUS (R522): Returns the monitor converter's state and counters. -/
  | mcStatus (k : Nat) (p : Packet)
  /-- ACTIVITY_START (R531): A waiting commanded activity starts once no conflicting activity ahead of it remains, and its command completes. -/
  | activityStart (k : Nat)
  /-- TDC_CAL_PRIORITY (R533): A TDC_CAL instance deferred for 1 s moves ahead of the waiting commanded activities, and a running probe suspends. -/
  | tdcCalPriority (k : Nat)
  /-- CAL_MEASURE_END (R540): A CALIB_MEASURE window ends and the correlations and residuals are returned. -/
  | calMeasureEnd (k : Nat) (volts : List Volts)
  /-- SCRUB_PASS_END (R546): A commanded scrub pass ends and MAINT_START replies with its counts. -/
  | scrubPassEnd (k : Nat) (found : List (Nat × Nat × List Nat))
  /-- CALIB_MEASURE (R542): Requests a correlation measurement of the named channels against tones. -/
  | calibMeasure (k : Nat) (p : Packet)
  /-- CALIB_SLICE_READ (R544): Returns the slice corrections of one channel. -/
  | calibSliceRead (k : Nat) (p : Packet)
  /-- CALIB_TDC_READ (R545): Returns the TDC line assignments and calibration data. -/
  | calibTdcRead (k : Nat) (p : Packet)
  /-- MAINT_START (R546): Requests a scrub pass over one partition or over all of them. -/
  | maintStart (k : Nat) (p : Packet)
  /-- MAINT_CANCEL (R547): Withdraws a waiting commanded activity. -/
  | maintCancel (k : Nat) (p : Packet)
  /-- MAINT_STATUS (R548): Returns the activity states and counters. -/
  | maintStatus (k : Nat) (p : Packet)
  /-- DISP_FRAME_START (R550): At each frame start, scan-out selects the completed half or repeats the previous one, and the next composition starts with the latched state. -/
  | dispFrameStart (k : Nat) (complete : Bool) (errors : List MemError)
  /-- DISP_LATCH_LINE (R560): At the latch line, the commits executed so far are fixed for the next composition. -/
  | dispLatchLine (k : Nat)
  /-- SCANOUT_END (R566): At the end of the last active line the composer CRC is compared with the read-back CRC. -/
  | scanoutEnd (k : Nat) (readback : Word) (errors : List MemError)
  /-- TE_EDGE (R565): A tearing-effect edge in command mode is ignored, held or becomes the next frame start. -/
  | teEdge (k : Nat) (ns : Nat)
  /-- TE_LOST_TIMEOUT (R565): When no TE edge is accepted for 2·T_F, TE_LOST is set and frames continue on the device's own timing. -/
  | teLostTimeout (k : Nat)
  /-- PANEL_CMD_SEND (R568): At the allowed time, the DSI packet of DISP_PANEL_CMD is sent in LP escape mode and any response is accepted. -/
  | panelCmdSend (k : Nat) (errorReport : Bool) (response : Option (List Byte))
  /-- PANEL_RESP_TIMEOUT (R568): When no response arrives within 100 µs of the turnaround, NO_RESP is set. -/
  | panelRespTimeout (k : Nat)
  /-- DISP_TIMING (R572): Sets the display timing and the pixel clock. -/
  | dispTiming (k : Nat) (p : Packet)
  /-- DISP_ENABLE (R573): Sets the display to OFF, LINK or RUN. -/
  | dispEnable (k : Nat) (p : Packet)
  /-- DISP_LAYER (R574): Writes the pending state of one layer. -/
  | dispLayer (k : Nat) (p : Packet)
  /-- DISP_PALETTE (R575): Writes pending palette entries of one layer. -/
  | dispPalette (k : Nat) (p : Packet)
  /-- DISP_COMMIT (R576): Latches the pending state of the named layers and the background colour. -/
  | dispCommit (k : Nat) (p : Packet)
  /-- DISP_PANEL_CMD (R577): Requests one DSI packet to be sent to the panel. -/
  | dispPanelCmd (k : Nat) (p : Packet)
  /-- DISP_STATUS (R578): Returns the display state and counters. -/
  | dispStatus (k : Nat) (p : Packet)
  /-- HEARTBEAT_SEND (R585): Every 10 µs the device sends a heartbeat over the pair link and toggles GPIO15 while LIVE advances. -/
  | heartbeatSend (k : Nat)
  /-- HEARTBEAT_RECEIVE (R587): The mirror stamps an arriving heartbeat, computes INDEX_SKEW and records LAST_SENT. -/
  | heartbeatReceive (k : Nat) (hb : Heartbeat)
  /-- HEARTBEAT_TIMEOUT (R599): With no heartbeat advancing LIVE for HB_TIMEOUT, the mirror takes over, or becomes ISOLATED if the strobe is present. -/
  | heartbeatTimeout (k : Nat)
  /-- LIVE_STALL (R600): A primary whose own LIVE has not advanced for HB_TIMEOUT/2 suppresses egress and stops its strobe. -/
  | liveStall (k : Nat)
  /-- PAIR_LINK_TRAINED (R582): The pair link finishes training, measures its latency, exchanges identity and rejoins or deposes as needed. -/
  | pairLinkTrained (k : Nat) (latency : Nat) (variant : Variant) (compat : Nat) (later : Bool)
  /-- PAIR_LINK_DOWN (R598): The pair link goes down. -/
  | pairLinkDown (k : Nat)
  /-- PAIR_LANE_FAIL (R582): A pair-link lane fails and the link retrains on four lanes. -/
  | pairLaneFail (k : Nat)
  /-- FORWARDED_COMMAND (R591): The mirror receives a forwarded command and applies it at E or in MSEQ order. -/
  | forwardedCommand (k : Nat) (f : Forwarded)
  /-- MIRROR_STATUS_RETURN (R591): The primary compares a mirror's returned status with its own. -/
  | mirrorStatusReturn (k : Nat) (mseq : Nat) (status : Status)
  /-- MIRROR_STATE_RECEIVE (R594): The mirror receives mirror state such as stream checkpoints and STEP boundaries. -/
  | mirrorStateReceive (k : Nat) (m : MirrorState)
  /-- YIELD_RECEIVE (R599): The mirror receives YIELD from its primary and takes over. -/
  | yieldReceive (k : Nat)
  /-- TAKEOVER_REQUEST_RECEIVE (R600): The primary receives PAIR_TAKEOVER from its mirror, suppresses egress and is deposed. -/
  | takeoverRequestReceive (k : Nat)
  /-- SNAPSHOT_RECEIVE (R597): The joining device receives the primary's snapshot and checks INDEX_SKEW. -/
  | snapshotReceive (k : Nat) (snap : Snapshot)
  /-- JOIN_INDEX (R597): At J the mirror's units start on the primary's grids, it becomes ELIGIBLE and PAIR_JOIN completes. -/
  | joinIndex (j : Nat)
  /-- SWITCH_INDEX (R604): At W the roles of the pair exchange without a gap or a duplicate. -/
  | switchIndex (w : Nat)
  /-- PAIR_RELAY_PACKET (R409): A packet for a PAIR destination is relayed unchanged through the partner's UDP entry. -/
  | pairRelayPacket (k : Nat) (entry : Nat) (bytes : List Byte)
  /-- PAIR_CONFIG (R608): Sets the pair-link, strobe, rejoin, yield and heartbeat settings. -/
  | pairConfig (k : Nat) (p : Packet)
  /-- PAIR_JOIN (R609): Makes a SOLO device in QUIET the mirror of its partner. -/
  | pairJoin (k : Nat) (p : Packet)
  /-- PAIR_LEAVE (R610): Dissolves the pair role. -/
  | pairLeave (k : Nat) (p : Packet)
  /-- PAIR_SWITCH (R611): Schedules a role exchange at W. -/
  | pairSwitch (k : Nat) (p : Packet)
  /-- PAIR_TAKEOVER (R612): Forces a takeover on a mirror. -/
  | pairTakeover (k : Nat) (p : Packet)
  /-- PAIR_STATUS (R613): Returns the pair state and counters. -/
  | pairStatus (k : Nat) (p : Packet)
  /-- POWER_ON (R620): Supplies are applied: the device initialises SRAM, boots a verified image, locks the SPLL and sets READY. -/
  | powerOn (fit : Option FlashImage) (refOk : Bool) (band : Nat)
  /-- PWR_GOOD_LOW (R615): PWR_GOOD going low causes a POWER_ON reset. -/
  | pwrGoodLow (k : Nat)
  /-- RESET_N_LOW (R617): RESET_N held low causes a WARM reset that keeps the SPLL and the timebase. -/
  | resetNLow (k : Nat)
  /-- PCIE_RESET (R618): PERST_N, a hot reset or link loss resets the endpoint and queue pairs and clears the host-ring destinations. -/
  | pcieReset (k : Nat)
  /-- BOOT_START_TIMEOUT (R622): Firmware that does not report its start within 500 ms makes the ROM boot the other slot. -/
  | bootStartTimeout (k : Nat)
  /-- LOCKSTEP_MISMATCH (R624): A comparison mismatch or an uncorrectable word halts a lockstep pair, and the other pair takes over its work. -/
  | lockstepMismatch (k : Nat) (pair : Nat) (pc : Word) (ue : Bool) (begun : List Nat)
  /-- CORE_SELFTEST_END (R625): A halted pair finishes its self-test and resumes, or is retired. -/
  | coreSelftestEnd (k : Nat) (pair : Nat) (pass : Bool)
  /-- WATCHDOG_EXPIRY (R626): A pair misses its watchdog service; if both miss, a WATCHDOG reset follows. -/
  | watchdogExpiry (k : Nat) (missed : Nat)
  /-- THERMAL_TRIP_EVENT (R629): A die comparator trips at 140 °C: the SPLL is muted, lanes are idled and the cores are stopped until a WARM reset. -/
  | thermalTripEvent (k : Nat) (input : Nat) (value : Int)
  /-- TILE_LINK_SEQ_FAIL (R21): A tile-link sequence-check failure marks the SC INV on both channels of the tile and is counted. -/
  | tileLinkSeqFail (k : Nat) (tile : Nat)
  /-- TILE_LINK_RETRAIN (R630): More than 64 failures within 1 ms start a retraining of the tile link. -/
  | tileLinkRetrain (k : Nat) (tile : Nat)
  /-- TILE_RETRAIN_END (R630): A tile-link retraining ends, succeeding or failing; after three failures the tile stays INV. -/
  | tileRetrainEnd (k : Nat) (tile : Nat) (ok : Bool)
  /-- FW_IMAGE_READY (R636): Once the new image is loaded and verified, fetching pauses and both pairs restart on it in turn. -/
  | fwImageReady (k : Nat) (pauseUs : Nat)
  /-- FLASH_ERASE_END (R647): The slot erase of an FW_LOAD with OFFSET = 0 ends and the data is written. -/
  | flashEraseEnd (k : Nat)
  /-- DIAG_RESET (R639): Replies OK and performs a WARM reset 100 µs later. -/
  | diagReset (k : Nat) (p : Packet)
  /-- DIAG_FAULT (R640): Returns FAULT_CAUSE and clears the bits whose condition has ended. -/
  | diagFault (k : Nat) (p : Packet)
  /-- DIAG_ECC (R641): Returns the ECC counts of one store. -/
  | diagEcc (k : Nat) (p : Packet)
  /-- BB_READ (R642): Reads black-box entries from the live ring or the frozen copy. -/
  | bbRead (k : Nat) (p : Packet)
  /-- BB_FREEZE (R643): Freezes the black box and replies after the copy. -/
  | bbFreeze (k : Nat) (p : Packet)
  /-- BB_CLEAR (R644): Empties the live ring, the frozen copy, or both. -/
  | bbClear (k : Nat) (p : Packet)
  /-- DIAG_WATCHDOG (R645): Sets WDT_MS. -/
  | diagWatchdog (k : Nat) (p : Packet)
  /-- FW_STATUS (R646): Returns the slot and image information. -/
  | fwStatus (k : Nat) (p : Packet)
  /-- FW_LOAD (R647): Writes image bytes into a slot. -/
  | fwLoad (k : Nat) (p : Packet)
  /-- FW_VERIFY (R648): Verifies a slot's image. -/
  | fwVerify (k : Nat) (p : Packet)
  /-- FW_ACTIVATE (R649): Starts a hitless switch to the image of a slot. -/
  | fwActivate (k : Nat) (p : Packet)
  /-- TAP_RESET (R651): TRST_N low, or five TCK cycles with TMS high, puts the TAP in Test-Logic-Reset with IDCODE selected. -/
  | tapReset (k : Nat)
  /-- TAP_INSTRUCTION_LOAD (R654): An instruction is loaded into the TAP; a pin-driving instruction acts as BYPASS while RESET_N is high. -/
  | tapInstructionLoad (k : Nat) (code : Nat) (levels shifted : List Bool)
  /-- GAUNTLET_SELECT (R656): Selecting GAUNTLET generates a fresh 256-bit challenge. -/
  | gauntletSelect (k : Nat)
  /-- GAUNTLET_RESPONSE (R656): An Update-DR of GAUNTLET checks the signed response and opens the port at LEVEL, or counts a failure. -/
  | gauntletResponse (k : Nat) (response : BitVec 776)
  /-- DBG_READ (R658): A DBG_ACCESS READ operation reads one word of an address space. -/
  | dbgRead (k : Nat) (space : Nat) (addr : Nat) (errors : List MemError)
  /-- DBG_WRITE (R662): A DBG_ACCESS WRITE operation writes one word of an address space at CONTROL level. -/
  | dbgWrite (k : Nat) (space : Nat) (addr : Nat) (value : Word) (begun : List Nat)
  /-- DBG_CTRL_LOCK (R657): A DBG_ACCESS CTRL operation with LOCK closes the debug port. -/
  | dbgCtrlLock (k : Nat)
  /-- DCTRL_HALT (R664): A write of DCTRL.HALT halts a lockstep pair, and the other pair takes over its work. -/
  | dctrlHalt (k : Nat) (pair : Nat) (begun : List Nat)
  /-- DCTRL_RESUME (R664): A write of DCTRL.RESUME resumes a halted pair, which takes back its work. -/
  | dctrlResume (k : Nat) (pair : Nat)
  /-- DCTRL_STEP (R663): A write of DCTRL.STEP executes one instruction of a halted pair. -/
  | dctrlStep (k : Nat) (pair : Nat)
  /-- BREAKPOINT_HIT (R663): A pair reaches an enabled instruction breakpoint and halts. -/
  | breakpointHit (k : Nat) (pair : Nat) (number : Nat) (begun : List Nat)
  /-- WATCHPOINT_HIT (R663): A pair accesses a watched region and halts. -/
  | watchpointHit (k : Nat) (pair : Nat) (number : Nat) (begun : List Nat)
  /-- REF_EDGES_RETURN (R136): REFIN edges reappear after a loss, which starts qualification of the returning reference, including the wait of a muted SPLL in WAIT_REF. -/
  | refEdgesReturn (k : Nat)
  /-- RESET_N_RELEASE (R619): RESET_N returns high, and the hub leaves internal reset 1 ms later, boots and re-establishes SAMPLE_INDEX from REF_COUNT. -/
  | resetNRelease (k : Nat)
  /-- PCIE_LINK_UP (R619): PERST_N is released and the PCIe link trains, so the endpoint and its queue pairs become usable again. -/
  | pcieLinkUp (k : Nat) (msixEnable : Bool) (dead : List (Nat × Nat))
  /-- PARTNER_STROBE_EDGE (R586): The partner's alive strobe toggles on GPIO14, so the strobe is present (STROBE_SEEN). -/
  | partnerStrobeEdge (k : Nat)
  /-- PARTNER_STROBE_TIMEOUT (R586): The partner strobe has not toggled for HB_TIMEOUT and is judged absent, which can move an ISOLATED mirror to a TIMEOUT takeover. -/
  | partnerStrobeTimeout (k : Nat)
  /-- LEVEL_INACTIVE (R473): An interval-unit input's level becomes inactive, clearing STUCK. -/
  | levelInactive (k : Nat) (input : Nat)
  /-- THERMAL_TRIP_CLEAR (R629): After a thermal trip the die temperature falls below 110 °C, and a WARM reset that was held off is accepted. -/
  | thermalTripClear (k : Nat)
  /-- HOST_RING_INT_TIME (R408): TIME µs after the first new packet written to a HOST_RING destination, the device raises the destination's MSI-X vector. -/
  | hostRingIntTime (k : Nat) (entry : Nat)
deriving DecidableEq, Repr

end Sys2Proof
end

