-- ==== Sys2Proof/Decode.lean ====
section
/-! DEFINITION. Commands as words. The opcode table of this block gives no row any bits. -/

namespace Sys2Proof

/-- The command that a word of the opcode table spells: the table gives no bits to a row, so no word spells one.
Log entry 4 (DESIGN CHOICE, unsafe). -/
def decodeTableWord (_nbits _w : Nat) : Option Instr := none

end Sys2Proof
end

