-- ==== Sys2Proof/Config.lean ====
section
/-! DEFINITION. What one device carries from the factory and the spec gives no value for, and the free values: constants
without a body, so that no proof can see what they are. -/

namespace Sys2Proof

/-- A_t of R147 in 2^-16 ps: the factory-measured analogue delay of a stamp target, for an attenuator setting (channels).
Log entry 98 (DESIGN CHOICE, safe). -/
opaque Config.factoryDelay : (target : Nat) → (attenuator : Nat) → Nat

/-- The factory attenuation data of R172 and R199, in 1/128 dB: channel, setting 1-15, frequency in GHz 1-8. Log entry 98 (DESIGN CHOICE, safe). -/
opaque Config.factoryAttenuation : (channel : Nat) → (setting : Nat) → (ghz : Nat) → Nat

/-- CAL_DELAY of a channel in 2^-16 ps (R175, R199). Log entry 98 (DESIGN CHOICE, safe). -/
opaque Config.calDelay : (channel : Nat) → Nat

/-- The factory ball delay of R476 in 2^-16 ps: input codes 9-11, and 12-13 for the probe launches. Log entry 98 (DESIGN CHOICE, safe). -/
opaque Config.ballDelay : (code : Nat) → Int

/-- The version bits of a VDIF header (word 2 [31:29]), to which R403 gives no value. Log entry 58 (PRESUMED, unsafe). -/
opaque Config.vdifVersion : Nat

/-- A word whose value the spec leaves open, fresh for each use: applied to the state's free-value counter. Log entry 9 (DESIGN CHOICE, safe). -/
opaque Config.freeWord : Nat → Word

/-- Which of the free slots 8-255 a MEM_ALLOC takes (R97, R112), as a number that counts round the list of free slots.
Log entry 29 (DESIGN CHOICE, safe). -/
opaque Config.slotChoice : (freeSlots : List Nat) → Nat

/-- GENERATION of the first partition in a slot (R97). Log entry 29 (DESIGN CHOICE, safe). -/
opaque Config.firstGeneration : Nat

/-- The firmware signature of an image slot is valid (R621): a function of the bytes of the image. Log entry 89 (DESIGN CHOICE, safe). -/
opaque Config.signatureOk : (image : List (BitVec 8)) → Bool

/-- The answer that opens the debug port (R656): a function of the challenge words and the response. Log entry 98 (DESIGN CHOICE, safe). -/
opaque Config.debugKeyOk : (challenge : List Word) → (response : BitVec 776) → Bool

/-- The vendor's JEP106 identity (R653), the silicon stepping, and the words of the ECID (R652, R689). Log entry 98 (DESIGN CHOICE, safe). -/
opaque Config.jep106 : Nat
/-- Log entry 98 (DESIGN CHOICE, safe). -/
opaque Config.stepping : Nat
/-- Log entry 98 (DESIGN CHOICE, safe). -/
opaque Config.ecid : Nat → Word

/-- The physical AU that holds an AU of a partition (R94): slot, GENERATION and the AU's number. Log entry 95 (DESIGN CHOICE, safe). -/
opaque Config.auPlace : (slot : Nat) → (generation : Nat) → (au : Nat) → Nat

/-- A word of control-complex memory that the debug port shows as 0 and does not write (R661): the spec gives no addresses.
Log entry 94 (DESIGN CHOICE, safe). -/
opaque Config.debugHidden : (addr : Nat) → Bool

/-- The deviation of one component of a bin of a spectrum from the exact transform (R248): the arithmetic noise of the engine, for the
generation of the timebase, the first index of the frame and the bin. Log entry 41 (DESIGN CHOICE, unsafe). -/
opaque Config.transformNoise : (engine : Nat) → (generation : Nat) → (frameStart : Nat) → (bin : Nat) → (imaginary : Bool) → Rat

/-- The deviation of one component of a measurement from the exact sum (R538): the binary64 arithmetic of the correlator bank, for the channel, the
first index and the frequency. Log entry 69 (DEDUCED, unsafe). -/
opaque Config.correlatorNoise : (channel : Nat) → (first : Nat) → (frequency : Nat) → (imaginary : Bool) → Rat

/-- The coefficients of the tuner's 15-tap decimators (R217): stage 0 is the first decimator and stages 1-20 are the half-bands.
Log entry 105 (DESIGN CHOICE, safe). -/
opaque Config.decimatorTap : (stage : Nat) → (tap : Nat) → Rat

/-- A stored point of the resampler prototype (R217): 24 output periods of 1,024 points. Log entry 105 (DESIGN CHOICE, safe). -/
opaque Config.prototypePoint : Nat → Rat

/-- How a value is held in the 24 bits that leave a stage of the tuner chain (R217). Log entry 105 (DESIGN CHOICE, safe). -/
opaque Config.stageWord : (stage : Nat) → Rat → Rat

end Sys2Proof
end

