-- ==== Sys2Proof/Machine/State.lean ====
section
/-! DEFINITION. The state of the device: its units, and the queue of commands that wait; and what stops or leaves it. -/

namespace Sys2Proof.Machine

/-- Why the device stops with a fault. The spec stops the device nowhere: a misused command is answered with a status
(R17, R50), and an event that cannot happen in a state changes nothing. There is no constructor, so no meaning raises one,
and no claim can rest on a stop (safe). Log entry 7 (DESIGN CHOICE, safe). -/
inductive Fault where
deriving DecidableEq, Repr

/-- Why a command has no meaning. Log entry 7 (DESIGN CHOICE, safe). -/
inductive Refusal where
  /-- Raised by the dispatch for a row of the opcode table that the model does not cover; safe, since the run stops. -/
  | notModelled (mnemonic : String)
deriving DecidableEq, Repr

/-- What leaves the device, as the model records it: interrupts, host writes, datagrams, frames, pins, pair messages.
Log entry 8 (DESIGN CHOICE, safe). -/
inductive Output where
  /-- An MSI-X message on a vector (R86). -/
  | msix (vector : Nat)
  /-- A datagram of the control port with replies or notices (R77, R80). -/
  | datagram (dest : Sender) (entries : List Entry)
  /-- A rising PPS_OUT edge, at a TDC-domain edge counted in units of 16 samples (R146). -/
  | ppsOut (edge : Int) (widthUs : Nat)
  /-- A command forwarded to the mirror (R589). -/
  | pairForward (f : Forwarded)
  /-- The final status of a forwarded command, returned to the primary (R591). -/
  | pairStatus (mseq : Nat) (status : Status)
  /-- A heartbeat on the pair link (R585): role PRIMARY, HB_TIMEOUT, LIVE, SAMPLE_INDEX, MSEQ and LAST_SENT by context. -/
  | heartbeat (primary : Bool) (hbTimeout live index mseq : Nat) (lastSent : List (Nat × Nat × Nat))
  /-- Mirror state for the partner (R593, R594). -/
  | pairState (m : MirrorState)
  /-- YIELD, PAIR_TAKEOVER to the primary, a snapshot for a joining partner, and the partner's dismissal (R597, R599, R600, R610). -/
  | pairYield
  | pairTakeover
  | pairSnapshot (m0 : Nat)
  | pairDismiss
  /-- A gratuitous ARP and an unsolicited neighbour advertisement (R601). -/
  | gratuitousArp (port : Nat)
  | unsolicitedAdvert (port : Nat)
  /-- A spectrum record of engine `unit` (R260, R261): header and entries. -/
  | specRecord (unit : Nat) (bytes : List Byte)
  /-- A frame of a stream context on an Ethernet port (R407), from the destination MAC up to, not including, the FCS. -/
  | streamFrame (port : Nat) (bytes : List Byte)
  /-- A packet for the partner's UDP entry, over the pair link (R409). -/
  | pairRelay (remote : Nat) (bytes : List Byte)
  /-- An ARP reply or a neighbour advertisement (R410). -/
  | arpReply (port : Nat) (mac ip : Nat)
  | neighbourAdvert (port : Nat) (mac : Nat) (ip : List Word)
  /-- A pulse on PROBE0_OUT or PROBE1_OUT at an index, `width` TDC cycles long (R486). -/
  | probePulse (probe index width : Nat)
  /-- A frame period on the DSI link in video mode (R564): FRAME of the composition sent, none for a period of background, and its lines in order. -/
  | dsiVideo (frame : Option Nat) (lines : List VideoLine)
  /-- A transfer in command mode (R565): FRAME, none for background, and one write for each active line; the lanes are in LP-11 after it. -/
  | dsiTransfer (frame : Option Nat) (writes : List (DcsWrite × List Byte))
  /-- A frame period in which every lane stays in LP-11 (R567). -/
  | dsiHeld
  /-- The initial skew-calibration sequence, above 1,500 Mb/s (R683). -/
  | dsiSkewCal
  /-- A packet in LP escape mode on DSI_D0 (R568). -/
  | dsiPacket (dataType : Nat) (bytes : List Byte)
  /-- A frame sent by STRM_PTP_SEND (R431). -/
  | rawFrame (port : Nat) (bytes : List Byte)
  /-- Bytes written to host memory (R47, R64), with the relaxed-ordering attribute or without it. -/
  | hostWrite (relaxed : Bool) (address : Nat) (bytes : List Byte)
  /-- The bytes returned to the reader of a register, an SPI instruction or a debug access. -/
  | readData (bytes : List Byte)
  /-- The boundary-scan register as Capture-DR loaded it, and the balls that a pin-driving instruction drives (R652, R655). -/
  | scanOut (cells : List Bool)
  | pinsDriven (balls : List (Ball × BallDrive))
deriving DecidableEq, Repr

/-- The state of the device, and first the queue of commands that wait (first in, first out). `aside` are the notices, with their destinations,
that wait for the replies of the row that runs (R63); between rows there is none. -/
structure State where
  pending : List Instr
  out : List Output
  variant : Variant
  compat : Nat
  index : Nat
  ready : Bool
  mode : Mode
  shadowed : Mode
  nextId : Nat
  cmds : List Cmd
  qps : List QueuePair
  spi : SpiPort
  ctlport : CtlPort
  routes : List Nat
  notices : List NoticeBuffer
  aside : Option (List (Nat × Entry))
  glob : Global
  pool : Pool
  time : TimeUnit
  conv : ConvUnit
  eqs : List Equaliser
  tuners : List Tuner
  engines : List Engine
  dens : List Density
  spgm : List Spgm
  trig : TrigUnit
  cap : CapUnit
  intg : IntUnit
  th : List Thresher
  strm : StreamUnit
  packers : List Packer
  mq : MqUnit
  tdc : TdcUnit
  mc : McUnit
  maint : MaintUnit
  disp : DispUnit
  hub : HubUnit
  dbg : DebugUnit
  pair : PairUnit
  bb : BlackBox
  faultCause : Word
  faultActive : Word
  hist : History
  free : Nat
deriving DecidableEq, Repr

/-! ### Reset values

What every unit holds after power-up, before its firmware runs. A value with no rule beside it is one that the spec does not give; it is
0, empty or absent (DESIGN CHOICE, assumption 1). -/

/-- A queue pair (R66-R69). -/
def QueuePair.power : QueuePair :=
  { sqBaseLo := 0, sqBaseHi := 0, sqSize := 6, sqTail := 0, sqHead := 0, rqBaseLo := 0, rqBaseHi := 0, rqSize := 6, rqHead := 0, rqTail := 0,
    rxbBaseLo := 0, rxbBaseHi := 0, ctrl := 0, err := false, errCode := 0, coal := 1, cmdCount := 0, rejCount := 0, rqwbLo := 0, rqwbHi := 0,
    unsignalled := 0, rq := [], heldReplies := [] }

/-- The control port is disabled (R80). -/
def CtlPort.power : CtlPort :=
  { portEn := 0, udpPort := 0, slots := List.replicate 8 { valid := false, v6 := false, prefixLen := 0, address := [] }, discarded := 0,
    last := none, remembered := [] }

/-- The global block (R84-R86). -/
def Global.power : Global :=
  { gintStatus := 0, gintEnable := 0, gintVector := 0, indexHi := 0, noticeLostCount := 0, msixEnabled := false, bar2 := [], turn := 15,
    dead := [] }

/-- The pool before the boot makes the layout of R105: no partition, and the scrub period of 60 s. Log entry 2 (DESIGN CHOICE, safe). -/
def Pool.power : Pool :=
  { parts := [], generations := [], transfers := [], scrubPeriod := 60, ceTotal := 0, ueTotal := 0, passes := 0 }

/-- The time unit (R152, R124). -/
def TimeUnit.power : TimeUnit :=
  { refFreq := 100000000, refDiv := 1, fbDiv := 200, indexStart := 0, refCount := 0, refIndex := 0, syncRef := 0, syncIndex := 0, gen := 0, tb := .waitRef,
    everLocked := false, refPresent := false, qualifying := false, estimatedRelock := false, holdDac := 0, vcoBand := 0, holdStart := 0, tj := 0,
    tjEntry := 0, jump := 0, jumpKnown := false, ppsWait := false, ppsDelta := none, ambiguous := false, indexEstimated := false,
    unlockIndex := 0, unlockCount := 0, refLossCount := 0, lockAttempts := 0, policy := 0, returnPolicy := (0, 1000), ppsDisambig := false, qualMs := 100,
    slewLimit := 100, slewMax := 1000, resume := none, step := none, relockStep := none, syncs := [], applyCapture := none, configCmds := [],
    epochTai := 0, ptpAdjust := 0, ppsInEn := false, ppsNotice := false, ppsOutEn := false, ppsOutWidth := 100000, ppsLast := none,
    ppsAt := none, ppsRun := 0, ppsPhase := 0, ppsHeld := none, ppsAccepted := 0, ppsMissing := 0, ppsSpurious := 0,
    offsets := List.replicate 14 [(0, 0)] }

/-- A converter channel (R193). -/
def Channel.power : Channel :=
  { attens := [(0, 15)], cal := false, guards := [(0, 0)], notices := [(0, false)], retired := none, frozenSpare := none, noSpareSince := none,
    inv := [], tile := [], ovrSamples := 0, ovrEvents := 0, nbrSamples := 0, invSamples := 0, countFrom := 0, ovrCarried := 0,
    lastOvrNotice := none }

/-- The converter tiles (R177, R193). -/
def ConvUnit.power : ConvUnit :=
  { channels := List.replicate 4 Channel.power, step := 0, dwellLog2 := 20, hold := false, signal := [] }

/-- The reset bank of R205. -/
def EqBank.power : EqBank := { taps := 16384 :: List.replicate 63 0, bulk := 0, delayInt := 0, delayFrac := 0 }

/-- An equaliser (R233). -/
def Equaliser.power : Equaliser :=
  { bankA := EqBank.power, bankB := EqBank.power, active := false, running := none, held := none, presented := none, swapCount := 0,
    replacedCount := 0, eras := [{ start := 0, bank := EqBank.power, prev := EqBank.power, len := 0, fade := false }], clipCount := 0,
    clipFrom := 0 }

/-- A tuner (R233). -/
def Tuner.power : Tuner :=
  { enabled := false, snap := false, decim := 64 * 2 ^ 32, gainShift := 0, delayAdj := 0, freq := 0, phase := 0, continuous := false,
    configReset := false, anchor := none, grids := [], gains := [(0, 0)], ncos := [(0, 0, 0)], retunes := [],
    invCount := 0, clipCount := 0, ovrCount := 0, countFrom := 0 }

/-- A spectrum engine (R263): W engines take real frames and Z engines complex ones. -/
def Engine.power (z : Bool) : Engine :=
  let bank : UserBank := { table := [], ready := true }
  { enabled := false,
    cfg := { tuner := z, window := 1, log2n := 10, map := 0, hop := 512, binStart := 0, binCount := if z then 1024 else 512, d := 1 },
    wbuf := none, overrate := false, bindingLost := false, anchor := none, live := false, frame := 0, spectra := 0, invalidSpectra := 0,
    prodRecords := 0, out := { bins := false, format := 0, detect := 0, decim := 1 }, nextOut := [], group := none, bank0 := bank, bank1 := bank }

/-- A density engine (R291). -/
def Density.power : Density :=
  { enabled := false,
    cfg := { zoom := false, persist := 0, underDrop := false, overDrop := false, decayLog2 := 20, decayShift := 3, rows := 256, cols := 512,
             bottom := -12800, step := 64, frameSc := 10416667, ring := 0, ringOffset := 0, nslots := 0, layer := 0, layerOffset := 0 },
    mismatch := false, anchor := none, seq := 0, frame := none, cells := [], exported := [], late := [], frames := 0, exportLost := 0, layerSkipped := 0, newest := 0 }

/-- Spectrogram unit SGi (R291). -/
def Spgm.power (i : Nat) : Spgm :=
  { enabled := false,
    cfg := { engine := i, detect := 0, log8 := false, mergeMap := 0, colMerge := 1, lineSpectra := 1, bottom := -12800, step := 64, ring := 0,
             ringOffset := 0, nslots := 0, layer := 0, layerOffset := 0, layerLines := 0 },
    overrate := false, line := 0, group := none, late := [], lines := 0, invalidLines := 0, linesLost := 0 }

/-- A condition slot (R327). -/
def TrigSlot.power : TrigSlot :=
  { cfg := { type := 0, channel := 0, source := 0, actEn := false, single := false, notice := false, shift := 0, holdoff := 0, sheafMask := 0,
             armMask := 0, timerMask := 0, p0 := 0, p1 := 0, p2 := 0, p3 := 0 },
    st := .disabled, armIndex := 0, since := 0, fed := 0, lastFiring := none, comp := false, width := 0, runStart := 0, q := false, lastTrue := none,
    stamp := 0, data := [], reports := [], timerAt := none, asserts := 0, counted := 0, firings := 0, wins := 0,
    suppressed := 0, heldOff := 0, blanked := 0 }

/-- The trigger unit (R327). -/
def TrigUnit.power : TrigUnit :=
  { slots := List.replicate 32 TrigSlot.power,
    masks := List.replicate 4 { settings := [(0, { zoom := false, below := false, offset := 0, base := 0, npts := 1 })], table := [] },
    evalIndex := 0, next := 0, changes := [], events := [], seq := 0, records := [], recordsLost := 0, lastNotice := none, withheld := 0, forced := [] }

/-- A sheaf (R357). -/
def Sheaf.power : Sheaf :=
  { configured := false,
    cfg := { kind := 0, unit := 0, full := true, ring := false, pre := 0, len := 1024, nseg := 1, handle := 0, offset := 0, lanes := [] },
    esize := 2, armed := false, armIndex := 0, finish := false, seg := none, closing := [], next := 0, lastEnd := none, sinceArm := 0,
    sourceChanged := false, bindingLost := false, lastClose := 0, segments := 0, ignored := 0, preShort := 0, early := 0, truncated := 0 }

/-- The integration unit (R382). -/
def IntUnit.power : IntUnit :=
  { enabled := false,
    cfg := { products := 1, zoom := false, exclude := false, anchor := false, notice := false, sumLog2 := 0, accShift := 40, firstBin := 0,
             nbins := 1024, frameLen := 20000000000, handle := 0, offset := 0 },
    base := 0, configGen := 0, mismatch := false, bindingLost := false, seq := 0, frame := none, members := [], gap := none, late := [], header0 := [],
    header1 := [], queue := [], frames := 0, droppedSets := 0, satFrames := 0, lastNotice := none, withheld := 0 }

/-- A Thresher (R382). -/
def Thresher.power : Thresher :=
  { enabled := false,
    cfg := { zoom := false, skLog2 := 7, powExcess := 0, skLo := 0, skHi := 0xFFFF, first := 0, count := 1024, handle := 0, offset := 0 },
    bindingLost := false, late := [], valid := 0, skFlags := 0, powFlags := 0, dropped := 0, restarts := 0 }

/-- An Ethernet port (R422). -/
def EthPort.power : EthPort :=
  { en := false, ptpEn := false, ptpEntry := 0, mac := 0, mtu := 1500, ipv4 := 0, ipv6 := [0, 0, 0, 0], linkUp := false, txFrames := 0,
    rxFrames := 0, rxDiscarded := 0, pauseIgnored := 0, ptpRxLost := 0 }

/-- A stream context (R422). -/
def StreamCtx.power : StreamCtx :=
  { cfg := { pkind := 0, unit := 0, quant := 1, vdif := false, pack := 0, level := 0, vblockLog2 := 8, dests := [0, 0, 0, 0], stripe := 1,
             blocks := 22, payload64 := 128, thresh := 256, sourceId := 0, ring := 0, auOffset := 0, auCount := 0, w7 := 0, w8 := 0, w9 := 0 },
    configured := false, started := false, startIndex := 0, stopIndex := none, seq := 0, run := none, fresh := false, pieces := [], items := [],
    offset := 0, packets := [], writeOffset := 0, marks := List.replicate 4 { seq := none, lost := false }, markWaits := [], rewind := none,
    bindingLost := false, sent := 0, dropped := 0, retx := 0, clipped := 0, spoiled := 0, skipped := 0, packetsSent := 0, lastSent := none }

/-- The stream engine (R422). -/
def StreamUnit.power : StreamUnit :=
  { ports := List.replicate 4 EthPort.power, dests := List.replicate 64 { dest := .none, prod := 0, cons := 0, unsignalled := 0 },
    ctxs := List.replicate 64 StreamCtx.power, turns := List.replicate 30 63 }

/-- A packer (R447): PREV, NONE and W16. -/
def Packer.power : Packer :=
  { samplePred := 1, itemPred := 0, itemElem := 1, jobs := [], blocks := 0, noGain := 0, outFull := 0, inBytes := 0, outBytes := 0 }

/-- The metadata queue (R463). Log entry 55 (DEDUCED, unsafe). -/
def MqUnit.power : MqUnit :=
  { handle := 7, mask := 62, turn := 0, linger := 1000, threshold := 0, lineEnd := 0, buffer := [], items := [], hostPos := 0, readers := [], seq := 0,
    open_ := none, hostQueue := [], read := none, armed := false, loss := [], dropped := 0, aborted := 0, flushed := 0, ueItems := 0,
    padBytes := 0 }

/-- An interval-unit input on its delay line (R493). -/
def TdcInput.power (line : Nat) : TdcInput :=
  { enabled := false, falling := false, stuckNotice := false, stuckUs := 0, stuck := false, active := false, last := none, accepted := 0,
    overrun := 0, stuckEvents := 0, lastStamp := 0, line := line }

/-- A measurement slot (R493). -/
def TdcSlot.power : TdcSlot :=
  { cfg := { event := false, start := 0, stop := 1, expect := 0, each := true, stats := false, notice := false, count := 0, statsN := 1024,
             timeoutNs := 1000, halfWindow := 0, spacing := 2500, width := 25, x0 := 0, period := 0 },
    armed := false, since := 0, q := 0, window := 0, launch := 0, launchBase := 0, suspend := false, suspended := false, open_ := none,
    gathered := default, results := 0, statSeq := 0, lost := 0, outside := 0, lastResult := [], lastStats := [] }

/-- The interval unit (R477, R479, R493): line i serves input i, line 12 is the spare, and no table is ready. -/
def TdcUnit.power : TdcUnit :=
  { inputs := (List.range 12).map TdcInput.power,
    lines := List.replicate 13 { retired := false, table := [], calIndex := 0, calDwell := 0, dnl := 0, misses := 0 },
    spare := 12, relief := 0, rotating := true, notReady := true, dwells := 0, slots := List.replicate 8 TdcSlot.power, queue := [] }

/-- A monitor input (R517). -/
def McInput.power : McInput :=
  { order := 1, dr := 5, single := true, threshNotice := false, ovrNotice := false, detCh := 0, high := 2 ^ 31 - 1, low := -(2 ^ 31), hyst := 0,
    latest := [], highState := false, lowState := false, prevOvr := false }

/-- The monitor converter (R517). -/
def McUnit.power : McUnit :=
  { inputs := List.replicate 32 McInput.power,
    seqMask := 0, run := false, sysHistory := false, pendingSeq := none, seqNext := 0, streamBroken := false, running := none, aborted := none,
    sysDue := false, sysPos := 0, converts := [], urgents := [], history := [], aborts := 0, lost := 0, ovrResults := 0, hot := [],
    offSupply := [] }

/-- The maintenance arbiter (R541) with the slice corrections of four channels of 33 slices. -/
def MaintUnit.power : MaintUnit :=
  { acts := [], dwell := none, deferred := none, priority := false, sliceFrom := 0, starts := List.replicate 7 0, waits := List.replicate 7 0,
    maxWait := List.replicate 7 0,
    slices := List.replicate 4 (List.replicate 33 { offset := 0, gain := 0, skew := 0, step := 0, dOffset := 0, dGain := 0, dSkew := 0 }),
    scrubFrom := none }

/-- A layer (R571). -/
def DispLayer.power (i : Nat) : DispLayer :=
  { en := false, format := 0, zpos := i, opaque_ := false, reduce := false, logmap := false, dir := false, alpha := 255, x := 0, y := 0, w := 0,
    h := 0, handle := 0, offset := 0, pitch := 0, colour := 0, scale := 0, bottom := 0, step := 0, lines := 0, palette := [] }

/-- The display (R571, R569). -/
def DispUnit.power : DispUnit :=
  let layers := (List.range 6).map DispLayer.power
  { timing := { video := true, deep := false, teFalling := false, margin := 8, crcLimit := 3, hact := 1920, htotal := 2200, vact := 1080,
                vtotal := 1125, hsa := 44, hbp := 148, vsa := 5, vbp := 36, pixHz := 148500000, laneMbps := 1000, teDelay := 0 },
    mode := .off, vblank := false, pending := layers, latched := { layers := layers, bg := 0 }, fixed := { layers := layers, bg := 0 },
    current := { layers := layers, bg := 0 }, running := false, frame := 0, composed := none, shown := none, pastLatch := false,
    sending := false, compare := false, linkReset := none, teReady := false, teLost := false, leaving := none, refs := [], panel := [],
    panelWait := none, fsIndex := 0, consec := 0, crcMismatches := 0, linkResets := 0, overruns := 0, lateCommits := 0, teIgnored := 0,
    teLostEvents := 0, skipMask := 0, renderErrors := 0, storeUe := 0, layerUe := 0 }

/-- A lockstep pair (R663). -/
def CorePair.power : CorePair :=
  { st := .running, halts := [], cause := 0, number := 0, pc := 0, gprs := List.replicate 31 0, bps := List.replicate 4 0, bpEn := 0,
    wpAddr := [0, 0], wpCtrl := [0, 0] }

/-- The firmware store with an erased flash (R621). Log entries 2 (DESIGN CHOICE, safe), 4 (DESIGN CHOICE, unsafe), 89 (DESIGN CHOICE, safe). -/
def Firmware.power : Firmware :=
  { slots := List.replicate 2 { data := [], valid := false }, preferred := 0, fusedSecver := 0, running := 0, recovery := false,
    loadOffset := 0, erase := none, activate := none }

/-- The control complex (R626: WDT_MS 100). -/
def HubUnit.power : HubUnit :=
  { resetLow := false, tripped := false, cooled := false, warmHeld := false, pcieUp := false, wdtMs := 100,
    cores := List.replicate 2 CorePair.power, tiles := List.replicate 2 { recent := [], attempt := 0, since := 0, dead := none },
    fw := Firmware.power, eccs := List.replicate 6 { ce := 0, ue := 0, passes := 0 }, ctlMem := [], replies := [], bootId := 0 }

/-- The debug port is closed, and Test-Logic-Reset selects IDCODE (R651, R657). -/
def DebugUnit.power : DebugUnit :=
  { ir := 1, challenge := [], failures := 0, level := 0, data := 0, addr := 0, status := 0, testRefused := 0, writes := 0, wrote := false,
    cells := List.replicate scanCells false }

/-- The device is SOLO (R584, and the values that open the pair commands). -/
def PairUnit.power : PairUnit :=
  { role := .solo, condition := .joining, link := .down, fourLanes := false, linkEn := true, strobeEn := false, autoRejoin := true,
    yieldMask := 15, hbTimeout := 50, otherHb := 50, live := 0, strobe := false, otherLive := 0, strobeSeen := false, deposed := false,
    skew := 0, coasting := false, latency := 0, heardAt := none, liveAt := none, mirrored := false, otherEligible := false, suppressed := false, mseq := 0, divergeMseq := 0, join := none, m0 := 0,
    joinMode := .quiet, joined := none, switchAt := none, handover := none, lastSent := [], itemFloor := [], checkpoints := [], forwarded := [],
    noMirrorCount := 0, takeovers := 0, resourceMismatch := 0, hbMissed := 0, relayDropped := 0, retrains := 0 }

/-- The black box is empty (R634). -/
def BlackBox.power : BlackBox :=
  { live := [], nextSeq := 0, frozen := none, freezeEvent := 0, freezeSeq := 0, suppressed := 0, lastReset := 0, warmResets := 0,
    watchdogResets := 0, coreRecoveries := 0, linkErrors := [0, 0], fallback := false }

/-- A device of a variant after power-up, before its boot: READY is 0. -/
def State.power (v : Variant) : State :=
  { pending := [], out := [], variant := v, compat := 1, index := 0, ready := false, mode := .quiet, shadowed := .quiet, nextId := 0, cmds := [],
    qps := List.replicate 16 QueuePair.power, spi := { unread := [], lost := false }, ctlport := CtlPort.power,
    routes := List.replicate 20 0, notices := List.replicate 18 { held := [], lost := 0 }, aside := none, glob := Global.power, pool := Pool.power,
    time := TimeUnit.power, conv := ConvUnit.power, eqs := List.replicate 4 Equaliser.power, tuners := List.replicate 8 Tuner.power,
    engines := (List.range 8).map (fun e => Engine.power (decide (4 ≤ e))), dens := List.replicate 4 Density.power,
    spgm := (List.range 8).map Spgm.power, trig := TrigUnit.power,
    cap := { rings := [], sheaves := List.replicate 8 Sheaf.power, queue := [] }, intg := IntUnit.power, th := List.replicate 4 Thresher.power,
    strm := StreamUnit.power, packers := List.replicate 2 Packer.power, mq := MqUnit.power, tdc := TdcUnit.power, mc := McUnit.power,
    maint := MaintUnit.power, disp := DispUnit.power, hub := HubUnit.power, dbg := DebugUnit.power, pair := PairUnit.power,
    bb := BlackBox.power, faultCause := 0, faultActive := 0,
    hist := { notes := [], gaps := [], first := 0, joined := 0 }, free := 0 }

/-- The device right after power is applied: a KA-4820 with an erased flash that has not begun to boot. Log entry 4 (DESIGN CHOICE, unsafe). -/
def State.reset : State := State.power .ka4820

end Sys2Proof.Machine
end

