-- ==== Sys2Proof/Machine/Operands.lean ====
section
/-! DEFINITION. Reading operands: the fields of header and parameter words (R41, R8), the codes of statuses and modes
(R48, R110), and the sets of units that each variant has (R1). -/

namespace Sys2Proof.Machine

/-- Bits [hi:lo] of a word (R8), as a number. -/
def field (w : Word) (hi lo : Nat) : Nat := w.toNat / 2 ^ lo % 2 ^ (hi + 1 - lo)

/-- One bit of a word. -/
def bit (w : Word) (i : Nat) : Bool := w.toNat / 2 ^ i % 2 == 1

/-- The signed reading of the low `n` bits of a number (two's complement). -/
def signed (n v : Nat) : Int := if v % 2 ^ n < 2 ^ (n - 1) then (v % 2 ^ n : Nat) else (v % 2 ^ n : Nat) - (2 ^ n : Int)

/-- An integer as an `n`-bit two's-complement code. -/
def unsign (n : Nat) (v : Int) : Nat := (v % (2 ^ n : Int)).toNat

/-- The numbers of the bits set in `m`, below `n`. -/
def maskBits (n m : Nat) : List Nat := (List.range n).filter fun i => m.testBit i

/-- A mask from a list of bit numbers. -/
def maskOf (l : List Nat) : Nat := l.foldl (fun a i => a ||| 2 ^ i) 0

/-- Saturating increment of a counter of `n` bits. -/
def satAdd (n a b : Nat) : Nat := min (a + b) (2 ^ n - 1)

/-- The smallest multiple of 32, an SC boundary, at or above `x` (R10). -/
def nextBoundary (x : Nat) : Nat := (x + 31) / 32 * 32

/-- Ceiling division. -/
def ceilDiv (a b : Nat) : Nat := (a + b - 1) / b

/-- Apply a function to element `i` of a list; nothing when there is none. -/
def modAt {α : Type} (l : List α) (i : Nat) (f : α → α) : List α := l.modify i f

/-! ### Settings by index, and spans of indices -/

/-- The setting in force at index `k` of a list of settings by effective index, newest first. -/
def settingAt {α : Type} (d : α) (l : List (Nat × α)) (k : Nat) : α :=
  match l.find? fun x => decide (x.1 ≤ k) with
  | some x => x.2
  | none => (l.getLast?.map fun x => x.2).getD d

/-- The newest setting. -/
def newest {α : Type} (d : α) (l : List (Nat × α)) : α := (l.head?.map fun x => x.2).getD d

/-- A setting takes effect at index `e`; of several at one index the last one stands. -/
def putSetting {α : Type} (e : Nat) (v : α) (l : List (Nat × α)) : List (Nat × α) := (e, v) :: l.filter fun x => decide (x.1 < e)

/-- The newest setting, as what a new numbering starts with. -/
def restart {α : Type} (l : List (Nat × α)) : List (Nat × α) := (l.take 1).map fun x => (0, x.2)

/-- Some setting in force in [lo, hi) passes a test. -/
def anySetting {α : Type} (d : α) (test : α → Bool) (l : List (Nat × α)) (lo hi : Nat) : Bool :=
  test (settingAt d l lo) || l.any fun x => decide (lo < x.1) && decide (x.1 < hi) && test x.2

/-- A range of indices [lo, hi) as a pair. A span that has not ended runs to `far`. -/
def Span.range (far : Nat) (x : Span) : Nat × Nat := (x.lo, x.hi.getD far)

/-- Some range of a list holds an index. -/
def inRanges (l : List (Nat × Nat)) (k : Nat) : Bool := l.any fun x => decide (x.1 ≤ k) && decide (k < x.2)

/-- Some range of a list meets [lo, hi). -/
def meetsRanges (l : List (Nat × Nat)) (lo hi : Nat) : Bool := l.any fun x => decide (max x.1 lo < min x.2 hi)

/-- The parts of ranges inside [lo, hi). -/
def clipRanges (lo hi : Nat) (l : List (Nat × Nat)) : List (Nat × Nat) :=
  (l.map fun x => (max x.1 lo, min x.2 hi)).filter fun x => decide (x.1 < x.2)

/-- Insert a range in order of its start. -/
def insertRange (x : Nat × Nat) : List (Nat × Nat) → List (Nat × Nat)
  | [] => [x]
  | y :: t => if x.1 ≤ y.1 then x :: y :: t else y :: insertRange x t

/-- The number of indices in the union of ranges (R171). -/
def unionCount (l : List (Nat × Nat)) : Nat :=
  ((l.foldr insertRange []).foldl (fun (a : Nat × Nat) x => (a.1 + (x.2 - max x.1 a.2), max a.2 x.2)) (0, 0)).1

/-- Insert a number in rising order, once. -/
def insertNat (x : Nat) : List Nat → List Nat
  | [] => [x]
  | y :: t => if x < y then x :: y :: t else if x = y then y :: t else y :: insertNat x t

/-- The numbers of a list in rising order, each once. -/
def sortNats (l : List Nat) : List Nat := l.foldr insertNat []

/-! ### Codes -/

/-- The code of a status (R17, R48). -/
def Status.code : Status → Nat
  | .ok => 0x00 | .deferred => 0x01 | .queued => 0x02 | .replaced => 0x03
  | .badOpcode => 0x10 | .badParam => 0x11 | .badLength => 0x12 | .noUnit => 0x13 | .busy => 0x14 | .late => 0x15
  | .noMemory => 0x20 | .outFull => 0x21 | .noGain => 0x22 | .markLost => 0x23
  | .mode => 0x30 | .clock => 0x31
  | .internal => 0x40

/-- The Rejected and State classes of R17, whose commands have had no effect (R18) and which REJ_COUNT counts (R66). -/
def Status.rejects (st : Status) : Bool := (0x10 ≤ st.code && st.code < 0x20) || (0x30 ≤ st.code && st.code < 0x40)

/-- The Resource class (R17, R48). -/
def Status.isResource (st : Status) : Bool := 0x20 ≤ st.code && st.code < 0x30

/-- Statuses whose reply always has RLEN 0 (R712): the Rejected, State and Internal classes, and a first reply. -/
def Status.bare (st : Status) : Bool := st.rejects || st == .internal || st == .deferred || st == .queued

/-- The code of a mode (R110, R111). -/
def Mode.code : Mode → Nat
  | .quiet => 0 | .analyse => 1 | .integrate => 2 | .record => 3 | .calibrate => 4 | .shadow => 5

/-- The mode of a MODE field of SYS_MODE (R110); 5-7 are refused (R109). -/
def Mode.ofCode : Nat → Option Mode
  | 0 => some .quiet | 1 => some .analyse | 2 => some .integrate | 3 => some .record | 4 => some .calibrate
  | _ => none

/-! ### The variants (R1) -/

/-- The VARIANT code (R5). -/
def Variant.code : Variant → Nat
  | .ka4820 => 0x4820 | .ka2820 => 0x2820 | .ka1820 => 0x1820

/-- Channels present: CH0 up to this number less one; also W and Z engines and density engines. -/
def Variant.channels : Variant → Nat
  | .ka4820 => 4 | .ka2820 => 2 | .ka1820 => 1

/-- Tuners present. -/
def Variant.tuners (v : Variant) : Nat := 2 * v.channels

/-- Ethernet ports present. -/
def Variant.ports : Variant → Nat
  | .ka4820 => 4 | .ka2820 => 4 | .ka1820 => 2

/-- Converter tiles present. -/
def Variant.tiles : Variant → Nat
  | .ka4820 => 2 | _ => 1

/-- A channel mask names only channels that are present (R2, R3). -/
def Variant.hasChannels (v : Variant) (m : Nat) : Bool := m < 2 ^ v.channels

/-- Spectrum engine `e` is present: 0-3 are W0-W3 and 4-7 are Z0-Z3 (R1). -/
def Variant.hasEngine (v : Variant) (e : Nat) : Bool := e < 8 && e % 4 < v.channels

/-! ### Flags and parameters of a command (R41) -/

/-- The fields of a packet's header (R41); AT comes low word first (R9). -/
def opcodeOf (p : Packet) : Nat := field (p.words.getD 0 0) 15 0
def flagsOf (p : Packet) : Byte := (p.words.getD 0 0).extractLsb' 16 8
def plenOf (p : Packet) : Nat := field (p.words.getD 0 0) 31 24
def tagOf (p : Packet) : Word := p.words.getD 1 0
def atOf (p : Packet) : Nat := join64 (p.words.getD 2 0) (p.words.getD 3 0)
def inlineOf (p : Packet) : List Word := p.words.drop 4

/-- The source order of R54 and the destination numbers of R88. -/
def srcRank : Src → Nat
  | .qp q => q.val | .spi => 16 | .ctlport _ => 17 | .pairLink => 18

/-- Two commands come from one source (R57); every sender of the control port is one source. -/
def sameSource (a b : Src) : Bool := srcRank a == srcRank b

/-- The source is a PCIe queue pair (R60, R716). -/
def isQp : Src → Bool
  | .qp _ => true | _ => false

def Cmd.timed (c : Cmd) : Bool := c.flags.getLsbD 0
def Cmd.fence (c : Cmd) : Bool := c.flags.getLsbD 1
def Cmd.ordered (c : Cmd) : Bool := c.flags.getLsbD 2
def Cmd.quiet (c : Cmd) : Bool := c.flags.getLsbD 3
def Cmd.indirect (c : Cmd) : Bool := c.flags.getLsbD 4
def Cmd.noMirror (c : Cmd) : Bool := c.flags.getLsbD 5
def Cmd.urgent (c : Cmd) : Bool := c.flags.getLsbD 6

/-- The parameter words: read from host memory with INDIRECT, else those sent inline (R60). -/
def Cmd.params (c : Cmd) : List Word := if c.indirect then c.fetched.getD [] else c.inline

/-- Parameter word `i`; a word beyond PLEN reads 0. -/
def Cmd.word (c : Cmd) (i : Nat) : Word := (c.params.take c.plen).getD i 0

/-- Bits [hi:lo] of parameter word `i`. Log entry 11 (DESIGN CHOICE, unsafe). -/
def Cmd.arg (c : Cmd) (i hi lo : Nat) : Nat := field (c.word i) hi lo

/-- Bit `b` of parameter word `i`. -/
def Cmd.flag (c : Cmd) (i b : Nat) : Bool := bit (c.word i) b

/-- The 64-bit number in parameter words `i` (low) and `i + 1` (R9). -/
def Cmd.arg64 (c : Cmd) (i : Nat) : Nat := join64 (c.word i) (c.word (i + 1))

end Sys2Proof.Machine
end

