-- ==== Sys2Proof/Machine/Ops.lean ====
section
/-! DEFINITION. The named operations over the state that every family shares: the passing of sample time, interrupts,
reply entries and notices, the completion of a command, and the shared pool. -/

namespace Sys2Proof.Machine

/-! ### Outputs and interrupts -/

/-- Record something that leaves the device. Log entry 8 (DESIGN CHOICE, safe). -/
def emit (o : Output) (s : State) : State := { s with out := s.out ++ [o] }

/-- Raise an MSI-X vector: one message, or none while the function has MSI-X disabled (R86). Log entry 24 (DESIGN CHOICE, unsafe). -/
def raiseVector (v : Nat) (s : State) : State :=
  if s.glob.msixEnabled then emit (.msix v) s else s

/-- Latch cause `b` of GINT_STATUS (R85). A cause that becomes set while enabled raises GINT_VECTOR (R84, R86). -/
def latchGint (b : Nat) (s : State) : State :=
  if bit s.glob.gintStatus b then s
  else
    let s' := { s with glob := { s.glob with gintStatus := s.glob.gintStatus ||| BitVec.ofNat 32 (2 ^ b) } }
    if bit s.glob.gintEnable b then raiseVector (field s.glob.gintVector 5 0) s' else s'

/-! ### Ethernet ports -/

def setStrm (f : StreamUnit → StreamUnit) (s : State) : State := { s with strm := f s.strm }

def portOf (s : State) (p : Nat) : EthPort := s.strm.ports.getD p default

def setPort (p : Nat) (f : EthPort → EthPort) (s : State) : State := setStrm (fun u => { u with ports := modAt u.ports p f }) s

/-- A frame arrives on an enabled port (R430). -/
def countRx (p : Nat) (f : EthPort → EthPort) (s : State) : State :=
  setPort p (fun e => if e.en then f { e with rxFrames := satAdd 32 e.rxFrames 1 } else e) s

/-- A frame that is discarded and counted (R410). -/
def discardRx (p : Nat) (s : State) : State := countRx p (fun e => { e with rxDiscarded := satAdd 32 e.rxDiscarded 1 }) s

/-- A datagram of the control port leaves by the Ethernet port of its receiver (R80, R430). -/
def sendDatagram (dest : Sender) (l : List Entry) (s : State) : State :=
  emit (.datagram dest l) (setPort dest.link (fun e => { e with txFrames := satAdd 32 e.txFrames 1 }) s)

/-! ### Queue pairs -/

def qpOf (s : State) (q : Nat) : QueuePair := s.qps.getD q default

def setQp (q : Nat) (f : QueuePair → QueuePair) (s : State) : State := { s with qps := modAt s.qps q f }

/-- The number of entries of the submission queue (R66: a power of two). -/
def QueuePair.sqEntries (p : QueuePair) : Nat := 2 ^ field p.sqSize 3 0

/-- The number of entries of the reply queue. -/
def QueuePair.rqEntries (p : QueuePair) : Nat := 2 ^ field p.rqSize 3 0

def QueuePair.enabled (p : QueuePair) : Bool := bit p.ctrl 0

/-- Entries exposed by SQ_TAIL and not yet fetched (R71). -/
def QueuePair.sqWork (p : QueuePair) : Nat := (p.sqTail + p.sqEntries - p.sqHead) % p.sqEntries

/-- Reply entries written and not yet consumed. -/
def QueuePair.rqUsed (p : QueuePair) : Nat := (p.rqTail + p.rqEntries - p.rqHead) % p.rqEntries

/-- Free reply entries; one entry of the ring stays unused, which makes the 127 of R72. Log entry 22 (DEDUCED, unsafe). -/
def QueuePair.rqFree (p : QueuePair) : Nat := p.rqEntries - 1 - p.rqUsed

/-- Reply entries reserved for the outstanding commands of queue pair `q` (R72): two each, one once the first reply is
written, and one for each reply a stopped pair holds. -/
def reservedOf (s : State) (q : Nat) : Nat :=
  ((s.cmds.filter fun c => srcRank c.src == q).map fun c => if c.replied then 1 else 2).sum
    + (qpOf s q).heldReplies.length

/-- OUTSTANDING of QP_STATUS (R68). -/
def outstandingOf (s : State) (r : Nat) : Nat := (s.cmds.filter fun c => srcRank c.src == r).length

/-- A queue pair stops (R60, R71): ERR with its code, and the cause in GINT_STATUS for range and DMA errors. -/
def stopQp (q code : Nat) (s : State) : State :=
  let s1 := setQp q (fun p => { p with err := true, errCode := code }) s
  match code with
  | 1 => latchGint 0 s1
  | 2 => latchGint 1 s1
  | 4 => latchGint 2 s1
  | _ => s1

/-! ### Host memory -/

/-- An access to host memory fails (R60). Log entry 110 (DESIGN CHOICE, unsafe). -/
def hostFails (s : State) (address n : Nat) : Bool := s.glob.dead.any fun x => decide (max x.1 address < min x.2 (address + n))

/-- The little-endian bytes of a word (R9). -/
def wordBytes (w : Word) : List Byte :=
  [w.extractLsb' 0 8, w.extractLsb' 8 8, w.extractLsb' 16 8, w.extractLsb' 24 8]

def bytesOfWords (ws : List Word) : List Byte := ws.flatMap wordBytes

/-- The words of little-endian bytes (R9); bytes beyond the last whole word are left. -/
def wordsOfBytes : List Byte → List Word
  | a :: b :: c :: d :: t => BitVec.ofNat 32 (a.toNat + b.toNat * 2 ^ 8 + c.toNat * 2 ^ 16 + d.toNat * 2 ^ 24) :: wordsOfBytes t
  | _ => []

/-- The words of a reply (R45, R47): the entry of 32 bytes, and the payload words beyond the first four. -/
def entryWords (e : Entry) : List Word :=
  [e.tag, BitVec.ofNat 32 (e.opcode + e.status.code * 2 ^ 16 + e.rlen * 2 ^ 24), lo32 e.index, hi32 e.index]
    ++ (e.payload.take 4 ++ List.replicate (4 - e.payload.length) 0) ++ e.payload.drop 4

/-- Where the next entry of the reply queue lies in host memory, its extension slot, and the write-back location (R66). -/
def QueuePair.rqAddr (p : QueuePair) : Nat := join64 p.rqBaseLo p.rqBaseHi + 32 * p.rqTail
def QueuePair.rxbAddr (p : QueuePair) : Nat := join64 p.rxbBaseLo p.rxbBaseHi + 1024 * p.rqTail
def QueuePair.rqwbAddr (p : QueuePair) : Nat := join64 p.rqwbLo p.rqwbHi

/-- The entry goes with its extension slot (R47): it has more than four payload words, and there is an RXB. -/
def QueuePair.extends (p : QueuePair) (e : Entry) : Bool := bit p.ctrl 1 && decide (4 < e.rlen)

/-- Make one entry visible on the reply queue of `q` (R47, R63, R64, R66, R69): the extension slot with the whole payload, then the entry;
RQ_TAIL advances, RQWB follows where enabled, and the vector is raised once COUNT entries have accumulated. Without an RXB only the first four
payload words exist. A write that fails stops the pair (R60): of an entry or its slot, `false` is answered, and the entry is not on the queue.
Log entries 23 (DEDUCED, unsafe), 110 (DESIGN CHOICE, unsafe). -/
def tryRq (q : Nat) (e : Entry) (s : State) : State × Bool :=
  let p := qpOf s q
  if (p.extends e && hostFails s p.rxbAddr (4 * e.rlen)) || hostFails s p.rqAddr 32 then (stopQp q 4 s, false)
  else
    let tail := (p.rqTail + 1) % p.rqEntries
    let n := p.unsignalled + 1
    let fire := bit p.ctrl 3 && decide (max 1 (field p.coal 7 0) ≤ n)
    let s0 := if p.extends e then emit (.hostWrite false p.rxbAddr (bytesOfWords e.payload)) s else s
    let s1 := emit (.hostWrite false p.rqAddr (bytesOfWords ((entryWords e).take 8))) s0
    let e' := if bit p.ctrl 1 then e else { e with payload := e.payload.take 4 }
    let s2 := setQp q (fun p => { p with rqTail := tail, rq := p.rq ++ [e'], unsignalled := if fire then 0 else n }) s1
    let s3 :=
      if !bit p.ctrl 2 then s2
      else if hostFails s2 p.rqwbAddr 4 then stopQp q 4 s2
      else emit (.hostWrite false p.rqwbAddr (wordBytes (BitVec.ofNat 32 tail))) s2
    (if fire then raiseVector (field p.ctrl 13 8) s3 else s3, true)

/-- A stopped queue pair holds its replies, and so does one whose write of a reply fails (R60, R71). -/
def replyQp (q : Nat) (e : Entry) (s : State) : State :=
  let hold (a : State) : State := setQp q (fun p => { p with heldReplies := p.heldReplies ++ [e] }) a
  if (qpOf s q).err then hold s
  else match tryRq q e s with
    | (a, true) => a
    | (a, false) => hold a

/-! ### Replies -/

/-- Store the final reply beside the packet the control port remembers (R81). -/
def rememberReply (id : Nat) (e : Entry) (s : State) : State :=
  { s with ctlport := { s.ctlport with remembered :=
      (s.ctlport.remembered.map (fun r => if r.cmd == id then { r with reply := some e } else r)) } }

/-- A lockstep pair of the control complex runs (R624, R629, R664, R665). -/
def coresRun (s : State) : Bool := !s.hub.tripped && !s.hub.resetLow && s.hub.cores.any fun p => p.st == .running

/-- A forwarded command that the mirror refuses makes it DIVERGED (R591); while it joins, at its join index. Log entry 103 (DEDUCED, unsafe). -/
def diverge (mseq : Nat) (s : State) : State :=
  if s.pair.role == .mirror then
    { s with pair := { s.pair with
      divergeMseq := mseq, condition := if s.pair.condition == .joining then .joining else .diverged } }
  else s

/-- Write a reply entry to the source of a command (R45, R47, R71, R78, R80). A stopped queue pair holds its replies. -/
def writeReply (c : Cmd) (e : Entry) (s : State) : State :=
  if c.mute then s
  else match c.src with
    | .qp q =>
      replyQp q.val e (if e.status.rejects then setQp q.val (fun p => { p with rejCount := p.rejCount + 1 }) s else s)
    | .spi => { s with spi := { s.spi with unread := s.spi.unread ++ [(false, e)] } }
    | .ctlport snd => sendDatagram snd [e] s
    | .pairLink => emit (.pairStatus c.mseq e.status) (if e.status.rejects then diverge c.mseq s else s)

/-- Deliver a reply entry; while no lockstep pair runs, it waits for one (R665). Log entry 23 (DEDUCED, unsafe). -/
def deliverReply (c : Cmd) (e : Entry) (s : State) : State :=
  if coresRun s then writeReply c e s else { s with hub := { s.hub with replies := s.hub.replies ++ [(c, e)] } }

/-- The reply entry of a command (R45, R712): a bare status carries no payload, but for a PAIR_JOIN that completes with BUSY (R609). -/
def replyEntry (c : Cmd) (st : Status) (payload : List Word) (idx : Nat) : Entry :=
  let bare := st.bare && !(c.opcode == 0x1101 && st == .busy)
  { tag := c.tag, opcode := c.opcode, status := st, rlen := if bare then 0 else payload.length, index := idx,
    payload := if bare then [] else payload }

/-- Keep a status of a forwarded command for its comparison (R591). -/
def recordOwn (id : Nat) (st : Status) (p : PairUnit) : PairUnit :=
  { p with forwarded := p.forwarded.map fun r => if r.cmd == id then { r with own := some st } else r }

/-- Complete a command: it leaves the outstanding list, and its final reply is written unless QUIET suppresses an OK
(R49, R59). -/
def complete (c : Cmd) (st : Status) (payload : List Word) (idx : Nat) (s : State) : State :=
  let e := replyEntry c st payload idx
  let s1 := { s with cmds := s.cmds.filter (fun d => d.id != c.id), pair := recordOwn c.id st s.pair }
  let s2 := match c.src with
    | .ctlport _ => rememberReply c.id e s1
    | _ => s1
  if c.quiet && st == .ok then s2 else deliverReply c e s2

/-- Write the first reply of a command that completes later (R48, R49), and keep the command outstanding as running.
QUIET suppresses it (R59). -/
def firstReply (c : Cmd) (st : Status) (idx : Nat) (s : State) : State :=
  let c' := { c with phase := .running, replied := true }
  let s1 := { s with cmds := s.cmds.filter (fun d => d.id != c.id) ++ [c'], pair := recordOwn c.id st s.pair }
  if c.quiet then s1 else deliverReply c (replyEntry c st [] idx) s1

/-- Keep a command outstanding with no reply yet. -/
def keepRunning (c : Cmd) (s : State) : State :=
  { s with cmds := s.cmds.filter (fun d => d.id != c.id) ++ [{ c with phase := .running }] }

def cmdById (s : State) (id : Nat) : Option Cmd := s.cmds.find? fun c => c.id == id

/-- Complete the outstanding command with number `id`, if there is one. -/
def completeId (id : Nat) (st : Status) (payload : List Word) (idx : Nat) (s : State) : State :=
  match cmdById s id with
  | some c => complete c st payload idx s
  | none => s

/-! ### Notices -/

def noticeBuf (s : State) (d : Nat) : NoticeBuffer := s.notices.getD d default

def setNoticeBuf (d : Nat) (f : NoticeBuffer → NoticeBuffer) (s : State) : State :=
  { s with notices := modAt s.notices d f }

/-- The destination can take a notice now (R76, R77). -/
def noticeRoom (s : State) (d : Nat) : Bool :=
  if d < 16 then
    let p := qpOf s d
    p.enabled && !p.err && decide (reservedOf s d < p.rqFree)
  else if d == 16 then decide ((s.spi.unread.filter fun u => u.1).length < 32)
  else decide (s.ctlport.portEn ≠ 0) && s.ctlport.last.isSome

/-- Hand a notice to a destination that has room; `false` where its write to a queue pair fails (R60). -/
def putNotice (d : Nat) (e : Entry) (s : State) : State × Bool :=
  if d < 16 then tryRq d e s
  else if d == 16 then ({ s with spi := { s.spi with unread := s.spi.unread ++ [(true, e)] } }, true)
  else match s.ctlport.last with
    | some snd => (sendDatagram snd [e] s, true)
    | none => (s, true)

/-- Hold a notice in its destination's 64-entry buffer; a full buffer discards its oldest, counts the loss and latches
NOTICE_LOSS (R76, R77). -/
def holdNotice (d : Nat) (e : Entry) (s : State) : State :=
  let b := noticeBuf s d
  if b.held.length < 64 then setNoticeBuf d (fun b => { b with held := b.held ++ [e] }) s
  else
    let s1 := setNoticeBuf d (fun b => { held := b.held.tail ++ [e], lost := b.lost + 1 }) s
    latchGint 3 { s1 with glob := { s1.glob with noticeLostCount := satAdd 32 s1.glob.noticeLostCount 1 } }

/-- The destination of the notices of a unit group (R75, R88). -/
def routeOf (s : State) (group : Nat) : Nat := s.routes.getD group 0

/-- A notice entry (R45, R75). -/
def noticeEntry (code : Nat) (payload : List Word) (idx : Nat) : Entry :=
  { tag := 0xFFFFFFFF#32, opcode := code, status := .ok, rlen := payload.length, index := idx, payload := payload }

/-- Send a notice (R75-R77): to its destination, at once when there is room and none waits before it. One whose write fails is held.
Log entry 110 (DESIGN CHOICE, unsafe). -/
def sendNotice (d : Nat) (e : Entry) (s : State) : State :=
  if noticeRoom s d && (noticeBuf s d).held.isEmpty && (noticeBuf s d).lost == 0 then
    match putNotice d e s with
    | (a, true) => a
    | (a, false) => holdNotice d e a
  else holdNotice d e s

/-- A notice is generated (R75, R737), for the destination that its group has now; it waits for the replies of the action that it results
from (R63). -/
def notify (code : Nat) (payload : List Word) (idx : Nat) (s : State) : State :=
  let d := routeOf s (code / 256)
  let e := noticeEntry code payload idx
  match s.aside with
  | some l => { s with aside := some (l ++ [(d, e)]) }
  | none => sendNotice d e s

/-- The notices that waited are sent (R63). -/
def sendAside (s : State) : State :=
  (s.aside.getD []).foldl (fun a x => sendNotice x.1 x.2 a) { s with aside := none }

/-- Run an action so that its notices follow its replies (R63). -/
def repliesFirst (f : State → State) (s : State) : State :=
  match s.aside with
  | some _ => f s
  | none => sendAside (f { s with aside := some [] })

/-! ### Partitions of the pool -/

/-- The partition in a slot. -/
def partAt (s : State) (slot : Nat) : Option Partition := s.pool.parts.find? fun p => p.slot == slot

/-- The handle of a partition (R97): GENERATION in [31:16] and SLOT in [15:0]; slots 1-7 have generation 0. -/
def Partition.handle (p : Partition) : Word := BitVec.ofNat 32 (p.slot + (if p.slot < 8 then 0 else p.generation) * 65536)

/-- The partition a handle names, if it is allocated with that generation (R97). -/
def partByHandle (s : State) (h : Word) : Option Partition :=
  match partAt s (field h 15 0) with
  | some p => if p.handle == h then some p else none
  | none => none

/-- The partition a handle names for a new reference: allocated and not awaiting a deferred free (R97, R99). -/
def partForUse (s : State) (h : Word) : Option Partition :=
  match partByHandle s h with
  | some p => if p.freeCmd.isNone then some p else none
  | none => none

/-- A partition fit to bind: of the role the unit's chapter names (R96). -/
def bindable (s : State) (h : Word) (role : Nat) : Option Partition :=
  match partForUse s h with
  | some p => if p.role == role then some p else none
  | none => none

def setPart (slot : Nat) (f : Partition → Partition) (s : State) : State :=
  { s with pool := { s.pool with parts := s.pool.parts.map (fun p => if p.slot == slot then f p else p) } }

/-! ### Bytes in a partition -/

/-- Read one byte of a cell list; an offset that is not listed reads 0 (R98). Log entry 2 (DESIGN CHOICE, safe). -/
def readCell : List Host.Cell → Nat → Byte
  | [], _ => 0
  | (a, b) :: t, o => if a == o then b else readCell t o

/-- Write one byte in canonical form: offsets rise and no listed byte is 0. -/
def writeCell : List Host.Cell → Nat → Byte → List Host.Cell
  | [], o, b => if b == 0 then [] else [(o, b)]
  | (a, x) :: t, o, b =>
    if o < a then (if b == 0 then (a, x) :: t else (o, b) :: (a, x) :: t)
    else if o == a then (if b == 0 then t else (o, b) :: t)
    else (a, x) :: writeCell t o b

/-- Write consecutive bytes from offset `o`. -/
def writeCells (l : List Host.Cell) (o : Nat) : List Byte → List Host.Cell
  | [] => l
  | b :: bs => writeCells (writeCell l o b) (o + 1) bs

/-- Read `n` consecutive bytes from offset `o`. -/
def readCells (l : List Host.Cell) (o n : Nat) : List Byte := (List.range n).map fun i => readCell l (o + i)

/-- The canonical form of a cell list: offsets strictly rise and no byte is 0. -/
def cellsWf : List Host.Cell → Bool
  | [] => true
  | [(_, b)] => b != 0
  | (a, b) :: (a', b') :: t => b != 0 && decide (a < a') && cellsWf ((a', b') :: t)

/-- Write bytes into a partition, inside its size; whole 64-bit words written clear their poison (R102). -/
def poolWrite (slot o : Nat) (bytes : List Byte) (s : State) : State :=
  setPart slot (fun p =>
    let fit := bytes.take (p.au * 1048576 - o)
    { p with data := writeCells p.data o fit,
             poisoned := p.poisoned.filter (fun a => !(decide (o ≤ a) && decide (a + 8 ≤ o + fit.length))) }) s

/-! ### The passing of sample time -/

/-- The device's samples run on to index `k` while they are delivered; while the SPLL is unlocked the index stays at the
last one delivered (R46, R84). Log entry 5 (DESIGN CHOICE, unsafe). -/
def advance (locked : Bool) (k : Nat) (s : State) : State :=
  if locked && decide (s.index ≤ k) then { s with index := k } else s

end Sys2Proof.Machine
end

