-- ==== Sys2Proof/Machine/Flags.lean ====
section
/-! DEFINITION. What the device computes from its state for every command: the sample rate and its grids, the lock and
holdover flags, the mode in force at an index, status words, faults and black-box entries. -/

namespace Sys2Proof.Machine

/-! ### Sample rate and grids (R119, R120) -/

/-- fs in hertz (R119). -/
def fsOf (t : TimeUnit) : Nat := t.refFreq * t.fbDiv / t.refDiv

/-- A_R of R120: REFIN cycles in one alignment period. -/
def alignRef (t : TimeUnit) : Nat :=
  let g := Nat.gcd t.fbDiv t.refDiv
  t.refDiv / g * (32 / Nat.gcd 32 (t.fbDiv / g))

/-- A_S of R120: samples in one alignment period. -/
def alignSamples (t : TimeUnit) : Nat :=
  let g := Nat.gcd t.fbDiv t.refDiv
  t.fbDiv / g * (32 / Nat.gcd 32 (t.fbDiv / g))

/-- Samples in `ns` nanoseconds, rounded up. -/
def samplesNs (s : State) (ns : Nat) : Nat := ceilDiv (ns * fsOf s.time) 1000000000

/-- The lead time L of R52: 50 µs in samples, rounded up. -/
def leadTime (s : State) : Nat := samplesNs s 50000

/-- The first SC boundary at least `ns` nanoseconds after the present index. -/
def boundaryAfter (s : State) (ns : Nat) : Nat := nextBoundary (s.index + samplesNs s ns)

/-- `a` lies at least `ms` milliseconds after `b`, in samples. -/
def msApart (s : State) (ms a b : Nat) : Bool := decide (b ≤ a) && decide (ms * fsOf s.time ≤ (a - b) * 1000)

/-! ### Lock and holdover -/

/-- SPLL_LOCKED (R85, R132): samples are delivered; holdover and a slew keep the SPLL locked. -/
def TbState.isLocked : TbState → Bool
  | .locked | .holdover | .qualified | .slew => true
  | .relocking | .waitRef => false

/-- The HOLDOVER flag (R85, R132, R138): from the declaration until a slew ends or a STEP relocks. -/
def TbState.isHoldover : TbState → Bool
  | .holdover | .qualified | .slew => true
  | .locked | .relocking | .waitRef => false

/-- The code of TB_STATE (R154). -/
def TbState.code : TbState → Nat
  | .locked => 0 | .relocking => 1 | .holdover => 2 | .qualified => 3 | .slew => 4 | .waitRef => 5

def locked (s : State) : Bool := s.time.tb.isLocked

/-- Samples are delivered (R126, R127): the SPLL is locked, and no captured SYNC edge waits for its re-phase. -/
def delivering (s : State) : Bool := locked s && s.time.applyCapture.isNone

/-- The HOLDOVER flag (R85, R132, R139): in holdover, and through a relock that makes a STEP until V. -/
def holdoverNow (t : TimeUnit) : Bool := t.tb.isHoldover || (t.tb == .relocking && t.relockStep.isSome)

/-- The mode in which units run: that of the shadowed primary on a mirror (R103, R38: SHADOW runs every unit the primary
runs). -/
def runMode (s : State) : Mode := if s.mode = .shadow then s.shadowed else s.mode

/-- What the samples of the present instant make every product say (R40, R134, R135). -/
def noteNow (s : State) : ClockNote :=
  { holdover := holdoverNow s.time, slew := s.time.tb == .slew, cal := runMode s == .calibrate }

/-- Keep what has been true since the last index at which something happened. -/
def keepNotes (s : State) : State :=
  if (s.hist.notes.head?.map fun x => x.2) == some (noteNow s) then s
  else { s with hist := { s.hist with notes := putSetting s.index (noteNow s) s.hist.notes } }

/-- The notes of the samples of [lo, hi): a product says what holds for any of them (R40, R134). -/
def notesOver (s : State) (lo hi : Nat) : ClockNote :=
  let any (f : ClockNote → Bool) : Bool := anySetting (noteNow s) f s.hist.notes lo hi
  { holdover := any fun n => n.holdover, slew := any fun n => n.slew, cal := any fun n => n.cal }

/-- Sample time passes to index `k` (R10, R84, R127): only while samples are delivered, and never backwards.
Log entries 5 (DESIGN CHOICE, unsafe), 21 (DEDUCED, unsafe), 101 (DESIGN CHOICE, safe). -/
def atTime (k : Nat) (s : State) : State := advance (delivering s) k (keepNotes s)

/-- GSTATUS (R85). -/
def gstatus (s : State) : Word :=
  BitVec.ofNat 32 ((if s.ready then 1 else 0) + (if delivering s then 2 else 0) + (if holdoverNow s.time then 4 else 0)
    + (if s.faultCause = 0 then 0 else 8))

/-- The device is PRIMARY of a pair whose MIRROR the link reaches (R590); while the link retrains the pair continues (R582). -/
def hasMirror (s : State) : Bool := s.pair.role == .primary && (s.pair.link == .up || s.pair.link == .training) && s.pair.mirrored

/-! ### The mode in force at an index (R56, R106) -/

/-- An accepted SYS_MODE that has not reached E. -/
def isPendingMode (c : Cmd) : Bool := c.opcode == 0x0001 && (match c.phase with | .held _ => true | _ => false)

/-- The effective index of a held command; the index V of the next lock counts as last. -/
def Cmd.eff (c : Cmd) : Option Nat :=
  match c.phase with
  | .held e => e
  | _ => none

/-- Held command `a` takes effect before `b` (R54, R56): by effective index, a SYS_MODE first, then TAG, source and fetch
order. -/
def before (a b : Cmd) : Bool :=
  let key : Cmd → List Nat := fun c =>
    [match c.eff with | some e => e | none => 2 ^ 65, if c.opcode == 0x0001 then 0 else 1, c.tag.toNat, c.origin, c.id]
  decide (key a < key b)

/-- The first of the held commands in the order of `before`. -/
def firstHeld (l : List Cmd) : Option Cmd :=
  l.foldl (fun acc c =>
    match c.phase with
    | .held _ => (match acc with
      | some d => if before c d then some c else some d
      | none => some c)
    | _ => acc) none

/-- The mode in force at index `e`, counting every accepted SYS_MODE whose E is at or before it (R56). -/
def modeAt (s : State) (e : Nat) : Mode :=
  if s.mode = .shadow then .shadow
  else
    let due := s.cmds.filter fun c => isPendingMode c && (match c.eff with | some x => decide (x ≤ e) | none => false)
    match due.foldl (fun acc c => match acc with
        | some d => if before d c then some c else some d
        | none => some c) none with
    | some c => (Mode.ofCode (c.arg 0 2 0)).getD s.mode
    | none => s.mode

/-! ### Black box and faults (R628, R631-R635) -/

/-- Events that freeze the black box (R635). -/
def bbFreezes (event : Nat) (data : List Word) : Bool :=
  event == 0x1282 || event == 0x1283 || event == 0x1286 || event == 0x1288 || event == 0x0209
    || (event == 0x0302 && data.getD 1 0 == 2#32)

/-- Freeze the black box unless it is frozen (R633). Log entry 90 (DEDUCED, unsafe). -/
def bbFreeze (event : Nat) (s : State) : State :=
  if s.bb.frozen.isSome then s
  else { s with bb := { s.bb with frozen := some s.bb.live, freezeEvent := event, freezeSeq := (s.bb.live.getLast?.map fun e => e.seq).getD 0 } }

/-- Write a black-box entry (R631, R632): the newest 4,096 are kept, and beyond 64 entries of one combination within a
second the entry is only counted. Log entry 90 (DEDUCED, unsafe). -/
def bbWrite (unit place event : Nat) (data : List Word) (idx : Nat) (s : State) : State :=
  let same := s.bb.live.filter fun e =>
    e.unit == unit && e.place == place && e.event == event && decide (e.index ≤ idx) && decide (idx < e.index + fsOf s.time)
  if 64 ≤ same.length then { s with bb := { s.bb with suppressed := satAdd 32 s.bb.suppressed 1 } }
  else
    let e : BbEntry :=
      { index := idx, unit := unit, unlocked := !(locked s), holdover := holdoverNow s.time,
        place := place, event := event, seq := s.bb.nextSeq, data := [data.getD 0 0, data.getD 1 0, data.getD 2 0] }
    let live := s.bb.live ++ [e]
    let s1 := { s with bb := { s.bb with live := live.drop (live.length - 4096), nextSeq := (s.bb.nextSeq + 1) % 2 ^ 32 } }
    if bbFreezes event data then bbFreeze event s1 else s1

/-- A FAULT_CAUSE bit latches (R628): FAULT_N asserts, GINT_STATUS.FAULT latches and DIAG_FAULT is sent when it newly
sets. -/
def setFault (b : Nat) (s : State) : State :=
  let m := BitVec.ofNat 32 (2 ^ b)
  let s0 := { s with faultActive := s.faultActive ||| m }
  if bit s.faultCause b then s0
  else
    let s1 := { s0 with faultCause := s0.faultCause ||| m }
    let s2 := if s.faultCause = 0 then latchGint 5 s1 else s1
    notify 0x1201 [s1.faultCause, m] s2.index s2

/-- The condition of a FAULT_CAUSE bit has ended; the bit stays latched (R628). Log entry 85 (DEDUCED, unsafe). -/
def endFault (b : Nat) (s : State) : State :=
  { s with faultActive := s.faultActive &&& ~~~(BitVec.ofNat 32 (2 ^ b)) }

/-! ### Memory errors (R101, R102) -/

/-- The first detection of an uncorrectable word at a partition offset (R102). -/
def detectUe (slot offset : Nat) (s : State) : State :=
  match partAt s slot with
  | none => s
  | some p =>
    let o := offset / 8 * 8
    if p.poisoned.contains o || p.au * 1048576 ≤ o then s
    else
      let w := [p.handle, BitVec.ofNat 32 o]
      let s1 := setPart slot (fun p => { p with ue := satAdd 32 p.ue 1, poisoned := p.poisoned ++ [o] }) s
      notify 0x0101 w s.index (bbWrite 0x01 (slot % 256) 0x0101 w s.index { s1 with pool := { s1.pool with ueTotal := satAdd 32 s1.pool.ueTotal 1 } })

/-- Corrected errors of a partition (R101). -/
def countCe (slot n : Nat) (s : State) : State :=
  if (partAt s slot).isNone then s
  else
    let s1 := setPart slot (fun p => { p with ce := satAdd 32 p.ce n }) s
    { s1 with pool := { s1.pool with ceTotal := satAdd 32 s1.pool.ceTotal n } }

/-- Errors and passes of a store with its own scrubbing (R101, R641). -/
def countStore (store ce ue passes : Nat) (s : State) : State :=
  { s with hub := { s.hub with eccs := modAt s.hub.eccs store (fun e =>
      { ce := satAdd 32 e.ce ce, ue := satAdd 32 e.ue ue, passes := satAdd 32 e.passes passes }) } }

/-- The words that the reads of a row find in error (R101, R102). Log entry 10 (DESIGN CHOICE, safe). -/
def bringErrors (l : List MemError) (s : State) : State :=
  l.foldl (fun a e =>
    if 256 ≤ e.place then countStore (e.place - 256) (if e.corrected then 1 else 0) (if e.corrected then 0 else 1) 0 a
    else if e.corrected then countCe e.place 1 a else detectUe e.place e.offset a) s

/-- Integration traffic joins pool class A in a mode (R95, R103): nothing of it is dropped there. -/
def favoursIntegration (m : Mode) : Bool := m == .integrate || m == .calibrate

/-- The word that holds a byte of a partition is poisoned. -/
def poisonedAt (p : Partition) (o : Nat) : Bool := p.poisoned.contains (o / 8 * 8)

/-- A word of a range of the partition that a handle names is poisoned (R102). -/
def regionPoisoned (s : State) (h : Word) (o n : Nat) : Bool :=
  match partByHandle s h with
  | some p => p.poisoned.any fun a => decide (o < a + 8) && decide (a < o + n)
  | none => false

/-- PRODUCER_MASK lets a producer of the MQ offer items (R452). -/
def mqTakes (s : State) (producer : Nat) : Bool := s.mq.mask.testBit producer

/-! ### Raw times (R475, R477) -/

/-- The table of a delay line, from the hits of its taps, in 1/256 of a TDC period (R477): the share of the 2^20 hits below a tap plus half its own,
rounded to nearest. Log entry 114 (DEDUCED, unsafe). -/
def tapTable : Nat → List Nat → List Nat
  | _, [] => []
  | below, h :: t => min 255 ((2 * below + h + 2 ^ 12) / 2 ^ 13) :: tapTable (below + h) t

/-- The raw time, in ticks of 1/16 sample, of an edge that the line of an input sees at a tap in a TDC cycle (R475). -/
def tdcRaw (s : State) (code cycle tap : Nat) : Nat :=
  256 * cycle + (s.tdc.lines.getD (s.tdc.inputs.getD code default).line default).table.getD tap 0

/-! ### Stamps (R147-R149) -/

/-- Nearest integer to `n / d`, ties away from zero (R148). Log entry 38 (DEDUCED, unsafe). -/
def roundDiv (n : Int) (d : Nat) : Int :=
  if 0 ≤ n then (2 * n + d) / (2 * d) else -((2 * (-n) + d) / (2 * d))

/-- A_t of a target for a key index (R147, R169): channels use the attenuator setting in force at that index. -/
def analogueDelay (s : State) (target key : Nat) : Nat :=
  Config.factoryDelay target (if target < 4 then settingAt 0 (s.conv.channels.getD target default).attens key else 0)

/-- P_t of a target for a key index (R149). -/
def planeOffset (s : State) (target key : Nat) : Int := settingAt 0 (s.time.offsets.getD target default) key

/-- (A_t + P_t) fs in units of 2^-32 sample, as an exact fraction over 10^12 (R149): delays are in 2^-16 ps. -/
def delayScaled (s : State) (target key : Nat) : Int :=
  ((analogueDelay s target key : Int) + planeOffset s target key) * (fsOf s.time * 65536)

/-- The stamp of R148 for a key index in 2^-33 sample (which holds the mean of two key indices, R260) and a group delay G in 2^-32 sample,
rounded once, modulo 2^96. -/
def stampHalf (s : State) (target : Nat) (n33 g32 : Int) : Nat :=
  let key := (n33 / 2 ^ 33).toNat
  (roundDiv ((n33 - 2 * g32) * 1000000000000 - 2 * delayScaled s target key) 2000000000000 % 2 ^ 96).toNat

/-- The stamp of R148 for a key index in 2^-32 sample. -/
def stampOf (s : State) (target : Nat) (n32 g32 : Int) : Nat := stampHalf s target (2 * n32) g32

/-- The three words of a DTS (R11). -/
def dtsWords (d : Nat) : List Word := [lo32 d, lo32 (d / 2 ^ 32), lo32 (d / 2 ^ 64)]

/-- A signed 64-bit value in two words, low word first (R9). -/
def i64Words (v : Int) : List Word := [lo32 (unsign 64 v), hi32 (unsign 64 v)]

/-- A 64-bit value in two words, low word first (R9). -/
def u64Words (v : Nat) : List Word := [lo32 v, hi32 v]

/-- A free value: a word that nothing constrains, and the counter moves on. Log entry 9 (DESIGN CHOICE, safe). -/
def takeFree (s : State) : Word × State := (Config.freeWord s.free, { s with free := s.free + 1 })

end Sys2Proof.Machine
end

