-- ==== Sys2Proof/Machine/Command.lean ====
section
/-! DEFINITION. How the device treats a command packet (R41-R62, R709-R716): the checks in the order of R50, the wait for
the effective index, the execution, and the ordering of R57. What a given opcode adds is a CmdSpec. -/

namespace Sys2Proof.Machine

/-- The TIMED column of R714. -/
inductive TimedCap where
  | no | sampleDomain | nearSc
deriving DecidableEq, Repr

/-- What the execution of a command answers (R48, R49): its final status and payload at the effective index; the same at
an index of its own; a first reply, with the second to follow; one reply that follows later; or no reply at all (R623). -/
inductive Fate where
  | done (st : Status) (payload : List Word)
  | doneAt (st : Status) (payload : List Word) (idx : Nat)
  | first (st : Status)
  | later
  | silent
deriving DecidableEq, Repr

/-- The first status is in the Accepted class (R17, R589). -/
def Fate.accepted : Fate → Bool
  | .done st _ => decide (st.code < 0x10)
  | .doneAt st _ _ => decide (st.code < 0x10)
  | .first _ => true
  | .later => true
  | .silent => true

/-- One opcode (R708): its number and PLEN, its TIMED column, the parameter checks that give BAD_PARAM and NO_UNIT, the checks of the
parameters against the units they name, which give BAD_PARAM where those are present (R2, R3), its Modes column, what the device's role in a pair
lets through (R56), the CLOCK, BUSY and any further status it can be refused with, the nanoseconds from arrival to the effective index of a
sample-domain action without TIMED (`none`: no such action), the units it addresses (R57), whether its unit queues it,
the zero words of a refusal of the Resource class (R712), and its execution at an effective index. -/
structure CmdSpec where
  opcode : Nat
  plen : Cmd → Bool
  timed : Cmd → TimedCap := fun _ => .no
  params : State → Cmd → Bool := fun _ _ => true
  units : State → Cmd → Bool := fun _ _ => true
  fits : State → Cmd → Bool := fun _ _ => true
  modes : Mode → Cmd → Bool := fun _ _ => true
  role : State → Cmd → Bool := fun _ _ => true
  clock : State → Cmd → Bool := fun _ _ => false
  busy : State → Cmd → Bool := fun _ _ => false
  refuse : State → Cmd → Option Status := fun _ _ => none
  lead : Cmd → Option Nat := fun _ => none
  addr : Cmd → List Nat
  queues : Bool := false
  refusedWords : Nat := 0
  run : Cmd → Nat → State → State × Fate

/-- A fixed parameter word count (R43). -/
def plenIs (n : Nat) : Cmd → Bool := fun c => c.plen == n

/-- The unit number of unit `i` of a group (R57); 255 stands for a group without numbered units. -/
def unitNo (group i : Nat) : Nat := group * 256 + i

/-- "Any except SHADOW" (R713). -/
def notShadow : Mode → Cmd → Bool := fun m _ => m != .shadow

/-- The lead of most sample-domain commands: the first SC boundary at least 1 µs after arrival (R256). -/
def lead1us : Cmd → Option Nat := fun _ => some 1000

/-- Two byte or AU ranges of one partition overlap. -/
def rangesMeet (h1 : Word) (o1 n1 : Nat) (h2 : Word) (o2 n2 : Nat) : Bool :=
  h1 == h2 && decide (o1 < o2 + n2) && decide (o2 < o1 + n1)

/-- AT is an SC boundary, or the command is not TIMED (R714). -/
def at32 (c : Cmd) : Bool := !c.timed || c.atIndex % 32 == 0

/-- The number of pending TIMED commands (R53). -/
def pendingTimed (s : State) : Nat :=
  (s.cmds.filter fun c => c.timed && (match c.phase with | .held _ => true | _ => false)).length

/-- The header fails R44, R60 or R710. A forwarded action carries TIMED whatever its opcode (R589). Log entry 11 (DESIGN CHOICE, unsafe). -/
def badHeader (sp : CmdSpec) (c : Cmd) : Bool :=
  c.flags.getLsbD 7 || c.tag == 0xFFFFFFFF#32 || (c.timed && c.src != .pairLink && (c.urgent || sp.timed c == .no))
    || (c.indirect && (!isQp c.src || field (c.inline.getD 0 0) 3 0 != 0))

/-- A command of this group is never forwarded (R588, R713). -/
def neverForwarded (opcode : Nat) : Bool := opcode / 256 == 0x11 || opcode / 256 == 0x12 || opcode / 256 == 0x13 || opcode == 0x0007

/-- The device is the primary of a pair and forwards this command to its mirror (R61, R588, R713). -/
def forwards (sp : CmdSpec) (c : Cmd) (s : State) : Bool :=
  hasMirror s && !c.noMirror && !neverForwarded c.opcode && !sp.modes .shadow c

/-- The lead of a sample-domain action without TIMED in nanoseconds: a primary with a mirror takes 4 µs in place of 1 µs
(R590). Log entry 19 (DEDUCED, unsafe). -/
def leadNs (sp : CmdSpec) (c : Cmd) (s : State) : Option Nat :=
  match sp.lead c with
  | some ns => some (if ns = 1000 && hasMirror s then 4000 else ns)
  | none => none

/-- The effective index against which a command is judged at arrival (R56). Log entry 19 (DEDUCED, unsafe). -/
def arrivalEff (sp : CmdSpec) (c : Cmd) (s : State) : Nat :=
  if c.timed then c.atIndex
  else match leadNs sp c s with
    | some ns => boundaryAfter s ns
    | none => s.index

/-- The Modes column lets the command through at a mode (R713): it governs local sources, not a forwarded command. -/
def modeOk (sp : CmdSpec) (c : Cmd) (m : Mode) : Bool := c.src == .pairLink || sp.modes m c

/-- The effective index that an accepted command will have (R51, R56, R714). -/
def willTakeEffect (c : Cmd) (s : State) : Nat :=
  if c.timed then c.atIndex
  else boundaryAfter s (if hasMirror s then 4000 else 1000)

/-- Insert a held command in the order of `before`. -/
def insertHeld (c : Cmd) : List Cmd → List Cmd
  | [] => [c]
  | d :: t => if before c d then c :: d :: t else d :: insertHeld c t

/-- The accepted commands that are still pending (R743), in the order in which they take effect. -/
def heldInOrder (s : State) : List Cmd :=
  (s.cmds.filter fun c => match c.phase with | .held _ => true | _ => false).foldr insertHeld []

/-- The accepted commands of one opcode that are still pending (R743). Log entry 44 (DEDUCED, unsafe). -/
def heldOf (s : State) (opcode : Nat) : List Cmd := (heldInOrder s).filter fun c => c.opcode == opcode

/-- The index before which a TIMED command is LATE (R52); a forwarded action is when its E has passed (R591), and while the mirror joins
it never is (R597). -/
def lateLimit (c : Cmd) (s : State) : Nat :=
  if c.src != .pairLink then s.index + leadTime s else if s.pair.condition == .joining then 0 else s.index

/-- The read of INDIRECT parameters fails (R60). -/
def indirectFails (c : Cmd) (s : State) : Bool :=
  c.indirect && (c.fetched.isNone || hostFails s (join64 (c.inline.getD 0 0) (c.inline.getD 1 0)) (4 * c.plen))

/-- The checks of a command in the order of R50; `none` when it passes. A failed INDIRECT read comes before the parameters
are seen (R60). Log entry 15 (DEDUCED, unsafe). -/
def checkCmd (sp : CmdSpec) (c : Cmd) (s : State) : Option Status :=
  if !sp.plen c || (isQp c.src && !c.indirect && decide (12 < c.plen)) then some .badLength
  else if badHeader sp c then some .badParam
  else if indirectFails c s then some .internal
  else if !sp.params s c then some .badParam
  else if !sp.units s c then some .noUnit
  else if !sp.fits s c then some .badParam
  else if !modeOk sp c (modeAt s (arrivalEff sp c s)) || !sp.role s c then some .mode
  else if (c.timed && !locked s) || sp.clock s c then some .clock
  else if c.timed && decide (c.atIndex < lateLimit c s) then some .late
  else if (c.timed && decide (1024 ≤ pendingTimed s)) || sp.busy s c then some .busy
  else sp.refuse s c

/-- Let a command go as its fate says: complete it, or keep it outstanding (R49). Log entry 14 (DEDUCED, unsafe). -/
def settleFate (c : Cmd) (idx : Nat) (r : State × Fate) : State :=
  match r.2 with
  | .done st pl => complete c st pl idx r.1
  | .doneAt st pl i => complete c st pl i r.1
  | .first st => firstReply c st r.1.index r.1
  | .later => keepRunning c r.1
  | .silent => { r.1 with cmds := r.1.cmds.filter (fun d => d.id != c.id) }

/-- Execute a command at an effective index; the notices of what it does follow its reply (R63). -/
def applyNow (sp : CmdSpec) (c : Cmd) (idx : Nat) (s : State) : State := repliesFirst (fun a => settleFate c idx (sp.run c idx a)) s

/-- Send a command over the pair link with the next MSEQ, and await both statuses (R589, R591). A sample-domain action goes as a TIMED
command with AT = E. Log entry 75 (DEDUCED, unsafe). -/
def sendForward (c : Cmd) (e : Option Nat) (data : List Byte) (s : State) : State :=
  let m := (s.pair.mseq + 1) % 2 ^ 32
  let f : Forwarded :=
    { mseq := m, origin := c.origin, opcode := c.opcode,
      flags := if e.isSome then (c.flags &&& 0xEF#8) ||| 0x01#8 else c.flags &&& 0xEF#8,
      tag := c.tag, atIndex := e.getD c.atIndex, params := c.params.take c.plen, data := data }
  let r : ForwardRecord := { mseq := m, cmd := c.id, own := none, other := none }
  emit (.pairForward f) { s with pair := { s.pair with mseq := m, forwarded := s.pair.forwarded ++ [r] } }

/-- Forward an accepted command (R588); a MEM_WRITE goes with its data once that has come. -/
def forwardCmd (sp : CmdSpec) (c : Cmd) (e : Option Nat) (s : State) : State :=
  if forwards sp c s then
    if c.opcode == 0x0105 then s else sendForward c (if (sp.lead c).isSome then e else none) [] s
  else if hasMirror s && c.noMirror && !neverForwarded c.opcode && !sp.modes .shadow c then
    { s with pair := { s.pair with noMirrorCount := satAdd 32 s.pair.noMirrorCount 1 } }
  else s

/-- Hold an accepted command for its effective index (R51, R31; `none`: for the index V of the next lock, R715). The mirror learns W of a
PAIR_SWITCH (R604). -/
def holdCmd (c : Cmd) (e : Option Nat) (s : State) : State :=
  let s1 := { s with cmds := s.cmds.filter (fun d => d.id != c.id) ++ [{ c with phase := .held e }] }
  match e with
  | some w => if c.opcode == 0x1103 then emit (.pairState (.switchIndex w)) s1 else s1
  | none => s1

/-- A failed INDIRECT read (R60) writes a black-box entry (R48, R635) and latches DMA_ERROR; other refusals do nothing
more (R18). Log entry 14 (DEDUCED, unsafe). -/
def refuseEffects (c : Cmd) (st : Status) (s : State) : State :=
  if st == .internal then
    latchGint 2 (bbWrite 0x12 0 0x1285 [BitVec.ofNat 32 c.opcode, c.tag, BitVec.ofNat 32 c.origin] s.index s)
  else s

/-- Execute a command at once and forward it, if it is accepted (R588); the notices of what it does follow its reply (R63). -/
def runNow (sp : CmdSpec) (c : Cmd) (s : State) : State :=
  repliesFirst (fun a =>
    let r := sp.run c a.index a
    settleFate c a.index (if r.2.accepted then forwardCmd sp c none r.1 else r.1, r.2)) s

/-- Write the result of a command to host memory (R60, R64); `false` when that fails, which ends the command with INTERNAL. -/
def hostResult (id address : Nat) (bytes : List Byte) (s : State) : State × Bool :=
  if hostFails s address bytes.length then
    (match cmdById s id with
      | some c => refuseEffects c .internal s
      | none => s, false)
  else (if bytes.isEmpty then s else emit (.hostWrite true address bytes) s, true)

/-- Start a command whose ordering conditions are met (R52): check it, then refuse it, hold it or execute it. -/
def startCmd (sp : CmdSpec) (c0 : Cmd) (s : State) : State :=
  let c := { c0 with arrival := s.index }
  match checkCmd sp c s with
  | some st => complete c st (if st.isResource then List.replicate sp.refusedWords 0 else []) s.index (refuseEffects c st s)
  | none =>
    if c.timed then holdCmd c (some c.atIndex) (forwardCmd sp c (some c.atIndex) s)
    else match leadNs sp c s with
      | some ns =>
        let e := if locked s then some (boundaryAfter s ns) else none
        holdCmd c e (forwardCmd sp c e s)
      | none => runNow sp c s

/-- A held command reaches its effective index (R51, R56): the mode is checked again, and the command executes. What a device in SHADOW refuses
has been judged at arrival. A TIMED command that is not sample-domain may take effect within 1 SC of AT (R31): here it does at AT.
Log entry 13 (DEDUCED, unsafe). -/
def fireHeld (sp : CmdSpec) (c : Cmd) (s : State) : State :=
  let e := c.eff.getD s.index
  if modeOk sp c (runMode s) then applyNow sp c e s else complete c .mode [] e s

/-- Command `d`, fetched earlier, makes `c` of the same source wait (R57, R62, R89): FENCE waits for everything and holds
everything back; ORDERED for an earlier ORDERED that has not replied; and commands of one unit keep their order unless
one is TIMED or the later is URGENT. A forwarded command waits for nothing: it runs in MSEQ order (R591). Log entry 17 (DEDUCED, unsafe). -/
def blocks (spc spd : CmdSpec) (c d : Cmd) : Bool :=
  c.src != .pairLink && decide (d.id < c.id) && c.origin == d.origin && sameSource c.src d.src && c.opcode != 0x0003
    && (c.fence || d.fence || (c.ordered && d.ordered && !d.replied)
      || (!c.timed && !d.timed && !c.urgent && !d.replied && (spc.addr c).any (fun u => (spd.addr d).contains u)
          && !(spc.queues && spc.opcode == spd.opcode && d.phase == .running)))

end Sys2Proof.Machine
end

