-- ==== Sys2Proof/Machine/Float.lean ====
section
/-! DEFINITION. Powers and their formats (R247-R249): binary32 parts, the binary64 power, its comparison, sum and mean, and
LOG16 and LIN32. Values are non-negative dyadic numbers; every rounding is to nearest, ties to even, as IEEE 754 does. -/

namespace Sys2Proof.Machine

/-- `n / 2^k` rounded to nearest, ties to even. -/
def shiftRound (n k : Nat) : Nat :=
  let q := n / 2 ^ k
  let r := n % 2 ^ k
  if k = 0 then n
  else if r * 2 < 2 ^ k then q
  else if 2 ^ k < r * 2 then q + 1
  else q + q % 2

/-- Round to `p` significant bits. -/
def Dyad.round (p : Nat) (x : Dyad) : Dyad :=
  let len := if x.m = 0 then 0 else Nat.log2 x.m + 1
  if len ≤ p then x
  else { m := shiftRound x.m (len - p), e := x.e + ((len - p : Nat) : Int) }

def Dyad.zero : Dyad := { m := 0, e := 0 }

/-- Exact sum. -/
def Dyad.addExact (a b : Dyad) : Dyad :=
  if a.m = 0 then b else if b.m = 0 then a
  else
    let e := min a.e b.e
    { m := a.m * 2 ^ (a.e - e).toNat + b.m * 2 ^ (b.e - e).toNat, e := e }

/-- binary64 sum. -/
def Dyad.add (a b : Dyad) : Dyad := (a.addExact b).round 53

/-- binary64 product. -/
def Dyad.mul (a b : Dyad) : Dyad := Dyad.round 53 { m := a.m * b.m, e := a.e + b.e }

/-- `a ≤ b`. -/
def Dyad.le (a b : Dyad) : Bool :=
  if a.m = 0 then true else if b.m = 0 then false
  else
    let e := min a.e b.e
    decide (a.m * 2 ^ (a.e - e).toNat ≤ b.m * 2 ^ (b.e - e).toNat)

def Dyad.max (a b : Dyad) : Dyad := if a.le b then b else a
def Dyad.min (a b : Dyad) : Dyad := if a.le b then a else b

/-- binary64 quotient `a / (c 2^0)` by a positive count. A sticky bit keeps the rounding exact. -/
def Dyad.divNat (a : Dyad) (c : Nat) : Dyad :=
  if c ≤ 1 then a
  else
    let k := 64 + Nat.log2 c
    let n := a.m * 2 ^ k
    let q := n / c
    Dyad.round 53 { m := q * 2 + (if n % c = 0 then 0 else 1), e := a.e - ((k + 1 : Nat) : Int) }

/-- binary64 quotient of two powers. -/
def Dyad.div (a b : Dyad) : Dyad :=
  if a.m = 0 || b.m = 0 then Dyad.zero
  else
    let k := 64 + Nat.log2 b.m
    let n := a.m * 2 ^ k
    Dyad.round 53 { m := n / b.m * 2 + (if n % b.m = 0 then 0 else 1), e := a.e - b.e - ((k + 1 : Nat) : Int) }

/-- The magnitude of a binary32 value as a dyadic number. -/
def abs32 (w : Word) : Dyad :=
  let ex := field w 30 23
  let f := field w 22 0
  if ex = 0 then { m := f, e := -149 } else { m := f + 2 ^ 23, e := (ex : Int) - 150 }

/-- P of R248: Re^2 + Im^2 of the binary32 parts, in binary64 (each square is exact there). -/
def power (y : Word × Word) : Dyad :=
  let sq : Word → Dyad := fun w => { m := (abs32 w).m * (abs32 w).m, e := 2 * (abs32 w).e }
  (sq y.1).add (sq y.2)

/-- 10^(2 l - 1) ≤ P^2560, the test that LOG16 is at least `l`: 1,280 log10 P + 1/2 ≥ l (R249). -/
def logAtLeast (p : Dyad) (l : Int) : Bool :=
  let x := 2 * l - 1
  let pe := p.e * 2560
  let lhs := 10 ^ x.toNat * 2 ^ (-pe).toNat
  let rhs := p.m ^ 2560 * 2 ^ pe.toNat * 10 ^ (-x).toNat
  decide (lhs ≤ rhs)

/-- The largest `l` in [lo, lo + 2^n) with `logAtLeast`, given that it holds at `lo`. -/
def logSearch (p : Dyad) : Nat → Int → Int
  | 0, lo => lo
  | n + 1, lo => if logAtLeast p (lo + 2 ^ n) then logSearch p n (lo + 2 ^ n) else logSearch p n lo

/-- LOG16 of R249: round(1,280 log10 P), limited to -32,767 to +32,767; P = 0 gives -32,768. -/
def log16 (p : Dyad) : Int :=
  if p.m = 0 then -32768 else min 32767 (logSearch p 16 (-32767))

/-- LIN32 of R249: P as binary32. -/
def lin32 (p : Dyad) : Word :=
  if p.m = 0 then 0
  else
    let len : Int := Nat.log2 p.m + 1
    -- exponent of the last place of the rounded mantissa: 24 bits, or the subnormal place
    let place := Max.max (p.e + len - 24) (-149)
    let k := place - p.e
    let m := if 0 ≤ k then shiftRound p.m k.toNat else p.m * 2 ^ (-k).toNat
    let (m, place) := if m = 2 ^ 24 then (2 ^ 23, place + 1) else (m, place)
    if m < 2 ^ 23 then BitVec.ofNat 32 m
    else BitVec.ofNat 32 (((place + 150).toNat) * 2 ^ 23 + (m - 2 ^ 23))

/-! ### Signed values (R365, R377) -/

/-- A signed dyadic number m 2^e. -/
structure SDyad where
  m : Int
  e : Int
deriving DecidableEq, Repr, Inhabited

def SDyad.ofDyad (x : Dyad) : SDyad := { m := x.m, e := x.e }

/-- Round to `p` significant bits, to nearest with ties to even. -/
def SDyad.round (p : Nat) (x : SDyad) : SDyad :=
  let r := Dyad.round p { m := x.m.natAbs, e := x.e }
  { m := if x.m < 0 then -(r.m : Int) else r.m, e := r.e }

/-- Exact sum. -/
def SDyad.addExact (a b : SDyad) : SDyad :=
  if a.m = 0 then b else if b.m = 0 then a
  else
    let e := if a.e ≤ b.e then a.e else b.e
    { m := a.m * 2 ^ (a.e - e).toNat + b.m * 2 ^ (b.e - e).toNat, e := e }

def SDyad.neg (a : SDyad) : SDyad := { a with m := -a.m }

/-- binary64 sum, difference and product. -/
def SDyad.add (a b : SDyad) : SDyad := (a.addExact b).round 53
def SDyad.sub (a b : SDyad) : SDyad := (a.addExact b.neg).round 53
def SDyad.mul (a b : SDyad) : SDyad := SDyad.round 53 { m := a.m * b.m, e := a.e + b.e }

/-- `a < b`. -/
def SDyad.lt (a b : SDyad) : Bool := decide ((a.addExact b.neg).m < 0)

/-- The magnitude of a value that is not negative; 0 for a negative one. -/
def SDyad.toDyad (a : SDyad) : Dyad := { m := a.m.toNat, e := a.e }

/-- The signed value of a binary32 word. -/
def signed32 (w : Word) : SDyad :=
  let x := abs32 w
  { m := if bit w 31 then -(x.m : Int) else x.m, e := x.e }

/-- The value times 2^shift, rounded to the nearest integer, ties to even (R365). -/
def SDyad.scaled (shift : Nat) (x : SDyad) : Int :=
  let e := x.e + (shift : Int)
  if 0 ≤ e then x.m * 2 ^ e.toNat
  else
    let r : Int := shiftRound x.m.natAbs (-e).toNat
    if x.m < 0 then -r else r

/-- A mean accumulated in binary64 (R252, R260): summed in order, divided once. -/
def meanOf (l : List Dyad) : Dyad := (l.foldl Dyad.add Dyad.zero).divNat l.length

/-- One entry from the powers it gathers, by the mappings of R252: PEAK, MIN, MEAN, SAMPLE. -/
def mapEntry (map : Nat) (l : List Dyad) : Dyad :=
  match map with
  | 0 => l.foldl Dyad.max Dyad.zero
  | 1 => (match l with | [] => Dyad.zero | a :: t => t.foldl Dyad.min a)
  | 2 => meanOf l
  | _ => l.getD (l.length / 2) Dyad.zero

/-- Cut a list into runs of `d`. -/
def chunks (d : Nat) : Nat → List Dyad → List (List Dyad)
  | 0, _ => []
  | n + 1, l => l.take d :: chunks d n (l.drop d)

/-- The column powers of a spectrum (R252). -/
def columns (map d count : Nat) (powers : List Dyad) : List Dyad := (chunks d (count / d) powers).map (mapEntry map)

/-! ### Sparse tables -/

/-- Entry `i` of a sparse table, `d` where none is listed. -/
def sparseGet (d : Nat) : List (Nat × Nat) → Nat → Nat
  | [], _ => d
  | (a, v) :: t, i => if a == i then v else sparseGet d t i

/-- Set entry `i`; indices rise, and no listed entry equals `d`. -/
def sparseSet (d : Nat) : List (Nat × Nat) → Nat → Nat → List (Nat × Nat)
  | [], i, v => if v = d then [] else [(i, v)]
  | (a, x) :: t, i, v =>
    if i < a then (if v = d then (a, x) :: t else (i, v) :: (a, x) :: t)
    else if i = a then (if v = d then t else (i, v) :: t)
    else (a, x) :: sparseSet d t i v

/-- The canonical form of a sparse table. -/
def sparseWf (d : Nat) : List (Nat × Nat) → Bool
  | [] => true
  | [(_, v)] => v != d
  | (a, v) :: (b, w) :: t => v != d && decide (a < b) && sparseWf d ((b, w) :: t)

end Sys2Proof.Machine
end

