-- ==== Sys2Proof/Machine/Signal.lean ====
section
/-! DEFINITION. The sample path (R14-R16, R165-R187, R202-R231): from the voltage at a sampling point to the containers of the wideband stream
and of the tuners, with their tags. Tags are kept as ranges of indices, so that a tag of any sample and a count of tagged samples follow from
the same list. -/

namespace Sys2Proof.Machine

/-! ### Cosines -/

/-- Nearest integer to a rational, ties away from zero. -/
def roundRat (x : Rat) : Int := if 0 ≤ x then (x + 1 / 2).floor else -((-x + 1 / 2).floor)

/-- 2 pi to 50 places. -/
def twoPi : Rat := 628318530717958647692528676655900576839433879875021 / 100000000000000000000000000000000000000000000000000

/-- The cosine series from term `n` on: `sq` is the square of the angle and `t` the term before. -/
def cosSeries (sq : Rat) : Nat → Nat → Rat → Rat
  | 0, _, _ => 0
  | f + 1, n, t => let u := -(t * sq / ((2 * n - 1) * (2 * n) : Nat)); u + cosSeries sq f (n + 1) u

/-- The cosine of an angle in turns, to within 2^-100. Log entry 106 (DESIGN CHOICE, unsafe). -/
def cosTurn (x : Rat) : Rat :=
  let y := x - x.floor
  let z := if y ≤ 1 / 2 then y else 1 - y
  let a := z * twoPi
  1 + cosSeries (a * a) 32 1 1

/-- The sine of an angle in turns. -/
def sinTurn (x : Rat) : Rat := cosTurn (x - 1 / 4)

/-! ### The tile (R167, R182-R187) -/

/-- The voltage at the sampling point of channel `c` at index `k`, over one LSB, as the first row that brought it says; 0 V where none has.
Log entry 41 (DESIGN CHOICE, unsafe). -/
def voltAt (s : State) (c k : Nat) : Rat :=
  match s.conv.signal.find? fun v => v.channel == c && decide (v.first ≤ k) && decide (k < v.first + v.values.length) with
  | some v => v.values.getD (k - v.first) 0
  | none => 0

/-- A row brings input voltages. -/
def bringVolts (l : List Volts) (s : State) : State :=
  if l.isEmpty then s else { s with conv := { s.conv with signal := s.conv.signal ++ l } }

/-- SAMPLE of R167: floor(v/LSB + 0.5), limited. -/
def sampleCode (v : Rat) : Int := max (-2048) (min 2047 (v + 1 / 2).floor)

/-- OVR of R167. -/
def overScale (v : Rat) : Bool := decide (4095 / 2 ≤ v) || decide (v < -(4097 / 2))

def channelOf (s : State) (c : Nat) : Channel := s.conv.channels.getD c default

/-- The attenuator setting in force. -/
def Channel.atten (ch : Channel) : Nat := newest 0 ch.attens

/-- The other channel of a tile. -/
def neighbour (c : Nat) : Nat := if c % 2 == 0 then c + 1 else c - 1

/-- The indices at which a channel carries OVR (R182), rising. -/
def ovrList (s : State) (c : Nat) : List Nat :=
  sortNats ((s.conv.signal.filter fun v => v.channel == c).flatMap fun v =>
    ((List.range v.values.length).map fun i => v.first + i).filter fun k => overScale (voltAt s c k))

/-- Each index of a rising list with the next one. -/
def withNext : List Nat → List (Nat × Option Nat)
  | [] => []
  | [x] => [(x, none)]
  | x :: y :: t => (x, some y) :: withNext (y :: t)

/-- The INV ranges that OVR_GUARD gives (R184): up to N samples after each OVR sample, but not the next OVR sample. -/
def guardRanges (s : State) (c : Nat) : List (Nat × Nat) :=
  (withNext (ovrList s c)).map fun x =>
    let stop := x.1 + 1 + settingAt 0 (channelOf s c).guards x.1
    (x.1 + 1, match x.2 with | some y => min stop y | none => stop)

/-- The windows of R187 on a channel but for those of an over-range and of an SPLL unlock. A span without an end runs past the present index. -/
def windowRanges (s : State) (c : Nat) : List (Nat × Nat) :=
  ((channelOf s c).inv ++ (channelOf s c).tile).map (Span.range (2 ^ 65))

/-- The INV ranges of a gap (R127, R207): from U to `len` samples after V; and what lies before a join (R597). -/
def gapRanges (s : State) (len : Nat) : List (Nat × Nat) :=
  (0, s.hist.joined) :: s.hist.gaps.map fun g => (g.lo, match g.hi with | some v => v + len | none => 2 ^ 65)

/-- Every INV range of a channel at the tile (R171, R187). -/
def tileInv (s : State) (c : Nat) : List (Nat × Nat) := windowRanges s c ++ guardRanges s c ++ gapRanges s 1024

/-- The NBR ranges of a channel (R185, R186): 32 samples after each OVR sample of the other channel of its tile. -/
def tileNbr (s : State) (c : Nat) : List (Nat × Nat) :=
  if neighbour c < s.variant.channels then (ovrList s (neighbour c)).map fun j => (j + 1, j + 33) else []

/-! ### The counters of CONV_STATUS (R198) -/

/-- The OVR samples of [lo, hi). -/
def ovrIn (s : State) (c lo hi : Nat) : Nat := ((ovrList s c).filter fun j => decide (lo ≤ j) && decide (j < hi)).length

/-- The OVR events that begin in [lo, hi): an OVR sample with none in the 32 samples before it. -/
def ovrEventsIn (s : State) (c lo hi : Nat) : Nat :=
  let l := ovrList s c
  (l.filter fun j => decide (lo ≤ j) && decide (j < hi) && !(l.any fun i => decide (i < j) && decide (j ≤ i + 32))).length

/-- The NBR samples of [lo, hi). -/
def nbrIn (s : State) (c lo hi : Nat) : Nat := unionCount (clipRanges lo hi (tileNbr s c))

/-- The samples of [lo, hi) made INV by the causes of R187 other than SPLL unlock. -/
def invIn (s : State) (c lo hi : Nat) : Nat := unionCount (clipRanges lo hi (windowRanges s c ++ guardRanges s c))

/-- The four counts of a channel for the samples delivered before index `stop`. -/
def channelCounts (s : State) (c stop : Nat) : Nat × Nat × Nat × Nat :=
  let ch := channelOf s c
  (satAdd 32 ch.ovrSamples (ovrIn s c ch.countFrom stop), satAdd 32 ch.ovrEvents (ovrEventsIn s c ch.countFrom stop),
    satAdd 32 ch.nbrSamples (nbrIn s c ch.countFrom stop), satAdd 32 ch.invSamples (invIn s c ch.countFrom stop))

/-- Settle the counts of a channel at index `stop`; what is delivered from `next` on is counted from the samples. -/
def settleChannel (s : State) (stop next : Nat) (c : Nat) (ch : Channel) : Channel :=
  let n := channelCounts s c stop
  { ch with ovrSamples := n.1, ovrEvents := n.2.1, nbrSamples := n.2.2.1, invSamples := n.2.2.2, countFrom := next }

/-! ### The equaliser (R202-R210) -/

def eqBank (e : Equaliser) (b : Bool) : EqBank := if b then e.bankB else e.bankA

/-- What an equaliser computes with at index `k`. -/
def eraAt (e : Equaliser) (k : Nat) : EqEra :=
  (e.eras.find? fun x => decide (x.start ≤ k)).getD (e.eras.getLast?.getD default)

/-- G_eq of R206 for a bank, in 2^-32 sample. -/
def bankDelay (b : EqBank) : Nat := (b.bulk + b.delayInt) * 2 ^ 32 + b.delayFrac

/-- G_eq of R206 at a key index: that of the bank in force there. -/
def eqDelayAt (s : State) (c key : Nat) : Nat := bankDelay (eraAt (s.eqs.getD c default) key).bank

/-- TAP_LO of R205: the lowest tap that is not zero, 0 for an all-zero bank. -/
def tapLo (b : EqBank) : Nat := ((List.range 64).find? fun i => b.taps.getD i 0 != 0).getD 0

/-- TAP_HI of R205. -/
def tapHi (b : EqBank) : Nat := ((List.range 64).reverse.find? fun i => b.taps.getD i 0 != 0).getD 0

/-- The exact sum of R202 for output k, in units of 2^-14, from the tile's sample values with 0 for an invalid one. -/
def eqSum (b : EqBank) (x : Nat → Int) (k : Nat) : Int :=
  ((b.taps.zipIdx.filter fun t => t.1 != 0 && decide (b.bulk + t.2 ≤ k)).map fun t => t.1 * x (k - b.bulk - t.2)).sum

/-- An output before and after limiting (R202): the nearest integer to v/den, ties away from zero. -/
def eqRound (den : Nat) (v : Int) : Int := max (-2048) (min 2047 (roundDiv v den))

/-- alpha(k) of R209 in units of 2^-16, for a fade that starts at `e` and lasts `f` samples. -/
def fadeAlpha (e f k : Nat) : Nat := (k - e + 1) * 65536 / f

/-- The exact output of a cross-fade (R209) in units of 2^-30, from the exact sums of the two banks. -/
def fadeSum (e f k : Nat) (src tgt : Int) : Int := src * 65536 + fadeAlpha e f k * (tgt - src)

/-- The value that the equaliser rounds and limits at index `k`, in units of 2^-30 LSB (R202, R209). -/
def eqExact (a : EqEra) (x : Nat → Int) (k : Nat) : Int :=
  if a.fade && decide (k < a.start + a.len) then fadeSum a.start a.len k (eqSum a.prev x k) (eqSum a.bank x k)
  else eqSum a.bank x k * 65536

/-- Each era of an equaliser with the index at which the next begins. -/
def eraSpans (stop : Nat) : List EqEra → List (EqEra × Nat)
  | [] => []
  | a :: t => (a, stop) :: eraSpans a.start t

/-- Ranges of inputs as the outputs that depend on them through a bank (R205), inside [lo, hi). -/
def throughBank (b : EqBank) (lo hi : Nat) (l : List (Nat × Nat)) : List (Nat × Nat) :=
  clipRanges lo hi (l.map fun x => (x.1 + b.bulk + tapLo b, x.2 + b.bulk + tapHi b))

/-- Ranges of inputs delayed by BULK + DELAY_INT of a bank (R205), inside [lo, hi). -/
def delayedBy (b : EqBank) (lo hi : Nat) (l : List (Nat × Nat)) : List (Nat × Nat) :=
  clipRanges lo hi (l.map fun x => (x.1 + b.bulk + b.delayInt, x.2 + b.bulk + b.delayInt))

/-- The tags of a stream of samples, as ranges of indices. -/
structure Tags where
  inv : List (Nat × Nat)
  ovr : List (Nat × Nat)
  nbr : List (Nat × Nat)
  fade : List (Nat × Nat)

/-- The tags of the wideband stream of a channel (R205, R207, R209, R210): INV of every input that the taps in force reach, of a hard swap and of
a gap; OVR and NBR delayed with the signal; FADE over a cross-fade. -/
def wideTags (s : State) (c : Nat) : Tags :=
  let inv := tileInv s c
  let ovr := (ovrList s c).map fun j => (j, j + 1)
  let nbr := tileNbr s c
  let eras := eraSpans (2 ^ 66) (s.eqs.getD c default).eras
  { inv := gapRanges s 2048 ++ eras.flatMap fun a =>
      throughBank a.1.bank a.1.start a.2 inv
        ++ (if a.1.fade then throughBank a.1.prev a.1.start (min a.2 (a.1.start + a.1.len)) inv
            else clipRanges a.1.start a.2 [(a.1.start, a.1.start + a.1.len)]),
    ovr := eras.flatMap fun a => delayedBy a.1.bank a.1.start a.2 ovr,
    nbr := eras.flatMap fun a => delayedBy a.1.bank a.1.start a.2 nbr,
    fade := eras.flatMap fun a => if a.1.fade then clipRanges a.1.start a.2 [(a.1.start, a.1.start + a.1.len)] else [] }

/-- The tile's SAMPLE as the equaliser takes it: an invalid input contributes 0 (R15, R202). -/
def tileValue (s : State) (c : Nat) (inv : List (Nat × Nat)) (k : Nat) : Int := if inRanges inv k then 0 else sampleCode (voltAt s c k)

/-- The exact equaliser output at index `k`, in units of 2^-30 LSB. -/
def wideExact (s : State) (c : Nat) (inv : List (Nat × Nat)) (k : Nat) : Int :=
  eqExact (eraAt (s.eqs.getD c default) k) (tileValue s c inv) k

/-- The value of the wideband stream at index `k`: 0 where it is INV (R205). -/
def wideValue (s : State) (c : Nat) (t : Tags) (k : Nat) : Int :=
  if inRanges t.inv k then 0 else eqRound (2 ^ 30) (wideExact s c (tileInv s c) k)

/-- The container of the wideband stream at index `k` (R14, R205). -/
def wideWord (s : State) (c : Nat) (t : Tags) (k : Nat) : Word :=
  BitVec.ofNat 32 (unsign 12 (wideValue s c t k) * 16 + (if inRanges t.ovr k then 8 else 0) + (if inRanges t.inv k then 4 else 0)
    + (if inRanges t.nbr k then 2 else 0) + (if inRanges t.fade k then 1 else 0))

/-- The indices at which an input that is not 0 V can reach the equaliser's output, below `stop`. -/
def litIndices (s : State) (c lo stop : Nat) : List Nat :=
  sortNats ((s.conv.signal.filter fun v => v.channel == c).flatMap fun v =>
    ((List.range (v.values.length + 1023)).map fun i => v.first + i).filter fun k => decide (lo ≤ k) && decide (k < stop))

/-- CLIP_SAMPLES (R204, R236) for the outputs below `stop`. -/
def eqClips (s : State) (c stop : Nat) : Nat :=
  let e := s.eqs.getD c default
  let t := wideTags s c
  let clipped := (litIndices s c e.clipFrom stop).filter fun k =>
    let x := wideExact s c (tileInv s c) k
    !inRanges t.inv k && roundDiv x (2 ^ 30) != eqRound (2 ^ 30) x
  satAdd 32 e.clipCount clipped.length

/-! ### The tuner (R215-R231) -/

/-- H of R215, from K with 32 fractional bits; 0 in snap mode (R237). -/
def tunerH (snap : Bool) (decim : Nat) : Nat := if snap then 0 else min 20 (Nat.log2 (decim / 2 ^ 34))

/-- G_t of R227 in 2^-32 sample. -/
def tunerDelay (snap : Bool) (decim d : Nat) : Nat :=
  if snap then (decim - 2 ^ 32) / 2 else (14 * 2 ^ tunerH snap decim - 7) * 2 ^ 32 + 12 * decim + d

/-- The key index of output m in 2^-32 sample (R226). -/
def TunerGrid.tau (g : TunerGrid) (m : Nat) : Nat :=
  if g.snap then g.start * 2 ^ 32 + (m + 1) * g.decim - 2 ^ 32 else g.start * 2 ^ 32 + m * g.decim

/-- The grid of the settings in force. -/
def Tuner.grid (t : Tuner) : TunerGrid :=
  { start := t.anchor.getD 0, stop := none, snap := t.snap, decim := t.decim, delayAdj := t.delayAdj }

/-- The grid that produced the outputs at index `k`. -/
def Tuner.gridAt (t : Tuner) (k : Nat) : TunerGrid := (t.grids.find? fun g => decide (g.start ≤ k)).getD t.grid

/-- The grid of the settings in force starts at index `e`, and the one before it ends there (R226). -/
def openGrid (e : Nat) (t : Tuner) : Tuner :=
  let u := { t with anchor := some e }
  { u with grids := u.grid :: u.grids.map fun g => { g with stop := some (g.stop.getD e) } }

/-- The grid of a tuner ends at index `e`. -/
def closeGrid (e : Nat) (t : Tuner) : Tuner := { t with grids := t.grids.map fun g => { g with stop := some (g.stop.getD e) } }

def tunerTau (t : Tuner) (m : Nat) : Nat := t.grid.tau m

/-- The first output of a grid at or after index `e` (R254). -/
def TunerGrid.first (g : TunerGrid) (e : Nat) : Nat :=
  let a := g.start * 2 ^ 32 + (if g.snap then g.decim - 2 ^ 32 else 0)
  ceilDiv (e * 2 ^ 32 - a) (max 1 g.decim)

def tunerFirst (t : Tuner) (e : Nat) : Nat := t.grid.first e

/-- The window of output m (R229), as a range of input indices. -/
def TunerGrid.window (g : TunerGrid) (m : Nat) : Nat × Nat :=
  if g.snap then ((g.tau m - g.decim) / 2 ^ 32 + 1, g.tau m / 2 ^ 32 + 1)
  else ((g.tau m + 2 ^ 32 - g.delayAdj - 32 * g.decim) / 2 ^ 32, (g.tau m + 2 ^ 32 - g.delayAdj) / 2 ^ 32)

/-- The outputs of a grid with positions in [a, b), in 2^-32 sample, as a range of output numbers. -/
def TunerGrid.outputs (g : TunerGrid) (a b : Nat) : Nat × Nat :=
  let z := g.tau 0
  (ceilDiv (a - z) (max 1 g.decim), ceilDiv (b - z) (max 1 g.decim))

/-- The outputs whose window meets a range of inputs (R229). -/
def TunerGrid.reach (g : TunerGrid) (x : Nat × Nat) : Nat × Nat :=
  if g.snap then g.outputs (x.1 * 2 ^ 32) ((x.2 - 1) * 2 ^ 32 + g.decim)
  else g.outputs (x.1 * 2 ^ 32 + g.delayAdj) ((x.2 - 1) * 2 ^ 32 + g.delayAdj + 32 * g.decim)

/-- The tags of a tuner's outputs on one grid, as ranges of output numbers (R229-R231): INV of the first outputs of the grid, around a retune,
and of every output that an INV input reaches. -/
def tunerTags (s : State) (t : Nat) (g : TunerGrid) : Tags :=
  let w := wideTags s (t / 2)
  let u := s.tuners.getD t default
  let lead := if g.snap then (0, 1) else (0, (g.outputs 0 (g.start * 2 ^ 32 + g.delayAdj + 32 * g.decim)).2)
  let tune := (u.retunes.filter fun e => decide (g.start ≤ e)).map fun e =>
    if g.snap then g.reach (e, e + 1) else g.outputs (e * 2 ^ 32 + g.delayAdj) (e * 2 ^ 32 + g.delayAdj + 32 * g.decim)
  { inv := lead :: (tune ++ w.inv.map g.reach), ovr := w.ovr.map g.reach, nbr := w.nbr.map g.reach, fade := w.fade.map g.reach }

/-- ACC(k) of R220 from the settings in force at index `k`. -/
def accAt (u : Tuner) (k : Nat) : Nat :=
  match u.ncos.find? fun x => decide (x.1 ≤ k) with
  | some x => (x.2.2 + x.2.1 * (k - x.1)) % 2 ^ 48
  | none => 0

/-- The mixer product of R219 at index `k`: its real and imaginary parts. -/
def mixed (s : State) (t : Nat) (w : Tags) (k : Nat) : Rat × Rat :=
  let a : Rat := (accAt (s.tuners.getD t default) k : Rat) / (2 ^ 48 : Nat)
  let x : Rat := wideValue s (t / 2) w k
  (x * cosTurn a, -(x * sinTurn a))

/-- The sum of pairs. -/
def sumPairs (l : List (Rat × Rat)) : Rat × Rat := ((l.map fun x => x.1).sum, (l.map fun x => x.2).sum)

/-- What leaves decimator `stage` of the normal chain at input position `p` (R217): stage 0 reads the mixer at fs, and stage k reads stage
k - 1 at fs/2^k. Log entry 105 (DESIGN CHOICE, safe). -/
def chainStage (x : Nat → Rat × Rat) : Nat → Nat → Rat × Rat
  | 0, p =>
    let y := sumPairs ((List.range 15).map fun i => let v := x (p - i); (Config.decimatorTap 0 i * v.1, Config.decimatorTap 0 i * v.2))
    (Config.stageWord 0 y.1, Config.stageWord 0 y.2)
  | n + 1, p =>
    let y := sumPairs ((List.range 15).map fun i =>
      let v := chainStage x n (p - i * 2 ^ (n + 1))
      (Config.decimatorTap (n + 1) i * v.1, Config.decimatorTap (n + 1) i * v.2))
    (Config.stageWord (n + 1) y.1, Config.stageWord (n + 1) y.2)

/-- The resampler prototype at `u` output periods, with 0 ≤ u < 24 (R217): the point is selected to 2^-26 of a period, and a 16-bit weight
interpolates between points. -/
def prototypeAt (u : Rat) : Rat :=
  let q := (u * (2 ^ 26 : Nat)).floor.toNat
  let w : Rat := ((q % 65536 : Nat) : Rat) / 65536
  Config.prototypePoint (q / 65536) + w * (Config.prototypePoint (q / 65536 + 1) - Config.prototypePoint (q / 65536))

/-- The output of the normal chain at output m (R217, R225): the resampler spans 24 output periods of its input, delayed by d.
Log entry 105 (DESIGN CHOICE, safe). -/
def chainOutput (g : TunerGrid) (x : Nat → Rat × Rat) (m : Nat) : Rat × Rat :=
  let step := 2 ^ (tunerH false g.decim + 1)
  let top := g.tau m - g.delayAdj
  let n0 := (top - g.start * 2 ^ 32) / (step * 2 ^ 32)
  sumPairs ((List.range (24 * g.decim / (step * 2 ^ 32) + 1)).map fun i =>
    let p := g.start + (n0 - i) * step
    let u : Rat := ((top - p * 2 ^ 32 : Nat) : Rat) / (g.decim : Rat)
    let v := chainStage x (tunerH false g.decim) p
    if i ≤ n0 && decide (u < 24) then (prototypeAt u * v.1, prototypeAt u * v.2) else (0, 0))

/-- The chain output z of output m in converter LSB (R224, R228): the mean of the mixed samples of the window in snap mode. -/
def tunerExact (s : State) (t : Nat) (w : Tags) (g : TunerGrid) (m : Nat) : Rat × Rat :=
  if g.snap then
    let r := g.window m
    let z := sumPairs ((List.range (r.2 - r.1)).map fun i => mixed s t w (r.1 + i))
    (z.1 / (r.2 - r.1 : Nat), z.2 / (r.2 - r.1 : Nat))
  else chainOutput g (mixed s t w) m

/-- One component of a tuner output (R224), before limiting. -/
def tunerScaled (gain : Nat) (z : Rat) : Int := roundRat (z * (2 ^ (2 + gain) : Nat))

/-- The limits of R224. -/
def tunerLimit (v : Int) : Int := max (-8192) (min 8191 v)

/-- GAIN_SHIFT of output m (R230). -/
def gainOf (u : Tuner) (g : TunerGrid) (m : Nat) : Nat := settingAt 0 u.gains (g.tau m / 2 ^ 32)

/-- I and Q of output m (R223, R224): 0 where it is INV. -/
def tunerValue (s : State) (t : Nat) (w tags : Tags) (g : TunerGrid) (m : Nat) : Int × Int :=
  if inRanges tags.inv m then (0, 0)
  else
    let z := tunerExact s t w g m
    let n := gainOf (s.tuners.getD t default) g m
    (tunerLimit (tunerScaled n z.1), tunerLimit (tunerScaled n z.2))

/-- The container of output m (R223). -/
def tunerWord (s : State) (t : Nat) (w tags : Tags) (g : TunerGrid) (m : Nat) : Word :=
  let v := tunerValue s t w tags g m
  BitVec.ofNat 32 (unsign 14 v.2 * 2 ^ 18 + (if inRanges tags.nbr m then 2 ^ 17 else 0) + (if inRanges tags.fade m then 2 ^ 16 else 0)
    + unsign 14 v.1 * 4 + (if inRanges tags.ovr m then 2 else 0) + (if inRanges tags.inv m then 1 else 0))

/-- The outputs of a grid that are counted: below `stop`, and at `lo` or later. -/
def TunerGrid.counted (g : TunerGrid) (lo stop : Nat) : Nat × Nat := g.outputs (lo * 2 ^ 32) (min stop (g.stop.getD stop) * 2 ^ 32)

/-- INV_OUTPUTS, CLIP_OUTPUTS and OVR_OUTPUTS (R240) for the outputs below index `stop`. -/
def tunerCounts (s : State) (t stop : Nat) : Nat × Nat × Nat :=
  let u := s.tuners.getD t default
  let w := wideTags s (t / 2)
  let one (g : TunerGrid) : Nat × Nat × Nat :=
    let r := g.counted u.countFrom stop
    let tags := tunerTags s t g
    let lit := sortNats ((litIndices s (t / 2) 0 stop).flatMap fun k =>
      let x := g.reach (k, k + 1)
      ((List.range (x.2 - x.1)).map fun i => x.1 + i).filter fun m => decide (r.1 ≤ m) && decide (m < r.2))
    let clipped := lit.filter fun m =>
      let z := tunerExact s t w g m
      let n := gainOf u g m
      !inRanges tags.inv m && (tunerScaled n z.1 != tunerLimit (tunerScaled n z.1) || tunerScaled n z.2 != tunerLimit (tunerScaled n z.2))
    (unionCount (clipRanges r.1 r.2 tags.inv), clipped.length, unionCount (clipRanges r.1 r.2 tags.ovr))
  u.grids.foldl (fun a g => let n := one g; (satAdd 32 a.1 n.1, satAdd 32 a.2.1 n.2.1, satAdd 32 a.2.2 n.2.2))
    (u.invCount, u.clipCount, u.ovrCount)

/-- Settle the counts of a tuner at index `stop`. -/
def settleTuner (s : State) (stop next t : Nat) (u : Tuner) : Tuner :=
  let n := tunerCounts s t stop
  { u with invCount := n.1, clipCount := n.2.1, ovrCount := n.2.2, countFrom := next }

/-! ### Elements (R336, R393): kind 0 is a channel, kind 1 a tuner -/

/-- The containers of `count` elements from element `first` on; a tuner's are those of the grid in force at index `start`. -/
def elementWords (s : State) (kind unit start first count : Nat) : List Word :=
  if kind = 0 then
    let t := wideTags s unit
    (List.range count).map fun i => wideWord s unit t (first + i)
  else
    let g := (s.tuners.getD unit default).gridAt start
    let w := wideTags s (unit / 2)
    let tags := tunerTags s unit g
    (List.range count).map fun i => tunerWord s unit w tags g (first + i)

end Sys2Proof.Machine
end

