-- ==== Sys2Proof/Machine/Conv.lean ====
section
/-! DEFINITION. The RF converter tiles (R165-R201): attenuators, injection switches, over-range and the slice monitor. The
rotation boundary SLICE_SWAP is in Calib.lean, beside the slice corrections. -/

namespace Sys2Proof.Machine

/-- Change channel `c`. -/
def setChannel (c : Nat) (f : Channel → Channel) (s : State) : State :=
  { s with conv := { s.conv with channels := modAt s.conv.channels c f } }

/-- The samples of [lo, hi) of a channel are INV (R187). -/
def addInv (lo hi : Nat) (ch : Channel) : Channel := { ch with inv := { lo := lo, hi := some hi } :: ch.inv }

/-- Every sample from index `e` on is INV, with no end (R181). -/
def loseChannel (e : Nat) (ch : Channel) : Channel := { ch with inv := { lo := e, hi := none } :: ch.inv }

/-- Every sample from index `e` on is INV while the tile link does not deliver (R630). -/
def openTile (e : Nat) (ch : Channel) : Channel :=
  if ch.tile.any fun x => x.hi.isNone then ch else { ch with tile := { lo := e, hi := none } :: ch.tile }

/-- The tile link delivers again from index `e` on (R630). -/
def closeTile (e : Nat) (ch : Channel) : Channel := { ch with tile := ch.tile.map fun x => { x with hi := some (x.hi.getD e) } }

/-- The counts of every channel are settled where samples stop: those delivered lie below `stop`, and the next is `next`. -/
def settleConv (stop next : Nat) (s : State) : State :=
  { s with conv := { s.conv with channels := s.conv.channels.zipIdx.map fun x => settleChannel s stop next x.2 x.1 } }

/-- The first index of the next SC (R10). -/
def nextSc (k : Nat) : Nat := (k / 32 + 1) * 32

/-! ### Slices (R176, R177) -/

/-- The rotation's spare slice at step j (R177). -/
def spareAt (j : Nat) : Nat := if j % 64 ≤ 32 then 32 - j % 64 else j % 64 - 32

/-- The slice of a channel that serves no position (R176, R177, R180). -/
def idleSlice (s : State) (ch : Channel) : Nat :=
  match ch.retired with
  | some r => r
  | none => spareAt s.conv.step

/-- The slice that serves position p of an SC while slice `spare` is idle (R176). -/
def sliceAtPosition (spare p : Nat) : Nat := if p < spare then p else p + 1

/-- The position that slice i serves while slice `spare` is idle (R176). -/
def positionOf (spare i : Nat) : Nat := if i < spare then i else i - 1

/-- The slice that serves position p of a channel (R176, R180): after a retirement the assignment stays, with the spare of that moment in the place
of a retired active slice. -/
def servingSlice (s : State) (ch : Channel) (p : Nat) : Nat :=
  match ch.retired, ch.frozenSpare with
  | some r, some f => if sliceAtPosition f p = r then f else sliceAtPosition f p
  | _, _ => sliceAtPosition (spareAt s.conv.step) p

/-- The spare slice that CONV_STATUS reports for a channel (R198). -/
def spareOf (s : State) (ch : Channel) : Nat := if ch.noSpareSince.isSome then 63 else idleSlice s ch

/-! ### Commands -/

/-- CONV_CONFIG (R194): in force from the first SC boundary after completion. -/
def specConvConfig : CmdSpec :=
  { opcode := 0x0300, plen := plenIs 1, modes := notShadow, addr := fun c => [unitNo 3 (c.arg 0 1 0)],
    units := fun s c => decide (c.arg 0 1 0 < s.variant.channels),
    run := fun c _ s =>
      let e := nextSc s.index
      (setChannel (c.arg 0 1 0) (fun ch => { ch with
        guards := putSetting e (c.arg 0 14 8) ch.guards, notices := putSetting e (c.flag 0 16) ch.notices }) s, .done .ok []) }

/-- Set one channel's attenuator at index `e` (R169, R195): a channel that already holds the setting is left alone. -/
def attenAt (e v : Nat) (ch : Channel) : Channel :=
  if ch.atten == v then ch else addInv e (e + 64) { ch with attens := putSetting e v ch.attens }

/-- CONV_ATTEN (R170, R195). -/
def specConvAtten : CmdSpec :=
  { opcode := 0x0301, plen := plenIs 2, timed := fun _ => .sampleDomain, modes := notShadow,
    addr := fun c => (maskBits 4 (c.arg 0 3 0)).map (unitNo 3),
    params := fun _ c => c.arg 0 3 0 != 0 && at32 c,
    units := fun s c => s.variant.hasChannels (c.arg 0 3 0),
    lead := fun _ => some 1000,
    run := fun c e s =>
      ((maskBits 4 (c.arg 0 3 0)).foldl (fun a i => setChannel i (attenAt e (c.arg 1 (4 * i + 3) (4 * i))) a) s, .done .ok []) }

/-- Set one channel's injection switch at index `e` (R174, R196). -/
def switchAt (e : Nat) (cal : Bool) (ch : Channel) : Channel :=
  if ch.cal == cal then ch else addInv e (e + 128) { ch with cal := cal }

/-- CONV_INPUT (R174, R175, R196): CAL only in CALIBRATE. -/
def specConvInput : CmdSpec :=
  { opcode := 0x0302, plen := plenIs 1, timed := fun _ => .sampleDomain,
    modes := fun m c => if c.flag 0 8 then m == .calibrate else m != .shadow,
    addr := fun c => (maskBits 4 (c.arg 0 3 0)).map (unitNo 3),
    params := fun _ c => c.arg 0 3 0 != 0 && at32 c,
    units := fun s c => s.variant.hasChannels (c.arg 0 3 0),
    lead := fun _ => some 1000,
    run := fun c e s =>
      ((maskBits 4 (c.arg 0 3 0)).foldl (fun a i => setChannel i (switchAt e (c.flag 0 8)) a) s, .done .ok []) }

/-- CONV_ROTATION (R197): no swap before the first boundary of R177 after completion. -/
def specConvRotation : CmdSpec :=
  { opcode := 0x0303, plen := plenIs 1, modes := notShadow, addr := fun _ => [unitNo 3 255],
    params := fun _ c => decide (16 ≤ c.arg 0 4 0) && decide (c.arg 0 4 0 ≤ 24),
    run := fun c _ s =>
      ({ s with conv := { s.conv with dwellLog2 := c.arg 0 4 0, hold := c.flag 0 8 },
                maint := { s.maint with sliceFrom := max s.maint.sliceFrom (s.index + 1) } }, .done .ok []) }

/-- The six words of CONV_STATUS (R198). -/
def convStatusWords (s : State) (c : Nat) : List Word :=
  let ch := channelOf s c
  let n := channelCounts s c (s.index + 1)
  [ BitVec.ofNat 32 (ch.atten + (if ch.cal then 16 else 0) + spareOf s ch * 256 + (if s.conv.hold then 2 ^ 14 else 0)
      + (if ch.retired.isSome then 2 ^ 15 else 0) + ch.retired.getD 63 * 2 ^ 16 + s.conv.dwellLog2 * 2 ^ 22),
    lo32 s.conv.step, BitVec.ofNat 32 n.1, BitVec.ofNat 32 n.2.1, BitVec.ofNat 32 n.2.2.1, BitVec.ofNat 32 n.2.2.2 ]

/-- The counters of a channel are zero from index `k` on (R198). -/
def clearChannel (k : Nat) (ch : Channel) : Channel :=
  { ch with ovrSamples := 0, ovrEvents := 0, nbrSamples := 0, invSamples := 0, countFrom := k }

/-- CONV_STATUS (R198): CLEAR zeroes the channel's counters after they are read. -/
def specConvStatus : CmdSpec :=
  { opcode := 0x0304, plen := plenIs 1, addr := fun c => [unitNo 3 (c.arg 0 1 0)],
    units := fun s c => decide (c.arg 0 1 0 < s.variant.channels),
    run := fun c _ s =>
      let i := c.arg 0 1 0
      (if c.flag 0 8 then setChannel i (clearChannel (s.index + 1)) s else s, .done .ok (convStatusWords s i)) }

/-- A factory attenuation in a halfword (R199): relative to setting 0, so 0 for setting 0. -/
def attenHalf (ch setting ghz : Nat) : Nat := if setting = 0 then 0 else Config.factoryAttenuation ch setting ghz % 65536

/-- CONV_ATTEN_INFO (R199). -/
def specConvAttenInfo : CmdSpec :=
  { opcode := 0x0305, plen := plenIs 1, addr := fun c => [unitNo 3 (c.arg 0 1 0)],
    units := fun s c => decide (c.arg 0 1 0 < s.variant.channels),
    run := fun c _ s =>
      let ch := c.arg 0 1 0
      let v := c.arg 0 11 8
      let pair : Nat → Word := fun g => BitVec.ofNat 32 (attenHalf ch v g + attenHalf ch v (g + 1) * 65536)
      (s, .done .ok [BitVec.ofNat 32 (Config.factoryDelay ch v), pair 1, pair 3, pair 5, pair 7,
                     BitVec.ofNat 32 (Config.calDelay ch)]) }

/-! ### Over-range (R182-R186, R201) -/

/-- The OVR samples of a channel after the one that the last CONV_OVR reported, up to index `j` (R200). -/
def ovrSince (s : State) (c j : Nat) : Nat :=
  let ch := channelOf s c
  satAdd 32 ch.ovrCarried (ovrIn s c ((ch.lastOvrNotice.map fun l => l + 1).getD 0) (j + 1))

/-- CONV_OVR for an OVR sample at least 1 ms after the previous notice (R200, R201). -/
def ovrNotice (c j : Nat) (s : State) : State :=
  let ch := channelOf s c
  let due := match ch.lastOvrNotice with
    | some l => msApart s 1 j l
    | none => true
  if settingAt false ch.notices j && due then
    notify 0x0301 [BitVec.ofNat 32 c, BitVec.ofNat 32 (ovrSince s c j)] j
      (setChannel c (fun ch => { ch with ovrCarried := 0, lastOvrNotice := some j }) s)
  else s

/-- OVER_RANGE (R167, R182-R186, R198, R201): the converter samples these voltages from index `first` on; those beyond full scale saturate, carry
OVR and tag the neighbour, which follows from the signal itself, and may raise the notice. -/
def evOverRange (c first : Nat) (values : List Rat) (s : State) : State :=
  if s.variant.channels ≤ c || !delivering s then s
  else
    let s1 := bringVolts [{ channel := c, first := first, values := values }] s
    ((ovrList s1 c).filter fun j => decide (first ≤ j) && decide (j < first + values.length)).foldl
      (fun a j => ovrNotice c j (atTime j a)) s1

/-! ### The active-slice monitor (R180, R181) -/

/-- Windows of 2^16 SC (R180). -/
def monitorWindow : Nat := 2 ^ 21

/-- The window that ends before index `e` was delivered whole (R180). -/
def windowWhole (s : State) (e : Nat) : Bool :=
  e % monitorWindow == 0 && decide (s.hist.first + monitorWindow ≤ e) && !meetsRanges (gapRanges s 0) (e - monitorWindow) e

/-- The positions that fail the test of R180: more than 3 dB from the mean square of all active slices where the channel lies above -40 dBFS, or
with a mean more than 64 LSB from the channel's. Each sum is over 2^16 samples. -/
def failedPositions (sums : List (Int × Nat)) : List Nat :=
  let sq := (sums.map fun x => x.2).sum
  let tot := (sums.map fun x => x.1).sum
  let power := decide (sq * 10000 > 2 ^ 21 * (32 * 65536))
  (List.range 32).filter fun p =>
    let x := sums.getD p (0, 0)
    (power && (decide ((32 * x.2) ^ 10 > 1000 * sq ^ 10) || decide (sq ^ 10 > 1000 * (32 * x.2) ^ 10)))
      || decide ((32 * x.1 - tot).natAbs > 64 * 32 * 65536)

/-- A failed active slice of a channel, found at the window end `e` (R180, R181): the spare takes its position in the SC at
`e`, or, with no spare left, every sample from there on is INV and NO_SPARE is a fault. -/
def sliceFailed (e c slice : Nat) (s : State) : State :=
  let ch := channelOf s c
  if s.variant.channels ≤ c || ch.noSpareSince.isSome || slice == idleSlice s ch then s
  else
    let word0 := BitVec.ofNat 32 (c + slice * 256)
    match ch.retired with
    | some _ =>
      let s1 := setChannel c (fun ch => loseChannel e { ch with noSpareSince := some e }) s
      setFault 2 (notify 0x0302 [word0, 2#32] e (bbWrite 0x03 c 0x0302 [word0, 2#32] e s1))
    | none =>
      let s1 := setChannel c (fun ch => addInv e (e + 32) { ch with retired := some slice, frozenSpare := some (spareAt s.conv.step) }) s
      notify 0x0302 [word0, 1#32] e (bbWrite 0x03 c 0x0302 [word0, 1#32] e s1)

/-- The monitor's test of one channel (R180). -/
def testChannel (e : Nat) (x : SliceSums) (s : State) : State :=
  ((failedPositions x.sums).map (servingSlice s (channelOf s x.channel))).foldl (fun a i => sliceFailed e x.channel i a) s

/-- SLICE_MONITOR_WINDOW (R180): the test at the end of a window, made where every index of it was delivered. -/
def evSliceMonitorWindow (sums : List SliceSums) (s : State) : State :=
  if delivering s && windowWhole s s.index then sums.foldl (fun a x => testChannel s.index x a) s else s

end Sys2Proof.Machine
end

