-- ==== Sys2Proof/Machine/Grids.lean ====
section
/-! DEFINITION. The sample-index grids that units share (R206, R215-R227, R254-R259, R273, R283, R285-R289): tuner grids,
engine frame grids, density frames and spectrogram lines, and what follows along the chain when one of them changes. -/

namespace Sys2Proof.Machine

/-- The mode runs tuners, engines, density, capture, trigger and Thresher (R38). -/
def modeRunsProducts (m : Mode) : Bool := m != .quiet

/-- The mode runs the integration unit (R38). -/
def modeRunsIntegration (m : Mode) : Bool := m != .quiet && m != .record

def setTuner (t : Nat) (f : Tuner → Tuner) (s : State) : State := { s with tuners := modAt s.tuners t f }

def tunerRunning (s : State) (t : Nat) : Bool := (s.tuners.getD t default).enabled && modeRunsProducts (runMode s)

/-! ### Elements of sample sources (R336, R393): kind 0 is a channel, kind 1 a tuner -/

/-- The output grid on which a source's elements at index `k` lie; a channel has none. -/
def sourceGrid (s : State) (kind unit k : Nat) : Option TunerGrid :=
  if kind = 1 then some ((s.tuners.getD unit default).gridAt k) else none

/-- The grid of a source's settings in force. -/
def liveGrid (s : State) (kind unit : Nat) : Option TunerGrid := if kind = 1 then some (s.tuners.getD unit default).grid else none

/-- The index (integer part) of element `n` on a grid (R336). -/
def indexOn (g : Option TunerGrid) (n : Nat) : Nat :=
  match g with
  | some g => g.tau n / 2 ^ 32
  | none => n

/-- The first element on a grid at or after index `i`. -/
def elementOn (g : Option TunerGrid) (i : Nat) : Nat :=
  match g with
  | some g => g.first i
  | none => i

/-- The stamp of element `n` on a grid (R347). -/
def stampOn (s : State) (unit : Nat) (g : Option TunerGrid) (n : Nat) : Nat :=
  match g with
  | some g => stampOf s (unit / 2) (g.tau n) (eqDelayAt s (unit / 2) (g.tau n / 2 ^ 32) + tunerDelay g.snap g.decim g.delayAdj)
  | none => stampOf s unit (n * 2 ^ 32 : Nat) (eqDelayAt s unit n)

/-- The same on the grid in force. -/
def elementIndex (s : State) (kind unit n : Nat) : Nat := indexOn (liveGrid s kind unit) n
def elementAt (s : State) (kind unit i : Nat) : Nat := elementOn (liveGrid s kind unit) i
def elementStamp (s : State) (kind unit n : Nat) : Nat := stampOn s unit (liveGrid s kind unit) n

/-! ### Stream contexts: items offered, and the ends and starts of sample streams (R393, R394, R398) -/

def setCtx (n : Nat) (f : StreamCtx → StreamCtx) (s : State) : State := { s with strm := { s.strm with ctxs := modAt s.strm.ctxs n f } }

def ctxOf (s : State) (n : Nat) : StreamCtx := s.strm.ctxs.getD n default

/-- Offer an item to every context that carries its product (R391, R393). -/
def offerItem (pkind unit seq index : Nat) (source : ItemSource) (s : State) : State :=
  if !modeRunsProducts (runMode s) then s
  else
    let take : StreamCtx → StreamCtx := fun c =>
      if c.cfg.pkind == pkind && c.cfg.unit == unit && (c.started || c.stopIndex.isSome) && decide (c.startIndex ≤ index)
          && (match c.stopIndex with | some e => decide (index < e) | none => true) then
        { c with items := c.items ++ [{ seq := seq, index := index, source := source }] }
      else c
    { s with strm := { s.strm with ctxs := s.strm.ctxs.map take } }

/-- P of R394. -/
def StreamConfig.p (c : StreamConfig) : Nat := max 1 (c.blocks * 2 ^ c.vblockLog2)

/-- What is added to an element number before it is divided into packets: 0 under KDP, and under VDIF the element number q of
output 0 of a tuner (R404). -/
def packetShift (s : State) (c : StreamConfig) : Nat :=
  if c.vdif && c.pkind == 1 then
    let t := s.tuners.getD c.unit default
    tunerTau t 0 / max 1 t.decim
  else 0

/-- The piece of `count` elements from element `n` (R394, R401, R404). -/
def pieceAt (s : State) (c : StreamConfig) (n count : Nat) (fresh last : Bool) : StreamPiece :=
  { first := n, count := count, index := elementIndex s c.pkind c.unit n, stamp := elementStamp s c.pkind c.unit n, gen := s.time.gen,
    q := n + packetShift s c, fresh := fresh, last := last, settled := none }

/-- Elements from `n` to the next packet boundary. -/
def toBoundary (s : State) (c : StreamConfig) (n : Nat) : Nat := c.p - (n + packetShift s c) % c.p

/-- Cut elements [n, stop) at packet boundaries; the last piece carries LAST. -/
def cutPieces (s : State) (c : StreamConfig) (stop : Nat) : Nat → Nat → Bool → List StreamPiece
  | 0, _, _ => []
  | f + 1, n, fresh =>
    if stop ≤ n then []
    else
      let m := min (toBoundary s c n) (stop - n)
      pieceAt s c n m fresh (decide (n + m = stop)) :: cutPieces s c stop f (n + m) false

/-- The number of the grid cell that holds element `n` (R594). -/
def cellOf (s : State) (c : StreamConfig) (n : Nat) : Nat := (n + packetShift s c) / c.p

/-- The index at which the cell of element `n` starts (R593, R594). -/
def cellStart (s : State) (c : StreamConfig) (n : Nat) : Nat := elementIndex s c.pkind c.unit (n - (n + packetShift s c) % c.p)

/-- A primary sends a checkpoint of a context to its mirror (R594): the packets from a cell on are numbered from the next SEQ. -/
def sendCheckpoint (n cell : Nat) (ends : Bool) (s : State) : State :=
  if hasMirror s then
    let c := ctxOf s n
    emit (.pairState (.checkpoint n ((c.seq + c.pieces.length) % 2 ^ 64) cell ends)) s
  else s

/-- The sample run of a context ends before index `limit`: what it has not sent yet becomes its last packets. -/
def endCtxRun (limit n : Nat) (s : State) : State :=
  let c := ctxOf s n
  match c.run with
  | some i =>
    let stop := elementAt s c.cfg.pkind c.cfg.unit limit
    let l := cutPieces s c.cfg stop ((stop - i) / c.cfg.p + 2) i c.fresh
    sendCheckpoint n (cellStart s c.cfg (stop + c.cfg.p - 1)) true (setCtx n (fun c => { c with run := none, pieces := c.pieces ++ l }) s)
  | none => s

/-- The sample streams of a source end before index `limit` (R129, R394). -/
def endStreams (kind unit limit : Nat) (s : State) : State :=
  (List.range s.strm.ctxs.length).foldl (fun a n =>
    if (ctxOf a n).cfg.pkind == kind && (ctxOf a n).cfg.unit == unit then endCtxRun limit n a else a) s

/-- A sample run of a context starts at index `e`, where its mode and source let it. -/
def startCtxRun (e n : Nat) (s : State) : State :=
  let c := ctxOf s n
  if c.started && modeRunsProducts (runMode s) && locked s && (c.cfg.pkind == 0 || (c.cfg.pkind == 1 && tunerRunning s c.cfg.unit)) then
    let i := elementAt s c.cfg.pkind c.cfg.unit (max e c.startIndex)
    sendCheckpoint n (cellStart s c.cfg i) false (setCtx n (fun c => { c with run := some i, fresh := true }) s)
  else s

/-- The sample streams of a source start at index `e`. -/
def startStreams (kind unit e : Nat) (s : State) : State :=
  (List.range s.strm.ctxs.length).foldl (fun a n =>
    if (ctxOf a n).cfg.pkind == kind && (ctxOf a n).cfg.unit == unit then startCtxRun e n a else a) s

/-! ### Engine frames (R241, R254, R255) -/

def engineOf (s : State) (e : Nat) : Engine := s.engines.getD e default

def setEngine (e : Nat) (f : Engine → Engine) (s : State) : State := { s with engines := modAt s.engines e f }

/-- The channel of an engine: W(c) is 0-3 and Z(c) is 4-7. -/
def engineChannel (e : Nat) : Nat := e % 4

/-- The tuner that feeds an engine (R22): T(2c) for W(c), T(2c + 1) for Z(c). -/
def engineTuner (e : Nat) : Nat := 2 * (e % 4) + e / 4

/-- FFT length. -/
def EngineConfig.n (c : EngineConfig) : Nat := 2 ^ c.log2n

/-- M of R241. -/
def EngineConfig.m (c : EngineConfig) : Nat := if c.tuner then c.n else c.n / 2

/-- The number of columns C (R252). -/
def EngineConfig.cols (c : EngineConfig) : Nat := c.binCount / max 1 c.d

/-- The position of element `i` of frame `f` of an engine, in 2^-32 sample (R254). -/
def framePos (s : State) (e f i : Nat) : Nat :=
  let g := engineOf s e
  if g.cfg.tuner then
    let t := s.tuners.getD (engineTuner e) default
    tunerTau t (tunerFirst t (g.anchor.getD 0) + f * g.cfg.hop + i)
  else (g.anchor.getD 0 + f * g.cfg.hop + i) * 2 ^ 32

/-- The key index of frame `f` in 2^-32 sample (R255). -/
def frameKey (s : State) (e f : Nat) : Nat := framePos s e f ((engineOf s e).cfg.n / 2)

/-- G of an engine's spectra with key index `key`, in 2^-32 sample (R206, R255). -/
def engineDelay (s : State) (e key : Nat) : Nat :=
  let g := (s.tuners.getD (engineTuner e) default).gridAt key
  eqDelayAt s (engineChannel e) key + (if (engineOf s e).cfg.tuner then tunerDelay g.snap g.decim g.delayAdj else 0)

/-- f_in of an engine configuration with a tuner decimation K (32 fractional bits), in samples per second (R241). -/
def inputRate (fs : Nat) (tuner : Bool) (decim : Nat) : Rat :=
  if tuner then (fs * 2 ^ 32 : Nat) / (decim : Rat) else (fs : Rat)

/-- The capacity rules of R242. -/
def capacityOk (fs e : Nat) (c : EngineConfig) (decim : Nat) : Bool :=
  let r := inputRate fs c.tuner decim
  decide ((if c.tuner then c.n / 8 else c.n / 2) ≤ c.hop) && decide (c.hop ≤ 2 ^ 30)
    && (!c.tuner || decide (r * (c.n : Rat) ≤ (if e < 4 then 20480000000 else 2560000000) * (c.hop : Rat)))
    && decide ((c.binCount : Rat) * r ≤ 20480000000 * (c.hop : Rat))

/-- The engine produces frames (R268). -/
def engineRunning (s : State) (e : Nat) : Bool :=
  let g := engineOf s e
  g.enabled && modeRunsProducts (runMode s) && !g.overrate && !g.bindingLost && g.live
    && (!g.cfg.tuner || tunerRunning s (engineTuner e))

/-! ### Groups of frames and spectrum records (R260, R261) -/

def orFlags (a b : SpecFlags) : SpecFlags :=
  { ovr := a.ovr || b.ovr, nbr := a.nbr || b.nbr, fade := a.fade || b.fade, holdover := a.holdover || b.holdover,
    slew := a.slew || b.slew, cal := a.cal || b.cal, mixedGain := a.mixedGain || b.mixedGain }

def noFlags : SpecFlags :=
  { ovr := false, nbr := false, fade := false, holdover := false, slew := false, cal := false, mixedGain := false }

/-- The flag bits 9-14 and 16 that records share (R261, R279). -/
def flagBits (f : SpecFlags) : Nat :=
  (if f.ovr then 2 ^ 9 else 0) + (if f.nbr then 2 ^ 10 else 0) + (if f.fade then 2 ^ 11 else 0)
    + (if f.holdover then 2 ^ 12 else 0) + (if f.slew then 2 ^ 13 else 0) + (if f.cal then 2 ^ 14 else 0)
    + (if f.mixedGain then 2 ^ 16 else 0)

/-- One frame as a group takes it. -/
structure FrameIn where
  number : Nat
  key : Nat
  start : Nat
  stop : Nat
  inv : Nat
  invalid : Bool
  flags : SpecFlags
  entries : List Dyad
  cplx : List (Word × Word)

/-- Add a frame to a group (R260): MAX, MIN and MEAN take valid frames only, and MEAN sums in binary64. Log entry 42 (DEDUCED, unsafe). -/
def groupAdd (detect : Nat) (g : Option Group) (x : FrameIn) : Group :=
  let merge (old : List Dyad) : List Dyad :=
    match detect with
    | 1 => List.zipWith Dyad.max old x.entries
    | 2 => List.zipWith Dyad.min old x.entries
    | _ => List.zipWith Dyad.add old x.entries
  match g with
  | none =>
    { first := x.number, frames := 1, valid := if x.invalid then 0 else 1, invCount := x.inv, flags := x.flags, regrid := x.number == 0, firstInvalid := x.invalid, firstInv := x.inv, firstFlags := x.flags, firstKey := x.key, lastKey := x.key, start := x.start, firstStop := x.stop, stop := x.stop, entries := if x.invalid then [] else x.entries, sample := x.entries, cplx := x.cplx }
  | some g =>
    { g with frames := g.frames + 1, valid := g.valid + (if x.invalid then 0 else 1), invCount := satAdd 32 g.invCount x.inv,
             flags := orFlags g.flags x.flags, lastKey := x.key, stop := x.stop,
             entries := if x.invalid then g.entries else if g.valid = 0 then x.entries else merge g.entries }

/-- What a closed group says under a DETECT (R260): INVALID, flags, frames, valid frames, INV_COUNT, the key index in 2^-33 sample (the
mean of those of its first and last frames, exactly), FRAME_END, and the entries of a record of `count` entries. -/
structure GroupOut where
  invalid : Bool
  flags : SpecFlags
  frames : Nat
  valid : Nat
  inv : Nat
  key : Nat
  stop : Nat
  entries : List Dyad

def groupOut (detect count : Nat) (g : Group) : GroupOut :=
  if detect = 0 then
    { invalid := g.firstInvalid, flags := g.firstFlags, frames := 1, valid := if g.firstInvalid then 0 else 1, inv := g.firstInv, key := 2 * g.firstKey, stop := g.firstStop, entries := g.sample }
  else
    { invalid := g.valid == 0, flags := g.flags, frames := g.frames, valid := g.valid, inv := g.invCount, key := g.firstKey + g.lastKey, stop := g.stop, entries := if g.valid = 0 then List.replicate count Dyad.zero else if detect = 3 then g.entries.map (fun d => d.divNat g.valid) else g.entries }

/-- Pad bytes with zeros to a multiple of 64. -/
def pad64 (l : List Byte) : List Byte := l ++ List.replicate ((64 - l.length % 64) % 64) 0

def halfBytes (n : Nat) : List Byte := [BitVec.ofNat 8 n, BitVec.ofNat 8 (n / 256)]

/-- Entries in a FORMAT of R249. -/
def entryBytes (format : Nat) (entries : List Dyad) (cplx : List (Word × Word)) : List Byte :=
  match format with
  | 0 => entries.flatMap fun p => halfBytes (unsign 16 (log16 p))
  | 1 => entries.flatMap fun p => wordBytes (lin32 p)
  | _ => cplx.flatMap fun y => wordBytes y.1 ++ wordBytes y.2

/-- The integer part of a group's key index. -/
def GroupOut.index (o : GroupOut) : Nat := o.key / 2 ^ 33

/-- The stamp of a group's record (R255, R260). -/
def groupStamp (s : State) (e : Nat) (o : GroupOut) : Nat := stampHalf s (engineChannel e) o.key (engineDelay s e o.index)

/-- The 16 header words of R261; `w0`, `seq`, `w12`, `w13` and `w15` are what R288 changes for a spectrogram line. -/
def recordHeader (s : State) (e : Nat) (g : Group) (o : GroupOut) (w0 seq w12 count w15 : Nat) : List Word :=
  let c := (engineOf s e).cfg
  [ BitVec.ofNat 32 (e + w0 + (if o.invalid then 2 ^ 8 else 0) + flagBits o.flags + (if g.regrid then 2 ^ 15 else 0)
      + (if c.tuner then 2 ^ 17 else 0) + c.log2n * 2 ^ 18 + c.window * 2 ^ 23), lo32 seq ]
  ++ dtsWords (groupStamp s e o) ++ u64Words g.start ++ u64Words o.stop
  ++ [ BitVec.ofNat 32 o.inv, BitVec.ofNat 32 o.frames, BitVec.ofNat 32 o.valid, BitVec.ofNat 32 (s.time.gen + w12),
       BitVec.ofNat 32 count, BitVec.ofNat 32 c.binStart, BitVec.ofNat 32 (c.d + c.map * 2 ^ 16 + w15) ]

/-- A record enters its engine's history ring, which keeps the newest DEPTH records of the run (R336, R337). -/
def pushRecord (e : Nat) (r : RingRecord) (s : State) : State :=
  { s with cap := { s.cap with rings := s.cap.rings.map (fun x =>
      if x.kind == 2 && x.unit == e && x.run.isSome then
        { x with records := (x.records ++ [r]).drop (x.records.length + 1 - x.depth) }
      else x) } }

/-- Emit the open group of an engine's product output as a record (R260, R261). -/
def emitProduct (e : Nat) (s : State) : State :=
  let g := engineOf s e
  match g.group with
  | none => s
  | some gr =>
    let count := if g.out.bins then g.cfg.binCount else g.cfg.cols
    let o := groupOut g.out.detect count gr
    let w0 := (if g.out.bins then 8 else 0) + g.out.format * 16 + g.out.detect * 64
    let head := recordHeader s e gr o w0 gr.first 0 count 0
    let bytes := bytesOfWords head ++ pad64 (entryBytes g.out.format o.entries gr.cplx)
    emit (.specRecord e bytes) <| offerItem 2 e gr.first o.index (.bytes bytes)
      (pushRecord e { key := o.key / 2, bytes := bytes, invalid := o.invalid, flags := o.flags, stamp := groupStamp s e o }
        (setEngine e (fun g => { g with group := none, prodRecords := satAdd 32 g.prodRecords 1 }) s))

/-! ### Slot images in rings and layers (R278, R280, R281, R288, R289) -/

/-- A slot image: header, body padded to 64 bytes, trailer with SEQ and COMPLETE (R278). -/
def slotImage (header : List Word) (body : List Byte) (seq : Nat) (complete : Bool) : List Byte :=
  bytesOfWords header ++ pad64 body ++ bytesOfWords ([lo32 seq, flagWord complete] ++ List.replicate 14 0)

/-- The size of a slot image for a body of `n` bytes. -/
def slotStride (n : Nat) : Nat := 128 + ceilDiv n 64 * 64

/-- Write bytes at an offset of the partition a handle names, if it is still allocated. -/
def writeAt (h : Word) (o : Nat) (bytes : List Byte) (s : State) : State :=
  match partByHandle s h with
  | some p => poolWrite p.slot o bytes s
  | none => s

/-! ### Density frames (R273-R283) -/

def densOf (s : State) (c : Nat) : Density := s.dens.getD c default

def setDens (c : Nat) (f : Density → Density) (s : State) : State := { s with dens := modAt s.dens c f }

/-- The source engine of a density engine. -/
def densEngine (c : Nat) (d : Density) : Nat := if d.cfg.zoom then c + 4 else c

def densFrameLen (d : Density) : Nat := 32 * d.cfg.frameSc

def densRunning (s : State) (c : Nat) : Bool :=
  (densOf s c).enabled && modeRunsProducts (runMode s) && !(densOf s c).mismatch

def newDensityFrame (start : Nat) : DensityFrame :=
  { start := start, spectra := 0, skipped := 0, discarded := 0, flags := noFlags, regrid := false, cleared := false }

/-- The density frame header (R279). -/
def densHeader (s : State) (c : Nat) (d : Density) (f : DensityFrame) (stop : Nat) (gap early : Bool) : List Word :=
  let sat := (d.exported.filter fun x => x.2 == 65535 && decide (x.1 < d.cfg.rows * d.cfg.cols)).length
  [ BitVec.ofNat 32 (c + (if d.cfg.zoom then 4 else 0) + d.cfg.persist * 8 + (if gap then 32 else 0) + (if early then 64 else 0)
      + (if f.cleared then 128 else 0) + flagBits f.flags % 2 ^ 15 + (if f.regrid then 2 ^ 15 else 0)), lo32 d.seq ]
  ++ dtsWords (stampOf s c (f.start * 2 ^ 32 : Nat) (engineDelay s (densEngine c d) f.start)) ++ u64Words f.start ++ u64Words stop
  ++ [ BitVec.ofNat 32 f.spectra, BitVec.ofNat 32 f.skipped, BitVec.ofNat 32 f.discarded, BitVec.ofNat 32 s.time.gen,
       BitVec.ofNat 32 d.cfg.cols, BitVec.ofNat 32 (d.cfg.rows + sat * 2 ^ 11),
       BitVec.ofNat 32 (unsign 16 d.cfg.bottom + d.cfg.step * 2 ^ 16) ]

/-- The counts of the export buffer as a slot body (R278). -/
def densBody (d : Density) : List Byte :=
  (List.range (d.cfg.rows * d.cfg.cols)).flatMap fun i => halfBytes (sparseGet 0 d.exported i)

/-- At the close of a frame the buffers swap (R274, R277): the buffer that closed it is exported, and the other starts empty or as its copy. -/
def swapBuffers (d : Density) : Density := { d with exported := d.cells, cells := if d.cfg.persist = 0 then [] else d.cells }

/-- Close the open frame of density engine `c` at last index `stop` and export it (R277, R280, R281). `lost`: the write did
not finish in time; `busy`: a composition reads the layer image. The next frame opens at `next`, if there is one. Log entry 43 (DEDUCED, unsafe). -/
def closeDensity (c stop : Nat) (gap early lost busy : Bool) (next : Option Nat) (s0 : State) : State :=
  let s := setDens c swapBuffers s0
  let d := densOf s c
  match (densOf s0 c).frame with
  | none => s0
  | some f =>
    let stride := slotStride (2 * d.cfg.rows * d.cfg.cols)
    let image := slotImage (densHeader s c d f stop gap early) (densBody d) d.seq (!lost)
    let s1 := if d.cfg.ring = 0 then s else writeAt d.cfg.ring (d.cfg.ringOffset + d.seq % max 1 d.cfg.nslots * stride) image s
    let other := 1 - d.newest
    let layer := d.cfg.layer != 0
    let s2 := if !layer || busy then s1
      else
        let s1a := writeAt d.cfg.layer (d.cfg.layerOffset + 64 + other * stride) image s1
        if lost then s1a
        else writeAt d.cfg.layer d.cfg.layerOffset (bytesOfWords ([BitVec.ofNat 32 other, lo32 d.seq] ++ List.replicate 14 0)) s1a
    let o := d.cfg.ringOffset + d.seq % max 1 d.cfg.nslots * stride
    let s3 := if d.cfg.ring = 0 then s2 else offerItem 3 c d.seq f.start (.slot d.cfg.ring o (stride - 64) (o + stride - 64)) s2
    setDens c (fun d => { d with
      frames := satAdd 32 d.frames 1, seq := (d.seq + 1) % 2 ^ 32,
      exportLost := if lost then satAdd 32 d.exportLost 1 else d.exportLost,
      layerSkipped := if layer && busy then satAdd 32 d.layerSkipped 1 else d.layerSkipped,
      newest := if layer && !busy && !lost then other else d.newest, frame := next.map newDensityFrame }) s3

/-- Close the frames whose boundary lies at or before index `i` (R273, R277); what the row says of the export holds for the first. -/
def closeDueDensity (u i : Nat) (lost busy : Bool) : Nat → State → State
  | 0, s => s
  | n + 1, s =>
    match (densOf s u).frame with
    | some f =>
      let stop := f.start + densFrameLen (densOf s u)
      if densFrameLen (densOf s u) = 0 || i < stop then s
      else closeDueDensity u i false false n (closeDensity u (stop - 1) false false lost busy (some stop) s)
    | none => s

/-- The number of frames that can close up to index `i`. -/
def dueFrames (s : State) (u i : Nat) : Nat :=
  match (densOf s u).frame with
  | some f => (i - f.start) / (max 1 (densFrameLen (densOf s u)))
  | none => 0

/-- Bring the frames of a density engine up to index `i`. -/
def densUpTo (u i : Nat) (s : State) : State := closeDueDensity u i false false (dueFrames s u i) s

/-- End the density grid at index `i` (R283): the open frame closes there, early unless its boundary is there. -/
def endDensity (c i : Nat) (gap : Bool) (s0 : State) : State :=
  let s := densUpTo c (i - 1) s0
  match (densOf s c).frame with
  | none => s
  | some f =>
    if i ≤ f.start then setDens c (fun d => { d with frame := none }) s
    else closeDensity c (i - 1) gap (decide (i < f.start + densFrameLen (densOf s c))) false false none s

/-- Anchor the density grid at `e` (R273). Counts are kept unless PERSIST clears them at a frame start (R274). -/
def anchorDensity (c e : Nat) (s : State) : State :=
  setDens c (fun d => { d with anchor := some e, frame := some (newDensityFrame e), cells := if d.cfg.persist = 0 then [] else d.cells }) s

/-! ### Spectrogram lines (R285-R289) -/

def spgmOf (s : State) (i : Nat) : Spgm := s.spgm.getD i default

def setSpgm (i : Nat) (f : Spgm → Spgm) (s : State) : State := { s with spgm := modAt s.spgm i f }

/-- LINE_COLUMNS (R285). -/
def lineColumns (s : State) (c : SpgmConfig) : Nat := (engineOf s c.engine).cfg.cols / max 1 c.colMerge

/-- Entries of a line (R286): LOG8 or LOG16. -/
def lineBytes (c : SpgmConfig) (l : List Dyad) : List Byte :=
  if c.log8 then
    l.map fun p =>
      if p.m = 0 then 0 else BitVec.ofNat 8 (max 0 (min 255 ((log16 p - c.bottom) / (max 1 c.step : Nat)))).toNat
  else entryBytes 0 l []

/-- Emit the open line of a spectrogram unit (R285, R288, R289); `lost` drops it whole (R36). Log entry 42 (DEDUCED, unsafe). -/
def emitLine (i : Nat) (lost : Bool) (s : State) : State :=
  let u := spgmOf s i
  match u.group with
  | none => s
  | some gr =>
    let c := u.cfg
    let count := lineColumns s c
    let o := groupOut c.detect count gr
    let entries := if o.invalid then List.replicate count Dyad.zero else o.entries
    let w0 := c.detect * 64 + (if c.log8 then 2 ^ 27 else 0) + i * 2 ^ 28
    let body := lineBytes c entries
    let head := recordHeader s c.engine gr o w0 u.line (c.mergeMap * 2 ^ 16) count (c.colMerge * 2 ^ 18)
    let s1 := if lost || c.ring = 0 then s
      else writeAt c.ring (c.ringOffset + u.line % max 1 c.nslots * slotStride body.length) (slotImage head body u.line true) s
    let row := u.line % max 1 c.layerLines
    let s2 := if lost || c.layer = 0 then s1
      else
        writeAt c.layer c.layerOffset
          (bytesOfWords ([BitVec.ofNat 32 row, lo32 u.line, BitVec.ofNat 32 count, flagWord c.log8] ++ List.replicate 12 0))
          (writeAt c.layer (c.layerOffset + 64 + row * (ceilDiv body.length 64 * 64)) (pad64 body) s1)
    let stride := slotStride body.length
    let at_ := c.ringOffset + u.line % max 1 c.nslots * stride
    let s3 := if lost || c.ring = 0 then s2 else offerItem 4 i u.line o.index (.slot c.ring at_ (stride - 64) (at_ + stride - 64)) s2
    setSpgm i (fun u => { u with
      group := none, line := (u.line + 1) % 2 ^ 32,
      lines := if lost then u.lines else satAdd 32 u.lines 1,
      invalidLines := if !lost && o.invalid then satAdd 32 u.invalidLines 1 else u.invalidLines,
      linesLost := if lost then satAdd 32 u.linesLost 1 else u.linesLost }) s3

/-- The line rate of a spectrogram configuration, in lines per second (R287). Log entry 38 (DEDUCED, unsafe). -/
def lineRate (s : State) (c : SpgmConfig) : Rat :=
  let g := (engineOf s c.engine).cfg
  inputRate (fsOf s.time) g.tuner (s.tuners.getD (engineTuner c.engine) default).decim / ((g.hop * c.lineSpectra : Nat) : Rat)

/-- The two sums of R287 hold for a set of configurations with their line rates and columns. -/
def rateSumsOk (l : List (Rat × Nat)) : Bool :=
  decide ((l.map fun x => x.1).sum ≤ 1000000) && decide ((l.map fun x => x.1 * (x.2 : Rat)).sum ≤ 4096000000)

/-- The enabled units' sums after a change of engine `e`: where they fail, every unit of that engine stops (R287). -/
def checkLineRates (e : Nat) (s : State) : State :=
  let on := s.spgm.filter fun u => u.enabled && !u.overrate
  if rateSumsOk (on.map fun u => (lineRate s u.cfg, lineColumns s u.cfg)) then s
  else { s with spgm := s.spgm.map (fun u => if u.enabled && u.cfg.engine == e then { u with overrate := true, group := none } else u) }

end Sys2Proof.Machine
end

