-- ==== Sys2Proof/Machine/Transform.lean ====
section
/-! DEFINITION. The transform of the spectrum engines (R244-R248, R252, R255, R257): windows, the scale S, the bins Y of a frame as binary32
parts, their powers and columns, and the flags of the frame. -/

namespace Sys2Proof.Machine

/-! ### Windows (R244, R245) -/

/-- The series of I0 from term `n` on, of y = x^2/4: `t` is the term before. -/
def besselSeries (y : Rat) : Nat → Nat → Rat → Rat
  | 0, _, _ => 0
  | f + 1, n, t => let u := t * y / ((n * n : Nat) : Rat); u + besselSeries y f (n + 1) u

/-- I0(x) from y = x^2/4, to within 2^-100 for the arguments of R244. Log entry 106 (DESIGN CHOICE, unsafe). -/
def besselI0 (y : Rat) : Rat := 1 + besselSeries y 96 1 1

/-- A built-in window of R244 at element `i` of `n`. -/
def builtinWindow (code n i : Nat) : Rat :=
  let c (m : Nat) : Rat := cosTurn ((m * i % n : Nat) / (n : Rat))
  match code with
  | 0 => 1
  | 1 => 1 / 2 - 1 / 2 * c 1
  | 2 => 27 / 50 - 23 / 50 * c 1
  | 3 =>
    let z : Rat := ((2 * i : Nat) - (n : Rat)) / (n : Rat)
    let y : Rat := 9 / 4 * (twoPi / 2) * (twoPi / 2)
    besselI0 (y * (1 - z * z)) / besselI0 y
  | 4 => 35875 / 100000 - 48829 / 100000 * c 1 + 14128 / 100000 * c 2 - 1168 / 100000 * c 3
  | _ => 21557895 / 100000000 - 41663158 / 100000000 * c 1 + 277263158 / 1000000000 * c 2 - 83578947 / 1000000000 * c 3
      + 6947368 / 1000000000 * c 4

/-- Entry j of the table T of a user bank, in 2^-15. -/
def UserBank.entry (b : UserBank) (j : Nat) : Nat := sparseGet 32768 b.table j

/-- The window of a user bank at element `i` of `n` (R245): T is interpolated over the first half and mirrored. -/
def userWindow (b : UserBank) (n i : Nat) : Rat :=
  let h := if 2 * i ≤ n then i else n - i
  let j := h * 8192 / n
  let w : Rat := (h * 8192 % n : Nat) / (n : Rat)
  ((b.entry j : Rat) + (if j = 4096 then 0 else w * ((b.entry (j + 1) : Rat) - (b.entry j : Rat)))) / 32768

/-- The user bank that a window code names (R244). -/
def userBank (g : Engine) (b : Bool) : UserBank := if b then g.bank1 else g.bank0

/-- w(i) as applied (R244): the code in units of 2^-17, ties away from zero. Log entry 107 (DESIGN CHOICE, unsafe). -/
def windowCode (g : Engine) (i : Nat) : Int :=
  roundRat (131072 * (if g.cfg.window < 8 then builtinWindow g.cfg.window g.cfg.n i else userWindow (userBank g (g.cfg.window == 9)) g.cfg.n i))

/-- N CG, in units of 2^-17: the sum of the codes (R244). -/
def windowTotal (g : Engine) : Int := ((List.range g.cfg.n).map (windowCode g)).sum

/-- CG of the configuration in force (R244, R245). -/
def coherentGain (g : Engine) : Rat := (windowTotal g : Rat) / 131072 / (g.cfg.n : Rat)

/-- ENBW of the configuration in force, in bins (R244, R245). -/
def noiseBandwidth (g : Engine) : Rat :=
  (g.cfg.n : Rat) * (((List.range g.cfg.n).map fun i => windowCode g i * windowCode g i).sum : Int) / ((windowTotal g * windowTotal g : Int) : Rat)

/-! ### Frequencies (R246, R250) -/

/-- The frequency in hertz of output bin `i` (R246). -/
def binFrequency (s : State) (e i : Nat) : Rat :=
  let c := (engineOf s e).cfg
  let t := s.tuners.getD (engineTuner e) default
  let fs : Rat := fsOf s.time
  if c.tuner then fs * (t.freq : Rat) / (2 ^ 48 : Nat) + ((i : Rat) - (c.n / 2 : Nat)) * inputRate (fsOf s.time) true t.decim / (c.n : Rat)
  else (i : Rat) * fs / (c.n : Rat)

/-- The resolution bandwidth in hertz (R250). -/
def resolutionBandwidth (s : State) (e : Nat) : Rat :=
  let g := engineOf s e
  noiseBandwidth g * inputRate (fsOf s.time) g.cfg.tuner (s.tuners.getD (engineTuner e) default).decim / (g.cfg.n : Rat)

/-! ### Frames (R254, R257) -/

/-- The number of the first element of frame `f`: a sample index, or an output of the tuner. -/
def frameFirst (s : State) (e f : Nat) : Nat :=
  let g := engineOf s e
  (if g.cfg.tuner then tunerFirst (s.tuners.getD (engineTuner e) default) (g.anchor.getD 0) else g.anchor.getD 0) + f * g.cfg.hop

/-- FRAME_START and FRAME_END of frame `f`. -/
def frameStart (s : State) (e f : Nat) : Nat := framePos s e f 0 / 2 ^ 32
def frameEnd (s : State) (e f : Nat) : Nat := framePos s e f ((engineOf s e).cfg.n - 1) / 2 ^ 32

/-- The tags of the engine's input, as ranges of element numbers. -/
def inputTags (s : State) (e : Nat) : Tags :=
  if (engineOf s e).cfg.tuner then
    let u := s.tuners.getD (engineTuner e) default
    tunerTags s (engineTuner e) u.grid
  else wideTags s (engineChannel e)

/-- GAIN_SHIFT of element `n` of a tuner. -/
def elementGain (s : State) (e n : Nat) : Nat :=
  let u := s.tuners.getD (engineTuner e) default
  gainOf u u.grid n

/-- The frame's elements carry two GAIN_SHIFT values (R257). -/
def mixedGain (s : State) (e f : Nat) : Bool :=
  let g := engineOf s e
  let a := frameFirst s e f
  g.cfg.tuner && (List.range g.cfg.n).any fun i => elementGain s e (a + i) != elementGain s e a

/-- INV_COUNT and the flags of a frame (R257). -/
def frameTags (s : State) (e f : Nat) : Nat × SpecFlags :=
  let a := frameFirst s e f
  let b := a + (engineOf s e).cfg.n
  let t := inputTags s e
  let note := notesOver s (frameStart s e f) (frameEnd s e f + 1)
  (unionCount (clipRanges a b t.inv),
    { ovr := meetsRanges t.ovr a b, nbr := meetsRanges t.nbr a b, fade := meetsRanges t.fade a b, holdover := note.holdover,
      slew := note.slew, cal := note.cal, mixedGain := mixedGain s e f })

/-! ### Bins (R247, R248) -/

/-- The elements of a frame that the transform takes: place in the frame, real and imaginary part; 0 for an INV element, and of a wideband
frame only those that an input other than 0 V reaches. -/
def frameElements (s : State) (e f : Nat) : List (Nat × Rat × Rat) :=
  let g := engineOf s e
  let a := frameFirst s e f
  let w := wideTags s (engineChannel e)
  if g.cfg.tuner then
    let u := s.tuners.getD (engineTuner e) default
    let t := tunerTags s (engineTuner e) u.grid
    (List.range g.cfg.n).map fun i =>
      let v := tunerValue s (engineTuner e) w t u.grid (a + i)
      (i, (v.1 : Rat), (v.2 : Rat))
  else (litIndices s (engineChannel e) a (a + g.cfg.n)).map fun k => (k - a, (wideValue s (engineChannel e) w k : Rat), 0)

/-- S of R247; for a MIXED_GAIN frame g is that of element N/2 (R257). Without a window (a sum of 0) the spec gives no Y: log entry 107
(DESIGN CHOICE, unsafe). -/
def frameScale (s : State) (e f : Nat) : Rat :=
  let g := engineOf s e
  let w : Rat := (windowTotal g : Rat) / 131072
  if g.cfg.tuner then (2 ^ (12 + elementGain s e (frameFirst s e f + g.cfg.n / 2)) : Nat) * w else 1024 * w

/-- k_i of R247. -/
def binNumber (c : EngineConfig) (i : Nat) : Int := if c.tuner then (i : Int) - (c.n / 2 : Nat) else i

/-- The sum of R247 for bin `i`, over S, from the elements with their window codes. -/
def exactBin (c : EngineConfig) (scale : Rat) (elems : List (Nat × Rat × Rat)) (i : Nat) : Rat × Rat :=
  let z := sumPairs (elems.map fun x =>
    let a : Rat := ((((x.1 : Int) - (c.n / 2 : Nat)) * binNumber c i : Int) : Rat) / (c.n : Rat)
    (x.2.1 * cosTurn a + x.2.2 * sinTurn a, x.2.2 * cosTurn a - x.2.1 * sinTurn a))
  (z.1 / scale, z.2 / scale)

/-- A rational as a dyadic number of at least 64 bits, its last bit sticky, so that one rounding to fewer bits is exact. -/
def dyadOf (x : Rat) : Dyad :=
  let n := x.num.natAbs
  let k := 64 + Nat.log2 x.den
  { m := n * 2 ^ k / x.den * 2 + (if n * 2 ^ k % x.den = 0 then 0 else 1), e := -((k + 1 : Nat) : Int) }

/-- A rational as binary32, to nearest with ties to even (R248). -/
def binary32 (x : Rat) : Word := lin32 (dyadOf x) ||| (if x < 0 then 0x80000000#32 else 0)

/-- Y of the delivered bins of frame `f` (R246-R248): the exact transform and the engine's arithmetic noise, rounded once.
Log entry 41 (DESIGN CHOICE, unsafe). -/
def frameBins (s : State) (e f : Nat) : List (Word × Word) :=
  let g := engineOf s e
  let scale := frameScale s e f
  let elems := (frameElements s e f).map fun x => let w : Rat := windowCode g x.1 / 131072; (x.1, w * x.2.1, w * x.2.2)
  (List.range g.cfg.binCount).map fun j =>
    let i := g.cfg.binStart + j
    let y := exactBin g.cfg scale elems i
    let noise := Config.transformNoise e s.time.gen (frameStart s e f) i
    (binary32 (y.1 + noise false), binary32 (y.2 + noise true))

/-- A spectrum on its way to the consumers (R253): the engine, the frame, bin and column powers. -/
structure Spectrum where
  engine : Nat
  frame : FrameIn
  stamp : Nat
  powers : List Dyad
  cols : List Dyad
  bins : List (Word × Word)

/-- The spectrum of frame `f` of an engine (R247, R252, R254, R255, R257). -/
def spectrumOf (s : State) (e f : Nat) : Spectrum :=
  let g := engineOf s e
  let bins := frameBins s e f
  let powers := bins.map power
  let key := frameKey s e f
  let t := frameTags s e f
  { engine := e, stamp := stampOf s (engineChannel e) key (engineDelay s e (key / 2 ^ 32)), powers := powers,
    cols := columns g.cfg.map (max 1 g.cfg.d) g.cfg.binCount powers, bins := bins,
    frame := { number := f, key := key, start := frameStart s e f, stop := frameEnd s e f, inv := t.1,
               invalid := decide (0 < t.1) || t.2.mixedGain, flags := t.2, entries := [], cplx := [] } }

end Sys2Proof.Machine
end

