-- ==== Sys2Proof/Machine/Links.lean ====
section
/-! DEFINITION. What follows along the sample path when a grid ends or starts (R226, R256, R259, R283, R285, R287, R304,
R337, R350, R370, R379): capture segments close, slots report false, Threshers restart, and consumers whose conditions fail
stop. Also the configurations that pending commands will leave, against which R743 makes some checks. -/

namespace Sys2Proof.Machine

/-! ### Configurations named by command words -/

/-- The engine configuration in a SPEC_CONFIG (R264). -/
def engineConfigOf (c : Cmd) : EngineConfig :=
  { tuner := c.flag 0 8, window := c.arg 0 15 12, log2n := c.arg 0 20 16, map := c.arg 0 22 21, hop := (c.word 1).toNat,
    binStart := c.arg 2 20 0, binCount := c.arg 3 20 0, d := c.arg 4 12 0 }

/-- The AUs of a WBUF region (R243). -/
def wbufAu (c : EngineConfig) : Nat :=
  if c.log2n ≤ 16 then 0 else ceilDiv ((if c.tuner then 24 else 12) * c.n) 1048576

/-- The WBUF regions that a SPEC_CONFIG gives the engines it names (R264): engine and region. -/
def wbufRegionsOf (c : Cmd) : List (Nat × WbufRegion) :=
  let au := wbufAu (engineConfigOf c)
  if au = 0 then []
  else (maskBits 8 (c.arg 0 7 0)).zipIdx.map fun x =>
    (x.1, { handle := c.word 5, offset := c.arg 6 8 0 + x.2 * au, au := au })

/-- The density configuration in a DENS_CONFIG (R292). -/
def densityConfigOf (c : Cmd) : DensityConfig :=
  { zoom := c.flag 0 2, persist := c.arg 0 5 4, underDrop := c.flag 0 6, overDrop := c.flag 0 7, decayLog2 := c.arg 0 12 8,
    decayShift := c.arg 0 15 13, rows := c.arg 0 26 16, cols := c.arg 1 16 0, bottom := signed 16 (c.arg 2 15 0),
    step := c.arg 2 27 16, frameSc := (c.word 3).toNat, ring := c.word 4, ringOffset := (c.word 5).toNat, nslots := c.arg 6 6 0,
    layer := c.word 7, layerOffset := (c.word 8).toNat }

/-- The configuration in an SPGM_CONFIG (R295). -/
def spgmConfigOf (c : Cmd) : SpgmConfig :=
  { engine := c.arg 0 5 3, detect := c.arg 0 7 6, log8 := c.flag 0 8, mergeMap := c.arg 0 11 10, colMerge := c.arg 0 24 12,
    lineSpectra := c.arg 1 16 0, bottom := signed 16 (c.arg 2 15 0), step := c.arg 2 27 16, ring := c.word 3,
    ringOffset := (c.word 4).toNat, nslots := c.arg 5 16 0, layer := c.word 6, layerOffset := (c.word 7).toNat,
    layerLines := c.arg 8 11 0 }

/-- The configuration in an INT_CONFIG (R383). -/
def intConfigOf (c : Cmd) : IntConfig :=
  { products := c.arg 0 9 0, zoom := c.flag 0 10, exclude := c.flag 0 11, anchor := c.flag 0 12, notice := c.flag 0 13,
    sumLog2 := c.arg 0 18 16, accShift := c.arg 0 29 24, firstBin := c.arg 1 20 0, nbins := c.arg 2 20 0,
    frameLen := c.arg64 3, handle := c.word 5, offset := (c.word 6).toNat }

/-- The configuration in a TH_CONFIG (R387). -/
def thConfigOf (c : Cmd) : ThConfig :=
  { zoom := c.flag 0 2, skLog2 := c.arg 0 11 8, powExcess := c.arg 0 31 16, skLo := c.arg 1 15 0, skHi := c.arg 1 31 16,
    first := c.arg 2 20 0, count := c.arg 3 18 0, handle := c.word 4, offset := (c.word 5).toNat }

/-- The mask settings in a TRIG_MASK_CONFIG (R331). -/
def maskSettingsOf (c : Cmd) : MaskSettings :=
  { zoom := c.flag 0 8, below := c.flag 0 9, offset := signed 16 (c.arg 0 31 16), base := c.arg 1 15 0, npts := c.arg 2 16 0 }

/-- The slot configuration in a TRIG_SLOT_CONFIG (R328, R329). -/
def slotConfigOf (c : Cmd) : SlotConfig :=
  { type := c.arg 0 11 8, channel := c.arg 0 13 12, source := c.arg 0 19 16, actEn := c.flag 0 20, single := c.flag 0 21,
    notice := c.flag 0 22, shift := c.arg 1 19 0, holdoff := (c.word 2).toNat + c.arg 3 7 0 * 2 ^ 32, sheafMask := c.arg 4 7 0,
    armMask := (c.word 5).toNat, timerMask := (c.word 6).toNat, p0 := c.word 7, p1 := c.word 8, p2 := c.word 9, p3 := c.word 10 }

/-! ### Capture units (R336) -/

def setSheaf (n : Nat) (f : Sheaf → Sheaf) (s : State) : State :=
  { s with cap := { s.cap with sheaves := modAt s.cap.sheaves n f } }

def sheafOf (s : State) (n : Nat) : Sheaf := s.cap.sheaves.getD n default

def ringOf (s : State) (kind unit : Nat) : Option CapRing := s.cap.rings.find? fun r => r.kind == kind && r.unit == unit

def setRing (kind unit : Nat) (f : CapRing → CapRing) (s : State) : State :=
  { s with cap := { s.cap with rings := s.cap.rings.map (fun r => if r.kind == kind && r.unit == unit then f r else r) } }

/-- The record size of an engine's product output (R261, R336). -/
def recordSize (s : State) (e : Nat) : Nat :=
  let g := engineOf s e
  64 + ceilDiv ((if g.out.bins then g.cfg.binCount else g.cfg.cols) * (2 * 2 ^ g.out.format)) 64 * 64

/-- Elements per AU of a source (R336). -/
def elementsPerAu (s : State) (kind unit : Nat) : Nat :=
  match kind with
  | 0 => 524288
  | 1 => 262144
  | _ => 1048576 / recordSize s unit

/-- The size of an element of a source (R336). -/
def elementSize (s : State) (kind unit : Nat) : Nat :=
  match kind with
  | 0 => 2
  | 1 => 4
  | _ => recordSize s unit

/-- The ring that a CAP_SOURCE binds (R358), with no run. -/
def boundRing (s : State) (c : Cmd) : CapRing :=
  let k := c.arg 0 1 0
  let u := c.arg 0 10 8
  { kind := k, unit := u, handle := c.word 1, auOffset := c.arg 2 8 0, auCount := c.arg 2 24 16,
    depth := elementsPerAu s k u * c.arg 2 24 16, recSize := if k = 2 then recordSize s u else 0, run := none, records := [], past := none, bad := [] }

/-- The rings after a CAP_SOURCE (R358): handle 0 binds none. -/
def ringsAfter (s : State) (c : Cmd) : List CapRing :=
  s.cap.rings.filter (fun r => !(r.kind == c.arg 0 1 0 && r.unit == c.arg 0 10 8)) ++ (if c.word 1 = 0 then [] else [boundRing s c])

/-- The depth of a source's ring in the configuration at hand (R336). -/
def ringDepth (s : State) (kind unit : Nat) : Option Nat := (ringOf s kind unit).map fun r => elementsPerAu s kind unit * r.auCount

/-- The product output settings in a SPEC_OUTPUT (R266). -/
def productOutputOf (c : Cmd) : ProductOutput :=
  { bins := c.flag 0 8, format := c.arg 0 10 9, detect := c.arg 0 13 12, decim := c.arg 1 16 0 }

/-! ### Pending configurations (R743) -/

/-- The configuration fields that a pending command will leave, as far as another unit's check reads them. -/
def pendingConfig (c : Cmd) (s : State) : State :=
  match c.opcode with
  | 0x0001 => { s with mode := (Mode.ofCode (c.arg 0 2 0)).getD s.mode }
  | 0x0403 => (maskBits 8 (c.arg 0 7 0)).foldl (fun a t =>
      setTuner t (fun u => { u with snap := c.flag 0 8, decim := c.arg64 1, delayAdj := c.arg64 3, gainShift := c.arg 0 20 16 }) a) s
  | 0x0500 => (maskBits 8 (c.arg 0 7 0)).foldl (fun a e =>
      setEngine e (fun g => { g with cfg := engineConfigOf c, wbuf := ((wbufRegionsOf c).find? fun x => x.1 == e).map fun x => x.2, overrate := false, bindingLost := false }) a) s
  | 0x0502 => (maskBits 8 (c.arg 0 7 0)).foldl (fun a e => setEngine e (fun g => { g with out := productOutputOf c }) a) s
  | 0x0600 => setDens (c.arg 0 1 0) (fun d => { d with cfg := densityConfigOf c, mismatch := false }) s
  | 0x0601 => (maskBits 4 (c.arg 0 3 0)).foldl (fun a u => setDens u (fun d => { d with enabled := c.flag 0 8 }) a) s
  | 0x0604 => setSpgm (c.arg 0 2 0) (fun u => { u with cfg := spgmConfigOf c, overrate := false }) s
  | 0x0605 => (maskBits 8 (c.arg 0 7 0)).foldl (fun a u => setSpgm u (fun d => { d with enabled := c.flag 0 8 }) a) s
  | 0x0700 => { s with trig := { s.trig with slots := modAt s.trig.slots (c.arg 0 4 0) (fun t => { t with cfg := slotConfigOf c }) } }
  | 0x0800 => { s with cap := { s.cap with rings := ringsAfter s c } }
  | 0x0900 => { s with intg := { s.intg with cfg := intConfigOf c } }
  | 0x0904 => { s with th := modAt s.th (c.arg 0 1 0) (fun t => { t with cfg := thConfigOf c }) }
  | _ => s

/-- Every configuration that will be in force at index `e` or after it (R743): the one left by the commands effective at or
before `e`, and the one after each later command. -/
def futures (s : State) (e : Nat) : List State :=
  ((heldInOrder s).foldl (fun (acc : State × List State) c =>
    let t := pendingConfig c acc.1
    match c.eff with
    | some x => if x ≤ e then (t, [t]) else (t, acc.2 ++ [t])
    | none => (t, acc.2 ++ [t])) (s, [s])).2

/-! ### Capture segments (R337-R351) -/

/-- The records of a spectra segment (R340, R343): from PRE before the first record with key index k or later, LEN of them, as far as the
ring's run has them; whether the ring lacks some before, and how many the whole segment has; `none` while e0 has not come. -/
def segmentRecords (sh : SheafConfig) (k : Nat) (records : List RingRecord) : Option (List RingRecord × Bool × Nat) :=
  match records.findIdx? fun r => decide (k ≤ r.key / 2 ^ 32) with
  | some e0 => some ((records.drop (e0 - sh.pre)).take (sh.len - (sh.pre - e0)), decide (e0 < sh.pre), sh.len - (sh.pre - e0))
  | none => none

/-- The records a segment that closes keeps, whether the ring lacks some before, and whether it is whole: with no record at or after k, those from
PRE before the end of the run. -/
def earlyRecords (sh : SheafConfig) (k : Nat) (records : List RingRecord) : List RingRecord × Bool × Bool :=
  match segmentRecords sh k records with
  | some x => (x.1, x.2.1, decide (x.1.length = x.2.2))
  | none => (records.drop (records.length - sh.pre), decide (records.length < sh.pre), false)

/-- Close the open segment of a sheaf for a reason of R350, keeping elements with an index below `limit`, given the records of its ring; its
slot is completed by SEGMENT_CLOSE. -/
def closeSegmentOn (records : List RingRecord) (n reason limit : Nat) (s : State) : State :=
  let sh := sheafOf s n
  match sh.seg with
  | none => s
  | some g =>
    let g1 : Segment :=
      if sh.cfg.kind = 2 then
        let x := earlyRecords sh.cfg g.k (records.filter fun r => decide (r.key / 2 ^ 32 < limit))
        { g with records := x.1, count := x.1.length, preShort := x.2.1, close := some (if x.2.2 then 0 else reason),
                 start := ((x.1.head?.map fun r => r.key / 2 ^ 32).getD g.start),
                 stop := ((x.1.getLast?.map fun r => r.key / 2 ^ 32).getD g.k),
                 stamp := ((x.1.head?.map fun r => r.stamp).getD g.stamp) }
      else
        let grid := sourceGrid s sh.cfg.kind sh.cfg.unit g.k
        let c := min g.count (elementOn grid limit - g.first)
        { g with count := c, stop := indexOn grid (g.first + c - 1), close := some (if c = g.count then 0 else reason) }
    let idle := g1.close == some 4 || g1.close == some 5 || sh.finish
    setSheaf n (fun sh => { sh with seg := none, closing := sh.closing ++ [g1], sinceArm := sh.sinceArm + 1, lastEnd := some g1.stop, armed := sh.armed && !idle, finish := sh.finish && !idle }) s

/-- Close the open segment on the present run of its ring. -/
def closeSegment (n reason limit : Nat) (s : State) : State :=
  closeSegmentOn (((ringOf s (sheafOf s n).cfg.kind (sheafOf s n).cfg.unit).map fun r => r.records).getD []) n reason limit s

/-- The run of a ring ends at index `limit` (R337): the segments on it close for `reason`, and the run is kept for the triggers before that
index that are still to be decided (R316). -/
def endRun (kind unit reason limit : Nat) (s : State) : State :=
  let s1 := (List.range s.cap.sheaves.length).foldl (fun a n =>
    let sh := sheafOf a n
    if sh.cfg.kind == kind && sh.cfg.unit == unit then closeSegment n reason limit a else a) s
  setRing kind unit (fun r => { r with
    run := none, records := [], bad := [],
    past := match r.run with
      | some x => some { start := x, stop := limit, reason := reason, records := r.records }
      | none => r.past }) s1

/-- A new run of a ring starts at index `e` (R337). -/
def startRun (kind unit e : Nat) (s : State) : State := setRing kind unit (fun r => { r with run := some e, records := [] }) s

/-- The record size of an engine has changed (R337, R350): its ring takes the new size, and the sheaves on it return to IDLE
with SOURCE_CHANGED. -/
def resizeRing (e : Nat) (s : State) : State :=
  match ringOf s 2 e with
  | none => s
  | some r =>
    if r.recSize = recordSize s e then s
    else
      let s1 := setRing 2 e (fun r => { r with recSize := recordSize s e, depth := 1048576 / recordSize s e * r.auCount }) s
      { s1 with cap := { s1.cap with sheaves := s1.cap.sheaves.map (fun sh =>
          if sh.configured && sh.cfg.kind == 2 && sh.cfg.unit == e then { sh with armed := false, finish := false, sourceChanged := true } else sh) } }

/-! ### Trigger slots (R303, R304, R317) -/

def setSlot (c : Nat) (f : TrigSlot → TrigSlot) (s : State) : State :=
  { s with trig := { s.trig with slots := modAt s.trig.slots c f } }

def slotOf (s : State) (c : Nat) : TrigSlot := s.trig.slots.getD c default

/-- A source reports to the condition slots (R304-R310). -/
def pushEvent (x : TrigEvent) (s : State) : State :=
  if modeRunsProducts (runMode s) then { s with trig := { s.trig with events := s.trig.events ++ [x] } } else s

/-- The source ends at index `e`: its slots are false from there (R304, R309, R317). -/
def stopEvent (source e : Nat) : TrigEvent :=
  { source := source, index := e, stamp := 0, seq := 0, stop := true, invalid := false, cols := [], viol := [], flags := none }

/-- The engine that a mask comparator takes at index `k` (R306, R308). -/
def maskEngine (s : State) (ch k : Nat) : Nat :=
  match ((s.trig.masks.getD ch default).settings.filter fun x => decide (x.1 ≤ k)).getLast? with
  | some x => if x.2.zoom then ch + 4 else ch
  | none => ch

/-- The grid of an engine ends at index `e`: so do the reports of what takes its spectra. -/
def endEngineEvents (g e : Nat) (s : State) : State :=
  let ch := engineChannel g
  let th := s.th.getD ch default
  let s1 := pushEvent (stopEvent g e) s
  let s2 := if (if th.cfg.zoom then ch + 4 else ch) == g then pushEvent (stopEvent (8 + ch) e) s1 else s1
  if maskEngine s ch (e - 1) == g then pushEvent (stopEvent (12 + ch) e) s2 else s2

/-! ### Threshers (R379) -/

def setTh (c : Nat) (f : Thresher → Thresher) (s : State) : State := { s with th := modAt s.th c f }

def thEngine (c : Nat) (t : Thresher) : Nat := if t.cfg.zoom then c + 4 else c

/-- A Thresher restarts (R379): the next valid spectrum is the first one. Log entry 48 (DEDUCED, unsafe). -/
def restartTh (c : Nat) (s : State) : State := setTh c (fun t => { t with valid := 0, restarts := satAdd 32 t.restarts 1 }) s

/-- The Thresher on engine `g` restarts with its grid, where it runs. -/
def restartThOn (g : Nat) (s : State) : State :=
  let c := engineChannel g
  let t := s.th.getD c default
  if thEngine c t == g && t.enabled && modeRunsProducts (runMode s) then restartTh c s else s

/-! ### Integration frames (R363-R374, R390) -/

/-- The channels of product p (R363). -/
def productChannels (p : Nat) : Nat × Nat :=
  [(0, 0), (1, 1), (2, 2), (3, 3), (0, 1), (0, 2), (0, 3), (1, 2), (1, 3), (2, 3)].getD p (0, 0)

def isCross (p : Nat) : Bool := decide (4 ≤ p)

/-- The channels that the enabled products name, in rising order. -/
def intChannels (products : Nat) : List Nat :=
  (List.range 4).filter fun ch =>
    (maskBits 10 products).any fun p => (productChannels p).1 == ch || (productChannels p).2 == ch

def intEngines (c : IntConfig) : List Nat := (intChannels c.products).map fun ch => if c.zoom then ch + 4 else ch

/-- NOUT (R364). -/
def IntConfig.nout (c : IntConfig) : Nat := c.nbins / 2 ^ c.sumLog2

/-- Bytes per output bin of product p (R366). -/
def productBytes (p : Nat) : Nat := if isCross p then 16 else 8

/-- Bytes per output bin of all products, counts included (R366). -/
def IntConfig.binBytes (c : IntConfig) : Nat :=
  ((maskBits 10 c.products).map fun p => productBytes p + (if c.exclude then 4 else 0)).sum

/-- The arrays of a half (R372): product, count array or not, and byte offset. -/
def intArrays (c : IntConfig) : List (Nat × Bool × Nat) :=
  let ps := maskBits 10 c.products
  let items := ps.map (fun p => (p, false, ceilDiv (productBytes p * c.nout) 64 * 64))
    ++ (if c.exclude then ps.map (fun p => (p, true, ceilDiv (4 * c.nout) 64 * 64)) else [])
  (items.foldl (fun (acc : List (Nat × Bool × Nat) × Nat) x => (acc.1 ++ [(x.1, x.2.1, acc.2)], acc.2 + x.2.2)) ([], 0)).1

/-- H, the size of a half (R372). -/
def IntConfig.half (c : IntConfig) : Nat :=
  let ps := maskBits 10 c.products
  (ps.map fun p => ceilDiv (productBytes p * c.nout) 64 * 64 + (if c.exclude then ceilDiv (4 * c.nout) 64 * 64 else 0)).sum

/-- The set rate f_in / h of an engine in the configuration at hand. -/
def setRate (s : State) (e : Nat) : Rat :=
  let g := (engineOf s e).cfg
  inputRate (fsOf s.time) g.tuner (s.tuners.getD (engineTuner e) default).decim / ((max 1 g.hop : Nat) : Rat)

/-- ACC_RATE in bytes per second (R366). -/
def accRate (s : State) (c : IntConfig) : Rat := ((c.binBytes * c.nout : Nat) : Rat) * setRate s ((intEngines c).headD 0)

/-- R364 with R23, R366 and R367 hold for the source engines as configured. Log entry 45 (DEDUCED, unsafe). -/
def intSourcesOk (s : State) (c : IntConfig) : Bool :=
  let es := intEngines c
  let e0 := es.headD 0
  let g0 := (engineOf s e0).cfg
  let k : Nat → Nat := fun e => (s.tuners.getD (engineTuner e) default).decim
  es.all (fun e =>
      let g := (engineOf s e).cfg
      g.tuner == g0.tuner && g.log2n == g0.log2n && g.window == g0.window && g.hop == g0.hop && (!g.tuner || k e == k e0)
        && decide (g.binStart ≤ c.firstBin) && decide (c.firstBin + c.nbins ≤ g.binStart + g.binCount))
    && decide (accRate s c ≤ 2048000000000)
    && decide ((c.frameLen : Rat) * setRate s e0 / (fsOf s.time : Rat) ≤ 4294967295)

def setInt (f : IntUnit → IntUnit) (s : State) : State := { s with intg := f s.intg }

/-- The integration frame header (R375). -/
def intHeader (s : State) (f : IntFrame) (last close : Nat) : List Word :=
  let u := s.intg
  let c := u.cfg
  let lead := (intChannels c.products).headD 0
  let e := if c.zoom then lead + 4 else lead
  let b : Bool → Nat → Nat := fun x i => if x then 2 ^ i else 0
  let sat := (f.sat.map fun x => (x.1, x.2 / 2)).eraseDups.length
  [ BitVec.ofNat 32 (c.products + u.seq % 2 * 2 ^ 10 + b c.exclude 11 + b c.zoom 12 + b f.partialFrame 13
      + b (decide (0 < f.taintedSets) || f.gap) 14 + b f.flags.holdover 15 + b f.flags.slew 16 + b f.flags.cal 17
      + b f.flags.ovr 18 + b f.flags.nbr 19 + b f.flags.fade 20 + b f.retune 21 + close * 2 ^ 24), lo32 u.seq ]
  ++ dtsWords (stampOf s lead (f.start * 2 ^ 32 : Nat) (engineDelay s e f.start)) ++ u64Words f.start ++ u64Words last
  ++ [ BitVec.ofNat 32 f.sets, BitVec.ofNat 32 f.invalidSets, BitVec.ofNat 32 f.taintedSets,
       BitVec.ofNat 32 (s.time.gen + min 65535 f.warmupSets * 2 ^ 16), BitVec.ofNat 32 (c.nout + c.sumLog2 * 2 ^ 19 + c.accShift * 2 ^ 24),
       BitVec.ofNat 32 (c.firstBin + u.configGen * 2 ^ 24), BitVec.ofNat 32 sat ]

/-- Charge the sets that an unlock gap took from the open frame (R368). -/
def chargeGap (u : IntUnit) : IntUnit :=
  match u.gap, u.frame with
  | some g, some f =>
    match g.stop with
    | some stop =>
      let hi := min stop (f.stop * 2 ^ 32)
      let n := if hi ≤ g.key then 0 else ceilDiv (hi - g.key) (max 1 g.hop)
      let next := g.key + n * g.hop
      { u with frame := some { f with taintedSets := f.taintedSets + n, gap := f.gap || decide (0 < n) }, gap := if stop ≤ next then none else some { g with key := next } }
    | none => u
  | _, _ => u

/-- Open the frame of the grid that contains index `x` (R367). -/
def openIntFrame (x : Nat) (s : State) : State :=
  let c := s.intg.cfg
  let r := (((x : Int) - (if c.anchor then s.intg.base else 0 : Nat)) % (max 1 c.frameLen : Nat)).toNat
  let f : IntFrame :=
    { start := x, stop := x + c.frameLen - r, partialFrame := r != 0, sets := 0, invalidSets := 0, taintedSets := 0, warmupSets := 0,
      flags := noFlags, retune := false, gap := false, sat := [] }
  setInt (fun u => chargeGap { u with frame := some f, members := u.members.filter (fun m => decide (x * 2 ^ 32 ≤ m.key)) }) s

/-- Close the open frame (R370, R374, R390): its header goes to its half and to the MQ, and INT_FRAME follows where due. -/
def closeIntFrame (close last : Nat) (s : State) : State :=
  match s.intg.frame with
  | none => s
  | some f =>
    let u := s.intg
    let h := intHeader s f last close
    let due := match u.lastNotice with
      | some l => msApart s 1 last l
      | none => true
    let s1 := setInt (fun u => { u with
      frame := none, seq := (u.seq + 1) % 2 ^ 32,
      header0 := if u.seq % 2 = 0 then h else u.header0, header1 := if u.seq % 2 = 1 then h else u.header1,
      queue := if mqTakes s 3 then u.queue ++ [h] else u.queue, frames := satAdd 32 u.frames 1,
      satFrames := if f.sat.isEmpty then u.satFrames else satAdd 32 u.satFrames 1 })
      (offerItem 6 0 u.seq f.start (.half h u.cfg.handle (u.cfg.offset + u.seq % 2 * u.cfg.half) u.cfg.half u.configGen) s)
    if !u.cfg.notice then s1
    else if due then
      notify 0x0901 [lo32 u.seq, BitVec.ofNat 32 (u.seq % 2 + (if decide (0 < f.taintedSets) || f.gap then 2 else 0) + close * 2 ^ 8),
          BitVec.ofNat 32 f.sets, BitVec.ofNat 32 u.withheld] last
        (setInt (fun u => { u with lastNotice := some last, withheld := 0 }) s1)
    else setInt (fun u => { u with withheld := u.withheld + 1 }) s1

/-- End the frame early at index `i` (R370). The members of later sets wait for what comes next. -/
def stopInt (close i : Nat) (s : State) : State :=
  setInt (fun u => { u with members := u.members.filter (fun m => decide (i * 2 ^ 32 ≤ m.key)), gap := none }) (closeIntFrame close (i - 1) s)

/-- The CLOSE of a frame that ends at index `i`: NORMAL on its boundary (R370). -/
def closeCode (s : State) (i code : Nat) : Nat :=
  match s.intg.frame with
  | some f => if f.stop = i then 0 else code
  | none => code

end Sys2Proof.Machine
end

