-- ==== Sys2Proof/Machine/Decide.lean ====
section
/-! DEFINITION. The trigger unit's decisions (R298-R325): comparators, spectral states, timers, patterns, the decision of an index, and
the acceptance of a trigger by a sheaf (R340-R343). The unit takes its inputs in index order, up to what every slot has reported. -/

namespace Sys2Proof.Machine

/-! ### Capture segments open on a trigger (R340-R348) -/

/-- REARM of R341 in samples. -/
def rearm (s : State) : Nat := ceilDiv (32 * fsOf s.time) 100000000

/-- The entry size of a lane (R352). -/
def laneEntry (kind : Nat) (l : Lane) : Nat :=
  match l.kind with
  | 0 => 8
  | 1 => 4
  | 2 => if kind = 0 then 2 else 4
  | _ => 8

/-- The byte offsets of the parts of a slot (R346): full data, lanes, and the trailer, whose end is the stride. -/
def slotParts (esize : Nat) (c : SheafConfig) : List Nat × Nat :=
  let full := if c.full then ceilDiv (c.len * esize) 64 * 64 else 0
  c.lanes.foldl (fun (acc : List Nat × Nat) l => (acc.1 ++ [acc.2], acc.2 + ceilDiv (l.cap * laneEntry c.kind l) 64 * 64)) ([], 64 + full)

def segmentStride (esize : Nat) (c : SheafConfig) : Nat := (slotParts esize c).2 + 64

/-- The byte offset of the slot of segment `number` (R344). -/
def segmentBase (esize : Nat) (c : SheafConfig) (number : Nat) : Nat := c.offset + number % max 1 c.nseg * segmentStride esize c

/-- The oldest element that a ring still holds of a run (R337, R343), when elements below `stop` have been delivered. -/
def oldestElement (s : State) (r : CapRing) (run stop k : Nat) : Nat :=
  let grid := sourceGrid s r.kind r.unit k
  max (elementOn grid run) (elementOn grid stop - r.depth)

/-- The segment that a trigger at `k` opens on a sample source (R340, R343). -/
def sampleSegment (s : State) (sh : Sheaf) (oldest k trigSeq : Nat) : Segment :=
  let c := sh.cfg
  let grid := sourceGrid s c.kind c.unit k
  let e0 := elementOn grid k
  let short := decide (e0 < oldest + c.pre)
  let first := if short then oldest else e0 - c.pre
  let last := e0 + c.len - c.pre - 1
  { k := k, trigSeq := trigSeq, number := sh.next, first := first, start := indexOn grid first,
    count := e0 + c.len - c.pre - first, stop := indexOn grid last, preShort := short,
    stamp := stampOn s c.unit grid first, gen := s.time.gen, esize := sh.esize, records := [], close := none }

/-- The segment that a trigger at `k` opens on a spectra source; its records follow. -/
def recordSegment (s : State) (sh : Sheaf) (k trigSeq : Nat) : Segment :=
  { k := k, trigSeq := trigSeq, number := sh.next, first := 0, start := k, count := 0, stop := k, preShort := false, stamp := 0, gen := s.time.gen,
    esize := sh.esize, records := [], close := none }

/-- A segment of samples whose END lies before `k` is no longer open there (R341), even if its slot is still to be completed. -/
def endBefore (k n : Nat) (s : State) : State :=
  match (sheafOf s n).seg with
  | some g => if (sheafOf s n).cfg.kind != 2 && decide (g.stop < k) then closeSegment n 0 k s else s
  | none => s

/-- The run of a ring that holds index `k` (R337): its start, the index up to which it has elements, and how it ended if it has. -/
def runAt (s : State) (r : CapRing) (k : Nat) : Option (Nat × Nat × Option PastRun) :=
  let past := match r.past with
    | some p => if p.start ≤ k && k < p.stop then some (p.start, p.stop, some p) else none
    | none => none
  match r.run with
  | some x => if x ≤ k then some (x, s.index + 1, none) else past
  | none => past

/-- A trigger at `k` reaches sheaf `n` (R341-R343, R348): a segment opens, or the trigger is IGNORED. Where the run has ended since, the segment
closes with it. Log entry 50 (DEDUCED, unsafe). -/
def sheafTrigger (k trigSeq n : Nat) (s0 : State) : State :=
  let s := endBefore k n s0
  let sh := sheafOf s n
  if !sh.armed || sh.finish then s
  else
    let rearmed := match sh.lastEnd with
      | some e => decide (e + rearm s < k)
      | none => true
    let ring := ringOf s sh.cfg.kind sh.cfg.unit
    match ring, ring.bind (fun r => runAt s r k) with
    | some r, some x =>
      if decide (sh.armIndex ≤ k) && sh.seg.isNone && rearmed && (sh.cfg.ring || decide (sh.next < sh.cfg.nseg)) then
        let g := if sh.cfg.kind = 2 then recordSegment s sh k trigSeq
          else sampleSegment s sh (oldestElement s r x.1 x.2.1 k) k trigSeq
        let trailer := segmentBase sh.esize sh.cfg sh.next + segmentStride sh.esize sh.cfg - 64
        let s1 := writeAt sh.cfg.handle (trailer + 4) (wordBytes 0) (setSheaf n (fun sh => { sh with seg := some g, next := (sh.next + 1) % 2 ^ 32 }) s)
        match x.2.2 with
        | some p => closeSegmentOn p.records n p.reason p.stop s1
        | none => s1
      else setSheaf n (fun sh => { sh with ignored := satAdd 32 sh.ignored 1 }) s
    | _, _ => setSheaf n (fun sh => { sh with ignored := satAdd 32 sh.ignored 1 }) s

/-- CAP_ARM at one sheaf (R339, R351, R360). -/
def armSheaf (e : Nat) (arm finish : Bool) (n : Nat) (s : State) : State :=
  let sh := sheafOf s n
  if arm then
    setSheaf n (fun sh => { sh with armed := true, armIndex := e, next := 0, sinceArm := 0, lastEnd := none, finish := false }) (closeSegment n 4 e s)
  else if !sh.armed then s
  else if finish then
    (if sh.seg.isSome then setSheaf n (fun sh => { sh with finish := true }) s else setSheaf n (fun sh => { sh with armed := false }) s)
  else setSheaf n (fun sh => { sh with armed := false, finish := false }) (closeSegment n 4 e s)

/-! ### Comparators (R302, R303, R305) -/

/-- The comparator sets on a value. -/
def compSets (compare : Nat) (thresh v : Int) : Bool :=
  match compare with
  | 0 => decide (thresh ≤ v)
  | 1 => decide (v ≤ thresh)
  | _ => decide (thresh ≤ v.natAbs)

/-- The comparator clears on a value. -/
def compClears (compare : Nat) (thresh hyst v : Int) : Bool :=
  match compare with
  | 0 => decide (v < thresh - hyst)
  | 1 => decide (thresh + hyst < v)
  | _ => decide ((v.natAbs : Int) < thresh - hyst)

/-- The comparator's new state, given its old one. -/
def compNext (compare : Nat) (thresh hyst v : Int) (was : Bool) : Bool :=
  if compSets compare thresh v then true else if compClears compare thresh hyst v then false else was

/-- The unit's slots run (R38). -/
def trigRunning (s : State) : Bool := modeRunsProducts (runMode s)

/-- Add a report to a slot. -/
def report (index : Nat) (value : Bool) (stamp : Nat) (data : List Word) (t : TrigSlot) : TrigSlot :=
  { t with reports := t.reports ++ [{ at_ := index + t.cfg.shift, value := value, stamp := stamp, data := data }] }

/-- `n` inputs of a LEVEL or EDGE slot with one value, from input `a` on (R302, R303): the comparator, the run of WIDTH inputs, and the reports.
`idx` and `stamp` give the index and the stamp of an input. Log entry 49 (DEDUCED, unsafe). -/
def levelRun (idx stamp : Nat → Nat) (v : Int) (inv : Bool) (a n : Nat) (t : TrigSlot) : TrigSlot :=
  if n = 0 then t
  else if inv then report (idx a) false 0 [] { t with comp := false, width := 0, blanked := satAdd 32 t.blanked n }
  else
    let thresh : Int := if t.cfg.source = 0 then signed 32 t.cfg.p1.toNat else t.cfg.p1.toNat
    let on := compNext (field t.cfg.p0 1 0) thresh t.cfg.p2.toNat v t.comp
    let full := field t.cfg.p0 31 16 + 1
    let start := if t.width = 0 then idx a else t.runStart
    if on then
      let t1 := { t with comp := true, width := min (t.width + n) 65537, runStart := start }
      if t.width < full && full ≤ t.width + n then
        let i := a + (full - t.width - 1)
        report (idx i) true (stamp i) ([BitVec.ofInt 32 v] ++ u64Words start) t1
      else t1
    else
      let t1 := { t with comp := false, width := 0 }
      if t.comp && full ≤ t.width then report (idx a) false 0 [] t1 else t1

/-- The ranges between the points of a list in [lo, hi), and its ends. -/
def pieces (lo hi : Nat) (points : List Nat) : List (Nat × Nat) :=
  (withNext (sortNats (lo :: hi :: points.filter fun p => decide (lo < p) && decide (p < hi)))).filterMap fun x =>
    match x.2 with
    | some y => some (x.1, y)
    | none => none

/-- The ends of ranges. -/
def edgesOf (l : List (Nat × Nat)) : List Nat := l.flatMap fun x => [x.1, x.2]

/-- The wideband inputs of a LEVEL or EDGE slot with indices in [lo, hi). Where no input but 0 V reaches the stream, its value is constant. -/
def feedWide (s : State) (lo hi : Nat) (t : TrigSlot) : TrigSlot :=
  let ch := t.cfg.channel
  let w := wideTags s ch
  let lit := (litIndices s ch lo hi).flatMap fun k => [k, k + 1]
  (pieces lo hi (lit ++ edgesOf w.inv)).foldl (fun t x =>
    levelRun id (stampOn s ch none) (wideValue s ch w x.1) (inRanges w.inv x.1) x.1 (x.2 - x.1) t) t

/-- I^2 + Q^2. -/
def squareSum (x : Int × Int) : Int := x.1 * x.1 + x.2 * x.2

/-- The outputs of one tuner grid with indices in [lo, hi), and the end of the grid if it lies in (lo, hi] (R303). -/
def feedGrid (s : State) (u lo hi : Nat) (g : TunerGrid) (t : TrigSlot) : TrigSlot :=
  let stop := min hi (g.stop.getD hi)
  let r := g.outputs (max lo g.start * 2 ^ 32) (stop * 2 ^ 32)
  let w := wideTags s (u / 2)
  let tags := tunerTags s u g
  let t1 := ((List.range (r.2 - r.1)).map fun i => r.1 + i).foldl (fun t m =>
    levelRun (indexOn (some g)) (stampOn s u (some g)) (squareSum (tunerValue s u w tags g m)) (inRanges tags.inv m) m 1 t) t
  match g.stop with
  | some e => if lo < e && e ≤ hi then report e false 0 [] { t1 with comp := false, width := 0 } else t1
  | none => t1

/-- The tuner whose outputs a LEVEL or EDGE slot takes. -/
def slotTuner (c : SlotConfig) : Option Nat :=
  if c.type ≤ 1 && 1 ≤ c.source && c.source ≤ 2 then some (2 * c.channel + c.source - 1) else none

/-- A spectrum's state for a spectral slot (R304-R309): the value and its data words. -/
def spectralReport (x : TrigEvent) (value : Bool) (data : List Word) (t : TrigSlot) : TrigSlot :=
  if x.invalid then report x.index false 0 [] { t with comp := false, blanked := satAdd 32 t.blanked 1 }
  else report x.index value x.stamp data t

/-- BAND_POWER on one spectrum (R305). -/
def bandPower (x : TrigEvent) (t : TrigSlot) : TrigSlot :=
  let lo := field t.cfg.p1 15 0
  let hi := field t.cfg.p1 31 16
  if x.cols.length ≤ hi then spectralReport x false [] t
  else
    let l := log16 (((x.cols.drop lo).take (hi + 1 - lo)).foldl Dyad.add Dyad.zero)
    let on := compNext (field t.cfg.p0 0 0) (signed 16 (field t.cfg.p2 15 0)) (field t.cfg.p2 27 16) l t.comp
    spectralReport x on [BitVec.ofNat 32 (unsign 16 l), lo32 x.seq, 0] { t with comp := on }

/-! ### The frequency mask (R306-R308) -/

/-- An entry of T as a signed number; 32,767 where nothing is listed. -/
def maskEntry (m : TrigMask) (i : Nat) : Int := signed 16 (sparseGet 32767 m.table i)

/-- The limit of column j for a source with `c` columns (R306); `none`: unchecked. -/
def maskLimit (m : TrigMask) (x : MaskSettings) (c j : Nat) : Option Int :=
  let t : Nat → Int := fun i => maskEntry m (x.base + i)
  let num := j * (x.npts - 1)
  let j0 := if x.npts = 1 || c ≤ 1 then 0 else num / (c - 1)
  let rem := if x.npts = 1 || c ≤ 1 then 0 else num % (c - 1)
  if t j0 = -32768 || (rem ≠ 0 && t (j0 + 1) = -32768) then none
  else
    let lim := if rem = 0 then t j0
      else t j0 + (2 * (rem : Int) * (t (j0 + 1) - t j0) + (c - 1 : Nat)) / (2 * (c - 1) : Nat)
    some (max (-32767) (min 32767 (lim + x.offset)))

/-- The violating columns of a spectrum (R306): column and L - limit'. -/
def maskViolations (m : TrigMask) (x : MaskSettings) (cols : List Dyad) : List (Nat × Int) :=
  cols.zipIdx.filterMap fun p =>
    match maskLimit m x cols.length p.2 with
    | some lim =>
      let l := log16 p.1
      if (if x.below then decide (l < lim) else decide (lim < l)) then some (p.2, l - lim) else none
    | none => none

/-- The settings of a comparator for a key index (R308). -/
def maskSettingsAt (m : TrigMask) (key : Nat) : Option MaskSettings :=
  ((m.settings.filter fun x => decide (x.1 * 2 ^ 32 ≤ key)).getLast?).map fun x => x.2

/-- MASK on one spectrum (R307). -/
def maskState (x : TrigEvent) (t : TrigSlot) : TrigSlot :=
  let lo := field t.cfg.p1 15 0
  let hi := field t.cfg.p1 31 16
  if x.cols.length ≤ hi then spectralReport x false [] t
  else
    let v := x.viol.filter fun y => decide (lo ≤ y.1) && decide (y.1 ≤ hi)
    let y := v.headD (0, 0)
    spectralReport x (decide (field t.cfg.p2 16 0 ≤ v.length))
      [BitVec.ofNat 32 (y.1 + unsign 16 (max (-32767) (min 32767 y.2)) * 2 ^ 16), BitVec.ofNat 32 v.length, lo32 x.seq] t

/-- THRESHER on one spectrum (R309): lost flags give false. -/
def thState (x : TrigEvent) (t : TrigSlot) : TrigSlot :=
  let v := (x.flags.getD []).filter fun b => decide (field t.cfg.p1 20 0 ≤ b) && decide (b ≤ field t.cfg.p2 20 0)
  spectralReport x (x.flags.isSome && decide (field t.cfg.p3 20 0 ≤ v.length))
    [BitVec.ofNat 32 v.length, BitVec.ofNat 32 (v.headD 0), lo32 x.seq] t

/-! ### What a slot takes, in index order (R304, R310, R316) -/

/-- The source whose reports a slot takes (R298); `none` for a sample stream, a timer or a pattern. -/
def slotSource (c : SlotConfig) : Option Nat :=
  match c.type with
  | 2 => some (c.channel + c.source * 4)
  | 3 => some (12 + c.channel)
  | 4 => some (8 + c.channel)
  | 5 => some (16 + c.source)
  | _ => none

/-- A slot takes a report of its source. -/
def takeEvent (x : TrigEvent) (t : TrigSlot) : TrigSlot :=
  if x.stop then report x.index false 0 [] { t with comp := false }
  else match t.cfg.type with
    | 2 => bandPower x t
    | 3 => maskState x t
    | 4 => thState x t
    | _ => report x.index true x.stamp [BitVec.ofNat 32 t.cfg.source, lo32 x.seq, 0] t

/-- A slot takes every input of its source with an index below `hi` that it has not taken. Log entry 49 (DEDUCED, unsafe). -/
def feedSlot (s : State) (hi : Nat) (t : TrigSlot) : TrigSlot :=
  if t.st == .disabled || hi ≤ t.fed then t
  else
    let t1 := match slotSource t.cfg with
      | some src => (s.trig.events.filter fun (x : TrigEvent) => x.source == src && decide (t.fed ≤ x.index) && decide (x.index < hi)).foldl (fun (a : TrigSlot) (x : TrigEvent) => takeEvent x a) t
      | none =>
        if 1 < t.cfg.type then t
        else match slotTuner t.cfg with
          | some u => (s.tuners.getD u default).grids.reverse.foldl (fun t1 g => feedGrid s u t.fed hi g t1) t
          | none => feedWide s t.fed hi t
    { t1 with fed := hi }

/-! ### Timers (R311) -/

/-- The source indices of a PERIODIC timer in (lo, hi]. -/
def periodicCount (period phase lo hi : Nat) : Nat :=
  let upTo : Nat → Nat := fun x => if phase ≤ x then (x - phase) / (max 1 period) + 1 else 0
  upTo hi - upTo lo

def timerPeriod (c : SlotConfig) : Nat := c.p0.toNat + c.p1.toNat * 2 ^ 32
def timerPhase (c : SlotConfig) : Nat := c.p2.toNat + c.p3.toNat * 2 ^ 32

/-- A start of a ONE_SHOT timer at index `k` (R311). -/
def startTimer (k : Nat) (t : TrigSlot) : TrigSlot :=
  if t.cfg.type != 6 || t.cfg.source = 0 || t.st == .disabled || (t.cfg.source = 1 && t.timerAt.isSome) then t
  else { t with timerAt := some (k + timerPeriod t.cfg) }

/-- A timer slot at index `k`: its assertion, if one falls there, becomes a report, and the source assertions are counted
(R311, R321, R323). -/
def runTimer (k : Nat) (t : TrigSlot) : TrigSlot :=
  if t.cfg.type != 6 || t.st == .disabled || k < t.cfg.shift then t
  else
    let i := k - t.cfg.shift
    let asserting (n : Nat) (t : TrigSlot) : TrigSlot :=
      let a := (t.asserts + n) % 2 ^ 64
      report i true (i * 2 ^ 32) (u64Words a ++ [0]) { t with asserts := a }
    if t.cfg.source = 0 then
      let n := periodicCount (timerPeriod t.cfg) (timerPhase t.cfg) t.counted i
      let t1 := { t with counted := max t.counted i }
      if i % max 1 (timerPeriod t.cfg) = timerPhase t.cfg && t.counted < i then asserting n t1
      else { t1 with asserts := (t1.asserts + n) % 2 ^ 64 }
    else match t.timerAt with
      | some a => if a = i then asserting 1 { t with timerAt := none } else if a < i then { t with timerAt := none } else t
      | none => t

/-- The next index after `k` at which a timer slot asserts. -/
def timerNext (k : Nat) (t : TrigSlot) : Option Nat :=
  if t.cfg.type != 6 || t.st == .disabled then none
  else if t.cfg.source = 0 then
    let p := max 1 (timerPeriod t.cfg)
    let lo := max (t.counted + 1) (k + 1 - t.cfg.shift)
    let i := if lo ≤ timerPhase t.cfg then timerPhase t.cfg else timerPhase t.cfg + ceilDiv (lo - timerPhase t.cfg) p * p
    some (i + t.cfg.shift)
  else t.timerAt.map fun a => a + t.cfg.shift

/-! ### Deciding an index (R312-R325) -/

/-- The slot's state kind is a pulse (R298). -/
def isPulse (c : SlotConfig) : Bool := c.type == 1 || c.type == 5 || c.type == 6

/-- The reports of a slot up to index `k` take effect (R299): `q` and the last index at which it held. Log entry 49 (DEDUCED, unsafe). -/
def takeReports (k : Nat) (t : TrigSlot) : TrigSlot :=
  let now := t.reports.filter fun r => decide (r.at_ ≤ k)
  let rest := t.reports.filter fun r => !decide (r.at_ ≤ k)
  if isPulse t.cfg then
    let hit := now.filter fun r => r.value
    match hit.getLast? with
    | some r => { t with reports := rest, q := r.at_ == k, lastTrue := some r.at_, stamp := r.stamp, data := r.data }
    | none => { t with reports := rest, q := false }
  else
    let t1 := now.foldl (fun t r =>
      if r.value == t.q then t
      else if r.value then { t with q := true, stamp := r.stamp, data := r.data }
      else { t with q := false, lastTrue := if r.at_ = 0 then t.lastTrue else some (r.at_ - 1) }) t
    if t1.q then { t1 with reports := rest, lastTrue := some k } else { t1 with reports := rest }

/-- The held state at index `k` of a slot with state `q` there (R312). Log entry 49 (DEDUCED, unsafe). -/
def heldAt (w k : Nat) (q : Bool) (lastTrue : Option Nat) : Bool :=
  q || (match lastTrue with
    | some j => decide (k < j + w)
    | none => false)

/-- A slot as it stands before and at the index under decision. -/
structure SlotView where
  before : TrigSlot
  now : TrigSlot

/-- The held states of the non-pattern slots at k - 1 and at k, for window `w`. -/
def heldBoth (w k : Nat) (v : SlotView) : Bool × Bool :=
  (heldAt w (k - 1) v.before.q v.before.lastTrue, heldAt w k v.now.q v.before.lastTrue)

/-- The pattern state (R313) before and at `k`, and the slots of CARE whose held state changed: number, rise. -/
def patternView (k : Nat) (views : List SlotView) (c : SlotConfig) : Bool × Bool × List (Nat × Bool) :=
  let held := views.map (heldBoth (field c.p2 20 0) k)
  let care := maskBits 32 c.p0.toNat
  let ok (g : Bool × Bool → Bool) : Bool := care.all fun i => g (held.getD i (false, false)) == c.p1.toNat.testBit i
  (ok (fun h => h.1), ok (fun h => h.2),
    care.filterMap fun i =>
      let h := held.getD i (false, false)
      if h.1 == h.2 then none else some (i, h.2))

/-- What a slot contributes at the decision of `k`: the slot, its rise, and the pattern's changed slots. -/
structure Verdict where
  slot : TrigSlot
  rise : Bool
  forced : Bool
  fires : Bool
  changed : List (Nat × Bool)

/-- The verdict on slot `i` (R301, R313). -/
def verdict (k : Nat) (views : List SlotView) (forced : List Nat) (i : Nat) (v : SlotView) : Verdict :=
  let isPat := v.now.cfg.type == 7
  let p := patternView k views v.now.cfg
  let q := if isPat then v.now.st != .disabled && p.2.1 else v.now.q
  let was := if isPat then v.now.st != .disabled && decide (v.now.since < k) && p.1 else v.before.q
  let rise := q && !was
  let armed := v.now.st == .armed
  let forcedNow := armed && forced.contains i
  let free := match v.now.lastFiring with
    | some f => decide (f + v.now.cfg.holdoff ≤ k)
    | none => true
  let natural := armed && rise && decide (v.now.armIndex < k)
  let slot := { v.now with q := q, heldOff := if natural && !free && !forcedNow then satAdd 32 v.now.heldOff 1 else v.now.heldOff }
  { slot := slot, rise := rise, forced := forcedNow, fires := forcedNow || (natural && free), changed := p.2.2 }

/-- What firing does to a slot (R301, R319): its holdoff starts, SINGLE disarms it, and it counts. -/
def firedSlot (k : Nat) (winner : Option Nat) (i : Nat) (t : TrigSlot) : TrigSlot :=
  { t with lastFiring := some k, st := if t.cfg.single then .enabled else t.st, firings := satAdd 32 t.firings 1,
           wins := if winner == some i then satAdd 32 t.wins 1 else t.wins,
           suppressed := if t.cfg.actEn && winner != some i then satAdd 32 t.suppressed 1 else t.suppressed }

/-- The stamp slot, its type, stamp and data words (R321, R323). -/
def stampOfWinner (k w : Nat) (vs : List Verdict) : Nat × Nat × Nat × List Word :=
  match vs[w]? with
  | none => (w, 15, k * 2 ^ 32, [0, 0, 0])
  | some v =>
    if v.forced then (w, 15, k * 2 ^ 32, [0, 0, 0])
    else if v.slot.cfg.type = 7 then
      match v.changed.head? with
      | some (i, true) => (match vs[i]? with
        | some u => (i, u.slot.cfg.type, u.slot.stamp, u.slot.data)
        | none => (w, 7, k * 2 ^ 32, [0, 0, 0]))
      | _ => (w, 7, k * 2 ^ 32, [0, 0, 0])
    else (w, v.slot.cfg.type, v.slot.stamp, v.slot.data)

/-- The event record (R322). -/
def eventRecord (s : State) (k w seq fmask : Nat) (noticed : Bool) (vs : List Verdict) : List Word :=
  let x := stampOfWinner k w vs
  let b : Bool → Nat → Nat := fun v i => if v then 2 ^ i else 0
  let forced := (vs[w]?.map fun v => v.forced).getD false
  let note := notesOver s k (k + 1)
  let sheaves := (vs[w]?.map fun v => v.slot.cfg.sheafMask).getD 0
  [ BitVec.ofNat 32 (w + b forced 5 + b note.holdover 6 + b note.slew 7 + b note.cal 8 + b noticed 9
      + s.time.gen * 2 ^ 16), BitVec.ofNat 32 fmask, lo32 seq ]
  ++ dtsWords x.2.2.1 ++ u64Words k ++ [BitVec.ofNat 32 (sheaves + x.1 * 2 ^ 8 + x.2.1 * 2 ^ 16)]
  ++ (List.range 3).map (fun i => x.2.2.2.getD i 0) ++ [0, 0, 0, 0]

/-- The winner's action (R320, R324, R325). -/
def winnerAction (k w fmask : Nat) (vs : List Verdict) (s : State) : State :=
  match vs[w]? with
  | none => s
  | some v =>
    let c := v.slot.cfg
    let seq := s.trig.seq
    let due := match s.trig.lastNotice with
      | some l => msApart s 1 k l
      | none => true
    let noticed := c.notice && due
    let rec_ := eventRecord s k w seq fmask noticed vs
    let arm : Nat → TrigSlot → TrigSlot := fun i t =>
      let t1 := if c.armMask.testBit i && t.st == .enabled then { t with st := .armed, armIndex := k + 1 } else t
      if c.timerMask.testBit i then startTimer k t1 else t1
    let room := decide (s.trig.records.length < 4096)
    let s1 := { s with trig := { s.trig with
      slots := s.trig.slots.zipIdx.map (fun x => arm x.2 x.1), seq := (seq + 1) % 2 ^ 32,
      records := if room && mqTakes s 1 then s.trig.records ++ [rec_] else s.trig.records,
      recordsLost := if room then s.trig.recordsLost else satAdd 32 s.trig.recordsLost 1,
      lastNotice := if noticed then some k else s.trig.lastNotice,
      withheld := if noticed then 0 else if c.notice then s.trig.withheld + 1 else s.trig.withheld } }
    let s2 := if noticed then
        notify 0x0701 [BitVec.ofNat 32 w, BitVec.ofNat 32 fmask, lo32 seq, BitVec.ofNat 32 s.trig.withheld] k s1
      else s1
    (maskBits 8 c.sheafMask).foldl (fun a n => sheafTrigger k seq n a) s2

/-- The decision of index `k` (R315, R319): states, patterns, firings, the winner and its action; then the replies of forced
firings (R333). -/
def decideIndex (k : Nat) (s : State) : State :=
  let views : List SlotView := s.trig.slots.map fun t =>
    let b := takeReports (k - 1) t
    { before := b, now := takeReports k (runTimer k b) }
  let force := s.trig.forced.filter fun f => f.index == k
  let vs := views.zipIdx.map fun x => verdict k views (force.map fun f => f.slot) x.2 x.1
  let fired := (List.range vs.length).filter fun i => (vs[i]?.map fun v => v.fires).getD false
  let winner := fired.find? fun i => (vs[i]?.map fun v => v.slot.cfg.actEn).getD false
  let fmask := maskOf fired
  let s1 := { s with trig := { s.trig with
    slots := vs.zipIdx.map (fun x => if x.1.fires then firedSlot k winner x.2 x.1.slot else x.1.slot),
    evalIndex := k, next := k + 1, forced := s.trig.forced.filter (fun f => f.index != k) } }
  let seq := s1.trig.seq
  let s2 := match winner with
    | some w => winnerAction k w fmask vs s1
    | none => s1
  force.foldl (fun a f =>
    let on := fired.contains f.slot && (vs[f.slot]?.map fun v => v.forced).getD false
    completeId f.cmd .ok [BitVec.ofNat 32 ((if on then 1 else 0) + (if winner == some f.slot then 2 else 0)),
      if winner.isSome then lo32 seq else 0] k a) s2

/-! ### Restarts (R318, R328, R330) -/

/-- A slot's detector restarts at index `e`: comparator, width count and reported state clear, and the state is false there.
Log entry 49 (DEDUCED, unsafe). -/
def restartSlot (e : Nat) (t : TrigSlot) : TrigSlot :=
  let t1 := takeReports (e - 1) t
  { t1 with armIndex := e, since := e, fed := e, comp := false, width := 0, q := false, reports := [], counted := max t1.counted (e - 1),
            lastTrue := if t1.q && !isPulse t1.cfg && 0 < e then some (e - 1) else t1.lastTrue, timerAt := none }

/-- Every slot that is not DISABLED restarts at `e` (R318). A one-shot assertion that is still to come is kept when `keep`. -/
def restartSlots (e : Nat) (keep : Bool) (s : State) : State :=
  { s with trig := { s.trig with next := e, slots := s.trig.slots.map (fun t =>
      let t1 := restartSlot e t
      if keep then { t1 with timerAt := match t.timerAt with
        | some a => if e ≤ a then some a else none
        | none => none } else t1) } }

/-- The unit's states are false from index `e` (R318): an unlock or a mode that does not run it. -/
def stopSlots (e : Nat) (cancel : Bool) (s : State) : State :=
  { s with trig := { s.trig with events := [], slots := s.trig.slots.map (fun t =>
      let t1 := takeReports (e - 1) t
      { t1 with comp := false, width := 0, q := false, reports := [],
                lastTrue := if t1.q && !isPulse t1.cfg && 0 < e then some (e - 1) else t1.lastTrue,
                timerAt := if cancel then none else t1.timerAt }) } }

/-- What a STEP clears (R318): held states, holdoffs and pending assertions. -/
def stepSlots (s : State) : State :=
  { s with trig := { s.trig with slots := s.trig.slots.map (fun t => { t with lastTrue := none, lastFiring := none, timerAt := none, counted := 0 }) } }

/-- TRIG_ARM at one slot (R330). -/
def armSlot (e : Nat) (st : SlotState) (t : TrigSlot) : TrigSlot :=
  if t.st == st then t
  else match st with
    | .disabled => { restartSlot e t with st := .disabled, lastFiring := none }
    | _ =>
      let t1 := if t.st == .disabled then restartSlot e t else t
      { t1 with st := st, armIndex := if st == .armed then max t1.armIndex e else t1.armIndex }

/-! ### Decisions in order (R315, R316) -/

/-- A change takes effect at index `e` (R315, R328, R330, R360). -/
def applyChange (e : Nat) (x : TrigChange) (s : State) : State :=
  match x with
  | .config i g => setSlot i (fun t => { restartSlot e t with cfg := g, lastFiring := none, asserts := 0 }) s
  | .arm m st => (maskBits 32 m).foldl (fun a i => setSlot i (armSlot e st) a) s
  | .sheaves m arm finish => (maskBits 8 m).foldl (fun a n => armSheaf e arm finish n a) s

/-- The state in which every change has taken effect, decided or not: what a status reports and a check sees. -/
def afterChanges (s : State) : State :=
  s.trig.changes.foldl (fun a x => applyChange x.1 x.2 a) { s with trig := { s.trig with changes := [] } }

/-- The Thresher runs on its engine's spectra (R389). -/
def thRunning (s : State) (c : Nat) : Bool :=
  let t := s.th.getD c default
  t.enabled && t.cfg.handle != 0 && !t.bindingLost && engineRunning s (thEngine c t)

/-- The first index that the next spectrum of an engine will cover; what produces nothing has reported everything (R304, R317). -/
def engineReported (s : State) (e : Nat) : Nat := if engineRunning s e then frameKey s e (engineOf s e).frame / 2 ^ 32 else s.index + 1

/-- An interval-unit input reports its edges (R310, R471, R479). -/
def inputReports (s : State) (i : Nat) : Bool :=
  (if i < 8 then (s.tdc.inputs.getD i default).enabled else s.time.ppsInEn) && !s.tdc.notReady

/-- The SAMPLE_INDEX that an edge arriving at index `k` would be stamped with (R310, R476). -/
def edgeIndex (s : State) (i k : Nat) : Nat := (roundDiv ((k * 2 ^ 32 : Nat) * 1000000000000 - delayScaled s (i + 4) k) 1000000000000).toNat / 2 ^ 32

/-- The index up to which a slot has reported its state, but for it (R316). -/
def slotReported (s : State) (t : TrigSlot) : Nat :=
  if t.st == .disabled then s.index + 1
  else match t.cfg.type with
    | 2 => engineReported s (t.cfg.channel + t.cfg.source * 4) + t.cfg.shift
    | 3 => engineReported s (maskEngine s t.cfg.channel s.index) + t.cfg.shift
    | 4 => (if thRunning s t.cfg.channel then engineReported s (thEngine t.cfg.channel (s.th.getD t.cfg.channel default)) else s.index + 1) + t.cfg.shift
    | 5 => (if inputReports s t.cfg.source then edgeIndex s t.cfg.source s.index else s.index + 1) + t.cfg.shift
    | _ => s.index + 1

/-- The first index before which an accepted command, whose effective index has come, is still to take effect. -/
def heldBefore (s : State) : Nat := (s.cmds.filterMap Cmd.eff).foldl min (s.index + 1)

/-- The first index that cannot be decided yet (R316). Log entry 49 (DEDUCED, unsafe). -/
def undecided (s : State) : Nat := s.trig.slots.foldl (fun a t => min a (slotReported s t)) (heldBefore s)

/-- The next index, from `s.trig.next` on, at which the state of a slot can change. -/
def nextCandidate (s : State) : Option Nat :=
  let n := s.trig.next
  let reports := s.trig.slots.flatMap fun t => t.reports.map fun r => r.at_
  let timers := s.trig.slots.filterMap (timerNext (n - 1))
  let windows := (s.trig.slots.filter fun t => t.cfg.type == 7 && t.st != .disabled).flatMap fun p =>
    s.trig.slots.filterMap fun t => t.lastTrue.map fun j => j + field p.cfg.p2 20 0
  ((reports ++ timers ++ windows ++ s.trig.forced.map fun f => f.index).filter fun k => decide (n ≤ k)).min?

/-- Decide the indices below `hi` at which something changes, in order. -/
def decideRun (hi : Nat) : Nat → State → State
  | 0, s => s
  | f + 1, s =>
    match nextCandidate s with
    | some k => if k < hi then decideRun hi f (decideIndex k s) else s
    | none => s

/-- Decide every index below `hi`, over which no change takes effect: the slots take their inputs, and the last index is decided too. -/
def decideSpan (hi : Nat) (s : State) : State :=
  if hi ≤ s.trig.next then s
  else
    let s1 := { s with trig := { s.trig with slots := s.trig.slots.map fun t => feedSlot s (hi - t.cfg.shift) t } }
    let s2 := decideRun hi (hi - s.trig.next) s1
    if s2.trig.next < hi then decideIndex (hi - 1) s2 else s2

/-- Decide every index below `hi` that can be decided, or all of them with `all`; the changes take effect in their order. -/
def decideSteps (hi : Nat) (all : Bool) : Nat → State → State
  | 0, s => s
  | f + 1, s =>
    let limit := if all then hi else min hi (undecided s)
    match s.trig.changes with
    | x :: rest =>
      if x.1 < limit then
        decideSteps hi all f (applyChange x.1 x.2 { decideSpan x.1 s with trig := { (decideSpan x.1 s).trig with changes := rest } })
      else decideSpan limit s
    | [] => decideSpan limit s

/-- The trigger unit decides in a mode that runs it, while samples are delivered (R38, R318). -/
def trigDecides (s : State) : Bool := trigRunning s && locked s

/-- Reports that no decision needs any more are dropped; a shift is below 2^20 (R299). -/
def dropEvents (s : State) : State :=
  { s with trig := { s.trig with events := s.trig.events.filter fun x => decide (s.trig.next ≤ x.index + 1048576) } }

/-- Decide up to and including index `k`, as far as every slot has reported (R315, R316). -/
def decideTo (k : Nat) (s : State) : State :=
  if trigDecides s then dropEvents (decideSteps (k + 1) false (s.trig.changes.length + 1) s) else s

/-- Decide every index below `e`, where the sources end, and let every change take effect (R129, R318). -/
def decideBefore (e : Nat) (s : State) : State :=
  if trigDecides s then
    let s1 := decideSteps e true (s.trig.changes.length + 1) s
    { afterChanges s1 with trig := { (afterChanges s1).trig with events := [] } }
  else s

/-- A change of the trigger unit is effective at index `e`: in its turn among the decisions where the unit runs, else at once. -/
def changeTrig (e : Nat) (x : TrigChange) (s : State) : State :=
  if trigDecides s then decideTo e { s with trig := { s.trig with changes := s.trig.changes ++ [(e, x)] } } else applyChange e x s

end Sys2Proof.Machine
end

