-- ==== Sys2Proof/Machine/Accum.lean ====
section
/-! DEFINITION. The Threshers and the integration unit as spectra reach them (R363-R380): the state of a Thresher, the accumulation of a set, and
the changes that take effect at an index that the spectra have still to reach (R30). -/

namespace Sys2Proof.Machine

/-! ### The Thresher (R376-R379) -/

/-- The bytes that a handle's partition holds from an offset. -/
def readAt (s : State) (h : Word) (o n : Nat) : List Byte :=
  match partByHandle s h with
  | some p => readCells p.data o n
  | none => List.replicate n 0

/-- A number from little-endian bytes. -/
def natOfBytes : List Byte → Nat
  | [] => 0
  | b :: t => b.toNat + 256 * natOfBytes t

/-- A state entry of R376. -/
structure ThEntry where
  m1 : Dyad
  m2 : Dyad
  force : Bool
  never : Bool

/-- Read the state entry at a byte offset of the region's partition. -/
def thEntryAt (data : List Host.Cell) (o : Nat) : ThEntry :=
  let w0 := BitVec.ofNat 32 (natOfBytes (readCells data o 4))
  let w1 := BitVec.ofNat 32 (natOfBytes (readCells data (o + 4) 4))
  { m1 := abs32 w0, m2 := abs32 w1, force := bit w0 31, never := bit w1 31 }

/-- The two words of a state entry. -/
def thEntryBytes (e : ThEntry) : List Byte :=
  wordBytes (lin32 e.m1 ||| BitVec.ofNat 32 (if e.force then 2 ^ 31 else 0)) ++ wordBytes (lin32 e.m2 ||| BitVec.ofNat 32 (if e.never then 2 ^ 31 else 0))

/-- P > m1 10^(x/1280), the power test of R377, compared exactly. Log entry 47 (DEDUCED, unsafe). -/
def powExceeds (x : Nat) (p m1 : Dyad) : Bool :=
  let pe := p.e * 1280
  let me := m1.e * 1280
  let lo := min pe me
  decide (m1.m ^ 1280 * 2 ^ (me - lo).toNat * 10 ^ x < p.m ^ 1280 * 2 ^ (pe - lo).toNat)

/-- sk of R377 with A = SK_LOG2, in binary64. Log entry 47 (DEDUCED, unsafe). -/
def skEstimate (a : Nat) (m1 m2 : SDyad) : SDyad :=
  if m1.m = 0 then { m := 1, e := 0 }
  else
    let ratio := SDyad.ofDyad (Dyad.div { m := 2 ^ (a + 1), e := 0 } { m := 2 ^ (a + 1) - 2, e := 0 })
    let q := SDyad.ofDyad (Dyad.div m2.toDyad (m1.mul m1).toDyad)
    ratio.mul (q.sub { m := 1, e := 0 })

/-- One bin of a valid spectrum (R377): the new entry, sk_flag and pow_flag. SK_LO = 0 with SK_HI = 0xFFFF disables the
kurtosis test. Log entry 47 (DEDUCED, unsafe). -/
def thBin (c : ThConfig) (first : Bool) (p : Dyad) (e : ThEntry) : ThEntry × Bool × Bool :=
  let ps := SDyad.ofDyad p
  let step (m x : SDyad) : SDyad :=
    let d := x.sub m
    m.add { d with e := d.e - (c.skLog2 : Int) }
  let m1 := if first then ps else step (SDyad.ofDyad e.m1) ps
  let m2 := if first then ps.mul ps else step (SDyad.ofDyad e.m2) (ps.mul ps)
  let pow := !first && c.powExcess != 0 && powExceeds c.powExcess p e.m1
  let sk := skEstimate c.skLog2 m1 m2
  let skf := !(c.skLo == 0 && c.skHi == 65535) && (sk.lt { m := c.skLo, e := -12 } || SDyad.lt { m := c.skHi, e := -12 } sk)
  ({ e with m1 := m1.toDyad, m2 := m2.toDyad }, skf, pow)

/-- A Thresher's trigger slots are false from index `e` (R309, R317). -/
def endThReports (ch e : Nat) (s : State) : State := pushEvent (stopEvent (8 + ch) e) s

/-- An engine has delivered every spectrum with its key index below `i`. -/
def reached (s : State) (e i : Nat) : Bool := !engineRunning s e || decide (i * 2 ^ 32 ≤ frameKey s e (engineOf s e).frame)

/-- A change of a Thresher takes effect at index `e` (R379, R387, R388). -/
def runThAct (ch e : Nat) (x : ThAct) (s : State) : State :=
  match x with
  | .config g => restartTh ch (setTh ch (fun t => { t with cfg := g, bindingLost := false }) (endThReports ch e s))
  | .start => restartTh ch (setTh ch (fun t => { t with enabled := true }) s)
  | .stop => setTh ch (fun t => { t with enabled := false }) (endThReports ch e s)

/-- The changes of a Thresher whose index its engine has reached take effect, in order. Log entry 108 (DEDUCED, unsafe). -/
def thCatch (all : Bool) (ch : Nat) : Nat → State → State
  | 0, s => s
  | f + 1, s =>
    match (s.th.getD ch default).late with
    | [] => s
    | x :: rest =>
      if all || reached s (thEngine ch (s.th.getD ch default)) x.1 then
        thCatch all ch f (runThAct ch x.1 x.2 (setTh ch (fun t => { t with late := rest }) s))
      else s

/-- Every change of the Threshers that can take effect. -/
def thCatchAll (all : Bool) (s : State) : State :=
  (List.range s.th.length).foldl (fun a ch => thCatch all ch (a.th.getD ch default).late.length a) s

/-- A change of a Thresher is effective at index `e` (R30, R379). -/
def thAct (ch e : Nat) (x : ThAct) (s : State) : State :=
  let s1 := setTh ch (fun t => { t with late := t.late ++ [(e, x)] }) s
  thCatch false ch (s1.th.getD ch default).late.length s1

/-- A Thresher takes a spectrum (R377, R379): the state after, and what it says. A spectrum is dropped under R36, and where a word of the state
is uncorrectable (R102). Log entry 47 (DEDUCED, unsafe). -/
def thTake (c : Nat) (invalid dropped : Bool) (binStart : Nat) (powers : List Dyad) (s : State) : State × ThOut :=
  let t := s.th.getD c default
  if !thRunning s c then (s, .lost)
  else if dropped || regionPoisoned s t.cfg.handle t.cfg.offset (8 * t.cfg.count) then
    (setTh c (fun t => { t with dropped := satAdd 32 t.dropped 1 }) s, .lost)
  else
    let warm := decide (t.valid < 2 ^ (t.cfg.skLog2 + 1))
    if invalid then (s, if warm then .warmup else .flags [])
    else
      let data := ((partByHandle s t.cfg.handle).map fun p => p.data).getD []
      let out := (List.range t.cfg.count).map fun i =>
        let e := thEntryAt data (t.cfg.offset + 8 * i)
        let r := thBin t.cfg (t.valid == 0) (powers.getD (t.cfg.first + i - binStart) Dyad.zero) e
        (r.1, !warm && !e.never && r.2.1, !warm && !e.never && r.2.2, e.force, t.cfg.first + i)
      let s1 := writeAt t.cfg.handle t.cfg.offset (out.flatMap fun x => thEntryBytes x.1) s
      let s2 := setTh c (fun t => { t with
        valid := satAdd 32 t.valid 1,
        skFlags := satAdd 32 t.skFlags (out.filter fun x => x.2.1).length,
        powFlags := satAdd 32 t.powFlags (out.filter fun x => x.2.2.1).length }) s1
      let flags := (out.filter fun x => x.2.2.2.1 || x.2.1 || x.2.2.1).map fun x => x.2.2.2.2
      (s2, if warm then .warmup else .flags flags)

/-- The flags a THRESHER slot sees: FORCE drives it in warm-up too (R377, R379); lost flags are none. -/
def slotFlags (s : State) (c : Nat) (o : ThOut) : Option (List Nat) :=
  match o with
  | .lost => none
  | .flags l => some l
  | .warmup =>
    let t := s.th.getD c default
    let data := ((partByHandle s t.cfg.handle).map fun p => p.data).getD []
    some (((List.range t.cfg.count).filter fun i => (thEntryAt data (t.cfg.offset + 8 * i)).force).map fun i => t.cfg.first + i)

/-! ### Accumulation (R365, R369, R380) -/

/-- The integration unit forms frames now. -/
def intRunning (s : State) : Bool :=
  s.intg.enabled && modeRunsIntegration (runMode s) && !s.intg.mismatch && !s.intg.bindingLost

/-- The little-endian bytes of a 64-bit number. -/
def bytes64 (v : Nat) : List Byte := (List.range 8).map fun i => BitVec.ofNat 8 (v / 256 ^ i)

/-- Add a term to an accumulator held as a 64-bit code, with the limits of R365. `stuck`: it has saturated in this frame.
Answers the new code and whether it saturated. -/
def accumulate (signedAcc stuck : Bool) (old : Nat) (term : Int) : Nat × Bool :=
  if stuck then (old, true)
  else
    let v := (if signedAcc then signed 64 old else (old : Int)) + term
    let hi : Int := if signedAcc then 2 ^ 63 - 1 else 2 ^ 64 - 1
    let lo : Int := if signedAcc then -(2 ^ 63) else 0
    if hi < v then (unsign 64 hi, true) else if v < lo then (unsign 64 lo, true) else (unsign 64 v, false)

/-- Y of engine bin `b` in a member. -/
def memberBin (s : State) (m : IntMember) (b : Nat) : Word × Word := m.bins.getD (b - (engineOf s m.engine).cfg.binStart) (0, 0)

/-- The term of a product for output bin `j` (R363, R365): real and imaginary parts, scaled and rounded. -/
def productTerm (s : State) (c : IntConfig) (a b : IntMember) (cross : Bool) (j : Nat) : Int × Int :=
  let bins := (List.range (2 ^ c.sumLog2)).map fun i => c.firstBin + j * 2 ^ c.sumLog2 + i
  let zero : SDyad := { m := 0, e := 0 }
  if cross then
    let terms := bins.map fun i =>
      let y := memberBin s a i
      let z := memberBin s b i
      let re := ((signed32 y.1).mul (signed32 z.1)).add ((signed32 y.2).mul (signed32 z.2))
      let im := ((signed32 y.2).mul (signed32 z.1)).sub ((signed32 y.1).mul (signed32 z.2))
      (re, im)
    (((terms.map fun t => t.1).foldl SDyad.add zero).scaled c.accShift, ((terms.map fun t => t.2).foldl SDyad.add zero).scaled c.accShift)
  else
    (((bins.map fun i => SDyad.ofDyad (power (memberBin s a i))).foldl SDyad.add zero).scaled c.accShift, 0)

/-- A channel's Thresher flags touch output bin `j` (R380). -/
def binFlagged (c : IntConfig) (m : IntMember) (j : Nat) : Bool :=
  match m.th with
  | .flags l => l.any fun b => decide (c.firstBin + j * 2 ^ c.sumLog2 ≤ b) && decide (b < c.firstBin + (j + 1) * 2 ^ c.sumLog2)
  | _ => false

/-- Accumulate one accepted set into output bin `j` of product `p` (R365, R369, R380). -/
def accumulateBin (ms : List IntMember) (p j arr cnt : Nat) (first : Bool) (s : State) : State :=
  let c := s.intg.cfg
  let ch := productChannels p
  let find (n : Nat) : IntMember := (ms.find? fun m => engineChannel m.engine == n).getD { engine := n, number := 0, key := 0, invalid := true, flags := noFlags, bins := [], th := .lost }
  let a := find ch.1
  let b := find ch.2
  let excluded := c.exclude && (binFlagged c a j || (isCross p && binFlagged c b j))
  let n := productBytes p
  let o := arr + n * j
  let term := productTerm s c a b (isCross p) j
  let sat := (s.intg.frame.map fun f => f.sat).getD []
  let one (k : Nat) (t : Int) : Nat × Bool :=
    let old := if first then 0 else natOfBytes (readAt s c.handle (o + 8 * k) 8)
    if excluded then (old, false) else accumulate (isCross p) (sat.contains (p, 2 * j + k)) old t
  let re := one 0 term.1
  let im := one 1 term.2
  let s1 := writeAt c.handle o (bytes64 re.1 ++ (if isCross p then bytes64 im.1 else [])) s
  let count := (if first then 0 else natOfBytes (readAt s c.handle (cnt + 4 * j) 4)) + (if excluded then 0 else 1)
  let s2 := if c.exclude then writeAt c.handle (cnt + 4 * j) (wordBytes (BitVec.ofNat 32 count)) s1 else s1
  let hits := (if re.2 then [(p, 2 * j)] else []) ++ (if isCross p && im.2 then [(p, 2 * j + 1)] else [])
  let fresh := hits.filter fun h => !sat.contains h
  if fresh.isEmpty then s2 else setInt (fun u => { u with frame := u.frame.map (fun f => { f with sat := f.sat ++ fresh }) }) s2

/-- Accumulate a whole set. -/
def accumulateSet (ms : List IntMember) (s : State) : State :=
  let c := s.intg.cfg
  let base := c.offset + s.intg.seq % 2 * c.half
  let arrays := intArrays c
  let first := ((s.intg.frame.map fun f => f.sets).getD 0) == 0
  let off (p : Nat) (count : Bool) : Nat := base + ((arrays.find? fun x => x.1 == p && x.2.1 == count).map fun x => x.2.2).getD 0
  let s1 := (maskBits 10 c.products).foldl (fun a p =>
    (List.range c.nout).foldl (fun a j => accumulateBin ms p j (off p false) (off p true) first a) a) s
  setInt (fun u => { u with frame := u.frame.map (fun f => { f with sets := f.sets + 1, flags := ms.foldl (fun a m => orFlags a m.flags) f.flags }) }) s1

/-- Close the frames whose boundary lies at or before a key index, and open the next (R367, R370). -/
def closeDueInt (key32 : Nat) : Nat → State → State
  | 0, s => s
  | n + 1, s =>
    match s.intg.frame with
    | some f => if f.stop * 2 ^ 32 ≤ key32 then closeDueInt key32 n (openIntFrame f.stop (closeIntFrame 0 (f.stop - 1) s)) else s
    | none => s

/-- The number of boundaries up to a key index. -/
def dueIntFrames (s : State) (key32 : Nat) : Nat :=
  match s.intg.frame with
  | some f => if f.stop * 2 ^ 32 ≤ key32 then (key32 / 2 ^ 32 - f.stop) / (max 1 s.intg.cfg.frameLen) + 1 else 0
  | none => 0

/-- Bring the frames up to a key index. -/
def intUpTo (key32 : Nat) (s : State) : State := closeDueInt key32 (dueIntFrames s key32) s

def mapIntFrame (f : IntFrame → IntFrame) (s : State) : State := setInt (fun u => { u with frame := u.frame.map f }) s

/-- The accumulators that the next set of the open frame reads hold an uncorrectable word (R102); the first set reads none (R369). -/
def intPoisoned (s : State) : Bool :=
  decide (0 < ((s.intg.frame.map fun f => f.sets).getD 0))
    && regionPoisoned s s.intg.cfg.handle (s.intg.cfg.offset + s.intg.seq % 2 * s.intg.cfg.half) s.intg.cfg.half

/-- The members that have arrived for the oldest set with a frame number: the same frame, over the same samples (R23, R364). -/
def setMembers (u : IntUnit) (number : Nat) : List IntMember :=
  let l := u.members.filter fun m => m.number == number
  match l.head? with
  | some m => l.filter fun x => x.key == m.key
  | none => []

/-- A set can never be whole: a source engine without a member has passed its key index. Log entry 45 (DEDUCED, unsafe). -/
def setHopeless (s : State) (ms : List IntMember) : Bool :=
  match ms.head? with
  | some m => (intEngines s.intg.cfg).any fun e => !(ms.any fun x => x.engine == e)
      && (!engineRunning s e || decide (m.key < frameKey s e (engineOf s e).frame))
  | none => false

/-- A set of an open frame is accounted for once (R368, R380): `lost` where it is not whole or is dropped. -/
def accountSet (ms : List IntMember) (lost : Bool) (s : State) : State :=
  if lost then mapIntFrame (fun f => { f with taintedSets := f.taintedSets + 1 }) s
  else if ms.any fun m => m.invalid then mapIntFrame (fun f => { f with invalidSets := f.invalidSets + 1 }) s
  else if s.intg.cfg.exclude && ms.any fun m => m.th == .warmup then mapIntFrame (fun f => { f with warmupSets := f.warmupSets + 1 }) s
  else if s.intg.cfg.exclude && ms.any fun m => m.th == .lost then mapIntFrame (fun f => { f with taintedSets := f.taintedSets + 1 }) s
  else if intPoisoned s then
    mapIntFrame (fun f => { f with taintedSets := f.taintedSets + 1 }) (setInt (fun u => { u with droppedSets := satAdd 32 u.droppedSets 1 }) s)
  else accumulateSet ms s

/-- Take the set of the members `ms` out of those that wait, and account for it in its frame (R364, R367, R368). -/
def takeSet (ms : List IntMember) (lost dropped : Bool) (s0 : State) : State :=
  match ms.head? with
  | none => s0
  | some m =>
    let s := intUpTo m.key (setInt (fun u => { u with
      members := u.members.filter (fun x => !(x.number == m.number && x.key == m.key)),
      droppedSets := if dropped then satAdd 32 u.droppedSets 1 else u.droppedSets }) s0)
    match s.intg.frame with
    | none => s
    | some f => if m.key < f.start * 2 ^ 32 || (lost && !(ms.any fun x => x.engine == (intEngines s.intg.cfg).headD 0)) then s
      else accountSet ms lost s

/-- A set is whole. -/
def setWhole (u : IntUnit) (ms : List IntMember) : Bool := (intEngines u.cfg).all fun e => ms.any fun m => m.engine == e

/-- INT_SET_ACCUMULATE (R364, R365, R368, R380): the set with frame number `number`, once every member has arrived, or the set
dropped under R36. -/
def evIntSetAccumulate (number : Nat) (drop : Bool) (errors : List MemError) (s0 : State) : State :=
  let s := bringErrors errors s0
  let ms := setMembers s.intg number
  if s.intg.frame.isNone then s
  else if drop && !favoursIntegration (runMode s) then takeSet ms true true s
  else if setWhole s.intg ms then takeSet ms false false s
  else if setHopeless s ms then takeSet ms true false s
  else s

/-- Account for every set that waits with its key index below `i`, oldest first; those not whole are lost. -/
def intDrain (i : Nat) : Nat → State → State
  | 0, s => s
  | f + 1, s =>
    match s.intg.members.find? fun m => decide (m.key < i * 2 ^ 32) with
    | none => s
    | some m =>
      if s.intg.frame.isNone then s
      else
        let ms := setMembers s.intg m.number
        intDrain i f (takeSet ms (!setWhole s.intg ms) false s)

/-- The sets before index `i` are accounted for, and the frames before it closed. -/
def intBefore (i : Nat) (s : State) : State := intUpTo ((i - 1) * 2 ^ 32) (intDrain i s.intg.members.length s)

/-- The unit starts its frames at index `e` where it can (R367, R370). -/
def startInt (e : Nat) (s : State) : State :=
  if intRunning s && locked s then
    (if intSourcesOk s s.intg.cfg then openIntFrame e s else setInt (fun u => { u with mismatch := true }) s)
  else s

/-- A change of the integration unit takes effect at index `e` (R370, R371, R383, R384). -/
def runIntAct (e : Nat) (x : IntAct) (s0 : State) : State :=
  let s := intBefore e s0
  match x with
  | .config g =>
    startInt e (setInt (fun u => { u with
      cfg := g, base := e, configGen := (u.configGen + 1) % 256, mismatch := false, bindingLost := false, seq := 0, header0 := [], header1 := [] })
      (stopInt (closeCode s e 4) e s))
  | .enable b =>
    if s.intg.enabled == b then s
    else if b then startInt e (setInt (fun u => { u with enabled := true }) s)
    else setInt (fun u => { u with enabled := false }) (stopInt (closeCode s e 1) e s)
  | .leave close => stopInt (closeCode s e close) e s
  | .enter => if s.intg.frame.isNone then startInt e s else s
  | .source => if s.intg.frame.isSome then setInt (fun u => { u with mismatch := true }) (stopInt (closeCode s e 5) e s) else s
  | .retune => mapIntFrame (fun f => { f with retune := true }) (intUpTo (e * 2 ^ 32) s)

/-- The changes of the integration unit whose index its source engines have reached take effect, in order. Log entry 108 (DEDUCED, unsafe). -/
def intCatch (all : Bool) : Nat → State → State
  | 0, s => s
  | f + 1, s =>
    match s.intg.late with
    | [] => s
    | x :: rest =>
      if all || (intEngines s.intg.cfg).all fun e => reached s e x.1 then
        intCatch all f (runIntAct x.1 x.2 (setInt (fun u => { u with late := rest }) s))
      else s

/-- Every change of the integration unit that can take effect. -/
def intCatchAll (all : Bool) (s : State) : State := intCatch all s.intg.late.length s

/-- A change of the integration unit is effective at index `e` (R30, R370). -/
def intAct (e : Nat) (x : IntAct) (s : State) : State := intCatchAll false (setInt (fun u => { u with late := u.late ++ [(e, x)] }) s)

/-- A source engine stops at index `i` or takes a configuration that the integration cannot follow (R370). Log entry 45 (DEDUCED, unsafe). -/
def checkIntSource (e i : Nat) (stopped : Bool) (s : State) : State :=
  if s.intg.frame.isSome && (intEngines s.intg.cfg).contains e && (stopped || !intSourcesOk s s.intg.cfg) then intAct i .source s else s

/-- INT_FRAME_CLOSE (R370, R374): the open frame has reached its boundary, and the sets before it have come. -/
def evIntFrameClose (k : Nat) (s : State) : State :=
  match s.intg.frame with
  | some f =>
    if locked s && decide (f.stop ≤ k) && (intEngines s.intg.cfg).all (fun e => reached s e f.stop) then
      let s1 := intDrain f.stop s.intg.members.length s
      closeDueInt (f.stop * 2 ^ 32) 1 s1
    else s
  | none => s

end Sys2Proof.Machine
end

