-- ==== Sys2Proof/Machine/Consumers.lean ====
section
/-! DEFINITION. What takes the spectra of an engine (R247-R261, R270-R297, R304-R309, R364, R377): the product output, the density engine, the
spectrogram instances, the trigger slots, the Thresher and the integration unit; and the changes of these that take effect at an index which the
spectra have still to reach (R30, R275). -/

namespace Sys2Proof.Machine

/-! ### Density updates (R270-R275) -/

/-- The row that a column power hits (R270); P = 0 lies under it. Clamped, or `none` when UNDER or OVER discards it. -/
def densityRow (d : DensityConfig) (p : Dyad) : Option Nat :=
  let r := (log16 p - d.bottom) / (max 1 d.step : Nat)
  if p.m = 0 || r < 0 then (if d.underDrop then none else some 0)
  else if (d.rows : Int) ≤ r then (if d.overDrop then none else some (d.rows - 1))
  else some r.toNat

/-- Count one valid spectrum (R271): each column increments one cell, saturating at 65,535. -/
def densityHit (cols : List Dyad) (d : Density) : Density :=
  cols.zipIdx.foldl (fun d x =>
    match densityRow d.cfg x.1 with
    | some r =>
      let i := r * d.cfg.cols + x.2
      { d with cells := sparseSet 0 d.cells i (min 65535 (sparseGet 0 d.cells i + 1)) }
    | none => { d with frame := d.frame.map (fun f => { f with discarded := satAdd 32 f.discarded 1 }) }) d

/-- Anchor a density grid at `e` where the engine runs; it sets MISMATCH in place of running when its COLS is not the C of its
source (R273, R283). Log entry 45 (DEDUCED, unsafe). -/
def startDensity (u e : Nat) (s : State) : State :=
  let d := densOf s u
  if !(d.enabled && modeRunsProducts (runMode s) && locked s) then s
  else if d.cfg.cols != (engineOf s (densEngine u d)).cfg.cols then setDens u (fun d => { d with mismatch := true }) s
  else anchorDensity u e s

/-- The decay of one count (R274). -/
def decayed (shift count : Nat) : Nat := count - (count + 2 ^ shift - 1) / 2 ^ shift

/-- A change of a density engine takes effect at index `e` (R274-R276, R283, R292, R293). -/
def runDensAct (u e : Nat) (x : DensAct) (s : State) : State :=
  match x with
  | .decay =>
    let s1 := if densRunning s u then densUpTo u e s else s
    let d := densOf s1 u
    if densRunning s1 u && d.frame.isSome && d.cfg.persist == 1 && e % (32 * 2 ^ d.cfg.decayLog2) == 0 then
      setDens u (fun d => { d with cells := (d.cells.map fun x => (x.1, decayed d.cfg.decayShift x.2)).filter fun x => x.2 != 0 }) s1
    else s1
  | .clear => setDens u (fun d => { d with cells := [], frame := d.frame.map (fun f => { f with cleared := true }) }) (if densRunning s u then densUpTo u e s else s)
  | .config c => startDensity u e (setDens u (fun d => { d with cfg := c, mismatch := false, seq := 0 }) (endDensity u e false s))
  | .stop => setDens u (fun d => { d with enabled := false }) (endDensity u e false s)
  | .start => startDensity u e (setDens u (fun d => { d with enabled := true }) s)

/-- The order of changes at one index: what ends or starts a frame, then a decay step, then a clear (R275). -/
def DensAct.rank : DensAct → Nat
  | .decay => 1 | .clear => 2 | .config _ => 0 | .stop => 0 | .start => 0

/-- Insert a change in its order. -/
def insertDens (x : Nat × DensAct) : List (Nat × DensAct) → List (Nat × DensAct)
  | [] => [x]
  | y :: t => if x.1 < y.1 || (x.1 == y.1 && decide (x.2.rank < y.2.rank)) then x :: y :: t else y :: insertDens x t

/-- The changes of a density engine whose index its source has reached take effect, in order. Log entry 108 (DEDUCED, unsafe). -/
def densCatch (all : Bool) (u : Nat) : Nat → State → State
  | 0, s => s
  | f + 1, s =>
    match (densOf s u).late with
    | [] => s
    | x :: rest =>
      if all || !densRunning s u || reached s (densEngine u (densOf s u)) x.1 then
        densCatch all u f (runDensAct u x.1 x.2 (setDens u (fun d => { d with late := rest }) s))
      else s

/-- Every change of the density engines that can take effect. -/
def densCatchAll (all : Bool) (s : State) : State :=
  (List.range s.dens.length).foldl (fun a u => densCatch all u (densOf a u).late.length a) s

/-- A change of a density engine is effective at index `e` (R30, R275). -/
def densAct (u e : Nat) (x : DensAct) (s : State) : State :=
  let s1 := setDens u (fun d => { d with late := insertDens (e, x) d.late }) s
  densCatch false u (densOf s1 u).late.length s1

/-- A spectrum of the source engine reaches a density engine (R271, R273, R275). -/
def densityTake (u key : Nat) (invalid : Bool) (flags : SpecFlags) (regrid : Bool) (cols : List Dyad) (s0 : State) : State :=
  if !densRunning s0 u then s0
  else
    let s := densUpTo u (key / 2 ^ 32) s0
    match (densOf s u).frame with
    | none => s
    | some f =>
      if key < f.start * 2 ^ 32 then s
      else if invalid then setDens u (fun d => { d with frame := some { f with skipped := f.skipped + 1 } }) s
      else
        setDens u (fun d => densityHit cols { d with frame := some { f with spectra := f.spectra + 1, flags := orFlags f.flags flags, regrid := f.regrid || regrid } }) s

/-- DENSITY_FRAME_CLOSE (R277, R281): the open frame closes at its boundary, once its spectra have come. -/
def evDensityFrameClose (k u : Nat) (lost busy : Bool) (s : State) : State :=
  match (densOf s u).frame with
  | some f =>
    let stop := f.start + densFrameLen (densOf s u)
    if densRunning s u && locked s && decide (stop ≤ k) && reached s (densEngine u (densOf s u)) stop then closeDueDensity u stop lost busy 1 s else s
  | none => s

/-- DECAY_STEP (R274, R284): at a decay index every running engine with PERSIST DECAY decays. -/
def evDecayStep (k : Nat) (s : State) : State :=
  if locked s then (List.range s.dens.length).foldl (fun a u => densAct u k .decay a) s else s

/-! ### Spectrograms (R285-R297) -/

/-- An instance produces lines (R297). -/
def spgmRunning (s : State) (i : Nat) : Bool :=
  (spgmOf s i).enabled && !(spgmOf s i).overrate && engineRunning s (spgmOf s i).cfg.engine

/-- A spectrum of the engine reaches an instance (R285): columns are merged, and a line ends with its group. -/
def spgmTake (i : Nat) (x : FrameIn) (cols : List Dyad) (lost : Bool) (s : State) : State :=
  if !spgmRunning s i then s
  else
    let c := (spgmOf s i).cfg
    let merged := columns c.mergeMap (max 1 c.colMerge) cols.length cols
    let s1 := setSpgm i (fun u => { u with group := some (groupAdd c.detect u.group { x with entries := merged, cplx := [] }) }) s
    if (x.number + 1) % max 1 c.lineSpectra = 0 then emitLine i lost s1 else s1

/-- A change of a spectrogram instance takes effect (R295, R296): the open line ends. -/
def runSpgmAct (i : Nat) (x : SpgmAct) (s : State) : State :=
  match x with
  | .config g => setSpgm i (fun u => { u with cfg := g, overrate := false, line := 0 }) (emitLine i false s)
  | .enable on => setSpgm i (fun u => { u with enabled := on }) (emitLine i false s)

/-- The changes of an instance whose index its engine has reached take effect, in order. Log entry 108 (DEDUCED, unsafe). -/
def spgmCatch (all : Bool) (i : Nat) : Nat → State → State
  | 0, s => s
  | f + 1, s =>
    match (spgmOf s i).late with
    | [] => s
    | x :: rest =>
      if all || reached s (spgmOf s i).cfg.engine x.1 then spgmCatch all i f (runSpgmAct i x.2 (setSpgm i (fun u => { u with late := rest }) s))
      else s

/-- Every change of the instances that can take effect. -/
def spgmCatchAll (all : Bool) (s : State) : State :=
  (List.range s.spgm.length).foldl (fun a i => spgmCatch all i (spgmOf a i).late.length a) s

/-- A change of an instance is effective at index `e` (R30, R295, R296). -/
def spgmAct (i e : Nat) (x : SpgmAct) (s : State) : State :=
  let s1 := setSpgm i (fun u => { u with late := u.late ++ [(e, x)] }) s
  spgmCatch false i (spgmOf s1 i).late.length s1

/-- Every change of the consumers of spectra that can take effect. -/
def catchAll (s : State) : State := intCatchAll false (spgmCatchAll false (densCatchAll false (thCatchAll false s)))

/-- The same, with every change taken: what a status reports and a check sees. -/
def afterLate (s : State) : State := intCatchAll true (spgmCatchAll true (densCatchAll true (thCatchAll true s)))

/-! ### A spectrum and its consumers (R253, R260) -/

/-- With no group open, the output settings whose effective index the frame's key index has reached apply (R260). Log entry 42 (DEDUCED, unsafe). -/
def switchOutput (x : Spectrum) (s : State) : State :=
  let g := engineOf s x.engine
  if g.group.isSome then s
  else
    let due := g.nextOut.filter fun o => decide (o.1 * 2 ^ 32 ≤ x.frame.key)
    match due.getLast? with
    | none => s
    | some o =>
      let s1 := setEngine x.engine (fun g => { g with out := o.2, nextOut := g.nextOut.filter (fun o => !decide (o.1 * 2 ^ 32 ≤ x.frame.key)) }) s
      match ringOf s1 2 x.engine with
      | some r =>
        if r.recSize = recordSize s1 x.engine then s1
        else startRun 2 x.engine (x.frame.key / 2 ^ 32) (resizeRing x.engine (endRun 2 x.engine 5 (x.frame.key / 2 ^ 32) s1))
      | none => s1

/-- The product output takes the spectrum (R260). -/
def productTake (x : Spectrum) (s0 : State) : State :=
  let s := switchOutput x s0
  let g := engineOf s x.engine
  let fr : FrameIn := { x.frame with entries := if g.out.bins then x.powers else x.cols, cplx := if g.out.format = 2 then x.bins else [] }
  let s1 := setEngine x.engine (fun g => { g with group := some (groupAdd g.out.detect g.group fr) }) s
  if (x.frame.number + 1) % max 1 g.out.decim = 0 then emitProduct x.engine s1 else s1

/-- The trigger slots take the spectrum (R304-R308): the engine's columns, and what violates the mask of the channel. -/
def trigTake (x : Spectrum) (s : State) : State :=
  let ch := engineChannel x.engine
  let zoom := decide (4 ≤ x.engine)
  let ev : TrigEvent :=
    { source := x.engine, index := x.frame.key / 2 ^ 32, stamp := x.stamp, seq := x.frame.number, stop := false, invalid := x.frame.invalid,
      cols := x.cols, viol := [], flags := none }
  let m := s.trig.masks.getD ch default
  let s1 := pushEvent ev s
  match maskSettingsAt m x.frame.key with
  | some c => if c.zoom == zoom then pushEvent { ev with source := 12 + ch, viol := maskViolations m c x.cols } s1 else s1
  | none => s1

/-- The Thresher of the channel and its trigger slots take the spectrum, and the integration unit keeps it for its set
(R309, R364, R377, R380). -/
def thresherTake (x : Spectrum) (dropped : Bool) (s : State) : State :=
  let ch := engineChannel x.engine
  let mine := thRunning s ch && thEngine ch (s.th.getD ch default) == x.engine
  let r := if mine then thTake ch x.frame.invalid dropped (engineOf s x.engine).cfg.binStart x.powers s else (s, .lost)
  let s1 := r.1
  let s2 := if mine then
      pushEvent { source := 8 + ch, index := x.frame.key / 2 ^ 32, stamp := x.stamp, seq := x.frame.number, stop := false, invalid := x.frame.invalid,
                  cols := [], viol := [], flags := (slotFlags s1 ch r.2).map fun l => if x.frame.invalid then [] else l } s1
    else s1
  if (s2.intg.frame.isSome && (intEngines s2.intg.cfg).contains x.engine) || !s2.intg.late.isEmpty then
    setInt (fun u => { u with members := u.members ++
      [{ engine := x.engine, number := x.frame.number, key := x.frame.key, invalid := x.frame.invalid, flags := x.frame.flags, bins := x.bins, th := r.2 }] }) s2
  else s2

/-- The engine completes the spectrum of its next frame and offers it to every consumer (R253). `linesLost` names the spectrogram instances whose
line is dropped under R36 if this spectrum completes it, and `thDrop` tells that the Thresher drops the spectrum. -/
def completeSpectrum (e : Nat) (linesLost : List Nat) (thDrop : Bool) (s0 : State) : State :=
  let s := catchAll s0
  let x := spectrumOf s e (engineOf s e).frame
  let s1 := productTake x s
  let s2 := (List.range s1.dens.length).foldl (fun a u =>
    if densEngine u (densOf a u) == e then densityTake u x.frame.key x.frame.invalid x.frame.flags (x.frame.number == 0) x.cols a else a) s1
  let s3 := (List.range s2.spgm.length).foldl (fun a i =>
    if (spgmOf a i).cfg.engine == e then spgmTake i x.frame x.cols (linesLost.contains i) a else a) s2
  let s4 := thresherTake x (thDrop && !favoursIntegration (runMode s)) (trigTake x s3)
  catchAll (setEngine e (fun g => { g with
    frame := g.frame + 1, spectra := satAdd 32 g.spectra 1,
    invalidSpectra := if x.frame.invalid then satAdd 32 g.invalidSpectra 1 else g.invalidSpectra }) s4)

/-- Complete every spectrum whose last element lies before index `i`. -/
def drainFrames (e i : Nat) : Nat → State → State
  | 0, s => s
  | f + 1, s =>
    if engineRunning s e && decide (frameEnd s e (engineOf s e).frame < i) then drainFrames e i f (completeSpectrum e [] false s) else s

/-- The spectra of an engine up to index `i`, where its grid ends, are delivered (R256, R258). -/
def drainEngine (e i : Nat) (s : State) : State :=
  drainFrames e i (i - frameEnd s e (engineOf s e).frame) s

end Sys2Proof.Machine
end

