-- ==== Sys2Proof/Machine/Chain.lean ====
section
/-! DEFINITION. What follows along the sample path when a grid ends or starts (R226, R256, R259): the frames that lie before the end are
delivered, and what takes them ends or starts with the grid. -/

namespace Sys2Proof.Machine

/-! ### Engine grids -/

/-- The grid of an engine ends at index `e` (R256): the frames before it are delivered, open groups are emitted, spectral slots go false, and its
ring's run ends (R260, R285, R304, R337). `reason` is the closure reason of R350. -/
def endGrid (g e reason : Nat) (s : State) : State :=
  if !(engineOf s g).live then s
  else
    let s1 := emitProduct g (drainEngine g e s)
    let s2 := (List.range s1.spgm.length).foldl (fun a i =>
      if (spgmOf a i).cfg.engine == g then emitLine i false a else a) s1
    catchAll (setEngine g (fun x => { x with live := false }) (endRun 2 g reason e (endEngineEvents g e s2)))

/-- The engine can run its configuration now: enabled, in a mode that runs engines, its binding kept, its tuner running, its
rate within R242. -/
def canStartGrid (s : State) (g : Nat) : Bool :=
  let x := engineOf s g
  x.enabled && modeRunsProducts (runMode s) && !x.overrate && !x.bindingLost && locked s
    && (!x.cfg.tuner || (tunerRunning s (engineTuner g) && capacityOk (fsOf s.time) g x.cfg (s.tuners.getD (engineTuner g) default).decim))

/-- A new grid of an engine is anchored at `e` (R256). -/
def startGrid (g e : Nat) (s : State) : State :=
  if canStartGrid s g then
    restartThOn g (startRun 2 g e (resizeRing g (setEngine g (fun x => { x with anchor := some e, live := true, frame := 0, group := none }) s)))
  else s

/-- The column count of an engine has changed: density engines on it stop with MISMATCH (R283), and line rates are summed
again (R287). -/
def checkColumns (g e : Nat) (s : State) : State :=
  let s1 := (List.range s.dens.length).foldl (fun a c =>
    let d := densOf a c
    if d.enabled && densEngine c d == g && !d.mismatch && d.cfg.cols != (engineOf a g).cfg.cols then
      setDens c (fun d => { d with mismatch := true }) (endDensity c e false a)
    else a) s
  checkLineRates g s1

/-- An engine's grid is replaced at index `e` after a change `f` of its settings (R256, R264). -/
def regrid (g e : Nat) (f : Engine → Engine) (s : State) : State :=
  let was := (engineOf s g).live
  let s1 := startGrid g e (setEngine g f (endGrid g e 5 s))
  checkIntSource g e (was && !(engineOf s1 g).live) (checkColumns g e s1)

/-! ### Tuner grids -/

/-- What a tuner feeds ends at index `e`, and its grid with it (R226, R259, R303, R337). -/
def endFeeds (t e reason : Nat) (s : State) : State :=
  let g := t / 2 + t % 2 * 4
  let s1 := if (engineOf s g).cfg.tuner then endGrid g e reason s else s
  setTuner t (closeGrid e) (endRun 1 t reason e (endStreams 1 t e s1))

/-- What a tuner feeds starts on its new grid at index `e`; an engine whose rate would fail R242 stops with OVERRATE
(R259). -/
def startFeeds (t e : Nat) (s : State) : State :=
  if !(tunerRunning s t) then s
  else
    let g := t / 2 + t % 2 * 4
    let s1 := startStreams 1 t e (startRun 1 t e s)
    let x := engineOf s1 g
    if !x.cfg.tuner then s1
    else if capacityOk (fsOf s1.time) g x.cfg (s1.tuners.getD t default).decim then startGrid g e s1
    else setEngine g (fun x => { x with overrate := true }) s1

/-- A change `f` of a tuner that replaces its grid at index `e` (R226, R259), with its consequences downstream. -/
def changeTuner (t e : Nat) (f : Tuner → Tuner) (s : State) : State :=
  let g := t / 2 + t % 2 * 4
  let was := (engineOf s g).live && (engineOf s g).cfg.tuner
  let s1 := startFeeds t e (setTuner t f (endFeeds t e 5 s))
  if was then checkIntSource g e (!(engineOf s1 g).live) (checkLineRates g s1) else s1

end Sys2Proof.Machine
end

