-- ==== Sys2Proof/Machine/Trigger.lean ====
section
/-! DEFINITION. The commands of the trigger unit (R326-R335), and the row that lets it decide (R316). -/

namespace Sys2Proof.Machine

/-- TRIG_DECIDE (R315, R316): the input voltages come, and the unit decides every index up to `k` that every slot has reported. -/
def evTrigDecide (k : Nat) (volts : List Volts) (s : State) : State := decideTo k (bringVolts volts s)

/-! ### Commands (R326-R334) -/

/-- The pattern rule of R314 for every slot configuration given. -/
def patternsOk (cfgs : List SlotConfig) : Bool :=
  cfgs.zipIdx.all fun x =>
    x.1.type != 7 || (maskBits 32 x.1.p0.toNat).all fun i => i != x.2 && (cfgs.getD i default).type != 7

/-- The fields of a slot configuration are in range (R298, R299, R302-R313, R328, R329). -/
def slotFieldsOk (c : SlotConfig) : Bool :=
  match c.type with
  | 0 | 1 =>
    let cmp := field c.p0 1 0
    let th := signed 32 c.p1.toNat
    decide (c.source ≤ 2) && cmp != 3 &&
    (if c.source = 0 then
      (if cmp = 2 then decide (0 ≤ th) && decide (th ≤ 2048) else decide (-2048 ≤ th) && decide (th ≤ 2047)) && decide (c.p2.toNat ≤ 4095)
    else cmp != 2 && decide (c.p1.toNat ≤ 134217728) && decide (c.p2.toNat ≤ 134217728))
  | 2 => decide (c.source ≤ 1) && decide (field c.p1 15 0 ≤ field c.p1 31 16) && decide (field c.p2 27 16 ≤ 2560)
  | 3 => c.source == 0 && decide (field c.p1 15 0 ≤ field c.p1 31 16) && decide (1 ≤ field c.p2 16 0) && decide (field c.p2 16 0 ≤ 65536)
  | 4 => c.source == 0 && decide (field c.p1 20 0 ≤ field c.p2 20 0) && decide (1 ≤ field c.p3 20 0) && decide (field c.p3 20 0 ≤ 1048576)
  | 5 => decide (c.source ≤ 8)
  | 6 => decide (c.source ≤ 2) && decide (32 ≤ timerPeriod c) && decide (timerPeriod c ≤ 2 ^ 48)
      && (c.source != 0 || decide (timerPhase c < timerPeriod c))
  | 7 => c.source == 0 && decide (1 ≤ field c.p2 20 0) && decide (field c.p2 20 0 ≤ 1048576)
  | _ => false

/-- A ONE_SHOT timer, with or without RETRIGGER (R311). -/
def oneShot (c : SlotConfig) : Bool := c.type == 6 && c.source != 0

/-- Every configuration set of the slots that is in force or pending (R314, R743), with slot `i` given. -/
def slotConfigSets (s : State) (i : Nat) (c : SlotConfig) (e : Nat) : List (List SlotConfig) :=
  (futures (afterChanges s) e).map fun t => (t.trig.slots.map fun x => x.cfg).set i c

/-- TRIG_SLOT_CONFIG (R328). -/
def specTrigSlotConfig : CmdSpec :=
  { opcode := 0x0700, plen := plenIs 11, timed := fun _ => .sampleDomain, modes := notShadow,
    addr := fun c => [unitNo 7 (c.arg 0 4 0)],
    params := fun s c =>
      let g := slotConfigOf c
      at32 c && slotFieldsOk g && (slotConfigSets s (c.arg 0 4 0) g (willTakeEffect c s)).all patternsOk
        && (maskBits 32 g.timerMask).all (fun i => oneShot (slotOf (afterChanges s) i).cfg),
    units := fun s c => decide (4 < c.arg 0 11 8) || decide (c.arg 0 13 12 < s.variant.channels),
    lead := lead1us,
    run := fun c e s => (changeTrig e (.config (c.arg 0 4 0) (slotConfigOf c)) s, .done .ok []) }

def slotStateOf : Nat → SlotState
  | 0 => .disabled | 1 => .enabled | _ => .armed

/-- TRIG_ARM (R330). -/
def specTrigArm : CmdSpec :=
  { opcode := 0x0701, plen := plenIs 2, timed := fun _ => .sampleDomain,
    modes := fun m c => m != .shadow && !(c.arg 1 1 0 != 0 && m == .quiet),
    addr := fun c => (maskBits 32 (c.word 0).toNat).map (unitNo 7),
    params := fun _ c => at32 c && c.word 0 != 0 && c.arg 1 1 0 != 3,
    lead := lead1us,
    run := fun c e s => (changeTrig e (.arm (c.word 0).toNat (slotStateOf (c.arg 1 1 0))) s, .done .ok []) }

/-- TRIG_MASK_CONFIG (R308, R331). -/
def specTrigMaskConfig : CmdSpec :=
  { opcode := 0x0702, plen := plenIs 3, timed := fun _ => .sampleDomain, modes := notShadow,
    addr := fun c => [unitNo 7 (32 + c.arg 0 1 0)],
    params := fun _ c => at32 c && decide (1 ≤ c.arg 2 16 0) && decide (c.arg 2 16 0 ≤ 65536) && decide (c.arg 1 15 0 + c.arg 2 16 0 ≤ 65536),
    units := fun s c => decide (c.arg 0 1 0 < s.variant.channels),
    lead := lead1us,
    run := fun c e s =>
      ({ s with trig := { s.trig with masks := modAt s.trig.masks (c.arg 0 1 0) (fun m => { m with settings := m.settings ++ [(e, maskSettingsOf c)] }) } },
        .done .ok []) }

/-- The settings of a comparator in force at index `i` or later (R308): those before the last effective one are past. -/
def maskInForce (i : Nat) (l : List (Nat × MaskSettings)) : List (Nat × MaskSettings) :=
  let past := (l.filter fun x => decide (x.1 ≤ i)).length
  l.drop (past - 1)

/-- TRIG_MASK_LOAD (R308, R332). -/
def specTrigMaskLoad : CmdSpec :=
  { opcode := 0x0703, plen := fun c => decide (3 ≤ c.plen) && decide (c.plen ≤ 242), modes := notShadow,
    addr := fun c => [unitNo 7 (32 + c.arg 0 1 0)],
    params := fun _ c => c.arg 1 15 0 % 2 == 0 && decide (c.arg 1 15 0 + 2 * (c.plen - 2) ≤ 65536),
    units := fun s c => decide (c.arg 0 1 0 < s.variant.channels),
    busy := fun s c =>
      let ch := c.arg 0 1 0
      let o := c.arg 1 15 0
      let used := (maskInForce s.index (s.trig.masks.getD ch default).settings).map (fun x => x.2)
        ++ ((heldOf s 0x0702).filter fun d => d.arg 0 1 0 == ch).map maskSettingsOf
      used.any fun x => decide (o < x.base + x.npts) && decide (x.base < o + 2 * (c.plen - 2)),
    run := fun c _ s =>
      let o := c.arg 1 15 0
      let load : List (Nat × Nat) → List (Nat × Nat) := fun t =>
        (List.range (2 * (c.plen - 2))).foldl (fun t i => sparseSet 32767 t (o + i) (c.arg (2 + i / 2) (16 * (i % 2) + 15) (16 * (i % 2)))) t
      ({ s with trig := { s.trig with masks := modAt s.trig.masks (c.arg 0 1 0) (fun m => { m with table := load m.table }) } }, .done .ok []) }

/-- TRIG_FORCE (R333): the firing and the reply come with the decision of the effective index. -/
def specTrigForce : CmdSpec :=
  { opcode := 0x0704, plen := plenIs 1, timed := fun _ => .sampleDomain,
    modes := fun m _ => m != .shadow && m != .quiet,
    addr := fun c => [unitNo 7 (c.arg 0 4 0)],
    lead := lead1us,
    run := fun c e s =>
      ({ s with trig := { s.trig with forced := s.trig.forced ++ [{ cmd := c.id, slot := c.arg 0 4 0, index := e }] } }, .later) }

/-- The slot's source produces nothing (R309, R310, R317). -/
def sourceIdle (s : State) (t : TrigSlot) : Bool :=
  match t.cfg.type with
  | 0 | 1 => (match slotTuner t.cfg with
    | some u => !tunerRunning s u
    | none => !locked s)
  | 2 => !engineRunning s (t.cfg.channel + t.cfg.source * 4)
  | 3 => !engineRunning s (maskEngine s t.cfg.channel s.index)
  | 4 => !thRunning s t.cfg.channel
  | 5 => !inputReports s t.cfg.source
  | _ => false

/-- RANGE (R305, R307): COL_HI of a BAND_POWER or MASK slot lies beyond the columns of its source. -/
def outOfColumns (s : State) (t : TrigSlot) : Bool :=
  let e := if t.cfg.type = 2 then t.cfg.channel + t.cfg.source * 4 else maskEngine s t.cfg.channel s.index
  (t.cfg.type == 2 || t.cfg.type == 3) && decide ((engineOf s e).cfg.cols ≤ field t.cfg.p1 31 16)

end Sys2Proof.Machine
end

