-- ==== Sys2Proof/Machine/Capture.lean ====
section
/-! DEFINITION. Segmented capture (R336-R362): rings, sheaves, the completion of a slot with its reductions, and the
commands. -/

namespace Sys2Proof.Machine

/-! ### Elements and tags (R14, R223, R353) -/

/-- The values of a container: SAMPLE, or I and Q. -/
def elemValues (kind : Nat) (w : Word) : List Int :=
  if kind = 0 then [signed 12 (field w 15 4)] else [signed 14 (field w 15 2), signed 14 (field w 31 18)]

/-- OVR, INV, NBR, FADE of a container. -/
def elemTags (kind : Nat) (w : Word) : Bool × Bool × Bool × Bool :=
  if kind = 0 then (bit w 3, bit w 2, bit w 1, bit w 0) else (bit w 1, bit w 0, bit w 17, bit w 16)

def elemInv (kind : Nat) (w : Word) : Bool := (elemTags kind w).2.1

/-- v^2 of an element (R352). -/
def elemPower (kind : Nat) (w : Word) : Nat := ((elemValues kind w).map fun v => v.natAbs * v.natAbs).sum

/-- The bytes of an element's container. -/
def elemBytes (kind : Nat) (w : Word) : List Byte := if kind = 0 then halfBytes (w.toNat % 65536) else wordBytes w

/-! ### Reductions (R352-R355) -/

/-- CHANGE_ONLY (R353): the kept offsets after `last`, for the elements from offset `i` on. -/
def changeKept (kind deadband gap : Nat) (lastW : Word) : Nat → Nat → List Word → List (Nat × Word)
  | _, _, [] => []
  | last, i, w :: t =>
    let far := (List.zipWith (fun a b => (a - b).natAbs) (elemValues kind w) (elemValues kind lastW)).any fun d => decide (deadband < d)
    if elemTags kind w != elemTags kind lastW || far || gap ≤ i - last then (i, w) :: changeKept kind deadband gap w i (i + 1) t
    else changeKept kind deadband gap lastW last (i + 1) t

/-- All entries of a CHANGE_ONLY lane: element 0, the kept ones, and the last element. -/
def changeEntries (kind deadband gap : Nat) (l : List Word) : List (List Byte) :=
  match l with
  | [] => []
  | w :: t =>
    let kept := (0, w) :: changeKept kind deadband gap w 0 1 t
    let n := l.length - 1
    let all := if (kept.getLast?.map fun x => x.1) == some n then kept else kept ++ [(n, l.getD n 0)]
    all.map fun x => wordBytes (BitVec.ofNat 32 x.1) ++ wordBytes (if kind = 0 then BitVec.ofNat 32 (x.2.toNat % 65536) else x.2)

/-- Cut elements into blocks of `n`. -/
def elemBlocks (n : Nat) : Nat → List Word → List (List Word)
  | 0, _ => []
  | f + 1, l => if l.isEmpty then [] else l.take (max 1 n) :: elemBlocks n f (l.drop (max 1 n))

/-- One MINMAX entry (R352, R354). -/
def minMaxEntry (block : List Word) : List Byte :=
  let valid := block.filter fun w => !elemInv 0 w
  let value : Word → Int := fun w => (elemValues 0 w).headD 0
  match valid with
  | [] => halfBytes 4 ++ halfBytes 4
  | w :: t =>
    let lo := t.foldl (fun a b => if value b < value a then b else a) w
    let hi := t.foldl (fun a b => if value a < value b then b else a) w
    halfBytes (lo.toNat % 65536) ++ halfBytes (hi.toNat % 65536)

/-- One BLOCK_POWER entry (R352, R354). -/
def blockPowerEntry (kind : Nat) (block : List Word) : List Byte :=
  let valid := block.filter fun w => !elemInv kind w
  let sum := (valid.map (elemPower kind)).sum
  let mean := if valid.isEmpty then 0 else lin32 (Dyad.divNat { m := sum, e := 0 } valid.length)
  let any (f : Bool × Bool × Bool × Bool → Bool) : Bool := block.any fun w => f (elemTags kind w)
  wordBytes mean ++ wordBytes (BitVec.ofNat 32 (valid.length + (if any (fun t => t.1) then 2 ^ 17 else 0)
    + (if any (fun t => t.2.2.1) then 2 ^ 18 else 0) + (if any (fun t => t.2.2.2) then 2 ^ 19 else 0)))

/-- Every entry of a lane, before CAP (R352-R354). -/
def laneEntries (kind : Nat) (l : Lane) (elems : List Word) : List (List Byte) :=
  match l.kind with
  | 0 => changeEntries kind l.deadband l.param elems
  | 1 => (elemBlocks l.param elems.length elems).map minMaxEntry
  | 2 => (elemBlocks l.param elems.length elems).map fun b => elemBytes kind (b.headD 0)
  | _ => (elemBlocks l.param elems.length elems).map (blockPowerEntry kind)

/-! ### Slot completion (R346-R350) -/

/-- The container of an element whose ring word is uncorrectable (R102): no value, and INV alone. -/
def invElement (kind : Nat) : Word := if kind = 0 then 4#32 else 1#32

/-- The containers of a segment's elements, as its ring gives them (R14, R102, R223). -/
def segmentElements (s : State) (c : SheafConfig) (g : Segment) : List Word :=
  let bad := ((ringOf s c.kind c.unit).map fun r => r.bad).getD []
  (elementWords s c.kind c.unit g.k g.first g.count).zipIdx.map fun x =>
    if bad.contains (g.first + x.2) then invElement c.kind else x.1

/-- The flags of a segment (R347): the tags of the elements, and what was true while any was taken. -/
def segmentFlags (s : State) (kind : Nat) (g : Segment) (elems : List Word) : SpecFlags :=
  if kind = 2 then g.records.foldl (fun a r => orFlags a r.flags) noFlags
  else
    let any (f : Bool × Bool × Bool × Bool → Bool) : Bool := elems.any fun w => f (elemTags kind w)
    let note := notesOver s g.start (g.stop + 1)
    { ovr := any (fun t => t.1), nbr := any (fun t => t.2.2.1), fade := any (fun t => t.2.2.2), holdover := note.holdover, slew := note.slew,
      cal := note.cal, mixedGain := false }

/-- The segment header (R347). -/
def segmentHeader (n : Nat) (c : SheafConfig) (g : Segment) (flags : SpecFlags) (trunc inv : Nat) (lanes : List Nat) : List Word :=
  let b : Bool → Nat → Nat := fun v i => if v then 2 ^ i else 0
  [ BitVec.ofNat 32 (n + c.kind * 8 + c.unit * 32 + g.close.getD 0 * 2 ^ 8 + (2 ^ c.lanes.length - 1) * 2 ^ 12 + trunc * 2 ^ 16
      + b g.preShort 20 + b c.full 21 + b flags.ovr 22 + b flags.nbr 23 + b flags.fade 24 + b flags.holdover 25 + b flags.slew 26
      + b flags.cal 27), lo32 g.number, lo32 g.trigSeq ]
  ++ dtsWords g.stamp ++ u64Words g.k ++ u64Words g.start ++ [BitVec.ofNat 32 g.count, BitVec.ofNat 32 inv]
  ++ (List.range 4).map fun i => BitVec.ofNat 32 (lanes.getD i 0)

/-- Write a closed segment into its slot (R346-R348), count it, and end a ONCE sheaf after its last slot (R344, R362). -/
def completeSegment (n : Nat) (g : Segment) (s : State) : State :=
  let sh := sheafOf s n
  let c := sh.cfg
  let esize := g.esize
  let base := segmentBase esize c g.number
  let parts := slotParts esize c
  let elems := if c.kind = 2 then [] else segmentElements s c g
  let body := if c.kind = 2 then g.records.flatMap fun r => r.bytes else elems.flatMap (elemBytes c.kind)
  let lanes := c.lanes.zipIdx.map fun x => (x.2, laneEntries c.kind x.1 elems, x.1.cap)
  let counts := lanes.map fun x => min x.2.1.length x.2.2
  let trunc := maskOf ((lanes.filter fun x => decide (x.2.2 < x.2.1.length)).map fun x => x.1)
  let inv := if c.kind = 2 then (g.records.filter fun r => r.invalid).length else (elems.filter (elemInv c.kind)).length
  let head := segmentHeader n c g (segmentFlags s c.kind g elems) trunc inv counts
  let s1 := if c.full then writeAt c.handle (base + 64) body s else s
  let s2 := lanes.foldl (fun a x => writeAt c.handle (base + parts.1.getD x.1 0) ((x.2.1.take x.2.2).flatMap id) a) s1
  let s3 := writeAt c.handle base (bytesOfWords head) s2
  let s4 := writeAt c.handle (base + parts.2) (bytesOfWords ([lo32 g.number, 1#32, BitVec.ofNat 32 g.gen] ++ List.replicate 13 0)) s3
  let last := !c.ring && decide (g.number + 1 = c.nseg) && sh.next == g.number + 1
  let s5 := setSheaf n (fun sh => { sh with
    armed := sh.armed && !last && !(sh.finish && sh.seg.isNone), finish := sh.finish && !last && sh.seg.isSome,
    lastClose := g.close.getD 0,
    segments := satAdd 32 sh.segments 1, preShort := if g.preShort then satAdd 32 sh.preShort 1 else sh.preShort,
    early := if g.close.getD 0 = 0 then sh.early else satAdd 32 sh.early 1,
    truncated := if trunc = 0 then sh.truncated else satAdd 32 sh.truncated 1 }) s4
  let s5 := offerItem 5 n g.number g.k (.slot c.handle base parts.2 (base + parts.2)) s5
  let s6 := { s5 with cap := { s5.cap with queue := if mqTakes s5 2 then s5.cap.queue ++ [head] else s5.cap.queue } }
  if last then notify 0x0801 [BitVec.ofNat 32 n, BitVec.ofNat 32 (sheafOf s6 n).sinceArm] g.stop s6 else s6

/-- Complete the oldest closed segment of a sheaf. -/
def completeOldest (n : Nat) (s : State) : State :=
  match (sheafOf s n).closing with
  | g :: rest => completeSegment n g (setSheaf n (fun sh => { sh with closing := rest }) s)
  | [] => s

/-- Complete every closed segment of a sheaf. -/
def completeAll (n : Nat) (s : State) : State := (List.range (sheafOf s n).closing.length).foldl (fun a _ => completeOldest n a) s

/-- An arming or disarming of a sheaf at index `i` or before it has still to take its turn among the decisions (R342). -/
def sheafAwaits (s : State) (n i : Nat) : Bool :=
  s.trig.changes.any fun x => decide (x.1 ≤ i) && (match x.2 with | .sheaves m _ _ => m.testBit n | _ => false)

/-- The word of an uncorrectable error inside a ring, as a place in it. -/
def errorPlace (s : State) (r : CapRing) (e : MemError) : Option Nat :=
  let base := r.auOffset * 1048576
  match partByHandle s r.handle with
  | some p =>
    if !e.corrected && p.slot == e.place && decide (base ≤ e.offset) && decide (e.offset < base + r.auCount * 1048576) then some (e.offset / 8 * 8 - base)
    else none
  | none => none

/-- The elements from `first` on whose containers a word of the ring holds. -/
def elementsIn (r : CapRing) (first place : Nat) : List Nat :=
  let esize := if r.kind = 0 then 2 else 4
  (List.range (8 / esize)).map fun i => first + (place / esize + i + r.depth - first % (max 1 r.depth)) % (max 1 r.depth)

/-- What the reads of a ring find uncorrectable (R102, R350): elements of a sample source become INV, and a spectra source loses a record.
Log entry 10 (DESIGN CHOICE, safe). -/
def ringErrors (n : Nat) (errors : List MemError) (s : State) : State :=
  let sh := sheafOf s n
  match ringOf s sh.cfg.kind sh.cfg.unit with
  | none => s
  | some r =>
    let places := errors.filterMap (errorPlace s r)
    if sh.cfg.kind = 2 then
      match (places.map fun o => o / max 1 r.recSize).min? with
      | some i => (match r.records[i]? with
        | some x => closeSegment n 6 (x.key / 2 ^ 32) s
        | none => s)
      | none => s
    else
      let first := ((sh.closing.head?.or sh.seg).map fun g => g.first).getD 0
      setRing r.kind r.unit (fun r => { r with bad := r.bad ++ (places.flatMap (elementsIn r first)).filter fun e => !r.bad.contains e }) s

/-- The open segment of a sheaf closes where its elements have come (R340, R349): those of a sample source up to END, or LEN records. -/
def closeAtEnd (k n : Nat) (s : State) : State :=
  let sh := sheafOf s n
  match sh.seg with
  | none => s
  | some g =>
    if sh.cfg.kind = 2 then
      match segmentRecords sh.cfg g.k (((ringOf s 2 sh.cfg.unit).map fun r => r.records).getD []) with
      | some (recs, _, wanted) =>
        if recs.length = wanted then closeSegment n 0 ((recs.getLast?.map fun r => r.key / 2 ^ 32 + 1).getD 0) s else s
      | none => s
    else if g.stop ≤ k && decide (g.stop < heldBefore s) && !sheafAwaits s n g.stop then closeSegment n 0 (g.stop + 1) s
    else s

/-- SEGMENT_CLOSE (R349, R350): the segment closes at END, or with DROPPED when a record of its spectra source was lost, and the slots of closed
segments complete. -/
def evSegmentClose (k n : Nat) (dropped : Bool) (volts : List Volts) (errors : List MemError) (s : State) : State :=
  let s1 := decideTo k (bringErrors errors (bringVolts volts s))
  let s2 := ringErrors n errors s1
  let s3 := if dropped && (sheafOf s2 n).cfg.kind == 2 then closeSegment n 6 (2 ^ 64) s2 else s2
  completeAll n (closeAtEnd k n s3)

/-! ### Commands (R356-R361) -/

/-- The byte ranges of rings, in force or pending (R743), and of configured sheaves (R346, R358): handle, offset, bytes; rings but for
`skip`, sheaves but for `but`. -/
def captureRegions (s : State) (skip : Nat × Nat) (but : Nat) : List (Word × Nat × Nat) :=
  ((s.cap.rings ++ ((heldOf s 0x0800).filter fun c => c.word 1 != 0).map (boundRing s)).filter fun r => (r.kind, r.unit) != skip).map
      (fun r => (r.handle, r.auOffset * 1048576, r.auCount * 1048576))
    ++ (s.cap.sheaves.zipIdx.filter fun x => x.1.configured && x.2 != but).map fun x =>
        (x.1.cfg.handle, x.1.cfg.offset, x.1.cfg.nseg * segmentStride x.1.esize x.1.cfg)

/-- A capture source names a unit of R336. -/
def sourceInRange (kind unit : Nat) : Bool := (kind = 0 && unit < 4) || (kind = 1 && unit < 8) || (kind = 2 && unit < 8)

def sourcePresent (s : State) (kind unit : Nat) : Bool :=
  match kind with
  | 0 => decide (unit < s.variant.channels)
  | 1 => decide (unit < s.variant.tuners)
  | _ => s.variant.hasEngine unit

/-- The source produces elements now, so that a ring fills from the effective index (R337). -/
def sourceProduces (s : State) (kind unit : Nat) : Bool :=
  modeRunsProducts (runMode s) && locked s && (match kind with
    | 0 => true
    | 1 => tunerRunning s unit
    | _ => engineRunning s unit)

/-- The sheaves as every change that has come leaves them (R339, R360): what is decided later is still to reach them. -/
def sheafNow (s : State) (n : Nat) : Sheaf := sheafOf (afterChanges (decideTo s.index s)) n

/-- The run of a source's ring ends at index `e`, and the ring that a CAP_SOURCE names, if any, starts one (R337, R358). -/
def rebind (c : Cmd) (e : Nat) (s : State) : State :=
  let k := c.arg 0 1 0
  let u := c.arg 0 10 8
  let s1 := endRun k u 5 e (decideTo (e - 1) s)
  let s2 := { s1 with cap := { s1.cap with rings := ringsAfter s1 c } }
  if sourceProduces s2 k u then startRun k u e s2 else s2

/-- CAP_SOURCE (R336-R338, R358): the ring starts a new run at the effective index. -/
def specCapSource : CmdSpec :=
  { opcode := 0x0800, plen := plenIs 3, modes := notShadow,
    addr := fun c => [unitNo 8 (32 + c.arg 0 1 0 * 8 + c.arg 0 10 8)],
    params := fun _ c =>
      sourceInRange (c.arg 0 1 0) (c.arg 0 10 8) && (c.word 1 == 0 || (decide (1 ≤ c.arg 2 24 16) && decide (c.arg 2 24 16 ≤ 384))),
    units := fun s c => sourcePresent s (c.arg 0 1 0) (c.arg 0 10 8),
    fits := fun s c => c.word 1 == 0 || (match bindable s (c.word 1) 1 with
      | some p => decide (c.arg 2 8 0 + c.arg 2 24 16 ≤ p.au)
          && (captureRegions s (c.arg 0 1 0, c.arg 0 10 8) 8).all (fun r => !rangesMeet (c.word 1) (c.arg 2 8 0 * 1048576) (c.arg 2 24 16 * 1048576) r.1 r.2.1 r.2.2)
      | none => false),
    busy := fun s c => (ringOf s (c.arg 0 1 0) (c.arg 0 10 8)).isSome
      && (List.range s.cap.sheaves.length).any (fun n =>
        let sh := sheafNow s n
        sh.armed && sh.cfg.kind == c.arg 0 1 0 && sh.cfg.unit == c.arg 0 10 8),
    lead := lead1us,
    run := fun c e s =>
      (rebind c e s, .done .ok (BitVec.ofNat 32 (if c.word 1 = 0 then 0 else (boundRing s c).depth) :: u64Words e)) }

/-- The lanes in a CAP_SHEAF_CONFIG (R352, R359). -/
def lanesOf (c : Cmd) : List Lane :=
  (List.range ((c.plen - 6) / 3)).map fun i =>
    { kind := c.arg (6 + 3 * i) 1 0, deadband := c.arg (6 + 3 * i) 29 16, param := c.arg (7 + 3 * i) 24 0, cap := c.arg (8 + 3 * i) 24 0 }

def sheafConfigOf (c : Cmd) : SheafConfig :=
  { kind := c.arg 0 4 3, unit := c.arg 0 7 5, full := c.flag 0 8, ring := c.flag 0 9, pre := c.arg 1 27 0, len := c.arg 2 24 0,
    nseg := c.arg 3 16 0, handle := c.word 4, offset := (c.word 5).toNat, lanes := lanesOf c }

/-- A lane passes R352 and R359. -/
def laneOk (kind : Nat) (l : Lane) : Bool :=
  decide (1 ≤ l.cap) && decide (l.cap ≤ 16777216) && (match l.kind with
    | 0 => decide (l.deadband ≤ (if kind = 0 then 4095 else 16383)) && decide (1 ≤ l.param) && decide (l.param ≤ 16777216)
    | 1 => kind == 0 && l.deadband == 0 && decide (2 ≤ l.param) && decide (l.param ≤ 65536)
    | 2 => l.deadband == 0 && decide (2 ≤ l.param) && decide (l.param ≤ 65536)
    | _ => l.deadband == 0 && decide (1 ≤ l.param) && decide (l.param ≤ 65536))

/-- A sheaf configuration fits its source's ring and its region (R346, R359) in every configuration that will be in force. -/
def sheafFits (s : State) (n : Nat) (g : SheafConfig) : Bool :=
  let size (t : State) : Nat := g.nseg * segmentStride (elementSize t g.kind g.unit) g
  (futures s s.index).all (fun t =>
      (match ringDepth t g.kind g.unit with
        | some d => decide (g.pre ≤ d / 2)
        | none => false)
      && (match bindable s g.handle 1 with
        | some p => decide (g.offset + size t ≤ p.au * 1048576)
        | none => false)
      && (captureRegions s (9, 9) n).all (fun r => !rangesMeet g.handle g.offset (size t) r.1 r.2.1 r.2.2))

/-- CAP_SHEAF_CONFIG (R4, R339, R346, R352, R359). -/
def specCapSheafConfig : CmdSpec :=
  { opcode := 0x0801, plen := fun c => [6, 9, 12, 15, 18].contains c.plen, modes := notShadow,
    addr := fun c => [unitNo 8 (c.arg 0 2 0)],
    params := fun _ c =>
      let g := sheafConfigOf c
      sourceInRange g.kind g.unit && (g.kind != 2 || g.lanes.isEmpty) && g.lanes.all (laneOk g.kind)
        && decide (1 ≤ g.len) && decide (g.len ≤ (if g.kind = 2 then 65536 else 16777216)) && decide (1 ≤ g.nseg) && decide (g.nseg ≤ 65536)
        && g.offset % 64 == 0,
    units := fun s c =>
      sourcePresent s (c.arg 0 4 3) (c.arg 0 7 5)
        && (s.variant == .ka4820 || (decide ((lanesOf c).length ≤ 1) && (lanesOf c).all fun l => l.kind == 0)),
    fits := fun s c => sheafFits s (c.arg 0 2 0) (sheafConfigOf c),
    busy := fun s c => (sheafNow s (c.arg 0 2 0)).armed,
    run := fun c _ s =>
      let g := sheafConfigOf c
      let esize := elementSize s g.kind g.unit
      let st := segmentStride esize g
      (setSheaf (c.arg 0 2 0) (fun sh => { sh with configured := true, cfg := g, esize := esize, sourceChanged := false, bindingLost := false })
          (completeAll (c.arg 0 2 0) (decideTo s.index s)),
        .done .ok [BitVec.ofNat 32 st, BitVec.ofNat 32 (g.nseg * st), BitVec.ofNat 32 (rearm s),
          BitVec.ofNat 32 (((ringOf s g.kind g.unit).map fun r => r.depth).getD 0)]) }

/-- A sheaf can be armed (R338, R360): configured, its region bound, and its source with a ring whenever the command is effective. -/
def sheafArmable (s : State) (c : Cmd) (n : Nat) : Bool :=
  let sh := sheafNow s n
  sh.configured && !sh.sourceChanged && (partForUse s sh.cfg.handle).isSome
    && (futures s (willTakeEffect c s)).all fun t => (ringOf t sh.cfg.kind sh.cfg.unit).isSome

/-- CAP_ARM (R360). -/
def specCapArm : CmdSpec :=
  { opcode := 0x0802, plen := plenIs 1, timed := fun _ => .sampleDomain,
    modes := fun m c => m != .shadow && !(c.flag 0 8 && m == .quiet),
    addr := fun c => (maskBits 8 (c.arg 0 7 0)).map (unitNo 8),
    params := fun s c => at32 c && c.arg 0 7 0 != 0 && (!c.flag 0 8 || (maskBits 8 (c.arg 0 7 0)).all (sheafArmable s c)),
    lead := lead1us,
    run := fun c e s => (changeTrig e (.sheaves (c.arg 0 7 0) (c.flag 0 8) (c.flag 0 9)) s, .done .ok []) }

/-- CAP_STATUS (R361). -/
def specCapStatus : CmdSpec :=
  { opcode := 0x0803, plen := plenIs 1, addr := fun c => [unitNo 8 (c.arg 0 2 0)],
    run := fun c _ s =>
      let n := c.arg 0 2 0
      let sh := sheafNow s n
      let n0 := sheafOf s n
      (if c.flag 0 8 then setSheaf n (fun sh => { sh with segments := 0, ignored := 0, preShort := 0, early := 0, truncated := 0 }) s else s,
        .done .ok [BitVec.ofNat 32 ((if sh.armed then 1 else 0) + (if sh.seg.isSome then 2 else 0) + (if modeRunsProducts (runMode s) then 4 else 0)
            + (if sh.sourceChanged then 8 else 0) + (if sh.bindingLost then 16 else 0) + sh.lastClose * 256),
          lo32 sh.next, BitVec.ofNat 32 (((ringOf s sh.cfg.kind sh.cfg.unit).map fun r => r.depth).getD 0), BitVec.ofNat 32 n0.segments,
          BitVec.ofNat 32 n0.ignored, BitVec.ofNat 32 n0.preShort, BitVec.ofNat 32 n0.early, BitVec.ofNat 32 n0.truncated]) }

end Sys2Proof.Machine
end

