-- ==== Sys2Proof/Machine/Integ.lean ====
section
/-! DEFINITION. The commands of the integration unit and of the Threshers (R381-R390). -/

namespace Sys2Proof.Machine

/-! ### Commands (R381-R389) -/

/-- A region of integration traffic passes R372 or R376: role 3, inside its partition, offset a multiple of 64. -/
def regionFits (s : State) (h : Word) (role o n : Nat) : Bool :=
  o % 64 == 0 && (match bindable s h role with
    | some p => decide (o + n ≤ p.au * 1048576)
    | none => false)

def thSize (c : ThConfig) : Nat := ceilDiv (8 * c.count) 64 * 64

/-- The configuration that a change of a Thresher brings. -/
def ThAct.cfg? : ThAct → Option ThConfig
  | .config g => some g
  | _ => none

/-- The configuration that a change of the integration unit brings. -/
def IntAct.cfg? : IntAct → Option IntConfig
  | .config g => some g
  | _ => none

/-- The Thresher configurations in force or pending, with their channels. -/
def thConfigs (s : State) : List (Nat × ThConfig) :=
  s.th.zipIdx.flatMap (fun x => (x.1.cfg :: x.1.late.filterMap (fun a => a.2.cfg?)).map fun g => (x.2, g))
    ++ (heldOf s 0x0904).map (fun c => (c.arg 0 1 0, thConfigOf c))

/-- The Thresher regions in force or pending: channel, handle, offset, bytes. -/
def thRegions (s : State) : List (Nat × Word × Nat × Nat) :=
  (thConfigs s).map fun x => (x.1, x.2.handle, x.2.offset, thSize x.2)

/-- The integration regions in force or pending. -/
def intRegions (s : State) : List (Word × Nat × Nat) :=
  (s.intg.cfg :: s.intg.late.filterMap (fun a => a.2.cfg?) ++ (heldOf s 0x0900).map intConfigOf).map fun c => (c.handle, c.offset, 2 * c.half)

/-- The fields of an INT_CONFIG (R364, R365, R367, R383). -/
def intFieldsOk (c : IntConfig) : Bool :=
  c.products != 0 && decide (c.sumLog2 ≤ 6) && decide (c.accShift ≤ 56) && decide (1 ≤ c.nbins) && decide (c.nbins ≤ 1048576)
    && c.nbins % 2 ^ c.sumLog2 == 0 && decide (c.nout ≤ 262144) && decide (2 ^ 20 ≤ c.frameLen) && decide (c.frameLen ≤ 2 ^ 50)

/-- INT_CONFIG (R370, R383). -/
def specIntConfig : CmdSpec :=
  { opcode := 0x0900, plen := plenIs 7, timed := fun _ => .sampleDomain, modes := notShadow, addr := fun _ => [unitNo 9 16],
    params := fun _ c => at32 c && intFieldsOk (intConfigOf c) && (c.word 6).toNat % 64 == 0,
    units := fun s c => (intChannels (c.arg 0 9 0)).all fun ch => decide (ch < s.variant.channels),
    fits := fun s c =>
      let g := intConfigOf c
      (futures s (willTakeEffect c s)).all (fun t => intSourcesOk t g)
        && regionFits s g.handle 3 g.offset (2 * g.half)
        && (thRegions s).all (fun r => !rangesMeet g.handle g.offset (2 * g.half) r.2.1 r.2.2.1 r.2.2.2),
    lead := lead1us,
    run := fun c e s =>
      let g := intConfigOf c
      (intAct e (.config g) s, .done .ok ([BitVec.ofNat 32 g.half, BitVec.ofNat 32 (accRate s g / 1000000).ceil.toNat] ++ u64Words e)) }

/-- INT_ENABLE (R382, R384). Log entry 15 (DEDUCED, unsafe). -/
def specIntEnable : CmdSpec :=
  { opcode := 0x0901, plen := plenIs 1, timed := fun _ => .sampleDomain,
    modes := fun m c => m != .shadow && !(c.flag 0 0 && (m == .quiet || m == .record)), addr := fun _ => [unitNo 9 16],
    params := fun s c => at32 c && (!c.flag 0 0 || (match (futures (afterLate s) (willTakeEffect c s)).head? with
      | some t => t.intg.cfg.handle != 0
      | none => false)),
    lead := lead1us,
    run := fun c e s => (intAct e (.enable (c.flag 0 0)) s, .done .ok []) }

/-- INT_STATUS (R385). -/
def specIntStatus : CmdSpec :=
  { opcode := 0x0902, plen := plenIs 1, addr := fun _ => [unitNo 9 16],
    run := fun c _ s =>
      let u := (afterLate s).intg
      (if c.flag 0 8 then setInt (fun u => { u with frames := 0, droppedSets := 0, satFrames := 0 }) s else s,
        .done .ok ([BitVec.ofNat 32 ((if u.enabled then 1 else 0) + (if u.enabled && modeRunsIntegration (runMode s) then 2 else 0)
            + (if u.mismatch then 4 else 0) + (if u.bindingLost then 8 else 0) + u.configGen * 256), lo32 u.seq]
          ++ u64Words ((u.frame.map fun f => f.stop).getD 0)
          ++ [BitVec.ofNat 32 s.intg.frames, BitVec.ofNat 32 s.intg.droppedSets, BitVec.ofNat 32 s.intg.satFrames])) }

/-- INT_HEADER (R386). -/
def specIntHeader : CmdSpec :=
  { opcode := 0x0903, plen := plenIs 1, addr := fun _ => [unitNo 9 16],
    run := fun c _ s =>
      let h := if c.flag 0 0 then s.intg.header1 else s.intg.header0
      (s, .done .ok (if h.isEmpty then List.replicate 16 0 else h)) }

/-- The fields of a TH_CONFIG (R376, R387). -/
def thFieldsOk (g : ThConfig) : Bool :=
  decide (3 ≤ g.skLog2) && decide (g.skLog2 ≤ 12) && decide (1 ≤ g.count) && decide (g.count ≤ 262144) && g.offset % 64 == 0

/-- TH_CONFIG (R376, R387). Log entry 48 (DEDUCED, unsafe). -/
def specThConfig : CmdSpec :=
  { opcode := 0x0904, plen := plenIs 6, timed := fun _ => .sampleDomain, modes := notShadow, addr := fun c => [unitNo 9 (c.arg 0 1 0)],
    params := fun _ c => at32 c && thFieldsOk (thConfigOf c),
    units := fun s c => decide (c.arg 0 1 0 < s.variant.channels),
    fits := fun s c =>
      let g := thConfigOf c
      let ch := c.arg 0 1 0
      (futures s (willTakeEffect c s)).all (fun t =>
            let x := (engineOf t (if g.zoom then ch + 4 else ch)).cfg
            decide (x.binStart ≤ g.first) && decide (g.first + g.count ≤ x.binStart + x.binCount))
        && regionFits s g.handle 3 g.offset (thSize g)
        && (thRegions s).all (fun r => r.1 == ch || !rangesMeet g.handle g.offset (thSize g) r.2.1 r.2.2.1 r.2.2.2)
        && (intRegions s).all (fun r => !rangesMeet g.handle g.offset (thSize g) r.1 r.2.1 r.2.2),
    lead := lead1us,
    run := fun c e s => (thAct (c.arg 0 1 0) e (.config (thConfigOf c)) s, .done .ok (BitVec.ofNat 32 (thSize (thConfigOf c)) :: u64Words e)) }

/-- TH_ENABLE (R382, R388): a Thresher already in the requested state is left alone. -/
def specThEnable : CmdSpec :=
  { opcode := 0x0905, plen := plenIs 1, timed := fun _ => .sampleDomain,
    modes := fun m c => m != .shadow && !(c.flag 0 8 && m == .quiet),
    addr := fun c => (maskBits 4 (c.arg 0 3 0)).map (unitNo 9),
    params := fun _ c => at32 c && c.arg 0 3 0 != 0,
    units := fun s c => s.variant.hasChannels (c.arg 0 3 0),
    fits := fun s c => !c.flag 0 8 || (match (futures (afterLate s) (willTakeEffect c s)).head? with
      | some t => (maskBits 4 (c.arg 0 3 0)).all fun ch => (t.th.getD ch default).cfg.handle != 0
      | none => false),
    lead := lead1us,
    run := fun c e s =>
      ((maskBits 4 (c.arg 0 3 0)).foldl (fun a ch =>
        if ((afterLate a).th.getD ch default).enabled == c.flag 0 8 then a else thAct ch e (if c.flag 0 8 then .start else .stop) a) s, .done .ok []) }

/-- TH_STATUS (R389). -/
def specThStatus : CmdSpec :=
  { opcode := 0x0906, plen := plenIs 1, addr := fun c => [unitNo 9 (c.arg 0 1 0)],
    units := fun s c => decide (c.arg 0 1 0 < s.variant.channels),
    run := fun c _ s =>
      let ch := c.arg 0 1 0
      let v := afterLate s
      let t := v.th.getD ch default
      (if c.flag 0 8 then setTh ch (fun t => { t with skFlags := 0, powFlags := 0, dropped := 0 }) s else s,
        .done .ok [BitVec.ofNat 32 ((if t.enabled then 1 else 0) + (if thRunning v ch then 2 else 0)
            + (if thRunning v ch && decide (t.valid < 2 ^ (t.cfg.skLog2 + 1)) then 4 else 0)),
          BitVec.ofNat 32 t.valid, BitVec.ofNat 32 t.skFlags, BitVec.ofNat 32 t.powFlags, BitVec.ofNat 32 t.dropped, BitVec.ofNat 32 t.restarts]) }

end Sys2Proof.Machine
end

