-- ==== Sys2Proof/Machine/Mq.lean ====
section
/-! DEFINITION. The metadata queue (R451-R470): items, lines, consumers, flush, and the commands. -/

namespace Sys2Proof.Machine

def setMq (f : MqUnit → MqUnit) (s : State) : State := { s with mq := f s.mq }

/-! ### Positions and room (R451, R454, R458) -/

/-- The size of the bound partition; 0 when none is bound. -/
def mqSize (s : State) : Nat :=
  match partByHandle s s.mq.handle with
  | some p => p.au * 1048576
  | none => 0

/-- The position of the next doubleword. -/
def MqUnit.writePos (m : MqUnit) : Nat := m.lineEnd + m.buffer.length

/-- A read position moved past padding: the first item at or after it, or the write position. -/
def MqUnit.readPos (m : MqUnit) (p : Nat) : Nat := ((m.items.find? fun x => decide (p ≤ x.start)).map fun x => x.start).getD m.writePos

/-- The slowest read position (R458). -/
def MqUnit.oldest (m : MqUnit) : Nat := m.readers.foldl (fun a r => min a (m.readPos r.2)) (m.readPos m.hostPos)

/-- Every consumer has room for `n` bytes beyond the 64 kept free (R454). -/
def mqRoom (s : State) (n : Nat) : Bool := decide (n + 64 + (s.mq.writePos - s.mq.oldest) ≤ mqSize s)

/-- An item is readable once the line with its last doubleword is written (R457). -/
def MqUnit.isReadable (m : MqUnit) (x : MqItem) : Bool := decide (x.start + x.size ≤ m.lineEnd)

/-- The readable items at or after a position. -/
def MqUnit.readable (m : MqUnit) (p : Nat) : List MqItem := m.items.filter fun x => decide (p ≤ x.start) && m.isReadable x

/-- LEVEL (R459). -/
def mqLevel (s : State) : Nat := ((s.mq.readable s.mq.hostPos).map fun x => x.size).sum

/-- Ring space is freed when every pointer has passed it (R458). -/
def mqTrim (s : State) : State := setMq (fun m => { m with items := m.items.filter (fun x => decide (m.oldest ≤ x.start)) }) s

/-- MQ_LEVEL once per crossing (R459, R470). Log entry 54 (DEDUCED, unsafe). -/
def mqLevelCheck (s : State) : State :=
  if mqLevel s < s.mq.threshold then setMq (fun m => { m with armed := true }) s
  else if s.mq.armed && s.mq.threshold != 0 then
    notify 0x0C01 [BitVec.ofNat 32 (mqLevel s), lo32 s.mq.seq] s.index (setMq (fun m => { m with armed := false }) s)
  else s

/-! ### Lines (R456) -/

/-- Write bytes at a position of the ring. -/
def mqRingWrite (pos : Nat) (bytes : List Byte) (s : State) : State :=
  let size := max 1 (mqSize s)
  let a := pos % size
  writeAt s.mq.handle 0 (bytes.drop (size - a)) (writeAt s.mq.handle a (bytes.take (size - a)) s)

/-- Accept doublewords: full lines go to the ring. -/
def mqWrite (bytes : List Byte) (s : State) : State :=
  let all := s.mq.buffer ++ bytes
  let n := all.length / 64 * 64
  setMq (fun m => { m with lineEnd := m.lineEnd + n, buffer := all.drop n }) (mqRingWrite s.mq.lineEnd (all.take n) s)

/-- Pad and write a partly filled line (R456). -/
def mqPad (s : State) : State :=
  if s.mq.buffer.isEmpty then s
  else
    let n := 64 - s.mq.buffer.length
    setMq (fun m => { m with padBytes := satAdd 32 m.padBytes n }) (mqWrite (List.replicate n 0) s)

/-- The end of an item: with LINGER = 0 its line is written at once. -/
def mqItemEnd (s : State) : State := mqLevelCheck (if s.mq.linger = 0 then mqPad s else s)

/-! ### Acceptance (R452-R455) -/

/-- The wrapper of an item (R453). Log entry 51 (DEDUCED, unsafe). -/
def mqWrapper (producer unit tag dwords seq accept : Nat) (loss : Bool) : List Word :=
  [BitVec.ofNat 32 (producer + unit % 8 * 16 + (if loss then 128 else 0) + tag % 256 * 256 + dwords * 65536), lo32 seq] ++ u64Words accept

/-- The bytes an item takes. -/
def mqItemBytes (payload : List Word) : Nat := 16 + (payload.length + 1) / 2 * 8

/-- The wrapper of a device producer arrives (R454): the item is taken whole or dropped whole. -/
def mqAccept (producer unit : Nat) (payload : List Word) (s : State) : State :=
  let n := mqItemBytes payload
  if !mqRoom s n then
    setMq (fun m => { m with dropped := satAdd 32 m.dropped 1, loss := m.loss.filter (fun p => p != producer) ++ [producer] }) s
  else
    let head := mqWrapper producer unit 0 (payload.length / 2) s.mq.seq s.index (s.mq.loss.contains producer)
    let x : MqItem := { seq := s.mq.seq, start := s.mq.writePos, size := n, accept := s.index }
    mqItemEnd (mqWrite (bytesOfWords (head ++ payload)) (setMq (fun m => { m with
      items := m.items ++ [x], seq := (m.seq + 1) % 2 ^ 32, loss := m.loss.filter (fun p => p != producer) }) s))

/-- A HOST item opens (R454, R455, R467), or its MQ_PUT completes with NO_MEMORY. -/
def mqOpenHost (h : HostItem) (s : State) : State :=
  if mqRoom s (mqItemBytes h.payload) then
    setMq (fun m => { m with
      open_ := some { item := h, seq := m.seq, accept := s.index, loss := m.loss.contains 5, aborted := false },
      seq := (m.seq + 1) % 2 ^ 32, loss := m.loss.filter (fun p => p != 5) }) s
  else completeId h.cmd .noMemory [] s.index s

/-- A producer has an item ready in its own queue (R455); an MQ_PUT that has been taken waits whatever PRODUCER_MASK says since. -/
def mqReady (s : State) : Nat → Bool
  | 1 => mqTakes s 1 && !s.trig.records.isEmpty
  | 2 => mqTakes s 2 && !s.cap.queue.isEmpty
  | 3 => mqTakes s 3 && !s.intg.queue.isEmpty
  | 4 => mqTakes s 4 && !s.tdc.queue.isEmpty
  | 5 => !s.mq.hostQueue.isEmpty
  | _ => false

/-- With no item open, it is a producer's turn: the ready producers are served round robin after the one served last (R455). -/
def mqTurn (s : State) (producer : Nat) : Bool :=
  let ahead (p : Nat) : Nat := (p + 9 - s.mq.turn) % 5
  s.mq.open_.isNone && mqReady s producer && [1, 2, 3, 4, 5].all fun q => !mqReady s q || decide (ahead producer ≤ ahead q)

/-- The last doubleword of the open HOST item (R455, R460, R466). Log entry 57 (DEDUCED, unsafe). -/
def mqCloseHost (s : State) : State :=
  match s.mq.open_ with
  | none => s
  | some o =>
    let s0 := setMq (fun m => { m with open_ := none }) s
    let s1 :=
      if o.aborted then s0
      else
        let head := mqWrapper 5 0 o.item.tag (o.item.payload.length / 2) o.seq o.accept o.loss
        let x : MqItem := { seq := o.seq, start := s0.mq.writePos, size := mqItemBytes o.item.payload, accept := o.accept }
        mqItemEnd (mqWrite (bytesOfWords (head ++ o.item.payload)) (setMq (fun m => { m with items := m.items ++ [x] }) s0))
    completeId o.item.cmd .ok [flagWord o.aborted] s1.index s1

/-- MQ_ITEM_ACCEPT (R454, R455): the next item of a producer is accepted or dropped, while no item is open and it is the producer's turn; for HOST,
the open item gets its last doubleword, or the next one opens. Log entry 57 (DEDUCED, unsafe). -/
def evMqItemAccept (producer : Nat) (s0 : State) : State :=
  if producer = 5 && s0.mq.open_.isSome then mqCloseHost s0
  else if !mqTurn s0 producer then s0
  else
    let s := setMq (fun m => { m with turn := producer }) s0
    match producer with
    | 1 => (match s.trig.records with
      | r :: t => mqAccept 1 0 r { s with trig := { s.trig with records := t } }
      | [] => s)
    | 2 => (match s.cap.queue with
      | r :: t => mqAccept 2 (field (r.getD 0 0) 2 0) r { s with cap := { s.cap with queue := t } }
      | [] => s)
    | 3 => (match s.intg.queue with
      | r :: t => mqAccept 3 0 r { s with intg := { s.intg with queue := t } }
      | [] => s)
    | 4 => (match s.tdc.queue with
      | r :: t => mqAccept 4 r.1 r.2 { s with tdc := { s.tdc with queue := t } }
      | [] => s)
    | _ => (match s.mq.hostQueue with
      | h :: t => mqOpenHost h (setMq (fun m => { m with hostQueue := t }) s)
      | [] => s)

/-- MQ_LINGER_EXPIRY (R456). -/
def evMqLingerExpiry (s : State) : State := if s.mq.open_.isSome then s else mqLevelCheck (mqPad s)

/-! ### Reading (R457, R458, R462, R465) -/

/-- Bytes of the ring. -/
def mqRingRead (s : State) (pos n : Nat) : List Byte :=
  let size := max 1 (mqSize s)
  let a := pos % size
  readAt s s.mq.handle a (min n (size - a)) ++ readAt s s.mq.handle 0 (n - (size - a))

/-- A 64-bit word of [pos, pos + n) in the ring is uncorrectable. -/
def mqPoisoned (s : State) (pos n : Nat) : Bool :=
  match partByHandle s s.mq.handle with
  | some p => (List.range (n / 8)).any fun i => p.poisoned.contains ((pos + 8 * i) % max 1 (mqSize s))
  | none => true

/-- What a read has taken: the items, the new position, and the items lost to uncorrectable words. -/
structure MqTaken where
  items : List (MqItem × List Byte)
  pos : Nat
  lost : Nat

/-- Take readable items from `pos`, at most `budget` bytes and `most` items (R462, R465). The first list holds the items still
to look at. Log entry 56 (DEDUCED, unsafe). -/
def mqTake (s : State) : List MqItem → Nat → Nat → MqTaken → MqTaken
  | [], _, _, t => t
  | x :: rest, budget, most, t =>
    if x.start < t.pos then mqTake s rest budget most t
    else if most = 0 then t
    else if mqPoisoned s x.start 16 then
      let line := s.mq.items.filter fun y => decide (x.start ≤ y.start) && y.start / 64 == x.start / 64
      mqTake s rest budget most { t with pos := ((line.getLast?).map fun y => y.start + 1).getD t.pos, lost := t.lost + line.length }
    else if mqPoisoned s (x.start + 16) (x.size - 16) then
      mqTake s rest budget most { t with pos := x.start + x.size, lost := t.lost + 1 }
    else if budget < x.size then t
    else mqTake s rest (budget - x.size) (most - 1) { t with items := t.items ++ [(x, mqRingRead s x.start x.size)], pos := x.start + x.size }

/-- The first item that the host would read exceeds MAX_BYTES (R465). Log entry 56 (DEDUCED, unsafe). -/
def mqReadFull (r : MqRead) (s : State) : Bool :=
  let t := mqTake s (s.mq.readable s.mq.hostPos) (2 ^ 32) 1 { items := [], pos := s.mq.hostPos, lost := 0 }
  match t.items with
  | x :: _ => decide (r.maxBytes < x.1.size)
  | [] => false

/-- An MQ_READ completes (R465): the host's pointer passes the items returned; where the write to host memory fails (R60) it stays. Log entries
110 (DESIGN CHOICE, unsafe), 56 (DEDUCED, unsafe). -/
def mqReadNow (r : MqRead) (s : State) : State × Status × List Word :=
  if mqReadFull r s then (s, .outFull, [0, 0, BitVec.ofNat 32 (mqLevel s)])
  else
    let t := mqTake s (s.mq.readable s.mq.hostPos) r.maxBytes (s.mq.items.length) { items := [], pos := s.mq.hostPos, lost := 0 }
    let bytes := t.items.flatMap fun x => x.2
    let written := match r.host with
      | some a => hostResult r.cmd a bytes s
      | none => (s, true)
    if !written.2 then (written.1, .internal, [])
    else
      let s1 := mqTrim (setMq (fun m => { m with hostPos := t.pos, ueItems := satAdd 32 m.ueItems t.lost }) written.1)
      (mqLevelCheck s1, .ok,
        [BitVec.ofNat 32 t.items.length, BitVec.ofNat 32 bytes.length, BitVec.ofNat 32 (mqLevel s1)]
          ++ (if r.host.isSome then [] else wordsOfBytes bytes))

/-- The deferred MQ_READ completes. -/
def mqFinishRead (s : State) : State :=
  match s.mq.read with
  | none => s
  | some r =>
    let x := mqReadNow r (setMq (fun m => { m with read := none }) s)
    completeId r.cmd x.2.1 x.2.2 x.1.index x.1

/-- MQ_READ_COMPLETE (R465): MIN_ITEMS items are readable. -/
def evMqReadComplete (errors : List MemError) (s0 : State) : State :=
  let s := bringErrors errors s0
  match s.mq.read with
  | some r => if r.minItems ≤ (s.mq.readable s.mq.hostPos).length then mqFinishRead s else s
  | none => s

/-- MQ_READ_TIMEOUT (R465). -/
def evMqReadTimeout (errors : List MemError) (s : State) : State := mqFinishRead (bringErrors errors s)

/-! ### Flush (R460, R461) -/

/-- MQ_FLUSH acts; answers the items discarded and whether an open item was cut. -/
def mqFlush (s : State) : State × Nat × Bool :=
  let n := s.mq.items.length
  let cut := match s.mq.open_ with
    | some o => !o.aborted
    | none => false
  let s1 := setMq (fun m => { m with
    items := [], buffer := [], hostPos := m.lineEnd, readers := m.readers.map (fun r => (r.1, m.lineEnd)),
    open_ := m.open_.map (fun o => { o with aborted := true }), loss := if cut then m.loss.filter (fun p => p != 5) ++ [5] else m.loss,
    aborted := if cut then satAdd 32 m.aborted 1 else m.aborted, flushed := satAdd 32 m.flushed n }) s
  (mqLevelCheck s1, n, cut)

/-! ### Commands (R463-R469) -/

/-- Bind the MQ to a partition (R464): a new handle flushes first, and its ring starts at offset 0. Log entry 54 (DEDUCED, unsafe). -/
def mqBind (h : Word) (s : State) : State :=
  if h = s.mq.handle then s
  else setMq (fun m => { m with handle := h, lineEnd := 0, hostPos := 0, readers := m.readers.map (fun r => (r.1, 0)) }) (mqFlush s).1

/-- Items of disabled producers are offered no more (R452). Log entries 54 (DEDUCED, unsafe), 55 (DEDUCED, unsafe). -/
def mqMask (mask : Nat) (s : State) : State :=
  let keep {α : Type} (p : Nat) (l : List α) : List α := if mask.testBit p then l else []
  { s with mq := { s.mq with mask := mask }, trig := { s.trig with records := keep 1 s.trig.records },
           cap := { s.cap with queue := keep 2 s.cap.queue }, intg := { s.intg with queue := keep 3 s.intg.queue },
           tdc := { s.tdc with queue := keep 4 s.tdc.queue } }

/-- MQ_CONFIG (R464). Log entry 55 (DEDUCED, unsafe). -/
def specMqConfig : CmdSpec :=
  { opcode := 0x0C00, plen := plenIs 3, modes := notShadow, addr := fun _ => [unitNo 0xC 255],
    params := fun s c => !c.flag 0 0 && (match bindable s (c.word 1) 7 with
      | some p => decide (1 ≤ p.au)
      | none => false),
    run := fun c _ s =>
      let s1 := mqMask (c.arg 0 5 0) (mqBind (c.word 1) s)
      let s2 := setMq (fun m => { m with linger := c.arg 0 31 16, threshold := (c.word 2).toNat, armed := decide (mqLevel s1 < (c.word 2).toNat) }) s1
      (s2, .done .ok [BitVec.ofNat 32 (mqSize s2 - 64)]) }

/-- MQ_READ (R465). Log entry 56 (DEDUCED, unsafe). -/
def specMqRead : CmdSpec :=
  { opcode := 0x0C01, plen := plenIs 5, modes := notShadow, addr := fun _ => [unitNo 0xC 255],
    params := fun _ c =>
      let n := (c.word 2).toNat
      decide (1 ≤ c.arg 0 15 8) && decide (c.arg 1 19 0 ≤ 1000000)
        && (if c.flag 0 0 then isQp c.src && decide (64 ≤ n) && decide (n ≤ 1048576) && n % 64 == 0 && c.arg 3 5 0 == 0
            else decide (16 ≤ n) && decide (n ≤ 1008) && n % 8 == 0),
    busy := fun s _ => s.mq.read.isSome,
    run := fun c _ s =>
      let r : MqRead :=
        { cmd := c.id, host := if c.flag 0 0 then some (c.arg64 3) else none, minItems := c.arg 0 15 8, maxBytes := (c.word 2).toNat }
      if decide (r.minItems ≤ (s.mq.readable s.mq.hostPos).length) || c.arg 1 19 0 == 0 || mqReadFull r s then
        let x := mqReadNow r s
        (x.1, .done x.2.1 x.2.2)
      else (setMq (fun m => { m with read := some r }) s, .first .deferred) }

/-- MQ_PUT (R466, R467). With producer HOST disabled it offers no item. Log entry 54 (DEDUCED, unsafe). -/
def specMqPut : CmdSpec :=
  { opcode := 0x0C02, plen := fun c => [1, 3, 5, 7, 9, 11].contains c.plen, modes := notShadow, addr := fun _ => [unitNo 0xC 255], queues := true,
    run := fun c _ s =>
      let h : HostItem := { cmd := c.id, tag := c.arg 0 7 0, payload := (List.range (c.plen - 1)).map fun i => c.word (i + 1) }
      if !mqTakes s 5 then (s, .done .ok [0])
      else if s.mq.open_.isSome || [1, 2, 3, 4, 5].any (mqReady s) then (setMq (fun m => { m with hostQueue := m.hostQueue ++ [h] }) s, .later)
      else if mqRoom s (mqItemBytes h.payload) then (mqOpenHost h (setMq (fun m => { m with turn := 5 }) s), .later)
      else (s, .done .noMemory []) }

/-- MQ_FLUSH (R460, R468). -/
def specMqFlush : CmdSpec :=
  { opcode := 0x0C03, plen := plenIs 0, modes := notShadow, addr := fun _ => [unitNo 0xC 255],
    run := fun _ _ s =>
      let x := mqFlush s
      (x.1, .done .ok [BitVec.ofNat 32 x.2.1, flagWord x.2.2]) }

/-- MQ_STATUS (R469). CE counts corrections that no row carries: a free value. Log entry 10 (DESIGN CHOICE, safe). -/
def specMqStatus : CmdSpec :=
  { opcode := 0x0C04, plen := plenIs 1, addr := fun _ => [unitNo 0xC 255],
    run := fun c _ s =>
      let (ce, s1) := takeFree s
      let m := s1.mq
      let bound := (partByHandle s m.handle).isSome
      (if c.flag 0 8 then setMq (fun m => { m with dropped := 0, aborted := 0, flushed := 0, ueItems := 0, padBytes := 0 }) s1 else s1,
        .done .ok [BitVec.ofNat 32 ((if bound then 1 else 0) + (if m.read.isSome then 2 else 0) + (if m.armed then 4 else 0)
            + (if m.open_.isSome then 5 * 16 else 0)), BitVec.ofNat 32 (mqSize s - 64), BitVec.ofNat 32 (mqLevel s), lo32 m.seq,
          BitVec.ofNat 32 m.dropped, BitVec.ofNat 32 m.aborted, BitVec.ofNat 32 m.flushed, ce, BitVec.ofNat 32 m.ueItems,
          BitVec.ofNat 32 m.padBytes]) }

end Sys2Proof.Machine
end

