-- ==== Sys2Proof/Machine/Packer.lean ====
section
/-! DEFINITION. The block format of the packers (R433-R441): elements and values, prediction, the tokens, the exact level 0
encoding, the decoding that every block satisfies, and CRC-32C. Bit strings are lists, least significant bit first. -/

namespace Sys2Proof.Machine

/-- The low `n` bits of a number. -/
def bitsOf (n v : Nat) : List Bool := (List.range n).map fun i => v.testBit i

/-- The number that bits spell. -/
def bitsVal : List Bool → Nat
  | [] => 0
  | b :: t => (if b then 1 else 0) + 2 * bitsVal t

/-- The bits of bytes, as a little-endian bit string (R396). -/
def bytesBits (l : List Byte) : List Bool := l.flatMap fun b => bitsOf 8 b.toNat

/-- Bytes from bits; a last partial byte is filled with zeros. -/
def bitsBytes : Nat → List Bool → List Byte
  | 0, _ => []
  | f + 1, l => if l.isEmpty then [] else BitVec.ofNat 8 (bitsVal (l.take 8)) :: bitsBytes f (l.drop 8)

/-- Cut a bit string into runs of `n`, `count` of them. -/
def bitRuns (n : Nat) : Nat → List Bool → List (List Bool)
  | 0, _ => []
  | c + 1, l => l.take n :: bitRuns n c (l.drop n)

/-- An element kind of R435: its size b, its values per element, their width w, and whether a tag nibble stands beside them. -/
structure ElemKind where
  b : Nat
  values : Nat
  w : Nat
  tags : Bool

def elemKind : Nat → ElemKind
  | 0 => { b := 8, values := 1, w := 8, tags := false }
  | 1 => { b := 16, values := 1, w := 16, tags := false }
  | 2 => { b := 32, values := 1, w := 32, tags := false }
  | 3 => { b := 16, values := 1, w := 12, tags := true }
  | 4 => { b := 32, values := 2, w := 14, tags := true }
  | 5 => { b := 12, values := 1, w := 12, tags := false }
  | 6 => { b := 4, values := 1, w := 4, tags := false }
  | _ => { b := 2, values := 1, w := 2, tags := false }

/-- One element: its values as w-bit codes and its tag nibble (OVR, INV, NBR, FADE in bits 3 to 0). -/
structure Elem where
  vals : List Nat
  tag : Nat
deriving DecidableEq, Repr

/-- Split an element's code (R14, R223, R435). -/
def elemOf (k : Nat) (v : Nat) : Elem :=
  match k with
  | 3 => { vals := [v / 16 % 4096], tag := v % 16 }
  | 4 => { vals := [v / 4 % 16384, v / 2 ^ 18 % 16384],
           tag := (v / 2 % 2) * 8 + (v % 2) * 4 + (v / 2 ^ 17 % 2) * 2 + v / 2 ^ 16 % 2 }
  | _ => { vals := [v], tag := 0 }

/-- Rebuild an element's code. -/
def elemCode (k : Nat) (e : Elem) : Nat :=
  match k with
  | 3 => e.vals.getD 0 0 * 16 + e.tag
  | 4 => e.vals.getD 0 0 * 4 + e.vals.getD 1 0 * 2 ^ 18 + (e.tag / 8 % 2) * 2 + e.tag / 4 % 2 + (e.tag / 2 % 2) * 2 ^ 17 + (e.tag % 2) * 2 ^ 16
  | _ => e.vals.getD 0 0

/-- The elements of an input, and the bits that remain (R435). -/
def elemsOf (k : Nat) (input : List Byte) : List Elem × List Bool :=
  let b := (elemKind k).b
  let bits := bytesBits input
  let n := bits.length / b
  ((bitRuns b n bits).map (fun r => elemOf k (bitsVal r)), bits.drop (n * b))

/-- p(i) of R436, from the values before i, newest first. -/
def predict (pred stride w : Nat) (hist : List Nat) : Nat :=
  match pred with
  | 0 => 0
  | 1 => hist.getD (stride - 1) 0
  | _ => (2 * hist.getD (stride - 1) 0 + 2 ^ w - hist.getD (2 * stride - 1) 0) % 2 ^ w

/-- u of R436 for a value and its prediction. -/
def residue (w v p : Nat) : Nat :=
  let e := signed w (v + 2 ^ w - p)
  if 0 ≤ e then 2 * e.toNat else 2 * (-e).toNat - 1

/-- The value that u stands for beside a prediction. -/
def unresidue (w u p : Nat) : Nat :=
  let e : Int := if u % 2 = 0 then (u / 2 : Nat) else -(((u + 1) / 2 : Nat) : Int)
  unsign w ((p : Int) + e)

/-- The residues of elements (R436), with the history carried on. -/
def residues (pred stride w : Nat) : List Nat → List Nat → List Nat × List Nat
  | hist, [] => ([], hist)
  | hist, v :: t =>
    let r := residues pred stride w (v :: hist) t
    (residue w v (predict pred stride w hist) :: r.1, r.2)

/-- A value's code (R437). -/
def valueCode (w k u : Nat) : List Bool :=
  let q := u / 2 ^ k
  if q < 16 then List.replicate q true ++ [false] ++ bitsOf k u else List.replicate 16 true ++ bitsOf w u

/-- The length of a value's code. -/
def valueLen (w k u : Nat) : Nat := if u / 2 ^ k < 16 then u / 2 ^ k + 1 + k else 16 + w

/-- The K with the fewest bits, the smaller on a tie (R438). -/
def bestK (w : Nat) (us : List Nat) : Nat :=
  (List.range 32).foldl (fun best k =>
    if (us.map (valueLen w k)).sum < (us.map (valueLen w best)).sum then k else best) 0

/-- A LITERAL token of level 0 (R437, R438). -/
def literal (kind : ElemKind) (group : List Elem) (us : List Nat) : List Bool :=
  let k := bestK kind.w us
  let tagged := group.any fun e => e.tag != 0
  [false] ++ bitsOf 4 (group.length - 1) ++ bitsOf 5 k
    ++ (if kind.tags then tagged :: (if tagged then group.flatMap (fun e => bitsOf 4 e.tag) else []) else [])
    ++ us.flatMap (valueCode kind.w k)

/-- The tokens of level 0 (R438). -/
def literals (kind : ElemKind) (pred stride : Nat) : Nat → List Nat → List Elem → List Bool
  | 0, _, _ => []
  | f + 1, hist, l =>
    if l.isEmpty then []
    else
      let group := l.take 16
      let r := residues pred stride kind.w hist (group.flatMap fun e => e.vals)
      literal kind group r.1 ++ literals kind pred stride f r.2 (l.drop 16)

/-- Pad bits with zeros to a multiple of 8 bytes. -/
def pad8Bytes (bits : List Bool) : List Byte :=
  let l := bitsBytes (bits.length + 1) bits
  l ++ List.replicate ((8 - l.length % 8) % 8) 0

/-- The body of a level 0 block (R433, R435-R438). -/
def encodeLevel0 (elem pred stride : Nat) (input : List Byte) : List Byte :=
  let es := elemsOf elem input
  pad8Bytes (literals (elemKind elem) pred stride es.1.length [] es.1 ++ es.2)

/-! ### Decoding (R437, R438) -/

/-- Read `n` bits. -/
def takeBits (n : Nat) (l : List Bool) : Option (Nat × List Bool) :=
  if l.length < n then none else some (bitsVal (l.take n), l.drop n)

/-- Read an Exp-Golomb code (R437). -/
def takeEG (l : List Bool) : Option (Nat × List Bool) :=
  let m := (l.takeWhile fun b => !b).length
  match takeBits m (l.drop (m + 1)) with
  | some (x, r) => if l.length ≤ m then none else some (2 ^ m + x - 1, r)
  | none => none

/-- Read a value's code: u. -/
def takeValue (w k : Nat) (l : List Bool) : Option (Nat × List Bool) :=
  let q := ((l.take 16).takeWhile id).length
  if q = 16 then takeBits w (l.drop 16)
  else match takeBits k (l.drop (q + 1)) with
    | some (x, r) => if l.length ≤ q then none else some (q * 2 ^ k + x, r)
    | none => none

/-- Read `n` tag nibbles. -/
def takeTags : Nat → List Bool → Option (List Nat × List Bool)
  | 0, l => some ([], l)
  | n + 1, l =>
    match takeBits 4 l with
    | some (x, r) => (match takeTags n r with
      | some (xs, r2) => some (x :: xs, r2)
      | none => none)
    | none => none

/-- Read `n` values with prediction; the history is newest first. -/
def takeValues (pred stride w k : Nat) : Nat → List Nat → List Bool → Option (List Nat × List Nat × List Bool)
  | 0, hist, l => some ([], hist, l)
  | n + 1, hist, l =>
    match takeValue w k l with
    | some (u, r) =>
      let v := unresidue w u (predict pred stride w hist)
      (match takeValues pred stride w k n (v :: hist) r with
      | some (vs, h2, r2) => some (v :: vs, h2, r2)
      | none => none)
    | none => none

/-- Group values into elements with their tags. -/
def groupElems (per : Nat) : List Nat → List Nat → List Elem
  | [], _ => []
  | t :: ts, vs => { vals := vs.take per, tag := t } :: groupElems per ts (vs.drop per)

/-- Repeat the element `d` places back, `n` times; elements are newest first. -/
def copyBack (d : Nat) : Nat → List Elem → Option (List Elem)
  | 0, l => some l
  | n + 1, l =>
    match l[d - 1]? with
    | some e => copyBack d n (e :: l)
    | none => none

/-- Decode tokens until `n` elements are there, newest first. -/
def decodeTokens (kind : ElemKind) (pred stride n : Nat) : Nat → List Elem → List Nat → List Bool → Option (List Elem × List Bool)
  | 0, done, _, l => if done.length = n then some (done, l) else none
  | f + 1, done, hist, l =>
    if done.length = n then some (done, l)
    else match l with
      | false :: r =>
        (match takeBits 4 r with
        | some (c, r1) => (match takeBits 5 r1 with
          | some (k, r2) =>
            let count := c + 1
            let flagged := kind.tags && r2.headD false
            let r3 := if kind.tags then r2.drop 1 else r2
            (match (if flagged then takeTags count r3 else some (List.replicate count 0, r3)) with
            | some (tags, r4) => (match takeValues pred stride kind.w k (count * kind.values) hist r4 with
              | some (vs, h2, r5) =>
                if n < done.length + count then none
                else decodeTokens kind pred stride n f ((groupElems kind.values tags vs).reverse ++ done) h2 r5
              | none => none)
            | none => none)
          | none => none)
        | none => none)
      | true :: r =>
        (match takeEG r with
        | some (x, r1) => (match takeEG r1 with
          | some (y, r2) =>
            if n < done.length + x + 4 then none
            else match copyBack (y + 1) (x + 4) done with
              | some d2 => decodeTokens kind pred stride n f d2 ((d2.take (x + 4)).flatMap (fun e => e.vals.reverse) ++ hist) r2
              | none => none
          | none => none)
        | none => none)
      | [] => none

/-- Decode a block's body to its input bytes (R433-R438); `none` when it is no valid body for that many bytes. Log entry 63 (DESIGN CHOICE, safe). -/
def decodeBody (elem pred stride inBytes : Nat) (body : List Byte) : Option (List Byte) :=
  let kind := elemKind elem
  let n := 8 * inBytes / kind.b
  match decodeTokens kind pred stride n (n + 1) [] [] (bytesBits body) with
  | some (es, rest) =>
    let tail := 8 * inBytes - n * kind.b
    if rest.length < tail || tail + 64 ≤ rest.length || (rest.drop tail).any id then none
    else some ((bitsBytes (8 * inBytes) (es.reverse.flatMap (fun e => bitsOf kind.b (elemCode elem e)) ++ rest.take tail)).take inBytes)
  | none => none

/-! ### Blocks (R433, R434, R440) -/

/-- CRC-32C, reflected, polynomial 0x1EDC6F41, initial and final inversion. -/
def crc32c (l : List Byte) : Nat :=
  let step : Nat → Nat := fun c => if c % 2 = 1 then (c / 2) ^^^ 0x82F63B78 else c / 2
  let byte : Nat → Byte → Nat := fun c b => (List.range 8).foldl (fun c _ => step c) (c ^^^ b.toNat)
  (l.foldl byte 0xFFFFFFFF) ^^^ 0xFFFFFFFF

/-- A block: header and body (R434). -/
def blockBytes (elem pred stride level : Nat) (raw : Bool) (input body : List Byte) : List Byte :=
  bytesOfWords [ BitVec.ofNat 32 (1 + elem * 16 + pred * 2 ^ 7 + (if raw then 2 ^ 9 else 0) + level * 2 ^ 10 + stride * 2 ^ 16),
    BitVec.ofNat 32 input.length, BitVec.ofNat 32 (16 + body.length), BitVec.ofNat 32 (crc32c input) ] ++ body

/-- The body that the packer forms (R438): fixed at level 0; at levels 1-7 any choice of the encoder's that decodes to the
input. `none`: the choice offered is no encoding of the input. Log entry 63 (DESIGN CHOICE, safe). -/
def packBody (elem pred stride level : Nat) (input choice : List Byte) : Option (List Byte) :=
  if level = 0 then some (encodeLevel0 elem pred stride input)
  else if choice.length % 8 = 0 && decodeBody elem pred stride input.length choice == some input then some choice
  else none

/-- Throughput of a level in bytes per second (R439). -/
def levelRate : Nat → Nat
  | 0 => 48000000000 | 1 => 40000000000 | 2 => 32000000000 | 3 => 24000000000
  | 4 => 16000000000 | 5 => 8000000000 | 6 => 4000000000 | _ => 2000000000

end Sys2Proof.Machine
end

