-- ==== Sys2Proof/Machine/Frames.lean ====
section
/-! DEFINITION. What a stream context sends (R394-R405, R407): requantised payloads, validity bitmaps, KDP and VDIF headers,
and the Ethernet frame around a packet. -/

namespace Sys2Proof.Machine

/-! ### Requantisation (R395-R397) -/

/-- b of R395. -/
def quantBits (kind quant : Nat) : Nat :=
  match quant with
  | 0 => if kind = 0 then 16 else 32
  | 1 => 12
  | 2 => 8
  | 3 => 4
  | _ => 2

/-- The code of a value, and whether the clamp altered it. -/
def quantise (quant thresh : Nat) (x : Int) : Nat × Bool :=
  let v := x * 256 / (max 1 thresh : Nat)
  if quant = 1 then
    let c := max (-2048) (min 2047 v)
    (unsign 12 c, decide (c ≠ v))
  else
    let b := quantBits 0 quant
    let u := v + (2 ^ (b - 1) : Nat)
    let c := max 0 (min ((2 ^ b - 1 : Nat) : Int) u)
    (c.toNat, decide (c ≠ u))

/-- The values of an element as QUANT 1-4 take them: an INV element has x = 0 (R15). -/
def quantValues (kind : Nat) (w : Word) : List Int := (elemValues kind w).map fun v => if elemInv kind w then 0 else v

/-- The codes of a packet's elements. -/
def quantCodes (c : StreamConfig) (elems : List Word) : List (Nat × Bool) :=
  (elems.flatMap (quantValues c.pkind)).map (quantise c.quant c.thresh)

/-- Codes as a little-endian bit string, padded with zeros to 8 bytes (R396). -/
def codeBytes (b : Nat) (codes : List Nat) : List Byte := pad8Bytes (codes.flatMap (bitsOf b))

/-- The payload of a sample packet under KDP. -/
def samplePayload (c : StreamConfig) (elems : List Word) : List Byte :=
  if c.quant = 0 then elems.flatMap (elemBytes c.pkind)
  else codeBytes (quantBits c.pkind c.quant) ((quantCodes c elems).map fun x => x.1)

/-- The tag nibble of an element (R14, R397). -/
def tagNibble (kind : Nat) (w : Word) : Nat :=
  let t := elemTags kind w
  (if t.1 then 8 else 0) + (if t.2.1 then 4 else 0) + (if t.2.2.1 then 2 else 0) + (if t.2.2.2 then 1 else 0)

/-- The validity bitmap (R397): one nibble per block touched, for elements from number `q` on. -/
def bitmapBytes (c : StreamConfig) (q : Nat) (elems : List Word) : List Byte :=
  if c.quant = 0 || elems.isEmpty then []
  else
    let b := 2 ^ c.vblockLog2
    let blocks := (q + elems.length - 1) / b - q / b + 1
    let nibble (i : Nat) : Nat :=
      (elems.zipIdx.filter fun x => (q + x.2) / b == q / b + i).foldl (fun a x => a ||| tagNibble c.pkind x.1) 0
    pad8Bytes ((List.range blocks).flatMap fun i => bitsOf 4 (nibble i))

/-! ### Packer choices in streams (R405, R442) -/

/-- ELEM, STRIDE and PRED of R442. Log entry 63 (DESIGN CHOICE, safe). -/
def inlineChoice (s : State) (c : StreamConfig) : Nat × Nat × Nat :=
  let p := s.packers.getD (c.pack - 1) default
  if 2 ≤ c.pkind then (p.itemElem, 1, p.itemPred)
  else
    let stride := if c.pkind = 0 then 1 else 2
    (match c.quant with
      | 0 => if c.pkind = 0 then 3 else 4
      | 1 => 5
      | 2 => 0
      | 3 => 6
      | _ => 7, stride, p.samplePred)

def setPacker (p : Nat) (f : Packer → Packer) (s : State) : State := { s with packers := modAt s.packers p f }

/-- The packer of a context has taken a payload of `n` bytes (R442, R450): a block, or NO_GAIN. Log entry 63 (DESIGN CHOICE, safe). -/
def countPacked (c : StreamConfig) (n : Nat) (bytes : List Byte) (packed raw : Bool) (s : State) : State :=
  if !packed then s
  else setPacker (c.pack - 1) (fun p => { p with
    blocks := if raw then p.blocks else satAdd 32 p.blocks 1, noGain := if raw then satAdd 32 p.noGain 1 else p.noGain,
    inBytes := p.inBytes + n, outBytes := if raw then p.outBytes else p.outBytes + bytes.length }) s

/-- A payload as sent: the bytes, PACKED and RAW. `none`: the packer's choices offered encode something else. An empty choice
at levels 1-7 says that the block does not shrink. -/
def packPayload (s : State) (c : StreamConfig) (payload choice : List Byte) : Option (List Byte × Bool × Bool) :=
  if c.pack = 0 then some (payload, false, false)
  else
    let x := inlineChoice s c
    if c.level != 0 && choice.isEmpty then some (payload, true, true)
    else match packBody x.1 x.2.2 x.2.1 c.level payload choice with
      | none => none
      | some body =>
        if 16 + body.length < payload.length then some (blockBytes x.1 x.2.2 x.2.1 c.level false payload body, true, false)
        else some (payload, true, true)

/-! ### Headers (R401, R403, R404) -/

/-- Word 0 of the KDP header. -/
def kdpWord0 (n : Nat) (c : StreamConfig) (packed raw first last spoiled : Bool) (flags : Nat) : Word :=
  let b : Bool → Nat → Nat := fun v i => if v then 2 ^ i else 0
  BitVec.ofNat 32 (1 + n * 16 + c.pkind * 2 ^ 10 + c.quant * 2 ^ 14 + b (c.pkind == 1) 17 + b packed 19 + b raw 20 + b first 21 + b last 22
    + b spoiled 23 + flags * 2 ^ 24 + (c.vblockLog2 - 5) * 2 ^ 27)

/-- A sample packet under KDP (R400, R401), and the state once its packer has counted it; `none`: no valid packer choice. -/
def kdpSample (s : State) (n : Nat) (p : StreamPiece) (last : Bool) (note : ClockNote) (elems : List Word) (choice : List Byte) : Option (List Byte × State) :=
  let c := (ctxOf s n).cfg
  let bitmap := bitmapBytes c p.q elems
  let payload := samplePayload c elems
  match packPayload s c payload choice with
  | none => none
  | some (bytes, packed, raw) =>
    let flags := (if note.holdover then 1 else 0) + (if note.slew then 2 else 0) + (if note.cal then 4 else 0)
    let inv := min 65535 (elems.filter (elemInv c.pkind)).length
    let head := [kdpWord0 n c packed raw p.fresh last false flags] ++ u64Words (ctxOf s n).seq ++ dtsWords p.stamp ++ u64Words p.index
      ++ [BitVec.ofNat 32 (bytes.length + bitmap.length / 8 * 2 ^ 16), BitVec.ofNat 32 (p.gen + inv * 65536), c.sourceId, BitVec.ofNat 32 p.count]
    some (bytesOfWords head ++ bitmap ++ bytes, countPacked c payload.length bytes packed raw s)

/-- The element rate f_e of a VDIF stream, times 2^32 (R404). Log entry 58 (PRESUMED, unsafe). -/
def vdifRate (s : State) (c : StreamConfig) : Nat :=
  if c.pkind = 0 then fsOf s.time
  else fsOf s.time * 2 ^ 32 / max 1 (s.tuners.getD c.unit default).decim

/-- A VDIF frame behind SEQ (R403, R404): a full frame, with zero codes in place of missing elements. Log entry 58 (PRESUMED, unsafe). -/
def vdifPacket (s : State) (n : Nat) (p : StreamPiece) (elems : List Word) : List Byte :=
  let c := (ctxOf s n).cfg
  let per := if c.pkind = 0 then 1 else 2
  let b := quantBits c.pkind c.quant
  let lead := p.q % c.p
  let codes := List.replicate (lead * per) 0 ++ (quantCodes c elems).map (fun x => x.1) ++ List.replicate ((c.p - lead - p.count) * per) 0
  let invalid := decide (p.count < c.p) || elems.any (elemInv c.pkind)
  let fe := max 1 (vdifRate s c)
  let q := p.q - lead
  let secs := unsign 30 ((s.time.epochTai % 2 ^ 32 : Nat) + (q / fe : Nat) - (c.w8.toNat : Nat))
  let data := codeBytes b codes
  bytesOfWords (u64Words (ctxOf s n).seq
    ++ [BitVec.ofNat 32 (secs + (if invalid then 2 ^ 31 else 0)), BitVec.ofNat 32 (q % fe / c.p + field c.w9 5 0 * 2 ^ 24),
        BitVec.ofNat 32 ((32 + data.length) / 8 + Config.vdifVersion % 8 * 2 ^ 29),
        BitVec.ofNat 32 (field c.w7 15 0 + field c.w7 25 16 * 2 ^ 16 + (b - 1) * 2 ^ 26 + (if c.pkind = 1 then 2 ^ 31 else 0)), 0, 0, 0, 0]) ++ data

/-- An item packet under KDP. -/
def kdpItem (n : Nat) (c : StreamConfig) (seq itemSeq offset size : Nat) (packed raw first last spoiled : Bool) (bytes : List Byte) : List Byte :=
  bytesOfWords ([kdpWord0 n c packed raw first last spoiled 0] ++ u64Words seq
    ++ [lo32 itemSeq, lo32 offset, lo32 size, 0, 0, BitVec.ofNat 32 bytes.length, 0, c.sourceId, 0]) ++ bytes

/-- RETX = 1 in a resent KDP packet (R417): bit 18 of word 0. -/
def markRetx (c : StreamConfig) (bytes : List Byte) : List Byte := if c.vdif then bytes else bytes.modify 2 (fun b => b ||| 4#8)

/-! ### Items (R398, R399) -/

/-- The size of an item in bytes. -/
def ItemSource.size : ItemSource → Nat
  | .bytes l => l.length
  | .slot _ _ n _ => n
  | .half h _ _ n _ => 4 * h.length + n
  | .region _ _ n => n

/-- Bytes of an item as they stand now. -/
def itemRead (s : State) (src : ItemSource) (o n : Nat) : List Byte :=
  match src with
  | .bytes l => (l.drop o).take n
  | .slot h base size _ => readAt s h (base + o) (min n (size - o))
  | .half head h base size _ =>
    let hb := bytesOfWords head
    let front := (hb.drop o).take n
    front ++ readAt s h (base + (o - hb.length)) (min (n - front.length) (size - (o - hb.length)))
  | .region h base size => readAt s h (base + o) (min n (size - o))

/-- The acceptance rule of the item's producer holds now (R280, R348, R373). -/
def itemSound (s : State) (x : StreamItem) : Bool :=
  match x.source with
  | .slot h _ _ t => natOfBytes (readAt s h t 4) == x.seq % 2 ^ 32 && natOfBytes (readAt s h (t + 4) 4) % 2 == 1
  | .half _ _ _ _ g => s.intg.configGen == g && decide ((s.intg.seq + 2 ^ 32 - x.seq % 2 ^ 32) % 2 ^ 32 ≤ 1)
  | _ => true

/-! ### Ethernet, IP and UDP (R407) -/

/-- A number in network byte order. Log entry 59 (PRESUMED, unsafe). -/
def beBytes (n v : Nat) : List Byte := (List.range n).map fun i => BitVec.ofNat 8 (v / 256 ^ (n - 1 - i))

/-- The sum of the 16-bit words of a byte string. -/
def sum16 : List Byte → Nat
  | a :: b :: t => a.toNat * 256 + b.toNat + sum16 t
  | [a] => a.toNat * 256
  | [] => 0

/-- The Internet checksum. Log entry 59 (PRESUMED, unsafe). -/
def checksum (l : List Byte) : Nat :=
  let fold : Nat → Nat := fun n => n % 65536 + n / 65536
  65535 - fold (fold (fold (sum16 l)))

/-- An address of four words, in network order. -/
def addrBytes (l : List Word) : List Byte := l.flatMap fun w => beBytes 4 w.toNat

/-- The UDP header and payload over a pseudo-header. -/
def udpBytes (pseudo : List Byte) (src dst : Nat) (payload : List Byte) : List Byte :=
  let len := 8 + payload.length
  let head := beBytes 2 src ++ beBytes 2 dst ++ beBytes 2 len
  let ck := checksum (pseudo ++ head ++ beBytes 2 0 ++ payload)
  head ++ beBytes 2 (if ck = 0 then 65535 else ck) ++ payload

/-- The frame of a UDP destination, without FCS. Log entry 59 (PRESUMED, unsafe). -/
def udpFrame (e : EthPort) (v6 : Bool) (dscp src dst mac : Nat) (addr : List Word) (payload : List Byte) : List Byte :=
  let len := 8 + payload.length
  if v6 then
    let a := addrBytes e.ipv6 ++ addrBytes addr
    beBytes 6 mac ++ beBytes 6 e.mac ++ beBytes 2 0x86DD ++ beBytes 4 (6 * 2 ^ 28 + dscp * 4 * 2 ^ 20) ++ beBytes 2 len ++ [17, 64] ++ a
      ++ udpBytes (a ++ beBytes 4 len ++ beBytes 4 17) src dst payload
  else
    let a := beBytes 4 e.ipv4.toNat ++ beBytes 4 (addr.getD 0 0).toNat
    let head (ck : Nat) : List Byte :=
      [0x45, BitVec.ofNat 8 (dscp * 4)] ++ beBytes 2 (20 + len) ++ beBytes 2 0 ++ beBytes 2 0x4000 ++ [64, 17] ++ beBytes 2 ck ++ a
    beBytes 6 mac ++ beBytes 6 e.mac ++ beBytes 2 0x0800 ++ head (checksum (head 0))
      ++ udpBytes (a ++ beBytes 2 17 ++ beBytes 2 len) src dst payload

end Sys2Proof.Machine
end

