-- ==== Sys2Proof/Machine/Stream.lean ====
section
/-! DEFINITION. The stream engine at work (R391-R419): packets are generated into a context's store, sent, marked, resent; and
what the Ethernet ports and host rings do. The commands are in StreamCmds.lean. -/

namespace Sys2Proof.Machine

def setDest (e : Nat) (f : DestEntry → DestEntry) (s : State) : State := setStrm (fun u => { u with dests := modAt u.dests e f }) s

def destOf (s : State) (e : Nat) : DestEntry := s.strm.dests.getD e default

/-- Egress leaves the device now (R38, R392): not in QUIET or SHADOW, and not while the pair suppresses it. -/
def egressRuns (s : State) : Bool := modeRunsProducts s.mode && s.mode != .shadow && !s.pair.suppressed

/-- Where a packet of context `n` stands beside W (R604): the start of its cell for a sample stream, its item index for an item stream. -/
def placeOf (s : State) (n : Nat) (p : StoredPacket) : Nat :=
  let c := (ctxOf s n).cfg
  if c.pkind ≤ 1 then cellStart s c (elementAt s c.pkind c.unit p.index) else p.index

/-- Egress of one packet: a device that has handed over still sends what lies before W, and the new primary nothing before it (R604).
Log entry 77 (DEDUCED, unsafe). -/
def egressOf (s : State) (n : Nat) (p : StoredPacket) : Bool :=
  match s.pair.handover with
  | some w => if s.mode = .shadow then modeRunsProducts s.shadowed && decide (placeOf s n p < w) else egressRuns s
  | none => egressRuns s

/-- The entry for packet SEQ (R406). -/
def StreamConfig.destFor (c : StreamConfig) (seq : Nat) : Nat := c.dests.getD (seq % max 1 c.stripe) 0

/-! ### The store (R412-R416) -/

/-- The bytes a packet takes in a ring (R414). -/
def storeSize (bytes : List Byte) : Nat := ceilDiv bytes.length 64 * 64

def unsentOf (c : StreamCtx) : List StoredPacket := c.packets.filter fun p => !p.sent

/-- Where the next packet of `n` bytes goes in the ring. -/
def ringPlace (c : StreamCtx) (n : Nat) : Nat := if c.writeOffset + n ≤ c.cfg.auCount * 1048576 then c.writeOffset else 0

/-- The packets that a write of `n` bytes at `o` overwrites. -/
def overwritten (c : StreamCtx) (o n : Nat) : List StoredPacket :=
  c.packets.filter fun p => decide (p.offset < o + n) && decide (o < p.offset + storeSize p.bytes)

/-- A context may generate a packet of these bytes now: PKIND 3-8 wait in place of dropping (R413). -/
def mayStore (c : StreamCtx) (bytes : List Byte) : Bool :=
  c.cfg.pkind ≤ 2 || (if c.cfg.ring = 0 then decide ((unsentOf c).length < 64)
    else (overwritten c (ringPlace c (storeSize bytes)) (storeSize bytes)).all fun p => p.sent)

/-- The marks on overwritten packets become invalid, and STRM_MARK_LOST is sent for each (R416). -/
def loseMarks (n index : Nat) (seqs : List Nat) (s : State) : State :=
  (List.range 4).foldl (fun a m =>
    match ((ctxOf a n).marks.getD m default).seq with
    | some q =>
      if seqs.contains q then
        notify 0x0A01 ([BitVec.ofNat 32 (n + m * 256)] ++ u64Words q) index
          (setCtx n (fun c => { c with marks := modAt c.marks m (fun _ => { seq := none, lost := true }) }) a)
      else a
    | none => a) s

/-- The waiting STRM_MARKs that this packet satisfies attach to it and complete (R415). -/
def attachMarks (n seq index : Nat) (s : State) : State :=
  let due := (ctxOf s n).markWaits.filter fun w => decide (w.at_ ≤ index)
  due.foldl (fun a w =>
    completeId w.cmd .ok (u64Words seq) a.index
      (setCtx n (fun c => { c with marks := modAt c.marks w.mark (fun _ => { seq := some seq, lost := false }), markWaits := c.markWaits.filter (fun x => x.cmd != w.cmd) }) a)) s

/-- The checkpoint that numbers a packet whose first element is `first` on a mirror (R594). -/
def checkpointFor (s : State) (n first : Nat) : Option Checkpoint :=
  let c := (ctxOf s n).cfg
  (s.pair.checkpoints.filter fun x =>
    x.ctx == n && decide (cellOf s c (elementAt s c.pkind c.unit x.cell) ≤ cellOf s c first)).getLast?

/-- The SEQ that the primary gives to the packet in the cell of element `first`: none where that cell holds no packet of it. -/
def seqByCheckpoint (s : State) (n first : Nat) (x : Checkpoint) : Option Nat :=
  let c := (ctxOf s n).cfg
  if x.ends then none else some (x.seq + cellOf s c first - cellOf s c (elementAt s c.pkind c.unit x.cell))

/-- What an overwritten packet costs: on a mirror nothing is dropped before it takes over. -/
def lostUnsent (s : State) (l : List StoredPacket) : Nat := if s.mode = .shadow then 0 else (l.filter fun x => !x.sent).length

/-- The packets in a ring that go on with the item of packet `q`. -/
def restOfItem (c : StreamCtx) (q : Nat) : List StoredPacket :=
  let l := c.packets.filter fun p => decide (q < p.seq)
  l.take (((l.findIdx? fun p => p.last).map fun i => i + 1).getD l.length)

/-- The first packets of items that a write drops. -/
def cutItems (s : State) (c : StreamCtx) (hit : List StoredPacket) : List StoredPacket :=
  if c.cfg.pkind ≤ 1 || s.mode = .shadow then [] else hit.filter fun p => !p.sent && p.first && !p.last

/-- Generate a packet into the store of context `n` (R402, R412-R416): it is stored, or, with the on-die queue full, dropped;
either way it consumes its SEQ. A mirror's queue keeps the newest (R596). With the first packet of an item the rest of it is dropped; the second result
tells whether the item at hand goes on. -/
def storePacket (n : Nat) (bytes : List Byte) (index : Nat) (first last : Bool) (s : State) : State × Bool :=
  let c := ctxOf s n
  if c.cfg.ring = 0 then
    if s.mode = .shadow then
      let p : StoredPacket := { seq := c.seq, bytes := bytes, offset := 0, index := index, first := first, last := last, sent := false }
      let l := c.packets ++ [p]
      (attachMarks n c.seq index (setCtx n (fun c => { c with packets := l.drop (l.length - 64), seq := (c.seq + 1) % 2 ^ 64 }) s), true)
    else if 64 ≤ (unsentOf c).length then (setCtx n (fun c => { c with seq := (c.seq + 1) % 2 ^ 64, dropped := satAdd 32 c.dropped 1 }) s, !first)
    else
      let p : StoredPacket := { seq := c.seq, bytes := bytes, offset := 0, index := index, first := first, last := last, sent := false }
      (attachMarks n c.seq index (setCtx n (fun c => { c with packets := c.packets ++ [p], seq := (c.seq + 1) % 2 ^ 64 }) s), true)
  else
    let size := storeSize bytes
    let o := ringPlace c size
    let hit := overwritten c o size
    let seqs := hit.map fun p => p.seq
    let cuts := (cutItems s c hit).map fun p => restOfItem c p.seq
    let ends := cuts.any fun l => !(l.any fun p => p.last)
    let cut := (cuts.flatMap fun l => (l.filter fun p => !p.sent && !seqs.contains p.seq).map fun p => p.seq) ++ (if ends then [c.seq] else [])
    let p : StoredPacket := { seq := c.seq, bytes := bytes, offset := o, index := index, first := first, last := last, sent := false }
    let s1 := setCtx n (fun c => { c with
      packets := (c.packets.filter (fun x => !seqs.contains x.seq) ++ [p]).map (fun x => if cut.contains x.seq then { x with sent := true } else x),
      seq := (c.seq + 1) % 2 ^ 64, writeOffset := o + size,
      dropped := satAdd 32 c.dropped (lostUnsent s hit + cut.length),
      rewind := c.rewind.map (fun r => if seqs.contains r.next && decide (r.next ≤ r.stop) then { r with lost := true } else r) }) s
    let s2 := writeAt c.cfg.ring (c.cfg.auOffset * 1048576 + o) (bytes ++ List.replicate (size - bytes.length) 0) s1
    (attachMarks n c.seq index (loseMarks n index seqs s2), !ends)

/-! ### Generating (R393-R405) -/

/-- The earliest index at which an accepted command ends the run of a context (R393, R394). Log entry 62 (DEDUCED, unsafe). -/
def knownEnd (s : State) (n : Nat) : Option Nat :=
  let c := (ctxOf s n).cfg
  let ends : Cmd → Bool := fun d =>
    match d.opcode with
    | 0x0A03 => !d.flag 2 0 && (d.arg64 0).testBit n
    | 0x0001 => d.arg 0 2 0 == 0
    | 0x0403 => c.pkind == 1 && (d.arg 0 7 0).testBit c.unit
    | 0x0405 => c.pkind == 1 && !d.flag 0 8 && (d.arg 0 7 0).testBit c.unit
    | _ => false
  ((heldInOrder s).find? ends).bind fun d => d.eff

/-- The packet of elements [first, first + count) ends the run. Log entry 62 (DEDUCED, unsafe). -/
def endsRun (s : State) (n : Nat) (p : StreamPiece) : Bool :=
  match knownEnd s n with
  | some e => decide (e ≤ elementIndex s (ctxOf s n).cfg.pkind (ctxOf s n).cfg.unit (p.first + p.count))
  | none => false

/-- The next sample packet of a context: of a run that has ended, or of the present run once its last element is delivered and nothing that has been
accepted can still change it. The flag tells which. -/
def nextPiece (s : State) (n : Nat) : Option (StreamPiece × Bool) :=
  let c := ctxOf s n
  match c.pieces with
  | p :: _ => some (p, true)
  | [] =>
    match c.run with
    | some i =>
      let p := pieceAt s c.cfg i (toBoundary s c.cfg i) c.fresh false
      if elementIndex s c.cfg.pkind c.cfg.unit (i + p.count - 1) < heldBefore s then some ({ p with last := endsRun s n p }, false) else none
    | none => none

/-- The containers of a piece, and what its samples say (R394, R401). -/
def pieceData (s : State) (c : StreamConfig) (p : StreamPiece) : List Word × ClockNote :=
  p.settled.getD (elementWords s c.pkind c.unit p.index p.first p.count,
    notesOver s p.index (indexOn (sourceGrid s c.pkind c.unit p.index) (p.first + p.count - 1) + 1))

/-- What the pieces still to be sent hold is fixed, before a new numbering begins. -/
def settlePieces (s : State) : State :=
  { s with strm := { s.strm with ctxs := s.strm.ctxs.map fun c =>
      { c with pieces := c.pieces.map fun p => { p with settled := some (pieceData s c.cfg p) } } } }

/-- A context generates its next sample packet (R394-R397, R403). -/
def generateSample (n : Nat) (choice : List Byte) (s0 : State) : State :=
  match nextPiece s0 n with
  | none => s0
  | some (p, ended) =>
    let number : Option (Option Nat) := if s0.mode = .shadow then (checkpointFor s0 n p.first).map (seqByCheckpoint s0 n p.first) else none
    let s := match number with
      | some (some q) => setCtx n (fun c => { c with seq := q }) s0
      | _ => s0
    let c := ctxOf s n
    let data := pieceData s c.cfg p
    let elems := data.1
    let packet := if c.cfg.vdif then some (vdifPacket s n p elems, s) else kdpSample s n p p.last data.2 elems choice
    match packet with
    | none => s
    | some (bytes, s2) =>
      let clipped := if c.cfg.quant = 0 then 0 else ((quantCodes c.cfg elems).filter fun x => x.2).length
      let s1 := setCtx n (fun c =>
        { c with clipped := satAdd 32 c.clipped clipped,
                 pieces := if ended then c.pieces.tail else c.pieces,
                 run := if ended then c.run else some (p.first + p.count),
                 fresh := if ended then c.fresh else false }) s2
      if number == some none then s1 else (storePacket n bytes p.index p.fresh p.last s1).1

/-- Offer MQ items to a context of PKIND 7: it reads the next item whole into its own store (R458, R462). The pointer is released
when a stopped context has nothing left to read. -/
def pullMq (n : Nat) (s : State) : State :=
  match s.mq.readers.find? fun r => r.1 == n with
  | none => s
  | some r =>
    let t := mqTake s (s.mq.readable r.2) (2 ^ 32) 1 { items := [], pos := r.2, lost := 0 }
    let c := ctxOf s n
    let set (pos : Nat) (s : State) : State :=
      mqTrim (setMq (fun m => { m with readers := m.readers.map (fun x => if x.1 == n then (n, pos) else x), ueItems := satAdd 32 m.ueItems t.lost }) s)
    let release (s : State) : State := mqTrim (setMq (fun m => { m with readers := m.readers.filter (fun x => x.1 != n) }) s)
    let beyond (i : Nat) : Bool := match c.stopIndex with | some e => decide (e ≤ i) | none => false
    match t.items with
    | x :: _ =>
      if beyond x.1.accept then release s
      else set t.pos (setCtx n (fun c => { c with items := c.items ++ [{ seq := x.1.seq, index := x.1.accept, source := .bytes x.2 }] }) s)
    | [] => if !c.started && (s.mq.items.filter fun x => decide (t.pos ≤ x.start) && !beyond x.accept).isEmpty then release s else set t.pos s

/-- Pass over the slots that the producer has overwritten before the context began them (R399). -/
def skipStale (n : Nat) : Nat → State → State
  | 0, s => s
  | f + 1, s =>
    let c := ctxOf s n
    match c.items with
    | x :: rest =>
      if c.offset = 0 && !itemSound s x then
        skipStale n f (setCtx n (fun c => { c with items := rest, skipped := satAdd 32 c.skipped 1 }) s)
      else s
    | [] => s

/-- The region of a PKIND 8 context is sent: the context stops and STRM_DONE goes out (R399, R432). -/
def regionDone (n : Nat) (s : State) : State :=
  notify 0x0A03 (BitVec.ofNat 32 n :: u64Words (ctxOf s n).packetsSent) s.index (setCtx n (fun c => { c with started := false }) s)

/-- The partition, offset and length of the pool words that an item's bytes from `o` on lie in. -/
def itemRegion (src : ItemSource) (o : Nat) : Option (Word × Nat × Nat) :=
  match src with
  | .bytes _ => none
  | .slot h base n _ => some (h, base + o, n - o)
  | .half head h base n _ => some (h, base + (o - 4 * head.length), n - (o - 4 * head.length))
  | .region h base n => some (h, base + o, n - o)

/-- The area of a segment's slot that holds sample containers, in bytes from its start: an uncorrectable word there is delivered as INV containers
(R102). -/
def containerArea (s : State) (c : StreamConfig) : Nat × Nat :=
  let sh := sheafOf s c.unit
  if c.pkind = 5 && sh.cfg.full && sh.cfg.kind != 2 then (64, 64 + sh.cfg.len * sh.esize) else (0, 0)

/-- An item has lost a word that is no sample container, from offset `o` on (R102). -/
def itemLost (s : State) (c : StreamConfig) (src : ItemSource) (o : Nat) : Bool :=
  match itemRegion src o with
  | none => false
  | some (h, base, n) =>
    let area := containerArea s c
    match partByHandle s h with
    | some p => p.poisoned.any fun a => decide (base < a + 8) && decide (a < base + n)
        && !(decide (base - o + area.1 ≤ a) && decide (a < base - o + area.2))
    | none => false

/-- The bytes of an item with the uncorrectable containers INV. -/
def itemBytes (s : State) (c : StreamConfig) (src : ItemSource) (o n : Nat) : List Byte :=
  let l := itemRead s src o n
  match itemRegion src 0 with
  | some (h, base, _) =>
    let w := invElement (sheafOf s c.unit).cfg.kind
    let esize := (sheafOf s c.unit).esize
    l.zipIdx.map fun x =>
      if (containerArea s c).2 ≠ 0 && (((partByHandle s h).map fun p => poisonedAt p (base + o + x.2)).getD false)
      then (wordBytes w).getD ((o + x.2) % max 1 esize) 0 else x.1
  | none => l

/-- The rest of an item is dropped whole: each of its packets consumes its SEQ (R102, R402). -/
def dropItem (n more : Nat) (s : State) : State :=
  setCtx n (fun c => { c with items := c.items.tail, offset := 0, seq := (c.seq + more) % 2 ^ 64, dropped := satAdd 32 c.dropped more }) s

/-- A context generates the next packet of its first item (R398, R399, R402). -/
def generateItem (n : Nat) (choice : List Byte) (s00 : State) : State :=
  let s0 := if (ctxOf s00 n).cfg.pkind == 7 && (ctxOf s00 n).items.isEmpty then pullMq n s00 else s00
  let s := skipStale n (ctxOf s0 n).items.length s0
  let c := ctxOf s n
  match c.items with
  | [] => s
  | x :: rest =>
    let size := x.source.size
    let chunk := c.cfg.payload64 * 64
    let payload := itemBytes s c.cfg x.source c.offset chunk
    let last := decide (size ≤ c.offset + chunk)
    let spoiled := last && !itemSound s x
    if itemLost s c.cfg x.source c.offset then
      (if c.cfg.pkind = 8 then regionDone n else id) (dropItem n (ceilDiv (size - c.offset) chunk) s)
    else match packPayload s c.cfg payload choice with
    | none => s
    | some (bytes, packed, raw) =>
      let packet := kdpItem n c.cfg c.seq x.seq c.offset size packed raw (c.offset == 0) last spoiled bytes
      if !mayStore c packet then s
      else
        let r := storePacket n packet x.index (c.offset == 0) last (countPacked c.cfg payload.length bytes packed raw s)
        if !r.2 then
          dropItem n (ceilDiv (size - c.offset) chunk - 1) r.1
        else
          setCtx n (fun c => { c with
            items := if last then rest else c.items, offset := if last then 0 else c.offset + chunk,
            spoiled := if spoiled then satAdd 32 c.spoiled 1 else c.spoiled }) r.1

/-- STRM_PACKET_GENERATE (R392, R394, R398, R413). -/
def evStrmPacketGenerate (n : Nat) (volts : List Volts) (choice : List Byte) (errors : List MemError) (s0 : State) : State :=
  let s := bringErrors errors (bringVolts volts s0)
  if !modeRunsProducts (runMode s) then s
  else if (ctxOf s n).cfg.pkind ≤ 1 then generateSample n choice s
  else generateItem n choice s

/-! ### Sending (R406-R409, R412, R417) -/

/-- A destination can take a packet now: its port is enabled and up and has an address of the family (R423), or its ring has a free slot and the PCIe
link is up. -/
def destReady (s : State) (e : Nat) : Bool :=
  match (destOf s e).dest with
  | .none => false
  | .udp port v6 _ _ _ _ _ =>
    decide (port < s.variant.ports) && (portOf s port).en && (portOf s port).linkUp
      && (if v6 then (portOf s port).ipv6.any (fun w => w != 0) else (portOf s port).ipv4 != 0)
  | .hostRing _ slots _ _ _ _ _ _ => s.hub.pcieUp && decide ((destOf s e).prod - (destOf s e).cons < 2 ^ slots)
  | .pair _ => true

/-- Write a slot of a HOST_RING: the data, then PROD, then the vector once COUNT packets are new (R408, R64). -/
def hostRingWrite (e : Nat) (bytes : List Byte) (s : State) : State :=
  match (destOf s e).dest with
  | .hostRing base slots slotSize ptr vector intEn count _ =>
    let d := destOf s e
    let prod := (d.prod + 1) % 2 ^ 64
    let fire := intEn && decide (max 1 count ≤ d.unsignalled + 1)
    let s1 := emit (.hostWrite false ptr (bytes64 prod)) (emit (.hostWrite true (base + d.prod % 2 ^ slots * slotSize) bytes) s)
    let s2 := setDest e (fun d => { d with prod := prod, unsignalled := if fire then 0 else d.unsignalled + 1 }) s1
    if fire then raiseVector vector s2 else s2
  | _ => s

/-- Send a packet to a destination entry (R407-R409). -/
def sendTo (e : Nat) (bytes : List Byte) (s : State) : State :=
  match (destOf s e).dest with
  | .none => s
  | .udp port v6 dscp src dst mac addr =>
    emit (.streamFrame port (udpFrame (portOf s port) v6 dscp src dst mac addr bytes))
      (setPort port (fun p => { p with txFrames := satAdd 32 p.txFrames 1 }) s)
  | .hostRing .. => hostRingWrite e bytes s
  | .pair remote =>
    if s.pair.link == .up then emit (.pairRelay remote bytes) s
    else { s with pair := { s.pair with relayDropped := satAdd 32 s.pair.relayDropped 1 } }

/-- A packet before W that the old primary sends (R604). Log entry 77 (DEDUCED, unsafe). -/
def theirs (s : State) (n : Nat) (p : StoredPacket) : Bool :=
  match s.pair.handover with
  | some w => s.mode != .shadow && decide (placeOf s n p < w)
  | none => false

/-- A packet that this device need not send leaves the on-die queue, or stays in the ring as sent. -/
def passSent (seq : Nat) (c : StreamCtx) : StreamCtx :=
  { c with packets := if c.cfg.ring = 0 then c.packets.filter (fun p => p.seq != seq)
                      else c.packets.map (fun p => if p.seq == seq then { p with sent := true } else p) }

/-- A sent packet leaves the on-die queue, or stays in the ring as sent. -/
def markSent (seq : Nat) (c : StreamCtx) : StreamCtx :=
  { c with packets := if c.cfg.ring = 0 then c.packets.filter (fun p => p.seq != seq)
                      else c.packets.map (fun p => if p.seq == seq then { p with sent := true } else p),
           sent := satAdd 32 c.sent 1, packetsSent := c.packetsSent + 1,
           lastSent := (c.packets.find? fun p => p.seq == seq).map fun p => (p.seq, p.index) }

/-! ### Arbitration (R103, R104) -/

/-- The egress class of a product (R103, R391): 0 EV, 1 SP, 2 IN, 3 CR, 4 SA. -/
def egressClass (pkind : Nat) : Nat :=
  match pkind with
  | 0 | 1 => 4
  | 2 | 3 | 4 => 1
  | 6 => 2
  | 7 => 0
  | _ => 3

/-- The egress order of a mode, first to last (R103). -/
def egressOrder (m : Mode) : List Nat :=
  match m with
  | .quiet => [3]
  | .analyse => [0, 1, 3, 2, 4]
  | .integrate => [0, 2, 1, 3, 4]
  | .record => [0, 4, 3, 1]
  | .calibrate => [0, 2, 1, 3, 4]
  | .shadow => []

/-- The place of a product in the egress order of the mode in force; a class outside it comes last. -/
def egressRank (s : State) (pkind : Nat) : Nat :=
  let l := egressOrder (runMode s)
  (l.findIdx? fun c => c == egressClass pkind).getD l.length

/-- The link that a destination entry sends on: an Ethernet port, 4 for PCIe, 5 for the pair link. -/
def linkOf (s : State) (e : Nat) : Nat :=
  match (destOf s e).dest with
  | .udp port _ _ _ _ _ _ => port
  | .hostRing .. => 4
  | _ => 5

/-- The next packet that the live read pointer of a context can send now, with its entry. -/
def liveReady (s : State) (n : Nat) : Option (StoredPacket × Nat) :=
  match unsentOf (ctxOf s n) with
  | [] => none
  | p :: _ =>
    let e := (ctxOf s n).cfg.destFor p.seq
    if destReady s e && egressOf s n p then some (p, e) else none

/-- The next packet that a rewind of a context can send now, with its entry, once no live packet can go (R417). -/
def rewindReady (s : State) (n : Nat) : Option (StoredPacket × Nat) :=
  let c := ctxOf s n
  match c.rewind with
  | none => none
  | some r =>
    if r.lost || decide (r.stop < r.next) || (liveReady s n).isSome || !egressRuns s then none
    else match c.packets.find? fun p => p.seq == r.next with
      | none => none
      | some p =>
        let e := r.override.getD (c.cfg.destFor p.seq)
        if destReady s e then some (p, e) else none

/-- The link for which a context has a packet waiting that could go now. -/
def waitsFor (s : State) (n : Nat) : Option Nat := ((liveReady s n).or (rewindReady s n)).map fun x => linkOf s x.2

/-- The context last served of a class on a link. -/
def sendTurn (s : State) (link cls : Nat) : Nat := s.strm.turns.getD (5 * link + cls) 0

/-- It is this context's turn on a link (R104): no context of an earlier class waits for it, and within its class the contexts are served round
robin. Log entry 109 (DESIGN CHOICE, unsafe). -/
def hasTurn (s : State) (n link : Nat) : Bool :=
  let rank (m : Nat) : Nat := egressRank s (ctxOf s m).cfg.pkind
  let t := sendTurn s link (egressClass (ctxOf s n).cfg.pkind)
  let ahead (m : Nat) : Nat := (m + 127 - t) % 64
  (List.range s.strm.ctxs.length).all fun m =>
    m == n || waitsFor s m != some link || decide (rank n < rank m) || (rank n == rank m && decide (ahead n < ahead m))

/-- The context has been served on a link. -/
def serveTurn (n link : Nat) (s : State) : State :=
  setStrm (fun u => { u with turns := u.turns.set (5 * link + egressClass (ctxOf s n).cfg.pkind) n }) s

/-- A stored packet lies in a word of the ring that is uncorrectable (R102). -/
def packetLost (s : State) (c : StreamConfig) (p : StoredPacket) : Bool :=
  c.ring != 0 && regionPoisoned s c.ring (c.auOffset * 1048576 + p.offset) (storeSize p.bytes)

/-- The live read pointer sends the next packet in SEQ order (R412); a packet with an uncorrectable word is discarded (R102). -/
def sendLive (n : Nat) (s : State) : State :=
  match unsentOf (ctxOf s n) with
  | [] => s
  | p :: _ =>
    let c := (ctxOf s n).cfg
    if theirs s n p then setCtx n (passSent p.seq) s
    else match liveReady s n with
      | none => s
      | some (p, e) =>
        let done := if c.pkind = 8 && p.last then regionDone n else id
        if packetLost s c p then done (setCtx n (fun c => { passSent p.seq c with dropped := satAdd 32 c.dropped 1 }) s)
        else if !hasTurn s n (linkOf s e) then s
        else done (serveTurn n (linkOf s e) (setCtx n (markSent p.seq) (sendTo e p.bytes s)))

/-- A rewind sends its next packet with RETX = 1 (R417); a packet with an uncorrectable word is discarded (R102). -/
def sendRewind (n : Nat) (s : State) : State :=
  match rewindReady s n with
  | none => s
  | some (p, e) =>
    let next (k : Nat) (c : StreamCtx) : StreamCtx := { c with rewind := c.rewind.map fun r => { r with next := r.next + 1, resent := r.resent + k } }
    if packetLost s (ctxOf s n).cfg p then setCtx n (fun c => { next 0 c with dropped := satAdd 32 c.dropped 1 }) s
    else if !hasTurn s n (linkOf s e) then s
    else
      serveTurn n (linkOf s e) (setCtx n (fun c => { next 1 c with retx := satAdd 32 c.retx 1 }) (sendTo e (markRetx (ctxOf s n).cfg p.bytes) s))

/-- STRM_PACKET_SEND (R104, R412, R417). -/
def evStrmPacketSend (n : Nat) (rewind : Bool) (errors : List MemError) (s0 : State) : State :=
  let s := bringErrors errors s0
  if rewind then sendRewind n s else sendLive n s

/-- End a rewind: its command completes with the packets resent (R417). -/
def endRewind (n : Nat) (st : Status) (s : State) : State :=
  match (ctxOf s n).rewind with
  | none => s
  | some r => completeId r.cmd st (u64Words r.resent) s.index (setCtx n (fun c => { c with rewind := none }) s)

/-- REWIND_DONE (R417): the last packet has been resent, or the next one was overwritten. -/
def evRewindDone (n : Nat) (s : State) : State :=
  match (ctxOf s n).rewind with
  | none => s
  | some r => if r.lost then endRewind n .markLost s else if r.stop < r.next then endRewind n .ok s else s

/-- HOST_RING_CONS_POLL (R408). Log entry 28 (DESIGN CHOICE, safe). -/
def evHostRingConsPoll (e cons : Nat) (s : State) : State :=
  match (destOf s e).dest with
  | .hostRing .. => setDest e (fun d => { d with cons := cons }) s
  | _ => s

/-- HOST_RING_INT_TIME (R408): TIME after the first new packet. -/
def evHostRingIntTime (e : Nat) (s : State) : State :=
  match (destOf s e).dest with
  | .hostRing _ _ _ _ vector intEn _ _ =>
    if intEn && decide (0 < (destOf s e).unsignalled) then raiseVector vector (setDest e (fun d => { d with unsignalled := 0 }) s) else s
  | _ => s

/-! ### Ports (R410, R419, R432) -/

/-- OTHER_FRAME (R410). -/
def evOtherFrame (p : Nat) (s : State) : State := discardRx p s

/-- PAUSE_FRAME (R410): discarded, counted, never obeyed. -/
def evPauseFrame (p : Nat) (s : State) : State := countRx p (fun e => { e with pauseIgnored := satAdd 32 e.pauseIgnored 1 }) s

/-- ARP_REQUEST (R410): the port answers for its own IPv4 address, but not in SHADOW (R595). -/
def evArpRequest (p mac ip target : Nat) (s : State) : State :=
  let e := portOf s p
  if e.en && s.mode != .shadow && e.ipv4 != 0 && e.ipv4.toNat == target then
    emit (.arpReply p mac ip) (countRx p (fun e => { e with txFrames := satAdd 32 e.txFrames 1 }) s)
  else discardRx p s

/-- NEIGHBOUR_SOLICITATION (R410). -/
def evNeighbourSolicitation (p mac : Nat) (ip target : List Word) (s : State) : State :=
  let e := portOf s p
  if e.en && s.mode != .shadow && e.ipv6.any (fun w => w != 0) && e.ipv6 == target then
    emit (.neighbourAdvert p mac ip) (countRx p (fun e => { e with txFrames := satAdd 32 e.txFrames 1 }) s)
  else discardRx p s

/-- ETH_LINK_CHANGE (R432). -/
def evEthLinkChange (p : Nat) (up : Bool) (s : State) : State :=
  if s.variant.ports ≤ p || (portOf s p).linkUp == up then s
  else notify 0x0A02 [BitVec.ofNat 32 (p + (if up then 256 else 0))] s.index (setPort p (fun e => { e with linkUp := up }) s)

/-- The PTP form of a stamp (R150), in 2^-16 ns, rounded down: EPOCH_TAI + DTS/fs + PTP_ADJUST. -/
def ptpForm (s : State) (stamp : Nat) : Nat :=
  (((s.time.epochTai * 1000000000 * 65536 : Nat) : Int) + ((stamp * 1000000000 / (65536 * max 1 (fsOf s.time)) : Nat) : Int) + s.time.ptpAdjust).toNat

/-- A stamp record (R419). -/
def stampRecord (v port len : Nat) : List Word :=
  let secs := v / 65536000000000
  let ns := v / 65536 % 1000000000
  [lo32 secs, BitVec.ofNat 32 (secs / 2 ^ 32 % 65536 + v % 65536 * 65536), BitVec.ofNat 32 ns, BitVec.ofNat 32 (port + len % 2 ^ 14 * 65536)]

/-- PTP_FRAME_RX (R419): stamped, and delivered to the HOST_RING entry of the port, or lost where that ring is full. One longer than the slots of the
ring is lost too. Log entry 99 (DESIGN CHOICE, safe). -/
def evPtpFrameRx (p stamp : Nat) (frame : List Byte) (s : State) : State :=
  let e := portOf s p
  if !e.en then s
  else if !e.ptpEn then discardRx p s
  else
    let s1 := countRx p id s
    match (destOf s e.ptpEntry).dest with
    | .hostRing _ _ slotSize _ _ _ _ _ =>
      if destReady s e.ptpEntry && decide (16 + frame.length ≤ slotSize) then
        hostRingWrite e.ptpEntry (bytesOfWords (stampRecord (ptpForm s stamp) p frame.length) ++ frame) s1
      else setPort p (fun e => { e with ptpRxLost := satAdd 32 e.ptpRxLost 1 }) s1
    | _ => setPort p (fun e => { e with ptpRxLost := satAdd 32 e.ptpRxLost 1 }) s1

end Sys2Proof.Machine
end

