-- ==== Sys2Proof/Machine/StreamCmds.lean ====
section
/-! DEFINITION. The commands of the Stream group (R421-R431) and the packers' memory-to-memory jobs and commands
(R443-R450). -/

namespace Sys2Proof.Machine

/-! ### Sizes, rates and loads (R401, R411, R425, R443) -/

/-- The configuration in a STRM_CONFIG (R425). -/
def streamConfigOf (c : Cmd) : StreamConfig :=
  { pkind := c.arg 0 11 8, unit := c.arg 0 14 12, quant := c.arg 0 18 16, vdif := c.flag 0 19, pack := c.arg 0 21 20, level := c.arg 0 24 22,
    vblockLog2 := c.arg 0 28 26 + 5, dests := [c.arg 1 5 0, c.arg 1 13 8, c.arg 1 21 16, c.arg 1 29 24], stripe := c.arg 2 2 0,
    blocks := c.arg 2 15 8, payload64 := c.arg 2 23 16, thresh := (c.word 3).toNat, sourceId := c.word 4, ring := c.word 5,
    auOffset := c.arg 6 8 0, auCount := c.arg 6 24 16, w7 := c.word 7, w8 := c.word 8, w9 := c.word 9 }

/-- The payload of a full packet before compression. -/
def StreamConfig.payloadBytes (c : StreamConfig) : Nat :=
  if 2 ≤ c.pkind then c.payload64 * 64
  else if c.quant = 0 then c.p * (if c.pkind = 0 then 2 else 4)
  else ceilDiv (c.p * (if c.pkind = 0 then 1 else 2) * quantBits c.pkind c.quant) 64 * 8

/-- The bitmap of a full packet in 8-byte words. -/
def StreamConfig.bitmapWords (c : StreamConfig) : Nat := if 2 ≤ c.pkind || c.quant = 0 || c.vdif then 0 else ceilDiv c.blocks 16

/-- The size of a full packet (R425). -/
def StreamConfig.packetBytes (c : StreamConfig) : Nat :=
  if c.vdif then 40 + c.payloadBytes else 48 + 8 * c.bitmapWords + c.payloadBytes

/-- The size and rate of the items of a product, where the spec fixes a rate. -/
def itemRate (s : State) (c : StreamConfig) : Option (Nat × Rat) :=
  let fs : Rat := fsOf s.time
  match c.pkind with
  | 2 =>
    let g := (engineOf s c.unit).cfg
    some (recordSize s c.unit, inputRate (fsOf s.time) g.tuner (s.tuners.getD (engineTuner c.unit) default).decim
      / ((max 1 g.hop * max 1 (engineOf s c.unit).out.decim : Nat) : Rat))
  | 3 => let d := densOf s c.unit
         some (slotStride (2 * d.cfg.rows * d.cfg.cols) - 64, fs / ((max 1 (densFrameLen d) : Nat) : Rat))
  | 4 => let u := (spgmOf s c.unit).cfg
         some (slotStride (lineColumns s u * (if u.log8 then 1 else 2)) - 64, lineRate s u)
  | 6 => some (64 + s.intg.cfg.half, fs / ((max 1 s.intg.cfg.frameLen : Nat) : Rat))
  | _ => none

/-- The element rate of a sample stream. -/
def elementRate (s : State) (c : StreamConfig) : Rat := inputRate (fsOf s.time) (c.pkind == 1) (s.tuners.getD c.unit default).decim

/-- The packet bytes of a context per second; `none` where the spec fixes no rate. -/
def streamRate (s : State) (c : StreamConfig) : Option Rat :=
  if c.pkind ≤ 1 then some (elementRate s c * (c.packetBytes : Rat) / (c.p : Rat))
  else (itemRate s c).map fun x => x.2 * ((x.1 + 48 * ceilDiv x.1 (max 1 c.payload64 * 64) : Nat) : Rat)

/-- The load that a context puts on its packer (R443). -/
def packLoad (s : State) (c : StreamConfig) : Rat :=
  let bytes : Rat := if c.pkind ≤ 1 then elementRate s c * (c.payloadBytes : Rat) / (c.p : Rat)
    else ((itemRate s c).map fun x => x.2 * (x.1 : Rat)).getD 0
  bytes / (levelRate c.level : Rat)

/-- The contexts STARTED or configured on a packer, but for `skip` (R443). -/
def packContexts (s : State) (p skip : Nat) : List StreamConfig :=
  (s.strm.ctxs.zipIdx.filter fun x => x.2 != skip && (x.1.configured || x.1.started) && x.1.cfg.pack == p + 1).map fun x => x.1.cfg

/-! ### Checks of a stream configuration (R391-R414) -/

def unitInRange (pkind unit : Nat) : Bool :=
  match pkind with
  | 0 | 3 => decide (unit < 4)
  | 1 | 2 | 4 | 5 => decide (unit < 8)
  | 6 | 7 | 8 => unit == 0
  | _ => false

def unitPresent (s : State) (pkind unit : Nat) : Bool :=
  match pkind with
  | 0 | 3 => decide (unit < s.variant.channels)
  | 1 => decide (unit < s.variant.tuners)
  | 2 => s.variant.hasEngine unit
  | _ => true

/-- The element rate and the frames of a VDIF stream pass R404. Log entry 60 (DEDUCED, unsafe). -/
def vdifRateOk (s : State) (c : StreamConfig) : Bool :=
  let decim := (s.tuners.getD c.unit default).decim
  let whole := c.pkind == 0 || (fsOf s.time * 2 ^ 32 % max 1 decim == 0)
  let fe := vdifRate s c
  whole && fe % c.p == 0 && decide (fe / c.p < 2 ^ 24)

/-- The fields of a VDIF configuration pass R403. -/
def vdifFieldsOk (c : StreamConfig) : Bool :=
  decide (c.pkind ≤ 1) && decide (2 ≤ c.quant) && c.pack == 0
    && c.p * (if c.pkind = 0 then 1 else 2) * quantBits c.pkind c.quant % 64 == 0

/-- The packet fits where an entry sends it: the MTU of its port (R407), or its slot (R408). Log entry 60 (DEDUCED, unsafe). -/
def fitsEntry (s : State) (size e : Nat) : Bool :=
  match (destOf s e).dest with
  | .udp port v6 _ _ _ _ _ => decide (size + (if v6 then 48 else 28) ≤ (portOf s port).mtu)
  | .hostRing _ _ slotSize _ _ _ _ _ => decide (size ≤ slotSize)
  | _ => true

/-- The entries a context names (R406). -/
def StreamConfig.entries (c : StreamConfig) : List Nat := (c.dests.take c.stripe).eraseDups

def isHostRing (s : State) (e : Nat) : Bool :=
  match (destOf s e).dest with
  | .hostRing .. => true
  | _ => false

/-- Another configured context names a HOST_RING entry of this one (R406). Log entry 60 (DEDUCED, unsafe). -/
def sharesHostRing (s : State) (n : Nat) (c : StreamConfig) : Bool :=
  c.entries.any fun e => isHostRing s e && s.strm.ctxs.zipIdx.any fun x => x.2 != n && x.1.configured && x.1.cfg.entries.contains e

/-- The retransmit ring passes R414. -/
def retxRingOk (s : State) (n : Nat) (c : StreamConfig) : Bool :=
  c.ring == 0 || (decide (1 ≤ c.auCount) && decide (c.auCount ≤ 384) && (match bindable s c.ring 4 with
    | some p => decide (c.auOffset + c.auCount ≤ p.au)
    | none => false)
    && s.strm.ctxs.zipIdx.all fun x => x.2 == n || x.1.cfg.ring == 0 || !rangesMeet c.ring c.auOffset c.auCount x.1.cfg.ring x.1.cfg.auOffset x.1.cfg.auCount)

/-- The fields of a STRM_CONFIG pass R391 to R404. Log entry 60 (DEDUCED, unsafe). -/
def streamFieldsOk (c : StreamConfig) : Bool :=
  unitInRange c.pkind c.unit && decide (c.quant ≤ 4) && (decide (c.pkind ≤ 1) || c.quant == 0) && c.pack != 3
    && decide (1 ≤ c.stripe) && decide (c.stripe ≤ 4)
    && (if c.pkind ≤ 1 then decide (1 ≤ c.blocks) && (c.quant == 0 || decide (1 ≤ c.thresh))
          && (c.vdif || (decide (c.payloadBytes ≤ 65535) && decide (c.bitmapWords ≤ 255) && decide (c.p ≤ 65535)))
        else !c.vdif && decide (1 ≤ c.payload64) && decide (c.payload64 ≤ 140))
    && (!c.vdif || vdifFieldsOk c) && (c.pkind != 8 || (c.w8.toNat % 64 == 0 && c.w9.toNat % 64 == 0 && decide (0 < c.w9.toNat)))

/-- A configuration fits the product, the packer, the destinations and the ring that it names (R404 to R414). Log entry 60 (DEDUCED, unsafe). -/
def streamFits (n : Nat) (c : StreamConfig) (s : State) : Bool :=
  (!c.vdif || vdifRateOk s c)
    && (c.pkind != 8 || (match partForUse s c.w7 with
      | some p => decide (c.w8.toNat + c.w9.toNat ≤ p.au * 1048576)
      | none => false))
    && (match streamRate s c with | some r => decide (r * 8 ≤ 320000000000) | none => true)
    && (c.pack == 0 || decide (packLoad s c + ((packContexts s (c.pack - 1) n).map (packLoad s)).sum ≤ 1))
    && c.entries.all (fitsEntry s c.packetBytes) && !sharesHostRing s n c && retxRingOk s n c

/-! ### Commands -/

/-- What a STARTED context needs of a port's MTU (R423). -/
def portNeeds (s : State) (p mtu : Nat) : Bool :=
  s.strm.ctxs.all fun c => !c.started || c.cfg.entries.all fun e =>
    match (destOf s e).dest with
    | .udp port v6 _ _ _ _ _ => port != p || decide (c.cfg.packetBytes + (if v6 then 48 else 28) ≤ mtu)
    | _ => true

/-- STRM_PORT_CONFIG (R422, R423). -/
def specStrmPortConfig : CmdSpec :=
  { opcode := 0x0A00, plen := plenIs 8, addr := fun c => [unitNo 0xA (128 + c.arg 0 1 0)],
    params := fun _ c => decide (1500 ≤ c.arg 2 31 16) && decide (c.arg 2 31 16 ≤ 9216)
      && !(c.flag 0 2 && c.word 1 == 0 && c.arg 2 15 0 == 0),
    units := fun s c => decide (c.arg 0 1 0 < s.variant.ports),
    busy := fun s c => !portNeeds s (c.arg 0 1 0) (c.arg 2 31 16),
    run := fun c _ s =>
      (setPort (c.arg 0 1 0) (fun e => { e with
        en := c.flag 0 2, ptpEn := c.flag 0 3, ptpEntry := c.arg 0 13 8, mac := (c.word 1).toNat + c.arg 2 15 0 * 2 ^ 32, mtu := c.arg 2 31 16,
        ipv4 := c.word 3, ipv6 := [c.word 4, c.word 5, c.word 6, c.word 7] }) s, .done .ok []) }

/-- The entry in a STRM_DEST (R424). -/
def destinationOf (c : Cmd) : Destination :=
  match c.arg 0 9 8 with
  | 1 => .udp (c.arg 0 11 10) (c.flag 0 12) (c.arg 0 21 16) (c.arg 1 15 0) (c.arg 1 31 16) ((c.word 2).toNat + c.arg 3 15 0 * 2 ^ 32)
          [c.word 4, c.word 5, c.word 6, c.word 7]
  | 2 => .hostRing (c.arg 2 19 16 * 2 ^ 12 + c.arg 1 15 0 * 2 ^ 16 + c.arg 1 31 16 * 2 ^ 32 + c.arg 2 15 0 * 2 ^ 48) (c.arg 3 4 0)
          (c.arg 3 31 16 * 64) (c.arg64 4) (c.arg 6 5 0) (c.flag 6 8) (c.arg 6 23 16) (c.arg 7 15 0)
  | 3 => .pair (c.arg 1 5 0)
  | _ => .none

/-- STRM_DEST (R406, R424). -/
def specStrmDest : CmdSpec :=
  { opcode := 0x0A01, plen := plenIs 8, modes := notShadow, addr := fun c => [unitNo 0xA (64 + c.arg 0 5 0)],
    params := fun _ c =>
      match c.arg 0 9 8 with
      | 1 => decide (1 ≤ c.arg 1 31 16)
      | 2 => decide (4 ≤ c.arg 3 4 0) && decide (c.arg 3 4 0 ≤ 20) && decide (1 ≤ c.arg 3 31 16) && decide (c.arg 3 31 16 ≤ 144) && c.arg 4 3 0 == 0
      | _ => true,
    units := fun s c => c.arg 0 9 8 != 1 || decide (c.arg 0 11 10 < s.variant.ports),
    busy := fun s c => s.strm.ctxs.any fun x => x.started && x.cfg.entries.contains (c.arg 0 5 0),
    run := fun c _ s =>
      (setDest (c.arg 0 5 0) (fun _ => { dest := destinationOf c, prod := 0, cons := 0, unsignalled := 0 }) s, .done .ok []) }

/-- Every waiting STRM_MARK of a context ends with MARK_LOST. Log entry 61 (DEDUCED, unsafe). -/
def dropMarkWaits (n : Nat) (s : State) : State :=
  let l := (ctxOf s n).markWaits
  l.foldl (fun a w => completeId w.cmd .markLost [0, 0] a.index a) (setCtx n (fun c => { c with markWaits := [] }) s)

/-- STRM_CONFIG (R402, R416, R425): the store of the context starts empty. Log entry 61 (DEDUCED, unsafe). -/
def specStrmConfig : CmdSpec :=
  { opcode := 0x0A02, plen := plenIs 10, modes := notShadow, addr := fun c => [unitNo 0xA (c.arg 0 5 0)],
    params := fun _ c => streamFieldsOk (streamConfigOf c),
    units := fun s c => unitPresent s (c.arg 0 11 8) (c.arg 0 14 12),
    fits := fun s c => (futures (afterLate s) s.index).all (streamFits (c.arg 0 5 0) (streamConfigOf c)),
    busy := fun s c => (ctxOf s (c.arg 0 5 0)).started,
    run := fun c _ s =>
      let n := c.arg 0 5 0
      let g := streamConfigOf c
      let s1 := dropMarkWaits n (endRewind n .markLost s)
      let s2 := setMq (fun m => { m with readers := m.readers.filter (fun r => r.1 != n) })
        (setCtx n (fun x => { x with
          cfg := g, configured := true, seq := if c.flag 0 25 then x.seq else 0, run := none, pieces := [], items := [], offset := 0, packets := [],
          writeOffset := 0, marks := List.replicate 4 { seq := none, lost := false }, bindingLost := false, stopIndex := none }) s1)
      let (w, s3) := takeFree (sendCheckpoint n s.index true { s2 with pair := { s2.pair with itemFloor := s2.pair.itemFloor.filter (fun x => x.1 != n) } })
      let rate := match streamRate s g with
        | some r => BitVec.ofNat 32 (r * 8 / 1000000).ceil.toNat
        | none => w
      (s3, .done .ok [BitVec.ofNat 32 g.packetBytes, BitVec.ofNat 32 (if g.pkind ≤ 1 then g.p else 0), rate, lo32 (ctxOf s2 n).seq]) }

/-- A context starts at effective index `e` (R393, R458). -/
def startCtx (e n : Nat) (s : State) : State :=
  let c := (ctxOf s n).cfg
  let s1 := setCtx n (fun c => { c with started := true, startIndex := e, stopIndex := none, packetsSent := 0 }) s
  match c.pkind with
  | 0 | 1 => startCtxRun e n s1
  | 7 =>
    let pos := ((s.mq.items.find? fun x => decide (e ≤ x.accept)).map fun x => x.start).getD s.mq.writePos
    setMq (fun m => { m with readers := m.readers.filter (fun r => r.1 != n) ++ [(n, pos)] }) s1
  | 8 => setCtx n (fun x => { x with items := x.items ++ [{ seq := 0, index := e, source := .region c.w7 c.w8.toNat c.w9.toNat }] }) s1
  | _ => s1

/-- A context stops at effective index `e` (R393): the items before `e` still leave. -/
def stopCtx (e n : Nat) (s : State) : State :=
  let s1 := setCtx n (fun c => { c with started := false, stopIndex := some e, items := c.items.filter (fun x => decide (x.index < e)) }) (endCtxRun e n s)
  if (ctxOf s1 n).cfg.pkind = 7 && s1.mq.items.all (fun x => decide (e ≤ x.accept)) then
    mqTrim (setMq (fun m => { m with readers := m.readers.filter (fun r => r.1 != n) }) s1)
  else s1

/-- A context may start (R406, R407, R422). -/
def mayStart (s : State) (mask n : Nat) : Bool :=
  let c := (ctxOf s n).cfg
  c.entries.all (fun e => (destOf s e).dest != .none && fitsEntry s c.packetBytes e)
    && c.entries.all (fun e => !isHostRing s e || (List.range s.strm.ctxs.length).all fun m =>
        m == n || !((ctxOf s m).started || mask.testBit m) || !(ctxOf s m).cfg.entries.contains e)

/-- STRM_ENABLE (R392, R393, R426). -/
def specStrmEnable : CmdSpec :=
  { opcode := 0x0A03, plen := plenIs 3, timed := fun _ => .sampleDomain,
    modes := fun m c => m != .shadow && !(c.flag 2 0 && m == .quiet),
    addr := fun c => (maskBits 64 (c.arg64 0)).map (unitNo 0xA),
    params := fun s c => at32 c && c.arg64 0 != 0
      && (!c.flag 2 0 || (maskBits 64 (c.arg64 0)).all fun n => (ctxOf s n).started || mayStart s (c.arg64 0) n),
    lead := lead1us,
    run := fun c e s =>
      ((maskBits 64 (c.arg64 0)).foldl (fun a n =>
        if (ctxOf a n).started == c.flag 2 0 then a else if c.flag 2 0 then startCtx e n a else stopCtx e n a) s, .done .ok []) }

/-- The modes of STRM_MARK and STRM_REWIND (R421). -/
def egressModes : Mode → Cmd → Bool := fun m _ => m != .quiet && m != .shadow

/-- STRM_MARK (R415, R416, R427). -/
def specStrmMark : CmdSpec :=
  { opcode := 0x0A04, plen := plenIs 3, timed := fun _ => .sampleDomain, modes := egressModes, addr := fun c => [unitNo 0xA (c.arg 0 5 0)],
    params := fun s c => at32 c && c.arg 0 11 10 != 3 && !(c.timed && (c.arg 0 11 10 == 1 || decide (2 ≤ (ctxOf s (c.arg 0 5 0)).cfg.pkind))),
    lead := lead1us,
    run := fun c e s =>
      let n := c.arg 0 5 0
      let m := c.arg 0 9 8
      let set (v : Mark) (s : State) : State := setCtx n (fun x => { x with marks := modAt x.marks m (fun _ => v) }) s
      match c.arg 0 11 10 with
      | 0 => (setCtx n (fun x => { x with marks := modAt x.marks m (fun v => { v with lost := false }), markWaits := x.markWaits ++ [{ cmd := c.id, mark := m, at_ := if c.timed then e else 0 }] }) s, .later)
      | 1 =>
        if (ctxOf s n).packets.any fun p => p.seq == c.arg64 1 then (set { seq := some (c.arg64 1), lost := false } s, .done .ok (u64Words (c.arg64 1)))
        else (s, .done .markLost [0, 0])
      | _ => (set { seq := none, lost := false } s, .done .ok [0, 0]) }

/-- STRM_REWIND (R417, R428). Log entry 61 (DEDUCED, unsafe). -/
def specStrmRewind : CmdSpec :=
  { opcode := 0x0A05, plen := plenIs 5, modes := egressModes, addr := fun c => [unitNo 0xA (c.arg 0 5 0)],
    params := fun s c => (ctxOf s (c.arg 0 5 0)).cfg.ring != 0,
    busy := fun s c => (ctxOf s (c.arg 0 5 0)).rewind.isSome,
    run := fun c _ s =>
      let n := c.arg 0 5 0
      let x := ctxOf s n
      let start := if c.flag 0 10 then some (c.arg64 1) else (x.marks.getD (c.arg 0 9 8) default).seq
      match start with
      | none => (s, .done .markLost [0, 0])
      | some q =>
        if (x.packets.any fun p => p.seq == q) && !(s.pair.itemFloor.any fun f => f.1 == n && decide (q ≤ f.2)) then
          let r : Rewind :=
            { cmd := c.id, next := q, stop := min (c.arg64 3) (x.seq - 1), override := if c.flag 0 22 then some (c.arg 0 21 16) else none, resent := 0, lost := false }
          (setCtx n (fun x => { x with rewind := some r }) s, .first .deferred)
        else (s, .done .markLost [0, 0]) }

/-- STRM_STATUS (R429). -/
def specStrmStatus : CmdSpec :=
  { opcode := 0x0A06, plen := plenIs 1, addr := fun c => [unitNo 0xA (c.arg 0 5 0)],
    run := fun c _ s =>
      let n := c.arg 0 5 0
      let x := ctxOf s n
      let marks (f : Mark → Bool) : Nat := maskOf ((List.range 4).filter fun m => f (x.marks.getD m default))
      (if c.flag 0 8 then setCtx n (fun x => { x with sent := 0, dropped := 0, retx := 0, clipped := 0, spoiled := 0, skipped := 0 }) s else s,
        .done .ok ([BitVec.ofNat 32 ((if x.started then 1 else 0) + (if x.started && modeRunsProducts s.mode && s.mode != .shadow then 2 else 0) + (if x.rewind.isSome then 4 else 0)
            + (if x.bindingLost then 8 else 0) + marks (fun m => m.seq.isSome) * 16 + marks (fun m => m.lost) * 256)]
          ++ u64Words x.seq ++ [BitVec.ofNat 32 x.sent, BitVec.ofNat 32 x.dropped, BitVec.ofNat 32 x.retx, BitVec.ofNat 32 x.clipped,
            BitVec.ofNat 32 x.spoiled, BitVec.ofNat 32 x.skipped, BitVec.ofNat 32 (unsentOf x).length])) }

/-- STRM_PORT_STATUS (R430). The two FEC counters count codewords that no row carries: free values. Log entry 10 (DESIGN CHOICE, safe). -/
def specStrmPortStatus : CmdSpec :=
  { opcode := 0x0A07, plen := plenIs 1, addr := fun c => [unitNo 0xA (128 + c.arg 0 1 0)],
    units := fun s c => decide (c.arg 0 1 0 < s.variant.ports),
    run := fun c _ s =>
      let p := c.arg 0 1 0
      let e := portOf s p
      let (f1, s1) := takeFree s
      let (f2, s2) := takeFree s1
      (if c.flag 0 8 then setPort p (fun e => { e with txFrames := 0, rxFrames := 0, rxDiscarded := 0, pauseIgnored := 0, ptpRxLost := 0 }) s2 else s2,
        .done .ok [BitVec.ofNat 32 ((if e.linkUp then 1 else 0) + (if e.en then 2 else 0) + (if e.ptpEn then 4 else 0)), BitVec.ofNat 32 e.txFrames,
          BitVec.ofNat 32 e.rxFrames, BitVec.ofNat 32 e.rxDiscarded, f1, f2, BitVec.ofNat 32 e.pauseIgnored, BitVec.ofNat 32 e.ptpRxLost]) }

/-- STRM_PTP_SEND (R419, R431). How long after the present sample the frame crosses the balls is measured at the port: a free value, and the stamp is
the PTP form of that instant (R150). Log entry 99 (DESIGN CHOICE, safe). -/
def specStrmPtpSend : CmdSpec :=
  { opcode := 0x0A08, plen := fun c => decide (2 ≤ c.plen) && decide (c.plen ≤ 255), addr := fun c => [unitNo 0xA (128 + c.arg 0 1 0)],
    params := fun _ c => decide (14 ≤ c.arg 0 29 16) && decide (c.arg 0 29 16 ≤ 4 * (c.plen - 1)),
    units := fun s c => decide (c.arg 0 1 0 < s.variant.ports),
    busy := fun s c => !((portOf s (c.arg 0 1 0)).en && (portOf s (c.arg 0 1 0)).linkUp),
    run := fun c _ s =>
      let p := c.arg 0 1 0
      let len := c.arg 0 29 16
      let frame := (bytesOfWords ((List.range (c.plen - 1)).map fun i => c.word (i + 1))).take len
      let (a, s1) := takeFree s
      let (b, s2) := takeFree s1
      (emit (.rawFrame p (frame ++ List.replicate (60 - len) 0)) (setPort p (fun e => { e with txFrames := satAdd 32 e.txFrames 1 }) s2),
        .done .ok (stampRecord (ptpForm s (s.index * 2 ^ 32 + join64 a b)) p len)) }

/-! ### Packers (R443-R450) -/

/-- PK_CONFIG (R448). -/
def specPkConfig : CmdSpec :=
  { opcode := 0x0B00, plen := plenIs 1, modes := notShadow, addr := fun c => [unitNo 0xB (c.arg 0 0 0)],
    params := fun _ c => c.arg 0 5 4 != 3 && c.arg 0 9 8 != 3 && c.arg 0 13 12 != 3,
    busy := fun s c => s.strm.ctxs.any fun x => x.started && x.cfg.pack == c.arg 0 0 0 + 1,
    run := fun c _ s =>
      (setPacker (c.arg 0 0 0) (fun p => { p with samplePred := c.arg 0 5 4, itemPred := c.arg 0 9 8, itemElem := c.arg 0 13 12 }) s, .done .ok []) }

/-- The job in a PK_ENCODE (R449). -/
def packJobOf (c : Cmd) : PackJob :=
  { cmd := c.id, elem := c.arg 0 3 1, pred := c.arg 0 5 4, level := c.arg 0 8 6, rawOk := c.flag 0 9, stride := c.arg 0 28 16,
    blockBytes := c.arg 1 16 0, inHandle := c.word 2, inOffset := (c.word 3).toNat, length := (c.word 4).toNat, outHandle := c.word 5,
    outOffset := (c.word 6).toNat, outLength := (c.word 7).toNat }

/-- A region of a job lies in a ROLE 0 partition. -/
def jobRegionOk (s : State) (h : Word) (o n : Nat) : Bool :=
  match bindable s h 0 with
  | some p => decide (o + n ≤ p.au * 1048576)
  | none => false

/-- PK_ENCODE (R444, R449): it completes when its job ends. -/
def specPkEncode : CmdSpec :=
  { opcode := 0x0B01, plen := plenIs 8, modes := notShadow, addr := fun c => [unitNo 0xB (c.arg 0 0 0)], queues := true,
    params := fun s c =>
      let j := packJobOf c
      j.pred != 3 && decide (1 ≤ j.stride) && decide (j.stride ≤ 4096)
        && decide (64 ≤ j.blockBytes) && decide (j.blockBytes ≤ 65536) && j.blockBytes % 64 == 0
        && j.inOffset % 64 == 0 && decide (64 ≤ j.length) && j.length % 64 == 0
        && j.outOffset % 8 == 0 && decide (32 ≤ j.outLength) && j.outLength % 8 == 0
        && jobRegionOk s j.inHandle j.inOffset j.length && jobRegionOk s j.outHandle j.outOffset j.outLength
        && !rangesMeet j.inHandle j.inOffset j.length j.outHandle j.outOffset j.outLength,
    busy := fun s c =>
      let j := packJobOf c
      decide (8 ≤ (s.packers.getD (c.arg 0 0 0) default).jobs.length)
        || s.packers.any fun p => p.jobs.any fun o =>
            rangesMeet j.inHandle j.inOffset j.length o.outHandle o.outOffset o.outLength
              || rangesMeet j.outHandle j.outOffset j.outLength o.outHandle o.outOffset o.outLength,
    run := fun c _ s => (setPacker (c.arg 0 0 0) (fun p => { p with jobs := p.jobs ++ [packJobOf c] }) s, .later) }

/-- The input of a job: uncorrectable words read as zero (R102, R444); the second result counts them. -/
def jobInput (s : State) (j : PackJob) (o n : Nat) : List Byte × Nat :=
  match partByHandle s j.inHandle with
  | some p =>
    let bad (i : Nat) : Bool := p.poisoned.contains ((o + i) / 8 * 8)
    (((readCells p.data o n).zipIdx).map (fun x => if bad x.2 then 0 else x.1), ((List.range (n / 8)).filter fun i => bad (8 * i)).length)
  | none => (List.replicate n 0, 0)

/-- How far a job has come. -/
structure JobRun where
  done : Option Status
  consumed : Nat
  out : List Byte
  blocks : Nat
  raws : Nat
  noGain : Nat
  ue : Nat

/-- One block of a job (R440, R441, R445). Log entries 63 (DESIGN CHOICE, safe), 64 (DEDUCED, unsafe). -/
def jobBlock (s : State) (j : PackJob) (choice : List Byte) (r : JobRun) : JobRun :=
  let n := min j.blockBytes (j.length - r.consumed)
  let x := jobInput s j (j.inOffset + r.consumed) n
  let left := j.outLength - r.out.length
  let body := if j.level != 0 && choice.isEmpty then none else packBody j.elem j.pred j.stride j.level x.1 choice
  let r1 := { r with ue := r.ue + x.2 }
  let add (bytes : List Byte) (raw : Nat) : JobRun :=
    { r1 with consumed := r.consumed + n, out := r.out ++ bytes, blocks := r.blocks + 1, raws := r.raws + raw, noGain := r.noGain + raw }
  let shrunk := match body with
    | some b => decide (16 + b.length < n)
    | none => false
  if shrunk then
    let b := body.getD []
    if 16 + b.length ≤ left then add (blockBytes j.elem j.pred j.stride j.level false x.1 b) 0 else { r1 with done := some .outFull }
  else if left < n then { r1 with done := some .outFull }
  else if !j.rawOk then { r1 with done := some .noGain, noGain := r.noGain + 1 }
  else if 16 + n ≤ left then add (blockBytes j.elem j.pred j.stride j.level true x.1 x.1) 1
  else { r1 with done := some .outFull, noGain := r.noGain + 1 }

/-- The blocks of a job in order, with the encoder's choice for each. -/
def jobBlocks (s : State) (j : PackJob) : Nat → List (List Byte) → JobRun → JobRun
  | 0, _, r => r
  | f + 1, ch, r =>
    if r.done.isSome || j.length ≤ r.consumed then r else jobBlocks s j f ch.tail (jobBlock s j (ch.headD []) r)

/-- PK_JOB_END (R445): the running job of a packer ends. -/
def evPkJobEnd (p : Nat) (choices : List (List Byte)) (errors : List MemError) (s0 : State) : State :=
  let s := bringErrors errors s0
  match (s.packers.getD p default).jobs with
  | [] => s
  | j :: rest =>
    let r := jobBlocks s j (j.length / max 1 j.blockBytes + 1) choices { done := none, consumed := 0, out := [], blocks := 0, raws := 0, noGain := 0, ue := 0 }
    let st := r.done.getD .ok
    let s1 := setPacker p (fun x => { x with
      jobs := rest, blocks := satAdd 32 x.blocks r.blocks, noGain := satAdd 32 x.noGain r.noGain,
      outFull := if st == .outFull then satAdd 32 x.outFull 1 else x.outFull, inBytes := x.inBytes + r.consumed, outBytes := x.outBytes + r.out.length }) s
    completeId j.cmd st [BitVec.ofNat 32 r.consumed, BitVec.ofNat 32 r.out.length, BitVec.ofNat 32 r.blocks, BitVec.ofNat 32 r.raws, BitVec.ofNat 32 r.ue]
      s.index (writeAt j.outHandle j.outOffset r.out s1)

/-- PK_STATUS (R450). -/
def specPkStatus : CmdSpec :=
  { opcode := 0x0B02, plen := plenIs 1, addr := fun c => [unitNo 0xB (c.arg 0 0 0)],
    run := fun c _ s =>
      let n := c.arg 0 0 0
      let p := s.packers.getD n default
      let on := packContexts s n 64
      let load := ((on.map (packLoad s)).sum * 100).ceil.toNat
      (if c.flag 0 8 then setPacker n (fun p => { p with blocks := 0, noGain := 0, outFull := 0, inBytes := 0, outBytes := 0 }) s else s,
        .done .ok [BitVec.ofNat 32 (on.length % 128 + p.jobs.length * 256 + load % 256 * 65536), BitVec.ofNat 32 p.blocks, BitVec.ofNat 32 p.noGain,
          BitVec.ofNat 32 p.outFull, BitVec.ofNat 32 (min (p.inBytes / 1048576) (2 ^ 32 - 1)), BitVec.ofNat 32 (min (p.outBytes / 1048576) (2 ^ 32 - 1))]) }

end Sys2Proof.Machine
end

