-- ==== Sys2Proof/Machine/Maint.lean ====
section
/-! DEFINITION. The maintenance arbiter (R529-R537): conflicts, waiting activities and the TDC_CAL dwell. Activity codes: 0
SLICE_CAL, 1 TDC_CAL, 2 SCRUB, 3 SCRUB_PASS, 4 PROBE0, 5 PROBE1, 6 CAL_MEASURE. -/

namespace Sys2Proof.Machine

def setMaint (f : MaintUnit → MaintUnit) (s : State) : State := { s with maint := f s.maint }

def setTdc (f : TdcUnit → TdcUnit) (s : State) : State := { s with tdc := f s.tdc }

def setTdcSlot (n : Nat) (f : TdcSlot → TdcSlot) (s : State) : State := setTdc (fun u => { u with slots := modAt u.slots n f }) s

def tdcSlotOf (s : State) (n : Nat) : TdcSlot := s.tdc.slots.getD n default

/-- A dwell of TDC_CAL in samples (R477): 2^24 TDC cycles. -/
def dwellSamples : Nat := 2 ^ 28

/-- Two sets of commanded activities conflict (R530). Log entry 70 (DEDUCED, unsafe). -/
def actsConflict (a b : List Nat) : Bool := a.any fun x => b.contains x

/-- An activity set holds TDR (R529). -/
def holdsTdr (a : List Nat) : Bool := a.any fun x => x == 4 || x == 5

def Activity.running (a : Activity) : Bool := a.start.isSome

/-- TDC_CAL holds TDS and TDR now: a dwell runs, or the tables are being built (R537). -/
def tdcCalRuns (s : State) : Bool := s.maint.dwell.isSome || s.tdc.notReady

/-- An activity set cannot start now, given the activities ahead of it (R531, R533). -/
def actBlocked (s : State) (ahead : List Activity) (codes : List Nat) : Bool :=
  ahead.any (fun a => actsConflict a.codes codes) || (holdsTdr codes && (tdcCalRuns s || s.maint.priority))

/-- Count starts of activities, and the wait of one that waited since `from_` (R548). -/
def countStart (codes : List Nat) (from_ : Option Nat) (k : Nat) (s : State) : State :=
  codes.foldl (fun a c => setMaint (fun m => { m with
    starts := modAt m.starts c (fun x => satAdd 32 x 1),
    maxWait := modAt m.maxWait c (fun x => match from_ with
      | some b => max x (min 65535 ((k - b) * 1000 / max 1 (fsOf s.time)))
      | none => x) }) a) s

def countWait (codes : List Nat) (s : State) : State :=
  codes.foldl (fun a c => setMaint (fun m => { m with waits := modAt m.waits c (fun x => satAdd 16 x 1) }) a) s

/-- The slots of a probe-slot mask with the activity code that each needs (R486, R529). -/
def probeSlots (s : State) (mask : Nat) : List (Nat × Nat) :=
  (maskBits 8 mask).filterMap fun n =>
    let c := (tdcSlotOf s n).cfg
    if !c.event && (c.start == 12 || c.start == 13) then some (n, c.start - 8) else none

/-- Probe arms that are accepted and not yet effective, and could still be reached by a dwell that starts now (R534). -/
def probeReserved (s : State) : Bool :=
  (heldOf s 0x0D02).any fun c => c.flag 0 8 && !(probeSlots s (c.arg 0 7 0)).isEmpty
    && (match c.eff with | some e => decide (e < s.index + dwellSamples) | none => true)

/-- A dwell may start: nothing that holds TDR runs, waits or is reserved, unless TDC_CAL has priority and the probes that run
are suspended (R533). -/
def dwellFree (s : State) : Bool :=
  let probes := s.maint.acts.filter fun a => holdsTdr a.codes
  if s.maint.priority then probes.all fun a => !a.running || (tdcSlotOf s a.key).suspended
  else probes.isEmpty && !probeReserved s

/-- A dwell that is due starts as soon as it may (R477, R533, R536, R537). Log entry 104 (DEDUCED, unsafe). -/
def pumpDwell (s : State) : State :=
  match s.maint.deferred with
  | none => s
  | some d =>
    if coresRun s && s.tdc.rotating && locked s && runMode s != .calibrate && !s.tdc.notReady && s.maint.dwell.isNone && dwellFree s then
      countStart [1] (if d < s.index then some d else none) s.index (setMaint (fun m => { m with dwell := some s.index, deferred := none }) s)
    else s

/-- A dwell falls due: it starts, or is deferred and counted (R533). -/
def dwellDue (s : State) : State :=
  if !s.tdc.rotating || s.maint.dwell.isSome || s.maint.deferred.isSome then s
  else
    let s1 := pumpDwell (setMaint (fun m => { m with deferred := some s.index }) s)
    if s1.maint.deferred.isSome then countWait [1] s1 else s1

/-- The waiting activities that conflict with what has just ended have their way clear from here (R531). -/
def clearWay (conflicts : Activity → Bool) (s : State) : State :=
  setMaint (fun m => { m with acts := m.acts.map fun a => if !a.running && conflicts a then { a with clear := s.index } else a }) s

/-- A dwell in progress is discarded without a swap (R536, R537). Log entry 104 (DEDUCED, unsafe). -/
def dropDwell (s : State) : State :=
  clearWay (fun a => holdsTdr a.codes) (setMaint (fun m => { m with dwell := none, deferred := none, priority := false }) s)

/-- An activity ends. -/
def endActivity (sel : Activity → Bool) (s : State) : State :=
  let gone := s.maint.acts.filter sel
  pumpDwell (clearWay (fun a => gone.any fun g => actsConflict g.codes a.codes) (setMaint (fun m => { m with acts := m.acts.filter (fun a => !sel a) }) s))

/-- TDC_CAL_PRIORITY (R533): deferred for 1 s, the dwell moves ahead of the waiting activities, and running probes suspend. -/
def evTdcCalPriority (s : State) : State :=
  match s.maint.deferred with
  | none => s
  | some d =>
    if !s.tdc.rotating || s.index < d + fsOf s.time || s.maint.priority then s
    else
      let s1 := setMaint (fun m => { m with priority := true }) s
      let s2 := (s1.maint.acts.filter fun a => a.running && holdsTdr a.codes).foldl (fun a x => setTdcSlot x.key (fun t => { t with suspend := true }) a) s1
      pumpDwell s2

/-- A waiting activity's command replies QUEUED (R531). -/
def waitActivity (codes : List Nat) (c : Cmd) (key length : Nat) (s : State) : State × Fate :=
  (countWait codes (setMaint (fun m => { m with
    acts := m.acts ++ [{ codes := codes, cmd := c.id, key := key, waitFrom := s.index, clear := s.index, start := none, length := length, taken := [] }] }) s), .first .queued)

/-- The first waiting activity that nothing ahead of it holds back (R531). -/
def nextStart (s : State) : Option Activity :=
  (s.maint.acts.zipIdx.find? fun x => !x.1.running && !actBlocked s (s.maint.acts.take x.2 ++ s.maint.acts.filter Activity.running) x.1.codes).map fun x => x.1

end Sys2Proof.Machine
end

