-- ==== Sys2Proof/Machine/Tdc.lean ====
section
/-! DEFINITION. The interval unit (R471-R499): edges and stamps, delay lines, measurement slots, probe launches, results and
statistics, and the commands. -/

namespace Sys2Proof.Machine

def setTdcInput (i : Nat) (f : TdcInput → TdcInput) (s : State) : State := setTdc (fun u => { u with inputs := modAt u.inputs i f }) s

def tdcInputOf (s : State) (i : Nat) : TdcInput := s.tdc.inputs.getD i default

/-- An input accepts edges (R471). -/
def tdcEnabled (s : State) (i : Nat) : Bool :=
  if i < 8 then (tdcInputOf s i).enabled else if i = 8 then s.time.ppsInEn else decide (i < 12)

/-- The dead time in ticks (R472). -/
def deadTicks (s : State) : Nat := ceilDiv (24 * fsOf s.time * 16) 10000000000

/-- The smallest k of R474 with k A_R T_REF at least 2.4 ns. -/
def refEdgeStep (t : TimeUnit) : Nat := max 1 (ceilDiv (24 * t.refFreq) (10000000000 * max 1 (alignRef t)))

/-- The stamp of a raw time (R476), modulo 2^96: a target's DTS for codes 0-8, else at the ball. -/
def tdcStamp (s : State) (code raw : Nat) : Nat :=
  if code < 9 then stampOf s (code + 4) (raw * 2 ^ 28 : Nat) 0
  else
    (roundDiv (((raw * 2 ^ 28 * 1000000000000 : Nat) : Int) - Config.ballDelay code * ((fsOf s.time * 65536 : Nat) : Int)) 1000000000000 % 2 ^ 96).toNat

/-- An edge or a launch as a slot keeps it: what the instant says of it (R480). -/
def tdcEdge (s : State) (code raw : Nat) : TdcEdge :=
  let note := notesOver s (raw / 16) (raw / 16 + 1)
  { raw := raw, stamp := tdcStamp s code raw, gen := s.time.gen, holdover := note.holdover, slew := note.slew, cal := note.cal }

/-! ### Results and statistics (R482, R487-R490) -/

/-- One result of a slot, before it is laid out. -/
structure TdcResult where
  value : Int
  missed : Bool
  near : Bool
  order : Bool
  extra : Bool
  clock : Bool
  holdover : Bool
  slew : Bool
  cal : Bool
  gen : Nat
  ref : Nat

/-- The result item of R489. -/
def resultWords (n : Nat) (c : TdcConfig) (seq : Nat) (r : TdcResult) : List Word :=
  let b : Bool → Nat → Nat := fun v i => if v then 2 ^ i else 0
  [ BitVec.ofNat 32 (n + b c.event 3 + b r.missed 8 + b r.near 9 + b r.order 10 + b r.extra 11 + b r.clock 12 + b r.holdover 13 + b r.slew 14
      + b r.cal 15 + r.gen * 2 ^ 16), lo32 seq ]
  ++ i64Words r.value ++ dtsWords r.ref ++ [BitVec.ofNat 32 ((if c.event then 15 else c.start) + c.stop * 16)]

/-- Add a result to the statistics (R487): only valid results enter the sums. -/
def statsAdd (t : TdcStats) (r : TdcResult) : TdcStats :=
  let ok := !r.missed && !r.clock
  let sat : Nat → Bool → Nat := fun x v => if v then satAdd 16 x 1 else x
  { n := t.n + 1, valid := if ok then t.valid + 1 else t.valid, missed := sat t.missed r.missed, extra := sat t.extra r.extra,
    near := sat t.near r.near, order := sat t.order r.order, sum := if ok then t.sum + r.value else t.sum,
    sumSq := if ok then t.sumSq + r.value.natAbs * r.value.natAbs else t.sumSq,
    lo := if !ok then t.lo else if t.valid = 0 then r.value else min t.lo r.value,
    hi := if !ok then t.hi else if t.valid = 0 then r.value else max t.hi r.value,
    clock := t.clock || r.clock, holdover := t.holdover || r.holdover, slew := t.slew || r.slew, cal := t.cal || r.cal,
    gen := if t.n = 0 then r.gen else t.gen, firstStamp := if t.n = 0 then r.ref else t.firstStamp }

/-- The square root of a / b, rounded to nearest. -/
def sqrtRound (a b : Nat) : Nat := if b = 0 then 0 else (Nat.sqrt (4 * a / b) + 1) / 2

/-- DEVIATION of R487: the sum of squares about the exact mean is (n Σv² - (Σv)²) / n. Log entry 52 (DEDUCED, unsafe). -/
def deviation (t : TdcStats) : Nat :=
  if t.valid ≤ 1 then 0 else sqrtRound (t.valid * t.sumSq - t.sum.natAbs * t.sum.natAbs) (t.valid * (t.valid - 1))

/-- The statistics record of R490. -/
def statsWords (n : Nat) (c : TdcConfig) (seq : Nat) (t : TdcStats) : List Word :=
  let b : Bool → Nat → Nat := fun v i => if v then 2 ^ i else 0
  [ BitVec.ofNat 32 (n + b c.event 3 + 16 + b (decide (t.n < c.statsN)) 5 + b t.clock 12 + b t.holdover 13 + b t.slew 14 + b t.cal 15 + t.gen * 2 ^ 16),
    lo32 seq, BitVec.ofNat 32 t.valid, BitVec.ofNat 32 (t.missed + t.extra * 2 ^ 16), BitVec.ofNat 32 (t.near + t.order * 2 ^ 16) ]
  ++ i64Words (if t.valid = 0 then 0 else roundDiv t.sum t.valid) ++ u64Words (deviation t) ++ i64Words t.lo ++ i64Words t.hi ++ dtsWords t.firstStamp

/-- Offer an item of a slot to the MQ (R488): at most 256 wait. -/
def tdcOffer (n : Nat) (words : List Word) (s : State) : State :=
  if !mqTakes s 4 then s
  else if 256 ≤ (s.tdc.queue.filter fun x => x.1 == n).length then setTdcSlot n (fun t => { t with lost := satAdd 32 t.lost 1 }) s
  else setTdc (fun u => { u with queue := u.queue ++ [(n, words)] }) s

/-- Emit the statistics record of a slot, if it has gathered any result (R487); a probe told to suspend does so now
(R533). -/
def emitStats (n : Nat) (s : State) : State :=
  let t := tdcSlotOf s n
  if t.gathered.n = 0 then s
  else
    let w := statsWords n t.cfg t.statSeq t.gathered
    let s1 := setTdcSlot n (fun t => { t with gathered := default, statSeq := t.statSeq + 1, lastStats := w, suspended := t.suspended || t.suspend, suspend := false }) s
    let s2 := if t.cfg.stats then tdcOffer n w s1 else s1
    if t.suspend then pumpDwell s2 else s2

/-- A slot becomes DISARMED; a probe's activity ends with it. -/
def disarmSlot (n : Nat) (s : State) : State :=
  endActivity (fun a => a.running && holdsTdr a.codes && a.key == n)
    (setTdcSlot n (fun t => { t with armed := false, open_ := none, suspend := false, suspended := false }) s)

/-- A slot produces a result at closing index `k` (R482, R487, R488). -/
def tdcResult (n k : Nat) (r : TdcResult) (s : State) : State :=
  let t := tdcSlotOf s n
  let w := resultWords n t.cfg t.results r
  let s1 := setTdcSlot n (fun t => { t with open_ := none, results := t.results + 1, lastResult := w, gathered := statsAdd t.gathered r }) s
  let s2 := if t.cfg.each then tdcOffer n w s1 else s1
  let s3 := if (tdcSlotOf s2 n).gathered.n = t.cfg.statsN then emitStats n s2 else s2
  if t.cfg.count ≠ 0 && (tdcSlotOf s3 n).results = t.cfg.count then
    let s4 := disarmSlot n (emitStats n s3)
    if t.cfg.notice then notify 0x0D02 [BitVec.ofNat 32 n, BitVec.ofNat 32 t.cfg.count] k s4 else s4
  else s3

/-! ### INTERVAL (R483) -/

/-- `raw` lies beyond t_open + TIMEOUT. Log entry 52 (DEDUCED, unsafe). -/
def pastTimeout (s : State) (t : TdcSlot) (raw : Nat) : Bool :=
  match t.open_ with
  | some o => decide (t.cfg.timeoutNs * fsOf s.time * 16 < (raw - o.first.raw) * 1000000000)
  | none => false

/-- The first tick at or after the timeout instant. -/
def timeoutTick (s : State) (t : TdcSlot) : Nat :=
  (t.open_.map fun o => o.first.raw).getD 0 + ceilDiv (t.cfg.timeoutNs * fsOf s.time * 16) 1000000000

/-- The open measurement closes without its other edge: TIMEOUT, or CLOCK (R480, R483). -/
def closeEmpty (n k : Nat) (clock : Bool) (s : State) : State :=
  let t := tdcSlotOf s n
  match t.open_ with
  | none => s
  | some o =>
    let q := timeoutTick s t
    tdcResult n k { value := 0, missed := !clock, near := false, order := false, extra := o.extra, clock := clock, holdover := o.first.holdover,
                    slew := o.first.slew, cal := o.first.cal, gen := o.first.gen, ref := o.first.stamp } (setTdcSlot n (fun t => { t with q := q }) s)

/-- VALUE of R483: the signed difference of two stamps, limited to ±(2^63 - 1). -/
def stampDiff (stop start : Nat) : Int := max (-(2 ^ 63 - 1)) (min (2 ^ 63 - 1) (signed 96 (stop + 2 ^ 96 - start)))

/-- The open measurement closes with edge `e` of the other input. -/
def closeWith (n : Nat) (e : TdcEdge) (s : State) : State :=
  let t := tdcSlotOf s n
  match t.open_ with
  | none => s
  | some o =>
    let a := if o.byStart then o.first else e
    let b := if o.byStart then e else o.first
    tdcResult n (e.raw / 16)
      { value := stampDiff b.stamp a.stamp, missed := false, near := a.raw == b.raw, order := decide (b.raw < a.raw), extra := o.extra, clock := false,
        holdover := a.holdover || b.holdover, slew := a.slew || b.slew, cal := a.cal || b.cal, gen := a.gen, ref := a.stamp }
      (setTdcSlot n (fun t => { t with q := e.raw + 1 }) s)

/-- An accepted edge of input `i` reaches an INTERVAL slot. An edge of the opening input at the timeout instant itself begins the
next cycle. -/
def intervalEdge (i n : Nat) (e : TdcEdge) (s0 : State) : State :=
  let t0 := tdcSlotOf s0 n
  let own := match t0.open_ with
    | some o => (if o.byStart then t0.cfg.start else t0.cfg.stop) == i
    | none => false
  let s := if pastTimeout s0 t0 e.raw || (own && timeoutTick s0 t0 ≤ e.raw) then closeEmpty n (timeoutTick s0 t0 / 16) false s0 else s0
  let t := tdcSlotOf s n
  if !t.armed then s
  else match t.open_ with
    | some o => if own then setTdcSlot n (fun t => { t with open_ := some { o with extra := true } }) s else closeWith n e s
    | none =>
      if e.raw < t.q || (12 ≤ t.cfg.start && i == t.cfg.stop) then s
      else setTdcSlot n (fun t => { t with open_ := some { first := e, byStart := i == t.cfg.start, extra := false } }) s

/-! ### EVENT (R484, R485) -/

/-- The first centre and the spacing of the windows, in 2^-32 sample; spacing 0 for a single window. -/
def eventGrid (s : State) (c : TdcConfig) : Nat × Nat :=
  match c.expect with
  | 0 => (c.x0, c.period)
  | 1 => (0, fsOf s.time * 2 ^ 32)
  | _ =>
    let p := refEdgeStep s.time * alignSamples s.time
    (s.time.syncIndex % max 1 p * 2 ^ 32, p * 2 ^ 32)

/-- HALF_WINDOW in 2^-32 sample. -/
def halfWindow32 (c : TdcConfig) : Nat := c.halfWindow * 2 ^ 28

/-- The number of the first window whose beginning is at index `a` or later. -/
def firstWindow (s : State) (c : TdcConfig) (a : Nat) : Nat :=
  let g := eventGrid s c
  let need := a * 2 ^ 32 + halfWindow32 c - g.1
  if a * 2 ^ 32 + halfWindow32 c ≤ g.1 then 0 else if g.2 = 0 then 1 else ceilDiv need g.2

/-- The centre of window `k`, if there is such a window. -/
def windowCentre (s : State) (c : TdcConfig) (k : Nat) : Option Nat :=
  let g := eventGrid s c
  if g.2 = 0 && 0 < k then none else some (g.1 + k * g.2)

/-- The present window of an EVENT slot closes: with its edge, MISSED, or CLOCK (R480, R484). Log entry 52 (DEDUCED, unsafe). -/
def closeWindow (n : Nat) (clock : Bool) (s : State) : State :=
  let t := tdcSlotOf s n
  match windowCentre s t.cfg t.window with
  | none => s
  | some x =>
    let s1 := setTdcSlot n (fun t => { t with window := t.window + 1 }) s
    let k := (x + halfWindow32 t.cfg) / 2 ^ 32
    match t.open_ with
    | some o =>
      tdcResult n k { value := if clock then 0 else stampDiff o.first.stamp x, missed := false, near := false, order := false, extra := o.extra,
                      clock := clock, holdover := o.first.holdover, slew := o.first.slew, cal := o.first.cal, gen := o.first.gen, ref := o.first.stamp } s1
    | none =>
      tdcResult n k { value := 0, missed := !clock, near := false, order := false, extra := false, clock := clock, holdover := false, slew := false,
                      cal := (notesOver s (x / 2 ^ 32) (x / 2 ^ 32 + 1)).cal, gen := s.time.gen, ref := x } s1

/-- Close the windows that end before stamp `d`. -/
def closeWindowsBefore (n d : Nat) : Nat → State → State
  | 0, s => s
  | f + 1, s =>
    let t := tdcSlotOf s n
    match windowCentre s t.cfg t.window with
    | some x => if t.armed && x + halfWindow32 t.cfg < d then closeWindowsBefore n d f (closeWindow n false s) else s
    | none => s

/-- An accepted edge of its STOP input reaches an EVENT slot. -/
def eventEdge (n : Nat) (e : TdcEdge) (s0 : State) : State :=
  let g := eventGrid s0 (tdcSlotOf s0 n).cfg
  let s := closeWindowsBefore n e.stamp (if g.2 = 0 then 1 else e.stamp / g.2 + 2 - (tdcSlotOf s0 n).window) s0
  let t := tdcSlotOf s n
  if !t.armed then s
  else
    let inside := match windowCentre s t.cfg t.window with
      | some x => decide (x ≤ e.stamp + halfWindow32 t.cfg) && decide (e.stamp ≤ x + halfWindow32 t.cfg)
      | none => false
    setTdcSlot n (fun t =>
      if !inside then { t with outside := satAdd 32 t.outside 1 }
      else match t.open_ with
        | some o => { t with open_ := some { o with extra := true } }
        | none => { t with open_ := some { first := e, byStart := false, extra := false } }) s

/-! ### Edges (R472, R310) -/

/-- A measurement slot considers an accepted edge (R481). -/
def slotEdge (i : Nat) (e : TdcEdge) (s : State) (n : Nat) : State :=
  let t := tdcSlotOf s n
  if !t.armed || e.raw < 16 * t.since then s
  else if t.cfg.event then (if t.cfg.stop == i then eventEdge n e s else s)
  else if t.cfg.start == i || t.cfg.stop == i then intervalEdge i n e s
  else s

/-- The trigger slots on an input take an accepted edge (R310, R323). -/
def externalEdge (i stamp accepted : Nat) (s : State) : State :=
  if 8 < i then s
  else pushEvent { source := 16 + i, index := stamp / 2 ^ 32, stamp := stamp, seq := accepted, stop := false, invalid := false, cols := [], viol := [], flags := none } s

/-- TDC_EDGE (R472, R475): an active edge of input `i`, which its delay line sees at a tap in a TDC cycle. Log entry 40 (DEDUCED, unsafe). -/
def evTdcEdge (i cycle tap : Nat) (s : State) : State :=
  let raw := tdcRaw s i cycle tap
  if !tdcEnabled s i || s.tdc.notReady || !delivering s then s
  else
    let x := tdcInputOf s i
    let early := match x.last with
      | some l => decide (raw < l + deadTicks s)
      | none => false
    if early then setTdcInput i (fun x => { x with active := true, overrun := satAdd 32 x.overrun 1 }) s
    else
      let e := tdcEdge s i raw
      let n := (x.accepted + 1) % 2 ^ 32
      let s1 := setTdcInput i (fun x => { x with active := true, last := some raw, accepted := n, lastStamp := e.stamp }) s
      (List.range s.tdc.slots.length).foldl (slotEdge i e) (externalEdge i e.stamp n s1)

/-- TDC_MEASURE_TIMEOUT (R483). -/
def evTdcMeasureTimeout (k n : Nat) (s : State) : State :=
  let t := tdcSlotOf s n
  if t.armed && !t.cfg.event && t.open_.isSome && timeoutTick s t ≤ 16 * (k + 1) then closeEmpty n (timeoutTick s t / 16) false s else s

/-- TDC_WINDOW_CLOSE (R484). -/
def evTdcWindowClose (k n : Nat) (s : State) : State :=
  let t := tdcSlotOf s n
  match windowCentre s t.cfg t.window with
  | some x => if t.armed && t.cfg.event && x + halfWindow32 t.cfg ≤ (k + 1) * 2 ^ 32 then closeWindow n false s else s
  | none => s

/-- PROBE_LAUNCH (R486, R533): the launch that the schedule has at index `k`. -/
def evProbeLaunch (k n : Nat) (s0 : State) : State :=
  let s := if pastTimeout s0 (tdcSlotOf s0 n) (16 * k) then closeEmpty n (timeoutTick s0 (tdcSlotOf s0 n) / 16) false s0 else s0
  let t := tdcSlotOf s n
  let due := decide (t.launchBase ≤ k) && (k - t.launchBase) % (16 * max 1 t.cfg.spacing) == 0
  if !t.armed || t.cfg.event || t.cfg.start < 12 || !due || t.suspended || t.open_.isSome || !delivering s then s
  else
    emit (.probePulse (t.cfg.start - 12) k t.cfg.width)
      (setTdcSlot n (fun t => { t with
        launch := (k - t.launchBase) / (16 * max 1 t.cfg.spacing), open_ := some { first := tdcEdge s t.cfg.start (16 * k), byStart := true, extra := false } }) s)

/-- STUCK_US microseconds have passed since an input's last accepted edge. -/
def stuckDue (s : State) (x : TdcInput) : Bool :=
  match x.last with
  | some l => decide (l * 1000000 + x.stuckUs * fsOf s.time * 16 ≤ (s.index + 32) * 16000000)
  | none => true

/-- TDC_STUCK_TIMEOUT (R473). -/
def evTdcStuckTimeout (i : Nat) (s : State) : State :=
  let x := tdcInputOf s i
  if !tdcEnabled s i || x.stuckUs = 0 || x.stuck || !stuckDue s x then s
  else
    let s1 := setTdcInput i (fun x => { x with active := true, stuck := true, stuckEvents := satAdd 32 x.stuckEvents 1 }) s
    if x.stuckNotice then notify 0x0D01 [BitVec.ofNat 32 i] s.index s1 else s1

/-- LEVEL_INACTIVE (R473). -/
def evLevelInactive (i : Nat) (s : State) : State := setTdcInput i (fun x => { x with active := false, stuck := false }) s

/-! ### Delay lines (R477-R479) -/

def setTdcLine (l : Nat) (f : TdcLine → TdcLine) (s : State) : State := setTdc (fun u => { u with lines := modAt u.lines l f }) s

/-- The largest deviation of a fine code's width from one tick, in 1/256 tick (R545). Log entry 114 (DEDUCED, unsafe). -/
def dnlMax (hits : List Nat) : Nat :=
  let codes := (tapTable 0 hits).zip hits
  ((List.range 256).map fun f =>
    let w := (((codes.filter fun x => x.1 == f).map fun x => x.2).sum * 65536 + 2 ^ 19) / 2 ^ 20
    max (w - 256) (256 - w)).foldl max 0

/-- A line's table is computed from the hits of its taps (R477); of the 2^20 edges the others showed no transition (R478). -/
def calibrateLine (s : State) (hits : List Nat) (l : TdcLine) : TdcLine :=
  { l with table := tapTable 0 hits, calIndex := s.index, calDwell := s.tdc.dwells, dnl := dnlMax hits, misses := 2 ^ 20 - hits.sum }

/-- The dwell's end frees the probes that were suspended for it. -/
def endDwell (s : State) : State :=
  clearWay (fun a => holdsTdr a.codes) <| setMaint (fun m => { m with dwell := none, priority := false })
    (setTdc (fun u => { u with dwells := u.dwells + 1, slots := u.slots.map (fun t => { t with suspended := false, suspend := false }) }) s)

/-- TDC_DWELL_END (R477, R478): the spare's table is computed and it relieves the next input; a line that is too short is
retired and the rotation stops. -/
def evTdcDwellEnd (hits : List Nat) (s : State) : State :=
  match s.maint.dwell with
  | none => s
  | some d =>
    if s.index < d + dwellSamples || !delivering s then s
    else
      let s1 := endDwell s
      let line := s.tdc.spare
      if 1024 < 2 ^ 20 - hits.sum then
        notify 0x0D03 [BitVec.ofNat 32 line] s.index (bbWrite 0x0D line 0x0D03 [BitVec.ofNat 32 line] s.index
          (setTdc (fun u => { u with rotating := false }) (setTdcLine line (fun l => { l with retired := true, dnl := dnlMax hits, misses := 2 ^ 20 - hits.sum }) s1)))
      else
        let i := s.tdc.relief
        let old := (tdcInputOf s i).line
        let s2 := setTdcLine line (calibrateLine s1 hits) s1
        dwellDue (setTdc (fun u => { u with spare := old, relief := (i + 1) % 12 }) (setTdcInput i (fun x => { x with line := line }) s2))

/-- TDC_TABLES_READY (R479): all lines have calibrated, each with the hits of its taps. -/
def evTdcTablesReady (hits : List (List Nat)) (s : State) : State :=
  if !s.tdc.notReady || !locked s then s
  else
    let lines := s.tdc.lines.zipIdx.map fun x => calibrateLine s (hits.getD x.2 []) x.1
    dwellDue (clearWay (fun a => holdsTdr a.codes) (setTdc (fun u => { u with notReady := false, relief := 0, lines := lines }) s))

/-! ### Clock faults (R480) -/

/-- An unlock or a STEP ends what is open with CLOCK = 1. -/
def unlockTdc (s : State) : State :=
  let s1 := (List.range s.tdc.slots.length).foldl (fun a n =>
    let t := tdcSlotOf a n
    if !t.armed then a
    else if t.cfg.event then
      (match windowCentre a t.cfg t.window with
      | some x => if t.open_.isSome || x ≤ a.index * 2 ^ 32 + halfWindow32 t.cfg then closeWindow n true a else a
      | none => a)
    else closeEmpty n a.index true a) s
  setTdc (fun u => { u with inputs := u.inputs.map (fun x => { x with last := none }) }) s1

/-- What arming sets in a slot at index `a` (R481, R483, R484, R486). -/
def rearmSlot (s : State) (a : Nat) (t : TdcSlot) : TdcSlot :=
  { t with since := a, q := 16 * a, window := firstWindow s t.cfg a, launch := 0, launchBase := (a + 15) / 16 * 16, open_ := none }

/-- Armed slots re-arm at V. Log entry 104 (DEDUCED, unsafe). -/
def relockTdc (v : Nat) (s : State) : State :=
  setTdc (fun u => { u with slots := u.slots.map (fun t => if t.armed then rearmSlot s v t else t) }) s

/-! ### Commands (R492-R498) -/

/-- TDC_INPUT (R494). -/
def specTdcInput : CmdSpec :=
  { opcode := 0x0D00, plen := plenIs 2, modes := notShadow, addr := fun c => [unitNo 0xD (c.arg 0 3 0)],
    params := fun _ c => decide (c.arg 0 3 0 ≤ 10) && decide (c.arg 1 23 0 ≤ 10000000),
    lead := lead1us,
    run := fun c _ s =>
      let i := c.arg 0 3 0
      let set : TdcInput → TdcInput := fun x =>
        let x1 := { x with stuckNotice := c.flag 0 10, stuckUs := c.arg 1 23 0 }
        if 8 ≤ i then x1
        else { x1 with enabled := c.flag 0 8, falling := c.flag 0 9, active := (x.active == (x.falling == c.flag 0 9)),
                       stuck := x.stuck && c.flag 0 8 && x.falling == c.flag 0 9, last := if c.flag 0 8 && x.enabled then x.last else none }
      (setTdcInput i set s, .done .ok []) }

/-- The configuration in a TDC_SLOT_CONFIG (R495). -/
def tdcConfigOf (c : Cmd) : TdcConfig :=
  { event := c.flag 0 8, start := c.arg 0 15 12, stop := c.arg 0 19 16, expect := c.arg 0 21 20, each := c.flag 0 22, stats := c.flag 0 23,
    notice := c.flag 0 24, count := c.arg 1 23 0, statsN := c.arg 2 16 0, timeoutNs := c.arg 3 19 0, halfWindow := (c.word 4).toNat,
    spacing := c.arg 5 23 0, width := c.arg 5 31 24, x0 := (c.word 6).toNat + c.arg64 7 * 2 ^ 32,
    period := (c.word 9).toNat + (c.word 10).toNat * 2 ^ 32 }

/-- R485, R486 and the ranges of R495. -/
def tdcConfigOk (s : State) (c : TdcConfig) : Bool :=
  let w := 2 * halfWindow32 c
  decide (c.stop ≤ 11) && decide (1 ≤ c.statsN) && decide (c.statsN ≤ 65536)
    && (if c.event then
          c.start != 12 && c.start != 13 && c.expect != 3 && (match c.expect with
            | 0 => c.period == 0 || decide (w < c.period)
            | 1 => decide (w < fsOf s.time * 2 ^ 32)
            | _ => c.stop == 11 && decide (w < refEdgeStep s.time * alignSamples s.time * 2 ^ 32))
        else
          decide (c.start ≤ 13) && c.start != c.stop && decide (1 ≤ c.timeoutNs) && decide (c.timeoutNs ≤ 1000000)
            && (decide (c.start < 12) || (decide (4 ≤ c.spacing) && decide (2 ≤ c.width) && decide (c.width < c.spacing)
              && decide (c.timeoutNs * fsOf s.time < c.spacing * 16 * 1000000000))))

/-- TDC_SLOT_CONFIG (R495). Log entry 51 (DEDUCED, unsafe). -/
def specTdcSlotConfig : CmdSpec :=
  { opcode := 0x0D01, plen := plenIs 11, modes := notShadow, addr := fun c => [unitNo 0xD (16 + c.arg 0 2 0)],
    params := fun s c => tdcConfigOk s (tdcConfigOf c),
    busy := fun s c => (tdcSlotOf s (c.arg 0 2 0)).armed,
    run := fun c _ s => (setTdcSlot (c.arg 0 2 0) (fun t => { t with cfg := tdcConfigOf c }) s, .done .ok []) }

/-- Arm one slot at index `e` (R481, R482); a probe slot that was not ARMED starts its activity. Log entry 53 (DEDUCED, unsafe). -/
def armTdc (e : Nat) (cmd : Nat) (from_ : Option Nat) (n : Nat) (s : State) : State :=
  let t := tdcSlotOf s n
  let codes := (probeSlots s (2 ^ n)).map fun x => x.2
  let s1 := setTdcSlot n (fun t => { rearmSlot s e t with armed := true, suspend := false, gathered := default, results := 0, statSeq := 0, outside := 0 }) s
  if codes.isEmpty || t.armed then s1
  else
    countStart codes from_ e (setMaint (fun m => { m with
      acts := m.acts ++ [{ codes := codes, cmd := cmd, key := n, waitFrom := e, clear := e, start := some e, length := 0, taken := [] }] }) s1)

/-- The activity codes of the probe slots in a mask that are not ARMED yet. Log entry 53 (DEDUCED, unsafe). -/
def newProbes (s : State) (mask : Nat) : List Nat := ((probeSlots s mask).filter fun x => !(tdcSlotOf s x.1).armed).map fun x => x.2

/-- A probe of the mask serves another ARMED slot, an arm that waits, or two slots of the mask (R486, R496). Log entry 53 (DEDUCED, unsafe). -/
def probeTaken (s : State) (mask : Nat) : Bool :=
  let ps := probeSlots s mask
  ps.any (fun x => s.maint.acts.any fun a => a.codes.contains x.2 && !(a.running && a.key == x.1)) || decide ((ps.map fun x => x.2).eraseDups.length < ps.length)

/-- A dwell that runs, or tables that are being built, still hold TDR at index `at_` (R534, R537). -/
def tdrHeldAt (s : State) (at_ : Nat) : Bool :=
  s.tdc.notReady || (match s.maint.dwell with
    | some d => decide (at_ < d + dwellSamples)
    | none => false)

/-- TDC_ARM (R481, R482, R496, R531, R534). Log entry 53 (DEDUCED, unsafe). -/
def specTdcArm : CmdSpec :=
  { opcode := 0x0D02, plen := plenIs 1, timed := fun _ => .sampleDomain, modes := notShadow,
    addr := fun c => (maskBits 8 (c.arg 0 7 0)).map fun n => unitNo 0xD (16 + n),
    params := fun _ c => c.arg 0 7 0 != 0,
    busy := fun s c => c.flag 0 8 && (probeTaken s (c.arg 0 7 0)
      || (c.timed && !(newProbes s (c.arg 0 7 0)).isEmpty && tdrHeldAt s c.atIndex)),
    lead := lead1us,
    run := fun c e s =>
      let mask := c.arg 0 7 0
      if !c.flag 0 8 then
        ((maskBits 8 mask).foldl (fun a n => if (tdcSlotOf a n).armed then disarmSlot n (emitStats n (setTdcSlot n (fun t => { t with open_ := none }) a)) else a) s,
          .done .ok [])
      else
        let codes := newProbes s mask
        if !c.timed && !codes.isEmpty && actBlocked s s.maint.acts codes then waitActivity codes c mask 0 s
        else ((maskBits 8 mask).foldl (fun a n => armTdc e c.id none n a) s, .done .ok []) }

/-- TDC_READ (R497). -/
def specTdcRead : CmdSpec :=
  { opcode := 0x0D03, plen := plenIs 1, addr := fun c => [unitNo 0xD (16 + c.arg 0 2 0)],
    run := fun c _ s =>
      let n := c.arg 0 2 0
      let t := tdcSlotOf s n
      let queued := s.maint.acts.any fun a => !a.running && holdsTdr a.codes && a.key.testBit n
      let pad (k : Nat) (l : List Word) : List Word := (List.range k).map fun i => l.getD i 0
      (s, .done .ok ([BitVec.ofNat 32 ((if t.armed then 1 else 0) + (if t.open_.isSome then 2 else 0) + (if queued then 4 else 0)),
          BitVec.ofNat 32 (min t.results (2 ^ 32 - 1)), BitVec.ofNat 32 t.lost] ++ pad 8 t.lastResult ++ pad 16 t.lastStats)) }

/-- TDC_STATUS (R498). -/
def specTdcStatus : CmdSpec :=
  { opcode := 0x0D04, plen := plenIs 1, addr := fun c => [unitNo 0xD (c.arg 0 3 0)],
    params := fun _ c => decide (c.arg 0 3 0 ≤ 11),
    run := fun c _ s =>
      let i := c.arg 0 3 0
      let x := tdcInputOf s i
      let age := (s.index - (s.tdc.lines.getD x.line default).calIndex) * 1000 / max 1 (fsOf s.time)
      (if c.flag 0 8 then setTdcInput i (fun x => { x with overrun := 0, stuckEvents := 0 }) s else s,
        .done .ok ([BitVec.ofNat 32 ((if tdcEnabled s i then 1 else 0) + (if x.stuck then 2 else 0) + (if x.active then 4 else 0)
            + (if s.tdc.notReady then 8 else 0) + (if s.tdc.rotating then 16 else 0)), BitVec.ofNat 32 x.accepted, BitVec.ofNat 32 x.overrun,
          BitVec.ofNat 32 x.stuckEvents] ++ dtsWords x.lastStamp ++ [BitVec.ofNat 32 (min age (2 ^ 32 - 1))])) }

/-- TRIG_STATUS (R334): CLEAR zeroes the counters of words 3-7 after they are read. -/
def specTrigStatus : CmdSpec :=
  { opcode := 0x0705, plen := plenIs 1, addr := fun c => [unitNo 7 (c.arg 0 4 0)],
    run := fun c _ s =>
      let n := c.arg 0 4 0
      let t := slotOf (afterChanges s) n
      let st := match t.st with | .disabled => 0 | .enabled => 1 | .armed => 2
      let n0 := slotOf s n
      let idle := sourceIdle s t
      (if c.flag 0 8 then setSlot n (fun t => { t with firings := 0, wins := 0, suppressed := 0, heldOff := 0, blanked := 0 }) s else s,
        .done .ok ([BitVec.ofNat 32 (st + (if trigRunning s then 4 else 0) + (if n0.q then 8 else 0) + (if idle then 16 else 0) + (if outOfColumns s t then 32 else 0)
            + (if t.timerAt.isSome then 64 else 0))] ++ u64Words s.trig.evalIndex
          ++ [BitVec.ofNat 32 n0.firings, BitVec.ofNat 32 n0.wins, BitVec.ofNat 32 n0.suppressed, BitVec.ofNat 32 n0.heldOff, BitVec.ofNat 32 n0.blanked,
            BitVec.ofNat 32 s.trig.recordsLost])) }

end Sys2Proof.Machine
end

