-- ==== Sys2Proof/Machine/Time.lean ====
section
/-! DEFINITION. The time unit's commands and its PPS, SYNC and reference events that touch no other unit (R117-R164). The
events that open or close a gap in the samples are in Gap.lean. -/

namespace Sys2Proof.Machine

/-- Change the time unit. -/
def setTime (f : TimeUnit → TimeUnit) (s : State) : State := { s with time := f s.time }

/-- T_REF in sixteenths of a sample, as numerator over REFDIV (R137). -/
def refPeriod16 (t : TimeUnit) : Nat := 16 * t.fbDiv

/-- REF_COUNT at the present index (R124, R133): while samples are delivered it advances by one for every FBDIV/REFDIV samples. -/
def refCountNow (s : State) : Nat := s.time.refCount + (s.index - s.time.refIndex) * s.time.refDiv / max 1 s.time.fbDiv

/-- The whole REFIN periods in a JUMP (R138, R139): what leaves a rest in (-T_REF/2, +T_REF/2] (R137). -/
def wholePeriods (t : TimeUnit) (jump : Int) : Int :=
  -(((refPeriod16 t : Int) - 2 * (jump * t.refDiv)) / (2 * refPeriod16 t : Nat))

/-- STEP_ADJUST of R139 for a JUMP in sixteenths of a sample. -/
def stepAdjust (jump : Int) : Int := -((jump + 8) / 16)

/-- |JUMP| is at most a SLEW_MAX in nanoseconds (R138, R158). -/
def slewWithin (s : State) (slewMax : Nat) : Bool := decide (s.time.jump.natAbs * 1000000000 ≤ slewMax * 16 * fsOf s.time)

/-- |JUMP| is at most SLEW_MAX. -/
def slewAllowed (s : State) : Bool := slewWithin s s.time.slewMax

/-- The accepted TIME_REF_RESUMEs that wait for their AT (R158). -/
def heldResumes (s : State) : List Cmd := heldOf s 0x0205

/-- HOLD_BOUND_PPB of R134, with temperatures in thousandths of a degree, rounded up; 0 outside holdover. -/
def holdBound (t : TimeUnit) : Nat :=
  if t.tb.isHoldover then 20 + ceilDiv ((t.tj - t.tjEntry).natAbs) 100 else 0

/-- A TIME_REF_RESUME or a STEP is pending (R158, R741). -/
def resumePending (s : State) : Bool :=
  s.time.step.isSome || s.time.resume.isSome
    || !(heldResumes s).isEmpty

/-- Start a slew (R138): REF_COUNT is corrected by the whole periods in JUMP. -/
def startSlew (s : State) : State :=
  setTime (fun t => { t with tb := .slew, refCount := (t.refCount - wholePeriods t t.jump).toNat, resume := none }) s

/-- Ask for a STEP at boundary `b` (R139, R741); a primary tells its mirror (R593). -/
def requestStep (b : Nat) (cmd : Option Nat) (remeasure : Bool) (s : State) : State :=
  let s1 := setTime (fun t => { t with
    step := some { boundary := b, cmd := cmd, fromSlew := t.tb == .slew, remeasure := remeasure }, resume := none }) s
  if hasMirror s then emit (.pairState (.stepBoundary b)) s1 else s1

/-- The payload of a TIME_REF_RESUME (R158). -/
def resumePayload (executed : Bool) (jump adjust : Int) : List Word :=
  flagWord executed :: (i64Words jump ++ i64Words adjust)

/-! ### Commands -/

/-- TIME_STATUS (R154). Outside a loss the HOLD_DAC code is the tracker mean, which is measured: a free value; so is PPS_PRESENT while no samples
pass and the last edge was near. Log entry 10 (DESIGN CHOICE, safe). -/
def timeStatusWords (s : State) (tracker : Word) : List Word :=
  let t := s.time
  let near := match t.ppsAt with
    | some d => decide (((s.index * 16 : Nat) - d) * 100000 ≤ 100001 * 16 * (fsOf t : Int))
    | none => false
  let present := near && (delivering s || bit tracker 0)
  [ BitVec.ofNat 32 (t.tb.code + t.policy * 8 + (if present then 32 else 0) + (if t.indexEstimated then 64 else 0)
      + (if t.ambiguous then 128 else 0) + t.gen * 65536) ]
  ++ u64Words (fsOf t) ++ [BitVec.ofNat 32 (alignSamples t)] ++ u64Words t.holdStart
  ++ [BitVec.ofNat 32 (holdBound t)] ++ i64Words t.jump
  ++ [ BitVec.ofNat 32 t.unlockCount, BitVec.ofNat 32 t.refLossCount,
       BitVec.ofNat 32 (t.vcoBand % 64 + (if t.tb == .locked then field tracker 31 12 else t.holdDac) * 4096) ]

def specTimeStatus : CmdSpec :=
  { opcode := 0x0201, plen := plenIs 0, addr := fun _ => [unitNo 2 255],
    run := fun _ _ s => let (w, s') := takeFree s; (s', .done .ok (timeStatusWords s w)) }

/-- TIME_SET_EPOCH (R155). -/
def specTimeSetEpoch : CmdSpec :=
  { opcode := 0x0202, plen := plenIs 2, modes := notShadow, addr := fun _ => [unitNo 2 255],
    run := fun c _ s =>
      (setTime (fun t => { t with epochTai := (c.word 0).toNat + c.arg 1 15 0 * 2 ^ 32 }) s, .done .ok []) }

/-- The configuration TIME_SPLL_CONFIG asks for (R153) is one R119 accepts. -/
def spllConfigOk (c : Cmd) : Bool :=
  let f := (c.word 0).toNat
  let rd := c.arg 1 7 0
  let fb := c.arg 1 28 16
  let g := Nat.gcd fb rd
  decide (5000000 ≤ f) && decide (f ≤ 500000000) && decide (1 ≤ rd) && decide (rd ≤ 128)
    && decide (64 ≤ fb) && decide (fb ≤ 4096)
    && decide (5000000 * rd ≤ f) && decide (f ≤ 250000000 * rd)
    && f * fb % rd == 0 && decide (16000000000 ≤ f * fb / rd) && decide (f * fb / rd ≤ 20480000000)
    && decide (rd / g * (32 / Nat.gcd 32 (fb / g)) * 1000000 ≤ 5 * f)
    && c.arg64 2 % 32 == 0

/-- Holdover has ended without the resumes that wait: each completes without effect (R158). Log entry 37 (DEDUCED, unsafe). -/
def endResume (s : State) : State :=
  let s1 := match s.time.resume with
    | some r => completeId r.cmd .ok (resumePayload false s.time.jump 0) s.index s
    | none => s
  let s2 := match s1.time.step with
    | some w => (match w.cmd with
      | some id => completeId id .ok (resumePayload false s1.time.jump 0) s1.index s1
      | none => s1)
    | none => s1
  (heldResumes s2).foldl (fun a c => completeId c.id .ok (resumePayload false s.time.jump 0) s.index a)
    (setTime (fun t => { t with resume := none, step := none }) s2)

/-- TIME_SYNC (R126, R156): it waits for its edge with DEFERRED. SYNC_INDEX is a field of APPLY, and is checked there (R145).
Log entry 118 (DEDUCED, unsafe). -/
def specTimeSync : CmdSpec :=
  { opcode := 0x0203, plen := plenIs 4, addr := fun _ => [unitNo 2 255],
    params := fun _ c => decide (1 ≤ c.arg 0 13 8) && decide (c.arg 0 13 8 ≤ 60) && (!c.flag 0 1 || c.arg64 2 % 32 == 0),
    modes := fun m c => if c.flag 0 1 then m == .quiet else m != .shadow,
    clock := fun s _ => !locked s || s.time.tb.isHoldover,
    busy := fun s c => c.flag 0 1 && (s.time.syncs.any (fun w => w.apply) || s.time.applyCapture.isSome),
    run := fun c _ s =>
      (setTime (fun t => { t with syncs := t.syncs ++
        [{ cmd := c.id, pps := c.flag 0 0, apply := c.flag 0 1, syncIndex := c.arg64 2 }] }) s, .first .deferred) }

/-- TIME_REF_POLICY (R157). -/
def specTimeRefPolicy : CmdSpec :=
  { opcode := 0x0204, plen := plenIs 2, modes := notShadow, addr := fun _ => [unitNo 2 255],
    params := fun _ c => c.arg 0 1 0 != 3 && decide (1 ≤ c.arg 0 31 16) && decide (c.arg 0 31 16 ≤ 10000)
      && decide (1 ≤ c.arg 1 9 0) && decide (c.arg 1 9 0 ≤ 1000)
      && decide (1 ≤ c.arg 1 31 12) && decide (c.arg 1 31 12 ≤ 1000000),
    run := fun c _ s =>
      (setTime (fun t => { t with policy := c.arg 0 1 0, ppsDisambig := c.flag 0 2, qualMs := c.arg 0 31 16, slewLimit := c.arg 1 9 0, slewMax := c.arg 1 31 12 }) s, .done .ok []) }

/-- TIME_REF_RESUME executes (R158): ACTION 0 SLEW, 1 STEP, at effective index `idx`. A TIMED one whose reference has qualified while JUMP is not
final waits for it, and a TIMED STEP is measured again. Log entry 37 (DEDUCED, unsafe). -/
def runRefResume (c : Cmd) (idx : Nat) (s : State) : State × Fate :=
  let t := s.time
  let stepB := if c.timed then idx else boundaryAfter s 10000
  if !t.tb.isHoldover then (s, .done .ok (resumePayload false t.jump 0))
  else if t.tb == .slew then
    if c.flag 0 0 then (requestStep stepB (some c.id) true s, .later)
    else (s, .done .ok (resumePayload false t.jump 0))
  else if t.tb == .qualified && (t.jumpKnown || (c.timed && c.flag 0 0)) then
    if c.flag 0 0 then (requestStep stepB (some c.id) c.timed s, .later)
    else if slewAllowed s then
      (startSlew s, .doneAt .ok (resumePayload true t.jump 0) s.index)
    else (s, .done .ok (resumePayload false t.jump 0))
  else if c.timed && t.tb != .qualified then (s, .done .clock [])
  else (setTime (fun t => { t with resume := some { cmd := c.id, step := c.flag 0 0 } }) s, if c.timed then .later else .first .deferred)

/-- TIME_REF_RESUME (R158). -/
def specTimeRefResume : CmdSpec :=
  { opcode := 0x0205, plen := plenIs 1, modes := notShadow, addr := fun _ => [unitNo 2 255],
    timed := fun c => if c.flag 0 0 then .sampleDomain else .nearSc,
    params := fun s c => (!c.flag 0 0 || at32 c)
      && (c.flag 0 0 || !(s.time.tb == .qualified && s.time.jumpKnown) || slewAllowed s),
    busy := fun s _ => s.time.tb.isHoldover && resumePending s,
    run := runRefResume }

/-- TIME_PPS_CONFIG (R159). -/
def specTimePpsConfig : CmdSpec :=
  { opcode := 0x0206, plen := plenIs 1, modes := notShadow, addr := fun _ => [unitNo 2 255],
    params := fun _ c => decide (1 ≤ c.arg 0 31 12) && decide (c.arg 0 31 12 ≤ 500000),
    run := fun c _ s =>
      (setTime (fun t => { t with ppsInEn := c.flag 0 0, ppsNotice := c.flag 0 1, ppsOutEn := c.flag 0 2, ppsOutWidth := c.arg 0 31 12 }) s, .done .ok []) }

/-- A stamp target exists on this variant (R160): targets 0-3 are channels. -/
def targetPresent (s : State) (target : Nat) : Bool := decide (4 ≤ target) || decide (target < s.variant.channels)

/-- TIME_OFFSET (R149, R160): P_t changes at the effective index. Log entry 19 (DEDUCED, unsafe). -/
def specTimeOffset : CmdSpec :=
  { opcode := 0x0207, plen := plenIs 3, timed := fun _ => .sampleDomain, addr := fun _ => [unitNo 2 255],
    params := fun _ c => decide (c.arg 0 3 0 ≤ 13)
      && decide ((signed 64 (c.arg64 1)).natAbs ≤ 1000000000000 * 65536),
    units := fun s c => targetPresent s (c.arg 0 3 0),
    lead := fun _ => some 1000,
    run := fun c idx s =>
      (setTime (fun t => { t with offsets := modAt t.offsets (c.arg 0 3 0) (putSetting idx (signed 64 (c.arg64 1))) }) s, .done .ok []) }

/-- TIME_GET_OFFSET (R161): P_t, A_t and their total in samples, rounded to 2^-32 sample. -/
def specTimeGetOffset : CmdSpec :=
  { opcode := 0x0208, plen := plenIs 1, addr := fun _ => [unitNo 2 255],
    params := fun _ c => decide (c.arg 0 3 0 ≤ 13),
    units := fun s c => targetPresent s (c.arg 0 3 0),
    run := fun c _ s =>
      let t := c.arg 0 3 0
      let total := unsign 96 (roundDiv (delayScaled s t s.index) 1000000000000)
      (s, .done .ok (i64Words (planeOffset s t s.index) ++ [BitVec.ofNat 32 (analogueDelay s t s.index)] ++ dtsWords total)) }

/-- TIME_PPS_READ (R162). -/
def specTimePpsRead : CmdSpec :=
  { opcode := 0x0209, plen := plenIs 0, addr := fun _ => [unitNo 2 255],
    run := fun _ _ s =>
      let t := s.time
      (s, .done .ok (match t.ppsLast with
        | some d => dtsWords d ++ [BitVec.ofInt 32 t.ppsPhase, BitVec.ofNat 32 t.ppsAccepted,
                                   BitVec.ofNat 32 (t.ppsMissing + t.ppsSpurious * 65536)]
        | none => List.replicate 6 0)) }

/-- An addition to PTP_ADJUST saturates at the signed 64-bit range (R163). -/
def satI64 (v : Int) : Int := max (-(2 ^ 63)) (min (2 ^ 63 - 1) v)

/-- TIME_PTP_ADJUST (R163). -/
def specTimePtpAdjust : CmdSpec :=
  { opcode := 0x020A, plen := plenIs 3, timed := fun _ => .nearSc, addr := fun _ => [unitNo 2 255],
    run := fun c _ s =>
      let v := signed 64 (c.arg64 1)
      let r := if c.flag 0 0 then satI64 (s.time.ptpAdjust + v) else v
      (setTime (fun t => { t with ptpAdjust := r }) s, .done .ok (i64Words r)) }

/-! ### Reference and SYNC events -/

/-- Every waiting TIME_SYNC completes with CLOCK and FOUND = 0 (R156). -/
def failSyncs (s : State) : State :=
  let s1 := s.time.syncs.foldl (fun a w => completeId w.cmd .clock [] s.index a) s
  setTime (fun t => { t with syncs := [] }) s1

/-- The device declares reference loss (R132): holdover begins, or begins again during a slew, or a qualification starts
over (R136, R141). `cause` is 0 for missing edges and 1 for frequency, where edges are present and the qualification runs from there; `dac` is the
tracker mean. -/
def declareLoss (cause dac : Nat) (s : State) : State :=
  let t := s.time
  match t.tb with
  | .locked =>
    let s1 := setTime (fun t => { t with tb := .holdover, holdDac := dac % 2 ^ 20, holdStart := s.index, tjEntry := t.tj, qualifying := cause == 1, jumpKnown := false, ppsWait := false, ppsDelta := none, ppsHeld := t.ppsAt, refLossCount := satAdd 32 t.refLossCount 1 }) s
    notify 0x0203 (u64Words s.index ++ [BitVec.ofNat 32 cause]) s.index (failSyncs s1)
  | .slew =>
    let s1 := setTime (fun t => { t with tb := .holdover, holdStart := s.index, tjEntry := t.tj, qualifying := cause == 1, jumpKnown := false, ppsWait := false, ppsDelta := none, refLossCount := satAdd 32 t.refLossCount 1 }) s
    notify 0x0203 (u64Words s.index ++ [BitVec.ofNat 32 cause]) s.index (failSyncs s1)
  | .holdover | .waitRef =>
    if t.qualifying then setTime (fun t => { t with refLossCount := satAdd 32 t.refLossCount 1 }) s else s
  | .qualified =>
    setTime (fun t => { t with tb := .holdover, qualifying := cause == 1, jumpKnown := false, ppsWait := false, ppsDelta := none, refLossCount := satAdd 32 t.refLossCount 1 }) s
  | .relocking =>
    let s1 := match t.relockStep with
      | some r => (match r.cmd with
        | some id => completeId id .clock [] s.index s
        | none => s)
      | none => s
    setTime (fun t => { t with tb := .waitRef, relockStep := none }) s1

/-- REF_MISSING_EDGE (R132, R136, R131): no edge within 1.5 periods. -/
def evRefMissingEdge (dac : Nat) (s : State) : State :=
  setTime (fun t => { t with refPresent := false, qualifying := false }) (declareLoss 0 dac s)

/-- REF_FREQ_CHECK (R132): the 1 ms monitor finds REFIN beyond 200 ppm of REF_FREQ. -/
def evRefFreqCheck (dac : Nat) (ppb : Int) (s : State) : State :=
  if 200000 < ppb.natAbs && (s.time.tb == .locked || s.time.tb == .slew || s.time.tb == .qualified) then declareLoss 1 dac s else s

/-- REF_EDGES_RETURN (R136, R131): qualification of the returning reference starts. -/
def evRefEdgesReturn (s : State) : State :=
  setTime (fun t => { t with refPresent := true, qualifying := t.tb == .holdover || t.tb == .waitRef }) s

/-- REF_QUAL_EXPIRY (R136): the frequency over QUAL_MS is tested; a muted SPLL that waited starts its relock (R131). The policy of this qualification
is the one that stands now (R141). -/
def evRefQualExpiry (ppb : Int) (s : State) : State :=
  let t := s.time
  if !(t.refPresent && t.qualifying && (t.tb == .holdover || t.tb == .waitRef)) then s
  else if 1000 < ppb.natAbs then setTime (fun t => { t with refLossCount := satAdd 32 t.refLossCount 1 }) s
  else if t.tb == .waitRef then
    setTime (fun t => { t with tb := .relocking, qualifying := false, estimatedRelock := true, lockAttempts := 0 }) s
  else setTime (fun t => { t with tb := .qualified, qualifying := false, jumpKnown := false, ppsDelta := none, ppsWait := t.ppsDisambig && t.ppsInEn, returnPolicy := (t.policy, t.slewMax) }) s

/-- PPS_DISAMBIG_TIMEOUT (R137): no PPS edge came, and JUMP stands as measured from REFIN. -/
def evPpsDisambigTimeout (s : State) : State := setTime (fun t => { t with ppsWait := false }) s

/-- JUMP with the whole REFIN periods that the PPS comparison shows (R137). Log entry 38 (DEDUCED, unsafe). -/
def resolveJump (t : TimeUnit) (measured : Int) : Int :=
  match t.ppsDelta with
  | some d => measured + roundDiv (roundDiv ((d - measured) * t.refDiv) (refPeriod16 t) * refPeriod16 t) t.refDiv
  | none => measured

/-- AMBIGUOUS (R137): without PPS, HOLD_BOUND_PPB times the holdover exceeds T_REF/2. -/
def jumpAmbiguous (s : State) : Bool :=
  s.time.ppsDelta.isNone
    && decide (1000000000 * fsOf s.time < 2 * holdBound s.time * (s.index - s.time.holdStart) * s.time.refFreq)

/-- JUMP_KNOWN (R137, R135, R138, R139, R158): JUMP is final, REF_RETURN is sent, and a pending resume or, where none is pending, the policy
acts. With a TIMED resume held for a later AT the measurement is only renewed (R141). -/
def evJumpKnown (measured : Int) (s : State) : State :=
  let t := s.time
  if t.tb != .qualified || t.ppsWait then s
  else if t.jumpKnown then setTime (fun t => { t with jump := measured }) s
  else
    let j := resolveJump t measured
    let amb := jumpAmbiguous s
    let s1 := setTime (fun t => { t with jump := j, jumpKnown := true, ambiguous := amb }) s
    let held := heldResumes s
    let wantsSlew := match t.resume with
      | some r => !r.step
      | none => t.returnPolicy.1 == 1 && held.isEmpty
    let wantsStep := match t.resume with
      | some r => r.step
      | none => t.returnPolicy.1 == 2 && held.isEmpty
    let refused := wantsSlew && !(if t.resume.isSome then slewAllowed s1 else slewWithin s1 t.returnPolicy.2)
    let said := refused || (held.any (fun c => !c.flag 0 0) && !slewAllowed s1)
    let s2 := notify 0x0204 (i64Words j ++ [BitVec.ofNat 32 ((if amb then 1 else 0) + (if t.ppsDelta.isSome then 2 else 0) + (if said then 4 else 0))]) s.index s1
    let rid := t.resume.map (fun r => r.cmd)
    if refused then
      match rid with
      | some id => completeId id .ok (resumePayload false j 0) s.index (setTime (fun t => { t with resume := none }) s2)
      | none => s2
    else if wantsSlew then
      match rid with
      | some id => completeId id .ok (resumePayload true j 0) s.index (startSlew s2)
      | none => startSlew s2
    else if wantsStep then requestStep (boundaryAfter s2 10000) rid false s2
    else s2

/-- SLEW_END (R138): the slew is inside the lock window. -/
def evSlewEnd (s : State) : State :=
  if s.time.tb != .slew then s
  else notify 0x0206 (u64Words s.index) s.index (endResume (setTime (fun t => { t with tb := .locked, jumpKnown := false }) s))

/-- The signed distance in samples from edge `n` to the nearest alignment edge of the present grid (R156). -/
def alignDistance (t : TimeUnit) (n : Nat) : Int :=
  let a : Int := alignRef t
  let r := ((n : Int) - t.syncRef) % a
  let d := if 2 * r ≤ a then -r else a - r
  roundDiv (d * t.fbDiv) t.refDiv

/-- TIME_SYNC_TIMEOUT (R156): TIMEOUT seconds pass with no edge; FOUND = 0. -/
def evTimeSyncTimeout (id : Nat) (s : State) : State :=
  if s.time.syncs.any (fun w => w.cmd == id) then
    completeId id .ok [0, 0, 0, 0] s.index (setTime (fun t => { t with syncs := t.syncs.filter (fun w => w.cmd != id) }) s)
  else s

/-! ### PPS -/

/-- A second in sixteenths of a sample. -/
def second16 (s : State) : Nat := 16 * fsOf s.time

/-- An edge at `t16` is accepted (R143): within 10 µs of one second after the last accepted one, or none was accepted in the last 2 s. -/
def ppsAccepts (s : State) (t16 : Nat) : Bool :=
  match s.time.ppsAt with
  | none => true
  | some l =>
    let gap : Int := (t16 : Int) - l
    decide (2 * (second16 s : Int) < gap) || decide ((gap - second16 s).natAbs * 100000 ≤ second16 s)

/-- How far an edge lies from the whole seconds after the one held at loss (R137), within half a second. -/
def ppsShift (s : State) (held : Int) (t16 : Nat) : Int :=
  let d : Int := (t16 : Int) - held
  d - roundDiv d (second16 s) * second16 s

/-- PPS_PHASE of R144: the stamp minus the nearest multiple of fs, in sixteenths of a sample, saturating. Log entry 38 (DEDUCED, unsafe). -/
def ppsPhaseOf (s : State) (d : Nat) : Int :=
  let fs32 : Int := (fsOf s.time * 2 ^ 32 : Nat)
  let p : Int := (d : Int) - roundDiv (d : Int) (fsOf s.time * 2 ^ 32 : Nat) * fs32
  max (-(2 ^ 31 - 1)) (min (2 ^ 31 - 1) (roundDiv p (2 ^ 28)))

/-- PPS_IN_EDGE (R143, R144, R137): a rising edge, stamped at its sampling point in sixteenths of a sample. Log entry 40 (DEDUCED, unsafe). -/
def evPpsInEdge (cycle tap : Nat) (s : State) : State :=
  let t16 := tdcRaw s 8 cycle tap
  if !s.time.ppsInEn || s.tdc.notReady || !delivering s then s
  else if !ppsAccepts s t16 then setTime (fun t => { t with ppsSpurious := satAdd 16 t.ppsSpurious 1 }) s
  else
    let d := stampOf s 12 ((t16 : Int) * 2 ^ 28) 0
    let ph := ppsPhaseOf s d
    let delta := match s.time.ppsHeld with
      | some h => if s.time.ppsWait then some (ppsShift s h t16) else s.time.ppsDelta
      | none => s.time.ppsDelta
    let s1 := setTime (fun t => { t with ppsLast := some d, ppsAt := some t16, ppsRun := 0, ppsPhase := ph, ppsAccepted := satAdd 32 t.ppsAccepted 1, ppsDelta := delta, ppsWait := false }) s
    if s.time.ppsNotice then
      notify 0x0207 [lo32 (d / 2 ^ 32), lo32 (d / 2 ^ 64), lo32 d, BitVec.ofInt 32 ph] (d / 2 ^ 32) s1
    else s1

/-- The next missing pulse is due at the present index (R143): k s + 10 µs after the last accepted edge. -/
def ppsDue (s : State) : Bool :=
  match s.time.ppsAt with
  | some l => decide ((100000 * (s.time.ppsRun + 1) + 1) * (second16 s : Int) ≤ ((16 * s.index : Nat) - l) * 100000)
  | none => false

/-- PPS_MISSING_TIMEOUT (R143): one more missing pulse. -/
def evPpsMissingTimeout (s : State) : State :=
  if !s.time.ppsInEn || !ppsDue s then s
  else
    let s1 := setTime (fun t => { t with ppsMissing := satAdd 16 t.ppsMissing 1, ppsRun := t.ppsRun + 1 }) s
    notify 0x0208 [BitVec.ofNat 32 s1.time.ppsMissing] s.index s1

/-- PPS_OUT_PULSE (R146): the pulse of second `n`, advanced by the PPS_OUT offset and launched at the nearest TDC-domain
edge (a multiple of 16 samples), ties to the earlier edge. No pulse falls in an unlock gap. -/
def evPpsOutPulse (n : Nat) (s : State) : State :=
  if !s.time.ppsOutEn || !delivering s then s
  else
    let key := n * fsOf s.time
    let num : Int := (key : Int) * 2 ^ 32 * 1000000000000 - delayScaled s 13 s.index
    let den : Nat := 16 * 2 ^ 32 * 1000000000000
    emit (.ppsOut (-((-(2 * num) + den) / (2 * den))) s.time.ppsOutWidth) s

end Sys2Proof.Machine
end

