-- ==== Sys2Proof/Machine/Mc.lean ====
section
/-! DEFINITION. The monitor converter (R500-R523). -/

namespace Sys2Proof.Machine

def setMc (f : McUnit → McUnit) (s : State) : State := { s with mc := f s.mc }

def mcInputOf (s : State) (i : Nat) : McInput := s.mc.inputs.getD i default

def setMcInput (i : Nat) (f : McInput → McInput) (s : State) : State := setMc (fun u => { u with inputs := modAt u.inputs i f }) s

/-- An input that this variant has (R501). -/
def mcPresent (s : State) (i : Nat) : Bool := i != 17 || s.variant == .ka4820

/-- The inputs of the system pass (R508), in order. -/
def systemInputs (s : State) : List Nat := (List.range 14).filterMap fun i => if mcPresent s (16 + i) then some (16 + i) else none

/-- The next input of the sequence from `pos` on, wrapping to the next pass (R507). -/
def nextOfMask (mask pos : Nat) : Option Nat :=
  let l := maskBits 32 mask
  match l.find? fun i => decide (pos ≤ i) with
  | some i => some i
  | none => l.head?

/-- A conversion of input `i` with its own configuration (R518). -/
def ownConversion (s : State) (kind : McKind) (i : Nat) (restarted continuous : Bool) : McConversion :=
  let c := mcInputOf s i
  { kind := kind, input := i, order := c.order, dr := c.dr, detCh := c.detCh, restarted := restarted, continuous := continuous }

/-- A conversion of the system pass: sinc4, DR 2 (R508). -/
def systemConversion (s : State) (i : Nat) (restarted : Bool) : McConversion :=
  { kind := .system, input := i, order := 1, dr := 2, detCh := (mcInputOf s i).detCh, restarted := restarted, continuous := false }

/-- The sequence runs as a continuous stream (R506). -/
def mcContinuous (s : State) : Bool :=
  match maskBits 32 s.mc.seqMask with
  | [i] => !(mcInputOf s i).single
  | _ => false

/-- The next conversion of the sequence. `stream` is the continuous conversion that has just ended, whose settings the stream keeps
(R518). -/
def startSequence (stream : Option McConversion) (s : State) : State :=
  if !s.mc.run then s
  else match nextOfMask s.mc.seqMask s.mc.seqNext with
    | none => s
    | some i =>
      let cont := mcContinuous s
      let conv := match stream with
        | some c => { c with restarted := false }
        | none => ownConversion s .sequence i (cont && s.mc.streamBroken) cont
      setMc (fun u => { u with running := some conv, seqNext := i + 1, streamBroken := false }) s

/-- Start the next conversion at a boundary (R508, R510, R511): urgent requests, an aborted conversion, the other requests, the system pass,
and last the sequence. Log entry 65 (DEDUCED, unsafe). -/
def mcNext (stream : Option McConversion) (s : State) : State :=
  if s.mc.running.isSome then s
  else
    let start (c : McConversion) (f : McUnit → McUnit) : State := setMc (fun u => { f u with running := some c, streamBroken := true }) s
    match s.mc.urgents, s.mc.aborted, s.mc.converts with
    | (cmd, i) :: t, _, _ => start (ownConversion s (.urgent cmd) i false false) fun u => { u with urgents := t }
    | [], some a, _ =>
      match a.kind with
      | .sequence => setMc (fun u => { u with running := some (ownConversion s .sequence a.input true a.continuous), aborted := none, streamBroken := false }) s
      | .system => start (systemConversion s a.input true) fun u => { u with aborted := none }
      | k => start (ownConversion s k a.input true false) fun u => { u with aborted := none }
    | [], none, (cmd, i) :: t => start (ownConversion s (.convert cmd) i false false) fun u => { u with converts := t }
    | [], none, [] =>
      match (systemInputs s).find? fun i => decide (max 16 s.mc.sysPos ≤ i) with
      | some i =>
        if s.mc.sysPos != 0 || (s.mc.sysDue && coresRun s) then
          start (systemConversion s i false) fun u => { u with sysDue := if u.sysPos = 0 then false else u.sysDue, sysPos := i + 1 }
        else startSequence stream s
      | none => startSequence stream s

/-- A new MC_SEQUENCE takes effect (R507). -/
def applySequence (s : State) : State :=
  match s.mc.pendingSeq with
  | none => s
  | some (mask, run, hist) =>
    setMc (fun u => { u with seqMask := mask, run := run, sysHistory := hist, pendingSeq := none, seqNext := 0, streamBroken := false }) s

/-- The nominal voltage of M20-M28 in microvolts (chapter 22, supply table). -/
def nominalUv (i : Nat) : Int := [750000, 800000, 850000, 1200000, 1000000, 1800000, 1800000, 1800000, 1200000].getD (i - 20) 0

/-- The protection limits judge a result of the system pass (R629). Log entry 68 (DEDUCED, unsafe). -/
def protect (i : Nat) (value : Int) (s : State) : State :=
  if 16 ≤ i && i ≤ 19 then
    if 125000 ≤ value then
      if s.mc.hot.contains i then s
      else
        let w := [BitVec.ofNat 32 i, BitVec.ofInt 32 value, 0]
        setFault 6 (bbWrite 0x12 i 0x1286 w s.index (setMc (fun u => { u with hot := u.hot ++ [i] }) s))
    else if value < 120000 then
      let s1 := setMc (fun u => { u with hot := u.hot.filter (· != i) }) s
      if s1.mc.hot.isEmpty then endFault 6 s1 else s1
    else s
  else if 20 ≤ i && i ≤ 28 then
    if nominalUv i < 20 * (value - nominalUv i).natAbs then
      if s.mc.offSupply.contains i then s
      else setFault 8 (bbWrite 0x12 i 0x1287 [BitVec.ofNat 32 i, BitVec.ofInt 32 value, 0] s.index (setMc (fun u => { u with offSupply := u.offSupply ++ [i] }) s))
    else
      let s1 := setMc (fun u => { u with offSupply := u.offSupply.filter (· != i) }) s
      if s1.mc.offSupply.isEmpty then endFault 8 s1 else s1
  else s

/-- The limit states of an input after a result (R514). -/
def limitStates (c : McInput) (v : Int) : Bool × Bool :=
  (if c.high ≤ v then true else if v < c.high - c.hyst then false else c.highState,
   if v ≤ c.low then true else if c.low + c.hyst < v then false else c.lowState)

/-- CODE of R502 before its limit, from the modulator's input in volts. Log entry 67 (DESIGN CHOICE, safe). -/
def rawCode (volts : Rat) : Int := roundRat (volts * 8388608 / (6 / 5))

/-- The CODE that 24 bits hold (R502). -/
def limitCode (code : Int) : Int := max (-8388608) (min 8388607 code)

/-- The five words of a result (R512). -/
def mcEntry (s : State) (r : McConversion) (code value : Int) (ovr : Bool) (st : Bool × Bool) : List Word :=
  let sys := match r.kind with | .system => true | _ => false
  let urg := match r.kind with | .urgent _ => true | _ => false
  BitVec.ofNat 32 (r.input + (if ovr then 2 ^ 5 else 0) + (if sys then 2 ^ 6 else 0) + (if urg then 2 ^ 7 else 0)
      + (if r.restarted then 2 ^ 8 else 0) + (if locked s then 0 else 2 ^ 9) + (if st.1 then 2 ^ 10 else 0) + (if st.2 then 2 ^ 11 else 0)
      + r.order * 2 ^ 12 + r.dr * 2 ^ 14 + (if r.continuous then 2 ^ 18 else 0) + (if r.input = 30 then r.detCh * 2 ^ 19 else 0))
    :: BitVec.ofInt 32 code :: BitVec.ofInt 32 value :: u64Words s.index

/-- A result enters the history (R515). -/
def mcHistory (e : List Word) (s : State) : State :=
  if 1024 ≤ s.mc.history.length then setMc (fun u => { u with history := u.history.tail ++ [e], lost := satAdd 32 u.lost 1 }) s
  else setMc (fun u => { u with history := u.history ++ [e] }) s

/-- The notices of a result (R514, R523). Log entry 65 (DEDUCED, unsafe). -/
def mcNotices (old : McInput) (r : McConversion) (code value : Int) (ovr : Bool) (st : Bool × Bool) (s : State) : State :=
  let s1 := if old.threshNotice && (st.1 != old.highState || st.2 != old.lowState) then
      notify 0x0E01 [BitVec.ofNat 32 (r.input + (if st.1 then 2 ^ 8 else 0) + (if st.2 then 2 ^ 9 else 0) + (if ovr then 2 ^ 10 else 0)), BitVec.ofInt 32 value] s.index s
    else s
  if old.ovrNotice && ovr && !old.prevOvr then notify 0x0E02 [BitVec.ofNat 32 r.input, BitVec.ofInt 32 code] s1.index s1 else s1

/-- Deliver the result of a conversion (R502, R503, R508, R510-R515); its notices follow the reply of the command that asked for it (R63). -/
def mcDeliver (r : McConversion) (volts : Rat) (given : Int) (overload : Bool) (s : State) : State :=
  let code := limitCode (rawCode volts)
  let ovr := overload || code != rawCode volts
  let value := if r.input < 16 then roundDiv (code * 1200000) (2 ^ 23) else given
  let old := mcInputOf s r.input
  let st := limitStates old value
  let e := mcEntry s r code value ovr st
  let s1 := setMcInput r.input (fun c => { c with latest := e, highState := st.1, lowState := st.2, prevOvr := ovr }) s
  let s2 := if ovr then setMc (fun u => { u with ovrResults := satAdd 32 u.ovrResults 1 }) s1 else s1
  let say := mcNotices old r code value ovr st
  match r.kind with
  | .system =>
    let s3 := say (if s2.mc.sysHistory then mcHistory e s2 else s2)
    protect r.input value (if r.input = 16 then setTime (fun t => { t with tj := value }) s3 else s3)
  | .sequence => say (mcHistory e s2)
  | .convert cmd => say (completeId cmd .ok e s2.index (mcHistory e s2))
  | .urgent cmd => say (completeId cmd .ok e s2.index (mcHistory e s2))

/-- MC_CONVERSION_END (R506-R515): the running conversion delivers its result, and the next one starts. Log entry 67 (DESIGN CHOICE, safe). -/
def evMcConversionEnd (volts : Rat) (value : Int) (overload : Bool) (s : State) : State :=
  match s.mc.running with
  | none => s
  | some r =>
    let s1 := mcDeliver r volts value overload (setMc (fun u => { u with running := none }) s)
    let lastSystem := match r.kind with | .system => (systemInputs s).getLast? == some r.input | _ => false
    let s2 := if lastSystem then setMc (fun u => { u with sysPos := 0 }) s1 else s1
    let stream := match r.kind with | .sequence => if r.continuous && s2.mc.pendingSeq.isNone then some r else none | _ => none
    mcNext stream (applySequence s2)

/-- MC_SYSTEM_PASS (R508): a pass falls due. -/
def evMcSystemPass (s : State) : State := mcNext none (setMc (fun u => { u with sysDue := true }) s)

/-! ### Commands -/

/-- MC_INPUT (R518). -/
def specMcInput : CmdSpec :=
  { opcode := 0x0E00, plen := plenIs 4, addr := fun c => [unitNo 0xE (c.arg 0 4 0)],
    params := fun _ c => c.arg 0 9 8 != 3 && decide (c.arg 0 13 10 ≤ 11) && (c.arg 0 4 0 == 30 || c.arg 0 18 17 == 0),
    units := fun s c => mcPresent s (c.arg 0 4 0) && (c.arg 0 4 0 != 30 || decide (c.arg 0 18 17 < s.variant.channels)),
    run := fun c _ s =>
      (setMcInput (c.arg 0 4 0) (fun i => { i with order := c.arg 0 9 8, dr := c.arg 0 13 10, single := c.flag 0 14, threshNotice := c.flag 0 15, ovrNotice := c.flag 0 16, detCh := c.arg 0 18 17, high := (c.word 1).toInt, low := (c.word 2).toInt, hyst := (c.word 3).toNat }) s, .done .ok []) }

/-- MC_SEQUENCE (R507, R519): at once when no conversion runs, else at its end. -/
def specMcSequence : CmdSpec :=
  { opcode := 0x0E01, plen := plenIs 2, addr := fun c => unitNo 0xE 255 :: (maskBits 32 (c.word 0).toNat).map (unitNo 0xE),
    params := fun _ c => !(c.flag 1 0 && c.word 0 == 0),
    units := fun s c => (maskBits 32 (c.word 0).toNat).all (mcPresent s),
    run := fun c _ s =>
      let s1 := setMc (fun u => { u with pendingSeq := some ((c.word 0).toNat, c.flag 1 0, c.flag 1 1) }) s
      (if s.mc.running.isNone then mcNext none (applySequence s1) else s1, .done .ok []) }

/-- An aborted MC_CONVERT still waits for its restart (R511). Log entry 65 (DEDUCED, unsafe). -/
def abortedConvert (s : State) : Nat :=
  match s.mc.aborted with
  | some a => (match a.kind with | .convert _ => 1 | _ => 0)
  | none => 0

/-- An urgent request aborts what runs, unless that is urgent itself (R511). -/
def mcAbort (s : State) : State :=
  match s.mc.running with
  | none => s
  | some r =>
    match r.kind with
    | .urgent _ => s
    | _ => setMc (fun u => { u with running := none, aborted := some r, aborts := satAdd 32 u.aborts 1 }) s

/-- MC_CONVERT (R510, R511, R520): 8 requests wait, or 4 urgent ones. -/
def specMcConvert : CmdSpec :=
  { opcode := 0x0E02, plen := plenIs 1, addr := fun c => [unitNo 0xE (c.arg 0 4 0)], queues := true,
    units := fun s c => mcPresent s (c.arg 0 4 0),
    busy := fun s c => if c.urgent then decide (4 ≤ s.mc.urgents.length) else decide (8 ≤ s.mc.converts.length + abortedConvert s),
    run := fun c _ s =>
      let r := (c.id, c.arg 0 4 0)
      if c.urgent then (mcNext none (mcAbort (setMc (fun u => { u with urgents := u.urgents ++ [r] }) s)), .later)
      else (mcNext none (setMc (fun u => { u with converts := u.converts ++ [r] }) s), .later) }

/-- MC_READ (R521). Log entry 66 (DEDUCED, unsafe). -/
def specMcRead : CmdSpec :=
  { opcode := 0x0E03, plen := plenIs 1, addr := fun c => [unitNo 0xE (if c.flag 0 0 then 255 else c.arg 0 5 1)],
    params := fun _ c => decide (1 ≤ c.arg 0 13 8) && decide (c.arg 0 13 8 ≤ 50),
    units := fun s c => c.flag 0 0 || mcPresent s (c.arg 0 5 1),
    run := fun c _ s =>
      if c.flag 0 0 then
        let n := min (c.arg 0 13 8) s.mc.history.length
        (setMc (fun u => { u with history := u.history.drop n }) s, .done .ok (BitVec.ofNat 32 n :: (s.mc.history.take n).flatten))
      else
        let l := (mcInputOf s (c.arg 0 5 1)).latest
        (s, .done .ok (1#32 :: (List.range 5).map fun i => l.getD i 0)) }

/-- The mask of inputs whose state holds. Log entry 65 (DEDUCED, unsafe). -/
def mcStates (s : State) (f : McInput → Bool) : Word := BitVec.ofNat 32 (maskOf ((List.range 32).filter fun i => f (mcInputOf s i)))

/-- A continuous stream runs (R506, R522). -/
def streamRuns (u : McUnit) : Bool := (u.running.map fun r => r.continuous).getD false

/-- MC_STATUS (R522). -/
def specMcStatus : CmdSpec :=
  { opcode := 0x0E04, plen := plenIs 1, addr := fun _ => [unitNo 0xE 255],
    run := fun c _ s =>
      let u := s.mc
      (if c.flag 0 8 then setMc (fun u => { u with aborts := 0, lost := 0, ovrResults := 0 }) s else s,
        .done .ok [BitVec.ofNat 32 ((if u.run then 1 else 0) + (if streamRuns u then 2 else 0) + (if u.sysPos != 0 then 4 else 0)
            + min 4 u.urgents.length * 8 + min 8 (u.converts.length + abortedConvert s) * 64),
          mcStates s (fun i => i.highState), mcStates s (fun i => i.lowState), BitVec.ofNat 32 u.aborts, BitVec.ofNat 32 u.lost,
          BitVec.ofNat 32 u.ovrResults]) }

end Sys2Proof.Machine
end

