-- ==== Sys2Proof/Machine/Calib.lean ====
section
/-! DEFINITION. Calibration and maintenance (R177-R179, R524-R548): the rotation boundary, scrubbing, the measurement of CALIB_MEASURE,
and the commands of the group. -/

namespace Sys2Proof.Machine

/-! ### Slice rotation (R177-R180, R544) -/

def sliceOf (s : State) (c n : Nat) : SliceCorr := (s.maint.slices.getD c []).getD n default

def setSlice (c n : Nat) (f : SliceCorr → SliceCorr) (s : State) : State :=
  setMaint (fun m => { m with slices := modAt m.slices c (fun l => modAt l n f) }) s

/-- A dwell's corrections lie in the range of the correction logic (R544). -/
def correctionOk (r : Int × Int × Int) : Bool := decide (r.1.natAbs ≤ 4096) && decide (r.2.1.natAbs ≤ 4096) && decide (r.2.2.natAbs ≤ 2048)

/-- The end of the spare's dwell on one channel at boundary `k`: the slice takes its corrections, or is retired (R180). -/
def sliceDwellEnd (k c : Nat) (r : Int × Int × Int) (s : State) : State :=
  let ch := channelOf s c
  if s.variant.channels ≤ c || ch.retired.isSome || ch.noSpareSince.isSome then s
  else
    let n := spareAt s.conv.step
    if correctionOk r then
      setSlice c n (fun x => { offset := r.1, gain := r.2.1, skew := r.2.2, step := s.conv.step + 1,
                               dOffset := r.1 - x.offset, dGain := r.2.1 - x.gain, dSkew := r.2.2 - x.skew }) s
    else
      let w := [BitVec.ofNat 32 (c + n * 256), 0]
      notify 0x0302 w k (bbWrite 0x03 c 0x0302 w k (setChannel c (fun ch => { ch with retired := some n, frozenSpare := some n }) s))

/-- SLICE_SWAP (R177, R178, R536): a boundary of the rotation grid, where the counter advances. -/
def evSliceSwap (k : Nat) (results : List (Int × Int × Int)) (s : State) : State :=
  if !coresRun s then countWait [0] s
  else if !delivering s || s.conv.hold || runMode s == .calibrate || k % (32 * 2 ^ s.conv.dwellLog2) != 0 || decide (k < s.maint.sliceFrom) then s
  else
    let s1 := results.zipIdx.foldl (fun a x => sliceDwellEnd k x.2 x.1 a) s
    countStart [0] none k (setMaint (fun m => { m with sliceFrom := k + 1 }) { s1 with conv := { s1.conv with step := s1.conv.step + 1 } })

/-! ### Scrubbing (R102, R115, R529, R546) -/

/-- The pass over one partition has ended: its corrected words, its new uncorrectable words, and one more pass.
Log entry 32 (DESIGN CHOICE, unsafe). -/
def scrubbed (slot corrected : Nat) (found : List Nat) (s : State) : State :=
  found.foldl (fun a o => detectUe slot o a) (countCe slot corrected (setPart slot (fun p => { p with passes := satAdd 32 p.passes 1 }) s))

/-- SCRUB (R115, R529, R533): a background pass over one partition, or its deferral while a SCRUB_PASS runs or waits. Places 256 to 261 are the
stores, which their own logic scrubs at any time (R641). Log entries 10 (DESIGN CHOICE, safe), 32 (DESIGN CHOICE, unsafe). -/
def evScrub (slot corrected : Nat) (found : List Nat) (s : State) : State :=
  if 256 ≤ slot then countStore (slot - 256) corrected found.length 1 s
  else if s.pool.scrubPeriod = 0 then s
  else if !coresRun s || s.maint.acts.any fun a => a.codes.contains 3 then
    if s.maint.scrubFrom.isSome then s else countWait [2] (setMaint (fun m => { m with scrubFrom := some s.index }) s)
  else
    let s1 := countStart [2] s.maint.scrubFrom s.index (setMaint (fun m => { m with scrubFrom := none }) s)
    let s2 := scrubbed slot corrected found s1
    let last := (s2.pool.parts.map fun p => p.slot).foldl max 0
    if slot = last then { s2 with pool := { s2.pool with passes := satAdd 32 s2.pool.passes 1 } } else s2

/-- The partitions that a commanded pass covers. Log entry 32 (DESIGN CHOICE, unsafe). -/
def passParts (s : State) (h : Nat) : List Partition :=
  if h = 0 then s.pool.parts else (partByHandle s (BitVec.ofNat 32 h)).toList

/-- SCRUB_PASS_END (R546). Log entry 32 (DESIGN CHOICE, unsafe). -/
def evScrubPassEnd (found : List (Nat × Nat × List Nat)) (s : State) : State :=
  match s.maint.acts.find? fun a => a.running && a.codes.contains 3 with
  | none => s
  | some a =>
    let parts := passParts s a.key
    let of_ (p : Partition) : Nat × List Nat := match found.find? fun f => f.1 == p.slot with
      | some f => f.2
      | none => (0, [])
    let bad := fun (p : Partition) => (p.poisoned ++ (of_ p).2.map fun o => o / 8 * 8).eraseDups
    let payload := [BitVec.ofNat 32 (parts.map fun p => p.au).sum, BitVec.ofNat 32 (parts.map fun p => (of_ p).1).sum,
      BitVec.ofNat 32 (parts.map fun p => (bad p).length).sum]
    let s1 := parts.foldl (fun b p => scrubbed p.slot (of_ p).1 (of_ p).2 b) s
    let s2 := if a.key = 0 then { s1 with pool := { s1.pool with passes := satAdd 32 s1.pool.passes 1 } } else s1
    completeId a.cmd .ok payload (a.start.getD s.index) (endActivity (fun x => x.cmd == a.cmd) s2)

/-! ### Angles (R539) -/

/-- One unit of the fixed-point numbers of the arctangent. -/
def atanOne : Nat := 2 ^ 128

/-- t / (1 + sqrt(1 + t^2)): the tangent of half the angle. -/
def halfTan (t : Nat) : Nat := t * atanOne / (atanOne + Nat.sqrt (atanOne * atanOne + t * t))

/-- The arctangent series from its term number `i`, with `p` the power t^(2 i + 1). -/
def atanSeries (t2 : Nat) : Nat → Nat → Nat → Int
  | 0, _, _ => 0
  | fuel + 1, i, p => (p / (2 * i + 1) : Nat) - atanSeries t2 fuel (i + 1) (p * t2 / atanOne)

/-- atan t for 0 ≤ t ≤ 1 in fixed point. -/
def atanFx (t : Nat) : Int :=
  let h := halfTan (halfTan (halfTan t))
  8 * atanSeries (h * h / atanOne) 24 0 h

/-- The angle of x + j y, not both 0, in 2^-64 turn; exact at multiples of an eighth turn. -/
def turnOf (x y : Int) : Int :=
  let ax := x.natAbs
  let ay := y.natAbs
  let eighth : Int := 2 ^ 61
  let small (a b : Nat) : Int := if a = b then eighth else eighth * atanFx (a * atanOne / max 1 b) / atanFx atanOne
  let first := if ay ≤ ax then small ay ax else 2 * eighth - small ax ay
  let upper := if x < 0 then 4 * eighth - first else first
  if y < 0 then -upper else upper

/-- A rational as a binary64 value, to nearest with ties to even (R538). -/
def double (x : Rat) : SDyad :=
  let d := (dyadOf x).round 53
  { m := if x < 0 then -(d.m : Int) else d.m, e := d.e }

/-- A binary64 value rounded to binary32 (R538). -/
def toSingle (x : SDyad) : Word := lin32 { m := x.m.natAbs, e := x.e } ||| (if x.m < 0 then 0x80000000#32 else 0)

/-- |Y|^2, exactly. -/
def normSq (y : SDyad × SDyad) : Dyad :=
  Dyad.addExact { m := y.1.m.natAbs ^ 2, e := 2 * y.1.e } { m := y.2.m.natAbs ^ 2, e := 2 * y.2.e }

/-- amp_res of R539. Log entry 69 (DEDUCED, unsafe). -/
def ampRes (y : SDyad × SDyad) (expected : Int) : Int :=
  let p := normSq y
  if p.m = 0 then -32768 else max (-32767) (min 32767 (logSearch p 17 (-65536) - expected))

/-- arg(a conj b) in 2^-64 turn; `none` when either is 0. Log entry 69 (DEDUCED, unsafe). -/
def argBetween (a b : SDyad × SDyad) : Option Int :=
  if (normSq a).m = 0 || (normSq b).m = 0 then none
  else
    let mulE (x y : SDyad) : SDyad := { m := x.m * y.m, e := x.e + y.e }
    let re := (mulE a.1 b.1).addExact (mulE a.2 b.2)
    let im := (mulE a.2 b.1).addExact (mulE a.1 b.2).neg
    let e := min re.e im.e
    some (turnOf (re.m * 2 ^ (re.e - e).toNat) (im.m * 2 ^ (im.e - e).toNat))

/-- phase_res of R539 in 2^-16 turn from an angle in 2^-64 turn, f_k as an NCO word, D in 2^-16 ps and G in 2^-32 sample: wrapped into
(-1/2, 1/2] turn and rounded. Log entry 69 (DEDUCED, unsafe). -/
def phaseRes (fs : Nat) (angle : Int) (freq : Nat) (d g : Int) : Int :=
  let den : Nat := 2 ^ 80 * 10 ^ 12
  let one : Int := den
  let num : Int := angle * (2 ^ 16 * 10 ^ 12) + freq * fs * d * 2 ^ 16 + freq * g * 10 ^ 12
  let wrapped := num + one * ((one - 2 * num) / (2 * one))
  roundDiv (wrapped * 65536) den

/-! ### Measurements (R538-R543) -/

/-- What a measurement that starts at index `e` reads there (R539, R543). -/
def measureTaken (s : State) (c : Cmd) (e : Nat) : List Int :=
  let chans := List.range 4
  let cal : Nat := maskOf ((maskBits 4 (c.arg 0 3 0)).filter fun i => (channelOf s i).cal)
  (cal : Int) :: (chans.map fun i => if (channelOf s i).cal then (Config.calDelay i : Int) else (analogueDelay s i e : Int))
    ++ (chans.map fun i => if c.flag 0 6 then (eqDelayAt s i e : Int) else 0)

/-- A measurement starts at index `e`. Log entry 70 (DEDUCED, unsafe). -/
def startMeasure (c : Cmd) (e : Nat) (from_ : Option Nat) (s : State) : State :=
  countStart [6] from_ e (setMaint (fun m => { m with acts := m.acts.filter (fun a => a.cmd != c.id) ++
    [{ codes := [6], cmd := c.id, key := c.arg 0 3 0, waitFrom := e, clear := e, start := some e, length := 2 ^ c.arg 0 20 16, taken := measureTaken s c e }] }) s)

/-- A conflicting measurement runs or is reserved past `at_`, or waits (R534). -/
def measureBusy (s : State) (at_ : Nat) : Bool :=
  (s.maint.acts.any fun a => a.codes.contains 6 && (match a.start with | some e => decide (at_ < e + a.length) | none => true))
    || (heldOf s 0x0F00).any fun d => d.timed && decide (d.atIndex ≤ at_) && decide (at_ < d.atIndex + 2 ^ d.arg 0 20 16)

/-- CALIB_MEASURE (R531, R534, R538-R542). Log entry 69 (DEDUCED, unsafe). -/
def specCalibMeasure : CmdSpec :=
  { opcode := 0x0F00, plen := fun c => c.plen == 3 + 2 * c.arg 0 10 8, timed := fun _ => .sampleDomain,
    modes := fun m _ => m == .calibrate, addr := fun c => (maskBits 4 (c.arg 0 3 0)).map (unitNo 0xF),
    params := fun _ c => c.arg 0 3 0 != 0 && (c.arg 0 3 0).testBit (c.arg 0 5 4) && decide (16 ≤ c.arg 0 20 16) && decide (c.arg 0 20 16 ≤ 30) && at32 c,
    units := fun s c => s.variant.hasChannels (c.arg 0 3 0),
    busy := fun s c => c.timed && measureBusy s c.atIndex,
    lead := fun _ => some 1000, queues := true,
    run := fun c e s =>
      if c.timed then
        if s.maint.acts.any fun a => a.codes.contains 6 then (s, .done .busy []) else (startMeasure c e none s, .later)
      else if actBlocked s s.maint.acts [6] then waitActivity [6] c (c.arg 0 3 0) 0 s
      else (startMeasure c e none s, .later) }

/-- What the bank takes from a channel over a window (R538, R543): INV_COUNT, OVR_COUNT, and the samples with INV = 0 that are not 0, by index. -/
structure Measured where
  inv : Nat
  ovr : Nat
  samples : List (Nat × Int)

/-- POINT 0 measures the tile output, POINT 1 the wideband stream. -/
def measured (s : State) (c : Cmd) (ch e len : Nat) : Measured :=
  let wide := wideTags s ch
  let inv := if c.flag 0 6 then wide.inv else tileInv s ch
  let ovr := if c.flag 0 6 then wide.ovr else (ovrList s ch).map fun j => (j, j + 1)
  let value (k : Nat) : Int := if c.flag 0 6 then wideValue s ch wide k else tileValue s ch inv k
  { inv := unionCount (clipRanges e (e + len) inv), ovr := unionCount (clipRanges e (e + len) ovr),
    samples := ((litIndices s ch e (e + len)).map fun k => (k, value k)).filter fun x => x.2 != 0 }

/-- Y of one frequency (R538): the sum of R538 and the deviation of the bank's binary64 arithmetic; 0 where nothing adds up.
Log entry 69 (DEDUCED, unsafe). -/
def correlate (ch e len freq k : Nat) (m : Measured) : SDyad × SDyad :=
  if m.samples.isEmpty then (double 0, double 0)
  else
    let z := sumPairs (m.samples.map fun x =>
      let a : Rat := ((freq * x.1 % 2 ^ 48 : Nat) : Rat) / (2 ^ 48 : Nat)
      (x.2 * cosTurn a, -(x.2 * sinTurn a)))
    let scale : Rat := 2 / ((2048 * (len - m.inv) : Nat) : Rat)
    (double (scale * z.1 + Config.correlatorNoise ch e k false), double (scale * z.2 + Config.correlatorNoise ch e k true))

/-- One frequency of one channel: RE, IM and the two residuals (R538, R539, R543). A phase against a zero vector is open: a free value. -/
def measureEntry (c : Cmd) (taken : List Int) (ch k : Nat) (valid : Bool) (y r : SDyad × SDyad) (s : State) : List Word × State :=
  let ref := c.arg 0 5 4
  let freq := (c.word (1 + 2 * k)).toNat + c.arg (2 + 2 * k) 15 0 * 2 ^ 32
  let expected := signed 16 (c.arg (2 + 2 * k) 31 16)
  let d := taken.getD (1 + ch) 0 - taken.getD (1 + ref) 0
  let g := taken.getD (5 + ch) 0 - taken.getD (5 + ref) 0
  let p : Nat × State :=
    if ch = ref || !valid then (0, s)
    else match argBetween y r with
      | some a => (unsign 16 (phaseRes (fsOf s.time) a freq d g), s)
      | none => let (w, s') := takeFree s; (field w 15 0, s')
  ([toSingle y.1, toSingle y.2, BitVec.ofNat 32 (unsign 16 (ampRes y expected) + p.1 * 65536)], p.2)

/-- The block of one channel of a measurement that began at `e` (R543). -/
def measureBlock (c : Cmd) (taken : List Int) (e ch : Nat) (s : State) : List Word × State :=
  let len := 2 ^ c.arg 0 20 16
  let x := measured s c ch e len
  let ref := c.arg 0 5 4
  let r := measured s c ref e len
  (List.range (c.arg 0 10 8 + 1)).foldl (fun acc k =>
    let freq := (c.word (1 + 2 * k)).toNat + c.arg (2 + 2 * k) 15 0 * 2 ^ 32
    let m := measureEntry c taken ch k (decide (x.inv < len)) (correlate ch e len freq k x) (correlate ref e len freq k r) acc.2
    (acc.1 ++ m.1, m.2)) ([BitVec.ofNat 32 x.inv, BitVec.ofNat 32 x.ovr], s)

/-- CAL_MEASURE_END (R538-R540, R543): the window of the running measurement is complete. -/
def evCalMeasureEnd (volts : List Volts) (s0 : State) : State :=
  let s := bringVolts volts s0
  match s.maint.acts.find? fun a => a.running && a.codes.contains 6 with
  | none => s
  | some a =>
    match cmdById s a.cmd, a.start with
    | some c, some e =>
      if s.index + 1 < e + a.length || !delivering s then s
      else
        let note := notesOver s e (e + a.length)
        let head := [BitVec.ofNat 32 (c.arg 0 3 0 + (a.taken.headD 0).toNat * 16 + c.arg 0 10 8 * 256 + (if c.flag 0 6 then 2 ^ 11 else 0)
            + (if note.holdover then 2 ^ 12 else 0) + (if note.slew then 2 ^ 13 else 0))] ++ u64Words e
        let r := (maskBits 4 (c.arg 0 3 0)).foldl (fun acc ch =>
          let b := measureBlock c a.taken e ch acc.2
          (acc.1 ++ b.1, b.2)) (head, s)
        completeId a.cmd .ok r.1 e (endActivity (fun x => x.cmd == a.cmd) r.2)
    | _, _ => s

/-- A running measurement ends without a result: CLOCK at an unlock or a STEP boundary, MODE at the exit from CALIBRATE (R537). -/
def breakMeasure (st : Status) (s : State) : State :=
  match s.maint.acts.find? fun a => a.running && a.codes.contains 6 with
  | none => s
  | some a => completeId a.cmd st [] s.index (endActivity (fun x => x.cmd == a.cmd) s)

/-! ### Starting what waits -/

/-- The first SC boundary at least 1 µs after the last conflicting activity ended (R531). -/
def wayClear (s : State) (a : Activity) : Bool :=
  decide (s.index < a.clear) || decide (nextBoundary (a.clear + samplesNs s 1000) ≤ nextBoundary s.index)

/-- ACTIVITY_START (R531): the first waiting activity that nothing holds back starts at the boundary. -/
def evActivityStart (s : State) : State :=
  match nextStart s with
  | none => s
  | some a =>
    let e := nextBoundary s.index
    if !wayClear s a then s
    else if holdsTdr a.codes then
      let s1 := setMaint (fun m => { m with acts := m.acts.filter (fun x => x.cmd != a.cmd) }) s
      completeId a.cmd .ok [] e ((maskBits 8 a.key).foldl (fun b n => armTdc e a.cmd (some a.waitFrom) n b) s1)
    else if a.codes.contains 6 then
      match cmdById s a.cmd with
      | none => endActivity (fun x => x.cmd == a.cmd) s
      | some c =>
        if !locked s then completeId a.cmd .clock [] s.index (endActivity (fun x => x.cmd == a.cmd) s)
        else if runMode s != .calibrate then completeId a.cmd .mode [] s.index (endActivity (fun x => x.cmd == a.cmd) s)
        else startMeasure c e (some a.waitFrom) s
    else
      countStart a.codes (some a.waitFrom) e (setMaint (fun m => { m with acts := m.acts.map fun x => if x.cmd == a.cmd then { x with start := some e } else x }) s)

/-! ### Commands -/

/-- An 8-bit field that saturates, signed. -/
def sat8 (v : Int) : Nat := unsign 8 (max (-128) (min 127 v))

/-- CALIB_SLICE_READ (R544). Log entry 70 (DEDUCED, unsafe). -/
def specCalibSliceRead : CmdSpec :=
  { opcode := 0x0F01, plen := plenIs 1, addr := fun c => [unitNo 0xF (c.arg 0 1 0)],
    units := fun s c => decide (c.arg 0 1 0 < s.variant.channels),
    run := fun c _ s =>
      let i := c.arg 0 1 0
      let ch := channelOf s i
      let words := (List.range 33).flatMap fun n =>
        let x := sliceOf s i n
        [BitVec.ofNat 32 (unsign 16 x.offset + unsign 16 x.gain * 65536),
         BitVec.ofNat 32 (unsign 16 x.skew + min 65535 (s.conv.step - x.step) * 65536),
         BitVec.ofNat 32 (sat8 x.dOffset + sat8 x.dGain * 256 + sat8 x.dSkew * 65536 + (if ch.retired == some n then 2 ^ 24 else 0))]
      (s, .done .ok (BitVec.ofNat 32 (spareOf s ch) :: lo32 s.conv.step :: words)) }

/-- SERVING of a delay line (R545). -/
def serving (s : State) (l : Nat) : Nat :=
  if (s.tdc.lines.getD l default).retired then 14
  else if s.tdc.spare = l then 15
  else s.tdc.inputs.findIdx fun x => x.line == l

/-- CALIB_TDC_READ (R545). -/
def specCalibTdcRead : CmdSpec :=
  { opcode := 0x0F02, plen := plenIs 0, addr := fun _ => [unitNo 0xF 255],
    run := fun _ _ s =>
      (s, .done .ok (BitVec.ofNat 32 s.tdc.spare :: (List.range 13).flatMap fun l =>
        let x := s.tdc.lines.getD l default
        [BitVec.ofNat 32 (serving s l % 16 + min 65535 x.dnl * 65536),
         BitVec.ofNat 32 (min 65535 x.misses + min 65535 (s.tdc.dwells - x.calDwell) * 65536)])) }

/-- MAINT_START (R531, R546). -/
def specMaintStart : CmdSpec :=
  { opcode := 0x0F03, plen := plenIs 1, modes := notShadow, addr := fun _ => [unitNo 0xF 254], queues := true,
    params := fun s c => c.word 0 == 0 || (partByHandle s (c.word 0)).isSome,
    run := fun c _ s =>
      let h := (c.word 0).toNat
      if actBlocked s s.maint.acts [3] then waitActivity [3] c h 0 s
      else (countStart [3] none s.index (setMaint (fun m => { m with acts := m.acts ++
        [{ codes := [3], cmd := c.id, key := h, waitFrom := s.index, clear := s.index, start := some s.index, length := 0, taken := [] }] }) s), .later) }

/-- MAINT_CANCEL (R535, R547). -/
def specMaintCancel : CmdSpec :=
  { opcode := 0x0F04, plen := plenIs 1, modes := notShadow, addr := fun _ => [unitNo 0xF 253],
    run := fun c _ s =>
      match s.maint.acts.find? fun a => !a.running && (match cmdById s a.cmd with
          | some d => d.tag == c.word 0 && sameSource d.src c.src && d.origin == c.origin
          | none => false) with
      | some a => (completeId a.cmd .busy [] s.index (endActivity (fun x => x.cmd == a.cmd) s), .done .ok [1])
      | none => (s, .done .ok [0]) }

/-- RUNNING, WAITING and PAUSED of MAINT_STATUS (R536, R548). -/
def maintMasks (s : State) : Nat :=
  let cal := runMode s == .calibrate
  let codes (l : List Activity) : List Nat := l.flatMap fun a => a.codes
  let running := (if !cal && locked s && !s.conv.hold then [0] else []) ++ (if tdcCalRuns s then [1] else []) ++ codes (s.maint.acts.filter fun a => a.running)
  let waiting := (if s.maint.deferred.isSome then [1] else []) ++ (if s.maint.scrubFrom.isSome then [2] else [])
    ++ codes (s.maint.acts.filter fun a => !a.running)
  maskOf running + maskOf waiting * 256 + (if cal then 3 * 65536 else 0)

/-- MAINT_STATUS (R548). -/
def specMaintStatus : CmdSpec :=
  { opcode := 0x0F05, plen := plenIs 1, addr := fun _ => [unitNo 0xF 255],
    run := fun c _ s =>
      let m := s.maint
      let zero : List Nat := List.replicate 7 0
      (if c.flag 0 8 then setMaint (fun m => { m with starts := zero, waits := zero, maxWait := zero }) s else s,
        .done .ok (BitVec.ofNat 32 (maintMasks s) :: BitVec.ofNat 32 (min 255 (m.acts.filter fun a => !a.running).length)
          :: (List.range 7).flatMap fun a => [BitVec.ofNat 32 (m.starts.getD a 0), BitVec.ofNat 32 (m.waits.getD a 0 + m.maxWait.getD a 0 * 65536)])) }

end Sys2Proof.Machine
end

