-- ==== Sys2Proof/Machine/Display.lean ====
section
/-! DEFINITION. The display composer and scan-out (R549-R579). -/

namespace Sys2Proof.Machine

def setDisp (f : DispUnit → DispUnit) (s : State) : State := { s with disp := f s.disp }

/-! ### Timing -/

/-- VB of R549. -/
def DispTiming.vb (t : DispTiming) : Nat := t.vtotal - t.vact

/-- The latch line of R560. -/
def DispTiming.latch (t : DispTiming) : Nat := t.vtotal - 1 - t.margin

/-- Bytes per pixel in the frame store (R550). -/
def DispTiming.pixelBytes (t : DispTiming) : Nat := if t.deep then 4 else 3

/-- HFP and VFP of R572. -/
def DispTiming.hfp (t : DispTiming) : Nat := t.htotal - t.hact - t.hsa - t.hbp

def DispTiming.vfp (t : DispTiming) : Nat := t.vtotal - t.vact - t.vsa - t.vbp

/-- `ns` nanoseconds are less than half of T_F (R565). -/
def DispTiming.early (t : DispTiming) (ns : Nat) : Bool := decide (2 * ns * t.pixHz < t.vtotal * t.htotal * 1000000000)

/-- The generator line (R549): outside RUN 0; else the pixel clock has no relation to the samples, and the line is a free value on the
known side of the latch line. Log entry 72 (DESIGN CHOICE, safe). -/
def genLine (s : State) : Nat × State :=
  let t := s.disp.timing
  if !s.disp.running then (0, s)
  else
    let (w, s1) := takeFree s
    (if s.disp.pastLatch then t.latch + w.toNat % (t.margin + 1) else w.toNat % max 1 t.latch, s1)

/-! ### Pixels (R553, R555-R558) -/

/-- A byte of layer data; `none` where its 64-bit word is uncorrectable (R552). -/
def layerByte (p : Partition) (o : Nat) : Option Byte := if p.poisoned.contains (o / 8 * 8) then none else some (readCell p.data o)

/-- A little-endian number of `n` bytes of layer data. -/
def layerNum (p : Partition) (o n : Nat) : Option Nat :=
  (List.range n).foldr (fun i acc => match acc, layerByte p (o + i) with
    | some a, some b => some (a * 256 + b.toNat)
    | _, _ => none) (some 0)

/-- A control word of a layer region; an uncorrectable one reads 0. -/
def layerWord (p : Partition) (o : Nat) : Nat := (layerNum p o 4).getD 0

/-- The cells that cover pixel `x` of `w`, out of `n` (R557). -/
def coverOf (reduce : Bool) (x w n : Nat) : List Nat :=
  if reduce then
    let a := x * n / max 1 w
    (List.range (max a ((x + 1) * n / max 1 w - 1) + 1 - a)).map (a + ·)
  else [(2 * x + 1) * n / max 1 (2 * w)]

/-- A density image (R281): where it lies, COLS and ROWS, and whether it lies inside the partition. The stride of the second image is that of
the density engine that writes the region. Log entry 74 (DEDUCED, unsafe). -/
def densityImage (s : State) (p : Partition) (l : DispLayer) : Nat × Nat × Nat × Bool :=
  let newest := layerWord p l.offset % 2
  let stride := match s.dens.find? fun d => d.cfg.layer == l.handle && d.cfg.layerOffset == l.offset with
    | some d => slotStride (2 * d.cfg.rows * d.cfg.cols)
    | none => slotStride (2 * layerWord p (l.offset + 64 + 52) * (layerWord p (l.offset + 64 + 56) % 2048))
  let o := l.offset + 64 + newest * stride
  let cols := layerWord p (o + 52)
  let rows := layerWord p (o + 56) % 2048
  (o, cols, rows, decide (o + slotStride (2 * rows * cols) ≤ p.au * 1048576))

/-- The palette index of a count (R557). -/
def densityIndex (l : DispLayer) (c : Nat) : Nat :=
  if l.logmap then (if c = 0 then 0 else min 255 (1 + Nat.log2 (c ^ 256) * l.scale / 65536)) else min 255 (c * l.scale / 65536)

/-- Bytes of a row of a spectrogram layer region. -/
def spgmRowBytes (p : Partition) (l : DispLayer) : Nat :=
  let n := layerWord p (l.offset + 8) % 2 ^ 17
  ceilDiv (n * (if layerWord p (l.offset + 12) % 2 = 1 then 1 else 2)) 64 * 64

/-- A device-rendered layer reads beyond its partition (R557, R558). -/
def renderFails (s : State) (l : DispLayer) : Bool :=
  match partByHandle s l.handle with
  | none => false
  | some p =>
    if l.format = 4 then !(densityImage s p l).2.2.2
    else l.format == 5 && decide (p.au * 1048576 < l.offset + 64 + l.lines * spgmRowBytes p l)

/-- The largest of the values at the offsets; `none` when a word is uncorrectable. -/
def largest (l : List (Option Int)) : Option Int :=
  l.foldl (fun acc v => match acc, v with
    | some a, some b => some (if a < b then b else a)
    | _, _ => none) (match l.head? with | some v => v | none => none)

/-- The palette index of a pixel of a DENSITY layer. -/
def densityPixel (s : State) (p : Partition) (l : DispLayer) (x y : Nat) : Option Nat :=
  let (o, cols, rows, fits) := densityImage s p l
  if !fits || cols = 0 || rows = 0 then some 0
  else
    let cells := (coverOf l.reduce (l.h - 1 - y) l.h rows).flatMap fun r => (coverOf l.reduce x l.w cols).map fun j =>
      (layerNum p (o + 64 + 2 * (r * cols + j)) 2).map (fun n => (n : Int))
    (largest cells).map fun c => densityIndex l c.toNat

/-- The palette index of a pixel of a SPECTROGRAM layer. -/
def spgmPixel (p : Partition) (l : DispLayer) (x y0 : Nat) : Option Nat :=
  let y := if l.dir then l.h - 1 - y0 else y0
  let n := layerWord p (l.offset + 8) % 2 ^ 17
  let log8 := layerWord p (l.offset + 12) % 2 = 1
  if n = 0 || decide (layerWord p (l.offset + 4) < y) || decide (l.lines ≤ y + 1)
      || decide (p.au * 1048576 < l.offset + 64 + l.lines * spgmRowBytes p l) then some 0
  else
    let row := (layerWord p l.offset + l.lines - y % l.lines) % l.lines
    let base := l.offset + 64 + row * spgmRowBytes p l
    let vals := (coverOf l.reduce x l.w n).map fun j =>
      if log8 then (layerNum p (base + j) 1).map fun v => (v : Int) else (layerNum p (base + 2 * j) 2).map fun v => signed 16 v
    (largest vals).map fun v =>
      if log8 then v.toNat else (max 0 (min 255 ((v - l.bottom) / (max 1 l.step : Nat)))).toNat

/-- A pixel as ARGB8888. -/
def argb (a r g b : Nat) : Nat := ((a * 256 + r) * 256 + g) * 256 + b

/-- Bytes per pixel of a buffer format (R553). -/
def formatBytes (f : Nat) : Nat := if f ≤ 1 then 4 else if f = 2 then 2 else 1

/-- The pixel of a layer at (x, y) of its rectangle, as ARGB8888 (R553, R556-R558); an uncorrectable word makes it transparent (R552). -/
def layerPixel (s : State) (l : DispLayer) (x y : Nat) : Nat :=
  let full (v : Nat) : Nat := if l.opaque_ then argb 255 0 0 0 + v % 2 ^ 24 else v
  let entry (i : Option Nat) : Nat := match i with
    | some i => full (sparseGet 0 l.palette i)
    | none => 0
  if l.format = 6 then full l.colour.toNat
  else match partByHandle s l.handle with
    | none => 0
    | some p =>
      if l.format = 4 then entry (densityPixel s p l x y)
      else if l.format = 5 then entry (spgmPixel p l x y)
      else match layerNum p (l.offset + y * l.pitch + x * formatBytes l.format) (formatBytes l.format) with
        | none => 0
        | some v =>
          match l.format with
          | 0 => full v
          | 1 => argb 255 0 0 0 + v % 2 ^ 24
          | 2 =>
            let r := v / 2 ^ 11 % 32
            let g := v / 2 ^ 5 % 64
            let b := v % 32
            argb 255 (r * 8 + r / 4) (g * 4 + g / 16) (b * 8 + b / 4)
          | _ => entry (some v)

/-- An 8-bit component in D bits (R555). -/
def component (deep : Bool) (c : Nat) : Nat := if deep then 4 * c + c / 64 else c

/-- Blend one component (R555). -/
def blend (a src dst : Nat) : Nat := (src * a + dst * (255 - a) + 127) / 255

/-- The layer at pixel (x, y) of the active area over what lies beneath. -/
def blendLayer (s : State) (deep : Bool) (l : DispLayer) (x y : Nat) (dst : Nat × Nat × Nat) : Nat × Nat × Nat :=
  if l.x ≤ x && x < l.x + l.w && l.y ≤ y && y < l.y + l.h then
    let v := layerPixel s l (x - l.x) (y - l.y)
    let a := (v / 2 ^ 24 * l.alpha + 127) / 255
    (blend a (component deep (v / 2 ^ 16 % 256)) dst.1, blend a (component deep (v / 2 ^ 8 % 256)) dst.2.1,
      blend a (component deep (v % 256)) dst.2.2)
  else dst

/-- A layer that hides everything beneath it (R556). -/
def hidesAll (k : DispLayer) : Bool :=
  (k.opaque_ || k.format == 1 || k.format == 2 || (k.format == 6 && decide (2 ^ 24 * 255 ≤ k.colour.toNat))) && k.alpha == 255

/-- A layer is skipped (R556). -/
def skipped (ls : List DispLayer) (l : DispLayer) : Bool :=
  ls.any fun k => k.en && decide (l.zpos < k.zpos) && hidesAll k && decide (k.x ≤ l.x) && decide (k.y ≤ l.y)
    && decide (l.x + l.w ≤ k.x + k.w) && decide (l.y + l.h ≤ k.y + k.h)

/-- The enabled layers that are composed, in ascending ZPOS (R555, R556). -/
def composedLayers (d : DispState) : List DispLayer :=
  (List.range 6).filterMap fun z => d.layers.find? fun l => l.en && l.zpos == z && !skipped d.layers l

/-- The bits of a number, least significant first. Log entry 73 (PRESUMED, unsafe). -/
def numBits (n v : Nat) : List Bool := (List.range n).map fun i => v.testBit i

/-- A line of pixels in link order (R563): R, G, B, least significant bit first, padded to whole bytes. Log entry 73 (PRESUMED, unsafe). -/
def lineOut (deep : Bool) (px : List (Nat × Nat × Nat)) : List Byte :=
  if deep then
    let bits := px.flatMap fun p => numBits 10 p.1 ++ numBits 10 p.2.1 ++ numBits 10 p.2.2
    bitsBytes ((bits.length + 7) / 8 * 8) bits
  else px.flatMap fun p => [BitVec.ofNat 8 p.1, BitVec.ofNat 8 p.2.1, BitVec.ofNat 8 p.2.2]

/-- The pixels of a whole frame composed from a layer state, line by line (R555). Log entry 71 (DEDUCED, unsafe). -/
def composePixels (s : State) (d : DispState) : List (Nat × Nat × Nat) :=
  let t := s.disp.timing
  let ls := composedLayers d
  let bg := (component t.deep (d.bg / 2 ^ 16 % 256), component t.deep (d.bg / 2 ^ 8 % 256), component t.deep (d.bg % 256))
  (List.range t.vact).flatMap fun y =>
    (List.range t.hact).map fun x => ls.foldl (fun dst l => blendLayer s t.deep l x y dst) bg

/-- The bytes of the active lines in link order (R563, R566). -/
def frameLines (t : DispTiming) (pixels : List (Nat × Nat × Nat)) : List (List Byte) :=
  (List.range t.vact).map fun y => lineOut t.deep ((pixels.drop (y * t.hact)).take t.hact)

/-- A component as scan-out sends it: zero where byte `o` of the frame store lies in an uncorrectable word (R552). -/
def storeComponent (bad : List Nat) (o c : Nat) : Nat := if bad.contains (o / 8) then 0 else c

/-- The pixels that scan-out reads from the frame store, 3 or 4 bytes for each (R550, R552). -/
def storedPixels (t : DispTiming) (bad : List Nat) (pixels : List (Nat × Nat × Nat)) : List (Nat × Nat × Nat) :=
  pixels.zipIdx.map fun x =>
    let o := x.2 * t.pixelBytes
    let step := if t.deep then 0 else 1
    (storeComponent bad o x.1.1, storeComponent bad (o + step) x.1.2.1, storeComponent bad (o + 2 * step) x.1.2.2)

/-- Line `n` of a frame period in video mode (R549, R564): VFP, VSA and VBP lines, and then the active lines. -/
def videoLine (t : DispTiming) (lines : List (List Byte)) (n : Nat) : VideoLine :=
  let start : LineStart :=
    if n = t.vfp then .vsync else if decide (t.vfp + t.vsa ≤ n) && decide (n < t.vb) then .lp11 else .hsync
  { start := start, hsa := t.hsa, hbp := t.hbp, pixels := if n < t.vb then [] else lines.getD (n - t.vb) [], hfp := t.hfp }

/-- What the link sends of a frame in its period (R564, R565). -/
def scanOut (t : DispTiming) (frame : Option Nat) (pixels : List (Nat × Nat × Nat)) : Output :=
  let lines := frameLines t pixels
  if t.video then .dsiVideo frame ((List.range t.vtotal).map (videoLine t lines))
  else .dsiTransfer frame (lines.zipIdx.map fun x => (if x.2 = 0 then .memoryStart else .memoryContinue, x.1))

/-- The uncorrectable words in the data of a layer (R552). -/
def layerUes (s : State) (l : DispLayer) : Nat :=
  match partByHandle s l.handle with
  | none => 0
  | some p =>
    let touches (o : Nat) : Bool :=
      if l.format = 6 then false
      else if l.format = 4 then
        let (i, cols, rows, fits) := densityImage s p l
        fits && decide (i < o + 8) && decide (o < i + 64 + 2 * rows * cols)
      else if l.format = 5 then
        !renderFails s l && decide (l.offset < o + 8) && decide (o < l.offset + 64 + l.lines * spgmRowBytes p l)
      else (List.range l.h).any fun y =>
        decide (l.offset + y * l.pitch < o + 8) && decide (o < l.offset + y * l.pitch + l.w * formatBytes l.format)
    (p.poisoned.filter touches).length

/-- Composition `n` runs (R550, R551): its whole effect at its start. Log entry 71 (DEDUCED, unsafe). -/
def compose (n : Nat) (s : State) : State :=
  let d := s.disp.fixed
  let skip := maskOf ((List.range 6).filter fun i => match d.layers[i]? with
    | some l => l.en && skipped d.layers l
    | none => false)
  let errors := ((composedLayers d).filter (renderFails s)).length
  let ues := ((composedLayers d).map (layerUes s)).sum
  setDisp (fun u => { u with
    current := d, composed := some { number := n, pixels := composePixels s d, skipped := skip }, skipMask := skip,
    renderErrors := satAdd 16 u.renderErrors errors, layerUe := satAdd 16 u.layerUe ues }) s

/-! ### References (R562) -/

/-- The partitions that the enabled layers of a state name. -/
def layerHandles (l : List DispLayer) : List Word := (l.filter fun x => x.en && x.format != 6).map fun x => x.handle

/-- References that no composition needs any more end. -/
def trimRefs (s : State) : State :=
  setDisp (fun u => { u with refs := u.refs.filter fun h =>
    (layerHandles u.latched.layers ++ layerHandles u.fixed.layers ++ layerHandles u.current.layers).contains h }) s

/-! ### Frame events -/

/-- A state that waits for the frame start takes effect (R573): every reference ends, and panel commands are refused. -/
def leaveRun (m : DispMode) (ids : List Nat) (s : State) : State :=
  let s1 := setDisp (fun u => { u with mode := m, running := false, leaving := none, refs := [], sending := false, compare := false, teReady := false, teLost := false, composed := none, shown := none, linkReset := none }) s
  let s2 := if m == .off then s1.disp.panel.foldl (fun a id => completeId id .mode [] a.index a) (setDisp (fun u => { u with panel := [], panelWait := none }) s1) else s1
  ids.foldl (fun a id => completeId id .ok [] a.index a) s2

/-- Above 1,500 Mb/s the link is calibrated for skew at each entry to RUN and after each link reset (R683). -/
def calibrateSkew (s : State) : State := if 1500 < s.disp.timing.laneMbps then emit .dsiSkewCal s else s

/-- A frame period begins, and the notice of R579 goes out; SCANOUT_END shows what it has sent. -/
def beginPeriod (k : Nat) (abandoned reset : Bool) (s : State) : State :=
  let t := s.disp.timing
  let s1 := setDisp (fun u => { u with fsIndex := k, pastLatch := false, sending := !reset, compare := !reset && u.shown.isSome, teReady := false }) s
  let s2 := if reset then calibrateSkew (emit .dsiHeld s1) else s1
  if s.disp.vblank then
    notify 0x1001 [BitVec.ofNat 32 s.disp.frame, BitVec.ofNat 32 ((if abandoned then 1 else 0) + (if s.disp.teLost && !t.video then 2 else 0))] k s2
  else s2

/-- The link reset of R567: lanes in LP-11 for this period. -/
def linkResetNow (x : DispCrc) (s : State) : State :=
  let w := [BitVec.ofNat 32 x.frame, x.computed, x.readback, 1]
  notify 0x1003 w x.at_ (bbWrite 0x10 0 0x1003 w s.index
    (setDisp (fun u => { u with linkReset := none, consec := 0, linkResets := satAdd 32 u.linkResets 1 }) s))

/-- DISP_FRAME_START (R549, R550, R560, R562, R567, R573). `complete`: the composition that ran has written its whole half.
Log entry 71 (DEDUCED, unsafe). -/
def evDispFrameStart (k : Nat) (complete : Bool) (errors : List MemError) (s0 : State) : State :=
  let s := bringErrors errors s0
  let u := s.disp
  if u.mode != .run || (!u.timing.video && (!(u.teReady || u.teLost) || u.sending || u.panelWait.isSome)) then s
  else match u.leaving with
    | some (m, ids) => leaveRun m ids s
    | none =>
      if !u.running then
        beginPeriod k false false (trimRefs (compose 0 (setDisp (fun u => { u with running := true, frame := 0, fixed := u.latched, shown := none }) s)))
      else
        let n := (u.frame + 1) % 2 ^ 32
        let s1 := if complete then setDisp (fun u => { u with shown := u.composed }) s
          else notify 0x1004 [BitVec.ofNat 32 u.frame] k (setDisp (fun u => { u with overruns := satAdd 32 u.overruns 1 }) s)
        let s2 := trimRefs (compose n (setDisp (fun u => { u with frame := n, fixed := if u.pastLatch then u.fixed else u.latched }) s1))
        match u.linkReset with
        | some x => beginPeriod k (!complete) true (linkResetNow x s2)
        | none => beginPeriod k (!complete) false s2

/-- DISP_LATCH_LINE (R560): the commits so far are fixed for the next composition. -/
def evDispLatchLine (s : State) : State :=
  if s.disp.running && !s.disp.pastLatch then setDisp (fun u => { u with pastLatch := true, fixed := u.latched }) s else s

/-- SCANOUT_END (R552, R564, R566, R567): the end of the last active line. What the period has sent leaves the device, with the uncorrectable words of
the frame store, store 4 of R641, as zeros, and the CRCs are compared. -/
def evScanoutEnd (k : Nat) (readback : Word) (errors : List MemError) (s : State) : State :=
  if !s.disp.running || !s.disp.sending then s
  else
    let t := s.disp.timing
    let bad := (errors.filter fun e => e.place == 260 && !e.corrected).map fun e => e.offset / 8
    let sent := match s.disp.shown with
      | some f => scanOut t (some f.number) (storedPixels t bad f.pixels)
      | none => scanOut t none (composePixels s { layers := [], bg := s.disp.current.bg })
    let s0 := emit sent (setDisp (fun u => { u with sending := false, compare := false, storeUe := satAdd 16 u.storeUe bad.length }) (bringErrors errors s))
    match s.disp.compare, s.disp.shown with
    | true, some f =>
      let crc := BitVec.ofNat 32 (crc32c (frameLines t f.pixels).flatten)
      if crc == readback && bad.isEmpty then setDisp (fun u => { u with consec := 0 }) s0
      else
        let first := s.disp.consec == 0
        let x : DispCrc := { frame := f.number, computed := crc, readback := readback, at_ := k }
        let s1 := setDisp (fun u => { u with
          crcMismatches := satAdd 32 u.crcMismatches 1, consec := satAdd 8 u.consec 1,
          linkReset := if u.timing.crcLimit != 0 && decide (u.timing.crcLimit ≤ u.consec + 1) then some x else u.linkReset }) s0
        if first then notify 0x1003 [BitVec.ofNat 32 f.number, crc, readback, 0] k s1 else s1
    | _, _ => s0

/-- TE_EDGE (R565): ignored, held or the next frame start. The edge comes `ns` after the previous frame start. Log entry 72 (DESIGN CHOICE, safe). -/
def evTeEdge (k ns : Nat) (s : State) : State :=
  let u := s.disp
  if u.mode != .run || u.timing.video then s
  else if u.running && u.timing.early ns then setDisp (fun u => { u with teIgnored := satAdd 16 u.teIgnored 1 }) s
  else
    let s1 := setDisp (fun u => { u with teReady := true, teLost := false }) s
    if u.teLost then notify 0x1002 [0, BitVec.ofNat 32 u.teIgnored] k s1 else s1

/-- TE_LOST_TIMEOUT (R565). -/
def evTeLostTimeout (k : Nat) (s : State) : State :=
  let u := s.disp
  if u.mode != .run || u.timing.video || u.teLost || u.teReady then s
  else notify 0x1002 [1, BitVec.ofNat 32 u.teIgnored] k (setDisp (fun u => { u with teLost := true, teLostEvents := satAdd 16 u.teLostEvents 1 }) s)

/-! ### Panel commands (R568, R577) -/

/-- The reply of DISP_PANEL_CMD. -/
def panelReply (errorReport noResp : Bool) (resp : List Byte) : List Word :=
  let b := resp.take 16
  BitVec.ofNat 32 (b.length + (if errorReport then 256 else 0) + (if noResp then 512 else 0))
    :: (List.range 4).map fun i => BitVec.ofNat 32 ((List.range 4).map fun j => (b.getD (4 * i + j) 0).toNat * 256 ^ j).sum

/-- The first panel command is over. Log entry 74 (DEDUCED, unsafe). -/
def endPanel (payload : List Word) (s : State) : State :=
  match s.disp.panel with
  | [] => s
  | id :: t => completeId id .ok payload s.index (setDisp (fun u => { u with panel := t, panelWait := none }) s)

/-- PANEL_CMD_SEND (R568): the packet goes out, and a response may be accepted. -/
def evPanelCmdSend (errorReport : Bool) (response : Option (List Byte)) (s : State) : State :=
  match s.disp.panel with
  | [] => s
  | id :: _ =>
    match s.disp.panelWait, cmdById s id with
    | none, some c =>
      let bytes := (bytesOfWords (c.params.drop 1)).take (c.arg 0 22 16)
      let s1 := emit (.dsiPacket (c.arg 0 5 0) bytes) s
      if !c.flag 0 24 then endPanel (panelReply false false []) s1
      else match response with
        | some r => endPanel (panelReply errorReport false r) s1
        | none => setDisp (fun u => { u with panelWait := some errorReport }) s1
    | _, _ => s

/-- PANEL_RESP_TIMEOUT (R568): no response within 100 µs. -/
def evPanelRespTimeout (s : State) : State := if s.disp.panelWait.isSome then endPanel (panelReply false true []) s else s

/-! ### Commands -/

def timingOf (c : Cmd) : DispTiming :=
  { video := c.flag 0 0, deep := c.flag 0 1, teFalling := c.flag 0 2, margin := c.arg 0 14 8, crcLimit := c.arg 0 23 16, hact := c.arg 1 11 0, htotal := c.arg 1 27 16, vact := c.arg 2 11 0, vtotal := c.arg 2 27 16, hsa := c.arg 3 9 0, hbp := c.arg 3 25 16, vsa := c.arg 4 9 0, vbp := c.arg 4 25 16, pixHz := (c.word 5).toNat, laneMbps := c.arg 6 11 0, teDelay := c.arg 6 31 16 }

/-- The checks of R572. -/
def timingOk (t : DispTiming) : Bool :=
  decide (1 ≤ t.margin) && decide (t.margin ≤ 64) && decide (64 ≤ t.hact) && decide (t.hact ≤ 2560)
    && decide (64 ≤ t.vact) && decide (t.vact ≤ 1600) && decide (1 ≤ t.hsa) && decide (1 ≤ t.hbp) && decide (1 ≤ t.vsa) && decide (1 ≤ t.vbp)
    && decide (25000000 ≤ t.pixHz) && decide (t.pixHz ≤ 300000000) && decide (80 ≤ t.laneMbps) && decide (t.laneMbps ≤ 2500)
    && decide (t.teDelay ≤ 10000) && decide (t.hact + t.hsa + t.hbp < t.htotal) && decide (t.vact + t.vsa + t.vbp < t.vtotal)
    && decide (t.hact * t.vact * t.pixelBytes ≤ 16777216) && decide (t.margin < t.vact)
    && decide (t.pixHz * (if t.deep then 30 else 24) * 10 ≤ 38 * t.laneMbps * 1000000)

/-- DISP_TIMING (R572): the achieved pixel clock lies within 10 ppm of PIX_HZ, a free value. Log entry 72 (DESIGN CHOICE, safe). -/
def specDispTiming : CmdSpec :=
  { opcode := 0x1000, plen := plenIs 7, addr := fun _ => [unitNo 0x10 255],
    params := fun _ c => timingOk (timingOf c),
    busy := fun s _ => s.disp.mode != .off,
    run := fun c _ s =>
      let t := timingOf c
      let moved := t.hact != s.disp.timing.hact || t.vact != s.disp.timing.vact
      let off (l : List DispLayer) : List DispLayer := l.map fun x => { x with en := false }
      let s1 := setDisp (fun u => { u with
        timing := t, pending := if moved then off u.pending else u.pending,
        latched := if moved then { u.latched with layers := off u.latched.layers } else u.latched }) s
      let (w, s2) := takeFree s1
      let tol := t.pixHz / 100000
      (s2, .done .ok [BitVec.ofNat 32 (t.pixHz - tol + w.toNat % (2 * tol + 1)),
        BitVec.ofNat 32 (roundDiv (t.vtotal * t.htotal * 1000000000 : Nat) t.pixHz).toNat]) }

/-- DISP_ENABLE (R573). Log entry 74 (DEDUCED, unsafe). -/
def specDispEnable : CmdSpec :=
  { opcode := 0x1001, plen := plenIs 1, addr := fun _ => [unitNo 0x10 255],
    params := fun _ c => c.arg 0 1 0 != 3,
    run := fun c _ s0 =>
      let s := setDisp (fun u => { u with vblank := c.flag 0 8 }) s0
      let m : DispMode := if c.arg 0 1 0 = 0 then .off else if c.arg 0 1 0 = 1 then .link else .run
      if s.disp.mode == m then (s, .done .ok [])
      else if s.disp.mode == .run then
        if s.disp.running then
          let ids := match s.disp.leaving with | some (_, l) => l | none => []
          (setDisp (fun u => { u with leaving := some (m, ids ++ [c.id]) }) s, .later)
        else (leaveRun m [] s, .done .ok [])
      else if m == .run then
        (calibrateSkew (setDisp (fun u => { u with mode := m, running := false, pastLatch := false, teReady := false, teLost := false, fsIndex := s.index }) s), .done .ok [])
      else (leaveRun m [] s, .done .ok []) }

/-- DISP_LAYER (R574): the pending state of one layer. -/
def specDispLayer : CmdSpec :=
  { opcode := 0x1002, plen := plenIs 10, addr := fun _ => [unitNo 0x10 255],
    params := fun _ c =>
      let f := c.arg 0 7 4
      decide (c.arg 0 2 0 ≤ 5) && decide (f ≤ 6) && decide (c.arg 0 10 8 ≤ 5)
        && decide (1 ≤ c.arg 2 11 0) && decide (c.arg 2 11 0 ≤ 2560) && decide (1 ≤ c.arg 2 27 16) && decide (c.arg 2 27 16 ≤ 1600)
        && (c.word 4).toNat % 64 == 0 && (decide (3 < f) || (c.word 5).toNat % 64 == 0)
        && (f != 5 || (decide (1 ≤ c.arg 8 27 16) && decide (c.arg 8 27 16 ≤ 2560) && decide (1 ≤ c.arg 9 11 0))),
    run := fun c _ s =>
      let put (l : DispLayer) : DispLayer :=
        { l with en := c.flag 0 3, format := c.arg 0 7 4, zpos := c.arg 0 10 8, opaque_ := c.flag 0 11, reduce := c.flag 0 12, logmap := c.flag 0 13, dir := c.flag 0 14, alpha := c.arg 0 23 16, x := c.arg 1 11 0, y := c.arg 1 27 16, w := c.arg 2 11 0, h := c.arg 2 27 16, handle := c.word 3, offset := (c.word 4).toNat, pitch := (c.word 5).toNat, colour := c.word 6, scale := (c.word 7).toNat, bottom := signed 16 (c.arg 8 15 0), step := c.arg 8 27 16, lines := c.arg 9 11 0 }
      (setDisp (fun u => { u with pending := modAt u.pending (c.arg 0 2 0) put }) s, .done .ok []) }

/-- DISP_PALETTE (R575). Log entry 74 (DEDUCED, unsafe). -/
def specDispPalette : CmdSpec :=
  { opcode := 0x1003, plen := fun c => decide (2 ≤ c.plen), addr := fun _ => [unitNo 0x10 255],
    params := fun _ c => decide (c.arg 0 2 0 ≤ 5) && decide (c.arg 0 15 8 + c.plen ≤ 257),
    run := fun c _ s =>
      let put (l : DispLayer) : DispLayer := { l with palette := (List.range (c.plen - 1)).foldl (fun t i => sparseSet 0 t (c.arg 0 15 8 + i) (c.word (1 + i)).toNat) l.palette }
      (setDisp (fun u => { u with pending := modAt u.pending (c.arg 0 2 0) put }) s, .done .ok []) }

/-- The latched layers that a commit would leave. Log entry 74 (DEDUCED, unsafe). -/
def committed (c : Cmd) (s : State) : List DispLayer :=
  s.disp.latched.layers.zipIdx.map fun x => if c.flag 0 x.2 then s.disp.pending.getD x.2 default else x.1

/-- An enabled layer passes the checks of R561. -/
def commitLayerOk (s : State) (l : DispLayer) : Bool :=
  let t := s.disp.timing
  !l.en || (decide (l.x + l.w ≤ t.hact) && decide (l.y + l.h ≤ t.vact)
    && (l.format == 6 || match bindable s l.handle 6 with
        | none => false
        | some p =>
          if l.format ≤ 3 then
            decide (l.w * formatBytes l.format ≤ l.pitch) && decide (l.offset + (l.h - 1) * l.pitch + l.w * formatBytes l.format ≤ p.au * 1048576)
          else decide (l.offset + 64 ≤ p.au * 1048576)))

/-- Enabled layers have distinct stacking positions (R553). -/
def distinctZ (ls : List DispLayer) : Bool := decide ((ls.filter fun l => l.en).map fun l => l.zpos).Nodup

/-- DISP_COMMIT (R560-R562, R576). -/
def specDispCommit : CmdSpec :=
  { opcode := 0x1004, plen := plenIs 2, addr := fun _ => [unitNo 0x10 255],
    params := fun s c =>
      (c.arg 0 5 0 != 0 || c.flag 0 8) && (maskBits 6 (c.arg 0 5 0)).all (fun i => commitLayerOk s (s.disp.pending.getD i default))
        && distinctZ (committed c s),
    run := fun c _ s =>
      let named := (maskBits 6 (c.arg 0 5 0)).map fun i => s.disp.pending.getD i default
      let s1 := setDisp (fun u => { u with
        latched := { layers := committed c s, bg := if c.flag 0 8 then c.arg 1 23 0 else u.latched.bg },
        refs := (u.refs ++ layerHandles named).dedup }) s
      let (line, s2) := genLine s1
      let u := s.disp
      let late := u.running && (u.pastLatch || decide (line < u.timing.vb))
      let frame := if !u.running then 0 else (u.frame + (if u.pastLatch then 2 else 1)) % 2 ^ 32
      (if late then setDisp (fun u => { u with lateCommits := satAdd 32 u.lateCommits 1 }) s2 else s2,
        .done .ok [flagWord late, BitVec.ofNat 32 frame, BitVec.ofNat 32 line]) }

/-- A short DSI packet: every data type but those of long packets, whose low four bits are 9 to 14. -/
def shortPacket (dataType : Nat) : Bool := decide (dataType % 16 < 9) || decide (14 < dataType % 16)

/-- The VBP lines last at least 250 µs (R568). -/
def vbpFits (t : DispTiming) : Bool := decide (250 * t.pixHz ≤ t.vbp * t.htotal * 1000000)

/-- DISP_PANEL_CMD (R568, R577). -/
def specDispPanelCmd : CmdSpec :=
  { opcode := 0x1005, plen := fun c => decide (1 ≤ c.plen) && decide (c.plen ≤ 17), addr := fun _ => [unitNo 0x10 255],
    params := fun _ c => decide (c.arg 0 22 16 ≤ 64) && (!shortPacket (c.arg 0 5 0) || decide (c.arg 0 22 16 ≤ 2))
      && c.plen == 1 + ceilDiv (c.arg 0 22 16) 4,
    refuse := fun s _ =>
      if s.disp.mode == .off then some .mode
      else if s.disp.mode == .run && s.disp.timing.video && !vbpFits s.disp.timing then some .busy
      else none,
    run := fun c _ s => (setDisp (fun u => { u with panel := u.panel ++ [c.id] }) s, .later) }

/-- DISP_STATUS (R578). -/
def specDispStatus : CmdSpec :=
  { opcode := 0x1006, plen := plenIs 1, addr := fun _ => [unitNo 0x10 255],
    run := fun c _ s =>
      let (line, s1) := genLine s
      let u := s.disp
      let mode := match u.mode with | .off => 0 | .link => 1 | .run => 2
      (if c.flag 0 8 then
          setDisp (fun u => { u with crcMismatches := 0, linkResets := 0, overruns := 0, lateCommits := 0, teIgnored := 0, teLostEvents := 0, renderErrors := 0, storeUe := 0, layerUe := 0 }) s1
        else s1,
        .done .ok ([BitVec.ofNat 32 (mode + (if u.timing.video then 4 else 0) + (if u.teLost then 8 else 0) + u.consec * 256),
            BitVec.ofNat 32 u.frame, BitVec.ofNat 32 line] ++ u64Words u.fsIndex
          ++ [BitVec.ofNat 32 u.crcMismatches, BitVec.ofNat 32 u.linkResets, BitVec.ofNat 32 u.overruns, BitVec.ofNat 32 u.lateCommits,
              BitVec.ofNat 32 (u.teIgnored + u.teLostEvents * 65536), BitVec.ofNat 32 (u.skipMask + u.renderErrors * 65536),
              BitVec.ofNat 32 (u.storeUe + u.layerUe * 65536)])) }

end Sys2Proof.Machine
end

