-- ==== Sys2Proof/Machine/Spectrum.lean ====
section
/-! DEFINITION. The commands of the spectrum engines (R241-R268). SPECTRUM_DONE is in SpectrumDone.lean, after its
consumers. -/

namespace Sys2Proof.Machine

/-- Every WBUF region in force or pending (R243, R743), with its engine. -/
def wbufRegions (s : State) : List (Nat × WbufRegion) :=
  (s.engines.zipIdx.filterMap fun x => x.1.wbuf.map fun r => (x.2, r)) ++ (heldOf s 0x0500).flatMap wbufRegionsOf

/-- Every engine a command names is on the variant (R3). -/
def enginesPresent (s : State) (m : Nat) : Bool := (maskBits 8 m).all s.variant.hasEngine

/-- The bins, lengths and columns of R246, R252 and R264, apart from windows, rate and WBUF. -/
def engineFieldsOk (e : Nat) (c : EngineConfig) : Bool :=
  (decide (e < 4) || c.tuner) && decide (8 ≤ c.log2n) && decide (c.log2n ≤ (if e < 4 then 20 else 18))
    && (decide (c.window ≤ 5) || c.window == 8 || c.window == 9)
    && decide (1 ≤ c.binCount) && decide (c.binStart + c.binCount ≤ c.m)
    && decide (1 ≤ c.d) && decide (c.d ≤ 4096) && c.binCount % c.d == 0 && decide (c.cols ≤ 65536)

/-- The tests of R264 for one engine against its banks, its input rate and the WBUF regions. -/
def engineConfigOk (s : State) (c : Cmd) (e : Nat) : Bool :=
  let g := engineConfigOf c
  (decide (g.window < 8) || (userBank (engineOf s e) (g.window == 9)).ready)
    && (futures s (willTakeEffect c s)).all (fun t => capacityOk (fsOf t.time) e g (t.tuners.getD (engineTuner e) default).decim)
    && (wbufRegionsOf c).all (fun x => x.1 != e || (match bindable s x.2.handle 2 with
        | some p => decide (x.2.offset + x.2.au ≤ p.au)
            && (wbufRegions s).all (fun y => y.1 == e || !rangesMeet x.2.handle x.2.offset x.2.au y.2.handle y.2.offset y.2.au)
        | none => false))

/-- KEY_OFFSET of an engine configuration with 32 fractional bits (R255). Log entry 46 (DESIGN CHOICE, safe). -/
def keyOffset (s : State) (e : Nat) (c : EngineConfig) : Nat :=
  if c.tuner then c.n / 2 * (s.tuners.getD (engineTuner e) default).decim else c.n / 2 * 2 ^ 32

/-- SPEC_CONFIG (R264). -/
def specSpecConfig : CmdSpec :=
  { opcode := 0x0500, plen := plenIs 7, timed := fun _ => .sampleDomain, modes := notShadow,
    addr := fun c => (maskBits 8 (c.arg 0 7 0)).map (unitNo 5),
    params := fun _ c => at32 c && c.arg 0 7 0 != 0 && (maskBits 8 (c.arg 0 7 0)).all fun e => engineFieldsOk e (engineConfigOf c),
    units := fun s c => enginesPresent s (c.arg 0 7 0),
    fits := fun s c => (maskBits 8 (c.arg 0 7 0)).all (engineConfigOk s c),
    lead := lead1us,
    run := fun c e s =>
      let g := engineConfigOf c
      let es := maskBits 8 (c.arg 0 7 0)
      (es.foldl (fun a i => regrid i e (fun x =>
          { x with cfg := g, wbuf := ((wbufRegionsOf c).find? fun y => y.1 == i).map fun y => y.2, overrate := false, bindingLost := false }) a) s,
        .done .ok ([BitVec.ofNat 32 g.cols, BitVec.ofNat 32 (wbufAu g)] ++ u64Words (keyOffset s (es.headD 0) g) ++ u64Words e)) }

/-- SPEC_ENABLE (R265). -/
def specSpecEnable : CmdSpec :=
  { opcode := 0x0501, plen := plenIs 1, timed := fun _ => .sampleDomain,
    modes := fun m c => m != .shadow && !(c.flag 0 8 && m == .quiet),
    addr := fun c => (maskBits 8 (c.arg 0 7 0)).map (unitNo 5),
    params := fun _ c => at32 c && c.arg 0 7 0 != 0,
    units := fun s c => enginesPresent s (c.arg 0 7 0),
    lead := lead1us,
    run := fun c e s =>
      ((maskBits 8 (c.arg 0 7 0)).foldl (fun a i =>
        if (engineOf a i).enabled == c.flag 0 8 then a else regrid i e (fun x => { x with enabled := c.flag 0 8 }) a) s, .done .ok []) }

/-- SPEC_OUTPUT (R260, R266): the settings apply from the first group whose first frame's key index is the effective index or
later. FORMAT 3 is reserved (R249). -/
def specSpecOutput : CmdSpec :=
  { opcode := 0x0502, plen := plenIs 2, timed := fun _ => .sampleDomain, modes := notShadow,
    addr := fun c => (maskBits 8 (c.arg 0 7 0)).map (unitNo 5),
    params := fun _ c =>
      let o := productOutputOf c
      at32 c && c.arg 0 7 0 != 0 && decide (1 ≤ o.decim) && decide (o.decim ≤ 65536) && o.format != 3
        && (o.format != 2 || (o.bins && o.detect == 0)),
    units := fun s c => enginesPresent s (c.arg 0 7 0),
    lead := lead1us,
    run := fun c e s =>
      ((maskBits 8 (c.arg 0 7 0)).foldl (fun a i =>
        setEngine i (fun x => { x with nextOut := x.nextOut ++ [(e, productOutputOf c)] }) a) s, .done .ok []) }

/-- The coefficients in a SPEC_WINDOW_LOAD (R267): index and value; the high half beside T[4,096] is reserved. -/
def windowEntries (c : Cmd) : List (Nat × Nat) :=
  (List.range (2 * (c.plen - 2))).filterMap fun i =>
    let j := c.arg 1 12 0 + i
    if j ≤ 4096 then some (j, c.arg (2 + i / 2) (16 * (i % 2) + 15) (16 * (i % 2))) else none

/-- The table of a user bank after a load; T[j] is 32,768 where nothing is listed. -/
def loadedTable (c : Cmd) (b : UserBank) : List (Nat × Nat) :=
  (windowEntries c).foldl (fun t x => sparseSet 32768 t x.1 x.2) b.table

/-- The sum over the 8,192 window codes of a function of T (R245): T[0] and T[4,096] occur once, the others twice. -/
def windowSum (f : Nat → Nat) (t : List (Nat × Nat)) : Nat :=
  let m : Nat → Nat := fun j => if j = 0 || j = 4096 then 1 else 2
  8192 * f 32768 + (t.map fun x => m x.1 * f x.2).sum - (t.map fun x => m x.1 * f 32768).sum

/-- CG and ENBW at N = 8,192 in units of 2^-16 (R244, R267), to the nearest unit. Log entry 38 (DEDUCED, unsafe). -/
def windowGain (t : List (Nat × Nat)) : Nat × Nat :=
  let s1 := windowSum id t
  let s2 := windowSum (fun v => v * v) t
  ((2 * (2 * s1) + 8192) / (2 * 8192), (2 * (8192 * s2 * 65536) + s1 * s1) / (2 * (s1 * s1)))

/-- A table of zeros (R245). -/
def windowZero (t : List (Nat × Nat)) : Bool := t.length == 4097 && t.all fun x => x.2 == 0

/-- SPEC_WINDOW_LOAD (R245, R267). -/
def specSpecWindowLoad : CmdSpec :=
  { opcode := 0x0503, plen := fun c => decide (3 ≤ c.plen) && decide (c.plen ≤ 242), modes := notShadow,
    addr := fun c => [unitNo 5 (c.arg 0 2 0)],
    params := fun _ c =>
      let o := c.arg 1 12 0
      o % 2 == 0 && decide (o ≤ 4096) && decide (o + 2 * (c.plen - 2) ≤ 4098),
    units := fun s c => s.variant.hasEngine (c.arg 0 2 0),
    fits := fun s c => !(c.flag 0 16 && windowZero (loadedTable c (userBank (engineOf s (c.arg 0 2 0)) (c.flag 0 8)))),
    busy := fun s c =>
      let w := if c.flag 0 8 then 9 else 8
      (engineOf s (c.arg 0 2 0)).cfg.window == w
        || (heldOf s 0x0500).any (fun d => (d.arg 0 7 0).testBit (c.arg 0 2 0) && d.arg 0 15 12 == w),
    run := fun c _ s =>
      let e := c.arg 0 2 0
      let t := loadedTable c (userBank (engineOf s e) (c.flag 0 8))
      let b : UserBank := { table := t, ready := c.flag 0 16 }
      let g := if c.flag 0 16 then windowGain t else (0, 0)
      (setEngine e (fun x => if c.flag 0 8 then { x with bank1 := b } else { x with bank0 := b }) s,
        .done .ok [BitVec.ofNat 32 g.1, BitVec.ofNat 32 g.2, flagWord (c.flag 0 16)]) }

/-- SPEC_STATUS (R268). Log entry 46 (DESIGN CHOICE, safe). -/
def specSpecStatus : CmdSpec :=
  { opcode := 0x0504, plen := plenIs 1, addr := fun c => [unitNo 5 (c.arg 0 2 0)],
    units := fun s c => s.variant.hasEngine (c.arg 0 2 0),
    run := fun c _ s =>
      let e := c.arg 0 2 0
      let g := engineOf s e
      (if c.flag 0 8 then setEngine e (fun x => { x with spectra := 0, invalidSpectra := 0, prodRecords := 0 }) s else s,
        .done .ok ([BitVec.ofNat 32 ((if g.enabled then 1 else 0) + (if engineRunning s e then 2 else 0) + (if g.cfg.tuner then 4 else 0)
            + (if g.overrate then 8 else 0) + (if g.bank0.ready then 16 else 0) + (if g.bank1.ready then 32 else 0)
            + (if g.bindingLost then 64 else 0) + g.cfg.window * 256 + g.cfg.log2n * 4096), BitVec.ofNat 32 g.cfg.hop]
          ++ u64Words (g.anchor.getD 0) ++ [lo32 g.frame, BitVec.ofNat 32 g.spectra, BitVec.ofNat 32 g.invalidSpectra,
            BitVec.ofNat 32 g.prodRecords, (g.wbuf.map fun r => r.handle).getD 0])) }

end Sys2Proof.Machine
end

