-- ==== Sys2Proof/Machine/Density.lean ====
section
/-! DEFINITION. The density engines and the spectrogram generator (R269-R297). -/

namespace Sys2Proof.Machine

/-! ### Regions (R278, R289, R292) -/

def densStride (d : DensityConfig) : Nat := slotStride (2 * d.rows * d.cols)

def lineEntryBytes (c : SpgmConfig) : Nat := if c.log8 then 1 else 2

/-- The regions of a density configuration: handle, offset, bytes. Handle 0 binds none. -/
def densRegions (d : DensityConfig) : List (Word × Nat × Nat) :=
  (if d.ring = 0 then [] else [(d.ring, d.ringOffset, d.nslots * densStride d)])
    ++ (if d.layer = 0 then [] else [(d.layer, d.layerOffset, 64 + 2 * densStride d)])

/-- The regions of a spectrogram configuration with `n` line columns. -/
def spgmRegions (c : SpgmConfig) (n : Nat) : List (Word × Nat × Nat) :=
  (if c.ring = 0 then [] else [(c.ring, c.ringOffset, c.nslots * slotStride (n * lineEntryBytes c))])
    ++ (if c.layer = 0 then [] else [(c.layer, c.layerOffset, 64 + c.layerLines * (ceilDiv (n * lineEntryBytes c) 64 * 64))])

/-- The regions of this group that configurations in a state bind, with their units: 0-3 density engines, 8-15 instances. -/
def boundRegions (s : State) : List (Nat × Word × Nat × Nat) :=
  s.dens.zipIdx.flatMap (fun x => (densRegions x.1.cfg).map fun r => (x.2, r))
    ++ s.spgm.zipIdx.flatMap (fun x => (spgmRegions x.1.cfg (lineColumns s x.1.cfg)).map fun r => (8 + x.2, r))

/-- Every region of this group in force or pending (R292, R743), with its unit. -/
def densityGroupRegions (s : State) : List (Nat × Word × Nat × Nat) :=
  boundRegions s ++ boundRegions (afterLate s)
    ++ (heldOf s 0x0600).flatMap (fun c => (densRegions (densityConfigOf c)).map fun r => (c.arg 0 1 0, r))
    ++ (heldOf s 0x0604).flatMap (fun c => (spgmRegions (spgmConfigOf c) (lineColumns s (spgmConfigOf c))).map fun r => (8 + c.arg 0 2 0, r))

/-- A region passes R292: role 5 for a ring and 6 for a layer, inside its partition, offset a multiple of 64, apart from the
regions of other units. -/
def densityRegionOk (s : State) (unit role : Nat) (r : Word × Nat × Nat) : Bool :=
  (match bindable s r.1 role with
    | some p => decide (r.2.1 + r.2.2 ≤ p.au * 1048576)
    | none => false)
  && r.2.1 % 64 == 0
  && (densityGroupRegions s).all (fun x => x.1 == unit || !rangesMeet r.1 r.2.1 r.2.2 x.2.1 x.2.2.1 x.2.2.2)

/-- The regions of a configuration all pass: the ring has role 5, the layer role 6. Log entry 44 (DEDUCED, unsafe). -/
def densityRegionsOk (s : State) (unit : Nat) (layer : Word) (rs : List (Word × Nat × Nat)) : Bool :=
  rs.all fun r => densityRegionOk s unit (if layer != 0 && r == rs.getLastD r then 6 else 5) r

/-! ### Density commands -/

/-- The fields of a DENS_CONFIG are in range (R269, R292). Log entry 44 (DEDUCED, unsafe). -/
def densFieldsOk (d : DensityConfig) : Bool :=
  d.persist != 3 && decide (10 ≤ d.decayLog2) && decide (d.decayLog2 ≤ 30) && decide (1 ≤ d.decayShift)
    && decide (16 ≤ d.rows) && decide (d.rows ≤ 1024) && decide (1 ≤ d.cols) && decide (d.cols ≤ 65536)
    && decide (d.rows * d.cols ≤ 1048576) && decide (1 ≤ d.step) && decide (d.step ≤ 2560) && decide (64000 ≤ d.frameSc)
    && (d.ring == 0 || (decide (1 ≤ d.nslots) && decide (d.nslots ≤ 64)))

/-- DENS_CONFIG (R292). Log entry 43 (DEDUCED, unsafe). -/
def specDensConfig : CmdSpec :=
  { opcode := 0x0600, plen := plenIs 9, timed := fun _ => .sampleDomain, modes := notShadow,
    addr := fun c => [unitNo 6 (c.arg 0 1 0)],
    params := fun _ c => at32 c && densFieldsOk (densityConfigOf c),
    units := fun s c => decide (c.arg 0 1 0 < s.variant.channels),
    fits := fun s c =>
      let d := densityConfigOf c
      let u := c.arg 0 1 0
      (futures s (willTakeEffect c s)).all (fun t => (engineOf t (if d.zoom then u + 4 else u)).cfg.cols == d.cols)
        && densityRegionsOk s u d.layer (densRegions d),
    lead := lead1us,
    run := fun c e s =>
      let d := densityConfigOf c
      (densAct (c.arg 0 1 0) e (.config d) s,
        .done .ok ([BitVec.ofNat 32 (densStride d), BitVec.ofNat 32 (if d.layer = 0 then 0 else 64 + 2 * densStride d)] ++ u64Words e)) }

/-- A unit has a ring or a layer at the effective index of a command (R291). -/
def densBound (s : State) (c : Cmd) (u : Nat) : Bool :=
  match (futures (afterLate s) (willTakeEffect c s)).head? with
  | some t => (densOf t u).cfg.ring != 0 || (densOf t u).cfg.layer != 0
  | none => false

/-- DENS_ENABLE (R293, R283, R291). -/
def specDensEnable : CmdSpec :=
  { opcode := 0x0601, plen := plenIs 1, timed := fun _ => .sampleDomain,
    modes := fun m c => m != .shadow && !(c.flag 0 8 && m == .quiet),
    addr := fun c => (maskBits 4 (c.arg 0 3 0)).map (unitNo 6),
    params := fun _ c => at32 c && c.arg 0 3 0 != 0,
    units := fun s c => s.variant.hasChannels (c.arg 0 3 0),
    fits := fun s c => !c.flag 0 8 || (maskBits 4 (c.arg 0 3 0)).all (densBound s c),
    lead := lead1us,
    run := fun c e s =>
      ((maskBits 4 (c.arg 0 3 0)).foldl (fun a u =>
        if (densOf (afterLate a) u).enabled == c.flag 0 8 then a else densAct u e (if c.flag 0 8 then .start else .stop) a) s, .done .ok []) }

/-- DENS_CLEAR (R276). -/
def specDensClear : CmdSpec :=
  { opcode := 0x0602, plen := plenIs 1, timed := fun _ => .sampleDomain, modes := notShadow,
    addr := fun c => (maskBits 4 (c.arg 0 3 0)).map (unitNo 6),
    params := fun _ c => at32 c && c.arg 0 3 0 != 0,
    units := fun s c => s.variant.hasChannels (c.arg 0 3 0),
    lead := lead1us,
    run := fun c e s => ((maskBits 4 (c.arg 0 3 0)).foldl (fun a u => densAct u e .clear a) s, .done .ok []) }

/-- DENS_STATUS (R294). -/
def specDensStatus : CmdSpec :=
  { opcode := 0x0603, plen := plenIs 1, addr := fun c => [unitNo 6 (c.arg 0 1 0)],
    units := fun s c => decide (c.arg 0 1 0 < s.variant.channels),
    run := fun c _ s =>
      let u := c.arg 0 1 0
      let d := densOf (afterLate s) u
      let n := densOf s u
      (if c.flag 0 8 then setDens u (fun d => { d with frames := 0, exportLost := 0, layerSkipped := 0 }) s else s,
        .done .ok ([BitVec.ofNat 32 ((if d.enabled then 1 else 0) + (if d.enabled && modeRunsProducts (runMode s) then 2 else 0) + (if d.mismatch then 4 else 0))]
          ++ u64Words (d.anchor.getD 0) ++ [lo32 d.seq, BitVec.ofNat 32 n.frames, BitVec.ofNat 32 n.exportLost, BitVec.ofNat 32 n.layerSkipped])) }

/-! ### Spectrogram commands -/

/-- The line rates and columns of the enabled instances of a configuration state, with instance `i` as given (R287). -/
def lineSums (s : State) (i : Nat) (on : Bool) (c : SpgmConfig) : List (Rat × Nat) :=
  s.spgm.zipIdx.filterMap fun x =>
    let cfg := if x.2 == i then c else x.1.cfg
    if (if x.2 == i then on else x.1.enabled) then some (lineRate s cfg, lineColumns s cfg) else none

/-- SPGM_CONFIG (R295). Log entries 42 (DEDUCED, unsafe), 44 (DEDUCED, unsafe). -/
def specSpgmConfig : CmdSpec :=
  { opcode := 0x0604, plen := plenIs 9, timed := fun _ => .sampleDomain, modes := notShadow,
    addr := fun c => [unitNo 6 (8 + c.arg 0 2 0)],
    params := fun _ c =>
      let g := spgmConfigOf c
      at32 c && decide (1 ≤ g.colMerge) && decide (g.colMerge ≤ 4096) && decide (1 ≤ g.lineSpectra) && decide (g.lineSpectra ≤ 65536)
        && (!g.log8 || (decide (1 ≤ g.step) && decide (g.step ≤ 2560)))
        && (g.ring == 0 || (decide (1 ≤ g.nslots) && decide (g.nslots ≤ 65536))) && (g.layer == 0 || decide (1 ≤ g.layerLines)),
    units := fun s c => s.variant.hasEngine (c.arg 0 5 3),
    fits := fun s c =>
      let g := spgmConfigOf c
      let i := c.arg 0 2 0
      (futures (afterLate s) (willTakeEffect c s)).all (fun t => (engineOf t g.engine).cfg.cols % g.colMerge == 0
            && rateSumsOk (lineSums t i (spgmOf t i).enabled g))
        && (futures s (willTakeEffect c s)).all (fun t => densityRegionsOk s (8 + i) g.layer (spgmRegions g (lineColumns t g))),
    lead := lead1us,
    run := fun c e s =>
      let i := c.arg 0 2 0
      let g := spgmConfigOf c
      (spgmAct i e (.config g) s,
        .done .ok ([BitVec.ofNat 32 (lineColumns s g), BitVec.ofNat 32 (slotStride (lineColumns s g * lineEntryBytes g))]
          ++ u64Words (lineRate s g * 4294967296).floor.toNat)) }

/-- A start keeps R287 and R291 in every state that will be in force. -/
def spgmStartOk (s : State) (c : Cmd) : Bool :=
  let m := c.arg 0 7 0
  let fs := futures (afterLate s) (willTakeEffect c s)
  (match fs.head? with
    | some t => (maskBits 8 m).all fun i => (spgmOf t i).cfg.ring != 0 || (spgmOf t i).cfg.layer != 0
    | none => false)
  && fs.all (fun t => rateSumsOk (t.spgm.zipIdx.filterMap fun x =>
      if x.1.enabled || m.testBit x.2 then some (lineRate t x.1.cfg, lineColumns t x.1.cfg) else none))

/-- SPGM_ENABLE (R296). -/
def specSpgmEnable : CmdSpec :=
  { opcode := 0x0605, plen := plenIs 1, timed := fun _ => .sampleDomain,
    modes := fun m c => m != .shadow && !(c.flag 0 8 && m == .quiet),
    addr := fun c => (maskBits 8 (c.arg 0 7 0)).map (fun i => unitNo 6 (8 + i)),
    params := fun _ c => at32 c && c.arg 0 7 0 != 0,
    units := fun s c => (maskBits 8 (c.arg 0 7 0)).all fun i => s.variant.hasEngine (spgmOf (afterLate s) i).cfg.engine,
    fits := fun s c => !c.flag 0 8 || spgmStartOk s c,
    lead := lead1us,
    run := fun c e s =>
      ((maskBits 8 (c.arg 0 7 0)).foldl (fun a i =>
        if (spgmOf (afterLate a) i).enabled == c.flag 0 8 then a else spgmAct i e (.enable (c.flag 0 8)) a) s, .done .ok []) }

/-- SPGM_STATUS (R297). -/
def specSpgmStatus : CmdSpec :=
  { opcode := 0x0606, plen := plenIs 1, addr := fun c => [unitNo 6 (8 + c.arg 0 2 0)],
    units := fun s c => s.variant.hasEngine (spgmOf (afterLate s) (c.arg 0 2 0)).cfg.engine,
    run := fun c _ s =>
      let i := c.arg 0 2 0
      let v := afterLate s
      let u := spgmOf v i
      let n := spgmOf s i
      let total : Rat := ((v.spgm.filter fun u => u.enabled).map fun u => lineRate s u.cfg).sum
      (if c.flag 0 8 then setSpgm i (fun u => { u with lines := 0, invalidLines := 0, linesLost := 0 }) s else s,
        .done .ok [BitVec.ofNat 32 ((if u.enabled then 1 else 0) + (if spgmRunning v i then 2 else 0) + (if u.overrate then 4 else 0)),
          lo32 u.line, BitVec.ofNat 32 n.lines, BitVec.ofNat 32 n.invalidLines, BitVec.ofNat 32 n.linesLost,
          BitVec.ofNat 32 total.floor.toNat]) }

end Sys2Proof.Machine
end

