-- ==== Sys2Proof/Machine/SpectrumDone.lean ====
section
/-! DEFINITION. SPECTRUM_DONE (R253): an engine completes a spectrum. -/

namespace Sys2Proof.Machine

/-- SPECTRUM_DONE (R253): the engine completes the spectrum of its next frame, once the frame has been sampled and no accepted command can still end
the grid inside it (R256). Log entry 41 (DESIGN CHOICE, unsafe). -/
def evSpectrumDone (e : Nat) (volts : List Volts) (linesLost : List Nat) (thDrop : Bool) (errors : List MemError) (s0 : State) : State :=
  let s := bringErrors errors (bringVolts volts s0)
  if engineRunning s e && locked s && decide (frameEnd s e (engineOf s e).frame < heldBefore s) then completeSpectrum e linesLost thDrop s else s

end Sys2Proof.Machine
end

