-- ==== Sys2Proof/Machine/Pool.lean ====
section
/-! DEFINITION. The shared pool (R92-R116): references, the commands of the Memory group, deferred frees, and transfers with host
memory. -/

namespace Sys2Proof.Machine

def setPool (f : Pool → Pool) (s : State) : State := { s with pool := f s.pool }

/-! ### References (R99, R100) -/

/-- One for a true condition. -/
def oneIf (b : Bool) : Nat := if b then 1 else 0

/-- A sheaf stands on its partition: ARMED, or with a segment not yet copied. -/
def Sheaf.holds (sh : Sheaf) : Bool := sh.configured && (sh.armed || sh.seg.isSome || !sh.closing.isEmpty)

/-- The region of a PKIND 8 context that is still to be read. Log entry 30 (DEDUCED, unsafe). -/
def regionItems (x : StreamCtx) (h : Word) : Nat :=
  (x.items.filter fun i => match i.source with
    | .region r _ _ => r == h
    | _ => false).length

/-- The references to the partition with handle `h` (R99, R100). Log entry 30 (DEDUCED, unsafe). -/
def refsOf (s : State) (h : Word) : Nat :=
  (s.engines.map fun g => oneIf ((g.wbuf.map fun w => w.handle) == some h)).sum
    + (s.dens.map fun d => oneIf (d.cfg.ring == h) + oneIf (d.cfg.layer == h)).sum
    + (s.spgm.map fun d => oneIf (d.cfg.ring == h) + oneIf (d.cfg.layer == h)).sum
    + (s.cap.rings.map fun r => oneIf (r.handle == h)).sum
    + (s.cap.sheaves.map fun sh => oneIf (sh.cfg.handle == h && sh.holds)).sum
    + oneIf (s.intg.cfg.handle == h) + (s.th.map fun t => oneIf (t.cfg.handle == h)).sum
    + (s.strm.ctxs.map fun x => oneIf (x.cfg.ring == h) + regionItems x h).sum
    + (s.packers.map fun p => (p.jobs.map fun j => oneIf (j.inHandle == h) + oneIf (j.outHandle == h)).sum).sum
    + oneIf (s.mq.handle == h) + (s.disp.refs.map fun r => oneIf (r == h)).sum
    + (s.pool.transfers.map fun t => oneIf (((partAt s t.slot).map fun p => p.handle) == some h)).sum

/-- A running unit writes the partition with handle `h` (R116): in QUIET neither a sheaf nor a context runs (R38), but for what it has still to finish. -/
def writtenBy (s : State) (h : Word) : Bool :=
  (List.range s.engines.length).any (fun e => ((engineOf s e).wbuf.map fun w => w.handle) == some h && engineRunning s e)
    || (List.range s.dens.length).any (fun c => ((densOf s c).cfg.ring == h || (densOf s c).cfg.layer == h) && densRunning s c)
    || (List.range s.spgm.length).any (fun i => ((spgmOf s i).cfg.ring == h || (spgmOf s i).cfg.layer == h) && spgmRunning s i)
    || s.cap.rings.any (fun r => r.handle == h && r.run.isSome)
    || s.cap.sheaves.any (fun sh => sh.cfg.handle == h && sh.holds && (runMode s != .quiet || sh.seg.isSome || !sh.closing.isEmpty))
    || (s.intg.cfg.handle == h && intRunning s)
    || (List.range s.th.length).any (fun c => (s.th.getD c default).cfg.handle == h && thRunning s c)
    || s.strm.ctxs.any (fun x => x.cfg.ring == h && x.started && (runMode s != .quiet || !x.pieces.isEmpty))
    || s.packers.any (fun p => p.jobs.any fun j => j.outHandle == h)
    || s.mq.handle == h

/-! ### AUs (R103, R107, R108) -/

/-- The default layouts of R103: AUs of a role slot in a mode. -/
def layoutAu (m : Mode) (slot : Nat) : Nat :=
  let row : List Nat := match m with
    | .quiet => [0, 0, 0, 0, 0, 24, 1]
    | .analyse => [192, 48, 0, 64, 32, 24, 1]
    | .integrate => [64, 48, 96, 96, 32, 24, 1]
    | .record => [64, 16, 0, 256, 8, 24, 1]
    | .calibrate => [128, 48, 96, 64, 8, 24, 1]
    | .shadow => [0, 0, 0, 0, 0, 0, 0]
  row.getD (slot - 1) 0

/-- The AUs that role partitions hold, those awaiting creation included. -/
def roleAu (s : State) : Nat := ((s.pool.parts.filter fun p => decide (p.slot < 8)).map fun p => p.au + p.nextAu.getD 0).sum

/-- The AUs of slots 8-255. -/
def hostAu (s : State) : Nat := ((s.pool.parts.filter fun p => decide (8 ≤ p.slot)).map fun p => p.au).sum

/-- The AUs that role partitions hold after the default layout of a mode: a deferred free counts beside the new size (R108). -/
def roleAuAfter (s : State) (m : Mode) : Nat :=
  ((List.range 7).map fun i => layoutAu m (i + 1)).sum
    + ((s.pool.parts.filter fun p => decide (p.slot < 8) && p.freeCmd.isSome).map fun p => p.au).sum

/-- RESERVED_AU (R108): the largest growth of the role partitions that a pending SYS_MODE brings. -/
def reservedAu (s : State) : Nat :=
  ((s.cmds.filter fun c => isPendingMode c && c.flag 0 4).map fun c =>
    roleAuAfter s ((Mode.ofCode (c.arg 0 2 0)).getD .quiet) - roleAu s).foldl max 0

/-- FREE_AU (R111): AUs available to MEM_ALLOC. -/
def freeAu (s : State) : Nat := 384 - (roleAu s + hostAu s + reservedAu s)

/-- AUs held by deferred frees (R111). -/
def pendingFreeAu (s : State) : Nat := ((s.pool.parts.filter fun p => p.freeCmd.isSome).map fun p => p.au).sum

/-! ### Making and releasing partitions -/

/-- A new partition, zeroed (R98). -/
def newPart (slot gen au role : Nat) : Partition :=
  { slot := slot, generation := gen, au := au, role := role, freeCmd := none, ce := 0, ue := 0, passes := 0, poisoned := [], data := [],
    nextAu := none }

/-- The role partition of a slot at a size; none at size 0. -/
def addRole (slot au : Nat) (s : State) : State :=
  if au = 0 then s else setPool (fun p => { p with parts := p.parts ++ [newPart slot 0 au slot] }) s

def dropPart (slot : Nat) (s : State) : State := setPool (fun p => { p with parts := p.parts.filter (fun x => x.slot != slot) }) s

/-- A partition is gone; a role slot takes the size that waits for it (R107). -/
def releasePart (p : Partition) (s : State) : State :=
  let s1 := dropPart p.slot s
  match p.nextAu with
  | some n => addRole p.slot n s1
  | none => s1

/-- The slots 8-255 that are free. -/
def freeSlots (s : State) : List Nat := ((List.range 248).map (· + 8)).filter fun x => (partAt s x).isNone

/-- The slot of a new partition: one of the free ones. The spec does not say which: a free value, the same on two devices with the same
partitions (R591). Log entry 29 (DESIGN CHOICE, safe). -/
def chosenSlot (s : State) : Nat :=
  let l := freeSlots s
  l.getD (Config.slotChoice l % max 1 l.length) 8

/-- The GENERATION of the next partition in a slot (R97); of the first one, a free value. Log entry 29 (DESIGN CHOICE, safe). -/
def nextGeneration (s : State) (slot : Nat) : Nat :=
  match s.pool.generations.find? fun g => g.1 == slot with
  | some g => (g.2 + 1) % 65536
  | none => Config.firstGeneration % 65536

/-! ### Commands (R112-R116) -/

/-- MEM_ALLOC (R97, R98, R112). -/
def specMemAlloc : CmdSpec :=
  { opcode := 0x0100, plen := plenIs 1, modes := notShadow, addr := fun _ => [unitNo 1 255],
    params := fun _ c => decide (1 ≤ c.arg 0 8 0) && decide (c.arg 0 8 0 ≤ 384) && decide (c.arg 0 15 12 < 8),
    refuse := fun s c => if freeAu s < c.arg 0 8 0 || (freeSlots s).isEmpty then some .noMemory else none,
    refusedWords := 3,
    run := fun c _ s =>
      let slot := chosenSlot s
      let p := newPart slot (nextGeneration s slot) (c.arg 0 8 0) (c.arg 0 15 12)
      let s1 := setPool (fun x => { x with
        parts := x.parts ++ [p], generations := x.generations.filter (fun g => g.1 != slot) ++ [(slot, p.generation)] }) s
      (s1, .done .ok [p.handle, BitVec.ofNat 32 p.au, BitVec.ofNat 32 (freeAu s1)]) }

/-- MEM_FREE (R99, R113). -/
def specMemFree : CmdSpec :=
  { opcode := 0x0101, plen := plenIs 1, modes := notShadow, addr := fun _ => [unitNo 1 255],
    params := fun s c => (partForUse s (c.word 0)).isSome,
    run := fun c _ s => match partForUse s (c.word 0) with
      | none => (s, .done .badParam [])
      | some p =>
        if refsOf s p.handle = 0 then (releasePart p s, .done .ok [BitVec.ofNat 32 p.au])
        else (setPart p.slot (fun x => { x with freeCmd := some c.id }) s, .first .deferred) }

/-- MEM_FREE_RELEASE (R99): the last reference to a partition whose free is deferred has ended. -/
def evMemFreeRelease (slot : Nat) (s : State) : State :=
  match partAt s slot with
  | none => s
  | some p => match p.freeCmd with
    | none => s
    | some id =>
      if refsOf s p.handle = 0 then completeId id .ok [BitVec.ofNat 32 p.au] s.index (releasePart p s) else s

/-- MEM_QUERY (R97, R114). The pool totals of handle 0 go on when a partition is freed. Log entry 116 (DESIGN CHOICE, unsafe). -/
def specMemQuery : CmdSpec :=
  { opcode := 0x0102, plen := plenIs 1, addr := fun _ => [unitNo 1 255],
    params := fun s c => c.word 0 == 0 || (partByHandle s (c.word 0)).isSome,
    run := fun c _ s => match partByHandle s (c.word 0) with
      | some p =>
        (s, .done .ok [BitVec.ofNat 32 (p.au + p.role * 2 ^ 12 + oneIf p.freeCmd.isSome * 2 ^ 16 + min 255 (refsOf s p.handle) * 2 ^ 24),
          BitVec.ofNat 32 p.ce, BitVec.ofNat 32 p.ue, BitVec.ofNat 32 p.passes])
      | none =>
        (s, .done .ok [BitVec.ofNat 32 (freeAu s), BitVec.ofNat 32 s.pool.ceTotal, BitVec.ofNat 32 s.pool.ueTotal, BitVec.ofNat 32 s.pool.passes]) }

/-- MEM_SCRUB (R115). -/
def specMemScrub : CmdSpec :=
  { opcode := 0x0103, plen := plenIs 1, addr := fun _ => [unitNo 1 255],
    params := fun _ c => decide (c.arg 0 11 0 ≤ 3600),
    run := fun c _ s => (setPool (fun p => { p with scrubPeriod := c.arg 0 11 0 }) s, .done .ok []) }

/-- OFFSET, LENGTH and HOST of a transfer are in range (R116). -/
def transferOk (c : Cmd) (p : Partition) : Bool :=
  (c.word 1).toNat % 64 == 0 && (c.word 2).toNat % 64 == 0 && decide (64 ≤ (c.word 2).toNat)
    && decide ((c.word 1).toNat + (c.word 2).toNat ≤ p.au * 1048576) && c.arg64 3 % 64 == 0

/-- A MEM_READ or MEM_WRITE begins (R116). -/
def startTransfer (write : Bool) (c : Cmd) (s : State) : State × Fate :=
  (setPool (fun p => { p with transfers := p.transfers ++
    [{ cmd := c.id, write := write, slot := c.arg 0 15 0, offset := (c.word 1).toNat, length := (c.word 2).toNat, host := c.arg64 3 }] }) s, .later)

/-- MEM_READ (R116): from a queue pair; a forwarded command never is one. -/
def specMemRead : CmdSpec :=
  { opcode := 0x0104, plen := plenIs 6, addr := fun _ => [unitNo 1 255],
    params := fun s c => isQp c.src && (match partForUse s (c.word 0) with
      | some p => transferOk c p
      | none => false),
    run := fun c _ s => startTransfer false c s }

/-- MEM_WRITE (R116): a forwarded one brings its data with it (R589). -/
def specMemWrite : CmdSpec :=
  { opcode := 0x0105, plen := plenIs 6, modes := notShadow, addr := fun _ => [unitNo 1 255],
    params := fun s c => (isQp c.src || c.src == .pairLink) && (match partForUse s (c.word 0) with
      | some p => transferOk c p && !writtenBy s (c.word 0)
      | none => false),
    run := fun c _ s => startTransfer true c s }

/-- A byte of a partition lies in a history ring (R336): how a ring lays out its elements is not given, and what a read of it shows is a free value.
Log entry 115 (DESIGN CHOICE, unsafe). -/
def inHistory (s : State) (p : Partition) (o : Nat) : Bool :=
  s.cap.rings.any fun r => r.handle == p.handle && decide (r.auOffset * 1048576 ≤ o) && decide (o < (r.auOffset + r.auCount) * 1048576)

/-- The free byte for place `i` of a read. -/
def freeByte (s : State) (i : Nat) : Byte := (Config.freeWord (s.free + i)).truncate 8

/-- A read of `n` bytes has used up its free values. -/
def usedFree (n : Nat) (s : State) : State := { s with free := s.free + n }

/-- What MEM_READ delivers for a range: an uncorrectable word reads as eight zero bytes, and counts (R102, R116). -/
def readRange (s : State) (p : Partition) (o n : Nat) : List Byte × Nat :=
  let bad := p.poisoned.filter fun a => decide (o ≤ a) && decide (a < o + n)
  ((List.range n).map fun i => if bad.contains ((o + i) / 8 * 8) then 0
    else if inHistory s p (o + i) then freeByte s i else readCell p.data (o + i), bad.length)

/-- MEM_TRANSFER_END (R60, R102, R116): the last byte has moved, or the access to host memory failed. `errors` are the words that
this read finds in error. Log entries 10 (DESIGN CHOICE, safe), 110 (DESIGN CHOICE, unsafe). -/
def evMemTransferEnd (cmd : Nat) (ok : Bool) (hostData : List Byte) (errors : List MemError) (s : State) : State :=
  match s.pool.transfers.find? fun t => t.cmd == cmd with
  | none => s
  | some t =>
    let s1 := setPool (fun p => { p with transfers := p.transfers.filter (fun x => x.cmd != cmd) }) s
    match cmdById s cmd with
    | none => s1
    | some c =>
      if !ok || hostFails s1 t.host t.length then complete c .internal [] s1.index (refuseEffects c .internal s1)
      else if t.write then
        let data := hostData.take t.length
        let s2 := poolWrite t.slot t.offset data s1
        complete c .ok [0] s2.index (if hasMirror s2 && !c.noMirror && c.src != .pairLink then sendForward c none data s2 else s2)
      else
        let s2 := bringErrors errors s1
        match partAt s2 t.slot with
        | none => complete c .ok [0] s2.index s2
        | some p =>
          let r := readRange s2 p t.offset t.length
          complete c .ok [BitVec.ofNat 32 r.2] s2.index (emit (.hostWrite true t.host r.1) (usedFree t.length s2))

end Sys2Proof.Machine
end

