-- ==== Sys2Proof/Machine/Tuner.lean ====
section
/-! DEFINITION. The channel equalisers and the tuners (R202-R240): banks and swaps, the NCO accumulator, the output grid and
the declared delays. -/

namespace Sys2Proof.Machine

/-! ### Equaliser banks -/

/-- The sum of |h[i]| in units of 2^-14 (R204, R234). -/
def tapSum (b : EqBank) : Nat := (b.taps.map Int.natAbs).sum

/-- The unit impulse of R205. -/
def resetBank : EqBank := { taps := 16384 :: List.replicate 63 0, bulk := 0, delayInt := 0, delayFrac := 0 }

def setEq (c : Nat) (f : Equaliser → Equaliser) (s : State) : State := { s with eqs := modAt s.eqs c f }

/-! ### Swaps (R208-R213) -/

/-- Start a swap to `bank` at index `p` (R208-R210); a target that is active already has no effect. -/
def startSwap (bank : Bool) (fadeSc p : Nat) (e : Equaliser) : Equaliser :=
  if e.active == bank then e
  else
    let len := if fadeSc = 0 then 64 else 32 * fadeSc
    let era : EqEra := { start := p, bank := eqBank e bank, prev := eqBank e e.active, len := len, fade := fadeSc != 0 }
    { e with active := bank, swapCount := satAdd 32 e.swapCount 1, eras := era :: e.eras.filter (fun x => decide (x.start < p)),
             running := some { target := bank, start := p, stop := p + len, fade := fadeSc != 0 } }

/-- A running swap whose end index has come ends, and a held request starts at that index (R211). -/
def endOneSwap (p : Nat) (e : Equaliser) : Equaliser :=
  match e.running with
  | some r =>
    if p < r.stop then e
    else
      let e1 := { e with running := none, presented := none }
      match e.held with
      | some h => startSwap h.bank h.fadeSc h.start { e1 with held := none }
      | none => e1
  | none => e

/-- The swap that runs and the held one after it, as far as they have ended at index `p`. -/
def endSwap (p : Nat) (e : Equaliser) : Equaliser := endOneSwap p (endOneSwap p e)

/-- A request presented at index `p` (R211): the new state, the reply status, START and DISPLACED_TAG. -/
def presentSwap (tag : Word) (bank : Bool) (fadeSc p : Nat) (e0 : Equaliser) : Equaliser × Status × Nat × Word :=
  let e := endSwap p e0
  let fresh (e : Equaliser) (st : Status) (displaced : Word) : Equaliser × Status × Nat × Word :=
    ({ startSwap bank fadeSc p e with presented := some { index := p, tag := tag, active := e.active, started := e.active != bank } },
      st, p, displaced)
  match e.presented with
  | some q =>
    if q.index == p then
      fresh { e with active := q.active, running := none, eras := if q.started then e.eras.filter (fun x => decide (x.start < p)) else e.eras, swapCount := e.swapCount - (if q.started then 1 else 0),
                     replacedCount := satAdd 32 e.replacedCount 1 } .replaced q.tag
    else
      match e.running, e.held with
      | some r, some h => ({ e with held := some { tag := tag, bank := bank, fadeSc := fadeSc, start := r.stop }, replacedCount := satAdd 32 e.replacedCount 1 }, .replaced, r.stop, h.tag)
      | some r, none => ({ e with held := some { tag := tag, bank := bank, fadeSc := fadeSc, start := r.stop } }, .ok, r.stop, 0)
      | none, _ => fresh e .ok 0
  | none =>
    match e.running, e.held with
    | some r, some h => ({ e with held := some { tag := tag, bank := bank, fadeSc := fadeSc, start := r.stop }, replacedCount := satAdd 32 e.replacedCount 1 }, .replaced, r.stop, h.tag)
    | some r, none => ({ e with held := some { tag := tag, bank := bank, fadeSc := fadeSc, start := r.stop } }, .ok, r.stop, 0)
    | none, _ => fresh e .ok 0

/-- An SPLL unlock completes every running swap and every held request at once (R213): the equaliser runs on the bank that
the last of them targeted. -/
def unlockEq (e : Equaliser) : Equaliser :=
  { e with active := (match e.held with | some h => h.bank | none => e.active), running := none, held := none, presented := none }

/-- From index `v` on the equaliser computes with its active bank alone (R213). -/
def resumeEq (v : Nat) (e : Equaliser) : Equaliser :=
  { e with eras := { start := v, bank := eqBank e e.active, prev := eqBank e e.active, len := 0, fade := false } :: e.eras.filter (fun x => decide (x.start < v)) }

/-- The counts of every equaliser and tuner are settled where samples stop (R236, R240). -/
def settleWide (stop next : Nat) (s : State) : State :=
  { s with
    eqs := s.eqs.zipIdx.map fun x => { x.1 with clipCount := eqClips s x.2 stop, clipFrom := next }
    tuners := s.tuners.zipIdx.map fun x => settleTuner s stop next x.2 x.1 }

/-- A bank is in use (R212): active, source or target of a running swap, or target of a held request. -/
def bankInUse (b : Bool) (e : Equaliser) : Bool :=
  e.active == b || e.running.isSome || (match e.held with | some h => h.bank == b | none => false)

/-- EQ_LOAD (R212, R234). -/
def specEqLoad : CmdSpec :=
  { opcode := 0x0400, plen := plenIs 35, modes := notShadow, addr := fun c => [unitNo 4 (16 + c.arg 0 1 0)],
    params := fun _ c => decide (c.arg 0 25 16 ≤ 960),
    units := fun s c => decide (c.arg 0 1 0 < s.variant.channels),
    busy := fun s c => bankInUse (c.flag 0 8) (endSwap s.index (s.eqs.getD (c.arg 0 1 0) default)),
    run := fun c _ s =>
      let b : EqBank :=
        { taps := (List.range 64).map fun i => signed 16 (c.arg (3 + i / 2) (16 * (i % 2) + 15) (16 * (i % 2))),
          bulk := c.arg 0 25 16, delayInt := c.arg 1 5 0, delayFrac := (c.word 2).toNat }
      (setEq (c.arg 0 1 0) (fun e => if c.flag 0 8 then { e with bankB := b } else { e with bankA := b }) s,
        .done .ok [BitVec.ofNat 32 (tapSum b), BitVec.ofNat 32 (tapLo b + tapHi b * 256)]) }

/-- EQ_SWAP (R208-R211, R235): the reply carries START as its completion index. -/
def specEqSwap : CmdSpec :=
  { opcode := 0x0401, plen := plenIs 1, timed := fun _ => .sampleDomain, modes := notShadow,
    addr := fun c => [unitNo 4 (16 + c.arg 0 1 0)],
    params := fun _ c => at32 c,
    units := fun s c => decide (c.arg 0 1 0 < s.variant.channels),
    lead := fun _ => some 1000,
    run := fun c p s =>
      let ch := c.arg 0 1 0
      let r := presentSwap c.tag (c.flag 0 8) (c.arg 0 31 16) p (s.eqs.getD ch default)
      (setEq ch (fun _ => r.1) s, .doneAt r.2.1 (u64Words r.2.2.1 ++ [r.2.2.2]) r.2.2.1) }

/-- EQ_HELD_START (R211): the running swap ends and the held request starts. -/
def evEqHeldStart (c : Nat) (s : State) : State := setEq c (endSwap s.index) s

/-- EQ_STATUS (R236). -/
def specEqStatus : CmdSpec :=
  { opcode := 0x0402, plen := plenIs 1, addr := fun c => [unitNo 4 (16 + c.arg 0 1 0)],
    units := fun s c => decide (c.arg 0 1 0 < s.variant.channels),
    run := fun c _ s =>
      let ch := c.arg 0 1 0
      let s1 := setEq ch (endSwap s.index) s
      let e := s1.eqs.getD ch default
      let zero : Equaliser → Equaliser := fun e => { e with swapCount := 0, replacedCount := 0, clipCount := 0, clipFrom := s.index + 1 }
      let hb := match e.held with | some h => h.bank | none => false
      let stop := match e.running with | some r => r.stop | none => 0
      (if c.flag 0 8 then setEq ch zero s1 else s1,
        .done .ok ([BitVec.ofNat 32 ((if e.active then 1 else 0) + (if e.running.isSome then 2 else 0) + (if e.held.isSome then 4 else 0)
                    + (if hb then 8 else 0) + (eqBank e e.active).bulk * 65536)]
          ++ u64Words stop ++ [BitVec.ofNat 32 (eqClips s1 ch (s.index + 1)), BitVec.ofNat 32 e.swapCount, BitVec.ofNat 32 e.replacedCount])) }

/-! ### Tuner settings (R215-R226) -/

/-- RHO of R237: rho in 2^-56; 0 in snap mode. -/
def tunerRho (snap : Bool) (decim : Nat) : Nat := if snap then 0 else decim * 2 ^ 24 / 2 ^ (tunerH snap decim + 1)

/-- K and DELAY_ADJ are within R215 and R225 at a sample rate. -/
def tunerConfigOk (fs : Nat) (snap : Bool) (decim d gain : Nat) : Bool :=
  decide (gain ≤ 24) &&
  if snap then decim % 2 ^ 32 == 0 && decide (256 * 2 ^ 32 ≤ decim) && decide (decim ≤ fs / 1000 * 2 ^ 32) && d == 0
  else decide (4 * 2 ^ 32 ≤ decim) && decide (decim * 1000 ≤ fs * 2 ^ 32)
    && decide (d ≤ 2 ^ (min (tunerH false decim + 14) 30) * 2 ^ 32)

/-- ACC by the COHERENT formula at index `e` (R220). -/
def coherentAcc (freq phase e : Nat) : Nat := (freq * e + phase * 65536) % 2 ^ 48

/-- The NCO runs from index `e` on with FREQ and an accumulator value (R220). -/
def putNco (e acc : Nat) (t : Tuner) : Tuner := { t with ncos := putSetting e (t.freq, acc) t.ncos }

/-- A running tuner re-anchors its grid at `e` and restarts its accumulator by the COHERENT formula (R221, R226). -/
def startTuner (t e : Nat) (s : State) : State :=
  changeTuner t e (fun u => openGrid e (putNco e (coherentAcc u.freq u.phase e) { u with enabled := true })) s

/-- TUNER_CONFIG at one tuner (R226, R230, R237): only a change of GAIN_SHIFT alone keeps the grid. -/
def configTuner (snap : Bool) (decim d gain e t : Nat) (s : State) : State :=
  let u := s.tuners.getD t default
  let gainOnly := u.snap == snap && u.decim == decim && u.delayAdj == d && u.gainShift != gain
  let set : Tuner → Tuner := fun u =>
    { u with snap := snap, decim := decim, delayAdj := d, gainShift := gain, gains := putSetting e gain u.gains, configReset := false }
  if gainOnly || !tunerRunning s t then setTuner t set s
  else changeTuner t e (fun u => openGrid e (set u)) s

/-- TUNER_CONFIG (R237). -/
def specTunerConfig : CmdSpec :=
  { opcode := 0x0403, plen := plenIs 5, timed := fun _ => .sampleDomain, modes := notShadow,
    addr := fun c => (maskBits 8 (c.arg 0 7 0)).map (unitNo 4),
    params := fun s c => c.arg 0 7 0 != 0 && tunerConfigOk (fsOf s.time) (c.flag 0 8) (c.arg64 1) (c.arg64 3) (c.arg 0 20 16),
    units := fun s c => decide (c.arg 0 7 0 < 2 ^ s.variant.tuners),
    lead := fun _ => some 1000,
    run := fun c e s =>
      let snap := c.flag 0 8
      let k := c.arg64 1
      ((maskBits 8 (c.arg 0 7 0)).foldl (fun a t => configTuner snap k (c.arg64 3) (c.arg 0 20 16) e t a) s,
        .done .ok (BitVec.ofNat 32 (tunerH snap k) :: (u64Words (tunerRho snap k) ++ u64Words (tunerDelay snap k (c.arg64 3))))) }

/-- A retune of a source tuner at index `e` sets RETUNE in the integration frame that it falls in (R371). -/
def markRetune (t e : Nat) (s : State) : State :=
  let g := t / 2 + t % 2 * 4
  if (intEngines s.intg.cfg).contains g && (engineOf s g).cfg.tuner then intAct e .retune s else s

/-- TUNER_RETUNE (R219, R220, R238). -/
def specTunerRetune : CmdSpec :=
  { opcode := 0x0404, plen := plenIs 4, timed := fun _ => .sampleDomain, modes := notShadow,
    addr := fun c => [unitNo 4 (c.arg 0 2 0)],
    units := fun s c => decide (c.arg 0 2 0 < s.variant.tuners),
    lead := fun _ => some 1000,
    run := fun c e s =>
      let f := (c.word 1).toNat + c.arg 2 15 0 * 2 ^ 32
      let run := tunerRunning s (c.arg 0 2 0)
      let set : Tuner → Tuner := fun u =>
        let ph := if c.flag 0 8 then u.phase else (c.word 3).toNat
        putNco e (if c.flag 0 8 then accAt u e else coherentAcc f ph e)
          { u with freq := f, phase := ph, continuous := c.flag 0 8, retunes := if run then e :: u.retunes else u.retunes }
      (markRetune (c.arg 0 2 0) e (setTuner (c.arg 0 2 0) set s), .done .ok []) }

/-- TUNER_ENABLE (R232, R239): ENABLE = 1 not in QUIET; a tuner in the requested state is left alone. -/
def specTunerEnable : CmdSpec :=
  { opcode := 0x0405, plen := plenIs 1, timed := fun _ => .sampleDomain,
    modes := fun m c => m != .shadow && !(c.flag 0 8 && m == .quiet),
    addr := fun c => (maskBits 8 (c.arg 0 7 0)).map (unitNo 4),
    params := fun _ c => c.arg 0 7 0 != 0,
    units := fun s c => decide (c.arg 0 7 0 < 2 ^ s.variant.tuners),
    lead := fun _ => some 1000,
    run := fun c e s =>
      ((maskBits 8 (c.arg 0 7 0)).foldl (fun a t =>
        if (a.tuners.getD t default).enabled == c.flag 0 8 then a
        else if !c.flag 0 8 then changeTuner t e (fun u => { u with enabled := false }) a
        else if modeRunsProducts (runMode a) then startTuner t e a
        else setTuner t (fun u => { u with enabled := true }) a) s, .done .ok []) }

/-- TUNER_STATUS (R240). -/
def specTunerStatus : CmdSpec :=
  { opcode := 0x0406, plen := plenIs 1, addr := fun c => [unitNo 4 (c.arg 0 2 0)],
    units := fun s c => decide (c.arg 0 2 0 < s.variant.tuners),
    run := fun c _ s =>
      let t := c.arg 0 2 0
      let u := s.tuners.getD t default
      let n := tunerCounts s t (s.index + 1)
      (if c.flag 0 8 then setTuner t (fun u => { u with invCount := 0, clipCount := 0, ovrCount := 0, countFrom := s.index + 1 }) s else s,
        .done .ok ([BitVec.ofNat 32 ((if u.enabled then 1 else 0) + (if tunerRunning s t then 2 else 0) + (if u.snap then 4 else 0)
                      + (if u.continuous then 8 else 0) + (if u.configReset then 16 else 0) + tunerH u.snap u.decim * 256
                      + u.gainShift * 65536)]
          ++ u64Words (u.anchor.getD 0)
          ++ [lo32 u.freq, hi32 u.freq, BitVec.ofNat 32 n.1, BitVec.ofNat 32 n.2.1, BitVec.ofNat 32 n.2.2])) }

end Sys2Proof.Machine
end

