-- ==== Sys2Proof/Machine/Modes.lean ====
section
/-! DEFINITION. The operating modes (R38, R103-R111): what stops and starts at a mode change, the default layouts, and SYS_MODE. -/

namespace Sys2Proof.Machine

/-! ### Units that stop and start together (R107, R129) -/

/-- What lies wholly before index `e` is produced (R107, step 2; R127, step 4): the spectra, what waits for them, and the trigger decisions. -/
def finishBefore (e : Nat) (s : State) : State :=
  decideBefore e (catchAll ((List.range s.engines.length).foldl (fun a g => drainEngine g e a) s))

/-- Every product that takes samples stops at index `e` (R107, R129): tuner and engine grids end, density frames close, wideband rings end before
index `ring` and wideband streams before `limit`. `reason` is the closure reason of R350. -/
def stopProducts (reason e ring limit : Nat) (gap : Bool) (s0 : State) : State :=
  let s := finishBefore e s0
  let s1 := (List.range s.tuners.length).foldl (fun a t => if tunerRunning a t then endFeeds t e reason a else a) s
  let s2 := (List.range s1.engines.length).foldl (fun a g => endGrid g e reason a) s1
  let s3 := (List.range s2.dens.length).foldl (fun a c => endDensity c e gap a) s2
  (List.range 4).foldl (fun a u => endRun 0 u reason ring (endStreams 0 u limit a)) s3

/-- Every enabled product starts again at index `e` (R221, R226, R232, R256, R283, R318, R337). A one-shot timer keeps an assertion that is
still to come when `keep`. -/
def startProducts (e : Nat) (keep : Bool) (s : State) : State :=
  if !modeRunsProducts (runMode s) then s
  else
    let s1 := (List.range s.tuners.length).foldl (fun a t => if (a.tuners.getD t default).enabled then startTuner t e a else a) s
    let s2 := (List.range s1.engines.length).foldl (fun a g => if (engineOf a g).cfg.tuner then a else startGrid g e a) s1
    let s3 := (List.range 4).foldl (fun a u => startStreams 0 u e (startRun 0 u e a)) s2
    restartSlots e keep ((List.range s3.dens.length).foldl (fun a c => startDensity c e a) s3)

/-! ### Entering and leaving a mode at E (R107, R175, R536) -/

/-- Set the mode, or the shadowed mode in SHADOW (R109). -/
def setRunMode (m : Mode) (s : State) : State := if s.mode = .shadow then { s with shadowed := m } else { s with mode := m }

/-- The exit from CALIBRATE at `e` (R175, R536, R537): channels return to INPUT, a measurement ends with MODE, background calibration
starts again with a full dwell. -/
def leaveCalibrate (e : Nat) (s : State) : State :=
  let s1 := breakMeasure .mode { s with conv := { s.conv with channels := s.conv.channels.map (switchAt e false) } }
  dwellDue (setMaint (fun m => { m with sliceFrom := e + 32 * 2 ^ s1.conv.dwellLog2 }) s1)

/-- The mode changes at index `e` (R107, step 1; R38). Log entry 81 (DEDUCED, unsafe). -/
def changeMode (m : Mode) (e : Nat) (s : State) : State :=
  let old := runMode s
  if old = m then s
  else
    let s1 := if modeRunsIntegration old && !modeRunsIntegration m then intAct e (.leave 2) s else s
    let s2 := if modeRunsProducts old && !modeRunsProducts m then stopSlots e true (stopProducts 2 e e e false s1) else s1
    let s3 := setRunMode m s2
    let s4 := if !modeRunsProducts old then startProducts e false s3 else s3
    let s5 := if !modeRunsIntegration old && modeRunsIntegration m then intAct e .enter s4 else s4
    if m = .calibrate then dropDwell s5 else if old = .calibrate then leaveCalibrate e s5 else s5

/-! ### The default layout (R107, step 3) -/

/-- Every mark of a context becomes invalid without a notice, and what waits on its ring ends with MARK_LOST (R418).
Log entry 31 (DEDUCED, unsafe). -/
def loseContext (n e : Nat) (s : State) : State :=
  let s1 := endCtxRun e n s
  let s2 := dropMarkWaits n (endRewind n .markLost s1)
  setCtx n (fun x => { x with
    started := false, stopIndex := none, run := none, pieces := [], items := [], packets := [], bindingLost := true,
    cfg := { x.cfg with ring := 0 },
    marks := x.marks.map (fun m => { seq := none, lost := m.lost || m.seq.isSome }) }) s2

/-- Every unit bound to the partition with handle `h` stops at `e`, and its binding ends (R107, R243, R350, R370, R418).
Log entry 31 (DEDUCED, unsafe). -/
def unbindAll (h : Word) (e : Nat) (s0 : State) : State :=
  let s := decideTo (e - 1) s0
  let s1 := (List.range s.engines.length).foldl (fun a g =>
    if ((engineOf a g).wbuf.map fun w => w.handle) == some h then
      checkIntSource g e (engineOf a g).live (setEngine g (fun x => { x with wbuf := none, bindingLost := true }) (endGrid g e 5 a))
    else a) s
  let s2 := (List.range s1.dens.length).foldl (fun a c =>
    let d := (densOf a c).cfg
    if d.ring == h || d.layer == h then
      setDens c (fun x => { x with enabled := false, cfg := { d with ring := if d.ring == h then 0 else d.ring, layer := if d.layer == h then 0 else d.layer } })
        (endDensity c e false a)
    else a) s1
  let s3 := (List.range s2.spgm.length).foldl (fun a i =>
    let d := (spgmOf a i).cfg
    if d.ring == h || d.layer == h then
      setSpgm i (fun x => { x with enabled := false, cfg := { d with ring := if d.ring == h then 0 else d.ring, layer := if d.layer == h then 0 else d.layer } })
        (emitLine i false a)
    else a) s2
  let s4 := (s3.cap.rings.filter fun r => r.handle == h).foldl (fun a r =>
    let ends := endRun r.kind r.unit 2 e a
    let b := (List.range ends.cap.sheaves.length).foldl (fun b n =>
      if (sheafOf b n).cfg.kind == r.kind && (sheafOf b n).cfg.unit == r.unit then completeAll n b else b) ends
    { b with cap := { b.cap with
        rings := b.cap.rings.filter (fun x => !(x.kind == r.kind && x.unit == r.unit)),
        sheaves := b.cap.sheaves.map (fun sh =>
          if sh.configured && sh.cfg.kind == r.kind && sh.cfg.unit == r.unit then { sh with armed := false, finish := false } else sh) } }) s3
  let s5 := (List.range s4.cap.sheaves.length).foldl (fun a n =>
    let sh := sheafOf a n
    if sh.configured && sh.cfg.handle == h then
      setSheaf n (fun x => { x with armed := false, finish := false, bindingLost := true, configured := false, cfg := { x.cfg with handle := 0 } })
        (completeAll n (closeSegment n 2 e a))
    else a) s4
  let s6 := if s5.intg.cfg.handle == h then
      let b := intBefore e s5
      setInt (fun u => { u with bindingLost := true, cfg := { u.cfg with handle := 0 } }) (stopInt (closeCode b e 6) e b)
    else s5
  let s7 := (List.range s6.th.length).foldl (fun a c =>
    if (a.th.getD c default).cfg.handle == h then
      setTh c (fun t => { t with bindingLost := true, cfg := { t.cfg with handle := 0 } }) (endThReports c e a)
    else a) s6
  let s8 := (List.range s7.strm.ctxs.length).foldl (fun a n =>
    if (ctxOf a n).cfg.ring == h || 0 < regionItems (ctxOf a n) h then loseContext n e a else a) s7
  if s8.mq.handle == h then mqBind h (setMq (fun m => { m with handle := 0 }) (mqFlush s8).1) else s8

/-- One role slot takes its size in the new layout (R107, step 3). Answers the state and the AUs recreated. A MEM_READ or MEM_WRITE in progress goes on
in the new partition. Log entry 31 (DEDUCED, unsafe). -/
def layoutSlot (m : Mode) (e slot : Nat) (r : State × Nat) : State × Nat :=
  let n := layoutAu m slot
  match partAt r.1 slot with
  | none => (addRole slot n r.1, r.2 + n)
  | some p =>
    if p.freeCmd.isSome then (setPart slot (fun x => { x with nextAu := some n }) r.1, r.2)
    else if p.au = n then r
    else (addRole slot n (dropPart slot (unbindAll p.handle e r.1)), r.2 + n)

/-- LAYOUT = DEFAULT. Log entry 31 (DEDUCED, unsafe). -/
def applyLayout (m : Mode) (e : Nat) (s : State) : State × Nat :=
  (List.range 7).foldl (fun r i => layoutSlot m e (i + 1) r) (s, 0)

/-! ### Commands (R106-R111) -/

/-- SYS_MODE (R106-R110). -/
def specSysMode : CmdSpec :=
  { opcode := 0x0001, plen := plenIs 1, timed := fun _ => .sampleDomain, modes := notShadow, addr := fun _ => [unitNo 0 255],
    params := fun _ c => at32 c && (Mode.ofCode (c.arg 0 2 0)).isSome,
    clock := fun s _ => !locked s,
    refuse := fun s c => if c.flag 0 4 && decide (384 < roleAuAfter s ((Mode.ofCode (c.arg 0 2 0)).getD .quiet) + hostAu s) then some .noMemory else none,
    lead := fun _ => some 10000,
    refusedWords := 3,
    run := fun c e s =>
      let m := (Mode.ofCode (c.arg 0 2 0)).getD .quiet
      let old := runMode s
      let s0 := changeMode m e s
      let s1 := if s0.pair.role == .solo && old != m then { s0 with pair := { s0.pair with suppressed := false } } else s0
      let r := if c.flag 0 4 then applyLayout m e s1 else (s1, 0)
      let left := { r.1 with cmds := r.1.cmds.filter (fun d => d.id != c.id) }
      (r.1, .done .ok [BitVec.ofNat 32 old.code, BitVec.ofNat 32 r.2, BitVec.ofNat 32 (freeAu left)]) }

/-- SYS_GET_MODE (R111). -/
def specSysGetMode : CmdSpec :=
  { opcode := 0x0006, plen := plenIs 0, addr := fun _ => [unitNo 0 255],
    run := fun _ _ s =>
      (s, .done .ok [
        BitVec.ofNat 32 (s.mode.code + (if s.mode = .shadow then s.shadowed.code else 0) * 16 + oneIf (s.cmds.any isPendingMode) * 256),
        BitVec.ofNat 32 (freeAu s), BitVec.ofNat 32 (reservedAu s), BitVec.ofNat 32 (pendingFreeAu s)]) }

end Sys2Proof.Machine
end

