-- ==== Sys2Proof/Machine/Gap.lean ====
section
/-! DEFINITION. The breaks in the numbering of samples: an unlock, a STEP, a re-phase and a reconfigured SPLL (R121-R131, R139-R141, R715, R741,
R742), with what every unit does at them. -/

namespace Sys2Proof.Machine

/-! ### Samples stop and start -/

/-- The gap that an unlock leaves in the sets of the open integration frame (R368): from the next key index of the lead engine. -/
def intGapAt (s : State) : Option IntGap :=
  let e := (intEngines s.intg.cfg).headD 0
  let f := (engineOf s e).frame
  if s.intg.frame.isSome && engineRunning s e then
    some { key := frameKey s e f, hop := frameKey s e (f + 1) - frameKey s e f, stop := none }
  else none

/-- The sets of the open frame that a STEP at `u` leaves unproduced are counted in their frames (R368), and the frame closes there (R370). -/
def stepInt (u : Nat) (g : Option IntGap) (s : State) : State :=
  let s1 := intUpTo ((u - 1) * 2 ^ 32) (setInt (fun i => chargeGap { i with gap := g.map fun x => { x with stop := some (u * 2 ^ 32) } }) s)
  stopInt (closeCode s1 u 3) u s1

/-- The integration unit at a stop of the samples at `u`: what has come is accounted for; a STEP closes the frame, and another gap taints it
(R129, R368, R370). -/
def gapInt (u : Nat) (step : Bool) (s : State) : State :=
  let d := intDrain u s.intg.members.length s
  let g := intGapAt d
  if step then stepInt u g d
  else setInt (fun i => { i with members := [], gap := g, frame := i.frame.map fun f => { f with gap := true } }) d

/-- The samples from `u` on are those of a gap, and every count of samples stands as it is before index `stop` (R127, R198, R236, R240). -/
def markGap (u stop : Nat) (s : State) : State :=
  let s1 := { s with hist := { s.hist with gaps := { lo := u, hi := none } :: s.hist.gaps } }
  settleWide stop stop (settleConv stop stop s1)

/-- A forced firing whose index the gap from `u` on takes away (R55, R333): a TIMED one ends with CLOCK, another is due at the next lock. -/
def skipForced (u : Nat) (s : State) : State :=
  (s.trig.forced.filter fun f => decide (u ≤ f.index)).foldl (fun a f =>
    match cmdById a f.cmd with
    | some c => if c.timed then complete c .clock [] u a
        else { a with cmds := a.cmds.map fun d => if d.id == c.id then { d with phase := .held none } else d }
    | none => a) { s with trig := { s.trig with forced := s.trig.forced.filter fun f => decide (f.index < u) } }

/-- Samples stop at index `u` (R127, R129, R139, R742): nothing from `stop` on is delivered, and wideband segments end before `ring`.
Log entry 21 (DEDUCED, unsafe). -/
def gapStop (u reason ring stop : Nat) (step : Bool) (s0 : State) : State :=
  let s := gapInt u step (finishBefore u s0)
  let s1 := unlockTdc (stopSlots u false (stopProducts reason u ring stop true s))
  let s2 := markGap u stop { s1 with eqs := s1.eqs.map unlockEq }
  breakMeasure .clock (dropDwell (skipForced u s2))

/-! ### A new numbering (R140, R318, R341) -/

/-- A channel under a new numbering: its settings and its open INV windows go on. -/
def renumberChannel (s : State) (c : Nat) (ch : Channel) : Channel :=
  let keep (l : List Span) : List Span := (l.filter fun x => x.hi.isNone).map fun x => { x with lo := 0 }
  { ch with
    attens := restart ch.attens, guards := restart ch.guards, notices := restart ch.notices, inv := keep ch.inv, tile := keep ch.tile,
    ovrCarried := ovrSince s c (2 ^ 65), lastOvrNotice := none }

/-- A tuner under a new numbering. -/
def renumberTuner (t : Tuner) : Tuner :=
  { t with grids := [], retunes := [], gains := restart t.gains, ncos := restart t.ncos }

/-- What is still to be completed or sent takes its samples while the old numbering stands. -/
def settleOld (s : State) : State :=
  settlePieces ((List.range s.cap.sheaves.length).foldl (fun a n => completeAll n a) s)

/-- The samples of the numbering before are gone, and what compares indices forgets those of it. Log entry 34 (DEDUCED, unsafe). -/
def renumber (v : Nat) (s0 : State) : State :=
  let s := stepSlots (settleOld s0)
  { s with
    conv := { s.conv with channels := s.conv.channels.zipIdx.map (fun x => renumberChannel s x.2 x.1), signal := [] },
    eqs := s.eqs.map (fun e => { e with eras := [] }), tuners := s.tuners.map renumberTuner,
    time := { s.time with offsets := s.time.offsets.map restart },
    engines := s.engines.map (fun g => { g with nextOut := g.nextOut.map fun x => (0, x.2) }),
    trig := { s.trig with
      evalIndex := v - 1, lastNotice := none, events := [], changes := [],
      masks := s.trig.masks.map (fun m => { m with settings := (m.settings.getLast?.map fun x => [(0, x.2)]).getD [] }) },
    cap := { s.cap with
      sheaves := s.cap.sheaves.map (fun sh => { sh with lastEnd := none }), rings := s.cap.rings.map (fun r => { r with past := none }) },
    intg := { s.intg with lastNotice := none }, pair := { s.pair with handover := none, heardAt := none, liveAt := none },
    hist := { notes := [(0, noteNow s)], gaps := [{ lo := 0, hi := none }], first := v, joined := 0 } }

/-- Samples start again at index `v` (R127, R129, R742), and are counted from there on. -/
def gapStart (v : Nat) (s : State) : State :=
  let s0 := { s with
    hist := { s.hist with gaps := s.hist.gaps.map fun g => { g with hi := some (g.hi.getD v) } },
    conv := { s.conv with channels := s.conv.channels.map fun ch => { ch with countFrom := v } },
    eqs := s.eqs.map (fun e => resumeEq v { e with clipFrom := v }), tuners := s.tuners.map (fun t => { t with countFrom := v }),
    trig := { s.trig with next := v } }
  let s1 := startProducts v true (relockTdc v s0)
  let s2 := if s1.intg.frame.isNone then startInt v s1
    else setInt (fun i => chargeGap { i with gap := i.gap.map fun g => { g with stop := some (frameKey s1 ((intEngines i.cfg).headD 0) 0) } }) s1
  dwellDue (setMaint (fun m => { m with sliceFrom := v }) s2)

/-! ### Held commands (R55, R106, R715) -/

/-- A held command as the index passes from `u` to `v` without the indices between: a TIMED command or a mode change in the gap completes
with CLOCK, and another command of the gap takes effect at `v`. Log entries 18 (DEDUCED, unsafe), 20 (DEDUCED, unsafe). -/
def skipHeld (u v : Nat) (c : Cmd) (s : State) : State :=
  let move := { s with cmds := s.cmds.map fun d => if d.id == c.id then { d with phase := .held (some v) } else d }
  match c.phase with
  | .held none => move
  | .held (some e) =>
    if e < u then s
    else if c.timed || c.opcode == 0x0001 then (if e < v then complete c .clock [] v s else s)
    else if e < v || v ≤ u then move else s
  | _ => s

/-- Log entries 18 (DEDUCED, unsafe), 20 (DEDUCED, unsafe). -/
def skipGap (u v : Nat) (s : State) : State := (heldInOrder s).foldl (fun a c => skipHeld u v c a) s

/-! ### Notices (R164) -/

/-- A break is reported (R127, step 3): a black-box entry and SPLL_UNLOCK; `cause` is 0 for the lock detector and 1 for a STEP. -/
def reportUnlock (u cause : Nat) (s : State) : State :=
  let w := u64Words u ++ [BitVec.ofNat 32 cause]
  notify 0x0201 w u (bbWrite 2 0 0x0201 w u s)

def reportRelock (v : Nat) (s : State) : State :=
  notify 0x0202 (u64Words v ++ [BitVec.ofNat 32 (s.time.gen + oneIf s.time.indexEstimated * 65536)]) v s

/-- TIME_STEP carries the words of R164, which have no place for the TIMEBASE_GEN of R140. Log entry 117 (DEDUCED, unsafe). -/
def reportStep (b : Nat) (adjust : Int) (s : State) : State :=
  let w := u64Words b ++ i64Words adjust
  notify 0x0205 w b (bbWrite 2 0 0x0205 w b s)

/-! ### Unlock (R127, R131, R141, R741) -/

/-- The TIMED STEP that is accepted and not yet at its AT (R741). -/
def heldStep (s : State) : Option Cmd := (heldInOrder s).find? fun c => c.opcode == 0x0205 && c.flag 0 0

/-- A STEP that an unlock carries out: its JUMP (`jrem` is J_rem of a slew, or JUMP as last measured while it is not final), whether REF_COUNT is
still to be corrected, and the resume it serves. Log entry 35 (DEDUCED, unsafe). -/
def stepAtUnlock (jrem : Int) (s : State) : Option (Int × Bool × Option Nat) :=
  let cmd := match s.time.step, s.time.resume with
    | some w, _ => w.cmd
    | none, some r => if r.step then some r.cmd else (heldStep s).map fun c => c.id
    | none, none => (heldStep s).map fun c => c.id
  match s.time.tb with
  | .slew => some (jrem, false, cmd)
  | .qualified => if cmd.isSome || s.time.step.isSome then some (if s.time.jumpKnown then s.time.jump else jrem, true, cmd) else none
  | _ => none

/-- The timebase state that an unlock leaves: it relocks on a reference that it follows, or waits for one to qualify (R131). -/
def unlockedState (t : TimeUnit) (step : Bool) : TbState :=
  if t.refPresent && (t.tb == .locked || step) then .relocking else .waitRef

/-- UNLOCK_DETECTED (R85, R127, R129): `jrem` is J_rem at U, which a slew leaves (R141), or JUMP as last measured. Between a captured SYNC edge and
its re-phase nothing is delivered, and the APPLY is dropped. Log entries 21 (DEDUCED, unsafe), 36 (DEDUCED, unsafe). -/
def evUnlockDetected (k : Nat) (jrem : Int) (s : State) : State :=
  if !locked s then s
  else
    let u := k / 32 * 32
    let x := stepAtUnlock jrem s
    let step := x.isSome && s.time.refPresent
    let cmd := x.bind fun y => y.2.2
    let dac := if s.time.tb == .locked then (takeFree s).1.toNat % 2 ^ 20 else s.time.holdDac
    let s0 := if s.time.tb == .locked then (takeFree s).2 else s
    let s1 := match cmd with
      | some id => if step then { s0 with cmds := s0.cmds.map fun d => if d.id == id then { d with phase := .running } else d }
          else completeId id .clock [] s0.index s0
      | none => s0
    let s2 := latchGint 4 (failSyncs (if delivering s then gapStop u 1 (u + 96) (u + 96) false s1 else s1))
    let s3 := setTime (fun t => { t with
      tb := unlockedState t step, unlockIndex := u, unlockCount := satAdd 32 t.unlockCount 1, lockAttempts := 0, estimatedRelock := false,
      holdDac := dac, jump := match x with | some y => if step && y.2.1 then y.1 else t.jump | none => t.jump,
      qualifying := t.refPresent && unlockedState t step == .waitRef, jumpKnown := false, ppsWait := false, step := none,
      applyCapture := none,
      relockStep := if step then x.map fun y => { boundary := u, jump := y.1, correct := y.2.1, cmd := y.2.2 } else none }) s2
    reportUnlock u 0 { s3 with index := if delivering s then u + 95 else s.index }

/-- LOCK_ATTEMPT_FAIL (R130): the fourth failure asserts FAULT_N and freezes the black box. -/
def evLockAttemptFail (s : State) : State :=
  if s.time.tb != .relocking then s
  else
    let n := s.time.lockAttempts + 1
    let s1 := setTime (fun t => { t with lockAttempts := n }) s
    if n = 4 then setFault 1 (notify 0x0209 [4] s1.index (bbWrite 2 0 0x0209 [4] s1.index s1)) else s1

/-- STEP_BOUNDARY (R139, R158): products close at B. `measured` is J_rem of a slew that stops here, or JUMP measured again (R141). A
reference lost since leaves the STEP unmade (R741). Log entry 35 (DEDUCED, unsafe). -/
def evStepBoundary (measured : Int) (s : State) : State :=
  match s.time.step with
  | none => s
  | some w =>
    if !locked s then s
    else if !(s.time.tb == .slew || (s.time.tb == .qualified && s.time.refPresent)) then
      let s1 := setTime (fun t => { t with step := none }) s
      match w.cmd with
      | some id => completeId id .clock [] w.boundary s1
      | none => s1
    else
      let slew := s.time.tb == .slew
      let j := if slew || w.remeasure then measured else s.time.jump
      let b := w.boundary
      let s1 := gapStop b 3 b (b + 96) true s
      let s2 := setTime (fun t => { t with
        tb := .relocking, unlockIndex := b, lockAttempts := 0, estimatedRelock := false, jump := if slew then t.jump else j, step := none,
        relockStep := some { boundary := b, jump := j, correct := !slew, cmd := w.cmd } }) s1
      reportUnlock b 1 { s2 with index := b + 95 }

/-! ### Lock (R121, R124, R125, R127, R131, R139) -/

/-- Whole alignment periods from SYNC_REF to the first alignment edge at or after edge `n`. -/
def alignCount (t : TimeUnit) (n : Int) : Int := -((t.syncRef - n) / (max 1 (alignRef t) : Nat))

/-- index(n) of R124 for that edge. -/
def indexOfEdge (t : TimeUnit) (n : Int) : Nat := (t.syncIndex + alignCount t n * alignSamples t).toNat

/-- The alignment edge itself. -/
def edgeOf (t : TimeUnit) (n : Int) : Nat := (t.syncRef + alignCount t n * alignRef t).toNat

/-- REF_COUNT of the re-phase edge, corrected by a STEP before it (R139, R741). -/
def rephaseEdge (t : TimeUnit) (edge : Nat) : Int :=
  match t.relockStep with
  | some r => if r.correct then (edge : Int) - wholePeriods t r.jump else edge
  | none => edge

/-- The first lock after power-up (R125): generation 0 starts at INDEX_START. Log entries 36 (DEDUCED, unsafe), 39 (DESIGN CHOICE, safe). -/
def firstLock (edge band : Nat) (s : State) : State :=
  let v := s.time.indexStart
  let s1 := setTime (fun t => { t with
    tb := .locked, everLocked := true, syncRef := edge, syncIndex := v, refCount := edge, refIndex := v, vcoBand := band, refPresent := true, qualifying := false,
    estimatedRelock := false, lockAttempts := 0 }) { s with index := v, hist := { s.hist with first := v } }
  endFault 1 (setMaint (fun m => { m with sliceFrom := v + 1 }) (skipGap 0 v (gapStart v s1)))

/-- LOCK_CONFIRMED (R127, R131, R139, R141): the dividers are re-phased, and samples resume at V.
Log entries 34 (DEDUCED, unsafe), 36 (DEDUCED, unsafe). -/
def evLockConfirmed (edge band : Nat) (s : State) : State :=
  let t := s.time
  if t.tb != .relocking || !t.configCmds.isEmpty || s.hub.tripped then s
  else if !t.everLocked then firstLock edge band s
  else
    let n := rephaseEdge t (max edge (refCountNow s))
    let v := indexOfEdge t n
    let isStep := t.relockStep.isSome
    let moved : Int := match t.relockStep with | some r => 16 * stepAdjust r.jump | none => 0
    let s1 := setTime (fun t => { t with
      tb := .locked, vcoBand := band, refCount := edgeOf t n, refIndex := v, ppsAt := t.ppsAt.map (fun p => p + moved), estimatedRelock := false, lockAttempts := 0, relockStep := none,
      indexEstimated := t.indexEstimated || t.estimatedRelock,
      syncRef := if isStep then edgeOf t n else t.syncRef, syncIndex := if isStep then v else t.syncIndex,
      gen := if isStep then (t.gen + 1) % 65536 else t.gen }) { s with index := v }
    let s2 := skipGap t.unlockIndex v (gapStart v (if isStep then renumber v s1 else s1))
    let s3 := match t.relockStep with
      | some r =>
        let a := match r.cmd with
          | some id => completeId id .ok (resumePayload true t.jump (stepAdjust r.jump)) r.boundary s2
          | none => s2
        reportStep r.boundary (stepAdjust r.jump) a
      | none => endResume s2
    endFault 1 (reportRelock v s3)

/-! ### A new numbering in QUIET (R126, R153, R742) -/

/-- A tuner whose K exceeds fs/1,000 takes its power-up settings (R216). -/
def revertTuner (fs : Nat) (u : Tuner) : Tuner :=
  if fs * 2 ^ 32 < 1000 * u.decim then
    { u with snap := Tuner.power.snap, decim := Tuner.power.decim, gainShift := 0, delayAdj := 0, configReset := true }
  else u

/-- The place of the last accepted PPS edge before the present index at the sample rate of a new configuration (R143). -/
def ppsRescaled (s : State) (freq div fb : Nat) : Option Int :=
  s.time.ppsAt.map fun p =>
    (16 * s.index : Nat) - roundDiv (((16 * s.index : Nat) - p) * (freq * fb * s.time.refDiv : Nat)) (s.time.refFreq * s.time.fbDiv * div)

/-- TIME_SPLL_CONFIG begins (R121, R153): the SPLL is muted and relocks with the new configuration.
Log entries 33 (DEDUCED, unsafe), 34 (DEDUCED, unsafe). -/
def startSpllConfig (c : Cmd) (s : State) : State :=
  let u := s.index + 1
  let s0 := if s.time.tb == .locked then setTime (fun t => { t with holdDac := (takeFree s).1.toNat % 2 ^ 20 }) (takeFree s).2 else s
  let s1 := endResume (failSyncs (if delivering s0 then gapStop u 1 u u false s0 else s0))
  let count := refCountNow s
  let place := ppsRescaled s (c.word 0).toNat (c.arg 1 7 0) (c.arg 1 28 16)
  let s2 := setTime (fun t => { t with
    refFreq := (c.word 0).toNat, refDiv := c.arg 1 7 0, fbDiv := c.arg 1 28 16, indexStart := c.arg64 2, tb := .relocking,
    refCount := count, refIndex := s.index, ppsAt := place,
    unlockIndex := if t.configCmds.isEmpty && locked s then u else t.unlockIndex, configCmds := t.configCmds ++ [c.id], lockAttempts := 0,
    estimatedRelock := false, qualifying := false, jumpKnown := false, ppsWait := false, relockStep := none, applyCapture := none }) s1
  setTdc (fun x => { x with notReady := true }) { s2 with tuners := s2.tuners.map (revertTuner (fsOf s2.time)) }

/-- TIME_SPLL_CONFIG (R118, R119, R153). -/
def specTimeSpllConfig : CmdSpec :=
  { opcode := 0x0200, plen := plenIs 4, modes := fun m _ => m == .quiet, addr := fun _ => [unitNo 2 255],
    params := fun _ c => spllConfigOk c,
    clock := fun s _ => !s.time.refPresent,
    run := fun c _ s => (startSpllConfig c s, .later) }

/-- The samples from V′ that a new numbering delivers with INV = 1 (R187, R742). -/
def invAtNew (v : Nat) (s : State) : State :=
  { s with conv := { s.conv with channels := s.conv.channels.map (addInv v (v + 1024)) } }

/-! ### The SYNC edge of an APPLY (R126, R156) -/

/-- An APPLY takes the captured edge `n` (R126): no sample after it is delivered until the re-phase. -/
def captureApply (w : SyncWait) (n : Nat) (s : State) : State :=
  let u := s.index + 1
  setTime (fun t => { t with applyCapture := some { at_ := s.index, syncRef := n, syncIndex := w.syncIndex } }) (gapStop u 1 u u false s)

/-- SYNC_EDGE_CAPTURE (R126, R156): the REFIN edge at which REF_COUNT stands samples the source high, and every TIME_SYNC that waits for that source
completes. An APPLY outside QUIET completes with MODE. -/
def evSyncEdgeCapture (pps : Bool) (s : State) : State :=
  if !delivering s || s.time.tb.isHoldover then s
  else
    let n := refCountNow s
    let payload : List Word := 1#32 :: (u64Words n ++ [BitVec.ofInt 32 (alignDistance s.time n)])
    let due := s.time.syncs.filter fun w => w.pps == pps
    due.foldl (fun a w =>
      if !w.apply then completeId w.cmd .ok payload s.index a
      else if s.mode == .quiet then completeId w.cmd .ok payload s.index (captureApply w n a)
      else completeId w.cmd .mode [] s.index a) (setTime (fun t => { t with syncs := t.syncs.filter (fun w => w.pps != pps) }) s)

/-- The alignment periods from the captured edge to the first alignment edge at least 1 µs later (R126). -/
def rephaseCount (t : TimeUnit) : Nat := ceilDiv t.refFreq (1000000 * alignRef t)

/-- The re-phase of an APPLY (R126, R742): V′ is the index of the re-phase edge under the new epoch. -/
def rephaseApply (x : ApplyCapture) (s : State) : State :=
  let t := s.time
  let m := rephaseCount t
  let v := x.syncIndex + m * alignSamples t
  let moved : Int := 16 * ((v : Int) - (x.at_ + m * alignSamples t : Nat))
  let s1 := setTime (fun t => { t with
    syncRef := x.syncRef, syncIndex := x.syncIndex, gen := (t.gen + 1) % 65536, indexEstimated := false, applyCapture := none,
    refCount := x.syncRef + m * alignRef t, refIndex := v, ppsAt := t.ppsAt.map (fun p => p + moved) }) s
  skipGap (x.at_ + 1) v (gapStart v (invAtNew v (renumber v { s1 with index := v })))

/-- TIMEBASE_REPHASE (R126, R742): at the re-phase edge of an APPLY, which the captured edge fixes, or at the restart of TIME_SPLL_CONFIG, whose first
unmuted alignment edge is REFIN edge `edge`, the numbering restarts at V′.
Log entries 33 (DEDUCED, unsafe), 34 (DEDUCED, unsafe). -/
def evTimebaseRephase (edge band : Nat) (s : State) : State :=
  let t := s.time
  if t.tb == .relocking && !t.configCmds.isEmpty && !s.hub.tripped then
    let v := t.indexStart
    let n := max edge t.refCount
    let passed : Int := (16 * (n - t.refCount) * t.fbDiv / max 1 t.refDiv : Nat)
    let s1 := setTime (fun t => { t with
      tb := .locked, everLocked := true, syncRef := n, syncIndex := v, refCount := n, refIndex := v, vcoBand := band, configCmds := [],
      ppsAt := t.ppsAt.map (fun p => p + 16 * ((v : Int) - s.index) - passed), indexEstimated := false, gen := if t.everLocked then (t.gen + 1) % 65536 else 0, lockAttempts := 0 }) { s with index := v }
    let s2 := gapStart v (invAtNew v (renumber v s1))
    let s3 := if t.everLocked then s2 else setMaint (fun m => { m with sliceFrom := v + 1 }) s2
    let w := u64Words (fsOf s3.time) ++ [BitVec.ofNat 32 (alignSamples s3.time), BitVec.ofNat 32 (alignRef s3.time)]
    t.configCmds.foldl (fun a id => completeId id .ok w v a) (endFault 1 (skipGap t.unlockIndex v s3))
  else match t.applyCapture with
    | some x => if locked s then rephaseApply x s else s
    | none => s

end Sys2Proof.Machine
end

