-- ==== Sys2Proof/Machine/Protocol.lean ====
section
/-! DEFINITION. Sources and destinations of commands (R41-R91): the register window, the queue pairs, the management SPI, the Ethernet control
port, notices, the fetching of commands, and the system commands for them. -/

namespace Sys2Proof.Machine

/-! ### Commands arrive -/

/-- The device takes commands (R85, R620, R623, R665): its firmware or its ROM serves it, and a lockstep pair runs. -/
def serves (s : State) : Bool := (s.ready || s.hub.fw.recovery) && coresRun s

/-- The command in a packet (R41). -/
def commandOf (p : Packet) (id arrival : Nat) : Cmd :=
  { id := id, opcode := opcodeOf p, src := p.src, flags := flagsOf p, plen := plenOf p, tag := tagOf p, atIndex := atOf p, inline := inlineOf p,
    fetched := p.fetched, arrival := arrival, phase := .waiting, replied := false, mute := false, origin := srcRank p.src, mseq := 0 }

/-- Fetched commands enter in fetch order, waiting for their ordering conditions (R52, R57). Log entry 6 (DESIGN CHOICE, safe). -/
def submitCmd (p : Packet) (s : State) : State :=
  { s with nextId := s.nextId + 1, cmds := s.cmds ++ [commandOf p s.nextId s.index] }

/-! ### Queue pairs (R66-R73) -/

/-- The error that setting EN finds (R70, R71), 0 for none. Log entry 22 (DEDUCED, unsafe). -/
def enableError (p : QueuePair) : Nat :=
  if field p.sqBaseLo 11 0 != 0 || field p.rqBaseLo 11 0 != 0 || field p.rxbBaseLo 11 0 != 0 || field p.rqwbLo 1 0 != 0 then 3
  else if !(decide (4 ≤ field p.sqSize 3 0) && decide (field p.sqSize 3 0 ≤ 12) && decide (4 ≤ field p.rqSize 3 0) && decide (field p.rqSize 3 0 ≤ 12)) then 5
  else if p.sqEntries ≤ p.sqTail then 1
  else if p.rqEntries ≤ p.rqHead then 2
  else 0

/-- A write of QP_CTRL (R67, R70, R71, R73): once EN is set again, the replies that a stopped pair holds are written. Log entry 22 (DEDUCED, unsafe). -/
def writeQpCtrl (q : Nat) (v : Word) (s : State) : State :=
  let p := qpOf s q
  let w := v &&& 0x3F0F#32
  if bit w 0 && !p.enabled then
    let code := enableError p
    if code != 0 then stopQp q code (setQp q (fun p => { p with ctrl := w &&& 0x3F0E#32 }) s)
    else
      let s1 := setQp q (fun p => { p with
        ctrl := w, sqHead := p.sqTail, rqTail := p.rqHead, err := false, errCode := 0, rq := [], unsignalled := 0, heldReplies := [] }) s
      p.heldReplies.foldl (fun a e => replyQp q e a) s1
  else setQp q (fun p => { p with ctrl := w }) s

/-- A write of SQ_TAIL (R71). While EN = 0, and while the pair is stopped, it records the value. Log entries 22 (DEDUCED, unsafe), 111 (DESIGN CHOICE, unsafe). -/
def writeSqTail (q : Nat) (v : Word) (s : State) : State :=
  let p := qpOf s q
  let n := p.sqEntries
  if !p.enabled || p.err then setQp q (fun p => { p with sqTail := v.toNat }) s
  else if n ≤ v.toNat || (v.toNat + n - p.sqHead) % n < p.sqWork then stopQp q 1 s
  else setQp q (fun p => { p with sqTail := v.toNat }) s

/-- A write of RQ_HEAD (R71), as for SQ_TAIL. Log entries 22 (DEDUCED, unsafe), 111 (DESIGN CHOICE, unsafe). -/
def writeRqHead (q : Nat) (v : Word) (s : State) : State :=
  let p := qpOf s q
  let n := p.rqEntries
  let d := (v.toNat + n - p.rqHead) % n
  if !p.enabled || p.err then setQp q (fun p => { p with rqHead := v.toNat }) s
  else if n ≤ v.toNat || p.rqUsed < d then stopQp q 2 s
  else setQp q (fun p => { p with rqHead := v.toNat, rq := p.rq.drop d }) s

/-- QP_STATUS (R68). -/
def qpStatus (s : State) (q : Nat) : Word :=
  let p := qpOf s q
  let n := outstandingOf s q
  let idle := n == 0 && p.heldReplies.isEmpty && !(s.hub.replies.any fun r => srcRank r.1.src == q)
  BitVec.ofNat 32 (oneIf idle + oneIf p.err * 2 + p.errCode * 16 + n % 8192 * 65536)

/-- Write a register of a queue pair (R66, R70). -/
def writeQpReg (q off : Nat) (v : Word) (s : State) : State :=
  let free (f : QueuePair → QueuePair) : State := if (qpOf s q).enabled then s else setQp q f s
  match off with
  | 0x00 => free fun p => { p with sqBaseLo := v }
  | 0x04 => free fun p => { p with sqBaseHi := v }
  | 0x08 => free fun p => { p with sqSize := v &&& 0xF#32 }
  | 0x0C => writeSqTail q v s
  | 0x20 => free fun p => { p with rqBaseLo := v }
  | 0x24 => free fun p => { p with rqBaseHi := v }
  | 0x28 => free fun p => { p with rqSize := v &&& 0xF#32 }
  | 0x2C => writeRqHead q v s
  | 0x38 => free fun p => { p with rxbBaseLo := v }
  | 0x3C => free fun p => { p with rxbBaseHi := v }
  | 0x40 => writeQpCtrl q v s
  | 0x48 => setQp q (fun p => { p with coal := v &&& 0x00FFFFFF#32 }) s
  | 0x58 => free fun p => { p with rqwbLo := v }
  | 0x5C => free fun p => { p with rqwbHi := v }
  | _ => s

/-- Read a register of a queue pair (R66). -/
def readQpReg (s : State) (q off : Nat) : Word :=
  let p := qpOf s q
  match off with
  | 0x00 => p.sqBaseLo
  | 0x04 => p.sqBaseHi
  | 0x08 => p.sqSize
  | 0x0C => BitVec.ofNat 32 p.sqTail
  | 0x10 => BitVec.ofNat 32 p.sqHead
  | 0x20 => p.rqBaseLo
  | 0x24 => p.rqBaseHi
  | 0x28 => p.rqSize
  | 0x2C => BitVec.ofNat 32 p.rqHead
  | 0x30 => BitVec.ofNat 32 p.rqTail
  | 0x38 => p.rxbBaseLo
  | 0x3C => p.rxbBaseHi
  | 0x40 => p.ctrl
  | 0x44 => qpStatus s q
  | 0x48 => p.coal
  | 0x50 => p.cmdCount
  | 0x54 => p.rejCount
  | 0x58 => p.rqwbLo
  | 0x5C => p.rqwbHi
  | _ => 0

/-! ### The register window (R82-R85, R634, R689) -/

/-- Word `i` of an image header in a flash slot (R621): flash bytes are kept inverted. -/
def flashWord (f : FlashSlot) (i : Nat) : Word :=
  let b (k : Nat) : Nat := (readCell f.data (4 * i + k) ^^^ 0xFF#8).toNat
  BitVec.ofNat 32 (b 0 + b 1 * 2 ^ 8 + b 2 * 2 ^ 16 + b 3 * 2 ^ 24)

/-- A header word of the running image (R621); 0 in recovery and before a boot. -/
def runningHeader (s : State) (i : Nat) : Word :=
  if s.hub.fw.recovery || !s.ready then 0 else flashWord (s.hub.fw.slots.getD s.hub.fw.running default) i

/-- UNITS (R689). -/
def unitsWord : Variant → Word
  | .ka4820 => 0x001FFFFF#32 | .ka2820 => 0x00004FD3#32 | .ka1820 => 0x000004D1#32

/-- COMPAT_MAX (R689): the highest level that the silicon and its image support. Log entry 16 (DEDUCED, unsafe). -/
def compatMax : Nat := 1

/-- IDCODE (R653). Log entry 100 (DESIGN CHOICE, safe). -/
def idcode (s : State) : Word :=
  BitVec.ofNat 32 (1 + Config.jep106 % 2 ^ 11 * 2 + s.variant.code * 2 ^ 12 + Config.stepping % 16 * 2 ^ 28)

/-- Read a 32-bit location of BAR0. Log entry 100 (DESIGN CHOICE, safe). -/
def readReg (s : State) (off : Nat) : Word :=
  if 0x1000 ≤ off && off < 0x2000 then readQpReg s ((off - 0x1000) / 256) (off % 256)
  else match off with
    | 0x0000 => idcode s
    | 0x0004 => BitVec.ofNat 32 (s.variant.code + Config.stepping % 16 * 2 ^ 16)
    | 0x0008 => BitVec.ofNat 32 (s.compat + compatMax * 2 ^ 16)
    | 0x000C => 0x00000001#32
    | 0x0010 => runningHeader s 3
    | 0x0014 => unitsWord s.variant
    | 0x0018 => Config.ecid 0
    | 0x001C => Config.ecid 1
    | 0x0020 => Config.ecid 2
    | 0x0024 => Config.ecid 3
    | 0x0028 => 0x00000001#32
    | 0x0100 => gstatus s
    | 0x0104 => s.glob.gintStatus
    | 0x0108 => s.glob.gintEnable
    | 0x010C => s.glob.gintVector
    | 0x0110 => lo32 s.index
    | 0x0114 => s.glob.indexHi
    | 0x0118 => BitVec.ofNat 32 s.glob.noticeLostCount
    | 0x2000 => BitVec.ofNat 32 (oneIf s.bb.frozen.isSome + s.bb.freezeEvent * 65536)
    | 0x2004 => BitVec.ofNat 32 s.bb.nextSeq
    | 0x2008 => BitVec.ofNat 32 s.bb.freezeSeq
    | 0x200C => BitVec.ofNat 32 s.bb.suppressed
    | 0x2010 => BitVec.ofNat 32 s.bb.lastReset
    | 0x2014 => BitVec.ofNat 32 s.bb.warmResets
    | 0x2018 => BitVec.ofNat 32 s.bb.watchdogResets
    | 0x201C => BitVec.ofNat 32 s.bb.coreRecoveries
    | 0x2020 => BitVec.ofNat 32 (s.bb.linkErrors.getD 0 0)
    | 0x2024 => if s.variant.tiles = 2 then BitVec.ofNat 32 (s.bb.linkErrors.getD 1 0) else 0
    | 0x2028 => BitVec.ofNat 32 (s.hub.fw.running + oneIf s.bb.fallback * 2)
    | _ => 0

/-- What a read leaves behind (R84): INDEX_LO latches INDEX_HI. -/
def afterRead (bar off : Nat) (s : State) : State :=
  if bar = 0 && off = 0x0110 then { s with glob := { s.glob with indexHi := hi32 s.index } } else s

/-- Clear causes of GINT_STATUS (R84). -/
def clearGint (v : Word) (s : State) : State := { s with glob := { s.glob with gintStatus := s.glob.gintStatus &&& ~~~v } }

/-- Enabling a latched cause raises GINT_VECTOR (R84). Log entry 24 (DESIGN CHOICE, unsafe). -/
def writeGintEnable (v : Word) (s : State) : State :=
  let w := v &&& 0x3F#32
  let s1 := { s with glob := { s.glob with gintEnable := w } }
  if (s.glob.gintStatus &&& w &&& ~~~s.glob.gintEnable) = 0 then s1 else raiseVector (field s.glob.gintVector 5 0) s1

/-- Write a 32-bit location of BAR0 (R82-R84); reserved and read-only ones ignore it. -/
def writeReg (off : Nat) (v : Word) (s : State) : State :=
  if 0x1000 ≤ off && off < 0x2000 then writeQpReg ((off - 0x1000) / 256) (off % 256) v s
  else match off with
    | 0x0104 => clearGint v s
    | 0x0108 => writeGintEnable v s
    | 0x010C => { s with glob := { s.glob with gintVector := v &&& 0x3F#32 } }
    | _ => s

/-- Store a word of BAR2 (R82): the MSI-X table of 64 entries; the pending-bit array is read-only. -/
def writeBar2 (off : Nat) (v : Word) (s : State) : State :=
  if off < 0x400 then
    { s with glob := { s.glob with bar2 := s.glob.bar2.filter (fun x => x.1 != off) ++ (if v = 0 then [] else [(off, v)]) } }
  else s

def readBar2 (s : State) (off : Nat) : Word := ((s.glob.bar2.find? fun x => x.1 == off).map fun x => x.2).getD 0

/-- One aligned 32-bit read of a BAR (R82). -/
def readWord (bar off : Nat) (s : State) : Word × State :=
  (if bar = 0 then readReg s off else if bar = 2 then readBar2 s off else 0, afterRead bar off s)

/-- A read access (R82): a byte or a halfword is the addressed bytes of its word, and a 64-bit access acts as two, low address first. An access that
crosses its word is none of these, and reads nothing. Log entry 24 (DESIGN CHOICE, unsafe). -/
def readAccess (bar size off : Nat) (s : State) : List Byte × State :=
  let r := readWord bar (off / 4 * 4) s
  if size = 8 && off % 8 = 0 then
    let h := readWord bar (off + 4) r.2
    (wordBytes r.1 ++ wordBytes h.1, h.2)
  else if size ≤ 4 && off % 4 + size ≤ 4 then (((wordBytes r.1).drop (off % 4)).take size, r.2)
  else ([], s)

/-- One aligned 32-bit write to a BAR. Log entry 24 (DESIGN CHOICE, unsafe). -/
def writeBar (bar off : Nat) (v : Word) (s : State) : State :=
  if bar = 0 then writeReg off v s else if bar = 2 then writeBar2 off v s else s

/-- REGISTER_WRITE (R82, R83): a 64-bit access acts as two, low address first; bytes and halfwords are ignored.
Log entry 24 (DESIGN CHOICE, unsafe). -/
def evRegisterWrite (bar size off : Nat) (value : BitVec 64) (s : State) : State :=
  if !s.hub.pcieUp then s
  else if size = 4 && off % 4 = 0 then writeBar bar off (value.extractLsb' 0 32) s
  else if size = 8 && off % 8 = 0 then writeBar bar (off + 4) (value.extractLsb' 32 32) (writeBar bar off (value.extractLsb' 0 32) s)
  else s

/-- The rows that are register accesses over PCIe (R66, R84). -/
def evSqTailDoorbell (q : Nat) (v : Word) (s : State) : State := if s.hub.pcieUp then writeSqTail q v s else s
def evRqHeadWrite (q : Nat) (v : Word) (s : State) : State := if s.hub.pcieUp then writeRqHead q v s else s
def evGintStatusClear (v : Word) (s : State) : State := if s.hub.pcieUp then clearGint v s else s

/-- QP_ENABLE (R70): a write of QP_CTRL that sets EN. -/
def evQpEnable (q : Nat) (v : Word) (s : State) : State := if s.hub.pcieUp then writeQpCtrl q (v ||| 1#32) s else s

/-- QP_DISABLE (R73): a write of QP_CTRL that clears EN. -/
def evQpDisable (q : Nat) (v : Word) (s : State) : State := if s.hub.pcieUp then writeQpCtrl q (v &&& ~~~1#32) s else s

/-- INDEX_LO_READ (R82, R84): a read access to BAR0. -/
def evIndexLoRead (size off : Nat) (s : State) : State :=
  if s.hub.pcieUp then
    let r := readAccess 0 size off s
    emit (.readData r.1) r.2
  else s

/-- COAL_TIME_EXPIRY (R69). -/
def evCoalTimeExpiry (q : Nat) (s : State) : State :=
  let p := qpOf s q
  if bit p.ctrl 3 && field p.coal 23 8 != 0 && decide (0 < p.unsignalled) then
    raiseVector (field p.ctrl 13 8) (setQp q (fun p => { p with unsignalled := 0 }) s)
  else s

/-! ### Fetching (R60, R72, R74) -/

/-- The pair may fetch its next entry (R72). -/
def mayFetch (s : State) (q : Nat) : Bool :=
  let p := qpOf s q
  s.ready && coresRun s && s.hub.pcieUp && p.enabled && !p.err && decide (0 < p.sqWork)
    && decide (reservedOf s q + 2 ≤ p.rqFree)

/-- The queue pair whose turn it is (R74): the next one with work after the one served last. Log entry 27 (DEDUCED, unsafe). -/
def nextPair (s : State) : Option Nat := ((List.range 16).map fun i => (s.glob.turn + 1 + i) % 16).find? (mayFetch s)

/-- COMMAND_FETCH (R60, R72, R74): the pair whose turn it is fetches the entry of 64 bytes at SQ_HEAD, which becomes a command.
Log entries 6 (DESIGN CHOICE, safe), 27 (DEDUCED, unsafe). -/
def evCommandFetch (q : Fin 16) (got : Fetched) (s : State) : State :=
  if nextPair s != some q.val then s
  else
    let s1 := { s with glob := { s.glob with turn := q.val } }
    let p := qpOf s q.val
    match got with
    | .dmaError => stopQp q.val 4 s1
    | .entry bytes fetched =>
      if hostFails s (join64 p.sqBaseLo p.sqBaseHi + 64 * p.sqHead) 64 then stopQp q.val 4 s1
      else
        submitCmd { src := .qp q, words := wordsOfBytes (bytes.take 64), fetched := fetched }
          (setQp q.val (fun p => { p with sqHead := (p.sqHead + 1) % p.sqEntries, cmdCount := p.cmdCount + 1 }) s1)

/-! ### Notices (R76, R77) -/

/-- NOTICE_DELIVERY (R76): once its destination has room again, NOTICE_LOSS goes first after a loss, else the oldest held notice. One whose write
fails stays held. Log entry 110 (DESIGN CHOICE, unsafe). -/
def evNoticeDelivery (d : Nat) (s : State) : State :=
  let b := noticeBuf s d
  let deliver (e : Entry) (left : NoticeBuffer → NoticeBuffer) : State :=
    match putNotice d e s with
    | (a, true) => setNoticeBuf d left a
    | (a, false) => a
  if !noticeRoom s d then s
  else if 0 < b.lost then deliver (noticeEntry 0x0001 [BitVec.ofNat 32 b.lost] s.index) (fun b => { b with lost := 0 })
  else match b.held with
    | [] => s
    | e :: t => deliver e (fun b => { b with held := t })

/-! ### The management SPI (R78, R79, R686) -/

/-- Reply entries that the SPI keeps for its outstanding commands (R77). Log entry 25 (DEDUCED, unsafe). -/
def spiReserved (s : State) : Nat := ((s.cmds.filter fun c => srcRank c.src == 16).map fun c => if c.replied then 1 else 2).sum

/-- SUBMIT_OK (R79): fewer than 16 commands are outstanding, and the 32 entries for replies hold two more. Log entry 25 (DEDUCED, unsafe). -/
def submitOk (s : State) : Bool :=
  serves s && decide (outstandingOf s 16 < 16) && decide ((s.spi.unread.filter fun u => !u.1).length + spiReserved s + 2 ≤ 32)

/-- MSPI_IRQ_N is asserted (R686). -/
def mspiIrq (s : State) : Bool := !s.spi.unread.isEmpty

/-- FAULT_N is asserted (R628). Log entry 100 (DESIGN CHOICE, safe). -/
def faultN (s : State) : Bool := s.faultCause != 0

/-- The packet at the start of a run of bytes (R41), with the bytes after it; `none` if they end inside it. -/
def takePacket (bytes : List Byte) : Option (List Word × List Byte) :=
  if bytes.length < 16 then none
  else
    let n := 16 + 4 * (bytes.getD 3 0).toNat
    if bytes.length < n then none else some (wordsOfBytes (bytes.take n), bytes.drop n)

/-- SUBMIT (R79): a packet that is cut short, or that finds SUBMIT_OK = 0, is discarded and sets LOST. Bytes after the packet count for nothing.
Log entries 25 (DEDUCED, unsafe), 6 (DESIGN CHOICE, safe). -/
def spiSubmit (bytes : List Byte) (s : State) : State :=
  match takePacket bytes with
  | some (words, _) =>
    if submitOk s then submitCmd { src := .spi, words := words, fetched := none } s else { s with spi := { s.spi with lost := true } }
  | none => { s with spi := { s.spi with lost := true } }

/-- READ_REPLY (R78, R79): one that is cut short leaves the reply unread. -/
def spiReadReply (cut : Bool) (s : State) : State :=
  if cut then s
  else match s.spi.unread with
    | [] => emit (.readData (List.replicate 32 0xFF#8)) s
    | (_, e) :: t => emit (.readData (bytesOfWords (entryWords e))) { s with spi := { s.spi with unread := t } }

/-- The status byte (R79). -/
def spiStatus (s : State) : Byte := BitVec.ofNat 8 (oneIf (mspiIrq s) + oneIf (submitOk s) * 2 + oneIf s.spi.lost * 4)

/-- READ_STATUS (R79): LOST is cleared. -/
def spiReadStatus (s : State) : State :=
  emit (.readData [spiStatus s]) { s with spi := { s.spi with lost := false } }

/-- An SPI transaction (R78): the instruction byte picks what it does. The bytes that follow it, and whether the chip select rises before the device has
returned its answer, come with it. Log entry 25 (DEDUCED, unsafe). -/
def spiTransaction (code : Byte) (bytes : List Byte) (cut : Bool) (s : State) : State :=
  match code.toNat with
  | 0x01 => spiSubmit bytes s
  | 0x02 => spiReadReply cut s
  | 0x03 => spiReadStatus s
  | _ => s

/-! ### The Ethernet control port (R80, R81, R91) -/

/-- A slot of the allow list admits a source address (R91). -/
def slotAdmits (x : AllowSlot) (snd : Sender) : Bool :=
  let w : Nat → Nat := fun i => (x.address.getD i 0).toNat
  let full := if x.v6 then ((w 0 * 2 ^ 32 + w 1) * 2 ^ 32 + w 2) * 2 ^ 32 + w 3 else w 0
  let n := if x.v6 then 128 else 32
  x.valid && x.v6 == snd.v6 && full / 2 ^ (n - x.prefixLen) == snd.addr / 2 ^ (n - x.prefixLen)

/-- The whole packets of a datagram, back to back (R80); `none` if it ends inside one. -/
def splitPackets : Nat → List Byte → Option (List (List Word))
  | _, [] => some []
  | 0, _ :: _ => none
  | n + 1, b :: t => match takePacket (b :: t) with
    | some (words, rest) => (splitPackets n rest).map fun l => words :: l
    | none => none

/-- The packets of a datagram that is taken (R80): at most 8,192 bytes, with one or more whole packets, from a source in the allow list. -/
def datagramPackets (snd : Sender) (bytes : List Byte) (s : State) : Option (List (List Word)) :=
  if 8192 < bytes.length || bytes.isEmpty || !(s.ctlport.slots.any fun x => slotAdmits x snd) then none
  else splitPackets bytes.length bytes

/-- Two datagrams have the same sender: its address and UDP port, whichever Ethernet port they come by. Log entry 112 (DESIGN CHOICE, unsafe). -/
def sameSender (a b : Sender) : Bool := a.v6 == b.v6 && a.addr == b.addr && a.port == b.port

/-- One packet of an accepted datagram (R80, R81). A source is a sender's address and UDP port. The reply to a packet with QUIET is stored although it is not
sent, and is sent when the packet comes again; a command that SYS_CANCEL withdrew has none, and nothing is sent. Log entries 26 (DEDUCED, unsafe),
112 (DESIGN CHOICE, unsafe). -/
def ctlPacket (snd : Sender) (words : List Word) (s : State) : State :=
  let p : Packet := { src := .ctlport snd, words := words, fetched := none }
  match s.ctlport.remembered.find? fun r => sameSender r.sender snd && r.packet == words with
  | some r => (match r.reply with
    | some e => sendDatagram snd [e] s
    | none => s)
  | none =>
    if 64 ≤ outstandingOf s 17 then
      sendDatagram snd [{ tag := tagOf p, opcode := opcodeOf p, status := .busy, rlen := 0, index := s.index, payload := [] }] s
    else
      let mine := s.ctlport.remembered.filter fun r => sameSender r.sender snd
      let rest := s.ctlport.remembered.filter fun r => !sameSender r.sender snd
      let keep := mine.drop (mine.length - 63) ++ [{ sender := snd, packet := words, cmd := s.nextId, reply := none }]
      submitCmd p { s with ctlport := { s.ctlport with remembered := rest ++ keep } }

/-- CTLPORT_DATAGRAM (R80, R81): a datagram that is not taken is discarded whole and counted. One that comes to an Ethernet port or a UDP port at which
the control port does not listen is any other frame of R410, and so is one that comes while the device takes no commands. Log entries
6 (DESIGN CHOICE, safe), 26 (DEDUCED, unsafe), 112 (DESIGN CHOICE, unsafe). -/
def evCtlportDatagram (snd : Sender) (udp : Nat) (bytes : List Byte) (s0 : State) : State :=
  if !(s0.ctlport.portEn.testBit snd.link) || udp != s0.ctlport.udpPort || !(s0.ready && coresRun s0) then discardRx snd.link s0
  else
    let s := countRx snd.link id s0
    match datagramPackets snd bytes s with
    | none => { s with ctlport := { s.ctlport with discarded := satAdd 32 s.ctlport.discarded 1 } }
    | some packets => packets.foldl (fun a p => ctlPacket snd p a) { s with ctlport := { s.ctlport with last := some snd } }

/-! ### System commands (R87-R91) -/

/-- SYS_NOP (R87). -/
def specSysNop : CmdSpec :=
  { opcode := 0x0000, plen := plenIs 0, timed := fun _ => .sampleDomain, addr := fun _ => [unitNo 0 255], run := fun _ _ s => (s, .done .ok []) }

/-- SYS_NOTICE_ROUTE (R88). -/
def specSysNoticeRoute : CmdSpec :=
  { opcode := 0x0002, plen := plenIs 1, addr := fun _ => [unitNo 0 255],
    params := fun _ c => decide (c.arg 0 7 0 ≤ 0x13) && decide (c.arg 0 12 8 ≤ 17),
    run := fun c _ s => ({ s with routes := s.routes.set (c.arg 0 7 0) (c.arg 0 12 8) }, .done .ok []) }

/-- The target of a SYS_CANCEL (R89): the pending TIMED command of its source with the TAG and the earliest AT. -/
def cancelTarget (c : Cmd) (s : State) : Option Cmd :=
  firstHeld (s.cmds.filter fun d =>
    d.timed && sameSource c.src d.src && d.origin == c.origin && d.tag == c.word 0 && (match d.phase with | .held _ => true | _ => false))

/-- SYS_CANCEL (R89): the target leaves without a reply. -/
def specSysCancel : CmdSpec :=
  { opcode := 0x0003, plen := plenIs 2, modes := notShadow, addr := fun _ => [unitNo 0 255],
    run := fun c _ s => match cancelTarget c s with
      | some d =>
        ({ s with cmds := s.cmds.filter (fun x => x.id != d.id), pair := { s.pair with forwarded := s.pair.forwarded.filter (fun r => r.cmd != d.id) } },
          .done .ok [1])
      | none => (s, .done .ok [0]) }

/-- SYS_GET_INDEX (R90). -/
def specSysGetIndex : CmdSpec :=
  { opcode := 0x0004, plen := plenIs 0, addr := fun _ => [unitNo 0 255],
    run := fun _ _ s => (s, .done .ok (dtsWords (s.index * 2 ^ 32))) }

/-- The allow-list slot in a SYS_CTLPORT (R91). -/
def allowSlotOf (c : Cmd) : AllowSlot :=
  if c.flag 1 3 then { valid := true, v6 := c.flag 1 4, prefixLen := c.arg 1 15 8, address := [c.word 2, c.word 3, c.word 4, c.word 5] }
  else default

/-- SYS_CTLPORT (R80, R91). PREFIX and ADDRESS are checked also where VALID = 0 clears the slot. Log entries 26 (DEDUCED, unsafe),
112 (DESIGN CHOICE, unsafe). -/
def specSysCtlport : CmdSpec :=
  { opcode := 0x0005, plen := plenIs 6, addr := fun _ => [unitNo 0 255],
    params := fun _ c => srcRank c.src != 17 && c.arg 0 31 16 != 0
      && (if c.flag 1 4 then decide (c.arg 1 15 8 ≤ 128) else decide (c.arg 1 15 8 ≤ 32) && c.word 3 == 0 && c.word 4 == 0 && c.word 5 == 0),
    units := fun s c => (maskBits 4 (c.arg 0 3 0)).all fun p => decide (p < s.variant.ports),
    run := fun c _ s =>
      let en := c.arg 0 3 0
      let off := en = 0
      let fresh := off || s.ctlport.portEn = 0
      let port : CtlPort := { s.ctlport with
        portEn := en, udpPort := c.arg 0 31 16, slots := s.ctlport.slots.set (c.arg 1 2 0) (allowSlotOf c), last := if fresh then none else s.ctlport.last }
      let cmds := if off then s.cmds.map (fun d => if srcRank d.src == 17 then { d with mute := true } else d) else s.cmds
      ({ s with ctlport := port, cmds := cmds }, .done .ok []) }

end Sys2Proof.Machine
end

