-- ==== Sys2Proof/Machine/Pair.lean ====
section
/-! DEFINITION. The redundant pair (R580-R614): heartbeats and the strobe, forwarded commands on the mirror, joining, takeover, switching, and the
commands of the Pair group. -/

namespace Sys2Proof.Machine

def setPair (f : PairUnit → PairUnit) (s : State) : State := { s with pair := f s.pair }

/-! ### What the pair shows (R584, R613) -/

def Role.code : Role → Nat
  | .solo => 0 | .primary => 1 | .mirror => 2

def Condition.code : Condition → Nat
  | .joining => 0 | .eligible => 1 | .isolated => 2 | .diverged => 3

def LinkState.code : LinkState → Nat
  | .down => 0 | .training => 1 | .up => 2 | .incompatible => 3

/-- The condition that holds: with its own SPLL unlocked a mirror is not ELIGIBLE (R584), and shows JOINING. Log entry 79 (DEDUCED, unsafe). -/
def conditionNow (s : State) : Condition :=
  if s.pair.condition == .eligible && !locked s then .joining else s.pair.condition

/-- Word 0 of PAIR_STATUS. -/
def pairWord (s : State) : Word :=
  let p := s.pair
  BitVec.ofNat 32 (p.role.code + (if p.role == .mirror then (conditionNow s).code * 4 else 0) + p.link.code * 16 + oneIf p.fourLanes * 64
    + oneIf p.strobeSeen * 128 + oneIf p.deposed * 256)

/-- A MIRROR may take over (R584, R599). -/
def mayTakeOver (s : State) : Bool :=
  s.pair.role == .mirror && (conditionNow s == .eligible || s.pair.condition == .isolated)

/-- The link carries traffic (R582). -/
def linkUp (s : State) : Bool := s.pair.link == .up

/-- The device holds an internal command for an effective index: it answers nobody. Log entry 12 (DESIGN CHOICE, safe). -/
def holdInternal (opcode : Nat) (words : List Word) (e : Option Nat) (s : State) : State :=
  let c : Cmd :=
    { id := s.nextId, opcode := opcode, src := .pairLink, flags := 0, plen := words.length, tag := 0, atIndex := 0, inline := words, fetched := none,
      arrival := s.index, phase := .held e, replied := true, mute := true, origin := 18, mseq := 0 }
  { s with nextId := s.nextId + 1, cmds := s.cmds ++ [c] }

/-! ### Yielding and deposition (R600, R603, R608) -/

/-- A device that yields or is deposed becomes SOLO and enters QUIET at the first SC boundary at least 10 µs later.
Log entry 81 (DEDUCED, unsafe). -/
def depose (s : State) : State :=
  let s1 := setPair (fun p => { p with role := .solo, deposed := true, suppressed := true, mirrored := false, otherEligible := false, handover := none }) s
  holdInternal 0x0001 [0] (if locked s then some (boundaryAfter s 10000) else none) s1

/-- The primary sends YIELD once it is silent. -/
def yieldNow (s : State) : State := depose (emit .pairYield s)

/-- An event of a YIELD class (R608): 0 CLOCK, 1 CONVERTER, 2 EGRESS, 3 CONTROL. -/
def yieldClass (cls : Nat) (s : State) : State := if hasMirror s && s.pair.yieldMask.testBit cls then yieldNow s else s

/-- EGRESS_DOWN_TIMEOUT (R608): a port that a STARTED context's entry names has been down for 1 ms. -/
def evEgressDownTimeout (port : Nat) (s : State) : State :=
  let onPort (e : Nat) : Bool := match (destOf s e).dest with
    | .udp p _ _ _ _ _ _ => p == port
    | _ => false
  if !(portOf s port).linkUp && s.strm.ctxs.any (fun c => c.started && c.cfg.entries.any onPort) then yieldClass 2 s else s

/-- TAKEOVER_REQUEST_RECEIVE (R599, R600). -/
def evTakeoverRequestReceive (s : State) : State := if linkUp s && s.pair.role == .primary then yieldNow s else s

/-- LIVE_STALL (R600): its own LIVE has stood still for half of HB_TIMEOUT. -/
def evLiveStall (s : State) : State :=
  if s.pair.role == .primary && !coresRun s then setPair (fun p => { p with suppressed := true }) s else s

/-! ### Takeover (R599, R601, R606) -/

/-- LAST_SENT of a context: SEQ and index. -/
def lastSentOf (s : State) (n : Nat) : Option (Nat × Nat) := (s.pair.lastSent.find? fun x => x.1 == n).map fun x => x.2

/-- The packets up to LAST_SENT have left the primary. -/
def passLastSent (n : Nat) (s : State) : State :=
  match lastSentOf s n with
  | none => s
  | some (_, idx) =>
    let c := (ctxOf s n).cfg
    let stop := if c.pkind ≤ 1 then elementIndex s c.pkind c.unit ((cellOf s c (elementAt s c.pkind c.unit idx) + 1) * c.p - packetShift s c) else idx + 1
    let old := (unsentOf (ctxOf s n)).filter fun p => decide (p.index < stop)
    old.foldl (fun a p => setCtx n (passSent p.seq) a) s

/-- The bytes of a packet under another SEQ: bytes 4-11 of a KDP header, 0-7 of a VDIF packet. -/
def reseqBytes (c : StreamConfig) (seq : Nat) (bytes : List Byte) : List Byte :=
  let o := if c.vdif then 0 else 4
  bytes.take o ++ bytesOfWords (u64Words seq) ++ bytes.drop (o + 8)

/-- The unsent item packets of a context take the SEQs from `first` on (R595). -/
def renumberItems (n first : Nat) (s : State) : State :=
  setCtx n (fun c =>
    let r := c.packets.foldl (fun (acc : List StoredPacket × Nat) p =>
      if p.sent then (acc.1 ++ [p], acc.2) else (acc.1 ++ [{ p with seq := acc.2, bytes := reseqBytes c.cfg acc.2 p.bytes }], acc.2 + 1)) ([], first)
    { c with packets := r.1, seq := r.2 % 2 ^ 64 }) s

/-- The marks of an item stream become invalid at a takeover (R606). -/
def loseItemMarks (n : Nat) (s : State) : State :=
  (List.range 4).foldl (fun a m =>
    match ((ctxOf a n).marks.getD m default).seq with
    | some q =>
      notify 0x0A01 ([BitVec.ofNat 32 (n + m * 256)] ++ u64Words q) a.index
        (setCtx n (fun c => { c with marks := modAt c.marks m (fun _ => { seq := none, lost := true }) }) a)
    | none => a) s

/-- A context begins live egress after LAST_SENT (R594-R596, R601): an item stream is numbered from there, and sample packets that the store no
longer holds are drops. -/
def resumeCtx (n : Nat) (s : State) : State :=
  let s1 := passLastSent n s
  if 2 ≤ (ctxOf s1 n).cfg.pkind then
    match lastSentOf s n with
    | some (q, _) =>
      loseItemMarks n (setPair (fun p => { p with itemFloor := p.itemFloor.filter (fun x => x.1 != n) ++ [(n, q)] }) (renumberItems n (q + 1) s1))
    | none => loseItemMarks n s1
  else
    match lastSentOf s n, unsentOf (ctxOf s1 n) with
    | some (q, _), p :: _ => setCtx n (fun c => { c with dropped := satAdd 32 c.dropped (p.seq - (q + 1)) }) s1
    | _, _ => s1

/-- Each enabled port announces its addresses (R601); an address of 0 is none (R423). -/
def announce (s : State) : State :=
  (List.range s.variant.ports).foldl (fun a p =>
    let u := portOf a p
    let a1 := if u.en && u.ipv4 != 0 then emit (.gratuitousArp p) a else a
    if u.en && u.ipv6.any (fun w => w != 0) then emit (.unsolicitedAdvert p) a1 else a1) s

/-- The MIRROR becomes PRIMARY (R601); `cause` is 0 YIELD, 1 TIMEOUT, 2 FORCE or 3 SWITCH. -/
def takeOver (cause : Nat) (s : State) : State :=
  let held := pendingTimed s
  let word := [BitVec.ofNat 32 cause, BitVec.ofNat 32 held, BitVec.ofInt 32 s.pair.skew]
  let mute : Cmd → Cmd := fun c => if c.src == .pairLink then { c with mute := true } else c
  let s1 := setPair (fun p => { p with
    role := .primary, suppressed := false, deposed := false, mirrored := false, otherEligible := false, takeovers := satAdd 32 p.takeovers 1,
    switchAt := none, handover := none, forwarded := [] }) { s with mode := s.shadowed, cmds := s.cmds.map mute }
  let s2 := announce s1
  let s3 := if cause = 3 then s2
    else (List.range s2.strm.ctxs.length).foldl (fun a n => if (ctxOf a n).configured then resumeCtx n a else a) s2
  notify 0x1102 word s3.index (bbWrite 0x11 0 0x1102 word s3.index (setPair (fun p => { p with checkpoints := [] }) s3))

/-- YIELD_RECEIVE (R599). -/
def evYieldReceive (s : State) : State := if linkUp s && mayTakeOver s then takeOver 0 s else s

/-- The heartbeats that are missing at an index since the last one (R585, R613): one is due every 10 µs. -/
def missedSince (s : State) (k : Nat) : Nat :=
  match s.pair.heardAt with
  | some a => ((2 * (k - a) * 100000 + fsOf s.time) / (2 * max 1 (fsOf s.time))) - 1
  | none => 0

/-- HB_TIMEOUT of the primary has passed since index `a` (R585, R599). -/
def overdue (s : State) (a : Option Nat) : Bool :=
  match a with
  | some a => decide (s.pair.otherHb * fsOf s.time ≤ (s.index - a) * 1000000)
  | none => true

/-- HEARTBEAT_TIMEOUT (R599): no heartbeat advanced LIVE for HB_TIMEOUT. The heartbeats missing until then are counted. With the strobe present,
a mirror that hears no heartbeat at all becomes ISOLATED, and one that hears heartbeats whose LIVE stands still waits.
Log entry 79 (DEDUCED, unsafe). -/
def evHeartbeatTimeout (s0 : State) : State :=
  let s := setPair (fun p => { p with hbMissed := satAdd 32 p.hbMissed (missedSince s0 s0.index), heardAt := none }) s0
  if !(s0.pair.role == .mirror && conditionNow s0 == .eligible && overdue s0 s0.pair.liveAt) then s0
  else if s0.pair.strobeEn && s0.pair.strobeSeen then
    (if overdue s0 s0.pair.heardAt then setPair (fun p => { p with condition := .isolated }) s else s0)
  else takeOver 1 s

/-- The level of GPIO15, the alive strobe: low while LIVE is stopped (R586, R687). Log entry 100 (DESIGN CHOICE, safe). -/
def strobePin (s : State) : Bool := s.pair.strobe && coresRun s && s.ready

/-- PARTNER_STROBE_EDGE (R586). -/
def evPartnerStrobeEdge (s : State) : State := if s.pair.strobeEn then setPair (fun p => { p with strobeSeen := true }) s else s

/-- PARTNER_STROBE_TIMEOUT (R586, R599): with the strobe absent too, an ISOLATED mirror takes over, and one that waits for LIVE. -/
def evPartnerStrobeTimeout (s : State) : State :=
  let s1 := setPair (fun p => { p with strobeSeen := false }) s
  if s1.pair.strobeEn && s1.pair.role == .mirror
      && (s1.pair.condition == .isolated || (conditionNow s1 == .eligible && s1.pair.liveAt.isSome && overdue s1 s1.pair.liveAt)) then takeOver 1 s1 else s1

/-! ### Heartbeats (R585-R587) -/

/-- LAST_SENT of each STARTED context (R585). -/
def lastSentList (s : State) : List (Nat × Nat × Nat) :=
  s.strm.ctxs.zipIdx.filterMap fun x =>
    match x.1.started, x.1.lastSent with
    | true, some (q, i) =>
      some (x.2, q, if x.1.cfg.pkind ≤ 1 then cellStart s x.1.cfg (elementAt s x.1.cfg.pkind x.1.cfg.unit i) else i)
    | _, _ => none

/-- HEARTBEAT_SEND (R585, R586, R600): LIVE advances and the strobe toggles while a lockstep pair runs. -/
def evHeartbeatSend (s : State) : State :=
  let s1 := if coresRun s && s.ready then
      setPair (fun p => { p with live := (p.live + 1) % 2 ^ 32, strobe := !p.strobe, suppressed := p.suppressed && p.role == .solo }) s
    else s
  if s.pair.link == .up then
    emit (.heartbeat (s1.pair.role == .primary) s1.pair.hbTimeout s1.pair.live s1.index s1.pair.mseq (lastSentList s1)) s1
  else s1

/-- The partner shows itself MIRROR: a SOLO device becomes PRIMARY, and a joining partner is sent the snapshot (R597). -/
def seeMirror (hb : Heartbeat) (s : State) : State :=
  let fresh := !s.pair.mirrored && !hb.eligible
  let s1 := setPair (fun p => { p with mirrored := true, otherEligible := hb.eligible }) s
  if s.pair.role == .mirror then s1
  else
    let s2 := setPair (fun p => { p with role := .primary, deposed := false }) s1
    if fresh then
      emit (.pairSnapshot s.pair.mseq) (setPair (fun p => { p with m0 := p.mseq, noMirrorCount := 0, forwarded := [] }) s2)
    else s2

/-- INDEX_SKEW (R587): by how much the mirror's index at the arrival of a marker, less the latency of the link, is ahead of the index that the
heartbeat carries. Log entry 79 (DEDUCED, unsafe). -/
def skewOf (hb : Heartbeat) (s : State) : Int := (s.index : Int) - s.pair.latency - hb.index

/-- The skew is a mismatch (R587): both devices are locked, and neither coasts. -/
def skewed (s : State) : Bool := decide (12 < s.pair.skew.natAbs) && !s.pair.coasting && locked s && !holdoverNow s.time

/-- The mirror's index check (R587). -/
def checkSkew (s : State) : State :=
  if skewed s && s.pair.condition == .eligible then
    notify 0x1103 [0, 0, BitVec.ofInt 32 s.pair.skew] s.index (setPair (fun p => { p with condition := .diverged }) s)
  else s

/-- The device leaves SHADOW for SOLO in QUIET at index `e` (R610): what was forwarded and still pends is withdrawn. -/
def leaveMirror (e : Nat) (s : State) : State :=
  let s1 := changeMode .quiet e s
  setPair (fun p => { p with
    role := .solo, condition := .joining, join := none, checkpoints := [], switchAt := none, handover := none, mirrored := false, suppressed := false })
    { s1 with mode := .quiet, shadowed := .quiet, cmds := s1.cmds.filter (fun c => c.src != .pairLink) }

/-- The mirror is to leave at the first SC boundary at least 10 µs later; `id` is the command that asked, if one did.
Log entry 79 (DEDUCED, unsafe). -/
def leaveSoon (id : Option Nat) (s : State) : State :=
  if s.cmds.any fun c => c.opcode == 0x1102 && c.src == .pairLink then s
  else holdInternal 0x1102 (match id with
    | some i => [1, BitVec.ofNat 32 i]
    | none => [0, 0]) (if locked s then some (boundaryAfter s 10000) else none) s

/-- HEARTBEAT_RECEIVE (R585, R587, R597, R613). Log entries 76 (DESIGN CHOICE, unsafe), 79 (DEDUCED, unsafe). -/
def evHeartbeatReceive (hb : Heartbeat) (s : State) : State :=
  if !linkUp s then s
  else if hb.mirror then seeMirror hb s
  else
    let s1 := setPair (fun p => { p with mirrored := false, otherEligible := false }) s
    if s.pair.role != .mirror then s1
    else
      let s2 := setPair (fun p => { p with
        hbMissed := satAdd 32 p.hbMissed (missedSince s s.index + oneIf (hb.live == p.otherLive)), heardAt := some s.index,
        liveAt := if hb.live == s.pair.otherLive then s.pair.liveAt else some s.index, otherLive := hb.live,
        otherHb := if hb.primary then hb.hbTimeout else p.otherHb, skew := skewOf hb s, coasting := hb.coasting, lastSent := if hb.primary then hb.lastSent else p.lastSent }) s1
      if !hb.primary then (if s.pair.condition == .joining then s2 else leaveSoon none s2)
      else checkSkew (hb.lastSent.foldl (fun a x => passLastSent x.1 a) s2)

/-! ### The link (R582) -/

/-- PAIR_LINK_TRAINED (R6, R582): the one-way latency in samples, the partner's VARIANT and COMPAT_LEVEL, which must be this device's, and whether the
partner, PRIMARY too, took over after this device (R603). -/
def evPairLinkTrained (latency : Nat) (variant : Variant) (compat : Nat) (later : Bool) (s : State) : State :=
  if !s.pair.linkEn then s
  else if variant != s.variant || compat != s.compat then setPair (fun p => { p with link := .incompatible, mirrored := false, otherEligible := false }) s
  else
    let s1 := setPair (fun p => { p with link := .up, latency := latency }) s
    if s.pair.role == .primary && later then depose s1
    else if s.pair.role == .mirror && s.pair.condition == .isolated && s.pair.autoRejoin then
      setPair (fun p => { p with condition := .joining, join := none, joined := none }) s1
    else s1

/-- The link is down: a join ends with BUSY and REASON 1. -/
def linkDown (s : State) : State :=
  let s1 := setPair (fun p => { p with link := .down, fourLanes := false, mirrored := false, otherEligible := false }) s
  match s.pair.role == .mirror && s.pair.condition == .joining, s.pair.join with
  | true, some id => completeId id .busy [0, 0, 1] s1.index (leaveMirror s1.index s1)
  | true, none => setPair (fun p => { p with condition := .isolated }) s1
  | _, _ => s1

/-- PAIR_LINK_DOWN (R582). -/
def evPairLinkDown (s : State) : State := if s.pair.link == .down then s else linkDown s

/-- PAIR_LANE_FAIL (R582): the link retrains on lanes 0-3. -/
def evPairLaneFail (s : State) : State :=
  if !linkUp s then s
  else setPair (fun p => { p with link := .training, fourLanes := true, retrains := satAdd 32 p.retrains 1 }) s

/-- PAIR_RELAY_PACKET (R409, R606): the partner's packet leaves unchanged through this device's UDP entry. -/
def evPairRelayPacket (entry : Nat) (bytes : List Byte) (s : State) : State :=
  if !linkUp s then s
  else match (destOf s entry).dest with
  | .udp .. =>
    if destReady s entry then sendTo entry bytes s else setPair (fun p => { p with relayDropped := satAdd 32 p.relayDropped 1 }) s
  | _ => setPair (fun p => { p with relayDropped := satAdd 32 p.relayDropped 1 }) s

/-! ### Forwarded commands (R589, R591) -/

/-- FORWARDED_COMMAND (R589, R591, R739): it enters in MSEQ order, with its parameters resolved. A MEM_WRITE brings its data, and is done at once. A primary sends no command that R588 keeps back.
Log entries 75 (DEDUCED, unsafe), 76 (DESIGN CHOICE, unsafe). -/
def evForwardedCommand (f : Forwarded) (s : State) : State :=
  if !linkUp s || s.pair.role != .mirror || neverForwarded f.opcode || decide (18 ≤ f.origin) then s
  else
    let c : Cmd :=
      { id := s.nextId, opcode := f.opcode, src := .pairLink, flags := f.flags &&& 0xEF#8, plen := f.params.length, tag := f.tag, atIndex := f.atIndex,
        inline := f.params, fetched := none, arrival := s.index, phase := .waiting, replied := false, mute := false, origin := f.origin, mseq := f.mseq }
    let s1 := setPair (fun p => { p with mseq := f.mseq }) { s with nextId := s.nextId + 1 }
    if f.opcode = 0x0105 then
      match partForUse s1 (c.word 0) with
      | some p =>
        if transferOk c p && !writtenBy s1 (c.word 0) then
          emit (.pairStatus f.mseq .ok) (poolWrite p.slot (c.word 1).toNat (f.data.take (c.word 2).toNat) s1)
        else emit (.pairStatus f.mseq .badParam) (diverge f.mseq s1)
      | none => emit (.pairStatus f.mseq .badParam) (diverge f.mseq s1)
    else { s1 with cmds := s1.cmds ++ [c] }

/-- DEFERRED or QUEUED: another status is still to come. -/
def Status.isFirst (st : Status) : Bool := st == .deferred || st == .queued

/-- Compare the two statuses of a forwarded command (R591). Log entries 81 (DEDUCED, unsafe), 103 (DEDUCED, unsafe). -/
def compareStatus (r : ForwardRecord) (s : State) : State :=
  match r.own, r.other with
  | some a, some b =>
    let keep := a.isFirst || b.isFirst
    let next : ForwardRecord := { r with own := if a.isFirst then none else r.own, other := if b.isFirst then none else r.other }
    let s1 := setPair (fun p => { p with
      forwarded := if keep then p.forwarded.map (fun x => if x.mseq == r.mseq then next else x) else p.forwarded.filter (fun x => x.mseq != r.mseq) }) s
    if a.code < 0x10 && b.rejects then
      notify 0x1103 [BitVec.ofNat 32 r.mseq, BitVec.ofNat 32 (a.code + b.code * 256), BitVec.ofInt 32 s.pair.skew] s1.index
        (setPair (fun p => { p with divergeMseq := r.mseq, otherEligible := false }) s1)
    else if a != b && (a.isResource || b.isResource || (a == .ok && b == .deferred) || (a == .deferred && b == .ok)) then
      setPair (fun p => { p with resourceMismatch := satAdd 32 p.resourceMismatch 1 }) s1
    else s1
  | _, _ => s

/-- Compare every forwarded command that has both statuses. -/
def compareAll (s : State) : State := s.pair.forwarded.foldl (fun a r => compareStatus r a) s

/-- MIRROR_STATUS_RETURN (R591). Log entry 76 (DESIGN CHOICE, unsafe). -/
def evMirrorStatusReturn (mseq : Nat) (st : Status) (s : State) : State :=
  if !linkUp s then s
  else setPair (fun p => { p with forwarded := p.forwarded.map fun r => if r.mseq == mseq then { r with other := some st } else r }) s

/-- The stored packets of a context take the SEQs that the checkpoints give to their cells (R594). -/
def renumberCells (n : Nat) (s : State) : State :=
  setCtx n (fun c =>
    { c with packets := c.packets.filterMap fun p =>
        let first := elementAt s c.cfg.pkind c.cfg.unit p.index
        match checkpointFor s n first with
        | none => some p
        | some x => (seqByCheckpoint s n first x).map fun q => { p with seq := q, bytes := reseqBytes c.cfg q p.bytes } }) s

/-- MIRROR_STATE_RECEIVE (R593, R594, R604). -/
def evMirrorStateReceive (m : MirrorState) (s : State) : State :=
  if !linkUp s || s.pair.role != .mirror then s
  else match m with
    | .checkpoint n seq cell ends =>
      let s1 := setPair (fun p => { p with checkpoints := p.checkpoints ++ [{ ctx := n, seq := seq, cell := cell, ends := ends }] }) s
      if (ctxOf s1 n).cfg.pkind ≤ 1 then renumberCells n s1 else s1
    | .stepBoundary b =>
      (match s.time.step with
      | some w => setTime (fun t => { t with step := some { w with boundary := b } }) s
      | none => if s.time.tb == .slew || (s.time.tb == .qualified && s.time.jumpKnown) then requestStep b none true s else s)
    | .switchIndex w => setPair (fun p => { p with switchAt := some w }) s

/-! ### Joining (R597, R598) -/

/-- The partitions of the primary, without their contents. -/
def bareParts (l : List Partition) : List Partition :=
  l.map fun p => { p with freeCmd := none, nextAu := none, data := [], poisoned := [], ce := 0, ue := 0, passes := 0 }

/-- The counters of the joining device stay. -/
def keepCounts (old s : State) : State :=
  { s with
    eqs := List.zipWith (fun a b => { b with swapCount := a.swapCount, replacedCount := a.replacedCount, clipCount := a.clipCount, clipFrom := a.clipFrom }) old.eqs s.eqs,
    tuners := List.zipWith (fun a b => { b with invCount := a.invCount, clipCount := a.clipCount, ovrCount := a.ovrCount, countFrom := a.countFrom }) old.tuners s.tuners,
    engines := List.zipWith (fun a b => { b with spectra := a.spectra, invalidSpectra := a.invalidSpectra, prodRecords := a.prodRecords }) old.engines s.engines,
    dens := List.zipWith (fun a b => { b with frames := a.frames, exportLost := a.exportLost, layerSkipped := a.layerSkipped }) old.dens s.dens,
    spgm := List.zipWith (fun a b => { b with lines := a.lines, invalidLines := a.invalidLines, linesLost := a.linesLost }) old.spgm s.spgm,
    trig := { s.trig with
      slots := List.zipWith (fun a b => { b with
        asserts := a.asserts, counted := a.counted, firings := a.firings, wins := a.wins, suppressed := a.suppressed, heldOff := a.heldOff,
        blanked := a.blanked }) old.trig.slots s.trig.slots,
      events := [], records := old.trig.records, recordsLost := old.trig.recordsLost, lastNotice := old.trig.lastNotice, withheld := old.trig.withheld, forced := [] },
    cap := { s.cap with
      queue := old.cap.queue,
      sheaves := List.zipWith (fun a b => { b with
        lastClose := a.lastClose, segments := a.segments, ignored := a.ignored, preShort := a.preShort, early := a.early, truncated := a.truncated })
        old.cap.sheaves s.cap.sheaves },
    intg := { s.intg with
      queue := old.intg.queue, frames := old.intg.frames, droppedSets := old.intg.droppedSets, satFrames := old.intg.satFrames,
      lastNotice := old.intg.lastNotice, withheld := old.intg.withheld },
    th := List.zipWith (fun a b => { b with skFlags := a.skFlags, powFlags := a.powFlags, dropped := a.dropped, restarts := a.restarts }) old.th s.th,
    packers := List.zipWith (fun a b => { b with blocks := a.blocks, noGain := a.noGain, outFull := a.outFull, inBytes := a.inBytes, outBytes := a.outBytes }) old.packers s.packers,
    strm := { s.strm with
      ctxs := List.zipWith (fun a b => { b with
        sent := a.sent, dropped := a.dropped, retx := a.retx, clipped := a.clipped, spoiled := a.spoiled, skipped := a.skipped, packetsSent := a.packetsSent })
        old.strm.ctxs s.strm.ctxs },
    mq := { s.mq with dropped := old.mq.dropped, aborted := old.mq.aborted, flushed := old.mq.flushed, ueItems := old.mq.ueItems, padBytes := old.mq.padBytes } }

/-- The joining device takes over the settings of the primary; its own timebase, converters and counters stay (R597).
Of the commands that wait for their index come those that a primary forwards (`fwd`). Log entries 75 (DEDUCED, unsafe), 80 (DEDUCED, unsafe). -/
def takeSnapshot (fwd : Cmd → Bool) (x : Snapshot) (s : State) : State :=
  let t : TimeUnit := { s.time with
    syncRef := x.time.syncRef, syncIndex := x.time.syncIndex, gen := x.time.gen, epochTai := x.time.epochTai, policy := x.time.policy,
    ppsDisambig := x.time.ppsDisambig, qualMs := x.time.qualMs, slewLimit := x.time.slewLimit, slewMax := x.time.slewMax, indexStart := x.time.indexStart,
    ppsInEn := x.time.ppsInEn, ppsNotice := x.time.ppsNotice, ppsOutEn := x.time.ppsOutEn, ppsOutWidth := x.time.ppsOutWidth }
  let ch : Channel × Channel → Channel := fun y => { y.1 with attens := y.2.attens, cal := y.2.cal, guards := y.2.guards, notices := y.2.notices }
  let ports := x.strm.ports.zipIdx.map fun y =>
    let own := s.strm.ports.getD y.2 default
    { y.1 with linkUp := own.linkUp, txFrames := own.txFrames, rxFrames := own.rxFrames, rxDiscarded := own.rxDiscarded, pauseIgnored := own.pauseIgnored, ptpRxLost := own.ptpRxLost }
  let ctxs := x.strm.ctxs.map fun c => { c with pieces := [], items := [], packets := [], run := none, markWaits := [], rewind := none, lastSent := none }
  let n := s.nextId
  let held := (x.cmds.filter fun c => c.eff.isSome && fwd c && decide (c.origin < 18)).zipIdx.map fun y =>
    { y.1 with
      id := n + y.2, src := .pairLink, inline := y.1.params, fetched := none, flags := (y.1.flags &&& 0xEF#8) ||| 0x01#8, atIndex := y.1.eff.getD 0,
      replied := false, mute := true }
  keepCounts s { s with
    time := t, conv := { s.conv with channels := List.zipWith (fun a b => ch (a, b)) s.conv.channels x.conv.channels, dwellLog2 := x.conv.dwellLog2, hold := x.conv.hold },
    eqs := x.eqs, tuners := x.tuners, engines := x.engines, dens := x.dens, spgm := x.spgm, trig := x.trig, cap := x.cap, intg := x.intg, th := x.th,
    strm := { x.strm with ports := ports, ctxs := ctxs }, packers := x.packers.map (fun p => { p with jobs := [] }),
    mq := { x.mq with items := [], buffer := [], lineEnd := 0, hostPos := 0, readers := x.mq.readers.map (fun r => (r.1, 0)), open_ := none, hostQueue := [], read := none },
    tdc := { s.tdc with
      slots := x.tdc.slots,
      inputs := List.zipWith (fun a b => { a with enabled := b.enabled, falling := b.falling, stuckNotice := b.stuckNotice, stuckUs := b.stuckUs }) s.tdc.inputs x.tdc.inputs },
    pool := { s.pool with parts := bareParts x.pool.parts, generations := x.pool.generations, transfers := [] },
    cmds := s.cmds ++ held, nextId := n + held.length }

/-- SNAPSHOT_RECEIVE (R597): a mismatch of INDEX_SKEW ends the join with CLOCK. The snapshot is a primary's, which is never in SHADOW.
Log entries 75 (DEDUCED, unsafe), 80 (DEDUCED, unsafe). -/
def evSnapshotReceive (fwd : Cmd → Bool) (x : Snapshot) (s : State) : State :=
  if !linkUp s || !(s.pair.role == .mirror && s.pair.condition == .joining) || x.mode == .shadow then s
  else if skewed s then
    let s1 := leaveMirror s.index s
    match s.pair.join with
    | some id => completeId id .clock [] s1.index s1
    | none => s1
  else
    setPair (fun p => { p with m0 := x.m0, mseq := x.m0, joinMode := x.mode, joined := some s.index }) (takeSnapshot fwd x s)

/-- An engine's grid goes on from the first frame that ends after `j` (R597). -/
def joinEngine (j g : Nat) (s : State) : State :=
  if !(engineOf s g).live then s
  else
    let k0 := framePos s g 0 0
    let hop := max 1 (framePos s g 1 0 - k0)
    let n := framePos s g 0 (engineOf s g).cfg.n - k0
    startRun 2 g j (setEngine g (fun e => { e with frame := (j * 2 ^ 32 - (k0 + n)) / hop + 1, group := none }) s)

/-- A density engine goes on with the frame that holds `j` (R597). -/
def joinDensity (j u : Nat) (s : State) : State :=
  let d := densOf s u
  match d.anchor with
  | some a =>
    let len := 32 * max 1 d.cfg.frameSc
    if d.enabled && d.frame.isSome then
      setDens u (fun d => { d with seq := d.seq + (j - (d.frame.map fun f => f.start).getD a) / len, cells := [], frame := some (newDensityFrame (a + (j - a) / len * len)) }) s
    else s
  | none => s

/-- Every unit starts at `j` on the grids of the primary (R597, step 4). Log entry 80 (DEDUCED, unsafe). -/
def joinUnits (j : Nat) (s : State) : State :=
  let s1 := (List.range s.engines.length).foldl (fun a g => joinEngine j g a) s
  let s2 := (List.range s1.dens.length).foldl (fun a u => joinDensity j u a) s1
  let s3 := { s2 with
    spgm := s2.spgm.map (fun u => { u with group := none }), th := s2.th.map (fun t => { t with valid := 0 }),
    trig := { s2.trig with evalIndex := j - 1 }, intg := { s2.intg with frame := none, members := [], gap := none }, hist := { s2.hist with joined := j } }
  let s4 := (List.range 4).foldl (fun a u => startStreams 0 u j (startRun 0 u j a)) s3
  let s5 := (List.range 8).foldl (fun a t => if tunerRunning a t then startStreams 1 t j (startRun 1 t j a) else a) s4
  let s6 := { s5 with cap := { s5.cap with sheaves := s5.cap.sheaves.map (fun h => { h with seg := none, closing := [], lastEnd := none }) } }
  startInt j (restartSlots j true s6)

/-- The partner may choose `j` as J (R597, step 3): a multiple of 32, at least 1 ms after the snapshot has arrived. Log entry 80 (DEDUCED, unsafe). -/
def joinIndexOk (j : Nat) (s : State) : Bool :=
  match s.pair.joined with
  | some a => j % 32 == 0 && decide (a + ceilDiv (fsOf s.time) 1000 ≤ j)
  | none => false

/-- JOIN_INDEX (R597, step 5): the device is ELIGIBLE, and PAIR_JOIN completes with J and m0. Log entry 80 (DEDUCED, unsafe). -/
def evJoinIndex (j : Nat) (s : State) : State :=
  if !(s.pair.role == .mirror && s.pair.condition == .joining && joinIndexOk j s && decide (s.index ≤ j) && locked s) then s
  else
    let early : Cmd → Cmd := fun c => match c.eff with
      | some e => if c.src == .pairLink && e < j then { c with phase := .held (some j) } else c
      | none => c
    let s1 := { s with shadowed := s.pair.joinMode, index := j, cmds := s.cmds.map early }
    let s2 := if modeRunsProducts s1.shadowed then joinUnits j s1 else s1
    let s3 := setPair (fun p => { p with
      condition := if p.divergeMseq = 0 then .eligible else .diverged, deposed := false, noMirrorCount := 0, join := none, joined := none }) s2
    match s.pair.join with
    | some id => completeId id .ok (u64Words j ++ [BitVec.ofNat 32 s.pair.m0]) j s3
    | none => s3

/-! ### Commands (R608-R613) -/

/-- PAIR_CONFIG (R608). -/
def specPairConfig : CmdSpec :=
  { opcode := 0x1100, plen := plenIs 1, addr := fun _ => [unitNo 0x11 255],
    params := fun _ c => decide (20 ≤ c.arg 0 25 16) && decide (c.arg 0 25 16 ≤ 1000),
    run := fun c _ s =>
      let s1 := setPair (fun p => { p with
        linkEn := c.flag 0 0, strobeEn := c.flag 0 1, autoRejoin := c.flag 0 2, yieldMask := c.arg 0 7 4, hbTimeout := c.arg 0 25 16,
        strobeSeen := p.strobeSeen && c.flag 0 1 }) s
      (if c.flag 0 0 then s1 else evPairLinkDown s1, .done .ok []) }

/-- Why a PAIR_JOIN completes with BUSY (R609): 0 for no reason. Log entry 78 (DEDUCED, unsafe). -/
def joinReason (s : State) : Nat := if s.pair.link == .incompatible then 2 else if s.pair.link != .up then 1 else if s.pair.mirrored then 4 else 0

/-- PAIR_JOIN (R597, R609). Log entry 78 (DEDUCED, unsafe). -/
def specPairJoin : CmdSpec :=
  { opcode := 0x1101, plen := plenIs 0, modes := fun m _ => m == .quiet, addr := fun _ => [unitNo 0x11 255],
    role := fun s _ => s.pair.role == .solo, clock := fun s _ => !locked s,
    run := fun c _ s =>
      if joinReason s != 0 then (s, .done .busy [0, 0, BitVec.ofNat 32 (joinReason s)])
      else
        (setPair (fun p => { p with role := .mirror, condition := .joining, join := some c.id, joined := none, divergeMseq := 0, checkpoints := [], lastSent := [], heardAt := none, liveAt := none })
          { s with mode := .shadow, shadowed := .quiet }, .first .deferred) }

/-- PAIR_LEAVE (R610). An internal one is the leaving itself. Log entry 78 (DEDUCED, unsafe). -/
def specPairLeave : CmdSpec :=
  { opcode := 0x1102, plen := fun c => c.plen == (if c.src == .pairLink then 2 else 0), addr := fun _ => [unitNo 0x11 255],
    run := fun c e s =>
      let prev := [BitVec.ofNat 32 s.pair.role.code]
      if c.src == .pairLink then
        let s1 := if s.pair.role == .mirror then leaveMirror e s else s
        (if c.flag 0 0 then completeId (c.word 1).toNat .ok [2] e s1 else s1, .done .ok [])
      else match s.pair.role with
        | .mirror => (leaveSoon (some c.id) s, .later)
        | .primary =>
          (emit .pairDismiss (setPair (fun p => { p with role := .solo, mirrored := false, otherEligible := false, forwarded := [], handover := none }) s), .done .ok prev)
        | .solo => (s, .done .ok prev) }

/-- The roles exchange at W (R604): the old primary is an ELIGIBLE mirror at once. Log entry 77 (DEDUCED, unsafe). -/
def switchRoles (w : Nat) (s : State) : State :=
  setPair (fun p => { p with role := .mirror, condition := .eligible, handover := some w, mirrored := false, otherEligible := false, divergeMseq := 0, checkpoints := [], forwarded := [], heardAt := none, liveAt := none })
    { s with shadowed := s.mode, mode := .shadow }

/-- PAIR_SWITCH (R604, R611). Log entry 77 (DEDUCED, unsafe). -/
def specPairSwitch : CmdSpec :=
  { opcode := 0x1103, plen := plenIs 0, timed := fun _ => .sampleDomain, addr := fun _ => [unitNo 0x11 255],
    modes := fun m _ => m != .quiet && m != .shadow, role := fun s _ => s.pair.role == .primary, params := fun _ c => at32 c,
    busy := fun s _ => !(hasMirror s && s.pair.otherEligible),
    lead := fun _ => some 100000,
    run := fun _ w s =>
      if hasMirror s && s.pair.otherEligible then (switchRoles w s, .done .ok (u64Words w)) else (s, .done .busy []) }

/-- PAIR_TAKEOVER (R612). Log entry 78 (DEDUCED, unsafe). -/
def specPairTakeover : CmdSpec :=
  { opcode := 0x1104, plen := plenIs 0, addr := fun _ => [unitNo 0x11 255], modes := fun m _ => m == .shadow,
    role := fun s _ => s.pair.role == .mirror, busy := fun s _ => !mayTakeOver s,
    run := fun _ _ s =>
      let s1 := if s.pair.link == .up then emit .pairTakeover s else s
      (takeOver 2 s1, .done .ok (u64Words s.index)) }

/-- PAIR_STATUS (R613). -/
def specPairStatus : CmdSpec :=
  { opcode := 0x1105, plen := plenIs 1, addr := fun _ => [unitNo 0x11 255],
    run := fun c _ s =>
      let p := s.pair
      let w : Nat → Word := fun n => BitVec.ofNat 32 n
      (if c.flag 0 8 then setPair (fun p => { p with resourceMismatch := 0, hbMissed := 0, relayDropped := 0, retrains := 0 }) s else s,
        .done .ok [pairWord s, BitVec.ofInt 32 p.skew, w p.mseq, w p.divergeMseq, w p.noMirrorCount, w p.takeovers, w p.resourceMismatch, w p.hbMissed,
          w p.relayDropped, w p.retrains]) }

/-- SWITCH_INDEX (R604) on the mirror: it takes over at W. On the primary the held PAIR_SWITCH does the exchange. -/
def mirrorSwitch (w : Nat) (s : State) : State :=
  if s.pair.switchAt == some w && s.pair.role == .mirror && conditionNow s == .eligible then
    setPair (fun p => { p with handover := some w }) (takeOver 3 s)
  else s

end Sys2Proof.Machine
end

