-- ==== Sys2Proof/Machine/Hub.lean ====
section
/-! DEFINITION. Start-up, resets, faults, firmware and the black box (R21, R615-R650). -/

namespace Sys2Proof.Machine

def setHub (f : HubUnit → HubUnit) (s : State) : State := { s with hub := f s.hub }

def setFw (f : Firmware → Firmware) (s : State) : State := setHub (fun h => { h with fw := f h.fw }) s

/-! ### Images (R621, R622) -/

/-- LENGTH of the image in a slot. -/
def imageLength (f : FlashSlot) : Nat := (flashWord f 2).toNat

/-- The bytes of an image: header, body and signature. -/
def imageBytes (f : FlashSlot) : List Byte := (List.range (64 + imageLength f + 96)).map fun i => readCell f.data i ^^^ 0xFF#8

/-- The image in a slot is valid (R622). Log entry 89 (DESIGN CHOICE, safe). -/
def validImage (fw : Firmware) (slot : Nat) : Bool :=
  let f := fw.slots.getD slot default
  flashWord f 0 == 0x4A5A4E01#32 && field (flashWord f 1) 15 0 == 1 && decide (1 ≤ imageLength f) && decide (imageLength f ≤ 3670016)
    && decide (fw.fusedSecver ≤ (flashWord f 5).toNat) && Config.signatureOk (imageBytes f)

/-- The image in a slot supports the COMPAT_LEVEL in force (R637). -/
def compatImage (level : Nat) (fw : Firmware) (slot : Nat) : Bool :=
  let w := flashWord (fw.slots.getD slot default) 4
  decide (field w 15 0 ≤ level) && decide (level ≤ field w 31 16)

/-- A slot's last verification (R646). -/
def noteValid (slot : Nat) (v : Bool) (fw : Firmware) : Firmware := { fw with slots := modAt fw.slots slot fun f => { f with valid := v } }

/-- Bytes as the flash keeps them. -/
def flashWrite (o : Nat) (l : List Byte) (f : FlashSlot) : FlashSlot := { f with data := writeCells f.data o (l.map fun b => b ^^^ 0xFF#8) }

/-- The other slot. -/
def otherSlot (slot : Nat) : Nat := if slot = 0 then 1 else 0

/-- The slot that the ROM boots, and whether it is the fallback (R622). -/
def bootChoice (fw : Firmware) : Option (Nat × Bool) :=
  if validImage fw fw.preferred then some (fw.preferred, false)
  else if validImage fw (otherSlot fw.preferred) then some (otherSlot fw.preferred, true)
  else none

/-! ### Boot (R105, R619, R620, R622, R623) -/

/-- The ROM looks at the preferred slot, and at the other one if it must. -/
def bootVerify (fw : Firmware) : Firmware :=
  let a := noteValid fw.preferred (validImage fw fw.preferred) fw
  if validImage fw fw.preferred then a else noteValid (otherSlot fw.preferred) (validImage fw (otherSlot fw.preferred)) a

/-- Firmware runs from a slot: the QUIET layout stands, and READY is 1. Log entry 85 (DEDUCED, unsafe). -/
def runFirmware (slot : Nat) (s : State) : State :=
  let s1 := setHub (fun h => { h with bootId := s.nextId, fw := { h.fw with running := slot, recovery := false } }) s
  endFault 0 { (applyLayout .quiet s.index s1).1 with ready := true }

/-- No slot yields a running firmware (R623). -/
def enterRecovery (s : State) : State := setFault 0 (setFw (fun f => { f with recovery := true }) { s with ready := false })

/-- The entry of a reset (R635). Log entry 83 (DEDUCED, unsafe). -/
def resetEntry (s : State) : State :=
  bbWrite 0x12 0 0x1281 [BitVec.ofNat 32 s.bb.lastReset, s.faultCause, BitVec.ofNat 32 s.hub.fw.running] s.index s

/-- The entry of a fallback (R622, R635): `why` is 0 for an invalid image and 1 for no start report. Log entry 83 (DEDUCED, unsafe). -/
def fallbackEntry (failed why booted : Nat) (s : State) : State :=
  bbWrite 0x13 failed 0x1288 [BitVec.ofNat 32 failed, BitVec.ofNat 32 why, BitVec.ofNat 32 booted] s.index
    { s with bb := { s.bb with fallback := true } }

/-- The boot from the ROM on: `entry` writes the black-box entry of the reset. Log entry 83 (DEDUCED, unsafe). -/
def bootNow (entry : Bool) (s : State) : State :=
  let mark (a : State) : State := if entry then resetEntry a else a
  let s1 := setFw bootVerify { s with bb := { s.bb with fallback := false } }
  match bootChoice s.hub.fw with
  | none => enterRecovery (mark s1)
  | some (slot, false) => mark (runFirmware slot s1)
  | some (slot, true) => fallbackEntry (otherSlot slot) 0 slot (mark (runFirmware slot s1))

/-- BOOT_START_TIMEOUT (R622): the firmware does not report its start, so it has fetched nothing. -/
def evBootStartTimeout (s : State) : State :=
  if !(s.ready && s.nextId == s.hub.bootId && s.cmds.isEmpty) then s
  else
    let other := otherSlot s.hub.fw.running
    let v := validImage s.hub.fw other
    let s1 := setFw (noteValid other v) s
    if v && !s.bb.fallback then fallbackEntry s.hub.fw.running 1 other (runFirmware other s1) else enterRecovery s1

/-! ### Resets (R615-R618) -/

/-- What a POWER_ON reset keeps: the flash and the fuses, and of the model its own fields. -/
def powerDown (s : State) : State :=
  let p := State.power s.variant
  { p with
    pending := s.pending, out := s.out, free := s.free,
    hub := { p.hub with fw := { p.hub.fw with slots := s.hub.fw.slots.map (fun f => { f with valid := false }), preferred := s.hub.fw.preferred, fusedSecver := s.hub.fw.fusedSecver } } }

/-- PWR_GOOD_LOW (R615, R616, R671, R687). -/
def evPwrGoodLow (s : State) : State := powerDown s

/-- The flash as a board fits it. -/
def fitFlash (x : FlashImage) (s : State) : State :=
  setFw (fun f => { f with preferred := x.preferred, slots := [flashWrite 0 (x.a.take 4194304) { data := [], valid := false }, flashWrite 0 (x.b.take 4194304) { data := [], valid := false }] }) s

/-- POWER_ON (R619, R620, R623, R670, R685, R692): the ROM boots, and the SPLL locks on a reference within 200 ppm. REF_COUNT at the first lock is not given: a free
value. Log entry 39 (DESIGN CHOICE, safe). -/
def evPowerOn (fit : Option FlashImage) (refOk : Bool) (band : Nat) (s : State) : State :=
  let s0 := powerDown s
  let s1 := bootNow false (match fit with
    | some x => fitFlash x s0
    | none => s0)
  if s1.hub.fw.recovery then setTime (fun t => { t with refPresent := refOk }) s1
  else if refOk then firstLock (takeFree s1).1.toNat band (takeFree s1).2
  else s1

/-- The time unit over a WARM or WATCHDOG reset (R616): what waits for a command ends, and the PPS settings take their reset values.
Log entry 84 (DEDUCED, unsafe). -/
def TimeUnit.warm (t : TimeUnit) : TimeUnit :=
  let p := TimeUnit.power
  { t with
    syncs := [], resume := none, step := match t.step with
      | some w => if w.cmd.isSome then none else t.step
      | none => none,
    relockStep := t.relockStep.map (fun r => { r with cmd := none }), ppsInEn := p.ppsInEn, ppsNotice := p.ppsNotice, ppsOutEn := p.ppsOutEn,
    ppsOutWidth := p.ppsOutWidth, ppsLast := none, ppsAt := none, ppsRun := 0, ppsPhase := 0, ppsHeld := none, ppsWait := false, ppsDelta := none,
    ppsAccepted := 0, ppsMissing := 0, ppsSpurious := 0 }

/-- The state after a WARM or WATCHDOG reset, before the boot (R615-R617).
Log entries 82 (DEDUCED, unsafe), 84 (DEDUCED, unsafe), 85 (DEDUCED, unsafe), 96 (DEDUCED, unsafe). -/
def hubReset (kind : Nat) (s : State) : State :=
  let p := State.power s.variant
  let channel : Channel → Channel := fun c =>
    let d := { Channel.power with retired := c.retired, frozenSpare := c.frozenSpare, noSpareSince := c.noSpareSince, countFrom := s.index + 1 }
    if c.noSpareSince.isSome then loseChannel (s.index + 1) d else d
  let lines := s.tdc.inputs.map fun x => TdcInput.power x.line
  let bb := { s.bb with
    lastReset := kind, warmResets := if kind = 3 then s.bb.warmResets else satAdd 32 s.bb.warmResets 1,
    watchdogResets := if kind = 3 then satAdd 32 s.bb.watchdogResets 1 else s.bb.watchdogResets }
  let s1 := { p with
    pending := s.pending, out := s.out, index := s.index, nextId := s.nextId, free := s.free, time := s.time.warm,
    conv := { p.conv with channels := s.conv.channels.map channel, step := s.conv.step },
    tdc := { p.tdc with inputs := lines, lines := s.tdc.lines, spare := s.tdc.spare, relief := s.tdc.relief, rotating := s.tdc.rotating, notReady := s.tdc.notReady, dwells := s.tdc.dwells },
    mc := { p.mc with hot := s.mc.hot, offSupply := s.mc.offSupply },
    maint := { p.maint with slices := s.maint.slices, sliceFrom := s.index + 1 },
    hub := { p.hub with
      resetLow := s.hub.resetLow, eccs := s.hub.eccs,
      fw := { s.hub.fw with recovery := false, loadOffset := 0, erase := none, activate := none } },
    dbg := { s.dbg with level := 0, wrote := false }, bb := bb, faultCause := s.faultCause, faultActive := s.faultActive,
    hist := { p.hist with notes := [(0, noteNow { s with mode := .quiet })], first := s.index + 1 } }
  endFault 7 (endFault 5 (endFault 4 (endFault 3 s1)))

/-- SAMPLE_INDEX is established again from REF_COUNT, at the first alignment edge (R617). Log entry 84 (DEDUCED, unsafe). -/
def resumeIndex (s : State) : State :=
  if delivering s then
    let v := indexOfEdge s.time (refCountNow s + 1)
    { s with
      index := v, hist := { s.hist with first := v }, trig := { s.trig with next := v },
      conv := { s.conv with channels := s.conv.channels.map fun c => { c with countFrom := v } } }
  else s

/-- The boot after a WARM or WATCHDOG reset. -/
def reboot (s : State) : State := bootNow true (resumeIndex s)

/-- A WARM or WATCHDOG reset with its boot. -/
def resetAndBoot (kind : Nat) (s : State) : State := reboot (hubReset kind s)

/-- Every unit at the power-up values of a COMPAT_LEVEL, with the QUIET layout (R693): beside what a WARM reset keeps, the queue pairs, the MSI-X
table, the PCIe link, the black box, the debug port and what the control complex itself holds stay. Log entry 16 (DEDUCED, unsafe). -/
def compatRestart (level : Nat) (s : State) : State :=
  let r := hubReset 1 s
  let r1 := { r with
    compat := level, ready := true, cmds := s.cmds, qps := s.qps, spi := s.spi, notices := s.notices,
    glob := { r.glob with bar2 := s.glob.bar2, msixEnabled := s.glob.msixEnabled }, hub := { s.hub with wdtMs := 100 }, dbg := s.dbg, bb := s.bb,
    faultActive := s.faultActive }
  let dead := (s.hub.tiles.zipIdx.filter fun x => x.1.dead.isSome || x.1.attempt != 0).map fun x => x.2
  (applyLayout .quiet s.index (dead.foldl (fun a t => setChannel (2 * t + 1) (openTile (s.index + 1)) (setChannel (2 * t) (openTile (s.index + 1)) a)) r1)).1

/-- SYS_COMPAT (R693): LEVEL in force answers OK and does nothing else; COMPAT_MAX is 1. Log entries 15 (DEDUCED, unsafe), 16 (DEDUCED, unsafe). -/
def specSysCompat : CmdSpec :=
  { opcode := 0x0007, plen := plenIs 1, addr := fun _ => [unitNo 0 255],
    params := fun _ c => decide (1 ≤ c.arg 0 15 0) && decide (c.arg 0 15 0 ≤ compatMax),
    refuse := fun s c =>
      if s.mode != .quiet || s.pair.role != .solo then some .mode
      else if s.cmds.any (fun d => d.id != c.id && (d.timed && (match d.phase with | .held _ => true | _ => false) || d.replied))
          || s.packers.any (fun p => !p.jobs.isEmpty) || !s.maint.acts.isEmpty then some .busy
      else none,
    run := fun c _ s =>
      let level := c.arg 0 15 0
      (if level = s.compat then s else compatRestart level s, .done .ok [BitVec.ofNat 32 s.compat, BitVec.ofNat 32 level]) }

/-- RESET_N_LOW (R615, R629, R654, R687): a reset after a thermal trip waits until the die has cooled. -/
def evResetNLow (s : State) : State :=
  if s.hub.resetLow then s
  else
    let s1 := setHub (fun h => { h with resetLow := true }) s
    if s.hub.tripped && !s.hub.cooled then setHub (fun h => { h with warmHeld := true }) s1
    else hubReset (if s.hub.tripped then 4 else 1) s1

/-- RESET_N_RELEASE (R617, R619): the hub boots. -/
def evResetNRelease (s : State) : State :=
  if !s.hub.resetLow then s
  else
    let s1 := setHub (fun h => { h with resetLow := false }) s
    if s.hub.tripped then s1 else reboot s1

/-- THERMAL_TRIP_CLEAR (R629): the die is below 110 °C, and a reset that was held off goes on. -/
def evThermalTripClear (s : State) : State :=
  if !s.hub.tripped then s
  else if s.hub.warmHeld then
    let s1 := hubReset 4 s
    if s.hub.resetLow then s1 else reboot s1
  else setHub (fun h => { h with cooled := true }) s

/-- A command of a queue pair at a PCIE reset (R616, R618): one that executes completes unheard, a TIMED or waiting one is withdrawn. -/
def pcieCmd (c : Cmd) : Option Cmd :=
  if !isQp c.src then some c
  else match c.phase with
    | .waiting => none
    | .held _ => if c.timed then none else some { c with mute := true }
    | .running => some { c with mute := true }

/-- The HOST_RING entries are cleared, and the STARTED contexts that name them stop (R618). -/
def clearHostRings (s : State) : State :=
  let s1 := (List.range s.strm.ctxs.length).foldl (fun a n =>
    if (ctxOf a n).started && (ctxOf a n).cfg.entries.any (isHostRing s) then
      setCtx n (fun c => { c with bindingLost := true }) (stopCtx (a.index + 1) n a)
    else a) s
  setStrm (fun u => { u with dests := u.dests.map fun d => match d.dest with
    | .hostRing .. => { dest := .none, prod := 0, cons := 0, unsignalled := 0 }
    | _ => d }) s1

/-- PCIE_RESET (R615, R616, R618). -/
def evPcieReset (s : State) : State :=
  let s1 := { s with
    cmds := s.cmds.filterMap pcieCmd, qps := List.replicate 16 QueuePair.power,
    glob := { s.glob with gintEnable := 0, bar2 := [], msixEnabled := false },
    hub := { s.hub with pcieUp := false, replies := s.hub.replies.filter (fun r => !isQp r.1.src) } }
  clearHostRings s1

/-- PCIE_LINK_UP (R619, R680): the endpoint is usable again, and some ranges of host addresses do not answer. Log entry 110 (DESIGN CHOICE, unsafe). -/
def evPcieLinkUp (msix : Bool) (dead : List (Nat × Nat)) (s : State) : State :=
  if s.hub.resetLow || s.hub.tripped then s
  else { s with hub := { s.hub with pcieUp := true }, glob := { s.glob with msixEnabled := msix, dead := dead } }

/-! ### Lockstep pairs (R624-R626) -/

def setCore (p : Nat) (f : CorePair → CorePair) (s : State) : State := setHub (fun h => { h with cores := modAt h.cores p f }) s

def coreOf (s : State) (p : Nat) : CorePair := s.hub.cores.getD p default

/-- Service goes on: the replies that waited are written. -/
def resumeService (s : State) : State :=
  if coresRun s then s.hub.replies.foldl (fun a r => writeReply r.1 r.2 a) (setHub (fun h => { h with replies := [] }) s) else s

/-- A command that the halted pair had begun completes with INTERNAL (R624), with its entry. -/
def loseCommand (id : Nat) (s : State) : State :=
  match cmdById s id with
  | some c =>
    if c.phase == .running && !c.replied then
      complete c .internal [] s.index (bbWrite 0x12 0 0x1285 [BitVec.ofNat 32 c.opcode, c.tag, BitVec.ofNat 32 c.origin] s.index s)
    else s
  | none => s

/-- The entry and the notice of a lockstep pair: `what` is 0 halt, 1 resumed or 2 retired. -/
def lockstepEntry (p what : Nat) (s : State) : State :=
  notify 0x1202 [BitVec.ofNat 32 p, BitVec.ofNat 32 what] s.index
    (bbWrite 0x12 p 0x1282 [BitVec.ofNat 32 p, BitVec.ofNat 32 what, (coreOf s p).pc] s.index s)

/-- A pair is retired until the next WARM reset (R625). -/
def retireCore (p : Nat) (s : State) : State := setFault 4 (lockstepEntry p 2 (setCore p (fun c => { c with st := .retired }) s))

/-- A pair halts (R624, R625): at the third halt in 24 h it is retired. Log entry 86 (DEDUCED, unsafe). -/
def haltCore (p : Nat) (pc : Word) (begun : List Nat) (s : State) : State :=
  let day := 86400 * fsOf s.time
  let halts := (coreOf s p).halts.filter (fun i => decide (s.index < i + day)) ++ [s.index]
  let s1 := lockstepEntry p 0 (setCore p (fun c => { c with st := .recovering, halts := halts, pc := pc }) s)
  let s2 := begun.foldl (fun a id => loseCommand id a) s1
  yieldClass 3 (if 3 ≤ halts.length then retireCore p s2 else s2)

/-- LOCKSTEP_MISMATCH (R624). -/
def evLockstepMismatch (p : Nat) (pc : Word) (ue : Bool) (begun : List Nat) (s : State) : State :=
  if !((coreOf s p).st == .running && decide (p < s.hub.cores.length) && coresRun s) then s
  else haltCore p pc begun (if ue then countStore 5 0 1 0 s else s)

/-- CORE_SELFTEST_END (R624, R625). -/
def evCoreSelftestEnd (p : Nat) (pass : Bool) (s : State) : State :=
  if !((coreOf s p).st == .recovering && decide (p < s.hub.cores.length)) || s.hub.tripped || s.hub.resetLow then s
  else if pass then
    let s1 := setCore p (fun c => { c with st := .running }) s
    resumeService (lockstepEntry p 1 { s1 with bb := { s1.bb with coreRecoveries := satAdd 32 s1.bb.coreRecoveries 1 } })
  else retireCore p s

/-- WATCHDOG_EXPIRY (R626): `missed` is a mask of pairs. A pair that debug has halted owes no service (R664). Log entry 86 (DEDUCED, unsafe). -/
def evWatchdogExpiry (missed : Nat) (s : State) : State :=
  if !coresRun s || !s.ready then s
  else
    let late := (List.range s.hub.cores.length).filter fun p => missed.testBit p && (coreOf s p).st == .running
    let out := (List.range s.hub.cores.length).all fun p =>
      late.contains p || (coreOf s p).st == .recovering || (coreOf s p).st == .retired
    if late.isEmpty then s
    else if out then
      resetAndBoot 3 (setFault 5 (bbWrite 0x12 0 0x1283 [BitVec.ofNat 32 (maskOf late), BitVec.ofNat 32 s.hub.wdtMs, 0] s.index s))
    else late.foldl (fun a p => haltCore p 0 [] a) s

/-! ### Thermal trip (R629) -/

/-- THERMAL_TRIP_EVENT: samples, links, display and cores stop until a WARM reset. Log entry 87 (DEDUCED, unsafe). -/
def evThermalTrip (input : Nat) (value : Int) (s : State) : State :=
  if s.hub.tripped then s
  else
    let s1 := setFault 7 (bbWrite 0x12 input 0x1286 [BitVec.ofNat 32 input, BitVec.ofInt 32 value, 1] s.index s)
    let s2 := if delivering s1 then gapStop (s1.index + 1) 1 (s1.index + 1) (s1.index + 1) false s1 else s1
    let s3 := setTime (fun t => { t with tb := if t.refPresent then .relocking else .waitRef, unlockIndex := if locked s1 then s1.index + 1 else t.unlockIndex, step := none, relockStep := none, applyCapture := none }) s2
    let s4 := evPcieReset (linkDown s3)
    setHub (fun h => { h with tripped := true, cooled := false })
      (setDisp (fun d => { d with mode := .off, running := false }) (setStrm (fun u => { u with ports := u.ports.map fun p => { p with linkUp := false } }) s4))

/-! ### Tile links (R21, R630) -/

def tileOf (s : State) (t : Nat) : TileLink := s.hub.tiles.getD t default

def setTile (t : Nat) (f : TileLink → TileLink) (s : State) : State := setHub (fun h => { h with tiles := modAt h.tiles t f }) s

/-- Both channels of a tile. -/
def onTile (t : Nat) (f : Channel → Channel) (s : State) : State := setChannel (2 * t + 1) f (setChannel (2 * t) f s)

/-- The entry of a tile link (R635). -/
def tileEntry (t attempt : Nat) (s : State) : State :=
  bbWrite 0x12 t 0x1284 [BitVec.ofNat 32 t, BitVec.ofNat 32 (s.bb.linkErrors.getD t 0), BitVec.ofNat 32 attempt] s.index s

/-- Failures of a link within the last 1 ms. -/
def recentFails (s : State) (t : Nat) : List Nat := (tileOf s t).recent.filter fun i => decide (s.index * 1000 < i * 1000 + fsOf s.time)

/-- TILE_LINK_SEQ_FAIL (R21, R630): the SC is INV on both channels; while the link is out of service nothing is counted. -/
def evTileLinkSeqFail (t : Nat) (s : State) : State :=
  if s.variant.tiles ≤ t || (tileOf s t).attempt != 0 || (tileOf s t).dead.isSome || !delivering s then s
  else
    let lo := s.index / 32 * 32
    let s1 := onTile t (addInv lo (lo + 32)) { s with bb := { s.bb with linkErrors := modAt s.bb.linkErrors t fun n => satAdd 32 n 1 } }
    tileEntry t 0 (setTile t (fun x => { x with recent := recentFails s t ++ [s.index] }) s1)

/-- TILE_LINK_RETRAIN (R630): more than 64 failures within 1 ms. -/
def evTileLinkRetrain (t : Nat) (s : State) : State :=
  if s.variant.tiles ≤ t || (tileOf s t).attempt != 0 || (tileOf s t).dead.isSome || (recentFails s t).length ≤ 64 then s
  else tileEntry t 1 (onTile t (openTile (s.index + 1)) (setTile t (fun x => { x with attempt := 1, since := s.index + 1 }) s))

/-- TILE_RETRAIN_END (R630): three tries, and then the tile stays INV. -/
def evTileRetrainEnd (t : Nat) (ok : Bool) (s : State) : State :=
  let x := tileOf s t
  if x.attempt = 0 then s
  else if ok then onTile t (closeTile (s.index + 1)) (setTile t (fun x => { x with attempt := 0, recent := [] }) s)
  else if x.attempt < 3 then tileEntry t (x.attempt + 1) (setTile t (fun x => { x with attempt := x.attempt + 1 }) s)
  else setFault 3 (setTile t (fun x => { x with attempt := 0, dead := some x.since }) s)

/-! ### Firmware (R636, R637, R646-R649) -/

/-- FW_STATUS (R646). -/
def specFwStatus : CmdSpec :=
  { opcode := 0x1300, plen := plenIs 0, addr := fun _ => [unitNo 0x13 255],
    run := fun _ _ s =>
      let f := s.hub.fw
      let v : Nat → Nat := fun i => oneIf (f.slots.getD i default).valid
      (s, .done .ok [BitVec.ofNat 32 (f.running + f.preferred % 2 * 2 + v 0 * 4 + v 1 * 8 + oneIf f.recovery * 16), runningHeader s 3, runningHeader s 4,
        runningHeader s 5, BitVec.ofNat 32 f.fusedSecver, BitVec.ofNat 32 f.loadOffset]) }

/-- FW_LOAD (R647). Log entry 88 (DEDUCED, unsafe). -/
def specFwLoad : CmdSpec :=
  { opcode := 0x1301, plen := fun c => decide (2 ≤ c.plen) && decide (c.plen ≤ 255), addr := fun _ => [unitNo 0x13 255],
    params := fun s c =>
      ((c.word 1).toNat == 0 || (c.word 1).toNat == s.hub.fw.loadOffset) && decide ((c.word 1).toNat + 4 * (c.plen - 2) ≤ 4194304),
    busy := fun s c => (c.arg 0 0 0 == s.hub.fw.running && !s.hub.fw.recovery) || s.hub.fw.erase.isSome,
    run := fun c _ s =>
      let slot := c.arg 0 0 0
      let data := bytesOfWords ((c.params.take c.plen).drop 2)
      let o := (c.word 1).toNat
      if o = 0 then (setFw (fun f => { noteValid slot false f with erase := some { cmd := c.id, slot := slot, data := data }, loadOffset := 0 }) s, .later)
      else
        (setFw (fun f => { f with slots := modAt f.slots slot (flashWrite o data), loadOffset := o + data.length }) s,
          .done .ok [BitVec.ofNat 32 (o + data.length)]) }

/-- FLASH_ERASE_END (R647, R685): the slot is erased, and the data is written. -/
def evFlashEraseEnd (s : State) : State :=
  match s.hub.fw.erase with
  | none => s
  | some x =>
    let s1 := setFw (fun f => { f with
      slots := modAt f.slots x.slot (fun y => flashWrite 0 x.data { y with data := [] }), loadOffset := x.data.length, erase := none }) s
    completeId x.cmd .ok [BitVec.ofNat 32 x.data.length] s1.index s1

/-- FW_VERIFY (R648). -/
def specFwVerify : CmdSpec :=
  { opcode := 0x1302, plen := plenIs 1, addr := fun _ => [unitNo 0x13 255],
    run := fun c _ s =>
      let slot := c.arg 0 0 0
      let f := s.hub.fw.slots.getD slot default
      let v := validImage s.hub.fw slot
      (setFw (noteValid slot v) s,
        .done .ok (flagWord v :: (if flashWord f 0 == 0x4A5A4E01#32 then (List.range 5).map (fun i => flashWord f (i + 1)) else List.replicate 5 0))) }

/-- PREFER and RAISE_SECVER of an image that runs (R649). -/
def adopt (slot : Nat) (prefer raise : Bool) (f : Firmware) : Firmware :=
  { f with preferred := if prefer then slot else f.preferred,
           fusedSecver := if raise then (flashWord (f.slots.getD slot default) 5).toNat else f.fusedSecver }

/-- FW_ACTIVATE in recovery (R623): it boots the slot and writes no reply. Log entry 88 (DEDUCED, unsafe). -/
def recoveryBoot (c : Cmd) (s : State) : State :=
  let slot := c.arg 0 0 0
  let v := validImage s.hub.fw slot
  let s1 := setFw (noteValid slot v) s
  if v then
    setTime (fun t => { t with tb := if t.everLocked then t.tb else if t.refPresent then .relocking else .waitRef })
      (runFirmware slot (setFw (adopt slot (c.flag 0 1) (c.flag 0 2)) { s1 with bb := { s1.bb with fallback := false } }))
  else s1

/-- FW_ACTIVATE (R623, R636, R637, R649). Log entry 88 (DEDUCED, unsafe). -/
def specFwActivate : CmdSpec :=
  { opcode := 0x1303, plen := plenIs 1, addr := fun _ => [unitNo 0x13 255],
    params := fun _ c => !c.flag 0 2 || c.flag 0 1,
    busy := fun s _ => s.hub.fw.activate.isSome,
    run := fun c _ s =>
      let slot := c.arg 0 0 0
      if s.hub.fw.recovery then (recoveryBoot c s, .silent)
      else if slot = s.hub.fw.running then (s, .done .ok [runningHeader s 3])
      else (setFw (fun f => { f with activate := some { cmd := c.id, slot := slot, prefer := c.flag 0 1, raise := c.flag 0 2 } }) s, .later) }

/-- FW_IMAGE_READY (R636, R637): an image that is not valid or does not support the level in force leaves the firmware in place; another takes
over. Log entry 83 (DEDUCED, unsafe). -/
def evFwImageReady (pause : Nat) (s : State) : State :=
  match s.hub.fw.activate with
  | none => s
  | some x =>
    let v := validImage s.hub.fw x.slot
    let s1 := setFw (fun f => { noteValid x.slot v f with activate := none }) s
    if !v || !compatImage s.compat s.hub.fw x.slot then completeId x.cmd .badParam [] s1.index s1
    else
      let old := runningHeader s 3
      let s2 := setFw (fun f => { adopt x.slot x.prefer x.raise f with running := x.slot }) s1
      let words := [old, runningHeader s2 3, BitVec.ofNat 32 pause]
      let s3 := completeId x.cmd .ok [runningHeader s2 3] s2.index s2
      notify 0x1301 words s3.index (bbWrite 0x13 0 0x1289 words s3.index s3)

/-! ### Diagnostics (R639-R645) -/

/-- DIAG_RESET (R639): OK, and a WARM reset 100 µs later, as an internal command. -/
def specDiagReset : CmdSpec :=
  { opcode := 0x1200, plen := plenIs 1, addr := fun _ => [unitNo 0x12 255],
    params := fun _ c => c.word 0 == 0x52455345#32,
    run := fun c _ s =>
      if c.src == .pairLink then (resetAndBoot 2 s, .silent)
      else (holdInternal 0x1200 [0x52455345#32] (if locked s then some (boundaryAfter s 100000) else none) s, .done .ok []) }

/-- DIAG_FAULT (R628, R640). -/
def specDiagFault : CmdSpec :=
  { opcode := 0x1201, plen := plenIs 1, addr := fun _ => [unitNo 0x12 255],
    run := fun c _ s =>
      (if c.flag 0 0 then { s with faultCause := s.faultCause &&& s.faultActive } else s, .done .ok [s.faultCause]) }

/-- DIAG_ECC (R641). -/
def specDiagEcc : CmdSpec :=
  { opcode := 0x1202, plen := plenIs 1, addr := fun _ => [unitNo 0x12 255],
    params := fun _ c => decide (c.arg 0 2 0 ≤ 5),
    units := fun s c => decide (4 ≤ c.arg 0 2 0) || decide (c.arg 0 2 0 < s.variant.channels),
    run := fun c _ s =>
      let e := s.hub.eccs.getD (c.arg 0 2 0) default
      (s, .done .ok [BitVec.ofNat 32 e.ce, BitVec.ofNat 32 e.ue, BitVec.ofNat 32 e.passes]) }

/-- The eight words of an entry (R631). -/
def bbWords (e : BbEntry) : List Word :=
  dtsWords (e.index * 2 ^ 32)
    ++ [BitVec.ofNat 32 (e.unit + oneIf e.unlocked * 64 + oneIf e.holdover * 128 + e.place % 256 * 256 + e.event * 65536), BitVec.ofNat 32 e.seq]
    ++ e.data

/-- The entries that a BB_READ returns (R642): from FIRST_SEQ on, modulo 2^32. -/
def bbSelect (c : Cmd) (s : State) : List BbEntry :=
  let src := if c.flag 1 16 then s.bb.frozen.getD [] else s.bb.live
  let from_ := src.dropWhile fun e => decide (2 ^ 31 ≤ (e.seq + 2 ^ 32 - (c.word 0).toNat) % 2 ^ 32)
  from_.take (if c.flag 1 17 then c.arg 1 12 0 else min 31 (c.arg 1 12 0))

/-- BB_READ (R642). A write to host memory that fails ends it as R60 says. -/
def specBbRead : CmdSpec :=
  { opcode := 0x1203, plen := plenIs 4, addr := fun _ => [unitNo 0x12 255],
    params := fun _ c => decide (1 ≤ c.arg 1 12 0) && decide (c.arg 1 12 0 ≤ 4096) && (!c.flag 1 17 || (isQp c.src && c.arg64 2 % 64 == 0)),
    run := fun c _ s =>
      let l := bbSelect c s
      let words := l.flatMap bbWords
      let n := BitVec.ofNat 32 l.length
      if c.flag 1 17 then
        let x := hostResult c.id (c.arg64 2) (bytesOfWords words) s
        (x.1, if x.2 then .done .ok [n] else .done .internal [])
      else (s, .done .ok (n :: words)) }

/-- BB_FREEZE (R643): the newest entry is the freezing one. -/
def specBbFreeze : CmdSpec :=
  { opcode := 0x1204, plen := plenIs 0, addr := fun _ => [unitNo 0x12 255],
    run := fun _ _ s =>
      let s1 := bbFreeze ((s.bb.live.getLast?.map fun e => e.event).getD 0) s
      (s1, .done .ok [BitVec.ofNat 32 s1.bb.freezeSeq]) }

/-- BB_CLEAR (R644). -/
def specBbClear : CmdSpec :=
  { opcode := 0x1205, plen := plenIs 1, addr := fun _ => [unitNo 0x12 255],
    params := fun _ c => c.flag 0 0 || c.flag 0 1,
    run := fun c _ s =>
      let b1 := if c.flag 0 0 then { s.bb with live := [], nextSeq := 0 } else s.bb
      let b2 := if c.flag 0 1 then { b1 with frozen := none, freezeEvent := 0, freezeSeq := 0 } else b1
      ({ s with bb := b2 }, .done .ok []) }

/-- DIAG_WATCHDOG (R645). -/
def specDiagWatchdog : CmdSpec :=
  { opcode := 0x1206, plen := plenIs 1, addr := fun _ => [unitNo 0x12 255],
    params := fun _ c => decide (1 ≤ c.arg 0 9 0) && decide (c.arg 0 9 0 ≤ 1000),
    run := fun c _ s => (setHub (fun h => { h with wdtMs := c.arg 0 9 0 }) s, .done .ok []) }

end Sys2Proof.Machine
end

