-- ==== Sys2Proof/Machine/Debug.lean ====
section
/-! DEFINITION. The serial debug port (R651-R666): the TAP, the Gauntlet, debug access, and core debug. -/

namespace Sys2Proof.Machine

def setDbg (f : DebugUnit → DebugUnit) (s : State) : State := { s with dbg := f s.dbg }

/-- The entry of a debug event, and its notice (R657, R666). -/
def debugEntry (place event : Nat) (data : List Word) (s : State) : State :=
  notify 0x1203 [BitVec.ofNat 32 event, data.getD 0 0, data.getD 1 0] s.index (bbWrite 0x12 place event data s.index s)

/-! ### The test access port (R651-R654) -/

/-- TAP_RESET (R651): IDCODE is selected, and nothing else changes. -/
def evTapReset (s : State) : State := setDbg (fun d => { d with ir := 0x01 }) s

/-- Eight free values. -/
def freeWords : Nat → State → List Word × State
  | 0, s => ([], s)
  | n + 1, s => let (w, s1) := takeFree s
                let (l, s2) := freeWords n s1
                (w :: l, s2)

/-- The Gauntlet is closed until the next POWER_ON reset (R657). -/
def gauntletClosed (s : State) : Bool := decide (3 ≤ s.dbg.failures)

/-- A fresh challenge of 256 bits, whose value is not given; while the Gauntlet is closed, none. Log entry 98 (DESIGN CHOICE, safe). -/
def newChallenge (s : State) : State :=
  if gauntletClosed s then setDbg (fun d => { d with challenge := [] }) s
  else
    let r := freeWords 8 s
    setDbg (fun d => { d with challenge := r.1 }) r.2

/-- GAUNTLET_SELECT (R656, R657): what a Capture-DR of GAUNTLET returns in [255:0]. -/
def evGauntletSelect (s : State) : State :=
  let s1 := newChallenge (setDbg (fun d => { d with ir := 0x20 }) s)
  emit (.readData (bytesOfWords (if gauntletClosed s1 then List.replicate 8 0 else s1.dbg.challenge))) s1

/-- The instructions that drive pins (R652). -/
def drivesPins (code : Nat) : Bool := [0x00, 0x03, 0x04, 0x08, 0x09].contains code

/-- The instructions of R652; other codes decode as BYPASS. -/
def tapKnown (code : Nat) : Bool := [0x00, 0x01, 0x02, 0x03, 0x04, 0x05, 0x06, 0x08, 0x09, 0x20, 0x21].contains code

/-- What a Capture-DR loads for the identification instructions (R652, R653). Log entry 97 (DEDUCED, unsafe). -/
def tapCapture (code : Nat) (s : State) : Option (List Word) :=
  match code with
  | 0x01 => some [idcode s]
  | 0x05 => some [runningHeader s 3]
  | 0x06 => some ((List.range 4).map Config.ecid)
  | _ => none

/-! ### Boundary scan (R655) -/

/-- The boundary-scan register: one cell per ball of the groups that it covers, in the order of R698. Log entry 113 (PRESUMED, unsafe). -/
def scanRegister : List Ball := scanGroups.flatMap BallGroup.balls

/-- The instructions whose data register is the boundary-scan register (R652). -/
def selectsBoundary (code : Nat) : Bool := [0x00, 0x02, 0x08, 0x09].contains code

/-- A scan through the boundary-scan register: Capture-DR loads the levels at the balls, which are shifted out, and Update-DR loads `shifted`
into the cells. Log entry 113 (PRESUMED, unsafe). -/
def boundaryScan (levels shifted : List Bool) (s : State) : State :=
  let n := scanRegister.length
  setDbg (fun d => { d with cells := (shifted ++ d.cells.drop shifted.length).take n })
    (emit (.scanOut ((List.range n).map fun i => levels.getD i false)) s)

/-- What an instruction drives at the balls (R652, R655): EXTEST and CLAMP the cells of the balls that are outputs, HIGHZ nothing at any of them,
and EXTEST_PULSE and EXTEST_TRAIN the cells, as pulses on the AC-coupled lanes. Log entry 113 (PRESUMED, unsafe). -/
def drivenBalls (code : Nat) (cells : List Bool) : List (Ball × BallDrive) :=
  (scanRegister.zipIdx.filter fun b => b.1.group.isOutput).map fun b =>
    (b.1, if code = 0x04 then .highZ
      else if (code = 0x08 || code = 0x09) && b.1.group.acCoupled then
        (if code = 0x08 then .pulse (cells.getD b.2 false) else .train (cells.getD b.2 false))
      else .level (cells.getD b.2 false))

/-- TAP_INSTRUCTION_LOAD (R652, R654, R655), with the levels at the balls and the bits that a scan of the boundary-scan register shifts in; `levels`
is empty where no scan follows. Log entries 97 (DEDUCED, unsafe), 113 (PRESUMED, unsafe). -/
def evTapInstructionLoad (code : Nat) (levels shifted : List Bool) (s : State) : State :=
  let c := code % 256
  if drivesPins c && !s.hub.resetLow then
    setDbg (fun d => { d with ir := 0xFF, testRefused := satAdd 32 d.testRefused 1 }) s
  else if c = 0x20 then evGauntletSelect s
  else
    let s1 := setDbg (fun d => { d with ir := if tapKnown c then c else 0xFF }) s
    let s2 := if selectsBoundary c && !levels.isEmpty then boundaryScan levels shifted s1 else s1
    let s3 := if drivesPins c then emit (.pinsDriven (drivenBalls c s2.dbg.cells)) s2 else s2
    match tapCapture c s3 with
    | some w => emit (.readData (bytesOfWords w)) s3
    | none => s3

/-! ### The Gauntlet (R656, R657) -/

/-- GAUNTLET_RESPONSE (R656, R657): a challenge is used up by one response. Log entry 96 (DEDUCED, unsafe). -/
def evGauntletResponse (r : BitVec 776) (s : State) : State :=
  if s.dbg.ir != 0x20 || s.dbg.challenge.isEmpty || gauntletClosed s then s
  else
    let level := (r.extractLsb' 768 8).toNat
    if (level = 1 || level = 2) && Config.debugKeyOk s.dbg.challenge r then
      debugEntry 0 0x1290 [BitVec.ofNat 32 level] (setDbg (fun d => { d with level := level, challenge := [], wrote := false }) s)
    else
      let s1 := setDbg (fun d => { d with failures := d.failures + 1 }) s
      newChallenge (debugEntry 0 0x1291 [BitVec.ofNat 32 s1.dbg.failures] s1)

/-! ### Debug access (R658-R662) -/

/-- The bits of the pairs that debug has halted (R658). -/
def haltedMask (s : State) : Nat := maskOf ((List.range s.hub.cores.length).filter fun p => (coreOf s p).st == .halted)

/-- The result of an operation (R658): the words that the next Capture-DR loads. `st` is 0 OK, 1 LOCKED, 2 DENIED or 4 UE.
Log entry 97 (DEDUCED, unsafe). -/
def dbgResult (data : Word) (addr st : Nat) (s : State) : State :=
  let s1 := setDbg (fun d => { d with data := data, addr := addr, status := st }) s
  emit (.readData (bytesOfWords [data, BitVec.ofNat 32 addr, BitVec.ofNat 32 (s1.dbg.level + st * 8 + haltedMask s1 * 64)])) s1

/-- The partition and the offset in it of a physical byte address of the pool (R660). Log entry 95 (DESIGN CHOICE, safe). -/
def poolPlace (s : State) (addr : Nat) : Option (Partition × Nat) :=
  s.pool.parts.findSome? fun p =>
    ((List.range p.au).find? fun u => Config.auPlace p.slot p.generation u == addr / 2 ^ 20).map fun u => (p, u * 2 ^ 20 + addr % 2 ^ 20)

/-- The bytes of a 64-bit word, zeros if it is uncorrectable. -/
def pairBytes (p : Partition) (o : Nat) : List Byte := if poisonedAt p o then List.replicate 8 0 else readCells p.data (o / 8 * 8) 8

/-- A little-endian word from bytes. -/
def wordOf (l : List Byte) : Word :=
  BitVec.ofNat 32 ((l.getD 0 0).toNat + (l.getD 1 0).toNat * 2 ^ 8 + (l.getD 2 0).toNat * 2 ^ 16 + (l.getD 3 0).toNat * 2 ^ 24)

/-- Write one word of the pool: the whole 64-bit word is rewritten (R659). -/
def poolWriteWord (p : Partition) (o : Nat) (v : Word) (s : State) : State :=
  let old := pairBytes p o
  poolWrite p.slot (o / 8 * 8) (if o % 8 < 4 then wordBytes v ++ old.drop 4 else old.take 4 ++ wordBytes v) s

/-- A register of a pair's debug block (R663). What a running pair holds in its program counter and registers is not given.
Log entries 91 (DESIGN CHOICE, unsafe), 92 (DESIGN CHOICE, safe). -/
def readCoreReg (p off : Nat) (s : State) : Word × State :=
  let c := coreOf s p
  let live (w : Word) : Word × State := if c.st == .halted then (w, s) else takeFree s
  if off = 0x004 then
    (BitVec.ofNat 32 (if c.st == .halted then 1 + c.cause * 2 + c.number * 16 else 0), s)
  else if off = 0x008 then live c.pc
  else if 0x084 ≤ off && off ≤ 0x0FC then live (c.gprs.getD ((off - 0x084) / 4) 0)
  else if 0x100 ≤ off && off ≤ 0x10C then (c.bps.getD ((off - 0x100) / 4) 0, s)
  else if off = 0x110 then (c.bpEn, s)
  else if off = 0x120 || off = 0x128 then (c.wpAddr.getD ((off - 0x120) / 8) 0, s)
  else if off = 0x124 || off = 0x12C then (c.wpCtrl.getD ((off - 0x124) / 8) 0, s)
  else (0, s)

/-! ### Core debug (R663, R664) -/

/-- The registers of a pair that has just stopped: what the firmware had in them is a free value. Log entry 92 (DESIGN CHOICE, safe). -/
def freeRegs (p : Nat) (pc : Option Word) (s : State) : State :=
  let r := freeWords 31 s
  let q := takeFree r.2
  match pc with
  | some w => setCore p (fun c => { c with gprs := r.1, pc := w }) r.2
  | none => setCore p (fun c => { c with gprs := r.1, pc := q.1 }) q.2

/-- A pair halts under debug (R664): its begun commands are lost as in R624, and nothing else of R624 happens. `cause` is 1 HALT, 3 BREAKPOINT
or 4 WATCHPOINT. Log entry 92 (DESIGN CHOICE, safe). -/
def debugHalt (p cause number : Nat) (pc : Option Word) (begun : List Nat) (s : State) : State :=
  if !((coreOf s p).st == .running && decide (p < s.hub.cores.length)) || s.hub.tripped || s.hub.resetLow then s
  else
    let s1 := freeRegs p pc (setCore p (fun c => { c with st := .halted, cause := cause, number := number }) s)
    begun.foldl (fun a id => loseCommand id a) (debugEntry p 0x1294 [BitVec.ofNat 32 p, 0] s1)

/-- A halted pair takes back its work (R664). -/
def debugResume (p : Nat) (s : State) : State :=
  if (coreOf s p).st != .halted then s
  else
    let s1 := setCore p (fun c => { c with st := .running, cause := 0, number := 0 }) s
    resumeService (debugEntry p 0x1294 [BitVec.ofNat 32 p, 1] s1)

/-- One instruction from halt (R663). What it leaves in the registers is a free value. Log entries 92 (DESIGN CHOICE, safe), 93 (DEDUCED, unsafe). -/
def debugStep (p : Nat) (s : State) : State :=
  if (coreOf s p).st != .halted then s else freeRegs p none (setCore p (fun c => { c with cause := 2, number := 0 }) s)

/-- A write of DCTRL (R663). Log entry 93 (DEDUCED, unsafe). -/
def writeDctrl (p : Nat) (v : Word) (begun : List Nat) (s : State) : State :=
  let s1 := if bit v 0 then debugHalt p 1 0 none begun s else s
  let s2 := if bit v 1 then debugResume p s1 else s1
  if bit v 2 then debugStep p s2 else s2

/-- A write to a pair's debug block (R663). Log entry 91 (DESIGN CHOICE, unsafe). -/
def writeCoreReg (p off : Nat) (v : Word) (begun : List Nat) (s : State) : State :=
  let halted := (coreOf s p).st == .halted
  if off = 0x000 then writeDctrl p v begun s
  else if off = 0x008 then (if halted then setCore p (fun c => { c with pc := v }) s else s)
  else if 0x084 ≤ off && off ≤ 0x0FC then
    (if halted then setCore p (fun c => { c with gprs := c.gprs.set ((off - 0x084) / 4) v }) s else s)
  else if 0x100 ≤ off && off ≤ 0x10C then setCore p (fun c => { c with bps := c.bps.set ((off - 0x100) / 4) v }) s
  else if off = 0x110 then setCore p (fun c => { c with bpEn := v &&& 0xF#32 }) s
  else if off = 0x120 || off = 0x128 then setCore p (fun c => { c with wpAddr := c.wpAddr.set ((off - 0x120) / 8) v }) s
  else if off = 0x124 || off = 0x12C then setCore p (fun c => { c with wpCtrl := c.wpCtrl.set ((off - 0x124) / 8) (v &&& 0xFF#32) }) s
  else s

/-- The address is one of SPACE, a multiple of 4 within its extent (R658, R660). Log entry 95 (DESIGN CHOICE, safe). -/
def dbgPlace (space addr : Nat) : Bool :=
  addr % 4 == 0 && (match space with
    | 0 => decide (addr < 0x10000)
    | 1 => decide (addr < 0x800000)
    | 2 => decide (addr < 384 * 2 ^ 20)
    | 3 => decide (addr < 0x2000)
    | _ => false)

/-- Read a word of a space (R660, R661): the word, whether it is uncorrectable, and the state after.
Log entries 2 (DESIGN CHOICE, safe), 94 (DESIGN CHOICE, safe). -/
def dbgFetch (space addr : Nat) (s : State) : Word × Bool × State :=
  if !dbgPlace space addr then (0, false, s)
  else match space with
    | 0 => (readReg s addr, false, afterRead 0 addr s)
    | 1 =>
      if Config.debugHidden addr then (0, false, s)
      else if s.hub.ctlMem.any (fun c => c.1 / 4 == addr / 4) then (wordOf (readCells s.hub.ctlMem addr 4), false, s)
      else let r := takeFree s
           (r.1, false, r.2)
    | 2 => (match poolPlace s addr with
      | some (p, o) =>
        if inHistory s p o && !poisonedAt p o then let r := takeFree s
                                                   (r.1, false, r.2)
        else (wordOf ((pairBytes p o).drop (o % 8)), poisonedAt p o, s)
      | none => let r := takeFree s
                (r.1, false, r.2))
    | _ => let r := readCoreReg (addr / 0x1000) (addr % 0x1000) s
           (r.1, false, r.2)

/-- Write a word of a space (R660-R662). Log entries 94 (DESIGN CHOICE, safe), 95 (DESIGN CHOICE, safe). -/
def dbgStore (space addr : Nat) (v : Word) (begun : List Nat) (s : State) : State :=
  if !dbgPlace space addr then s
  else match space with
    | 0 => writeReg addr v s
    | 1 =>
      if Config.debugHidden addr then s
      else setHub (fun h => { h with ctlMem := setWord h.ctlMem addr v }) s
    | 2 => (match poolPlace s addr with
      | some (p, o) => poolWriteWord p o v s
      | none => s)
    | _ => writeCoreReg (addr / 0x1000) (addr % 0x1000) v begun s
where
  /-- Control-complex memory lists every byte of a word that was written, a zero too: what it holds elsewhere is not given. -/
  setWord (l : List Host.Cell) (a : Nat) (v : Word) : List Host.Cell :=
    (l.filter fun c => decide (c.1 < a)) ++ ((wordBytes v).zipIdx.map fun b => (a + b.2, b.1)) ++ l.filter fun c => decide (a + 4 ≤ c.1)

/-- DBG_READ (R657, R658), with the words that its access finds in error (R102): it needs an open port. -/
def evDbgRead (space addr : Nat) (errors : List MemError) (s : State) : State :=
  if s.dbg.ir != 0x21 then s
  else if s.dbg.level = 0 then dbgResult 0 addr 1 s
  else
    let r := dbgFetch (space % 8) addr (bringErrors errors s)
    dbgResult r.1 addr (if r.2.1 then 4 else 0) r.2.2

/-- A debug write is counted, and the first one after an opening is recorded (R662). Log entry 97 (DEDUCED, unsafe). -/
def countWrite (s : State) : State :=
  let s1 := setDbg (fun d => { d with writes := satAdd 32 d.writes 1, wrote := true }) s
  if s.dbg.wrote then s1 else debugEntry 0 0x1293 [] s1

/-- DBG_WRITE (R657, R658, R662): it needs CONTROL. -/
def evDbgWrite (space addr : Nat) (v : Word) (begun : List Nat) (s : State) : State :=
  if s.dbg.ir != 0x21 then s
  else if s.dbg.level = 0 then dbgResult 0 addr 1 s
  else if s.dbg.level = 1 then dbgResult 0 addr 2 s
  else dbgResult 0 addr 0 (dbgStore (space % 8) addr v begun (countWrite s))

/-- DBG_CTRL_LOCK (R657, R658). -/
def evDbgCtrlLock (s : State) : State :=
  if s.dbg.ir != 0x21 then s
  else if s.dbg.level = 0 then dbgResult 0 0 1 s
  else dbgResult 0 0 0 (debugEntry 0 0x1292 [] (setDbg (fun d => { d with level := 0 }) s))

/-- The rows that write DCTRL of a pair (R663). Log entry 93 (DEDUCED, unsafe). -/
def evDctrl (p value : Nat) (begun : List Nat) (s : State) : State :=
  if p < s.hub.cores.length then evDbgWrite 3 (p * 0x1000) (BitVec.ofNat 32 value) begun s else s

/-- BREAKPOINT_HIT (R663): the pair stops at the address of an enabled breakpoint. -/
def evBreakpointHit (p number : Nat) (begun : List Nat) (s : State) : State :=
  if number < 4 && bit (coreOf s p).bpEn number then debugHalt p 3 number (some ((coreOf s p).bps.getD number 0)) begun s else s

/-- WATCHPOINT_HIT (R663). -/
def evWatchpointHit (p number : Nat) (begun : List Nat) (s : State) : State :=
  if number < 2 && field ((coreOf s p).wpCtrl.getD number 0) 1 0 != 0 then debugHalt p 4 number none begun s else s

end Sys2Proof.Machine
end

