-- ==== Sys2Proof/Machine/Serve.lean ====
section
/-! DEFINITION. How the device serves its commands: the table of opcodes, the order in which waiting commands start (R57, R62), the effective
index of a held command, and what every row ends with. -/

namespace Sys2Proof.Machine

/-! ### The opcodes (R708) -/

/-- The commands of opcode group 0x00. -/
def specs00 : List CmdSpec := [specSysNop, specSysMode, specSysNoticeRoute, specSysCancel, specSysGetIndex, specSysCtlport, specSysGetMode, specSysCompat]

/-- The commands of opcode group 0x01. -/
def specs01 : List CmdSpec := [specMemAlloc, specMemFree, specMemQuery, specMemScrub, specMemRead, specMemWrite]

/-- The commands of opcode group 0x02. -/
def specs02 : List CmdSpec := [specTimeSpllConfig, specTimeStatus, specTimeSetEpoch, specTimeSync, specTimeRefPolicy, specTimeRefResume, specTimePpsConfig, specTimeOffset, specTimeGetOffset, specTimePpsRead, specTimePtpAdjust]

/-- The commands of opcode group 0x03. -/
def specs03 : List CmdSpec := [specConvConfig, specConvAtten, specConvInput, specConvRotation, specConvStatus, specConvAttenInfo]

/-- The commands of opcode group 0x04. -/
def specs04 : List CmdSpec := [specEqLoad, specEqSwap, specEqStatus, specTunerConfig, specTunerRetune, specTunerEnable, specTunerStatus]

/-- The commands of opcode group 0x05. -/
def specs05 : List CmdSpec := [specSpecConfig, specSpecEnable, specSpecOutput, specSpecWindowLoad, specSpecStatus]

/-- The commands of opcode group 0x06. -/
def specs06 : List CmdSpec := [specDensConfig, specDensEnable, specDensClear, specDensStatus, specSpgmConfig, specSpgmEnable, specSpgmStatus]

/-- The commands of opcode group 0x07. -/
def specs07 : List CmdSpec := [specTrigSlotConfig, specTrigArm, specTrigMaskConfig, specTrigMaskLoad, specTrigForce, specTrigStatus]

/-- The commands of opcode group 0x08. -/
def specs08 : List CmdSpec := [specCapSource, specCapSheafConfig, specCapArm, specCapStatus]

/-- The commands of opcode group 0x09. -/
def specs09 : List CmdSpec := [specIntConfig, specIntEnable, specIntStatus, specIntHeader, specThConfig, specThEnable, specThStatus]

/-- The commands of opcode group 0x0A. -/
def specs0A : List CmdSpec := [specStrmPortConfig, specStrmDest, specStrmConfig, specStrmEnable, specStrmMark, specStrmRewind, specStrmStatus, specStrmPortStatus, specStrmPtpSend]

/-- The commands of opcode group 0x0B. -/
def specs0B : List CmdSpec := [specPkConfig, specPkEncode, specPkStatus]

/-- The commands of opcode group 0x0C. -/
def specs0C : List CmdSpec := [specMqConfig, specMqRead, specMqPut, specMqFlush, specMqStatus]

/-- The commands of opcode group 0x0D. -/
def specs0D : List CmdSpec := [specTdcInput, specTdcSlotConfig, specTdcArm, specTdcRead, specTdcStatus]

/-- The commands of opcode group 0x0E. -/
def specs0E : List CmdSpec := [specMcInput, specMcSequence, specMcConvert, specMcRead, specMcStatus]

/-- The commands of opcode group 0x0F. -/
def specs0F : List CmdSpec := [specCalibMeasure, specCalibSliceRead, specCalibTdcRead, specMaintStart, specMaintCancel, specMaintStatus]

/-- The commands of opcode group 0x10. -/
def specs10 : List CmdSpec := [specDispTiming, specDispEnable, specDispLayer, specDispPalette, specDispCommit, specDispPanelCmd, specDispStatus]

/-- The commands of opcode group 0x11. -/
def specs11 : List CmdSpec := [specPairConfig, specPairJoin, specPairLeave, specPairSwitch, specPairTakeover, specPairStatus]

/-- The commands of opcode group 0x12. -/
def specs12 : List CmdSpec := [specDiagReset, specDiagFault, specDiagEcc, specBbRead, specBbFreeze, specBbClear, specDiagWatchdog]

/-- The commands of opcode group 0x13. -/
def specs13 : List CmdSpec := [specFwStatus, specFwLoad, specFwVerify, specFwActivate]

/-- Every opcode that the device has. -/
def allSpecs : List CmdSpec :=
  specs00 ++ specs01 ++ specs02 ++ specs03 ++ specs04 ++ specs05 ++ specs06 ++ specs07 ++ specs08 ++ specs09 ++ specs0A ++ specs0B ++ specs0C ++ specs0D ++ specs0E ++ specs0F ++ specs10 ++ specs11 ++ specs12 ++ specs13

/-- What an opcode adds; `none` for an opcode that the device does not have. -/
def specOf (opcode : Nat) : Option CmdSpec := allSpecs.find? fun sp => sp.opcode == opcode

/-- The same for the ordering of R57: an opcode that the device does not have counts with the unit of its group. -/
def specAny (opcode : Nat) : CmdSpec :=
  (specOf opcode).getD { opcode := opcode, plen := fun _ => true, addr := fun _ => [unitNo (opcode / 256) 255], run := fun _ _ s => (s, .done .badOpcode []) }

/-- A primary forwards this command to its mirror (R588): one that a device in SHADOW refuses. -/
def isForwarded (c : Cmd) : Bool := !neverForwarded c.opcode && !(specAny c.opcode).modes .shadow c

/-! ### Starting (R50, R52, R57, R62) -/

/-- The opcodes that the ROM serves in recovery (R623). -/
def recoveryServes (opcode : Nat) : Bool := [0x1300, 0x1301, 0x1302, 0x1303, 0x1203, 0x1200].contains opcode

/-- Start a waiting command: an opcode that the device does not have, or that the ROM does not serve, is BAD_OPCODE (R50, R623). -/
def startAny (c : Cmd) (s : State) : State :=
  match specOf c.opcode with
  | some sp =>
    if s.hub.fw.recovery && !recoveryServes c.opcode then complete c .badOpcode [] s.index s else startCmd sp c s
  | none => complete c .badOpcode [] s.index s

/-- Nothing of its source makes this waiting command wait (R57). Log entry 17 (DEDUCED, unsafe). -/
def startable (s : State) (c : Cmd) : Bool :=
  c.phase == .waiting && !(s.cmds.any fun d => blocks (specAny c.opcode) (specAny d.opcode) c d)

/-- The command fetched first. Log entry 17 (DEDUCED, unsafe). -/
def eldest (l : List Cmd) : Option Cmd :=
  l.foldl (fun acc c => match acc with
    | some d => if c.id < d.id then some c else some d
    | none => some c) none

/-- The next command to start: an URGENT one first (R62). Log entry 17 (DEDUCED, unsafe). -/
def nextCommand (s : State) : Option Cmd :=
  let l := s.cmds.filter (startable s)
  match eldest (l.filter fun c => c.urgent) with
  | some c => some c
  | none => eldest l

/-- Start every command that can start: at most `n` of them. Log entry 17 (DEDUCED, unsafe). -/
def pump : Nat → State → State
  | 0, s => s
  | n + 1, s =>
    if !serves s then s
    else match nextCommand s with
      | some c => pump n (startAny c s)
      | none => s

/-! ### What every row ends with -/

/-- A primary yields when a fault of class CLOCK or CONVERTER sets (R608). -/
def yieldFaults (old s : State) : State :=
  let s1 := if bit s.faultCause 1 && !bit old.faultCause 1 then yieldClass 0 s else s
  if bit s1.faultCause 2 && !bit old.faultCause 2 then yieldClass 1 s1 else s1

/-- PAIR_STATE (R614) after a change of ROLE, CONDITION or LINK, but for a reset. Log entry 82 (DEDUCED, unsafe). -/
def pairNotice (old s : State) : State :=
  if old.ready && s.ready && old.hub.bootId == s.hub.bootId && field (pairWord old) 5 0 != field (pairWord s) 5 0 then
    notify 0x1101 [pairWord s] s.index s
  else s

/-- After an event the device starts what it can start, and compares the statuses that it has. -/
def finish (old s : State) : State :=
  let s1 := yieldFaults old s
  pairNotice old (compareAll (pump s1.cmds.length s1))

/-- Time passes to index `k`, and what ends there has ended: the swaps of the equalisers (R209-R211). -/
def passTo (k : Nat) (s : State) : State :=
  let s1 := atTime k s
  { s1 with eqs := s1.eqs.map (endSwap s1.index) }

/-- A row of the event kind, at index `k`; the notices of what it does follow its replies (R63). Log entry 5 (DESIGN CHOICE, unsafe). -/
def runEvent (f : State → State) (k : Nat) (s : State) : Host.Outcome State Fault Refusal := .next (finish s (repliesFirst f (passTo k s)))

/-- The device takes a packet from a source: the ROM serves the SPI alone (R623). -/
def takesFrom (src : Src) (s : State) : Bool :=
  serves s && src != .pairLink && (!s.hub.fw.recovery || src == .spi)

/-- A row of the command kind, at index `k`: the packet, which has the row's opcode, has been fetched, and waits for its ordering conditions.
Log entries 5 (DESIGN CHOICE, unsafe), 6 (DESIGN CHOICE, safe). -/
def runRow (sp : CmdSpec) (k : Nat) (p : Packet) (s : State) : Host.Outcome State Fault Refusal :=
  runEvent (fun a => if takesFrom p.src a && opcodeOf p == sp.opcode then submitCmd p a else a) k s

/-! ### Effective indices (R31, R51, R54, R56) -/

/-- The device itself holds this command. Log entry 12 (DESIGN CHOICE, safe). -/
def isInternal (c : Cmd) : Bool := c.origin == 18

/-- The held commands that may take effect: a forwarded one waits while the mirror joins (R597). Log entry 13 (DEDUCED, unsafe). -/
def fireable (s : State) : List Cmd :=
  if s.pair.role == .mirror && s.pair.condition == .joining then s.cmds.filter fun c => c.src != .pairLink || isInternal c else s.cmds

/-- The first held command takes effect at its index, if it is one of a kind. While no samples pass, a command that the device itself holds takes
effect at once. Log entry 13 (DEDUCED, unsafe). -/
def fireRow (kind : Cmd → Bool) (s : State) : Host.Outcome State Fault Refusal :=
  let l := if delivering s then fireable s else s.cmds.filter fun c => isInternal c && c.eff.isNone
  match firstHeld l with
  | none => .next s
  | some c =>
    if kind c && c.eff.isSome == delivering s then runEvent (fireHeld (specAny c.opcode) c) (c.eff.getD s.index) s else .next s

/-- SWITCH_INDEX (R604). Log entry 77 (DEDUCED, unsafe). -/
def evSwitchIndex (w : Nat) (s : State) : Host.Outcome State Fault Refusal :=
  if s.pair.role == .primary then fireRow (fun c => c.opcode == 0x1103 && c.eff == some w) s else runEvent (mirrorSwitch w) w s

end Sys2Proof.Machine
end

