-- ==== Sys2Proof/Machine/Arms.lean ====
section
/-! DEFINITION. The meaning of each row of the opcode table, in the order of the table: the effect that its chapter's file defines, at the index of the
row. -/

namespace Sys2Proof.Machine

/-- SQ_TAIL_DOORBELL (R71). -/
def execSqTailDoorbell (k : Nat) (q : Fin 16) (value : Word) (s : State) : Host.Outcome State Fault Refusal :=
  runEvent (evSqTailDoorbell q.val value) k s

/-- RQ_HEAD_WRITE (R71). -/
def execRqHeadWrite (k : Nat) (q : Fin 16) (value : Word) (s : State) : Host.Outcome State Fault Refusal :=
  runEvent (evRqHeadWrite q.val value) k s

/-- QP_ENABLE (R70). -/
def execQpEnable (k : Nat) (q : Fin 16) (ctrl : Word) (s : State) : Host.Outcome State Fault Refusal :=
  runEvent (evQpEnable q.val ctrl) k s

/-- QP_DISABLE (R73). -/
def execQpDisable (k : Nat) (q : Fin 16) (ctrl : Word) (s : State) : Host.Outcome State Fault Refusal :=
  runEvent (evQpDisable q.val ctrl) k s

/-- GINT_STATUS_CLEAR (R84). -/
def execGintStatusClear (k : Nat) (value : Word) (s : State) : Host.Outcome State Fault Refusal :=
  runEvent (evGintStatusClear value) k s

/-- INDEX_LO_READ (R84). -/
def execIndexLoRead (k size offset : Nat) (s : State) : Host.Outcome State Fault Refusal :=
  runEvent (evIndexLoRead size offset) k s

/-- REGISTER_WRITE (R82). -/
def execRegisterWrite (k bar size offset : Nat) (value : BitVec 64) (s : State) : Host.Outcome State Fault Refusal :=
  runEvent (evRegisterWrite bar size offset value) k s

/-- COMMAND_FETCH (R72). -/
def execCommandFetch (k : Nat) (q : Fin 16) (got : Fetched) (s : State) : Host.Outcome State Fault Refusal :=
  runEvent (evCommandFetch q got) k s

/-- COAL_TIME_EXPIRY (R69). -/
def execCoalTimeExpiry (k : Nat) (q : Fin 16) (s : State) : Host.Outcome State Fault Refusal :=
  runEvent (evCoalTimeExpiry q.val) k s

/-- NOTICE_DELIVERY (R76). -/
def execNoticeDelivery (k : Nat) (dest : Fin 18) (s : State) : Host.Outcome State Fault Refusal :=
  runEvent (evNoticeDelivery dest.val) k s

/-- SPI_SUBMIT (R79). -/
def execSpiSubmit (k : Nat) (bytes : List Byte) (s : State) : Host.Outcome State Fault Refusal :=
  runEvent (spiTransaction 0x01 bytes false) k s

/-- SPI_READ_REPLY (R78). -/
def execSpiReadReply (k : Nat) (cut : Bool) (s : State) : Host.Outcome State Fault Refusal :=
  runEvent (spiTransaction 0x02 [] cut) k s

/-- SPI_READ_STATUS (R79). -/
def execSpiReadStatus (k : Nat) (s : State) : Host.Outcome State Fault Refusal :=
  runEvent (spiTransaction 0x03 [] false) k s

/-- CTLPORT_DATAGRAM (R80). -/
def execCtlportDatagram (k : Nat) (sender : Sender) (udp : Nat) (bytes : List Byte) (s : State) : Host.Outcome State Fault Refusal :=
  runEvent (evCtlportDatagram sender udp bytes) k s

/-- TIMED_EXECUTE (R51). Log entry 13 (DEDUCED, unsafe). -/
def execTimedExecute (s : State) : Host.Outcome State Fault Refusal :=
  fireRow (fun c => c.timed) s

/-- SCHEDULED_EFFECT (R31). Log entry 13 (DEDUCED, unsafe). -/
def execScheduledEffect (s : State) : Host.Outcome State Fault Refusal :=
  fireRow (fun c => !c.timed && (c.opcode != 0x0001 || c.eff.isNone)) s

/-- SYS_NOP (R87). -/
def execSysNop (k : Nat) (p : Packet) (s : State) : Host.Outcome State Fault Refusal :=
  runRow specSysNop k p s

/-- SYS_MODE (R110). -/
def execSysMode (k : Nat) (p : Packet) (s : State) : Host.Outcome State Fault Refusal :=
  runRow specSysMode k p s

/-- SYS_NOTICE_ROUTE (R88). -/
def execSysNoticeRoute (k : Nat) (p : Packet) (s : State) : Host.Outcome State Fault Refusal :=
  runRow specSysNoticeRoute k p s

/-- SYS_CANCEL (R89). -/
def execSysCancel (k : Nat) (p : Packet) (s : State) : Host.Outcome State Fault Refusal :=
  runRow specSysCancel k p s

/-- SYS_GET_INDEX (R90). -/
def execSysGetIndex (k : Nat) (p : Packet) (s : State) : Host.Outcome State Fault Refusal :=
  runRow specSysGetIndex k p s

/-- SYS_CTLPORT (R91). -/
def execSysCtlport (k : Nat) (p : Packet) (s : State) : Host.Outcome State Fault Refusal :=
  runRow specSysCtlport k p s

/-- SYS_GET_MODE (R111). -/
def execSysGetMode (k : Nat) (p : Packet) (s : State) : Host.Outcome State Fault Refusal :=
  runRow specSysGetMode k p s

/-- SYS_COMPAT (R693). -/
def execSysCompat (k : Nat) (p : Packet) (s : State) : Host.Outcome State Fault Refusal :=
  runRow specSysCompat k p s

/-- MODE_CHANGE_EFFECT (R107). Log entry 13 (DEDUCED, unsafe). -/
def execModeChangeEffect (s : State) : Host.Outcome State Fault Refusal :=
  fireRow (fun c => c.opcode == 0x0001) s

/-- MEM_ALLOC (R112). -/
def execMemAlloc (k : Nat) (p : Packet) (s : State) : Host.Outcome State Fault Refusal :=
  runRow specMemAlloc k p s

/-- MEM_FREE (R113). -/
def execMemFree (k : Nat) (p : Packet) (s : State) : Host.Outcome State Fault Refusal :=
  runRow specMemFree k p s

/-- MEM_FREE_RELEASE (R99). -/
def execMemFreeRelease (k slot : Nat) (s : State) : Host.Outcome State Fault Refusal :=
  runEvent (evMemFreeRelease slot) k s

/-- MEM_QUERY (R114). -/
def execMemQuery (k : Nat) (p : Packet) (s : State) : Host.Outcome State Fault Refusal :=
  runRow specMemQuery k p s

/-- MEM_SCRUB (R115). -/
def execMemScrub (k : Nat) (p : Packet) (s : State) : Host.Outcome State Fault Refusal :=
  runRow specMemScrub k p s

/-- MEM_READ (R116). -/
def execMemRead (k : Nat) (p : Packet) (s : State) : Host.Outcome State Fault Refusal :=
  runRow specMemRead k p s

/-- MEM_WRITE (R116). -/
def execMemWrite (k : Nat) (p : Packet) (s : State) : Host.Outcome State Fault Refusal :=
  runRow specMemWrite k p s

/-- MEM_TRANSFER_END (R116). -/
def execMemTransferEnd (k cmd : Nat) (ok : Bool) (hostData : List Byte) (errors : List MemError) (s : State) : Host.Outcome State Fault Refusal :=
  runEvent (evMemTransferEnd cmd ok hostData errors) k s

/-- SCRUB (R529). -/
def execScrub (k slot corrected : Nat) (newUncorrectable : List Nat) (s : State) : Host.Outcome State Fault Refusal :=
  runEvent (evScrub slot corrected newUncorrectable) k s

/-- TIME_SPLL_CONFIG (R153). -/
def execTimeSpllConfig (k : Nat) (p : Packet) (s : State) : Host.Outcome State Fault Refusal :=
  runRow specTimeSpllConfig k p s

/-- TIME_STATUS (R154). -/
def execTimeStatus (k : Nat) (p : Packet) (s : State) : Host.Outcome State Fault Refusal :=
  runRow specTimeStatus k p s

/-- TIME_SET_EPOCH (R155). -/
def execTimeSetEpoch (k : Nat) (p : Packet) (s : State) : Host.Outcome State Fault Refusal :=
  runRow specTimeSetEpoch k p s

/-- TIME_SYNC (R156). -/
def execTimeSync (k : Nat) (p : Packet) (s : State) : Host.Outcome State Fault Refusal :=
  runRow specTimeSync k p s

/-- TIME_REF_POLICY (R157). -/
def execTimeRefPolicy (k : Nat) (p : Packet) (s : State) : Host.Outcome State Fault Refusal :=
  runRow specTimeRefPolicy k p s

/-- TIME_REF_RESUME (R158). -/
def execTimeRefResume (k : Nat) (p : Packet) (s : State) : Host.Outcome State Fault Refusal :=
  runRow specTimeRefResume k p s

/-- TIME_PPS_CONFIG (R159). -/
def execTimePpsConfig (k : Nat) (p : Packet) (s : State) : Host.Outcome State Fault Refusal :=
  runRow specTimePpsConfig k p s

/-- TIME_OFFSET (R160). -/
def execTimeOffset (k : Nat) (p : Packet) (s : State) : Host.Outcome State Fault Refusal :=
  runRow specTimeOffset k p s

/-- TIME_GET_OFFSET (R161). -/
def execTimeGetOffset (k : Nat) (p : Packet) (s : State) : Host.Outcome State Fault Refusal :=
  runRow specTimeGetOffset k p s

/-- TIME_PPS_READ (R162). -/
def execTimePpsRead (k : Nat) (p : Packet) (s : State) : Host.Outcome State Fault Refusal :=
  runRow specTimePpsRead k p s

/-- TIME_PTP_ADJUST (R163). -/
def execTimePtpAdjust (k : Nat) (p : Packet) (s : State) : Host.Outcome State Fault Refusal :=
  runRow specTimePtpAdjust k p s

/-- UNLOCK_DETECTED (R127). -/
def execUnlockDetected (k : Nat) (jrem : Int) (s : State) : Host.Outcome State Fault Refusal :=
  runEvent (evUnlockDetected k jrem) k s

/-- LOCK_CONFIRMED (R127). -/
def execLockConfirmed (edge band : Nat) (s : State) : Host.Outcome State Fault Refusal :=
  .next (finish s (evLockConfirmed edge band s))

/-- LOCK_ATTEMPT_FAIL (R130). -/
def execLockAttemptFail (k : Nat) (s : State) : Host.Outcome State Fault Refusal :=
  runEvent evLockAttemptFail k s

/-- REF_MISSING_EDGE (R132). -/
def execRefMissingEdge (k dac : Nat) (s : State) : Host.Outcome State Fault Refusal :=
  runEvent (evRefMissingEdge dac) k s

/-- REF_FREQ_CHECK (R132). -/
def execRefFreqCheck (k dac : Nat) (deviationPpb : Int) (s : State) : Host.Outcome State Fault Refusal :=
  runEvent (evRefFreqCheck dac deviationPpb) k s

/-- REF_QUAL_EXPIRY (R136). -/
def execRefQualExpiry (k : Nat) (deviationPpb : Int) (s : State) : Host.Outcome State Fault Refusal :=
  runEvent (evRefQualExpiry deviationPpb) k s

/-- JUMP_KNOWN (R137). -/
def execJumpKnown (k : Nat) (measured : Int) (s : State) : Host.Outcome State Fault Refusal :=
  runEvent (evJumpKnown measured) k s

/-- PPS_DISAMBIG_TIMEOUT (R137). -/
def execPpsDisambigTimeout (k : Nat) (s : State) : Host.Outcome State Fault Refusal :=
  runEvent evPpsDisambigTimeout k s

/-- SLEW_END (R138). -/
def execSlewEnd (k : Nat) (s : State) : Host.Outcome State Fault Refusal :=
  runEvent evSlewEnd k s

/-- STEP_BOUNDARY (R139). -/
def execStepBoundary (measured : Int) (s : State) : Host.Outcome State Fault Refusal :=
  .next (finish s (evStepBoundary measured s))

/-- SYNC_EDGE_CAPTURE (R126). -/
def execSyncEdgeCapture (k : Nat) (pps : Bool) (s : State) : Host.Outcome State Fault Refusal :=
  runEvent (evSyncEdgeCapture pps) k s

/-- TIMEBASE_REPHASE (R742). -/
def execTimebaseRephase (edge band : Nat) (s : State) : Host.Outcome State Fault Refusal :=
  .next (finish s (evTimebaseRephase edge band s))

/-- TIME_SYNC_TIMEOUT (R156). -/
def execTimeSyncTimeout (k cmd : Nat) (s : State) : Host.Outcome State Fault Refusal :=
  runEvent (evTimeSyncTimeout cmd) k s

/-- PPS_IN_EDGE (R143). -/
def execPpsInEdge (k cycle tap : Nat) (s : State) : Host.Outcome State Fault Refusal :=
  runEvent (evPpsInEdge cycle tap) k s

/-- PPS_MISSING_TIMEOUT (R143). -/
def execPpsMissingTimeout (k : Nat) (s : State) : Host.Outcome State Fault Refusal :=
  runEvent evPpsMissingTimeout k s

/-- PPS_OUT_PULSE (R146). -/
def execPpsOutPulse (k second : Nat) (s : State) : Host.Outcome State Fault Refusal :=
  runEvent (evPpsOutPulse second) k s

/-- CONV_CONFIG (R194). -/
def execConvConfig (k : Nat) (p : Packet) (s : State) : Host.Outcome State Fault Refusal :=
  runRow specConvConfig k p s

/-- CONV_ATTEN (R195). -/
def execConvAtten (k : Nat) (p : Packet) (s : State) : Host.Outcome State Fault Refusal :=
  runRow specConvAtten k p s

/-- CONV_INPUT (R196). -/
def execConvInput (k : Nat) (p : Packet) (s : State) : Host.Outcome State Fault Refusal :=
  runRow specConvInput k p s

/-- CONV_ROTATION (R197). -/
def execConvRotation (k : Nat) (p : Packet) (s : State) : Host.Outcome State Fault Refusal :=
  runRow specConvRotation k p s

/-- CONV_STATUS (R198). -/
def execConvStatus (k : Nat) (p : Packet) (s : State) : Host.Outcome State Fault Refusal :=
  runRow specConvStatus k p s

/-- CONV_ATTEN_INFO (R199). -/
def execConvAttenInfo (k : Nat) (p : Packet) (s : State) : Host.Outcome State Fault Refusal :=
  runRow specConvAttenInfo k p s

/-- OVER_RANGE (R201). -/
def execOverRange (channel first : Nat) (values : List Rat) (s : State) : Host.Outcome State Fault Refusal :=
  runEvent (evOverRange channel first values) s.index s

/-- SLICE_SWAP (R177). -/
def execSliceSwap (k : Nat) (results : List (Int × Int × Int)) (s : State) : Host.Outcome State Fault Refusal :=
  runEvent (evSliceSwap k results) k s

/-- SLICE_MONITOR_WINDOW (R180). -/
def execSliceMonitorWindow (k : Nat) (sums : List SliceSums) (s : State) : Host.Outcome State Fault Refusal :=
  runEvent (evSliceMonitorWindow sums) k s

/-- EQ_LOAD (R234). -/
def execEqLoad (k : Nat) (p : Packet) (s : State) : Host.Outcome State Fault Refusal :=
  runRow specEqLoad k p s

/-- EQ_SWAP (R235). -/
def execEqSwap (k : Nat) (p : Packet) (s : State) : Host.Outcome State Fault Refusal :=
  runRow specEqSwap k p s

/-- EQ_HELD_START (R211). -/
def execEqHeldStart (k channel : Nat) (s : State) : Host.Outcome State Fault Refusal :=
  runEvent (evEqHeldStart channel) k s

/-- EQ_STATUS (R236). -/
def execEqStatus (k : Nat) (p : Packet) (s : State) : Host.Outcome State Fault Refusal :=
  runRow specEqStatus k p s

/-- TUNER_CONFIG (R237). -/
def execTunerConfig (k : Nat) (p : Packet) (s : State) : Host.Outcome State Fault Refusal :=
  runRow specTunerConfig k p s

/-- TUNER_RETUNE (R238). -/
def execTunerRetune (k : Nat) (p : Packet) (s : State) : Host.Outcome State Fault Refusal :=
  runRow specTunerRetune k p s

/-- TUNER_ENABLE (R239). -/
def execTunerEnable (k : Nat) (p : Packet) (s : State) : Host.Outcome State Fault Refusal :=
  runRow specTunerEnable k p s

/-- TUNER_STATUS (R240). -/
def execTunerStatus (k : Nat) (p : Packet) (s : State) : Host.Outcome State Fault Refusal :=
  runRow specTunerStatus k p s

/-- SPEC_CONFIG (R264). -/
def execSpecConfig (k : Nat) (p : Packet) (s : State) : Host.Outcome State Fault Refusal :=
  runRow specSpecConfig k p s

/-- SPEC_ENABLE (R265). -/
def execSpecEnable (k : Nat) (p : Packet) (s : State) : Host.Outcome State Fault Refusal :=
  runRow specSpecEnable k p s

/-- SPEC_OUTPUT (R266). -/
def execSpecOutput (k : Nat) (p : Packet) (s : State) : Host.Outcome State Fault Refusal :=
  runRow specSpecOutput k p s

/-- SPEC_WINDOW_LOAD (R267). -/
def execSpecWindowLoad (k : Nat) (p : Packet) (s : State) : Host.Outcome State Fault Refusal :=
  runRow specSpecWindowLoad k p s

/-- SPEC_STATUS (R268). -/
def execSpecStatus (k : Nat) (p : Packet) (s : State) : Host.Outcome State Fault Refusal :=
  runRow specSpecStatus k p s

/-- SPECTRUM_DONE (R253). -/
def execSpectrumDone (k engine : Nat) (volts : List Volts) (linesLost : List Nat) (thresherDrops : Bool) (errors : List MemError) (s : State) : Host.Outcome State Fault Refusal :=
  runEvent (evSpectrumDone engine volts linesLost thresherDrops errors) k s

/-- DENSITY_FRAME_CLOSE (R277). -/
def execDensityFrameClose (k unit : Nat) (exportLost layerBusy : Bool) (s : State) : Host.Outcome State Fault Refusal :=
  runEvent (evDensityFrameClose k unit exportLost layerBusy) k s

/-- DECAY_STEP (R274). -/
def execDecayStep (k : Nat) (s : State) : Host.Outcome State Fault Refusal :=
  runEvent (evDecayStep k) k s

/-- DENS_CONFIG (R292). -/
def execDensConfig (k : Nat) (p : Packet) (s : State) : Host.Outcome State Fault Refusal :=
  runRow specDensConfig k p s

/-- DENS_ENABLE (R293). -/
def execDensEnable (k : Nat) (p : Packet) (s : State) : Host.Outcome State Fault Refusal :=
  runRow specDensEnable k p s

/-- DENS_CLEAR (R276). -/
def execDensClear (k : Nat) (p : Packet) (s : State) : Host.Outcome State Fault Refusal :=
  runRow specDensClear k p s

/-- DENS_STATUS (R294). -/
def execDensStatus (k : Nat) (p : Packet) (s : State) : Host.Outcome State Fault Refusal :=
  runRow specDensStatus k p s

/-- SPGM_CONFIG (R295). -/
def execSpgmConfig (k : Nat) (p : Packet) (s : State) : Host.Outcome State Fault Refusal :=
  runRow specSpgmConfig k p s

/-- SPGM_ENABLE (R296). -/
def execSpgmEnable (k : Nat) (p : Packet) (s : State) : Host.Outcome State Fault Refusal :=
  runRow specSpgmEnable k p s

/-- SPGM_STATUS (R297). -/
def execSpgmStatus (k : Nat) (p : Packet) (s : State) : Host.Outcome State Fault Refusal :=
  runRow specSpgmStatus k p s

/-- TRIG_DECIDE (R315). -/
def execTrigDecide (k : Nat) (volts : List Volts) (s : State) : Host.Outcome State Fault Refusal :=
  runEvent (evTrigDecide k volts) k s

/-- TRIG_SLOT_CONFIG (R328). -/
def execTrigSlotConfig (k : Nat) (p : Packet) (s : State) : Host.Outcome State Fault Refusal :=
  runRow specTrigSlotConfig k p s

/-- TRIG_ARM (R330). -/
def execTrigArm (k : Nat) (p : Packet) (s : State) : Host.Outcome State Fault Refusal :=
  runRow specTrigArm k p s

/-- TRIG_MASK_CONFIG (R331). -/
def execTrigMaskConfig (k : Nat) (p : Packet) (s : State) : Host.Outcome State Fault Refusal :=
  runRow specTrigMaskConfig k p s

/-- TRIG_MASK_LOAD (R332). -/
def execTrigMaskLoad (k : Nat) (p : Packet) (s : State) : Host.Outcome State Fault Refusal :=
  runRow specTrigMaskLoad k p s

/-- TRIG_FORCE (R333). -/
def execTrigForce (k : Nat) (p : Packet) (s : State) : Host.Outcome State Fault Refusal :=
  runRow specTrigForce k p s

/-- TRIG_STATUS (R334). -/
def execTrigStatus (k : Nat) (p : Packet) (s : State) : Host.Outcome State Fault Refusal :=
  runRow specTrigStatus k p s

/-- SEGMENT_CLOSE (R349). -/
def execSegmentClose (k sheaf : Nat) (dropped : Bool) (volts : List Volts) (errors : List MemError) (s : State) : Host.Outcome State Fault Refusal :=
  runEvent (evSegmentClose k sheaf dropped volts errors) k s

/-- CAP_SOURCE (R358). -/
def execCapSource (k : Nat) (p : Packet) (s : State) : Host.Outcome State Fault Refusal :=
  runRow specCapSource k p s

/-- CAP_SHEAF_CONFIG (R359). -/
def execCapSheafConfig (k : Nat) (p : Packet) (s : State) : Host.Outcome State Fault Refusal :=
  runRow specCapSheafConfig k p s

/-- CAP_ARM (R360). -/
def execCapArm (k : Nat) (p : Packet) (s : State) : Host.Outcome State Fault Refusal :=
  runRow specCapArm k p s

/-- CAP_STATUS (R361). -/
def execCapStatus (k : Nat) (p : Packet) (s : State) : Host.Outcome State Fault Refusal :=
  runRow specCapStatus k p s

/-- INT_SET_ACCUMULATE (R365). -/
def execIntSetAccumulate (k number : Nat) (drop : Bool) (errors : List MemError) (s : State) : Host.Outcome State Fault Refusal :=
  runEvent (evIntSetAccumulate number drop errors) k s

/-- INT_FRAME_CLOSE (R374). -/
def execIntFrameClose (k : Nat) (s : State) : Host.Outcome State Fault Refusal :=
  runEvent (evIntFrameClose k) k s

/-- INT_CONFIG (R383). -/
def execIntConfig (k : Nat) (p : Packet) (s : State) : Host.Outcome State Fault Refusal :=
  runRow specIntConfig k p s

/-- INT_ENABLE (R384). -/
def execIntEnable (k : Nat) (p : Packet) (s : State) : Host.Outcome State Fault Refusal :=
  runRow specIntEnable k p s

/-- INT_STATUS (R385). -/
def execIntStatus (k : Nat) (p : Packet) (s : State) : Host.Outcome State Fault Refusal :=
  runRow specIntStatus k p s

/-- INT_HEADER (R386). -/
def execIntHeader (k : Nat) (p : Packet) (s : State) : Host.Outcome State Fault Refusal :=
  runRow specIntHeader k p s

/-- TH_CONFIG (R387). -/
def execThConfig (k : Nat) (p : Packet) (s : State) : Host.Outcome State Fault Refusal :=
  runRow specThConfig k p s

/-- TH_ENABLE (R388). -/
def execThEnable (k : Nat) (p : Packet) (s : State) : Host.Outcome State Fault Refusal :=
  runRow specThEnable k p s

/-- TH_STATUS (R389). -/
def execThStatus (k : Nat) (p : Packet) (s : State) : Host.Outcome State Fault Refusal :=
  runRow specThStatus k p s

/-- STRM_PACKET_GENERATE (R394). -/
def execStrmPacketGenerate (k ctx : Nat) (volts : List Volts) (choice : List Byte) (errors : List MemError) (s : State) : Host.Outcome State Fault Refusal :=
  runEvent (evStrmPacketGenerate ctx volts choice errors) k s

/-- STRM_PACKET_SEND (R412). -/
def execStrmPacketSend (k ctx : Nat) (rewind : Bool) (errors : List MemError) (s : State) : Host.Outcome State Fault Refusal :=
  runEvent (evStrmPacketSend ctx rewind errors) k s

/-- HOST_RING_CONS_POLL (R408). -/
def execHostRingConsPoll (k entry cons : Nat) (s : State) : Host.Outcome State Fault Refusal :=
  runEvent (evHostRingConsPoll entry cons) k s

/-- REWIND_DONE (R417). -/
def execRewindDone (k ctx : Nat) (s : State) : Host.Outcome State Fault Refusal :=
  runEvent (evRewindDone ctx) k s

/-- ARP_REQUEST (R410). -/
def execArpRequest (k port mac ip target : Nat) (s : State) : Host.Outcome State Fault Refusal :=
  runEvent (evArpRequest port mac ip target) k s

/-- NEIGHBOUR_SOLICITATION (R410). -/
def execNeighbourSolicitation (k port mac : Nat) (ip target : List Word) (s : State) : Host.Outcome State Fault Refusal :=
  runEvent (evNeighbourSolicitation port mac ip target) k s

/-- PTP_FRAME_RX (R419). -/
def execPtpFrameRx (k port stamp : Nat) (frame : List Byte) (s : State) : Host.Outcome State Fault Refusal :=
  runEvent (evPtpFrameRx port stamp frame) k s

/-- PAUSE_FRAME (R410). -/
def execPauseFrame (k port : Nat) (s : State) : Host.Outcome State Fault Refusal :=
  runEvent (evPauseFrame port) k s

/-- OTHER_FRAME (R410). -/
def execOtherFrame (k port : Nat) (s : State) : Host.Outcome State Fault Refusal :=
  runEvent (evOtherFrame port) k s

/-- ETH_LINK_CHANGE (R432). -/
def execEthLinkChange (k port : Nat) (up : Bool) (s : State) : Host.Outcome State Fault Refusal :=
  runEvent (evEthLinkChange port up) k s

/-- EGRESS_DOWN_TIMEOUT (R608). -/
def execEgressDownTimeout (k port : Nat) (s : State) : Host.Outcome State Fault Refusal :=
  runEvent (evEgressDownTimeout port) k s

/-- STRM_PORT_CONFIG (R423). -/
def execStrmPortConfig (k : Nat) (p : Packet) (s : State) : Host.Outcome State Fault Refusal :=
  runRow specStrmPortConfig k p s

/-- STRM_DEST (R424). -/
def execStrmDest (k : Nat) (p : Packet) (s : State) : Host.Outcome State Fault Refusal :=
  runRow specStrmDest k p s

/-- STRM_CONFIG (R425). -/
def execStrmConfig (k : Nat) (p : Packet) (s : State) : Host.Outcome State Fault Refusal :=
  runRow specStrmConfig k p s

/-- STRM_ENABLE (R426). -/
def execStrmEnable (k : Nat) (p : Packet) (s : State) : Host.Outcome State Fault Refusal :=
  runRow specStrmEnable k p s

/-- STRM_MARK (R427). -/
def execStrmMark (k : Nat) (p : Packet) (s : State) : Host.Outcome State Fault Refusal :=
  runRow specStrmMark k p s

/-- STRM_REWIND (R428). -/
def execStrmRewind (k : Nat) (p : Packet) (s : State) : Host.Outcome State Fault Refusal :=
  runRow specStrmRewind k p s

/-- STRM_STATUS (R429). -/
def execStrmStatus (k : Nat) (p : Packet) (s : State) : Host.Outcome State Fault Refusal :=
  runRow specStrmStatus k p s

/-- STRM_PORT_STATUS (R430). -/
def execStrmPortStatus (k : Nat) (p : Packet) (s : State) : Host.Outcome State Fault Refusal :=
  runRow specStrmPortStatus k p s

/-- STRM_PTP_SEND (R431). -/
def execStrmPtpSend (k : Nat) (p : Packet) (s : State) : Host.Outcome State Fault Refusal :=
  runRow specStrmPtpSend k p s

/-- PK_CONFIG (R448). -/
def execPkConfig (k : Nat) (p : Packet) (s : State) : Host.Outcome State Fault Refusal :=
  runRow specPkConfig k p s

/-- PK_ENCODE (R449). -/
def execPkEncode (k : Nat) (p : Packet) (s : State) : Host.Outcome State Fault Refusal :=
  runRow specPkEncode k p s

/-- PK_JOB_END (R445). -/
def execPkJobEnd (k packer : Nat) (choices : List (List Byte)) (errors : List MemError) (s : State) : Host.Outcome State Fault Refusal :=
  runEvent (evPkJobEnd packer choices errors) k s

/-- PK_STATUS (R450). -/
def execPkStatus (k : Nat) (p : Packet) (s : State) : Host.Outcome State Fault Refusal :=
  runRow specPkStatus k p s

/-- MQ_ITEM_ACCEPT (R454). -/
def execMqItemAccept (k producer : Nat) (s : State) : Host.Outcome State Fault Refusal :=
  runEvent (evMqItemAccept producer) k s

/-- MQ_LINGER_EXPIRY (R456). -/
def execMqLingerExpiry (k : Nat) (s : State) : Host.Outcome State Fault Refusal :=
  runEvent evMqLingerExpiry k s

/-- MQ_READ_COMPLETE (R465). -/
def execMqReadComplete (k : Nat) (errors : List MemError) (s : State) : Host.Outcome State Fault Refusal :=
  runEvent (evMqReadComplete errors) k s

/-- MQ_READ_TIMEOUT (R465). -/
def execMqReadTimeout (k : Nat) (errors : List MemError) (s : State) : Host.Outcome State Fault Refusal :=
  runEvent (evMqReadTimeout errors) k s

/-- MQ_CONFIG (R464). -/
def execMqConfig (k : Nat) (p : Packet) (s : State) : Host.Outcome State Fault Refusal :=
  runRow specMqConfig k p s

/-- MQ_READ (R465). -/
def execMqRead (k : Nat) (p : Packet) (s : State) : Host.Outcome State Fault Refusal :=
  runRow specMqRead k p s

/-- MQ_PUT (R466). -/
def execMqPut (k : Nat) (p : Packet) (s : State) : Host.Outcome State Fault Refusal :=
  runRow specMqPut k p s

/-- MQ_FLUSH (R460). -/
def execMqFlush (k : Nat) (p : Packet) (s : State) : Host.Outcome State Fault Refusal :=
  runRow specMqFlush k p s

/-- MQ_STATUS (R469). -/
def execMqStatus (k : Nat) (p : Packet) (s : State) : Host.Outcome State Fault Refusal :=
  runRow specMqStatus k p s

/-- TDC_EDGE (R472). -/
def execTdcEdge (k input cycle tap : Nat) (s : State) : Host.Outcome State Fault Refusal :=
  runEvent (evTdcEdge input cycle tap) k s

/-- TDC_MEASURE_TIMEOUT (R483). -/
def execTdcMeasureTimeout (k slot : Nat) (s : State) : Host.Outcome State Fault Refusal :=
  runEvent (evTdcMeasureTimeout k slot) k s

/-- TDC_WINDOW_CLOSE (R484). -/
def execTdcWindowClose (k slot : Nat) (s : State) : Host.Outcome State Fault Refusal :=
  runEvent (evTdcWindowClose k slot) k s

/-- PROBE_LAUNCH (R486). -/
def execProbeLaunch (k slot : Nat) (s : State) : Host.Outcome State Fault Refusal :=
  runEvent (evProbeLaunch k slot) k s

/-- TDC_STUCK_TIMEOUT (R473). -/
def execTdcStuckTimeout (k input : Nat) (s : State) : Host.Outcome State Fault Refusal :=
  runEvent (evTdcStuckTimeout input) k s

/-- TDC_DWELL_END (R477). -/
def execTdcDwellEnd (k : Nat) (hits : List Nat) (s : State) : Host.Outcome State Fault Refusal :=
  runEvent (evTdcDwellEnd hits) k s

/-- TDC_TABLES_READY (R479). -/
def execTdcTablesReady (k : Nat) (hits : List (List Nat)) (s : State) : Host.Outcome State Fault Refusal :=
  runEvent (evTdcTablesReady hits) k s

/-- TDC_INPUT (R494). -/
def execTdcInput (k : Nat) (p : Packet) (s : State) : Host.Outcome State Fault Refusal :=
  runRow specTdcInput k p s

/-- TDC_SLOT_CONFIG (R495). -/
def execTdcSlotConfig (k : Nat) (p : Packet) (s : State) : Host.Outcome State Fault Refusal :=
  runRow specTdcSlotConfig k p s

/-- TDC_ARM (R496). -/
def execTdcArm (k : Nat) (p : Packet) (s : State) : Host.Outcome State Fault Refusal :=
  runRow specTdcArm k p s

/-- TDC_READ (R497). -/
def execTdcRead (k : Nat) (p : Packet) (s : State) : Host.Outcome State Fault Refusal :=
  runRow specTdcRead k p s

/-- TDC_STATUS (R498). -/
def execTdcStatus (k : Nat) (p : Packet) (s : State) : Host.Outcome State Fault Refusal :=
  runRow specTdcStatus k p s

/-- MC_CONVERSION_END (R512). -/
def execMcConversionEnd (k : Nat) (volts : Rat) (value : Int) (overload : Bool) (s : State) : Host.Outcome State Fault Refusal :=
  runEvent (evMcConversionEnd volts value overload) k s

/-- MC_SYSTEM_PASS (R508). -/
def execMcSystemPass (k : Nat) (s : State) : Host.Outcome State Fault Refusal :=
  runEvent evMcSystemPass k s

/-- MC_INPUT (R518). -/
def execMcInput (k : Nat) (p : Packet) (s : State) : Host.Outcome State Fault Refusal :=
  runRow specMcInput k p s

/-- MC_SEQUENCE (R519). -/
def execMcSequence (k : Nat) (p : Packet) (s : State) : Host.Outcome State Fault Refusal :=
  runRow specMcSequence k p s

/-- MC_CONVERT (R520). -/
def execMcConvert (k : Nat) (p : Packet) (s : State) : Host.Outcome State Fault Refusal :=
  runRow specMcConvert k p s

/-- MC_READ (R521). -/
def execMcRead (k : Nat) (p : Packet) (s : State) : Host.Outcome State Fault Refusal :=
  runRow specMcRead k p s

/-- MC_STATUS (R522). -/
def execMcStatus (k : Nat) (p : Packet) (s : State) : Host.Outcome State Fault Refusal :=
  runRow specMcStatus k p s

/-- ACTIVITY_START (R531). -/
def execActivityStart (k : Nat) (s : State) : Host.Outcome State Fault Refusal :=
  runEvent evActivityStart k s

/-- TDC_CAL_PRIORITY (R533). -/
def execTdcCalPriority (k : Nat) (s : State) : Host.Outcome State Fault Refusal :=
  runEvent evTdcCalPriority k s

/-- CAL_MEASURE_END (R540). -/
def execCalMeasureEnd (k : Nat) (volts : List Volts) (s : State) : Host.Outcome State Fault Refusal :=
  runEvent (evCalMeasureEnd volts) k s

/-- SCRUB_PASS_END (R546). -/
def execScrubPassEnd (k : Nat) (found : List (Nat × Nat × List Nat)) (s : State) : Host.Outcome State Fault Refusal :=
  runEvent (evScrubPassEnd found) k s

/-- CALIB_MEASURE (R542). -/
def execCalibMeasure (k : Nat) (p : Packet) (s : State) : Host.Outcome State Fault Refusal :=
  runRow specCalibMeasure k p s

/-- CALIB_SLICE_READ (R544). -/
def execCalibSliceRead (k : Nat) (p : Packet) (s : State) : Host.Outcome State Fault Refusal :=
  runRow specCalibSliceRead k p s

/-- CALIB_TDC_READ (R545). -/
def execCalibTdcRead (k : Nat) (p : Packet) (s : State) : Host.Outcome State Fault Refusal :=
  runRow specCalibTdcRead k p s

/-- MAINT_START (R546). -/
def execMaintStart (k : Nat) (p : Packet) (s : State) : Host.Outcome State Fault Refusal :=
  runRow specMaintStart k p s

/-- MAINT_CANCEL (R547). -/
def execMaintCancel (k : Nat) (p : Packet) (s : State) : Host.Outcome State Fault Refusal :=
  runRow specMaintCancel k p s

/-- MAINT_STATUS (R548). -/
def execMaintStatus (k : Nat) (p : Packet) (s : State) : Host.Outcome State Fault Refusal :=
  runRow specMaintStatus k p s

/-- DISP_FRAME_START (R550). -/
def execDispFrameStart (k : Nat) (complete : Bool) (errors : List MemError) (s : State) : Host.Outcome State Fault Refusal :=
  runEvent (evDispFrameStart k complete errors) k s

/-- DISP_LATCH_LINE (R560). -/
def execDispLatchLine (k : Nat) (s : State) : Host.Outcome State Fault Refusal :=
  runEvent evDispLatchLine k s

/-- SCANOUT_END (R566). -/
def execScanoutEnd (k : Nat) (readback : Word) (errors : List MemError) (s : State) : Host.Outcome State Fault Refusal :=
  runEvent (evScanoutEnd k readback errors) k s

/-- TE_EDGE (R565). -/
def execTeEdge (k ns : Nat) (s : State) : Host.Outcome State Fault Refusal :=
  runEvent (evTeEdge k ns) k s

/-- TE_LOST_TIMEOUT (R565). -/
def execTeLostTimeout (k : Nat) (s : State) : Host.Outcome State Fault Refusal :=
  runEvent (evTeLostTimeout k) k s

/-- PANEL_CMD_SEND (R568). -/
def execPanelCmdSend (k : Nat) (errorReport : Bool) (response : Option (List Byte)) (s : State) : Host.Outcome State Fault Refusal :=
  runEvent (evPanelCmdSend errorReport response) k s

/-- PANEL_RESP_TIMEOUT (R568). -/
def execPanelRespTimeout (k : Nat) (s : State) : Host.Outcome State Fault Refusal :=
  runEvent evPanelRespTimeout k s

/-- DISP_TIMING (R572). -/
def execDispTiming (k : Nat) (p : Packet) (s : State) : Host.Outcome State Fault Refusal :=
  runRow specDispTiming k p s

/-- DISP_ENABLE (R573). -/
def execDispEnable (k : Nat) (p : Packet) (s : State) : Host.Outcome State Fault Refusal :=
  runRow specDispEnable k p s

/-- DISP_LAYER (R574). -/
def execDispLayer (k : Nat) (p : Packet) (s : State) : Host.Outcome State Fault Refusal :=
  runRow specDispLayer k p s

/-- DISP_PALETTE (R575). -/
def execDispPalette (k : Nat) (p : Packet) (s : State) : Host.Outcome State Fault Refusal :=
  runRow specDispPalette k p s

/-- DISP_COMMIT (R576). -/
def execDispCommit (k : Nat) (p : Packet) (s : State) : Host.Outcome State Fault Refusal :=
  runRow specDispCommit k p s

/-- DISP_PANEL_CMD (R577). -/
def execDispPanelCmd (k : Nat) (p : Packet) (s : State) : Host.Outcome State Fault Refusal :=
  runRow specDispPanelCmd k p s

/-- DISP_STATUS (R578). -/
def execDispStatus (k : Nat) (p : Packet) (s : State) : Host.Outcome State Fault Refusal :=
  runRow specDispStatus k p s

/-- HEARTBEAT_SEND (R585). -/
def execHeartbeatSend (k : Nat) (s : State) : Host.Outcome State Fault Refusal :=
  runEvent evHeartbeatSend k s

/-- HEARTBEAT_RECEIVE (R587). -/
def execHeartbeatReceive (k : Nat) (hb : Heartbeat) (s : State) : Host.Outcome State Fault Refusal :=
  runEvent (evHeartbeatReceive hb) k s

/-- HEARTBEAT_TIMEOUT (R599). -/
def execHeartbeatTimeout (k : Nat) (s : State) : Host.Outcome State Fault Refusal :=
  runEvent evHeartbeatTimeout k s

/-- LIVE_STALL (R600). -/
def execLiveStall (k : Nat) (s : State) : Host.Outcome State Fault Refusal :=
  runEvent evLiveStall k s

/-- PAIR_LINK_TRAINED (R582). -/
def execPairLinkTrained (k latency : Nat) (variant : Variant) (compat : Nat) (later : Bool) (s : State) : Host.Outcome State Fault Refusal :=
  runEvent (evPairLinkTrained latency variant compat later) k s

/-- PAIR_LINK_DOWN (R598). -/
def execPairLinkDown (k : Nat) (s : State) : Host.Outcome State Fault Refusal :=
  runEvent evPairLinkDown k s

/-- PAIR_LANE_FAIL (R582). -/
def execPairLaneFail (k : Nat) (s : State) : Host.Outcome State Fault Refusal :=
  runEvent evPairLaneFail k s

/-- FORWARDED_COMMAND (R591). -/
def execForwardedCommand (k : Nat) (f : Forwarded) (s : State) : Host.Outcome State Fault Refusal :=
  runEvent (evForwardedCommand f) k s

/-- MIRROR_STATUS_RETURN (R591). -/
def execMirrorStatusReturn (k mseq : Nat) (status : Status) (s : State) : Host.Outcome State Fault Refusal :=
  runEvent (evMirrorStatusReturn mseq status) k s

/-- MIRROR_STATE_RECEIVE (R594). -/
def execMirrorStateReceive (k : Nat) (m : MirrorState) (s : State) : Host.Outcome State Fault Refusal :=
  runEvent (evMirrorStateReceive m) k s

/-- YIELD_RECEIVE (R599). -/
def execYieldReceive (k : Nat) (s : State) : Host.Outcome State Fault Refusal :=
  runEvent evYieldReceive k s

/-- TAKEOVER_REQUEST_RECEIVE (R600). -/
def execTakeoverRequestReceive (k : Nat) (s : State) : Host.Outcome State Fault Refusal :=
  runEvent evTakeoverRequestReceive k s

/-- SNAPSHOT_RECEIVE (R597). -/
def execSnapshotReceive (k : Nat) (snap : Snapshot) (s : State) : Host.Outcome State Fault Refusal :=
  runEvent (evSnapshotReceive isForwarded snap) k s

/-- JOIN_INDEX (R597). -/
def execJoinIndex (j : Nat) (s : State) : Host.Outcome State Fault Refusal :=
  runEvent (evJoinIndex j) j s

/-- SWITCH_INDEX (R604). -/
def execSwitchIndex (w : Nat) (s : State) : Host.Outcome State Fault Refusal :=
  evSwitchIndex w s

/-- PAIR_RELAY_PACKET (R409). -/
def execPairRelayPacket (k entry : Nat) (bytes : List Byte) (s : State) : Host.Outcome State Fault Refusal :=
  runEvent (evPairRelayPacket entry bytes) k s

/-- PAIR_CONFIG (R608). -/
def execPairConfig (k : Nat) (p : Packet) (s : State) : Host.Outcome State Fault Refusal :=
  runRow specPairConfig k p s

/-- PAIR_JOIN (R609). -/
def execPairJoin (k : Nat) (p : Packet) (s : State) : Host.Outcome State Fault Refusal :=
  runRow specPairJoin k p s

/-- PAIR_LEAVE (R610). -/
def execPairLeave (k : Nat) (p : Packet) (s : State) : Host.Outcome State Fault Refusal :=
  runRow specPairLeave k p s

/-- PAIR_SWITCH (R611). -/
def execPairSwitch (k : Nat) (p : Packet) (s : State) : Host.Outcome State Fault Refusal :=
  runRow specPairSwitch k p s

/-- PAIR_TAKEOVER (R612). -/
def execPairTakeover (k : Nat) (p : Packet) (s : State) : Host.Outcome State Fault Refusal :=
  runRow specPairTakeover k p s

/-- PAIR_STATUS (R613). -/
def execPairStatus (k : Nat) (p : Packet) (s : State) : Host.Outcome State Fault Refusal :=
  runRow specPairStatus k p s

/-- POWER_ON (R620). -/
def execPowerOn (fit : Option FlashImage) (refOk : Bool) (band : Nat) (s : State) : Host.Outcome State Fault Refusal :=
  .next (finish s (evPowerOn fit refOk band s))

/-- PWR_GOOD_LOW (R615). -/
def execPwrGoodLow (k : Nat) (s : State) : Host.Outcome State Fault Refusal :=
  runEvent evPwrGoodLow k s

/-- RESET_N_LOW (R617). -/
def execResetNLow (k : Nat) (s : State) : Host.Outcome State Fault Refusal :=
  runEvent evResetNLow k s

/-- PCIE_RESET (R618). -/
def execPcieReset (k : Nat) (s : State) : Host.Outcome State Fault Refusal :=
  runEvent evPcieReset k s

/-- BOOT_START_TIMEOUT (R622). -/
def execBootStartTimeout (k : Nat) (s : State) : Host.Outcome State Fault Refusal :=
  runEvent evBootStartTimeout k s

/-- LOCKSTEP_MISMATCH (R624). -/
def execLockstepMismatch (k pair : Nat) (pc : Word) (ue : Bool) (begun : List Nat) (s : State) : Host.Outcome State Fault Refusal :=
  runEvent (evLockstepMismatch pair pc ue begun) k s

/-- CORE_SELFTEST_END (R625). -/
def execCoreSelftestEnd (k pair : Nat) (pass : Bool) (s : State) : Host.Outcome State Fault Refusal :=
  runEvent (evCoreSelftestEnd pair pass) k s

/-- WATCHDOG_EXPIRY (R626). -/
def execWatchdogExpiry (k missed : Nat) (s : State) : Host.Outcome State Fault Refusal :=
  runEvent (evWatchdogExpiry missed) k s

/-- THERMAL_TRIP_EVENT (R629). -/
def execThermalTripEvent (k input : Nat) (value : Int) (s : State) : Host.Outcome State Fault Refusal :=
  runEvent (evThermalTrip input value) k s

/-- TILE_LINK_SEQ_FAIL (R21). -/
def execTileLinkSeqFail (k tile : Nat) (s : State) : Host.Outcome State Fault Refusal :=
  runEvent (evTileLinkSeqFail tile) k s

/-- TILE_LINK_RETRAIN (R630). -/
def execTileLinkRetrain (k tile : Nat) (s : State) : Host.Outcome State Fault Refusal :=
  runEvent (evTileLinkRetrain tile) k s

/-- TILE_RETRAIN_END (R630). -/
def execTileRetrainEnd (k tile : Nat) (ok : Bool) (s : State) : Host.Outcome State Fault Refusal :=
  runEvent (evTileRetrainEnd tile ok) k s

/-- FW_IMAGE_READY (R636). -/
def execFwImageReady (k pauseUs : Nat) (s : State) : Host.Outcome State Fault Refusal :=
  runEvent (evFwImageReady pauseUs) k s

/-- FLASH_ERASE_END (R647). -/
def execFlashEraseEnd (k : Nat) (s : State) : Host.Outcome State Fault Refusal :=
  runEvent evFlashEraseEnd k s

/-- DIAG_RESET (R639). -/
def execDiagReset (k : Nat) (p : Packet) (s : State) : Host.Outcome State Fault Refusal :=
  runRow specDiagReset k p s

/-- DIAG_FAULT (R640). -/
def execDiagFault (k : Nat) (p : Packet) (s : State) : Host.Outcome State Fault Refusal :=
  runRow specDiagFault k p s

/-- DIAG_ECC (R641). -/
def execDiagEcc (k : Nat) (p : Packet) (s : State) : Host.Outcome State Fault Refusal :=
  runRow specDiagEcc k p s

/-- BB_READ (R642). -/
def execBbRead (k : Nat) (p : Packet) (s : State) : Host.Outcome State Fault Refusal :=
  runRow specBbRead k p s

/-- BB_FREEZE (R643). -/
def execBbFreeze (k : Nat) (p : Packet) (s : State) : Host.Outcome State Fault Refusal :=
  runRow specBbFreeze k p s

/-- BB_CLEAR (R644). -/
def execBbClear (k : Nat) (p : Packet) (s : State) : Host.Outcome State Fault Refusal :=
  runRow specBbClear k p s

/-- DIAG_WATCHDOG (R645). -/
def execDiagWatchdog (k : Nat) (p : Packet) (s : State) : Host.Outcome State Fault Refusal :=
  runRow specDiagWatchdog k p s

/-- FW_STATUS (R646). -/
def execFwStatus (k : Nat) (p : Packet) (s : State) : Host.Outcome State Fault Refusal :=
  runRow specFwStatus k p s

/-- FW_LOAD (R647). -/
def execFwLoad (k : Nat) (p : Packet) (s : State) : Host.Outcome State Fault Refusal :=
  runRow specFwLoad k p s

/-- FW_VERIFY (R648). -/
def execFwVerify (k : Nat) (p : Packet) (s : State) : Host.Outcome State Fault Refusal :=
  runRow specFwVerify k p s

/-- FW_ACTIVATE (R649). -/
def execFwActivate (k : Nat) (p : Packet) (s : State) : Host.Outcome State Fault Refusal :=
  runRow specFwActivate k p s

/-- TAP_RESET (R651). -/
def execTapReset (k : Nat) (s : State) : Host.Outcome State Fault Refusal :=
  runEvent evTapReset k s

/-- TAP_INSTRUCTION_LOAD (R654). -/
def execTapInstructionLoad (k code : Nat) (levels shifted : List Bool) (s : State) : Host.Outcome State Fault Refusal :=
  runEvent (evTapInstructionLoad code levels shifted) k s

/-- GAUNTLET_SELECT (R656). -/
def execGauntletSelect (k : Nat) (s : State) : Host.Outcome State Fault Refusal :=
  runEvent evGauntletSelect k s

/-- GAUNTLET_RESPONSE (R656). -/
def execGauntletResponse (k : Nat) (response : BitVec 776) (s : State) : Host.Outcome State Fault Refusal :=
  runEvent (evGauntletResponse response) k s

/-- DBG_READ (R658). -/
def execDbgRead (k space addr : Nat) (errors : List MemError) (s : State) : Host.Outcome State Fault Refusal :=
  runEvent (evDbgRead space addr errors) k s

/-- DBG_WRITE (R662). -/
def execDbgWrite (k space addr : Nat) (value : Word) (begun : List Nat) (s : State) : Host.Outcome State Fault Refusal :=
  runEvent (evDbgWrite space addr value begun) k s

/-- DBG_CTRL_LOCK (R657). -/
def execDbgCtrlLock (k : Nat) (s : State) : Host.Outcome State Fault Refusal :=
  runEvent evDbgCtrlLock k s

/-- DCTRL_HALT (R664). -/
def execDctrlHalt (k pair : Nat) (begun : List Nat) (s : State) : Host.Outcome State Fault Refusal :=
  runEvent (evDctrl pair 1 begun) k s

/-- DCTRL_RESUME (R664). -/
def execDctrlResume (k pair : Nat) (s : State) : Host.Outcome State Fault Refusal :=
  runEvent (evDctrl pair 2 []) k s

/-- DCTRL_STEP (R663). -/
def execDctrlStep (k pair : Nat) (s : State) : Host.Outcome State Fault Refusal :=
  runEvent (evDctrl pair 4 []) k s

/-- BREAKPOINT_HIT (R663). -/
def execBreakpointHit (k pair number : Nat) (begun : List Nat) (s : State) : Host.Outcome State Fault Refusal :=
  runEvent (evBreakpointHit pair number begun) k s

/-- WATCHPOINT_HIT (R663). -/
def execWatchpointHit (k pair number : Nat) (begun : List Nat) (s : State) : Host.Outcome State Fault Refusal :=
  runEvent (evWatchpointHit pair number begun) k s

/-- REF_EDGES_RETURN (R136). -/
def execRefEdgesReturn (k : Nat) (s : State) : Host.Outcome State Fault Refusal :=
  runEvent evRefEdgesReturn k s

/-- RESET_N_RELEASE (R619). -/
def execResetNRelease (k : Nat) (s : State) : Host.Outcome State Fault Refusal :=
  runEvent evResetNRelease k s

/-- PCIE_LINK_UP (R619). -/
def execPcieLinkUp (k : Nat) (msixEnable : Bool) (dead : List (Nat × Nat)) (s : State) : Host.Outcome State Fault Refusal :=
  runEvent (evPcieLinkUp msixEnable dead) k s

/-- PARTNER_STROBE_EDGE (R586). -/
def execPartnerStrobeEdge (k : Nat) (s : State) : Host.Outcome State Fault Refusal :=
  runEvent evPartnerStrobeEdge k s

/-- PARTNER_STROBE_TIMEOUT (R586). -/
def execPartnerStrobeTimeout (k : Nat) (s : State) : Host.Outcome State Fault Refusal :=
  runEvent evPartnerStrobeTimeout k s

/-- LEVEL_INACTIVE (R473). -/
def execLevelInactive (k input : Nat) (s : State) : Host.Outcome State Fault Refusal :=
  runEvent (evLevelInactive input) k s

/-- THERMAL_TRIP_CLEAR (R629). -/
def execThermalTripClear (k : Nat) (s : State) : Host.Outcome State Fault Refusal :=
  runEvent evThermalTripClear k s

/-- HOST_RING_INT_TIME (R408). -/
def execHostRingIntTime (k entry : Nat) (s : State) : Host.Outcome State Fault Refusal :=
  runEvent (evHostRingIntTime entry) k s

end Sys2Proof.Machine
end

