-- ==== Sys2Proof/Machine/Dispatch.lean ====
section
/-! DEFINITION. The dispatch: one arm per constructor of Instr, in the order of the opcode table. -/

namespace Sys2Proof.Machine

/-- The effect of one command on everything but the queue of waiting commands. -/
def exec (i : Instr) (s : State) : Host.Outcome State Fault Refusal :=
  match i with
  | .sqTailDoorbell k q value => Sys2Proof.Machine.execSqTailDoorbell k q value s
  | .rqHeadWrite k q value => Sys2Proof.Machine.execRqHeadWrite k q value s
  | .qpEnable k q ctrl => Sys2Proof.Machine.execQpEnable k q ctrl s
  | .qpDisable k q ctrl => Sys2Proof.Machine.execQpDisable k q ctrl s
  | .gintStatusClear k value => Sys2Proof.Machine.execGintStatusClear k value s
  | .indexLoRead k size offset => Sys2Proof.Machine.execIndexLoRead k size offset s
  | .registerWrite k bar size offset value => Sys2Proof.Machine.execRegisterWrite k bar size offset value s
  | .commandFetch k q got => Sys2Proof.Machine.execCommandFetch k q got s
  | .coalTimeExpiry k q => Sys2Proof.Machine.execCoalTimeExpiry k q s
  | .noticeDelivery k dest => Sys2Proof.Machine.execNoticeDelivery k dest s
  | .spiSubmit k bytes => Sys2Proof.Machine.execSpiSubmit k bytes s
  | .spiReadReply k cut => Sys2Proof.Machine.execSpiReadReply k cut s
  | .spiReadStatus k => Sys2Proof.Machine.execSpiReadStatus k s
  | .ctlportDatagram k sender udp bytes => Sys2Proof.Machine.execCtlportDatagram k sender udp bytes s
  | .timedExecute => Sys2Proof.Machine.execTimedExecute s
  | .scheduledEffect => Sys2Proof.Machine.execScheduledEffect s
  | .sysNop k p => Sys2Proof.Machine.execSysNop k p s
  | .sysMode k p => Sys2Proof.Machine.execSysMode k p s
  | .sysNoticeRoute k p => Sys2Proof.Machine.execSysNoticeRoute k p s
  | .sysCancel k p => Sys2Proof.Machine.execSysCancel k p s
  | .sysGetIndex k p => Sys2Proof.Machine.execSysGetIndex k p s
  | .sysCtlport k p => Sys2Proof.Machine.execSysCtlport k p s
  | .sysGetMode k p => Sys2Proof.Machine.execSysGetMode k p s
  | .sysCompat k p => Sys2Proof.Machine.execSysCompat k p s
  | .modeChangeEffect => Sys2Proof.Machine.execModeChangeEffect s
  | .memAlloc k p => Sys2Proof.Machine.execMemAlloc k p s
  | .memFree k p => Sys2Proof.Machine.execMemFree k p s
  | .memFreeRelease k slot => Sys2Proof.Machine.execMemFreeRelease k slot s
  | .memQuery k p => Sys2Proof.Machine.execMemQuery k p s
  | .memScrub k p => Sys2Proof.Machine.execMemScrub k p s
  | .memRead k p => Sys2Proof.Machine.execMemRead k p s
  | .memWrite k p => Sys2Proof.Machine.execMemWrite k p s
  | .memTransferEnd k cmd ok hostData errors => Sys2Proof.Machine.execMemTransferEnd k cmd ok hostData errors s
  | .scrub k slot corrected newUncorrectable => Sys2Proof.Machine.execScrub k slot corrected newUncorrectable s
  | .timeSpllConfig k p => Sys2Proof.Machine.execTimeSpllConfig k p s
  | .timeStatus k p => Sys2Proof.Machine.execTimeStatus k p s
  | .timeSetEpoch k p => Sys2Proof.Machine.execTimeSetEpoch k p s
  | .timeSync k p => Sys2Proof.Machine.execTimeSync k p s
  | .timeRefPolicy k p => Sys2Proof.Machine.execTimeRefPolicy k p s
  | .timeRefResume k p => Sys2Proof.Machine.execTimeRefResume k p s
  | .timePpsConfig k p => Sys2Proof.Machine.execTimePpsConfig k p s
  | .timeOffset k p => Sys2Proof.Machine.execTimeOffset k p s
  | .timeGetOffset k p => Sys2Proof.Machine.execTimeGetOffset k p s
  | .timePpsRead k p => Sys2Proof.Machine.execTimePpsRead k p s
  | .timePtpAdjust k p => Sys2Proof.Machine.execTimePtpAdjust k p s
  | .unlockDetected k jrem => Sys2Proof.Machine.execUnlockDetected k jrem s
  | .lockConfirmed edge band => Sys2Proof.Machine.execLockConfirmed edge band s
  | .lockAttemptFail k => Sys2Proof.Machine.execLockAttemptFail k s
  | .refMissingEdge k dac => Sys2Proof.Machine.execRefMissingEdge k dac s
  | .refFreqCheck k dac deviationPpb => Sys2Proof.Machine.execRefFreqCheck k dac deviationPpb s
  | .refQualExpiry k deviationPpb => Sys2Proof.Machine.execRefQualExpiry k deviationPpb s
  | .jumpKnown k measured => Sys2Proof.Machine.execJumpKnown k measured s
  | .ppsDisambigTimeout k => Sys2Proof.Machine.execPpsDisambigTimeout k s
  | .slewEnd k => Sys2Proof.Machine.execSlewEnd k s
  | .stepBoundary measured => Sys2Proof.Machine.execStepBoundary measured s
  | .syncEdgeCapture k pps => Sys2Proof.Machine.execSyncEdgeCapture k pps s
  | .timebaseRephase edge band => Sys2Proof.Machine.execTimebaseRephase edge band s
  | .timeSyncTimeout k cmd => Sys2Proof.Machine.execTimeSyncTimeout k cmd s
  | .ppsInEdge k cycle tap => Sys2Proof.Machine.execPpsInEdge k cycle tap s
  | .ppsMissingTimeout k => Sys2Proof.Machine.execPpsMissingTimeout k s
  | .ppsOutPulse k second => Sys2Proof.Machine.execPpsOutPulse k second s
  | .convConfig k p => Sys2Proof.Machine.execConvConfig k p s
  | .convAtten k p => Sys2Proof.Machine.execConvAtten k p s
  | .convInput k p => Sys2Proof.Machine.execConvInput k p s
  | .convRotation k p => Sys2Proof.Machine.execConvRotation k p s
  | .convStatus k p => Sys2Proof.Machine.execConvStatus k p s
  | .convAttenInfo k p => Sys2Proof.Machine.execConvAttenInfo k p s
  | .overRange channel first values => Sys2Proof.Machine.execOverRange channel first values s
  | .sliceSwap k results => Sys2Proof.Machine.execSliceSwap k results s
  | .sliceMonitorWindow k sums => Sys2Proof.Machine.execSliceMonitorWindow k sums s
  | .eqLoad k p => Sys2Proof.Machine.execEqLoad k p s
  | .eqSwap k p => Sys2Proof.Machine.execEqSwap k p s
  | .eqHeldStart k channel => Sys2Proof.Machine.execEqHeldStart k channel s
  | .eqStatus k p => Sys2Proof.Machine.execEqStatus k p s
  | .tunerConfig k p => Sys2Proof.Machine.execTunerConfig k p s
  | .tunerRetune k p => Sys2Proof.Machine.execTunerRetune k p s
  | .tunerEnable k p => Sys2Proof.Machine.execTunerEnable k p s
  | .tunerStatus k p => Sys2Proof.Machine.execTunerStatus k p s
  | .specConfig k p => Sys2Proof.Machine.execSpecConfig k p s
  | .specEnable k p => Sys2Proof.Machine.execSpecEnable k p s
  | .specOutput k p => Sys2Proof.Machine.execSpecOutput k p s
  | .specWindowLoad k p => Sys2Proof.Machine.execSpecWindowLoad k p s
  | .specStatus k p => Sys2Proof.Machine.execSpecStatus k p s
  | .spectrumDone k engine volts linesLost thresherDrops errors => Sys2Proof.Machine.execSpectrumDone k engine volts linesLost thresherDrops errors s
  | .densityFrameClose k unit exportLost layerBusy => Sys2Proof.Machine.execDensityFrameClose k unit exportLost layerBusy s
  | .decayStep k => Sys2Proof.Machine.execDecayStep k s
  | .densConfig k p => Sys2Proof.Machine.execDensConfig k p s
  | .densEnable k p => Sys2Proof.Machine.execDensEnable k p s
  | .densClear k p => Sys2Proof.Machine.execDensClear k p s
  | .densStatus k p => Sys2Proof.Machine.execDensStatus k p s
  | .spgmConfig k p => Sys2Proof.Machine.execSpgmConfig k p s
  | .spgmEnable k p => Sys2Proof.Machine.execSpgmEnable k p s
  | .spgmStatus k p => Sys2Proof.Machine.execSpgmStatus k p s
  | .trigDecide k volts => Sys2Proof.Machine.execTrigDecide k volts s
  | .trigSlotConfig k p => Sys2Proof.Machine.execTrigSlotConfig k p s
  | .trigArm k p => Sys2Proof.Machine.execTrigArm k p s
  | .trigMaskConfig k p => Sys2Proof.Machine.execTrigMaskConfig k p s
  | .trigMaskLoad k p => Sys2Proof.Machine.execTrigMaskLoad k p s
  | .trigForce k p => Sys2Proof.Machine.execTrigForce k p s
  | .trigStatus k p => Sys2Proof.Machine.execTrigStatus k p s
  | .segmentClose k sheaf dropped volts errors => Sys2Proof.Machine.execSegmentClose k sheaf dropped volts errors s
  | .capSource k p => Sys2Proof.Machine.execCapSource k p s
  | .capSheafConfig k p => Sys2Proof.Machine.execCapSheafConfig k p s
  | .capArm k p => Sys2Proof.Machine.execCapArm k p s
  | .capStatus k p => Sys2Proof.Machine.execCapStatus k p s
  | .intSetAccumulate k number drop errors => Sys2Proof.Machine.execIntSetAccumulate k number drop errors s
  | .intFrameClose k => Sys2Proof.Machine.execIntFrameClose k s
  | .intConfig k p => Sys2Proof.Machine.execIntConfig k p s
  | .intEnable k p => Sys2Proof.Machine.execIntEnable k p s
  | .intStatus k p => Sys2Proof.Machine.execIntStatus k p s
  | .intHeader k p => Sys2Proof.Machine.execIntHeader k p s
  | .thConfig k p => Sys2Proof.Machine.execThConfig k p s
  | .thEnable k p => Sys2Proof.Machine.execThEnable k p s
  | .thStatus k p => Sys2Proof.Machine.execThStatus k p s
  | .strmPacketGenerate k ctx volts choice errors => Sys2Proof.Machine.execStrmPacketGenerate k ctx volts choice errors s
  | .strmPacketSend k ctx rewind errors => Sys2Proof.Machine.execStrmPacketSend k ctx rewind errors s
  | .hostRingConsPoll k entry cons => Sys2Proof.Machine.execHostRingConsPoll k entry cons s
  | .rewindDone k ctx => Sys2Proof.Machine.execRewindDone k ctx s
  | .arpRequest k port mac ip target => Sys2Proof.Machine.execArpRequest k port mac ip target s
  | .neighbourSolicitation k port mac ip target => Sys2Proof.Machine.execNeighbourSolicitation k port mac ip target s
  | .ptpFrameRx k port stamp frame => Sys2Proof.Machine.execPtpFrameRx k port stamp frame s
  | .pauseFrame k port => Sys2Proof.Machine.execPauseFrame k port s
  | .otherFrame k port => Sys2Proof.Machine.execOtherFrame k port s
  | .ethLinkChange k port up => Sys2Proof.Machine.execEthLinkChange k port up s
  | .egressDownTimeout k port => Sys2Proof.Machine.execEgressDownTimeout k port s
  | .strmPortConfig k p => Sys2Proof.Machine.execStrmPortConfig k p s
  | .strmDest k p => Sys2Proof.Machine.execStrmDest k p s
  | .strmConfig k p => Sys2Proof.Machine.execStrmConfig k p s
  | .strmEnable k p => Sys2Proof.Machine.execStrmEnable k p s
  | .strmMark k p => Sys2Proof.Machine.execStrmMark k p s
  | .strmRewind k p => Sys2Proof.Machine.execStrmRewind k p s
  | .strmStatus k p => Sys2Proof.Machine.execStrmStatus k p s
  | .strmPortStatus k p => Sys2Proof.Machine.execStrmPortStatus k p s
  | .strmPtpSend k p => Sys2Proof.Machine.execStrmPtpSend k p s
  | .pkConfig k p => Sys2Proof.Machine.execPkConfig k p s
  | .pkEncode k p => Sys2Proof.Machine.execPkEncode k p s
  | .pkJobEnd k packer choices errors => Sys2Proof.Machine.execPkJobEnd k packer choices errors s
  | .pkStatus k p => Sys2Proof.Machine.execPkStatus k p s
  | .mqItemAccept k producer => Sys2Proof.Machine.execMqItemAccept k producer s
  | .mqLingerExpiry k => Sys2Proof.Machine.execMqLingerExpiry k s
  | .mqReadComplete k errors => Sys2Proof.Machine.execMqReadComplete k errors s
  | .mqReadTimeout k errors => Sys2Proof.Machine.execMqReadTimeout k errors s
  | .mqConfig k p => Sys2Proof.Machine.execMqConfig k p s
  | .mqRead k p => Sys2Proof.Machine.execMqRead k p s
  | .mqPut k p => Sys2Proof.Machine.execMqPut k p s
  | .mqFlush k p => Sys2Proof.Machine.execMqFlush k p s
  | .mqStatus k p => Sys2Proof.Machine.execMqStatus k p s
  | .tdcEdge k input cycle tap => Sys2Proof.Machine.execTdcEdge k input cycle tap s
  | .tdcMeasureTimeout k slot => Sys2Proof.Machine.execTdcMeasureTimeout k slot s
  | .tdcWindowClose k slot => Sys2Proof.Machine.execTdcWindowClose k slot s
  | .probeLaunch k slot => Sys2Proof.Machine.execProbeLaunch k slot s
  | .tdcStuckTimeout k input => Sys2Proof.Machine.execTdcStuckTimeout k input s
  | .tdcDwellEnd k hits => Sys2Proof.Machine.execTdcDwellEnd k hits s
  | .tdcTablesReady k hits => Sys2Proof.Machine.execTdcTablesReady k hits s
  | .tdcInput k p => Sys2Proof.Machine.execTdcInput k p s
  | .tdcSlotConfig k p => Sys2Proof.Machine.execTdcSlotConfig k p s
  | .tdcArm k p => Sys2Proof.Machine.execTdcArm k p s
  | .tdcRead k p => Sys2Proof.Machine.execTdcRead k p s
  | .tdcStatus k p => Sys2Proof.Machine.execTdcStatus k p s
  | .mcConversionEnd k volts value overload => Sys2Proof.Machine.execMcConversionEnd k volts value overload s
  | .mcSystemPass k => Sys2Proof.Machine.execMcSystemPass k s
  | .mcInput k p => Sys2Proof.Machine.execMcInput k p s
  | .mcSequence k p => Sys2Proof.Machine.execMcSequence k p s
  | .mcConvert k p => Sys2Proof.Machine.execMcConvert k p s
  | .mcRead k p => Sys2Proof.Machine.execMcRead k p s
  | .mcStatus k p => Sys2Proof.Machine.execMcStatus k p s
  | .activityStart k => Sys2Proof.Machine.execActivityStart k s
  | .tdcCalPriority k => Sys2Proof.Machine.execTdcCalPriority k s
  | .calMeasureEnd k volts => Sys2Proof.Machine.execCalMeasureEnd k volts s
  | .scrubPassEnd k found => Sys2Proof.Machine.execScrubPassEnd k found s
  | .calibMeasure k p => Sys2Proof.Machine.execCalibMeasure k p s
  | .calibSliceRead k p => Sys2Proof.Machine.execCalibSliceRead k p s
  | .calibTdcRead k p => Sys2Proof.Machine.execCalibTdcRead k p s
  | .maintStart k p => Sys2Proof.Machine.execMaintStart k p s
  | .maintCancel k p => Sys2Proof.Machine.execMaintCancel k p s
  | .maintStatus k p => Sys2Proof.Machine.execMaintStatus k p s
  | .dispFrameStart k complete errors => Sys2Proof.Machine.execDispFrameStart k complete errors s
  | .dispLatchLine k => Sys2Proof.Machine.execDispLatchLine k s
  | .scanoutEnd k readback errors => Sys2Proof.Machine.execScanoutEnd k readback errors s
  | .teEdge k ns => Sys2Proof.Machine.execTeEdge k ns s
  | .teLostTimeout k => Sys2Proof.Machine.execTeLostTimeout k s
  | .panelCmdSend k errorReport response => Sys2Proof.Machine.execPanelCmdSend k errorReport response s
  | .panelRespTimeout k => Sys2Proof.Machine.execPanelRespTimeout k s
  | .dispTiming k p => Sys2Proof.Machine.execDispTiming k p s
  | .dispEnable k p => Sys2Proof.Machine.execDispEnable k p s
  | .dispLayer k p => Sys2Proof.Machine.execDispLayer k p s
  | .dispPalette k p => Sys2Proof.Machine.execDispPalette k p s
  | .dispCommit k p => Sys2Proof.Machine.execDispCommit k p s
  | .dispPanelCmd k p => Sys2Proof.Machine.execDispPanelCmd k p s
  | .dispStatus k p => Sys2Proof.Machine.execDispStatus k p s
  | .heartbeatSend k => Sys2Proof.Machine.execHeartbeatSend k s
  | .heartbeatReceive k hb => Sys2Proof.Machine.execHeartbeatReceive k hb s
  | .heartbeatTimeout k => Sys2Proof.Machine.execHeartbeatTimeout k s
  | .liveStall k => Sys2Proof.Machine.execLiveStall k s
  | .pairLinkTrained k latency variant compat later => Sys2Proof.Machine.execPairLinkTrained k latency variant compat later s
  | .pairLinkDown k => Sys2Proof.Machine.execPairLinkDown k s
  | .pairLaneFail k => Sys2Proof.Machine.execPairLaneFail k s
  | .forwardedCommand k f => Sys2Proof.Machine.execForwardedCommand k f s
  | .mirrorStatusReturn k mseq status => Sys2Proof.Machine.execMirrorStatusReturn k mseq status s
  | .mirrorStateReceive k m => Sys2Proof.Machine.execMirrorStateReceive k m s
  | .yieldReceive k => Sys2Proof.Machine.execYieldReceive k s
  | .takeoverRequestReceive k => Sys2Proof.Machine.execTakeoverRequestReceive k s
  | .snapshotReceive k snap => Sys2Proof.Machine.execSnapshotReceive k snap s
  | .joinIndex j => Sys2Proof.Machine.execJoinIndex j s
  | .switchIndex w => Sys2Proof.Machine.execSwitchIndex w s
  | .pairRelayPacket k entry bytes => Sys2Proof.Machine.execPairRelayPacket k entry bytes s
  | .pairConfig k p => Sys2Proof.Machine.execPairConfig k p s
  | .pairJoin k p => Sys2Proof.Machine.execPairJoin k p s
  | .pairLeave k p => Sys2Proof.Machine.execPairLeave k p s
  | .pairSwitch k p => Sys2Proof.Machine.execPairSwitch k p s
  | .pairTakeover k p => Sys2Proof.Machine.execPairTakeover k p s
  | .pairStatus k p => Sys2Proof.Machine.execPairStatus k p s
  | .powerOn fit refOk band => Sys2Proof.Machine.execPowerOn fit refOk band s
  | .pwrGoodLow k => Sys2Proof.Machine.execPwrGoodLow k s
  | .resetNLow k => Sys2Proof.Machine.execResetNLow k s
  | .pcieReset k => Sys2Proof.Machine.execPcieReset k s
  | .bootStartTimeout k => Sys2Proof.Machine.execBootStartTimeout k s
  | .lockstepMismatch k pair pc ue begun => Sys2Proof.Machine.execLockstepMismatch k pair pc ue begun s
  | .coreSelftestEnd k pair pass => Sys2Proof.Machine.execCoreSelftestEnd k pair pass s
  | .watchdogExpiry k missed => Sys2Proof.Machine.execWatchdogExpiry k missed s
  | .thermalTripEvent k input value => Sys2Proof.Machine.execThermalTripEvent k input value s
  | .tileLinkSeqFail k tile => Sys2Proof.Machine.execTileLinkSeqFail k tile s
  | .tileLinkRetrain k tile => Sys2Proof.Machine.execTileLinkRetrain k tile s
  | .tileRetrainEnd k tile ok => Sys2Proof.Machine.execTileRetrainEnd k tile ok s
  | .fwImageReady k pauseUs => Sys2Proof.Machine.execFwImageReady k pauseUs s
  | .flashEraseEnd k => Sys2Proof.Machine.execFlashEraseEnd k s
  | .diagReset k p => Sys2Proof.Machine.execDiagReset k p s
  | .diagFault k p => Sys2Proof.Machine.execDiagFault k p s
  | .diagEcc k p => Sys2Proof.Machine.execDiagEcc k p s
  | .bbRead k p => Sys2Proof.Machine.execBbRead k p s
  | .bbFreeze k p => Sys2Proof.Machine.execBbFreeze k p s
  | .bbClear k p => Sys2Proof.Machine.execBbClear k p s
  | .diagWatchdog k p => Sys2Proof.Machine.execDiagWatchdog k p s
  | .fwStatus k p => Sys2Proof.Machine.execFwStatus k p s
  | .fwLoad k p => Sys2Proof.Machine.execFwLoad k p s
  | .fwVerify k p => Sys2Proof.Machine.execFwVerify k p s
  | .fwActivate k p => Sys2Proof.Machine.execFwActivate k p s
  | .tapReset k => Sys2Proof.Machine.execTapReset k s
  | .tapInstructionLoad k code levels shifted => Sys2Proof.Machine.execTapInstructionLoad k code levels shifted s
  | .gauntletSelect k => Sys2Proof.Machine.execGauntletSelect k s
  | .gauntletResponse k response => Sys2Proof.Machine.execGauntletResponse k response s
  | .dbgRead k space addr errors => Sys2Proof.Machine.execDbgRead k space addr errors s
  | .dbgWrite k space addr value begun => Sys2Proof.Machine.execDbgWrite k space addr value begun s
  | .dbgCtrlLock k => Sys2Proof.Machine.execDbgCtrlLock k s
  | .dctrlHalt k pair begun => Sys2Proof.Machine.execDctrlHalt k pair begun s
  | .dctrlResume k pair => Sys2Proof.Machine.execDctrlResume k pair s
  | .dctrlStep k pair => Sys2Proof.Machine.execDctrlStep k pair s
  | .breakpointHit k pair number begun => Sys2Proof.Machine.execBreakpointHit k pair number begun s
  | .watchpointHit k pair number begun => Sys2Proof.Machine.execWatchpointHit k pair number begun s
  | .refEdgesReturn k => Sys2Proof.Machine.execRefEdgesReturn k s
  | .resetNRelease k => Sys2Proof.Machine.execResetNRelease k s
  | .pcieLinkUp k msixEnable dead => Sys2Proof.Machine.execPcieLinkUp k msixEnable dead s
  | .partnerStrobeEdge k => Sys2Proof.Machine.execPartnerStrobeEdge k s
  | .partnerStrobeTimeout k => Sys2Proof.Machine.execPartnerStrobeTimeout k s
  | .levelInactive k input => Sys2Proof.Machine.execLevelInactive k input s
  | .thermalTripClear k => Sys2Proof.Machine.execThermalTripClear k s
  | .hostRingIntTime k entry => Sys2Proof.Machine.execHostRingIntTime k entry s

end Sys2Proof.Machine
end

