-- ==== Sys2Proof/Safety.lean ====
section
/-! DEFINITION. What counts as a safe run: the relations between fields that every step keeps; and the terms in which the claims speak of a row that
takes effect. -/

namespace Sys2Proof.Machine

/-- The memories of the device are in canonical form: the partitions of the shared pool (an unlisted byte reads 0, R98) and the two flash slots (an
unlisted byte is erased). -/
def State.memWf (s : State) : Bool :=
  s.pool.parts.all (fun p => cellsWf p.data) && s.hub.fw.slots.all (fun f => cellsWf f.data)

/-- The notices that wait for their destination fit its buffer of 64 entries (R76). -/
def State.noticesFit (s : State) : Bool := s.notices.length == 18 && s.notices.all (fun b => decide (b.held.length ≤ 64))

/-- A device is in SHADOW exactly while it is the MIRROR of a pair, and what it shadows is an ordinary mode (R38, R109, R597, R601, R604). -/
def State.roleFits (s : State) : Bool :=
  (s.pair.role == .mirror) == (s.mode == .shadow) && s.shadowed != .shadow && s.pair.joinMode != .shadow

/-- Whether a run goes on: the outcome of a step is a next state. -/
def Safe (o : Host.Outcome State Fault Refusal) : Prop := ∃ t, o = .next t

/-- One byte of a partition; what no partition holds reads 0. -/
def poolByte (s : State) (slot o : Nat) : Byte :=
  match partAt s slot with
  | some p => readCell p.data o
  | none => 0

/-! ### A row at work -/

/-- No command waits to be started, and no forwarded command awaits a status: what a row does then is its own effect. -/
def State.quiet (s : State) : Bool := s.cmds.all (fun c => c.phase != .waiting) && s.pair.forwarded.isEmpty

/-- The command that a row's packet is, as the device numbers it at index `k`. -/
def rowCmd (k : Nat) (p : Packet) (s : State) : Cmd := commandOf p s.nextId (passTo k s).index

/-- The state in which the device serves it: the samples have run on to `k`, and the command has its number. -/
def rowState (k : Nat) (p : Packet) (s : State) : State :=
  { passTo k s with nextId := s.nextId + 1, cmds := s.cmds ++ [rowCmd k p s] }

/-- The device serves the packet of a row at once: it has the row's opcode, no other command waits or holds it back, its source is heard, the firmware
runs, and no mirror follows the device. -/
def heard (sp : CmdSpec) (k : Nat) (p : Packet) (s : State) : Bool :=
  s.quiet && !hasMirror s && opcodeOf p == sp.opcode && takesFrom p.src (passTo k s) && !s.hub.fw.recovery && startable (rowState k p s) (rowCmd k p s)

/-- Heard, and it passes the checks of R50. -/
def accepted (sp : CmdSpec) (k : Nat) (p : Packet) (s : State) : Bool := heard sp k p s && checkCmd sp (rowCmd k p s) (rowState k p s) == none

/-- The rows of opcode group 0x00, with what each opcode adds. -/
def rows00 : List ((Nat → Packet → Instr) × CmdSpec) :=
  [(.sysNop, specSysNop), (.sysMode, specSysMode), (.sysNoticeRoute, specSysNoticeRoute), (.sysCancel, specSysCancel),
   (.sysGetIndex, specSysGetIndex), (.sysCtlport, specSysCtlport), (.sysGetMode, specSysGetMode), (.sysCompat, specSysCompat)]

/-- The rows of opcode group 0x01, with what each opcode adds. -/
def rows01 : List ((Nat → Packet → Instr) × CmdSpec) :=
  [(.memAlloc, specMemAlloc), (.memFree, specMemFree), (.memQuery, specMemQuery), (.memScrub, specMemScrub), (.memRead, specMemRead),
   (.memWrite, specMemWrite)]

/-- The rows of opcode group 0x02, with what each opcode adds. -/
def rows02 : List ((Nat → Packet → Instr) × CmdSpec) :=
  [(.timeSpllConfig, specTimeSpllConfig), (.timeStatus, specTimeStatus), (.timeSetEpoch, specTimeSetEpoch), (.timeSync, specTimeSync),
   (.timeRefPolicy, specTimeRefPolicy), (.timeRefResume, specTimeRefResume), (.timePpsConfig, specTimePpsConfig), (.timeOffset, specTimeOffset),
   (.timeGetOffset, specTimeGetOffset), (.timePpsRead, specTimePpsRead), (.timePtpAdjust, specTimePtpAdjust)]

/-- The rows of opcode group 0x03, with what each opcode adds. -/
def rows03 : List ((Nat → Packet → Instr) × CmdSpec) :=
  [(.convConfig, specConvConfig), (.convAtten, specConvAtten), (.convInput, specConvInput), (.convRotation, specConvRotation),
   (.convStatus, specConvStatus), (.convAttenInfo, specConvAttenInfo)]

/-- The rows of opcode group 0x04, with what each opcode adds. -/
def rows04 : List ((Nat → Packet → Instr) × CmdSpec) :=
  [(.eqLoad, specEqLoad), (.eqSwap, specEqSwap), (.eqStatus, specEqStatus), (.tunerConfig, specTunerConfig), (.tunerRetune, specTunerRetune),
   (.tunerEnable, specTunerEnable), (.tunerStatus, specTunerStatus)]

/-- The rows of opcode group 0x05, with what each opcode adds. -/
def rows05 : List ((Nat → Packet → Instr) × CmdSpec) :=
  [(.specConfig, specSpecConfig), (.specEnable, specSpecEnable), (.specOutput, specSpecOutput), (.specWindowLoad, specSpecWindowLoad),
   (.specStatus, specSpecStatus)]

/-- The rows of opcode group 0x06, with what each opcode adds. -/
def rows06 : List ((Nat → Packet → Instr) × CmdSpec) :=
  [(.densConfig, specDensConfig), (.densEnable, specDensEnable), (.densClear, specDensClear), (.densStatus, specDensStatus),
   (.spgmConfig, specSpgmConfig), (.spgmEnable, specSpgmEnable), (.spgmStatus, specSpgmStatus)]

/-- The rows of opcode group 0x07, with what each opcode adds. -/
def rows07 : List ((Nat → Packet → Instr) × CmdSpec) :=
  [(.trigSlotConfig, specTrigSlotConfig), (.trigArm, specTrigArm), (.trigMaskConfig, specTrigMaskConfig), (.trigMaskLoad, specTrigMaskLoad),
   (.trigForce, specTrigForce), (.trigStatus, specTrigStatus)]

/-- The rows of opcode group 0x08, with what each opcode adds. -/
def rows08 : List ((Nat → Packet → Instr) × CmdSpec) :=
  [(.capSource, specCapSource), (.capSheafConfig, specCapSheafConfig), (.capArm, specCapArm), (.capStatus, specCapStatus)]

/-- The rows of opcode group 0x09, with what each opcode adds. -/
def rows09 : List ((Nat → Packet → Instr) × CmdSpec) :=
  [(.intConfig, specIntConfig), (.intEnable, specIntEnable), (.intStatus, specIntStatus), (.intHeader, specIntHeader),
   (.thConfig, specThConfig), (.thEnable, specThEnable), (.thStatus, specThStatus)]

/-- The rows of opcode group 0x0A, with what each opcode adds. -/
def rows0A : List ((Nat → Packet → Instr) × CmdSpec) :=
  [(.strmPortConfig, specStrmPortConfig), (.strmDest, specStrmDest), (.strmConfig, specStrmConfig), (.strmEnable, specStrmEnable),
   (.strmMark, specStrmMark), (.strmRewind, specStrmRewind), (.strmStatus, specStrmStatus), (.strmPortStatus, specStrmPortStatus),
   (.strmPtpSend, specStrmPtpSend)]

/-- The rows of opcode group 0x0B, with what each opcode adds. -/
def rows0B : List ((Nat → Packet → Instr) × CmdSpec) :=
  [(.pkConfig, specPkConfig), (.pkEncode, specPkEncode), (.pkStatus, specPkStatus)]

/-- The rows of opcode group 0x0C, with what each opcode adds. -/
def rows0C : List ((Nat → Packet → Instr) × CmdSpec) :=
  [(.mqConfig, specMqConfig), (.mqRead, specMqRead), (.mqPut, specMqPut), (.mqFlush, specMqFlush), (.mqStatus, specMqStatus)]

/-- The rows of opcode group 0x0D, with what each opcode adds. -/
def rows0D : List ((Nat → Packet → Instr) × CmdSpec) :=
  [(.tdcInput, specTdcInput), (.tdcSlotConfig, specTdcSlotConfig), (.tdcArm, specTdcArm), (.tdcRead, specTdcRead), (.tdcStatus, specTdcStatus)]

/-- The rows of opcode group 0x0E, with what each opcode adds. -/
def rows0E : List ((Nat → Packet → Instr) × CmdSpec) :=
  [(.mcInput, specMcInput), (.mcSequence, specMcSequence), (.mcConvert, specMcConvert), (.mcRead, specMcRead), (.mcStatus, specMcStatus)]

/-- The rows of opcode group 0x0F, with what each opcode adds. -/
def rows0F : List ((Nat → Packet → Instr) × CmdSpec) :=
  [(.calibMeasure, specCalibMeasure), (.calibSliceRead, specCalibSliceRead), (.calibTdcRead, specCalibTdcRead), (.maintStart, specMaintStart),
   (.maintCancel, specMaintCancel), (.maintStatus, specMaintStatus)]

/-- The rows of opcode group 0x10, with what each opcode adds. -/
def rows10 : List ((Nat → Packet → Instr) × CmdSpec) :=
  [(.dispTiming, specDispTiming), (.dispEnable, specDispEnable), (.dispLayer, specDispLayer), (.dispPalette, specDispPalette),
   (.dispCommit, specDispCommit), (.dispPanelCmd, specDispPanelCmd), (.dispStatus, specDispStatus)]

/-- The rows of opcode group 0x11, with what each opcode adds. -/
def rows11 : List ((Nat → Packet → Instr) × CmdSpec) :=
  [(.pairConfig, specPairConfig), (.pairJoin, specPairJoin), (.pairLeave, specPairLeave), (.pairSwitch, specPairSwitch),
   (.pairTakeover, specPairTakeover), (.pairStatus, specPairStatus)]

/-- The rows of opcode group 0x12, with what each opcode adds. -/
def rows12 : List ((Nat → Packet → Instr) × CmdSpec) :=
  [(.diagReset, specDiagReset), (.diagFault, specDiagFault), (.diagEcc, specDiagEcc), (.bbRead, specBbRead), (.bbFreeze, specBbFreeze),
   (.bbClear, specBbClear), (.diagWatchdog, specDiagWatchdog)]

/-- The rows of opcode group 0x13, with what each opcode adds. -/
def rows13 : List ((Nat → Packet → Instr) × CmdSpec) :=
  [(.fwStatus, specFwStatus), (.fwLoad, specFwLoad), (.fwVerify, specFwVerify), (.fwActivate, specFwActivate)]

/-- Every row that is a command with an opcode (R708), with what its opcode adds. -/
def commandRows : List ((Nat → Packet → Instr) × CmdSpec) :=
  rows00 ++ rows01 ++ rows02 ++ rows03 ++ rows04 ++ rows05 ++ rows06 ++ rows07 ++ rows08 ++ rows09
    ++ rows0A ++ rows0B ++ rows0C ++ rows0D ++ rows0E ++ rows0F ++ rows10 ++ rows11 ++ rows12 ++ rows13

/-- No condition beyond acceptance. -/
def anyCase (_ : Cmd) (_ : State) : Prop := True

/-- The command leaves every unit as it is: it only answers. -/
def leavesAll (_ : Cmd) (s : State) : State := s

/-- The reply has no words. -/
def noWords (_ : Cmd) (_ : State) : List Word := []

/-- An accepted packet without TIMED whose command completes with OK in the same row, on a condition `pre`: `effect` gives the state it leaves and `words`
its reply, from the command and the state in which it is served. -/
def Does (row : Nat → Packet → Instr) (sp : CmdSpec) (pre : Cmd → State → Prop) (effect : Cmd → State → State) (words : Cmd → State → List Word) :
    Prop :=
  ∀ k p s, accepted sp k p s = true → (rowCmd k p s).timed = false → pre (rowCmd k p s) (rowState k p s) →
    exec (row k p) s =
      .next (repliesFirst (fun a => complete (rowCmd k p s) .ok (words (rowCmd k p s) a) a.index (effect (rowCmd k p s) a)) (rowState k p s))

/-- The same, completing with a status other than OK. -/
def Answers (row : Nat → Packet → Instr) (sp : CmdSpec) (st : Status) (pre : Cmd → State → Prop) (effect : Cmd → State → State)
    (words : Cmd → State → List Word) : Prop :=
  ∀ k p s, accepted sp k p s = true → (rowCmd k p s).timed = false → pre (rowCmd k p s) (rowState k p s) →
    exec (row k p) s =
      .next (repliesFirst (fun a => complete (rowCmd k p s) st (words (rowCmd k p s) a) a.index (effect (rowCmd k p s) a)) (rowState k p s))

/-- The same with a first reply QUEUED: the command stays outstanding until the unit that it waits for is free. -/
def Queues (row : Nat → Packet → Instr) (sp : CmdSpec) (pre : Cmd → State → Prop) (effect : Cmd → State → State) : Prop :=
  ∀ k p s, accepted sp k p s = true → (rowCmd k p s).timed = false → pre (rowCmd k p s) (rowState k p s) →
    exec (row k p) s =
      .next (repliesFirst (fun a => firstReply (rowCmd k p s) .queued a.index (effect (rowCmd k p s) a)) (rowState k p s))

/-- The same with a first reply DEFERRED: the command stays outstanding, and its second reply follows. -/
def Defers (row : Nat → Packet → Instr) (sp : CmdSpec) (pre : Cmd → State → Prop) (effect : Cmd → State → State) : Prop :=
  ∀ k p s, accepted sp k p s = true → (rowCmd k p s).timed = false → pre (rowCmd k p s) (rowState k p s) →
    exec (row k p) s =
      .next (repliesFirst (fun a => firstReply (rowCmd k p s) .deferred a.index (effect (rowCmd k p s) a)) (rowState k p s))

/-- The same with no reply yet: the command stays outstanding until what it asked for has happened. -/
def Begins (row : Nat → Packet → Instr) (sp : CmdSpec) (pre : Cmd → State → Prop) (effect : Cmd → State → State) : Prop :=
  ∀ k p s, accepted sp k p s = true → (rowCmd k p s).timed = false → pre (rowCmd k p s) (rowState k p s) →
    exec (row k p) s = .next (repliesFirst (fun a => keepRunning (rowCmd k p s) (effect (rowCmd k p s) a)) (rowState k p s))

/-- The state that holds a command for its effective index `e`, and is otherwise as the command found it (R31, R51). -/
def heldState (c : Cmd) (e : Option Nat) (s : State) : State :=
  { s with cmds := s.cmds.filter (fun d => d.id != c.id) ++ [{ c with phase := .held e }] }

/-- An accepted packet whose effect belongs to an effective index: the command is held for AT with TIMED, else for the first SC boundary at least
`lead` nanoseconds after its arrival, or for the index of the next lock when the device is unlocked (R31, R51, R715). -/
def Holds (row : Nat → Packet → Instr) (sp : CmdSpec) (lead : Nat) : Prop :=
  ∀ k p s, accepted sp k p s = true →
    exec (row k p) s =
      .next (heldState (rowCmd k p s)
        (if (rowCmd k p s).timed then some (atOf p) else if locked s then some (boundaryAfter (rowState k p s) lead) else none)
        (rowState k p s))

/-- A held command is the next to take effect, at index `e` (R51, R54, R56): it is the first of the held ones, samples are delivered, and it may run in
the mode in force. Nothing waits, and no mirror follows the device. -/
def due (sp : CmdSpec) (c : Cmd) (e : Nat) (s : State) : Bool :=
  s.quiet && !hasMirror s && firstHeld (fireable s) == some c && c.phase == .held (some e) && c.opcode == sp.opcode && delivering s
    && modeOk sp c (runMode (passTo e s))

/-- The row that fires a held command: TIMED_EXECUTE with TIMED, SCHEDULED_EFFECT without, and MODE_CHANGE_EFFECT for a SYS_MODE. -/
def firesIt (c : Cmd) (i : Instr) : Prop :=
  (i = .timedExecute ∧ c.timed = true) ∨ (i = .scheduledEffect ∧ c.timed = false ∧ c.opcode ≠ 0x0001) ∨ (i = .modeChangeEffect ∧ c.opcode = 0x0001)

/-- No condition beyond being due. -/
def anyTime (_ : Cmd) (_ : Nat) (_ : State) : Prop := True

/-- The reply has no words. -/
def noWordsAt (_ : Cmd) (_ : Nat) (_ : State) : List Word := []

/-- A held command that is due completes with OK at its effective index, on a condition `pre`: `effect` gives the state and `words` the reply, from
the command, the index, and the state at that index. -/
def Fires (sp : CmdSpec) (pre : Cmd → Nat → State → Prop) (effect : Cmd → Nat → State → State) (words : Cmd → Nat → State → List Word) : Prop :=
  ∀ c e i s, due sp c e s = true → firesIt c i → pre c e (passTo e s) →
    exec i s = .next (repliesFirst (fun a => complete c .ok (words c e a) e (effect c e a)) (passTo e s))

/-- A held command that is due starts what it asks for at its effective index, and stays outstanding until that has happened. -/
def FiresLater (sp : CmdSpec) (pre : Cmd → Nat → State → Prop) (effect : Cmd → Nat → State → State) : Prop :=
  ∀ c e i s, due sp c e s = true → firesIt c i → pre c e (passTo e s) → exec i s = .next (repliesFirst (fun a => keepRunning c (effect c e a)) (passTo e s))

/-- A held command that is due is queued at its effective index: its unit is not free. -/
def FiresQueued (sp : CmdSpec) (pre : Cmd → Nat → State → Prop) (effect : Cmd → Nat → State → State) : Prop :=
  ∀ c e i s, due sp c e s = true → firesIt c i → c.src ≠ .pairLink → pre c e (passTo e s) →
    exec i s = .next (repliesFirst (fun a => firstReply c .queued a.index (effect c e a)) (passTo e s))

/-- A held command of a local source that is due completes with a status other than OK, and has no other effect. -/
def FiresRefused (sp : CmdSpec) (st : Status) (pre : Cmd → Nat → State → Prop) (words : List Word) : Prop :=
  ∀ c e i s, due sp c e s = true → firesIt c i → c.src ≠ .pairLink → pre c e (passTo e s) → exec i s = .next (repliesFirst (complete c st words e) (passTo e s))

/-! ### An event at work -/

/-- An event of the device, on a condition `pre` and while no command waits and no mirror follows: the samples run on to its index, and `effect` is all
that happens. -/
def Event (ev : Nat → Instr) (pre : Nat → State → Prop) (effect : Nat → State → State) : Prop :=
  ∀ k s, s.quiet = true → hasMirror s = false → pre k (passTo k s) → exec (ev k) s = .next (repliesFirst (effect k) (passTo k s))

/-- The same, told by what stands in the next state. -/
def EventTo (ev : Nat → Instr) (pre : Nat → State → Prop) (post : Nat → State → State → Prop) : Prop :=
  ∀ k s, s.quiet = true → hasMirror s = false → pre k (passTo k s) → ∃ t, exec (ev k) s = .next t ∧ post k (passTo k s) t

/-- A row of the event kind, from every state and whatever its operands: `effect` happens at the row's index, the device then starts what it can, and
the queue keeps its rest. -/
def Runs (row : Nat → Instr) (effect : Nat → State → State) : Prop :=
  ∀ k s, exec (row k) s = .next (finish s (repliesFirst (effect k) (passTo k s))) ∧ (finish s (repliesFirst (effect k) (passTo k s))).pending = s.pending

/-- No condition. -/
def always (_ : Nat) (_ : State) : Prop := True

end Sys2Proof.Machine
end

