-- ==== Sys2Proof/Certificates/Slice0/Obligations.lean ====
section
/-! DEFINITION. The statements for the provers. Every statement about a row takes the row at the instant it carries (log entry 5), a row of a command
opcode with its packet as fetched (log entry 6), and internal commands as log entry 12 says. -/

open Sys2Proof Sys2Proof.Machine

/-! ### The queue -/

/-- A step takes the command at the front of the queue and runs it with the rest of the queue; with an empty queue the device idles (the model's
choice, log entry 3). -/
def Obligations.StepRunsFront : Prop :=
  (∀ (c : Instr) (rest : List Instr) (s : State), s.pending = c :: rest → step s = exec c { s with pending := rest })
  ∧ (∀ s : State, s.pending = [] → step s = .next s)

/-! ### What every row does -/

/-- The rows of the events up to the integration (R66-R390), from every state and whatever their operands: each answers the state in which its own
effect has happened at its index, and in which the device has then started what it can; the queue keeps its rest. The statements of their families
say what these effects are. It rests on the model's choice of log entry 5. -/
def Obligations.EarlyRowsRun : Prop :=
  (∀ q value, Runs (fun k => .sqTailDoorbell k q value) (fun _ => evSqTailDoorbell q.val value))
  ∧ (∀ q value, Runs (fun k => .rqHeadWrite k q value) (fun _ => evRqHeadWrite q.val value))
  ∧ (∀ q ctrl, Runs (fun k => .qpEnable k q ctrl) (fun _ => evQpEnable q.val ctrl))
  ∧ (∀ q ctrl, Runs (fun k => .qpDisable k q ctrl) (fun _ => evQpDisable q.val ctrl))
  ∧ (∀ value, Runs (fun k => .gintStatusClear k value) (fun _ => evGintStatusClear value))
  ∧ (∀ size offset, Runs (fun k => .indexLoRead k size offset) (fun _ => evIndexLoRead size offset))
  ∧ (∀ bar size offset value, Runs (fun k => .registerWrite k bar size offset value) (fun _ => evRegisterWrite bar size offset value))
  ∧ (∀ q got, Runs (fun k => .commandFetch k q got) (fun _ => evCommandFetch q got))
  ∧ (∀ q, Runs (fun k => .coalTimeExpiry k q) (fun _ => evCoalTimeExpiry q.val))
  ∧ (∀ dest, Runs (fun k => .noticeDelivery k dest) (fun _ => evNoticeDelivery dest.val))
  ∧ (∀ bytes, Runs (fun k => .spiSubmit k bytes) (fun _ => spiTransaction 0x01 bytes false))
  ∧ (∀ cut, Runs (fun k => .spiReadReply k cut) (fun _ => spiTransaction 0x02 [] cut))
  ∧ Runs (fun k => .spiReadStatus k) (fun _ => spiTransaction 0x03 [] false)
  ∧ (∀ sender udp bytes, Runs (fun k => .ctlportDatagram k sender udp bytes) (fun _ => evCtlportDatagram sender udp bytes))
  ∧ (∀ slot, Runs (fun k => .memFreeRelease k slot) (fun _ => evMemFreeRelease slot))
  ∧ (∀ cmd ok hostData errors, Runs (fun k => .memTransferEnd k cmd ok hostData errors) (fun _ => evMemTransferEnd cmd ok hostData errors))
  ∧ (∀ slot corrected newUncorrectable, Runs (fun k => .scrub k slot corrected newUncorrectable) (fun _ => evScrub slot corrected newUncorrectable))
  ∧ (∀ jrem, Runs (fun k => .unlockDetected k jrem) (fun k => evUnlockDetected k jrem))
  ∧ Runs (fun k => .lockAttemptFail k) (fun _ => evLockAttemptFail)
  ∧ (∀ dac, Runs (fun k => .refMissingEdge k dac) (fun _ => evRefMissingEdge dac))
  ∧ (∀ dac deviationPpb, Runs (fun k => .refFreqCheck k dac deviationPpb) (fun _ => evRefFreqCheck dac deviationPpb))
  ∧ (∀ deviationPpb, Runs (fun k => .refQualExpiry k deviationPpb) (fun _ => evRefQualExpiry deviationPpb))
  ∧ (∀ measured, Runs (fun k => .jumpKnown k measured) (fun _ => evJumpKnown measured))
  ∧ Runs (fun k => .ppsDisambigTimeout k) (fun _ => evPpsDisambigTimeout)
  ∧ Runs (fun k => .slewEnd k) (fun _ => evSlewEnd)
  ∧ (∀ pps, Runs (fun k => .syncEdgeCapture k pps) (fun _ => evSyncEdgeCapture pps))
  ∧ (∀ cmd, Runs (fun k => .timeSyncTimeout k cmd) (fun _ => evTimeSyncTimeout cmd))
  ∧ (∀ cycle tap, Runs (fun k => .ppsInEdge k cycle tap) (fun _ => evPpsInEdge cycle tap))
  ∧ Runs (fun k => .ppsMissingTimeout k) (fun _ => evPpsMissingTimeout)
  ∧ (∀ second, Runs (fun k => .ppsOutPulse k second) (fun _ => evPpsOutPulse second))
  ∧ (∀ results, Runs (fun k => .sliceSwap k results) (fun k => evSliceSwap k results))
  ∧ (∀ sums, Runs (fun k => .sliceMonitorWindow k sums) (fun _ => evSliceMonitorWindow sums))
  ∧ (∀ channel, Runs (fun k => .eqHeldStart k channel) (fun _ => evEqHeldStart channel))
  ∧ (∀ engine volts linesLost thresherDrops errors, Runs (fun k => .spectrumDone k engine volts linesLost thresherDrops errors)
        (fun _ => evSpectrumDone engine volts linesLost thresherDrops errors))
  ∧ (∀ unit exportLost layerBusy, Runs (fun k => .densityFrameClose k unit exportLost layerBusy)
        (fun k => evDensityFrameClose k unit exportLost layerBusy))
  ∧ Runs (fun k => .decayStep k) (fun k => evDecayStep k)
  ∧ (∀ volts, Runs (fun k => .trigDecide k volts) (fun k => evTrigDecide k volts))
  ∧ (∀ sheaf dropped volts errors, Runs (fun k => .segmentClose k sheaf dropped volts errors) (fun k => evSegmentClose k sheaf dropped volts errors))
  ∧ (∀ number drop errors, Runs (fun k => .intSetAccumulate k number drop errors) (fun _ => evIntSetAccumulate number drop errors))
  ∧ Runs (fun k => .intFrameClose k) (fun k => evIntFrameClose k)
  ∧ (∀ edge band s, exec (.lockConfirmed edge band) s = .next (finish s (evLockConfirmed edge band s)) ∧ (finish s (evLockConfirmed edge band
      s)).pending = s.pending)
  ∧ (∀ measured s, exec (.stepBoundary measured) s = .next (finish s (evStepBoundary measured s)) ∧ (finish s (evStepBoundary measured
      s)).pending = s.pending)
  ∧ (∀ edge band s, exec (.timebaseRephase edge band) s = .next (finish s (evTimebaseRephase edge band s)) ∧ (finish s (evTimebaseRephase edge
      band s)).pending = s.pending)
  ∧ (∀ channel first values s, ∃ t, exec (.overRange channel first values) s = .next t ∧ t.pending = s.pending)
  ∧ (∀ s, ∃ t, exec .timedExecute s = .next t ∧ t.pending = s.pending)
  ∧ (∀ s, ∃ t, exec .scheduledEffect s = .next t ∧ t.pending = s.pending)
  ∧ (∀ s, ∃ t, exec .modeChangeEffect s = .next t ∧ t.pending = s.pending)

/-- The same of the other rows of events: streams, message queue, TDC, monitor converter, maintenance, display, pair, hub and debug port (R391-R697).
It rests on the model's choice of log entry 5. -/
def Obligations.LateRowsRun : Prop :=
  (∀ ctx volts choice errors, Runs (fun k => .strmPacketGenerate k ctx volts choice errors) (fun _ => evStrmPacketGenerate ctx volts choice errors))
  ∧ (∀ ctx rewind errors, Runs (fun k => .strmPacketSend k ctx rewind errors) (fun _ => evStrmPacketSend ctx rewind errors))
  ∧ (∀ entry cons, Runs (fun k => .hostRingConsPoll k entry cons) (fun _ => evHostRingConsPoll entry cons))
  ∧ (∀ ctx, Runs (fun k => .rewindDone k ctx) (fun _ => evRewindDone ctx))
  ∧ (∀ port mac ip target, Runs (fun k => .arpRequest k port mac ip target) (fun _ => evArpRequest port mac ip target))
  ∧ (∀ port mac ip target, Runs (fun k => .neighbourSolicitation k port mac ip target) (fun _ => evNeighbourSolicitation port mac ip target))
  ∧ (∀ port stamp frame, Runs (fun k => .ptpFrameRx k port stamp frame) (fun _ => evPtpFrameRx port stamp frame))
  ∧ (∀ port, Runs (fun k => .pauseFrame k port) (fun _ => evPauseFrame port))
  ∧ (∀ port, Runs (fun k => .otherFrame k port) (fun _ => evOtherFrame port))
  ∧ (∀ port up, Runs (fun k => .ethLinkChange k port up) (fun _ => evEthLinkChange port up))
  ∧ (∀ port, Runs (fun k => .egressDownTimeout k port) (fun _ => evEgressDownTimeout port))
  ∧ (∀ packer choices errors, Runs (fun k => .pkJobEnd k packer choices errors) (fun _ => evPkJobEnd packer choices errors))
  ∧ (∀ producer, Runs (fun k => .mqItemAccept k producer) (fun _ => evMqItemAccept producer))
  ∧ Runs (fun k => .mqLingerExpiry k) (fun _ => evMqLingerExpiry)
  ∧ (∀ errors, Runs (fun k => .mqReadComplete k errors) (fun _ => evMqReadComplete errors))
  ∧ (∀ errors, Runs (fun k => .mqReadTimeout k errors) (fun _ => evMqReadTimeout errors))
  ∧ (∀ input cycle tap, Runs (fun k => .tdcEdge k input cycle tap) (fun _ => evTdcEdge input cycle tap))
  ∧ (∀ slot, Runs (fun k => .tdcMeasureTimeout k slot) (fun k => evTdcMeasureTimeout k slot))
  ∧ (∀ slot, Runs (fun k => .tdcWindowClose k slot) (fun k => evTdcWindowClose k slot))
  ∧ (∀ slot, Runs (fun k => .probeLaunch k slot) (fun k => evProbeLaunch k slot))
  ∧ (∀ input, Runs (fun k => .tdcStuckTimeout k input) (fun _ => evTdcStuckTimeout input))
  ∧ (∀ hits, Runs (fun k => .tdcDwellEnd k hits) (fun _ => evTdcDwellEnd hits))
  ∧ (∀ hits, Runs (fun k => .tdcTablesReady k hits) (fun _ => evTdcTablesReady hits))
  ∧ (∀ volts value overload, Runs (fun k => .mcConversionEnd k volts value overload) (fun _ => evMcConversionEnd volts value overload))
  ∧ Runs (fun k => .mcSystemPass k) (fun _ => evMcSystemPass)
  ∧ Runs (fun k => .activityStart k) (fun _ => evActivityStart)
  ∧ Runs (fun k => .tdcCalPriority k) (fun _ => evTdcCalPriority)
  ∧ (∀ volts, Runs (fun k => .calMeasureEnd k volts) (fun _ => evCalMeasureEnd volts))
  ∧ (∀ found, Runs (fun k => .scrubPassEnd k found) (fun _ => evScrubPassEnd found))
  ∧ (∀ complete errors, Runs (fun k => .dispFrameStart k complete errors) (fun k => evDispFrameStart k complete errors))
  ∧ Runs (fun k => .dispLatchLine k) (fun _ => evDispLatchLine)
  ∧ (∀ readback errors, Runs (fun k => .scanoutEnd k readback errors) (fun k => evScanoutEnd k readback errors))
  ∧ (∀ ns, Runs (fun k => .teEdge k ns) (fun k => evTeEdge k ns))
  ∧ Runs (fun k => .teLostTimeout k) (fun k => evTeLostTimeout k)
  ∧ (∀ errorReport response, Runs (fun k => .panelCmdSend k errorReport response) (fun _ => evPanelCmdSend errorReport response))
  ∧ Runs (fun k => .panelRespTimeout k) (fun _ => evPanelRespTimeout)
  ∧ Runs (fun k => .heartbeatSend k) (fun _ => evHeartbeatSend)
  ∧ (∀ hb, Runs (fun k => .heartbeatReceive k hb) (fun _ => evHeartbeatReceive hb))
  ∧ Runs (fun k => .heartbeatTimeout k) (fun _ => evHeartbeatTimeout)
  ∧ Runs (fun k => .liveStall k) (fun _ => evLiveStall)
  ∧ (∀ latency variant compat later, Runs (fun k => .pairLinkTrained k latency variant compat later)
        (fun _ => evPairLinkTrained latency variant compat later))
  ∧ Runs (fun k => .pairLinkDown k) (fun _ => evPairLinkDown)
  ∧ Runs (fun k => .pairLaneFail k) (fun _ => evPairLaneFail)
  ∧ (∀ f, Runs (fun k => .forwardedCommand k f) (fun _ => evForwardedCommand f))
  ∧ (∀ mseq status, Runs (fun k => .mirrorStatusReturn k mseq status) (fun _ => evMirrorStatusReturn mseq status))
  ∧ (∀ m, Runs (fun k => .mirrorStateReceive k m) (fun _ => evMirrorStateReceive m))
  ∧ Runs (fun k => .yieldReceive k) (fun _ => evYieldReceive)
  ∧ Runs (fun k => .takeoverRequestReceive k) (fun _ => evTakeoverRequestReceive)
  ∧ (∀ snap, Runs (fun k => .snapshotReceive k snap) (fun _ => evSnapshotReceive isForwarded snap))
  ∧ (∀ entry bytes, Runs (fun k => .pairRelayPacket k entry bytes) (fun _ => evPairRelayPacket entry bytes))
  ∧ Runs (fun k => .pwrGoodLow k) (fun _ => evPwrGoodLow)
  ∧ Runs (fun k => .resetNLow k) (fun _ => evResetNLow)
  ∧ Runs (fun k => .pcieReset k) (fun _ => evPcieReset)
  ∧ Runs (fun k => .bootStartTimeout k) (fun _ => evBootStartTimeout)
  ∧ (∀ pair pc ue begun, Runs (fun k => .lockstepMismatch k pair pc ue begun) (fun _ => evLockstepMismatch pair pc ue begun))
  ∧ (∀ pair pass, Runs (fun k => .coreSelftestEnd k pair pass) (fun _ => evCoreSelftestEnd pair pass))
  ∧ (∀ missed, Runs (fun k => .watchdogExpiry k missed) (fun _ => evWatchdogExpiry missed))
  ∧ (∀ input value, Runs (fun k => .thermalTripEvent k input value) (fun _ => evThermalTrip input value))
  ∧ (∀ tile, Runs (fun k => .tileLinkSeqFail k tile) (fun _ => evTileLinkSeqFail tile))
  ∧ (∀ tile, Runs (fun k => .tileLinkRetrain k tile) (fun _ => evTileLinkRetrain tile))
  ∧ (∀ tile ok, Runs (fun k => .tileRetrainEnd k tile ok) (fun _ => evTileRetrainEnd tile ok))
  ∧ (∀ pauseUs, Runs (fun k => .fwImageReady k pauseUs) (fun _ => evFwImageReady pauseUs))
  ∧ Runs (fun k => .flashEraseEnd k) (fun _ => evFlashEraseEnd)
  ∧ Runs (fun k => .tapReset k) (fun _ => evTapReset)
  ∧ (∀ code levels shifted, Runs (fun k => .tapInstructionLoad k code levels shifted) (fun _ => evTapInstructionLoad code levels shifted))
  ∧ Runs (fun k => .gauntletSelect k) (fun _ => evGauntletSelect)
  ∧ (∀ response, Runs (fun k => .gauntletResponse k response) (fun _ => evGauntletResponse response))
  ∧ (∀ space addr errors, Runs (fun k => .dbgRead k space addr errors) (fun _ => evDbgRead space addr errors))
  ∧ (∀ space addr value begun, Runs (fun k => .dbgWrite k space addr value begun) (fun _ => evDbgWrite space addr value begun))
  ∧ Runs (fun k => .dbgCtrlLock k) (fun _ => evDbgCtrlLock)
  ∧ (∀ pair begun, Runs (fun k => .dctrlHalt k pair begun) (fun _ => evDctrl pair 1 begun))
  ∧ (∀ pair, Runs (fun k => .dctrlResume k pair) (fun _ => evDctrl pair 2 []))
  ∧ (∀ pair, Runs (fun k => .dctrlStep k pair) (fun _ => evDctrl pair 4 []))
  ∧ (∀ pair number begun, Runs (fun k => .breakpointHit k pair number begun) (fun _ => evBreakpointHit pair number begun))
  ∧ (∀ pair number begun, Runs (fun k => .watchpointHit k pair number begun) (fun _ => evWatchpointHit pair number begun))
  ∧ Runs (fun k => .refEdgesReturn k) (fun _ => evRefEdgesReturn)
  ∧ Runs (fun k => .resetNRelease k) (fun _ => evResetNRelease)
  ∧ (∀ msixEnable dead, Runs (fun k => .pcieLinkUp k msixEnable dead) (fun _ => evPcieLinkUp msixEnable dead))
  ∧ Runs (fun k => .partnerStrobeEdge k) (fun _ => evPartnerStrobeEdge)
  ∧ Runs (fun k => .partnerStrobeTimeout k) (fun _ => evPartnerStrobeTimeout)
  ∧ (∀ input, Runs (fun k => .levelInactive k input) (fun _ => evLevelInactive input))
  ∧ Runs (fun k => .thermalTripClear k) (fun _ => evThermalTripClear)
  ∧ (∀ entry, Runs (fun k => .hostRingIntTime k entry) (fun _ => evHostRingIntTime entry))
  ∧ (∀ j s, exec (.joinIndex j) s = .next (finish s (repliesFirst (evJoinIndex j) (passTo j s)))
      ∧ (finish s (repliesFirst (evJoinIndex j) (passTo j s))).pending = s.pending)
  ∧ (∀ w s, ∃ t, exec (.switchIndex w) s = .next t ∧ t.pending = s.pending)
  ∧ (∀ fit refOk band s, exec (.powerOn fit refOk band) s = .next (finish s (evPowerOn fit refOk band s)) ∧ (finish s (evPowerOn fit refOk band
      s)).pending = s.pending)

/-! ### System, memory and time commands -/

/-- The system commands that act at once (R87-R91, R111). It rests on the model's choices of log entries 6, 11, 26 and 112. -/
def Obligations.SystemCommands : Prop :=
  Does .sysNop specSysNop anyCase leavesAll noWords
  ∧ Does .sysNoticeRoute specSysNoticeRoute anyCase (fun c s => { s with routes := s.routes.set (c.arg 0 7 0) (c.arg 0 12 8) }) noWords
  ∧ Does .sysCancel specSysCancel (fun c s => (cancelTarget c s).isSome = true)
      (fun c s => { s with cmds := s.cmds.filter (fun d => some d.id != (cancelTarget c s).map Cmd.id) }) (fun _ _ => [1])
  ∧ Does .sysCancel specSysCancel (fun c s => cancelTarget c s = none) leavesAll (fun _ _ => [0])
  ∧ Does .sysGetIndex specSysGetIndex anyCase leavesAll (fun _ s => [0, BitVec.ofNat 32 s.index, BitVec.ofNat 32 (s.index / 2 ^ 32)])
  ∧ Does .sysCtlport specSysCtlport (fun c s => c.arg 0 3 0 ≠ 0 ∧ s.ctlport.portEn ≠ 0)
      (fun c s => { s with ctlport := { s.ctlport with
        portEn := c.arg 0 3 0, udpPort := c.arg 0 31 16, slots := s.ctlport.slots.set (c.arg 1 2 0) (allowSlotOf c) } }) noWords
  ∧ Does .sysGetMode specSysGetMode (fun _ s => s.mode ≠ .shadow ∧ s.cmds.all (fun d => !isPendingMode d) = true) leavesAll
      (fun _ s => [BitVec.ofNat 32 s.mode.code, BitVec.ofNat 32 (freeAu s), BitVec.ofNat 32 (reservedAu s), BitVec.ofNat 32 (pendingFreeAu s)])
  ∧ Does .sysCompat specSysCompat (fun c s => s.compat = 1 ∧ c.arg 0 15 0 = 1) leavesAll (fun _ _ => [1, 1])

/-- The commands of the Memory group (R97-R99, R112-R116): an allocation adds a zeroed partition, a free of a partition without references releases
it, one with references is DEFERRED, and transfers stay outstanding. It rests on the model's choices of log entries 29, 30, 32, 110 and 116. -/
def Obligations.MemoryCommands : Prop :=
  Does .memAlloc specMemAlloc anyCase
      (fun c s => { s with pool := { s.pool with
        parts := s.pool.parts ++ [newPart (chosenSlot s) (nextGeneration s (chosenSlot s)) (c.arg 0 8 0) (c.arg 0 15 12)],
        generations := s.pool.generations.filter (fun g => g.1 != chosenSlot s) ++ [(chosenSlot s, nextGeneration s (chosenSlot s))] } })
      (fun c s => [(newPart (chosenSlot s) (nextGeneration s (chosenSlot s)) (c.arg 0 8 0) (c.arg 0 15 12)).handle, BitVec.ofNat 32 (c.arg 0 8 0),
        BitVec.ofNat 32 (freeAu { s with pool := { s.pool with
          parts := s.pool.parts ++ [newPart (chosenSlot s) (nextGeneration s (chosenSlot s)) (c.arg 0 8 0) (c.arg 0 15 12)] } })])
  ∧ (∀ p : Partition, Does .memFree specMemFree (fun c s => partForUse s (c.word 0) = some p ∧ refsOf s p.handle = 0)
      (fun _ s => releasePart p s) (fun _ _ => [BitVec.ofNat 32 p.au]))
  ∧ (∀ p : Partition, Defers .memFree specMemFree (fun c s => partForUse s (c.word 0) = some p ∧ refsOf s p.handle ≠ 0)
      (fun c s => setPart p.slot (fun x => { x with freeCmd := some c.id }) s))
  ∧ (∀ p : Partition, Does .memQuery specMemQuery (fun c s => partByHandle s (c.word 0) = some p) leavesAll
      (fun _ s => [BitVec.ofNat 32 (p.au + p.role * 2 ^ 12 + oneIf p.freeCmd.isSome * 2 ^ 16 + min 255 (refsOf s p.handle) * 2 ^ 24),
        BitVec.ofNat 32 p.ce, BitVec.ofNat 32 p.ue, BitVec.ofNat 32 p.passes]))
  ∧ Does .memQuery specMemQuery (fun c s => partByHandle s (c.word 0) = none) leavesAll
      (fun _ s => [BitVec.ofNat 32 (freeAu s), BitVec.ofNat 32 s.pool.ceTotal, BitVec.ofNat 32 s.pool.ueTotal, BitVec.ofNat 32 s.pool.passes])
  ∧ Does .memScrub specMemScrub anyCase (fun c s => { s with pool := { s.pool with scrubPeriod := c.arg 0 11 0 } }) noWords
  ∧ Begins .memRead specMemRead anyCase (fun c s => { s with pool := { s.pool with transfers := s.pool.transfers ++
      [{ cmd := c.id, write := false, slot := c.arg 0 15 0, offset := (c.word 1).toNat, length := (c.word 2).toNat, host := c.arg64 3 }] } })
  ∧ Begins .memWrite specMemWrite anyCase (fun c s => { s with pool := { s.pool with transfers := s.pool.transfers ++
      [{ cmd := c.id, write := true, slot := c.arg 0 15 0, offset := (c.word 1).toNat, length := (c.word 2).toNat, host := c.arg64 3 }] } })

/-- The commands of the Time group (R153-R163). TIME_SPLL_CONFIG mutes the SPLL and stays outstanding until the timebase runs again. It rests on the
model's choices of log entries 19, 33, 37 and 118. -/
def Obligations.TimeCommands : Prop :=
  (∀ k p s, accepted specTimeSpllConfig k p s = true → s.pair.role = .solo → s.cmds = [] → ∃ t, exec (.timeSpllConfig k p) s = .next t
      ∧ t.time.tb = .relocking ∧ t.time.refFreq = ((rowCmd k p s).word 0).toNat
      ∧ t.time.refDiv = (rowCmd k p s).arg 1 7 0 ∧ t.time.fbDiv = (rowCmd k p s).arg 1 28 16
      ∧ t.time.indexStart = (rowCmd k p s).arg64 2 ∧ t.tdc.notReady = true)
  ∧ Does .timeStatus specTimeStatus anyCase (fun _ s => { s with free := s.free + 1 }) (fun _ s => timeStatusWords s (Config.freeWord s.free))
  ∧ Does .timeSetEpoch specTimeSetEpoch anyCase
      (fun c s => { s with time := { s.time with epochTai := (c.word 0).toNat + c.arg 1 15 0 * 2 ^ 32 } }) noWords
  ∧ Defers .timeSync specTimeSync anyCase (fun c s => { s with time := { s.time with
      syncs := s.time.syncs ++ [{ cmd := c.id, pps := c.flag 0 0, apply := c.flag 0 1, syncIndex := c.arg64 2 }] } })
  ∧ Does .timeRefPolicy specTimeRefPolicy anyCase (fun c s => { s with time := { s.time with
      policy := c.arg 0 1 0, ppsDisambig := c.flag 0 2, qualMs := c.arg 0 31 16, slewLimit := c.arg 1 9 0, slewMax := c.arg 1 31 12 } }) noWords
  ∧ Does .timeRefResume specTimeRefResume (fun _ s => s.time.tb = .locked) leavesAll
      (fun _ s => 0#32 :: (i64Words s.time.jump ++ i64Words 0))
  ∧ Defers .timeRefResume specTimeRefResume (fun _ s => s.time.tb = .holdover)
      (fun c s => { s with time := { s.time with resume := some { cmd := c.id, step := c.flag 0 0 } } })
  ∧ Begins .timeRefResume specTimeRefResume (fun c s => s.time.tb = .qualified ∧ s.time.jumpKnown = true ∧ c.flag 0 0 = true ∧ hasMirror s = false)
      (fun c s => { s with time := { s.time with
        step := some { boundary := boundaryAfter s 10000, cmd := some c.id, fromSlew := false, remeasure := false }, resume := none } })
  ∧ Does .timePpsConfig specTimePpsConfig anyCase (fun c s => { s with time := { s.time with
      ppsInEn := c.flag 0 0, ppsNotice := c.flag 0 1, ppsOutEn := c.flag 0 2, ppsOutWidth := c.arg 0 31 12 } }) noWords
  ∧ Holds .timeOffset specTimeOffset 1000
  ∧ Fires specTimeOffset anyTime (fun c e s => { s with time := { s.time with
      offsets := modAt s.time.offsets (c.arg 0 3 0) fun l => (e, signed 64 (c.arg64 1)) :: l.filter fun x => decide (x.1 < e) } }) noWordsAt
  ∧ Does .timeGetOffset specTimeGetOffset anyCase leavesAll (fun c s =>
      i64Words (planeOffset s (c.arg 0 3 0) s.index) ++ [BitVec.ofNat 32 (analogueDelay s (c.arg 0 3 0) s.index)]
        ++ dtsWords (unsign 96 (roundDiv (delayScaled s (c.arg 0 3 0) s.index) 1000000000000)))
  ∧ (∀ d : Nat, Does .timePpsRead specTimePpsRead (fun _ s => s.time.ppsLast = some d) leavesAll (fun _ s =>
      dtsWords d ++ [BitVec.ofInt 32 s.time.ppsPhase, BitVec.ofNat 32 s.time.ppsAccepted, BitVec.ofNat 32 (s.time.ppsMissing + s.time.ppsSpurious * 65536)]))
  ∧ Does .timePpsRead specTimePpsRead (fun _ s => s.time.ppsLast = none) leavesAll (fun _ _ => List.replicate 6 0)
  ∧ Does .timePtpAdjust specTimePtpAdjust (fun c _ => c.flag 0 0 = false)
      (fun c s => { s with time := { s.time with ptpAdjust := signed 64 (c.arg64 1) } }) (fun c _ => i64Words (signed 64 (c.arg64 1)))
  ∧ Does .timePtpAdjust specTimePtpAdjust (fun c _ => c.flag 0 0 = true)
      (fun c s => { s with time := { s.time with ptpAdjust := satI64 (s.time.ptpAdjust + signed 64 (c.arg64 1)) } })
      (fun c s => i64Words (satI64 (s.time.ptpAdjust + signed 64 (c.arg64 1))))

/-! ### Converter, equaliser and tuner commands -/

/-- The commands of the Converter group (R194-R199). What a change of the attenuator or of the injection switch does to a channel (R169, R174): the
setting, and 64 or 128 INV samples from the effective index on; a channel that has the setting is left alone. It rests on the model's choice of log
entry 98. -/
def Obligations.ConverterCommands : Prop :=
  Does .convConfig specConvConfig anyCase (fun c s => { s with conv := { s.conv with
      channels := modAt s.conv.channels (c.arg 0 1 0) fun ch => { ch with
        guards := (nextSc s.index, c.arg 0 14 8) :: ch.guards.filter (fun x => decide (x.1 < nextSc s.index)),
        notices := (nextSc s.index, c.flag 0 16) :: ch.notices.filter (fun x => decide (x.1 < nextSc s.index)) } } }) noWords
  ∧ Holds .convAtten specConvAtten 1000
  ∧ Holds .convInput specConvInput 1000
  ∧ Fires specConvAtten anyTime (fun c e s =>
      (maskBits 4 (c.arg 0 3 0)).foldl (fun a i => setChannel i (attenAt e (c.arg 1 (4 * i + 3) (4 * i))) a) s) noWordsAt
  ∧ Fires specConvInput anyTime (fun c e s => (maskBits 4 (c.arg 0 3 0)).foldl (fun a i => setChannel i (switchAt e (c.flag 0 8)) a) s) noWordsAt
  ∧ Does .convRotation specConvRotation anyCase (fun c s => { s with
      conv := { s.conv with dwellLog2 := c.arg 0 4 0, hold := c.flag 0 8 },
      maint := { s.maint with sliceFrom := max s.maint.sliceFrom (s.index + 1) } }) noWords
  ∧ Does .convStatus specConvStatus (fun c _ => c.flag 0 8 = false) leavesAll (fun c s => convStatusWords s (c.arg 0 1 0))
  ∧ Does .convStatus specConvStatus (fun c _ => c.flag 0 8 = true) (fun c s => { s with conv := { s.conv with
      channels := modAt s.conv.channels (c.arg 0 1 0) fun ch =>
        { ch with ovrSamples := 0, ovrEvents := 0, nbrSamples := 0, invSamples := 0, countFrom := s.index + 1 } } })
      (fun c s => convStatusWords s (c.arg 0 1 0))
  ∧ Does .convAttenInfo specConvAttenInfo anyCase leavesAll (fun c _ =>
      let h (g : Nat) : Nat := attenHalf (c.arg 0 1 0) (c.arg 0 11 8) g
      [BitVec.ofNat 32 (Config.factoryDelay (c.arg 0 1 0) (c.arg 0 11 8)), BitVec.ofNat 32 (h 1 + h 2 * 65536), BitVec.ofNat 32 (h 3 + h 4 * 65536),
        BitVec.ofNat 32 (h 5 + h 6 * 65536), BitVec.ofNat 32 (h 7 + h 8 * 65536), BitVec.ofNat 32 (Config.calDelay (c.arg 0 1 0))])
  ∧ (∀ (ch : Channel) (e v : Nat) (cal : Bool),
    (attenAt e v ch).atten = v ∧ (attenAt e v ch).cal = ch.cal
    ∧ (ch.atten ≠ v → (attenAt e v ch).attens = (e, v) :: ch.attens.filter (fun x => decide (x.1 < e))
        ∧ (attenAt e v ch).inv = { lo := e, hi := some (e + 64) } :: ch.inv)
    ∧ (ch.atten = v → attenAt e v ch = ch)
    ∧ (switchAt e cal ch).cal = cal ∧ (switchAt e cal ch).atten = ch.atten
    ∧ (ch.cal ≠ cal → (switchAt e cal ch).inv = { lo := e, hi := some (e + 128) } :: ch.inv) ∧ (ch.cal = cal → switchAt e cal ch = ch))

/-- The commands of the equalisers and the tuners (R234-R240): those that act at once, and at their effective index EQ_SWAP, TUNER_CONFIG,
TUNER_RETUNE and TUNER_ENABLE. The counts of EQ_STATUS and TUNER_STATUS are those of the samples up to the present one. It rests on the model's
choice of log entry 38. -/
def Obligations.TunerCommands : Prop :=
  (∀ b : EqBank, Does .eqLoad specEqLoad (fun c _ =>
        b.taps = (List.range 64).map (fun i => signed 16 (c.arg (3 + i / 2) (16 * (i % 2) + 15) (16 * (i % 2))))
        ∧ b.bulk = c.arg 0 25 16 ∧ b.delayInt = c.arg 1 5 0 ∧ b.delayFrac = (c.word 2).toNat)
      (fun c s => { s with eqs := modAt s.eqs (c.arg 0 1 0) fun e => if c.flag 0 8 then { e with bankB := b } else { e with bankA := b } })
      (fun _ _ => [BitVec.ofNat 32 (tapSum b), BitVec.ofNat 32 (tapLo b + tapHi b * 256)]))
  ∧ (∀ c e i s, due specEqSwap c e s = true → firesIt c i → ∃ t, exec i s = .next t
      ∧ t.eqs = modAt (passTo e s).eqs (c.arg 0 1 0)
          (fun _ => (presentSwap c.tag (c.flag 0 8) (c.arg 0 31 16) e ((passTo e s).eqs.getD (c.arg 0 1 0) default)).1)
      ∧ t.tuners = s.tuners ∧ t.pool = s.pool)
  ∧ (∀ ch : Nat, ∀ e : Equaliser, Does .eqStatus specEqStatus (fun c s => c.arg 0 1 0 = ch ∧ ch < s.eqs.length ∧ e = endSwap s.index (s.eqs.getD ch default))
      (fun c s => { s with
        eqs := s.eqs.set ch (if c.flag 0 8 then { e with swapCount := 0, replacedCount := 0, clipCount := 0, clipFrom := s.index + 1 } else e) })
      (fun _ s =>
        [BitVec.ofNat 32 (oneIf e.active + oneIf e.running.isSome * 2 + oneIf e.held.isSome * 4 + oneIf ((e.held.map fun h => h.bank).getD false) * 8
          + (eqBank e e.active).bulk * 65536)]
        ++ u64Words ((e.running.map fun r => r.stop).getD 0) 
          ++ [BitVec.ofNat 32 (eqClips { s with eqs := s.eqs.set ch e } ch (s.index + 1)), BitVec.ofNat 32 e.swapCount, BitVec.ofNat 32 e.replacedCount]))
  ∧ Holds .eqSwap specEqSwap 1000
  ∧ Holds .tunerConfig specTunerConfig 1000
  ∧ Holds .tunerRetune specTunerRetune 1000
  ∧ Holds .tunerEnable specTunerEnable 1000
  ∧ Fires specTunerConfig anyTime (fun c e s => (maskBits 8 (c.arg 0 7 0)).foldl (fun a t =>
        configTuner (c.flag 0 8) (c.arg64 1) (c.arg64 3) (c.arg 0 20 16) e t a) s)
      (fun c _ _ => BitVec.ofNat 32 (tunerH (c.flag 0 8) (c.arg64 1))
        :: (u64Words (tunerRho (c.flag 0 8) (c.arg64 1)) ++ u64Words (tunerDelay (c.flag 0 8) (c.arg64 1) (c.arg64 3))))
  ∧ (∀ f : Nat, Fires specTunerRetune (fun c _ _ => c.flag 0 8 = false ∧ f = (c.word 1).toNat + c.arg 2 15 0 * 2 ^ 32)
      (fun c e s => markRetune (c.arg 0 2 0) e { s with tuners := modAt s.tuners (c.arg 0 2 0) fun u =>
        { u with freq := f, phase := (c.word 3).toNat, continuous := false,
                 ncos := (e, f, (f * e + (c.word 3).toNat * 65536) % 2 ^ 48) :: u.ncos.filter (fun x => decide (x.1 < e)),
                 retunes := if tunerRunning s (c.arg 0 2 0) then e :: u.retunes else u.retunes } }) noWordsAt)
  ∧ (∀ f : Nat, Fires specTunerRetune (fun c _ _ => c.flag 0 8 = true ∧ f = (c.word 1).toNat + c.arg 2 15 0 * 2 ^ 32)
      (fun c e s => markRetune (c.arg 0 2 0) e { s with tuners := modAt s.tuners (c.arg 0 2 0) fun u =>
        { u with freq := f, continuous := true, ncos := (e, f, accAt u e) :: u.ncos.filter (fun x => decide (x.1 < e)),
                 retunes := if tunerRunning s (c.arg 0 2 0) then e :: u.retunes else u.retunes } }) noWordsAt)
  ∧ Fires specTunerEnable (fun c _ _ => c.flag 0 8 = false) (fun c e s => (maskBits 8 (c.arg 0 7 0)).foldl (fun a t =>
        if (a.tuners.getD t default).enabled then changeTuner t e (fun u => { u with enabled := false }) a else a) s) noWordsAt
  ∧ Fires specTunerEnable (fun c _ s => c.flag 0 8 = true ∧ modeRunsProducts (runMode s) = true) (fun c e s => (maskBits 8 (c.arg 0 7 0)).foldl (fun a t =>
        if (a.tuners.getD t default).enabled then a else startTuner t e a) s) noWordsAt
  ∧ (∀ u : Tuner, Does .tunerStatus specTunerStatus (fun c s => u = s.tuners.getD (c.arg 0 2 0) default)
      (fun c s => if c.flag 0 8 then setTuner (c.arg 0 2 0) (fun x =>
        { x with invCount := 0, clipCount := 0, ovrCount := 0, countFrom := s.index + 1 }) s else s)
      (fun c s =>
        [BitVec.ofNat 32 (oneIf u.enabled + oneIf (tunerRunning s (c.arg 0 2 0)) * 2 + oneIf u.snap * 4 + oneIf u.continuous * 8
          + oneIf u.configReset * 16 + tunerH u.snap u.decim * 256 + u.gainShift * 65536)]
        ++ u64Words (u.anchor.getD 0) ++ u64Words u.freq
        ++ [BitVec.ofNat 32 (tunerCounts s (c.arg 0 2 0) (s.index + 1)).1, BitVec.ofNat 32 (tunerCounts s (c.arg 0 2 0) (s.index + 1)).2.1,
            BitVec.ofNat 32 (tunerCounts s (c.arg 0 2 0) (s.index + 1)).2.2]))

/-! ### Spectrum, density and spectrogram commands -/

/-- The commands of the spectrum engines (R264-R268): SPEC_CONFIG, SPEC_ENABLE and SPEC_OUTPUT take effect at their effective index, the window load
and the status at once. The commands of the density engines (R276, R292-R294). The commands of the spectrogram instances (R295-R297). It rests on
the model's choices of log entries 38, 42, 43, 44 and 45. -/
def Obligations.ProductCommands : Prop :=
  Holds .specConfig specSpecConfig 1000
  ∧ Fires specSpecConfig anyTime (fun c e s => (maskBits 8 (c.arg 0 7 0)).foldl (fun a i => regrid i e (fun x =>
        { x with cfg := engineConfigOf c, wbuf := ((wbufRegionsOf c).find? fun y => y.1 == i).map fun y => y.2,
                 overrate := false, bindingLost := false }) a) s)
      (fun c e s => [BitVec.ofNat 32 (engineConfigOf c).cols, BitVec.ofNat 32 (wbufAu (engineConfigOf c))]
        ++ u64Words (keyOffset s ((maskBits 8 (c.arg 0 7 0)).headD 0) (engineConfigOf c)) ++ u64Words e)
  ∧ Holds .specEnable specSpecEnable 1000
  ∧ Fires specSpecEnable anyTime (fun c e s => (maskBits 8 (c.arg 0 7 0)).foldl (fun a i =>
        if (engineOf a i).enabled == c.flag 0 8 then a else regrid i e (fun x => { x with enabled := c.flag 0 8 }) a) s) noWordsAt
  ∧ Holds .specOutput specSpecOutput 1000
  ∧ Fires specSpecOutput anyTime (fun c e s => (maskBits 8 (c.arg 0 7 0)).foldl (fun a i => setEngine i (fun x =>
        { x with nextOut := x.nextOut ++ [(e, { bins := c.flag 0 8, format := c.arg 0 10 9, detect := c.arg 0 13 12, decim := c.arg 1 16 0 })] }) a) s)
      noWordsAt
  ∧ (∀ t : List (Nat × Nat), Does .specWindowLoad specSpecWindowLoad
      (fun c s => t = loadedTable c (userBank (engineOf s (c.arg 0 2 0)) (c.flag 0 8)) ∧ c.flag 0 16 = true)
      (fun c s => setEngine (c.arg 0 2 0) (fun x =>
        if c.flag 0 8 then { x with bank1 := { table := t, ready := true } } else { x with bank0 := { table := t, ready := true } }) s)
      (fun _ _ => [BitVec.ofNat 32 (windowGain t).1, BitVec.ofNat 32 (windowGain t).2, 1]))
  ∧ (∀ t : List (Nat × Nat), Does .specWindowLoad specSpecWindowLoad
      (fun c s => t = loadedTable c (userBank (engineOf s (c.arg 0 2 0)) (c.flag 0 8)) ∧ c.flag 0 16 = false)
      (fun c s => setEngine (c.arg 0 2 0) (fun x =>
        if c.flag 0 8 then { x with bank1 := { table := t, ready := false } } else { x with bank0 := { table := t, ready := false } }) s)
      (fun _ _ => [0, 0, 0]))
  ∧ (∀ g : Engine, Does .specStatus specSpecStatus (fun c s => g = engineOf s (c.arg 0 2 0))
      (fun c s => if c.flag 0 8 then setEngine (c.arg 0 2 0) (fun x => { x with spectra := 0, invalidSpectra := 0, prodRecords := 0 }) s else s)
      (fun c s =>
        [BitVec.ofNat 32 (oneIf g.enabled + oneIf (engineRunning s (c.arg 0 2 0)) * 2 + oneIf g.cfg.tuner * 4 + oneIf g.overrate * 8
          + oneIf g.bank0.ready * 16 + oneIf g.bank1.ready * 32 + oneIf g.bindingLost * 64 + g.cfg.window * 256 + g.cfg.log2n * 4096),
          BitVec.ofNat 32 g.cfg.hop]
        ++ u64Words (g.anchor.getD 0) ++ [lo32 g.frame, BitVec.ofNat 32 g.spectra, BitVec.ofNat 32 g.invalidSpectra, BitVec.ofNat 32 g.prodRecords,
          (g.wbuf.map fun r => r.handle).getD 0]))
  ∧ Holds .densConfig specDensConfig 1000
  ∧ Fires specDensConfig anyTime
      (fun c e s => densAct (c.arg 0 1 0) e (.config (densityConfigOf c)) s)
      (fun c e _ => [BitVec.ofNat 32 (densStride (densityConfigOf c)),
        BitVec.ofNat 32 (if (densityConfigOf c).layer = 0 then 0 else 64 + 2 * densStride (densityConfigOf c))] ++ u64Words e)
  ∧ Holds .densEnable specDensEnable 1000
  ∧ Fires specDensEnable (fun c _ _ => c.flag 0 8 = true) (fun c e s => (maskBits 4 (c.arg 0 3 0)).foldl (fun a u =>
        if (densOf (afterLate a) u).enabled then a else densAct u e .start a) s) noWordsAt
  ∧ Fires specDensEnable (fun c _ _ => c.flag 0 8 = false) (fun c e s => (maskBits 4 (c.arg 0 3 0)).foldl (fun a u =>
        if (densOf (afterLate a) u).enabled then densAct u e .stop a else a) s) noWordsAt
  ∧ Holds .densClear specDensClear 1000
  ∧ Fires specDensClear anyTime (fun c e s => (maskBits 4 (c.arg 0 3 0)).foldl (fun a u => densAct u e .clear a) s) noWordsAt
  ∧ (∀ u e : Nat, ∀ g : DensityConfig, ∀ s : State, u < s.dens.length → (densOf s u).late = [] → reached s (densEngine u (densOf s u)) e = true →
      densAct u e (.config g) s = startDensity u e (setDens u (fun x => { x with cfg := g, mismatch := false, seq := 0 }) (endDensity u e false s))
      ∧ densAct u e .start s = startDensity u e (setDens u (fun d => { d with enabled := true }) s)
      ∧ densAct u e .stop s = setDens u (fun d => { d with enabled := false }) (endDensity u e false s)
      ∧ densAct u e .clear s = setDens u (fun d => { d with cells := [], frame := d.frame.map (fun f => { f with cleared := true }) })
          (if densRunning s u then densUpTo u e s else s))
  ∧ Does .densStatus specDensStatus anyCase
      (fun c s => if c.flag 0 8 then setDens (c.arg 0 1 0) (fun d => { d with frames := 0, exportLost := 0, layerSkipped := 0 }) s else s)
      (fun c s =>
        let d := densOf (afterLate s) (c.arg 0 1 0)
        let n := densOf s (c.arg 0 1 0)
        [BitVec.ofNat 32 (oneIf d.enabled + oneIf (d.enabled && modeRunsProducts (runMode s)) * 2 + oneIf d.mismatch * 4)]
          ++ u64Words (d.anchor.getD 0) ++ [lo32 d.seq, BitVec.ofNat 32 n.frames, BitVec.ofNat 32 n.exportLost, BitVec.ofNat 32 n.layerSkipped])
  ∧ Holds .spgmConfig specSpgmConfig 1000
  ∧ Fires specSpgmConfig anyTime (fun c e s => spgmAct (c.arg 0 2 0) e (.config (spgmConfigOf c)) s)
      (fun c _ s => [BitVec.ofNat 32 (lineColumns s (spgmConfigOf c)),
          BitVec.ofNat 32 (slotStride (lineColumns s (spgmConfigOf c) * lineEntryBytes (spgmConfigOf c)))]
        ++ u64Words (lineRate s (spgmConfigOf c) * 4294967296).floor.toNat)
  ∧ Holds .spgmEnable specSpgmEnable 1000
  ∧ Fires specSpgmEnable anyTime (fun c e s => (maskBits 8 (c.arg 0 7 0)).foldl (fun a i =>
        if (spgmOf (afterLate a) i).enabled == c.flag 0 8 then a else spgmAct i e (.enable (c.flag 0 8)) a) s) noWordsAt
  ∧ (∀ i e : Nat, ∀ g : SpgmConfig, ∀ b : Bool, ∀ s : State, i < s.spgm.length → (spgmOf s i).late = [] → reached s (spgmOf s i).cfg.engine e = true →
      spgmAct i e (.config g) s = setSpgm i (fun u => { u with cfg := g, overrate := false, line := 0 }) (emitLine i false s)
      ∧ spgmAct i e (.enable b) s = setSpgm i (fun u => { u with enabled := b }) (emitLine i false s))
  ∧ Does .spgmStatus specSpgmStatus anyCase
      (fun c s => if c.flag 0 8 then setSpgm (c.arg 0 2 0) (fun u => { u with lines := 0, invalidLines := 0, linesLost := 0 }) s else s)
      (fun c s =>
        let v := afterLate s
        let u := spgmOf v (c.arg 0 2 0)
        let n := spgmOf s (c.arg 0 2 0)
        [BitVec.ofNat 32 (oneIf u.enabled + oneIf (spgmRunning v (c.arg 0 2 0)) * 2 + oneIf u.overrate * 4), lo32 u.line,
          BitVec.ofNat 32 n.lines, BitVec.ofNat 32 n.invalidLines, BitVec.ofNat 32 n.linesLost,
          BitVec.ofNat 32 (((v.spgm.filter fun u => u.enabled).map fun u => lineRate s u.cfg).sum).floor.toNat])

/-! ### Trigger and capture commands -/

/-- The commands of the trigger fabric (R308, R328-R334). What TRIG_ARM does to a slot (R330): a slot that has the state is left alone; a slot that
leaves DISABLED starts afresh; ARMED counts from the effective index. It rests on the model's choice of log entry 49. -/
def Obligations.TriggerCommands : Prop :=
  Holds .trigSlotConfig specTrigSlotConfig 1000
  ∧ Fires specTrigSlotConfig anyTime (fun c e s => changeTrig e (.config (c.arg 0 4 0) (slotConfigOf c)) s) noWordsAt
  ∧ Holds .trigArm specTrigArm 1000
  ∧ Fires specTrigArm anyTime (fun c e s =>
        changeTrig e (.arm (c.word 0).toNat (if c.arg 1 1 0 = 0 then .disabled else if c.arg 1 1 0 = 1 then .enabled else .armed)) s) noWordsAt
  ∧ (∀ e i m : Nat, ∀ g : SlotConfig, ∀ st : SlotState, ∀ s : State, trigDecides s = false →
      changeTrig e (.config i g) s = setSlot i (fun t => { restartSlot e t with cfg := g, lastFiring := none, asserts := 0 }) s
      ∧ changeTrig e (.arm m st) s = (maskBits 32 m).foldl (fun a i => setSlot i (armSlot e st) a) s)
  ∧ (∀ e : Nat, ∀ x : TrigChange, ∀ s : State, trigDecides s = true →
      changeTrig e x s = decideTo e { s with trig := { s.trig with changes := s.trig.changes ++ [(e, x)] } })
  ∧ Holds .trigMaskConfig specTrigMaskConfig 1000
  ∧ Fires specTrigMaskConfig anyTime (fun c e s => { s with trig := { s.trig with
        masks := modAt s.trig.masks (c.arg 0 1 0) (fun m => { m with settings := m.settings ++ [(e, maskSettingsOf c)] }) } }) noWordsAt
  ∧ Does .trigMaskLoad specTrigMaskLoad anyCase (fun c s => { s with trig := { s.trig with
        masks := modAt s.trig.masks (c.arg 0 1 0) (fun m => { m with
          table := (List.range (2 * (c.plen - 2))).foldl (fun t i =>
            sparseSet 32767 t (c.arg 1 15 0 + i) (c.arg (2 + i / 2) (16 * (i % 2) + 15) (16 * (i % 2)))) m.table }) } }) noWords
  ∧ Holds .trigForce specTrigForce 1000
  ∧ FiresLater specTrigForce anyTime (fun c e s => { s with trig := { s.trig with
        forced := s.trig.forced ++ [{ cmd := c.id, slot := c.arg 0 4 0, index := e }] } })
  ∧ Does .trigStatus specTrigStatus anyCase
      (fun c s => if c.flag 0 8 then setSlot (c.arg 0 4 0) (fun t => { t with firings := 0, wins := 0, suppressed := 0, heldOff := 0, blanked := 0 }) s
        else s)
      (fun c s =>
        let t := slotOf (afterChanges s) (c.arg 0 4 0)
        let n := slotOf s (c.arg 0 4 0)
        [BitVec.ofNat 32 ((match t.st with | .disabled => 0 | .enabled => 1 | .armed => 2) + oneIf (trigRunning s) * 4 + oneIf n.q * 8
          + oneIf (sourceIdle s t) * 16 + oneIf (outOfColumns s t) * 32 + oneIf t.timerAt.isSome * 64)]
        ++ u64Words s.trig.evalIndex
        ++ [BitVec.ofNat 32 n.firings, BitVec.ofNat 32 n.wins, BitVec.ofNat 32 n.suppressed, BitVec.ofNat 32 n.heldOff, BitVec.ofNat 32 n.blanked,
          BitVec.ofNat 32 s.trig.recordsLost])
  ∧ (∀ (e : Nat) (st : SlotState) (t : TrigSlot),
    (armSlot e st t).st = st ∧ (armSlot e st t).cfg = t.cfg
    ∧ (t.st = st → armSlot e st t = t)
    ∧ (t.st ≠ st → st = .disabled → (armSlot e st t).lastFiring = none)
    ∧ (t.st ≠ .armed → st = .armed → e ≤ (armSlot e st t).armIndex))

/-- The commands of the capture sheaves (R336-R339, R358-R361). It rests on the model's choice of log entry 31. -/
def Obligations.CaptureCommands : Prop :=
  Holds .capSource specCapSource 1000
  ∧ Fires specCapSource (fun c _ _ => c.word 1 = 0)
      (fun c e s => rebind c e s) (fun _ e _ => 0 :: u64Words e)
  ∧ Fires specCapSource (fun c _ _ => c.word 1 ≠ 0)
      (fun c e s => rebind c e s) (fun c e s => BitVec.ofNat 32 (boundRing s c).depth :: u64Words e)
  ∧ (∀ c : Cmd, ∀ e : Nat, ∀ s : State, trigDecides s = false →
      (s.cap.sheaves.all fun sh => !(sh.cfg.kind == c.arg 0 1 0 && sh.cfg.unit == c.arg 0 10 8)) = true →
      rebind c e s = { s with cap := { s.cap with rings := (s.cap.rings.filter fun r => !(r.kind == c.arg 0 1 0 && r.unit == c.arg 0 10 8))
        ++ (if c.word 1 = 0 then [] else
          [{ boundRing s c with run := if sourceProduces s (c.arg 0 1 0) (c.arg 0 10 8) then some e else none }]) } })
  ∧ (∀ g : SheafConfig, Does .capSheafConfig specCapSheafConfig (fun c _ => g = sheafConfigOf c)
      (fun c s => setSheaf (c.arg 0 2 0) (fun sh =>
          { sh with configured := true, cfg := g, esize := elementSize s g.kind g.unit, sourceChanged := false, bindingLost := false })
        (completeAll (c.arg 0 2 0) (decideTo s.index s)))
      (fun _ s => [BitVec.ofNat 32 (segmentStride (elementSize s g.kind g.unit) g),
        BitVec.ofNat 32 (g.nseg * segmentStride (elementSize s g.kind g.unit) g), BitVec.ofNat 32 (rearm s),
        BitVec.ofNat 32 (((ringOf s g.kind g.unit).map fun r => r.depth).getD 0)]))
  ∧ Holds .capArm specCapArm 1000
  ∧ Fires specCapArm anyTime (fun c e s => changeTrig e (.sheaves (c.arg 0 7 0) (c.flag 0 8) (c.flag 0 9)) s) noWordsAt
  ∧ (∀ e m : Nat, ∀ arm fin : Bool, ∀ s : State, trigDecides s = false →
      changeTrig e (.sheaves m arm fin) s = (maskBits 8 m).foldl (fun a n => armSheaf e arm fin n a) s)
  ∧ Does .capStatus specCapStatus anyCase
      (fun c s => if c.flag 0 8 then setSheaf (c.arg 0 2 0) (fun sh =>
        { sh with segments := 0, ignored := 0, preShort := 0, early := 0, truncated := 0 }) s else s)
      (fun c s =>
        let sh := sheafNow s (c.arg 0 2 0)
        let n := sheafOf s (c.arg 0 2 0)
        [BitVec.ofNat 32 (oneIf sh.armed + oneIf sh.seg.isSome * 2 + oneIf (modeRunsProducts (runMode s)) * 4 + oneIf sh.sourceChanged * 8
            + oneIf sh.bindingLost * 16 + sh.lastClose * 256), lo32 sh.next,
          BitVec.ofNat 32 (((ringOf s sh.cfg.kind sh.cfg.unit).map fun r => r.depth).getD 0), BitVec.ofNat 32 n.segments, BitVec.ofNat 32 n.ignored,
          BitVec.ofNat 32 n.preShort, BitVec.ofNat 32 n.early, BitVec.ofNat 32 n.truncated])

/-! ### Integration and Thresher commands -/

/-- The integration unit as an INT_CONFIG leaves it at its effective index (R370, R383): the grid starts there, under the next configuration number. -/
def integrationFrom (g : IntConfig) (e : Nat) (u : IntUnit) : IntUnit :=
  { u with
    cfg := g, base := e, configGen := (u.configGen + 1) % 256, mismatch := false, bindingLost := false, seq := 0, header0 := [], header1 := [] }

/-- The commands of the integration unit and of the Threshers (R370, R376, R382-R389). A change takes effect once the spectra of its sources have
reached its index. It rests on the model's choices of log entries 45, 48 and 108. -/
def Obligations.IntegrationCommands : Prop :=
  Holds .intConfig specIntConfig 1000
  ∧ Fires specIntConfig anyTime (fun c e s => intAct e (.config (intConfigOf c)) s)
      (fun c e s => [BitVec.ofNat 32 (intConfigOf c).half, BitVec.ofNat 32 (accRate s (intConfigOf c) / 1000000).ceil.toNat] ++ u64Words e)
  ∧ Holds .intEnable specIntEnable 1000
  ∧ Fires specIntEnable anyTime (fun c e s => intAct e (.enable (c.flag 0 0)) s) noWordsAt
  ∧ (∀ e : Nat, ∀ g : IntConfig, ∀ s t : State, s.intg.late = [] → (intEngines s.intg.cfg).all (fun x => reached s x e) = true → intBefore e s = t →
      intAct e (.config g) s = startInt e (setInt (integrationFrom g e) (stopInt (closeCode t e 4) e t))
      ∧ (t.intg.enabled = false → intAct e (.enable true) s = startInt e (setInt (fun u => { u with enabled := true }) t))
      ∧ (t.intg.enabled = true → intAct e (.enable false) s = setInt (fun u => { u with enabled := false }) (stopInt (closeCode t e 1) e t))
      ∧ intAct e (.enable t.intg.enabled) s = t)
  ∧ Does .intStatus specIntStatus anyCase
      (fun c s => if c.flag 0 8 then setInt (fun u => { u with frames := 0, droppedSets := 0, satFrames := 0 }) s else s)
      (fun _ s =>
        let u := (afterLate s).intg
        [BitVec.ofNat 32 (oneIf u.enabled + oneIf (u.enabled && modeRunsIntegration (runMode s)) * 2 + oneIf u.mismatch * 4
          + oneIf u.bindingLost * 8 + u.configGen * 256), lo32 u.seq]
        ++ u64Words ((u.frame.map fun f => f.stop).getD 0)
        ++ [BitVec.ofNat 32 s.intg.frames, BitVec.ofNat 32 s.intg.droppedSets, BitVec.ofNat 32 s.intg.satFrames])
  ∧ (∀ h : List Word, Does .intHeader specIntHeader (fun c s => h = if c.flag 0 0 then s.intg.header1 else s.intg.header0) leavesAll
      (fun _ _ => if h = [] then List.replicate 16 0 else h))
  ∧ Holds .thConfig specThConfig 1000
  ∧ Fires specThConfig anyTime (fun c e s => thAct (c.arg 0 1 0) e (.config (thConfigOf c)) s)
      (fun c e _ => BitVec.ofNat 32 (thSize (thConfigOf c)) :: u64Words e)
  ∧ Holds .thEnable specThEnable 1000
  ∧ Fires specThEnable (fun c _ _ => c.flag 0 8 = true) (fun c e s => (maskBits 4 (c.arg 0 3 0)).foldl (fun a ch =>
        if ((afterLate a).th.getD ch default).enabled then a else thAct ch e .start a) s) noWordsAt
  ∧ Fires specThEnable (fun c _ _ => c.flag 0 8 = false) (fun c e s => (maskBits 4 (c.arg 0 3 0)).foldl (fun a ch =>
        if ((afterLate a).th.getD ch default).enabled then thAct ch e .stop a else a) s) noWordsAt
  ∧ (∀ ch e : Nat, ∀ g : ThConfig, ∀ s : State, ch < s.th.length → (s.th.getD ch default).late = [] → reached s (thEngine ch (s.th.getD ch default)) e = true →
      thAct ch e (.config g) s = restartTh ch (setTh ch (fun t => { t with cfg := g, bindingLost := false }) (endThReports ch e s))
      ∧ thAct ch e .start s = restartTh ch (setTh ch (fun t => { t with enabled := true }) s)
      ∧ thAct ch e .stop s = setTh ch (fun t => { t with enabled := false }) (endThReports ch e s))
  ∧ Does .thStatus specThStatus anyCase
      (fun c s => if c.flag 0 8 then setTh (c.arg 0 1 0) (fun t => { t with skFlags := 0, powFlags := 0, dropped := 0 }) s else s)
      (fun c s =>
        let v := afterLate s
        let t := v.th.getD (c.arg 0 1 0) default
        [BitVec.ofNat 32 (oneIf t.enabled + oneIf (thRunning v (c.arg 0 1 0)) * 2
            + oneIf (thRunning v (c.arg 0 1 0) && decide (t.valid < 2 ^ (t.cfg.skLog2 + 1))) * 4),
          BitVec.ofNat 32 t.valid, BitVec.ofNat 32 t.skFlags, BitVec.ofNat 32 t.powFlags, BitVec.ofNat 32 t.dropped, BitVec.ofNat 32 t.restarts])

/-! ### Stream, packer and message-queue commands -/

/-- A context as STRM_CONFIG leaves it (R402, R425): its store is empty and its marks are cleared; KEEP_SEQ keeps the sequence. -/
def contextFrom (c : Cmd) (x : StreamCtx) : StreamCtx :=
  { x with
    cfg := streamConfigOf c, configured := true, seq := if c.flag 0 25 then x.seq else 0, run := none, pieces := [], items := [], offset := 0,
    packets := [], writeOffset := 0, marks := List.replicate 4 { seq := none, lost := false }, bindingLost := false, stopIndex := none }

/-- The commands of the ports, destinations and contexts (R402, R406, R415-R417, R419, R422-R431). The counts of the FEC and the instants at which a
frame leaves are free values. It rests on the model's choices of log entries 10, 60, 61 and 99. -/
def Obligations.StreamCommands : Prop :=
  Does .strmPortConfig specStrmPortConfig anyCase (fun c s => setPort (c.arg 0 1 0) (fun e => { e with
      en := c.flag 0 2, ptpEn := c.flag 0 3, ptpEntry := c.arg 0 13 8, mac := (c.word 1).toNat + c.arg 2 15 0 * 2 ^ 32, mtu := c.arg 2 31 16,
      ipv4 := c.word 3, ipv6 := [c.word 4, c.word 5, c.word 6, c.word 7] }) s) noWords
  ∧ Does .strmDest specStrmDest anyCase
      (fun c s => setDest (c.arg 0 5 0) (fun _ => { dest := destinationOf c, prod := 0, cons := 0, unsignalled := 0 }) s) noWords
  ∧ (∀ k p s, accepted specStrmConfig k p s = true → ∃ t, exec (.strmConfig k p) s = .next t
      ∧ t.strm.ctxs = modAt s.strm.ctxs ((rowCmd k p s).arg 0 5 0)
          (fun x => contextFrom (rowCmd k p s) { x with markWaits := [], rewind := none })
      ∧ t.mq.readers = s.mq.readers.filter (fun r => r.1 != (rowCmd k p s).arg 0 5 0)
      ∧ t.strm.ports.map (fun e => { e with txFrames := 0 }) = s.strm.ports.map (fun e => { e with txFrames := 0 })
      ∧ t.strm.dests = s.strm.dests ∧ t.pool = s.pool)
  ∧ Holds .strmEnable specStrmEnable 1000
  ∧ Fires specStrmEnable (fun c _ _ => c.flag 2 0 = true) (fun c e s => (maskBits 64 (c.arg64 0)).foldl (fun a n =>
        if (ctxOf a n).started then a else startCtx e n a) s) noWordsAt
  ∧ Fires specStrmEnable (fun c _ _ => c.flag 2 0 = false) (fun c e s => (maskBits 64 (c.arg64 0)).foldl (fun a n =>
        if (ctxOf a n).started then stopCtx e n a else a) s) noWordsAt
  ∧ Holds .strmMark specStrmMark 1000
  ∧ FiresLater specStrmMark (fun c _ _ => c.arg 0 11 10 = 0) (fun c e s => setCtx (c.arg 0 5 0) (fun x => { x with
        marks := modAt x.marks (c.arg 0 9 8) (fun v => { v with lost := false }),
        markWaits := x.markWaits ++ [{ cmd := c.id, mark := c.arg 0 9 8, at_ := if c.timed then e else 0 }] }) s)
  ∧ Fires specStrmMark (fun c _ s => c.arg 0 11 10 = 1 ∧ ((ctxOf s (c.arg 0 5 0)).packets.any fun p => p.seq == c.arg64 1) = true)
      (fun c _ s => setCtx (c.arg 0 5 0) (fun x => { x with
        marks := modAt x.marks (c.arg 0 9 8) (fun _ => { seq := some (c.arg64 1), lost := false }) }) s)
      (fun c _ _ => u64Words (c.arg64 1))
  ∧ FiresRefused specStrmMark .markLost
      (fun c _ s => c.arg 0 11 10 = 1 ∧ ((ctxOf s (c.arg 0 5 0)).packets.any fun p => p.seq == c.arg64 1) = false) [0, 0]
  ∧ Fires specStrmMark (fun c _ _ => 2 ≤ c.arg 0 11 10)
      (fun c _ s => setCtx (c.arg 0 5 0) (fun x => { x with marks := modAt x.marks (c.arg 0 9 8) (fun _ => { seq := none, lost := false }) }) s)
      (fun _ _ _ => [0, 0])
  ∧ (∀ q : Nat, Defers .strmRewind specStrmRewind
      (fun c s => (if c.flag 0 10 then some (c.arg64 1) else ((ctxOf s (c.arg 0 5 0)).marks.getD (c.arg 0 9 8) default).seq) = some q
        ∧ ((ctxOf s (c.arg 0 5 0)).packets.any fun p => p.seq == q) = true
        ∧ (s.pair.itemFloor.any fun f => f.1 == c.arg 0 5 0 && decide (q ≤ f.2)) = false)
      (fun c s => setCtx (c.arg 0 5 0) (fun x => { x with rewind := some {
        cmd := c.id, next := q, stop := min (c.arg64 3) ((ctxOf s (c.arg 0 5 0)).seq - 1), override := if c.flag 0 22 then some (c.arg 0 21 16) else none,
        resent := 0, lost := false } }) s))
  ∧ Answers .strmRewind specStrmRewind .markLost
      (fun c s => c.flag 0 10 = false ∧ ((ctxOf s (c.arg 0 5 0)).marks.getD (c.arg 0 9 8) default).seq = none) leavesAll (fun _ _ => [0, 0])
  ∧ (∀ q : Nat, Answers .strmRewind specStrmRewind .markLost
      (fun c s => (if c.flag 0 10 then some (c.arg64 1) else ((ctxOf s (c.arg 0 5 0)).marks.getD (c.arg 0 9 8) default).seq) = some q
        ∧ (((ctxOf s (c.arg 0 5 0)).packets.any fun p => p.seq == q) = false
          ∨ (s.pair.itemFloor.any fun f => f.1 == c.arg 0 5 0 && decide (q ≤ f.2)) = true)) leavesAll (fun _ _ => [0, 0]))
  ∧ Does .strmStatus specStrmStatus anyCase
      (fun c s => if c.flag 0 8 then setCtx (c.arg 0 5 0) (fun x =>
        { x with sent := 0, dropped := 0, retx := 0, clipped := 0, spoiled := 0, skipped := 0 }) s else s)
      (fun c s =>
        let x := ctxOf s (c.arg 0 5 0)
        [BitVec.ofNat 32 (oneIf x.started + oneIf (x.started && modeRunsProducts s.mode && s.mode != .shadow) * 2 + oneIf x.rewind.isSome * 4 + oneIf x.bindingLost * 8
          + maskOf ((List.range 4).filter fun m => (x.marks.getD m default).seq.isSome) * 16
          + maskOf ((List.range 4).filter fun m => (x.marks.getD m default).lost) * 256)]
        ++ u64Words x.seq ++ [BitVec.ofNat 32 x.sent, BitVec.ofNat 32 x.dropped, BitVec.ofNat 32 x.retx, BitVec.ofNat 32 x.clipped,
          BitVec.ofNat 32 x.spoiled, BitVec.ofNat 32 x.skipped, BitVec.ofNat 32 (unsentOf x).length])
  ∧ (∀ e : EthPort, Does .strmPortStatus specStrmPortStatus (fun c s => e = portOf s (c.arg 0 1 0))
      (fun c s => if c.flag 0 8 then setPort (c.arg 0 1 0) (fun e =>
          { e with txFrames := 0, rxFrames := 0, rxDiscarded := 0, pauseIgnored := 0, ptpRxLost := 0 }) { s with free := s.free + 1 + 1 }
        else { s with free := s.free + 1 + 1 })
      (fun _ s => [BitVec.ofNat 32 (oneIf e.linkUp + oneIf e.en * 2 + oneIf e.ptpEn * 4), BitVec.ofNat 32 e.txFrames, BitVec.ofNat 32 e.rxFrames,
        BitVec.ofNat 32 e.rxDiscarded, Config.freeWord s.free, Config.freeWord (s.free + 1), BitVec.ofNat 32 e.pauseIgnored,
        BitVec.ofNat 32 e.ptpRxLost]))
  ∧ (∀ frame : List Byte, Does .strmPtpSend specStrmPtpSend
      (fun c _ => frame = (bytesOfWords ((List.range (c.plen - 1)).map fun i => c.word (i + 1))).take (c.arg 0 29 16))
      (fun c s => emit (.rawFrame (c.arg 0 1 0) (frame ++ List.replicate (60 - c.arg 0 29 16) 0))
        (setPort (c.arg 0 1 0) (fun e => { e with txFrames := satAdd 32 e.txFrames 1 }) { s with free := s.free + 1 + 1 }))
      (fun c s => stampRecord (ptpForm s (s.index * 2 ^ 32 + join64 (Config.freeWord s.free) (Config.freeWord (s.free + 1)))) (c.arg 0 1 0)
        (c.arg 0 29 16)))

/-- The MQ_READ that a command asks for. -/
def mqReadOf (c : Cmd) : MqRead :=
  { cmd := c.id, host := if c.flag 0 0 then some (c.arg64 3) else none, minItems := c.arg 0 15 8, maxBytes := (c.word 2).toNat }

/-- An MQ_READ can be answered at once (R465). -/
def mqReadNowOk (c : Cmd) (s : State) : Prop :=
  (mqReadOf c).minItems ≤ (s.mq.readable s.mq.hostPos).length ∨ c.arg 1 19 0 = 0 ∨ mqReadFull (mqReadOf c) s = true

/-- The status that an MQ_READ answered at once has (R60, R465): OUT_FULL when its first item does not fit, INTERNAL when its write to host memory fails. -/
def mqReadStatus (c : Cmd) (s : State) : Status :=
  let r := mqReadOf c
  let t := mqTake s (s.mq.readable s.mq.hostPos) r.maxBytes s.mq.items.length { items := [], pos := s.mq.hostPos, lost := 0 }
  if mqReadFull r s then .outFull
  else if (r.host.map fun a => hostFails s a (t.items.flatMap fun x => x.2).length).getD false then .internal
  else .ok

/-- The commands of the packers (R448-R450). A job of PK_ENCODE joins the queue of its packer. The commands of the message queue (R460, R464-R469).
The count of corrections is a free value. What an MQ_FLUSH leaves (R460, R468): no item, every pointer at the end of the last line, the open item
aborted. It rests on the model's choices of log entries 10, 54, 55, 56 and 110. -/
def Obligations.MessageQueueCommands : Prop :=
  Does .pkConfig specPkConfig anyCase (fun c s => setPacker (c.arg 0 0 0) (fun p =>
      { p with samplePred := c.arg 0 5 4, itemPred := c.arg 0 9 8, itemElem := c.arg 0 13 12 }) s) noWords
  ∧ Begins .pkEncode specPkEncode anyCase (fun c s => setPacker (c.arg 0 0 0) (fun p => { p with jobs := p.jobs ++ [{
      cmd := c.id, elem := c.arg 0 3 1, pred := c.arg 0 5 4, level := c.arg 0 8 6, rawOk := c.flag 0 9, stride := c.arg 0 28 16,
      blockBytes := c.arg 1 16 0, inHandle := c.word 2, inOffset := (c.word 3).toNat, length := (c.word 4).toNat, outHandle := c.word 5,
      outOffset := (c.word 6).toNat, outLength := (c.word 7).toNat }] }) s)
  ∧ (∀ p : Packer, ∀ on : List StreamConfig, Does .pkStatus specPkStatus
      (fun c s => p = s.packers.getD (c.arg 0 0 0) default ∧ on = packContexts s (c.arg 0 0 0) 64)
      (fun c s => if c.flag 0 8 then setPacker (c.arg 0 0 0) (fun p => { p with blocks := 0, noGain := 0, outFull := 0, inBytes := 0, outBytes := 0 }) s
        else s)
      (fun _ s => [BitVec.ofNat 32 (on.length % 128 + p.jobs.length * 256 + ((on.map (packLoad s)).sum * 100).ceil.toNat % 256 * 65536),
        BitVec.ofNat 32 p.blocks, BitVec.ofNat 32 p.noGain, BitVec.ofNat 32 p.outFull, BitVec.ofNat 32 (min (p.inBytes / 1048576) (2 ^ 32 - 1)),
        BitVec.ofNat 32 (min (p.outBytes / 1048576) (2 ^ 32 - 1))]))
  ∧ Does .mqConfig specMqConfig anyCase
      (fun c s => setMq (fun m => { m with
          linger := c.arg 0 31 16, threshold := (c.word 2).toNat,
          armed := decide (mqLevel (mqMask (c.arg 0 5 0) (mqBind (c.word 1) s)) < (c.word 2).toNat) }) (mqMask (c.arg 0 5 0) (mqBind (c.word 1) s)))
      (fun c s => [BitVec.ofNat 32 (mqSize (mqMask (c.arg 0 5 0) (mqBind (c.word 1) s)) - 64)])
  ∧ (∀ st : Status, Answers .mqRead specMqRead st (fun c s => mqReadNowOk c s ∧ mqReadStatus c s = st)
      (fun c s => (mqReadNow (mqReadOf c) s).1) (fun c s => (mqReadNow (mqReadOf c) s).2.2))
  ∧ Defers .mqRead specMqRead (fun c s => ¬ mqReadNowOk c s) (fun c s => setMq (fun m => { m with read := some (mqReadOf c) }) s)
  ∧ Does .mqPut specMqPut (fun _ s => mqTakes s 5 = false) leavesAll (fun _ _ => [0])
  ∧ Begins .mqPut specMqPut (fun _ s => mqTakes s 5 = true ∧ (s.mq.open_.isSome || [1, 2, 3, 4, 5].any (mqReady s)) = true)
      (fun c s => setMq (fun m => { m with hostQueue := m.hostQueue ++ [{
        cmd := c.id, tag := c.arg 0 7 0, payload := (List.range (c.plen - 1)).map fun i => c.word (i + 1) }] }) s)
  ∧ Begins .mqPut specMqPut (fun c s => mqTakes s 5 = true ∧ (s.mq.open_.isSome || [1, 2, 3, 4, 5].any (mqReady s)) = false
        ∧ mqRoom s (mqItemBytes ((List.range (c.plen - 1)).map fun i => c.word (i + 1))) = true)
      (fun c s => setMq (fun m => { m with
        turn := 5,
        open_ := some { item := { cmd := c.id, tag := c.arg 0 7 0, payload := (List.range (c.plen - 1)).map fun i => c.word (i + 1) },
                        seq := m.seq, accept := s.index, loss := m.loss.contains 5, aborted := false },
        seq := (m.seq + 1) % 2 ^ 32, loss := m.loss.filter (fun p => p != 5) }) s)
  ∧ Answers .mqPut specMqPut .noMemory (fun c s => mqTakes s 5 = true ∧ (s.mq.open_.isSome || [1, 2, 3, 4, 5].any (mqReady s)) = false
        ∧ mqRoom s (mqItemBytes ((List.range (c.plen - 1)).map fun i => c.word (i + 1))) = false) leavesAll noWords
  ∧ Does .mqFlush specMqFlush anyCase (fun _ s => (mqFlush s).1) (fun _ s => [BitVec.ofNat 32 (mqFlush s).2.1, flagWord (mqFlush s).2.2])
  ∧ Does .mqStatus specMqStatus anyCase
      (fun c s => if c.flag 0 8 then setMq (fun m => { m with dropped := 0, aborted := 0, flushed := 0, ueItems := 0, padBytes := 0 })
          { s with free := s.free + 1 } else { s with free := s.free + 1 })
      (fun _ s => [BitVec.ofNat 32 (oneIf (partByHandle s s.mq.handle).isSome + oneIf s.mq.read.isSome * 2 + oneIf s.mq.armed * 4
          + oneIf s.mq.open_.isSome * 80), BitVec.ofNat 32 (mqSize s - 64), BitVec.ofNat 32 (mqLevel s), lo32 s.mq.seq, BitVec.ofNat 32 s.mq.dropped,
        BitVec.ofNat 32 s.mq.aborted, BitVec.ofNat 32 s.mq.flushed, Config.freeWord s.free, BitVec.ofNat 32 s.mq.ueItems,
        BitVec.ofNat 32 s.mq.padBytes])
  ∧ (∀ s : State, (mqFlush s).1.mq.items = [] ∧ (mqFlush s).1.mq.hostPos = s.mq.lineEnd
    ∧ (mqFlush s).1.mq.readers = s.mq.readers.map (fun r => (r.1, s.mq.lineEnd))
    ∧ (∀ o, (mqFlush s).1.mq.open_ = some o → o.aborted = true)
    ∧ (mqFlush s).1.mq.flushed = satAdd 32 s.mq.flushed s.mq.items.length ∧ (mqFlush s).2.1 = s.mq.items.length)

/-! ### TDC, monitoring and calibration commands -/

/-- An input as TDC_INPUT leaves it (R494): the inputs from 8 on have no enable of their own; a change of the edge turns the level over. -/
def tdcInputFrom (c : Cmd) (x : TdcInput) : TdcInput :=
  if 8 ≤ c.arg 0 3 0 then { x with stuckNotice := c.flag 0 10, stuckUs := c.arg 1 23 0 }
  else { x with
    stuckNotice := c.flag 0 10, stuckUs := c.arg 1 23 0, enabled := c.flag 0 8, falling := c.flag 0 9, active := (x.active == (x.falling == c.flag 0 9)),
    stuck := x.stuck && c.flag 0 8 && x.falling == c.flag 0 9, last := if c.flag 0 8 && x.enabled then x.last else none }

/-- The commands of the TDC (R481, R482, R494-R498, R531). The commands of the monitoring converter (R507, R510, R511, R518-R522). An MC_CONVERT is
answered at the end of its conversion. It rests on the model's choices of log entries 53, 65 and 66. -/
def Obligations.TdcAndMonitorCommands : Prop :=
  Holds .tdcInput specTdcInput 1000
  ∧ Fires specTdcInput anyTime (fun c _ s => setTdcInput (c.arg 0 3 0) (tdcInputFrom c) s) noWordsAt
  ∧ Does .tdcSlotConfig specTdcSlotConfig anyCase (fun c s => setTdcSlot (c.arg 0 2 0) (fun t => { t with cfg := tdcConfigOf c }) s) noWords
  ∧ Holds .tdcArm specTdcArm 1000
  ∧ Fires specTdcArm (fun c _ _ => c.flag 0 8 = false) (fun c _ s => (maskBits 8 (c.arg 0 7 0)).foldl (fun a n =>
        if (tdcSlotOf a n).armed then disarmSlot n (emitStats n (setTdcSlot n (fun t => { t with open_ := none }) a)) else a) s) noWordsAt
  ∧ FiresQueued specTdcArm (fun c _ s => c.flag 0 8 = true ∧ c.timed = false ∧ newProbes s (c.arg 0 7 0) ≠ []
        ∧ actBlocked s s.maint.acts (newProbes s (c.arg 0 7 0)) = true)
      (fun c _ s => countWait (newProbes s (c.arg 0 7 0)) (setMaint (fun m => { m with acts := m.acts ++ [{
        codes := newProbes s (c.arg 0 7 0), cmd := c.id, key := c.arg 0 7 0, waitFrom := s.index, clear := s.index, start := none, length := 0, taken := [] }] }) s))
  ∧ Fires specTdcArm (fun c _ s => c.flag 0 8 = true ∧ (c.timed = true ∨ newProbes s (c.arg 0 7 0) = []
        ∨ actBlocked s s.maint.acts (newProbes s (c.arg 0 7 0)) = false))
      (fun c e s => (maskBits 8 (c.arg 0 7 0)).foldl (fun a n => armTdc e c.id none n a) s) noWordsAt
  ∧ (∀ t : TdcSlot, Does .tdcRead specTdcRead (fun c s => t = tdcSlotOf s (c.arg 0 2 0)) leavesAll
      (fun c s => [BitVec.ofNat 32 (oneIf t.armed + oneIf t.open_.isSome * 2
          + oneIf (s.maint.acts.any fun a => !a.running && holdsTdr a.codes && a.key.testBit (c.arg 0 2 0)) * 4),
        BitVec.ofNat 32 (min t.results (2 ^ 32 - 1)), BitVec.ofNat 32 t.lost]
        ++ (List.range 8).map (fun i => t.lastResult.getD i 0) ++ (List.range 16).map (fun i => t.lastStats.getD i 0)))
  ∧ (∀ x : TdcInput, Does .tdcStatus specTdcStatus (fun c s => x = tdcInputOf s (c.arg 0 3 0))
      (fun c s => if c.flag 0 8 then setTdcInput (c.arg 0 3 0) (fun x => { x with overrun := 0, stuckEvents := 0 }) s else s)
      (fun c s => [BitVec.ofNat 32 (oneIf (tdcEnabled s (c.arg 0 3 0)) + oneIf x.stuck * 2 + oneIf x.active * 4 + oneIf s.tdc.notReady * 8
          + oneIf s.tdc.rotating * 16), BitVec.ofNat 32 x.accepted, BitVec.ofNat 32 x.overrun, BitVec.ofNat 32 x.stuckEvents]
        ++ dtsWords x.lastStamp
        ++ [BitVec.ofNat 32 (min ((s.index - (s.tdc.lines.getD x.line default).calIndex) * 1000 / max 1 (fsOf s.time)) (2 ^ 32 - 1))]))
  ∧ Does .mcInput specMcInput anyCase (fun c s => setMcInput (c.arg 0 4 0) (fun i => { i with
      order := c.arg 0 9 8, dr := c.arg 0 13 10, single := c.flag 0 14, threshNotice := c.flag 0 15, ovrNotice := c.flag 0 16,
      detCh := c.arg 0 18 17, high := (c.word 1).toInt, low := (c.word 2).toInt, hyst := (c.word 3).toNat }) s) noWords
  ∧ Does .mcSequence specMcSequence (fun _ s => s.mc.running = none)
      (fun c s => mcNext none (applySequence (setMc (fun u => { u with pendingSeq := some ((c.word 0).toNat, c.flag 1 0, c.flag 1 1) }) s))) noWords
  ∧ Does .mcSequence specMcSequence (fun _ s => s.mc.running ≠ none)
      (fun c s => setMc (fun u => { u with pendingSeq := some ((c.word 0).toNat, c.flag 1 0, c.flag 1 1) }) s) noWords
  ∧ Begins .mcConvert specMcConvert (fun c _ => c.urgent = true)
      (fun c s => mcNext none (mcAbort (setMc (fun u => { u with urgents := u.urgents ++ [(c.id, c.arg 0 4 0)] }) s)))
  ∧ Begins .mcConvert specMcConvert (fun c _ => c.urgent = false)
      (fun c s => mcNext none (setMc (fun u => { u with converts := u.converts ++ [(c.id, c.arg 0 4 0)] }) s))
  ∧ (∀ n : Nat, Does .mcRead specMcRead (fun c s => c.flag 0 0 = true ∧ n = min (c.arg 0 13 8) s.mc.history.length)
      (fun _ s => setMc (fun u => { u with history := u.history.drop n }) s)
      (fun _ s => BitVec.ofNat 32 n :: (s.mc.history.take n).flatten))
  ∧ Does .mcRead specMcRead (fun c _ => c.flag 0 0 = false) leavesAll
      (fun c s => 1 :: (List.range 5).map fun i => (mcInputOf s (c.arg 0 5 1)).latest.getD i 0)
  ∧ Does .mcStatus specMcStatus anyCase
      (fun c s => if c.flag 0 8 then setMc (fun u => { u with aborts := 0, lost := 0, ovrResults := 0 }) s else s)
      (fun _ s => [BitVec.ofNat 32 (oneIf s.mc.run + oneIf (streamRuns s.mc) * 2 + oneIf (s.mc.sysPos != 0) * 4
          + min 4 s.mc.urgents.length * 8 + min 8 (s.mc.converts.length + abortedConvert s) * 64),
        mcStates s (fun i => i.highState), mcStates s (fun i => i.lowState), BitVec.ofNat 32 s.mc.aborts, BitVec.ofNat 32 s.mc.lost,
        BitVec.ofNat 32 s.mc.ovrResults])

/-- The commands of calibration and maintenance (R531, R534-R536, R538-R548): a measurement or a scrub pass starts when nothing holds its activity
back, and is queued otherwise. It rests on the model's choices of log entries 69 and 70. -/
def Obligations.CalibrationCommands : Prop :=
  Holds .calibMeasure specCalibMeasure 1000
  ∧ FiresLater specCalibMeasure (fun c _ s => c.timed = true ∧ (s.maint.acts.any fun a => a.codes.contains 6) = false
        ∨ c.timed = false ∧ actBlocked s s.maint.acts [6] = false) (fun c e s => startMeasure c e none s)
  ∧ FiresRefused specCalibMeasure .busy (fun c _ s => c.timed = true ∧ (s.maint.acts.any fun a => a.codes.contains 6) = true) []
  ∧ FiresQueued specCalibMeasure (fun c _ s => c.timed = false ∧ actBlocked s s.maint.acts [6] = true)
      (fun c _ s => countWait [6] (setMaint (fun m => { m with acts := m.acts ++ [{
        codes := [6], cmd := c.id, key := c.arg 0 3 0, waitFrom := s.index, clear := s.index, start := none, length := 0, taken := [] }] }) s))
  ∧ Does .calibSliceRead specCalibSliceRead anyCase leavesAll (fun c s =>
      BitVec.ofNat 32 (spareOf s (channelOf s (c.arg 0 1 0))) :: lo32 s.conv.step :: (List.range 33).flatMap fun n =>
        let x := sliceOf s (c.arg 0 1 0) n
        [BitVec.ofNat 32 (unsign 16 x.offset + unsign 16 x.gain * 65536),
         BitVec.ofNat 32 (unsign 16 x.skew + min 65535 (s.conv.step - x.step) * 65536),
         BitVec.ofNat 32 (sat8 x.dOffset + sat8 x.dGain * 256 + sat8 x.dSkew * 65536
           + oneIf ((channelOf s (c.arg 0 1 0)).retired == some n) * 2 ^ 24)])
  ∧ Does .calibTdcRead specCalibTdcRead anyCase leavesAll (fun _ s =>
      BitVec.ofNat 32 s.tdc.spare :: (List.range 13).flatMap fun l =>
        let x := s.tdc.lines.getD l default
        [BitVec.ofNat 32 (serving s l % 16 + min 65535 x.dnl * 65536),
         BitVec.ofNat 32 (min 65535 x.misses + min 65535 (s.tdc.dwells - x.calDwell) * 65536)])
  ∧ Begins .maintStart specMaintStart (fun _ s => actBlocked s s.maint.acts [3] = false)
      (fun c s => countStart [3] none s.index (setMaint (fun m => { m with acts := m.acts ++ [{
        codes := [3], cmd := c.id, key := (c.word 0).toNat, waitFrom := s.index, clear := s.index, start := some s.index, length := 0, taken := [] }] }) s))
  ∧ Queues .maintStart specMaintStart (fun _ s => actBlocked s s.maint.acts [3] = true)
      (fun c s => countWait [3] (setMaint (fun m => { m with acts := m.acts ++ [{
        codes := [3], cmd := c.id, key := (c.word 0).toNat, waitFrom := s.index, clear := s.index, start := none, length := 0, taken := [] }] }) s))
  ∧ (∀ k p s, accepted specMaintCancel k p s = true → ∃ t, exec (.maintCancel k p) s = .next t
      ∧ t.maint.acts.length ≤ s.maint.acts.length ∧ t.pool = s.pool ∧ t.tdc = s.tdc)
  ∧ Does .maintCancel specMaintCancel (fun _ s => s.maint.acts.all Activity.running = true) leavesAll (fun _ _ => [0])
  ∧ Does .maintStatus specMaintStatus anyCase
      (fun c s => if c.flag 0 8 then setMaint (fun m => { m with starts := List.replicate 7 0, waits := List.replicate 7 0, maxWait := List.replicate 7 0 }) s
        else s)
      (fun _ s => BitVec.ofNat 32 (maintMasks s) :: BitVec.ofNat 32 (min 255 (s.maint.acts.filter fun a => !a.running).length)
        :: (List.range 7).flatMap fun a =>
          [BitVec.ofNat 32 (s.maint.starts.getD a 0), BitVec.ofNat 32 (s.maint.waits.getD a 0 + s.maint.maxWait.getD a 0 * 65536)])

/-! ### Display commands -/

/-- The commands of the display (R560-R562, R568, R572-R578). The achieved pixel clock within 10 ppm and the line that the generator is at are free
values. It rests on the model's choices of log entries 72 and 74. -/
def Obligations.DisplayCommands : Prop :=
  (∀ k p s, accepted specDispTiming k p s = true → ∃ t, exec (.dispTiming k p) s = .next t
      ∧ t.disp.timing = timingOf (rowCmd k p s) ∧ t.disp.mode = s.disp.mode
      ∧ (t.disp.timing.hact = s.disp.timing.hact → t.disp.timing.vact = s.disp.timing.vact →
          t.disp.pending = s.disp.pending ∧ t.disp.latched = s.disp.latched)
      ∧ (t.disp.timing.hact ≠ s.disp.timing.hact ∨ t.disp.timing.vact ≠ s.disp.timing.vact →
          t.disp.pending = s.disp.pending.map (fun x => { x with en := false })
          ∧ t.disp.latched.layers = s.disp.latched.layers.map (fun x => { x with en := false })))
  ∧ (∀ k p s, accepted specDispEnable k p s = true → ∃ t, exec (.dispEnable k p) s = .next t
      ∧ t.disp.vblank = (rowCmd k p s).flag 0 8
      ∧ ((rowCmd k p s).arg 0 1 0 = 2 → t.disp.mode = .run)
      ∧ (s.disp.running = false → (rowCmd k p s).arg 0 1 0 = 1 → t.disp.mode = .link)
      ∧ (s.disp.running = false → (rowCmd k p s).arg 0 1 0 = 0 → t.disp.mode = .off))
  ∧ Begins .dispEnable specDispEnable (fun c s => s.disp.mode = .run ∧ s.disp.running = true ∧ s.disp.leaving = none ∧ c.arg 0 1 0 = 0)
      (fun c s => setDisp (fun u => { u with vblank := c.flag 0 8, leaving := some (.off, [c.id]) }) s)
  ∧ Does .dispLayer specDispLayer anyCase (fun c s => setDisp (fun u => { u with pending := modAt u.pending (c.arg 0 2 0) fun l => { l with
        en := c.flag 0 3, format := c.arg 0 7 4, zpos := c.arg 0 10 8, opaque_ := c.flag 0 11, reduce := c.flag 0 12, logmap := c.flag 0 13,
        dir := c.flag 0 14, alpha := c.arg 0 23 16, x := c.arg 1 11 0, y := c.arg 1 27 16, w := c.arg 2 11 0, h := c.arg 2 27 16, handle := c.word 3,
        offset := (c.word 4).toNat, pitch := (c.word 5).toNat, colour := c.word 6, scale := (c.word 7).toNat, bottom := signed 16 (c.arg 8 15 0),
        step := c.arg 8 27 16, lines := c.arg 9 11 0 } }) s) noWords
  ∧ Does .dispPalette specDispPalette anyCase (fun c s => setDisp (fun u => { u with pending := modAt u.pending (c.arg 0 2 0) fun l => { l with
        palette := (List.range (c.plen - 1)).foldl (fun t i => sparseSet 0 t (c.arg 0 15 8 + i) (c.word (1 + i)).toNat) l.palette } }) s) noWords
  ∧ (∀ k p s, accepted specDispCommit k p s = true → ∃ t, exec (.dispCommit k p) s = .next t
      ∧ t.disp.latched.layers = committed (rowCmd k p s) s
      ∧ t.disp.latched.bg = (if (rowCmd k p s).flag 0 8 then (rowCmd k p s).arg 1 23 0 else s.disp.latched.bg)
      ∧ t.disp.pending = s.disp.pending ∧ t.disp.timing = s.disp.timing ∧ t.pool = s.pool)
  ∧ Begins .dispPanelCmd specDispPanelCmd anyCase (fun c s => setDisp (fun u => { u with panel := u.panel ++ [c.id] }) s)
  ∧ (∀ k p s, accepted specDispStatus k p s = true → ∃ t, exec (.dispStatus k p) s = .next t
      ∧ ((rowCmd k p s).flag 0 8 = false → t.disp = s.disp)
      ∧ ((rowCmd k p s).flag 0 8 = true → t.disp.crcMismatches = 0 ∧ t.disp.linkResets = 0 ∧ t.disp.overruns = 0
          ∧ t.disp.lateCommits = 0 ∧ t.disp.teIgnored = 0 ∧ t.disp.teLostEvents = 0 ∧ t.disp.renderErrors = 0 ∧ t.disp.storeUe = 0 ∧ t.disp.layerUe = 0
          ∧ t.disp.mode = s.disp.mode ∧ t.disp.latched = s.disp.latched))

/-! ### Pair commands -/

/-- The commands of the pair (R597, R608-R613), but for PAIR_SWITCH. PAIR_SWITCH (R604, R611): on a PRIMARY with an ELIGIBLE mirror it is held for
W, the first SC boundary 100 µs away or AT, and the mirror learns W; at W the roles exchange. It rests on the model's choices of log entries 77 and
78. -/
def Obligations.PairCommands : Prop :=
  (∀ k p s, accepted specPairConfig k p s = true → (rowCmd k p s).flag 0 0 = true → ∃ t, exec (.pairConfig k p) s = .next t
      ∧ t.pair.linkEn = true ∧ t.pair.strobeEn = (rowCmd k p s).flag 0 1 ∧ t.pair.autoRejoin = (rowCmd k p s).flag 0 2
      ∧ t.pair.yieldMask = (rowCmd k p s).arg 0 7 4 ∧ t.pair.hbTimeout = (rowCmd k p s).arg 0 25 16
      ∧ t.pair.role = s.pair.role ∧ t.mode = s.mode ∧ t.cmds = s.cmds.filter (fun d => d.id != s.nextId))
  ∧ (∀ k p s, accepted specPairConfig k p s = true → (rowCmd k p s).flag 0 0 = false → ∃ t, exec (.pairConfig k p) s = .next t
      ∧ t.pair.linkEn = false ∧ t.pair.link = .down ∧ hasMirror t = false)
  ∧ (∀ k p s, accepted specPairJoin k p s = true → joinReason s = 0 → ∃ t, exec (.pairJoin k p) s = .next t
      ∧ t.pair.role = .mirror ∧ t.pair.condition = .joining ∧ t.mode = .shadow ∧ t.shadowed = .quiet ∧ t.time = s.time ∧ t.pool = s.pool)
  ∧ Answers .pairJoin specPairJoin .busy (fun _ s => joinReason s ≠ 0) leavesAll (fun _ s => [0, 0, BitVec.ofNat 32 (joinReason s)])
  ∧ Does .pairLeave specPairLeave (fun _ s => s.pair.role = .solo) leavesAll (fun _ s => [BitVec.ofNat 32 s.pair.role.code])
  ∧ (∀ k p s, accepted specPairLeave k p s = true → s.pair.role = .primary → ∃ t, exec (.pairLeave k p) s = .next t
      ∧ t.pair.role = .solo ∧ t.mode = s.mode ∧ t.cmds = s.cmds.filter (fun d => d.id != s.nextId) ∧ t.time = s.time)
  ∧ (∀ k p s, accepted specPairLeave k p s = true → s.pair.role = .mirror → (s.cmds.any fun c => c.id == s.nextId) = false → ∃ t, exec (.pairLeave k p) s = .next t
      ∧ t.pair = s.pair ∧ t.mode = s.mode ∧ (t.cmds.any fun c => c.opcode == 0x1102 && c.src == .pairLink) = true
      ∧ (t.cmds.any fun c => c.id == s.nextId && c.phase == .running) = true)
  ∧ (∀ k p s, accepted specPairTakeover k p s = true → ∃ t, exec (.pairTakeover k p) s = .next t
      ∧ t.pair.role = .primary ∧ t.mode = s.shadowed ∧ t.pair.takeovers = satAdd 32 s.pair.takeovers 1 ∧ t.time = s.time ∧ t.pool = s.pool)
  ∧ Does .pairStatus specPairStatus (fun c _ => c.flag 0 8 = false) leavesAll
      (fun _ s => [pairWord s, BitVec.ofInt 32 s.pair.skew, BitVec.ofNat 32 s.pair.mseq, BitVec.ofNat 32 s.pair.divergeMseq,
        BitVec.ofNat 32 s.pair.noMirrorCount, BitVec.ofNat 32 s.pair.takeovers, BitVec.ofNat 32 s.pair.resourceMismatch,
        BitVec.ofNat 32 s.pair.hbMissed, BitVec.ofNat 32 s.pair.relayDropped, BitVec.ofNat 32 s.pair.retrains])
  ∧ (∀ k p s, accepted specPairStatus k p s = true → (rowCmd k p s).flag 0 8 = true → ∃ t, exec (.pairStatus k p) s = .next t
      ∧ t.pair = { s.pair with resourceMismatch := 0, hbMissed := 0, relayDropped := 0, retrains := 0 })
  ∧ (∀ k p s e, s.quiet = true → opcodeOf p = 0x1103 → takesFrom p.src (passTo k s) = true → s.hub.fw.recovery = false →
      startable (rowState k p s) (rowCmd k p s) = true →
      checkCmd specPairSwitch (rowCmd k p s) (rowState k p s) = none →
      e = (if (rowCmd k p s).timed then some (atOf p)
        else if locked s then some (boundaryAfter (rowState k p s) 100000) else none) →
      exec (.pairSwitch k p) s = .next (match e with
        | some w => emit (.pairState (.switchIndex w)) (heldState (rowCmd k p s) e (rowState k p s))
        | none => heldState (rowCmd k p s) none (rowState k p s)))
  ∧ (∀ c w i s, s.quiet = true → firstHeld (fireable s) = some c → c.phase = .held (some w) → c.opcode = 0x1103 → delivering s = true →
      hasMirror s = true → s.pair.otherEligible = true → s.mode ≠ .quiet → s.mode ≠ .shadow → firesIt c i →
      ∃ t, exec i s = .next t ∧ t.pair.role = .mirror ∧ t.pair.condition = .eligible ∧ t.mode = .shadow ∧ t.shadowed = s.mode ∧ t.time = s.time
        ∧ t.pool = s.pool)

/-! ### Diagnostic and firmware commands -/

/-- The commands of diagnostics and of the black box (R628, R639-R645). The counts of corrections and of scrub passes are free values. It rests on
the model's choices of log entries 90 and 110. -/
def Obligations.DiagnosticCommands : Prop :=
  Does .diagReset specDiagReset (fun c _ => c.src ≠ .pairLink)
      (fun _ s => holdInternal 0x1200 [0x52455345#32] (if locked s then some (boundaryAfter s 100000) else none) s) noWords
  ∧ Does .diagFault specDiagFault (fun c _ => c.flag 0 0 = false) leavesAll (fun _ s => [s.faultCause])
  ∧ Does .diagFault specDiagFault (fun c _ => c.flag 0 0 = true) (fun _ s => { s with faultCause := s.faultCause &&& s.faultActive })
      (fun _ s => [s.faultCause])
  ∧ Does .diagEcc specDiagEcc anyCase leavesAll (fun c s =>
      [BitVec.ofNat 32 (s.hub.eccs.getD (c.arg 0 2 0) default).ce, BitVec.ofNat 32 (s.hub.eccs.getD (c.arg 0 2 0) default).ue,
        BitVec.ofNat 32 (s.hub.eccs.getD (c.arg 0 2 0) default).passes])
  ∧ Does .bbRead specBbRead (fun c _ => c.flag 1 17 = false) leavesAll
      (fun c s => BitVec.ofNat 32 (bbSelect c s).length :: (bbSelect c s).flatMap bbWords)
  ∧ Does .bbRead specBbRead (fun c s => c.flag 1 17 = true ∧ bbSelect c s ≠ []
        ∧ hostFails s (c.arg64 2) (bytesOfWords ((bbSelect c s).flatMap bbWords)).length = false)
      (fun c s => emit (.hostWrite true (c.arg64 2) (bytesOfWords ((bbSelect c s).flatMap bbWords))) s)
      (fun c s => [BitVec.ofNat 32 (bbSelect c s).length])
  ∧ Does .bbRead specBbRead (fun c s => c.flag 1 17 = true ∧ bbSelect c s = []) leavesAll (fun _ _ => [0])
  ∧ Answers .bbRead specBbRead .internal (fun c s => c.flag 1 17 = true ∧ cmdById s c.id = some c
        ∧ hostFails s (c.arg64 2) (bytesOfWords ((bbSelect c s).flatMap bbWords)).length = true)
      (fun c s => refuseEffects c .internal s) noWords
  ∧ Does .bbFreeze specBbFreeze anyCase (fun _ s => bbFreeze ((s.bb.live.getLast?.map fun e => e.event).getD 0) s)
      (fun _ s => [BitVec.ofNat 32 (bbFreeze ((s.bb.live.getLast?.map fun e => e.event).getD 0) s).bb.freezeSeq])
  ∧ (∀ k p s, accepted specBbClear k p s = true → ∃ t, exec (.bbClear k p) s = .next t
      ∧ ((rowCmd k p s).flag 0 0 = true → t.bb.live = [] ∧ t.bb.nextSeq = 0)
      ∧ ((rowCmd k p s).flag 0 0 = false → t.bb.live = s.bb.live ∧ t.bb.nextSeq = s.bb.nextSeq)
      ∧ ((rowCmd k p s).flag 0 1 = true → t.bb.frozen = none)
      ∧ ((rowCmd k p s).flag 0 1 = false → t.bb.frozen = s.bb.frozen))
  ∧ Does .diagWatchdog specDiagWatchdog anyCase (fun c s => { s with hub := { s.hub with wdtMs := c.arg 0 9 0 } }) noWords

/-- The commands of the firmware slots (R636, R637, R646-R649): a load at offset 0 erases the slot first, one that goes on is written at once, and a
boot of the other slot stays outstanding until its image is ready. It rests on the model's choices of log entries 88 and 89. -/
def Obligations.FirmwareCommands : Prop :=
  Does .fwStatus specFwStatus anyCase leavesAll (fun _ s =>
      [BitVec.ofNat 32 (s.hub.fw.running + s.hub.fw.preferred % 2 * 2 + oneIf (s.hub.fw.slots.getD 0 default).valid * 4
          + oneIf (s.hub.fw.slots.getD 1 default).valid * 8 + oneIf s.hub.fw.recovery * 16),
        runningHeader s 3, runningHeader s 4, runningHeader s 5, BitVec.ofNat 32 s.hub.fw.fusedSecver, BitVec.ofNat 32 s.hub.fw.loadOffset])
  ∧ Begins .fwLoad specFwLoad (fun c _ => c.word 1 = 0)
      (fun c s => { s with hub := { s.hub with fw := { noteValid (c.arg 0 0 0) false s.hub.fw with
        erase := some { cmd := c.id, slot := c.arg 0 0 0, data := bytesOfWords ((c.params.take c.plen).drop 2) }, loadOffset := 0 } } })
  ∧ (∀ data : List Byte, Does .fwLoad specFwLoad (fun c _ => c.word 1 ≠ 0 ∧ data = bytesOfWords ((c.params.take c.plen).drop 2))
      (fun c s => { s with hub := { s.hub with fw := { s.hub.fw with
        slots := modAt s.hub.fw.slots (c.arg 0 0 0) (flashWrite (c.word 1).toNat data), loadOffset := (c.word 1).toNat + data.length } } })
      (fun c _ => [BitVec.ofNat 32 ((c.word 1).toNat + data.length)]))
  ∧ Does .fwVerify specFwVerify anyCase
      (fun c s => { s with hub := { s.hub with fw := noteValid (c.arg 0 0 0) (validImage s.hub.fw (c.arg 0 0 0)) s.hub.fw } })
      (fun c s => flagWord (validImage s.hub.fw (c.arg 0 0 0)) ::
        (if flashWord (s.hub.fw.slots.getD (c.arg 0 0 0) default) 0 == 0x4A5A4E01#32
         then (List.range 5).map (fun i => flashWord (s.hub.fw.slots.getD (c.arg 0 0 0) default) (i + 1)) else List.replicate 5 0))
  ∧ Does .fwActivate specFwActivate (fun c s => s.hub.fw.recovery = false ∧ c.arg 0 0 0 = s.hub.fw.running) leavesAll (fun _ s => [runningHeader s 3])
  ∧ Begins .fwActivate specFwActivate (fun c s => s.hub.fw.recovery = false ∧ c.arg 0 0 0 ≠ s.hub.fw.running)
      (fun c s => { s with hub := { s.hub with fw := { s.hub.fw with
        activate := some { cmd := c.id, slot := c.arg 0 0 0, prefer := c.flag 0 1, raise := c.flag 0 2 } } } })

/-! ### Mode changes -/

/-- SYS_MODE (R106-R110): it is held for AT or for the first SC boundary 10 µs away; from its effective index on the mode is the one it names. It
rests on the model's choices of log entries 13 and 18. -/
def Obligations.SystemMode : Prop :=
  Holds .sysMode specSysMode 10000
  ∧ (∀ c e i s m, due specSysMode c e s = true → firesIt c i → Mode.ofCode (c.arg 0 2 0) = some m →
      ∃ t, exec i s = .next t ∧ runMode t = m ∧ t.time = s.time ∧ t.pair.role = s.pair.role)

/-! ### Register and interface events -/

/-- The register accesses over PCIe (R66, R69-R71, R73, R82-R84). What a write of a register of a queue pair does (R66, R70): the addresses and
sizes hold still while the pair is enabled, the coalescing does not, and the read-only and reserved locations ignore it. It rests on the model's
choices of log entries 22, 24 and 111. -/
def Obligations.RegisterEvents : Prop :=
  (∀ q v, Event (fun k => .sqTailDoorbell k q v)
      (fun _ s => s.hub.pcieUp = true ∧ ((qpOf s q.val).enabled = false ∨ (qpOf s q.val).err = true))
      (fun _ s => setQp q.val (fun p => { p with sqTail := v.toNat }) s))
  ∧ (∀ q v, Event (fun k => .sqTailDoorbell k q v)
      (fun _ s => s.hub.pcieUp = true ∧ (qpOf s q.val).enabled = true ∧ (qpOf s q.val).err = false ∧ v.toNat < (qpOf s q.val).sqEntries
        ∧ (qpOf s q.val).sqWork ≤ (v.toNat + (qpOf s q.val).sqEntries - (qpOf s q.val).sqHead) % (qpOf s q.val).sqEntries)
      (fun _ s => setQp q.val (fun p => { p with sqTail := v.toNat }) s))
  ∧ (∀ q v, Event (fun k => .sqTailDoorbell k q v)
      (fun _ s => s.hub.pcieUp = true ∧ (qpOf s q.val).enabled = true ∧ (qpOf s q.val).err = false ∧ (qpOf s q.val).sqEntries ≤ v.toNat)
      (fun _ s => latchGint 0 (setQp q.val (fun p => { p with err := true, errCode := 1 }) s)))
  ∧ (∀ q v, Event (fun k => .rqHeadWrite k q v)
      (fun _ s => s.hub.pcieUp = true ∧ (qpOf s q.val).enabled = true ∧ (qpOf s q.val).err = false ∧ v.toNat < (qpOf s q.val).rqEntries
        ∧ (v.toNat + (qpOf s q.val).rqEntries - (qpOf s q.val).rqHead) % (qpOf s q.val).rqEntries ≤ (qpOf s q.val).rqUsed)
      (fun _ s => setQp q.val (fun p => { p with
        rqHead := v.toNat,
        rq := p.rq.drop ((v.toNat + (qpOf s q.val).rqEntries - (qpOf s q.val).rqHead) % (qpOf s q.val).rqEntries) }) s))
  ∧ (∀ q v, Event (fun k => .rqHeadWrite k q v)
      (fun _ s => s.hub.pcieUp = true ∧ (qpOf s q.val).enabled = true ∧ (qpOf s q.val).err = false ∧ (qpOf s q.val).rqEntries ≤ v.toNat)
      (fun _ s => latchGint 1 (setQp q.val (fun p => { p with err := true, errCode := 2 }) s)))
  ∧ (∀ q v, Event (fun k => .qpEnable k q v)
      (fun _ s => s.hub.pcieUp = true ∧ (qpOf s q.val).enabled = false ∧ enableError (qpOf s q.val) = 0 ∧ (qpOf s q.val).heldReplies = [])
      (fun _ s => setQp q.val (fun p => { p with
        ctrl := (v ||| 1#32) &&& 0x3F0F#32, sqHead := (qpOf s q.val).sqTail, rqTail := (qpOf s q.val).rqHead, err := false, errCode := 0, rq := [],
        unsignalled := 0, heldReplies := [] }) s))
  ∧ (∀ q v, EventTo (fun k => .qpEnable k q v)
      (fun _ s => s.hub.pcieUp = true ∧ (qpOf s q.val).enabled = false ∧ enableError (qpOf s q.val) ≠ 0 ∧ q.val < s.qps.length)
      (fun _ s t => (qpOf t q.val).enabled = false ∧ (qpOf t q.val).err = true ∧ (qpOf t q.val).errCode = enableError (qpOf s q.val)))
  ∧ (∀ q v, Event (fun k => .qpDisable k q v) (fun _ s => s.hub.pcieUp = true)
      (fun _ s => setQp q.val (fun p => { p with ctrl := (v &&& ~~~1#32) &&& 0x3F0F#32 }) s))
  ∧ (∀ v, Event (fun k => .gintStatusClear k v) (fun _ s => s.hub.pcieUp = true)
      (fun _ s => { s with glob := { s.glob with gintStatus := s.glob.gintStatus &&& ~~~v } }))
  ∧ Event (fun k => .indexLoRead k 4 0x110) (fun _ s => s.hub.pcieUp = true)
      (fun _ s => { s with glob := { s.glob with indexHi := hi32 s.index }, out := s.out ++ [.readData (wordBytes (lo32 s.index))] })
  ∧ (∀ size off, Event (fun k => .indexLoRead k size off) (fun _ s => s.hub.pcieUp = true ∧ (size = 1 ∨ size = 2) ∧ off % size = 0 ∧ off / 4 ≠ 68)
      (fun _ s => emit (.readData (((wordBytes (readReg s (off / 4 * 4))).drop (off % 4)).take size)) s))
  ∧ (∀ off, Event (fun k => .indexLoRead k 8 off) (fun _ s => s.hub.pcieUp = true ∧ off % 8 = 0 ∧ off ≠ 0x110)
      (fun _ s => emit (.readData (wordBytes (readReg s off) ++ wordBytes (readReg s (off + 4)))) s))
  ∧ Event (fun k => .indexLoRead k 8 0x110) (fun _ s => s.hub.pcieUp = true)
      (fun _ s => { s with glob := { s.glob with indexHi := hi32 s.index },
                           out := s.out ++ [.readData (wordBytes (lo32 s.index) ++ wordBytes (hi32 s.index))] })
  ∧ (∀ bar off v, Event (fun k => .registerWrite k bar 4 off v) (fun _ s => s.hub.pcieUp = true ∧ off % 4 = 0)
      (fun _ s => writeBar bar off (v.extractLsb' 0 32) s))
  ∧ (∀ bar off v, Event (fun k => .registerWrite k bar 8 off v) (fun _ s => s.hub.pcieUp = true ∧ off % 8 = 0)
      (fun _ s => writeBar bar (off + 4) (v.extractLsb' 32 32) (writeBar bar off (v.extractLsb' 0 32) s)))
  ∧ (∀ bar size off v, Event (fun k => .registerWrite k bar size off v) (fun _ _ => size ≠ 4 ∧ size ≠ 8) (fun _ s => s))
  ∧ (∀ q, Event (fun k => .coalTimeExpiry k q)
      (fun _ s => bit (qpOf s q.val).ctrl 3 = true ∧ field (qpOf s q.val).coal 23 8 ≠ 0 ∧ 0 < (qpOf s q.val).unsignalled)
      (fun _ s => raiseVector (field (qpOf s q.val).ctrl 13 8) (setQp q.val (fun p => { p with unsignalled := 0 }) s)))
  ∧ (∀ (q : Nat) (v : Word) (s : State),
    ((qpOf s q).enabled = true → writeQpReg q 0x00 v s = s ∧ writeQpReg q 0x04 v s = s ∧ writeQpReg q 0x08 v s = s ∧ writeQpReg q 0x20 v s = s
      ∧ writeQpReg q 0x24 v s = s ∧ writeQpReg q 0x28 v s = s ∧ writeQpReg q 0x38 v s = s ∧ writeQpReg q 0x3C v s = s ∧ writeQpReg q 0x58 v s = s
      ∧ writeQpReg q 0x5C v s = s)
    ∧ ((qpOf s q).enabled = false → q < s.qps.length → readQpReg (writeQpReg q 0x00 v s) q 0x00 = v ∧ readQpReg (writeQpReg q 0x04 v s) q 0x04 = v
      ∧ readQpReg (writeQpReg q 0x08 v s) q 0x08 = v &&& 0xF#32 ∧ readQpReg (writeQpReg q 0x28 v s) q 0x28 = v &&& 0xF#32
      ∧ readQpReg (writeQpReg q 0x0C v s) q 0x0C = v ∧ readQpReg (writeQpReg q 0x2C v s) q 0x2C = v)
    ∧ (q < s.qps.length → readQpReg (writeQpReg q 0x48 v s) q 0x48 = v &&& 0x00FFFFFF#32)
    ∧ writeQpReg q 0x10 v s = s ∧ writeQpReg q 0x30 v s = s ∧ writeQpReg q 0x44 v s = s ∧ writeQpReg q 0x50 v s = s ∧ writeQpReg q 0x54 v s = s)

/-- A command that the device fetches from a queue pair, that the management SPI submits, or that a datagram of the control port brings, enters as
its packet's words say (R41, R60, R72, R79, R80): the pair has moved past the entry, or the port remembers the packet. The answers of the SPI, and the
datagrams that are not taken (R78-R81). It rests on the model's choices of log entries 6, 25, 26, 27, 110 and 112. -/
def Obligations.FetchedCommands : Prop :=
  (∀ q bytes got k s, nextPair (passTo k s) = some (Fin.val q) →
      hostFails s (join64 (qpOf s q.val).sqBaseLo (qpOf s q.val).sqBaseHi + 64 * (qpOf s q.val).sqHead) 64 = false →
      exec (.commandFetch k q (.entry bytes got)) s
        = .next (finish s (submitCmd { src := .qp q, words := wordsOfBytes (bytes.take 64), fetched := got }
            (setQp q.val (fun x => { x with sqHead := (x.sqHead + 1) % x.sqEntries, cmdCount := x.cmdCount + 1 })
              { passTo k s with glob := { s.glob with turn := q.val } }))))
  ∧ (∀ q, Event (fun k => .commandFetch k q .dmaError) (fun _ s => nextPair s = some (Fin.val q))
      (fun _ s => latchGint 2 (setQp q.val (fun p => { p with err := true, errCode := 4 }) { s with glob := { s.glob with turn := q.val } })))
  ∧ (∀ q got, Event (fun k => .commandFetch k q got) (fun _ s => nextPair s ≠ some (Fin.val q)) (fun _ s => s))
  ∧ (∀ bytes words rest k s, takePacket bytes = some (words, rest) → submitOk (passTo k s) = true →
      exec (.spiSubmit k bytes) s = .next (finish s (submitCmd { src := .spi, words := words, fetched := none } (passTo k s))))
  ∧ (∀ bytes, Event (fun k => .spiSubmit k bytes) (fun _ s => takePacket bytes = none ∨ submitOk s = false)
      (fun _ s => { s with spi := { s.spi with lost := true } }))
  ∧ Event (fun k => .spiReadReply k false) (fun _ s => s.spi.unread = []) (fun _ s => emit (.readData (List.replicate 32 0xFF#8)) s)
  ∧ (∀ i e l, Event (fun k => .spiReadReply k false) (fun _ s => s.spi.unread = (i, e) :: l)
      (fun _ s => emit (.readData (bytesOfWords (entryWords e))) { s with spi := { s.spi with unread := l } }))
  ∧ Event (fun k => .spiReadReply k true) always (fun _ s => s)
  ∧ Event (fun k => .spiReadStatus k) always
      (fun _ s => { s with spi := { s.spi with lost := false },
                           out := s.out ++ [.readData [BitVec.ofNat 8 (oneIf (mspiIrq s) + oneIf (submitOk s) * 2 + oneIf s.spi.lost * 4)]] })
  ∧ (∀ snd udp bytes, Event (fun k => .ctlportDatagram k snd udp bytes)
      (fun _ s => s.ctlport.portEn.testBit (Sender.link snd) = true ∧ udp = s.ctlport.udpPort ∧ s.ready = true ∧ coresRun s = true
        ∧ (8192 < bytes.length ∨ bytes = [] ∨ (s.ctlport.slots.any fun x => slotAdmits x snd) = false ∨ splitPackets bytes.length bytes = none))
      (fun _ s => { countRx snd.link id s with ctlport := { s.ctlport with discarded := satAdd 32 s.ctlport.discarded 1 } }))
  ∧ (∀ snd udp bytes, Event (fun k => .ctlportDatagram k snd udp bytes)
      (fun _ s => s.ctlport.portEn.testBit (Sender.link snd) = false ∨ udp ≠ s.ctlport.udpPort) (fun _ s => discardRx snd.link s))
  ∧ (∀ snd udp bytes words r e, Event (fun k => .ctlportDatagram k snd udp bytes)
      (fun _ s => s.ctlport.portEn.testBit (Sender.link snd) = true ∧ udp = s.ctlport.udpPort ∧ s.ready = true ∧ coresRun s = true
        ∧ datagramPackets snd bytes s = some [words]
        ∧ (s.ctlport.remembered.find? fun r => sameSender r.sender snd && r.packet == words) = some r ∧ r.reply = some e)
      (fun _ s => sendDatagram snd [e] { countRx snd.link id s with ctlport := { s.ctlport with last := some snd } }))

/-- The notice buffers (R76): once its destination has room, NOTICE_LOSS goes first after a loss, else the oldest held notice; the buffer gives up what
the destination took. A notice that finds its destination's buffer of 64 full takes the place of the oldest held one, and NOTICE_LOST_COUNT counts the
loss (R76). It rests on the model's choice of log entry 110. -/
def Obligations.NoticeEvents : Prop :=
  (∀ d, Event (fun k => .noticeDelivery k d) (fun _ s => noticeRoom s (Fin.val d) = true ∧ 0 < (noticeBuf s d.val).lost)
      (fun _ s =>
        let x := putNotice d.val (noticeEntry 0x0001 [BitVec.ofNat 32 (noticeBuf s d.val).lost] s.index) s
        if x.2 then setNoticeBuf d.val (fun b => { b with lost := 0 }) x.1 else x.1))
  ∧ (∀ d e l, Event (fun k => .noticeDelivery k d)
      (fun _ s => noticeRoom s (Fin.val d) = true ∧ (noticeBuf s d.val).lost = 0 ∧ (noticeBuf s d.val).held = e :: l)
      (fun _ s =>
        let x := putNotice d.val e s
        if x.2 then setNoticeBuf d.val (fun b => { b with held := l }) x.1 else x.1))
  ∧ (∀ d, Event (fun k => .noticeDelivery k d) (fun _ s => noticeRoom s (Fin.val d) = false) (fun _ s => s))
  ∧ (∀ (d : Nat) (e : Entry) (s : State), d < s.notices.length →
    ((noticeBuf s d).held.length < 64 → (noticeBuf (holdNotice d e s) d).held = (noticeBuf s d).held ++ [e]
      ∧ (noticeBuf (holdNotice d e s) d).lost = (noticeBuf s d).lost)
    ∧ (64 ≤ (noticeBuf s d).held.length → (noticeBuf (holdNotice d e s) d).held = (noticeBuf s d).held.tail ++ [e]
      ∧ (noticeBuf (holdNotice d e s) d).lost = (noticeBuf s d).lost + 1
      ∧ (holdNotice d e s).glob.noticeLostCount = satAdd 32 s.glob.noticeLostCount 1))

/-! ### Memory events -/

/-- The events of the pool (R99, R102, R115, R116, R546): a deferred free whose last reference has ended completes, and a transfer ends: a write
stores its bytes where it names, and every other byte of the pool stays. It rests on the model's choices of log entries 28 and 32. -/
def Obligations.MemoryEvents : Prop :=
  (∀ slot p id, EventTo (fun k => .memFreeRelease k slot)
      (fun _ s => partAt s slot = some p ∧ p.freeCmd = some id ∧ refsOf s p.handle = 0 ∧ p.nextAu = none)
      (fun _ s t => partAt t slot = none ∧ t.time = s.time ∧ (t.cmds.any fun c => c.id == id) = false))
  ∧ (∀ cmd data errors x c, Event (fun k => .memTransferEnd k cmd true data errors)
      (fun _ s => (s.pool.transfers.find? fun t => t.cmd == cmd) = some x ∧ cmdById s cmd = some c ∧ x.write = true ∧ c.src ≠ .pairLink
        ∧ hostFails s x.host x.length = false)
      (fun _ s => complete c .ok [0] s.index (poolWrite x.slot x.offset (data.take x.length)
        { s with pool := { s.pool with transfers := s.pool.transfers.filter (fun t => t.cmd != cmd) } })))
  ∧ (∀ cmd data errors x c p, EventTo (fun k => .memTransferEnd k cmd true data errors)
      (fun _ s => (s.pool.transfers.find? fun t => t.cmd == cmd) = some x ∧ cmdById s cmd = some c ∧ x.write = true ∧ c.src ≠ .pairLink
        ∧ hostFails s x.host x.length = false
        ∧ partAt s x.slot = some p ∧ cellsWf p.data = true ∧ x.offset + (data.take x.length).length ≤ p.au * 1048576)
      (fun _ s t => (∀ i, i < (data.take x.length).length → poolByte t x.slot (x.offset + i) = data.getD i 0)
        ∧ (∀ slot o, (slot ≠ x.slot ∨ o < x.offset ∨ x.offset + (data.take x.length).length ≤ o) → poolByte t slot o = poolByte s slot o)))
  ∧ (∀ cmd data x c p, Event (fun k => .memTransferEnd k cmd true data [])
      (fun _ s => (s.pool.transfers.find? fun t => t.cmd == cmd) = some x ∧ cmdById s cmd = some c ∧ x.write = false ∧ c.src ≠ .pairLink
        ∧ hostFails s x.host x.length = false ∧ partAt s x.slot = some p)
      (fun _ s => complete c .ok [BitVec.ofNat 32 (readRange s p x.offset x.length).2] s.index
        (emit (.hostWrite true x.host (readRange s p x.offset x.length).1)
          { s with
            pool := { s.pool with transfers := s.pool.transfers.filter (fun t => t.cmd != cmd) }
            free := s.free + x.length })))
  ∧ (∀ cmd ok data errors x c, EventTo (fun k => .memTransferEnd k cmd ok data errors)
      (fun _ s => (s.pool.transfers.find? fun t => t.cmd == cmd) = some x ∧ cmdById s cmd = some c ∧ c.src ≠ .pairLink
        ∧ (ok = false ∨ hostFails s x.host x.length = true))
      (fun _ s t => t.pool.parts = s.pool.parts ∧ t.pool.transfers = s.pool.transfers.filter (fun t => t.cmd != cmd)
        ∧ (t.cmds.any fun d => d.id == cmd) = false))
  ∧ (∀ slot corrected found, EventTo (fun k => .scrub k slot corrected found)
      (fun _ s => slot < 256 ∧ (partAt s slot).isSome = true ∧ s.pool.scrubPeriod ≠ 0 ∧ coresRun s = true
        ∧ (s.maint.acts.any fun a => a.codes.contains 3) = false)
      (fun _ s t => t.maint.scrubFrom = none ∧ t.pool.ceTotal = satAdd 32 s.pool.ceTotal corrected ∧ t.time = s.time ∧ t.cmds = s.cmds))
  ∧ (∀ slot corrected found, Event (fun k => .scrub k slot corrected found) (fun _ s => slot < 256 ∧ s.pool.scrubPeriod = 0) (fun _ s => s))
  ∧ (∀ slot corrected found, Event (fun k => .scrub k slot corrected found) (fun _ _ => 256 ≤ slot)
      (fun _ s => countStore (slot - 256) corrected found.length 1 s))
  ∧ (∀ found a, EventTo (fun k => .scrubPassEnd k found)
      (fun _ s => (s.maint.acts.find? fun a => a.running && a.codes.contains 3) = some a)
      (fun _ s t => (t.cmds.any fun c => c.id == a.cmd) = false ∧ (t.maint.acts.any fun x => x.cmd == a.cmd) = false ∧ t.time = s.time))

/-! ### Time events -/

/-- The state with JUMP as it is final. -/
def jumpOf (measured : Int) (s : State) : State := { s with time := { s.time with jump := resolveJump s.time measured } }

/-- The state in which JUMP is final, and REF_RETURN has told it (R137), with SLEW_REFUSED or without (R138). -/
def jumpFinal (refused : Bool) (measured : Int) (s : State) : State :=
  notify 0x0204 (i64Words (resolveJump s.time measured)
      ++ [BitVec.ofNat 32 ((if jumpAmbiguous s then 1 else 0) + (if s.time.ppsDelta.isSome then 2 else 0) + (if refused then 4 else 0))]) s.index
    (setTime (fun t => { t with jump := resolveJump s.time measured, jumpKnown := true, ambiguous := jumpAmbiguous s }) s)

/-- JUMP becomes final now: the reference has qualified, no wait for PPS_IN is left, and it was not final (R137). -/
abbrev jumpDue (s : State) : Prop := s.time.tb = .qualified ∧ s.time.ppsWait = false ∧ s.time.jumpKnown = false

/-- A TIMED resume with SLEW that is held would be refused (R158). -/
def heldRefused (measured : Int) (s : State) : Bool := (heldResumes s).any (fun c => !c.flag 0 0) && !slewAllowed (jumpOf measured s)

/-- The loss of the reference and its return (R132, R136, R141): holdover with the tracker mean, the qualification, and a muted SPLL that waits. The
return policy (R137-R139, R141, R158): JUMP becomes final, and the device waits, slews or steps; a slew ends in the lock window. It rests on the
model's choices of log entries 36, 38 and 39. -/
def Obligations.ReferenceEvents : Prop :=
  (∀ dac, Event (fun k => .refMissingEdge k dac) (fun _ s => s.time.tb = .locked ∧ s.time.syncs = [])
      (fun _ s => setTime (fun t => { t with refPresent := false, qualifying := false })
        (notify 0x0203 (u64Words s.index ++ [0#32]) s.index (setTime (fun t => { t with
          tb := .holdover, holdDac := dac % 2 ^ 20, holdStart := s.index, tjEntry := t.tj, qualifying := false, jumpKnown := false, ppsWait := false,
          ppsDelta := none, ppsHeld := t.ppsAt, refLossCount := satAdd 32 t.refLossCount 1, syncs := [] }) s))))
  ∧ (∀ dac, EventTo (fun k => .refMissingEdge k dac) (fun _ s => s.time.tb = .locked ∨ s.time.tb = .slew)
      (fun _ s t => t.time.tb = .holdover ∧ t.time.syncs = [] ∧ t.time.holdStart = s.index ∧ t.time.refPresent = false
        ∧ (∀ w ∈ s.time.syncs, (t.cmds.any fun c => c.id == w.cmd) = false)))
  ∧ (∀ dac, Event (fun k => .refMissingEdge k dac) (fun _ s => s.time.tb = .qualified)
      (fun _ s => setTime (fun t => { t with
        tb := .holdover, jumpKnown := false, ppsWait := false, ppsDelta := none, refLossCount := satAdd 32 t.refLossCount 1, refPresent := false,
        qualifying := false }) s))
  ∧ (∀ dac, Event (fun k => .refMissingEdge k dac) (fun _ s => (s.time.tb = .holdover ∨ s.time.tb = .waitRef) ∧ s.time.qualifying = true)
      (fun _ s => setTime (fun t => { t with refLossCount := satAdd 32 t.refLossCount 1, refPresent := false, qualifying := false }) s))
  ∧ (∀ dac, Event (fun k => .refMissingEdge k dac) (fun _ s => s.time.tb = .relocking ∧ s.time.relockStep = none)
      (fun _ s => setTime (fun t => { t with tb := .waitRef, relockStep := none, refPresent := false, qualifying := false }) s))
  ∧ (∀ dac ppb, Event (fun k => .refFreqCheck k dac ppb) (fun _ s => 200000 < ppb.natAbs ∧ s.time.tb = .locked ∧ s.time.syncs = [])
      (fun _ s => notify 0x0203 (u64Words s.index ++ [1#32]) s.index (setTime (fun t => { t with
          tb := .holdover, holdDac := dac % 2 ^ 20, holdStart := s.index, tjEntry := t.tj, qualifying := true, jumpKnown := false, ppsWait := false,
          ppsDelta := none, ppsHeld := t.ppsAt, refLossCount := satAdd 32 t.refLossCount 1, syncs := [] }) s)))
  ∧ (∀ dac ppb, Event (fun k => .refFreqCheck k dac ppb) (fun _ _ => ppb.natAbs ≤ 200000) (fun _ s => s))
  ∧ Event (fun k => .refEdgesReturn k) always
      (fun _ s => setTime (fun t => { t with refPresent := true, qualifying := t.tb == .holdover || t.tb == .waitRef }) s)
  ∧ (∀ ppb, Event (fun k => .refQualExpiry k ppb)
      (fun _ s => s.time.refPresent = true ∧ s.time.qualifying = true ∧ (s.time.tb = .holdover ∨ s.time.tb = .waitRef) ∧ 1000 < ppb.natAbs)
      (fun _ s => setTime (fun t => { t with refLossCount := satAdd 32 t.refLossCount 1 }) s))
  ∧ (∀ ppb, Event (fun k => .refQualExpiry k ppb)
      (fun _ s => s.time.refPresent = true ∧ s.time.qualifying = true ∧ s.time.tb = .holdover ∧ ppb.natAbs ≤ 1000)
      (fun _ s => setTime (fun t => { t with
        tb := .qualified, qualifying := false, jumpKnown := false, ppsDelta := none, ppsWait := t.ppsDisambig && t.ppsInEn,
        returnPolicy := (t.policy, t.slewMax) }) s))
  ∧ (∀ ppb, Event (fun k => .refQualExpiry k ppb)
      (fun _ s => s.time.refPresent = true ∧ s.time.qualifying = true ∧ s.time.tb = .waitRef ∧ ppb.natAbs ≤ 1000)
      (fun _ s => setTime (fun t => { t with tb := .relocking, qualifying := false, estimatedRelock := true, lockAttempts := 0 }) s))
  ∧ Event (fun k => .ppsDisambigTimeout k) always (fun _ s => setTime (fun t => { t with ppsWait := false }) s)
  ∧ (∀ m, Event (fun k => .jumpKnown k m) (fun _ s => s.time.tb ≠ .qualified ∨ s.time.ppsWait = true) (fun _ s => s))
  ∧ (∀ m, Event (fun k => .jumpKnown k m) (fun _ s => s.time.tb = .qualified ∧ s.time.ppsWait = false ∧ s.time.jumpKnown = true)
      (fun _ s => setTime (fun t => { t with jump := m }) s))
  ∧ (∀ m, Event (fun k => .jumpKnown k m)
      (fun _ s => jumpDue s ∧ s.time.resume = none ∧ (s.time.returnPolicy.1 = 0 ∨ heldResumes s ≠ []))
      (fun _ s => jumpFinal (heldRefused m s) m s))
  ∧ (∀ m, Event (fun k => .jumpKnown k m)
      (fun _ s => jumpDue s ∧ s.time.resume = none ∧ s.time.returnPolicy.1 = 1 ∧ heldResumes s = []
        ∧ slewWithin (jumpOf m s) s.time.returnPolicy.2 = true)
      (fun _ s => startSlew (jumpFinal false m s)))
  ∧ (∀ m, Event (fun k => .jumpKnown k m)
      (fun _ s => jumpDue s ∧ s.time.resume = none ∧ s.time.returnPolicy.1 = 1 ∧ heldResumes s = []
        ∧ slewWithin (jumpOf m s) s.time.returnPolicy.2 = false)
      (fun _ s => jumpFinal true m s))
  ∧ (∀ m, Event (fun k => .jumpKnown k m) (fun _ s => jumpDue s ∧ s.time.resume = none ∧ s.time.returnPolicy.1 = 2 ∧ heldResumes s = [])
      (fun _ s => setTime (fun t => { t with
        step := some { boundary := boundaryAfter s 10000, cmd := none, fromSlew := false, remeasure := false }, resume := none })
        (jumpFinal false m s)))
  ∧ (∀ m r c, Event (fun k => .jumpKnown k m)
      (fun _ s => jumpDue s ∧ s.time.resume = some r ∧ r.step = false ∧ slewAllowed (jumpOf m s) = true ∧ cmdById s r.cmd = some c
        ∧ c.src ≠ .pairLink)
      (fun _ s => complete c .ok (1#32 :: (i64Words (resolveJump s.time m) ++ i64Words 0)) s.index (startSlew (jumpFinal false m s))))
  ∧ (∀ m r c, Event (fun k => .jumpKnown k m)
      (fun _ s => jumpDue s ∧ s.time.resume = some r ∧ r.step = false ∧ slewAllowed (jumpOf m s) = false ∧ cmdById s r.cmd = some c
        ∧ c.src ≠ .pairLink)
      (fun _ s => complete c .ok (0#32 :: (i64Words (resolveJump s.time m) ++ i64Words 0)) s.index
        (setTime (fun t => { t with resume := none }) (jumpFinal true m s))))
  ∧ (∀ m r, Event (fun k => .jumpKnown k m) (fun _ s => jumpDue s ∧ s.time.resume = some r ∧ r.step = true)
      (fun _ s => setTime (fun t => { t with
        step := some { boundary := boundaryAfter s 10000, cmd := some r.cmd, fromSlew := false, remeasure := false }, resume := none })
        (jumpFinal (heldRefused m s) m s)))
  ∧ Event (fun k => .slewEnd k) (fun _ s => s.time.tb = .slew ∧ s.time.resume = none ∧ s.time.step = none ∧ heldResumes s = [])
      (fun _ s => notify 0x0206 (u64Words s.index) s.index (setTime (fun t => { t with tb := .locked, jumpKnown := false }) s))
  ∧ EventTo (fun k => .slewEnd k) (fun _ s => s.time.tb = .slew)
      (fun _ s t => t.time = { s.time with tb := .locked, jumpKnown := false, resume := none, step := none }
        ∧ (∀ r, s.time.resume = some r → (t.cmds.any fun c => c.id == r.cmd) = false)
        ∧ (∀ w id, s.time.step = some w → w.cmd = some id → (t.cmds.any fun c => c.id == id) = false)
        ∧ (∀ d ∈ heldResumes s, (t.cmds.any fun c => c.id == d.id) = false))
  ∧ Event (fun k => .slewEnd k) (fun _ s => s.time.tb ≠ .slew) (fun _ s => s)

/-- An unlock (R85, R127, R129-R131): samples end at a group boundary and the SPLL relocks, or waits for a reference; the fourth failed attempt sets
the CLOCK fault. A confirmed lock (R124, R125, R127, R139): the samples resume at the index that the SYNC epoch gives the re-phase edge, or at
INDEX_START at the first lock; after a STEP that edge is the new epoch. A STEP at its boundary (R139, R141, R741): samples end there, and the SPLL
relocks on the reference; without a reference it is not made. It rests on the model's choices of log entries 20, 21, 34, 35, 36 and 117. -/
def Obligations.LockEvents : Prop :=
  (∀ j, EventTo (fun k => .unlockDetected k j) (fun _ s => s.time.tb = .locked ∧ s.time.applyCapture = none)
      (fun k s t => t.time.tb = (if s.time.refPresent then .relocking else .waitRef) ∧ t.time.unlockIndex = k / 32 * 32
        ∧ t.index = k / 32 * 32 + 95 ∧ t.time.unlockCount = satAdd 32 s.time.unlockCount 1 ∧ t.time.lockAttempts = 0 ∧ t.time.syncs = []
        ∧ t.time.applyCapture = none ∧ bit t.glob.gintStatus 4 = true ∧ t.mode = s.mode
        ∧ (∀ w ∈ s.time.syncs, (t.cmds.any fun c => c.id == w.cmd) = false)))
  ∧ (∀ j, EventTo (fun k => .unlockDetected k j) (fun _ s => s.time.tb = .slew ∧ s.time.refPresent = true ∧ s.time.step = none ∧ s.time.resume = none ∧ s.cmds = [])
      (fun k _ t => t.time.tb = .relocking
        ∧ t.time.relockStep = some { boundary := k / 32 * 32, jump := j, correct := false, cmd := none }))
  ∧ (∀ j, Event (fun k => .unlockDetected k j) (fun _ s => locked s = false) (fun _ s => s))
  ∧ Event (fun k => .lockAttemptFail k) (fun _ s => s.time.tb = .relocking ∧ s.time.lockAttempts ≠ 3)
      (fun _ s => setTime (fun t => { t with lockAttempts := t.lockAttempts + 1 }) s)
  ∧ EventTo (fun k => .lockAttemptFail k) (fun _ s => s.time.tb = .relocking ∧ s.time.lockAttempts = 3)
      (fun _ s t => t.time = { s.time with lockAttempts := 4 } ∧ bit t.faultCause 1 = true ∧ bit t.faultActive 1 = true)
  ∧ Event (fun k => .lockAttemptFail k) (fun _ s => s.time.tb ≠ .relocking) (fun _ s => s)
  ∧ (∀ edge band s, s.quiet = true → hasMirror s = false → s.time.tb = .relocking → s.time.configCmds = [] → s.hub.tripped = false →
      s.time.everLocked = false → ∃ t, exec (.lockConfirmed edge band) s = .next t
        ∧ t.time.tb = .locked ∧ t.time.everLocked = true ∧ t.index = s.time.indexStart ∧ t.time.syncRef = edge ∧ t.time.syncIndex = s.time.indexStart
        ∧ t.time.refCount = edge ∧ t.time.vcoBand = band ∧ t.time.refPresent = true ∧ bit t.faultActive 1 = false)
  ∧ (∀ edge band s, s.quiet = true → hasMirror s = false → s.time.tb = .relocking → s.time.configCmds = [] → s.hub.tripped = false →
      s.time.everLocked = true → s.time.relockStep = none → ∃ t, exec (.lockConfirmed edge band) s = .next t
        ∧ t.time.tb = .locked ∧ t.index = indexOfEdge s.time (max edge (refCountNow s) : Nat)
        ∧ t.time.refCount = edgeOf s.time (max edge (refCountNow s) : Nat) ∧ t.time.syncRef = s.time.syncRef
        ∧ t.time.syncIndex = s.time.syncIndex ∧ t.time.gen = s.time.gen
        ∧ t.time.indexEstimated = (s.time.indexEstimated || s.time.estimatedRelock) ∧ t.time.resume = none ∧ t.time.step = none
        ∧ bit t.faultActive 1 = false)
  ∧ (∀ edge band s r, s.quiet = true → hasMirror s = false → s.time.tb = .relocking → s.time.configCmds = [] → s.hub.tripped = false →
      s.time.everLocked = true → s.time.relockStep = some r → ∃ t, exec (.lockConfirmed edge band) s = .next t
        ∧ t.time.tb = .locked ∧ t.index = indexOfEdge s.time (rephaseEdge s.time (max edge (refCountNow s))) ∧ t.time.syncRef = edgeOf s.time (rephaseEdge s.time (max edge (refCountNow s)))
        ∧ t.time.syncIndex = t.index ∧ t.time.gen = (s.time.gen + 1) % 65536 ∧ t.time.relockStep = none
        ∧ (∀ id, r.cmd = some id → (t.cmds.any fun c => c.id == id) = false))
  ∧ (∀ edge band s, s.quiet = true → hasMirror s = false → s.time.tb ≠ .relocking → exec (.lockConfirmed edge band) s = .next s)
  ∧ (∀ m s w, s.quiet = true → hasMirror s = false → s.time.step = some w → (s.time.tb = .slew ∨ (s.time.tb = .qualified ∧ s.time.refPresent = true)) →
      ∃ t, exec (.stepBoundary m) s = .next t ∧ t.time.tb = .relocking ∧ t.time.unlockIndex = w.boundary ∧ t.index = w.boundary + 95
        ∧ t.time.step = none ∧ t.time.unlockCount = s.time.unlockCount
        ∧ t.time.relockStep = some { boundary := w.boundary, correct := s.time.tb != .slew, cmd := w.cmd,
                                     jump := if s.time.tb == .slew || w.remeasure then m else s.time.jump })
  ∧ (∀ m s w, s.quiet = true → hasMirror s = false → s.time.step = some w → locked s = true → s.time.tb ≠ .slew →
      (s.time.tb ≠ .qualified ∨ s.time.refPresent = false) → w.cmd = none →
      exec (.stepBoundary m) s = .next { s with time := { s.time with step := none } })
  ∧ (∀ m s, s.quiet = true → hasMirror s = false → s.time.step = none → exec (.stepBoundary m) s = .next s)

/-- A SYNC edge, and the new numbering that it or TIME_SPLL_CONFIG starts (R126, R153, R156, R742). PPS_IN and PPS_OUT (R143, R144, R146): an edge
is stamped or counted as spurious, a pulse that stays away is counted, and the pulse of a second is launched at the nearest TDC-domain edge, at a
tie the earlier. It rests on the model's choices of log entries 33, 34, 36, 38 and 40. -/
def Obligations.SyncAndPpsEvents : Prop :=
  (∀ pps w c, Event (fun k => .syncEdgeCapture k pps)
      (fun _ s => s.time.tb = .locked ∧ s.time.applyCapture = none ∧ (s.time.syncs.filter fun x => x.pps == pps) = [w] ∧ cmdById s w.cmd = some c
        ∧ c.src ≠ .pairLink ∧ w.apply = false)
      (fun _ s => complete c .ok (1#32 :: (u64Words (refCountNow s) ++ [BitVec.ofInt 32 (alignDistance s.time (refCountNow s))])) s.index
        (setTime (fun t => { t with syncs := t.syncs.filter (fun x => x.pps != pps) }) s)))
  ∧ (∀ pps w, EventTo (fun k => .syncEdgeCapture k pps)
      (fun _ s => s.time.tb = .locked ∧ s.time.applyCapture = none ∧ (s.time.syncs.filter fun x => x.pps == pps) = [w] ∧ w.apply = true ∧ s.mode = .quiet)
      (fun _ s t => t.time.applyCapture = some { at_ := s.index, syncRef := refCountNow s, syncIndex := w.syncIndex }
        ∧ t.time.syncs = s.time.syncs.filter (fun x => x.pps != pps) ∧ t.time.syncRef = s.time.syncRef ∧ (t.cmds.any fun c => c.id == w.cmd) = false))
  ∧ (∀ pps, Event (fun k => .syncEdgeCapture k pps) (fun _ s => locked s = false ∨ s.time.tb.isHoldover = true) (fun _ s => s))
  ∧ (∀ id c, Event (fun k => .timeSyncTimeout k id)
      (fun _ s => (s.time.syncs.any fun w => w.cmd == id) = true ∧ cmdById s id = some c ∧ c.src ≠ .pairLink)
      (fun _ s => complete c .ok [0, 0, 0, 0] s.index (setTime (fun t => { t with syncs := t.syncs.filter (fun w => w.cmd != id) }) s)))
  ∧ (∀ id, Event (fun k => .timeSyncTimeout k id) (fun _ s => (s.time.syncs.any fun w => w.cmd == id) = false) (fun _ s => s))
  ∧ (∀ edge band s, s.quiet = true → hasMirror s = false → s.time.tb = .relocking → s.time.configCmds ≠ [] → s.hub.tripped = false →
      ∃ t, exec (.timebaseRephase edge band) s = .next t ∧ t.time.tb = .locked ∧ t.index = s.time.indexStart
        ∧ t.time.syncRef = (max edge s.time.refCount : Nat) ∧ t.time.syncIndex = s.time.indexStart ∧ t.time.refCount = max edge s.time.refCount
        ∧ t.time.configCmds = [] ∧ t.time.indexEstimated = false ∧ t.time.gen = (if s.time.everLocked then (s.time.gen + 1) % 65536 else 0)
        ∧ (∀ id ∈ s.time.configCmds, (t.cmds.any fun c => c.id == id) = false))
  ∧ (∀ edge band s x, s.quiet = true → hasMirror s = false → locked s = true → s.time.applyCapture = some x →
      ∃ t, exec (.timebaseRephase edge band) s = .next t
        ∧ t.index = x.syncIndex + rephaseCount s.time * alignSamples s.time ∧ t.time.syncRef = x.syncRef
        ∧ t.time.refCount = x.syncRef + rephaseCount s.time * alignRef s.time
        ∧ t.time.syncIndex = x.syncIndex ∧ t.time.gen = (s.time.gen + 1) % 65536 ∧ t.time.applyCapture = none ∧ t.time.tb = s.time.tb
        ∧ t.time.unlockCount = s.time.unlockCount)
  ∧ (∀ edge band s, s.quiet = true → hasMirror s = false → s.time.tb ≠ .relocking → s.time.applyCapture = none →
      exec (.timebaseRephase edge band) s = .next s)
  ∧ (∀ cycle tap, Event (fun k => .ppsInEdge k cycle tap)
      (fun _ s => s.time.ppsInEn = false ∨ s.tdc.notReady = true ∨ delivering s = false) (fun _ s => s))
  ∧ (∀ cycle tap, Event (fun k => .ppsInEdge k cycle tap)
      (fun _ s => s.time.ppsInEn = true ∧ s.tdc.notReady = false ∧ delivering s = true ∧ ppsAccepts s (tdcRaw s 8 cycle tap) = false)
      (fun _ s => setTime (fun t => { t with ppsSpurious := satAdd 16 t.ppsSpurious 1 }) s))
  ∧ (∀ cycle tap t16 d, Event (fun k => .ppsInEdge k cycle tap)
      (fun _ s => s.time.ppsInEn = true ∧ s.tdc.notReady = false ∧ delivering s = true ∧ s.time.ppsNotice = false ∧ s.time.ppsWait = false
        ∧ t16 = tdcRaw s 8 cycle tap ∧ d = stampOf s 12 ((t16 : Int) * 2 ^ 28) 0 ∧ ppsAccepts s t16 = true)
      (fun _ s => setTime (fun t => { t with
        ppsLast := some d, ppsAt := some (t16 : Int), ppsRun := 0, ppsPhase := ppsPhaseOf s d, ppsAccepted := satAdd 32 t.ppsAccepted 1 }) s))
  ∧ (∀ cycle tap t16 d, Event (fun k => .ppsInEdge k cycle tap)
      (fun _ s => s.time.ppsInEn = true ∧ s.tdc.notReady = false ∧ delivering s = true ∧ s.time.ppsNotice = true ∧ s.time.ppsWait = false
        ∧ t16 = tdcRaw s 8 cycle tap ∧ d = stampOf s 12 ((t16 : Int) * 2 ^ 28) 0 ∧ ppsAccepts s t16 = true)
      (fun _ s => notify 0x0207 [lo32 (d / 2 ^ 32), lo32 (d / 2 ^ 64), lo32 d, BitVec.ofInt 32 (ppsPhaseOf s d)] (d / 2 ^ 32)
        (setTime (fun t => { t with
          ppsLast := some d, ppsAt := some (t16 : Int), ppsRun := 0, ppsPhase := ppsPhaseOf s d, ppsAccepted := satAdd 32 t.ppsAccepted 1 }) s)))
  ∧ Event (fun k => .ppsMissingTimeout k) (fun _ s => s.time.ppsInEn = true ∧ ppsDue s = true)
      (fun _ s => notify 0x0208 [BitVec.ofNat 32 (satAdd 16 s.time.ppsMissing 1)] s.index
        (setTime (fun t => { t with ppsMissing := satAdd 16 t.ppsMissing 1, ppsRun := t.ppsRun + 1 }) s))
  ∧ Event (fun k => .ppsMissingTimeout k) (fun _ s => s.time.ppsInEn = false ∨ ppsDue s = false) (fun _ s => s)
  ∧ (∀ second, EventTo (fun k => .ppsOutPulse k second) (fun _ s => s.time.ppsOutEn = true ∧ delivering s = true)
      (fun _ s t => ∃ edge : Int, t = { s with out := s.out ++ [.ppsOut edge s.time.ppsOutWidth] }
        ∧ 2 * ((second * fsOf s.time * 2 ^ 32 * 1000000000000 : Nat) - delayScaled s 13 s.index) - 16 * 2 ^ 32 * 1000000000000
          ≤ 2 * (16 * 2 ^ 32 * 1000000000000) * edge
        ∧ 2 * (16 * 2 ^ 32 * 1000000000000) * edge
          < 2 * ((second * fsOf s.time * 2 ^ 32 * 1000000000000 : Nat) - delayScaled s 13 s.index) + 16 * 2 ^ 32 * 1000000000000))
  ∧ (∀ second, Event (fun k => .ppsOutPulse k second) (fun _ s => s.time.ppsOutEn = false ∨ delivering s = false) (fun _ s => s))

/-! ### Converter, equaliser and product events -/

/-- One OVR sample of a channel (R182-R185): it is counted, the guard of OVR_GUARD samples is INV, and the other channel of the tile counts 32 NBR
samples; the other channels stay as they are. The slices (R177-R181): at the end of a dwell the rotation advances and the dwell is counted, not with
ROT_HOLD or in CALIBRATE, and a failed active slice gives its position to the spare, or leaves the channel INV with NO_SPARE. A held equaliser swap
starts as the running one ends (R211). It rests on the model's choice of log entry 41. -/
def Obligations.ConverterEvents : Prop :=
  (∀ c first values s, s.quiet = true → hasMirror s = false → s.variant.channels ≤ c → exec (.overRange c first values) s = .next (passTo s.index s))
  ∧ (∀ c first values s, s.quiet = true → hasMirror s = false → c < s.variant.channels → delivering s = true →
      ∃ t, exec (.overRange c first values) s = .next t
        ∧ t.conv.signal = s.conv.signal ++ [{ channel := c, first := first, values := values }]
        ∧ (∀ i, i ≠ c → channelOf t i = channelOf s i) ∧ (channelOf t c).inv = (channelOf s c).inv
        ∧ t.time = s.time ∧ t.cmds = s.cmds ∧ t.pool = s.pool)
  ∧ (∀ v : Rat, -2048 ≤ sampleCode v ∧ sampleCode v ≤ 2047 ∧ (overScale v = true ↔ 4095 / 2 ≤ v ∨ v < -(4097 / 2))
      ∧ (overScale v = false → sampleCode v = (v + 1 / 2).floor) ∧ (overScale v = true → sampleCode v = 2047 ∨ sampleCode v = -2048))
  ∧ (∀ s c j k, j ∈ ovrList s (neighbour c) → neighbour c < s.variant.channels → j < k → k ≤ j + 32 → inRanges (tileNbr s c) k = true)
  ∧ (∀ s c j k, j ∈ ovrList s c → (∀ i ∈ ovrList s c, i < k → i ≤ j) → k ∉ ovrList s c → j < k → k ≤ j + settingAt 0 (channelOf s c).guards j →
      inRanges (guardRanges s c) k = true)
  ∧ (∀ results, EventTo (fun k => .sliceSwap k results)
      (fun k s => coresRun s = true ∧ delivering s = true ∧ s.conv.hold = false ∧ runMode s ≠ .calibrate ∧ k % (32 * 2 ^ s.conv.dwellLog2) = 0
        ∧ s.maint.sliceFrom ≤ k)
      (fun k s t => t.conv.step = s.conv.step + 1 ∧ t.maint.sliceFrom = k + 1 ∧ t.time = s.time ∧ t.cmds = s.cmds))
  ∧ (∀ results, Event (fun k => .sliceSwap k results) (fun _ s => coresRun s = true ∧ (s.conv.hold = true ∨ runMode s = .calibrate)) (fun _ s => s))
  ∧ (∀ c sums p, EventTo (fun k => .sliceMonitorWindow k [{ channel := c, sums := sums }])
      (fun _ s => delivering s = true ∧ windowWhole s s.index = true ∧ c < s.variant.channels ∧ c < s.conv.channels.length
        ∧ (channelOf s c).retired = none ∧ (channelOf s c).noSpareSince = none ∧ failedPositions sums = [p]
        ∧ servingSlice s (channelOf s c) p ≠ idleSlice s (channelOf s c))
      (fun _ s t => (channelOf t c).retired = some (servingSlice s (channelOf s c) p) ∧ (channelOf t c).frozenSpare = some (spareAt s.conv.step)
        ∧ (channelOf t c).inv = { lo := s.index, hi := some (s.index + 32) } :: (channelOf s c).inv ∧ (∀ i, i ≠ c → channelOf t i = channelOf s i)
        ∧ t.faultCause = s.faultCause ∧ t.time = s.time))
  ∧ (∀ c sums p r, EventTo (fun k => .sliceMonitorWindow k [{ channel := c, sums := sums }])
      (fun _ s => delivering s = true ∧ windowWhole s s.index = true ∧ c < s.variant.channels ∧ c < s.conv.channels.length
        ∧ (channelOf s c).retired = some r ∧ (channelOf s c).noSpareSince = none ∧ failedPositions sums = [p]
        ∧ servingSlice s (channelOf s c) p ≠ idleSlice s (channelOf s c))
      (fun _ s t => (channelOf t c).retired = some r ∧ (channelOf t c).noSpareSince = some s.index
        ∧ (channelOf t c).inv = { lo := s.index, hi := none } :: (channelOf s c).inv
        ∧ bit t.faultCause 2 = true ∧ (∀ i, i ≠ c → channelOf t i = channelOf s i)))
  ∧ (∀ sums, Event (fun k => .sliceMonitorWindow k sums)
      (fun _ s => delivering s = false ∨ windowWhole s s.index = false ∨ sums.all (fun x => failedPositions x.sums == []) = true) (fun _ s => s))
  ∧ (∀ c, Event (fun k => .eqHeldStart k c) always (fun _ s => { s with eqs := modAt s.eqs c (endSwap s.index) }))
  ∧ (∀ (p : Nat) (e : Equaliser), e.running = none → endSwap p e = e)
  ∧ (∀ (p : Nat) (e : Equaliser) (r : EqSwap), e.running = some r → p < r.stop → endSwap p e = e)
  ∧ (∀ (p : Nat) (e : Equaliser) (r : EqSwap), e.running = some r → r.stop ≤ p → e.held = none →
      endSwap p e = { e with running := none, presented := none })

/-- A spectrum (R252, R253, R255): its engine counts it, as INVALID with an INV sample or mixed gain, and moves to its next frame; the timebase, the
outstanding commands and the other engines' counts stay. It rests on the model's choices of log entries 41, 106 and 107. -/
def Obligations.SpectrumDone : Prop :=
  (∀ e volts lost drop, EventTo (fun k => .spectrumDone k e volts lost drop [])
      (fun _ s => engineRunning s e = true ∧ locked s = true ∧ frameEnd s e (engineOf s e).frame < heldBefore s ∧ e < s.engines.length)
      (fun _ s t => (engineOf t e).frame = (engineOf s e).frame + 1 ∧ (engineOf t e).spectra = satAdd 32 (engineOf s e).spectra 1
        ∧ (engineOf t e).invalidSpectra
          = (if (spectrumOf (bringVolts volts s) e (engineOf s e).frame).frame.invalid then satAdd 32 (engineOf s e).invalidSpectra 1
              else (engineOf s e).invalidSpectra)
        ∧ (∀ i, i ≠ e → (engineOf t i).frame = (engineOf s i).frame ∧ (engineOf t i).spectra = (engineOf s i).spectra)
        ∧ t.time = s.time ∧ t.cmds = s.cmds ∧ t.mode = s.mode ∧ t.tuners = s.tuners))
  ∧ (∀ s e f, (spectrumOf s e f).frame.invalid = (decide (0 < (frameTags s e f).1) || (frameTags s e f).2.mixedGain)
      ∧ (spectrumOf s e f).bins.length = (engineOf s e).cfg.binCount ∧ (spectrumOf s e f).powers = (spectrumOf s e f).bins.map power)
  ∧ (∀ e lost drop, Event (fun k => .spectrumDone k e [] lost drop [])
      (fun _ s => engineRunning s e = false ∨ locked s = false ∨ heldBefore s ≤ frameEnd s e (engineOf s e).frame) (fun _ s => s))

/-- A density frame closes at its boundary (R277, R281), and a decay step takes from each cell the rounded-up part 2^-DECAY_SHIFT (R274, R284). It
rests on the model's choice of log entry 41. -/
def Obligations.DensityEvents : Prop :=
  (∀ u lost busy f, EventTo (fun k => .densityFrameClose k u lost busy)
      (fun k s => densRunning s u = true ∧ locked s = true ∧ u < s.dens.length ∧ (densOf s u).frame = some f ∧ densFrameLen (densOf s u) ≠ 0
        ∧ f.start + densFrameLen (densOf s u) ≤ k ∧ reached s (densEngine u (densOf s u)) (f.start + densFrameLen (densOf s u)) = true)
      (fun _ s t => (densOf t u).frames = satAdd 32 (densOf s u).frames 1 ∧ (densOf t u).seq = ((densOf s u).seq + 1) % 2 ^ 32
        ∧ (densOf t u).frame = some (newDensityFrame (f.start + densFrameLen (densOf s u)))
        ∧ (densOf t u).cells = (if (densOf s u).cfg.persist = 0 then [] else (densOf s u).cells) ∧ (densOf t u).exported = (densOf s u).cells
        ∧ (densOf t u).exportLost = (if lost then satAdd 32 (densOf s u).exportLost 1 else (densOf s u).exportLost)
        ∧ (∀ i, i ≠ u → densOf t i = densOf s i) ∧ t.engines = s.engines ∧ t.time = s.time ∧ t.cmds = s.cmds))
  ∧ (∀ u lost busy, Event (fun k => .densityFrameClose k u lost busy) (fun _ s => densRunning s u = false) (fun _ s => s))
  ∧ Event (fun k => .decayStep k) (fun _ s => locked s = true)
      (fun k s => (List.range s.dens.length).foldl (fun a u => densAct u k .decay a) s)
  ∧ Event (fun k => .decayStep k) (fun _ s => locked s = false) (fun _ s => s)
  ∧ (∀ u e f s, (densOf s u).late = [] → densRunning s u = true → reached s (densEngine u (densOf s u)) e = true → (densOf s u).frame = some f →
      e < f.start + densFrameLen (densOf s u) → (densOf s u).cfg.persist = 1 → e % (32 * 2 ^ (densOf s u).cfg.decayLog2) = 0 →
      densAct u e .decay s = setDens u (fun d =>
        { d with cells := (d.cells.map fun x => (x.1, decayed d.cfg.decayShift x.2)).filter fun x => x.2 != 0 }) s)
  ∧ (∀ shift n : Nat, decayed shift n * 2 ^ shift ≤ n * (2 ^ shift - 1) ∧ (0 < n → decayed shift n < n))

/-! ### Trigger, capture and integration events -/

/-- The decision at an index (R315-R318): the slots that fire are those of the verdicts, a winner takes the next sequence number and records, and
every TRIG_FORCE of that index completes. What one firing does to its slot (R312, R316, R317): it is counted and dated, a SINGLE slot leaves ARMED,
and a winner is told from a suppressed slot. A level input of a slot outside an INV sample (R301, R303): the comparator follows the value, and the
slot reports once its pulse has the width asked for. It rests on the model's choices of log entries 41 and 49. -/
def Obligations.TriggerEvents : Prop :=
  (∀ volts, Event (fun k => .trigDecide k volts) (fun _ s => trigDecides s = false) (fun _ s => bringVolts volts s))
  ∧ (∀ volts, Event (fun k => .trigDecide k volts) (fun _ s => trigDecides s = true) (fun k s => decideTo k (bringVolts volts s)))
  ∧ (∀ k s, (decideIndex k s).trig.evalIndex = k ∧ (decideIndex k s).trig.next = k + 1
      ∧ (decideIndex k s).trig.forced = s.trig.forced.filter (fun f => f.index != k)
      ∧ (∀ f ∈ s.trig.forced, f.index = k → ((decideIndex k s).cmds.any fun c => c.id == f.cmd) = false)
      ∧ (decideIndex k s).time = s.time ∧ (decideIndex k s).mode = s.mode)
  ∧ (∀ k s, s.trig.forced = [] → s.trig.slots.all (fun t => t.st == .disabled) = true →
      (decideIndex k s).trig.seq = s.trig.seq ∧ (decideIndex k s).trig.records = s.trig.records ∧ (decideIndex k s).cap = s.cap
        ∧ (decideIndex k s).cmds = s.cmds ∧ (decideIndex k s).trig.slots.all (fun t => t.st == .disabled) = true)
  ∧ (∀ (k i : Nat) (w : Option Nat) (t : TrigSlot),
    (firedSlot k w i t).lastFiring = some k ∧ (firedSlot k w i t).firings = satAdd 32 t.firings 1
    ∧ (firedSlot k w i t).st = (if t.cfg.single then .enabled else t.st)
    ∧ (w = some i → (firedSlot k w i t).wins = satAdd 32 t.wins 1 ∧ (firedSlot k w i t).suppressed = t.suppressed)
    ∧ (w ≠ some i → t.cfg.actEn = true → (firedSlot k w i t).suppressed = satAdd 32 t.suppressed 1 ∧ (firedSlot k w i t).wins = t.wins)
    ∧ (firedSlot k w i t).cfg = t.cfg)
  ∧ (∀ (idx stamp : Nat → Nat) (v : Int) (inv : Bool) (a n : Nat) (t : TrigSlot), 0 < n →
    (inv = true → levelRun idx stamp v inv a n t = report (idx a) false 0 [] { t with comp := false, width := 0, blanked := satAdd 32 t.blanked n })
    ∧ (inv = false → (levelRun idx stamp v inv a n t).blanked = t.blanked
      ∧ (levelRun idx stamp v inv a n t).comp = compNext (field t.cfg.p0 1 0) (if t.cfg.source = 0 then signed 32 t.cfg.p1.toNat else t.cfg.p1.toNat)
          t.cfg.p2.toNat v t.comp
      ∧ (levelRun idx stamp v inv a n t).st = t.st ∧ (levelRun idx stamp v inv a n t).q = t.q))

/-- A segment of a sheaf completes when its END has passed (R349, R350): it is counted, its close reason is kept, and the sheaf's last segment
disarms it. It rests on the model's choice of log entry 41. -/
def Obligations.SegmentClose : Prop :=
  (∀ n g, EventTo (fun k => .segmentClose k n false [] [])
      (fun k s => trigDecides s = false ∧ n < s.cap.sheaves.length ∧ (sheafOf s n).closing = [] ∧ (sheafOf s n).seg = some g ∧ (sheafOf s n).cfg.kind ≠ 2
        ∧ g.stop ≤ k ∧ g.stop < heldBefore s ∧ sheafAwaits s n g.stop = false)
      (fun _ s t => (sheafOf t n).seg = none ∧ (sheafOf t n).closing = [] ∧ (sheafOf t n).segments = satAdd 32 (sheafOf s n).segments 1
        ∧ (sheafOf t n).sinceArm = (sheafOf s n).sinceArm + 1
        ∧ (∀ i, i ≠ n → sheafOf t i = sheafOf s i) ∧ t.time = s.time ∧ t.cmds = s.cmds ∧ t.mode = s.mode))
  ∧ (∀ n g, Event (fun k => .segmentClose k n false [] [])
      (fun k s => trigDecides s = false ∧ (sheafOf s n).closing = [] ∧ (sheafOf s n).seg = some g ∧ (sheafOf s n).cfg.kind ≠ 2 ∧ k < g.stop) (fun _ s => s))
  ∧ (∀ n dropped, Event (fun k => .segmentClose k n dropped [] [])
      (fun _ s => trigDecides s = false ∧ (sheafOf s n).closing = [] ∧ (sheafOf s n).seg = none) (fun _ s => s))
  ∧ (∀ n g, EventTo (fun k => .segmentClose k n false [] [])
      (fun _ s => trigDecides s = false ∧ n < s.cap.sheaves.length ∧ (sheafOf s n).closing = [g] ∧ (sheafOf s n).seg = none)
      (fun _ s t => (sheafOf t n).closing = [] ∧ (sheafOf t n).segments = satAdd 32 (sheafOf s n).segments 1
        ∧ (sheafOf t n).lastClose = g.close.getD 0 ∧ t.time = s.time ∧ t.cmds = s.cmds))

/-- The sets of the integration unit (R364, R365, R368): a whole set is accumulated, or counted as invalid or dropped, and a frame closes at its
boundary, once every source has reached it, and opens the next. It rests on the model's choices of log entries 41, 45 and 47. -/
def Obligations.IntegrationEvents : Prop :=
  (∀ number f m, EventTo (fun k => .intSetAccumulate k number true [])
      (fun _ s => s.intg.frame = some f ∧ favoursIntegration (runMode s) = false ∧ (setMembers s.intg number).head? = some m
        ∧ f.start * 2 ^ 32 ≤ m.key ∧ m.key < f.stop * 2 ^ 32
        ∧ ((setMembers s.intg number).any fun x => x.engine == (intEngines s.intg.cfg).headD 0) = true)
      (fun _ s t => t.intg.droppedSets = satAdd 32 s.intg.droppedSets 1 ∧ t.intg.frame = some { f with taintedSets := f.taintedSets + 1 }
        ∧ t.intg.members = s.intg.members.filter (fun x => !(x.number == m.number && x.key == m.key)) ∧ t.pool = s.pool ∧ t.time = s.time
        ∧ t.cmds = s.cmds))
  ∧ (∀ number f m, EventTo (fun k => .intSetAccumulate k number false [])
      (fun _ s => s.intg.frame = some f ∧ setWhole s.intg (setMembers s.intg number) = true ∧ (setMembers s.intg number).head? = some m
        ∧ f.start * 2 ^ 32 ≤ m.key ∧ m.key < f.stop * 2 ^ 32 ∧ ((setMembers s.intg number).any fun x => x.invalid) = true)
      (fun _ s t => t.intg.frame = some { f with invalidSets := f.invalidSets + 1 } ∧ t.intg.droppedSets = s.intg.droppedSets ∧ t.pool = s.pool
        ∧ t.intg.members = s.intg.members.filter (fun x => !(x.number == m.number && x.key == m.key)) ∧ t.time = s.time ∧ t.cmds = s.cmds))
  ∧ (∀ number f m, EventTo (fun k => .intSetAccumulate k number false [])
      (fun _ s => s.intg.frame = some f ∧ setWhole s.intg (setMembers s.intg number) = true ∧ (setMembers s.intg number).head? = some m
        ∧ f.start * 2 ^ 32 ≤ m.key ∧ m.key < f.stop * 2 ^ 32 ∧ intPoisoned s = false
        ∧ ∀ x ∈ setMembers s.intg number, x.invalid = false ∧ x.th ≠ .warmup ∧ x.th ≠ .lost)
      (fun _ s t => (∃ g, t.intg.frame = some g ∧ g.sets = f.sets + 1 ∧ g.start = f.start ∧ g.stop = f.stop ∧ g.invalidSets = f.invalidSets)
        ∧ t.intg.members = s.intg.members.filter (fun x => !(x.number == m.number && x.key == m.key)) ∧ t.time = s.time ∧ t.cmds = s.cmds
        ∧ t.engines = s.engines))
  ∧ (∀ number drop, Event (fun k => .intSetAccumulate k number drop []) (fun _ s => s.intg.frame = none ∨ setMembers s.intg number = []) (fun _ s => s))
  ∧ (∀ f, EventTo (fun k => .intFrameClose k)
      (fun k s => locked s = true ∧ s.intg.frame = some f ∧ s.intg.members = [] ∧ f.stop ≤ k
        ∧ (intEngines s.intg.cfg).all (fun e => reached s e f.stop) = true)
      (fun _ s t => t.intg.seq = (s.intg.seq + 1) % 2 ^ 32 ∧ t.intg.frames = satAdd 32 s.intg.frames 1
        ∧ (∃ g, t.intg.frame = some g ∧ g.start = f.stop ∧ g.sets = 0) ∧ t.time = s.time ∧ t.cmds = s.cmds ∧ t.pool = s.pool))
  ∧ (∀ f, Event (fun k => .intFrameClose k) (fun k s => s.intg.frame = some f ∧ (locked s = false ∨ k < f.stop)) (fun _ s => s))
  ∧ Event (fun k => .intFrameClose k) (fun _ s => s.intg.frame = none) (fun _ s => s)

/-! ### Stream, network, packer and message-queue events -/

/-- The next packet of a sample context without a store (R392, R394, R398, R413): it takes the context's SEQ and waits among 64 for its egress; a
65th is dropped, and its SEQ is still used. A waiting packet goes out when its destination can take it and it is its context's turn on that link
(R104, R412), a rewind's with RETX set (R417). What a packet sent through a destination does (R403, R406-R408): a UDP entry sends one frame and
counts it, a host ring with room advances PROD. It rests on the model's choices of log entries 41, 63, 77 and 109. -/
def Obligations.StreamEvents : Prop :=
  (∀ n choice p ended bytes s2, EventTo (fun k => .strmPacketGenerate k n [] choice [])
      (fun _ s => modeRunsProducts (runMode s) = true ∧ n < s.strm.ctxs.length ∧ (ctxOf s n).cfg.pkind ≤ 1 ∧ s.mode ≠ .shadow
        ∧ nextPiece s n = some (p, ended) ∧ (ctxOf s n).cfg.ring = 0 ∧ (unsentOf (ctxOf s n)).length < 64
        ∧ (if (ctxOf s n).cfg.vdif then some (vdifPacket s n p (pieceData s (ctxOf s n).cfg p).1, s)
            else kdpSample s n p p.last (pieceData s (ctxOf s n).cfg p).2 (pieceData s (ctxOf s n).cfg p).1 choice) = some (bytes, s2))
      (fun _ s t => (ctxOf t n).seq = ((ctxOf s n).seq + 1) % 2 ^ 64
        ∧ (ctxOf t n).packets = (ctxOf s n).packets
          ++ [{ seq := (ctxOf s n).seq, bytes := bytes, offset := 0, index := p.index, first := p.fresh, last := p.last, sent := false }]
        ∧ (ctxOf t n).dropped = (ctxOf s n).dropped ∧ (∀ i, i ≠ n → ctxOf t i = ctxOf s i) ∧ t.time = s.time ∧ t.mode = s.mode ∧ t.pool = s.pool))
  ∧ (∀ n choice p ended bytes s2, EventTo (fun k => .strmPacketGenerate k n [] choice [])
      (fun _ s => modeRunsProducts (runMode s) = true ∧ n < s.strm.ctxs.length ∧ (ctxOf s n).cfg.pkind ≤ 1 ∧ s.mode ≠ .shadow
        ∧ nextPiece s n = some (p, ended) ∧ (ctxOf s n).cfg.ring = 0 ∧ 64 ≤ (unsentOf (ctxOf s n)).length
        ∧ (if (ctxOf s n).cfg.vdif then some (vdifPacket s n p (pieceData s (ctxOf s n).cfg p).1, s)
            else kdpSample s n p p.last (pieceData s (ctxOf s n).cfg p).2 (pieceData s (ctxOf s n).cfg p).1 choice) = some (bytes, s2))
      (fun _ s t => (ctxOf t n).seq = ((ctxOf s n).seq + 1) % 2 ^ 64 ∧ (ctxOf t n).packets = (ctxOf s n).packets
        ∧ (ctxOf t n).dropped = satAdd 32 (ctxOf s n).dropped 1 ∧ t.time = s.time ∧ t.cmds = s.cmds))
  ∧ (∀ n choice, Event (fun k => .strmPacketGenerate k n [] choice [])
      (fun _ s => modeRunsProducts (runMode s) = false ∨ ((ctxOf s n).cfg.pkind ≤ 1 ∧ nextPiece s n = none)) (fun _ s => s))
  ∧ (∀ n p e, Event (fun k => .strmPacketSend k n false [])
      (fun _ s => liveReady s n = some (p, e) ∧ theirs s n p = false ∧ packetLost s (ctxOf s n).cfg p = false ∧ hasTurn s n (linkOf s e) = true
        ∧ ((ctxOf s n).cfg.pkind = 8 → p.last = false))
      (fun _ s => serveTurn n (linkOf s e) (setCtx n (markSent p.seq) (sendTo e p.bytes s))))
  ∧ (∀ n p e, Event (fun k => .strmPacketSend k n false [])
      (fun _ s => liveReady s n = some (p, e) ∧ theirs s n p = false ∧ packetLost s (ctxOf s n).cfg p = false ∧ hasTurn s n (linkOf s e) = true
        ∧ (ctxOf s n).cfg.pkind = 8 ∧ p.last = true)
      (fun _ s => regionDone n (serveTurn n (linkOf s e) (setCtx n (markSent p.seq) (sendTo e p.bytes s)))))
  ∧ (∀ n p e, Event (fun k => .strmPacketSend k n false [])
      (fun _ s => liveReady s n = some (p, e) ∧ theirs s n p = false ∧ packetLost s (ctxOf s n).cfg p = true ∧ (ctxOf s n).cfg.pkind ≠ 8)
      (fun _ s => setCtx n (fun c => { passSent p.seq c with dropped := satAdd 32 c.dropped 1 }) s))
  ∧ (∀ n p e, Event (fun k => .strmPacketSend k n false [])
      (fun _ s => liveReady s n = some (p, e) ∧ theirs s n p = false ∧ packetLost s (ctxOf s n).cfg p = false ∧ hasTurn s n (linkOf s e) = false)
      (fun _ s => s))
  ∧ (∀ n p l, Event (fun k => .strmPacketSend k n false []) (fun _ s => unsentOf (ctxOf s n) = p :: l ∧ theirs s n p = true)
      (fun _ s => setCtx n (passSent p.seq) s))
  ∧ (∀ n p l, Event (fun k => .strmPacketSend k n false [])
      (fun _ s => unsentOf (ctxOf s n) = p :: l ∧ theirs s n p = false
        ∧ (destReady s ((ctxOf s n).cfg.destFor p.seq) = false ∨ egressOf s n p = false)) (fun _ s => s))
  ∧ (∀ n, Event (fun k => .strmPacketSend k n false []) (fun _ s => unsentOf (ctxOf s n) = []) (fun _ s => s))
  ∧ (∀ n p e, Event (fun k => .strmPacketSend k n true [])
      (fun _ s => rewindReady s n = some (p, e) ∧ packetLost s (ctxOf s n).cfg p = false ∧ hasTurn s n (linkOf s e) = true)
      (fun _ s => serveTurn n (linkOf s e) (setCtx n (fun c => { c with
          retx := satAdd 32 c.retx 1, rewind := c.rewind.map fun r => { r with next := r.next + 1, resent := r.resent + 1 } })
        (sendTo e (markRetx (ctxOf s n).cfg p.bytes) s))))
  ∧ (∀ n, Event (fun k => .strmPacketSend k n true []) (fun _ s => egressRuns s = false ∨ (ctxOf s n).rewind = none) (fun _ s => s))
  ∧ (∀ n r c, Event (fun k => .rewindDone k n)
      (fun _ s => (ctxOf s n).rewind = some r ∧ r.lost = false ∧ r.stop < r.next ∧ cmdById s r.cmd = some c ∧ c.src ≠ .pairLink)
      (fun _ s => complete c .ok (u64Words r.resent) s.index (setCtx n (fun c => { c with rewind := none }) s)))
  ∧ (∀ n r c, Event (fun k => .rewindDone k n)
      (fun _ s => (ctxOf s n).rewind = some r ∧ r.lost = true ∧ cmdById s r.cmd = some c ∧ c.src ≠ .pairLink)
      (fun _ s => complete c .markLost (u64Words r.resent) s.index (setCtx n (fun c => { c with rewind := none }) s)))
  ∧ (∀ n, Event (fun k => .rewindDone k n) (fun _ s => (ctxOf s n).rewind = none) (fun _ s => s))
  ∧ (∀ (e : Nat) (bytes : List Byte) (s : State),
    ((destOf s e).dest = .none → sendTo e bytes s = s)
    ∧ (∀ port v6 dscp src dst mac addr, (destOf s e).dest = .udp port v6 dscp src dst mac addr → port < s.strm.ports.length →
        (portOf (sendTo e bytes s) port).txFrames = satAdd 32 (portOf s port).txFrames 1
        ∧ (sendTo e bytes s).out = s.out ++ [.streamFrame port (udpFrame (portOf s port) v6 dscp src dst mac addr bytes)])
    ∧ (∀ base slots size ptr vector intEn count time, (destOf s e).dest = .hostRing base slots size ptr vector intEn count time → e < s.strm.dests.length →
        (destOf (sendTo e bytes s) e).prod = ((destOf s e).prod + 1) % 2 ^ 64
        ∧ (intEn = false → (sendTo e bytes s).out = s.out ++ [.hostWrite true (base + (destOf s e).prod % 2 ^ slots * size) bytes,
            .hostWrite false ptr (bytes64 (((destOf s e).prod + 1) % 2 ^ 64))]))
    ∧ (∀ remote, (destOf s e).dest = .pair remote → s.pair.link = .up → sendTo e bytes s = { s with out := s.out ++ [.pairRelay remote bytes] })
    ∧ (∀ remote, (destOf s e).dest = .pair remote → s.pair.link ≠ .up →
        sendTo e bytes s = { s with pair := { s.pair with relayDropped := satAdd 32 s.pair.relayDropped 1 } }))

/-- The host rings and what the ports receive (R408, R410, R419, R432): ARP and neighbour requests for the port's own address are answered, other
frames are counted and discarded. It rests on the model's choices of log entries 28 and 59. -/
def Obligations.NetworkEvents : Prop :=
  (∀ e cons base slots size ptr vector intEn count time, Event (fun k => .hostRingConsPoll k e cons)
      (fun _ s => (destOf s e).dest = .hostRing base slots size ptr vector intEn count time) (fun _ s => setDest e (fun d => { d with cons := cons }) s))
  ∧ (∀ e base slots size ptr vector count time, Event (fun k => .hostRingIntTime k e)
      (fun _ s => (destOf s e).dest = .hostRing base slots size ptr vector true count time ∧ 0 < (destOf s e).unsignalled)
      (fun _ s => raiseVector vector (setDest e (fun d => { d with unsignalled := 0 }) s)))
  ∧ (∀ e, Event (fun k => .hostRingIntTime k e) (fun _ s => (destOf s e).unsignalled = 0) (fun _ s => s))
  ∧ (∀ p mac ip target, Event (fun k => .arpRequest k p mac ip target)
      (fun _ s => (portOf s p).en = true ∧ s.mode ≠ .shadow ∧ (portOf s p).ipv4 ≠ 0 ∧ (portOf s p).ipv4.toNat = target)
      (fun _ s => emit (.arpReply p mac ip)
        (setPort p (fun e => if e.en then { e with rxFrames := satAdd 32 e.rxFrames 1, txFrames := satAdd 32 e.txFrames 1 } else e) s)))
  ∧ (∀ p mac ip target, Event (fun k => .arpRequest k p mac ip target)
      (fun _ s => s.mode = .shadow ∨ (portOf s p).ipv4 = 0 ∨ (portOf s p).ipv4.toNat ≠ target)
      (fun _ s => setPort p (fun e => if e.en then { e with rxFrames := satAdd 32 e.rxFrames 1, rxDiscarded := satAdd 32 e.rxDiscarded 1 } else e) s))
  ∧ (∀ p mac ip target, Event (fun k => .neighbourSolicitation k p mac ip target)
      (fun _ s => (portOf s p).en = true ∧ s.mode ≠ .shadow ∧ ((portOf s p).ipv6.any fun w => w != 0) = true ∧ (portOf s p).ipv6 = target)
      (fun _ s => emit (.neighbourAdvert p mac ip)
        (setPort p (fun e => if e.en then { e with rxFrames := satAdd 32 e.rxFrames 1, txFrames := satAdd 32 e.txFrames 1 } else e) s)))
  ∧ (∀ p mac ip target, Event (fun k => .neighbourSolicitation k p mac ip target) (fun _ s => s.mode = .shadow ∨ (portOf s p).ipv6 ≠ target)
      (fun _ s => setPort p (fun e => if e.en then { e with rxFrames := satAdd 32 e.rxFrames 1, rxDiscarded := satAdd 32 e.rxDiscarded 1 } else e) s))
  ∧ (∀ p stamp frame, EventTo (fun k => .ptpFrameRx k p stamp frame)
      (fun _ s => (portOf s p).en = true ∧ (portOf s p).ptpEn = true ∧ p < s.strm.ports.length ∧ (destOf s (portOf s p).ptpEntry).dest = .none)
      (fun _ s t => (portOf t p).ptpRxLost = satAdd 32 (portOf s p).ptpRxLost 1 ∧ (portOf t p).rxFrames = satAdd 32 (portOf s p).rxFrames 1
        ∧ t.strm.dests = s.strm.dests ∧ t.out = s.out))
  ∧ (∀ p stamp frame base slots size ptr vector intEn count time, EventTo (fun k => .ptpFrameRx k p stamp frame)
      (fun _ s => (portOf s p).en = true ∧ (portOf s p).ptpEn = true ∧ p < s.strm.ports.length
        ∧ (destOf s (portOf s p).ptpEntry).dest = .hostRing base slots size ptr vector intEn count time ∧ (portOf s p).ptpEntry < s.strm.dests.length
        ∧ destReady s (portOf s p).ptpEntry = true ∧ 16 + frame.length ≤ size)
      (fun _ s t => (portOf t p).ptpRxLost = (portOf s p).ptpRxLost ∧ (portOf t p).rxFrames = satAdd 32 (portOf s p).rxFrames 1
        ∧ (destOf t (portOf s p).ptpEntry).prod = ((destOf s (portOf s p).ptpEntry).prod + 1) % 2 ^ 64))
  ∧ (∀ p stamp frame base slots size ptr vector intEn count time, EventTo (fun k => .ptpFrameRx k p stamp frame)
      (fun _ s => (portOf s p).en = true ∧ (portOf s p).ptpEn = true ∧ p < s.strm.ports.length
        ∧ (destOf s (portOf s p).ptpEntry).dest = .hostRing base slots size ptr vector intEn count time
        ∧ (destReady s (portOf s p).ptpEntry = false ∨ size < 16 + frame.length))
      (fun _ s t => (portOf t p).ptpRxLost = satAdd 32 (portOf s p).ptpRxLost 1 ∧ (portOf t p).rxFrames = satAdd 32 (portOf s p).rxFrames 1
        ∧ t.strm.dests = s.strm.dests ∧ t.out = s.out))
  ∧ (∀ p stamp frame, Event (fun k => .ptpFrameRx k p stamp frame) (fun _ s => (portOf s p).en = true ∧ (portOf s p).ptpEn = false)
      (fun _ s => setPort p (fun e => if e.en then { e with rxFrames := satAdd 32 e.rxFrames 1, rxDiscarded := satAdd 32 e.rxDiscarded 1 } else e) s))
  ∧ (∀ p stamp frame, Event (fun k => .ptpFrameRx k p stamp frame) (fun _ s => (portOf s p).en = false) (fun _ s => s))
  ∧ (∀ p, Event (fun k => .pauseFrame k p) always
      (fun _ s => setPort p (fun e => if e.en then { e with rxFrames := satAdd 32 e.rxFrames 1, pauseIgnored := satAdd 32 e.pauseIgnored 1 } else e) s))
  ∧ (∀ p, Event (fun k => .otherFrame k p) always
      (fun _ s => setPort p (fun e => if e.en then { e with rxFrames := satAdd 32 e.rxFrames 1, rxDiscarded := satAdd 32 e.rxDiscarded 1 } else e) s))
  ∧ (∀ p up, Event (fun k => .ethLinkChange k p up) (fun _ s => p < s.variant.ports ∧ (portOf s p).linkUp ≠ up)
      (fun _ s => notify 0x0A02 [BitVec.ofNat 32 (p + (if up then 256 else 0))] s.index (setPort p (fun e => { e with linkUp := up }) s)))
  ∧ (∀ p up, Event (fun k => .ethLinkChange k p up) (fun _ s => s.variant.ports ≤ p ∨ (portOf s p).linkUp = up) (fun _ s => s))

/-- The running job of a packer ends (R445, R446): its command completes, its output is written, and the next job of the packer is first. The
message queue (R454-R456, R465): with no item open it is one producer's turn, round robin; its item is accepted with the next sequence number, or
dropped and marked as a loss where there is no room; a HOST item opens, and its last doubleword closes it; a LINGER pads the open line; a waiting
MQ_READ ends with its items or its timeout. It rests on the model's choices of log entries 54, 57 and 63. -/
def Obligations.QueueEvents : Prop :=
  (∀ p choices j rest r, EventTo (fun k => .pkJobEnd k p choices [])
      (fun _ s => p < s.packers.length ∧ (s.packers.getD p default).jobs = j :: rest
        ∧ r = jobBlocks s j (j.length / max 1 j.blockBytes + 1) choices { done := none, consumed := 0, out := [], blocks := 0, raws := 0, noGain := 0, ue := 0 })
      (fun _ s t => (t.packers.getD p default).jobs = rest
        ∧ (t.packers.getD p default).blocks = satAdd 32 (s.packers.getD p default).blocks r.blocks
        ∧ (t.packers.getD p default).inBytes = (s.packers.getD p default).inBytes + r.consumed
        ∧ (t.packers.getD p default).outBytes = (s.packers.getD p default).outBytes + r.out.length
        ∧ (∀ i, i ≠ p → t.packers.getD i default = s.packers.getD i default) ∧ (t.cmds.any fun c => c.id == j.cmd) = false ∧ t.time = s.time))
  ∧ (∀ p choices, Event (fun k => .pkJobEnd k p choices []) (fun _ s => (s.packers.getD p default).jobs = []) (fun _ s => s))
  ∧ (∀ r l, EventTo (fun k => .mqItemAccept k 1)
      (fun _ s => mqTurn s 1 = true ∧ s.trig.records = r :: l ∧ mqRoom s (mqItemBytes r) = true)
      (fun _ s t => t.mq.seq = (s.mq.seq + 1) % 2 ^ 32 ∧ t.trig.records = l ∧ t.mq.dropped = s.mq.dropped ∧ t.mq.turn = 1
        ∧ t.mq.items = s.mq.items ++ [{ seq := s.mq.seq, start := s.mq.writePos, size := mqItemBytes r, accept := s.index }]
        ∧ t.mq.loss = s.mq.loss.filter (fun p => p != 1) ∧ t.time = s.time ∧ t.cmds = s.cmds))
  ∧ (∀ r l, EventTo (fun k => .mqItemAccept k 2)
      (fun _ s => mqTurn s 2 = true ∧ s.cap.queue = r :: l ∧ mqRoom s (mqItemBytes r) = true)
      (fun _ s t => t.mq.seq = (s.mq.seq + 1) % 2 ^ 32 ∧ t.cap.queue = l ∧ t.mq.loss = s.mq.loss.filter (fun p => p != 2) ∧ t.cmds = s.cmds))
  ∧ (∀ r l, EventTo (fun k => .mqItemAccept k 3)
      (fun _ s => mqTurn s 3 = true ∧ s.intg.queue = r :: l ∧ mqRoom s (mqItemBytes r) = true)
      (fun _ s t => t.mq.seq = (s.mq.seq + 1) % 2 ^ 32 ∧ t.intg.queue = l ∧ t.mq.loss = s.mq.loss.filter (fun p => p != 3) ∧ t.cmds = s.cmds))
  ∧ (∀ r l, EventTo (fun k => .mqItemAccept k 4)
      (fun _ s => mqTurn s 4 = true ∧ s.tdc.queue = r :: l ∧ mqRoom s (mqItemBytes r.2) = true)
      (fun _ s t => t.mq.seq = (s.mq.seq + 1) % 2 ^ 32 ∧ t.tdc.queue = l ∧ t.mq.loss = s.mq.loss.filter (fun p => p != 4) ∧ t.cmds = s.cmds))
  ∧ (∀ r l, Event (fun k => .mqItemAccept k 1)
      (fun _ s => mqTurn s 1 = true ∧ s.trig.records = r :: l ∧ mqRoom s (mqItemBytes r) = false)
      (fun _ s => { s with trig := { s.trig with records := l },
                           mq := { s.mq with turn := 1, dropped := satAdd 32 s.mq.dropped 1, loss := s.mq.loss.filter (fun p => p != 1) ++ [1] } }))
  ∧ (∀ producer, Event (fun k => .mqItemAccept k producer) (fun _ s => (producer = 5 → s.mq.open_ = none) ∧ mqTurn s producer = false) (fun _ s => s))
  ∧ (∀ h l, Event (fun k => .mqItemAccept k 5) (fun _ s => mqTurn s 5 = true ∧ s.mq.hostQueue = h :: l ∧ mqRoom s (mqItemBytes h.payload) = true)
      (fun _ s => setMq (fun m => { m with
        turn := 5, hostQueue := l, open_ := some { item := h, seq := m.seq, accept := s.index, loss := m.loss.contains 5, aborted := false },
        seq := (m.seq + 1) % 2 ^ 32, loss := m.loss.filter (fun p => p != 5) }) s))
  ∧ (∀ h l, EventTo (fun k => .mqItemAccept k 5) (fun _ s => mqTurn s 5 = true ∧ s.mq.hostQueue = h :: l ∧ mqRoom s (mqItemBytes h.payload) = false)
      (fun _ s t => t.mq.open_ = none ∧ t.mq.hostQueue = l ∧ t.mq.seq = s.mq.seq ∧ (t.cmds.any fun c => c.id == h.cmd) = false ∧ t.time = s.time))
  ∧ (∀ o, EventTo (fun k => .mqItemAccept k 5) (fun _ s => s.mq.open_ = some o)
      (fun _ s t => t.mq.open_ = none ∧ (t.cmds.any fun c => c.id == o.item.cmd) = false ∧ t.mq.seq = s.mq.seq ∧ t.mq.hostQueue = s.mq.hostQueue
        ∧ t.time = s.time))
  ∧ (∀ (s : State) (p q : Nat), s.mq.turn ≤ 5 → mqTurn s p = true → mqTurn s q = true → 1 ≤ p → p ≤ 5 → 1 ≤ q → q ≤ 5 → p = q)
  ∧ Event (fun k => .mqLingerExpiry k) (fun _ s => s.mq.open_.isSome = true) (fun _ s => s)
  ∧ EventTo (fun k => .mqLingerExpiry k) (fun _ s => s.mq.open_ = none ∧ s.mq.buffer ≠ [] ∧ s.mq.buffer.length < 64)
      (fun _ s t => t.mq.buffer = [] ∧ t.mq.lineEnd = s.mq.lineEnd + 64 ∧ t.mq.padBytes = satAdd 32 s.mq.padBytes (64 - s.mq.buffer.length)
        ∧ t.mq.items = s.mq.items ∧ t.time = s.time ∧ t.cmds = s.cmds)
  ∧ (∀ r, EventTo (fun k => .mqReadComplete k []) (fun _ s => s.mq.read = some r ∧ r.minItems ≤ (s.mq.readable s.mq.hostPos).length)
      (fun _ s t => t.mq.read = none ∧ (t.cmds.any fun c => c.id == r.cmd) = false ∧ t.time = s.time))
  ∧ (∀ r, Event (fun k => .mqReadComplete k []) (fun _ s => s.mq.read = some r ∧ (s.mq.readable s.mq.hostPos).length < r.minItems) (fun _ s => s))
  ∧ (∀ r, EventTo (fun k => .mqReadTimeout k []) (fun _ s => s.mq.read = some r)
      (fun _ s t => t.mq.read = none ∧ (t.cmds.any fun c => c.id == r.cmd) = false ∧ t.time = s.time))
  ∧ Event (fun k => .mqReadTimeout k []) (fun _ s => s.mq.read = none) (fun _ s => s)

/-! ### TDC, monitor-converter and maintenance events -/

/-- An edge of a TDC input (R471-R473, R476): within the dead time it is an overrun, else it is stamped and counted; the level monitors. The
measurements of the TDC slots (R483, R484, R486): one that times out is MISSED, a window closes with its result, and a probe is launched on its
schedule. It rests on the model's choices of log entries 40 and 52. -/
def Obligations.TdcEvents : Prop :=
  (∀ i cycle tap l, Event (fun k => .tdcEdge k i cycle tap)
      (fun _ s => tdcEnabled s i = true ∧ s.tdc.notReady = false ∧ delivering s = true ∧ (tdcInputOf s i).last = some l
        ∧ tdcRaw s i cycle tap < l + deadTicks s)
      (fun _ s => setTdcInput i (fun x => { x with active := true, overrun := satAdd 32 x.overrun 1 }) s))
  ∧ (∀ i cycle tap, EventTo (fun k => .tdcEdge k i cycle tap)
      (fun _ s => tdcEnabled s i = true ∧ s.tdc.notReady = false ∧ delivering s = true ∧ i < s.tdc.inputs.length
        ∧ (∀ l, (tdcInputOf s i).last = some l → l + deadTicks s ≤ tdcRaw s i cycle tap))
      (fun _ s t => (tdcInputOf t i).last = some (tdcRaw s i cycle tap) ∧ (tdcInputOf t i).accepted = ((tdcInputOf s i).accepted + 1) % 2 ^ 32
        ∧ (tdcInputOf t i).lastStamp = tdcStamp s i (tdcRaw s i cycle tap) ∧ (tdcInputOf t i).active = true
        ∧ (tdcInputOf t i).overrun = (tdcInputOf s i).overrun ∧ (∀ j, j ≠ i → tdcInputOf t j = tdcInputOf s j) ∧ t.time = s.time ∧ t.cmds = s.cmds))
  ∧ (∀ i cycle tap, Event (fun k => .tdcEdge k i cycle tap) (fun _ s => tdcEnabled s i = false ∨ s.tdc.notReady = true ∨ delivering s = false)
      (fun _ s => s))
  ∧ (∀ i, Event (fun k => .tdcStuckTimeout k i)
      (fun _ s => tdcEnabled s i = true ∧ (tdcInputOf s i).stuckUs ≠ 0 ∧ (tdcInputOf s i).stuck = false ∧ stuckDue s (tdcInputOf s i) = true
        ∧ (tdcInputOf s i).stuckNotice = true)
      (fun _ s => notify 0x0D01 [BitVec.ofNat 32 i] s.index
        (setTdcInput i (fun x => { x with active := true, stuck := true, stuckEvents := satAdd 32 x.stuckEvents 1 }) s)))
  ∧ (∀ i, Event (fun k => .tdcStuckTimeout k i)
      (fun _ s => tdcEnabled s i = true ∧ (tdcInputOf s i).stuckUs ≠ 0 ∧ (tdcInputOf s i).stuck = false ∧ stuckDue s (tdcInputOf s i) = true
        ∧ (tdcInputOf s i).stuckNotice = false)
      (fun _ s => setTdcInput i (fun x => { x with active := true, stuck := true, stuckEvents := satAdd 32 x.stuckEvents 1 }) s))
  ∧ (∀ i, Event (fun k => .tdcStuckTimeout k i)
      (fun _ s => (tdcInputOf s i).stuckUs = 0 ∨ (tdcInputOf s i).stuck = true ∨ stuckDue s (tdcInputOf s i) = false) (fun _ s => s))
  ∧ (∀ i, Event (fun k => .levelInactive k i) always (fun _ s => setTdcInput i (fun x => { x with active := false, stuck := false }) s))
  ∧ (∀ n, EventTo (fun k => .tdcMeasureTimeout k n)
      (fun k s => n < s.tdc.slots.length ∧ (tdcSlotOf s n).armed = true ∧ (tdcSlotOf s n).cfg.event = false ∧ (tdcSlotOf s n).open_.isSome = true
        ∧ timeoutTick s (tdcSlotOf s n) ≤ 16 * (k + 1) ∧ (tdcSlotOf s n).cfg.count = 0)
      (fun _ s t => (tdcSlotOf t n).open_ = none ∧ (tdcSlotOf t n).results = (tdcSlotOf s n).results + 1 ∧ (tdcSlotOf t n).armed = true
        ∧ (∀ i, i ≠ n → tdcSlotOf t i = tdcSlotOf s i) ∧ t.time = s.time ∧ t.cmds = s.cmds))
  ∧ (∀ n, Event (fun k => .tdcMeasureTimeout k n)
      (fun k s => (tdcSlotOf s n).armed = false ∨ (tdcSlotOf s n).open_ = none ∨ 16 * (k + 1) < timeoutTick s (tdcSlotOf s n)) (fun _ s => s))
  ∧ (∀ n x, EventTo (fun k => .tdcWindowClose k n)
      (fun k s => n < s.tdc.slots.length ∧ (tdcSlotOf s n).armed = true ∧ (tdcSlotOf s n).cfg.event = true
        ∧ windowCentre s (tdcSlotOf s n).cfg (tdcSlotOf s n).window = some x ∧ x + halfWindow32 (tdcSlotOf s n).cfg ≤ (k + 1) * 2 ^ 32
        ∧ (tdcSlotOf s n).cfg.count = 0)
      (fun _ s t => (tdcSlotOf t n).open_ = none ∧ (tdcSlotOf t n).results = (tdcSlotOf s n).results + 1
        ∧ (tdcSlotOf t n).window = (tdcSlotOf s n).window + 1 ∧ (∀ i, i ≠ n → tdcSlotOf t i = tdcSlotOf s i) ∧ t.time = s.time ∧ t.cmds = s.cmds))
  ∧ (∀ n, Event (fun k => .tdcWindowClose k n) (fun _ s => (tdcSlotOf s n).armed = false ∨ (tdcSlotOf s n).cfg.event = false) (fun _ s => s))
  ∧ (∀ n, Event (fun k => .probeLaunch k n)
      (fun k s => (tdcSlotOf s n).armed = true ∧ (tdcSlotOf s n).cfg.event = false ∧ 12 ≤ (tdcSlotOf s n).cfg.start ∧ (tdcSlotOf s n).suspended = false
        ∧ (tdcSlotOf s n).open_ = none ∧ delivering s = true ∧ (tdcSlotOf s n).launchBase ≤ k
        ∧ (k - (tdcSlotOf s n).launchBase) % (16 * max 1 (tdcSlotOf s n).cfg.spacing) = 0)
      (fun k s => emit (.probePulse ((tdcSlotOf s n).cfg.start - 12) k (tdcSlotOf s n).cfg.width)
        (setTdcSlot n (fun t => { t with
          launch := (k - t.launchBase) / (16 * max 1 t.cfg.spacing),
          open_ := some { first := tdcEdge s t.cfg.start (16 * k), byStart := true, extra := false } }) s)))
  ∧ (∀ n, Event (fun k => .probeLaunch k n)
      (fun _ s => (tdcSlotOf s n).open_ = none ∧ ((tdcSlotOf s n).armed = false ∨ (tdcSlotOf s n).suspended = true ∨ (tdcSlotOf s n).cfg.start < 12))
      (fun _ s => s))

/-- The monitor converter (R506-R509, R511): a conversion ends with its entry, and answers the MC_CONVERT that asked for it; a pass over the system
inputs falls due. It rests on the model's choices of log entries 65 and 67. -/
def Obligations.MonitorEvents : Prop :=
  (∀ volts value ov r cmd, EventTo (fun k => .mcConversionEnd k volts value ov)
      (fun _ s => s.mc.running = some r ∧ r.kind = .convert cmd ∧ r.input < s.mc.inputs.length ∧ r.input < 16)
      (fun _ s t => (∃ st, (mcInputOf t r.input).latest
            = mcEntry s r (limitCode (rawCode volts)) (roundDiv (limitCode (rawCode volts) * 1200000) (2 ^ 23))
                (ov || limitCode (rawCode volts) != rawCode volts) st
          ∧ st = limitStates (mcInputOf s r.input) (roundDiv (limitCode (rawCode volts) * 1200000) (2 ^ 23)))
        ∧ (t.cmds.any fun c => c.id == cmd) = false ∧ (∀ i, i ≠ r.input → mcInputOf t i = mcInputOf s i) ∧ t.time = s.time))
  ∧ (∀ volts value ov, Event (fun k => .mcConversionEnd k volts value ov) (fun _ s => s.mc.running = none) (fun _ s => s))
  ∧ Event (fun k => .mcSystemPass k) (fun _ s => s.mc.running.isSome = true) (fun _ s => { s with mc := { s.mc with sysDue := true } })
  ∧ (∀ i l, EventTo (fun k => .mcSystemPass k)
      (fun _ s => s.mc.running = none ∧ s.mc.urgents = [] ∧ s.mc.aborted = none ∧ s.mc.converts = [] ∧ coresRun s = true ∧ s.mc.sysPos = 0
        ∧ (systemInputs s).filter (fun i => decide (16 ≤ i)) = i :: l)
      (fun _ _ t => ∃ r, t.mc.running = some r ∧ r.input = i ∧ r.kind = .system))

/-- The calibration of the TDC lines (R477-R479, R533): a dwell ends with its line relieving the next input, or retired; the tables become ready; a
dwell that was deferred for 1 s takes priority. The maintenance arbiter (R531, R538): the first waiting activity that nothing holds back starts at
the next SC boundary, and a running measurement ends with its window. It rests on the model's choices of log entries 32, 69, 70 and 104. -/
def Obligations.MaintenanceEvents : Prop :=
  (∀ hits d, EventTo (fun k => .tdcDwellEnd k hits)
      (fun _ s => s.maint.dwell = some d ∧ d + dwellSamples ≤ s.index ∧ delivering s = true ∧ 2 ^ 20 - hits.sum ≤ 1024
        ∧ s.tdc.relief < s.tdc.inputs.length ∧ s.tdc.spare < s.tdc.lines.length)
      (fun _ s t => (tdcInputOf t s.tdc.relief).line = s.tdc.spare ∧ t.tdc.spare = (tdcInputOf s s.tdc.relief).line
        ∧ (t.tdc.lines.getD s.tdc.spare default).table = tapTable 0 hits
        ∧ t.tdc.relief = (s.tdc.relief + 1) % 12 ∧ t.tdc.dwells = s.tdc.dwells + 1 ∧ t.tdc.rotating = s.tdc.rotating ∧ t.maint.priority = false
        ∧ t.time = s.time ∧ t.cmds = s.cmds))
  ∧ (∀ hits d, EventTo (fun k => .tdcDwellEnd k hits)
      (fun _ s => s.maint.dwell = some d ∧ d + dwellSamples ≤ s.index ∧ delivering s = true ∧ 1024 < 2 ^ 20 - hits.sum
        ∧ s.tdc.spare < s.tdc.lines.length)
      (fun _ s t => t.tdc.rotating = false ∧ (t.tdc.lines.getD s.tdc.spare default).retired = true ∧ t.tdc.inputs = s.tdc.inputs ∧ t.maint.dwell = none
        ∧ t.tdc.spare = s.tdc.spare))
  ∧ (∀ hits, Event (fun k => .tdcDwellEnd k hits) (fun _ s => s.maint.dwell = none) (fun _ s => s))
  ∧ (∀ hits, EventTo (fun k => .tdcTablesReady k hits) (fun _ s => s.tdc.notReady = true ∧ locked s = true)
      (fun _ s t => t.tdc.notReady = false ∧ t.tdc.relief = 0 ∧ t.tdc.lines.length = s.tdc.lines.length
        ∧ (∀ l ∈ t.tdc.lines, l.calIndex = s.index ∧ l.calDwell = s.tdc.dwells) ∧ t.time = s.time ∧ t.cmds = s.cmds))
  ∧ (∀ hits, Event (fun k => .tdcTablesReady k hits) (fun _ s => s.tdc.notReady = false) (fun _ s => s))
  ∧ (∀ d, EventTo (fun k => .tdcCalPriority k)
      (fun _ s => s.maint.deferred = some d ∧ s.tdc.rotating = true ∧ d + fsOf s.time ≤ s.index ∧ s.maint.priority = false)
      (fun _ s t => t.maint.priority = true ∧ t.maint.acts = s.maint.acts ∧ t.time = s.time ∧ t.cmds = s.cmds))
  ∧ Event (fun k => .tdcCalPriority k) (fun _ s => s.maint.deferred = none ∨ s.tdc.rotating = false ∨ s.maint.priority = true) (fun _ s => s)
  ∧ Event (fun k => .activityStart k) (fun _ s => nextStart s = none) (fun _ s => s)
  ∧ (∀ a, Event (fun k => .activityStart k) (fun _ s => nextStart s = some a ∧ wayClear s a = false) (fun _ s => s))
  ∧ (∀ a, EventTo (fun k => .activityStart k) (fun _ s => nextStart s = some a ∧ wayClear s a = true ∧ a.codes = [3])
      (fun _ s t => t.maint.acts = s.maint.acts.map (fun x => if x.cmd == a.cmd then { x with start := some (nextBoundary s.index) } else x)
        ∧ t.cmds = s.cmds ∧ t.time = s.time))
  ∧ (∀ a c, EventTo (fun k => .activityStart k)
      (fun _ s => nextStart s = some a ∧ wayClear s a = true ∧ a.codes.contains 6 = true ∧ holdsTdr a.codes = false ∧ cmdById s a.cmd = some c
        ∧ (locked s = false ∨ runMode s ≠ .calibrate))
      (fun _ s t => (t.maint.acts.any fun x => x.cmd == a.cmd) = false ∧ (t.cmds.any fun d => d.id == a.cmd) = false ∧ t.time = s.time))
  ∧ (∀ a c e, EventTo (fun k => .calMeasureEnd k [])
      (fun _ s => (s.maint.acts.find? fun a => a.running && a.codes.contains 6) = some a ∧ cmdById s a.cmd = some c ∧ a.start = some e
        ∧ e + a.length ≤ s.index + 1 ∧ delivering s = true)
      (fun _ s t => (t.maint.acts.any fun x => x.cmd == a.cmd) = false ∧ (t.cmds.any fun d => d.id == a.cmd) = false ∧ t.time = s.time))
  ∧ Event (fun k => .calMeasureEnd k [])
      (fun _ s => (s.maint.acts.find? fun a => a.running && a.codes.contains 6) = none ∨ delivering s = false) (fun _ s => s)

/-! ### Display events -/

/-- The display's frame period (R549, R550, R560, R562, R566, R567): it starts in RUN, shows the composition that was completed, fixes the commits
at the latch line, and compares the frame it sent at its end. The panel's TE line and its commands (R565, R568). It rests on the model's choices of
log entries 71, 72 and 74. -/
def Obligations.DisplayEvents : Prop :=
  (∀ complete, EventTo (fun k => .dispFrameStart k complete [])
      (fun _ s => s.disp.mode = .run ∧ s.disp.timing.video = true ∧ s.disp.leaving = none ∧ s.disp.running = false)
      (fun k s t => t.disp.running = true ∧ t.disp.frame = 0 ∧ t.disp.fsIndex = k ∧ t.disp.fixed = s.disp.latched ∧ t.disp.pastLatch = false
        ∧ t.time = s.time ∧ t.cmds = s.cmds))
  ∧ EventTo (fun k => .dispFrameStart k true [])
      (fun _ s => s.disp.mode = .run ∧ s.disp.timing.video = true ∧ s.disp.leaving = none ∧ s.disp.running = true ∧ s.disp.linkReset = none)
      (fun k s t => t.disp.frame = (s.disp.frame + 1) % 2 ^ 32 ∧ t.disp.shown = s.disp.composed ∧ t.disp.fsIndex = k
        ∧ t.disp.overruns = s.disp.overruns ∧ t.disp.sending = true ∧ t.time = s.time ∧ t.cmds = s.cmds)
  ∧ EventTo (fun k => .dispFrameStart k false [])
      (fun _ s => s.disp.mode = .run ∧ s.disp.timing.video = true ∧ s.disp.leaving = none ∧ s.disp.running = true ∧ s.disp.linkReset = none)
      (fun k s t => t.disp.frame = (s.disp.frame + 1) % 2 ^ 32 ∧ t.disp.shown = s.disp.shown ∧ t.disp.fsIndex = k
        ∧ t.disp.overruns = satAdd 32 s.disp.overruns 1 ∧ t.time = s.time ∧ t.cmds = s.cmds)
  ∧ (∀ complete x, EventTo (fun k => .dispFrameStart k complete [])
      (fun _ s => s.disp.mode = .run ∧ s.disp.timing.video = true ∧ s.disp.leaving = none ∧ s.disp.running = true ∧ s.disp.linkReset = some x)
      (fun _ s t => t.disp.linkReset = none ∧ t.disp.linkResets = satAdd 32 s.disp.linkResets 1 ∧ t.disp.sending = false ∧ t.disp.consec = 0))
  ∧ (∀ complete, Event (fun k => .dispFrameStart k complete [])
      (fun _ s => s.disp.mode ≠ .run ∨ (s.disp.timing.video = false ∧ s.disp.teReady = false ∧ s.disp.teLost = false)) (fun _ s => s))
  ∧ Event (fun k => .dispLatchLine k) (fun _ s => s.disp.running = true ∧ s.disp.pastLatch = false)
      (fun _ s => { s with disp := { s.disp with pastLatch := true, fixed := s.disp.latched } })
  ∧ Event (fun k => .dispLatchLine k) (fun _ s => s.disp.running = false ∨ s.disp.pastLatch = true) (fun _ s => s)
  ∧ (∀ readback f, EventTo (fun k => .scanoutEnd k readback [])
      (fun _ s => s.disp.running = true ∧ s.disp.sending = true ∧ s.disp.compare = true ∧ s.disp.shown = some f
        ∧ BitVec.ofNat 32 (crc32c (frameLines s.disp.timing f.pixels).flatten) ≠ readback)
      (fun _ s t => t.disp.crcMismatches = satAdd 32 s.disp.crcMismatches 1 ∧ t.disp.consec = satAdd 8 s.disp.consec 1 ∧ t.disp.sending = false
        ∧ scanOut s.disp.timing (some f.number) (storedPixels s.disp.timing [] f.pixels) ∈ t.out ∧ t.time = s.time ∧ t.cmds = s.cmds))
  ∧ (∀ readback f o, EventTo (fun k => .scanoutEnd k readback [{ place := 260, offset := o, corrected := false }])
      (fun _ s => s.disp.running = true ∧ s.disp.sending = true ∧ s.disp.compare = true ∧ s.disp.shown = some f)
      (fun _ s t => t.disp.crcMismatches = satAdd 32 s.disp.crcMismatches 1 ∧ t.disp.storeUe = satAdd 16 s.disp.storeUe 1 ∧ t.disp.sending = false
        ∧ scanOut s.disp.timing (some f.number) (storedPixels s.disp.timing [o / 8] f.pixels) ∈ t.out))
  ∧ (∀ readback f, EventTo (fun k => .scanoutEnd k readback [])
      (fun _ s => s.disp.running = true ∧ s.disp.sending = true ∧ s.disp.compare = true ∧ s.disp.shown = some f
        ∧ BitVec.ofNat 32 (crc32c (frameLines s.disp.timing f.pixels).flatten) = readback)
      (fun _ s t => t.disp.crcMismatches = s.disp.crcMismatches ∧ t.disp.consec = 0 ∧ t.disp.sending = false ∧ t.cmds = s.cmds
        ∧ scanOut s.disp.timing (some f.number) (storedPixels s.disp.timing [] f.pixels) ∈ t.out))
  ∧ (∀ readback errors, Event (fun k => .scanoutEnd k readback errors) (fun _ s => s.disp.running = false ∨ s.disp.sending = false) (fun _ s => s))
  ∧ (∀ ns, Event (fun k => .teEdge k ns)
      (fun _ s => s.disp.mode = .run ∧ s.disp.timing.video = false ∧ (s.disp.running && s.disp.timing.early ns) = false ∧ s.disp.teLost = false)
      (fun _ s => { s with disp := { s.disp with teReady := true, teLost := false } }))
  ∧ (∀ ns, Event (fun k => .teEdge k ns)
      (fun _ s => s.disp.mode = .run ∧ s.disp.timing.video = false ∧ (s.disp.running && s.disp.timing.early ns) = true)
      (fun _ s => { s with disp := { s.disp with teIgnored := satAdd 16 s.disp.teIgnored 1 } }))
  ∧ (∀ ns, Event (fun k => .teEdge k ns) (fun _ s => s.disp.mode ≠ .run ∨ s.disp.timing.video = true) (fun _ s => s))
  ∧ Event (fun k => .teLostTimeout k) (fun _ s => s.disp.mode = .run ∧ s.disp.timing.video = false ∧ s.disp.teLost = false ∧ s.disp.teReady = false)
      (fun k s => notify 0x1002 [1, BitVec.ofNat 32 s.disp.teIgnored] k
        { s with disp := { s.disp with teLost := true, teLostEvents := satAdd 16 s.disp.teLostEvents 1 } })
  ∧ Event (fun k => .teLostTimeout k)
      (fun _ s => s.disp.mode ≠ .run ∨ s.disp.timing.video = true ∨ s.disp.teLost = true ∨ s.disp.teReady = true) (fun _ s => s)
  ∧ (∀ er resp id l c, Event (fun k => .panelCmdSend k er resp)
      (fun _ s => s.disp.panel = id :: l ∧ s.disp.panelWait = none ∧ cmdById s id = some c ∧ c.flag 0 24 = false ∧ c.src ≠ .pairLink)
      (fun _ s => complete c .ok (panelReply false false []) s.index { s with
        disp := { s.disp with panel := l, panelWait := none },
        out := s.out ++ [.dsiPacket (c.arg 0 5 0) ((bytesOfWords (c.params.drop 1)).take (c.arg 0 22 16))] }))
  ∧ (∀ er r id l c, Event (fun k => .panelCmdSend k er (some r))
      (fun _ s => s.disp.panel = id :: l ∧ s.disp.panelWait = none ∧ cmdById s id = some c ∧ c.flag 0 24 = true ∧ c.src ≠ .pairLink)
      (fun _ s => complete c .ok (panelReply er false r) s.index { s with
        disp := { s.disp with panel := l, panelWait := none },
        out := s.out ++ [.dsiPacket (c.arg 0 5 0) ((bytesOfWords (c.params.drop 1)).take (c.arg 0 22 16))] }))
  ∧ (∀ er id l c, Event (fun k => .panelCmdSend k er none)
      (fun _ s => s.disp.panel = id :: l ∧ s.disp.panelWait = none ∧ cmdById s id = some c ∧ c.flag 0 24 = true)
      (fun _ s => { s with
        disp := { s.disp with panelWait := some er },
        out := s.out ++ [.dsiPacket (c.arg 0 5 0) ((bytesOfWords (c.params.drop 1)).take (c.arg 0 22 16))] }))
  ∧ (∀ er resp, Event (fun k => .panelCmdSend k er resp) (fun _ s => s.disp.panel = [] ∨ s.disp.panelWait.isSome = true) (fun _ s => s))
  ∧ (∀ id l c, Event (fun k => .panelRespTimeout k)
      (fun _ s => s.disp.panelWait.isSome = true ∧ s.disp.panel = id :: l ∧ cmdById s id = some c ∧ c.src ≠ .pairLink)
      (fun _ s => complete c .ok (panelReply false true []) s.index { s with disp := { s.disp with panel := l, panelWait := none } }))
  ∧ Event (fun k => .panelRespTimeout k) (fun _ s => s.disp.panelWait = none) (fun _ s => s)

/-! ### Pair events -/

/-- The pair link, its heartbeats and the partner strobe (R582, R585-R587, R600). It rests on the model's choices of log entries 76 and 79. -/
def Obligations.PairLink : Prop :=
  Event (fun k => .heartbeatSend k) (fun _ s => coresRun s = true ∧ s.ready = true ∧ s.pair.link ≠ .up ∧ s.pair.suppressed = false)
      (fun _ s => { s with pair := { s.pair with live := (s.pair.live + 1) % 2 ^ 32, strobe := !s.pair.strobe } })
  ∧ EventTo (fun k => .heartbeatSend k) (fun _ s => coresRun s = true ∧ s.ready = true ∧ s.pair.link = .up)
      (fun _ s t => t.pair.live = (s.pair.live + 1) % 2 ^ 32 ∧ t.pair.strobe = !s.pair.strobe
        ∧ t.out = s.out ++ [.heartbeat (s.pair.role == .primary) s.pair.hbTimeout ((s.pair.live + 1) % 2 ^ 32) s.index s.pair.mseq (lastSentList s)])
  ∧ Event (fun k => .heartbeatSend k) (fun _ s => coresRun s = false ∧ s.pair.link ≠ .up) (fun _ s => s)
  ∧ (∀ hb, Event (fun k => .heartbeatReceive k hb) (fun _ s => s.pair.link ≠ .up) (fun _ s => s))
  ∧ (∀ hb, EventTo (fun k => .heartbeatReceive k hb) (fun _ s => s.pair.link = .up ∧ s.pair.role ≠ .mirror ∧ hb.mirror = true)
      (fun _ _ t => t.pair.role = .primary ∧ t.pair.mirrored = true ∧ t.pair.otherEligible = hb.eligible ∧ t.pair.deposed = false))
  ∧ (∀ hb, EventTo (fun k => .heartbeatReceive k hb)
      (fun _ s => s.pair.link = .up ∧ s.pair.role = .mirror ∧ hb.mirror = false ∧ hb.primary = true ∧ hb.lastSent = [])
      (fun _ s t => t.pair.otherLive = hb.live ∧ t.pair.otherHb = hb.hbTimeout ∧ t.pair.skew = (s.index : Int) - s.pair.latency - hb.index
        ∧ t.pair.role = .mirror ∧ t.pair.heardAt = some s.index
        ∧ t.pair.hbMissed = satAdd 32 s.pair.hbMissed (missedSince s s.index + if hb.live = s.pair.otherLive then 1 else 0)
        ∧ t.pair.liveAt = (if hb.live = s.pair.otherLive then s.pair.liveAt else some s.index)
        ∧ (12 < (skewOf hb s).natAbs → hb.coasting = false → s.time.tb = .locked → s.pair.condition = .eligible → t.pair.condition = .diverged)
        ∧ ((skewOf hb s).natAbs ≤ 12 → t.pair.condition = s.pair.condition)))
  ∧ Event (fun k => .liveStall k) (fun _ s => s.pair.role = .primary ∧ coresRun s = false)
      (fun _ s => { s with pair := { s.pair with suppressed := true } })
  ∧ Event (fun k => .liveStall k) (fun _ s => s.pair.role ≠ .primary ∨ coresRun s = true) (fun _ s => s)
  ∧ Event (fun k => .partnerStrobeEdge k) (fun _ s => s.pair.strobeEn = true) (fun _ s => { s with pair := { s.pair with strobeSeen := true } })
  ∧ Event (fun k => .partnerStrobeEdge k) (fun _ s => s.pair.strobeEn = false) (fun _ s => s)
  ∧ EventTo (fun k => .partnerStrobeTimeout k)
      (fun _ s => s.pair.strobeEn = false ∨ s.pair.role ≠ .mirror ∨ (s.pair.condition ≠ .isolated ∧ s.pair.liveAt = none))
      (fun _ s t => t.pair = { s.pair with strobeSeen := false } ∧ t.mode = s.mode)
  ∧ (∀ latency v compat later, Event (fun k => .pairLinkTrained k latency v compat later) (fun _ s => s.pair.linkEn = false) (fun _ s => s))
  ∧ (∀ latency v compat later, EventTo (fun k => .pairLinkTrained k latency v compat later)
      (fun _ s => s.pair.linkEn = true ∧ (v ≠ s.variant ∨ compat ≠ s.compat))
      (fun _ s t => t.pair = { s.pair with link := .incompatible, mirrored := false, otherEligible := false } ∧ t.mode = s.mode ∧ t.time = s.time))
  ∧ (∀ latency v compat later, EventTo (fun k => .pairLinkTrained k latency v compat later)
      (fun _ s => s.pair.linkEn = true ∧ v = s.variant ∧ compat = s.compat ∧ s.pair.role = .solo)
      (fun _ s t => t.pair = { s.pair with link := .up, latency := latency } ∧ t.mode = s.mode ∧ t.time = s.time))
  ∧ (∀ latency v compat, EventTo (fun k => .pairLinkTrained k latency v compat true)
      (fun _ s => s.pair.linkEn = true ∧ v = s.variant ∧ compat = s.compat ∧ s.pair.role = .primary)
      (fun _ _ t => t.pair.role = .solo ∧ t.pair.link = .up ∧ t.pair.deposed = true ∧ t.pair.suppressed = true))
  ∧ Event (fun k => .pairLinkDown k) (fun _ s => s.pair.link = .down) (fun _ s => s)
  ∧ EventTo (fun k => .pairLinkDown k) (fun _ s => s.pair.link ≠ .down ∧ s.pair.role = .solo)
      (fun _ s t => t.pair = { s.pair with link := .down, fourLanes := false, mirrored := false, otherEligible := false } ∧ t.mode = s.mode)
  ∧ (∀ id, EventTo (fun k => .pairLinkDown k)
      (fun _ s => s.pair.link ≠ .down ∧ s.pair.role = .mirror ∧ s.pair.condition = .joining ∧ s.pair.join = some id)
      (fun _ _ t => t.pair.role = .solo ∧ t.mode = .quiet ∧ t.pair.link = .down ∧ (t.cmds.any fun c => c.id == id) = false))
  ∧ Event (fun k => .pairLaneFail k) (fun _ s => s.pair.link ≠ .up) (fun _ s => s)
  ∧ EventTo (fun k => .pairLaneFail k) (fun _ s => s.pair.link = .up)
      (fun _ s t => t.pair = { s.pair with link := .training, fourLanes := true, retrains := satAdd 32 s.pair.retrains 1 })
  ∧ (∀ entry bytes port v6 dscp src dst mac addr, Event (fun k => .pairRelayPacket k entry bytes)
      (fun _ s => s.pair.link = .up ∧ (destOf s entry).dest = .udp port v6 dscp src dst mac addr ∧ destReady s entry = true)
      (fun _ s => sendTo entry bytes s))
  ∧ (∀ entry bytes, Event (fun k => .pairRelayPacket k entry bytes) (fun _ s => s.pair.link ≠ .up) (fun _ s => s))
  ∧ (∀ entry bytes, EventTo (fun k => .pairRelayPacket k entry bytes) (fun _ s => s.pair.link = .up ∧ (destOf s entry).dest = .none)
      (fun _ s t => t.pair = { s.pair with relayDropped := satAdd 32 s.pair.relayDropped 1 } ∧ t.out = s.out ∧ t.strm = s.strm))

/-- A primary that hears no more of itself yields, and a mirror takes over (R599, R600, R604, R608): the yielding device is SOLO, deposed and
silent; the mirror takes the mode that it shadowed, and the commands of its partner no longer answer. It rests on the model's choices of log entries
77 and 81. -/
def Obligations.Takeover : Prop :=
  (∀ k s, s.quiet = true → s.pair.link = .up → s.pair.role = .primary → ∃ t, exec (.takeoverRequestReceive k) s = .next t
      ∧ t.pair.role = .solo ∧ t.pair.deposed = true ∧ t.pair.suppressed = true ∧ t.mode = s.mode ∧ t.time = s.time)
  ∧ Event (fun k => .takeoverRequestReceive k) (fun _ s => s.pair.link ≠ .up ∨ s.pair.role ≠ .primary) (fun _ s => s)
  ∧ (∀ k port s, s.quiet = true → hasMirror s = true → s.pair.yieldMask.testBit 2 = true → (portOf s port).linkUp = false →
      (s.strm.ctxs.any fun c => c.started && c.cfg.entries.any fun e => match (destOf s e).dest with | .udp p _ _ _ _ _ _ => p == port | _ => false) = true →
      ∃ t, exec (.egressDownTimeout k port) s = .next t ∧ t.pair.role = .solo ∧ t.pair.deposed = true ∧ t.mode = s.mode ∧ t.time = s.time)
  ∧ (∀ port, Event (fun k => .egressDownTimeout k port) always (fun _ s => s))
  ∧ EventTo (fun k => .heartbeatTimeout k)
      (fun _ s => s.pair.role = .mirror ∧ conditionNow s = .eligible ∧ overdue s s.pair.liveAt = true
        ∧ (s.pair.strobeEn = false ∨ s.pair.strobeSeen = false))
      (fun _ s t => t.pair.role = .primary ∧ t.mode = s.shadowed ∧ t.pair.takeovers = satAdd 32 s.pair.takeovers 1 ∧ t.time = s.time
        ∧ (∀ c ∈ t.cmds, c.src = .pairLink → c.mute = true))
  ∧ EventTo (fun k => .heartbeatTimeout k)
      (fun _ s => s.pair.role = .mirror ∧ conditionNow s = .eligible ∧ overdue s s.pair.liveAt = true ∧ s.pair.strobeEn = true
        ∧ s.pair.strobeSeen = true ∧ overdue s s.pair.heardAt = true)
      (fun _ s t => t.pair = { s.pair with
          condition := .isolated, hbMissed := satAdd 32 s.pair.hbMissed (missedSince s s.index), heardAt := none } ∧ t.mode = s.mode ∧ t.time = s.time)
  ∧ Event (fun k => .heartbeatTimeout k)
      (fun _ s => s.pair.role ≠ .mirror ∨ overdue s s.pair.liveAt = false
        ∨ (s.pair.strobeEn = true ∧ s.pair.strobeSeen = true ∧ overdue s s.pair.heardAt = false)) (fun _ s => s)
  ∧ EventTo (fun k => .partnerStrobeTimeout k)
      (fun _ s => s.pair.role = .mirror ∧ s.pair.strobeEn = true
        ∧ (s.pair.condition = .isolated ∨ (conditionNow s = .eligible ∧ s.pair.liveAt.isSome = true ∧ overdue s s.pair.liveAt = true)))
      (fun _ s t => t.pair.role = .primary ∧ t.mode = s.shadowed ∧ t.time = s.time)
  ∧ EventTo (fun k => .yieldReceive k) (fun _ s => s.pair.link = .up ∧ mayTakeOver s = true)
      (fun _ s t => t.pair.role = .primary ∧ t.mode = s.shadowed ∧ t.pair.takeovers = satAdd 32 s.pair.takeovers 1 ∧ t.time = s.time)
  ∧ Event (fun k => .yieldReceive k) (fun _ s => s.pair.link ≠ .up ∨ mayTakeOver s = false) (fun _ s => s)
  ∧ (∀ w s, s.quiet = true → s.pair.role = .mirror → conditionNow s = .eligible → s.pair.switchAt = some w → ∃ t, exec (.switchIndex w) s = .next t
      ∧ t.pair.role = .primary ∧ t.pair.handover = some w ∧ t.mode = s.shadowed ∧ t.time = s.time)
  ∧ (∀ w s, s.quiet = true → s.pair.role = .solo → ∃ t, exec (.switchIndex w) s = .next t ∧ t.pair = s.pair ∧ t.mode = s.mode ∧ t.time = s.time)

/-- What the mirror receives (R588, R591, R593, R597): a forwarded MEM_WRITE is done at once, other commands wait in its queue, and a joining mirror
takes the snapshot and is ELIGIBLE from the join index on. It rests on the model's choices of log entries 75, 76, 80 and 103. -/
def Obligations.MirrorReceives : Prop :=
  (∀ f : Forwarded, Event (fun k => .forwardedCommand k f)
      (fun _ s => s.pair.link ≠ .up ∨ s.pair.role ≠ .mirror ∨ neverForwarded f.opcode = true) (fun _ s => s))
  ∧ (∀ f : Forwarded, EventTo (fun k => .forwardedCommand k f)
      (fun _ s => s.pair.link = .up ∧ s.pair.role = .mirror ∧ neverForwarded f.opcode = false ∧ f.origin < 18 ∧ f.opcode ≠ 0x0105 ∧ serves s = false)
      (fun _ s t => t.pair.mseq = f.mseq ∧ t.nextId = s.nextId + 1 ∧ (∃ c, t.cmds = s.cmds ++ [c] ∧ c.opcode = f.opcode ∧ c.src = .pairLink ∧ c.id = s.nextId
        ∧ c.tag = f.tag ∧ c.atIndex = f.atIndex ∧ c.inline = f.params ∧ c.mseq = f.mseq ∧ c.phase = .waiting)))
  ∧ (∀ (f : Forwarded) p, EventTo (fun k => .forwardedCommand k f)
      (fun _ s => s.pair.link = .up ∧ s.pair.role = .mirror ∧ f.origin < 18 ∧ f.opcode = 0x0105 ∧ partForUse s (f.params.getD 0 0) = some p
        ∧ writtenBy s (f.params.getD 0 0) = false
        ∧ (∀ c : Cmd, c.inline = f.params → c.indirect = false → c.plen = f.params.length → c.word 0 = f.params.getD 0 0 ∧ transferOk c p = true))
      (fun _ s t => t.pair.mseq = f.mseq ∧ t.cmds = s.cmds ∧ t.time = s.time ∧ t.mode = s.mode ∧ t.out = s.out ++ [.pairStatus f.mseq .ok]
        ∧ (∀ c : Cmd, c.inline = f.params → c.indirect = false → c.plen = f.params.length →
            t.pool = (poolWrite p.slot (c.word 1).toNat (f.data.take (c.word 2).toNat) s).pool)))
  ∧ (∀ mseq st, Event (fun k => .mirrorStatusReturn k mseq st) always (fun _ s => s))
  ∧ (∀ k mseq st a s, s.cmds = [] → s.pair.link = .up → s.pair.forwarded = [{ mseq := mseq, cmd := a, own := some st, other := none }] →
      st.isFirst = false → st.rejects = false →
      ∃ t, exec (.mirrorStatusReturn k mseq st) s = .next t ∧ t.pair.forwarded = [] ∧ t.pair.divergeMseq = s.pair.divergeMseq ∧ t.mode = s.mode)
  ∧ (∀ k mseq own st a s, s.cmds = [] → s.pair.link = .up → s.pair.forwarded = [{ mseq := mseq, cmd := a, own := some own, other := none }] →
      own.isFirst = false → own.code < 0x10 → st.rejects = true → ∃ t, exec (.mirrorStatusReturn k mseq st) s = .next t
        ∧ t.pair.divergeMseq = mseq ∧ t.pair.otherEligible = false ∧ t.mode = s.mode)
  ∧ (∀ m, Event (fun k => .mirrorStateReceive k m) (fun _ s => s.pair.link ≠ .up ∨ s.pair.role ≠ .mirror) (fun _ s => s))
  ∧ (∀ w, EventTo (fun k => .mirrorStateReceive k (.switchIndex w)) (fun _ s => s.pair.link = .up ∧ s.pair.role = .mirror)
      (fun _ s t => t.pair = { s.pair with switchAt := some w } ∧ t.mode = s.mode ∧ t.time = s.time))
  ∧ (∀ n seq cell ends, EventTo (fun k => .mirrorStateReceive k (.checkpoint n seq cell ends))
      (fun _ s => s.pair.link = .up ∧ s.pair.role = .mirror ∧ 1 < (ctxOf s n).cfg.pkind)
      (fun _ s t => t.pair.checkpoints = s.pair.checkpoints ++ [{ ctx := n, seq := seq, cell := cell, ends := ends }] ∧ t.strm = s.strm ∧ t.time = s.time))
  ∧ (∀ x, Event (fun k => .snapshotReceive k x) (fun _ s => s.pair.link ≠ .up ∨ s.pair.role ≠ .mirror ∨ s.pair.condition ≠ .joining) (fun _ s => s))
  ∧ (∀ x, EventTo (fun k => .snapshotReceive k x)
      (fun _ s => s.pair.link = .up ∧ s.pair.role = .mirror ∧ s.pair.condition = .joining ∧ x.mode ≠ .shadow ∧ skewed s = false)
      (fun _ s t => t.pair.joined = some s.index ∧ t.pair.m0 = x.m0 ∧ t.pair.joinMode = x.mode ∧ t.time.syncRef = x.time.syncRef
        ∧ t.time.syncIndex = x.time.syncIndex ∧ t.time.gen = x.time.gen ∧ t.time.tb = s.time.tb ∧ t.mode = s.mode
        ∧ t.strm.dests = x.strm.dests ∧ t.tdc.slots = x.tdc.slots ∧ t.pool.parts = bareParts x.pool.parts))
  ∧ (∀ x, EventTo (fun k => .snapshotReceive k x)
      (fun _ s => s.pair.link = .up ∧ s.pair.role = .mirror ∧ s.pair.condition = .joining ∧ x.mode ≠ .shadow ∧ skewed s = true)
      (fun _ s t => t.pair.role = .solo ∧ t.mode = .quiet ∧ t.time = s.time
        ∧ (∀ id, s.pair.join = some id → (t.cmds.any fun c => c.id == id) = false)))
  ∧ (∀ j a s, s.quiet = true → s.pair.role = .mirror → s.pair.condition = .joining → s.pair.joined = some a → j % 32 = 0 →
      a + ceilDiv (fsOf s.time) 1000 ≤ j → s.index ≤ j → locked s = true →
      ∃ t, exec (.joinIndex j) s = .next t ∧ t.pair.condition = (if s.pair.divergeMseq = 0 then .eligible else .diverged) ∧ t.index = j
        ∧ t.shadowed = s.pair.joinMode ∧ t.mode = s.mode ∧ t.time = s.time ∧ t.pair.join = none
        ∧ (∀ id, s.pair.join = some id → (t.cmds.any fun c => c.id == id) = false))

/-! ### Reset, power, supervision and firmware events -/

/-- Power and the resets (R615-R623, R629, R685, R687, R692): what a power-down, a WARM reset and a boot leave. Whether an image is signed is a free
value. The thermal trip (R629): samples, links, display and cores stop until a WARM reset once the die has cooled. It rests on the model's choices
of log entries 4, 39, 83, 84, 87, 89 and 110. -/
def Obligations.PowerAndReset : Prop :=
  (∀ k s, ∃ t, exec (.pwrGoodLow k) s = .next t ∧ t.ready = false ∧ t.mode = .quiet ∧ t.cmds = [] ∧ t.index = 0 ∧ t.time = TimeUnit.power
      ∧ t.pool = Pool.power ∧ t.pair = PairUnit.power ∧ t.faultCause = 0 ∧ t.bb = BlackBox.power ∧ t.dbg = DebugUnit.power ∧ t.pending = s.pending
      ∧ t.hub.fw.slots.map (fun f => f.data) = s.hub.fw.slots.map (fun f => f.data) ∧ t.hub.fw.preferred = s.hub.fw.preferred)
  ∧ (∀ fit refOk band s slot fb,
      bootChoice ((match fit with | some x => fitFlash x (powerDown s) | none => powerDown s).hub.fw) = some (slot, fb) →
      ∃ t, exec (.powerOn fit refOk band) s = .next t ∧ t.ready = true ∧ t.mode = .quiet ∧ t.cmds = [] ∧ t.hub.fw.running = slot
        ∧ t.hub.fw.recovery = false ∧ t.bb.fallback = fb ∧ t.pending = s.pending ∧ t.time.everLocked = refOk
        ∧ (refOk = true → t.time.tb = .locked ∧ t.index = TimeUnit.power.indexStart ∧ t.time.syncIndex = TimeUnit.power.indexStart))
  ∧ (∀ fit refOk band s, bootChoice ((match fit with | some x => fitFlash x (powerDown s) | none => powerDown s).hub.fw) = none →
      ∃ t, exec (.powerOn fit refOk band) s = .next t ∧ t.ready = false ∧ t.hub.fw.recovery = true ∧ bit t.faultCause 0 = true ∧ t.cmds = []
        ∧ t.pending = s.pending)
  ∧ EventTo (fun k => .resetNLow k) (fun _ s => s.hub.resetLow = false ∧ s.hub.tripped = false)
      (fun _ s t => t.hub.resetLow = true ∧ t.ready = false ∧ t.mode = .quiet ∧ t.cmds = [] ∧ t.pair.role = .solo ∧ t.dbg.level = 0 ∧ t.pool = Pool.power
        ∧ t.bb.lastReset = 1 ∧ t.bb.warmResets = satAdd 32 s.bb.warmResets 1 ∧ t.bb.live = s.bb.live ∧ t.time.tb = s.time.tb ∧ t.index = s.index
        ∧ t.hub.fw.slots = s.hub.fw.slots ∧ t.faultCause = s.faultCause ∧ t.pending = s.pending)
  ∧ EventTo (fun k => .resetNLow k) (fun _ s => s.hub.resetLow = false ∧ s.hub.tripped = true ∧ s.hub.cooled = false)
      (fun _ s t => t.hub.warmHeld = true ∧ t.hub.resetLow = true ∧ t.cmds = s.cmds ∧ t.mode = s.mode ∧ t.bb = s.bb)
  ∧ Event (fun k => .resetNLow k) (fun _ s => s.hub.resetLow = true) (fun _ s => s)
  ∧ (∀ slot, EventTo (fun k => .resetNRelease k)
      (fun _ s => s.hub.resetLow = true ∧ s.hub.tripped = false ∧ bootChoice s.hub.fw = some (slot, false))
      (fun _ s t => t.ready = true ∧ t.hub.resetLow = false ∧ t.hub.fw.running = slot ∧ t.hub.fw.recovery = false ∧ t.bb.fallback = false
        ∧ t.time = s.time ∧ t.pair.role = s.pair.role))
  ∧ EventTo (fun k => .resetNRelease k) (fun _ s => s.hub.resetLow = true ∧ s.hub.tripped = false ∧ bootChoice s.hub.fw = none)
      (fun _ _ t => t.ready = false ∧ t.hub.resetLow = false ∧ t.hub.fw.recovery = true ∧ bit t.faultCause 0 = true)
  ∧ Event (fun k => .resetNRelease k) (fun _ s => s.hub.resetLow = false) (fun _ s => s)
  ∧ EventTo (fun k => .bootStartTimeout k)
      (fun _ s => s.ready = true ∧ s.nextId = s.hub.bootId ∧ s.cmds = [] ∧ validImage s.hub.fw (otherSlot s.hub.fw.running) = false)
      (fun _ _ t => t.ready = false ∧ t.hub.fw.recovery = true ∧ bit t.faultCause 0 = true)
  ∧ EventTo (fun k => .bootStartTimeout k)
      (fun _ s => s.ready = true ∧ s.nextId = s.hub.bootId ∧ s.cmds = [] ∧ validImage s.hub.fw (otherSlot s.hub.fw.running) = true ∧ s.bb.fallback = false)
      (fun _ s t => t.ready = true ∧ t.hub.fw.running = otherSlot s.hub.fw.running ∧ t.bb.fallback = true)
  ∧ Event (fun k => .bootStartTimeout k) (fun _ s => s.ready = false ∨ s.nextId ≠ s.hub.bootId) (fun _ s => s)
  ∧ EventTo (fun k => .pcieReset k) always
      (fun _ s t => t.hub.pcieUp = false ∧ t.glob.msixEnabled = false ∧ t.glob.gintEnable = 0 ∧ t.mode = s.mode ∧ t.time = s.time ∧ t.pool = s.pool
        ∧ (∀ c ∈ t.cmds, isQp c.src = true → c.mute = true) ∧ (∀ d ∈ t.strm.dests, ∀ b n z p v i c m, d.dest ≠ .hostRing b n z p v i c m))
  ∧ (∀ msix dead, Event (fun k => .pcieLinkUp k msix dead) (fun _ s => s.hub.resetLow = false ∧ s.hub.tripped = false)
      (fun _ s => { s with hub := { s.hub with pcieUp := true }, glob := { s.glob with msixEnabled := msix, dead := dead } }))
  ∧ (∀ msix dead, Event (fun k => .pcieLinkUp k msix dead) (fun _ s => s.hub.resetLow = true ∨ s.hub.tripped = true) (fun _ s => s))
  ∧ (∀ input value, EventTo (fun k => .thermalTripEvent k input value) (fun _ s => s.hub.tripped = false)
      (fun _ _ t => t.hub.tripped = true ∧ t.hub.cooled = false ∧ t.hub.pcieUp = false ∧ bit t.faultCause 7 = true ∧ locked t = false
        ∧ t.disp.mode = .off ∧ t.disp.running = false ∧ t.pair.link = .down ∧ coresRun t = false ∧ (∀ p ∈ t.strm.ports, p.linkUp = false)))
  ∧ (∀ input value, Event (fun k => .thermalTripEvent k input value) (fun _ s => s.hub.tripped = true) (fun _ s => s))
  ∧ Event (fun k => .thermalTripClear k) (fun _ s => s.hub.tripped = true ∧ s.hub.warmHeld = false)
      (fun _ s => { s with hub := { s.hub with cooled := true } })
  ∧ EventTo (fun k => .thermalTripClear k) (fun _ s => s.hub.tripped = true ∧ s.hub.warmHeld = true ∧ s.hub.resetLow = true)
      (fun _ s t => t.bb.lastReset = 4 ∧ t.hub.tripped = false ∧ t.ready = false ∧ t.cmds = [] ∧ t.mode = .quiet ∧ t.pending = s.pending)
  ∧ Event (fun k => .thermalTripClear k) (fun _ s => s.hub.tripped = false) (fun _ s => s)

/-- The supervision of the cores (R624-R626): a mismatch takes the pair out of service until its self-test, the third within a day for good; the
watchdog does the same to late pairs, or resets the hub where none is left. The tile links (R21, R630): a failed SC is INV on both channels; a
retraining tile is INV until it succeeds, and after three tries for good. The flash (R636, R637, R647, R685): an erase ends with the data written,
and an activation ends with the new firmware or with BAD_PARAM. It rests on the model's choices of log entries 84, 86, 88 and 89. -/
def Obligations.HubEvents : Prop :=
  (∀ p pc, EventTo (fun k => .lockstepMismatch k p pc false [])
      (fun _ s => (coreOf s p).st = .running ∧ p < s.hub.cores.length ∧ coresRun s = true
        ∧ ((coreOf s p).halts.filter fun i => decide (s.index < i + 86400 * fsOf s.time)).length < 2)
      (fun _ s t => (coreOf t p).st = .recovering ∧ (coreOf t p).pc = pc ∧ (∀ i, i ≠ p → coreOf t i = coreOf s i)
        ∧ t.faultCause = s.faultCause ∧ t.cmds = s.cmds ∧ t.time = s.time ∧ t.mode = s.mode))
  ∧ (∀ p pc, EventTo (fun k => .lockstepMismatch k p pc false [])
      (fun _ s => (coreOf s p).st = .running ∧ p < s.hub.cores.length ∧ coresRun s = true
        ∧ 2 ≤ ((coreOf s p).halts.filter fun i => decide (s.index < i + 86400 * fsOf s.time)).length)
      (fun _ s t => (coreOf t p).st = .retired ∧ bit t.faultCause 4 = true ∧ t.cmds = s.cmds ∧ t.time = s.time))
  ∧ (∀ p pc ue begun, Event (fun k => .lockstepMismatch k p pc ue begun) (fun _ s => (coreOf s p).st ≠ .running) (fun _ s => s))
  ∧ (∀ p, EventTo (fun k => .coreSelftestEnd k p true)
      (fun _ s => (coreOf s p).st = .recovering ∧ p < s.hub.cores.length ∧ s.hub.tripped = false ∧ s.hub.resetLow = false ∧ s.hub.replies = [])
      (fun _ s t => (coreOf t p).st = .running ∧ t.bb.coreRecoveries = satAdd 32 s.bb.coreRecoveries 1 ∧ t.cmds = s.cmds ∧ t.time = s.time))
  ∧ (∀ p, EventTo (fun k => .coreSelftestEnd k p false)
      (fun _ s => (coreOf s p).st = .recovering ∧ p < s.hub.cores.length ∧ s.hub.tripped = false ∧ s.hub.resetLow = false)
      (fun _ s t => (coreOf t p).st = .retired ∧ bit t.faultCause 4 = true ∧ t.cmds = s.cmds ∧ t.time = s.time))
  ∧ (∀ p pass, Event (fun k => .coreSelftestEnd k p pass) (fun _ s => (coreOf s p).st ≠ .recovering) (fun _ s => s))
  ∧ (∀ p, EventTo (fun k => .watchdogExpiry k (2 ^ p))
      (fun _ s => s.ready = true ∧ s.hub.cores.length = 2 ∧ p < 2 ∧ s.hub.tripped = false ∧ s.hub.resetLow = false ∧ (coreOf s 0).st = .running
        ∧ (coreOf s 1).st = .running ∧ ((coreOf s p).halts.filter fun i => decide (s.index < i + 86400 * fsOf s.time)).length < 2)
      (fun _ s t => (coreOf t p).st = .recovering ∧ (coreOf t (1 - p)).st = .running ∧ t.cmds = s.cmds ∧ t.time = s.time))
  ∧ EventTo (fun k => .watchdogExpiry k 3)
      (fun _ s => s.ready = true ∧ s.hub.cores.length = 2 ∧ s.hub.tripped = false ∧ s.hub.resetLow = false ∧ (coreOf s 0).st = .running
        ∧ (coreOf s 1).st = .running)
      (fun _ s t => t.bb.lastReset = 3 ∧ t.bb.watchdogResets = satAdd 32 s.bb.watchdogResets 1 ∧ t.cmds = [] ∧ t.mode = .quiet ∧ t.pair.role = .solo
        ∧ t.index = (if delivering s then indexOfEdge s.time (refCountNow s + 1) else s.index))
  ∧ Event (fun k => .watchdogExpiry k 0) always (fun _ s => s)
  ∧ (∀ i, EventTo (fun k => .tileLinkSeqFail k i)
      (fun _ s => i < s.variant.tiles ∧ i < s.hub.tiles.length ∧ i < s.bb.linkErrors.length ∧ 2 * i + 1 < s.conv.channels.length
        ∧ (tileOf s i).attempt = 0 ∧ (tileOf s i).dead = none ∧ delivering s = true)
      (fun _ s t => t.bb.linkErrors.getD i 0 = satAdd 32 (s.bb.linkErrors.getD i 0) 1
        ∧ (channelOf t (2 * i)).inv = { lo := s.index / 32 * 32, hi := some (s.index / 32 * 32 + 32) } :: (channelOf s (2 * i)).inv
        ∧ (channelOf t (2 * i + 1)).inv = { lo := s.index / 32 * 32, hi := some (s.index / 32 * 32 + 32) } :: (channelOf s (2 * i + 1)).inv
        ∧ (tileOf t i).recent = recentFails s i ++ [s.index]
        ∧ t.cmds = s.cmds ∧ t.time = s.time))
  ∧ (∀ i, EventTo (fun k => .tileLinkRetrain k i)
      (fun _ s => i < s.variant.tiles ∧ i < s.hub.tiles.length ∧ 2 * i + 1 < s.conv.channels.length ∧ (tileOf s i).attempt = 0 ∧ (tileOf s i).dead = none
        ∧ 64 < (recentFails s i).length)
      (fun _ s t => (tileOf t i).attempt = 1 ∧ (tileOf t i).since = s.index + 1 ∧ ((channelOf t (2 * i)).tile.any fun x => x.hi.isNone) = true
        ∧ ((channelOf t (2 * i + 1)).tile.any fun x => x.hi.isNone) = true ∧ t.cmds = s.cmds ∧ t.time = s.time))
  ∧ (∀ i, EventTo (fun k => .tileRetrainEnd k i true)
      (fun _ s => (tileOf s i).attempt ≠ 0 ∧ i < s.hub.tiles.length ∧ 2 * i + 1 < s.conv.channels.length)
      (fun _ s t => (tileOf t i).attempt = 0 ∧ (tileOf t i).recent = [] ∧ ((channelOf t (2 * i)).tile.any fun x => x.hi.isNone) = false
        ∧ ((channelOf t (2 * i + 1)).tile.any fun x => x.hi.isNone) = false ∧ t.cmds = s.cmds ∧ t.time = s.time))
  ∧ (∀ i, EventTo (fun k => .tileRetrainEnd k i false)
      (fun _ s => (tileOf s i).attempt ≠ 0 ∧ (tileOf s i).attempt < 3 ∧ i < s.hub.tiles.length)
      (fun _ s t => (tileOf t i).attempt = (tileOf s i).attempt + 1 ∧ t.conv = s.conv ∧ t.faultCause = s.faultCause))
  ∧ (∀ i, EventTo (fun k => .tileRetrainEnd k i false)
      (fun _ s => 3 ≤ (tileOf s i).attempt ∧ i < s.hub.tiles.length)
      (fun _ s t => (tileOf t i).attempt = 0 ∧ (tileOf t i).dead = some (tileOf s i).since ∧ bit t.faultCause 3 = true ∧ t.conv = s.conv))
  ∧ (∀ i, Event (fun k => .tileLinkSeqFail k i) (fun _ s => s.variant.tiles ≤ i) (fun _ s => s))
  ∧ (∀ i ok, Event (fun k => .tileRetrainEnd k i ok) (fun _ s => (tileOf s i).attempt = 0) (fun _ s => s))
  ∧ (∀ x, EventTo (fun k => .flashEraseEnd k) (fun _ s => s.hub.fw.erase = some x ∧ x.slot < s.hub.fw.slots.length)
      (fun _ s t => t.hub.fw.erase = none ∧ t.hub.fw.loadOffset = x.data.length
        ∧ (t.hub.fw.slots.getD x.slot default).data = (flashWrite 0 x.data { data := [], valid := (s.hub.fw.slots.getD x.slot default).valid }).data
        ∧ (∀ i, i ≠ x.slot → t.hub.fw.slots.getD i default = s.hub.fw.slots.getD i default)
        ∧ (t.cmds.any fun c => c.id == x.cmd) = false ∧ t.time = s.time ∧ t.mode = s.mode))
  ∧ Event (fun k => .flashEraseEnd k) (fun _ s => s.hub.fw.erase = none) (fun _ s => s)
  ∧ (∀ pause x, EventTo (fun k => .fwImageReady k pause)
      (fun _ s => s.hub.fw.activate = some x ∧ (validImage s.hub.fw x.slot = false ∨ compatImage s.compat s.hub.fw x.slot = false))
      (fun _ s t => t.hub.fw.running = s.hub.fw.running ∧ t.hub.fw.activate = none ∧ t.hub.fw.preferred = s.hub.fw.preferred
        ∧ (t.cmds.any fun c => c.id == x.cmd) = false ∧ t.time = s.time ∧ t.mode = s.mode))
  ∧ (∀ pause x, EventTo (fun k => .fwImageReady k pause)
      (fun _ s => s.hub.fw.activate = some x ∧ validImage s.hub.fw x.slot = true ∧ compatImage s.compat s.hub.fw x.slot = true)
      (fun _ s t => t.hub.fw.running = x.slot ∧ t.hub.fw.activate = none
        ∧ t.hub.fw.preferred = (if x.prefer then x.slot else s.hub.fw.preferred)
        ∧ (t.cmds.any fun c => c.id == x.cmd) = false ∧ t.time = s.time ∧ t.mode = s.mode ∧ t.pool = s.pool))
  ∧ (∀ pause, Event (fun k => .fwImageReady k pause) (fun _ s => s.hub.fw.activate = none) (fun _ s => s))

/-! ### Debug events -/

/-- The debug port (R650-R658): instructions, the boundary scan, the gauntlet, and a transaction, which a closed or an OBSERVE port turns away. Challenges and whether
a response is right are free values. The run control of a pair (R663, R664): it halts by DCTRL, at a breakpoint or at a watchpoint, steps while it
is halted, and resumes. What its registers hold at a halt is a free value. It rests on the model's choices of log entries 91, 92, 93, 94, 95, 96, 97,
98 and 113. -/
def Obligations.DebugEvents : Prop :=
  Event (fun k => .tapReset k) always (fun _ s => { s with dbg := { s.dbg with ir := 0x01 } })
  ∧ (∀ code levels shifted, Event (fun k => .tapInstructionLoad k code levels shifted) (fun _ s => drivesPins (code % 256) = true ∧ s.hub.resetLow = false)
      (fun _ s => { s with dbg := { s.dbg with ir := 0xFF, testRefused := satAdd 32 s.dbg.testRefused 1 } }))
  ∧ (∀ code shifted, Event (fun k => .tapInstructionLoad k code [] shifted) (fun _ s => drivesPins (code % 256) = true ∧ s.hub.resetLow = true)
      (fun _ s => { s with dbg := { s.dbg with ir := code % 256 }, out := s.out ++ [.pinsDriven (drivenBalls (code % 256) s.dbg.cells)] }))
  ∧ (∀ levels shifted, Event (fun k => .tapInstructionLoad k 0x01 levels shifted) always
      (fun _ s => { s with dbg := { s.dbg with ir := 0x01 }, out := s.out ++ [.readData (bytesOfWords [idcode s])] }))
  ∧ (∀ levels shifted, Event (fun k => .tapInstructionLoad k 0x02 levels shifted) (fun _ _ => levels ≠ [])
      (fun _ s => { s with
        dbg := { s.dbg with ir := 0x02, cells := (shifted ++ s.dbg.cells.drop shifted.length).take scanRegister.length },
        out := s.out ++ [.scanOut ((List.range scanRegister.length).map fun i => levels.getD i false)] }))
  ∧ (∀ levels shifted, Event (fun k => .tapInstructionLoad k 0x21 levels shifted) always (fun _ s => { s with dbg := { s.dbg with ir := 0x21 } }))
  ∧ (∀ code levels shifted, Event (fun k => .tapInstructionLoad k code levels shifted) (fun _ _ => tapKnown (code % 256) = false)
      (fun _ s => { s with dbg := { s.dbg with ir := 0xFF } }))
  ∧ EventTo (fun k => .gauntletSelect k) (fun _ s => gauntletClosed s = false)
      (fun _ s t => t.dbg.ir = 0x20 ∧ t.dbg.challenge.length = 8 ∧ t.out = s.out ++ [.readData (bytesOfWords t.dbg.challenge)]
        ∧ t.dbg.level = s.dbg.level ∧ t.cmds = s.cmds)
  ∧ EventTo (fun k => .gauntletSelect k) (fun _ s => gauntletClosed s = true)
      (fun _ s t => t.dbg.ir = 0x20 ∧ t.dbg.challenge = [] ∧ t.out = s.out ++ [.readData (List.replicate 32 0)] ∧ t.dbg.level = s.dbg.level)
  ∧ (∀ r, EventTo (fun k => .gauntletResponse k r)
      (fun _ s => s.dbg.ir = 0x20 ∧ s.dbg.challenge ≠ [] ∧ gauntletClosed s = false
        ∧ ((r.extractLsb' 768 8).toNat = 1 ∨ (r.extractLsb' 768 8).toNat = 2) ∧ Config.debugKeyOk s.dbg.challenge r = true)
      (fun _ s t => t.dbg.level = (r.extractLsb' 768 8).toNat ∧ t.dbg.challenge = [] ∧ t.dbg.failures = s.dbg.failures ∧ t.cmds = s.cmds))
  ∧ (∀ r, EventTo (fun k => .gauntletResponse k r)
      (fun _ s => s.dbg.ir = 0x20 ∧ s.dbg.challenge ≠ [] ∧ gauntletClosed s = false
        ∧ ((r.extractLsb' 768 8).toNat ≠ 1 ∧ (r.extractLsb' 768 8).toNat ≠ 2 ∨ Config.debugKeyOk s.dbg.challenge r = false))
      (fun _ s t => t.dbg.level = s.dbg.level ∧ t.dbg.failures = s.dbg.failures + 1 ∧ (s.dbg.failures = 2 → t.dbg.challenge = []) ∧ t.cmds = s.cmds))
  ∧ (∀ r, Event (fun k => .gauntletResponse k r) (fun _ s => s.dbg.ir ≠ 0x20 ∨ s.dbg.challenge = [] ∨ gauntletClosed s = true) (fun _ s => s))
  ∧ (∀ space addr, Event (fun k => .dbgRead k space addr []) (fun _ s => s.dbg.ir ≠ 0x21) (fun _ s => s))
  ∧ (∀ space addr, EventTo (fun k => .dbgRead k space addr []) (fun _ s => s.dbg.ir = 0x21 ∧ s.dbg.level = 0)
      (fun _ s t => t.dbg = { s.dbg with data := 0, addr := addr, status := 1 } ∧ t.hub = s.hub ∧ t.pool = s.pool))
  ∧ (∀ addr, EventTo (fun k => .dbgRead k 0 addr [])
      (fun _ s => s.dbg.ir = 0x21 ∧ s.dbg.level ≠ 0 ∧ dbgPlace 0 addr = true)
      (fun _ s t => t.dbg.data = readReg s addr ∧ t.dbg.addr = addr ∧ t.dbg.status = 0 ∧ t.hub = s.hub ∧ t.pool = s.pool ∧ t.cmds = s.cmds))
  ∧ (∀ space addr v begun, EventTo (fun k => .dbgWrite k space addr v begun) (fun _ s => s.dbg.ir = 0x21 ∧ s.dbg.level = 1)
      (fun _ s t => t.dbg = { s.dbg with data := 0, addr := addr, status := 2 } ∧ t.hub = s.hub ∧ t.pool = s.pool ∧ t.qps = s.qps))
  ∧ (∀ addr v begun p, EventTo (fun k => .dbgWrite k 2 addr v begun)
      (fun _ s => s.dbg.ir = 0x21 ∧ s.dbg.level = 2 ∧ dbgPlace 2 addr = true ∧ poolPlace s addr = some p)
      (fun _ s t => t.pool = (poolWriteWord p.1 p.2 v s).pool ∧ t.dbg.status = 0 ∧ t.dbg.addr = addr ∧ t.dbg.writes = satAdd 32 s.dbg.writes 1
        ∧ t.cmds = s.cmds))
  ∧ (∀ space addr v begun, Event (fun k => .dbgWrite k space addr v begun) (fun _ s => s.dbg.ir ≠ 0x21) (fun _ s => s))
  ∧ EventTo (fun k => .dbgCtrlLock k) (fun _ s => s.dbg.ir = 0x21 ∧ s.dbg.level ≠ 0)
      (fun _ s t => t.dbg.level = 0 ∧ t.dbg.status = 0 ∧ t.hub = s.hub ∧ t.cmds = s.cmds)
  ∧ Event (fun k => .dbgCtrlLock k) (fun _ s => s.dbg.ir ≠ 0x21) (fun _ s => s)
  ∧ (∀ p, EventTo (fun k => .dctrlHalt k p [])
      (fun _ s => p < s.hub.cores.length ∧ p < 2 ∧ s.dbg.ir = 0x21 ∧ s.dbg.level = 2 ∧ (coreOf s p).st = .running ∧ s.hub.tripped = false
        ∧ s.hub.resetLow = false)
      (fun _ s t => (coreOf t p).st = .halted ∧ (coreOf t p).cause = 1 ∧ (coreOf t p).gprs.length = 31 ∧ (∀ i, i ≠ p → coreOf t i = coreOf s i)
        ∧ t.cmds = s.cmds ∧ t.time = s.time))
  ∧ (∀ p, EventTo (fun k => .dctrlResume k p)
      (fun _ s => p < s.hub.cores.length ∧ p < 2 ∧ s.dbg.ir = 0x21 ∧ s.dbg.level = 2 ∧ (coreOf s p).st = .halted ∧ s.hub.tripped = false
        ∧ s.hub.resetLow = false ∧ s.hub.replies = [])
      (fun _ s t => (coreOf t p).st = .running ∧ (coreOf t p).cause = 0 ∧ (∀ i, i ≠ p → coreOf t i = coreOf s i) ∧ t.cmds = s.cmds ∧ t.time = s.time))
  ∧ (∀ p, EventTo (fun k => .dctrlStep k p)
      (fun _ s => p < s.hub.cores.length ∧ p < 2 ∧ s.dbg.ir = 0x21 ∧ s.dbg.level = 2 ∧ (coreOf s p).st = .halted)
      (fun _ s t => (coreOf t p).st = .halted ∧ (coreOf t p).cause = 2 ∧ (∀ i, i ≠ p → coreOf t i = coreOf s i) ∧ t.cmds = s.cmds ∧ t.time = s.time))
  ∧ (∀ p n, EventTo (fun k => .breakpointHit k p n [])
      (fun _ s => p < s.hub.cores.length ∧ n < 4 ∧ bit (coreOf s p).bpEn n = true ∧ (coreOf s p).st = .running ∧ s.hub.tripped = false
        ∧ s.hub.resetLow = false)
      (fun _ s t => (coreOf t p).st = .halted ∧ (coreOf t p).cause = 3 ∧ (coreOf t p).number = n ∧ (coreOf t p).pc = (coreOf s p).bps.getD n 0
        ∧ (∀ i, i ≠ p → coreOf t i = coreOf s i) ∧ t.cmds = s.cmds))
  ∧ (∀ p n, Event (fun k => .breakpointHit k p n []) (fun _ s => bit (coreOf s p).bpEn n = false ∨ (coreOf s p).st ≠ .running) (fun _ s => s))
  ∧ (∀ p n, EventTo (fun k => .watchpointHit k p n [])
      (fun _ s => p < s.hub.cores.length ∧ n < 2 ∧ field ((coreOf s p).wpCtrl.getD n 0) 1 0 ≠ 0 ∧ (coreOf s p).st = .running ∧ s.hub.tripped = false
        ∧ s.hub.resetLow = false)
      (fun _ s t => (coreOf t p).st = .halted ∧ (coreOf t p).cause = 4 ∧ (coreOf t p).number = n ∧ (∀ i, i ≠ p → coreOf t i = coreOf s i)
        ∧ t.cmds = s.cmds))

/-! ### Held, refused and forwarded commands -/

/-- Effective indices (R31, R51, R56, R87): every command with TIMED is held for AT. The first held command takes effect by the row of its kind, is
refused with MODE where its mode has gone, and no row but that of its kind fires it; with nothing held nothing fires. It rests on the model's
choices of log entries 12 and 13. -/
def Obligations.HeldCommands : Prop :=
  (∀ x ∈ commandRows, x.2.opcode ≠ 0x1103 → ∀ k p s, accepted x.2 k p s = true → (rowCmd k p s).timed = true →
      exec (x.1 k p) s = .next (heldState (rowCmd k p s) (some (atOf p)) (rowState k p s)))
  ∧ (∀ c e s, due specSysNop c e s = true → c.timed = true → exec .timedExecute s = .next (repliesFirst (complete c .ok [] e) (passTo e s)))
  ∧ (∀ c e s, due specTimeOffset c e s = true → c.timed = false → exec .scheduledEffect s = .next (repliesFirst (fun a => complete c .ok [] e
      { a with time := { a.time with
        offsets := modAt a.time.offsets (c.arg 0 3 0) fun l => (e, signed 64 (c.arg64 1)) :: l.filter fun x => decide (x.1 < e) } }) (passTo e s)))
  ∧ (∀ c e s m, due specSysMode c e s = true → Mode.ofCode (c.arg 0 2 0) = some m → ∃ t, exec .modeChangeEffect s = .next t ∧ runMode t = m)
  ∧ (∀ x ∈ commandRows, ∀ c e i s, s.quiet = true → hasMirror s = false → firstHeld (fireable s) = some c → c.phase = .held (some e) → c.opcode = x.2.opcode →
      delivering s = true → modeOk x.2 c (runMode (passTo e s)) = false → firesIt c i → exec i s = .next (repliesFirst (complete c .mode [] e) (passTo e s)))
  ∧ (∀ c e s, firstHeld (fireable s) = some c → c.phase = .held (some e) → delivering s = true →
      (c.timed = false → exec .timedExecute s = .next s) ∧ (c.timed = true ∨ c.opcode = 0x0001 → exec .scheduledEffect s = .next s)
      ∧ (c.opcode ≠ 0x0001 → exec .modeChangeEffect s = .next s))
  ∧ (∀ s, (∀ c ∈ s.cmds, ∀ e, c.phase ≠ .held e) →
      exec .timedExecute s = .next s ∧ exec .scheduledEffect s = .next s ∧ exec .modeChangeEffect s = .next s)

/-- A command that fails a check of R50 answers the status of the first failed check, and has no other effect (R18, R48, R52), but that a failed
indirect read writes a black-box entry and latches DMA_ERROR (R48, R60). It rests on the model's choices of log entries 14 and 15. -/
def Obligations.RefusedCommands : Prop :=
  ∀ x ∈ commandRows, ∀ k p s st, heard x.2 k p s = true → checkCmd x.2 (rowCmd k p s) (rowState k p s) = some st →
    exec (x.1 k p) s = .next (complete (rowCmd k p s) st (if st.isResource then List.replicate x.2.refusedWords 0 else []) (rowState k p s).index
      (if st = .internal then
        latchGint 2 (bbWrite 0x12 0 0x1285 [BitVec.ofNat 32 x.2.opcode, tagOf p, BitVec.ofNat 32 (srcRank p.src)] (rowState k p s).index
          (rowState k p s))
      else rowState k p s))

/-- SYS_NOP (R87): without words it completes with OK and no payload; with TIMED it does so at AT; with FENCE it waits while an earlier command of its source
has not completed, and so reports that every one has. -/
def Obligations.MarkerCommand : Prop :=
  (∀ k p s, accepted specSysNop k p s = true → (rowCmd k p s).timed = false →
      exec (.sysNop k p) s = .next (repliesFirst (fun a => complete (rowCmd k p s) .ok [] a.index a) (rowState k p s)))
  ∧ (∀ k p s, heard specSysNop k p s = true → plenOf p ≠ 0 →
      exec (.sysNop k p) s = .next (complete (rowCmd k p s) .badLength [] (rowState k p s).index (rowState k p s)))
  ∧ (∀ k p s, accepted specSysNop k p s = true → (rowCmd k p s).timed = true →
      exec (.sysNop k p) s = .next (heldState (rowCmd k p s) (some (atOf p)) (rowState k p s)))
  ∧ (∀ c e s, due specSysNop c e s = true → c.timed = true → exec .timedExecute s = .next (repliesFirst (complete c .ok [] e) (passTo e s)))
  ∧ (∀ k p s d, s.quiet = true → hasMirror s = false → opcodeOf p = 0x0000 → takesFrom p.src (passTo k s) = true → (rowCmd k p s).fence = true →
      d ∈ s.cmds → d.id < s.nextId → d.origin = srcRank p.src → sameSource p.src d.src = true →
      exec (.sysNop k p) s = .next (rowState k p s))

/-- SYS_NOTICE_ROUTE directs the notices of one group, and those already generated keep their destination (R88); SYS_GET_INDEX returns the index as a DTS,
and its reply carries the same index (R90); TIME_SET_EPOCH sets EPOCH_TAI (R155). -/
def Obligations.SystemRules : Prop :=
  (∀ k p s c, accepted specSysNoticeRoute k p s = true → c = rowCmd k p s → s.routes.length = 20 →
      ∃ t, exec (.sysNoticeRoute k p) s = .next t ∧ c.plen = 1 ∧ c.arg 0 7 0 ≤ 0x13 ∧ c.arg 0 12 8 ≤ 17 ∧ routeOf t (c.arg 0 7 0) = c.arg 0 12 8
        ∧ (∀ g, g ≠ c.arg 0 7 0 → routeOf t g = routeOf s g) ∧ t.notices = s.notices)
  ∧ (∀ k p s c a st, heard specSysNoticeRoute k p s = true → c = rowCmd k p s → a = rowState k p s →
      (c.plen ≠ 1 ∧ st = .badLength
        ∨ c.plen = 1 ∧ badHeader specSysNoticeRoute c = false ∧ indirectFails c a = false ∧ (17 < c.arg 0 12 8 ∨ 0x13 < c.arg 0 7 0) ∧ st = .badParam) →
      exec (.sysNoticeRoute k p) s = .next (complete c st [] a.index a))
  ∧ (∀ k p s c a, accepted specSysGetIndex k p s = true → c = rowCmd k p s → a = rowState k p s →
      ∃ r : Entry, exec (.sysGetIndex k p) s = .next (repliesFirst (complete c .ok r.payload r.index) a) ∧ replyEntry c .ok r.payload r.index = r ∧ c.plen = 0
        ∧ r.payload = [0, BitVec.ofNat 32 a.index, BitVec.ofNat 32 (a.index / 2 ^ 32)] ∧ r.index = a.index)
  ∧ (∀ k p s c, accepted specTimeSetEpoch k p s = true → c = rowCmd k p s →
      ∃ t, exec (.timeSetEpoch k p) s = .next t ∧ t.time = { s.time with epochTai := (c.word 0).toNat + c.arg 1 15 0 * 2 ^ 32 })

/-- EQ_LOAD of a bank in use completes with BUSY and changes nothing (R212): in use is the active bank, both banks of a running swap, and the target of a
held request. -/
def Obligations.BankInUse : Prop :=
  ∀ k p s c a e, heard specEqLoad k p s = true → c = rowCmd k p s → a = rowState k p s →
    e = endSwap a.index (a.eqs.getD (c.arg 0 1 0) default) →
    c.plen = 35 → (isQp c.src = true → c.indirect = true) → badHeader specEqLoad c = false → indirectFails c a = false → c.arg 0 25 16 ≤ 960 →
    c.arg 0 1 0 < a.variant.channels → modeAt a a.index ≠ .shadow →
    (e.active = c.flag 0 8 ∨ e.running ≠ none ∨ ∃ h, e.held = some h ∧ h.bank = c.flag 0 8) →
    exec (.eqLoad k p) s = .next (complete c .busy [] a.index a)

/-- A primary forwards what its mirror is to do too (R61, R588-R590): with the next MSEQ, without INDIRECT, and a sample-domain action with TIMED
and its effective index, at least 4 µs ahead; with NOMIRROR it keeps the command to itself and counts it. It rests on the model's choice of log
entry 75. -/
def Obligations.Forwarding : Prop :=
  (∀ k p s c, s.quiet = true → hasMirror s = true → opcodeOf p = 0x0300 → takesFrom p.src (passTo k s) = true → s.hub.fw.recovery = false → c = rowCmd k p s →
      startable (rowState k p s) c = true → checkCmd specConvConfig c (rowState k p s) = none → c.noMirror = false →
      ∃ t, exec (.convConfig k p) s = .next t
        ∧ t.conv = { s.conv with channels := modAt s.conv.channels (c.arg 0 1 0) fun ch => { ch with
            guards := (nextSc t.index, c.arg 0 14 8) :: ch.guards.filter (fun x => decide (x.1 < nextSc t.index)),
            notices := (nextSc t.index, c.flag 0 16) :: ch.notices.filter (fun x => decide (x.1 < nextSc t.index)) } }
        ∧ t.pair = { s.pair with
            mseq := (s.pair.mseq + 1) % 2 ^ 32,
            forwarded := [{ mseq := (s.pair.mseq + 1) % 2 ^ 32, cmd := s.nextId, own := some .ok, other := none }] }
        ∧ .pairForward { mseq := (s.pair.mseq + 1) % 2 ^ 32, origin := srcRank p.src, opcode := 0x0300, flags := flagsOf p &&& 0xEF#8, tag := tagOf p,
                         atIndex := atOf p, params := c.params.take c.plen, data := [] } ∈ t.out)
  ∧ (∀ k p s c, s.quiet = true → hasMirror s = true → opcodeOf p = 0x0300 → takesFrom p.src (passTo k s) = true → s.hub.fw.recovery = false →
      c = rowCmd k p s → startable (rowState k p s) c = true → checkCmd specConvConfig c (rowState k p s) = none → c.noMirror = true →
      ∃ t, exec (.convConfig k p) s = .next t ∧ t.pair = { s.pair with noMirrorCount := satAdd 32 s.pair.noMirrorCount 1 })
  ∧ (∀ k p s c e, s.quiet = true → hasMirror s = true → opcodeOf p = 0x0301 → takesFrom p.src (passTo k s) = true → s.hub.fw.recovery = false →
      c = rowCmd k p s → startable (rowState k p s) c = true → checkCmd specConvAtten c (rowState k p s) = none → c.timed = false →
      c.noMirror = false → locked s = true → e = boundaryAfter (rowState k p s) 4000 →
      ∃ t, exec (.convAtten k p) s = .next t ∧ t.cmds = s.cmds.filter (fun d => d.id != s.nextId) ++ [{ c with phase := .held (some e) }]
        ∧ t.conv = s.conv
        ∧ .pairForward { mseq := (s.pair.mseq + 1) % 2 ^ 32, origin := srcRank p.src, opcode := 0x0301, flags := (flagsOf p &&& 0xEF#8) ||| 0x01#8, tag := tagOf p,
                         atIndex := e, params := c.params.take c.plen, data := [] } ∈ t.out)

/-! ### Reset, and what every step keeps -/

/-- After READY the device is in QUIET with the QUIET layout (R105): the LAYER and MQ partitions exist, every other AU is free, and the scrub period is 60 s. -/
def Obligations.AfterReady : Prop :=
  ∀ fit refOk band s, ∃ t, exec (.powerOn fit refOk band) s = .next t ∧ (t.ready = true ∨ t.hub.fw.recovery = true)
    ∧ (t.ready = true → t.mode = .quiet ∧ t.pool.parts.map (fun p => (p.handle, p.role, p.au)) = [(6, 6, 24), (7, 7, 1)] ∧ freeAu t = 359
      ∧ t.pool.scrubPeriod = 60)

/-- The device right after reset, as far as the spec says it (R75, R105, R135, R263, R291, R608): no command is in it, notices go to queue pair 0,
and the units hold their values after power-up. That it has not begun to boot and is a KA-4820 is the model's choice (log entry 4). The relations of
RoleKept, MemoryKept and NoticesKept hold in it. It rests on the model's choice of log entry 1. -/
def Obligations.ResetState : Prop :=
  State.reset.pending = [] ∧ State.reset.cmds = [] ∧ State.reset.ready = false ∧ State.reset.mode = .quiet ∧ State.reset.variant = .ka4820
  ∧ (∀ g, g < 20 → routeOf State.reset g = 0) ∧ State.reset.pool.scrubPeriod = 60
  ∧ (∀ e, e < 8 → (engineOf State.reset e).enabled = false ∧ (engineOf State.reset e).cfg.log2n = 10)
  ∧ (∀ c, c < 4 → (densOf State.reset c).enabled = false ∧ (densOf State.reset c).cfg.rows = 256 ∧ (densOf State.reset c).cfg.cols = 512
      ∧ (densOf State.reset c).cfg.frameSc = 10416667)
  ∧ State.reset.time.policy = 0 ∧ State.reset.pair.role = .solo ∧ State.reset.disp.mode = .off
  ∧ State.reset.roleFits = true ∧ State.reset.memWf = true ∧ State.reset.noticesFit = true

/-- Every step answers a next state, and only takes the front of the queue: no command of the table stops the device. It rests on the model's choice
of log entry 7. -/
def Obligations.QueueAdvances : Prop := ∀ s : State, ∃ t, step s = .next t ∧ t.pending = s.pending.tail

/-- A device is in SHADOW exactly while it is the MIRROR of a pair, and every step keeps it so (R38, R109, R597, R601, R604, R610). It rests on the
model's choice of log entry 75. -/
def Obligations.RoleKept : Prop := ∀ s t : State, s.roleFits = true → step s = .next t → t.roleFits = true

/-- The memories of the device keep their canonical form at every step. It rests on the model's choice of log entry 2. -/
def Obligations.MemoryKept : Prop := ∀ s t : State, s.memWf = true → step s = .next t → t.memWf = true

/-- A notice buffer never holds more than 64 entries (R76), whatever step is taken. -/
def Obligations.NoticesKept : Prop := ∀ s t : State, s.noticesFit = true → step s = .next t → t.noticesFit = true
end

