-- ==== Sys2Proof/Laws/Memory.lean ====
section
/-! SUPPORT. The cell lists of the pool and of the flash: every write keeps the canonical form, a read after a write gives the byte written, and every
other byte reads as before. -/

namespace Sys2Proof.Machine

/-- Every offset of a cell list lies above `n`. -/
def cellsAbove (n : Nat) (l : List Host.Cell) : Prop := ∀ c ∈ l, n < c.1

theorem cellsWf_cons {a : Nat} {b : Byte} {t : List Host.Cell} :
    cellsWf ((a, b) :: t) = true ↔ b ≠ 0 ∧ cellsAbove a t ∧ cellsWf t = true := by
  induction t generalizing a b with
  | nil => simp [cellsWf, cellsAbove]
  | cons x t ih =>
    obtain ⟨a', b'⟩ := x
    simp only [cellsWf, Bool.and_eq_true, bne_iff_ne, decide_eq_true_eq, ih, cellsAbove, List.mem_cons, forall_eq_or_imp]
    constructor
    · rintro ⟨⟨h1, h2⟩, h3, h4, h5⟩
      exact ⟨h1, ⟨h2, fun c hc => lt_trans h2 (h4 c hc)⟩, h3, h4, h5⟩
    · rintro ⟨h1, ⟨h2, _⟩, h3, h4, h5⟩
      exact ⟨⟨h1, h2⟩, h3, h4, h5⟩

theorem cellsAbove_writeCell {n o : Nat} {b : Byte} {l : List Host.Cell} (h : cellsAbove n l) (ho : n < o) :
    cellsAbove n (writeCell l o b) := by
  induction l with
  | nil =>
    simp only [writeCell]
    split_ifs <;> simp [cellsAbove, ho]
  | cons x t ih =>
    obtain ⟨a, y⟩ := x
    have ht : cellsAbove n t := fun c hc => h c (List.mem_cons_of_mem _ hc)
    have ha : n < a := h (a, y) List.mem_cons_self
    simp only [writeCell]
    split_ifs <;> intro c hc <;> try simp only [List.mem_cons] at hc
    · exact hc.elim (fun e => e ▸ ha) (ht c)
    · exact hc.elim (fun e => e ▸ ho) (fun e => e.elim (fun e => e ▸ ha) (ht c))
    · exact ht c hc
    · exact hc.elim (fun e => e ▸ ho) (ht c)
    · exact hc.elim (fun e => e ▸ ha) (ih ht c)

/-- A write of one byte keeps the canonical form. -/
theorem cellsWf_writeCell {l : List Host.Cell} (o : Nat) (b : Byte) (h : cellsWf l = true) : cellsWf (writeCell l o b) = true := by
  induction l with
  | nil =>
    simp only [writeCell]
    split_ifs with hb
    · rfl
    · simpa [cellsWf] using hb
  | cons x t ih =>
    obtain ⟨a, y⟩ := x
    obtain ⟨hy, ha, ht⟩ := cellsWf_cons.mp h
    simp only [writeCell]
    split_ifs with h1 h2 h3 h4
    · exact h
    · refine cellsWf_cons.mpr ⟨by simpa using h2, ?_, h⟩
      intro c hc
      rcases List.mem_cons.mp hc with rfl | hc
      · exact h1
      · exact lt_trans h1 (ha c hc)
    · exact ht
    · have e : o = a := by simpa using h3
      exact cellsWf_cons.mpr ⟨by simpa using h4, e ▸ ha, ht⟩
    · have e : o ≠ a := by simpa using h3
      exact cellsWf_cons.mpr ⟨hy, cellsAbove_writeCell ha (by omega), ih ht⟩

theorem readCell_above {n o : Nat} {l : List Host.Cell} (h : cellsAbove n l) (ho : o ≤ n) : readCell l o = 0 := by
  induction l with
  | nil => rfl
  | cons x t ih =>
    obtain ⟨a, y⟩ := x
    have ha : n < a := h (a, y) List.mem_cons_self
    have e : ¬ a = o := by omega
    simp [readCell, e, ih fun c hc => h c (List.mem_cons_of_mem _ hc)]

/-- A read after a write to the same offset gives the byte written. -/
theorem readCell_writeCell_same {l : List Host.Cell} (o : Nat) (b : Byte) (h : cellsWf l = true) : readCell (writeCell l o b) o = b := by
  induction l with
  | nil =>
    simp only [writeCell]
    split_ifs with hb
    · simpa [readCell] using (beq_iff_eq.mp hb).symm
    · simp [readCell]
  | cons x t ih =>
    obtain ⟨a, y⟩ := x
    obtain ⟨hy, ha, ht⟩ := cellsWf_cons.mp h
    simp only [writeCell]
    split_ifs with h1 h2 h3 h4
    · have hb : b = 0 := by simpa using h2
      have e : ¬ a = o := by omega
      simp [readCell, e, hb, readCell_above ha (Nat.le_of_lt h1)]
    · simp [readCell]
    · have e : o = a := by simpa using h3
      have hb : b = 0 := by simpa using h4
      rw [hb, readCell_above ha (by omega)]
    · simp [readCell]
    · have e : ¬ a = o := fun e => h3 (by simp [e])
      simp [readCell, e, ih ht]

/-- A write leaves every other offset alone. -/
theorem readCell_writeCell_other {l : List Host.Cell} {o o' : Nat} (b : Byte) (h : o' ≠ o) : readCell (writeCell l o b) o' = readCell l o' := by
  have e : ¬ o = o' := fun e => h e.symm
  induction l with
  | nil =>
    simp only [writeCell]
    split_ifs <;> simp [readCell, e]
  | cons x t ih =>
    obtain ⟨a, y⟩ := x
    simp only [writeCell]
    split_ifs with h1 h2 h3 h4
    · rfl
    · simp [readCell, e]
    · have ha : ¬ a = o' := by
        have : o = a := by simpa using h3
        omega
      simp [readCell, ha]
    · have ha : ¬ a = o' := by
        have : o = a := by simpa using h3
        omega
      simp [readCell, e, ha]
    · simp [readCell, ih]

theorem cellsWf_writeCells {l : List Host.Cell} (o : Nat) (bs : List Byte) (h : cellsWf l = true) : cellsWf (writeCells l o bs) = true := by
  induction bs generalizing l o with
  | nil => exact h
  | cons b bs ih => exact ih (o + 1) (cellsWf_writeCell o b h)

/-- A write of bytes leaves every offset outside it alone. -/
theorem readCell_writeCells_outside {l : List Host.Cell} {o o' : Nat} {bs : List Byte} (h : o' < o ∨ o + bs.length ≤ o') :
    readCell (writeCells l o bs) o' = readCell l o' := by
  induction bs generalizing l o with
  | nil => rfl
  | cons b bs ih =>
    simp only [List.length_cons] at h
    rw [writeCells, ih (by omega), readCell_writeCell_other b (by omega)]

/-- A read inside a write of bytes gives the byte written. -/
theorem readCell_writeCells_inside {l : List Host.Cell} {o i : Nat} {bs : List Byte} (hl : cellsWf l = true) (h : i < bs.length) :
    readCell (writeCells l o bs) (o + i) = bs[i] := by
  induction bs generalizing l o i with
  | nil => simp at h
  | cons b bs ih =>
    cases i with
    | zero =>
      rw [writeCells, readCell_writeCells_outside (by omega)]
      simpa using readCell_writeCell_same o b hl
    | succ i =>
      have h' : i < bs.length := by simpa using h
      have := ih (l := writeCell l o b) (o := o + 1) (cellsWf_writeCell o b hl) h'
      rw [writeCells, show o + (i + 1) = o + 1 + i by omega, this]
      simp

/-- The partitions keep their canonical form under a change of one that keeps it. -/
theorem memWf_setPart {s : State} {slot : Nat} {f : Partition → Partition} (h : s.memWf = true)
    (hf : ∀ p : Partition, cellsWf p.data = true → cellsWf (f p).data = true) : (setPart slot f s).memWf = true := by
  simp only [State.memWf, Bool.and_eq_true, List.all_eq_true] at h ⊢
  refine ⟨fun p hp => ?_, h.2⟩
  simp only [setPart, List.mem_map] at hp
  obtain ⟨q, hq, rfl⟩ := hp
  split_ifs
  · exact hf q (h.1 q hq)
  · exact h.1 q hq

/-- A write to the pool keeps the canonical form. -/
theorem memWf_poolWrite {s : State} (slot o : Nat) (bytes : List Byte) (h : s.memWf = true) : (poolWrite slot o bytes s).memWf = true :=
  memWf_setPart h fun _ hp => cellsWf_writeCells _ _ hp

/-- The memory at reset is in canonical form. -/
theorem memWf_reset : State.reset.memWf = true := by decide

end Sys2Proof.Machine
end

