-- ==== Sys2Proof/Laws/State.lean ====
section
/-! SUPPORT. One lemma per field per update of the state: what the update writes, and that it leaves every other field alone. -/

namespace Sys2Proof.Machine

variable (s : State)

section
variable (o : Output)
@[simp] theorem emit_pending : (emit o s).pending = s.pending := rfl
@[simp] theorem emit_out : (emit o s).out = s.out ++ [o] := rfl
@[simp] theorem emit_variant : (emit o s).variant = s.variant := rfl
@[simp] theorem emit_compat : (emit o s).compat = s.compat := rfl
@[simp] theorem emit_index : (emit o s).index = s.index := rfl
@[simp] theorem emit_ready : (emit o s).ready = s.ready := rfl
@[simp] theorem emit_mode : (emit o s).mode = s.mode := rfl
@[simp] theorem emit_shadowed : (emit o s).shadowed = s.shadowed := rfl
@[simp] theorem emit_nextId : (emit o s).nextId = s.nextId := rfl
@[simp] theorem emit_cmds : (emit o s).cmds = s.cmds := rfl
@[simp] theorem emit_qps : (emit o s).qps = s.qps := rfl
@[simp] theorem emit_spi : (emit o s).spi = s.spi := rfl
@[simp] theorem emit_ctlport : (emit o s).ctlport = s.ctlport := rfl
@[simp] theorem emit_routes : (emit o s).routes = s.routes := rfl
@[simp] theorem emit_notices : (emit o s).notices = s.notices := rfl
@[simp] theorem emit_aside : (emit o s).aside = s.aside := rfl
@[simp] theorem emit_glob : (emit o s).glob = s.glob := rfl
@[simp] theorem emit_pool : (emit o s).pool = s.pool := rfl
@[simp] theorem emit_time : (emit o s).time = s.time := rfl
@[simp] theorem emit_conv : (emit o s).conv = s.conv := rfl
@[simp] theorem emit_eqs : (emit o s).eqs = s.eqs := rfl
@[simp] theorem emit_tuners : (emit o s).tuners = s.tuners := rfl
@[simp] theorem emit_engines : (emit o s).engines = s.engines := rfl
@[simp] theorem emit_dens : (emit o s).dens = s.dens := rfl
@[simp] theorem emit_spgm : (emit o s).spgm = s.spgm := rfl
@[simp] theorem emit_trig : (emit o s).trig = s.trig := rfl
@[simp] theorem emit_cap : (emit o s).cap = s.cap := rfl
@[simp] theorem emit_intg : (emit o s).intg = s.intg := rfl
@[simp] theorem emit_th : (emit o s).th = s.th := rfl
@[simp] theorem emit_strm : (emit o s).strm = s.strm := rfl
@[simp] theorem emit_packers : (emit o s).packers = s.packers := rfl
@[simp] theorem emit_mq : (emit o s).mq = s.mq := rfl
@[simp] theorem emit_tdc : (emit o s).tdc = s.tdc := rfl
@[simp] theorem emit_mc : (emit o s).mc = s.mc := rfl
@[simp] theorem emit_maint : (emit o s).maint = s.maint := rfl
@[simp] theorem emit_disp : (emit o s).disp = s.disp := rfl
@[simp] theorem emit_hub : (emit o s).hub = s.hub := rfl
@[simp] theorem emit_dbg : (emit o s).dbg = s.dbg := rfl
@[simp] theorem emit_pair : (emit o s).pair = s.pair := rfl
@[simp] theorem emit_bb : (emit o s).bb = s.bb := rfl
@[simp] theorem emit_faultCause : (emit o s).faultCause = s.faultCause := rfl
@[simp] theorem emit_faultActive : (emit o s).faultActive = s.faultActive := rfl
@[simp] theorem emit_hist : (emit o s).hist = s.hist := rfl
@[simp] theorem emit_free : (emit o s).free = s.free := rfl
end

section
variable (q : Nat) (f : QueuePair → QueuePair)
@[simp] theorem setQp_pending : (setQp q f s).pending = s.pending := rfl
@[simp] theorem setQp_out : (setQp q f s).out = s.out := rfl
@[simp] theorem setQp_variant : (setQp q f s).variant = s.variant := rfl
@[simp] theorem setQp_compat : (setQp q f s).compat = s.compat := rfl
@[simp] theorem setQp_index : (setQp q f s).index = s.index := rfl
@[simp] theorem setQp_ready : (setQp q f s).ready = s.ready := rfl
@[simp] theorem setQp_mode : (setQp q f s).mode = s.mode := rfl
@[simp] theorem setQp_shadowed : (setQp q f s).shadowed = s.shadowed := rfl
@[simp] theorem setQp_nextId : (setQp q f s).nextId = s.nextId := rfl
@[simp] theorem setQp_cmds : (setQp q f s).cmds = s.cmds := rfl
@[simp] theorem setQp_qps : (setQp q f s).qps = modAt s.qps q f := rfl
@[simp] theorem setQp_spi : (setQp q f s).spi = s.spi := rfl
@[simp] theorem setQp_ctlport : (setQp q f s).ctlport = s.ctlport := rfl
@[simp] theorem setQp_routes : (setQp q f s).routes = s.routes := rfl
@[simp] theorem setQp_notices : (setQp q f s).notices = s.notices := rfl
@[simp] theorem setQp_aside : (setQp q f s).aside = s.aside := rfl
@[simp] theorem setQp_glob : (setQp q f s).glob = s.glob := rfl
@[simp] theorem setQp_pool : (setQp q f s).pool = s.pool := rfl
@[simp] theorem setQp_time : (setQp q f s).time = s.time := rfl
@[simp] theorem setQp_conv : (setQp q f s).conv = s.conv := rfl
@[simp] theorem setQp_eqs : (setQp q f s).eqs = s.eqs := rfl
@[simp] theorem setQp_tuners : (setQp q f s).tuners = s.tuners := rfl
@[simp] theorem setQp_engines : (setQp q f s).engines = s.engines := rfl
@[simp] theorem setQp_dens : (setQp q f s).dens = s.dens := rfl
@[simp] theorem setQp_spgm : (setQp q f s).spgm = s.spgm := rfl
@[simp] theorem setQp_trig : (setQp q f s).trig = s.trig := rfl
@[simp] theorem setQp_cap : (setQp q f s).cap = s.cap := rfl
@[simp] theorem setQp_intg : (setQp q f s).intg = s.intg := rfl
@[simp] theorem setQp_th : (setQp q f s).th = s.th := rfl
@[simp] theorem setQp_strm : (setQp q f s).strm = s.strm := rfl
@[simp] theorem setQp_packers : (setQp q f s).packers = s.packers := rfl
@[simp] theorem setQp_mq : (setQp q f s).mq = s.mq := rfl
@[simp] theorem setQp_tdc : (setQp q f s).tdc = s.tdc := rfl
@[simp] theorem setQp_mc : (setQp q f s).mc = s.mc := rfl
@[simp] theorem setQp_maint : (setQp q f s).maint = s.maint := rfl
@[simp] theorem setQp_disp : (setQp q f s).disp = s.disp := rfl
@[simp] theorem setQp_hub : (setQp q f s).hub = s.hub := rfl
@[simp] theorem setQp_dbg : (setQp q f s).dbg = s.dbg := rfl
@[simp] theorem setQp_pair : (setQp q f s).pair = s.pair := rfl
@[simp] theorem setQp_bb : (setQp q f s).bb = s.bb := rfl
@[simp] theorem setQp_faultCause : (setQp q f s).faultCause = s.faultCause := rfl
@[simp] theorem setQp_faultActive : (setQp q f s).faultActive = s.faultActive := rfl
@[simp] theorem setQp_hist : (setQp q f s).hist = s.hist := rfl
@[simp] theorem setQp_free : (setQp q f s).free = s.free := rfl
end

section
variable (d : Nat) (f : NoticeBuffer → NoticeBuffer)
@[simp] theorem setNoticeBuf_pending : (setNoticeBuf d f s).pending = s.pending := rfl
@[simp] theorem setNoticeBuf_out : (setNoticeBuf d f s).out = s.out := rfl
@[simp] theorem setNoticeBuf_variant : (setNoticeBuf d f s).variant = s.variant := rfl
@[simp] theorem setNoticeBuf_compat : (setNoticeBuf d f s).compat = s.compat := rfl
@[simp] theorem setNoticeBuf_index : (setNoticeBuf d f s).index = s.index := rfl
@[simp] theorem setNoticeBuf_ready : (setNoticeBuf d f s).ready = s.ready := rfl
@[simp] theorem setNoticeBuf_mode : (setNoticeBuf d f s).mode = s.mode := rfl
@[simp] theorem setNoticeBuf_shadowed : (setNoticeBuf d f s).shadowed = s.shadowed := rfl
@[simp] theorem setNoticeBuf_nextId : (setNoticeBuf d f s).nextId = s.nextId := rfl
@[simp] theorem setNoticeBuf_cmds : (setNoticeBuf d f s).cmds = s.cmds := rfl
@[simp] theorem setNoticeBuf_qps : (setNoticeBuf d f s).qps = s.qps := rfl
@[simp] theorem setNoticeBuf_spi : (setNoticeBuf d f s).spi = s.spi := rfl
@[simp] theorem setNoticeBuf_ctlport : (setNoticeBuf d f s).ctlport = s.ctlport := rfl
@[simp] theorem setNoticeBuf_routes : (setNoticeBuf d f s).routes = s.routes := rfl
@[simp] theorem setNoticeBuf_notices : (setNoticeBuf d f s).notices = modAt s.notices d f := rfl
@[simp] theorem setNoticeBuf_aside : (setNoticeBuf d f s).aside = s.aside := rfl
@[simp] theorem setNoticeBuf_glob : (setNoticeBuf d f s).glob = s.glob := rfl
@[simp] theorem setNoticeBuf_pool : (setNoticeBuf d f s).pool = s.pool := rfl
@[simp] theorem setNoticeBuf_time : (setNoticeBuf d f s).time = s.time := rfl
@[simp] theorem setNoticeBuf_conv : (setNoticeBuf d f s).conv = s.conv := rfl
@[simp] theorem setNoticeBuf_eqs : (setNoticeBuf d f s).eqs = s.eqs := rfl
@[simp] theorem setNoticeBuf_tuners : (setNoticeBuf d f s).tuners = s.tuners := rfl
@[simp] theorem setNoticeBuf_engines : (setNoticeBuf d f s).engines = s.engines := rfl
@[simp] theorem setNoticeBuf_dens : (setNoticeBuf d f s).dens = s.dens := rfl
@[simp] theorem setNoticeBuf_spgm : (setNoticeBuf d f s).spgm = s.spgm := rfl
@[simp] theorem setNoticeBuf_trig : (setNoticeBuf d f s).trig = s.trig := rfl
@[simp] theorem setNoticeBuf_cap : (setNoticeBuf d f s).cap = s.cap := rfl
@[simp] theorem setNoticeBuf_intg : (setNoticeBuf d f s).intg = s.intg := rfl
@[simp] theorem setNoticeBuf_th : (setNoticeBuf d f s).th = s.th := rfl
@[simp] theorem setNoticeBuf_strm : (setNoticeBuf d f s).strm = s.strm := rfl
@[simp] theorem setNoticeBuf_packers : (setNoticeBuf d f s).packers = s.packers := rfl
@[simp] theorem setNoticeBuf_mq : (setNoticeBuf d f s).mq = s.mq := rfl
@[simp] theorem setNoticeBuf_tdc : (setNoticeBuf d f s).tdc = s.tdc := rfl
@[simp] theorem setNoticeBuf_mc : (setNoticeBuf d f s).mc = s.mc := rfl
@[simp] theorem setNoticeBuf_maint : (setNoticeBuf d f s).maint = s.maint := rfl
@[simp] theorem setNoticeBuf_disp : (setNoticeBuf d f s).disp = s.disp := rfl
@[simp] theorem setNoticeBuf_hub : (setNoticeBuf d f s).hub = s.hub := rfl
@[simp] theorem setNoticeBuf_dbg : (setNoticeBuf d f s).dbg = s.dbg := rfl
@[simp] theorem setNoticeBuf_pair : (setNoticeBuf d f s).pair = s.pair := rfl
@[simp] theorem setNoticeBuf_bb : (setNoticeBuf d f s).bb = s.bb := rfl
@[simp] theorem setNoticeBuf_faultCause : (setNoticeBuf d f s).faultCause = s.faultCause := rfl
@[simp] theorem setNoticeBuf_faultActive : (setNoticeBuf d f s).faultActive = s.faultActive := rfl
@[simp] theorem setNoticeBuf_hist : (setNoticeBuf d f s).hist = s.hist := rfl
@[simp] theorem setNoticeBuf_free : (setNoticeBuf d f s).free = s.free := rfl
end

section
variable (f : Pool → Pool)
@[simp] theorem setPool_pending : (setPool f s).pending = s.pending := rfl
@[simp] theorem setPool_out : (setPool f s).out = s.out := rfl
@[simp] theorem setPool_variant : (setPool f s).variant = s.variant := rfl
@[simp] theorem setPool_compat : (setPool f s).compat = s.compat := rfl
@[simp] theorem setPool_index : (setPool f s).index = s.index := rfl
@[simp] theorem setPool_ready : (setPool f s).ready = s.ready := rfl
@[simp] theorem setPool_mode : (setPool f s).mode = s.mode := rfl
@[simp] theorem setPool_shadowed : (setPool f s).shadowed = s.shadowed := rfl
@[simp] theorem setPool_nextId : (setPool f s).nextId = s.nextId := rfl
@[simp] theorem setPool_cmds : (setPool f s).cmds = s.cmds := rfl
@[simp] theorem setPool_qps : (setPool f s).qps = s.qps := rfl
@[simp] theorem setPool_spi : (setPool f s).spi = s.spi := rfl
@[simp] theorem setPool_ctlport : (setPool f s).ctlport = s.ctlport := rfl
@[simp] theorem setPool_routes : (setPool f s).routes = s.routes := rfl
@[simp] theorem setPool_notices : (setPool f s).notices = s.notices := rfl
@[simp] theorem setPool_aside : (setPool f s).aside = s.aside := rfl
@[simp] theorem setPool_glob : (setPool f s).glob = s.glob := rfl
@[simp] theorem setPool_pool : (setPool f s).pool = f s.pool := rfl
@[simp] theorem setPool_time : (setPool f s).time = s.time := rfl
@[simp] theorem setPool_conv : (setPool f s).conv = s.conv := rfl
@[simp] theorem setPool_eqs : (setPool f s).eqs = s.eqs := rfl
@[simp] theorem setPool_tuners : (setPool f s).tuners = s.tuners := rfl
@[simp] theorem setPool_engines : (setPool f s).engines = s.engines := rfl
@[simp] theorem setPool_dens : (setPool f s).dens = s.dens := rfl
@[simp] theorem setPool_spgm : (setPool f s).spgm = s.spgm := rfl
@[simp] theorem setPool_trig : (setPool f s).trig = s.trig := rfl
@[simp] theorem setPool_cap : (setPool f s).cap = s.cap := rfl
@[simp] theorem setPool_intg : (setPool f s).intg = s.intg := rfl
@[simp] theorem setPool_th : (setPool f s).th = s.th := rfl
@[simp] theorem setPool_strm : (setPool f s).strm = s.strm := rfl
@[simp] theorem setPool_packers : (setPool f s).packers = s.packers := rfl
@[simp] theorem setPool_mq : (setPool f s).mq = s.mq := rfl
@[simp] theorem setPool_tdc : (setPool f s).tdc = s.tdc := rfl
@[simp] theorem setPool_mc : (setPool f s).mc = s.mc := rfl
@[simp] theorem setPool_maint : (setPool f s).maint = s.maint := rfl
@[simp] theorem setPool_disp : (setPool f s).disp = s.disp := rfl
@[simp] theorem setPool_hub : (setPool f s).hub = s.hub := rfl
@[simp] theorem setPool_dbg : (setPool f s).dbg = s.dbg := rfl
@[simp] theorem setPool_pair : (setPool f s).pair = s.pair := rfl
@[simp] theorem setPool_bb : (setPool f s).bb = s.bb := rfl
@[simp] theorem setPool_faultCause : (setPool f s).faultCause = s.faultCause := rfl
@[simp] theorem setPool_faultActive : (setPool f s).faultActive = s.faultActive := rfl
@[simp] theorem setPool_hist : (setPool f s).hist = s.hist := rfl
@[simp] theorem setPool_free : (setPool f s).free = s.free := rfl
end

section
variable (n : Nat) (f : Partition → Partition)
@[simp] theorem setPart_pending : (setPart n f s).pending = s.pending := rfl
@[simp] theorem setPart_out : (setPart n f s).out = s.out := rfl
@[simp] theorem setPart_variant : (setPart n f s).variant = s.variant := rfl
@[simp] theorem setPart_compat : (setPart n f s).compat = s.compat := rfl
@[simp] theorem setPart_index : (setPart n f s).index = s.index := rfl
@[simp] theorem setPart_ready : (setPart n f s).ready = s.ready := rfl
@[simp] theorem setPart_mode : (setPart n f s).mode = s.mode := rfl
@[simp] theorem setPart_shadowed : (setPart n f s).shadowed = s.shadowed := rfl
@[simp] theorem setPart_nextId : (setPart n f s).nextId = s.nextId := rfl
@[simp] theorem setPart_cmds : (setPart n f s).cmds = s.cmds := rfl
@[simp] theorem setPart_qps : (setPart n f s).qps = s.qps := rfl
@[simp] theorem setPart_spi : (setPart n f s).spi = s.spi := rfl
@[simp] theorem setPart_ctlport : (setPart n f s).ctlport = s.ctlport := rfl
@[simp] theorem setPart_routes : (setPart n f s).routes = s.routes := rfl
@[simp] theorem setPart_notices : (setPart n f s).notices = s.notices := rfl
@[simp] theorem setPart_aside : (setPart n f s).aside = s.aside := rfl
@[simp] theorem setPart_glob : (setPart n f s).glob = s.glob := rfl
@[simp] theorem setPart_pool : (setPart n f s).pool = { s.pool with parts := s.pool.parts.map (fun p => if p.slot == n then f p else p) } := rfl
@[simp] theorem setPart_time : (setPart n f s).time = s.time := rfl
@[simp] theorem setPart_conv : (setPart n f s).conv = s.conv := rfl
@[simp] theorem setPart_eqs : (setPart n f s).eqs = s.eqs := rfl
@[simp] theorem setPart_tuners : (setPart n f s).tuners = s.tuners := rfl
@[simp] theorem setPart_engines : (setPart n f s).engines = s.engines := rfl
@[simp] theorem setPart_dens : (setPart n f s).dens = s.dens := rfl
@[simp] theorem setPart_spgm : (setPart n f s).spgm = s.spgm := rfl
@[simp] theorem setPart_trig : (setPart n f s).trig = s.trig := rfl
@[simp] theorem setPart_cap : (setPart n f s).cap = s.cap := rfl
@[simp] theorem setPart_intg : (setPart n f s).intg = s.intg := rfl
@[simp] theorem setPart_th : (setPart n f s).th = s.th := rfl
@[simp] theorem setPart_strm : (setPart n f s).strm = s.strm := rfl
@[simp] theorem setPart_packers : (setPart n f s).packers = s.packers := rfl
@[simp] theorem setPart_mq : (setPart n f s).mq = s.mq := rfl
@[simp] theorem setPart_tdc : (setPart n f s).tdc = s.tdc := rfl
@[simp] theorem setPart_mc : (setPart n f s).mc = s.mc := rfl
@[simp] theorem setPart_maint : (setPart n f s).maint = s.maint := rfl
@[simp] theorem setPart_disp : (setPart n f s).disp = s.disp := rfl
@[simp] theorem setPart_hub : (setPart n f s).hub = s.hub := rfl
@[simp] theorem setPart_dbg : (setPart n f s).dbg = s.dbg := rfl
@[simp] theorem setPart_pair : (setPart n f s).pair = s.pair := rfl
@[simp] theorem setPart_bb : (setPart n f s).bb = s.bb := rfl
@[simp] theorem setPart_faultCause : (setPart n f s).faultCause = s.faultCause := rfl
@[simp] theorem setPart_faultActive : (setPart n f s).faultActive = s.faultActive := rfl
@[simp] theorem setPart_hist : (setPart n f s).hist = s.hist := rfl
@[simp] theorem setPart_free : (setPart n f s).free = s.free := rfl
end

section
variable (f : TimeUnit → TimeUnit)
@[simp] theorem setTime_pending : (setTime f s).pending = s.pending := rfl
@[simp] theorem setTime_out : (setTime f s).out = s.out := rfl
@[simp] theorem setTime_variant : (setTime f s).variant = s.variant := rfl
@[simp] theorem setTime_compat : (setTime f s).compat = s.compat := rfl
@[simp] theorem setTime_index : (setTime f s).index = s.index := rfl
@[simp] theorem setTime_ready : (setTime f s).ready = s.ready := rfl
@[simp] theorem setTime_mode : (setTime f s).mode = s.mode := rfl
@[simp] theorem setTime_shadowed : (setTime f s).shadowed = s.shadowed := rfl
@[simp] theorem setTime_nextId : (setTime f s).nextId = s.nextId := rfl
@[simp] theorem setTime_cmds : (setTime f s).cmds = s.cmds := rfl
@[simp] theorem setTime_qps : (setTime f s).qps = s.qps := rfl
@[simp] theorem setTime_spi : (setTime f s).spi = s.spi := rfl
@[simp] theorem setTime_ctlport : (setTime f s).ctlport = s.ctlport := rfl
@[simp] theorem setTime_routes : (setTime f s).routes = s.routes := rfl
@[simp] theorem setTime_notices : (setTime f s).notices = s.notices := rfl
@[simp] theorem setTime_aside : (setTime f s).aside = s.aside := rfl
@[simp] theorem setTime_glob : (setTime f s).glob = s.glob := rfl
@[simp] theorem setTime_pool : (setTime f s).pool = s.pool := rfl
@[simp] theorem setTime_time : (setTime f s).time = f s.time := rfl
@[simp] theorem setTime_conv : (setTime f s).conv = s.conv := rfl
@[simp] theorem setTime_eqs : (setTime f s).eqs = s.eqs := rfl
@[simp] theorem setTime_tuners : (setTime f s).tuners = s.tuners := rfl
@[simp] theorem setTime_engines : (setTime f s).engines = s.engines := rfl
@[simp] theorem setTime_dens : (setTime f s).dens = s.dens := rfl
@[simp] theorem setTime_spgm : (setTime f s).spgm = s.spgm := rfl
@[simp] theorem setTime_trig : (setTime f s).trig = s.trig := rfl
@[simp] theorem setTime_cap : (setTime f s).cap = s.cap := rfl
@[simp] theorem setTime_intg : (setTime f s).intg = s.intg := rfl
@[simp] theorem setTime_th : (setTime f s).th = s.th := rfl
@[simp] theorem setTime_strm : (setTime f s).strm = s.strm := rfl
@[simp] theorem setTime_packers : (setTime f s).packers = s.packers := rfl
@[simp] theorem setTime_mq : (setTime f s).mq = s.mq := rfl
@[simp] theorem setTime_tdc : (setTime f s).tdc = s.tdc := rfl
@[simp] theorem setTime_mc : (setTime f s).mc = s.mc := rfl
@[simp] theorem setTime_maint : (setTime f s).maint = s.maint := rfl
@[simp] theorem setTime_disp : (setTime f s).disp = s.disp := rfl
@[simp] theorem setTime_hub : (setTime f s).hub = s.hub := rfl
@[simp] theorem setTime_dbg : (setTime f s).dbg = s.dbg := rfl
@[simp] theorem setTime_pair : (setTime f s).pair = s.pair := rfl
@[simp] theorem setTime_bb : (setTime f s).bb = s.bb := rfl
@[simp] theorem setTime_faultCause : (setTime f s).faultCause = s.faultCause := rfl
@[simp] theorem setTime_faultActive : (setTime f s).faultActive = s.faultActive := rfl
@[simp] theorem setTime_hist : (setTime f s).hist = s.hist := rfl
@[simp] theorem setTime_free : (setTime f s).free = s.free := rfl
end

section
variable (c : Nat) (f : Channel → Channel)
@[simp] theorem setChannel_pending : (setChannel c f s).pending = s.pending := rfl
@[simp] theorem setChannel_out : (setChannel c f s).out = s.out := rfl
@[simp] theorem setChannel_variant : (setChannel c f s).variant = s.variant := rfl
@[simp] theorem setChannel_compat : (setChannel c f s).compat = s.compat := rfl
@[simp] theorem setChannel_index : (setChannel c f s).index = s.index := rfl
@[simp] theorem setChannel_ready : (setChannel c f s).ready = s.ready := rfl
@[simp] theorem setChannel_mode : (setChannel c f s).mode = s.mode := rfl
@[simp] theorem setChannel_shadowed : (setChannel c f s).shadowed = s.shadowed := rfl
@[simp] theorem setChannel_nextId : (setChannel c f s).nextId = s.nextId := rfl
@[simp] theorem setChannel_cmds : (setChannel c f s).cmds = s.cmds := rfl
@[simp] theorem setChannel_qps : (setChannel c f s).qps = s.qps := rfl
@[simp] theorem setChannel_spi : (setChannel c f s).spi = s.spi := rfl
@[simp] theorem setChannel_ctlport : (setChannel c f s).ctlport = s.ctlport := rfl
@[simp] theorem setChannel_routes : (setChannel c f s).routes = s.routes := rfl
@[simp] theorem setChannel_notices : (setChannel c f s).notices = s.notices := rfl
@[simp] theorem setChannel_aside : (setChannel c f s).aside = s.aside := rfl
@[simp] theorem setChannel_glob : (setChannel c f s).glob = s.glob := rfl
@[simp] theorem setChannel_pool : (setChannel c f s).pool = s.pool := rfl
@[simp] theorem setChannel_time : (setChannel c f s).time = s.time := rfl
@[simp] theorem setChannel_conv : (setChannel c f s).conv = { s.conv with channels := modAt s.conv.channels c f } := rfl
@[simp] theorem setChannel_eqs : (setChannel c f s).eqs = s.eqs := rfl
@[simp] theorem setChannel_tuners : (setChannel c f s).tuners = s.tuners := rfl
@[simp] theorem setChannel_engines : (setChannel c f s).engines = s.engines := rfl
@[simp] theorem setChannel_dens : (setChannel c f s).dens = s.dens := rfl
@[simp] theorem setChannel_spgm : (setChannel c f s).spgm = s.spgm := rfl
@[simp] theorem setChannel_trig : (setChannel c f s).trig = s.trig := rfl
@[simp] theorem setChannel_cap : (setChannel c f s).cap = s.cap := rfl
@[simp] theorem setChannel_intg : (setChannel c f s).intg = s.intg := rfl
@[simp] theorem setChannel_th : (setChannel c f s).th = s.th := rfl
@[simp] theorem setChannel_strm : (setChannel c f s).strm = s.strm := rfl
@[simp] theorem setChannel_packers : (setChannel c f s).packers = s.packers := rfl
@[simp] theorem setChannel_mq : (setChannel c f s).mq = s.mq := rfl
@[simp] theorem setChannel_tdc : (setChannel c f s).tdc = s.tdc := rfl
@[simp] theorem setChannel_mc : (setChannel c f s).mc = s.mc := rfl
@[simp] theorem setChannel_maint : (setChannel c f s).maint = s.maint := rfl
@[simp] theorem setChannel_disp : (setChannel c f s).disp = s.disp := rfl
@[simp] theorem setChannel_hub : (setChannel c f s).hub = s.hub := rfl
@[simp] theorem setChannel_dbg : (setChannel c f s).dbg = s.dbg := rfl
@[simp] theorem setChannel_pair : (setChannel c f s).pair = s.pair := rfl
@[simp] theorem setChannel_bb : (setChannel c f s).bb = s.bb := rfl
@[simp] theorem setChannel_faultCause : (setChannel c f s).faultCause = s.faultCause := rfl
@[simp] theorem setChannel_faultActive : (setChannel c f s).faultActive = s.faultActive := rfl
@[simp] theorem setChannel_hist : (setChannel c f s).hist = s.hist := rfl
@[simp] theorem setChannel_free : (setChannel c f s).free = s.free := rfl
end

section
variable (c : Nat) (f : Equaliser → Equaliser)
@[simp] theorem setEq_pending : (setEq c f s).pending = s.pending := rfl
@[simp] theorem setEq_out : (setEq c f s).out = s.out := rfl
@[simp] theorem setEq_variant : (setEq c f s).variant = s.variant := rfl
@[simp] theorem setEq_compat : (setEq c f s).compat = s.compat := rfl
@[simp] theorem setEq_index : (setEq c f s).index = s.index := rfl
@[simp] theorem setEq_ready : (setEq c f s).ready = s.ready := rfl
@[simp] theorem setEq_mode : (setEq c f s).mode = s.mode := rfl
@[simp] theorem setEq_shadowed : (setEq c f s).shadowed = s.shadowed := rfl
@[simp] theorem setEq_nextId : (setEq c f s).nextId = s.nextId := rfl
@[simp] theorem setEq_cmds : (setEq c f s).cmds = s.cmds := rfl
@[simp] theorem setEq_qps : (setEq c f s).qps = s.qps := rfl
@[simp] theorem setEq_spi : (setEq c f s).spi = s.spi := rfl
@[simp] theorem setEq_ctlport : (setEq c f s).ctlport = s.ctlport := rfl
@[simp] theorem setEq_routes : (setEq c f s).routes = s.routes := rfl
@[simp] theorem setEq_notices : (setEq c f s).notices = s.notices := rfl
@[simp] theorem setEq_aside : (setEq c f s).aside = s.aside := rfl
@[simp] theorem setEq_glob : (setEq c f s).glob = s.glob := rfl
@[simp] theorem setEq_pool : (setEq c f s).pool = s.pool := rfl
@[simp] theorem setEq_time : (setEq c f s).time = s.time := rfl
@[simp] theorem setEq_conv : (setEq c f s).conv = s.conv := rfl
@[simp] theorem setEq_eqs : (setEq c f s).eqs = modAt s.eqs c f := rfl
@[simp] theorem setEq_tuners : (setEq c f s).tuners = s.tuners := rfl
@[simp] theorem setEq_engines : (setEq c f s).engines = s.engines := rfl
@[simp] theorem setEq_dens : (setEq c f s).dens = s.dens := rfl
@[simp] theorem setEq_spgm : (setEq c f s).spgm = s.spgm := rfl
@[simp] theorem setEq_trig : (setEq c f s).trig = s.trig := rfl
@[simp] theorem setEq_cap : (setEq c f s).cap = s.cap := rfl
@[simp] theorem setEq_intg : (setEq c f s).intg = s.intg := rfl
@[simp] theorem setEq_th : (setEq c f s).th = s.th := rfl
@[simp] theorem setEq_strm : (setEq c f s).strm = s.strm := rfl
@[simp] theorem setEq_packers : (setEq c f s).packers = s.packers := rfl
@[simp] theorem setEq_mq : (setEq c f s).mq = s.mq := rfl
@[simp] theorem setEq_tdc : (setEq c f s).tdc = s.tdc := rfl
@[simp] theorem setEq_mc : (setEq c f s).mc = s.mc := rfl
@[simp] theorem setEq_maint : (setEq c f s).maint = s.maint := rfl
@[simp] theorem setEq_disp : (setEq c f s).disp = s.disp := rfl
@[simp] theorem setEq_hub : (setEq c f s).hub = s.hub := rfl
@[simp] theorem setEq_dbg : (setEq c f s).dbg = s.dbg := rfl
@[simp] theorem setEq_pair : (setEq c f s).pair = s.pair := rfl
@[simp] theorem setEq_bb : (setEq c f s).bb = s.bb := rfl
@[simp] theorem setEq_faultCause : (setEq c f s).faultCause = s.faultCause := rfl
@[simp] theorem setEq_faultActive : (setEq c f s).faultActive = s.faultActive := rfl
@[simp] theorem setEq_hist : (setEq c f s).hist = s.hist := rfl
@[simp] theorem setEq_free : (setEq c f s).free = s.free := rfl
end

section
variable (t : Nat) (f : Tuner → Tuner)
@[simp] theorem setTuner_pending : (setTuner t f s).pending = s.pending := rfl
@[simp] theorem setTuner_out : (setTuner t f s).out = s.out := rfl
@[simp] theorem setTuner_variant : (setTuner t f s).variant = s.variant := rfl
@[simp] theorem setTuner_compat : (setTuner t f s).compat = s.compat := rfl
@[simp] theorem setTuner_index : (setTuner t f s).index = s.index := rfl
@[simp] theorem setTuner_ready : (setTuner t f s).ready = s.ready := rfl
@[simp] theorem setTuner_mode : (setTuner t f s).mode = s.mode := rfl
@[simp] theorem setTuner_shadowed : (setTuner t f s).shadowed = s.shadowed := rfl
@[simp] theorem setTuner_nextId : (setTuner t f s).nextId = s.nextId := rfl
@[simp] theorem setTuner_cmds : (setTuner t f s).cmds = s.cmds := rfl
@[simp] theorem setTuner_qps : (setTuner t f s).qps = s.qps := rfl
@[simp] theorem setTuner_spi : (setTuner t f s).spi = s.spi := rfl
@[simp] theorem setTuner_ctlport : (setTuner t f s).ctlport = s.ctlport := rfl
@[simp] theorem setTuner_routes : (setTuner t f s).routes = s.routes := rfl
@[simp] theorem setTuner_notices : (setTuner t f s).notices = s.notices := rfl
@[simp] theorem setTuner_aside : (setTuner t f s).aside = s.aside := rfl
@[simp] theorem setTuner_glob : (setTuner t f s).glob = s.glob := rfl
@[simp] theorem setTuner_pool : (setTuner t f s).pool = s.pool := rfl
@[simp] theorem setTuner_time : (setTuner t f s).time = s.time := rfl
@[simp] theorem setTuner_conv : (setTuner t f s).conv = s.conv := rfl
@[simp] theorem setTuner_eqs : (setTuner t f s).eqs = s.eqs := rfl
@[simp] theorem setTuner_tuners : (setTuner t f s).tuners = modAt s.tuners t f := rfl
@[simp] theorem setTuner_engines : (setTuner t f s).engines = s.engines := rfl
@[simp] theorem setTuner_dens : (setTuner t f s).dens = s.dens := rfl
@[simp] theorem setTuner_spgm : (setTuner t f s).spgm = s.spgm := rfl
@[simp] theorem setTuner_trig : (setTuner t f s).trig = s.trig := rfl
@[simp] theorem setTuner_cap : (setTuner t f s).cap = s.cap := rfl
@[simp] theorem setTuner_intg : (setTuner t f s).intg = s.intg := rfl
@[simp] theorem setTuner_th : (setTuner t f s).th = s.th := rfl
@[simp] theorem setTuner_strm : (setTuner t f s).strm = s.strm := rfl
@[simp] theorem setTuner_packers : (setTuner t f s).packers = s.packers := rfl
@[simp] theorem setTuner_mq : (setTuner t f s).mq = s.mq := rfl
@[simp] theorem setTuner_tdc : (setTuner t f s).tdc = s.tdc := rfl
@[simp] theorem setTuner_mc : (setTuner t f s).mc = s.mc := rfl
@[simp] theorem setTuner_maint : (setTuner t f s).maint = s.maint := rfl
@[simp] theorem setTuner_disp : (setTuner t f s).disp = s.disp := rfl
@[simp] theorem setTuner_hub : (setTuner t f s).hub = s.hub := rfl
@[simp] theorem setTuner_dbg : (setTuner t f s).dbg = s.dbg := rfl
@[simp] theorem setTuner_pair : (setTuner t f s).pair = s.pair := rfl
@[simp] theorem setTuner_bb : (setTuner t f s).bb = s.bb := rfl
@[simp] theorem setTuner_faultCause : (setTuner t f s).faultCause = s.faultCause := rfl
@[simp] theorem setTuner_faultActive : (setTuner t f s).faultActive = s.faultActive := rfl
@[simp] theorem setTuner_hist : (setTuner t f s).hist = s.hist := rfl
@[simp] theorem setTuner_free : (setTuner t f s).free = s.free := rfl
end

section
variable (e : Nat) (f : Engine → Engine)
@[simp] theorem setEngine_pending : (setEngine e f s).pending = s.pending := rfl
@[simp] theorem setEngine_out : (setEngine e f s).out = s.out := rfl
@[simp] theorem setEngine_variant : (setEngine e f s).variant = s.variant := rfl
@[simp] theorem setEngine_compat : (setEngine e f s).compat = s.compat := rfl
@[simp] theorem setEngine_index : (setEngine e f s).index = s.index := rfl
@[simp] theorem setEngine_ready : (setEngine e f s).ready = s.ready := rfl
@[simp] theorem setEngine_mode : (setEngine e f s).mode = s.mode := rfl
@[simp] theorem setEngine_shadowed : (setEngine e f s).shadowed = s.shadowed := rfl
@[simp] theorem setEngine_nextId : (setEngine e f s).nextId = s.nextId := rfl
@[simp] theorem setEngine_cmds : (setEngine e f s).cmds = s.cmds := rfl
@[simp] theorem setEngine_qps : (setEngine e f s).qps = s.qps := rfl
@[simp] theorem setEngine_spi : (setEngine e f s).spi = s.spi := rfl
@[simp] theorem setEngine_ctlport : (setEngine e f s).ctlport = s.ctlport := rfl
@[simp] theorem setEngine_routes : (setEngine e f s).routes = s.routes := rfl
@[simp] theorem setEngine_notices : (setEngine e f s).notices = s.notices := rfl
@[simp] theorem setEngine_aside : (setEngine e f s).aside = s.aside := rfl
@[simp] theorem setEngine_glob : (setEngine e f s).glob = s.glob := rfl
@[simp] theorem setEngine_pool : (setEngine e f s).pool = s.pool := rfl
@[simp] theorem setEngine_time : (setEngine e f s).time = s.time := rfl
@[simp] theorem setEngine_conv : (setEngine e f s).conv = s.conv := rfl
@[simp] theorem setEngine_eqs : (setEngine e f s).eqs = s.eqs := rfl
@[simp] theorem setEngine_tuners : (setEngine e f s).tuners = s.tuners := rfl
@[simp] theorem setEngine_engines : (setEngine e f s).engines = modAt s.engines e f := rfl
@[simp] theorem setEngine_dens : (setEngine e f s).dens = s.dens := rfl
@[simp] theorem setEngine_spgm : (setEngine e f s).spgm = s.spgm := rfl
@[simp] theorem setEngine_trig : (setEngine e f s).trig = s.trig := rfl
@[simp] theorem setEngine_cap : (setEngine e f s).cap = s.cap := rfl
@[simp] theorem setEngine_intg : (setEngine e f s).intg = s.intg := rfl
@[simp] theorem setEngine_th : (setEngine e f s).th = s.th := rfl
@[simp] theorem setEngine_strm : (setEngine e f s).strm = s.strm := rfl
@[simp] theorem setEngine_packers : (setEngine e f s).packers = s.packers := rfl
@[simp] theorem setEngine_mq : (setEngine e f s).mq = s.mq := rfl
@[simp] theorem setEngine_tdc : (setEngine e f s).tdc = s.tdc := rfl
@[simp] theorem setEngine_mc : (setEngine e f s).mc = s.mc := rfl
@[simp] theorem setEngine_maint : (setEngine e f s).maint = s.maint := rfl
@[simp] theorem setEngine_disp : (setEngine e f s).disp = s.disp := rfl
@[simp] theorem setEngine_hub : (setEngine e f s).hub = s.hub := rfl
@[simp] theorem setEngine_dbg : (setEngine e f s).dbg = s.dbg := rfl
@[simp] theorem setEngine_pair : (setEngine e f s).pair = s.pair := rfl
@[simp] theorem setEngine_bb : (setEngine e f s).bb = s.bb := rfl
@[simp] theorem setEngine_faultCause : (setEngine e f s).faultCause = s.faultCause := rfl
@[simp] theorem setEngine_faultActive : (setEngine e f s).faultActive = s.faultActive := rfl
@[simp] theorem setEngine_hist : (setEngine e f s).hist = s.hist := rfl
@[simp] theorem setEngine_free : (setEngine e f s).free = s.free := rfl
end

section
variable (c : Nat) (f : Density → Density)
@[simp] theorem setDens_pending : (setDens c f s).pending = s.pending := rfl
@[simp] theorem setDens_out : (setDens c f s).out = s.out := rfl
@[simp] theorem setDens_variant : (setDens c f s).variant = s.variant := rfl
@[simp] theorem setDens_compat : (setDens c f s).compat = s.compat := rfl
@[simp] theorem setDens_index : (setDens c f s).index = s.index := rfl
@[simp] theorem setDens_ready : (setDens c f s).ready = s.ready := rfl
@[simp] theorem setDens_mode : (setDens c f s).mode = s.mode := rfl
@[simp] theorem setDens_shadowed : (setDens c f s).shadowed = s.shadowed := rfl
@[simp] theorem setDens_nextId : (setDens c f s).nextId = s.nextId := rfl
@[simp] theorem setDens_cmds : (setDens c f s).cmds = s.cmds := rfl
@[simp] theorem setDens_qps : (setDens c f s).qps = s.qps := rfl
@[simp] theorem setDens_spi : (setDens c f s).spi = s.spi := rfl
@[simp] theorem setDens_ctlport : (setDens c f s).ctlport = s.ctlport := rfl
@[simp] theorem setDens_routes : (setDens c f s).routes = s.routes := rfl
@[simp] theorem setDens_notices : (setDens c f s).notices = s.notices := rfl
@[simp] theorem setDens_aside : (setDens c f s).aside = s.aside := rfl
@[simp] theorem setDens_glob : (setDens c f s).glob = s.glob := rfl
@[simp] theorem setDens_pool : (setDens c f s).pool = s.pool := rfl
@[simp] theorem setDens_time : (setDens c f s).time = s.time := rfl
@[simp] theorem setDens_conv : (setDens c f s).conv = s.conv := rfl
@[simp] theorem setDens_eqs : (setDens c f s).eqs = s.eqs := rfl
@[simp] theorem setDens_tuners : (setDens c f s).tuners = s.tuners := rfl
@[simp] theorem setDens_engines : (setDens c f s).engines = s.engines := rfl
@[simp] theorem setDens_dens : (setDens c f s).dens = modAt s.dens c f := rfl
@[simp] theorem setDens_spgm : (setDens c f s).spgm = s.spgm := rfl
@[simp] theorem setDens_trig : (setDens c f s).trig = s.trig := rfl
@[simp] theorem setDens_cap : (setDens c f s).cap = s.cap := rfl
@[simp] theorem setDens_intg : (setDens c f s).intg = s.intg := rfl
@[simp] theorem setDens_th : (setDens c f s).th = s.th := rfl
@[simp] theorem setDens_strm : (setDens c f s).strm = s.strm := rfl
@[simp] theorem setDens_packers : (setDens c f s).packers = s.packers := rfl
@[simp] theorem setDens_mq : (setDens c f s).mq = s.mq := rfl
@[simp] theorem setDens_tdc : (setDens c f s).tdc = s.tdc := rfl
@[simp] theorem setDens_mc : (setDens c f s).mc = s.mc := rfl
@[simp] theorem setDens_maint : (setDens c f s).maint = s.maint := rfl
@[simp] theorem setDens_disp : (setDens c f s).disp = s.disp := rfl
@[simp] theorem setDens_hub : (setDens c f s).hub = s.hub := rfl
@[simp] theorem setDens_dbg : (setDens c f s).dbg = s.dbg := rfl
@[simp] theorem setDens_pair : (setDens c f s).pair = s.pair := rfl
@[simp] theorem setDens_bb : (setDens c f s).bb = s.bb := rfl
@[simp] theorem setDens_faultCause : (setDens c f s).faultCause = s.faultCause := rfl
@[simp] theorem setDens_faultActive : (setDens c f s).faultActive = s.faultActive := rfl
@[simp] theorem setDens_hist : (setDens c f s).hist = s.hist := rfl
@[simp] theorem setDens_free : (setDens c f s).free = s.free := rfl
end

section
variable (i : Nat) (f : Spgm → Spgm)
@[simp] theorem setSpgm_pending : (setSpgm i f s).pending = s.pending := rfl
@[simp] theorem setSpgm_out : (setSpgm i f s).out = s.out := rfl
@[simp] theorem setSpgm_variant : (setSpgm i f s).variant = s.variant := rfl
@[simp] theorem setSpgm_compat : (setSpgm i f s).compat = s.compat := rfl
@[simp] theorem setSpgm_index : (setSpgm i f s).index = s.index := rfl
@[simp] theorem setSpgm_ready : (setSpgm i f s).ready = s.ready := rfl
@[simp] theorem setSpgm_mode : (setSpgm i f s).mode = s.mode := rfl
@[simp] theorem setSpgm_shadowed : (setSpgm i f s).shadowed = s.shadowed := rfl
@[simp] theorem setSpgm_nextId : (setSpgm i f s).nextId = s.nextId := rfl
@[simp] theorem setSpgm_cmds : (setSpgm i f s).cmds = s.cmds := rfl
@[simp] theorem setSpgm_qps : (setSpgm i f s).qps = s.qps := rfl
@[simp] theorem setSpgm_spi : (setSpgm i f s).spi = s.spi := rfl
@[simp] theorem setSpgm_ctlport : (setSpgm i f s).ctlport = s.ctlport := rfl
@[simp] theorem setSpgm_routes : (setSpgm i f s).routes = s.routes := rfl
@[simp] theorem setSpgm_notices : (setSpgm i f s).notices = s.notices := rfl
@[simp] theorem setSpgm_aside : (setSpgm i f s).aside = s.aside := rfl
@[simp] theorem setSpgm_glob : (setSpgm i f s).glob = s.glob := rfl
@[simp] theorem setSpgm_pool : (setSpgm i f s).pool = s.pool := rfl
@[simp] theorem setSpgm_time : (setSpgm i f s).time = s.time := rfl
@[simp] theorem setSpgm_conv : (setSpgm i f s).conv = s.conv := rfl
@[simp] theorem setSpgm_eqs : (setSpgm i f s).eqs = s.eqs := rfl
@[simp] theorem setSpgm_tuners : (setSpgm i f s).tuners = s.tuners := rfl
@[simp] theorem setSpgm_engines : (setSpgm i f s).engines = s.engines := rfl
@[simp] theorem setSpgm_dens : (setSpgm i f s).dens = s.dens := rfl
@[simp] theorem setSpgm_spgm : (setSpgm i f s).spgm = modAt s.spgm i f := rfl
@[simp] theorem setSpgm_trig : (setSpgm i f s).trig = s.trig := rfl
@[simp] theorem setSpgm_cap : (setSpgm i f s).cap = s.cap := rfl
@[simp] theorem setSpgm_intg : (setSpgm i f s).intg = s.intg := rfl
@[simp] theorem setSpgm_th : (setSpgm i f s).th = s.th := rfl
@[simp] theorem setSpgm_strm : (setSpgm i f s).strm = s.strm := rfl
@[simp] theorem setSpgm_packers : (setSpgm i f s).packers = s.packers := rfl
@[simp] theorem setSpgm_mq : (setSpgm i f s).mq = s.mq := rfl
@[simp] theorem setSpgm_tdc : (setSpgm i f s).tdc = s.tdc := rfl
@[simp] theorem setSpgm_mc : (setSpgm i f s).mc = s.mc := rfl
@[simp] theorem setSpgm_maint : (setSpgm i f s).maint = s.maint := rfl
@[simp] theorem setSpgm_disp : (setSpgm i f s).disp = s.disp := rfl
@[simp] theorem setSpgm_hub : (setSpgm i f s).hub = s.hub := rfl
@[simp] theorem setSpgm_dbg : (setSpgm i f s).dbg = s.dbg := rfl
@[simp] theorem setSpgm_pair : (setSpgm i f s).pair = s.pair := rfl
@[simp] theorem setSpgm_bb : (setSpgm i f s).bb = s.bb := rfl
@[simp] theorem setSpgm_faultCause : (setSpgm i f s).faultCause = s.faultCause := rfl
@[simp] theorem setSpgm_faultActive : (setSpgm i f s).faultActive = s.faultActive := rfl
@[simp] theorem setSpgm_hist : (setSpgm i f s).hist = s.hist := rfl
@[simp] theorem setSpgm_free : (setSpgm i f s).free = s.free := rfl
end

section
variable (c : Nat) (f : TrigSlot → TrigSlot)
@[simp] theorem setSlot_pending : (setSlot c f s).pending = s.pending := rfl
@[simp] theorem setSlot_out : (setSlot c f s).out = s.out := rfl
@[simp] theorem setSlot_variant : (setSlot c f s).variant = s.variant := rfl
@[simp] theorem setSlot_compat : (setSlot c f s).compat = s.compat := rfl
@[simp] theorem setSlot_index : (setSlot c f s).index = s.index := rfl
@[simp] theorem setSlot_ready : (setSlot c f s).ready = s.ready := rfl
@[simp] theorem setSlot_mode : (setSlot c f s).mode = s.mode := rfl
@[simp] theorem setSlot_shadowed : (setSlot c f s).shadowed = s.shadowed := rfl
@[simp] theorem setSlot_nextId : (setSlot c f s).nextId = s.nextId := rfl
@[simp] theorem setSlot_cmds : (setSlot c f s).cmds = s.cmds := rfl
@[simp] theorem setSlot_qps : (setSlot c f s).qps = s.qps := rfl
@[simp] theorem setSlot_spi : (setSlot c f s).spi = s.spi := rfl
@[simp] theorem setSlot_ctlport : (setSlot c f s).ctlport = s.ctlport := rfl
@[simp] theorem setSlot_routes : (setSlot c f s).routes = s.routes := rfl
@[simp] theorem setSlot_notices : (setSlot c f s).notices = s.notices := rfl
@[simp] theorem setSlot_aside : (setSlot c f s).aside = s.aside := rfl
@[simp] theorem setSlot_glob : (setSlot c f s).glob = s.glob := rfl
@[simp] theorem setSlot_pool : (setSlot c f s).pool = s.pool := rfl
@[simp] theorem setSlot_time : (setSlot c f s).time = s.time := rfl
@[simp] theorem setSlot_conv : (setSlot c f s).conv = s.conv := rfl
@[simp] theorem setSlot_eqs : (setSlot c f s).eqs = s.eqs := rfl
@[simp] theorem setSlot_tuners : (setSlot c f s).tuners = s.tuners := rfl
@[simp] theorem setSlot_engines : (setSlot c f s).engines = s.engines := rfl
@[simp] theorem setSlot_dens : (setSlot c f s).dens = s.dens := rfl
@[simp] theorem setSlot_spgm : (setSlot c f s).spgm = s.spgm := rfl
@[simp] theorem setSlot_trig : (setSlot c f s).trig = { s.trig with slots := modAt s.trig.slots c f } := rfl
@[simp] theorem setSlot_cap : (setSlot c f s).cap = s.cap := rfl
@[simp] theorem setSlot_intg : (setSlot c f s).intg = s.intg := rfl
@[simp] theorem setSlot_th : (setSlot c f s).th = s.th := rfl
@[simp] theorem setSlot_strm : (setSlot c f s).strm = s.strm := rfl
@[simp] theorem setSlot_packers : (setSlot c f s).packers = s.packers := rfl
@[simp] theorem setSlot_mq : (setSlot c f s).mq = s.mq := rfl
@[simp] theorem setSlot_tdc : (setSlot c f s).tdc = s.tdc := rfl
@[simp] theorem setSlot_mc : (setSlot c f s).mc = s.mc := rfl
@[simp] theorem setSlot_maint : (setSlot c f s).maint = s.maint := rfl
@[simp] theorem setSlot_disp : (setSlot c f s).disp = s.disp := rfl
@[simp] theorem setSlot_hub : (setSlot c f s).hub = s.hub := rfl
@[simp] theorem setSlot_dbg : (setSlot c f s).dbg = s.dbg := rfl
@[simp] theorem setSlot_pair : (setSlot c f s).pair = s.pair := rfl
@[simp] theorem setSlot_bb : (setSlot c f s).bb = s.bb := rfl
@[simp] theorem setSlot_faultCause : (setSlot c f s).faultCause = s.faultCause := rfl
@[simp] theorem setSlot_faultActive : (setSlot c f s).faultActive = s.faultActive := rfl
@[simp] theorem setSlot_hist : (setSlot c f s).hist = s.hist := rfl
@[simp] theorem setSlot_free : (setSlot c f s).free = s.free := rfl
end

section
variable (n : Nat) (f : Sheaf → Sheaf)
@[simp] theorem setSheaf_pending : (setSheaf n f s).pending = s.pending := rfl
@[simp] theorem setSheaf_out : (setSheaf n f s).out = s.out := rfl
@[simp] theorem setSheaf_variant : (setSheaf n f s).variant = s.variant := rfl
@[simp] theorem setSheaf_compat : (setSheaf n f s).compat = s.compat := rfl
@[simp] theorem setSheaf_index : (setSheaf n f s).index = s.index := rfl
@[simp] theorem setSheaf_ready : (setSheaf n f s).ready = s.ready := rfl
@[simp] theorem setSheaf_mode : (setSheaf n f s).mode = s.mode := rfl
@[simp] theorem setSheaf_shadowed : (setSheaf n f s).shadowed = s.shadowed := rfl
@[simp] theorem setSheaf_nextId : (setSheaf n f s).nextId = s.nextId := rfl
@[simp] theorem setSheaf_cmds : (setSheaf n f s).cmds = s.cmds := rfl
@[simp] theorem setSheaf_qps : (setSheaf n f s).qps = s.qps := rfl
@[simp] theorem setSheaf_spi : (setSheaf n f s).spi = s.spi := rfl
@[simp] theorem setSheaf_ctlport : (setSheaf n f s).ctlport = s.ctlport := rfl
@[simp] theorem setSheaf_routes : (setSheaf n f s).routes = s.routes := rfl
@[simp] theorem setSheaf_notices : (setSheaf n f s).notices = s.notices := rfl
@[simp] theorem setSheaf_aside : (setSheaf n f s).aside = s.aside := rfl
@[simp] theorem setSheaf_glob : (setSheaf n f s).glob = s.glob := rfl
@[simp] theorem setSheaf_pool : (setSheaf n f s).pool = s.pool := rfl
@[simp] theorem setSheaf_time : (setSheaf n f s).time = s.time := rfl
@[simp] theorem setSheaf_conv : (setSheaf n f s).conv = s.conv := rfl
@[simp] theorem setSheaf_eqs : (setSheaf n f s).eqs = s.eqs := rfl
@[simp] theorem setSheaf_tuners : (setSheaf n f s).tuners = s.tuners := rfl
@[simp] theorem setSheaf_engines : (setSheaf n f s).engines = s.engines := rfl
@[simp] theorem setSheaf_dens : (setSheaf n f s).dens = s.dens := rfl
@[simp] theorem setSheaf_spgm : (setSheaf n f s).spgm = s.spgm := rfl
@[simp] theorem setSheaf_trig : (setSheaf n f s).trig = s.trig := rfl
@[simp] theorem setSheaf_cap : (setSheaf n f s).cap = { s.cap with sheaves := modAt s.cap.sheaves n f } := rfl
@[simp] theorem setSheaf_intg : (setSheaf n f s).intg = s.intg := rfl
@[simp] theorem setSheaf_th : (setSheaf n f s).th = s.th := rfl
@[simp] theorem setSheaf_strm : (setSheaf n f s).strm = s.strm := rfl
@[simp] theorem setSheaf_packers : (setSheaf n f s).packers = s.packers := rfl
@[simp] theorem setSheaf_mq : (setSheaf n f s).mq = s.mq := rfl
@[simp] theorem setSheaf_tdc : (setSheaf n f s).tdc = s.tdc := rfl
@[simp] theorem setSheaf_mc : (setSheaf n f s).mc = s.mc := rfl
@[simp] theorem setSheaf_maint : (setSheaf n f s).maint = s.maint := rfl
@[simp] theorem setSheaf_disp : (setSheaf n f s).disp = s.disp := rfl
@[simp] theorem setSheaf_hub : (setSheaf n f s).hub = s.hub := rfl
@[simp] theorem setSheaf_dbg : (setSheaf n f s).dbg = s.dbg := rfl
@[simp] theorem setSheaf_pair : (setSheaf n f s).pair = s.pair := rfl
@[simp] theorem setSheaf_bb : (setSheaf n f s).bb = s.bb := rfl
@[simp] theorem setSheaf_faultCause : (setSheaf n f s).faultCause = s.faultCause := rfl
@[simp] theorem setSheaf_faultActive : (setSheaf n f s).faultActive = s.faultActive := rfl
@[simp] theorem setSheaf_hist : (setSheaf n f s).hist = s.hist := rfl
@[simp] theorem setSheaf_free : (setSheaf n f s).free = s.free := rfl
end

section
variable (k u : Nat) (f : CapRing → CapRing)
@[simp] theorem setRing_pending : (setRing k u f s).pending = s.pending := rfl
@[simp] theorem setRing_out : (setRing k u f s).out = s.out := rfl
@[simp] theorem setRing_variant : (setRing k u f s).variant = s.variant := rfl
@[simp] theorem setRing_compat : (setRing k u f s).compat = s.compat := rfl
@[simp] theorem setRing_index : (setRing k u f s).index = s.index := rfl
@[simp] theorem setRing_ready : (setRing k u f s).ready = s.ready := rfl
@[simp] theorem setRing_mode : (setRing k u f s).mode = s.mode := rfl
@[simp] theorem setRing_shadowed : (setRing k u f s).shadowed = s.shadowed := rfl
@[simp] theorem setRing_nextId : (setRing k u f s).nextId = s.nextId := rfl
@[simp] theorem setRing_cmds : (setRing k u f s).cmds = s.cmds := rfl
@[simp] theorem setRing_qps : (setRing k u f s).qps = s.qps := rfl
@[simp] theorem setRing_spi : (setRing k u f s).spi = s.spi := rfl
@[simp] theorem setRing_ctlport : (setRing k u f s).ctlport = s.ctlport := rfl
@[simp] theorem setRing_routes : (setRing k u f s).routes = s.routes := rfl
@[simp] theorem setRing_notices : (setRing k u f s).notices = s.notices := rfl
@[simp] theorem setRing_aside : (setRing k u f s).aside = s.aside := rfl
@[simp] theorem setRing_glob : (setRing k u f s).glob = s.glob := rfl
@[simp] theorem setRing_pool : (setRing k u f s).pool = s.pool := rfl
@[simp] theorem setRing_time : (setRing k u f s).time = s.time := rfl
@[simp] theorem setRing_conv : (setRing k u f s).conv = s.conv := rfl
@[simp] theorem setRing_eqs : (setRing k u f s).eqs = s.eqs := rfl
@[simp] theorem setRing_tuners : (setRing k u f s).tuners = s.tuners := rfl
@[simp] theorem setRing_engines : (setRing k u f s).engines = s.engines := rfl
@[simp] theorem setRing_dens : (setRing k u f s).dens = s.dens := rfl
@[simp] theorem setRing_spgm : (setRing k u f s).spgm = s.spgm := rfl
@[simp] theorem setRing_trig : (setRing k u f s).trig = s.trig := rfl
@[simp] theorem setRing_cap : (setRing k u f s).cap = { s.cap with rings := s.cap.rings.map (fun r => if r.kind == k && r.unit == u then f r else r) } := rfl
@[simp] theorem setRing_intg : (setRing k u f s).intg = s.intg := rfl
@[simp] theorem setRing_th : (setRing k u f s).th = s.th := rfl
@[simp] theorem setRing_strm : (setRing k u f s).strm = s.strm := rfl
@[simp] theorem setRing_packers : (setRing k u f s).packers = s.packers := rfl
@[simp] theorem setRing_mq : (setRing k u f s).mq = s.mq := rfl
@[simp] theorem setRing_tdc : (setRing k u f s).tdc = s.tdc := rfl
@[simp] theorem setRing_mc : (setRing k u f s).mc = s.mc := rfl
@[simp] theorem setRing_maint : (setRing k u f s).maint = s.maint := rfl
@[simp] theorem setRing_disp : (setRing k u f s).disp = s.disp := rfl
@[simp] theorem setRing_hub : (setRing k u f s).hub = s.hub := rfl
@[simp] theorem setRing_dbg : (setRing k u f s).dbg = s.dbg := rfl
@[simp] theorem setRing_pair : (setRing k u f s).pair = s.pair := rfl
@[simp] theorem setRing_bb : (setRing k u f s).bb = s.bb := rfl
@[simp] theorem setRing_faultCause : (setRing k u f s).faultCause = s.faultCause := rfl
@[simp] theorem setRing_faultActive : (setRing k u f s).faultActive = s.faultActive := rfl
@[simp] theorem setRing_hist : (setRing k u f s).hist = s.hist := rfl
@[simp] theorem setRing_free : (setRing k u f s).free = s.free := rfl
end

section
variable (f : IntUnit → IntUnit)
@[simp] theorem setInt_pending : (setInt f s).pending = s.pending := rfl
@[simp] theorem setInt_out : (setInt f s).out = s.out := rfl
@[simp] theorem setInt_variant : (setInt f s).variant = s.variant := rfl
@[simp] theorem setInt_compat : (setInt f s).compat = s.compat := rfl
@[simp] theorem setInt_index : (setInt f s).index = s.index := rfl
@[simp] theorem setInt_ready : (setInt f s).ready = s.ready := rfl
@[simp] theorem setInt_mode : (setInt f s).mode = s.mode := rfl
@[simp] theorem setInt_shadowed : (setInt f s).shadowed = s.shadowed := rfl
@[simp] theorem setInt_nextId : (setInt f s).nextId = s.nextId := rfl
@[simp] theorem setInt_cmds : (setInt f s).cmds = s.cmds := rfl
@[simp] theorem setInt_qps : (setInt f s).qps = s.qps := rfl
@[simp] theorem setInt_spi : (setInt f s).spi = s.spi := rfl
@[simp] theorem setInt_ctlport : (setInt f s).ctlport = s.ctlport := rfl
@[simp] theorem setInt_routes : (setInt f s).routes = s.routes := rfl
@[simp] theorem setInt_notices : (setInt f s).notices = s.notices := rfl
@[simp] theorem setInt_aside : (setInt f s).aside = s.aside := rfl
@[simp] theorem setInt_glob : (setInt f s).glob = s.glob := rfl
@[simp] theorem setInt_pool : (setInt f s).pool = s.pool := rfl
@[simp] theorem setInt_time : (setInt f s).time = s.time := rfl
@[simp] theorem setInt_conv : (setInt f s).conv = s.conv := rfl
@[simp] theorem setInt_eqs : (setInt f s).eqs = s.eqs := rfl
@[simp] theorem setInt_tuners : (setInt f s).tuners = s.tuners := rfl
@[simp] theorem setInt_engines : (setInt f s).engines = s.engines := rfl
@[simp] theorem setInt_dens : (setInt f s).dens = s.dens := rfl
@[simp] theorem setInt_spgm : (setInt f s).spgm = s.spgm := rfl
@[simp] theorem setInt_trig : (setInt f s).trig = s.trig := rfl
@[simp] theorem setInt_cap : (setInt f s).cap = s.cap := rfl
@[simp] theorem setInt_intg : (setInt f s).intg = f s.intg := rfl
@[simp] theorem setInt_th : (setInt f s).th = s.th := rfl
@[simp] theorem setInt_strm : (setInt f s).strm = s.strm := rfl
@[simp] theorem setInt_packers : (setInt f s).packers = s.packers := rfl
@[simp] theorem setInt_mq : (setInt f s).mq = s.mq := rfl
@[simp] theorem setInt_tdc : (setInt f s).tdc = s.tdc := rfl
@[simp] theorem setInt_mc : (setInt f s).mc = s.mc := rfl
@[simp] theorem setInt_maint : (setInt f s).maint = s.maint := rfl
@[simp] theorem setInt_disp : (setInt f s).disp = s.disp := rfl
@[simp] theorem setInt_hub : (setInt f s).hub = s.hub := rfl
@[simp] theorem setInt_dbg : (setInt f s).dbg = s.dbg := rfl
@[simp] theorem setInt_pair : (setInt f s).pair = s.pair := rfl
@[simp] theorem setInt_bb : (setInt f s).bb = s.bb := rfl
@[simp] theorem setInt_faultCause : (setInt f s).faultCause = s.faultCause := rfl
@[simp] theorem setInt_faultActive : (setInt f s).faultActive = s.faultActive := rfl
@[simp] theorem setInt_hist : (setInt f s).hist = s.hist := rfl
@[simp] theorem setInt_free : (setInt f s).free = s.free := rfl
end

section
variable (c : Nat) (f : Thresher → Thresher)
@[simp] theorem setTh_pending : (setTh c f s).pending = s.pending := rfl
@[simp] theorem setTh_out : (setTh c f s).out = s.out := rfl
@[simp] theorem setTh_variant : (setTh c f s).variant = s.variant := rfl
@[simp] theorem setTh_compat : (setTh c f s).compat = s.compat := rfl
@[simp] theorem setTh_index : (setTh c f s).index = s.index := rfl
@[simp] theorem setTh_ready : (setTh c f s).ready = s.ready := rfl
@[simp] theorem setTh_mode : (setTh c f s).mode = s.mode := rfl
@[simp] theorem setTh_shadowed : (setTh c f s).shadowed = s.shadowed := rfl
@[simp] theorem setTh_nextId : (setTh c f s).nextId = s.nextId := rfl
@[simp] theorem setTh_cmds : (setTh c f s).cmds = s.cmds := rfl
@[simp] theorem setTh_qps : (setTh c f s).qps = s.qps := rfl
@[simp] theorem setTh_spi : (setTh c f s).spi = s.spi := rfl
@[simp] theorem setTh_ctlport : (setTh c f s).ctlport = s.ctlport := rfl
@[simp] theorem setTh_routes : (setTh c f s).routes = s.routes := rfl
@[simp] theorem setTh_notices : (setTh c f s).notices = s.notices := rfl
@[simp] theorem setTh_aside : (setTh c f s).aside = s.aside := rfl
@[simp] theorem setTh_glob : (setTh c f s).glob = s.glob := rfl
@[simp] theorem setTh_pool : (setTh c f s).pool = s.pool := rfl
@[simp] theorem setTh_time : (setTh c f s).time = s.time := rfl
@[simp] theorem setTh_conv : (setTh c f s).conv = s.conv := rfl
@[simp] theorem setTh_eqs : (setTh c f s).eqs = s.eqs := rfl
@[simp] theorem setTh_tuners : (setTh c f s).tuners = s.tuners := rfl
@[simp] theorem setTh_engines : (setTh c f s).engines = s.engines := rfl
@[simp] theorem setTh_dens : (setTh c f s).dens = s.dens := rfl
@[simp] theorem setTh_spgm : (setTh c f s).spgm = s.spgm := rfl
@[simp] theorem setTh_trig : (setTh c f s).trig = s.trig := rfl
@[simp] theorem setTh_cap : (setTh c f s).cap = s.cap := rfl
@[simp] theorem setTh_intg : (setTh c f s).intg = s.intg := rfl
@[simp] theorem setTh_th : (setTh c f s).th = modAt s.th c f := rfl
@[simp] theorem setTh_strm : (setTh c f s).strm = s.strm := rfl
@[simp] theorem setTh_packers : (setTh c f s).packers = s.packers := rfl
@[simp] theorem setTh_mq : (setTh c f s).mq = s.mq := rfl
@[simp] theorem setTh_tdc : (setTh c f s).tdc = s.tdc := rfl
@[simp] theorem setTh_mc : (setTh c f s).mc = s.mc := rfl
@[simp] theorem setTh_maint : (setTh c f s).maint = s.maint := rfl
@[simp] theorem setTh_disp : (setTh c f s).disp = s.disp := rfl
@[simp] theorem setTh_hub : (setTh c f s).hub = s.hub := rfl
@[simp] theorem setTh_dbg : (setTh c f s).dbg = s.dbg := rfl
@[simp] theorem setTh_pair : (setTh c f s).pair = s.pair := rfl
@[simp] theorem setTh_bb : (setTh c f s).bb = s.bb := rfl
@[simp] theorem setTh_faultCause : (setTh c f s).faultCause = s.faultCause := rfl
@[simp] theorem setTh_faultActive : (setTh c f s).faultActive = s.faultActive := rfl
@[simp] theorem setTh_hist : (setTh c f s).hist = s.hist := rfl
@[simp] theorem setTh_free : (setTh c f s).free = s.free := rfl
end

section
variable (f : StreamUnit → StreamUnit)
@[simp] theorem setStrm_pending : (setStrm f s).pending = s.pending := rfl
@[simp] theorem setStrm_out : (setStrm f s).out = s.out := rfl
@[simp] theorem setStrm_variant : (setStrm f s).variant = s.variant := rfl
@[simp] theorem setStrm_compat : (setStrm f s).compat = s.compat := rfl
@[simp] theorem setStrm_index : (setStrm f s).index = s.index := rfl
@[simp] theorem setStrm_ready : (setStrm f s).ready = s.ready := rfl
@[simp] theorem setStrm_mode : (setStrm f s).mode = s.mode := rfl
@[simp] theorem setStrm_shadowed : (setStrm f s).shadowed = s.shadowed := rfl
@[simp] theorem setStrm_nextId : (setStrm f s).nextId = s.nextId := rfl
@[simp] theorem setStrm_cmds : (setStrm f s).cmds = s.cmds := rfl
@[simp] theorem setStrm_qps : (setStrm f s).qps = s.qps := rfl
@[simp] theorem setStrm_spi : (setStrm f s).spi = s.spi := rfl
@[simp] theorem setStrm_ctlport : (setStrm f s).ctlport = s.ctlport := rfl
@[simp] theorem setStrm_routes : (setStrm f s).routes = s.routes := rfl
@[simp] theorem setStrm_notices : (setStrm f s).notices = s.notices := rfl
@[simp] theorem setStrm_aside : (setStrm f s).aside = s.aside := rfl
@[simp] theorem setStrm_glob : (setStrm f s).glob = s.glob := rfl
@[simp] theorem setStrm_pool : (setStrm f s).pool = s.pool := rfl
@[simp] theorem setStrm_time : (setStrm f s).time = s.time := rfl
@[simp] theorem setStrm_conv : (setStrm f s).conv = s.conv := rfl
@[simp] theorem setStrm_eqs : (setStrm f s).eqs = s.eqs := rfl
@[simp] theorem setStrm_tuners : (setStrm f s).tuners = s.tuners := rfl
@[simp] theorem setStrm_engines : (setStrm f s).engines = s.engines := rfl
@[simp] theorem setStrm_dens : (setStrm f s).dens = s.dens := rfl
@[simp] theorem setStrm_spgm : (setStrm f s).spgm = s.spgm := rfl
@[simp] theorem setStrm_trig : (setStrm f s).trig = s.trig := rfl
@[simp] theorem setStrm_cap : (setStrm f s).cap = s.cap := rfl
@[simp] theorem setStrm_intg : (setStrm f s).intg = s.intg := rfl
@[simp] theorem setStrm_th : (setStrm f s).th = s.th := rfl
@[simp] theorem setStrm_strm : (setStrm f s).strm = f s.strm := rfl
@[simp] theorem setStrm_packers : (setStrm f s).packers = s.packers := rfl
@[simp] theorem setStrm_mq : (setStrm f s).mq = s.mq := rfl
@[simp] theorem setStrm_tdc : (setStrm f s).tdc = s.tdc := rfl
@[simp] theorem setStrm_mc : (setStrm f s).mc = s.mc := rfl
@[simp] theorem setStrm_maint : (setStrm f s).maint = s.maint := rfl
@[simp] theorem setStrm_disp : (setStrm f s).disp = s.disp := rfl
@[simp] theorem setStrm_hub : (setStrm f s).hub = s.hub := rfl
@[simp] theorem setStrm_dbg : (setStrm f s).dbg = s.dbg := rfl
@[simp] theorem setStrm_pair : (setStrm f s).pair = s.pair := rfl
@[simp] theorem setStrm_bb : (setStrm f s).bb = s.bb := rfl
@[simp] theorem setStrm_faultCause : (setStrm f s).faultCause = s.faultCause := rfl
@[simp] theorem setStrm_faultActive : (setStrm f s).faultActive = s.faultActive := rfl
@[simp] theorem setStrm_hist : (setStrm f s).hist = s.hist := rfl
@[simp] theorem setStrm_free : (setStrm f s).free = s.free := rfl
end

section
variable (n : Nat) (f : StreamCtx → StreamCtx)
@[simp] theorem setCtx_pending : (setCtx n f s).pending = s.pending := rfl
@[simp] theorem setCtx_out : (setCtx n f s).out = s.out := rfl
@[simp] theorem setCtx_variant : (setCtx n f s).variant = s.variant := rfl
@[simp] theorem setCtx_compat : (setCtx n f s).compat = s.compat := rfl
@[simp] theorem setCtx_index : (setCtx n f s).index = s.index := rfl
@[simp] theorem setCtx_ready : (setCtx n f s).ready = s.ready := rfl
@[simp] theorem setCtx_mode : (setCtx n f s).mode = s.mode := rfl
@[simp] theorem setCtx_shadowed : (setCtx n f s).shadowed = s.shadowed := rfl
@[simp] theorem setCtx_nextId : (setCtx n f s).nextId = s.nextId := rfl
@[simp] theorem setCtx_cmds : (setCtx n f s).cmds = s.cmds := rfl
@[simp] theorem setCtx_qps : (setCtx n f s).qps = s.qps := rfl
@[simp] theorem setCtx_spi : (setCtx n f s).spi = s.spi := rfl
@[simp] theorem setCtx_ctlport : (setCtx n f s).ctlport = s.ctlport := rfl
@[simp] theorem setCtx_routes : (setCtx n f s).routes = s.routes := rfl
@[simp] theorem setCtx_notices : (setCtx n f s).notices = s.notices := rfl
@[simp] theorem setCtx_aside : (setCtx n f s).aside = s.aside := rfl
@[simp] theorem setCtx_glob : (setCtx n f s).glob = s.glob := rfl
@[simp] theorem setCtx_pool : (setCtx n f s).pool = s.pool := rfl
@[simp] theorem setCtx_time : (setCtx n f s).time = s.time := rfl
@[simp] theorem setCtx_conv : (setCtx n f s).conv = s.conv := rfl
@[simp] theorem setCtx_eqs : (setCtx n f s).eqs = s.eqs := rfl
@[simp] theorem setCtx_tuners : (setCtx n f s).tuners = s.tuners := rfl
@[simp] theorem setCtx_engines : (setCtx n f s).engines = s.engines := rfl
@[simp] theorem setCtx_dens : (setCtx n f s).dens = s.dens := rfl
@[simp] theorem setCtx_spgm : (setCtx n f s).spgm = s.spgm := rfl
@[simp] theorem setCtx_trig : (setCtx n f s).trig = s.trig := rfl
@[simp] theorem setCtx_cap : (setCtx n f s).cap = s.cap := rfl
@[simp] theorem setCtx_intg : (setCtx n f s).intg = s.intg := rfl
@[simp] theorem setCtx_th : (setCtx n f s).th = s.th := rfl
@[simp] theorem setCtx_strm : (setCtx n f s).strm = { s.strm with ctxs := modAt s.strm.ctxs n f } := rfl
@[simp] theorem setCtx_packers : (setCtx n f s).packers = s.packers := rfl
@[simp] theorem setCtx_mq : (setCtx n f s).mq = s.mq := rfl
@[simp] theorem setCtx_tdc : (setCtx n f s).tdc = s.tdc := rfl
@[simp] theorem setCtx_mc : (setCtx n f s).mc = s.mc := rfl
@[simp] theorem setCtx_maint : (setCtx n f s).maint = s.maint := rfl
@[simp] theorem setCtx_disp : (setCtx n f s).disp = s.disp := rfl
@[simp] theorem setCtx_hub : (setCtx n f s).hub = s.hub := rfl
@[simp] theorem setCtx_dbg : (setCtx n f s).dbg = s.dbg := rfl
@[simp] theorem setCtx_pair : (setCtx n f s).pair = s.pair := rfl
@[simp] theorem setCtx_bb : (setCtx n f s).bb = s.bb := rfl
@[simp] theorem setCtx_faultCause : (setCtx n f s).faultCause = s.faultCause := rfl
@[simp] theorem setCtx_faultActive : (setCtx n f s).faultActive = s.faultActive := rfl
@[simp] theorem setCtx_hist : (setCtx n f s).hist = s.hist := rfl
@[simp] theorem setCtx_free : (setCtx n f s).free = s.free := rfl
end

section
variable (p : Nat) (f : Packer → Packer)
@[simp] theorem setPacker_pending : (setPacker p f s).pending = s.pending := rfl
@[simp] theorem setPacker_out : (setPacker p f s).out = s.out := rfl
@[simp] theorem setPacker_variant : (setPacker p f s).variant = s.variant := rfl
@[simp] theorem setPacker_compat : (setPacker p f s).compat = s.compat := rfl
@[simp] theorem setPacker_index : (setPacker p f s).index = s.index := rfl
@[simp] theorem setPacker_ready : (setPacker p f s).ready = s.ready := rfl
@[simp] theorem setPacker_mode : (setPacker p f s).mode = s.mode := rfl
@[simp] theorem setPacker_shadowed : (setPacker p f s).shadowed = s.shadowed := rfl
@[simp] theorem setPacker_nextId : (setPacker p f s).nextId = s.nextId := rfl
@[simp] theorem setPacker_cmds : (setPacker p f s).cmds = s.cmds := rfl
@[simp] theorem setPacker_qps : (setPacker p f s).qps = s.qps := rfl
@[simp] theorem setPacker_spi : (setPacker p f s).spi = s.spi := rfl
@[simp] theorem setPacker_ctlport : (setPacker p f s).ctlport = s.ctlport := rfl
@[simp] theorem setPacker_routes : (setPacker p f s).routes = s.routes := rfl
@[simp] theorem setPacker_notices : (setPacker p f s).notices = s.notices := rfl
@[simp] theorem setPacker_aside : (setPacker p f s).aside = s.aside := rfl
@[simp] theorem setPacker_glob : (setPacker p f s).glob = s.glob := rfl
@[simp] theorem setPacker_pool : (setPacker p f s).pool = s.pool := rfl
@[simp] theorem setPacker_time : (setPacker p f s).time = s.time := rfl
@[simp] theorem setPacker_conv : (setPacker p f s).conv = s.conv := rfl
@[simp] theorem setPacker_eqs : (setPacker p f s).eqs = s.eqs := rfl
@[simp] theorem setPacker_tuners : (setPacker p f s).tuners = s.tuners := rfl
@[simp] theorem setPacker_engines : (setPacker p f s).engines = s.engines := rfl
@[simp] theorem setPacker_dens : (setPacker p f s).dens = s.dens := rfl
@[simp] theorem setPacker_spgm : (setPacker p f s).spgm = s.spgm := rfl
@[simp] theorem setPacker_trig : (setPacker p f s).trig = s.trig := rfl
@[simp] theorem setPacker_cap : (setPacker p f s).cap = s.cap := rfl
@[simp] theorem setPacker_intg : (setPacker p f s).intg = s.intg := rfl
@[simp] theorem setPacker_th : (setPacker p f s).th = s.th := rfl
@[simp] theorem setPacker_strm : (setPacker p f s).strm = s.strm := rfl
@[simp] theorem setPacker_packers : (setPacker p f s).packers = modAt s.packers p f := rfl
@[simp] theorem setPacker_mq : (setPacker p f s).mq = s.mq := rfl
@[simp] theorem setPacker_tdc : (setPacker p f s).tdc = s.tdc := rfl
@[simp] theorem setPacker_mc : (setPacker p f s).mc = s.mc := rfl
@[simp] theorem setPacker_maint : (setPacker p f s).maint = s.maint := rfl
@[simp] theorem setPacker_disp : (setPacker p f s).disp = s.disp := rfl
@[simp] theorem setPacker_hub : (setPacker p f s).hub = s.hub := rfl
@[simp] theorem setPacker_dbg : (setPacker p f s).dbg = s.dbg := rfl
@[simp] theorem setPacker_pair : (setPacker p f s).pair = s.pair := rfl
@[simp] theorem setPacker_bb : (setPacker p f s).bb = s.bb := rfl
@[simp] theorem setPacker_faultCause : (setPacker p f s).faultCause = s.faultCause := rfl
@[simp] theorem setPacker_faultActive : (setPacker p f s).faultActive = s.faultActive := rfl
@[simp] theorem setPacker_hist : (setPacker p f s).hist = s.hist := rfl
@[simp] theorem setPacker_free : (setPacker p f s).free = s.free := rfl
end

section
variable (f : MqUnit → MqUnit)
@[simp] theorem setMq_pending : (setMq f s).pending = s.pending := rfl
@[simp] theorem setMq_out : (setMq f s).out = s.out := rfl
@[simp] theorem setMq_variant : (setMq f s).variant = s.variant := rfl
@[simp] theorem setMq_compat : (setMq f s).compat = s.compat := rfl
@[simp] theorem setMq_index : (setMq f s).index = s.index := rfl
@[simp] theorem setMq_ready : (setMq f s).ready = s.ready := rfl
@[simp] theorem setMq_mode : (setMq f s).mode = s.mode := rfl
@[simp] theorem setMq_shadowed : (setMq f s).shadowed = s.shadowed := rfl
@[simp] theorem setMq_nextId : (setMq f s).nextId = s.nextId := rfl
@[simp] theorem setMq_cmds : (setMq f s).cmds = s.cmds := rfl
@[simp] theorem setMq_qps : (setMq f s).qps = s.qps := rfl
@[simp] theorem setMq_spi : (setMq f s).spi = s.spi := rfl
@[simp] theorem setMq_ctlport : (setMq f s).ctlport = s.ctlport := rfl
@[simp] theorem setMq_routes : (setMq f s).routes = s.routes := rfl
@[simp] theorem setMq_notices : (setMq f s).notices = s.notices := rfl
@[simp] theorem setMq_aside : (setMq f s).aside = s.aside := rfl
@[simp] theorem setMq_glob : (setMq f s).glob = s.glob := rfl
@[simp] theorem setMq_pool : (setMq f s).pool = s.pool := rfl
@[simp] theorem setMq_time : (setMq f s).time = s.time := rfl
@[simp] theorem setMq_conv : (setMq f s).conv = s.conv := rfl
@[simp] theorem setMq_eqs : (setMq f s).eqs = s.eqs := rfl
@[simp] theorem setMq_tuners : (setMq f s).tuners = s.tuners := rfl
@[simp] theorem setMq_engines : (setMq f s).engines = s.engines := rfl
@[simp] theorem setMq_dens : (setMq f s).dens = s.dens := rfl
@[simp] theorem setMq_spgm : (setMq f s).spgm = s.spgm := rfl
@[simp] theorem setMq_trig : (setMq f s).trig = s.trig := rfl
@[simp] theorem setMq_cap : (setMq f s).cap = s.cap := rfl
@[simp] theorem setMq_intg : (setMq f s).intg = s.intg := rfl
@[simp] theorem setMq_th : (setMq f s).th = s.th := rfl
@[simp] theorem setMq_strm : (setMq f s).strm = s.strm := rfl
@[simp] theorem setMq_packers : (setMq f s).packers = s.packers := rfl
@[simp] theorem setMq_mq : (setMq f s).mq = f s.mq := rfl
@[simp] theorem setMq_tdc : (setMq f s).tdc = s.tdc := rfl
@[simp] theorem setMq_mc : (setMq f s).mc = s.mc := rfl
@[simp] theorem setMq_maint : (setMq f s).maint = s.maint := rfl
@[simp] theorem setMq_disp : (setMq f s).disp = s.disp := rfl
@[simp] theorem setMq_hub : (setMq f s).hub = s.hub := rfl
@[simp] theorem setMq_dbg : (setMq f s).dbg = s.dbg := rfl
@[simp] theorem setMq_pair : (setMq f s).pair = s.pair := rfl
@[simp] theorem setMq_bb : (setMq f s).bb = s.bb := rfl
@[simp] theorem setMq_faultCause : (setMq f s).faultCause = s.faultCause := rfl
@[simp] theorem setMq_faultActive : (setMq f s).faultActive = s.faultActive := rfl
@[simp] theorem setMq_hist : (setMq f s).hist = s.hist := rfl
@[simp] theorem setMq_free : (setMq f s).free = s.free := rfl
end

section
variable (f : TdcUnit → TdcUnit)
@[simp] theorem setTdc_pending : (setTdc f s).pending = s.pending := rfl
@[simp] theorem setTdc_out : (setTdc f s).out = s.out := rfl
@[simp] theorem setTdc_variant : (setTdc f s).variant = s.variant := rfl
@[simp] theorem setTdc_compat : (setTdc f s).compat = s.compat := rfl
@[simp] theorem setTdc_index : (setTdc f s).index = s.index := rfl
@[simp] theorem setTdc_ready : (setTdc f s).ready = s.ready := rfl
@[simp] theorem setTdc_mode : (setTdc f s).mode = s.mode := rfl
@[simp] theorem setTdc_shadowed : (setTdc f s).shadowed = s.shadowed := rfl
@[simp] theorem setTdc_nextId : (setTdc f s).nextId = s.nextId := rfl
@[simp] theorem setTdc_cmds : (setTdc f s).cmds = s.cmds := rfl
@[simp] theorem setTdc_qps : (setTdc f s).qps = s.qps := rfl
@[simp] theorem setTdc_spi : (setTdc f s).spi = s.spi := rfl
@[simp] theorem setTdc_ctlport : (setTdc f s).ctlport = s.ctlport := rfl
@[simp] theorem setTdc_routes : (setTdc f s).routes = s.routes := rfl
@[simp] theorem setTdc_notices : (setTdc f s).notices = s.notices := rfl
@[simp] theorem setTdc_aside : (setTdc f s).aside = s.aside := rfl
@[simp] theorem setTdc_glob : (setTdc f s).glob = s.glob := rfl
@[simp] theorem setTdc_pool : (setTdc f s).pool = s.pool := rfl
@[simp] theorem setTdc_time : (setTdc f s).time = s.time := rfl
@[simp] theorem setTdc_conv : (setTdc f s).conv = s.conv := rfl
@[simp] theorem setTdc_eqs : (setTdc f s).eqs = s.eqs := rfl
@[simp] theorem setTdc_tuners : (setTdc f s).tuners = s.tuners := rfl
@[simp] theorem setTdc_engines : (setTdc f s).engines = s.engines := rfl
@[simp] theorem setTdc_dens : (setTdc f s).dens = s.dens := rfl
@[simp] theorem setTdc_spgm : (setTdc f s).spgm = s.spgm := rfl
@[simp] theorem setTdc_trig : (setTdc f s).trig = s.trig := rfl
@[simp] theorem setTdc_cap : (setTdc f s).cap = s.cap := rfl
@[simp] theorem setTdc_intg : (setTdc f s).intg = s.intg := rfl
@[simp] theorem setTdc_th : (setTdc f s).th = s.th := rfl
@[simp] theorem setTdc_strm : (setTdc f s).strm = s.strm := rfl
@[simp] theorem setTdc_packers : (setTdc f s).packers = s.packers := rfl
@[simp] theorem setTdc_mq : (setTdc f s).mq = s.mq := rfl
@[simp] theorem setTdc_tdc : (setTdc f s).tdc = f s.tdc := rfl
@[simp] theorem setTdc_mc : (setTdc f s).mc = s.mc := rfl
@[simp] theorem setTdc_maint : (setTdc f s).maint = s.maint := rfl
@[simp] theorem setTdc_disp : (setTdc f s).disp = s.disp := rfl
@[simp] theorem setTdc_hub : (setTdc f s).hub = s.hub := rfl
@[simp] theorem setTdc_dbg : (setTdc f s).dbg = s.dbg := rfl
@[simp] theorem setTdc_pair : (setTdc f s).pair = s.pair := rfl
@[simp] theorem setTdc_bb : (setTdc f s).bb = s.bb := rfl
@[simp] theorem setTdc_faultCause : (setTdc f s).faultCause = s.faultCause := rfl
@[simp] theorem setTdc_faultActive : (setTdc f s).faultActive = s.faultActive := rfl
@[simp] theorem setTdc_hist : (setTdc f s).hist = s.hist := rfl
@[simp] theorem setTdc_free : (setTdc f s).free = s.free := rfl
end

section
variable (f : McUnit → McUnit)
@[simp] theorem setMc_pending : (setMc f s).pending = s.pending := rfl
@[simp] theorem setMc_out : (setMc f s).out = s.out := rfl
@[simp] theorem setMc_variant : (setMc f s).variant = s.variant := rfl
@[simp] theorem setMc_compat : (setMc f s).compat = s.compat := rfl
@[simp] theorem setMc_index : (setMc f s).index = s.index := rfl
@[simp] theorem setMc_ready : (setMc f s).ready = s.ready := rfl
@[simp] theorem setMc_mode : (setMc f s).mode = s.mode := rfl
@[simp] theorem setMc_shadowed : (setMc f s).shadowed = s.shadowed := rfl
@[simp] theorem setMc_nextId : (setMc f s).nextId = s.nextId := rfl
@[simp] theorem setMc_cmds : (setMc f s).cmds = s.cmds := rfl
@[simp] theorem setMc_qps : (setMc f s).qps = s.qps := rfl
@[simp] theorem setMc_spi : (setMc f s).spi = s.spi := rfl
@[simp] theorem setMc_ctlport : (setMc f s).ctlport = s.ctlport := rfl
@[simp] theorem setMc_routes : (setMc f s).routes = s.routes := rfl
@[simp] theorem setMc_notices : (setMc f s).notices = s.notices := rfl
@[simp] theorem setMc_aside : (setMc f s).aside = s.aside := rfl
@[simp] theorem setMc_glob : (setMc f s).glob = s.glob := rfl
@[simp] theorem setMc_pool : (setMc f s).pool = s.pool := rfl
@[simp] theorem setMc_time : (setMc f s).time = s.time := rfl
@[simp] theorem setMc_conv : (setMc f s).conv = s.conv := rfl
@[simp] theorem setMc_eqs : (setMc f s).eqs = s.eqs := rfl
@[simp] theorem setMc_tuners : (setMc f s).tuners = s.tuners := rfl
@[simp] theorem setMc_engines : (setMc f s).engines = s.engines := rfl
@[simp] theorem setMc_dens : (setMc f s).dens = s.dens := rfl
@[simp] theorem setMc_spgm : (setMc f s).spgm = s.spgm := rfl
@[simp] theorem setMc_trig : (setMc f s).trig = s.trig := rfl
@[simp] theorem setMc_cap : (setMc f s).cap = s.cap := rfl
@[simp] theorem setMc_intg : (setMc f s).intg = s.intg := rfl
@[simp] theorem setMc_th : (setMc f s).th = s.th := rfl
@[simp] theorem setMc_strm : (setMc f s).strm = s.strm := rfl
@[simp] theorem setMc_packers : (setMc f s).packers = s.packers := rfl
@[simp] theorem setMc_mq : (setMc f s).mq = s.mq := rfl
@[simp] theorem setMc_tdc : (setMc f s).tdc = s.tdc := rfl
@[simp] theorem setMc_mc : (setMc f s).mc = f s.mc := rfl
@[simp] theorem setMc_maint : (setMc f s).maint = s.maint := rfl
@[simp] theorem setMc_disp : (setMc f s).disp = s.disp := rfl
@[simp] theorem setMc_hub : (setMc f s).hub = s.hub := rfl
@[simp] theorem setMc_dbg : (setMc f s).dbg = s.dbg := rfl
@[simp] theorem setMc_pair : (setMc f s).pair = s.pair := rfl
@[simp] theorem setMc_bb : (setMc f s).bb = s.bb := rfl
@[simp] theorem setMc_faultCause : (setMc f s).faultCause = s.faultCause := rfl
@[simp] theorem setMc_faultActive : (setMc f s).faultActive = s.faultActive := rfl
@[simp] theorem setMc_hist : (setMc f s).hist = s.hist := rfl
@[simp] theorem setMc_free : (setMc f s).free = s.free := rfl
end

section
variable (f : MaintUnit → MaintUnit)
@[simp] theorem setMaint_pending : (setMaint f s).pending = s.pending := rfl
@[simp] theorem setMaint_out : (setMaint f s).out = s.out := rfl
@[simp] theorem setMaint_variant : (setMaint f s).variant = s.variant := rfl
@[simp] theorem setMaint_compat : (setMaint f s).compat = s.compat := rfl
@[simp] theorem setMaint_index : (setMaint f s).index = s.index := rfl
@[simp] theorem setMaint_ready : (setMaint f s).ready = s.ready := rfl
@[simp] theorem setMaint_mode : (setMaint f s).mode = s.mode := rfl
@[simp] theorem setMaint_shadowed : (setMaint f s).shadowed = s.shadowed := rfl
@[simp] theorem setMaint_nextId : (setMaint f s).nextId = s.nextId := rfl
@[simp] theorem setMaint_cmds : (setMaint f s).cmds = s.cmds := rfl
@[simp] theorem setMaint_qps : (setMaint f s).qps = s.qps := rfl
@[simp] theorem setMaint_spi : (setMaint f s).spi = s.spi := rfl
@[simp] theorem setMaint_ctlport : (setMaint f s).ctlport = s.ctlport := rfl
@[simp] theorem setMaint_routes : (setMaint f s).routes = s.routes := rfl
@[simp] theorem setMaint_notices : (setMaint f s).notices = s.notices := rfl
@[simp] theorem setMaint_aside : (setMaint f s).aside = s.aside := rfl
@[simp] theorem setMaint_glob : (setMaint f s).glob = s.glob := rfl
@[simp] theorem setMaint_pool : (setMaint f s).pool = s.pool := rfl
@[simp] theorem setMaint_time : (setMaint f s).time = s.time := rfl
@[simp] theorem setMaint_conv : (setMaint f s).conv = s.conv := rfl
@[simp] theorem setMaint_eqs : (setMaint f s).eqs = s.eqs := rfl
@[simp] theorem setMaint_tuners : (setMaint f s).tuners = s.tuners := rfl
@[simp] theorem setMaint_engines : (setMaint f s).engines = s.engines := rfl
@[simp] theorem setMaint_dens : (setMaint f s).dens = s.dens := rfl
@[simp] theorem setMaint_spgm : (setMaint f s).spgm = s.spgm := rfl
@[simp] theorem setMaint_trig : (setMaint f s).trig = s.trig := rfl
@[simp] theorem setMaint_cap : (setMaint f s).cap = s.cap := rfl
@[simp] theorem setMaint_intg : (setMaint f s).intg = s.intg := rfl
@[simp] theorem setMaint_th : (setMaint f s).th = s.th := rfl
@[simp] theorem setMaint_strm : (setMaint f s).strm = s.strm := rfl
@[simp] theorem setMaint_packers : (setMaint f s).packers = s.packers := rfl
@[simp] theorem setMaint_mq : (setMaint f s).mq = s.mq := rfl
@[simp] theorem setMaint_tdc : (setMaint f s).tdc = s.tdc := rfl
@[simp] theorem setMaint_mc : (setMaint f s).mc = s.mc := rfl
@[simp] theorem setMaint_maint : (setMaint f s).maint = f s.maint := rfl
@[simp] theorem setMaint_disp : (setMaint f s).disp = s.disp := rfl
@[simp] theorem setMaint_hub : (setMaint f s).hub = s.hub := rfl
@[simp] theorem setMaint_dbg : (setMaint f s).dbg = s.dbg := rfl
@[simp] theorem setMaint_pair : (setMaint f s).pair = s.pair := rfl
@[simp] theorem setMaint_bb : (setMaint f s).bb = s.bb := rfl
@[simp] theorem setMaint_faultCause : (setMaint f s).faultCause = s.faultCause := rfl
@[simp] theorem setMaint_faultActive : (setMaint f s).faultActive = s.faultActive := rfl
@[simp] theorem setMaint_hist : (setMaint f s).hist = s.hist := rfl
@[simp] theorem setMaint_free : (setMaint f s).free = s.free := rfl
end

section
variable (f : DispUnit → DispUnit)
@[simp] theorem setDisp_pending : (setDisp f s).pending = s.pending := rfl
@[simp] theorem setDisp_out : (setDisp f s).out = s.out := rfl
@[simp] theorem setDisp_variant : (setDisp f s).variant = s.variant := rfl
@[simp] theorem setDisp_compat : (setDisp f s).compat = s.compat := rfl
@[simp] theorem setDisp_index : (setDisp f s).index = s.index := rfl
@[simp] theorem setDisp_ready : (setDisp f s).ready = s.ready := rfl
@[simp] theorem setDisp_mode : (setDisp f s).mode = s.mode := rfl
@[simp] theorem setDisp_shadowed : (setDisp f s).shadowed = s.shadowed := rfl
@[simp] theorem setDisp_nextId : (setDisp f s).nextId = s.nextId := rfl
@[simp] theorem setDisp_cmds : (setDisp f s).cmds = s.cmds := rfl
@[simp] theorem setDisp_qps : (setDisp f s).qps = s.qps := rfl
@[simp] theorem setDisp_spi : (setDisp f s).spi = s.spi := rfl
@[simp] theorem setDisp_ctlport : (setDisp f s).ctlport = s.ctlport := rfl
@[simp] theorem setDisp_routes : (setDisp f s).routes = s.routes := rfl
@[simp] theorem setDisp_notices : (setDisp f s).notices = s.notices := rfl
@[simp] theorem setDisp_aside : (setDisp f s).aside = s.aside := rfl
@[simp] theorem setDisp_glob : (setDisp f s).glob = s.glob := rfl
@[simp] theorem setDisp_pool : (setDisp f s).pool = s.pool := rfl
@[simp] theorem setDisp_time : (setDisp f s).time = s.time := rfl
@[simp] theorem setDisp_conv : (setDisp f s).conv = s.conv := rfl
@[simp] theorem setDisp_eqs : (setDisp f s).eqs = s.eqs := rfl
@[simp] theorem setDisp_tuners : (setDisp f s).tuners = s.tuners := rfl
@[simp] theorem setDisp_engines : (setDisp f s).engines = s.engines := rfl
@[simp] theorem setDisp_dens : (setDisp f s).dens = s.dens := rfl
@[simp] theorem setDisp_spgm : (setDisp f s).spgm = s.spgm := rfl
@[simp] theorem setDisp_trig : (setDisp f s).trig = s.trig := rfl
@[simp] theorem setDisp_cap : (setDisp f s).cap = s.cap := rfl
@[simp] theorem setDisp_intg : (setDisp f s).intg = s.intg := rfl
@[simp] theorem setDisp_th : (setDisp f s).th = s.th := rfl
@[simp] theorem setDisp_strm : (setDisp f s).strm = s.strm := rfl
@[simp] theorem setDisp_packers : (setDisp f s).packers = s.packers := rfl
@[simp] theorem setDisp_mq : (setDisp f s).mq = s.mq := rfl
@[simp] theorem setDisp_tdc : (setDisp f s).tdc = s.tdc := rfl
@[simp] theorem setDisp_mc : (setDisp f s).mc = s.mc := rfl
@[simp] theorem setDisp_maint : (setDisp f s).maint = s.maint := rfl
@[simp] theorem setDisp_disp : (setDisp f s).disp = f s.disp := rfl
@[simp] theorem setDisp_hub : (setDisp f s).hub = s.hub := rfl
@[simp] theorem setDisp_dbg : (setDisp f s).dbg = s.dbg := rfl
@[simp] theorem setDisp_pair : (setDisp f s).pair = s.pair := rfl
@[simp] theorem setDisp_bb : (setDisp f s).bb = s.bb := rfl
@[simp] theorem setDisp_faultCause : (setDisp f s).faultCause = s.faultCause := rfl
@[simp] theorem setDisp_faultActive : (setDisp f s).faultActive = s.faultActive := rfl
@[simp] theorem setDisp_hist : (setDisp f s).hist = s.hist := rfl
@[simp] theorem setDisp_free : (setDisp f s).free = s.free := rfl
end

section
variable (f : HubUnit → HubUnit)
@[simp] theorem setHub_pending : (setHub f s).pending = s.pending := rfl
@[simp] theorem setHub_out : (setHub f s).out = s.out := rfl
@[simp] theorem setHub_variant : (setHub f s).variant = s.variant := rfl
@[simp] theorem setHub_compat : (setHub f s).compat = s.compat := rfl
@[simp] theorem setHub_index : (setHub f s).index = s.index := rfl
@[simp] theorem setHub_ready : (setHub f s).ready = s.ready := rfl
@[simp] theorem setHub_mode : (setHub f s).mode = s.mode := rfl
@[simp] theorem setHub_shadowed : (setHub f s).shadowed = s.shadowed := rfl
@[simp] theorem setHub_nextId : (setHub f s).nextId = s.nextId := rfl
@[simp] theorem setHub_cmds : (setHub f s).cmds = s.cmds := rfl
@[simp] theorem setHub_qps : (setHub f s).qps = s.qps := rfl
@[simp] theorem setHub_spi : (setHub f s).spi = s.spi := rfl
@[simp] theorem setHub_ctlport : (setHub f s).ctlport = s.ctlport := rfl
@[simp] theorem setHub_routes : (setHub f s).routes = s.routes := rfl
@[simp] theorem setHub_notices : (setHub f s).notices = s.notices := rfl
@[simp] theorem setHub_aside : (setHub f s).aside = s.aside := rfl
@[simp] theorem setHub_glob : (setHub f s).glob = s.glob := rfl
@[simp] theorem setHub_pool : (setHub f s).pool = s.pool := rfl
@[simp] theorem setHub_time : (setHub f s).time = s.time := rfl
@[simp] theorem setHub_conv : (setHub f s).conv = s.conv := rfl
@[simp] theorem setHub_eqs : (setHub f s).eqs = s.eqs := rfl
@[simp] theorem setHub_tuners : (setHub f s).tuners = s.tuners := rfl
@[simp] theorem setHub_engines : (setHub f s).engines = s.engines := rfl
@[simp] theorem setHub_dens : (setHub f s).dens = s.dens := rfl
@[simp] theorem setHub_spgm : (setHub f s).spgm = s.spgm := rfl
@[simp] theorem setHub_trig : (setHub f s).trig = s.trig := rfl
@[simp] theorem setHub_cap : (setHub f s).cap = s.cap := rfl
@[simp] theorem setHub_intg : (setHub f s).intg = s.intg := rfl
@[simp] theorem setHub_th : (setHub f s).th = s.th := rfl
@[simp] theorem setHub_strm : (setHub f s).strm = s.strm := rfl
@[simp] theorem setHub_packers : (setHub f s).packers = s.packers := rfl
@[simp] theorem setHub_mq : (setHub f s).mq = s.mq := rfl
@[simp] theorem setHub_tdc : (setHub f s).tdc = s.tdc := rfl
@[simp] theorem setHub_mc : (setHub f s).mc = s.mc := rfl
@[simp] theorem setHub_maint : (setHub f s).maint = s.maint := rfl
@[simp] theorem setHub_disp : (setHub f s).disp = s.disp := rfl
@[simp] theorem setHub_hub : (setHub f s).hub = f s.hub := rfl
@[simp] theorem setHub_dbg : (setHub f s).dbg = s.dbg := rfl
@[simp] theorem setHub_pair : (setHub f s).pair = s.pair := rfl
@[simp] theorem setHub_bb : (setHub f s).bb = s.bb := rfl
@[simp] theorem setHub_faultCause : (setHub f s).faultCause = s.faultCause := rfl
@[simp] theorem setHub_faultActive : (setHub f s).faultActive = s.faultActive := rfl
@[simp] theorem setHub_hist : (setHub f s).hist = s.hist := rfl
@[simp] theorem setHub_free : (setHub f s).free = s.free := rfl
end

section
variable (f : DebugUnit → DebugUnit)
@[simp] theorem setDbg_pending : (setDbg f s).pending = s.pending := rfl
@[simp] theorem setDbg_out : (setDbg f s).out = s.out := rfl
@[simp] theorem setDbg_variant : (setDbg f s).variant = s.variant := rfl
@[simp] theorem setDbg_compat : (setDbg f s).compat = s.compat := rfl
@[simp] theorem setDbg_index : (setDbg f s).index = s.index := rfl
@[simp] theorem setDbg_ready : (setDbg f s).ready = s.ready := rfl
@[simp] theorem setDbg_mode : (setDbg f s).mode = s.mode := rfl
@[simp] theorem setDbg_shadowed : (setDbg f s).shadowed = s.shadowed := rfl
@[simp] theorem setDbg_nextId : (setDbg f s).nextId = s.nextId := rfl
@[simp] theorem setDbg_cmds : (setDbg f s).cmds = s.cmds := rfl
@[simp] theorem setDbg_qps : (setDbg f s).qps = s.qps := rfl
@[simp] theorem setDbg_spi : (setDbg f s).spi = s.spi := rfl
@[simp] theorem setDbg_ctlport : (setDbg f s).ctlport = s.ctlport := rfl
@[simp] theorem setDbg_routes : (setDbg f s).routes = s.routes := rfl
@[simp] theorem setDbg_notices : (setDbg f s).notices = s.notices := rfl
@[simp] theorem setDbg_aside : (setDbg f s).aside = s.aside := rfl
@[simp] theorem setDbg_glob : (setDbg f s).glob = s.glob := rfl
@[simp] theorem setDbg_pool : (setDbg f s).pool = s.pool := rfl
@[simp] theorem setDbg_time : (setDbg f s).time = s.time := rfl
@[simp] theorem setDbg_conv : (setDbg f s).conv = s.conv := rfl
@[simp] theorem setDbg_eqs : (setDbg f s).eqs = s.eqs := rfl
@[simp] theorem setDbg_tuners : (setDbg f s).tuners = s.tuners := rfl
@[simp] theorem setDbg_engines : (setDbg f s).engines = s.engines := rfl
@[simp] theorem setDbg_dens : (setDbg f s).dens = s.dens := rfl
@[simp] theorem setDbg_spgm : (setDbg f s).spgm = s.spgm := rfl
@[simp] theorem setDbg_trig : (setDbg f s).trig = s.trig := rfl
@[simp] theorem setDbg_cap : (setDbg f s).cap = s.cap := rfl
@[simp] theorem setDbg_intg : (setDbg f s).intg = s.intg := rfl
@[simp] theorem setDbg_th : (setDbg f s).th = s.th := rfl
@[simp] theorem setDbg_strm : (setDbg f s).strm = s.strm := rfl
@[simp] theorem setDbg_packers : (setDbg f s).packers = s.packers := rfl
@[simp] theorem setDbg_mq : (setDbg f s).mq = s.mq := rfl
@[simp] theorem setDbg_tdc : (setDbg f s).tdc = s.tdc := rfl
@[simp] theorem setDbg_mc : (setDbg f s).mc = s.mc := rfl
@[simp] theorem setDbg_maint : (setDbg f s).maint = s.maint := rfl
@[simp] theorem setDbg_disp : (setDbg f s).disp = s.disp := rfl
@[simp] theorem setDbg_hub : (setDbg f s).hub = s.hub := rfl
@[simp] theorem setDbg_dbg : (setDbg f s).dbg = f s.dbg := rfl
@[simp] theorem setDbg_pair : (setDbg f s).pair = s.pair := rfl
@[simp] theorem setDbg_bb : (setDbg f s).bb = s.bb := rfl
@[simp] theorem setDbg_faultCause : (setDbg f s).faultCause = s.faultCause := rfl
@[simp] theorem setDbg_faultActive : (setDbg f s).faultActive = s.faultActive := rfl
@[simp] theorem setDbg_hist : (setDbg f s).hist = s.hist := rfl
@[simp] theorem setDbg_free : (setDbg f s).free = s.free := rfl
end

section
variable (f : PairUnit → PairUnit)
@[simp] theorem setPair_pending : (setPair f s).pending = s.pending := rfl
@[simp] theorem setPair_out : (setPair f s).out = s.out := rfl
@[simp] theorem setPair_variant : (setPair f s).variant = s.variant := rfl
@[simp] theorem setPair_compat : (setPair f s).compat = s.compat := rfl
@[simp] theorem setPair_index : (setPair f s).index = s.index := rfl
@[simp] theorem setPair_ready : (setPair f s).ready = s.ready := rfl
@[simp] theorem setPair_mode : (setPair f s).mode = s.mode := rfl
@[simp] theorem setPair_shadowed : (setPair f s).shadowed = s.shadowed := rfl
@[simp] theorem setPair_nextId : (setPair f s).nextId = s.nextId := rfl
@[simp] theorem setPair_cmds : (setPair f s).cmds = s.cmds := rfl
@[simp] theorem setPair_qps : (setPair f s).qps = s.qps := rfl
@[simp] theorem setPair_spi : (setPair f s).spi = s.spi := rfl
@[simp] theorem setPair_ctlport : (setPair f s).ctlport = s.ctlport := rfl
@[simp] theorem setPair_routes : (setPair f s).routes = s.routes := rfl
@[simp] theorem setPair_notices : (setPair f s).notices = s.notices := rfl
@[simp] theorem setPair_aside : (setPair f s).aside = s.aside := rfl
@[simp] theorem setPair_glob : (setPair f s).glob = s.glob := rfl
@[simp] theorem setPair_pool : (setPair f s).pool = s.pool := rfl
@[simp] theorem setPair_time : (setPair f s).time = s.time := rfl
@[simp] theorem setPair_conv : (setPair f s).conv = s.conv := rfl
@[simp] theorem setPair_eqs : (setPair f s).eqs = s.eqs := rfl
@[simp] theorem setPair_tuners : (setPair f s).tuners = s.tuners := rfl
@[simp] theorem setPair_engines : (setPair f s).engines = s.engines := rfl
@[simp] theorem setPair_dens : (setPair f s).dens = s.dens := rfl
@[simp] theorem setPair_spgm : (setPair f s).spgm = s.spgm := rfl
@[simp] theorem setPair_trig : (setPair f s).trig = s.trig := rfl
@[simp] theorem setPair_cap : (setPair f s).cap = s.cap := rfl
@[simp] theorem setPair_intg : (setPair f s).intg = s.intg := rfl
@[simp] theorem setPair_th : (setPair f s).th = s.th := rfl
@[simp] theorem setPair_strm : (setPair f s).strm = s.strm := rfl
@[simp] theorem setPair_packers : (setPair f s).packers = s.packers := rfl
@[simp] theorem setPair_mq : (setPair f s).mq = s.mq := rfl
@[simp] theorem setPair_tdc : (setPair f s).tdc = s.tdc := rfl
@[simp] theorem setPair_mc : (setPair f s).mc = s.mc := rfl
@[simp] theorem setPair_maint : (setPair f s).maint = s.maint := rfl
@[simp] theorem setPair_disp : (setPair f s).disp = s.disp := rfl
@[simp] theorem setPair_hub : (setPair f s).hub = s.hub := rfl
@[simp] theorem setPair_dbg : (setPair f s).dbg = s.dbg := rfl
@[simp] theorem setPair_pair : (setPair f s).pair = f s.pair := rfl
@[simp] theorem setPair_bb : (setPair f s).bb = s.bb := rfl
@[simp] theorem setPair_faultCause : (setPair f s).faultCause = s.faultCause := rfl
@[simp] theorem setPair_faultActive : (setPair f s).faultActive = s.faultActive := rfl
@[simp] theorem setPair_hist : (setPair f s).hist = s.hist := rfl
@[simp] theorem setPair_free : (setPair f s).free = s.free := rfl
end

/-! An update of one member is an update of its unit. -/

@[simp] theorem setPort_eq (p : Nat) (f : EthPort → EthPort) : setPort p f s = setStrm (fun u => { u with ports := modAt u.ports p f }) s := rfl
@[simp] theorem setDest_eq (p : Nat) (f : DestEntry → DestEntry) : setDest p f s = setStrm (fun u => { u with dests := modAt u.dests p f }) s := rfl
@[simp] theorem setMcInput_eq (p : Nat) (f : McInput → McInput) : setMcInput p f s = setMc (fun u => { u with inputs := modAt u.inputs p f }) s := rfl
@[simp] theorem setTdcInput_eq (p : Nat) (f : TdcInput → TdcInput) : setTdcInput p f s = setTdc (fun u => { u with inputs := modAt u.inputs p f }) s := rfl
@[simp] theorem setTdcLine_eq (p : Nat) (f : TdcLine → TdcLine) : setTdcLine p f s = setTdc (fun u => { u with lines := modAt u.lines p f }) s := rfl
@[simp] theorem setTdcSlot_eq (p : Nat) (f : TdcSlot → TdcSlot) : setTdcSlot p f s = setTdc (fun u => { u with slots := modAt u.slots p f }) s := rfl
@[simp] theorem setCore_eq (p : Nat) (f : CorePair → CorePair) : setCore p f s = setHub (fun u => { u with cores := modAt u.cores p f }) s := rfl
@[simp] theorem setTile_eq (p : Nat) (f : TileLink → TileLink) : setTile p f s = setHub (fun u => { u with tiles := modAt u.tiles p f }) s := rfl
@[simp] theorem setFw_eq (f : Firmware → Firmware) : setFw f s = setHub (fun u => { u with fw := f u.fw }) s := rfl

end Sys2Proof.Machine
end

