-- ==== Sys2Proof/Laws/Ops.lean ====
section
/-! SUPPORT. What each shared operation can do, said once: the fields it may write (all others are as before), and what it leaves in them. A frame law
`f s = { s with x := (f s).x, … }` gives each other field by one rewrite. -/

namespace Sys2Proof.Machine

/-! ### Time, interrupts, registers -/

/-- The passing of time moves SAMPLE_INDEX, and the notes of the clock go on. -/
theorem atTime_frame (k : Nat) (s : State) : atTime k s = { s with index := (atTime k s).index, hist := (atTime k s).hist } := by
  unfold atTime advance keepNotes
  split_ifs <;> rfl

/-- What has ended by an index moves the running swaps of the equalisers beside. -/
theorem passTo_frame (k : Nat) (s : State) :
    passTo k s = { s with index := (passTo k s).index, hist := (passTo k s).hist, eqs := (passTo k s).eqs } := by
  unfold passTo
  rw [atTime_frame]

@[simp] theorem passTo_pending (k : Nat) (s : State) : (passTo k s).pending = s.pending := by rw [passTo_frame]
@[simp] theorem passTo_cmds (k : Nat) (s : State) : (passTo k s).cmds = s.cmds := by rw [passTo_frame]
@[simp] theorem passTo_pair (k : Nat) (s : State) : (passTo k s).pair = s.pair := by rw [passTo_frame]
@[simp] theorem passTo_time (k : Nat) (s : State) : (passTo k s).time = s.time := by rw [passTo_frame]
@[simp] theorem passTo_mode (k : Nat) (s : State) : (passTo k s).mode = s.mode := by rw [passTo_frame]
@[simp] theorem passTo_shadowed (k : Nat) (s : State) : (passTo k s).shadowed = s.shadowed := by rw [passTo_frame]
@[simp] theorem passTo_hub (k : Nat) (s : State) : (passTo k s).hub = s.hub := by rw [passTo_frame]
@[simp] theorem passTo_ready (k : Nat) (s : State) : (passTo k s).ready = s.ready := by rw [passTo_frame]
@[simp] theorem passTo_faultCause (k : Nat) (s : State) : (passTo k s).faultCause = s.faultCause := by rw [passTo_frame]
@[simp] theorem passTo_nextId (k : Nat) (s : State) : (passTo k s).nextId = s.nextId := by rw [passTo_frame]
@[simp] theorem passTo_pool (k : Nat) (s : State) : (passTo k s).pool = s.pool := by rw [passTo_frame]
@[simp] theorem passTo_aside (k : Nat) (s : State) : (passTo k s).aside = s.aside := by rw [passTo_frame]

/-- SAMPLE_INDEX never moves back with time. -/
theorem atTime_index_le (k : Nat) (s : State) : s.index ≤ (atTime k s).index := by
  unfold atTime advance keepNotes
  dsimp only
  split_ifs <;> simp_all

theorem raiseVector_frame (v : Nat) (s : State) : raiseVector v s = { s with out := (raiseVector v s).out } := by
  unfold raiseVector emit
  split <;> rfl

theorem latchGint_frame (b : Nat) (s : State) : latchGint b s = { s with glob := (latchGint b s).glob, out := (latchGint b s).out } := by
  unfold latchGint raiseVector emit
  dsimp only
  split_ifs <;> rfl

@[simp] theorem latchGint_notices (b : Nat) (s : State) : (latchGint b s).notices = s.notices := by rw [latchGint_frame]

/-- A latched cause of GINT_STATUS reads 1. -/
theorem latchGint_glob (b : Nat) (s : State) :
    (latchGint b s).glob = s.glob ∨ (latchGint b s).glob = { s.glob with gintStatus := s.glob.gintStatus ||| BitVec.ofNat 32 (2 ^ b) } := by
  unfold latchGint raiseVector emit
  dsimp only
  split_ifs <;> simp

theorem stopQp_frame (q code : Nat) (s : State) :
    stopQp q code s = { s with qps := (stopQp q code s).qps, glob := (stopQp q code s).glob, out := (stopQp q code s).out } := by
  unfold stopQp
  split <;> first | rfl | (rw [latchGint_frame]; rfl)

/-- A write to a reply queue changes the queue pairs, and stops the pair whose write fails. -/
theorem tryRq_frame (q : Nat) (e : Entry) (s : State) :
    (tryRq q e s).1 = { s with qps := (tryRq q e s).1.qps, glob := (tryRq q e s).1.glob, out := (tryRq q e s).1.out } := by
  unfold tryRq
  dsimp only
  split_ifs
  all_goals first
    | rfl
    | (rw [stopQp_frame]; done)
    | (rw [raiseVector_frame, stopQp_frame]; rfl)
    | (rw [raiseVector_frame]; rfl)
    | (rw [stopQp_frame]; rfl)

theorem replyQp_frame (q : Nat) (e : Entry) (s : State) :
    replyQp q e s = { s with qps := (replyQp q e s).qps, glob := (replyQp q e s).glob, out := (replyQp q e s).out } := by
  unfold replyQp
  dsimp only
  split_ifs
  · rfl
  · have h := tryRq_frame q e s
    split <;> rename_i heq <;> rw [heq] at h <;> dsimp only at h
    · exact h
    · rw [h]; rfl

/-! ### Replies and notices -/

theorem rememberReply_frame (id : Nat) (e : Entry) (s : State) : rememberReply id e s = { s with ctlport := (rememberReply id e s).ctlport } := rfl

theorem diverge_frame (m : Nat) (s : State) : diverge m s = { s with pair := (diverge m s).pair } := by
  unfold diverge
  split <;> rfl

theorem writeReply_frame (c : Cmd) (e : Entry) (s : State) :
    writeReply c e s =
      { s with qps := (writeReply c e s).qps, spi := (writeReply c e s).spi, glob := (writeReply c e s).glob, strm := (writeReply c e s).strm,
               out := (writeReply c e s).out, pair := (writeReply c e s).pair } := by
  unfold writeReply
  split
  · rfl
  · split
    · rw [replyQp_frame]
      split_ifs <;> rfl
    · rfl
    · rfl
    · split_ifs
      · rw [diverge_frame]; try rfl
      · rfl

/-- Only a forwarded command's reply can touch the pair. -/
theorem writeReply_pair {c : Cmd} (e : Entry) (s : State) (h : c.src ≠ .pairLink) : (writeReply c e s).pair = s.pair := by
  unfold writeReply
  split
  · rfl
  · split
    · rw [replyQp_frame]
      split_ifs <;> rfl
    · rfl
    · rfl
    · contradiction

theorem deliverReply_frame (c : Cmd) (e : Entry) (s : State) :
    deliverReply c e s =
      { s with qps := (deliverReply c e s).qps, spi := (deliverReply c e s).spi, glob := (deliverReply c e s).glob, strm := (deliverReply c e s).strm,
               out := (deliverReply c e s).out, pair := (deliverReply c e s).pair, hub := (deliverReply c e s).hub } := by
  unfold deliverReply
  split
  · rw [writeReply_frame]; try rfl
  · rfl

theorem deliverReply_pair {c : Cmd} (e : Entry) (s : State) (h : c.src ≠ .pairLink) : (deliverReply c e s).pair = s.pair := by
  unfold deliverReply
  split
  · exact writeReply_pair e s h
  · rfl

/-- A reply held back for want of a running lockstep pair is all that a delivery writes into the hub. -/
theorem deliverReply_hub (c : Cmd) (e : Entry) (s : State) : (deliverReply c e s).hub = { s.hub with replies := (deliverReply c e s).hub.replies } := by
  unfold deliverReply
  split
  · rw [writeReply_frame]; try rfl
  · rfl

/-- The completion of a command writes the reply path alone. -/
theorem complete_frame (c : Cmd) (st : Status) (pl : List Word) (i : Nat) (s : State) :
    complete c st pl i s =
      { s with cmds := s.cmds.filter (fun d => d.id != c.id), ctlport := (complete c st pl i s).ctlport, qps := (complete c st pl i s).qps,
               spi := (complete c st pl i s).spi, glob := (complete c st pl i s).glob, strm := (complete c st pl i s).strm,
               out := (complete c st pl i s).out, pair := (complete c st pl i s).pair, hub := (complete c st pl i s).hub } := by
  unfold complete
  dsimp only
  repeat' split
  all_goals first | rfl | (rw [deliverReply_frame]; try rfl)

theorem complete_pair {c : Cmd} (st : Status) (pl : List Word) (i : Nat) (s : State) (h : c.src ≠ .pairLink) :
    (complete c st pl i s).pair = recordOwn c.id st s.pair := by
  unfold complete
  dsimp only
  repeat' split
  all_goals first | rfl | (rw [deliverReply_pair _ _ h]; try rfl)

theorem complete_hub (c : Cmd) (st : Status) (pl : List Word) (i : Nat) (s : State) :
    (complete c st pl i s).hub = { s.hub with replies := (complete c st pl i s).hub.replies } := by
  unfold complete
  dsimp only
  repeat' split
  all_goals first | rfl | (rw [deliverReply_hub]; try rfl)

theorem firstReply_frame (c : Cmd) (st : Status) (i : Nat) (s : State) :
    firstReply c st i s =
      { s with cmds := (firstReply c st i s).cmds, qps := (firstReply c st i s).qps, spi := (firstReply c st i s).spi, out := (firstReply c st i s).out,
               glob := (firstReply c st i s).glob, strm := (firstReply c st i s).strm, pair := (firstReply c st i s).pair,
               hub := (firstReply c st i s).hub } := by
  unfold firstReply
  dsimp only
  split_ifs <;> first | rfl | (rw [deliverReply_frame]; try rfl)

theorem firstReply_pair {c : Cmd} (st : Status) (i : Nat) (s : State) (h : c.src ≠ .pairLink) : (firstReply c st i s).pair = recordOwn c.id st s.pair := by
  unfold firstReply
  dsimp only
  split_ifs <;> first | rfl | (rw [deliverReply_pair _ _ h]; try rfl)

theorem firstReply_cmds (c : Cmd) (st : Status) (i : Nat) (s : State) :
    (firstReply c st i s).cmds = s.cmds.filter (fun d => d.id != c.id) ++ [{ c with phase := .running, replied := true }] := by
  unfold firstReply
  dsimp only
  split_ifs <;> first | rfl | (rw [deliverReply_frame]; try rfl)

theorem putNotice_frame (d : Nat) (e : Entry) (s : State) :
    (putNotice d e s).1 = { s with qps := (putNotice d e s).1.qps, spi := (putNotice d e s).1.spi, glob := (putNotice d e s).1.glob,
                                   strm := (putNotice d e s).1.strm, out := (putNotice d e s).1.out } := by
  unfold putNotice
  split_ifs
  · rw [tryRq_frame]
  · rfl
  · split <;> rfl

theorem holdNotice_frame (d : Nat) (e : Entry) (s : State) :
    holdNotice d e s = { s with notices := (holdNotice d e s).notices, glob := (holdNotice d e s).glob, out := (holdNotice d e s).out } := by
  unfold holdNotice
  dsimp only
  split_ifs
  · rfl
  · rw [latchGint_frame]; try rfl

/-- A notice that is sent writes its destination or the buffer of its destination, and nothing else. -/
theorem sendNotice_frame (d : Nat) (e : Entry) (s : State) :
    sendNotice d e s =
      { s with qps := (sendNotice d e s).qps, spi := (sendNotice d e s).spi, glob := (sendNotice d e s).glob, strm := (sendNotice d e s).strm,
               out := (sendNotice d e s).out, notices := (sendNotice d e s).notices } := by
  unfold sendNotice
  split
  · have h := putNotice_frame d e s
    split <;> rename_i heq <;> rw [heq] at h <;> dsimp only at h
    · rw [h]
    · rw [holdNotice_frame, h]
  · rw [holdNotice_frame]

/-- A notice waits aside during an action, or is sent. -/
theorem notify_frame (code : Nat) (pl : List Word) (i : Nat) (s : State) :
    notify code pl i s =
      { s with aside := (notify code pl i s).aside, qps := (notify code pl i s).qps, spi := (notify code pl i s).spi,
               glob := (notify code pl i s).glob, strm := (notify code pl i s).strm, out := (notify code pl i s).out,
               notices := (notify code pl i s).notices } := by
  unfold notify
  dsimp only
  split
  · rfl
  · rw [sendNotice_frame]

/-- What is sent after an action writes the ways of the notices alone. -/
theorem sendAside_frame (s : State) :
    sendAside s = { s with aside := (sendAside s).aside, qps := (sendAside s).qps, spi := (sendAside s).spi, glob := (sendAside s).glob,
                           strm := (sendAside s).strm, out := (sendAside s).out, notices := (sendAside s).notices } := by
  have h : ∀ (l : List (Nat × Entry)) (a : State), ∃ q p g m o n, l.foldl (fun a x => sendNotice x.1 x.2 a) a =
      { a with qps := q, spi := p, glob := g, strm := m, out := o, notices := n } := by
    intro l
    induction l with
    | nil => exact fun a => ⟨a.qps, a.spi, a.glob, a.strm, a.out, a.notices, rfl⟩
    | cons x t ih =>
      intro a
      obtain ⟨q, p, g, m, o, n, e⟩ := ih (sendNotice x.1 x.2 a)
      exact ⟨q, p, g, m, o, n, by rw [List.foldl_cons, e, sendNotice_frame]⟩
  obtain ⟨q, p, g, m, o, n, e⟩ := h (s.aside.getD []) { s with aside := none }
  unfold sendAside
  rw [e]

/-- An action whose notices wait is the action, with its notices after it. -/
theorem repliesFirst_none {f : State → State} {s : State} (h : s.aside = none) : repliesFirst f s = sendAside (f { s with aside := some [] }) := by
  unfold repliesFirst
  rw [h]

/-- Within an action nothing is sent yet. -/
theorem repliesFirst_some {f : State → State} {s : State} {l : List (Nat × Entry)} (h : s.aside = some l) : repliesFirst f s = f s := by
  unfold repliesFirst
  rw [h]

/-- The buffers fit after a change of one of them that fits. -/
theorem noticesFit_modAt {l : List NoticeBuffer} {d : Nat} {f : NoticeBuffer → NoticeBuffer}
    (h : l.length = 18 ∧ ∀ b ∈ l, b.held.length ≤ 64) (hf : ∀ b, b = l.getD d default → b.held.length ≤ 64 → (f b).held.length ≤ 64) :
    (modAt l d f).length = 18 ∧ ∀ b ∈ modAt l d f, b.held.length ≤ 64 := by
  refine ⟨by simp [modAt, h.1], fun b hb => ?_⟩
  obtain ⟨i, hi, rfl⟩ := List.getElem_of_mem hb
  have hi' : i < l.length := by simpa [modAt] using hi
  simp only [modAt, List.getElem_modify]
  split_ifs with hd
  · subst hd
    exact hf _ (by simp [hi']) (h.2 _ (List.getElem_mem hi'))
  · exact h.2 _ (List.getElem_mem hi')

theorem noticesFit_iff (s : State) : s.noticesFit = true ↔ s.notices.length = 18 ∧ ∀ b ∈ s.notices, b.held.length ≤ 64 := by
  simp [State.noticesFit]

/-- What a held notice leaves in the buffers. -/
theorem holdNotice_notices (d : Nat) (e : Entry) (s : State) :
    (holdNotice d e s).notices =
      modAt s.notices d (if (noticeBuf s d).held.length < 64 then fun b => { b with held := b.held ++ [e] }
        else fun b => { held := b.held.tail ++ [e], lost := b.lost + 1 }) := by
  unfold holdNotice
  dsimp only
  split_ifs <;> simp

/-- A held notice leaves every buffer within its 64 entries. -/
theorem noticesFit_holdNotice (d : Nat) (e : Entry) {s : State} (h : s.noticesFit = true) : (holdNotice d e s).noticesFit = true := by
  rw [noticesFit_iff] at h ⊢
  rw [holdNotice_notices]
  refine noticesFit_modAt h fun b hb h64 => ?_
  split_ifs with hl
  · have : b = noticeBuf s d := hb
    simp [this]; omega
  · simp only [List.length_append, List.length_tail, List.length_singleton]
    omega

@[simp] theorem putNotice_notices (d : Nat) (e : Entry) (s : State) : (putNotice d e s).1.notices = s.notices := by rw [putNotice_frame]

/-- So does a notice that is sent. -/
theorem noticesFit_sendNotice (d : Nat) (e : Entry) {s : State} (h : s.noticesFit = true) : (sendNotice d e s).noticesFit = true := by
  unfold sendNotice
  split
  · have hp := putNotice_notices d e s
    split <;> rename_i a heq <;> rw [heq] at hp <;> dsimp only at hp
    · rw [noticesFit_iff, hp]; exact (noticesFit_iff s).mp h
    · exact noticesFit_holdNotice _ _ (by rw [noticesFit_iff, hp]; exact (noticesFit_iff s).mp h)
  · exact noticesFit_holdNotice _ _ h

/-- So does any notice. -/
theorem noticesFit_notify (code : Nat) (pl : List Word) (i : Nat) {s : State} (h : s.noticesFit = true) : (notify code pl i s).noticesFit = true := by
  unfold notify
  dsimp only
  split
  · exact h
  · exact noticesFit_sendNotice _ _ h

/-- So do the notices that waited for an action. -/
theorem noticesFit_sendAside {s : State} (h : s.noticesFit = true) : (sendAside s).noticesFit = true := by
  have : ∀ (l : List (Nat × Entry)) (a : State), a.noticesFit = true → (l.foldl (fun a x => sendNotice x.1 x.2 a) a).noticesFit = true := by
    intro l
    induction l with
    | nil => exact fun a ha => ha
    | cons x t ih => exact fun a ha => ih _ (noticesFit_sendNotice _ _ ha)
  exact this _ _ h

/-! ### Black box and faults -/

theorem bbFreeze_frame (ev : Nat) (s : State) : bbFreeze ev s = { s with bb := (bbFreeze ev s).bb } := by
  unfold bbFreeze
  split <;> rfl

theorem bbWrite_frame (u p ev : Nat) (data : List Word) (i : Nat) (s : State) : bbWrite u p ev data i s = { s with bb := (bbWrite u p ev data i s).bb } := by
  unfold bbWrite
  dsimp only
  split_ifs
  · rfl
  · rw [bbFreeze_frame]; try rfl
  · rfl

@[simp] theorem bbFreeze_live (ev : Nat) (s : State) : (bbFreeze ev s).bb.live = s.bb.live := by
  unfold bbFreeze
  split <;> rfl

theorem length_drop_excess {α : Type} (l : List α) (m : Nat) : (l.drop (l.length - m)).length ≤ m := by
  rw [List.length_drop]
  omega

/-- The live ring of the black box holds at most 4,096 entries, if it did. -/
theorem bbWrite_length (u p ev : Nat) (data : List Word) (i : Nat) {s : State} (h : s.bb.live.length ≤ 4096) :
    (bbWrite u p ev data i s).bb.live.length ≤ 4096 := by
  unfold bbWrite
  dsimp only
  split_ifs
  · exact h
  · rw [bbFreeze_live]
    dsimp only
    apply length_drop_excess
  · dsimp only
    apply length_drop_excess

theorem setFault_frame (b : Nat) (s : State) :
    setFault b s =
      { s with faultActive := (setFault b s).faultActive, faultCause := (setFault b s).faultCause, qps := (setFault b s).qps, spi := (setFault b s).spi,
               aside := (setFault b s).aside, strm := (setFault b s).strm, out := (setFault b s).out, notices := (setFault b s).notices,
               glob := (setFault b s).glob } := by
  unfold setFault
  dsimp only
  split_ifs
  · rfl
  · rw [notify_frame, latchGint_frame]; try rfl
  · rw [notify_frame]; try rfl

theorem endFault_frame (b : Nat) (s : State) : endFault b s = { s with faultActive := (endFault b s).faultActive } := rfl

theorem takeFree_frame (s : State) : (takeFree s).2 = { s with free := s.free + 1 } := rfl

/-! ### The pool -/

theorem poolWrite_frame (n o : Nat) (bytes : List Byte) (s : State) : poolWrite n o bytes s = { s with pool := (poolWrite n o bytes s).pool } := rfl

/-- A write to the pool changes the bytes and the poison of one partition. -/
theorem poolWrite_parts (n o : Nat) (bytes : List Byte) (s : State) :
    (poolWrite n o bytes s).pool.parts = s.pool.parts.map fun p => if p.slot == n then
      { p with data := writeCells p.data o (bytes.take (p.au * 1048576 - o)),
               poisoned := p.poisoned.filter (fun a => !(decide (o ≤ a) && decide (a + 8 ≤ o + (bytes.take (p.au * 1048576 - o)).length))) } else p := rfl

end Sys2Proof.Machine
end

