-- ==== Sys2Proof/Laws/Core.lean ====
section
/-! SUPPORT. Which operations keep to the state of their units: they leave the queue, the outstanding commands, the pair, the timebase, the mode and the
index as they are. -/

namespace Sys2Proof.Machine

def core (s : State) := (s.pending, s.cmds, s.pair, s.time, s.mode, s.shadowed, s.index, s.variant, s.compat, s.ready, s.nextId)

theorem core_mk (s : State) (out_ : _) (qps_ : _) (spi_ : _) (ctlport_ : _) (routes_ : _) (notices_ : _) (aside_ : _) (glob_ : _) (pool_ : _) (conv_ : _) (eqs_ : _) (tuners_ : _) (engines_ : _) (dens_ : _) (spgm_ : _) (trig_ : _) (cap_ : _) (intg_ : _) (th_ : _) (strm_ : _) (packers_ : _) (mq_ : _) (tdc_ : _) (mc_ : _) (maint_ : _) (disp_ : _) (hub_ : _) (dbg_ : _) (bb_ : _) (faultCause_ : _) (faultActive_ : _) (hist_ : _) (free_ : _) :
    core (State.mk s.pending out_ s.variant s.compat s.index s.ready s.mode s.shadowed s.nextId s.cmds qps_ spi_ ctlport_ routes_ notices_ aside_ glob_ pool_ s.time conv_ eqs_ tuners_ engines_ dens_ spgm_ trig_ cap_ intg_ th_ strm_ packers_ mq_ tdc_ mc_ maint_ disp_ hub_ dbg_ s.pair bb_ faultCause_ faultActive_ hist_ free_) = core s := rfl

theorem foldl_core {β : Type} (l : List β) (f : State → β → State) (s : State) (h : ∀ a i, core (f a i) = core a) : core (l.foldl f s) = core s := by
  induction l generalizing s with
  | nil => rfl
  | cons x t ih => exact (ih _).trans (h s x)

theorem foldl_core_snd {α β : Type} (l : List β) (f : α × State → β → α × State) (s : α × State) (h : ∀ a i, core (f a i).2 = core a.2) :
    core (l.foldl f s).2 = core s.2 := by
  induction l generalizing s with
  | nil => rfl
  | cons x t ih => exact (ih _).trans (h s x)

theorem emit_core (o : Output) (s : State) : core (emit o s) = core s := core_mk ..

theorem raiseVector_core (v : Nat) (s : State) : core (raiseVector v s) = core s := by
  unfold raiseVector
  try dsimp only
  repeat' first
    | with_reducible rfl
    | with_reducible refine (emit_core ..).trans ?_
    | (fail_if_no_progress with_reducible refine (core_mk ..).trans ?_)
    | with_reducible refine (foldl_core _ _ _ ?_).trans ?_
    | split

theorem latchGint_core (b : Nat) (s : State) : core (latchGint b s) = core s := by
  unfold latchGint
  try dsimp only
  repeat' first
    | with_reducible rfl
    | with_reducible refine (raiseVector_core ..).trans ?_
    | (fail_if_no_progress with_reducible refine (core_mk ..).trans ?_)
    | with_reducible refine (foldl_core _ _ _ ?_).trans ?_
    | split

theorem setStrm_core (f : StreamUnit → StreamUnit) (s : State) : core (setStrm f s) = core s := core_mk ..

theorem setPort_core (p : Nat) (f : EthPort → EthPort) (s : State) : core (setPort p f s) = core s := by
  unfold setPort
  try dsimp only
  repeat' first
    | with_reducible rfl
    | with_reducible refine (setStrm_core ..).trans ?_

theorem countRx_core (p : Nat) (f : EthPort → EthPort) (s : State) : core (countRx p f s) = core s := by
  unfold countRx
  try dsimp only
  repeat' first
    | with_reducible rfl
    | with_reducible refine (setPort_core ..).trans ?_

theorem discardRx_core (p : Nat) (s : State) : core (discardRx p s) = core s := by
  unfold discardRx
  try dsimp only
  repeat' first
    | with_reducible rfl
    | with_reducible refine (countRx_core ..).trans ?_

theorem sendDatagram_core (dest : Sender) (l : List Entry) (s : State) : core (sendDatagram dest l s) = core s := by
  unfold sendDatagram
  try dsimp only
  repeat' first
    | with_reducible rfl
    | with_reducible refine (setPort_core ..).trans ?_
    | with_reducible refine (emit_core ..).trans ?_

theorem setQp_core (q : Nat) (f : QueuePair → QueuePair) (s : State) : core (setQp q f s) = core s := core_mk ..

theorem stopQp_core (q code : Nat) (s : State) : core (stopQp q code s) = core s := by
  unfold stopQp
  try dsimp only
  repeat' first
    | with_reducible rfl
    | with_reducible refine (setQp_core ..).trans ?_
    | with_reducible refine (latchGint_core ..).trans ?_
    | (fail_if_no_progress with_reducible refine (core_mk ..).trans ?_)
    | with_reducible refine (foldl_core _ _ _ ?_).trans ?_
    | split

theorem tryRq_core (q : Nat) (e : Entry) (s : State) : core (tryRq q e s).1 = core s := by
  unfold tryRq
  try dsimp only
  repeat' first
    | with_reducible rfl
    | with_reducible refine (stopQp_core ..).trans ?_
    | with_reducible refine (setQp_core ..).trans ?_
    | with_reducible refine (raiseVector_core ..).trans ?_
    | with_reducible refine (emit_core ..).trans ?_
    | (fail_if_no_progress with_reducible refine (core_mk ..).trans ?_)
    | with_reducible refine (foldl_core _ _ _ ?_).trans ?_
    | split

theorem replyQp_core (q : Nat) (e : Entry) (s : State) : core (replyQp q e s) = core s := by
  have h := tryRq_core q e s
  unfold replyQp
  split
  · exact setQp_core ..
  · split <;> rename_i heq <;> rw [heq] at h
    · exact h
    · exact (setQp_core ..).trans h

theorem rememberReply_core (id : Nat) (e : Entry) (s : State) : core (rememberReply id e s) = core s := core_mk ..

theorem setNoticeBuf_core (d : Nat) (f : NoticeBuffer → NoticeBuffer) (s : State) : core (setNoticeBuf d f s) = core s := core_mk ..

theorem putNotice_core (d : Nat) (e : Entry) (s : State) : core (putNotice d e s).1 = core s := by
  unfold putNotice
  try dsimp only
  repeat' first
    | with_reducible rfl
    | with_reducible refine (tryRq_core ..).trans ?_
    | with_reducible refine (sendDatagram_core ..).trans ?_
    | (fail_if_no_progress with_reducible refine (core_mk ..).trans ?_)
    | with_reducible refine (foldl_core _ _ _ ?_).trans ?_
    | split

theorem holdNotice_core (d : Nat) (e : Entry) (s : State) : core (holdNotice d e s) = core s := by
  unfold holdNotice
  try dsimp only
  repeat' first
    | with_reducible rfl
    | with_reducible refine (setNoticeBuf_core ..).trans ?_
    | with_reducible refine (latchGint_core ..).trans ?_
    | (fail_if_no_progress with_reducible refine (core_mk ..).trans ?_)
    | with_reducible refine (foldl_core _ _ _ ?_).trans ?_
    | split

theorem sendNotice_core (d : Nat) (e : Entry) (s : State) : core (sendNotice d e s) = core s := by
  have h := putNotice_core d e s
  unfold sendNotice
  split
  · split <;> rename_i heq <;> rw [heq] at h
    · exact h
    · exact (holdNotice_core ..).trans h
  · exact holdNotice_core ..

theorem notify_core (code : Nat) (payload : List Word) (idx : Nat) (s : State) : core (notify code payload idx s) = core s := by
  unfold notify
  try dsimp only
  repeat' first
    | with_reducible rfl
    | with_reducible refine (sendNotice_core ..).trans ?_
    | (fail_if_no_progress with_reducible refine (core_mk ..).trans ?_)
    | with_reducible refine (foldl_core _ _ _ ?_).trans ?_
    | split

theorem sendAside_core (s : State) : core (sendAside s) = core s := by
  unfold sendAside
  try dsimp only
  repeat' first
    | with_reducible rfl
    | (intro _ _; try dsimp only)
    | with_reducible refine (sendNotice_core ..).trans ?_
    | (fail_if_no_progress with_reducible refine (core_mk ..).trans ?_)
    | with_reducible refine (foldl_core _ _ _ ?_).trans ?_

theorem repliesFirst_core {f : State → State} (s : State) (h : ∀ a, core (f a) = core a) : core (repliesFirst f s) = core s := by
  unfold repliesFirst
  split
  · exact h s
  · exact (sendAside_core _).trans (h _)

theorem setPart_core (slot : Nat) (f : Partition → Partition) (s : State) : core (setPart slot f s) = core s := core_mk ..

theorem poolWrite_core (slot o : Nat) (bytes : List Byte) (s : State) : core (poolWrite slot o bytes s) = core s := by
  unfold poolWrite
  try dsimp only
  repeat' first
    | with_reducible rfl
    | with_reducible refine (setPart_core ..).trans ?_

theorem keepNotes_core (s : State) : core (keepNotes s) = core s := by
  unfold keepNotes
  try dsimp only
  repeat' first
    | with_reducible rfl
    | (fail_if_no_progress with_reducible refine (core_mk ..).trans ?_)
    | with_reducible refine (foldl_core _ _ _ ?_).trans ?_
    | split

theorem bbFreeze_core (event : Nat) (s : State) : core (bbFreeze event s) = core s := by
  unfold bbFreeze
  try dsimp only
  repeat' first
    | with_reducible rfl
    | (fail_if_no_progress with_reducible refine (core_mk ..).trans ?_)
    | with_reducible refine (foldl_core _ _ _ ?_).trans ?_
    | split

theorem bbWrite_core (unit place event : Nat) (data : List Word) (idx : Nat) (s : State) : core (bbWrite unit place event data idx s) = core s := by
  unfold bbWrite
  try dsimp only
  repeat' first
    | with_reducible rfl
    | with_reducible refine (bbFreeze_core ..).trans ?_
    | (fail_if_no_progress with_reducible refine (core_mk ..).trans ?_)
    | with_reducible refine (foldl_core _ _ _ ?_).trans ?_
    | split

theorem setFault_core (b : Nat) (s : State) : core (setFault b s) = core s := by
  unfold setFault
  try dsimp only
  repeat' first
    | with_reducible rfl
    | with_reducible refine (notify_core ..).trans ?_
    | with_reducible refine (latchGint_core ..).trans ?_
    | (fail_if_no_progress with_reducible refine (core_mk ..).trans ?_)
    | with_reducible refine (foldl_core _ _ _ ?_).trans ?_
    | split

theorem endFault_core (b : Nat) (s : State) : core (endFault b s) = core s := core_mk ..

theorem detectUe_core (slot offset : Nat) (s : State) : core (detectUe slot offset s) = core s := by
  unfold detectUe
  try dsimp only
  repeat' first
    | with_reducible rfl
    | with_reducible refine (bbWrite_core ..).trans ?_
    | with_reducible refine (setPart_core ..).trans ?_
    | with_reducible refine (notify_core ..).trans ?_
    | (fail_if_no_progress with_reducible refine (core_mk ..).trans ?_)
    | with_reducible refine (foldl_core _ _ _ ?_).trans ?_
    | split

theorem countCe_core (slot n : Nat) (s : State) : core (countCe slot n s) = core s := by
  unfold countCe
  try dsimp only
  repeat' first
    | with_reducible rfl
    | with_reducible refine (setPart_core ..).trans ?_
    | (fail_if_no_progress with_reducible refine (core_mk ..).trans ?_)
    | with_reducible refine (foldl_core _ _ _ ?_).trans ?_
    | split

theorem countStore_core (store ce ue passes : Nat) (s : State) : core (countStore store ce ue passes s) = core s := core_mk ..

theorem bringErrors_core (l : List MemError) (s : State) : core (bringErrors l s) = core s := by
  unfold bringErrors
  try dsimp only
  repeat' first
    | with_reducible rfl
    | (intro _ _; try dsimp only)
    | with_reducible refine (countStore_core ..).trans ?_
    | with_reducible refine (countCe_core ..).trans ?_
    | with_reducible refine (detectUe_core ..).trans ?_
    | (fail_if_no_progress with_reducible refine (core_mk ..).trans ?_)
    | with_reducible refine (foldl_core _ _ _ ?_).trans ?_
    | split

theorem takeFree_core (s : State) : core (takeFree s).2 = core s := core_mk ..

theorem refuseEffects_core (c : Cmd) (st : Status) (s : State) : core (refuseEffects c st s) = core s := by
  unfold refuseEffects
  try dsimp only
  repeat' first
    | with_reducible rfl
    | with_reducible refine (bbWrite_core ..).trans ?_
    | with_reducible refine (latchGint_core ..).trans ?_
    | (fail_if_no_progress with_reducible refine (core_mk ..).trans ?_)
    | with_reducible refine (foldl_core _ _ _ ?_).trans ?_
    | split

theorem hostResult_core (id address : Nat) (bytes : List Byte) (s : State) : core (hostResult id address bytes s).1 = core s := by
  unfold hostResult
  try dsimp only
  repeat' first
    | with_reducible rfl
    | with_reducible refine (refuseEffects_core ..).trans ?_
    | with_reducible refine (emit_core ..).trans ?_
    | (fail_if_no_progress with_reducible refine (core_mk ..).trans ?_)
    | with_reducible refine (foldl_core _ _ _ ?_).trans ?_
    | split

theorem bringVolts_core (l : List Volts) (s : State) : core (bringVolts l s) = core s := by
  unfold bringVolts
  try dsimp only
  repeat' first
    | with_reducible rfl
    | (fail_if_no_progress with_reducible refine (core_mk ..).trans ?_)
    | with_reducible refine (foldl_core _ _ _ ?_).trans ?_
    | split

theorem setChannel_core (c : Nat) (f : Channel → Channel) (s : State) : core (setChannel c f s) = core s := core_mk ..

theorem settleConv_core (stop next : Nat) (s : State) : core (settleConv stop next s) = core s := core_mk ..

theorem ovrNotice_core (c j : Nat) (s : State) : core (ovrNotice c j s) = core s := by
  unfold ovrNotice
  try dsimp only
  repeat' first
    | with_reducible rfl
    | with_reducible refine (setChannel_core ..).trans ?_
    | with_reducible refine (notify_core ..).trans ?_
    | (fail_if_no_progress with_reducible refine (core_mk ..).trans ?_)
    | with_reducible refine (foldl_core _ _ _ ?_).trans ?_
    | split

theorem sliceFailed_core (e c slice : Nat) (s : State) : core (sliceFailed e c slice s) = core s := by
  unfold sliceFailed
  try dsimp only
  repeat' first
    | with_reducible rfl
    | with_reducible refine (setChannel_core ..).trans ?_
    | with_reducible refine (setFault_core ..).trans ?_
    | with_reducible refine (bbWrite_core ..).trans ?_
    | with_reducible refine (notify_core ..).trans ?_
    | (fail_if_no_progress with_reducible refine (core_mk ..).trans ?_)
    | with_reducible refine (foldl_core _ _ _ ?_).trans ?_
    | split

theorem testChannel_core (e : Nat) (x : SliceSums) (s : State) : core (testChannel e x s) = core s := by
  unfold testChannel
  try dsimp only
  repeat' first
    | with_reducible rfl
    | (intro _ _; try dsimp only)
    | with_reducible refine (sliceFailed_core ..).trans ?_
    | (fail_if_no_progress with_reducible refine (core_mk ..).trans ?_)
    | with_reducible refine (foldl_core _ _ _ ?_).trans ?_

theorem evSliceMonitorWindow_core (sums : List SliceSums) (s : State) : core (evSliceMonitorWindow sums s) = core s := by
  unfold evSliceMonitorWindow
  try dsimp only
  repeat' first
    | with_reducible rfl
    | (intro _ _; try dsimp only)
    | with_reducible refine (testChannel_core ..).trans ?_
    | (fail_if_no_progress with_reducible refine (core_mk ..).trans ?_)
    | with_reducible refine (foldl_core _ _ _ ?_).trans ?_
    | split

theorem setTuner_core (t : Nat) (f : Tuner → Tuner) (s : State) : core (setTuner t f s) = core s := core_mk ..

theorem setCtx_core (n : Nat) (f : StreamCtx → StreamCtx) (s : State) : core (setCtx n f s) = core s := core_mk ..

theorem offerItem_core (pkind unit seq index : Nat) (source : ItemSource) (s : State) : core (offerItem pkind unit seq index source s) = core s := by
  unfold offerItem
  try dsimp only
  repeat' first
    | with_reducible rfl
    | (fail_if_no_progress with_reducible refine (core_mk ..).trans ?_)
    | with_reducible refine (foldl_core _ _ _ ?_).trans ?_
    | split

theorem sendCheckpoint_core (n cell : Nat) (ends : Bool) (s : State) : core (sendCheckpoint n cell ends s) = core s := by
  unfold sendCheckpoint
  try dsimp only
  repeat' first
    | with_reducible rfl
    | with_reducible refine (emit_core ..).trans ?_
    | (fail_if_no_progress with_reducible refine (core_mk ..).trans ?_)
    | with_reducible refine (foldl_core _ _ _ ?_).trans ?_
    | split

theorem endCtxRun_core (limit n : Nat) (s : State) : core (endCtxRun limit n s) = core s := by
  unfold endCtxRun
  try dsimp only
  repeat' first
    | with_reducible rfl
    | with_reducible refine (sendCheckpoint_core ..).trans ?_
    | with_reducible refine (setCtx_core ..).trans ?_
    | (fail_if_no_progress with_reducible refine (core_mk ..).trans ?_)
    | with_reducible refine (foldl_core _ _ _ ?_).trans ?_
    | split

theorem endStreams_core (kind unit limit : Nat) (s : State) : core (endStreams kind unit limit s) = core s := by
  unfold endStreams
  try dsimp only
  repeat' first
    | with_reducible rfl
    | (intro _ _; try dsimp only)
    | with_reducible refine (endCtxRun_core ..).trans ?_
    | (fail_if_no_progress with_reducible refine (core_mk ..).trans ?_)
    | with_reducible refine (foldl_core _ _ _ ?_).trans ?_
    | split

theorem startCtxRun_core (e n : Nat) (s : State) : core (startCtxRun e n s) = core s := by
  unfold startCtxRun
  try dsimp only
  repeat' first
    | with_reducible rfl
    | with_reducible refine (sendCheckpoint_core ..).trans ?_
    | with_reducible refine (setCtx_core ..).trans ?_
    | (fail_if_no_progress with_reducible refine (core_mk ..).trans ?_)
    | with_reducible refine (foldl_core _ _ _ ?_).trans ?_
    | split

theorem startStreams_core (kind unit e : Nat) (s : State) : core (startStreams kind unit e s) = core s := by
  unfold startStreams
  try dsimp only
  repeat' first
    | with_reducible rfl
    | (intro _ _; try dsimp only)
    | with_reducible refine (startCtxRun_core ..).trans ?_
    | (fail_if_no_progress with_reducible refine (core_mk ..).trans ?_)
    | with_reducible refine (foldl_core _ _ _ ?_).trans ?_
    | split

theorem setEngine_core (e : Nat) (f : Engine → Engine) (s : State) : core (setEngine e f s) = core s := core_mk ..

theorem pushRecord_core (e : Nat) (r : RingRecord) (s : State) : core (pushRecord e r s) = core s := core_mk ..

theorem emitProduct_core (e : Nat) (s : State) : core (emitProduct e s) = core s := by
  unfold emitProduct
  try dsimp only
  repeat' first
    | with_reducible rfl
    | with_reducible refine (pushRecord_core ..).trans ?_
    | with_reducible refine (setEngine_core ..).trans ?_
    | with_reducible refine (offerItem_core ..).trans ?_
    | with_reducible refine (emit_core ..).trans ?_
    | (fail_if_no_progress with_reducible refine (core_mk ..).trans ?_)
    | with_reducible refine (foldl_core _ _ _ ?_).trans ?_
    | split

theorem writeAt_core (h : Word) (o : Nat) (bytes : List Byte) (s : State) : core (writeAt h o bytes s) = core s := by
  unfold writeAt
  try dsimp only
  repeat' first
    | with_reducible rfl
    | with_reducible refine (poolWrite_core ..).trans ?_
    | (fail_if_no_progress with_reducible refine (core_mk ..).trans ?_)
    | with_reducible refine (foldl_core _ _ _ ?_).trans ?_
    | split

theorem setDens_core (c : Nat) (f : Density → Density) (s : State) : core (setDens c f s) = core s := core_mk ..

theorem closeDensity_core (c stop : Nat) (gap early lost busy : Bool) (next : Option Nat) (s0 : State) : core (closeDensity c stop gap early lost busy next s0) = core s0 := by
  unfold closeDensity
  try dsimp only
  repeat' first
    | with_reducible rfl
    | with_reducible refine (setDens_core ..).trans ?_
    | with_reducible refine (writeAt_core ..).trans ?_
    | with_reducible refine (offerItem_core ..).trans ?_
    | (fail_if_no_progress with_reducible refine (core_mk ..).trans ?_)
    | with_reducible refine (foldl_core _ _ _ ?_).trans ?_
    | split

theorem closeDueDensity_core (u i : Nat) (lost busy : Bool) : ∀ (m : Nat) (s : State), core (closeDueDensity u i lost busy m s) = core s := by
  intro m
  induction m generalizing lost busy with
  | zero => intro s; rfl
  | succ m ih =>
   intro s
   unfold closeDueDensity
   try dsimp only
   repeat' first
     | with_reducible rfl
     | exact ih _ _ _
     | with_reducible refine (ih _ _ _).trans ?_
     | with_reducible refine (closeDensity_core ..).trans ?_
     | (fail_if_no_progress with_reducible refine (core_mk ..).trans ?_)
     | with_reducible refine (foldl_core _ _ _ ?_).trans ?_
     | split

theorem densUpTo_core (u i : Nat) (s : State) : core (densUpTo u i s) = core s := by
  unfold densUpTo
  try dsimp only
  repeat' first
    | with_reducible rfl
    | with_reducible refine (closeDueDensity_core ..).trans ?_

theorem endDensity_core (c i : Nat) (gap : Bool) (s0 : State) : core (endDensity c i gap s0) = core s0 := by
  unfold endDensity
  try dsimp only
  repeat' first
    | with_reducible rfl
    | with_reducible refine (densUpTo_core ..).trans ?_
    | with_reducible refine (closeDensity_core ..).trans ?_
    | with_reducible refine (setDens_core ..).trans ?_
    | (fail_if_no_progress with_reducible refine (core_mk ..).trans ?_)
    | with_reducible refine (foldl_core _ _ _ ?_).trans ?_
    | split

theorem anchorDensity_core (c e : Nat) (s : State) : core (anchorDensity c e s) = core s := by
  unfold anchorDensity
  try dsimp only
  repeat' first
    | with_reducible rfl
    | with_reducible refine (setDens_core ..).trans ?_

theorem setSpgm_core (i : Nat) (f : Spgm → Spgm) (s : State) : core (setSpgm i f s) = core s := core_mk ..

theorem emitLine_core (i : Nat) (lost : Bool) (s : State) : core (emitLine i lost s) = core s := by
  unfold emitLine
  try dsimp only
  repeat' first
    | with_reducible rfl
    | with_reducible refine (setSpgm_core ..).trans ?_
    | with_reducible refine (writeAt_core ..).trans ?_
    | with_reducible refine (offerItem_core ..).trans ?_
    | (fail_if_no_progress with_reducible refine (core_mk ..).trans ?_)
    | with_reducible refine (foldl_core _ _ _ ?_).trans ?_
    | split

theorem checkLineRates_core (e : Nat) (s : State) : core (checkLineRates e s) = core s := by
  unfold checkLineRates
  try dsimp only
  repeat' first
    | with_reducible rfl
    | (fail_if_no_progress with_reducible refine (core_mk ..).trans ?_)
    | with_reducible refine (foldl_core _ _ _ ?_).trans ?_
    | split

theorem setSheaf_core (n : Nat) (f : Sheaf → Sheaf) (s : State) : core (setSheaf n f s) = core s := core_mk ..

theorem setRing_core (kind unit : Nat) (f : CapRing → CapRing) (s : State) : core (setRing kind unit f s) = core s := core_mk ..

theorem closeSegmentOn_core (records : List RingRecord) (n reason limit : Nat) (s : State) : core (closeSegmentOn records n reason limit s) = core s := by
  unfold closeSegmentOn
  try dsimp only
  repeat' first
    | with_reducible rfl
    | with_reducible refine (setSheaf_core ..).trans ?_
    | (fail_if_no_progress with_reducible refine (core_mk ..).trans ?_)
    | with_reducible refine (foldl_core _ _ _ ?_).trans ?_
    | split

theorem closeSegment_core (n reason limit : Nat) (s : State) : core (closeSegment n reason limit s) = core s := by
  unfold closeSegment
  try dsimp only
  repeat' first
    | with_reducible rfl
    | with_reducible refine (closeSegmentOn_core ..).trans ?_

theorem endRun_core (kind unit reason limit : Nat) (s : State) : core (endRun kind unit reason limit s) = core s := by
  unfold endRun
  try dsimp only
  repeat' first
    | with_reducible rfl
    | (intro _ _; try dsimp only)
    | with_reducible refine (closeSegment_core ..).trans ?_
    | with_reducible refine (setRing_core ..).trans ?_
    | (fail_if_no_progress with_reducible refine (core_mk ..).trans ?_)
    | with_reducible refine (foldl_core _ _ _ ?_).trans ?_
    | split

theorem startRun_core (kind unit e : Nat) (s : State) : core (startRun kind unit e s) = core s := by
  unfold startRun
  try dsimp only
  repeat' first
    | with_reducible rfl
    | with_reducible refine (setRing_core ..).trans ?_

theorem resizeRing_core (e : Nat) (s : State) : core (resizeRing e s) = core s := by
  unfold resizeRing
  try dsimp only
  repeat' first
    | with_reducible rfl
    | with_reducible refine (setRing_core ..).trans ?_
    | (fail_if_no_progress with_reducible refine (core_mk ..).trans ?_)
    | with_reducible refine (foldl_core _ _ _ ?_).trans ?_
    | split

theorem setSlot_core (c : Nat) (f : TrigSlot → TrigSlot) (s : State) : core (setSlot c f s) = core s := core_mk ..

theorem pushEvent_core (x : TrigEvent) (s : State) : core (pushEvent x s) = core s := by
  unfold pushEvent
  try dsimp only
  repeat' first
    | with_reducible rfl
    | (fail_if_no_progress with_reducible refine (core_mk ..).trans ?_)
    | with_reducible refine (foldl_core _ _ _ ?_).trans ?_
    | split

theorem endEngineEvents_core (g e : Nat) (s : State) : core (endEngineEvents g e s) = core s := by
  unfold endEngineEvents
  try dsimp only
  repeat' first
    | with_reducible rfl
    | with_reducible refine (pushEvent_core ..).trans ?_
    | (fail_if_no_progress with_reducible refine (core_mk ..).trans ?_)
    | with_reducible refine (foldl_core _ _ _ ?_).trans ?_
    | split

theorem setTh_core (c : Nat) (f : Thresher → Thresher) (s : State) : core (setTh c f s) = core s := core_mk ..

theorem restartTh_core (c : Nat) (s : State) : core (restartTh c s) = core s := by
  unfold restartTh
  try dsimp only
  repeat' first
    | with_reducible rfl
    | with_reducible refine (setTh_core ..).trans ?_

theorem restartThOn_core (g : Nat) (s : State) : core (restartThOn g s) = core s := by
  unfold restartThOn
  try dsimp only
  repeat' first
    | with_reducible rfl
    | with_reducible refine (restartTh_core ..).trans ?_
    | (fail_if_no_progress with_reducible refine (core_mk ..).trans ?_)
    | with_reducible refine (foldl_core _ _ _ ?_).trans ?_
    | split

theorem setInt_core (f : IntUnit → IntUnit) (s : State) : core (setInt f s) = core s := core_mk ..

theorem openIntFrame_core (x : Nat) (s : State) : core (openIntFrame x s) = core s := by
  unfold openIntFrame
  try dsimp only
  repeat' first
    | with_reducible rfl
    | with_reducible refine (setInt_core ..).trans ?_

theorem closeIntFrame_core (close last : Nat) (s : State) : core (closeIntFrame close last s) = core s := by
  unfold closeIntFrame
  try dsimp only
  repeat' first
    | with_reducible rfl
    | with_reducible refine (setInt_core ..).trans ?_
    | with_reducible refine (offerItem_core ..).trans ?_
    | with_reducible refine (notify_core ..).trans ?_
    | (fail_if_no_progress with_reducible refine (core_mk ..).trans ?_)
    | with_reducible refine (foldl_core _ _ _ ?_).trans ?_
    | split

theorem stopInt_core (close i : Nat) (s : State) : core (stopInt close i s) = core s := by
  unfold stopInt
  try dsimp only
  repeat' first
    | with_reducible rfl
    | with_reducible refine (closeIntFrame_core ..).trans ?_
    | with_reducible refine (setInt_core ..).trans ?_

theorem endBefore_core (k n : Nat) (s : State) : core (endBefore k n s) = core s := by
  unfold endBefore
  try dsimp only
  repeat' first
    | with_reducible rfl
    | with_reducible refine (closeSegment_core ..).trans ?_
    | (fail_if_no_progress with_reducible refine (core_mk ..).trans ?_)
    | with_reducible refine (foldl_core _ _ _ ?_).trans ?_
    | split

theorem sheafTrigger_core (k trigSeq n : Nat) (s0 : State) : core (sheafTrigger k trigSeq n s0) = core s0 := by
  unfold sheafTrigger
  try dsimp only
  repeat' first
    | with_reducible rfl
    | with_reducible refine (endBefore_core ..).trans ?_
    | with_reducible refine (closeSegmentOn_core ..).trans ?_
    | with_reducible refine (setSheaf_core ..).trans ?_
    | with_reducible refine (writeAt_core ..).trans ?_
    | (fail_if_no_progress with_reducible refine (core_mk ..).trans ?_)
    | with_reducible refine (foldl_core _ _ _ ?_).trans ?_
    | split

theorem armSheaf_core (e : Nat) (arm finish : Bool) (n : Nat) (s : State) : core (armSheaf e arm finish n s) = core s := by
  unfold armSheaf
  try dsimp only
  repeat' first
    | with_reducible rfl
    | with_reducible refine (closeSegment_core ..).trans ?_
    | with_reducible refine (setSheaf_core ..).trans ?_
    | (fail_if_no_progress with_reducible refine (core_mk ..).trans ?_)
    | with_reducible refine (foldl_core _ _ _ ?_).trans ?_
    | split

theorem winnerAction_core (k w fmask : Nat) (vs : List Verdict) (s : State) : core (winnerAction k w fmask vs s) = core s := by
  unfold winnerAction
  try dsimp only
  repeat' first
    | with_reducible rfl
    | (intro _ _; try dsimp only)
    | with_reducible refine (sheafTrigger_core ..).trans ?_
    | with_reducible refine (notify_core ..).trans ?_
    | (fail_if_no_progress with_reducible refine (core_mk ..).trans ?_)
    | with_reducible refine (foldl_core _ _ _ ?_).trans ?_
    | split

theorem restartSlots_core (e : Nat) (keep : Bool) (s : State) : core (restartSlots e keep s) = core s := core_mk ..

theorem stopSlots_core (e : Nat) (cancel : Bool) (s : State) : core (stopSlots e cancel s) = core s := core_mk ..

theorem stepSlots_core (s : State) : core (stepSlots s) = core s := core_mk ..

theorem applyChange_core (e : Nat) (x : TrigChange) (s : State) : core (applyChange e x s) = core s := by
  unfold applyChange
  try dsimp only
  repeat' first
    | with_reducible rfl
    | (intro _ _; try dsimp only)
    | with_reducible refine (armSheaf_core ..).trans ?_
    | with_reducible refine (setSlot_core ..).trans ?_
    | (fail_if_no_progress with_reducible refine (core_mk ..).trans ?_)
    | with_reducible refine (foldl_core _ _ _ ?_).trans ?_
    | split

theorem afterChanges_core (s : State) : core (afterChanges s) = core s := by
  unfold afterChanges
  try dsimp only
  repeat' first
    | with_reducible rfl
    | (intro _ _; try dsimp only)
    | with_reducible refine (applyChange_core ..).trans ?_
    | (fail_if_no_progress with_reducible refine (core_mk ..).trans ?_)
    | with_reducible refine (foldl_core _ _ _ ?_).trans ?_

theorem dropEvents_core (s : State) : core (dropEvents s) = core s := core_mk ..

theorem endThReports_core (ch e : Nat) (s : State) : core (endThReports ch e s) = core s := by
  unfold endThReports
  try dsimp only
  repeat' first
    | with_reducible rfl
    | with_reducible refine (pushEvent_core ..).trans ?_

theorem runThAct_core (ch e : Nat) (x : ThAct) (s : State) : core (runThAct ch e x s) = core s := by
  unfold runThAct
  try dsimp only
  repeat' first
    | with_reducible rfl
    | with_reducible refine (endThReports_core ..).trans ?_
    | with_reducible refine (restartTh_core ..).trans ?_
    | with_reducible refine (setTh_core ..).trans ?_
    | (fail_if_no_progress with_reducible refine (core_mk ..).trans ?_)
    | with_reducible refine (foldl_core _ _ _ ?_).trans ?_
    | split

theorem thCatch_core (all : Bool) (ch : Nat) : ∀ (m : Nat) (s : State), core (thCatch all ch m s) = core s := by
  intro m
  induction m with
  | zero => intro s; rfl
  | succ m ih =>
   intro s
   unfold thCatch
   try dsimp only
   repeat' first
     | with_reducible rfl
     | exact ih _
     | with_reducible refine (ih _).trans ?_
     | with_reducible refine (runThAct_core ..).trans ?_
     | with_reducible refine (setTh_core ..).trans ?_
     | (fail_if_no_progress with_reducible refine (core_mk ..).trans ?_)
     | with_reducible refine (foldl_core _ _ _ ?_).trans ?_
     | split

theorem thCatchAll_core (all : Bool) (s : State) : core (thCatchAll all s) = core s := by
  unfold thCatchAll
  try dsimp only
  repeat' first
    | with_reducible rfl
    | (intro _ _; try dsimp only)
    | with_reducible refine (thCatch_core ..).trans ?_
    | (fail_if_no_progress with_reducible refine (core_mk ..).trans ?_)
    | with_reducible refine (foldl_core _ _ _ ?_).trans ?_

theorem thAct_core (ch e : Nat) (x : ThAct) (s : State) : core (thAct ch e x s) = core s := by
  unfold thAct
  try dsimp only
  repeat' first
    | with_reducible rfl
    | with_reducible refine (thCatch_core ..).trans ?_
    | with_reducible refine (setTh_core ..).trans ?_

theorem thTake_core (c : Nat) (invalid dropped : Bool) (binStart : Nat) (powers : List Dyad) (s : State) : core (thTake c invalid dropped binStart powers s).1 = core s := by
  unfold thTake
  try dsimp only
  repeat' first
    | with_reducible rfl
    | with_reducible refine (setTh_core ..).trans ?_
    | with_reducible refine (writeAt_core ..).trans ?_
    | (fail_if_no_progress with_reducible refine (core_mk ..).trans ?_)
    | with_reducible refine (foldl_core _ _ _ ?_).trans ?_
    | split

theorem accumulateBin_core (ms : List IntMember) (p j arr cnt : Nat) (first : Bool) (s : State) : core (accumulateBin ms p j arr cnt first s) = core s := by
  unfold accumulateBin
  try dsimp only
  repeat' first
    | with_reducible rfl
    | with_reducible refine (setInt_core ..).trans ?_
    | with_reducible refine (writeAt_core ..).trans ?_
    | (fail_if_no_progress with_reducible refine (core_mk ..).trans ?_)
    | with_reducible refine (foldl_core _ _ _ ?_).trans ?_
    | split

theorem accumulateSet_core (ms : List IntMember) (s : State) : core (accumulateSet ms s) = core s := by
  unfold accumulateSet
  try dsimp only
  repeat' first
    | with_reducible rfl
    | (intro _ _; try dsimp only)
    | with_reducible refine (accumulateBin_core ..).trans ?_
    | with_reducible refine (setInt_core ..).trans ?_
    | (fail_if_no_progress with_reducible refine (core_mk ..).trans ?_)
    | with_reducible refine (foldl_core _ _ _ ?_).trans ?_

theorem closeDueInt_core (key32 : Nat) : ∀ (m : Nat) (s : State), core (closeDueInt key32 m s) = core s := by
  intro m
  induction m with
  | zero => intro s; rfl
  | succ m ih =>
   intro s
   unfold closeDueInt
   try dsimp only
   repeat' first
     | with_reducible rfl
     | exact ih _
     | with_reducible refine (ih _).trans ?_
     | with_reducible refine (closeIntFrame_core ..).trans ?_
     | with_reducible refine (openIntFrame_core ..).trans ?_
     | (fail_if_no_progress with_reducible refine (core_mk ..).trans ?_)
     | with_reducible refine (foldl_core _ _ _ ?_).trans ?_
     | split

theorem intUpTo_core (key32 : Nat) (s : State) : core (intUpTo key32 s) = core s := by
  unfold intUpTo
  try dsimp only
  repeat' first
    | with_reducible rfl
    | with_reducible refine (closeDueInt_core ..).trans ?_

theorem mapIntFrame_core (f : IntFrame → IntFrame) (s : State) : core (mapIntFrame f s) = core s := by
  unfold mapIntFrame
  try dsimp only
  repeat' first
    | with_reducible rfl
    | with_reducible refine (setInt_core ..).trans ?_

theorem accountSet_core (ms : List IntMember) (lost : Bool) (s : State) : core (accountSet ms lost s) = core s := by
  unfold accountSet
  try dsimp only
  repeat' first
    | with_reducible rfl
    | with_reducible refine (mapIntFrame_core ..).trans ?_
    | with_reducible refine (accumulateSet_core ..).trans ?_
    | with_reducible refine (setInt_core ..).trans ?_
    | (fail_if_no_progress with_reducible refine (core_mk ..).trans ?_)
    | with_reducible refine (foldl_core _ _ _ ?_).trans ?_
    | split

theorem takeSet_core (ms : List IntMember) (lost dropped : Bool) (s0 : State) : core (takeSet ms lost dropped s0) = core s0 := by
  unfold takeSet
  try dsimp only
  repeat' first
    | with_reducible rfl
    | with_reducible refine (accountSet_core ..).trans ?_
    | with_reducible refine (intUpTo_core ..).trans ?_
    | with_reducible refine (setInt_core ..).trans ?_
    | (fail_if_no_progress with_reducible refine (core_mk ..).trans ?_)
    | with_reducible refine (foldl_core _ _ _ ?_).trans ?_
    | split

theorem evIntSetAccumulate_core (number : Nat) (drop : Bool) (errors : List MemError) (s0 : State) : core (evIntSetAccumulate number drop errors s0) = core s0 := by
  unfold evIntSetAccumulate
  try dsimp only
  repeat' first
    | with_reducible rfl
    | with_reducible refine (takeSet_core ..).trans ?_
    | with_reducible refine (bringErrors_core ..).trans ?_
    | (fail_if_no_progress with_reducible refine (core_mk ..).trans ?_)
    | with_reducible refine (foldl_core _ _ _ ?_).trans ?_
    | split

theorem intDrain_core (i : Nat) : ∀ (m : Nat) (s : State), core (intDrain i m s) = core s := by
  intro m
  induction m with
  | zero => intro s; rfl
  | succ m ih =>
   intro s
   unfold intDrain
   try dsimp only
   repeat' first
     | with_reducible rfl
     | exact ih _
     | with_reducible refine (ih _).trans ?_
     | with_reducible refine (takeSet_core ..).trans ?_
     | (fail_if_no_progress with_reducible refine (core_mk ..).trans ?_)
     | with_reducible refine (foldl_core _ _ _ ?_).trans ?_
     | split

theorem intBefore_core (i : Nat) (s : State) : core (intBefore i s) = core s := by
  unfold intBefore
  try dsimp only
  repeat' first
    | with_reducible rfl
    | with_reducible refine (intDrain_core ..).trans ?_
    | with_reducible refine (intUpTo_core ..).trans ?_

theorem startInt_core (e : Nat) (s : State) : core (startInt e s) = core s := by
  unfold startInt
  try dsimp only
  repeat' first
    | with_reducible rfl
    | with_reducible refine (openIntFrame_core ..).trans ?_
    | with_reducible refine (setInt_core ..).trans ?_
    | (fail_if_no_progress with_reducible refine (core_mk ..).trans ?_)
    | with_reducible refine (foldl_core _ _ _ ?_).trans ?_
    | split

theorem runIntAct_core (e : Nat) (x : IntAct) (s0 : State) : core (runIntAct e x s0) = core s0 := by
  unfold runIntAct
  try dsimp only
  repeat' first
    | with_reducible rfl
    | with_reducible refine (startInt_core ..).trans ?_
    | with_reducible refine (intBefore_core ..).trans ?_
    | with_reducible refine (mapIntFrame_core ..).trans ?_
    | with_reducible refine (intUpTo_core ..).trans ?_
    | with_reducible refine (stopInt_core ..).trans ?_
    | with_reducible refine (setInt_core ..).trans ?_
    | (fail_if_no_progress with_reducible refine (core_mk ..).trans ?_)
    | with_reducible refine (foldl_core _ _ _ ?_).trans ?_
    | split

theorem intCatch_core (all : Bool) : ∀ (m : Nat) (s : State), core (intCatch all m s) = core s := by
  intro m
  induction m with
  | zero => intro s; rfl
  | succ m ih =>
   intro s
   unfold intCatch
   try dsimp only
   repeat' first
     | with_reducible rfl
     | exact ih _
     | with_reducible refine (ih _).trans ?_
     | with_reducible refine (runIntAct_core ..).trans ?_
     | with_reducible refine (setInt_core ..).trans ?_
     | (fail_if_no_progress with_reducible refine (core_mk ..).trans ?_)
     | with_reducible refine (foldl_core _ _ _ ?_).trans ?_
     | split

theorem intCatchAll_core (all : Bool) (s : State) : core (intCatchAll all s) = core s := by
  unfold intCatchAll
  try dsimp only
  repeat' first
    | with_reducible rfl
    | with_reducible refine (intCatch_core ..).trans ?_

theorem intAct_core (e : Nat) (x : IntAct) (s : State) : core (intAct e x s) = core s := by
  unfold intAct
  try dsimp only
  repeat' first
    | with_reducible rfl
    | with_reducible refine (intCatchAll_core ..).trans ?_
    | with_reducible refine (setInt_core ..).trans ?_

theorem checkIntSource_core (e i : Nat) (stopped : Bool) (s : State) : core (checkIntSource e i stopped s) = core s := by
  unfold checkIntSource
  try dsimp only
  repeat' first
    | with_reducible rfl
    | with_reducible refine (intAct_core ..).trans ?_
    | (fail_if_no_progress with_reducible refine (core_mk ..).trans ?_)
    | with_reducible refine (foldl_core _ _ _ ?_).trans ?_
    | split

theorem evIntFrameClose_core (k : Nat) (s : State) : core (evIntFrameClose k s) = core s := by
  unfold evIntFrameClose
  try dsimp only
  repeat' first
    | with_reducible rfl
    | with_reducible refine (intDrain_core ..).trans ?_
    | with_reducible refine (closeDueInt_core ..).trans ?_
    | (fail_if_no_progress with_reducible refine (core_mk ..).trans ?_)
    | with_reducible refine (foldl_core _ _ _ ?_).trans ?_
    | split

theorem startDensity_core (u e : Nat) (s : State) : core (startDensity u e s) = core s := by
  unfold startDensity
  try dsimp only
  repeat' first
    | with_reducible rfl
    | with_reducible refine (anchorDensity_core ..).trans ?_
    | with_reducible refine (setDens_core ..).trans ?_
    | (fail_if_no_progress with_reducible refine (core_mk ..).trans ?_)
    | with_reducible refine (foldl_core _ _ _ ?_).trans ?_
    | split

theorem runDensAct_core (u e : Nat) (x : DensAct) (s : State) : core (runDensAct u e x s) = core s := by
  unfold runDensAct
  try dsimp only
  repeat' first
    | with_reducible rfl
    | with_reducible refine (startDensity_core ..).trans ?_
    | with_reducible refine (endDensity_core ..).trans ?_
    | with_reducible refine (densUpTo_core ..).trans ?_
    | with_reducible refine (setDens_core ..).trans ?_
    | (fail_if_no_progress with_reducible refine (core_mk ..).trans ?_)
    | with_reducible refine (foldl_core _ _ _ ?_).trans ?_
    | split

theorem densCatch_core (all : Bool) (u : Nat) : ∀ (m : Nat) (s : State), core (densCatch all u m s) = core s := by
  intro m
  induction m with
  | zero => intro s; rfl
  | succ m ih =>
   intro s
   unfold densCatch
   try dsimp only
   repeat' first
     | with_reducible rfl
     | exact ih _
     | with_reducible refine (ih _).trans ?_
     | with_reducible refine (runDensAct_core ..).trans ?_
     | with_reducible refine (setDens_core ..).trans ?_
     | (fail_if_no_progress with_reducible refine (core_mk ..).trans ?_)
     | with_reducible refine (foldl_core _ _ _ ?_).trans ?_
     | split

theorem densCatchAll_core (all : Bool) (s : State) : core (densCatchAll all s) = core s := by
  unfold densCatchAll
  try dsimp only
  repeat' first
    | with_reducible rfl
    | (intro _ _; try dsimp only)
    | with_reducible refine (densCatch_core ..).trans ?_
    | (fail_if_no_progress with_reducible refine (core_mk ..).trans ?_)
    | with_reducible refine (foldl_core _ _ _ ?_).trans ?_

theorem densAct_core (u e : Nat) (x : DensAct) (s : State) : core (densAct u e x s) = core s := by
  unfold densAct
  try dsimp only
  repeat' first
    | with_reducible rfl
    | with_reducible refine (densCatch_core ..).trans ?_
    | with_reducible refine (setDens_core ..).trans ?_

theorem densityTake_core (u key : Nat) (invalid : Bool) (flags : SpecFlags) (regrid : Bool) (cols : List Dyad) (s0 : State) : core (densityTake u key invalid flags regrid cols s0) = core s0 := by
  unfold densityTake
  try dsimp only
  repeat' first
    | with_reducible rfl
    | with_reducible refine (regrid_core ..).trans ?_
    | with_reducible refine (densUpTo_core ..).trans ?_
    | with_reducible refine (setDens_core ..).trans ?_
    | (fail_if_no_progress with_reducible refine (core_mk ..).trans ?_)
    | with_reducible refine (foldl_core _ _ _ ?_).trans ?_
    | split

theorem evDensityFrameClose_core (k u : Nat) (lost busy : Bool) (s : State) : core (evDensityFrameClose k u lost busy s) = core s := by
  unfold evDensityFrameClose
  try dsimp only
  repeat' first
    | with_reducible rfl
    | with_reducible refine (closeDueDensity_core ..).trans ?_
    | (fail_if_no_progress with_reducible refine (core_mk ..).trans ?_)
    | with_reducible refine (foldl_core _ _ _ ?_).trans ?_
    | split

theorem evDecayStep_core (k : Nat) (s : State) : core (evDecayStep k s) = core s := by
  unfold evDecayStep
  try dsimp only
  repeat' first
    | with_reducible rfl
    | (intro _ _; try dsimp only)
    | with_reducible refine (densAct_core ..).trans ?_
    | (fail_if_no_progress with_reducible refine (core_mk ..).trans ?_)
    | with_reducible refine (foldl_core _ _ _ ?_).trans ?_
    | split

theorem spgmTake_core (i : Nat) (x : FrameIn) (cols : List Dyad) (lost : Bool) (s : State) : core (spgmTake i x cols lost s) = core s := by
  unfold spgmTake
  try dsimp only
  repeat' first
    | with_reducible rfl
    | with_reducible refine (emitLine_core ..).trans ?_
    | with_reducible refine (setSpgm_core ..).trans ?_
    | (fail_if_no_progress with_reducible refine (core_mk ..).trans ?_)
    | with_reducible refine (foldl_core _ _ _ ?_).trans ?_
    | split

theorem runSpgmAct_core (i : Nat) (x : SpgmAct) (s : State) : core (runSpgmAct i x s) = core s := by
  unfold runSpgmAct
  try dsimp only
  repeat' first
    | with_reducible rfl
    | with_reducible refine (emitLine_core ..).trans ?_
    | with_reducible refine (setSpgm_core ..).trans ?_
    | (fail_if_no_progress with_reducible refine (core_mk ..).trans ?_)
    | with_reducible refine (foldl_core _ _ _ ?_).trans ?_
    | split

theorem spgmCatch_core (all : Bool) (i : Nat) : ∀ (m : Nat) (s : State), core (spgmCatch all i m s) = core s := by
  intro m
  induction m with
  | zero => intro s; rfl
  | succ m ih =>
   intro s
   unfold spgmCatch
   try dsimp only
   repeat' first
     | with_reducible rfl
     | exact ih _
     | with_reducible refine (ih _).trans ?_
     | with_reducible refine (runSpgmAct_core ..).trans ?_
     | with_reducible refine (setSpgm_core ..).trans ?_
     | (fail_if_no_progress with_reducible refine (core_mk ..).trans ?_)
     | with_reducible refine (foldl_core _ _ _ ?_).trans ?_
     | split

theorem spgmCatchAll_core (all : Bool) (s : State) : core (spgmCatchAll all s) = core s := by
  unfold spgmCatchAll
  try dsimp only
  repeat' first
    | with_reducible rfl
    | (intro _ _; try dsimp only)
    | with_reducible refine (spgmCatch_core ..).trans ?_
    | (fail_if_no_progress with_reducible refine (core_mk ..).trans ?_)
    | with_reducible refine (foldl_core _ _ _ ?_).trans ?_

theorem spgmAct_core (i e : Nat) (x : SpgmAct) (s : State) : core (spgmAct i e x s) = core s := by
  unfold spgmAct
  try dsimp only
  repeat' first
    | with_reducible rfl
    | with_reducible refine (spgmCatch_core ..).trans ?_
    | with_reducible refine (setSpgm_core ..).trans ?_

theorem catchAll_core (s : State) : core (catchAll s) = core s := by
  unfold catchAll
  try dsimp only
  repeat' first
    | with_reducible rfl
    | with_reducible refine (spgmCatchAll_core ..).trans ?_
    | with_reducible refine (densCatchAll_core ..).trans ?_
    | with_reducible refine (intCatchAll_core ..).trans ?_
    | with_reducible refine (thCatchAll_core ..).trans ?_

theorem afterLate_core (s : State) : core (afterLate s) = core s := by
  unfold afterLate
  try dsimp only
  repeat' first
    | with_reducible rfl
    | with_reducible refine (spgmCatchAll_core ..).trans ?_
    | with_reducible refine (densCatchAll_core ..).trans ?_
    | with_reducible refine (intCatchAll_core ..).trans ?_
    | with_reducible refine (thCatchAll_core ..).trans ?_

theorem switchOutput_core (x : Spectrum) (s : State) : core (switchOutput x s) = core s := by
  unfold switchOutput
  try dsimp only
  repeat' first
    | with_reducible rfl
    | with_reducible refine (resizeRing_core ..).trans ?_
    | with_reducible refine (startRun_core ..).trans ?_
    | with_reducible refine (endRun_core ..).trans ?_
    | with_reducible refine (setEngine_core ..).trans ?_
    | (fail_if_no_progress with_reducible refine (core_mk ..).trans ?_)
    | with_reducible refine (foldl_core _ _ _ ?_).trans ?_
    | split

theorem productTake_core (x : Spectrum) (s0 : State) : core (productTake x s0) = core s0 := by
  unfold productTake
  try dsimp only
  repeat' first
    | with_reducible rfl
    | with_reducible refine (switchOutput_core ..).trans ?_
    | with_reducible refine (emitProduct_core ..).trans ?_
    | with_reducible refine (setEngine_core ..).trans ?_
    | (fail_if_no_progress with_reducible refine (core_mk ..).trans ?_)
    | with_reducible refine (foldl_core _ _ _ ?_).trans ?_
    | split

theorem trigTake_core (x : Spectrum) (s : State) : core (trigTake x s) = core s := by
  unfold trigTake
  try dsimp only
  repeat' first
    | with_reducible rfl
    | with_reducible refine (pushEvent_core ..).trans ?_
    | (fail_if_no_progress with_reducible refine (core_mk ..).trans ?_)
    | with_reducible refine (foldl_core _ _ _ ?_).trans ?_
    | split

theorem thresherTake_core (x : Spectrum) (dropped : Bool) (s : State) : core (thresherTake x dropped s) = core s := by
  unfold thresherTake
  try dsimp only
  repeat' first
    | with_reducible rfl
    | with_reducible refine (thTake_core ..).trans ?_
    | with_reducible refine (setInt_core ..).trans ?_
    | with_reducible refine (pushEvent_core ..).trans ?_
    | (fail_if_no_progress with_reducible refine (core_mk ..).trans ?_)
    | with_reducible refine (foldl_core _ _ _ ?_).trans ?_
    | split

theorem completeSpectrum_core (e : Nat) (linesLost : List Nat) (thDrop : Bool) (s0 : State) : core (completeSpectrum e linesLost thDrop s0) = core s0 := by
  unfold completeSpectrum
  try dsimp only
  repeat' first
    | with_reducible rfl
    | (intro _ _; try dsimp only)
    | with_reducible refine (thresherTake_core ..).trans ?_
    | with_reducible refine (trigTake_core ..).trans ?_
    | with_reducible refine (productTake_core ..).trans ?_
    | with_reducible refine (catchAll_core ..).trans ?_
    | with_reducible refine (spgmTake_core ..).trans ?_
    | with_reducible refine (densityTake_core ..).trans ?_
    | with_reducible refine (setEngine_core ..).trans ?_
    | (fail_if_no_progress with_reducible refine (core_mk ..).trans ?_)
    | with_reducible refine (foldl_core _ _ _ ?_).trans ?_
    | split

theorem drainFrames_core (e i : Nat) : ∀ (m : Nat) (s : State), core (drainFrames e i m s) = core s := by
  intro m
  induction m with
  | zero => intro s; rfl
  | succ m ih =>
    intro s
    rw [drainFrames]
    split
    · exact (ih _).trans (completeSpectrum_core ..)
    · rfl

theorem drainEngine_core (e i : Nat) (s : State) : core (drainEngine e i s) = core s := by
  unfold drainEngine
  try dsimp only
  repeat' first
    | with_reducible rfl
    | with_reducible refine (drainFrames_core ..).trans ?_

theorem endGrid_core (g e reason : Nat) (s : State) : core (endGrid g e reason s) = core s := by
  unfold endGrid
  try dsimp only
  repeat' first
    | with_reducible rfl
    | (intro _ _; try dsimp only)
    | with_reducible refine (drainEngine_core ..).trans ?_
    | with_reducible refine (catchAll_core ..).trans ?_
    | with_reducible refine (endEngineEvents_core ..).trans ?_
    | with_reducible refine (endRun_core ..).trans ?_
    | with_reducible refine (emitLine_core ..).trans ?_
    | with_reducible refine (emitProduct_core ..).trans ?_
    | with_reducible refine (setEngine_core ..).trans ?_
    | (fail_if_no_progress with_reducible refine (core_mk ..).trans ?_)
    | with_reducible refine (foldl_core _ _ _ ?_).trans ?_
    | split

theorem startGrid_core (g e : Nat) (s : State) : core (startGrid g e s) = core s := by
  unfold startGrid
  try dsimp only
  repeat' first
    | with_reducible rfl
    | with_reducible refine (restartThOn_core ..).trans ?_
    | with_reducible refine (resizeRing_core ..).trans ?_
    | with_reducible refine (startRun_core ..).trans ?_
    | with_reducible refine (setEngine_core ..).trans ?_
    | (fail_if_no_progress with_reducible refine (core_mk ..).trans ?_)
    | with_reducible refine (foldl_core _ _ _ ?_).trans ?_
    | split

theorem checkColumns_core (g e : Nat) (s : State) : core (checkColumns g e s) = core s := by
  unfold checkColumns
  try dsimp only
  repeat' first
    | with_reducible rfl
    | (intro _ _; try dsimp only)
    | with_reducible refine (checkLineRates_core ..).trans ?_
    | with_reducible refine (endDensity_core ..).trans ?_
    | with_reducible refine (setDens_core ..).trans ?_
    | (fail_if_no_progress with_reducible refine (core_mk ..).trans ?_)
    | with_reducible refine (foldl_core _ _ _ ?_).trans ?_
    | split

theorem regrid_core (g e : Nat) (f : Engine → Engine) (s : State) : core (regrid g e f s) = core s := by
  unfold regrid
  try dsimp only
  repeat' first
    | with_reducible rfl
    | with_reducible refine (checkColumns_core ..).trans ?_
    | with_reducible refine (startGrid_core ..).trans ?_
    | with_reducible refine (endGrid_core ..).trans ?_
    | with_reducible refine (checkIntSource_core ..).trans ?_
    | with_reducible refine (setEngine_core ..).trans ?_

theorem endFeeds_core (t e reason : Nat) (s : State) : core (endFeeds t e reason s) = core s := by
  unfold endFeeds
  try dsimp only
  repeat' first
    | with_reducible rfl
    | with_reducible refine (endGrid_core ..).trans ?_
    | with_reducible refine (endRun_core ..).trans ?_
    | with_reducible refine (endStreams_core ..).trans ?_
    | with_reducible refine (setTuner_core ..).trans ?_
    | (fail_if_no_progress with_reducible refine (core_mk ..).trans ?_)
    | with_reducible refine (foldl_core _ _ _ ?_).trans ?_
    | split

theorem startFeeds_core (t e : Nat) (s : State) : core (startFeeds t e s) = core s := by
  unfold startFeeds
  try dsimp only
  repeat' first
    | with_reducible rfl
    | with_reducible refine (startGrid_core ..).trans ?_
    | with_reducible refine (startRun_core ..).trans ?_
    | with_reducible refine (setEngine_core ..).trans ?_
    | with_reducible refine (startStreams_core ..).trans ?_
    | (fail_if_no_progress with_reducible refine (core_mk ..).trans ?_)
    | with_reducible refine (foldl_core _ _ _ ?_).trans ?_
    | split

theorem changeTuner_core (t e : Nat) (f : Tuner → Tuner) (s : State) : core (changeTuner t e f s) = core s := by
  unfold changeTuner
  try dsimp only
  repeat' first
    | with_reducible rfl
    | with_reducible refine (startFeeds_core ..).trans ?_
    | with_reducible refine (endFeeds_core ..).trans ?_
    | with_reducible refine (checkIntSource_core ..).trans ?_
    | with_reducible refine (checkLineRates_core ..).trans ?_
    | with_reducible refine (setTuner_core ..).trans ?_
    | (fail_if_no_progress with_reducible refine (core_mk ..).trans ?_)
    | with_reducible refine (foldl_core _ _ _ ?_).trans ?_
    | split

theorem completeSegment_core (n : Nat) (g : Segment) (s : State) : core (completeSegment n g s) = core s := by
  unfold completeSegment
  try dsimp only
  repeat' first
    | with_reducible rfl
    | (intro _ _; try dsimp only)
    | with_reducible refine (setSheaf_core ..).trans ?_
    | with_reducible refine (writeAt_core ..).trans ?_
    | with_reducible refine (offerItem_core ..).trans ?_
    | with_reducible refine (notify_core ..).trans ?_
    | (fail_if_no_progress with_reducible refine (core_mk ..).trans ?_)
    | with_reducible refine (foldl_core _ _ _ ?_).trans ?_
    | split

theorem completeOldest_core (n : Nat) (s : State) : core (completeOldest n s) = core s := by
  unfold completeOldest
  try dsimp only
  repeat' first
    | with_reducible rfl
    | with_reducible refine (completeSegment_core ..).trans ?_
    | with_reducible refine (setSheaf_core ..).trans ?_
    | (fail_if_no_progress with_reducible refine (core_mk ..).trans ?_)
    | with_reducible refine (foldl_core _ _ _ ?_).trans ?_
    | split

theorem completeAll_core (n : Nat) (s : State) : core (completeAll n s) = core s := by
  unfold completeAll
  try dsimp only
  repeat' first
    | with_reducible rfl
    | (intro _ _; try dsimp only)
    | with_reducible refine (completeOldest_core ..).trans ?_
    | (fail_if_no_progress with_reducible refine (core_mk ..).trans ?_)
    | with_reducible refine (foldl_core _ _ _ ?_).trans ?_

theorem ringErrors_core (n : Nat) (errors : List MemError) (s : State) : core (ringErrors n errors s) = core s := by
  unfold ringErrors
  try dsimp only
  repeat' first
    | with_reducible rfl
    | with_reducible refine (closeSegment_core ..).trans ?_
    | with_reducible refine (setRing_core ..).trans ?_
    | (fail_if_no_progress with_reducible refine (core_mk ..).trans ?_)
    | with_reducible refine (foldl_core _ _ _ ?_).trans ?_
    | split

theorem closeAtEnd_core (k n : Nat) (s : State) : core (closeAtEnd k n s) = core s := by
  unfold closeAtEnd
  try dsimp only
  repeat' first
    | with_reducible rfl
    | with_reducible refine (closeSegment_core ..).trans ?_
    | (fail_if_no_progress with_reducible refine (core_mk ..).trans ?_)
    | with_reducible refine (foldl_core _ _ _ ?_).trans ?_
    | split

theorem setMq_core (f : MqUnit → MqUnit) (s : State) : core (setMq f s) = core s := core_mk ..

theorem mqTrim_core (s : State) : core (mqTrim s) = core s := by
  unfold mqTrim
  try dsimp only
  repeat' first
    | with_reducible rfl
    | with_reducible refine (setMq_core ..).trans ?_

theorem mqLevelCheck_core (s : State) : core (mqLevelCheck s) = core s := by
  unfold mqLevelCheck
  try dsimp only
  repeat' first
    | with_reducible rfl
    | with_reducible refine (setMq_core ..).trans ?_
    | with_reducible refine (notify_core ..).trans ?_
    | (fail_if_no_progress with_reducible refine (core_mk ..).trans ?_)
    | with_reducible refine (foldl_core _ _ _ ?_).trans ?_
    | split

theorem mqRingWrite_core (pos : Nat) (bytes : List Byte) (s : State) : core (mqRingWrite pos bytes s) = core s := by
  unfold mqRingWrite
  try dsimp only
  repeat' first
    | with_reducible rfl
    | with_reducible refine (writeAt_core ..).trans ?_

theorem mqWrite_core (bytes : List Byte) (s : State) : core (mqWrite bytes s) = core s := by
  unfold mqWrite
  try dsimp only
  repeat' first
    | with_reducible rfl
    | with_reducible refine (mqRingWrite_core ..).trans ?_
    | with_reducible refine (setMq_core ..).trans ?_

theorem mqPad_core (s : State) : core (mqPad s) = core s := by
  unfold mqPad
  try dsimp only
  repeat' first
    | with_reducible rfl
    | with_reducible refine (mqWrite_core ..).trans ?_
    | with_reducible refine (setMq_core ..).trans ?_
    | (fail_if_no_progress with_reducible refine (core_mk ..).trans ?_)
    | with_reducible refine (foldl_core _ _ _ ?_).trans ?_
    | split

theorem mqItemEnd_core (s : State) : core (mqItemEnd s) = core s := by
  unfold mqItemEnd
  try dsimp only
  repeat' first
    | with_reducible rfl
    | with_reducible refine (mqPad_core ..).trans ?_
    | with_reducible refine (mqLevelCheck_core ..).trans ?_
    | (fail_if_no_progress with_reducible refine (core_mk ..).trans ?_)
    | with_reducible refine (foldl_core _ _ _ ?_).trans ?_
    | split

theorem mqAccept_core (producer unit : Nat) (payload : List Word) (s : State) : core (mqAccept producer unit payload s) = core s := by
  unfold mqAccept
  try dsimp only
  repeat' first
    | with_reducible rfl
    | with_reducible refine (mqItemEnd_core ..).trans ?_
    | with_reducible refine (mqWrite_core ..).trans ?_
    | with_reducible refine (setMq_core ..).trans ?_
    | (fail_if_no_progress with_reducible refine (core_mk ..).trans ?_)
    | with_reducible refine (foldl_core _ _ _ ?_).trans ?_
    | split

theorem evMqLingerExpiry_core (s : State) : core (evMqLingerExpiry s) = core s := by
  unfold evMqLingerExpiry
  try dsimp only
  repeat' first
    | with_reducible rfl
    | with_reducible refine (mqPad_core ..).trans ?_
    | with_reducible refine (mqLevelCheck_core ..).trans ?_
    | (fail_if_no_progress with_reducible refine (core_mk ..).trans ?_)
    | with_reducible refine (foldl_core _ _ _ ?_).trans ?_
    | split

theorem mqReadNow_core (r : MqRead) (s : State) : core (mqReadNow r s).1 = core s := by
  unfold mqReadNow
  try dsimp only
  repeat' first
    | with_reducible rfl
    | with_reducible refine (mqLevelCheck_core ..).trans ?_
    | with_reducible refine (mqTrim_core ..).trans ?_
    | with_reducible refine (setMq_core ..).trans ?_
    | with_reducible refine (hostResult_core ..).trans ?_
    | (fail_if_no_progress with_reducible refine (core_mk ..).trans ?_)
    | with_reducible refine (foldl_core _ _ _ ?_).trans ?_
    | split

theorem mqFlush_core (s : State) : core (mqFlush s).1 = core s := by
  unfold mqFlush
  try dsimp only
  repeat' first
    | with_reducible rfl
    | with_reducible refine (mqLevelCheck_core ..).trans ?_
    | with_reducible refine (setMq_core ..).trans ?_

theorem mqBind_core (h : Word) (s : State) : core (mqBind h s) = core s := by
  unfold mqBind
  try dsimp only
  repeat' first
    | with_reducible rfl
    | with_reducible refine (mqFlush_core ..).trans ?_
    | with_reducible refine (setMq_core ..).trans ?_
    | (fail_if_no_progress with_reducible refine (core_mk ..).trans ?_)
    | with_reducible refine (foldl_core _ _ _ ?_).trans ?_
    | split

theorem mqMask_core (mask : Nat) (s : State) : core (mqMask mask s) = core s := core_mk ..

theorem setPacker_core (p : Nat) (f : Packer → Packer) (s : State) : core (setPacker p f s) = core s := core_mk ..

theorem countPacked_core (c : StreamConfig) (n : Nat) (bytes : List Byte) (packed raw : Bool) (s : State) : core (countPacked c n bytes packed raw s) = core s := by
  unfold countPacked
  try dsimp only
  repeat' first
    | with_reducible rfl
    | with_reducible refine (setPacker_core ..).trans ?_
    | (fail_if_no_progress with_reducible refine (core_mk ..).trans ?_)
    | with_reducible refine (foldl_core _ _ _ ?_).trans ?_
    | split

theorem setDest_core (e : Nat) (f : DestEntry → DestEntry) (s : State) : core (setDest e f s) = core s := by
  unfold setDest
  try dsimp only
  repeat' first
    | with_reducible rfl
    | with_reducible refine (setStrm_core ..).trans ?_

theorem loseMarks_core (n index : Nat) (seqs : List Nat) (s : State) : core (loseMarks n index seqs s) = core s := by
  unfold loseMarks
  try dsimp only
  repeat' first
    | with_reducible rfl
    | (intro _ _; try dsimp only)
    | with_reducible refine (setCtx_core ..).trans ?_
    | with_reducible refine (notify_core ..).trans ?_
    | (fail_if_no_progress with_reducible refine (core_mk ..).trans ?_)
    | with_reducible refine (foldl_core _ _ _ ?_).trans ?_
    | split

theorem settlePieces_core (s : State) : core (settlePieces s) = core s := core_mk ..

theorem pullMq_core (n : Nat) (s : State) : core (pullMq n s) = core s := by
  unfold pullMq
  try dsimp only
  repeat' first
    | with_reducible rfl
    | with_reducible refine (mqTrim_core ..).trans ?_
    | with_reducible refine (setMq_core ..).trans ?_
    | with_reducible refine (setCtx_core ..).trans ?_
    | (fail_if_no_progress with_reducible refine (core_mk ..).trans ?_)
    | with_reducible refine (foldl_core _ _ _ ?_).trans ?_
    | split

theorem skipStale_core (n : Nat) : ∀ (m : Nat) (s : State), core (skipStale n m s) = core s := by
  intro m
  induction m with
  | zero => intro s; rfl
  | succ m ih =>
   intro s
   unfold skipStale
   try dsimp only
   repeat' first
     | with_reducible rfl
     | exact ih _
     | with_reducible refine (ih _).trans ?_
     | with_reducible refine (setCtx_core ..).trans ?_
     | (fail_if_no_progress with_reducible refine (core_mk ..).trans ?_)
     | with_reducible refine (foldl_core _ _ _ ?_).trans ?_
     | split

theorem regionDone_core (n : Nat) (s : State) : core (regionDone n s) = core s := by
  unfold regionDone
  try dsimp only
  repeat' first
    | with_reducible rfl
    | with_reducible refine (setCtx_core ..).trans ?_
    | with_reducible refine (notify_core ..).trans ?_

theorem dropItem_core (n more : Nat) (s : State) : core (dropItem n more s) = core s := by
  unfold dropItem
  try dsimp only
  repeat' first
    | with_reducible rfl
    | with_reducible refine (setCtx_core ..).trans ?_

theorem hostRingWrite_core (e : Nat) (bytes : List Byte) (s : State) : core (hostRingWrite e bytes s) = core s := by
  unfold hostRingWrite
  try dsimp only
  repeat' first
    | with_reducible rfl
    | with_reducible refine (setDest_core ..).trans ?_
    | with_reducible refine (raiseVector_core ..).trans ?_
    | with_reducible refine (emit_core ..).trans ?_
    | (fail_if_no_progress with_reducible refine (core_mk ..).trans ?_)
    | with_reducible refine (foldl_core _ _ _ ?_).trans ?_
    | split

theorem serveTurn_core (n link : Nat) (s : State) : core (serveTurn n link s) = core s := by
  unfold serveTurn
  try dsimp only
  repeat' first
    | with_reducible rfl
    | with_reducible refine (setStrm_core ..).trans ?_

theorem evHostRingConsPoll_core (e cons : Nat) (s : State) : core (evHostRingConsPoll e cons s) = core s := by
  unfold evHostRingConsPoll
  try dsimp only
  repeat' first
    | with_reducible rfl
    | with_reducible refine (setDest_core ..).trans ?_
    | (fail_if_no_progress with_reducible refine (core_mk ..).trans ?_)
    | with_reducible refine (foldl_core _ _ _ ?_).trans ?_
    | split

theorem evHostRingIntTime_core (e : Nat) (s : State) : core (evHostRingIntTime e s) = core s := by
  unfold evHostRingIntTime
  try dsimp only
  repeat' first
    | with_reducible rfl
    | with_reducible refine (setDest_core ..).trans ?_
    | with_reducible refine (raiseVector_core ..).trans ?_
    | (fail_if_no_progress with_reducible refine (core_mk ..).trans ?_)
    | with_reducible refine (foldl_core _ _ _ ?_).trans ?_
    | split

theorem evOtherFrame_core (p : Nat) (s : State) : core (evOtherFrame p s) = core s := by
  unfold evOtherFrame
  try dsimp only
  repeat' first
    | with_reducible rfl
    | with_reducible refine (discardRx_core ..).trans ?_

theorem evPauseFrame_core (p : Nat) (s : State) : core (evPauseFrame p s) = core s := by
  unfold evPauseFrame
  try dsimp only
  repeat' first
    | with_reducible rfl
    | with_reducible refine (countRx_core ..).trans ?_

theorem evArpRequest_core (p mac ip target : Nat) (s : State) : core (evArpRequest p mac ip target s) = core s := by
  unfold evArpRequest
  try dsimp only
  repeat' first
    | with_reducible rfl
    | with_reducible refine (discardRx_core ..).trans ?_
    | with_reducible refine (countRx_core ..).trans ?_
    | with_reducible refine (emit_core ..).trans ?_
    | (fail_if_no_progress with_reducible refine (core_mk ..).trans ?_)
    | with_reducible refine (foldl_core _ _ _ ?_).trans ?_
    | split

theorem evNeighbourSolicitation_core (p mac : Nat) (ip target : List Word) (s : State) : core (evNeighbourSolicitation p mac ip target s) = core s := by
  unfold evNeighbourSolicitation
  try dsimp only
  repeat' first
    | with_reducible rfl
    | with_reducible refine (discardRx_core ..).trans ?_
    | with_reducible refine (countRx_core ..).trans ?_
    | with_reducible refine (emit_core ..).trans ?_
    | (fail_if_no_progress with_reducible refine (core_mk ..).trans ?_)
    | with_reducible refine (foldl_core _ _ _ ?_).trans ?_
    | split

theorem evEthLinkChange_core (p : Nat) (up : Bool) (s : State) : core (evEthLinkChange p up s) = core s := by
  unfold evEthLinkChange
  try dsimp only
  repeat' first
    | with_reducible rfl
    | with_reducible refine (notify_core ..).trans ?_
    | with_reducible refine (setPort_core ..).trans ?_
    | (fail_if_no_progress with_reducible refine (core_mk ..).trans ?_)
    | with_reducible refine (foldl_core _ _ _ ?_).trans ?_
    | split

theorem evPtpFrameRx_core (p stamp : Nat) (frame : List Byte) (s : State) : core (evPtpFrameRx p stamp frame s) = core s := by
  unfold evPtpFrameRx
  try dsimp only
  repeat' first
    | with_reducible rfl
    | with_reducible refine (hostRingWrite_core ..).trans ?_
    | with_reducible refine (discardRx_core ..).trans ?_
    | with_reducible refine (countRx_core ..).trans ?_
    | with_reducible refine (setPort_core ..).trans ?_
    | (fail_if_no_progress with_reducible refine (core_mk ..).trans ?_)
    | with_reducible refine (foldl_core _ _ _ ?_).trans ?_
    | split

theorem startCtx_core (e n : Nat) (s : State) : core (startCtx e n s) = core s := by
  unfold startCtx
  try dsimp only
  repeat' first
    | with_reducible rfl
    | with_reducible refine (setMq_core ..).trans ?_
    | with_reducible refine (startCtxRun_core ..).trans ?_
    | with_reducible refine (setCtx_core ..).trans ?_
    | (fail_if_no_progress with_reducible refine (core_mk ..).trans ?_)
    | with_reducible refine (foldl_core _ _ _ ?_).trans ?_
    | split

theorem stopCtx_core (e n : Nat) (s : State) : core (stopCtx e n s) = core s := by
  unfold stopCtx
  try dsimp only
  repeat' first
    | with_reducible rfl
    | with_reducible refine (mqTrim_core ..).trans ?_
    | with_reducible refine (setMq_core ..).trans ?_
    | with_reducible refine (endCtxRun_core ..).trans ?_
    | with_reducible refine (setCtx_core ..).trans ?_
    | (fail_if_no_progress with_reducible refine (core_mk ..).trans ?_)
    | with_reducible refine (foldl_core _ _ _ ?_).trans ?_
    | split

theorem setMaint_core (f : MaintUnit → MaintUnit) (s : State) : core (setMaint f s) = core s := core_mk ..

theorem setTdc_core (f : TdcUnit → TdcUnit) (s : State) : core (setTdc f s) = core s := core_mk ..

theorem setTdcSlot_core (n : Nat) (f : TdcSlot → TdcSlot) (s : State) : core (setTdcSlot n f s) = core s := by
  unfold setTdcSlot
  try dsimp only
  repeat' first
    | with_reducible rfl
    | with_reducible refine (setTdc_core ..).trans ?_

theorem countStart_core (codes : List Nat) (from_ : Option Nat) (k : Nat) (s : State) : core (countStart codes from_ k s) = core s := by
  unfold countStart
  try dsimp only
  repeat' first
    | with_reducible rfl
    | (intro _ _; try dsimp only)
    | with_reducible refine (setMaint_core ..).trans ?_
    | (fail_if_no_progress with_reducible refine (core_mk ..).trans ?_)
    | with_reducible refine (foldl_core _ _ _ ?_).trans ?_

theorem countWait_core (codes : List Nat) (s : State) : core (countWait codes s) = core s := by
  unfold countWait
  try dsimp only
  repeat' first
    | with_reducible rfl
    | (intro _ _; try dsimp only)
    | with_reducible refine (setMaint_core ..).trans ?_
    | (fail_if_no_progress with_reducible refine (core_mk ..).trans ?_)
    | with_reducible refine (foldl_core _ _ _ ?_).trans ?_

theorem pumpDwell_core (s : State) : core (pumpDwell s) = core s := by
  unfold pumpDwell
  try dsimp only
  repeat' first
    | with_reducible rfl
    | with_reducible refine (countStart_core ..).trans ?_
    | with_reducible refine (setMaint_core ..).trans ?_
    | (fail_if_no_progress with_reducible refine (core_mk ..).trans ?_)
    | with_reducible refine (foldl_core _ _ _ ?_).trans ?_
    | split

theorem dwellDue_core (s : State) : core (dwellDue s) = core s := by
  unfold dwellDue
  try dsimp only
  repeat' first
    | with_reducible rfl
    | with_reducible refine (pumpDwell_core ..).trans ?_
    | with_reducible refine (countWait_core ..).trans ?_
    | with_reducible refine (setMaint_core ..).trans ?_
    | (fail_if_no_progress with_reducible refine (core_mk ..).trans ?_)
    | with_reducible refine (foldl_core _ _ _ ?_).trans ?_
    | split

theorem clearWay_core (conflicts : Activity → Bool) (s : State) : core (clearWay conflicts s) = core s := by
  unfold clearWay
  try dsimp only
  repeat' first
    | with_reducible rfl
    | with_reducible refine (setMaint_core ..).trans ?_

theorem dropDwell_core (s : State) : core (dropDwell s) = core s := by
  unfold dropDwell
  try dsimp only
  repeat' first
    | with_reducible rfl
    | with_reducible refine (clearWay_core ..).trans ?_
    | with_reducible refine (setMaint_core ..).trans ?_

theorem endActivity_core (sel : Activity → Bool) (s : State) : core (endActivity sel s) = core s := by
  unfold endActivity
  try dsimp only
  repeat' first
    | with_reducible rfl
    | with_reducible refine (clearWay_core ..).trans ?_
    | with_reducible refine (pumpDwell_core ..).trans ?_
    | with_reducible refine (setMaint_core ..).trans ?_

theorem evTdcCalPriority_core (s : State) : core (evTdcCalPriority s) = core s := by
  unfold evTdcCalPriority
  try dsimp only
  repeat' first
    | with_reducible rfl
    | (intro _ _; try dsimp only)
    | with_reducible refine (pumpDwell_core ..).trans ?_
    | with_reducible refine (setTdcSlot_core ..).trans ?_
    | with_reducible refine (setMaint_core ..).trans ?_
    | (fail_if_no_progress with_reducible refine (core_mk ..).trans ?_)
    | with_reducible refine (foldl_core _ _ _ ?_).trans ?_
    | split

theorem waitActivity_core (codes : List Nat) (c : Cmd) (key length : Nat) (s : State) : core (waitActivity codes c key length s).1 = core s := by
  unfold waitActivity
  try dsimp only
  repeat' first
    | with_reducible rfl
    | with_reducible refine (countWait_core ..).trans ?_
    | with_reducible refine (setMaint_core ..).trans ?_

theorem setTdcInput_core (i : Nat) (f : TdcInput → TdcInput) (s : State) : core (setTdcInput i f s) = core s := by
  unfold setTdcInput
  try dsimp only
  repeat' first
    | with_reducible rfl
    | with_reducible refine (setTdc_core ..).trans ?_

theorem tdcOffer_core (n : Nat) (words : List Word) (s : State) : core (tdcOffer n words s) = core s := by
  unfold tdcOffer
  try dsimp only
  repeat' first
    | with_reducible rfl
    | with_reducible refine (setTdcSlot_core ..).trans ?_
    | with_reducible refine (setTdc_core ..).trans ?_
    | (fail_if_no_progress with_reducible refine (core_mk ..).trans ?_)
    | with_reducible refine (foldl_core _ _ _ ?_).trans ?_
    | split

theorem emitStats_core (n : Nat) (s : State) : core (emitStats n s) = core s := by
  unfold emitStats
  try dsimp only
  repeat' first
    | with_reducible rfl
    | with_reducible refine (tdcOffer_core ..).trans ?_
    | with_reducible refine (pumpDwell_core ..).trans ?_
    | with_reducible refine (setTdcSlot_core ..).trans ?_
    | (fail_if_no_progress with_reducible refine (core_mk ..).trans ?_)
    | with_reducible refine (foldl_core _ _ _ ?_).trans ?_
    | split

theorem disarmSlot_core (n : Nat) (s : State) : core (disarmSlot n s) = core s := by
  unfold disarmSlot
  try dsimp only
  repeat' first
    | with_reducible rfl
    | with_reducible refine (endActivity_core ..).trans ?_
    | with_reducible refine (setTdcSlot_core ..).trans ?_

theorem tdcResult_core (n k : Nat) (r : TdcResult) (s : State) : core (tdcResult n k r s) = core s := by
  unfold tdcResult
  try dsimp only
  repeat' first
    | with_reducible rfl
    | with_reducible refine (disarmSlot_core ..).trans ?_
    | with_reducible refine (emitStats_core ..).trans ?_
    | with_reducible refine (tdcOffer_core ..).trans ?_
    | with_reducible refine (setTdcSlot_core ..).trans ?_
    | with_reducible refine (notify_core ..).trans ?_
    | (fail_if_no_progress with_reducible refine (core_mk ..).trans ?_)
    | with_reducible refine (foldl_core _ _ _ ?_).trans ?_
    | split

theorem closeEmpty_core (n k : Nat) (clock : Bool) (s : State) : core (closeEmpty n k clock s) = core s := by
  unfold closeEmpty
  try dsimp only
  repeat' first
    | with_reducible rfl
    | with_reducible refine (tdcResult_core ..).trans ?_
    | with_reducible refine (setTdcSlot_core ..).trans ?_
    | (fail_if_no_progress with_reducible refine (core_mk ..).trans ?_)
    | with_reducible refine (foldl_core _ _ _ ?_).trans ?_
    | split

theorem closeWith_core (n : Nat) (e : TdcEdge) (s : State) : core (closeWith n e s) = core s := by
  unfold closeWith
  try dsimp only
  repeat' first
    | with_reducible rfl
    | with_reducible refine (tdcResult_core ..).trans ?_
    | with_reducible refine (setTdcSlot_core ..).trans ?_
    | (fail_if_no_progress with_reducible refine (core_mk ..).trans ?_)
    | with_reducible refine (foldl_core _ _ _ ?_).trans ?_
    | split

theorem intervalEdge_core (i n : Nat) (e : TdcEdge) (s0 : State) : core (intervalEdge i n e s0) = core s0 := by
  unfold intervalEdge
  try dsimp only
  repeat' first
    | with_reducible rfl
    | with_reducible refine (closeWith_core ..).trans ?_
    | with_reducible refine (closeEmpty_core ..).trans ?_
    | with_reducible refine (setTdcSlot_core ..).trans ?_
    | (fail_if_no_progress with_reducible refine (core_mk ..).trans ?_)
    | with_reducible refine (foldl_core _ _ _ ?_).trans ?_
    | split

theorem closeWindow_core (n : Nat) (clock : Bool) (s : State) : core (closeWindow n clock s) = core s := by
  unfold closeWindow
  try dsimp only
  repeat' first
    | with_reducible rfl
    | with_reducible refine (tdcResult_core ..).trans ?_
    | with_reducible refine (setTdcSlot_core ..).trans ?_
    | (fail_if_no_progress with_reducible refine (core_mk ..).trans ?_)
    | with_reducible refine (foldl_core _ _ _ ?_).trans ?_
    | split

theorem closeWindowsBefore_core (n d : Nat) : ∀ (m : Nat) (s : State), core (closeWindowsBefore n d m s) = core s := by
  intro m
  induction m with
  | zero => intro s; rfl
  | succ m ih =>
   intro s
   unfold closeWindowsBefore
   try dsimp only
   repeat' first
     | with_reducible rfl
     | exact ih _
     | with_reducible refine (ih _).trans ?_
     | with_reducible refine (closeWindow_core ..).trans ?_
     | (fail_if_no_progress with_reducible refine (core_mk ..).trans ?_)
     | with_reducible refine (foldl_core _ _ _ ?_).trans ?_
     | split

theorem eventEdge_core (n : Nat) (e : TdcEdge) (s0 : State) : core (eventEdge n e s0) = core s0 := by
  unfold eventEdge
  try dsimp only
  repeat' first
    | with_reducible rfl
    | with_reducible refine (closeWindowsBefore_core ..).trans ?_
    | with_reducible refine (setTdcSlot_core ..).trans ?_
    | (fail_if_no_progress with_reducible refine (core_mk ..).trans ?_)
    | with_reducible refine (foldl_core _ _ _ ?_).trans ?_
    | split

theorem slotEdge_core (i : Nat) (e : TdcEdge) (s : State) (n : Nat) : core (slotEdge i e s n) = core s := by
  unfold slotEdge
  try dsimp only
  repeat' first
    | with_reducible rfl
    | with_reducible refine (eventEdge_core ..).trans ?_
    | with_reducible refine (intervalEdge_core ..).trans ?_
    | (fail_if_no_progress with_reducible refine (core_mk ..).trans ?_)
    | with_reducible refine (foldl_core _ _ _ ?_).trans ?_
    | split

theorem externalEdge_core (i stamp accepted : Nat) (s : State) : core (externalEdge i stamp accepted s) = core s := by
  unfold externalEdge
  try dsimp only
  repeat' first
    | with_reducible rfl
    | with_reducible refine (pushEvent_core ..).trans ?_
    | (fail_if_no_progress with_reducible refine (core_mk ..).trans ?_)
    | with_reducible refine (foldl_core _ _ _ ?_).trans ?_
    | split

theorem evTdcEdge_core (i cycle tap : Nat) (s : State) : core (evTdcEdge i cycle tap s) = core s := by
  unfold evTdcEdge
  try dsimp only
  repeat' first
    | with_reducible rfl
    | (intro _ _; try dsimp only)
    | with_reducible refine (externalEdge_core ..).trans ?_
    | with_reducible refine (slotEdge_core ..).trans ?_
    | with_reducible refine (setTdcInput_core ..).trans ?_
    | (fail_if_no_progress with_reducible refine (core_mk ..).trans ?_)
    | with_reducible refine (foldl_core _ _ _ ?_).trans ?_
    | split

theorem evTdcMeasureTimeout_core (k n : Nat) (s : State) : core (evTdcMeasureTimeout k n s) = core s := by
  unfold evTdcMeasureTimeout
  try dsimp only
  repeat' first
    | with_reducible rfl
    | with_reducible refine (closeEmpty_core ..).trans ?_
    | (fail_if_no_progress with_reducible refine (core_mk ..).trans ?_)
    | with_reducible refine (foldl_core _ _ _ ?_).trans ?_
    | split

theorem evTdcWindowClose_core (k n : Nat) (s : State) : core (evTdcWindowClose k n s) = core s := by
  unfold evTdcWindowClose
  try dsimp only
  repeat' first
    | with_reducible rfl
    | with_reducible refine (closeWindow_core ..).trans ?_
    | (fail_if_no_progress with_reducible refine (core_mk ..).trans ?_)
    | with_reducible refine (foldl_core _ _ _ ?_).trans ?_
    | split

theorem evProbeLaunch_core (k n : Nat) (s0 : State) : core (evProbeLaunch k n s0) = core s0 := by
  unfold evProbeLaunch
  try dsimp only
  repeat' first
    | with_reducible rfl
    | with_reducible refine (closeEmpty_core ..).trans ?_
    | with_reducible refine (setTdcSlot_core ..).trans ?_
    | with_reducible refine (emit_core ..).trans ?_
    | (fail_if_no_progress with_reducible refine (core_mk ..).trans ?_)
    | with_reducible refine (foldl_core _ _ _ ?_).trans ?_
    | split

theorem evTdcStuckTimeout_core (i : Nat) (s : State) : core (evTdcStuckTimeout i s) = core s := by
  unfold evTdcStuckTimeout
  try dsimp only
  repeat' first
    | with_reducible rfl
    | with_reducible refine (setTdcInput_core ..).trans ?_
    | with_reducible refine (notify_core ..).trans ?_
    | (fail_if_no_progress with_reducible refine (core_mk ..).trans ?_)
    | with_reducible refine (foldl_core _ _ _ ?_).trans ?_
    | split

theorem evLevelInactive_core (i : Nat) (s : State) : core (evLevelInactive i s) = core s := by
  unfold evLevelInactive
  try dsimp only
  repeat' first
    | with_reducible rfl
    | with_reducible refine (setTdcInput_core ..).trans ?_

theorem setTdcLine_core (l : Nat) (f : TdcLine → TdcLine) (s : State) : core (setTdcLine l f s) = core s := by
  unfold setTdcLine
  try dsimp only
  repeat' first
    | with_reducible rfl
    | with_reducible refine (setTdc_core ..).trans ?_

theorem endDwell_core (s : State) : core (endDwell s) = core s := by
  unfold endDwell
  try dsimp only
  repeat' first
    | with_reducible rfl
    | with_reducible refine (clearWay_core ..).trans ?_
    | with_reducible refine (setTdc_core ..).trans ?_
    | with_reducible refine (setMaint_core ..).trans ?_

theorem evTdcDwellEnd_core (hits : List Nat) (s : State) : core (evTdcDwellEnd hits s) = core s := by
  unfold evTdcDwellEnd
  try dsimp only
  repeat' first
    | with_reducible rfl
    | with_reducible refine (endDwell_core ..).trans ?_
    | with_reducible refine (setTdcLine_core ..).trans ?_
    | with_reducible refine (setTdcInput_core ..).trans ?_
    | with_reducible refine (dwellDue_core ..).trans ?_
    | with_reducible refine (setTdc_core ..).trans ?_
    | with_reducible refine (bbWrite_core ..).trans ?_
    | with_reducible refine (notify_core ..).trans ?_
    | (fail_if_no_progress with_reducible refine (core_mk ..).trans ?_)
    | with_reducible refine (foldl_core _ _ _ ?_).trans ?_
    | split

theorem evTdcTablesReady_core (hits : List (List Nat)) (s : State) : core (evTdcTablesReady hits s) = core s := by
  unfold evTdcTablesReady
  try dsimp only
  repeat' first
    | with_reducible rfl
    | with_reducible refine (clearWay_core ..).trans ?_
    | with_reducible refine (dwellDue_core ..).trans ?_
    | with_reducible refine (setTdc_core ..).trans ?_
    | (fail_if_no_progress with_reducible refine (core_mk ..).trans ?_)
    | with_reducible refine (foldl_core _ _ _ ?_).trans ?_
    | split

theorem unlockTdc_core (s : State) : core (unlockTdc s) = core s := by
  unfold unlockTdc
  try dsimp only
  repeat' first
    | with_reducible rfl
    | (intro _ _; try dsimp only)
    | with_reducible refine (closeWindow_core ..).trans ?_
    | with_reducible refine (closeEmpty_core ..).trans ?_
    | with_reducible refine (setTdc_core ..).trans ?_
    | (fail_if_no_progress with_reducible refine (core_mk ..).trans ?_)
    | with_reducible refine (foldl_core _ _ _ ?_).trans ?_
    | split

theorem relockTdc_core (v : Nat) (s : State) : core (relockTdc v s) = core s := by
  unfold relockTdc
  try dsimp only
  repeat' first
    | with_reducible rfl
    | with_reducible refine (setTdc_core ..).trans ?_

theorem armTdc_core (e : Nat) (cmd : Nat) (from_ : Option Nat) (n : Nat) (s : State) : core (armTdc e cmd from_ n s) = core s := by
  unfold armTdc
  try dsimp only
  repeat' first
    | with_reducible rfl
    | with_reducible refine (countStart_core ..).trans ?_
    | with_reducible refine (setTdcSlot_core ..).trans ?_
    | with_reducible refine (setMaint_core ..).trans ?_
    | (fail_if_no_progress with_reducible refine (core_mk ..).trans ?_)
    | with_reducible refine (foldl_core _ _ _ ?_).trans ?_
    | split

theorem evPpsOutPulse_core (n : Nat) (s : State) : core (evPpsOutPulse n s) = core s := by
  unfold evPpsOutPulse
  try dsimp only
  repeat' first
    | with_reducible rfl
    | with_reducible refine (emit_core ..).trans ?_
    | (fail_if_no_progress with_reducible refine (core_mk ..).trans ?_)
    | with_reducible refine (foldl_core _ _ _ ?_).trans ?_
    | split

theorem setMc_core (f : McUnit → McUnit) (s : State) : core (setMc f s) = core s := core_mk ..

theorem setMcInput_core (i : Nat) (f : McInput → McInput) (s : State) : core (setMcInput i f s) = core s := by
  unfold setMcInput
  try dsimp only
  repeat' first
    | with_reducible rfl
    | with_reducible refine (setMc_core ..).trans ?_

theorem startSequence_core (stream : Option McConversion) (s : State) : core (startSequence stream s) = core s := by
  unfold startSequence
  try dsimp only
  repeat' first
    | with_reducible rfl
    | with_reducible refine (setMc_core ..).trans ?_
    | (fail_if_no_progress with_reducible refine (core_mk ..).trans ?_)
    | with_reducible refine (foldl_core _ _ _ ?_).trans ?_
    | split

theorem mcNext_core (stream : Option McConversion) (s : State) : core (mcNext stream s) = core s := by
  unfold mcNext
  try dsimp only
  repeat' first
    | with_reducible rfl
    | with_reducible refine (startSequence_core ..).trans ?_
    | with_reducible refine (setMc_core ..).trans ?_
    | (fail_if_no_progress with_reducible refine (core_mk ..).trans ?_)
    | with_reducible refine (foldl_core _ _ _ ?_).trans ?_
    | split

theorem applySequence_core (s : State) : core (applySequence s) = core s := by
  unfold applySequence
  try dsimp only
  repeat' first
    | with_reducible rfl
    | with_reducible refine (setMc_core ..).trans ?_
    | (fail_if_no_progress with_reducible refine (core_mk ..).trans ?_)
    | with_reducible refine (foldl_core _ _ _ ?_).trans ?_
    | split

theorem protect_core (i : Nat) (value : Int) (s : State) : core (protect i value s) = core s := by
  unfold protect
  try dsimp only
  repeat' first
    | with_reducible rfl
    | with_reducible refine (setMc_core ..).trans ?_
    | with_reducible refine (endFault_core ..).trans ?_
    | with_reducible refine (setFault_core ..).trans ?_
    | with_reducible refine (bbWrite_core ..).trans ?_
    | (fail_if_no_progress with_reducible refine (core_mk ..).trans ?_)
    | with_reducible refine (foldl_core _ _ _ ?_).trans ?_
    | split

theorem mcHistory_core (e : List Word) (s : State) : core (mcHistory e s) = core s := by
  unfold mcHistory
  try dsimp only
  repeat' first
    | with_reducible rfl
    | with_reducible refine (setMc_core ..).trans ?_
    | (fail_if_no_progress with_reducible refine (core_mk ..).trans ?_)
    | with_reducible refine (foldl_core _ _ _ ?_).trans ?_
    | split

theorem mcNotices_core (old : McInput) (r : McConversion) (code value : Int) (ovr : Bool) (st : Bool × Bool) (s : State) : core (mcNotices old r code value ovr st s) = core s := by
  unfold mcNotices
  try dsimp only
  repeat' first
    | with_reducible rfl
    | with_reducible refine (notify_core ..).trans ?_
    | (fail_if_no_progress with_reducible refine (core_mk ..).trans ?_)
    | with_reducible refine (foldl_core _ _ _ ?_).trans ?_
    | split

theorem evMcSystemPass_core (s : State) : core (evMcSystemPass s) = core s := by
  unfold evMcSystemPass
  try dsimp only
  repeat' first
    | with_reducible rfl
    | with_reducible refine (mcNext_core ..).trans ?_
    | with_reducible refine (setMc_core ..).trans ?_

theorem mcAbort_core (s : State) : core (mcAbort s) = core s := by
  unfold mcAbort
  try dsimp only
  repeat' first
    | with_reducible rfl
    | with_reducible refine (setMc_core ..).trans ?_
    | (fail_if_no_progress with_reducible refine (core_mk ..).trans ?_)
    | with_reducible refine (foldl_core _ _ _ ?_).trans ?_
    | split

theorem setSlice_core (c n : Nat) (f : SliceCorr → SliceCorr) (s : State) : core (setSlice c n f s) = core s := by
  unfold setSlice
  try dsimp only
  repeat' first
    | with_reducible rfl
    | with_reducible refine (setMaint_core ..).trans ?_

theorem sliceDwellEnd_core (k c : Nat) (r : Int × Int × Int) (s : State) : core (sliceDwellEnd k c r s) = core s := by
  unfold sliceDwellEnd
  try dsimp only
  repeat' first
    | with_reducible rfl
    | with_reducible refine (setSlice_core ..).trans ?_
    | with_reducible refine (setChannel_core ..).trans ?_
    | with_reducible refine (bbWrite_core ..).trans ?_
    | with_reducible refine (notify_core ..).trans ?_
    | (fail_if_no_progress with_reducible refine (core_mk ..).trans ?_)
    | with_reducible refine (foldl_core _ _ _ ?_).trans ?_
    | split

theorem evSliceSwap_core (k : Nat) (results : List (Int × Int × Int)) (s : State) : core (evSliceSwap k results s) = core s := by
  unfold evSliceSwap
  try dsimp only
  repeat' first
    | with_reducible rfl
    | (intro _ _; try dsimp only)
    | with_reducible refine (sliceDwellEnd_core ..).trans ?_
    | with_reducible refine (countWait_core ..).trans ?_
    | with_reducible refine (countStart_core ..).trans ?_
    | with_reducible refine (setMaint_core ..).trans ?_
    | (fail_if_no_progress with_reducible refine (core_mk ..).trans ?_)
    | with_reducible refine (foldl_core _ _ _ ?_).trans ?_
    | split

theorem scrubbed_core (slot corrected : Nat) (found : List Nat) (s : State) : core (scrubbed slot corrected found s) = core s := by
  unfold scrubbed
  try dsimp only
  repeat' first
    | with_reducible rfl
    | (intro _ _; try dsimp only)
    | with_reducible refine (countCe_core ..).trans ?_
    | with_reducible refine (detectUe_core ..).trans ?_
    | with_reducible refine (setPart_core ..).trans ?_
    | (fail_if_no_progress with_reducible refine (core_mk ..).trans ?_)
    | with_reducible refine (foldl_core _ _ _ ?_).trans ?_

theorem evScrub_core (slot corrected : Nat) (found : List Nat) (s : State) : core (evScrub slot corrected found s) = core s := by
  unfold evScrub
  try dsimp only
  repeat' first
    | with_reducible rfl
    | with_reducible refine (scrubbed_core ..).trans ?_
    | with_reducible refine (countWait_core ..).trans ?_
    | with_reducible refine (countStart_core ..).trans ?_
    | with_reducible refine (setMaint_core ..).trans ?_
    | with_reducible refine (countStore_core ..).trans ?_
    | (fail_if_no_progress with_reducible refine (core_mk ..).trans ?_)
    | with_reducible refine (foldl_core _ _ _ ?_).trans ?_
    | split

theorem startMeasure_core (c : Cmd) (e : Nat) (from_ : Option Nat) (s : State) : core (startMeasure c e from_ s) = core s := by
  unfold startMeasure
  try dsimp only
  repeat' first
    | with_reducible rfl
    | with_reducible refine (countStart_core ..).trans ?_
    | with_reducible refine (setMaint_core ..).trans ?_

theorem measureEntry_core (c : Cmd) (taken : List Int) (ch k : Nat) (valid : Bool) (y r : SDyad × SDyad) (s : State) : core (measureEntry c taken ch k valid y r s).2 = core s := by
  unfold measureEntry
  try dsimp only
  repeat' first
    | with_reducible rfl
    | with_reducible refine (takeFree_core ..).trans ?_
    | (fail_if_no_progress with_reducible refine (core_mk ..).trans ?_)
    | with_reducible refine (foldl_core _ _ _ ?_).trans ?_
    | split

theorem measureBlock_core (c : Cmd) (taken : List Int) (e ch : Nat) (s : State) : core (measureBlock c taken e ch s).2 = core s := by
  unfold measureBlock
  try dsimp only
  repeat' first
    | with_reducible rfl
    | (intro _ _; try dsimp only)
    | with_reducible refine (measureEntry_core ..).trans ?_
    | with_reducible refine (foldl_core_snd _ _ _ ?_).trans ?_

theorem setDisp_core (f : DispUnit → DispUnit) (s : State) : core (setDisp f s) = core s := core_mk ..

theorem genLine_core (s : State) : core (genLine s).2 = core s := by
  unfold genLine
  try dsimp only
  repeat' first
    | with_reducible rfl
    | with_reducible refine (takeFree_core ..).trans ?_
    | (fail_if_no_progress with_reducible refine (core_mk ..).trans ?_)
    | with_reducible refine (foldl_core _ _ _ ?_).trans ?_
    | split

theorem compose_core (n : Nat) (s : State) : core (compose n s) = core s := by
  unfold compose
  try dsimp only
  repeat' first
    | with_reducible rfl
    | with_reducible refine (setDisp_core ..).trans ?_

theorem trimRefs_core (s : State) : core (trimRefs s) = core s := by
  unfold trimRefs
  try dsimp only
  repeat' first
    | with_reducible rfl
    | with_reducible refine (setDisp_core ..).trans ?_

theorem calibrateSkew_core (s : State) : core (calibrateSkew s) = core s := by
  unfold calibrateSkew
  try dsimp only
  repeat' first
    | with_reducible rfl
    | with_reducible refine (emit_core ..).trans ?_
    | (fail_if_no_progress with_reducible refine (core_mk ..).trans ?_)
    | with_reducible refine (foldl_core _ _ _ ?_).trans ?_
    | split

theorem beginPeriod_core (k : Nat) (abandoned reset : Bool) (s : State) : core (beginPeriod k abandoned reset s) = core s := by
  unfold beginPeriod
  try dsimp only
  repeat' first
    | with_reducible rfl
    | with_reducible refine (calibrateSkew_core ..).trans ?_
    | with_reducible refine (setDisp_core ..).trans ?_
    | with_reducible refine (notify_core ..).trans ?_
    | with_reducible refine (emit_core ..).trans ?_
    | (fail_if_no_progress with_reducible refine (core_mk ..).trans ?_)
    | with_reducible refine (foldl_core _ _ _ ?_).trans ?_
    | split

theorem linkResetNow_core (x : DispCrc) (s : State) : core (linkResetNow x s) = core s := by
  unfold linkResetNow
  try dsimp only
  repeat' first
    | with_reducible rfl
    | with_reducible refine (setDisp_core ..).trans ?_
    | with_reducible refine (bbWrite_core ..).trans ?_
    | with_reducible refine (notify_core ..).trans ?_

theorem evDispLatchLine_core (s : State) : core (evDispLatchLine s) = core s := by
  unfold evDispLatchLine
  try dsimp only
  repeat' first
    | with_reducible rfl
    | with_reducible refine (setDisp_core ..).trans ?_
    | (fail_if_no_progress with_reducible refine (core_mk ..).trans ?_)
    | with_reducible refine (foldl_core _ _ _ ?_).trans ?_
    | split

theorem evScanoutEnd_core (k : Nat) (readback : Word) (errors : List MemError) (s : State) : core (evScanoutEnd k readback errors s) = core s := by
  unfold evScanoutEnd
  try dsimp only
  repeat' first
    | with_reducible rfl
    | with_reducible refine (setDisp_core ..).trans ?_
    | with_reducible refine (bringErrors_core ..).trans ?_
    | with_reducible refine (notify_core ..).trans ?_
    | with_reducible refine (emit_core ..).trans ?_
    | (fail_if_no_progress with_reducible refine (core_mk ..).trans ?_)
    | with_reducible refine (foldl_core _ _ _ ?_).trans ?_
    | split

theorem evTeEdge_core (k ns : Nat) (s : State) : core (evTeEdge k ns s) = core s := by
  unfold evTeEdge
  try dsimp only
  repeat' first
    | with_reducible rfl
    | with_reducible refine (setDisp_core ..).trans ?_
    | with_reducible refine (notify_core ..).trans ?_
    | (fail_if_no_progress with_reducible refine (core_mk ..).trans ?_)
    | with_reducible refine (foldl_core _ _ _ ?_).trans ?_
    | split

theorem evTeLostTimeout_core (k : Nat) (s : State) : core (evTeLostTimeout k s) = core s := by
  unfold evTeLostTimeout
  try dsimp only
  repeat' first
    | with_reducible rfl
    | with_reducible refine (setDisp_core ..).trans ?_
    | with_reducible refine (notify_core ..).trans ?_
    | (fail_if_no_progress with_reducible refine (core_mk ..).trans ?_)
    | with_reducible refine (foldl_core _ _ _ ?_).trans ?_
    | split

theorem evSpectrumDone_core (e : Nat) (volts : List Volts) (linesLost : List Nat) (thDrop : Bool) (errors : List MemError) (s0 : State) : core (evSpectrumDone e volts linesLost thDrop errors s0) = core s0 := by
  unfold evSpectrumDone
  try dsimp only
  repeat' first
    | with_reducible rfl
    | with_reducible refine (completeSpectrum_core ..).trans ?_
    | with_reducible refine (bringVolts_core ..).trans ?_
    | with_reducible refine (bringErrors_core ..).trans ?_
    | (fail_if_no_progress with_reducible refine (core_mk ..).trans ?_)
    | with_reducible refine (foldl_core _ _ _ ?_).trans ?_
    | split

theorem setPool_core (f : Pool → Pool) (s : State) : core (setPool f s) = core s := core_mk ..

theorem addRole_core (slot au : Nat) (s : State) : core (addRole slot au s) = core s := by
  unfold addRole
  try dsimp only
  repeat' first
    | with_reducible rfl
    | with_reducible refine (setPool_core ..).trans ?_
    | (fail_if_no_progress with_reducible refine (core_mk ..).trans ?_)
    | with_reducible refine (foldl_core _ _ _ ?_).trans ?_
    | split

theorem dropPart_core (slot : Nat) (s : State) : core (dropPart slot s) = core s := by
  unfold dropPart
  try dsimp only
  repeat' first
    | with_reducible rfl
    | with_reducible refine (setPool_core ..).trans ?_

theorem releasePart_core (p : Partition) (s : State) : core (releasePart p s) = core s := by
  unfold releasePart
  try dsimp only
  repeat' first
    | with_reducible rfl
    | with_reducible refine (dropPart_core ..).trans ?_
    | with_reducible refine (addRole_core ..).trans ?_
    | (fail_if_no_progress with_reducible refine (core_mk ..).trans ?_)
    | with_reducible refine (foldl_core _ _ _ ?_).trans ?_
    | split

theorem startTransfer_core (write : Bool) (c : Cmd) (s : State) : core (startTransfer write c s).1 = core s := by
  unfold startTransfer
  try dsimp only
  repeat' first
    | with_reducible rfl
    | with_reducible refine (setPool_core ..).trans ?_

theorem usedFree_core (n : Nat) (s : State) : core (usedFree n s) = core s := core_mk ..

theorem setEq_core (c : Nat) (f : Equaliser → Equaliser) (s : State) : core (setEq c f s) = core s := core_mk ..

theorem settleWide_core (stop next : Nat) (s : State) : core (settleWide stop next s) = core s := core_mk ..

theorem evEqHeldStart_core (c : Nat) (s : State) : core (evEqHeldStart c s) = core s := by
  unfold evEqHeldStart
  try dsimp only
  repeat' first
    | with_reducible rfl
    | with_reducible refine (setEq_core ..).trans ?_

theorem startTuner_core (t e : Nat) (s : State) : core (startTuner t e s) = core s := by
  unfold startTuner
  try dsimp only
  repeat' first
    | with_reducible rfl
    | with_reducible refine (changeTuner_core ..).trans ?_

theorem configTuner_core (snap : Bool) (decim d gain e t : Nat) (s : State) : core (configTuner snap decim d gain e t s) = core s := by
  unfold configTuner
  try dsimp only
  repeat' first
    | with_reducible rfl
    | with_reducible refine (changeTuner_core ..).trans ?_
    | with_reducible refine (setTuner_core ..).trans ?_
    | (fail_if_no_progress with_reducible refine (core_mk ..).trans ?_)
    | with_reducible refine (foldl_core _ _ _ ?_).trans ?_
    | split

theorem markRetune_core (t e : Nat) (s : State) : core (markRetune t e s) = core s := by
  unfold markRetune
  try dsimp only
  repeat' first
    | with_reducible rfl
    | with_reducible refine (intAct_core ..).trans ?_
    | (fail_if_no_progress with_reducible refine (core_mk ..).trans ?_)
    | with_reducible refine (foldl_core _ _ _ ?_).trans ?_
    | split

theorem startProducts_core (e : Nat) (keep : Bool) (s : State) : core (startProducts e keep s) = core s := by
  unfold startProducts
  try dsimp only
  repeat' first
    | with_reducible rfl
    | (intro _ _; try dsimp only)
    | with_reducible refine (startTuner_core ..).trans ?_
    | with_reducible refine (startGrid_core ..).trans ?_
    | with_reducible refine (startDensity_core ..).trans ?_
    | with_reducible refine (restartSlots_core ..).trans ?_
    | with_reducible refine (startRun_core ..).trans ?_
    | with_reducible refine (startStreams_core ..).trans ?_
    | (fail_if_no_progress with_reducible refine (core_mk ..).trans ?_)
    | with_reducible refine (foldl_core _ _ _ ?_).trans ?_
    | split

theorem stepInt_core (u : Nat) (g : Option IntGap) (s : State) : core (stepInt u g s) = core s := by
  unfold stepInt
  try dsimp only
  repeat' first
    | with_reducible rfl
    | with_reducible refine (intUpTo_core ..).trans ?_
    | with_reducible refine (stopInt_core ..).trans ?_
    | with_reducible refine (setInt_core ..).trans ?_

theorem markGap_core (u stop : Nat) (s : State) : core (markGap u stop s) = core s := by
  unfold markGap
  try dsimp only
  repeat' first
    | with_reducible rfl
    | with_reducible refine (settleWide_core ..).trans ?_
    | with_reducible refine (settleConv_core ..).trans ?_
    | (fail_if_no_progress with_reducible refine (core_mk ..).trans ?_)

theorem settleOld_core (s : State) : core (settleOld s) = core s := by
  unfold settleOld
  try dsimp only
  repeat' first
    | with_reducible rfl
    | (intro _ _; try dsimp only)
    | with_reducible refine (settlePieces_core ..).trans ?_
    | with_reducible refine (completeAll_core ..).trans ?_
    | (fail_if_no_progress with_reducible refine (core_mk ..).trans ?_)
    | with_reducible refine (foldl_core _ _ _ ?_).trans ?_

theorem gapStart_core (v : Nat) (s : State) : core (gapStart v s) = core s := by
  unfold gapStart
  try dsimp only
  repeat' first
    | with_reducible rfl
    | with_reducible refine (startProducts_core ..).trans ?_
    | with_reducible refine (relockTdc_core ..).trans ?_
    | with_reducible refine (dwellDue_core ..).trans ?_
    | with_reducible refine (setMaint_core ..).trans ?_
    | with_reducible refine (startInt_core ..).trans ?_
    | with_reducible refine (setInt_core ..).trans ?_
    | (fail_if_no_progress with_reducible refine (core_mk ..).trans ?_)
    | with_reducible refine (foldl_core _ _ _ ?_).trans ?_
    | split

theorem reportUnlock_core (u cause : Nat) (s : State) : core (reportUnlock u cause s) = core s := by
  unfold reportUnlock
  try dsimp only
  repeat' first
    | with_reducible rfl
    | with_reducible refine (bbWrite_core ..).trans ?_
    | with_reducible refine (notify_core ..).trans ?_

theorem reportRelock_core (v : Nat) (s : State) : core (reportRelock v s) = core s := by
  unfold reportRelock
  try dsimp only
  repeat' first
    | with_reducible rfl
    | with_reducible refine (notify_core ..).trans ?_

theorem reportStep_core (b : Nat) (adjust : Int) (s : State) : core (reportStep b adjust s) = core s := by
  unfold reportStep
  try dsimp only
  repeat' first
    | with_reducible rfl
    | with_reducible refine (bbWrite_core ..).trans ?_
    | with_reducible refine (notify_core ..).trans ?_

theorem invAtNew_core (v : Nat) (s : State) : core (invAtNew v s) = core s := core_mk ..

theorem writeQpCtrl_core (q : Nat) (v : Word) (s : State) : core (writeQpCtrl q v s) = core s := by
  unfold writeQpCtrl
  try dsimp only
  repeat' first
    | with_reducible rfl
    | (intro _ _; try dsimp only)
    | with_reducible refine (replyQp_core ..).trans ?_
    | with_reducible refine (stopQp_core ..).trans ?_
    | with_reducible refine (setQp_core ..).trans ?_
    | (fail_if_no_progress with_reducible refine (core_mk ..).trans ?_)
    | with_reducible refine (foldl_core _ _ _ ?_).trans ?_
    | split

theorem writeSqTail_core (q : Nat) (v : Word) (s : State) : core (writeSqTail q v s) = core s := by
  unfold writeSqTail
  try dsimp only
  repeat' first
    | with_reducible rfl
    | with_reducible refine (stopQp_core ..).trans ?_
    | with_reducible refine (setQp_core ..).trans ?_
    | (fail_if_no_progress with_reducible refine (core_mk ..).trans ?_)
    | with_reducible refine (foldl_core _ _ _ ?_).trans ?_
    | split

theorem writeRqHead_core (q : Nat) (v : Word) (s : State) : core (writeRqHead q v s) = core s := by
  unfold writeRqHead
  try dsimp only
  repeat' first
    | with_reducible rfl
    | with_reducible refine (stopQp_core ..).trans ?_
    | with_reducible refine (setQp_core ..).trans ?_
    | (fail_if_no_progress with_reducible refine (core_mk ..).trans ?_)
    | with_reducible refine (foldl_core _ _ _ ?_).trans ?_
    | split

theorem writeQpReg_core (q off : Nat) (v : Word) (s : State) : core (writeQpReg q off v s) = core s := by
  unfold writeQpReg
  try dsimp only
  repeat' first
    | with_reducible rfl
    | with_reducible refine (writeRqHead_core ..).trans ?_
    | with_reducible refine (writeSqTail_core ..).trans ?_
    | with_reducible refine (writeQpCtrl_core ..).trans ?_
    | with_reducible refine (setQp_core ..).trans ?_
    | (fail_if_no_progress with_reducible refine (core_mk ..).trans ?_)
    | with_reducible refine (foldl_core _ _ _ ?_).trans ?_
    | split

theorem afterRead_core (bar off : Nat) (s : State) : core (afterRead bar off s) = core s := by
  unfold afterRead
  try dsimp only
  repeat' first
    | with_reducible rfl
    | (fail_if_no_progress with_reducible refine (core_mk ..).trans ?_)
    | with_reducible refine (foldl_core _ _ _ ?_).trans ?_
    | split

theorem clearGint_core (v : Word) (s : State) : core (clearGint v s) = core s := core_mk ..

theorem writeGintEnable_core (v : Word) (s : State) : core (writeGintEnable v s) = core s := by
  unfold writeGintEnable
  try dsimp only
  repeat' first
    | with_reducible rfl
    | with_reducible refine (raiseVector_core ..).trans ?_
    | (fail_if_no_progress with_reducible refine (core_mk ..).trans ?_)
    | with_reducible refine (foldl_core _ _ _ ?_).trans ?_
    | split

theorem writeReg_core (off : Nat) (v : Word) (s : State) : core (writeReg off v s) = core s := by
  unfold writeReg
  try dsimp only
  repeat' first
    | with_reducible rfl
    | with_reducible refine (writeGintEnable_core ..).trans ?_
    | with_reducible refine (clearGint_core ..).trans ?_
    | with_reducible refine (writeQpReg_core ..).trans ?_
    | (fail_if_no_progress with_reducible refine (core_mk ..).trans ?_)
    | with_reducible refine (foldl_core _ _ _ ?_).trans ?_
    | split

theorem writeBar2_core (off : Nat) (v : Word) (s : State) : core (writeBar2 off v s) = core s := by
  unfold writeBar2
  try dsimp only
  repeat' first
    | with_reducible rfl
    | (fail_if_no_progress with_reducible refine (core_mk ..).trans ?_)
    | with_reducible refine (foldl_core _ _ _ ?_).trans ?_
    | split

theorem readWord_core (bar off : Nat) (s : State) : core (readWord bar off s).2 = core s := by
  unfold readWord
  try dsimp only
  repeat' first
    | with_reducible rfl
    | with_reducible refine (afterRead_core ..).trans ?_

theorem readAccess_core (bar size off : Nat) (s : State) : core (readAccess bar size off s).2 = core s := by
  unfold readAccess
  try dsimp only
  repeat' first
    | with_reducible rfl
    | with_reducible refine (readWord_core ..).trans ?_
    | (fail_if_no_progress with_reducible refine (core_mk ..).trans ?_)
    | with_reducible refine (foldl_core _ _ _ ?_).trans ?_
    | split

theorem writeBar_core (bar off : Nat) (v : Word) (s : State) : core (writeBar bar off v s) = core s := by
  unfold writeBar
  try dsimp only
  repeat' first
    | with_reducible rfl
    | with_reducible refine (writeBar2_core ..).trans ?_
    | with_reducible refine (writeReg_core ..).trans ?_
    | (fail_if_no_progress with_reducible refine (core_mk ..).trans ?_)
    | with_reducible refine (foldl_core _ _ _ ?_).trans ?_
    | split

theorem evRegisterWrite_core (bar size off : Nat) (value : BitVec 64) (s : State) : core (evRegisterWrite bar size off value s) = core s := by
  unfold evRegisterWrite
  try dsimp only
  repeat' first
    | with_reducible rfl
    | with_reducible refine (writeBar_core ..).trans ?_
    | (fail_if_no_progress with_reducible refine (core_mk ..).trans ?_)
    | with_reducible refine (foldl_core _ _ _ ?_).trans ?_
    | split

theorem evSqTailDoorbell_core (q : Nat) (v : Word) (s : State) : core (evSqTailDoorbell q v s) = core s := by
  unfold evSqTailDoorbell
  try dsimp only
  repeat' first
    | with_reducible rfl
    | with_reducible refine (writeSqTail_core ..).trans ?_
    | (fail_if_no_progress with_reducible refine (core_mk ..).trans ?_)
    | with_reducible refine (foldl_core _ _ _ ?_).trans ?_
    | split

theorem evRqHeadWrite_core (q : Nat) (v : Word) (s : State) : core (evRqHeadWrite q v s) = core s := by
  unfold evRqHeadWrite
  try dsimp only
  repeat' first
    | with_reducible rfl
    | with_reducible refine (writeRqHead_core ..).trans ?_
    | (fail_if_no_progress with_reducible refine (core_mk ..).trans ?_)
    | with_reducible refine (foldl_core _ _ _ ?_).trans ?_
    | split

theorem evGintStatusClear_core (v : Word) (s : State) : core (evGintStatusClear v s) = core s := by
  unfold evGintStatusClear
  try dsimp only
  repeat' first
    | with_reducible rfl
    | with_reducible refine (clearGint_core ..).trans ?_
    | (fail_if_no_progress with_reducible refine (core_mk ..).trans ?_)
    | with_reducible refine (foldl_core _ _ _ ?_).trans ?_
    | split

theorem evQpEnable_core (q : Nat) (v : Word) (s : State) : core (evQpEnable q v s) = core s := by
  unfold evQpEnable
  try dsimp only
  repeat' first
    | with_reducible rfl
    | with_reducible refine (writeQpCtrl_core ..).trans ?_
    | (fail_if_no_progress with_reducible refine (core_mk ..).trans ?_)
    | with_reducible refine (foldl_core _ _ _ ?_).trans ?_
    | split

theorem evQpDisable_core (q : Nat) (v : Word) (s : State) : core (evQpDisable q v s) = core s := by
  unfold evQpDisable
  try dsimp only
  repeat' first
    | with_reducible rfl
    | with_reducible refine (writeQpCtrl_core ..).trans ?_
    | (fail_if_no_progress with_reducible refine (core_mk ..).trans ?_)
    | with_reducible refine (foldl_core _ _ _ ?_).trans ?_
    | split

theorem evIndexLoRead_core (size off : Nat) (s : State) : core (evIndexLoRead size off s) = core s := by
  unfold evIndexLoRead
  try dsimp only
  repeat' first
    | with_reducible rfl
    | with_reducible refine (readAccess_core ..).trans ?_
    | with_reducible refine (emit_core ..).trans ?_
    | (fail_if_no_progress with_reducible refine (core_mk ..).trans ?_)
    | with_reducible refine (foldl_core _ _ _ ?_).trans ?_
    | split

theorem evCoalTimeExpiry_core (q : Nat) (s : State) : core (evCoalTimeExpiry q s) = core s := by
  unfold evCoalTimeExpiry
  try dsimp only
  repeat' first
    | with_reducible rfl
    | with_reducible refine (setQp_core ..).trans ?_
    | with_reducible refine (raiseVector_core ..).trans ?_
    | (fail_if_no_progress with_reducible refine (core_mk ..).trans ?_)
    | with_reducible refine (foldl_core _ _ _ ?_).trans ?_
    | split

theorem evNoticeDelivery_core (d : Nat) (s : State) : core (evNoticeDelivery d s) = core s := by
  have h := fun e => putNotice_core d e s
  have hd : ∀ e left, core (match putNotice d e s with
      | (a, true) => setNoticeBuf d left a
      | (a, false) => a) = core s := by
    intro e left
    have := h e
    split <;> rename_i heq <;> rw [heq] at this
    · exact (setNoticeBuf_core ..).trans this
    · exact this
  unfold evNoticeDelivery
  dsimp only
  split_ifs
  · rfl
  · exact hd _ _
  · split
    · rfl
    · exact hd _ _

theorem spiReadReply_core (cut : Bool) (s : State) : core (spiReadReply cut s) = core s := by
  unfold spiReadReply
  try dsimp only
  repeat' first
    | with_reducible rfl
    | with_reducible refine (emit_core ..).trans ?_
    | (fail_if_no_progress with_reducible refine (core_mk ..).trans ?_)
    | with_reducible refine (foldl_core _ _ _ ?_).trans ?_
    | split

theorem spiReadStatus_core (s : State) : core (spiReadStatus s) = core s := by
  unfold spiReadStatus
  try dsimp only
  repeat' first
    | with_reducible rfl
    | with_reducible refine (emit_core ..).trans ?_
    | (fail_if_no_progress with_reducible refine (core_mk ..).trans ?_)

theorem passLastSent_core (n : Nat) (s : State) : core (passLastSent n s) = core s := by
  unfold passLastSent
  try dsimp only
  repeat' first
    | with_reducible rfl
    | (intro _ _; try dsimp only)
    | with_reducible refine (setCtx_core ..).trans ?_
    | (fail_if_no_progress with_reducible refine (core_mk ..).trans ?_)
    | with_reducible refine (foldl_core _ _ _ ?_).trans ?_
    | split

theorem renumberItems_core (n first : Nat) (s : State) : core (renumberItems n first s) = core s := by
  unfold renumberItems
  try dsimp only
  repeat' first
    | with_reducible rfl
    | with_reducible refine (setCtx_core ..).trans ?_

theorem loseItemMarks_core (n : Nat) (s : State) : core (loseItemMarks n s) = core s := by
  unfold loseItemMarks
  try dsimp only
  repeat' first
    | with_reducible rfl
    | (intro _ _; try dsimp only)
    | with_reducible refine (setCtx_core ..).trans ?_
    | with_reducible refine (notify_core ..).trans ?_
    | (fail_if_no_progress with_reducible refine (core_mk ..).trans ?_)
    | with_reducible refine (foldl_core _ _ _ ?_).trans ?_
    | split

theorem announce_core (s : State) : core (announce s) = core s := by
  unfold announce
  try dsimp only
  repeat' first
    | with_reducible rfl
    | (intro _ _; try dsimp only)
    | with_reducible refine (emit_core ..).trans ?_
    | (fail_if_no_progress with_reducible refine (core_mk ..).trans ?_)
    | with_reducible refine (foldl_core _ _ _ ?_).trans ?_
    | split

theorem renumberCells_core (n : Nat) (s : State) : core (renumberCells n s) = core s := by
  unfold renumberCells
  try dsimp only
  repeat' first
    | with_reducible rfl
    | with_reducible refine (setCtx_core ..).trans ?_

theorem keepCounts_core (old s : State) : core (keepCounts old s) = core s := core_mk ..

theorem joinEngine_core (j g : Nat) (s : State) : core (joinEngine j g s) = core s := by
  unfold joinEngine
  try dsimp only
  repeat' first
    | with_reducible rfl
    | with_reducible refine (startRun_core ..).trans ?_
    | with_reducible refine (setEngine_core ..).trans ?_
    | (fail_if_no_progress with_reducible refine (core_mk ..).trans ?_)
    | with_reducible refine (foldl_core _ _ _ ?_).trans ?_
    | split

theorem joinDensity_core (j u : Nat) (s : State) : core (joinDensity j u s) = core s := by
  unfold joinDensity
  try dsimp only
  repeat' first
    | with_reducible rfl
    | with_reducible refine (setDens_core ..).trans ?_
    | (fail_if_no_progress with_reducible refine (core_mk ..).trans ?_)
    | with_reducible refine (foldl_core _ _ _ ?_).trans ?_
    | split

theorem joinUnits_core (j : Nat) (s : State) : core (joinUnits j s) = core s := by
  unfold joinUnits
  try dsimp only
  repeat' first
    | with_reducible rfl
    | (intro _ _; try dsimp only)
    | with_reducible refine (joinDensity_core ..).trans ?_
    | with_reducible refine (joinEngine_core ..).trans ?_
    | with_reducible refine (startInt_core ..).trans ?_
    | with_reducible refine (restartSlots_core ..).trans ?_
    | with_reducible refine (startRun_core ..).trans ?_
    | with_reducible refine (startStreams_core ..).trans ?_
    | (fail_if_no_progress with_reducible refine (core_mk ..).trans ?_)
    | with_reducible refine (foldl_core _ _ _ ?_).trans ?_
    | split

theorem setHub_core (f : HubUnit → HubUnit) (s : State) : core (setHub f s) = core s := core_mk ..

theorem setFw_core (f : Firmware → Firmware) (s : State) : core (setFw f s) = core s := by
  unfold setFw
  try dsimp only
  repeat' first
    | with_reducible rfl
    | with_reducible refine (setHub_core ..).trans ?_

theorem resetEntry_core (s : State) : core (resetEntry s) = core s := by
  unfold resetEntry
  try dsimp only
  repeat' first
    | with_reducible rfl
    | with_reducible refine (bbWrite_core ..).trans ?_

theorem fallbackEntry_core (failed why booted : Nat) (s : State) : core (fallbackEntry failed why booted s) = core s := by
  unfold fallbackEntry
  try dsimp only
  repeat' first
    | with_reducible rfl
    | with_reducible refine (bbWrite_core ..).trans ?_
    | (fail_if_no_progress with_reducible refine (core_mk ..).trans ?_)

theorem fitFlash_core (x : FlashImage) (s : State) : core (fitFlash x s) = core s := by
  unfold fitFlash
  try dsimp only
  repeat' first
    | with_reducible rfl
    | with_reducible refine (setFw_core ..).trans ?_

theorem clearHostRings_core (s : State) : core (clearHostRings s) = core s := by
  unfold clearHostRings
  try dsimp only
  repeat' first
    | with_reducible rfl
    | (intro _ _; try dsimp only)
    | with_reducible refine (stopCtx_core ..).trans ?_
    | with_reducible refine (setCtx_core ..).trans ?_
    | with_reducible refine (setStrm_core ..).trans ?_
    | (fail_if_no_progress with_reducible refine (core_mk ..).trans ?_)
    | with_reducible refine (foldl_core _ _ _ ?_).trans ?_
    | split

theorem evPcieLinkUp_core (msix : Bool) (dead : List (Nat × Nat)) (s : State) : core (evPcieLinkUp msix dead s) = core s := by
  unfold evPcieLinkUp
  try dsimp only
  repeat' first
    | with_reducible rfl
    | (fail_if_no_progress with_reducible refine (core_mk ..).trans ?_)
    | with_reducible refine (foldl_core _ _ _ ?_).trans ?_
    | split

theorem setCore_core (p : Nat) (f : CorePair → CorePair) (s : State) : core (setCore p f s) = core s := by
  unfold setCore
  try dsimp only
  repeat' first
    | with_reducible rfl
    | with_reducible refine (setHub_core ..).trans ?_

theorem lockstepEntry_core (p what : Nat) (s : State) : core (lockstepEntry p what s) = core s := by
  unfold lockstepEntry
  try dsimp only
  repeat' first
    | with_reducible rfl
    | with_reducible refine (bbWrite_core ..).trans ?_
    | with_reducible refine (notify_core ..).trans ?_

theorem retireCore_core (p : Nat) (s : State) : core (retireCore p s) = core s := by
  unfold retireCore
  try dsimp only
  repeat' first
    | with_reducible rfl
    | with_reducible refine (lockstepEntry_core ..).trans ?_
    | with_reducible refine (setCore_core ..).trans ?_
    | with_reducible refine (setFault_core ..).trans ?_

theorem setTile_core (t : Nat) (f : TileLink → TileLink) (s : State) : core (setTile t f s) = core s := by
  unfold setTile
  try dsimp only
  repeat' first
    | with_reducible rfl
    | with_reducible refine (setHub_core ..).trans ?_

theorem onTile_core (t : Nat) (f : Channel → Channel) (s : State) : core (onTile t f s) = core s := by
  unfold onTile
  try dsimp only
  repeat' first
    | with_reducible rfl
    | with_reducible refine (setChannel_core ..).trans ?_

theorem tileEntry_core (t attempt : Nat) (s : State) : core (tileEntry t attempt s) = core s := by
  unfold tileEntry
  try dsimp only
  repeat' first
    | with_reducible rfl
    | with_reducible refine (bbWrite_core ..).trans ?_

theorem evTileLinkSeqFail_core (t : Nat) (s : State) : core (evTileLinkSeqFail t s) = core s := by
  unfold evTileLinkSeqFail
  try dsimp only
  repeat' first
    | with_reducible rfl
    | with_reducible refine (tileEntry_core ..).trans ?_
    | with_reducible refine (onTile_core ..).trans ?_
    | with_reducible refine (setTile_core ..).trans ?_
    | (fail_if_no_progress with_reducible refine (core_mk ..).trans ?_)
    | with_reducible refine (foldl_core _ _ _ ?_).trans ?_
    | split

theorem evTileLinkRetrain_core (t : Nat) (s : State) : core (evTileLinkRetrain t s) = core s := by
  unfold evTileLinkRetrain
  try dsimp only
  repeat' first
    | with_reducible rfl
    | with_reducible refine (tileEntry_core ..).trans ?_
    | with_reducible refine (onTile_core ..).trans ?_
    | with_reducible refine (setTile_core ..).trans ?_
    | (fail_if_no_progress with_reducible refine (core_mk ..).trans ?_)
    | with_reducible refine (foldl_core _ _ _ ?_).trans ?_
    | split

theorem evTileRetrainEnd_core (t : Nat) (ok : Bool) (s : State) : core (evTileRetrainEnd t ok s) = core s := by
  unfold evTileRetrainEnd
  try dsimp only
  repeat' first
    | with_reducible rfl
    | with_reducible refine (tileEntry_core ..).trans ?_
    | with_reducible refine (onTile_core ..).trans ?_
    | with_reducible refine (setTile_core ..).trans ?_
    | with_reducible refine (setFault_core ..).trans ?_
    | (fail_if_no_progress with_reducible refine (core_mk ..).trans ?_)
    | with_reducible refine (foldl_core _ _ _ ?_).trans ?_
    | split

theorem setDbg_core (f : DebugUnit → DebugUnit) (s : State) : core (setDbg f s) = core s := core_mk ..

theorem debugEntry_core (place event : Nat) (data : List Word) (s : State) : core (debugEntry place event data s) = core s := by
  unfold debugEntry
  try dsimp only
  repeat' first
    | with_reducible rfl
    | with_reducible refine (bbWrite_core ..).trans ?_
    | with_reducible refine (notify_core ..).trans ?_

theorem evTapReset_core (s : State) : core (evTapReset s) = core s := by
  unfold evTapReset
  try dsimp only
  repeat' first
    | with_reducible rfl
    | with_reducible refine (setDbg_core ..).trans ?_

theorem freeWords_core (n : Nat) (s : State) : core (freeWords n s).2 = core s := by
  induction n generalizing s with
  | zero => rfl
  | succ n ih => exact (ih _).trans (takeFree_core s)

theorem newChallenge_core (s : State) : core (newChallenge s) = core s := by
  unfold newChallenge
  try dsimp only
  repeat' first
    | with_reducible rfl
    | with_reducible refine (freeWords_core ..).trans ?_
    | with_reducible refine (setDbg_core ..).trans ?_
    | (fail_if_no_progress with_reducible refine (core_mk ..).trans ?_)
    | with_reducible refine (foldl_core _ _ _ ?_).trans ?_
    | split

theorem evGauntletSelect_core (s : State) : core (evGauntletSelect s) = core s := by
  unfold evGauntletSelect
  try dsimp only
  repeat' first
    | with_reducible rfl
    | with_reducible refine (newChallenge_core ..).trans ?_
    | with_reducible refine (setDbg_core ..).trans ?_
    | with_reducible refine (emit_core ..).trans ?_

theorem boundaryScan_core (levels shifted : List Bool) (s : State) : core (boundaryScan levels shifted s) = core s := by
  unfold boundaryScan
  try dsimp only
  repeat' first
    | with_reducible rfl
    | with_reducible refine (setDbg_core ..).trans ?_
    | with_reducible refine (emit_core ..).trans ?_

theorem evTapInstructionLoad_core (code : Nat) (levels shifted : List Bool) (s : State) : core (evTapInstructionLoad code levels shifted s) = core s := by
  unfold evTapInstructionLoad
  try dsimp only
  repeat' first
    | with_reducible rfl
    | with_reducible refine (boundaryScan_core ..).trans ?_
    | with_reducible refine (evGauntletSelect_core ..).trans ?_
    | with_reducible refine (setDbg_core ..).trans ?_
    | with_reducible refine (emit_core ..).trans ?_
    | (fail_if_no_progress with_reducible refine (core_mk ..).trans ?_)
    | with_reducible refine (foldl_core _ _ _ ?_).trans ?_
    | split

theorem evGauntletResponse_core (r : BitVec 776) (s : State) : core (evGauntletResponse r s) = core s := by
  unfold evGauntletResponse
  try dsimp only
  repeat' first
    | with_reducible rfl
    | with_reducible refine (newChallenge_core ..).trans ?_
    | with_reducible refine (debugEntry_core ..).trans ?_
    | with_reducible refine (setDbg_core ..).trans ?_
    | (fail_if_no_progress with_reducible refine (core_mk ..).trans ?_)
    | with_reducible refine (foldl_core _ _ _ ?_).trans ?_
    | split

theorem dbgResult_core (data : Word) (addr st : Nat) (s : State) : core (dbgResult data addr st s) = core s := by
  unfold dbgResult
  try dsimp only
  repeat' first
    | with_reducible rfl
    | with_reducible refine (setDbg_core ..).trans ?_
    | with_reducible refine (emit_core ..).trans ?_

theorem poolWriteWord_core (p : Partition) (o : Nat) (v : Word) (s : State) : core (poolWriteWord p o v s) = core s := by
  unfold poolWriteWord
  try dsimp only
  repeat' first
    | with_reducible rfl
    | with_reducible refine (poolWrite_core ..).trans ?_

theorem readCoreReg_core (p off : Nat) (s : State) : core (readCoreReg p off s).2 = core s := by
  unfold readCoreReg
  try dsimp only
  repeat' first
    | with_reducible rfl
    | with_reducible refine (takeFree_core ..).trans ?_
    | (fail_if_no_progress with_reducible refine (core_mk ..).trans ?_)
    | with_reducible refine (foldl_core _ _ _ ?_).trans ?_
    | split

theorem freeRegs_core (p : Nat) (pc : Option Word) (s : State) : core (freeRegs p pc s) = core s := by
  unfold freeRegs
  try dsimp only
  repeat' first
    | with_reducible rfl
    | with_reducible refine (freeWords_core ..).trans ?_
    | with_reducible refine (setCore_core ..).trans ?_
    | with_reducible refine (takeFree_core ..).trans ?_
    | (fail_if_no_progress with_reducible refine (core_mk ..).trans ?_)
    | with_reducible refine (foldl_core _ _ _ ?_).trans ?_
    | split

theorem debugStep_core (p : Nat) (s : State) : core (debugStep p s) = core s := by
  unfold debugStep
  try dsimp only
  repeat' first
    | with_reducible rfl
    | with_reducible refine (freeRegs_core ..).trans ?_
    | with_reducible refine (setCore_core ..).trans ?_
    | (fail_if_no_progress with_reducible refine (core_mk ..).trans ?_)
    | with_reducible refine (foldl_core _ _ _ ?_).trans ?_
    | split

theorem dbgFetch_core (space addr : Nat) (s : State) : core (dbgFetch space addr s).2.2 = core s := by
  unfold dbgFetch
  try dsimp only
  repeat' first
    | with_reducible rfl
    | with_reducible refine (readCoreReg_core ..).trans ?_
    | with_reducible refine (afterRead_core ..).trans ?_
    | with_reducible refine (takeFree_core ..).trans ?_
    | (fail_if_no_progress with_reducible refine (core_mk ..).trans ?_)
    | with_reducible refine (foldl_core _ _ _ ?_).trans ?_
    | split

theorem evDbgRead_core (space addr : Nat) (errors : List MemError) (s : State) : core (evDbgRead space addr errors s) = core s := by
  unfold evDbgRead
  try dsimp only
  repeat' first
    | with_reducible rfl
    | with_reducible refine (dbgFetch_core ..).trans ?_
    | with_reducible refine (dbgResult_core ..).trans ?_
    | with_reducible refine (bringErrors_core ..).trans ?_
    | (fail_if_no_progress with_reducible refine (core_mk ..).trans ?_)
    | with_reducible refine (foldl_core _ _ _ ?_).trans ?_
    | split

theorem countWrite_core (s : State) : core (countWrite s) = core s := by
  unfold countWrite
  try dsimp only
  repeat' first
    | with_reducible rfl
    | with_reducible refine (debugEntry_core ..).trans ?_
    | with_reducible refine (setDbg_core ..).trans ?_
    | (fail_if_no_progress with_reducible refine (core_mk ..).trans ?_)
    | with_reducible refine (foldl_core _ _ _ ?_).trans ?_
    | split

theorem evDbgCtrlLock_core (s : State) : core (evDbgCtrlLock s) = core s := by
  unfold evDbgCtrlLock
  try dsimp only
  repeat' first
    | with_reducible rfl
    | with_reducible refine (dbgResult_core ..).trans ?_
    | with_reducible refine (debugEntry_core ..).trans ?_
    | with_reducible refine (setDbg_core ..).trans ?_
    | (fail_if_no_progress with_reducible refine (core_mk ..).trans ?_)
    | with_reducible refine (foldl_core _ _ _ ?_).trans ?_
    | split

theorem pairNotice_core (old s : State) : core (pairNotice old s) = core s := by
  unfold pairNotice
  try dsimp only
  repeat' first
    | with_reducible rfl
    | with_reducible refine (notify_core ..).trans ?_
    | (fail_if_no_progress with_reducible refine (core_mk ..).trans ?_)
    | with_reducible refine (foldl_core _ _ _ ?_).trans ?_
    | split

end Sys2Proof.Machine
end

