-- ==== Sys2Proof/Laws/Rows.lean ====
section
/-! SUPPORT. What a row does around its own effect: nothing, when no other command waits. -/

namespace Sys2Proof.Machine

/-! ### Parts of the core -/

theorem core_cmds {s t : State} (h : core t = core s) : t.cmds = s.cmds := congrArg (fun x => x.2.1) h

theorem core_pair {s t : State} (h : core t = core s) : t.pair = s.pair := congrArg (fun x => x.2.2.1) h

theorem core_time {s t : State} (h : core t = core s) : t.time = s.time := congrArg (fun x => x.2.2.2.1) h

theorem core_mode {s t : State} (h : core t = core s) : t.mode = s.mode := congrArg (fun x => x.2.2.2.2.1) h

theorem core_index {s t : State} (h : core t = core s) : t.index = s.index := congrArg (fun x => x.2.2.2.2.2.2.1) h

theorem core_pending {s t : State} (h : core t = core s) : t.pending = s.pending := congrArg (fun x => x.1) h

theorem core_locked {s t : State} (h : core t = core s) : locked t = locked s := by simp [locked, core_time h]

/-! ### Actions whose notices wait -/

/-- The state in which an action runs whose notices wait for its replies (R63). -/
def opened (s : State) : State := { s with aside := some (s.aside.getD []) }

theorem opened_core (s : State) : core (opened s) = core s := core_mk ..

theorem opened_opened (s : State) : opened (opened s) = opened s := rfl

/-- Which notices wait is no matter of the core: what follows an action sends them. -/
theorem repliesFirst_opened (f : State → State) (s : State) : core (repliesFirst f s) = core (f (opened s)) := by
  unfold repliesFirst
  split
  · next l h => rw [show opened s = s by unfold opened; rw [h, Option.getD_some, ← h]]
  · next h => rw [show opened s = { s with aside := some [] } by unfold opened; rw [h, Option.getD_none]]; exact sendAside_core _

theorem repliesFirst_congr {f g : State → State} {s : State} (h : f (opened s) = g (opened s)) : repliesFirst f s = repliesFirst g s := by
  unfold repliesFirst
  split
  · next l hl => rw [show opened s = s by unfold opened; rw [hl, Option.getD_some, ← hl]] at h; exact h
  · next hl => rw [show opened s = { s with aside := some [] } by unfold opened; rw [hl, Option.getD_none]] at h; rw [h]

/-- Within an action the notices of another wait with its own. -/
theorem repliesFirst_nested (f : State → State) (s : State) : repliesFirst f (opened s) = f (opened s) := rfl

/-- An action that has nothing to do with notices. -/
theorem repliesFirst_plain {f : State → State} {s : State} (h : ∀ l, f { s with aside := l } = { f s with aside := l }) : repliesFirst f s = f s := by
  unfold repliesFirst
  split
  · rfl
  · next hs =>
    have e : f s = { f s with aside := none } := by
      have e1 := h none
      rwa [show { s with aside := none } = s by rw [← hs]] at e1
    rw [h]
    exact e.symm

/-! ### Nothing to follow -/

/-- No command of a list waits. -/
def noneWaits (l : List Cmd) : Bool := l.all fun c => c.phase != .waiting

theorem noneWaits_filter {l : List Cmd} (p : Cmd → Bool) (h : noneWaits l = true) : noneWaits (l.filter p) = true := by
  simp only [noneWaits, List.all_eq_true, List.mem_filter] at h ⊢
  exact fun c hc => h c hc.1

theorem pump_none {u : State} (h : noneWaits u.cmds = true) (n : Nat) : pump n u = u := by
  have hf : u.cmds.filter (startable u) = [] := by
    rw [List.filter_eq_nil_iff]
    intro c hc
    have hw := (List.all_eq_true.mp h) c hc
    simp only [startable]
    simp_all
  cases n with
  | zero => rfl
  | succ n =>
    simp only [pump]
    split
    · rfl
    · simp [nextCommand, hf, eldest]

theorem compareAll_none {u : State} (h : u.pair.forwarded = []) : compareAll u = u := by simp [compareAll, h]

theorem yieldFaults_alone {old u : State} (h : hasMirror u = false) : yieldFaults old u = u := by
  simp [yieldFaults, yieldClass, h]

theorem pairNotice_same {old u : State} (h : pairWord old = pairWord u) : pairNotice old u = u := by simp [pairNotice, h]

/-- Nothing follows an effect that leaves no command to start, no status to compare, and the pair as it was. -/
theorem finish_quiet {old u : State} (hm : hasMirror u = false) (hc : noneWaits u.cmds = true) (hf : u.pair.forwarded = [])
    (hw : pairWord old = pairWord u) : finish old u = u := by
  simp only [finish, yieldFaults_alone hm, pump_none hc, compareAll_none hf, pairNotice_same hw]

theorem pairWord_congr {s t : State} (hp : t.pair = s.pair) (hl : locked t = locked s) : pairWord s = pairWord t := by
  simp [pairWord, conditionNow, hp, hl]

theorem hasMirror_congr {s t : State} (hp : t.pair = s.pair) : hasMirror t = hasMirror s := by simp [hasMirror, hp]

theorem pairWord_forwarded {s t : State} (g : List ForwardRecord) (hp : t.pair = { s.pair with forwarded := g }) (hl : locked t = locked s) :
    pairWord s = pairWord t := by
  simp [pairWord, conditionNow, hp, hl]

/-- An event after which no command waits, and the pair and the lock are as they were. -/
theorem event_quiet {f : State → State} {k : Nat} {s : State} (hq : s.quiet = true) (hm : hasMirror s = false)
    (hc : noneWaits (f (opened (passTo k s))).cmds = true) (hp : (f (opened (passTo k s))).pair = s.pair)
    (hl : locked (f (opened (passTo k s))) = locked s) : runEvent f k s = .next (repliesFirst f (passTo k s)) := by
  have h := repliesFirst_opened f (passTo k s)
  have hp' : (repliesFirst f (passTo k s)).pair = s.pair := (core_pair h).trans hp
  have hf : s.pair.forwarded = [] := by
    have := (Bool.and_eq_true _ _).mp hq
    simpa using this.2
  rw [runEvent, finish_quiet ((hasMirror_congr hp').trans hm) (by rw [core_cmds h]; exact hc) (hp' ▸ hf) (pairWord_congr hp' ((core_locked h).trans hl))]

theorem quiet_noneWaits {s : State} (h : s.quiet = true) : noneWaits s.cmds = true := ((Bool.and_eq_true _ _).mp h).1

theorem quiet_forwarded {s : State} (h : s.quiet = true) : s.pair.forwarded = [] := by
  simpa using ((Bool.and_eq_true _ _).mp h).2

/-! ### A command that is served at once -/

/-- What `heard` says, part by part. -/
structure Heard (sp : CmdSpec) (k : Nat) (p : Packet) (s : State) : Prop where
  quiet : s.quiet = true
  alone : hasMirror s = false
  opcode : opcodeOf p = sp.opcode
  source : takesFrom p.src (passTo k s) = true
  firmware : s.hub.fw.recovery = false
  free : startable (rowState k p s) (rowCmd k p s) = true

theorem heard_iff {sp : CmdSpec} {k : Nat} {p : Packet} {s : State} : heard sp k p s = true ↔ Heard sp k p s := by
  simp only [heard, Bool.and_eq_true, Bool.not_eq_true', beq_iff_eq]
  exact ⟨fun h => ⟨h.1.1.1.1.1, h.1.1.1.1.2, h.1.1.1.2, h.1.1.2, h.1.2, h.2⟩,
    fun h => ⟨⟨⟨⟨⟨h.quiet, h.alone⟩, h.opcode⟩, h.source⟩, h.firmware⟩, h.free⟩⟩

theorem accepted_iff {sp : CmdSpec} {k : Nat} {p : Packet} {s : State} :
    accepted sp k p s = true ↔ Heard sp k p s ∧ checkCmd sp (rowCmd k p s) (rowState k p s) = none := by
  simp only [accepted, Bool.and_eq_true, heard_iff, beq_iff_eq]

theorem rowState_eq (k : Nat) (p : Packet) (s : State) : submitCmd p (passTo k s) = rowState k p s := by
  simp [submitCmd, rowState, rowCmd]

@[simp] theorem rowState_pair (k : Nat) (p : Packet) (s : State) : (rowState k p s).pair = s.pair := by simp [rowState]

@[simp] theorem rowState_time (k : Nat) (p : Packet) (s : State) : (rowState k p s).time = s.time := by simp [rowState]

@[simp] theorem rowState_cmds (k : Nat) (p : Packet) (s : State) : (rowState k p s).cmds = s.cmds ++ [rowCmd k p s] := by simp [rowState]

@[simp] theorem rowState_hub (k : Nat) (p : Packet) (s : State) : (rowState k p s).hub = s.hub := by simp [rowState]

theorem rowState_locked (k : Nat) (p : Packet) (s : State) : locked (rowState k p s) = locked s := by simp [locked]

theorem rowCmd_arrival (k : Nat) (p : Packet) (s : State) : (rowCmd k p s).arrival = (rowState k p s).index := rfl

/-- The command that is served is the next to start: no other waits. -/
theorem nextCommand_row {sp : CmdSpec} {k : Nat} {p : Packet} {s : State} (h : Heard sp k p s) :
    nextCommand (rowState k p s) = some (rowCmd k p s) := by
  have hf : (rowState k p s).cmds.filter (startable (rowState k p s)) = [rowCmd k p s] := by
    have h0 : s.cmds.filter (startable (rowState k p s)) = [] := by
      rw [List.filter_eq_nil_iff]
      intro c hc
      have hw := (List.all_eq_true.mp (quiet_noneWaits h.quiet)) c hc
      simp only [startable]
      simp_all
    rw [rowState_cmds, List.filter_append, h0, List.filter_cons, if_pos h.free]
    rfl
  unfold nextCommand
  rw [hf]
  by_cases hu : (rowCmd k p s).urgent = true <;> simp [hu, eldest]

theorem Heard.serves {sp : CmdSpec} {k : Nat} {p : Packet} {s : State} (h : Heard sp k p s) : serves (rowState k p s) = true := by
  have h1 := h.source
  simp only [takesFrom, Bool.and_eq_true] at h1
  have h2 := h1.1.1
  simpa [Machine.serves, coresRun, rowState] using h2

theorem Heard.local {sp : CmdSpec} {k : Nat} {p : Packet} {s : State} (h : Heard sp k p s) : (rowCmd k p s).src ≠ .pairLink := by
  have h1 := h.source
  simp only [takesFrom, Bool.and_eq_true, bne_iff_ne] at h1
  exact h1.1.2

/-- A row of the command kind starts its command, and nothing follows when none waits then. -/
theorem row_starts {sp : CmdSpec} {k : Nat} {p : Packet} {s : State} (h : Heard sp k p s) (hsp : specOf sp.opcode = some sp)
    (hc : noneWaits (startCmd sp (rowCmd k p s) (rowState k p s)).cmds = true)
    (hf : (startCmd sp (rowCmd k p s) (rowState k p s)).pair.forwarded = [])
    (hw : pairWord s = pairWord (startCmd sp (rowCmd k p s) (rowState k p s))) :
    runRow sp k p s = .next (startCmd sp (rowCmd k p s) (rowState k p s)) := by
  have hs : startAny (rowCmd k p s) (rowState k p s) = startCmd sp (rowCmd k p s) (rowState k p s) := by
    have hr := h.firmware
    have : (rowCmd k p s).opcode = sp.opcode := h.opcode
    simp [startAny, this, hsp, hr]
  have hg : (if takesFrom p.src (passTo k s) && opcodeOf p == sp.opcode then submitCmd p (passTo k s) else passTo k s) = rowState k p s := by
    rw [h.source, h.opcode, ← rowState_eq]; simp
  have hrf : repliesFirst (fun a => if takesFrom p.src a && opcodeOf p == sp.opcode then submitCmd p a else a) (passTo k s) = rowState k p s := by
    refine (repliesFirst_plain fun l => ?_).trans hg
    show (if takesFrom p.src (passTo k s) && opcodeOf p == sp.opcode then _ else _) = _
    split_ifs <;> rfl
  unfold runRow runEvent
  rw [hrf]
  have hm0 : hasMirror (rowState k p s) = false := (hasMirror_congr (rowState_pair k p s)).trans h.alone
  have hn : (rowState k p s).cmds.length = s.cmds.length + 1 := by simp
  unfold finish
  simp only [yieldFaults_alone hm0, hn, pump, h.serves, nextCommand_row h, hs]
  simp only [Bool.not_true, Bool.false_eq_true, if_false]
  rw [pump_none hc, compareAll_none hf, pairNotice_same hw]

theorem forwardCmd_alone {sp : CmdSpec} {c : Cmd} {e : Option Nat} {s : State} (h : hasMirror s = false) : forwardCmd sp c e s = s := by
  simp [forwardCmd, forwards, h]

theorem leadNs_none {sp : CmdSpec} {c : Cmd} {s : State} (h : sp.lead c = none) : leadNs sp c s = none := by simp [leadNs, h]

/-- A completion with OK leaves the pair as it is, but for the status it keeps. -/
theorem complete_pair_ok (c : Cmd) (pl : List Word) (i : Nat) (s : State) : (complete c .ok pl i s).pair = recordOwn c.id .ok s.pair := by
  have hw : ∀ (e : Entry) (a : State), e.status = .ok → (deliverReply c e a).pair = a.pair := by
    intro e a he
    by_cases hs : c.src = .pairLink
    · have hrej : Status.ok.rejects = false := by decide
      unfold deliverReply writeReply
      split
      · split
        · rfl
        · simp [hs, he, hrej]
      · rfl
    · exact deliverReply_pair e a hs
  unfold complete
  dsimp only
  repeat' split
  all_goals first | rfl | (rw [hw _ _ rfl]; try rfl)

theorem complete_cmds (c : Cmd) (st : Status) (pl : List Word) (i : Nat) (s : State) :
    (complete c st pl i s).cmds = s.cmds.filter fun d => d.id != c.id := by rw [complete_frame]

theorem complete_time (c : Cmd) (st : Status) (pl : List Word) (i : Nat) (s : State) : (complete c st pl i s).time = s.time := by rw [complete_frame]

theorem firstReply_time (c : Cmd) (st : Status) (i : Nat) (s : State) : (firstReply c st i s).time = s.time := by rw [firstReply_frame]

theorem recordOwn_none {id : Nat} {st : Status} {p : PairUnit} (h : p.forwarded = []) : recordOwn id st p = p := by
  simp [recordOwn, h]
  rw [← h]

/-- A fate whose reply leaves the pair alone: of a local command any, of a forwarded one OK or none yet. -/
def Fate.plain (c : Cmd) (f : Fate) : Prop := c.src ≠ .pairLink ∨ f = .later ∨ f = .silent ∨ ∃ pl, f = .done .ok pl

/-- What the end of an execution leaves: the pair and the timebase of the effect, and of the commands none that waits. -/
theorem settleFate_calm {c : Cmd} {i : Nat} {u : State} {f : Fate} (hp : f.plain c) (hf : u.pair.forwarded = [])
    (hc : noneWaits (u.cmds.filter fun d => d.id != c.id) = true) :
    (settleFate c i (u, f)).pair = u.pair ∧ (settleFate c i (u, f)).time = u.time ∧ noneWaits (settleFate c i (u, f)).cmds = true := by
  have hr : ∀ st, recordOwn c.id st u.pair = u.pair := fun _ => recordOwn_none hf
  have ha : ∀ d : Cmd, d.phase = .running → noneWaits (u.cmds.filter (fun d => d.id != c.id) ++ [d]) = true := by
    intro d hd
    rw [noneWaits, List.all_append]
    rw [noneWaits] at hc
    rw [hc]
    simp [hd]
  cases f with
  | done st pl =>
    refine ⟨?_, complete_time .., by simp only [settleFate, complete_cmds]; exact hc⟩
    rcases hp with h | h | h | ⟨q, h⟩
    · exact (complete_pair _ _ _ _ h).trans (hr _)
    · cases h
    · cases h
    · cases h; exact (complete_pair_ok ..).trans (hr _)
  | doneAt st pl j =>
    rcases hp with h | h | h | ⟨q, h⟩
    · exact ⟨(complete_pair _ _ _ _ h).trans (hr _), complete_time .., by simp only [settleFate, complete_cmds]; exact hc⟩
    all_goals cases h
  | first st =>
    rcases hp with h | h | h | ⟨q, h⟩
    · exact ⟨(firstReply_pair _ _ _ h).trans (hr _), firstReply_time .., by simp only [settleFate, firstReply_cmds]; exact ha _ rfl⟩
    all_goals cases h
  | later => exact ⟨rfl, rfl, ha _ rfl⟩
  | silent => exact ⟨rfl, rfl, hc⟩

theorem noneWaits_served {k : Nat} {p : Packet} {s : State} (hq : s.quiet = true) :
    noneWaits ((rowState k p s).cmds.filter fun d => d.id != (rowCmd k p s).id) = true := by
  rw [rowState_cmds, List.filter_append]
  simp only [noneWaits, List.all_append]
  have := noneWaits_filter (fun d => d.id != (rowCmd k p s).id) (quiet_noneWaits hq)
  simp only [noneWaits] at this
  rw [this]
  simp

/-- A row whose command is accepted and runs at once: its effect and its fate are all that happens, when the effect leaves the outstanding commands,
the pair and the lock as they are. -/
theorem row_runs {sp : CmdSpec} {k : Nat} {p : Packet} {s u : State} {f : Fate} {g : State → State} (ha : accepted sp k p s = true)
    (hsp : specOf sp.opcode = some sp) (ht : (rowCmd k p s).timed = false) (hl : sp.lead (rowCmd k p s) = none)
    (hr : sp.run (rowCmd k p s) (rowState k p s).index (opened (rowState k p s)) = (u, f))
    (hg : g (opened (rowState k p s)) = settleFate (rowCmd k p s) (rowState k p s).index (u, f))
    (hc : noneWaits (u.cmds.filter fun d => d.id != (rowCmd k p s).id) = true) (hp : u.pair = s.pair) (hlk : locked u = locked s) :
    runRow sp k p s = .next (repliesFirst g (rowState k p s)) := by
  obtain ⟨h, hck⟩ := accepted_iff.mp ha
  have hm : hasMirror u = false := (hasMirror_congr hp).trans h.alone
  have e : ({ rowCmd k p s with arrival := (rowState k p s).index } : Cmd) = rowCmd k p s := rfl
  have hst : startCmd sp (rowCmd k p s) (rowState k p s) = repliesFirst g (rowState k p s) := by
    simp only [startCmd, e, hck, ht, leadNs_none hl, Bool.false_eq_true, if_false, runNow]
    refine repliesFirst_congr ?_
    have hi : (opened (rowState k p s)).index = (rowState k p s).index := rfl
    simp only [hi, hr, forwardCmd_alone hm, ite_self]
    exact hg.symm
  obtain ⟨h1, h2, h3⟩ := settleFate_calm (i := (rowState k p s).index) (f := f) (.inl h.local) (by rw [hp]; exact quiet_forwarded h.quiet) hc
  rw [← hg] at h1 h2 h3
  have hcore := repliesFirst_opened g (rowState k p s)
  rw [row_starts h hsp]
  · rw [hst]
  · rw [hst, core_cmds hcore]; exact h3
  · rw [hst, core_pair hcore, h1, hp]; exact quiet_forwarded h.quiet
  · rw [hst]
    refine pairWord_congr ((core_pair hcore).trans (h1.trans hp)) ((core_locked hcore).trans ?_)
    rw [← hlk, locked, locked, h2]

/-- A refused command has no effect but its reply (R18). -/
theorem row_refused {sp : CmdSpec} {k : Nat} {p : Packet} {s : State} {st : Status} (h : Heard sp k p s)
    (hsp : specOf sp.opcode = some sp) (hck : checkCmd sp (rowCmd k p s) (rowState k p s) = some st) :
    runRow sp k p s =
      .next (complete (rowCmd k p s) st (if st.isResource then List.replicate sp.refusedWords 0 else []) (rowState k p s).index
        (refuseEffects (rowCmd k p s) st (rowState k p s))) := by
  have e : ({ rowCmd k p s with arrival := (rowState k p s).index } : Cmd) = rowCmd k p s := rfl
  have hst : startCmd sp (rowCmd k p s) (rowState k p s) =
      complete (rowCmd k p s) st (if st.isResource then List.replicate sp.refusedWords 0 else []) (rowState k p s).index
        (refuseEffects (rowCmd k p s) st (rowState k p s)) := by
    simp only [startCmd, e, hck]
  have hre : core (refuseEffects (rowCmd k p s) st (rowState k p s)) = core (rowState k p s) := refuseEffects_core ..
  have hf : (refuseEffects (rowCmd k p s) st (rowState k p s)).pair = s.pair := (core_pair hre).trans (rowState_pair k p s)
  have hpair : (startCmd sp (rowCmd k p s) (rowState k p s)).pair = s.pair := by
    rw [hst, complete_pair _ _ _ _ h.local, recordOwn_none (by rw [hf]; exact quiet_forwarded h.quiet), hf]
  rw [row_starts h hsp]
  · rw [hst]
  · rw [hst, complete_cmds, core_cmds hre]; exact noneWaits_served h.quiet
  · rw [hpair]; exact quiet_forwarded h.quiet
  · refine pairWord_congr hpair ?_
    rw [hst, locked, complete_time, core_time hre, rowState_time]
    rfl

/-- An accepted command of the sample domain, or one with TIMED, is held for its effective index (R31, R51). -/
theorem row_held {sp : CmdSpec} {k : Nat} {p : Packet} {s : State} {e : Option Nat} (ha : accepted sp k p s = true)
    (hsp : specOf sp.opcode = some sp) (hop : sp.opcode ≠ 0x1103)
    (he : (((rowCmd k p s).timed = true ∧ e = some (atOf p)) ∨
      ∃ ns, (rowCmd k p s).timed = false ∧ sp.lead (rowCmd k p s) = some ns ∧
        e = if locked s then some (boundaryAfter (rowState k p s) ns) else none)) :
    runRow sp k p s = .next (heldState (rowCmd k p s) e (rowState k p s)) := by
  obtain ⟨h, hck⟩ := accepted_iff.mp ha
  have ea : ({ rowCmd k p s with arrival := (rowState k p s).index } : Cmd) = rowCmd k p s := rfl
  have hm : hasMirror (rowState k p s) = false := (hasMirror_congr (rowState_pair k p s)).trans h.alone
  have hopc : (rowCmd k p s).opcode = sp.opcode := h.opcode
  have hold : ∀ e', holdCmd (rowCmd k p s) e' (rowState k p s) = heldState (rowCmd k p s) e' (rowState k p s) := by
    intro e'
    cases e' <;> simp [holdCmd, heldState, hopc, hop]
  have hst : startCmd sp (rowCmd k p s) (rowState k p s) = heldState (rowCmd k p s) e (rowState k p s) := by
    rcases he with ⟨ht, rfl⟩ | ⟨ns, ht, hl, rfl⟩
    · simp only [startCmd, ea, hck, ht, forwardCmd_alone hm, if_true, hold]
      rfl
    · have hns : leadNs sp (rowCmd k p s) (rowState k p s) = some ns := by simp [leadNs, hl, hm]
      simp only [startCmd, ea, hck, ht, hns, forwardCmd_alone hm, hold, rowState_locked]
      simp
  rw [row_starts h hsp]
  · rw [hst]
  · rw [hst, heldState, noneWaits, List.all_append]
    have := noneWaits_served (k := k) (p := p) h.quiet
    rw [noneWaits] at this
    rw [this]
    rfl
  · rw [hst]; exact rowState_pair k p s ▸ quiet_forwarded h.quiet
  · rw [hst]; exact pairWord_congr (rowState_pair k p s) (rowState_locked k p s)

/-! ### A held command that takes effect -/

/-- What `due` says, part by part. -/
structure Due (sp : CmdSpec) (c : Cmd) (e : Nat) (s : State) : Prop where
  quiet : s.quiet = true
  alone : hasMirror s = false
  first : firstHeld (fireable s) = some c
  phase : c.phase = .held (some e)
  opcode : c.opcode = sp.opcode
  delivers : delivering s = true
  mode : modeOk sp c (runMode (passTo e s)) = true

theorem due_iff {sp : CmdSpec} {c : Cmd} {e : Nat} {s : State} : due sp c e s = true ↔ Due sp c e s := by
  simp only [due, Bool.and_eq_true, Bool.not_eq_true', beq_iff_eq]
  exact ⟨fun h => ⟨h.1.1.1.1.1.1, h.1.1.1.1.1.2, h.1.1.1.1.2, h.1.1.1.2, h.1.1.2, h.1.2, h.2⟩,
    fun h => ⟨⟨⟨⟨⟨⟨h.quiet, h.alone⟩, h.first⟩, h.phase⟩, h.opcode⟩, h.delivers⟩, h.mode⟩⟩

/-- The row of its kind fires the first held command. -/
theorem fire_row {sp : CmdSpec} {c : Cmd} {e : Nat} {i : Instr} {s : State} (hfst : firstHeld (fireable s) = some c) (hph : c.phase = .held (some e))
    (hop : c.opcode = sp.opcode) (hd : delivering s = true) (hsp : specOf sp.opcode = some sp) (hi : firesIt c i) :
    exec i s = runEvent (fireHeld sp c) e s := by
  have hE : c.eff = some e := by simp [Cmd.eff, hph]
  have hsa : specAny c.opcode = sp := by simp [specAny, hop, hsp]
  have key : ∀ kind : Cmd → Bool, kind c = true → fireRow kind s = runEvent (fireHeld sp c) e s := by
    intro kind hk
    simp only [fireRow, hd, if_true, hfst, hk, hE, hsa, Option.isSome_some, Option.getD_some]
    simp
  rcases hi with ⟨rfl, ht⟩ | ⟨rfl, ht, ho⟩ | ⟨rfl, ho⟩
  · exact key _ ht
  · exact key _ (by simp [ht, ho])
  · exact key _ (by simp [ho])

/-- A held command that is due takes effect in the row that fires it; its effect and its fate are all that happens, when the effect leaves the
outstanding commands, the pair and the lock as they are. -/
theorem fire_runs {sp : CmdSpec} {c : Cmd} {e : Nat} {i : Instr} {s u : State} {f : Fate} {g : State → State} (h : due sp c e s = true)
    (hsp : specOf sp.opcode = some sp) (hi : firesIt c i) (hr : sp.run c e (opened (passTo e s)) = (u, f)) (hpl : f.plain c)
    (hg : g (opened (passTo e s)) = settleFate c e (u, f))
    (hc : noneWaits (u.cmds.filter fun d => d.id != c.id) = true) (hp : u.pair = s.pair) (hlk : locked u = locked s) :
    exec i s = .next (repliesFirst g (passTo e s)) := by
  have hd := due_iff.mp h
  have hE : c.eff = some e := by simp [Cmd.eff, hd.phase]
  have hap : fireHeld sp c (opened (passTo e s)) = g (opened (passTo e s)) := by
    have hmo : modeOk sp c (runMode (opened (passTo e s))) = true := hd.mode
    simp only [fireHeld, hE, Option.getD_some, hmo, if_true, applyNow]
    rw [repliesFirst_nested, hr, hg]
  obtain ⟨h1, h2, h3⟩ := settleFate_calm (i := e) hpl (by rw [hp]; exact quiet_forwarded hd.quiet) hc
  rw [fire_row hd.first hd.phase hd.opcode hd.delivers hsp hi]
  rw [event_quiet hd.quiet hd.alone, repliesFirst_congr hap]
  · rw [hap, hg]; exact h3
  · rw [hap, hg, h1, hp]
  · rw [hap, hg, ← hlk, locked, locked, h2]

end Sys2Proof.Machine
end

