-- ==== Sys2Proof/Laws/Effects.lean ====
section
/-! SUPPORT. From the execution of an opcode to its row, for an effect that keeps to its units: it leaves the core of the state (the queue, the
outstanding commands, the pair, the timebase, the mode) as it is. What an opcode does is said of the state in which its notices wait (`opened`). -/

namespace Sys2Proof.Machine

/-- The commands that stay outstanding once the command of a row is out. -/
theorem row_rest {k : Nat} {p : Packet} {s u : State} (hq : s.quiet = true) (hu : u.cmds = (rowState k p s).cmds) :
    noneWaits (u.cmds.filter fun d => d.id != (rowCmd k p s).id) = true := by
  rw [hu]
  exact noneWaits_served hq

/-- A row whose command runs at once, with an effect that leaves the outstanding commands, the pair and the lock. -/
theorem row_plain {sp : CmdSpec} {k : Nat} {p : Packet} {s u : State} {f : Fate} {g : State → State} (ha : accepted sp k p s = true)
    (hsp : specOf sp.opcode = some sp) (ht : (rowCmd k p s).timed = false) (hl : sp.lead (rowCmd k p s) = none)
    (hr : sp.run (rowCmd k p s) (rowState k p s).index (opened (rowState k p s)) = (u, f))
    (hg : g (opened (rowState k p s)) = settleFate (rowCmd k p s) (rowState k p s).index (u, f))
    (hc : u.cmds = (rowState k p s).cmds) (hp : u.pair = (rowState k p s).pair) (hlk : locked u = locked (rowState k p s)) :
    runRow sp k p s = .next (repliesFirst g (rowState k p s)) :=
  row_runs ha hsp ht hl hr hg (row_rest (accepted_iff.mp ha).1.quiet hc) (hp.trans (rowState_pair ..)) (hlk.trans (rowState_locked ..))

theorem answers_of {row : Nat → Packet → Instr} {sp : CmdSpec} {st : Status} {pre : Cmd → State → Prop} {effect : Cmd → State → State}
    {words : Cmd → State → List Word}
    (hrow : ∀ k p s, exec (row k p) s = runRow sp k p s) (hsp : specOf sp.opcode = some sp) (hl : ∀ c, sp.lead c = none)
    (hr : ∀ c s, c.timed = false → checkCmd sp c s = none → pre c s →
      sp.run c s.index (opened s) = (effect c (opened s), .done st (words c (opened s))))
    (hc : ∀ c s, pre c s → (effect c (opened s)).cmds = s.cmds) (hp : ∀ c s, pre c s → (effect c (opened s)).pair = s.pair)
    (ht : ∀ c s, pre c s → locked (effect c (opened s)) = locked s) : Answers row sp st pre effect words := by
  intro k p s ha hti hpre
  rw [hrow]
  exact row_plain ha hsp hti (hl _) (hr _ _ hti (accepted_iff.mp ha).2 hpre) rfl (hc _ _ hpre) (hp _ _ hpre) (ht _ _ hpre)

theorem does_of {row : Nat → Packet → Instr} {sp : CmdSpec} {pre : Cmd → State → Prop} {effect : Cmd → State → State} {words : Cmd → State → List Word}
    (hrow : ∀ k p s, exec (row k p) s = runRow sp k p s) (hsp : specOf sp.opcode = some sp) (hl : ∀ c, sp.lead c = none)
    (hr : ∀ c s, c.timed = false → checkCmd sp c s = none → pre c s →
      sp.run c s.index (opened s) = (effect c (opened s), .done .ok (words c (opened s))))
    (hc : ∀ c s, pre c s → (effect c (opened s)).cmds = s.cmds) (hp : ∀ c s, pre c s → (effect c (opened s)).pair = s.pair)
    (ht : ∀ c s, pre c s → locked (effect c (opened s)) = locked s) : Does row sp pre effect words :=
  answers_of hrow hsp hl hr hc hp ht

theorem answers_core {row : Nat → Packet → Instr} {sp : CmdSpec} {st : Status} {pre : Cmd → State → Prop} {effect : Cmd → State → State}
    {words : Cmd → State → List Word} (hrow : ∀ k p s, exec (row k p) s = runRow sp k p s) (hsp : specOf sp.opcode = some sp)
    (hl : ∀ c, sp.lead c = none)
    (hr : ∀ c s, c.timed = false → checkCmd sp c s = none → pre c s →
      sp.run c s.index (opened s) = (effect c (opened s), .done st (words c (opened s))))
    (hc : ∀ c s, core (effect c s) = core s) : Answers row sp st pre effect words :=
  have h : ∀ c s, core (effect c (opened s)) = core s := fun c s => (hc c _).trans (opened_core s)
  answers_of hrow hsp hl hr (fun _ _ _ => core_cmds (h _ _)) (fun _ _ _ => core_pair (h _ _)) (fun _ _ _ => core_locked (h _ _))

theorem does_core {row : Nat → Packet → Instr} {sp : CmdSpec} {pre : Cmd → State → Prop} {effect : Cmd → State → State} {words : Cmd → State → List Word}
    (hrow : ∀ k p s, exec (row k p) s = runRow sp k p s) (hsp : specOf sp.opcode = some sp) (hl : ∀ c, sp.lead c = none)
    (hr : ∀ c s, c.timed = false → checkCmd sp c s = none → pre c s →
      sp.run c s.index (opened s) = (effect c (opened s), .done .ok (words c (opened s))))
    (hc : ∀ c s, core (effect c s) = core s) : Does row sp pre effect words :=
  answers_core hrow hsp hl hr hc

theorem defers_core {row : Nat → Packet → Instr} {sp : CmdSpec} {pre : Cmd → State → Prop} {effect : Cmd → State → State}
    (hrow : ∀ k p s, exec (row k p) s = runRow sp k p s) (hsp : specOf sp.opcode = some sp) (hl : ∀ c, sp.lead c = none)
    (hr : ∀ c s, c.timed = false → checkCmd sp c s = none → pre c s → sp.run c s.index (opened s) = (effect c (opened s), .first .deferred))
    (hc : ∀ c s, (effect c s).cmds = s.cmds) (hp : ∀ c s, (effect c s).pair = s.pair) (ht : ∀ c s, locked (effect c s) = locked s)
    (hi : ∀ c s, (effect c s).index = s.index) : Defers row sp pre effect := by
  intro k p s ha hti hpre
  rw [hrow]
  refine row_plain ha hsp hti (hl _) (hr _ _ hti (accepted_iff.mp ha).2 hpre) ?_ (hc ..) (hp ..) (ht ..)
  simp only [settleFate, hi]

theorem queues_core {row : Nat → Packet → Instr} {sp : CmdSpec} {pre : Cmd → State → Prop} {effect : Cmd → State → State}
    (hrow : ∀ k p s, exec (row k p) s = runRow sp k p s) (hsp : specOf sp.opcode = some sp) (hl : ∀ c, sp.lead c = none)
    (hr : ∀ c s, c.timed = false → checkCmd sp c s = none → pre c s → sp.run c s.index (opened s) = (effect c (opened s), .first .queued))
    (hc : ∀ c s, core (effect c s) = core s) : Queues row sp pre effect := by
  intro k p s ha hti hpre
  rw [hrow]
  refine row_plain ha hsp hti (hl _) (hr _ _ hti (accepted_iff.mp ha).2 hpre) ?_ (core_cmds (hc ..)) (core_pair (hc ..)) (core_locked (hc ..))
  simp only [settleFate, core_index (hc ..)]

theorem begins_of {row : Nat → Packet → Instr} {sp : CmdSpec} {pre : Cmd → State → Prop} {effect : Cmd → State → State}
    (hrow : ∀ k p s, exec (row k p) s = runRow sp k p s) (hsp : specOf sp.opcode = some sp) (hl : ∀ c, sp.lead c = none)
    (hr : ∀ c s, c.timed = false → checkCmd sp c s = none → pre c s → sp.run c s.index (opened s) = (effect c (opened s), .later))
    (hc : ∀ c s, pre c s → (effect c (opened s)).cmds = s.cmds) (hp : ∀ c s, pre c s → (effect c (opened s)).pair = s.pair)
    (ht : ∀ c s, pre c s → locked (effect c (opened s)) = locked s) : Begins row sp pre effect := by
  intro k p s ha hti hpre
  rw [hrow]
  exact row_plain ha hsp hti (hl _) (hr _ _ hti (accepted_iff.mp ha).2 hpre) rfl (hc _ _ hpre) (hp _ _ hpre) (ht _ _ hpre)

theorem begins_core {row : Nat → Packet → Instr} {sp : CmdSpec} {pre : Cmd → State → Prop} {effect : Cmd → State → State}
    (hrow : ∀ k p s, exec (row k p) s = runRow sp k p s) (hsp : specOf sp.opcode = some sp) (hl : ∀ c, sp.lead c = none)
    (hr : ∀ c s, c.timed = false → checkCmd sp c s = none → pre c s → sp.run c s.index (opened s) = (effect c (opened s), .later))
    (hc : ∀ c s, core (effect c s) = core s) : Begins row sp pre effect :=
  have h : ∀ c s, core (effect c (opened s)) = core s := fun c s => (hc c _).trans (opened_core s)
  begins_of hrow hsp hl hr (fun _ _ _ => core_cmds (h _ _)) (fun _ _ _ => core_pair (h _ _)) (fun _ _ _ => core_locked (h _ _))

theorem holds_of {row : Nat → Packet → Instr} {sp : CmdSpec} {lead : Nat} (hrow : ∀ k p s, exec (row k p) s = runRow sp k p s)
    (hsp : specOf sp.opcode = some sp) (hop : sp.opcode ≠ 0x1103) (hl : ∀ c, sp.lead c = some lead) : Holds row sp lead := by
  intro k p s ha
  rw [hrow]
  refine row_held ha hsp hop ?_
  cases ht : (rowCmd k p s).timed with
  | true => exact .inl ⟨rfl, by simp⟩
  | false => exact .inr ⟨lead, rfl, hl _, by simp⟩

/-- The other commands that are outstanding when a held one fires. -/
theorem fire_rest {c : Cmd} {s u : State} (hq : s.quiet = true) (hu : u.cmds = s.cmds) :
    noneWaits (u.cmds.filter fun d => d.id != c.id) = true := by
  rw [hu]
  exact noneWaits_filter _ (quiet_noneWaits hq)

theorem fires_of {sp : CmdSpec} {pre : Cmd → Nat → State → Prop} {effect : Cmd → Nat → State → State} {words : Cmd → Nat → State → List Word}
    (hsp : specOf sp.opcode = some sp)
    (hr : ∀ c e s, pre c e s → sp.run c e (opened s) = (effect c e (opened s), .done .ok (words c e (opened s))))
    (hc : ∀ c e s, pre c e s → (effect c e (opened s)).cmds = s.cmds) (hp : ∀ c e s, pre c e s → (effect c e (opened s)).pair = s.pair)
    (ht : ∀ c e s, pre c e s → locked (effect c e (opened s)) = locked s) : Fires sp pre effect words := by
  intro c e i s hd hi hpre
  have h := due_iff.mp hd
  exact fire_runs hd hsp hi (hr _ _ _ hpre) (.inr (.inr (.inr ⟨_, rfl⟩))) rfl (fire_rest h.quiet ((hc _ _ _ hpre).trans (passTo_cmds ..)))
    ((hp _ _ _ hpre).trans (passTo_pair ..)) ((ht _ _ _ hpre).trans (by simp [locked]))

theorem fires_core {sp : CmdSpec} {pre : Cmd → Nat → State → Prop} {effect : Cmd → Nat → State → State} {words : Cmd → Nat → State → List Word}
    (hsp : specOf sp.opcode = some sp)
    (hr : ∀ c e s, pre c e s → sp.run c e (opened s) = (effect c e (opened s), .done .ok (words c e (opened s))))
    (hc : ∀ c e s, core (effect c e s) = core s) : Fires sp pre effect words :=
  have h : ∀ c e s, core (effect c e (opened s)) = core s := fun c e s => (hc c e _).trans (opened_core s)
  fires_of hsp hr (fun _ _ _ _ => core_cmds (h _ _ _)) (fun _ _ _ _ => core_pair (h _ _ _)) (fun _ _ _ _ => core_locked (h _ _ _))

theorem firesLater_core {sp : CmdSpec} {pre : Cmd → Nat → State → Prop} {effect : Cmd → Nat → State → State}
    (hsp : specOf sp.opcode = some sp) (hr : ∀ c e s, pre c e s → sp.run c e (opened s) = (effect c e (opened s), .later))
    (hc : ∀ c e s, core (effect c e s) = core s) : FiresLater sp pre effect := by
  intro c e i s hd hi hpre
  have h := due_iff.mp hd
  have hq := (hc c e (opened (passTo e s))).trans (opened_core _)
  exact fire_runs hd hsp hi (hr _ _ _ hpre) (.inr (.inl rfl)) rfl (fire_rest h.quiet ((core_cmds hq).trans (passTo_cmds ..)))
    ((core_pair hq).trans (passTo_pair ..)) ((core_locked hq).trans (by simp [locked]))

theorem firesQueued_core {sp : CmdSpec} {pre : Cmd → Nat → State → Prop} {effect : Cmd → Nat → State → State}
    (hsp : specOf sp.opcode = some sp) (hr : ∀ c e s, pre c e s → sp.run c e (opened s) = (effect c e (opened s), .first .queued))
    (hc : ∀ c e s, core (effect c e s) = core s) : FiresQueued sp pre effect := by
  intro c e i s hd hi hl hpre
  have h := due_iff.mp hd
  have hq := (hc c e (opened (passTo e s))).trans (opened_core _)
  exact fire_runs hd hsp hi (hr _ _ _ hpre) (.inl hl) (by simp only [settleFate, core_index (hc ..)])
    (fire_rest h.quiet ((core_cmds hq).trans (passTo_cmds ..))) ((core_pair hq).trans (passTo_pair ..)) ((core_locked hq).trans (by simp [locked]))

theorem firesRefused_of {sp : CmdSpec} {st : Status} {pre : Cmd → Nat → State → Prop} {words : List Word} (hsp : specOf sp.opcode = some sp)
    (hr : ∀ c e s, pre c e s → sp.run c e (opened s) = (opened s, .done st words)) : FiresRefused sp st pre words := by
  intro c e i s hd hi hl hpre
  have h := due_iff.mp hd
  exact fire_runs hd hsp hi (hr _ _ _ hpre) (.inl hl) rfl (fire_rest h.quiet (passTo_cmds ..)) (passTo_pair ..) (by simp [locked, opened])

/-- An event that keeps to its units is all that happens, when no other command waits. -/
theorem event_core {f : State → State} {k : Nat} {s : State} (hq : s.quiet = true) (hm : hasMirror s = false)
    (hc : core (f (opened (passTo k s))) = core (opened (passTo k s))) : runEvent f k s = .next (repliesFirst f (passTo k s)) :=
  have h := hc.trans (opened_core _)
  event_quiet hq hm (by rw [core_cmds h, passTo_cmds]; exact quiet_noneWaits hq) ((core_pair h).trans (passTo_pair ..))
    ((core_locked h).trans (by simp [locked]))

/-- The same, for a row that does `g` there. -/
theorem event_as {f g : State → State} {k : Nat} {s : State} (hq : s.quiet = true) (hm : hasMirror s = false)
    (hg : f (opened (passTo k s)) = g (opened (passTo k s))) (hc : core (g (opened (passTo k s))) = core (opened (passTo k s))) :
    runEvent f k s = .next (repliesFirst g (passTo k s)) := by
  rw [event_core hq hm (by rw [hg]; exact hc), repliesFirst_congr hg]

end Sys2Proof.Machine
end

