-- ==== Sys2Proof/Laws/Ends.lean ====
section
/-! SUPPORT. What an effect that ends commands leaves as it is: the timebase, the mode, the role of the device; of the commands it ends some, and makes none
wait to be started.
After such an effect nothing follows but a notice of the pair. -/

namespace Sys2Proof.Machine

/-- From `s` to `t` commands only end or go on, and units change. -/
structure Ends (s t : State) : Prop where
  pending : t.pending = s.pending
  time : t.time = s.time
  mode : t.mode = s.mode
  shadowed : t.shadowed = s.shadowed
  index : t.index = s.index
  variant : t.variant = s.variant
  ready : t.ready = s.ready
  fewer : ∀ c ∈ t.cmds, ∃ d ∈ s.cmds, d.id = c.id ∧ (d.phase ≠ .waiting → c.phase ≠ .waiting)
  role : t.pair.role = s.pair.role
  alone : hasMirror t = hasMirror s
  forwarded : s.pair.forwarded = [] → t.pair.forwarded = []
  joinMode : t.pair.joinMode = s.pair.joinMode

/-- The commands that are left are some of those that were. -/
theorem fewer_of {l l' : List Cmd} (h : ∀ c ∈ l', c ∈ l) : ∀ c ∈ l', ∃ d ∈ l, d.id = c.id ∧ (d.phase ≠ .waiting → c.phase ≠ .waiting) :=
  fun c hc => ⟨c, h c hc, rfl, fun h => h⟩

theorem Ends.refl (s : State) : Ends s s := ⟨rfl, rfl, rfl, rfl, rfl, rfl, rfl, fewer_of fun _ h => h, rfl, rfl, fun h => h, rfl⟩

theorem Ends.trans {s t u : State} (a : Ends s t) (b : Ends t u) : Ends s u :=
  ⟨b.pending.trans a.pending, b.time.trans a.time, b.mode.trans a.mode, b.shadowed.trans a.shadowed, b.index.trans a.index, b.variant.trans a.variant,
    b.ready.trans a.ready,
    fun c h => let ⟨d, hd, e, w⟩ := b.fewer c h; let ⟨x, hx, e', w'⟩ := a.fewer d hd; ⟨x, hx, e'.trans e, fun z => w (w' z)⟩, b.role.trans a.role, b.alone.trans a.alone, fun h => b.forwarded (a.forwarded h),
    b.joinMode.trans a.joinMode⟩

theorem ends_core {s t : State} (h : core t = core s) : Ends s t where
  pending := core_pending h
  time := core_time h
  mode := core_mode h
  shadowed := congrArg (fun x => x.2.2.2.2.2.1) h
  index := core_index h
  variant := congrArg (fun x => x.2.2.2.2.2.2.2.1) h
  ready := congrArg (fun x => x.2.2.2.2.2.2.2.2.2.1) h
  fewer := fewer_of fun c hc => core_cmds h ▸ hc
  role := by rw [core_pair h]
  alone := hasMirror_congr (core_pair h)
  forwarded := fun hf => by rw [core_pair h, hf]
  joinMode := by rw [core_pair h]

theorem ends_foldl {β : Type} (l : List β) (f : State → β → State) (s : State) (h : ∀ a i, Ends a (f a i)) : Ends s (l.foldl f s) := by
  induction l generalizing s with
  | nil => exact Ends.refl s
  | cons x t ih => exact (h s x).trans (ih _)

theorem ends_diverge (m : Nat) (s : State) : Ends s (diverge m s) := by
  unfold diverge
  by_cases h : (s.pair.role == .mirror) = true
  · rw [if_pos h]
    exact ⟨rfl, rfl, rfl, rfl, rfl, rfl, rfl, fewer_of fun _ h => h, rfl, rfl, fun h => h, rfl⟩
  · rw [if_neg h]
    exact Ends.refl s

theorem ends_writeReply (c : Cmd) (e : Entry) (s : State) : Ends s (writeReply c e s) := by
  unfold writeReply
  split
  · exact Ends.refl s
  · split
    · exact ends_core ((replyQp_core ..).trans (by split_ifs; exacts [setQp_core .., rfl]))
    · exact ends_core (core_mk ..)
    · exact ends_core (sendDatagram_core ..)
    · refine Ends.trans ?_ (ends_core (emit_core ..))
      split_ifs
      · exact ends_diverge ..
      · exact Ends.refl s

theorem ends_deliverReply (c : Cmd) (e : Entry) (s : State) : Ends s (deliverReply c e s) := by
  unfold deliverReply
  split_ifs
  · exact ends_writeReply ..
  · exact ends_core rfl

theorem ends_complete (c : Cmd) (st : Status) (pl : List Word) (i : Nat) (s : State) : Ends s (complete c st pl i s) := by
  have h1 : Ends s { s with cmds := s.cmds.filter (fun d => d.id != c.id), pair := recordOwn c.id st s.pair } :=
    ⟨rfl, rfl, rfl, rfl, rfl, rfl, rfl, fewer_of fun _ h => (List.mem_filter.mp h).1, rfl, rfl, fun h => by simp [recordOwn, h], rfl⟩
  refine h1.trans ?_
  unfold complete
  dsimp only
  generalize { s with cmds := s.cmds.filter (fun d => d.id != c.id), pair := recordOwn c.id st s.pair } = s1
  repeat' split
  · exact ends_core (rememberReply_core ..)
  · exact Ends.refl s1
  · exact (ends_core (rememberReply_core ..)).trans (ends_deliverReply ..)
  · exact ends_deliverReply ..

theorem ends_completeId (id : Nat) (st : Status) (pl : List Word) (i : Nat) (s : State) : Ends s (completeId id st pl i s) := by
  unfold completeId
  split
  · exact ends_complete ..
  · exact Ends.refl s

/-- No outstanding command has the number `id`. -/
theorem gone_completeId (id : Nat) (st : Status) (pl : List Word) (i : Nat) (s : State) :
    ((completeId id st pl i s).cmds.any fun c => c.id == id) = false := by
  unfold completeId
  split
  · next c h =>
    have hc : c.id = id := by simpa using List.find?_some h
    rw [complete_cmds, List.any_eq_false]
    intro d hd
    have := (List.mem_filter.mp hd).2
    simp_all
  · next h =>
    rw [List.any_eq_false]
    intro d hd
    exact List.find?_eq_none.mp h d hd

theorem Ends.gone {s t : State} (h : Ends s t) {id : Nat} (hs : (s.cmds.any fun c => c.id == id) = false) :
    (t.cmds.any fun c => c.id == id) = false := by
  rw [List.any_eq_false] at hs ⊢
  intro c hc
  obtain ⟨d, hd, e, -⟩ := h.fewer c hc
  rw [← e]
  exact hs d hd

/-- The commands of a list of numbers are ended one after the other. -/
theorem gone_foldl {β : Type} (l : List β) (g : β → Nat) (f : State → β → State) (s : State) (he : ∀ a i, Ends a (f a i))
    (hg : ∀ a i, ((f a i).cmds.any fun c => c.id == g i) = false) : ∀ x ∈ l, ((l.foldl f s).cmds.any fun c => c.id == g x) = false := by
  induction l generalizing s with
  | nil => simp
  | cons y t ih =>
    intro x hx
    rcases List.mem_cons.mp hx with rfl | hx
    · exact (ends_foldl t f _ he).gone (hg s x)
    · exact ih _ x hx

/-! ### What follows -/

/-- Nothing waits to be started, and no mirror has anything to tell. -/
structure Calm (s : State) : Prop where
  none : noneWaits s.cmds = true
  alone : hasMirror s = false
  forwarded : s.pair.forwarded = []

theorem calm_quiet {k : Nat} {s : State} (hq : s.quiet = true) (hm : hasMirror s = false) : Calm (passTo k s) :=
  ⟨by rw [passTo_cmds]; exact quiet_noneWaits hq, (hasMirror_congr (passTo_pair k s)).trans hm, by rw [passTo_pair]; exact quiet_forwarded hq⟩

theorem Calm.ends {s t : State} (h : Calm s) (e : Ends s t) : Calm t :=
  ⟨List.all_eq_true.mpr fun c hc => by
      obtain ⟨d, hd, -, w⟩ := e.fewer c hc
      have := List.all_eq_true.mp h.none d hd
      simp only [bne_iff_ne] at this ⊢
      exact w this, e.alone.trans h.alone, e.forwarded h.forwarded⟩

theorem Calm.same {s t : State} (h : Calm s) (hc : t.cmds = s.cmds) (hp : t.pair = s.pair) : Calm t :=
  ⟨hc ▸ h.none, (hasMirror_congr hp).trans h.alone, hp ▸ h.forwarded⟩

theorem ends_repliesFirst {f : State → State} {s : State} (h : ∀ a, Ends a (f a)) : Ends s (repliesFirst f s) := by
  have e := (ends_core (opened_core s)).trans (h (opened s))
  exact e.trans (ends_core (repliesFirst_opened f s))

theorem finish_calm {old u : State} (h : Calm u) : finish old u = pairNotice old u := by
  simp only [finish, yieldFaults_alone h.alone, pump_none h.none, compareAll_none h.forwarded]

theorem Calm.core {s t : State} (h : Calm s) (e : core t = core s) : Calm t := h.same (core_cmds e) (core_pair e)

/-- An event after which nothing waits leaves what it has done, with its notices sent, and at most a notice of the pair. -/
theorem event_calm {f : State → State} {k : Nat} {s : State} (h : Calm (f (opened (passTo k s)))) :
    ∃ t, runEvent f k s = .next t ∧ Ends (f (opened (passTo k s))) t ∧ t = pairNotice s (repliesFirst f (passTo k s)) :=
  have e := repliesFirst_opened f (passTo k s)
  ⟨_, by rw [runEvent, finish_calm (h.core e)], ends_core ((pairNotice_core ..).trans e), rfl⟩

theorem notify_calm {a : Nat} {b : List Word} {c : Nat} {s : State} (h : Calm s) : Calm (notify a b c s) := h.ends (ends_core (notify_core ..))

@[simp] theorem notify_pair (a : Nat) (b : List Word) (c : Nat) (s : State) : (notify a b c s).pair = s.pair := core_pair (notify_core ..)

@[simp] theorem notify_time (a : Nat) (b : List Word) (c : Nat) (s : State) : (notify a b c s).time = s.time := core_time (notify_core ..)

@[simp] theorem notify_cmds (a : Nat) (b : List Word) (c : Nat) (s : State) : (notify a b c s).cmds = s.cmds := core_cmds (notify_core ..)

theorem setTime_calm {f : TimeUnit → TimeUnit} {s : State} (h : Calm s) : Calm (setTime f s) := h.same rfl rfl

theorem complete_calm {c : Cmd} {st : Status} {pl : List Word} {i : Nat} {s : State} (h : Calm s) : Calm (complete c st pl i s) :=
  h.ends (ends_complete ..)

/-- A statement of an event by its whole effect, from what the effect leaves as it is. -/
theorem event_of {f : Nat → State → State} {ev : Nat → Instr} {pre : Nat → State → Prop} {effect : Nat → State → State}
    (hrow : ∀ k s, exec (ev k) s = runEvent (f k) k s) (hf : ∀ k s, pre k s → f k (opened s) = effect k (opened s))
    (hcalm : ∀ k s, pre k s → Calm s → Calm (effect k (opened s)))
    (hpair : ∀ k s, s.pair.forwarded = [] → pre k s → (effect k (opened s)).pair = s.pair)
    (hl : ∀ k s, pre k s → locked (effect k (opened s)) = locked s) : Event ev pre effect := by
  intro k s hq hm hp
  have hc := calm_quiet (k := k) hq hm
  rw [hrow, event_quiet hq hm]
  · rw [repliesFirst_congr (hf _ _ hp)]
  · rw [hf _ _ hp]
    exact (hcalm _ _ hp hc).none
  · rw [hf _ _ hp, hpair _ _ hc.forwarded hp, passTo_pair]
  · rw [hf _ _ hp, hl _ _ hp, locked, passTo_time, locked]

/-- A statement of an event that keeps to its units. -/
theorem event_of_core {f : Nat → State → State} {ev : Nat → Instr} {pre : Nat → State → Prop} {effect : Nat → State → State}
    (hrow : ∀ k s, exec (ev k) s = runEvent (f k) k s) (hf : ∀ k s, pre k s → f k (opened s) = effect k (opened s))
    (hc : ∀ k s, core (effect k s) = core s) : Event ev pre effect :=
  have h : ∀ k s, core (effect k (opened s)) = core s := fun k s => (hc k _).trans (opened_core s)
  event_of hrow hf (fun k s _ hs => hs.core (h k s)) (fun k s _ _ => core_pair (h k s)) (fun k s _ => core_locked (h k s))

/-- A statement of an event by what stands in the next state: its effect has its notices still to send. -/
theorem eventTo_of {f : Nat → State → State} {ev : Nat → Instr} {pre : Nat → State → Prop} {post : Nat → State → State → Prop}
    (hrow : ∀ k s, exec (ev k) s = runEvent (f k) k s) (hcalm : ∀ k s, pre k s → Calm s → Calm (f k (opened s)))
    (h : ∀ k s t old, pre k s → Ends (f k (opened s)) t → t = pairNotice old (repliesFirst (f k) s) → post k s t) : EventTo ev pre post := by
  intro k s hq hm hp
  obtain ⟨t, h1, h2, h3⟩ := event_calm (hcalm k _ hp (calm_quiet (k := k) hq hm))
  exact ⟨t, by rw [hrow]; exact h1, h k _ t s hp h2 h3⟩

/-- The notices of an action, and that of the pair, write the ways of the notices alone: what the action left elsewhere stands. -/
theorem after_frame (old : State) (f : State → State) (s : State) :
    pairNotice old (repliesFirst f s) =
      { f (opened s) with
        aside := (pairNotice old (repliesFirst f s)).aside, qps := (pairNotice old (repliesFirst f s)).qps,
        spi := (pairNotice old (repliesFirst f s)).spi, glob := (pairNotice old (repliesFirst f s)).glob,
        strm := (pairNotice old (repliesFirst f s)).strm, out := (pairNotice old (repliesFirst f s)).out,
        notices := (pairNotice old (repliesFirst f s)).notices } := by
  have h1 : ∀ u, pairNotice old u = { u with
      aside := (pairNotice old u).aside, qps := (pairNotice old u).qps, spi := (pairNotice old u).spi, glob := (pairNotice old u).glob,
      strm := (pairNotice old u).strm, out := (pairNotice old u).out, notices := (pairNotice old u).notices } := by
    intro u
    unfold pairNotice
    split_ifs
    · rw [notify_frame]
    · rfl
  have h2 : repliesFirst f s = { f (opened s) with
      aside := (repliesFirst f s).aside, qps := (repliesFirst f s).qps, spi := (repliesFirst f s).spi, glob := (repliesFirst f s).glob,
      strm := (repliesFirst f s).strm, out := (repliesFirst f s).out, notices := (repliesFirst f s).notices } := by
    unfold repliesFirst
    split
    · next l h => rw [show opened s = s by unfold opened; rw [h, Option.getD_some, ← h]]
    · next h => rw [show opened s = { s with aside := some [] } by unfold opened; rw [h, Option.getD_none], sendAside_frame]
  rw [h1, h2]

end Sys2Proof.Machine
end

