-- ==== Sys2Proof/Laws/Breaks.lean ====
section
/-! SUPPORT. What the decisions of the trigger unit and a break in the numbering of samples leave as they are. -/

namespace Sys2Proof.Machine

theorem ends_breakMeasure (st : Status) (s : State) : Ends s (breakMeasure st s) := by
  unfold breakMeasure
  split
  · exact Ends.refl s
  · exact (ends_core (endActivity_core ..)).trans (ends_completeId ..)

/-- A command that goes on keeps its number, and does not come to wait. -/
theorem ends_map {s : State} {f : Cmd → Cmd} (h : ∀ c, (f c).id = c.id ∧ (c.phase ≠ .waiting → (f c).phase ≠ .waiting)) :
    Ends s { s with cmds := s.cmds.map f } :=
  ⟨rfl, rfl, rfl, rfl, rfl, rfl, rfl,
    fun c hc => by
      obtain ⟨d, hd, rfl⟩ := List.mem_map.mp hc
      exact ⟨d, hd, (h d).1.symm, (h d).2⟩,
    rfl, rfl, fun h => h, rfl⟩

/-- A command whose index a gap takes away is held for another. -/
theorem ends_hold (id : Nat) (e : Option Nat) (s : State) :
    Ends s { s with cmds := s.cmds.map fun d => if d.id == id then { d with phase := .held e } else d } :=
  ends_map fun c => by
    split_ifs
    · exact ⟨rfl, fun _ h => by cases h⟩
    · exact ⟨rfl, fun h => h⟩

/-! ### The trigger unit decides -/

theorem ends_decideIndex (k : Nat) (s : State) : Ends s (decideIndex k s) := by
  unfold decideIndex
  dsimp only
  refine Ends.trans (ends_core ?_) (ends_foldl _ _ _ fun _ _ => ends_completeId ..)
  split
  · exact (winnerAction_core ..).trans (core_mk ..)
  · exact core_mk ..

theorem ends_decideRun (hi n : Nat) (s : State) : Ends s (decideRun hi n s) := by
  induction n generalizing s with
  | zero => exact Ends.refl s
  | succ n ih =>
    unfold decideRun
    split
    · split_ifs
      · exact (ends_decideIndex ..).trans (ih _)
      · exact Ends.refl s
    · exact Ends.refl s

theorem ends_decideSpan (hi : Nat) (s : State) : Ends s (decideSpan hi s) := by
  have h1 : Ends s { s with trig := { s.trig with slots := s.trig.slots.map fun t => feedSlot s (hi - t.cfg.shift) t } } := ends_core rfl
  unfold decideSpan
  dsimp only
  split_ifs
  · exact Ends.refl s
  · exact (h1.trans (ends_decideRun ..)).trans (ends_decideIndex ..)
  · exact h1.trans (ends_decideRun ..)

theorem ends_decideSteps (hi : Nat) (all : Bool) (n : Nat) (s : State) : Ends s (decideSteps hi all n s) := by
  induction n generalizing s with
  | zero => exact Ends.refl s
  | succ n ih =>
    unfold decideSteps
    generalize (if all then hi else min hi (undecided s)) = limit
    dsimp only
    split
    · next x rest _ =>
      have h1 : Ends (decideSpan x.1 s) { decideSpan x.1 s with trig := { (decideSpan x.1 s).trig with changes := rest } } := ends_core rfl
      split
      · exact (((ends_decideSpan ..).trans h1).trans (ends_core (applyChange_core ..))).trans (ih _)
      · exact ends_decideSpan ..
    · exact ends_decideSpan ..

/-- A decision leaves the commands of forced firings with their replies, and units otherwise. -/
theorem ends_decideTo (k : Nat) (s : State) : Ends s (decideTo k s) := by
  unfold decideTo
  split_ifs
  · exact (ends_decideSteps ..).trans (ends_core (dropEvents_core ..))
  · exact Ends.refl s

theorem ends_decideBefore (e : Nat) (s : State) : Ends s (decideBefore e s) := by
  unfold decideBefore
  dsimp only
  split_ifs
  · exact (ends_decideSteps ..).trans (ends_core ((core_mk (afterChanges _) ..).trans (afterChanges_core ..)))
  · exact Ends.refl s

theorem ends_changeTrig (e : Nat) (x : TrigChange) (s : State) : Ends s (changeTrig e x s) := by
  unfold changeTrig
  split_ifs
  · exact (ends_core (core_mk ..)).trans (ends_decideTo ..)
  · exact ends_core (applyChange_core ..)

/-- A command that ends with OK leaves the pair, while no forwarded command awaits a status. -/
theorem completeId_pair (id : Nat) (pl : List Word) (i : Nat) {s : State} (h : s.pair.forwarded = []) : (completeId id .ok pl i s).pair = s.pair := by
  unfold completeId
  split
  · rw [complete_pair_ok, recordOwn_none h]
  · rfl

theorem decideIndex_pair (k : Nat) {s : State} (h : s.pair.forwarded = []) : (decideIndex k s).pair = s.pair := by
  have fold : ∀ (l : List ForceWait) (g : ForceWait → List Word) (a : State), a.pair = s.pair →
      (l.foldl (fun a f => completeId f.cmd .ok (g f) k a) a).pair = s.pair := by
    intro l g
    induction l with
    | nil => exact fun _ ha => ha
    | cons x t ih => exact fun a ha => ih _ ((completeId_pair _ _ _ (ha ▸ h)).trans ha)
  unfold decideIndex
  dsimp only
  refine fold _ _ _ ?_
  split
  · exact core_pair ((winnerAction_core ..).trans (core_mk ..))
  · rfl

theorem decideRun_pair (hi n : Nat) {s : State} (h : s.pair.forwarded = []) : (decideRun hi n s).pair = s.pair := by
  induction n generalizing s with
  | zero => rfl
  | succ n ih =>
    unfold decideRun
    split
    · split_ifs
      · exact (ih ((decideIndex_pair _ h).symm ▸ h)).trans (decideIndex_pair _ h)
      · rfl
    · rfl

theorem decideSpan_pair (hi : Nat) {s : State} (h : s.pair.forwarded = []) : (decideSpan hi s).pair = s.pair := by
  unfold decideSpan
  dsimp only
  have h1 := decideRun_pair hi (hi - s.trig.next)
    (s := { s with trig := { s.trig with slots := s.trig.slots.map fun t => feedSlot s (hi - t.cfg.shift) t } }) h
  split_ifs
  · rfl
  · exact (decideIndex_pair _ (by rw [h1]; exact h)).trans h1
  · exact h1

theorem decideSteps_pair (hi : Nat) (all : Bool) (n : Nat) {s : State} (h : s.pair.forwarded = []) : (decideSteps hi all n s).pair = s.pair := by
  induction n generalizing s with
  | zero => rfl
  | succ n ih =>
    unfold decideSteps
    generalize (if all then hi else min hi (undecided s)) = limit
    dsimp only
    split
    · next x rest _ =>
      have h1 : (applyChange x.1 x.2 { decideSpan x.1 s with trig := { (decideSpan x.1 s).trig with changes := rest } }).pair = s.pair :=
        (core_pair (applyChange_core ..)).trans (decideSpan_pair _ h)
      split
      · exact (ih (by rw [h1]; exact h)).trans h1
      · exact decideSpan_pair _ h
    · exact decideSpan_pair _ h

theorem decideTo_pair (k : Nat) {s : State} (h : s.pair.forwarded = []) : (decideTo k s).pair = s.pair := by
  unfold decideTo
  split_ifs
  · exact (core_pair (dropEvents_core ..)).trans (decideSteps_pair _ _ _ h)
  · rfl

theorem changeTrig_pair (e : Nat) (x : TrigChange) {s : State} (h : s.pair.forwarded = []) : (changeTrig e x s).pair = s.pair := by
  unfold changeTrig
  split_ifs
  · exact decideTo_pair (s := { s with trig := _ }) e h
  · exact core_pair (applyChange_core ..)

/-- A new binding of a ring: the trigger unit decides up to it, and units change. -/
theorem rebind_ends (c : Cmd) (e : Nat) (s : State) : core (rebind c e s) = core (decideTo (e - 1) s) := by
  unfold rebind
  dsimp only
  split_ifs
  · exact (startRun_core ..).trans ((core_mk (endRun _ _ _ _ _) ..).trans (endRun_core ..))
  · exact (core_mk (endRun _ _ _ _ _) ..).trans (endRun_core ..)

theorem ends_rebind (c : Cmd) (e : Nat) (s : State) : Ends s (rebind c e s) := (ends_decideTo ..).trans (ends_core (rebind_ends ..))

theorem rebind_pair (c : Cmd) (e : Nat) {s : State} (h : s.pair.forwarded = []) : (rebind c e s).pair = s.pair :=
  (core_pair (rebind_ends ..)).trans (decideTo_pair (e - 1) h)

/-- A held command that is due, with an effect that ends other commands and leaves the pair. -/
theorem fires_ends {sp : CmdSpec} {pre : Cmd → Nat → State → Prop} {effect : Cmd → Nat → State → State} {words : Cmd → Nat → State → List Word}
    (hsp : specOf sp.opcode = some sp)
    (hr : ∀ c e s, pre c e s → sp.run c e (opened s) = (effect c e (opened s), .done .ok (words c e (opened s))))
    (he : ∀ c e s, Ends s (effect c e s)) (hp : ∀ c e s, s.pair.forwarded = [] → (effect c e s).pair = s.pair) : Fires sp pre effect words := by
  intro c e i s hd hi hpre
  have h := due_iff.mp hd
  have hc : Calm (effect c e (opened (passTo e s))) := ((calm_quiet (k := e) h.quiet h.alone).same (t := opened (passTo e s)) rfl rfl).ends (he c e _)
  refine fire_runs hd hsp hi (hr _ _ _ hpre) (.inr (.inr (.inr ⟨_, rfl⟩))) rfl (noneWaits_filter _ hc.none) ?_ ?_
  · exact (hp c e (opened (passTo e s)) (by simpa [opened] using quiet_forwarded h.quiet)).trans (passTo_pair ..)
  · rw [locked, (he c e (opened (passTo e s))).time]
    simp [locked, opened]

theorem ends_finishBefore (e : Nat) (s : State) : Ends s (finishBefore e s) :=
  (ends_core ((catchAll_core ..).trans (foldl_core _ _ _ fun _ _ => drainEngine_core ..))).trans (ends_decideBefore ..)

theorem ends_stopProducts (reason e ring limit : Nat) (gap : Bool) (s : State) : Ends s (stopProducts reason e ring limit gap s) := by
  unfold stopProducts
  refine (ends_finishBefore e s).trans (ends_core ?_)
  generalize finishBefore e s = a
  refine (foldl_core _ _ _ fun _ _ => (endRun_core ..).trans (endStreams_core ..)).trans ?_
  refine (foldl_core _ _ _ fun _ _ => endDensity_core ..).trans ?_
  refine (foldl_core _ _ _ fun _ _ => endGrid_core ..).trans ?_
  refine foldl_core _ _ _ fun x _ => ?_
  split_ifs
  · exact endFeeds_core ..
  · rfl

/-! ### Samples stop -/

/-- The wait of the TIME_SYNCs ends, and nothing else of the timebase. -/
theorem failSyncs_ends (s : State) : ∃ u, Ends s u ∧ failSyncs s = setTime (fun t => { t with syncs := [] }) u :=
  ⟨_, ends_foldl _ _ s fun _ _ => ends_completeId .., rfl⟩

theorem failSyncs_gone (s : State) : ∀ w ∈ s.time.syncs, ((failSyncs s).cmds.any fun c => c.id == w.cmd) = false :=
  gone_foldl s.time.syncs (fun w => w.cmd) (fun a w => completeId w.cmd .clock [] s.index a) s (fun _ _ => ends_completeId ..) (fun _ _ => gone_completeId ..)

theorem failSyncs_calm {s : State} (h : Calm s) : Calm (failSyncs s) := by
  obtain ⟨u, hu, e⟩ := failSyncs_ends s
  exact e ▸ (h.ends hu).same rfl rfl

theorem failSyncs_time (s : State) : (failSyncs s).time = { s.time with syncs := [] } := by
  obtain ⟨u, hu, e⟩ := failSyncs_ends s
  rw [e, setTime, hu.time]

theorem ends_skipForced (u : Nat) (s : State) : Ends s (skipForced u s) := by
  refine Ends.trans (ends_core (core_mk ..)) (ends_foldl _ _ _ fun a f => ?_)
  split
  · split_ifs
    · exact ends_complete ..
    · exact ends_hold ..
  · exact Ends.refl a

theorem gapInt_core (u : Nat) (step : Bool) (s : State) : core (gapInt u step s) = core s := by
  unfold gapInt
  dsimp only
  split_ifs
  · exact (stepInt_core ..).trans (intDrain_core ..)
  · exact (setInt_core ..).trans (intDrain_core ..)

/-- A stop of the samples leaves the timebase, the mode and the role; the commands of a measurement and of forced firings end. -/
theorem ends_gapStop (u reason ring stop : Nat) (step : Bool) (s : State) : Ends s (gapStop u reason ring stop step s) := by
  unfold gapStop
  refine Ends.trans ?_ (ends_breakMeasure ..)
  refine Ends.trans ?_ (ends_core (dropDwell_core ..))
  refine Ends.trans ?_ (ends_skipForced ..)
  refine Ends.trans ?_ (ends_core (markGap_core ..))
  refine Ends.trans ?_ (ends_core (core_mk ..))
  refine Ends.trans ?_ (ends_core ((unlockTdc_core ..).trans (stopSlots_core ..)))
  refine Ends.trans ?_ (ends_stopProducts ..)
  exact (ends_finishBefore u s).trans (ends_core (gapInt_core ..))

/-! ### Samples start -/

/-- A new numbering leaves the timebase but for the offsets, and the pair but for what it has heard. -/
theorem renumber_calm {v : Nat} {s : State} (h : Calm s) : Calm (renumber v s) := by
  have e : core (stepSlots (settleOld s)) = core s := (stepSlots_core ..).trans (settleOld_core ..)
  have hc := h.core e
  exact ⟨hc.none, (show hasMirror (renumber v s) = hasMirror (stepSlots (settleOld s)) from rfl).trans hc.alone, hc.forwarded⟩

theorem renumber_time (v : Nat) (s : State) : (renumber v s).time = { s.time with offsets := s.time.offsets.map restart } := by
  have e : core (stepSlots (settleOld s)) = core s := (stepSlots_core ..).trans (settleOld_core ..)
  show { (stepSlots (settleOld s)).time with offsets := (stepSlots (settleOld s)).time.offsets.map restart } = _
  rw [core_time e]

/-- A held command moves to another index, or ends. -/
theorem ends_skipHeld (u v : Nat) (c : Cmd) (s : State) : Ends s (skipHeld u v c s) := by
  unfold skipHeld
  dsimp only
  repeat' split
  all_goals first
    | exact ends_hold ..
    | exact Ends.refl s
    | exact ends_complete ..

theorem ends_skipGap (u v : Nat) (s : State) : Ends s (skipGap u v s) := ends_foldl _ _ s fun _ _ => ends_skipHeld ..

/-- The resumes that wait end; in the timebase nothing else does. -/
theorem endResume_ends (s : State) : ∃ u, Ends s u ∧ Ends (setTime (fun t => { t with resume := none, step := none }) u) (endResume s) := by
  unfold endResume
  dsimp only
  refine ⟨_, ?_, ends_foldl _ (fun a (c : Cmd) => completeId c.id .ok (resumePayload false s.time.jump 0) s.index a) _ fun _ _ => ends_completeId ..⟩
  repeat' split
  all_goals first
    | exact Ends.refl s
    | exact ends_completeId ..
    | exact (ends_completeId ..).trans (ends_completeId ..)

end Sys2Proof.Machine
end

