-- ==== Sys2Proof/Laws/Commands.lean ====
section
/-! SUPPORT. What holds of every row that is a command with an opcode. -/

namespace Sys2Proof.Machine

/-- A row serves its packet as its opcode says, and its opcode stands in the table. -/
def RowFits (x : (Nat → Packet → Instr) × CmdSpec) : Prop := (∀ k p s, exec (x.1 k p) s = runRow x.2 k p s) ∧ specOf x.2.opcode = some x.2

theorem rowFits_nil : ∀ x ∈ ([] : List ((Nat → Packet → Instr) × CmdSpec)), RowFits x := fun _ h => nomatch h

theorem rowFits_cons {a : Nat → Packet → Instr} {sp : CmdSpec} {l : List ((Nat → Packet → Instr) × CmdSpec)}
    (ha : ∀ k p s, exec (a k p) s = runRow sp k p s) (hs : specOf sp.opcode = some sp) (hl : ∀ x ∈ l, RowFits x) : ∀ x ∈ (a, sp) :: l, RowFits x :=
  fun x hx => (List.mem_cons.mp hx).elim (fun e => e ▸ ⟨ha, hs⟩) (hl x)

theorem rowFits_append {a b : List ((Nat → Packet → Instr) × CmdSpec)} (ha : ∀ x ∈ a, RowFits x) (hb : ∀ x ∈ b, RowFits x) :
    ∀ x ∈ a ++ b, RowFits x := fun x hx => (List.mem_append.mp hx).elim (ha x) (hb x)

/-- Every row of a command fits. -/
theorem commandRows_fit : ∀ x ∈ commandRows, RowFits x := by
  unfold commandRows
  repeat' refine rowFits_append ?_ ?_
  all_goals repeat' first | exact rowFits_nil | refine rowFits_cons (fun _ _ _ => rfl) rfl ?_

end Sys2Proof.Machine
end

