-- ==== Sys2Proof/WellFormed.lean ====
section
/-! DEFINITION. Which commands a sender can form: numbers within the ranges of the device's numbering, and packets whose header fields fit. A command
that fails one of these checks is no command of this device; every command that passes has its effect. -/

namespace Sys2Proof

open Sys2Proof.Machine

/-- A SAMPLE_INDEX (R10). -/
def isIndex (k : Nat) : Bool := decide (k < 2 ^ 64)

/-- A packet of one opcode (R41): it comes from a source of the host's, as an entry of 16 words on a queue pair, else as its header and PLEN words. -/
def packetOk (opcode : Nat) (p : Packet) : Bool :=
  opcodeOf p == opcode && p.src != .pairLink && p.words.length == (if isQp p.src then 16 else 4 + plenOf p)

/-- What a fetch brings (R60, R72): an entry of 64 bytes. -/
def fetchOk : Fetched → Bool
  | .dmaError => true
  | .entry bytes _ => bytes.length == 64

/-- A forwarded command (R589). -/
def forwardedOk (f : Forwarded) : Bool :=
  decide (f.mseq < 2 ^ 32) && decide (f.origin < 18) && decide (f.opcode < 65536) && isIndex f.atIndex && decide (f.params.length < 256)

/-- A heartbeat (R585): its sender has one role. -/
def heartbeatOk (hb : Heartbeat) : Bool := !(hb.primary && hb.mirror) && decide (hb.live < 2 ^ 32) && decide (hb.mseq < 2 ^ 32)

/-- A command is well formed. -/
def Instr.wellFormed (i : Instr) : Bool :=
  match i with
  | .sqTailDoorbell k _ _ => isIndex k
  | .rqHeadWrite k _ _ => isIndex k
  | .qpEnable k _ _ => isIndex k
  | .qpDisable k _ _ => isIndex k
  | .gintStatusClear k _ => isIndex k
  | .indexLoRead k size off => isIndex k && [1, 2, 4, 8].contains size && decide (0x0110 ≤ off ∧ off < 0x0114)
  | .registerWrite k bar size _ _ => isIndex k && decide (bar < 6) && [1, 2, 4, 8].contains size
  | .commandFetch k _ got => isIndex k && fetchOk got
  | .coalTimeExpiry k _ => isIndex k
  | .noticeDelivery k _ => isIndex k
  | .spiSubmit k _ => isIndex k
  | .spiReadReply k _ => isIndex k
  | .spiReadStatus k => isIndex k
  | .ctlportDatagram k snd udp _ => isIndex k && decide (snd.link < 4) && decide (udp < 65536)
  | .timedExecute => true
  | .scheduledEffect => true
  | .sysNop k p => isIndex k && packetOk 0x0000 p
  | .sysMode k p => isIndex k && packetOk 0x0001 p
  | .sysNoticeRoute k p => isIndex k && packetOk 0x0002 p
  | .sysCancel k p => isIndex k && packetOk 0x0003 p
  | .sysGetIndex k p => isIndex k && packetOk 0x0004 p
  | .sysCtlport k p => isIndex k && packetOk 0x0005 p
  | .sysGetMode k p => isIndex k && packetOk 0x0006 p
  | .sysCompat k p => isIndex k && packetOk 0x0007 p
  | .modeChangeEffect => true
  | .memAlloc k p => isIndex k && packetOk 0x0100 p
  | .memFree k p => isIndex k && packetOk 0x0101 p
  | .memFreeRelease k slot => isIndex k && decide (slot < 256)
  | .memQuery k p => isIndex k && packetOk 0x0102 p
  | .memScrub k p => isIndex k && packetOk 0x0103 p
  | .memRead k p => isIndex k && packetOk 0x0104 p
  | .memWrite k p => isIndex k && packetOk 0x0105 p
  | .memTransferEnd k _ _ _ _ => isIndex k
  | .scrub k slot _ _ => isIndex k && decide (slot < 256)
  | .timeSpllConfig k p => isIndex k && packetOk 0x0200 p
  | .timeStatus k p => isIndex k && packetOk 0x0201 p
  | .timeSetEpoch k p => isIndex k && packetOk 0x0202 p
  | .timeSync k p => isIndex k && packetOk 0x0203 p
  | .timeRefPolicy k p => isIndex k && packetOk 0x0204 p
  | .timeRefResume k p => isIndex k && packetOk 0x0205 p
  | .timePpsConfig k p => isIndex k && packetOk 0x0206 p
  | .timeOffset k p => isIndex k && packetOk 0x0207 p
  | .timeGetOffset k p => isIndex k && packetOk 0x0208 p
  | .timePpsRead k p => isIndex k && packetOk 0x0209 p
  | .timePtpAdjust k p => isIndex k && packetOk 0x020A p
  | .unlockDetected k _ => isIndex k
  | .lockConfirmed edge _ => isIndex edge
  | .lockAttemptFail k => isIndex k
  | .refMissingEdge k _ => isIndex k
  | .refFreqCheck k _ _ => isIndex k
  | .refQualExpiry k _ => isIndex k
  | .jumpKnown k _ => isIndex k
  | .ppsDisambigTimeout k => isIndex k
  | .slewEnd k => isIndex k
  | .stepBoundary _ => true
  | .syncEdgeCapture k _ => isIndex k
  | .timebaseRephase edge _ => isIndex edge
  | .timeSyncTimeout k _ => isIndex k
  | .ppsInEdge k _ tap => isIndex k && decide (tap < 512)
  | .ppsMissingTimeout k => isIndex k
  | .ppsOutPulse k _ => isIndex k
  | .convConfig k p => isIndex k && packetOk 0x0300 p
  | .convAtten k p => isIndex k && packetOk 0x0301 p
  | .convInput k p => isIndex k && packetOk 0x0302 p
  | .convRotation k p => isIndex k && packetOk 0x0303 p
  | .convStatus k p => isIndex k && packetOk 0x0304 p
  | .convAttenInfo k p => isIndex k && packetOk 0x0305 p
  | .overRange channel _ _ => decide (channel < 4)
  | .sliceSwap k _ => isIndex k
  | .sliceMonitorWindow k _ => isIndex k
  | .eqLoad k p => isIndex k && packetOk 0x0400 p
  | .eqSwap k p => isIndex k && packetOk 0x0401 p
  | .eqHeldStart k channel => isIndex k && decide (channel < 4)
  | .eqStatus k p => isIndex k && packetOk 0x0402 p
  | .tunerConfig k p => isIndex k && packetOk 0x0403 p
  | .tunerRetune k p => isIndex k && packetOk 0x0404 p
  | .tunerEnable k p => isIndex k && packetOk 0x0405 p
  | .tunerStatus k p => isIndex k && packetOk 0x0406 p
  | .specConfig k p => isIndex k && packetOk 0x0500 p
  | .specEnable k p => isIndex k && packetOk 0x0501 p
  | .specOutput k p => isIndex k && packetOk 0x0502 p
  | .specWindowLoad k p => isIndex k && packetOk 0x0503 p
  | .specStatus k p => isIndex k && packetOk 0x0504 p
  | .spectrumDone k engine _ _ _ _ => isIndex k && decide (engine < 8)
  | .densityFrameClose k unit _ _ => isIndex k && decide (unit < 4)
  | .decayStep k => isIndex k
  | .densConfig k p => isIndex k && packetOk 0x0600 p
  | .densEnable k p => isIndex k && packetOk 0x0601 p
  | .densClear k p => isIndex k && packetOk 0x0602 p
  | .densStatus k p => isIndex k && packetOk 0x0603 p
  | .spgmConfig k p => isIndex k && packetOk 0x0604 p
  | .spgmEnable k p => isIndex k && packetOk 0x0605 p
  | .spgmStatus k p => isIndex k && packetOk 0x0606 p
  | .trigDecide k _ => isIndex k
  | .trigSlotConfig k p => isIndex k && packetOk 0x0700 p
  | .trigArm k p => isIndex k && packetOk 0x0701 p
  | .trigMaskConfig k p => isIndex k && packetOk 0x0702 p
  | .trigMaskLoad k p => isIndex k && packetOk 0x0703 p
  | .trigForce k p => isIndex k && packetOk 0x0704 p
  | .trigStatus k p => isIndex k && packetOk 0x0705 p
  | .segmentClose k sheaf _ _ _ => isIndex k && decide (sheaf < 8)
  | .capSource k p => isIndex k && packetOk 0x0800 p
  | .capSheafConfig k p => isIndex k && packetOk 0x0801 p
  | .capArm k p => isIndex k && packetOk 0x0802 p
  | .capStatus k p => isIndex k && packetOk 0x0803 p
  | .intSetAccumulate k _ _ _ => isIndex k
  | .intFrameClose k => isIndex k
  | .intConfig k p => isIndex k && packetOk 0x0900 p
  | .intEnable k p => isIndex k && packetOk 0x0901 p
  | .intStatus k p => isIndex k && packetOk 0x0902 p
  | .intHeader k p => isIndex k && packetOk 0x0903 p
  | .thConfig k p => isIndex k && packetOk 0x0904 p
  | .thEnable k p => isIndex k && packetOk 0x0905 p
  | .thStatus k p => isIndex k && packetOk 0x0906 p
  | .strmPacketGenerate k ctx _ _ _ => isIndex k && decide (ctx < 64)
  | .strmPacketSend k ctx _ _ => isIndex k && decide (ctx < 64)
  | .hostRingConsPoll k entry _ => isIndex k && decide (entry < 64)
  | .rewindDone k ctx => isIndex k && decide (ctx < 64)
  | .arpRequest k port mac ip target => isIndex k && decide (port < 4) && decide (mac < 2 ^ 48) && decide (ip < 2 ^ 32) && decide (target < 2 ^ 32)
  | .neighbourSolicitation k port mac ip target => isIndex k && decide (port < 4) && decide (mac < 2 ^ 48) && decide (ip.length = 4) && decide (target.length = 4)
  | .ptpFrameRx k port _ _ => isIndex k && decide (port < 4)
  | .pauseFrame k port => isIndex k && decide (port < 4)
  | .otherFrame k port => isIndex k && decide (port < 4)
  | .ethLinkChange k port _ => isIndex k && decide (port < 4)
  | .egressDownTimeout k port => isIndex k && decide (port < 4)
  | .strmPortConfig k p => isIndex k && packetOk 0x0A00 p
  | .strmDest k p => isIndex k && packetOk 0x0A01 p
  | .strmConfig k p => isIndex k && packetOk 0x0A02 p
  | .strmEnable k p => isIndex k && packetOk 0x0A03 p
  | .strmMark k p => isIndex k && packetOk 0x0A04 p
  | .strmRewind k p => isIndex k && packetOk 0x0A05 p
  | .strmStatus k p => isIndex k && packetOk 0x0A06 p
  | .strmPortStatus k p => isIndex k && packetOk 0x0A07 p
  | .strmPtpSend k p => isIndex k && packetOk 0x0A08 p
  | .pkConfig k p => isIndex k && packetOk 0x0B00 p
  | .pkEncode k p => isIndex k && packetOk 0x0B01 p
  | .pkJobEnd k packer _ _ => isIndex k && decide (packer < 2)
  | .pkStatus k p => isIndex k && packetOk 0x0B02 p
  | .mqItemAccept k producer => isIndex k && decide (1 ≤ producer) && decide (producer ≤ 5)
  | .mqLingerExpiry k => isIndex k
  | .mqReadComplete k _ => isIndex k
  | .mqReadTimeout k _ => isIndex k
  | .mqConfig k p => isIndex k && packetOk 0x0C00 p
  | .mqRead k p => isIndex k && packetOk 0x0C01 p
  | .mqPut k p => isIndex k && packetOk 0x0C02 p
  | .mqFlush k p => isIndex k && packetOk 0x0C03 p
  | .mqStatus k p => isIndex k && packetOk 0x0C04 p
  | .tdcEdge k input _ tap => isIndex k && decide (input < 12) && decide (tap < 512)
  | .tdcMeasureTimeout k slot => isIndex k && decide (slot < 8)
  | .tdcWindowClose k slot => isIndex k && decide (slot < 8)
  | .probeLaunch k slot => isIndex k && decide (slot < 8)
  | .tdcStuckTimeout k input => isIndex k && decide (input < 12)
  | .tdcDwellEnd k hits => isIndex k && decide (hits.length ≤ 512) && decide (hits.sum ≤ 2 ^ 20)
  | .tdcTablesReady k hits => isIndex k && hits.all fun h => decide (h.length ≤ 512) && decide (h.sum ≤ 2 ^ 20)
  | .tdcInput k p => isIndex k && packetOk 0x0D00 p
  | .tdcSlotConfig k p => isIndex k && packetOk 0x0D01 p
  | .tdcArm k p => isIndex k && packetOk 0x0D02 p
  | .tdcRead k p => isIndex k && packetOk 0x0D03 p
  | .tdcStatus k p => isIndex k && packetOk 0x0D04 p
  | .mcConversionEnd k _ _ _ => isIndex k
  | .mcSystemPass k => isIndex k
  | .mcInput k p => isIndex k && packetOk 0x0E00 p
  | .mcSequence k p => isIndex k && packetOk 0x0E01 p
  | .mcConvert k p => isIndex k && packetOk 0x0E02 p
  | .mcRead k p => isIndex k && packetOk 0x0E03 p
  | .mcStatus k p => isIndex k && packetOk 0x0E04 p
  | .activityStart k => isIndex k
  | .tdcCalPriority k => isIndex k
  | .calMeasureEnd k _ => isIndex k
  | .scrubPassEnd k _ => isIndex k
  | .calibMeasure k p => isIndex k && packetOk 0x0F00 p
  | .calibSliceRead k p => isIndex k && packetOk 0x0F01 p
  | .calibTdcRead k p => isIndex k && packetOk 0x0F02 p
  | .maintStart k p => isIndex k && packetOk 0x0F03 p
  | .maintCancel k p => isIndex k && packetOk 0x0F04 p
  | .maintStatus k p => isIndex k && packetOk 0x0F05 p
  | .dispFrameStart k _ _ => isIndex k
  | .dispLatchLine k => isIndex k
  | .scanoutEnd k _ _ => isIndex k
  | .teEdge k _ => isIndex k
  | .teLostTimeout k => isIndex k
  | .panelCmdSend k _ _ => isIndex k
  | .panelRespTimeout k => isIndex k
  | .dispTiming k p => isIndex k && packetOk 0x1000 p
  | .dispEnable k p => isIndex k && packetOk 0x1001 p
  | .dispLayer k p => isIndex k && packetOk 0x1002 p
  | .dispPalette k p => isIndex k && packetOk 0x1003 p
  | .dispCommit k p => isIndex k && packetOk 0x1004 p
  | .dispPanelCmd k p => isIndex k && packetOk 0x1005 p
  | .dispStatus k p => isIndex k && packetOk 0x1006 p
  | .heartbeatSend k => isIndex k
  | .heartbeatReceive k hb => isIndex k && heartbeatOk hb
  | .heartbeatTimeout k => isIndex k
  | .liveStall k => isIndex k
  | .pairLinkTrained k _ _ _ _ => isIndex k
  | .pairLinkDown k => isIndex k
  | .pairLaneFail k => isIndex k
  | .forwardedCommand k f => isIndex k && forwardedOk f
  | .mirrorStatusReturn k mseq _ => isIndex k && decide (mseq < 2 ^ 32)
  | .mirrorStateReceive k _ => isIndex k
  | .yieldReceive k => isIndex k
  | .takeoverRequestReceive k => isIndex k
  | .snapshotReceive k _ => isIndex k
  | .joinIndex j => isIndex j
  | .switchIndex w => isIndex w
  | .pairRelayPacket k entry _ => isIndex k && decide (entry < 64)
  | .pairConfig k p => isIndex k && packetOk 0x1100 p
  | .pairJoin k p => isIndex k && packetOk 0x1101 p
  | .pairLeave k p => isIndex k && packetOk 0x1102 p
  | .pairSwitch k p => isIndex k && packetOk 0x1103 p
  | .pairTakeover k p => isIndex k && packetOk 0x1104 p
  | .pairStatus k p => isIndex k && packetOk 0x1105 p
  | .powerOn _ _ _ => true
  | .pwrGoodLow k => isIndex k
  | .resetNLow k => isIndex k
  | .pcieReset k => isIndex k
  | .bootStartTimeout k => isIndex k
  | .lockstepMismatch k pair _ _ _ => isIndex k && decide (pair < 2)
  | .coreSelftestEnd k pair _ => isIndex k && decide (pair < 2)
  | .watchdogExpiry k missed => isIndex k && decide (missed < 4)
  | .thermalTripEvent k input _ => isIndex k && decide (16 ≤ input ∧ input ≤ 19)
  | .tileLinkSeqFail k tile => isIndex k && decide (tile < 2)
  | .tileLinkRetrain k tile => isIndex k && decide (tile < 2)
  | .tileRetrainEnd k tile _ => isIndex k && decide (tile < 2)
  | .fwImageReady k _ => isIndex k
  | .flashEraseEnd k => isIndex k
  | .diagReset k p => isIndex k && packetOk 0x1200 p
  | .diagFault k p => isIndex k && packetOk 0x1201 p
  | .diagEcc k p => isIndex k && packetOk 0x1202 p
  | .bbRead k p => isIndex k && packetOk 0x1203 p
  | .bbFreeze k p => isIndex k && packetOk 0x1204 p
  | .bbClear k p => isIndex k && packetOk 0x1205 p
  | .diagWatchdog k p => isIndex k && packetOk 0x1206 p
  | .fwStatus k p => isIndex k && packetOk 0x1300 p
  | .fwLoad k p => isIndex k && packetOk 0x1301 p
  | .fwVerify k p => isIndex k && packetOk 0x1302 p
  | .fwActivate k p => isIndex k && packetOk 0x1303 p
  | .tapReset k => isIndex k
  | .tapInstructionLoad k code levels shifted => isIndex k && decide (code < 256)
    && (levels.isEmpty && shifted.isEmpty || levels.length == scanCells && shifted.length == scanCells)
  | .gauntletSelect k => isIndex k
  | .gauntletResponse k _ => isIndex k
  | .dbgRead k space addr _ => isIndex k && decide (space < 8) && decide (addr < 2 ^ 32)
  | .dbgWrite k space addr _ _ => isIndex k && decide (space < 8) && decide (addr < 2 ^ 32)
  | .dbgCtrlLock k => isIndex k
  | .dctrlHalt k pair _ => isIndex k && decide (pair < 2)
  | .dctrlResume k pair => isIndex k && decide (pair < 2)
  | .dctrlStep k pair => isIndex k && decide (pair < 2)
  | .breakpointHit k pair number _ => isIndex k && decide (pair < 2) && decide (number < 4)
  | .watchpointHit k pair number _ => isIndex k && decide (pair < 2) && decide (number < 2)
  | .refEdgesReturn k => isIndex k
  | .resetNRelease k => isIndex k
  | .pcieLinkUp k _ _ => isIndex k
  | .partnerStrobeEdge k => isIndex k
  | .partnerStrobeTimeout k => isIndex k
  | .levelInactive k input => isIndex k && decide (input < 12)
  | .thermalTripClear k => isIndex k
  | .hostRingIntTime k entry => isIndex k && decide (entry < 64)

end Sys2Proof
end

