-- ==== Sys2Proof/Tests/Slice0.lean ====
section
/-! SUPPORT. Tests of the model: ill-formed commands that are refused, worked examples of the spec, and for every obligation concrete states and
operands that meet the hypotheses of each of its clauses. Where a clause asks for a signature that is right, or for a place that Config leaves open, its witness
has that as its premise. -/

namespace Sys2Proof.Tests

open Sys2Proof Sys2Proof.Machine

set_option maxRecDepth 4000
set_option Elab.async false

/-- A SAMPLE_INDEX on the SC grid and on the rotation grid. -/
def at0 : Nat := 67108864

/-- A device after its boot in QUIET: locked, with the LAYER and MQ partitions, its PCIe link up. -/
def ready : State :=
  { State.reset with
    ready := true, index := at0, time := { TimeUnit.power with tb := .locked, everLocked := true, refPresent := true },
    pool := { Pool.power with parts := [newPart 6 0 24 6, newPart 7 0 1 7] }, hub := { HubUnit.power with pcieUp := true } }

/-- The same device in another mode. -/
def inMode (m : Mode) : State := { ready with mode := m }

/-- In ANALYSE with seven partitions of 32 AU, one for each role. -/
def full : State := { inMode .analyse with pool := { Pool.power with parts := (List.range 8).tail.map fun i => newPart i 0 32 i } }

/-- With a GENERAL partition of one AU in slot 8. -/
def mem8 : State := { ready with pool := { Pool.power with parts := [newPart 6 0 24 6, newPart 7 0 1 7, newPart 8 0 1 0] } }

/-- A packet from the management SPI. -/
def pk (opcode : Nat) (flags : Byte) (words : List Word) : Packet :=
  { src := .spi, words := [BitVec.ofNat 32 (opcode + flags.toNat * 2 ^ 16 + words.length * 2 ^ 24), 1, BitVec.ofNat 32 (at0 + 3200000), 0] ++ words,
    fetched := none }

/-- The same packet from queue pair 0. -/
def onQp (p : Packet) : Packet := { p with src := .qp 0 }

/-- A command held for the index at0 + 32000. -/
def held (opcode : Nat) (flags : Byte) (words : List Word) : Cmd :=
  { id := 0, opcode := opcode, src := .spi, flags := flags, plen := words.length, tag := 1, atIndex := at0 + 32000, inline := words, fetched := none,
    arrival := at0, phase := .held (some (at0 + 32000)), replied := false, mute := false, origin := 16, mseq := 0 }

/-- A command that has started and not completed. -/
def running (opcode : Nat) (words : List Word) : Cmd := { held opcode 0 words with phase := .running }

/-- A device that holds one command. -/
def holding (c : Cmd) (s : State) : State := { s with nextId := 1, cmds := [c] }

/-- The row that fires a held command. -/
def firing (c : Cmd) : Instr := if c.opcode = 1 then .modeChangeEffect else if c.timed then .timedExecute else .scheduledEffect

/-- The hypotheses under which a command without TIMED is served at once. -/
abbrev Served (sp : CmdSpec) (p : Packet) (s : State) (pre : Cmd → State → Prop) : Prop :=
  accepted sp at0 p s = true ∧ (rowCmd at0 p s).timed = false ∧ pre (rowCmd at0 p s) (rowState at0 p s)

/-- The hypotheses under which a held command falls due. -/
abbrev Due (sp : CmdSpec) (c : Cmd) (s : State) (pre : Cmd → Nat → State → Prop) : Prop :=
  due sp c (at0 + 32000) s = true ∧ pre c (at0 + 32000) (passTo (at0 + 32000) s)

/-- The hypotheses of an event. -/
abbrev Now (k : Nat) (s : State) (pre : Nat → State → Prop) : Prop := s.quiet = true ∧ hasMirror s = false ∧ pre k (passTo k s)

/-- A PPS edge at the stamp of the last accepted one is not accepted, whatever the factory data say. -/
theorem pps_close (s : State) (d : Nat) (hl : s.time.ppsAt = some (d : Int)) (hp : 0 < second16 s) : ppsAccepts s d = false := by
  simp only [ppsAccepts, hl, Int.sub_self, Bool.or_eq_false_iff, decide_eq_false_iff_not]
  constructor <;> omega

/-- The parameter words of a MEM_WRITE to slot 8. -/
theorem mem_words (c : Cmd) (h1 : c.inline = [8, 0, 64, 0, 0, 0]) (h2 : c.indirect = false) (h3 : c.plen = 6) :
    c.word 0 = ([8, 0, 64, 0, 0, 0] : List Word).getD 0 0 ∧ transferOk c (newPart 8 0 1 0) = true := by
  have hp : c.params.take c.plen = [8, 0, 64, 0, 0, 0] := by rw [Cmd.params, h2, h3, h1]; rfl
  simp only [transferOk, Cmd.arg64, Cmd.word, hp]
  decide +kernel

/-- The first words of an image: MAGIC, LAYOUT 1, LENGTH 1, the compatible levels 1 to 1, SECVER 0 (R621), byte by byte as the flash holds them. -/
def goodImage : List Host.Cell :=
  (List.range 24).map fun i => (i, ([1, 0x4E, 0x5A, 0x4A, 1, 0, 0, 0, 1, 0, 0, 0, 0, 0, 0, 0, 1, 0, 1, 0, 0, 0, 0, 0] : List Byte).getD i 0 ^^^ 0xFF#8)

/-- That image is valid if its signature is. -/
theorem good_valid (fw : Firmware) (slot : Nat) (hs : fw.slots.getD slot default = { data := goodImage, valid := false }) (hv : fw.fusedSecver = 0)
    (h : Config.signatureOk (imageBytes { data := goodImage, valid := false }) = true) : validImage fw slot = true := by
  unfold validImage
  simp only [hs, hv, h, Bool.and_true]
  decide +kernel

/-- A device held in reset whose slot A holds that image. -/
def bootable : State :=
  { ready with hub := { ready.hub with resetLow := true, fw := { Firmware.power with slots := [{ data := goodImage, valid := false }, { data := [], valid := false }] } } }

/-- A word-aligned address in the first 384 AUs is an address of the pool space. -/
theorem place_low (a : Nat) (h : a < 384) : dbgPlace 2 (a * 2 ^ 20) = true := by
  simp only [dbgPlace, Bool.and_eq_true, beq_iff_eq, decide_eq_true_eq]
  omega

/-- The first AU of slot 8 is found by its place. -/
theorem place_at (s : State) (a addr : Nat) (hs : s.pool.parts = [newPart 8 0 1 0]) (ha : Config.auPlace 8 0 0 = a) (h1 : addr / 2 ^ 20 = a)
    (h2 : addr % 2 ^ 20 = 0) : poolPlace s addr = some (newPart 8 0 1 0, 0) := by
  have hr : List.range (newPart 8 0 1 0).au = [0] := rfl
  have hg : (newPart 8 0 1 0).generation = 0 := rfl
  have hl : (newPart 8 0 1 0).slot = 8 := rfl
  simp only [poolPlace, hs, List.findSome?_cons, hr, List.find?_cons, hg, hl, ha, h1, beq_self_eq_true, Option.map_some, h2, Nat.zero_mul, Nat.add_zero]

/-- That row is the row of the command. -/
theorem firing_fits (c : Cmd) : firesIt c (firing c) := by
  unfold firing firesIt
  split
  · exact .inr (.inr ⟨rfl, ‹_›⟩)
  · split
    · exact .inl ⟨rfl, ‹_›⟩
    · exact .inr (.inl ⟨rfl, by simpa using ‹¬ c.timed = true›, ‹_›⟩)

/-- SYS_NOP and TRIG_FORCE are rows of the table. -/
theorem nop_row : (Instr.sysNop, specSysNop) ∈ commandRows := by
  unfold commandRows rows00
  simp only [List.append_assoc]
  exact .head _

theorem force_row : (Instr.trigForce, specTrigForce) ∈ commandRows := by
  unfold commandRows rows07
  simp

/-- The boot chooses that image, and runs it. -/
theorem boot_choice (h : Config.signatureOk (imageBytes { data := goodImage, valid := false }) = true) :
    bootChoice (powerDown bootable).hub.fw = some (0, false) := if_pos (good_valid _ _ rfl rfl h)

theorem ready_after (h : Config.signatureOk (imageBytes { data := goodImage, valid := false }) = true) :
    (evPowerOn none false 0 bootable).ready = true := by
  have hb : bootNow false (powerDown bootable)
      = runFirmware 0 (setFw bootVerify { powerDown bootable with bb := { (powerDown bootable).bb with fallback := false } }) := by
    unfold bootNow
    rw [boot_choice h]
    rfl
  unfold evPowerOn
  simp only [hb]
  rfl

/-- A forwarded command, a heartbeat, and a KA-2820 with the ring of channel 1 bound. -/
def fwd : Forwarded := { mseq := 1, origin := 0, opcode := 1, flags := 0, tag := 1, atIndex := 0, params := [], data := [] }

def beat : Heartbeat :=
  { primary := true, mirror := false, eligible := true, hbTimeout := 50, live := 1, mseq := 0, index := 0, coasting := false, lastSent := [] }

def sheafReady : State :=
  { ready with variant := .ka2820, pool := { Pool.power with parts := [newPart 1 0 32 1] }, cap := { ready.cap with
      rings := [{ kind := 0, unit := 1, handle := 1, auOffset := 0, auCount := 1, depth := 100000, recSize := 0, run := none, past := none, bad := [], records := [] }] } }

/-- The status with which a packet is refused, if it is. -/
def statusOf (sp : CmdSpec) (p : Packet) (s : State) : Option Status := checkCmd sp (rowCmd at0 p s) (rowState at0 p s)

/-- The outcome is a next state of which `f` holds. -/
def nextIs (o : Host.Outcome State Fault Refusal) (f : State → Bool) : Bool :=
  match o with
  | .next t => f t
  | _ => false

/-! ### Ill-formed commands are refused, one for each check -/

theorem test_ill_index : (Instr.tapReset (2 ^ 64)).wellFormed = false ∧ (Instr.joinIndex (2 ^ 64)).wellFormed = false
    ∧ (Instr.lockConfirmed (2 ^ 64) 0).wellFormed = false ∧ (Instr.syncEdgeCapture (2 ^ 64) false).wellFormed = false
    ∧ (Instr.tapReset (2 ^ 64 - 1)).wellFormed = true := by decide +kernel

theorem test_ill_packet : (Instr.sysNop 0 (pk 1 0 [])).wellFormed = false ∧ (Instr.sysNop 0 { pk 0 0 [5] with words := [0x01000000] }).wellFormed = false
    ∧ (Instr.sysNop 0 (onQp (pk 0 0 []))).wellFormed = false ∧ (Instr.sysNop 0 { pk 0 0 [] with src := .pairLink }).wellFormed = false
    ∧ (Instr.sysNop 0 (pk 0 0 [])).wellFormed = true := by decide +kernel

theorem test_ill_fetch : (Instr.commandFetch 0 0 (.entry [] none)).wellFormed = false ∧ (Instr.commandFetch 0 0 .dmaError).wellFormed = true
    ∧ (Instr.commandFetch 0 0 (.entry (List.replicate 64 0) none)).wellFormed = true := by decide +kernel

theorem test_ill_register : (Instr.registerWrite 0 6 4 0 0).wellFormed = false ∧ (Instr.registerWrite 0 0 3 0 0).wellFormed = false
    ∧ (Instr.registerWrite 0 5 8 0 0).wellFormed = true
    ∧ (Instr.indexLoRead 0 3 0x110).wellFormed = false ∧ (Instr.indexLoRead 0 4 0x114).wellFormed = false := by decide +kernel

theorem test_ill_forwarded : (Instr.forwardedCommand 0 { fwd with mseq := 2 ^ 32 }).wellFormed = false
    ∧ (Instr.forwardedCommand 0 { fwd with origin := 18 }).wellFormed = false ∧ (Instr.forwardedCommand 0 { fwd with opcode := 65536 }).wellFormed = false
    ∧ (Instr.forwardedCommand 0 { fwd with atIndex := 2 ^ 64 }).wellFormed = false
    ∧ (Instr.forwardedCommand 0 { fwd with params := List.replicate 256 0 }).wellFormed = false ∧ (Instr.forwardedCommand 0 fwd).wellFormed = true := by
  decide +kernel

theorem test_ill_heartbeat : (Instr.heartbeatReceive 0 { beat with primary := true, mirror := true }).wellFormed = false
    ∧ (Instr.heartbeatReceive 0 { beat with live := 2 ^ 32 }).wellFormed = false ∧ (Instr.heartbeatReceive 0 { beat with mseq := 2 ^ 32 }).wellFormed = false
    ∧ (Instr.heartbeatReceive 0 beat).wellFormed = true := by decide +kernel

theorem test_ill_numbers : (Instr.memFreeRelease 0 256).wellFormed = false ∧ (Instr.overRange 4 0 []).wellFormed = false
    ∧ (Instr.eqHeldStart 0 4).wellFormed = false ∧ (Instr.densityFrameClose 0 4 false false).wellFormed = false
    ∧ (Instr.rewindDone 0 64).wellFormed = false ∧ (Instr.hostRingIntTime 0 64).wellFormed = false ∧ (Instr.pauseFrame 0 4).wellFormed = false
    ∧ (Instr.pkJobEnd 0 2 [] []).wellFormed = false ∧ (Instr.mqItemAccept 0 0).wellFormed = false ∧ (Instr.mqItemAccept 0 6).wellFormed = false
    ∧ (Instr.mqItemAccept 0 5).wellFormed = true := by decide +kernel

theorem test_ill_units : (Instr.tdcEdge 0 12 0 0).wellFormed = false ∧ (Instr.tdcEdge 0 0 0 512).wellFormed = false ∧ (Instr.probeLaunch 0 8).wellFormed = false ∧ (Instr.dctrlHalt 0 2 []).wellFormed = false
    ∧ (Instr.watchdogExpiry 0 4).wellFormed = false ∧ (Instr.thermalTripEvent 0 15 0).wellFormed = false ∧ (Instr.tileLinkSeqFail 0 2).wellFormed = false
    ∧ (Instr.breakpointHit 0 0 4 []).wellFormed = false ∧ (Instr.watchpointHit 0 0 2 []).wellFormed = false
    ∧ (Instr.tapInstructionLoad 0 256 [] []).wellFormed = false ∧ (Instr.dbgRead 0 8 0 []).wellFormed = false ∧ (Instr.dbgRead 0 0 (2 ^ 32) []).wellFormed = false
    ∧ (Instr.arpRequest 0 0 (2 ^ 48) 0 0).wellFormed = false ∧ (Instr.neighbourSolicitation 0 0 0 [] []).wellFormed = false := by decide +kernel

/-! ### The queue and the table's words -/

theorem test_idle : step State.reset = .next State.reset := rfl

theorem test_no_word : decodeTableWord 32 0x10000 = none ∧ State.reset.withFetchWord 32 0x10000 = State.reset := ⟨rfl, rfl⟩

/-! ### Worked examples and rules of the spec -/

/-- R49, R87: SYS_NOP answers OK with its TAG and opcode, and SPI reads the entry. -/
theorem test_nop_reply : nextIs (exec (.sysNop at0 (pk 0 0 [])) ready) (fun t =>
    t.spi.unread == [(false, { tag := 1, opcode := 0, status := .ok, rlen := 0, index := at0, payload := [] })] && t.cmds == []) = true := by decide +kernel

/-- The cable example of chapter 4: words 0x5256_0000 and 0x0000_0002 give P_0 = 9,971,302,400, which is 152.150 ns. -/
theorem test_offset_example : nextIs (exec .scheduledEffect (holding (held 0x0207 0 [0, 0x52560000, 2]) ready)) (fun t =>
    (t.time.offsets.getD 0 []).head? == some (at0 + 32000, 9971302400)) = true := by decide +kernel

/-- The radar pulse of chapter 5: the last OVR sample 198 of channel 0 gives guard samples to 278 with OVR_GUARD = 80, and NBR on channel 1 to 230. -/
def pulse : State :=
  { ready with conv := { ready.conv with
      channels := List.replicate 4 { Channel.power with guards := [(0, 80)] }, signal := [{ channel := 0, first := 198, values := [3000] }] } }

theorem test_pulse_example : guardRanges pulse 0 = [(199, 279)] ∧ tileNbr pulse 1 = [(199, 231)] ∧ tileNbr pulse 2 = [] := by decide +kernel

/-- R167, R182: the nearest code, ties up, limited to ±full scale; OVR from 2,047.5 LSB up and below −2,048.5 LSB. -/
theorem test_sample_code : sampleCode (5 / 2) = 3 ∧ sampleCode (-5 / 2) = -2 ∧ sampleCode 5000 = 2047 ∧ sampleCode (-5000) = -2048
    ∧ overScale (4095 / 2) = true ∧ overScale 2047 = false ∧ overScale (-(4097 / 2)) = false ∧ overScale (-2049) = true := by decide +kernel

/-- R41: the fields of a header, word by word. -/
theorem test_header : opcodeOf (pk 0x0300 0x20 [7]) = 0x0300 ∧ flagsOf (pk 0x0300 0x20 [7]) = 0x20 ∧ plenOf (pk 0x0300 0x20 [7]) = 1
    ∧ tagOf (pk 0x0300 0x20 [7]) = 1 ∧ atOf (pk 0x0300 0x20 [7]) = at0 + 3200000 ∧ inlineOf (pk 0x0300 0x20 [7]) = [7] := by decide +kernel

/-- The retune of chapter 6: K = 8,000 gives H = 10 and a group delay of 110,329 samples. -/
theorem test_tuner_example : tunerH false (8000 * 2 ^ 32) = 10 ∧ tunerDelay false (8000 * 2 ^ 32) 0 = 110329 * 2 ^ 32 := by decide +kernel

/-- The mask of chapter 9: its limits at columns 818 and 821 of 1,638. -/
theorem test_mask_example :
    let m : TrigMask := { settings := [], table := [(0, 59136), (1, 59136), (2, 61696), (3, 59136)] }
    let x : MaskSettings := { zoom := false, below := false, offset := 0, base := 0, npts := 4 }
    maskLimit m x 1638 818 = some (-5122) ∧ maskLimit m x 1638 821 = some (-5108) := by decide +kernel

/-- AUXIN0 at 0.750 V in chapter 16: CODE 5,242,880 is 750,000 µV. -/
theorem test_monitor_example : roundDiv (5242880 * 1200000) (2 ^ 23) = 750000 := by decide +kernel

/-- The four attempts of chapter 24 at CAP_SHEAF_CONFIG on a KA-2820, S1 with the ring of channel 1: BAD_LENGTH, BAD_PARAM, NO_UNIT, OK. -/
theorem test_sheaf_example :
    statusOf specCapSheafConfig (pk 0x0801 0 [0x121, 0, 1024, 1, 1, 1048576, 0, 1, 64, 0]) sheafReady = some .badLength
    ∧ statusOf specCapSheafConfig (pk 0x0801 1 [0x121, 0, 1024, 1, 1, 1048576, 0, 1, 64, 3, 64, 64]) sheafReady = some .badParam
    ∧ statusOf specCapSheafConfig (pk 0x0801 0 [0x121, 0, 1024, 1, 1, 1048576, 0, 1, 64, 3, 64, 64]) sheafReady = some .noUnit
    ∧ statusOf specCapSheafConfig (pk 0x0801 0 [0x121, 0, 1024, 1, 1, 1048576, 0, 1, 64]) sheafReady = none := by decide +kernel

/-- TRIG_FORCE in QUIET with too short a lead time answers MODE, which comes before LATE (chapter 24). -/
theorem test_force_example : statusOf specTrigForce (pk 0x0704 1 [0]) ready = some .mode := by decide +kernel

/-- R274: a decay step takes the rounded-up eighth of a count. -/
theorem test_decay : decayed 3 8 = 7 ∧ decayed 3 1 = 0 ∧ decayed 3 9 = 7 := by decide +kernel

/-- The check value of CRC-32C, over the digits 1 to 9. -/
theorem test_crc : crc32c [0x31, 0x32, 0x33, 0x34, 0x35, 0x36, 0x37, 0x38, 0x39] = 0xE3069283 := by decide +kernel

/-- R120: fs is 20.000 GS/s after reset. -/
theorem test_fs : fsOf State.reset.time = 20000000000 := by decide +kernel

/-- R623: without a valid image the ROM serves the device, with FAULT_N asserted. -/
theorem test_recovery : nextIs (exec (.powerOn none true 0) State.reset) (fun t => t.hub.fw.recovery && bit t.faultCause 0 && !t.ready) = true := by
  decide +kernel

/-- R98, R112: a partition of one AU takes a free slot, reads zero and names its role. -/
theorem test_alloc : nextIs (exec (.memAlloc at0 (pk 0x0100 0 [1])) ready) (fun t => t.pool.parts.length == 3 && t.spi.unread.length == 1) = true := by decide +kernel

/-! ### Witnesses: for each obligation, states and operands that meet the hypotheses of each of its clauses -/

theorem test_witness_StepRunsFront :
    (({ ready with pending := [.timedExecute] } : State).pending = (.timedExecute : Instr) :: ([] : List Instr))
    ∧ ((State.reset : State).pending = []) := by
  and_intros <;> decide +kernel

theorem test_witness_SystemCommands :
    Served specSysNop (pk 0x0000 0 []) ready (fun _ _ => True)
    ∧ Served specSysNoticeRoute (pk 0x0002 0 [256]) ready (fun _ _ => True)
    ∧ Served specSysCancel (pk 0x0003 0 [1, 0]) (holding (held 0 1 []) ready) (fun c s => (cancelTarget c s).isSome = true)
    ∧ Served specSysCancel (pk 0x0003 0 [1, 0]) ready (fun c s => cancelTarget c s = none)
    ∧ Served specSysGetIndex (pk 0x0004 0 []) ready (fun _ _ => True)
    ∧ Served specSysCtlport (pk 0x0005 0 [582483969, 0, 0, 0, 0, 0]) ({ ready with ctlport := { CtlPort.power with portEn := 2 } })
      (fun c s => c.arg 0 3 0 ≠ 0 ∧ s.ctlport.portEn ≠ 0)
    ∧ Served specSysGetMode (pk 0x0006 0 []) ready (fun _ s => s.mode ≠ .shadow ∧ s.cmds.all (fun d => !isPendingMode d) = true)
    ∧ Served specSysCompat (pk 0x0007 0 [1]) ready (fun c s => s.compat = 1 ∧ c.arg 0 15 0 = 1) := by
  and_intros <;> decide +kernel

theorem test_witness_MemoryCommands :
    Served specMemAlloc (pk 0x0100 0 [1]) ready (fun _ _ => True)
    ∧ Served specMemFree (pk 0x0101 0 [8]) mem8 (fun c s => partForUse s (c.word 0) = some (newPart 8 0 1 0 : Partition) ∧ refsOf
      s (newPart 8 0 1 0 : Partition).handle = 0)
    ∧ Served specMemFree (pk 0x0101 0 [7]) ready (fun c s => partForUse s (c.word 0) = some (newPart 7 0 1 7 : Partition) ∧ refsOf
      s (newPart 7 0 1 7 : Partition).handle ≠ 0)
    ∧ Served specMemQuery (pk 0x0102 0 [7]) ready (fun c s => partByHandle s (c.word 0) = some (newPart 7 0 1 7 : Partition))
    ∧ Served specMemQuery (pk 0x0102 0 [0]) ready (fun c s => partByHandle s (c.word 0) = none)
    ∧ Served specMemScrub (pk 0x0103 0 [60]) ready (fun _ _ => True)
    ∧ Served specMemRead (onQp (pk 0x0104 0 [8, 0, 64, 0, 0, 0])) mem8 (fun _ _ => True)
    ∧ Served specMemWrite (onQp (pk 0x0105 0 [8, 0, 64, 0, 0, 0])) mem8 (fun _ _ => True) := by
  and_intros <;> decide +kernel

theorem test_witness_TimeCommands :
    (accepted specTimeSpllConfig at0 (pk 0x0200 0 [100000000, 0xC80001, 0, 0] : Packet) (ready : State) = true ∧ (ready :
      State).pair.role = .solo ∧ (ready : State).cmds = [])
    ∧ Served specTimeStatus (pk 0x0201 0 []) ready (fun _ _ => True)
    ∧ Served specTimeSetEpoch (pk 0x0202 0 [5, 0]) ready (fun _ _ => True)
    ∧ Served specTimeSync (pk 0x0203 0 [256, 0, 0, 0]) ready (fun _ _ => True)
    ∧ Served specTimeRefPolicy (pk 0x0204 0 [6553600, 4096100]) ready (fun _ _ => True)
    ∧ Served specTimeRefResume (pk 0x0205 0 [0]) ready (fun _ s => s.time.tb = .locked)
    ∧ Served specTimeRefResume (pk 0x0205 0 [0]) ({ ready with time := { ready.time with tb := .holdover } }) (fun _ s =>
      s.time.tb = .holdover)
    ∧ Served specTimeRefResume (pk 0x0205 0 [1]) ({ ready with time := { ready.time with tb := .qualified, jumpKnown := true } })
      (fun c s => s.time.tb = .qualified ∧ s.time.jumpKnown = true ∧ c.flag 0 0 = true ∧ hasMirror s = false)
    ∧ Served specTimePpsConfig (pk 0x0206 0 [409600000]) ready (fun _ _ => True)
    ∧ accepted specTimeOffset at0 (pk 0x0207 0 [0, 0, 0]) ready = true
    ∧ Due specTimeOffset (held 0x0207 0 [0, 0, 0]) (holding (held 0x0207 0 [0, 0, 0]) ready) (fun _ _ _ => True)
    ∧ Served specTimeGetOffset (pk 0x0208 0 [0]) ready (fun _ _ => True)
    ∧ Served specTimePpsRead (pk 0x0209 0 []) ({ ready with time := { ready.time with ppsLast := some 5 } }) (fun _ s =>
      s.time.ppsLast = some 5)
    ∧ Served specTimePpsRead (pk 0x0209 0 []) ready (fun _ s => s.time.ppsLast = none)
    ∧ Served specTimePtpAdjust (pk 0x020A 0 [0, 0, 0]) ready (fun c _ => c.flag 0 0 = false)
    ∧ Served specTimePtpAdjust (pk 0x020A 0 [1, 0, 0]) ready (fun c _ => c.flag 0 0 = true) := by
  and_intros <;> decide +kernel

theorem test_witness_ConverterCommands :
    Served specConvConfig (pk 0x0300 0 [0]) ready (fun _ _ => True)
    ∧ accepted specConvAtten at0 (pk 0x0301 0 [1, 3]) ready = true
    ∧ accepted specConvInput at0 (pk 0x0302 0 [1]) ready = true
    ∧ Due specConvAtten (held 0x0301 0 [1, 3]) (holding (held 0x0301 0 [1, 3]) ready) (fun _ _ _ => True)
    ∧ Due specConvInput (held 0x0302 0 [1]) (holding (held 0x0302 0 [1]) ready) (fun _ _ _ => True)
    ∧ Served specConvRotation (pk 0x0303 0 [20]) ready (fun _ _ => True)
    ∧ Served specConvStatus (pk 0x0304 0 [0]) ready (fun c _ => c.flag 0 8 = false)
    ∧ Served specConvStatus (pk 0x0304 0 [256]) ready (fun c _ => c.flag 0 8 = true)
    ∧ Served specConvAttenInfo (pk 0x0305 0 [256]) ready (fun _ _ => True) := by
  and_intros <;> decide +kernel

theorem test_witness_TunerCommands :
    Served specEqLoad (pk 0x0400 0 [256, 0, 0, 0, 0, 0, 0, 0, 0, 0, 0, 0, 0, 0, 0, 0, 0, 0, 0, 0, 0, 0, 0, 0, 0, 0, 0, 0, 0, 0,
      0, 0, 0, 0, 0]) ready (fun c _ => ({ taps := List.replicate 64 0, bulk := 0, delayInt := 0, delayFrac := 0 } : EqBank).taps
      = (List.range 64).map (fun i => signed 16 (c.arg (3 + i / 2) (16 * (i % 2) + 15) (16 * (i % 2)))) ∧ ({ taps := List.replicate 64 0, bulk := 0, delayInt := 0, delayFrac := 0 }
      : EqBank).bulk = c.arg 0 25 16 ∧ ({ taps := List.replicate 64 0, bulk := 0, delayInt := 0, delayFrac := 0 } :
      EqBank).delayInt = c.arg 1 5 0 ∧ ({ taps := List.replicate 64 0, bulk := 0, delayInt := 0, delayFrac := 0 } :
      EqBank).delayFrac = (c.word 2).toNat)
    ∧ (due specEqSwap (held 0x0401 0 [0x100] : Cmd) (at0 + 32000 : Nat) (holding (held 0x0401 0 [0x100]) ready : State) = true ∧
      firing (held 0x0401 0 [0x100] : Cmd) = (.scheduledEffect : Instr))
    ∧ Served specEqStatus (pk 0x0402 0 [0]) ready (fun c s => c.arg 0 1 0 = 0 ∧ 0 < s.eqs.length ∧ (Equaliser.power : Equaliser) =
      endSwap s.index (s.eqs.getD 0 default))
    ∧ accepted specEqSwap at0 (pk 0x0401 0 [256]) ready = true
    ∧ accepted specTunerConfig at0 (pk 0x0403 0 [1, 0, 64, 0, 0]) ready = true
    ∧ accepted specTunerRetune at0 (pk 0x0404 0 [0, 0, 0, 0]) ready = true
    ∧ accepted specTunerEnable at0 (pk 0x0405 0 [1]) ready = true
    ∧ Due specTunerConfig (held 0x0403 0 [1, 0, 64, 0, 0]) (holding (held 0x0403 0 [1, 0, 64, 0, 0]) ready) (fun _ _ _ => True)
    ∧ Due specTunerRetune (held 0x0404 0 [0, 5, 0, 0]) (holding (held 0x0404 0 [0, 5, 0, 0]) ready) (fun c _ _ => c.flag 0 8 =
      false ∧ 5 = (c.word 1).toNat + c.arg 2 15 0 * 2 ^ 32)
    ∧ Due specTunerRetune (held 0x0404 0 [257, 5, 0, 0]) (holding (held 0x0404 0 [257, 5, 0, 0]) ready) (fun c _ _ => c.flag 0 8 =
      true ∧ 5 = (c.word 1).toNat + c.arg 2 15 0 * 2 ^ 32)
    ∧ Due specTunerEnable (held 0x0405 0 [1]) (holding (held 0x0405 0 [1]) ready) (fun c _ _ => c.flag 0 8 = false)
    ∧ Due specTunerEnable (held 0x0405 0 [257]) (holding (held 0x0405 0 [257]) (inMode .analyse)) (fun c _ s => c.flag 0 8 = true
      ∧ modeRunsProducts (runMode s) = true)
    ∧ Served specTunerStatus (pk 0x0406 0 [0]) ready (fun c s => (Tuner.power : Tuner) = s.tuners.getD (c.arg 0 2 0) default) := by
  and_intros <;> decide +kernel

theorem test_witness_ProductCommands :
    accepted specSpecConfig at0 (pk 0x0500 0 [659457, 512, 0, 512, 1, 0, 0]) ready = true
    ∧ Due specSpecConfig (held 0x0500 0 [659457, 512, 0, 512, 1, 0, 0]) (holding (held 0x0500 0 [659457, 512, 0, 512, 1, 0, 0])
      ready) (fun _ _ _ => True)
    ∧ accepted specSpecEnable at0 (pk 0x0501 0 [257]) (inMode .analyse) = true
    ∧ Due specSpecEnable (held 0x0501 0 [257]) (holding (held 0x0501 0 [257]) (inMode .analyse)) (fun _ _ _ => True)
    ∧ accepted specSpecOutput at0 (pk 0x0502 0 [1, 1]) ready = true
    ∧ Due specSpecOutput (held 0x0502 0 [1, 1]) (holding (held 0x0502 0 [1, 1]) ready) (fun _ _ _ => True)
    ∧ Served specSpecWindowLoad (pk 0x0503 0 [65536, 0, 2147450879]) ready (fun c s => (loadedTable (rowCmd at0 (pk 0x0503 0
      [65536, 0, 2147450879]) ready) (userBank (engineOf ready 0) false) : List (Nat × Nat)) = loadedTable c (userBank (engineOf s
      (c.arg 0 2 0)) (c.flag 0 8)) ∧ c.flag 0 16 = true)
    ∧ Served specSpecWindowLoad (pk 0x0503 0 [0, 0, 2147450879]) ready (fun c s => (loadedTable (rowCmd at0 (pk 0x0503 0 [0, 0,
      2147450879]) ready) (userBank (engineOf ready 0) false) : List (Nat × Nat)) = loadedTable c (userBank (engineOf s (c.arg 0 2
      0)) (c.flag 0 8)) ∧ c.flag 0 16 = false)
    ∧ Served specSpecStatus (pk 0x0504 0 [0]) ready (fun c s => (engineOf ready 0 : Engine) = engineOf s (c.arg 0 2 0))
    ∧ accepted specDensConfig at0 (pk 0x0600 0 [16806912, 512, 4194304, 10416667, 0, 0, 0, 0, 0]) ready = true
    ∧ Due specDensConfig (held 0x0600 0 [16806912, 512, 4194304, 10416667, 0, 0, 0, 0, 0]) (holding (held 0x0600 0 [16806912, 512,
      4194304, 10416667, 0, 0, 0, 0, 0]) ready) (fun _ _ _ => True)
    ∧ accepted specDensEnable at0 (pk 0x0601 0 [1]) ready = true
    ∧ Due specDensEnable (held 0x0601 0 [257]) (holding (held 0x0601 0 [257]) (inMode .analyse)) (fun c _ _ => c.flag 0 8 = true)
    ∧ Due specDensEnable (held 0x0601 0 [1]) (holding (held 0x0601 0 [1]) ready) (fun c _ _ => c.flag 0 8 = false)
    ∧ accepted specDensClear at0 (pk 0x0602 0 [1]) ready = true
    ∧ Due specDensClear (held 0x0602 0 [1]) (holding (held 0x0602 0 [1]) ready) (fun _ _ _ => True)
    ∧ (0 < (ready : State).dens.length ∧ (densOf (ready : State) 0).late = [] ∧ reached (ready : State) (densEngine 0 (densOf
      (ready : State) 0)) at0 = true)
    ∧ Served specDensStatus (pk 0x0603 0 [0]) ready (fun _ _ => True)
    ∧ accepted specSpgmConfig at0 (pk 0x0604 0 [4096, 1, 4194304, 0, 0, 0, 0, 0, 0]) ready = true
    ∧ Due specSpgmConfig (held 0x0604 0 [4096, 1, 4194304, 0, 0, 0, 0, 0, 0]) (holding (held 0x0604 0 [4096, 1, 4194304, 0, 0, 0,
      0, 0, 0]) ready) (fun _ _ _ => True)
    ∧ accepted specSpgmEnable at0 (pk 0x0605 0 [1]) ready = true
    ∧ Due specSpgmEnable (held 0x0605 0 [1]) (holding (held 0x0605 0 [1]) ready) (fun _ _ _ => True)
    ∧ (0 < (ready : State).spgm.length ∧ (spgmOf (ready : State) 0).late = [] ∧ reached (ready : State) (spgmOf (ready : State)
      0).cfg.engine at0 = true)
    ∧ Served specSpgmStatus (pk 0x0606 0 [0]) ready (fun _ _ => True) := by
  and_intros <;> decide +kernel

theorem test_witness_TriggerCommands :
    accepted specTrigSlotConfig at0 (pk 0x0700 0 [0, 0, 0, 0, 0, 0, 0, 0, 0, 0, 0]) ready = true
    ∧ Due specTrigSlotConfig (held 0x0700 0 [0, 0, 0, 0, 0, 0, 0, 0, 0, 0, 0]) (holding (held 0x0700 0 [0, 0, 0, 0, 0, 0, 0, 0, 0,
      0, 0]) ready) (fun _ _ _ => True)
    ∧ accepted specTrigArm at0 (pk 0x0701 0 [1, 1]) (inMode .analyse) = true
    ∧ Due specTrigArm (held 0x0701 0 [1, 1]) (holding (held 0x0701 0 [1, 1]) (inMode .analyse)) (fun _ _ _ => True)
    ∧ (trigDecides (ready : State) = false)
    ∧ (trigDecides (inMode .analyse : State) = true)
    ∧ accepted specTrigMaskConfig at0 (pk 0x0702 0 [0, 0, 1]) ready = true
    ∧ Due specTrigMaskConfig (held 0x0702 0 [0, 0, 1]) (holding (held 0x0702 0 [0, 0, 1]) ready) (fun _ _ _ => True)
    ∧ Served specTrigMaskLoad (pk 0x0703 0 [0, 2, 0]) ready (fun _ _ => True)
    ∧ accepted specTrigForce at0 (pk 0x0704 0 [0]) (inMode .analyse) = true
    ∧ Due specTrigForce (held 0x0704 0 [0]) (holding (held 0x0704 0 [0]) (inMode .analyse)) (fun _ _ _ => True)
    ∧ Served specTrigStatus (pk 0x0705 0 [0]) ready (fun _ _ => True) := by
  and_intros <;> decide +kernel

theorem test_witness_CaptureCommands :
    accepted specCapSource at0 (pk 0x0800 0 [0, 1, 65536]) full = true
    ∧ Due specCapSource (held 0x0800 0 [0, 0, 0]) (holding (held 0x0800 0 [0, 0, 0]) ready) (fun c _ _ => c.word 1 = 0)
    ∧ Due specCapSource (held 0x0800 0 [0, 1, 65536]) (holding (held 0x0800 0 [0, 1, 65536]) full) (fun c _ _ => c.word 1 ≠ 0)
    ∧ (trigDecides (ready : State) = false ∧ ((ready : State).cap.sheaves.all fun sh => !(sh.cfg.kind == (held 0x0800 0 [5, 1,
      0x10000] : Cmd).arg 0 1 0 && sh.cfg.unit == (held 0x0800 0 [5, 1, 0x10000] : Cmd).arg 0 10 8)) = true)
    ∧ Served specCapSheafConfig (pk 0x0801 0 [256, 0, 1024, 1, 1, 1048576]) ({ full with cap := { full.cap with rings := [{ kind := 0, unit := 0, handle := 1, auOffset := 0, auCount := 1, depth := 100000, recSize := 0, run := none, past := none, bad := [], records := [] }] } })
      (fun c _ => (sheafConfigOf (rowCmd at0 (pk 0x0801 0 [256, 0, 1024, 1, 1, 1048576]) ({ full with cap := { full.cap with rings := [{ kind := 0, unit := 0, handle := 1, auOffset := 0, auCount := 1, depth := 100000, recSize := 0, run := none, past := none, bad := [], records := [] }] } }))
      : SheafConfig) = sheafConfigOf c)
    ∧ accepted specCapArm at0 (pk 0x0802 0 [1]) ready = true
    ∧ Due specCapArm (held 0x0802 0 [1]) (holding (held 0x0802 0 [1]) ready) (fun _ _ _ => True)
    ∧ (trigDecides (ready : State) = false)
    ∧ Served specCapStatus (pk 0x0803 0 [0]) ready (fun _ _ => True) := by
  and_intros <;> decide +kernel

theorem test_witness_IntegrationCommands :
    accepted specIntConfig at0 (pk 0x0900 0 [671088641, 0, 512, 2820130816, 4, 3, 0]) full = true
    ∧ Due specIntConfig (held 0x0900 0 [671088641, 0, 512, 2820130816, 4, 3, 0]) (holding (held 0x0900 0 [671088641, 0, 512,
      2820130816, 4, 3, 0]) full) (fun _ _ _ => True)
    ∧ accepted specIntEnable at0 (pk 0x0901 0 [0]) ready = true
    ∧ Due specIntEnable (held 0x0901 0 [0]) (holding (held 0x0901 0 [0]) ready) (fun _ _ _ => True)
    ∧ Served specIntStatus (pk 0x0902 0 [0]) ready (fun _ _ => True)
    ∧ Served specIntHeader (pk 0x0903 0 [0]) ready (fun c s => ([] : List Word) = if c.flag 0 0 then s.intg.header1 else
      s.intg.header0)
    ∧ accepted specThConfig at0 (pk 0x0904 0 [1792, 4294901760, 0, 512, 3, 0]) full = true
    ∧ Due specThConfig (held 0x0904 0 [1792, 4294901760, 0, 512, 3, 0]) (holding (held 0x0904 0 [1792, 4294901760, 0, 512, 3, 0])
      full) (fun _ _ _ => True)
    ∧ accepted specThEnable at0 (pk 0x0905 0 [1]) ready = true
    ∧ Due specThEnable (held 0x0905 0 [257]) (holding (held 0x0905 0 [257]) (inMode .analyse)) (fun c _ _ => c.flag 0 8 = true)
    ∧ Due specThEnable (held 0x0905 0 [1]) (holding (held 0x0905 0 [1]) ready) (fun c _ _ => c.flag 0 8 = false)
    ∧ (0 < (ready : State).th.length ∧ ((ready : State).th.getD 0 default).late = [] ∧ reached (ready : State) (thEngine 0 ((ready
      : State).th.getD 0 default)) at0 = true)
    ∧ Served specThStatus (pk 0x0906 0 [0]) ready (fun _ _ => True) := by
  and_intros <;> decide +kernel

theorem test_witness_IntegrationCommands_5 :
    (∃ s t : State, s.intg.late = [] ∧ (intEngines s.intg.cfg).all (fun x => reached s x at0) = true ∧ intBefore at0 s = t ∧
      t.intg.enabled = false) ∧ (∃ s t : State, s.intg.late = [] ∧ (intEngines s.intg.cfg).all (fun x => reached s x at0) = true ∧
      intBefore at0 s = t ∧ t.intg.enabled = true) := by
  exact ⟨⟨ready, _, by decide +kernel, by decide +kernel, rfl, by decide +kernel⟩, ⟨{ ready with intg := { IntUnit.power with enabled := true } }, _, by decide +kernel, by decide +kernel, rfl, by decide +kernel⟩⟩

theorem test_witness_StreamCommands :
    Served specStrmPortConfig (pk 0x0A00 0 [0, 0, 98304000, 0, 0, 0, 0, 0]) ready (fun _ _ => True)
    ∧ Served specStrmDest (pk 0x0A01 0 [0, 0, 0, 0, 0, 0, 0, 0]) ready (fun _ _ => True)
    ∧ (accepted specStrmConfig at0 (pk 0x0A02 0 [0x0C010000, 0, 0x801601, 256, 0, 0, 0, 0, 0, 0] : Packet) (ready : State) = true)
    ∧ accepted specStrmEnable at0 (pk 0x0A03 0 [1, 0, 0]) ready = true
    ∧ Due specStrmEnable (held 0x0A03 0 [1, 0, 1]) (holding (held 0x0A03 0 [1, 0, 1]) (inMode .analyse)) (fun c _ _ => c.flag 2 0
      = true)
    ∧ Due specStrmEnable (held 0x0A03 0 [1, 0, 0]) (holding (held 0x0A03 0 [1, 0, 0]) ready) (fun c _ _ => c.flag 2 0 = false)
    ∧ accepted specStrmMark at0 (pk 0x0A04 0 [0, 0, 0]) (inMode .analyse) = true
    ∧ Due specStrmMark (held 0x0A04 0 [0, 0, 0]) (holding (held 0x0A04 0 [0, 0, 0]) (inMode .analyse)) (fun c _ _ => c.arg 0 11 10
      = 0)
    ∧ Due specStrmMark (held 0x0A04 0 [1024, 0, 0]) (holding (held 0x0A04 0 [1024, 0, 0]) ({ inMode .analyse with strm := { StreamUnit.power with ctxs := modAt StreamUnit.power.ctxs 0 fun c => { c with packets := [{ seq := 0, bytes := [], offset := 0, index := 0, first := false, last := false, sent := true }] } } }))
      (fun c _ s => c.arg 0 11 10 = 1 ∧ ((ctxOf s (c.arg 0 5 0)).packets.any fun p => p.seq == c.arg64 1) = true)
    ∧ (Due specStrmMark (held 0x0A04 0 [1024, 0, 0]) (holding (held 0x0A04 0 [1024, 0, 0]) (inMode .analyse)) (fun c _ s => c.arg
      0 11 10 = 1 ∧ ((ctxOf s (c.arg 0 5 0)).packets.any fun p => p.seq == c.arg64 1) = false) ∧ (held 0x0A04 0 [1024, 0, 0]).src
      ≠ .pairLink)
    ∧ Due specStrmMark (held 0x0A04 0 [2048, 0, 0]) (holding (held 0x0A04 0 [2048, 0, 0]) (inMode .analyse)) (fun c _ _ => 2 ≤
      c.arg 0 11 10)
    ∧ Served specStrmRewind (pk 0x0A05 0 [1024, 0, 0, 0, 0]) ({ inMode .analyse with strm := { StreamUnit.power with ctxs := modAt StreamUnit.power.ctxs 0 fun c => { c with cfg := { c.cfg with ring := 4 }, packets := [{ seq := 0, bytes := [], offset := 0, index := 0, first := false, last := false, sent := true }] } } })
      (fun c s => (if c.flag 0 10 then some (c.arg64 1) else ((ctxOf s (c.arg 0 5 0)).marks.getD (c.arg 0 9 8) default).seq) =
      some 0 ∧ ((ctxOf s (c.arg 0 5 0)).packets.any fun p => p.seq == 0) = true ∧ (s.pair.itemFloor.any fun f => f.1 == c.arg 0 5
      0 && decide (0 ≤ f.2)) = false)
    ∧ Served specStrmRewind (pk 0x0A05 0 [0, 0, 0, 0, 0]) ({ inMode .analyse with strm := { StreamUnit.power with ctxs := modAt StreamUnit.power.ctxs 0 fun c => { c with cfg := { c.cfg with ring := 4 } } } })
      (fun c s => c.flag 0 10 = false ∧ ((ctxOf s (c.arg 0 5 0)).marks.getD (c.arg 0 9 8) default).seq = none)
    ∧ Served specStrmRewind (pk 0x0A05 0 [1024, 0, 0, 0, 0]) ({ inMode .analyse with strm := { StreamUnit.power with ctxs := modAt StreamUnit.power.ctxs 0 fun c => { c with cfg := { c.cfg with ring := 4 } } } })
      (fun c s => (if c.flag 0 10 then some (c.arg64 1) else ((ctxOf s (c.arg 0 5 0)).marks.getD (c.arg 0 9 8) default).seq) =
      some 0 ∧ (((ctxOf s (c.arg 0 5 0)).packets.any fun p => p.seq == 0) = false ∨ (s.pair.itemFloor.any fun f => f.1 == c.arg 0
      5 0 && decide (0 ≤ f.2)) = true))
    ∧ Served specStrmStatus (pk 0x0A06 0 [0]) ready (fun _ _ => True)
    ∧ Served specStrmPortStatus (pk 0x0A07 0 [0]) ready (fun c s => (portOf ready 0 : EthPort) = portOf s (c.arg 0 1 0))
    ∧ Served specStrmPtpSend (pk 0x0A08 0 [917504, 1, 2, 3, 4]) ({ ready with strm := { StreamUnit.power with ports := List.replicate 4 { EthPort.power with en := true, linkUp := true } } })
      (fun c _ => ([1, 0, 0, 0, 2, 0, 0, 0, 3, 0, 0, 0, 4, 0] : List Byte) = (bytesOfWords ((List.range (c.plen - 1)).map fun i =>
      c.word (i + 1))).take (c.arg 0 29 16)) := by
  and_intros <;> decide +kernel

theorem test_witness_MessageQueueCommands :
    Served specPkConfig (pk 0x0B00 0 [0]) ready (fun _ _ => True)
    ∧ Served specPkEncode (pk 0x0B01 0 [65536, 64, 8, 0, 64, 8, 1024, 64]) mem8 (fun _ _ => True)
    ∧ Served specPkStatus (pk 0x0B02 0 [0]) ready (fun c s => (Packer.power : Packer) = s.packers.getD (c.arg 0 0 0) default ∧ ([]
      : List StreamConfig) = packContexts s (c.arg 0 0 0) 64)
    ∧ Served specMqConfig (pk 0x0C00 0 [62, 7, 0]) ready (fun _ _ => True)
    ∧ Served specMqPut (pk 0x0C02 0 [0]) ({ ready with mq := { MqUnit.power with mask := 2 } }) (fun _ s => mqTakes s 5 = false)
    ∧ Served specMqPut (pk 0x0C02 0 [0]) ({ ready with mq := { MqUnit.power with open_ := some { item := { cmd := 0, tag := 0, payload := [] }, seq := 0, accept := 0, loss := false, aborted := false } } })
      (fun _ s => mqTakes s 5 = true ∧ (s.mq.open_.isSome || [1, 2, 3, 4, 5].any (mqReady s)) = true)
    ∧ Served specMqPut (pk 0x0C02 0 [0]) ready (fun c s => mqTakes s 5 = true ∧ (s.mq.open_.isSome || [1, 2, 3, 4, 5].any (mqReady
      s)) = false ∧ mqRoom s (mqItemBytes ((List.range (c.plen - 1)).map fun i => c.word (i + 1))) = true)
    ∧ Served specMqPut (pk 0x0C02 0 [0]) ({ ready with mq := { MqUnit.power with handle := 0 } }) (fun c s => mqTakes s 5 = true ∧
      (s.mq.open_.isSome || [1, 2, 3, 4, 5].any (mqReady s)) = false ∧ mqRoom s (mqItemBytes ((List.range (c.plen - 1)).map fun i
      => c.word (i + 1))) = false)
    ∧ Served specMqFlush (pk 0x0C03 0 []) ready (fun _ _ => True)
    ∧ Served specMqStatus (pk 0x0C04 0 [0]) ready (fun _ _ => True) := by
  and_intros <;> decide +kernel

theorem test_witness_MessageQueueCommands_5 :
    Served specMqRead (pk 0x0C01 0 [256, 0, 16, 0, 0]) ready (fun c s => mqReadNowOk c s ∧ mqReadStatus c s = (.ok : Status)) := by
  exact ⟨by decide +kernel, by decide +kernel, .inr (.inl (by decide +kernel)), by decide +kernel⟩

theorem test_witness_MessageQueueCommands_6 :
    Served specMqRead (pk 0x0C01 0 [256, 1, 16, 0, 0]) ready (fun c s => ¬ mqReadNowOk c s) := by
  refine ⟨by decide +kernel, by decide +kernel, ?_⟩
  rintro (h | h | h) <;> revert h <;> decide +kernel

theorem test_witness_TdcAndMonitorCommands :
    accepted specTdcInput at0 (pk 0x0D00 0 [0, 0]) ready = true
    ∧ Due specTdcInput (held 0x0D00 0 [0, 0]) (holding (held 0x0D00 0 [0, 0]) ready) (fun _ _ _ => True)
    ∧ Served specTdcSlotConfig (pk 0x0D01 0 [65536, 0, 1024, 1000, 0, 0, 0, 0, 0, 0, 0]) ready (fun _ _ => True)
    ∧ accepted specTdcArm at0 (pk 0x0D02 0 [1]) ready = true
    ∧ Due specTdcArm (held 0x0D02 0 [1]) (holding (held 0x0D02 0 [1]) ready) (fun c _ _ => c.flag 0 8 = false)
    ∧ (Due specTdcArm (held 0x0D02 0 [257]) (holding (held 0x0D02 0 [257]) ({ { ready with maint := { MaintUnit.power with acts := [{ codes := [4], cmd := 9, key := 0, waitFrom := 0, clear := 0, start := some 0, length := 0, taken := [] }] } } with tdc := { TdcUnit.power with slots := List.replicate 8 { TdcSlot.power with cfg := { TdcSlot.power.cfg with start := 12 } } } }))
      (fun c _ s => c.flag 0 8 = true ∧ c.timed = false ∧ newProbes s (c.arg 0 7 0) ≠ [] ∧ actBlocked s s.maint.acts (newProbes s
      (c.arg 0 7 0)) = true) ∧ (held 0x0D02 0 [257]).src ≠ .pairLink)
    ∧ Due specTdcArm (held 0x0D02 0 [257]) (holding (held 0x0D02 0 [257]) ready) (fun c _ s => c.flag 0 8 = true ∧ (c.timed = true
      ∨ newProbes s (c.arg 0 7 0) = [] ∨ actBlocked s s.maint.acts (newProbes s (c.arg 0 7 0)) = false))
    ∧ Served specTdcRead (pk 0x0D03 0 [0]) ready (fun c s => (tdcSlotOf ready 0 : TdcSlot) = tdcSlotOf s (c.arg 0 2 0))
    ∧ Served specTdcStatus (pk 0x0D04 0 [0]) ready (fun c s => (tdcInputOf ready 0 : TdcInput) = tdcInputOf s (c.arg 0 3 0))
    ∧ Served specMcInput (pk 0x0E00 0 [0, 0, 0, 0]) ready (fun _ _ => True)
    ∧ Served specMcSequence (pk 0x0E01 0 [1, 1]) ready (fun _ s => s.mc.running = none)
    ∧ Served specMcSequence (pk 0x0E01 0 [1, 1]) ({ ready with mc := { McUnit.power with running := some { kind := .system, input := 16, order := 0, dr := 0, detCh := 0, restarted := false, continuous := false } } })
      (fun _ s => s.mc.running ≠ none)
    ∧ Served specMcConvert (pk 0x0E02 64 [0]) ready (fun c _ => c.urgent = true)
    ∧ Served specMcConvert (pk 0x0E02 0 [0]) ready (fun c _ => c.urgent = false)
    ∧ Served specMcRead (pk 0x0E03 0 [257]) ready (fun c s => c.flag 0 0 = true ∧ 0 = min (c.arg 0 13 8) s.mc.history.length)
    ∧ Served specMcRead (pk 0x0E03 0 [256]) ready (fun c _ => c.flag 0 0 = false)
    ∧ Served specMcStatus (pk 0x0E04 0 [0]) ready (fun _ _ => True) := by
  and_intros <;> decide +kernel

theorem test_witness_CalibrationCommands :
    accepted specCalibMeasure at0 (pk 0x0F00 0 [1048833, 0, 0, 0, 0]) (inMode .calibrate) = true
    ∧ Due specCalibMeasure (held 0x0F00 0 [1048833, 0, 0, 0, 0]) (holding (held 0x0F00 0 [1048833, 0, 0, 0, 0]) (inMode
      .calibrate)) (fun c _ s => c.timed = true ∧ (s.maint.acts.any fun a => a.codes.contains 6) = false ∨ c.timed = false ∧
      actBlocked s s.maint.acts [6] = false)
    ∧ (Due specCalibMeasure (held 0x0F00 1 [1048833, 0, 0, 0, 0]) (holding (held 0x0F00 1 [1048833, 0, 0, 0, 0]) ({ inMode .calibrate with maint := { MaintUnit.power with acts := [{ codes := [6], cmd := 9, key := 0, waitFrom := 0, clear := 0, start := some 0, length := 0, taken := [] }] } }))
      (fun c _ s => c.timed = true ∧ (s.maint.acts.any fun a => a.codes.contains 6) = true) ∧ (held 0x0F00 1 [1048833, 0, 0, 0,
      0]).src ≠ .pairLink)
    ∧ (Due specCalibMeasure (held 0x0F00 0 [1048833, 0, 0, 0, 0]) (holding (held 0x0F00 0 [1048833, 0, 0, 0, 0]) ({ inMode .calibrate with maint := { MaintUnit.power with acts := [{ codes := [6], cmd := 9, key := 0, waitFrom := 0, clear := 0, start := some 0, length := 0, taken := [] }] } }))
      (fun c _ s => c.timed = false ∧ actBlocked s s.maint.acts [6] = true) ∧ (held 0x0F00 0 [1048833, 0, 0, 0, 0]).src ≠
      .pairLink)
    ∧ Served specCalibSliceRead (pk 0x0F01 0 [0]) ready (fun _ _ => True)
    ∧ Served specCalibTdcRead (pk 0x0F02 0 []) ready (fun _ _ => True)
    ∧ Served specMaintStart (pk 0x0F03 0 [0]) ready (fun _ s => actBlocked s s.maint.acts [3] = false)
    ∧ Served specMaintStart (pk 0x0F03 0 [0]) ({ ready with maint := { MaintUnit.power with acts := [{ codes := [3], cmd := 9, key := 0, waitFrom := 0, clear := 0, start := some 0, length := 0, taken := [] }] } })
      (fun _ s => actBlocked s s.maint.acts [3] = true)
    ∧ (accepted specMaintCancel at0 (pk 0x0F04 0 [0] : Packet) (ready : State) = true)
    ∧ Served specMaintCancel (pk 0x0F04 0 [0]) ready (fun _ s => s.maint.acts.all Activity.running = true)
    ∧ Served specMaintStatus (pk 0x0F05 0 [0]) ready (fun _ _ => True) := by
  and_intros <;> decide +kernel

theorem test_witness_DisplayCommands :
    (accepted specDispTiming at0 (pk 0x1000 0 [0x30801, 0x08980780, 0x04650438, 0x0094002C, 0x00240005, 148500000, 1000] :
      Packet) (ready : State) = true)
    ∧ (accepted specDispEnable at0 (pk 0x1001 0 [1] : Packet) (ready : State) = true)
    ∧ Served specDispEnable (pk 0x1001 0 [0]) ({ ready with disp := { DispUnit.power with mode := .run, running := true } }) (fun
      c s => s.disp.mode = .run ∧ s.disp.running = true ∧ s.disp.leaving = none ∧ c.arg 0 1 0 = 0)
    ∧ Served specDispLayer (pk 0x1002 0 [0, 0, 65537, 0, 0, 0, 0, 0, 0, 0]) ready (fun _ _ => True)
    ∧ Served specDispPalette (pk 0x1003 0 [0, 0]) ready (fun _ _ => True)
    ∧ (accepted specDispCommit at0 (pk 0x1004 0 [0x100, 0] : Packet) (ready : State) = true)
    ∧ Served specDispPanelCmd (pk 0x1005 0 [0]) ({ ready with disp := { DispUnit.power with mode := .link } }) (fun _ _ => True)
    ∧ (accepted specDispStatus at0 (pk 0x1006 0 [0] : Packet) (ready : State) = true) := by
  and_intros <;> decide +kernel

theorem test_witness_PairCommands :
    (accepted specPairConfig at0 (pk 0x1100 0 [0x320001] : Packet) (ready : State) = true ∧ (rowCmd at0 (pk 0x1100 0 [0x320001]
      : Packet) (ready : State)).flag 0 0 = true)
    ∧ (accepted specPairConfig at0 (pk 0x1100 0 [0x320000] : Packet) (ready : State) = true ∧ (rowCmd at0 (pk 0x1100 0 [0x320000]
      : Packet) (ready : State)).flag 0 0 = false)
    ∧ (accepted specPairJoin at0 (pk 0x1101 0 [] : Packet) ({ ready with pair := { PairUnit.power with link := .up } } : State) =
      true ∧ joinReason ({ ready with pair := { PairUnit.power with link := .up } } : State) = 0)
    ∧ Served specPairJoin (pk 0x1101 0 []) ready (fun _ s => joinReason s ≠ 0)
    ∧ Served specPairLeave (pk 0x1102 0 []) ready (fun _ s => s.pair.role = .solo)
    ∧ (accepted specPairLeave at0 (pk 0x1102 0 [] : Packet) ({ ready with pair := { PairUnit.power with role := .primary } } :
      State) = true ∧ ({ ready with pair := { PairUnit.power with role := .primary } } : State).pair.role = .primary)
    ∧ (accepted specPairLeave at0 (pk 0x1102 0 [] : Packet) ({ inMode .shadow with pair := { PairUnit.power with role := .mirror, condition := .eligible, link := .up } }
      : State) = true ∧ ({ inMode .shadow with pair := { PairUnit.power with role := .mirror, condition := .eligible, link := .up } }
      : State).pair.role = .mirror ∧ (({ inMode .shadow with pair := { PairUnit.power with role := .mirror, condition := .eligible, link := .up } }
      : State).cmds.any fun c => c.id == ({ inMode .shadow with pair := { PairUnit.power with role := .mirror, condition := .eligible, link := .up } }
      : State).nextId) = false)
    ∧ (accepted specPairTakeover at0 (pk 0x1104 0 [] : Packet) ({ inMode .shadow with pair := { PairUnit.power with role := .mirror, condition := .eligible, link := .up } }
      : State) = true)
    ∧ Served specPairStatus (pk 0x1105 0 [0]) ready (fun c _ => c.flag 0 8 = false)
    ∧ (accepted specPairStatus at0 (pk 0x1105 0 [0x100] : Packet) (ready : State) = true ∧ (rowCmd at0 (pk 0x1105 0 [0x100] :
      Packet) (ready : State)).flag 0 8 = true)
    ∧ (({ inMode .analyse with pair := { PairUnit.power with role := .primary, link := .up, mirrored := true, otherEligible := true } }
      : State).quiet = true ∧ opcodeOf (pk 0x1103 0 [] : Packet) = 0x1103 ∧ takesFrom (pk 0x1103 0 [] : Packet).src (passTo at0 ({ inMode .analyse with pair := { PairUnit.power with role := .primary, link := .up, mirrored := true, otherEligible := true } }
      : State)) = true ∧ ({ inMode .analyse with pair := { PairUnit.power with role := .primary, link := .up, mirrored := true, otherEligible := true } }
      : State).hub.fw.recovery = false ∧ startable (rowState at0 (pk 0x1103 0 [] : Packet) ({ inMode .analyse with pair := { PairUnit.power with role := .primary, link := .up, mirrored := true, otherEligible := true } }
      : State)) (rowCmd at0 (pk 0x1103 0 [] : Packet) ({ inMode .analyse with pair := { PairUnit.power with role := .primary, link := .up, mirrored := true, otherEligible := true } }
      : State)) = true ∧ checkCmd specPairSwitch (rowCmd at0 (pk 0x1103 0 [] : Packet) ({ inMode .analyse with pair := { PairUnit.power with role := .primary, link := .up, mirrored := true, otherEligible := true } }
      : State)) (rowState at0 (pk 0x1103 0 [] : Packet) ({ inMode .analyse with pair := { PairUnit.power with role := .primary, link := .up, mirrored := true, otherEligible := true } }
      : State)) = none ∧ (some (at0 + 2000000) : Option Nat) = (if (rowCmd at0 (pk 0x1103 0 [] : Packet) ({ inMode .analyse with pair := { PairUnit.power with role := .primary, link := .up, mirrored := true, otherEligible := true } }
      : State)).timed then some (atOf (pk 0x1103 0 [] : Packet)) else if locked ({ inMode .analyse with pair := { PairUnit.power with role := .primary, link := .up, mirrored := true, otherEligible := true } }
      : State) then some (boundaryAfter (rowState at0 (pk 0x1103 0 [] : Packet) ({ inMode .analyse with pair := { PairUnit.power with role := .primary, link := .up, mirrored := true, otherEligible := true } }
      : State)) 100000) else none))
    ∧ ((holding (held 0x1103 0 []) ({ inMode .analyse with pair := { PairUnit.power with role := .primary, link := .up, mirrored := true, otherEligible := true } })
      : State).quiet = true ∧ firstHeld (fireable (holding (held 0x1103 0 []) ({ inMode .analyse with pair := { PairUnit.power with role := .primary, link := .up, mirrored := true, otherEligible := true } })
      : State)) = some (held 0x1103 0 [] : Cmd) ∧ (held 0x1103 0 [] : Cmd).phase = .held (some (at0 + 32000)) ∧ (held 0x1103 0 []
      : Cmd).opcode = 0x1103 ∧ delivering (holding (held 0x1103 0 []) ({ inMode .analyse with pair := { PairUnit.power with role := .primary, link := .up, mirrored := true, otherEligible := true } })
      : State) = true ∧ hasMirror (holding (held 0x1103 0 []) ({ inMode .analyse with pair := { PairUnit.power with role := .primary, link := .up, mirrored := true, otherEligible := true } })
      : State) = true ∧ (holding (held 0x1103 0 []) ({ inMode .analyse with pair := { PairUnit.power with role := .primary, link := .up, mirrored := true, otherEligible := true } })
      : State).pair.otherEligible = true ∧ (holding (held 0x1103 0 []) ({ inMode .analyse with pair := { PairUnit.power with role := .primary, link := .up, mirrored := true, otherEligible := true } })
      : State).mode ≠ .quiet ∧ (holding (held 0x1103 0 []) ({ inMode .analyse with pair := { PairUnit.power with role := .primary, link := .up, mirrored := true, otherEligible := true } })
      : State).mode ≠ .shadow ∧ firing (held 0x1103 0 [] : Cmd) = (.scheduledEffect : Instr)) := by
  and_intros <;> decide +kernel

theorem test_witness_DiagnosticCommands :
    Served specDiagReset (pk 0x1200 0 [1380275013]) ready (fun c _ => c.src ≠ .pairLink)
    ∧ Served specDiagFault (pk 0x1201 0 [0]) ready (fun c _ => c.flag 0 0 = false)
    ∧ Served specDiagFault (pk 0x1201 0 [1]) ready (fun c _ => c.flag 0 0 = true)
    ∧ Served specDiagEcc (pk 0x1202 0 [0]) ready (fun _ _ => True)
    ∧ Served specBbRead (pk 0x1203 0 [0, 1, 0, 0]) ready (fun c _ => c.flag 1 17 = false)
    ∧ Served specBbRead (onQp (pk 0x1203 0 [0, 131073, 0, 0])) ({ ready with bb := (bbWrite 0x12 0 0x1281 [] at0 ready).bb }) (fun
      c s => c.flag 1 17 = true ∧ bbSelect c s ≠ [] ∧ hostFails s (c.arg64 2) (bytesOfWords ((bbSelect c s).flatMap
      bbWords)).length = false)
    ∧ Served specBbRead (onQp (pk 0x1203 0 [0, 131073, 0, 0])) ready (fun c s => c.flag 1 17 = true ∧ bbSelect c s = [])
    ∧ (let p := onQp (pk 0x1203 0 [0, 0x20001, 0, 0]); let s := { ready with nextId := 1, cmds := [], glob := { ready.glob with dead := [(0, 64)] }, bb := (bbWrite 0x12 0 0x1281 [] at0 ready).bb };
      Served specBbRead p s (fun c s => c.flag 1 17 = true ∧ cmdById s c.id = some c ∧ hostFails s (c.arg64 2) (bytesOfWords
      ((bbSelect c s).flatMap bbWords)).length = true))
    ∧ Served specBbFreeze (pk 0x1204 0 []) ready (fun _ _ => True)
    ∧ (accepted specBbClear at0 (pk 0x1205 0 [1] : Packet) (ready : State) = true)
    ∧ Served specDiagWatchdog (pk 0x1206 0 [100]) ready (fun _ _ => True) := by
  and_intros <;> decide +kernel

theorem test_witness_FirmwareCommands :
    Served specFwStatus (pk 0x1300 0 []) ready (fun _ _ => True)
    ∧ Served specFwLoad (pk 0x1301 0 [1, 0]) ready (fun c _ => c.word 1 = 0)
    ∧ Served specFwLoad (pk 0x1301 0 [1, 4, 5]) ({ ready with hub := { ready.hub with fw := { Firmware.power with loadOffset := 4 } } })
      (fun c _ => c.word 1 ≠ 0 ∧ ([5, 0, 0, 0] : List Byte) = bytesOfWords ((c.params.take c.plen).drop 2))
    ∧ Served specFwVerify (pk 0x1302 0 [0]) ready (fun _ _ => True)
    ∧ Served specFwActivate (pk 0x1303 0 [0]) ready (fun c s => s.hub.fw.recovery = false ∧ c.arg 0 0 0 = s.hub.fw.running)
    ∧ Served specFwActivate (pk 0x1303 0 [1]) ready (fun c s => s.hub.fw.recovery = false ∧ c.arg 0 0 0 ≠ s.hub.fw.running) := by
  and_intros <;> decide +kernel

theorem test_witness_SystemMode :
    accepted specSysMode at0 (pk 0x0001 0 [1]) ready = true
    ∧ (due specSysMode (held 1 0 [1] : Cmd) (at0 + 32000 : Nat) (holding (held 1 0 [1]) ready : State) = true ∧ firing (held 1 0
      [1] : Cmd) = (.modeChangeEffect : Instr) ∧ Mode.ofCode ((held 1 0 [1] : Cmd).arg 0 2 0) = some (.analyse : Mode)) := by
  and_intros <;> decide +kernel

theorem test_witness_RegisterEvents :
    Now at0 ready (fun _ s => s.hub.pcieUp = true ∧ ((qpOf s (0 : Fin 16).val).enabled = false ∨ (qpOf s (0 : Fin 16).val).err =
      true))
    ∧ Now at0 ({ ready with qps := List.replicate 16 { QueuePair.power with ctrl := 1 } }) (fun _ s => s.hub.pcieUp = true ∧ (qpOf
      s (0 : Fin 16).val).enabled = true ∧ (qpOf s (0 : Fin 16).val).err = false ∧ (5 : Word).toNat < (qpOf s (0 : Fin
      16).val).sqEntries ∧ (qpOf s (0 : Fin 16).val).sqWork ≤ ((5 : Word).toNat + (qpOf s (0 : Fin 16).val).sqEntries - (qpOf s (0
      : Fin 16).val).sqHead) % (qpOf s (0 : Fin 16).val).sqEntries)
    ∧ Now at0 ({ ready with qps := List.replicate 16 { QueuePair.power with ctrl := 1 } }) (fun _ s => s.hub.pcieUp = true ∧ (qpOf
      s (0 : Fin 16).val).enabled = true ∧ (qpOf s (0 : Fin 16).val).err = false ∧ (qpOf s (0 : Fin 16).val).sqEntries ≤ (64 :
      Word).toNat)
    ∧ Now at0 ({ ready with qps := List.replicate 16 { QueuePair.power with ctrl := 1, rqTail := 3 } }) (fun _ s => s.hub.pcieUp =
      true ∧ (qpOf s (0 : Fin 16).val).enabled = true ∧ (qpOf s (0 : Fin 16).val).err = false ∧ (3 : Word).toNat < (qpOf s (0 :
      Fin 16).val).rqEntries ∧ ((3 : Word).toNat + (qpOf s (0 : Fin 16).val).rqEntries - (qpOf s (0 : Fin 16).val).rqHead) % (qpOf
      s (0 : Fin 16).val).rqEntries ≤ (qpOf s (0 : Fin 16).val).rqUsed)
    ∧ Now at0 ({ ready with qps := List.replicate 16 { QueuePair.power with ctrl := 1 } }) (fun _ s => s.hub.pcieUp = true ∧ (qpOf
      s (0 : Fin 16).val).enabled = true ∧ (qpOf s (0 : Fin 16).val).err = false ∧ (qpOf s (0 : Fin 16).val).rqEntries ≤ (64 :
      Word).toNat)
    ∧ Now at0 ready (fun _ s => s.hub.pcieUp = true ∧ (qpOf s (0 : Fin 16).val).enabled = false ∧ enableError (qpOf s (0 : Fin
      16).val) = 0 ∧ (qpOf s (0 : Fin 16).val).heldReplies = [])
    ∧ Now at0 ({ ready with qps := List.replicate 16 { QueuePair.power with sqSize := 0 } }) (fun _ s => s.hub.pcieUp = true ∧
      (qpOf s (0 : Fin 16).val).enabled = false ∧ enableError (qpOf s (0 : Fin 16).val) ≠ 0 ∧ (0 : Fin 16).val < s.qps.length)
    ∧ Now at0 ({ ready with qps := List.replicate 16 { QueuePair.power with ctrl := 1 } }) (fun _ s => s.hub.pcieUp = true)
    ∧ Now at0 ready (fun _ s => s.hub.pcieUp = true)
    ∧ Now at0 ready (fun _ s => s.hub.pcieUp = true)
    ∧ Now at0 ready (fun _ s => s.hub.pcieUp = true ∧ (1 = 1 ∨ 1 = 2) ∧ 0x104 % 1 = 0 ∧ 0x104 / 4 ≠ 68)
    ∧ Now at0 ready (fun _ s => s.hub.pcieUp = true ∧ 0x100 % 8 = 0 ∧ 0x100 ≠ 0x110)
    ∧ Now at0 ready (fun _ s => s.hub.pcieUp = true)
    ∧ Now at0 ready (fun _ s => s.hub.pcieUp = true ∧ 16 % 4 = 0)
    ∧ Now at0 ready (fun _ s => s.hub.pcieUp = true ∧ 16 % 8 = 0)
    ∧ Now at0 ready (fun _ _ => 2 ≠ 4 ∧ 2 ≠ 8)
    ∧ Now at0 ({ ready with qps := List.replicate 16 { QueuePair.power with ctrl := 9, coal := 0x100, unsignalled := 1 } }) (fun _
      s => bit (qpOf s (0 : Fin 16).val).ctrl 3 = true ∧ field (qpOf s (0 : Fin 16).val).coal 23 8 ≠ 0 ∧ 0 < (qpOf s (0 : Fin
      16).val).unsignalled)
    ∧ (qpOf ready 0).enabled = false ∧ 0 < ready.qps.length ∧ (qpOf ({ ready with qps := List.replicate 16 { QueuePair.power with ctrl := 1 } })
      0).enabled = true := by
  and_intros <;> decide +kernel

theorem test_witness_FetchedCommands :
    (nextPair (passTo at0 ({ ready with qps := List.replicate 16 { QueuePair.power with ctrl := 1, sqTail := 1 } } : State)) =
      some (Fin.val (0 : Fin 16)) ∧ hostFails ({ ready with qps := List.replicate 16 { QueuePair.power with ctrl := 1, sqTail := 1 } }
      : State) (join64 (qpOf ({ ready with qps := List.replicate 16 { QueuePair.power with ctrl := 1, sqTail := 1 } } : State) (0
      : Fin 16).val).sqBaseLo (qpOf ({ ready with qps := List.replicate 16 { QueuePair.power with ctrl := 1, sqTail := 1 } } :
      State) (0 : Fin 16).val).sqBaseHi + 64 * (qpOf ({ ready with qps := List.replicate 16 { QueuePair.power with ctrl := 1, sqTail := 1 } }
      : State) (0 : Fin 16).val).sqHead) 64 = false)
    ∧ Now at0 ({ ready with qps := List.replicate 16 { QueuePair.power with ctrl := 1, sqTail := 1 } }) (fun _ s => nextPair s =
      some (Fin.val (0 : Fin 16)))
    ∧ Now at0 ready (fun _ s => nextPair s ≠ some (Fin.val (0 : Fin 16)))
    ∧ (takePacket (bytesOfWords (pk 0 0 []).words : List Byte) = some (((pk 0 0 []).words), ([] : List Byte)) ∧ submitOk (passTo
      at0 (ready : State)) = true)
    ∧ Now at0 ready (fun _ s => takePacket ([] : List Byte) = none ∨ submitOk s = false)
    ∧ Now at0 ready (fun _ s => s.spi.unread = [])
    ∧ Now at0 ({ ready with spi := { unread := [(false, { tag := 0, opcode := 1, status := .ok, rlen := 0, index := 0, payload := [] })], lost := false } })
      (fun _ s => s.spi.unread = ((false : Bool), ({ tag := 0, opcode := 1, status := .ok, rlen := 0, index := 0, payload := [] }
      : Entry)) :: ([] : List (Bool × Entry)))
    ∧ Now at0 ready (fun _ _ => True)
    ∧ Now at0 ready (fun _ _ => True)
    ∧ Now at0 ({ ready with ctlport := { CtlPort.power with portEn := 1 } }) (fun _ s => s.ctlport.portEn.testBit (Sender.link ({ link := 0, v6 := false, addr := 0, port := 0 }
      : Sender)) = true ∧ 0 = s.ctlport.udpPort ∧ s.ready = true ∧ coresRun s = true ∧ (8192 < ([] : List Byte).length ∨ ([] :
      List Byte) = [] ∨ (s.ctlport.slots.any fun x => slotAdmits x ({ link := 0, v6 := false, addr := 0, port := 0 } : Sender)) =
      false ∨ splitPackets ([] : List Byte).length ([] : List Byte) = none))
    ∧ Now at0 ready (fun _ s => s.ctlport.portEn.testBit (Sender.link ({ link := 0, v6 := false, addr := 0, port := 0 } : Sender))
      = false ∨ 5 ≠ s.ctlport.udpPort)
    ∧ Now at0 ({ ready with ctlport := { CtlPort.power with portEn := 1, slots := [{ valid := true, v6 := false, prefixLen := 0, address := [0] }], remembered := [{ sender := { link := 0, v6 := false, addr := 0, port := 0 }, packet := (pk 0 0 []).words, cmd := 0, reply := some { tag := 0, opcode := 1, status := .ok, rlen := 0, index := 0, payload := [] } }] } })
      (fun _ s => s.ctlport.portEn.testBit (Sender.link ({ link := 0, v6 := false, addr := 0, port := 0 } : Sender)) = true ∧ 0 =
      s.ctlport.udpPort ∧ s.ready = true ∧ coresRun s = true ∧ datagramPackets ({ link := 0, v6 := false, addr := 0, port := 0 } :
      Sender) (bytesOfWords (pk 0 0 []).words : List Byte) s = some [((pk 0 0 []).words : List Word)] ∧
      (s.ctlport.remembered.find? fun r1 => sameSender r1.sender ({ link := 0, v6 := false, addr := 0, port := 0 } : Sender) &&
      r1.packet == ((pk 0 0 []).words : List Word)) = some ({ sender := { link := 0, v6 := false, addr := 0, port := 0 }, packet := (pk 0 0 []).words, cmd := 0, reply := some { tag := 0, opcode := 1, status := .ok, rlen := 0, index := 0, payload := [] } }
      : Remembered) ∧ ({ sender := { link := 0, v6 := false, addr := 0, port := 0 }, packet := (pk 0 0 []).words, cmd := 0, reply := some { tag := 0, opcode := 1, status := .ok, rlen := 0, index := 0, payload := [] } }
      : Remembered).reply = some ({ tag := 0, opcode := 1, status := .ok, rlen := 0, index := 0, payload := [] } : Entry)) := by
  and_intros <;> decide +kernel

theorem test_witness_NoticeEvents :
    Now at0 ({ { ready with qps := List.replicate 16 { QueuePair.power with ctrl := 1 } } with notices := List.replicate 18 { held := [], lost := 1 } })
      (fun _ s => noticeRoom s (Fin.val (0 : Fin 18)) = true ∧ 0 < (noticeBuf s (0 : Fin 18).val).lost)
    ∧ Now at0 ({ { ready with qps := List.replicate 16 { QueuePair.power with ctrl := 1 } } with notices := List.replicate 18 { held := [{ tag := 0, opcode := 1, status := .ok, rlen := 0, index := 0, payload := [] }], lost := 0 } })
      (fun _ s => noticeRoom s (Fin.val (0 : Fin 18)) = true ∧ (noticeBuf s (0 : Fin 18).val).lost = 0 ∧ (noticeBuf s (0 : Fin
      18).val).held = ({ tag := 0, opcode := 1, status := .ok, rlen := 0, index := 0, payload := [] } : Entry) :: ([] : List
      Entry))
    ∧ Now at0 ready (fun _ s => noticeRoom s (Fin.val (0 : Fin 18)) = false)
    ∧ (0 < ready.notices.length ∧ (noticeBuf ready 0).held.length < 64) ∧ (0 < ({ { ready with qps := List.replicate 16 { QueuePair.power with ctrl := 1 } } with notices := List.replicate 18 { held := List.replicate 64 { tag := 0, opcode := 1, status := .ok, rlen := 0, index := 0, payload := [] }, lost := 0 } }
      : State).notices.length ∧ 64 ≤ (noticeBuf ({ { ready with qps := List.replicate 16 { QueuePair.power with ctrl := 1 } } with notices := List.replicate 18 { held := List.replicate 64 { tag := 0, opcode := 1, status := .ok, rlen := 0, index := 0, payload := [] }, lost := 0 } })
      0).held.length) := by
  and_intros <;> decide +kernel

theorem test_witness_MemoryEvents :
    Now at0 ({ ready with nextId := 1, cmds := [], pool := { mem8.pool with parts := [{ newPart 8 0 1 0 with freeCmd := some 0 }] } })
      (fun _ s => partAt s 8 = some ({ newPart 8 0 1 0 with freeCmd := some 0 } : Partition) ∧ ({ newPart 8 0 1 0 with freeCmd := some 0 }
      : Partition).freeCmd = some 0 ∧ refsOf s ({ newPart 8 0 1 0 with freeCmd := some 0 } : Partition).handle = 0 ∧ ({ newPart 8 0 1 0 with freeCmd := some 0 }
      : Partition).nextAu = none)
    ∧ Now at0 ({ ready with nextId := 1, cmds := [running 0x0105 [8, 0, 4, 0, 0, 0]], pool := { mem8.pool with transfers := [{ cmd := 0, write := true, slot := 8, offset := 0, length := 4, host := 0 }] } })
      (fun _ s => (s.pool.transfers.find? fun t => t.cmd == 0) = some ({ cmd := 0, write := true, slot := 8, offset := 0, length := 4, host := 0 }
      : Transfer) ∧ cmdById s 0 = some (running 0x0105 [8, 0, 4, 0, 0, 0] : Cmd) ∧ ({ cmd := 0, write := true, slot := 8, offset := 0, length := 4, host := 0 }
      : Transfer).write = true ∧ (running 0x0105 [8, 0, 4, 0, 0, 0] : Cmd).src ≠ .pairLink ∧ hostFails s ({ cmd := 0, write := true, slot := 8, offset := 0, length := 4, host := 0 }
      : Transfer).host ({ cmd := 0, write := true, slot := 8, offset := 0, length := 4, host := 0 } : Transfer).length = false)
    ∧ Now at0 ({ ready with nextId := 1, cmds := [running 0x0105 [8, 0, 4, 0, 0, 0]], pool := { mem8.pool with transfers := [{ cmd := 0, write := true, slot := 8, offset := 0, length := 4, host := 0 }] } })
      (fun _ s => (s.pool.transfers.find? fun t => t.cmd == 0) = some ({ cmd := 0, write := true, slot := 8, offset := 0, length := 4, host := 0 }
      : Transfer) ∧ cmdById s 0 = some (running 0x0105 [8, 0, 4, 0, 0, 0] : Cmd) ∧ ({ cmd := 0, write := true, slot := 8, offset := 0, length := 4, host := 0 }
      : Transfer).write = true ∧ (running 0x0105 [8, 0, 4, 0, 0, 0] : Cmd).src ≠ .pairLink ∧ hostFails s ({ cmd := 0, write := true, slot := 8, offset := 0, length := 4, host := 0 }
      : Transfer).host ({ cmd := 0, write := true, slot := 8, offset := 0, length := 4, host := 0 } : Transfer).length = false ∧
      partAt s ({ cmd := 0, write := true, slot := 8, offset := 0, length := 4, host := 0 } : Transfer).slot = some (newPart 8 0 1
      0 : Partition) ∧ cellsWf (newPart 8 0 1 0 : Partition).data = true ∧ ({ cmd := 0, write := true, slot := 8, offset := 0, length := 4, host := 0 }
      : Transfer).offset + (([1, 2, 3, 4] : List Byte).take ({ cmd := 0, write := true, slot := 8, offset := 0, length := 4, host := 0 }
      : Transfer).length).length ≤ (newPart 8 0 1 0 : Partition).au * 1048576)
    ∧ Now at0 ({ ready with nextId := 1, cmds := [running 0x0105 [8, 0, 4, 0, 0, 0]], pool := { mem8.pool with transfers := [{ cmd := 0, write := false, slot := 8, offset := 0, length := 4, host := 0 }] } })
      (fun _ s => (s.pool.transfers.find? fun t => t.cmd == 0) = some ({ cmd := 0, write := false, slot := 8, offset := 0, length := 4, host := 0 }
      : Transfer) ∧ cmdById s 0 = some (running 0x0105 [8, 0, 4, 0, 0, 0] : Cmd) ∧ ({ cmd := 0, write := false, slot := 8, offset := 0, length := 4, host := 0 }
      : Transfer).write = false ∧ (running 0x0105 [8, 0, 4, 0, 0, 0] : Cmd).src ≠ .pairLink ∧ hostFails s ({ cmd := 0, write := false, slot := 8, offset := 0, length := 4, host := 0 }
      : Transfer).host ({ cmd := 0, write := false, slot := 8, offset := 0, length := 4, host := 0 } : Transfer).length = false ∧
      partAt s ({ cmd := 0, write := false, slot := 8, offset := 0, length := 4, host := 0 } : Transfer).slot = some (newPart 8 0
      1 0 : Partition))
    ∧ Now at0 ({ { ready with nextId := 1, cmds := [running 0x0105 [8, 0, 4, 0, 0, 0]], pool := { mem8.pool with transfers := [{ cmd := 0, write := false, slot := 8, offset := 0, length := 4, host := 0 }] } } with glob := { ready.glob with dead := [(0, 64)] } })
      (fun _ s => (s.pool.transfers.find? fun t => t.cmd == 0) = some ({ cmd := 0, write := false, slot := 8, offset := 0, length := 4, host := 0 }
      : Transfer) ∧ cmdById s 0 = some (running 0x0105 [8, 0, 4, 0, 0, 0] : Cmd) ∧ (running 0x0105 [8, 0, 4, 0, 0, 0] : Cmd).src ≠
      .pairLink ∧ (true = false ∨ hostFails s ({ cmd := 0, write := false, slot := 8, offset := 0, length := 4, host := 0 } :
      Transfer).host ({ cmd := 0, write := false, slot := 8, offset := 0, length := 4, host := 0 } : Transfer).length = true))
    ∧ Now at0 mem8 (fun _ s => 8 < 256 ∧ (partAt s 8).isSome = true ∧ s.pool.scrubPeriod ≠ 0 ∧ coresRun s = true ∧
      (s.maint.acts.any fun a => a.codes.contains 3) = false)
    ∧ Now at0 ({ ready with nextId := 1, cmds := [], pool := { mem8.pool with scrubPeriod := 0 } }) (fun _ s => 8 < 256 ∧
      s.pool.scrubPeriod = 0)
    ∧ Now at0 ready (fun _ _ => 256 ≤ 256)
    ∧ Now at0 ({ ready with maint := { MaintUnit.power with acts := [{ codes := [3], cmd := 9, key := 0, waitFrom := 0, clear := 0, start := some 0, length := 0, taken := [] }] } })
      (fun _ s => (s.maint.acts.find? fun a1 => a1.running && a1.codes.contains 3) = some ({ codes := [3], cmd := 9, key := 0, waitFrom := 0, clear := 0, start := some 0, length := 0, taken := [] }
      : Activity)) := by
  and_intros <;> decide +kernel

theorem test_witness_ReferenceEvents :
    Now at0 ready (fun _ s => s.time.tb = .locked ∧ s.time.syncs = [])
    ∧ Now at0 ready (fun _ s => s.time.tb = .locked ∨ s.time.tb = .slew)
    ∧ Now at0 ({ ready with time := { ready.time with tb := .qualified } }) (fun _ s => s.time.tb = .qualified)
    ∧ Now at0 ({ ready with time := { ready.time with tb := .holdover, qualifying := true } }) (fun _ s => (s.time.tb = .holdover
      ∨ s.time.tb = .waitRef) ∧ s.time.qualifying = true)
    ∧ Now at0 ({ ready with time := { ready.time with tb := .relocking } }) (fun _ s => s.time.tb = .relocking ∧ s.time.relockStep
      = none)
    ∧ Now at0 ready (fun _ s => 200000 < (-200001 : Int).natAbs ∧ s.time.tb = .locked ∧ s.time.syncs = [])
    ∧ Now at0 ready (fun _ _ => (200000 : Int).natAbs ≤ 200000)
    ∧ Now at0 ready (fun _ _ => True)
    ∧ Now at0 ({ ready with time := { ready.time with tb := .holdover, qualifying := true } }) (fun _ s => s.time.refPresent =
      true ∧ s.time.qualifying = true ∧ (s.time.tb = .holdover ∨ s.time.tb = .waitRef) ∧ 1000 < (-1001 : Int).natAbs)
    ∧ Now at0 ({ ready with time := { ready.time with tb := .holdover, qualifying := true } }) (fun _ s => s.time.refPresent =
      true ∧ s.time.qualifying = true ∧ s.time.tb = .holdover ∧ (1000 : Int).natAbs ≤ 1000)
    ∧ Now at0 ({ ready with time := { ready.time with tb := .waitRef, qualifying := true } }) (fun _ s => s.time.refPresent = true
      ∧ s.time.qualifying = true ∧ s.time.tb = .waitRef ∧ (-1000 : Int).natAbs ≤ 1000)
    ∧ Now at0 ready (fun _ _ => True)
    ∧ Now at0 ready (fun _ s => s.time.tb ≠ .qualified ∨ s.time.ppsWait = true)
    ∧ Now at0 ({ ready with time := { ready.time with tb := .qualified, jumpKnown := true } }) (fun _ s => s.time.tb = .qualified
      ∧ s.time.ppsWait = false ∧ s.time.jumpKnown = true)
    ∧ Now at0 ({ ready with time := { ready.time with tb := .qualified, returnPolicy := (0, 1000) } }) (fun _ s => jumpDue s ∧
      s.time.resume = none ∧ (s.time.returnPolicy.1 = 0 ∨ heldResumes s ≠ []))
    ∧ Now at0 ({ ready with time := { ready.time with tb := .qualified, returnPolicy := (1, 1000) } }) (fun _ s => jumpDue s ∧
      s.time.resume = none ∧ s.time.returnPolicy.1 = 1 ∧ heldResumes s = [] ∧ slewWithin (jumpOf (5 : Int) s)
      s.time.returnPolicy.2 = true)
    ∧ Now at0 ({ ready with time := { ready.time with tb := .qualified, returnPolicy := (1, 0) } }) (fun _ s => jumpDue s ∧
      s.time.resume = none ∧ s.time.returnPolicy.1 = 1 ∧ heldResumes s = [] ∧ slewWithin (jumpOf (5 : Int) s)
      s.time.returnPolicy.2 = false)
    ∧ Now at0 ({ ready with time := { ready.time with tb := .qualified, returnPolicy := (2, 1000) } }) (fun _ s => jumpDue s ∧
      s.time.resume = none ∧ s.time.returnPolicy.1 = 2 ∧ heldResumes s = [])
    ∧ Now at0 ({ ready with nextId := 1, cmds := [running 0x0205 []], time := { ready.time with tb := .qualified, resume := some { cmd := 0, step := false } } })
      (fun _ s => jumpDue s ∧ s.time.resume = some ({ cmd := 0, step := false } : ResumeWait) ∧ ({ cmd := 0, step := false } :
      ResumeWait).step = false ∧ slewAllowed (jumpOf (5 : Int) s) = true ∧ cmdById s ({ cmd := 0, step := false } :
      ResumeWait).cmd = some (running 0x0205 [] : Cmd) ∧ (running 0x0205 [] : Cmd).src ≠ .pairLink)
    ∧ Now at0 ({ ready with nextId := 1, cmds := [running 0x0205 []], time := { ready.time with slewMax := 0, tb := .qualified, resume := some { cmd := 0, step := false } } })
      (fun _ s => jumpDue s ∧ s.time.resume = some ({ cmd := 0, step := false } : ResumeWait) ∧ ({ cmd := 0, step := false } :
      ResumeWait).step = false ∧ slewAllowed (jumpOf (5 : Int) s) = false ∧ cmdById s ({ cmd := 0, step := false } :
      ResumeWait).cmd = some (running 0x0205 [] : Cmd) ∧ (running 0x0205 [] : Cmd).src ≠ .pairLink)
    ∧ Now at0 ({ ready with nextId := 1, cmds := [running 0x0205 []], time := { ready.time with tb := .qualified, resume := some { cmd := 0, step := true } } })
      (fun _ s => jumpDue s ∧ s.time.resume = some ({ cmd := 0, step := true } : ResumeWait) ∧ ({ cmd := 0, step := true } :
      ResumeWait).step = true)
    ∧ Now at0 ({ ready with time := { ready.time with tb := .slew } }) (fun _ s => s.time.tb = .slew ∧ s.time.resume = none ∧
      s.time.step = none ∧ heldResumes s = [])
    ∧ Now at0 ({ ready with time := { ready.time with tb := .slew } }) (fun _ s => s.time.tb = .slew)
    ∧ Now at0 ready (fun _ s => s.time.tb ≠ .slew) := by
  and_intros <;> decide +kernel

theorem test_witness_LockEvents :
    Now at0 ready (fun _ s => s.time.tb = .locked ∧ s.time.applyCapture = none)
    ∧ Now at0 ({ ready with time := { ready.time with tb := .slew } }) (fun _ s => s.time.tb = .slew ∧ s.time.refPresent = true ∧
      s.time.step = none ∧ s.time.resume = none ∧ s.cmds = [])
    ∧ Now at0 ({ ready with time := { ready.time with tb := .relocking } }) (fun _ s => locked s = false)
    ∧ Now at0 ({ ready with time := { ready.time with tb := .relocking } }) (fun _ s => s.time.tb = .relocking ∧
      s.time.lockAttempts ≠ 3)
    ∧ Now at0 ({ ready with time := { ready.time with tb := .relocking, lockAttempts := 3 } }) (fun _ s => s.time.tb = .relocking
      ∧ s.time.lockAttempts = 3)
    ∧ Now at0 ready (fun _ s => s.time.tb ≠ .relocking)
    ∧ (({ ready with time := { ready.time with tb := .relocking, everLocked := false } } : State).quiet = true ∧ hasMirror ({ ready with time := { ready.time with tb := .relocking, everLocked := false } }
      : State) = false ∧ ({ ready with time := { ready.time with tb := .relocking, everLocked := false } } : State).time.tb =
      .relocking ∧ ({ ready with time := { ready.time with tb := .relocking, everLocked := false } } : State).time.configCmds = []
      ∧ ({ ready with time := { ready.time with tb := .relocking, everLocked := false } } : State).hub.tripped = false ∧ ({ ready with time := { ready.time with tb := .relocking, everLocked := false } }
      : State).time.everLocked = false)
    ∧ (({ ready with time := { ready.time with tb := .relocking } } : State).quiet = true ∧ hasMirror ({ ready with time := { ready.time with tb := .relocking } }
      : State) = false ∧ ({ ready with time := { ready.time with tb := .relocking } } : State).time.tb = .relocking ∧ ({ ready with time := { ready.time with tb := .relocking } }
      : State).time.configCmds = [] ∧ ({ ready with time := { ready.time with tb := .relocking } } : State).hub.tripped = false ∧
      ({ ready with time := { ready.time with tb := .relocking } } : State).time.everLocked = true ∧ ({ ready with time := { ready.time with tb := .relocking } }
      : State).time.relockStep = none)
    ∧ (({ ready with time := { ready.time with tb := .relocking, relockStep := some { boundary := 0, jump := 0, correct := false, cmd := none } } }
      : State).quiet = true ∧ hasMirror ({ ready with time := { ready.time with tb := .relocking, relockStep := some { boundary := 0, jump := 0, correct := false, cmd := none } } }
      : State) = false ∧ ({ ready with time := { ready.time with tb := .relocking, relockStep := some { boundary := 0, jump := 0, correct := false, cmd := none } } }
      : State).time.tb = .relocking ∧ ({ ready with time := { ready.time with tb := .relocking, relockStep := some { boundary := 0, jump := 0, correct := false, cmd := none } } }
      : State).time.configCmds = [] ∧ ({ ready with time := { ready.time with tb := .relocking, relockStep := some { boundary := 0, jump := 0, correct := false, cmd := none } } }
      : State).hub.tripped = false ∧ ({ ready with time := { ready.time with tb := .relocking, relockStep := some { boundary := 0, jump := 0, correct := false, cmd := none } } }
      : State).time.everLocked = true ∧ ({ ready with time := { ready.time with tb := .relocking, relockStep := some { boundary := 0, jump := 0, correct := false, cmd := none } } }
      : State).time.relockStep = some ({ boundary := 0, jump := 0, correct := false, cmd := none } : RelockStep))
    ∧ ((ready : State).quiet = true ∧ hasMirror (ready : State) = false ∧ (ready : State).time.tb ≠ .relocking)
    ∧ (({ ready with time := { ready.time with tb := .slew, step := some { boundary := 64, cmd := none, fromSlew := false, remeasure := false } } }
      : State).quiet = true ∧ hasMirror ({ ready with time := { ready.time with tb := .slew, step := some { boundary := 64, cmd := none, fromSlew := false, remeasure := false } } }
      : State) = false ∧ ({ ready with time := { ready.time with tb := .slew, step := some { boundary := 64, cmd := none, fromSlew := false, remeasure := false } } }
      : State).time.step = some ({ boundary := 64, cmd := none, fromSlew := false, remeasure := false } : StepWait) ∧ (({ ready with time := { ready.time with tb := .slew, step := some { boundary := 64, cmd := none, fromSlew := false, remeasure := false } } }
      : State).time.tb = .slew ∨ (({ ready with time := { ready.time with tb := .slew, step := some { boundary := 64, cmd := none, fromSlew := false, remeasure := false } } }
      : State).time.tb = .qualified ∧ ({ ready with time := { ready.time with tb := .slew, step := some { boundary := 64, cmd := none, fromSlew := false, remeasure := false } } }
      : State).time.refPresent = true)))
    ∧ (({ ready with time := { ready.time with step := some { boundary := 64, cmd := none, fromSlew := false, remeasure := false } } }
      : State).quiet = true ∧ hasMirror ({ ready with time := { ready.time with step := some { boundary := 64, cmd := none, fromSlew := false, remeasure := false } } }
      : State) = false ∧ ({ ready with time := { ready.time with step := some { boundary := 64, cmd := none, fromSlew := false, remeasure := false } } }
      : State).time.step = some ({ boundary := 64, cmd := none, fromSlew := false, remeasure := false } : StepWait) ∧ locked ({ ready with time := { ready.time with step := some { boundary := 64, cmd := none, fromSlew := false, remeasure := false } } }
      : State) = true ∧ ({ ready with time := { ready.time with step := some { boundary := 64, cmd := none, fromSlew := false, remeasure := false } } }
      : State).time.tb ≠ .slew ∧ (({ ready with time := { ready.time with step := some { boundary := 64, cmd := none, fromSlew := false, remeasure := false } } }
      : State).time.tb ≠ .qualified ∨ ({ ready with time := { ready.time with step := some { boundary := 64, cmd := none, fromSlew := false, remeasure := false } } }
      : State).time.refPresent = false) ∧ ({ boundary := 64, cmd := none, fromSlew := false, remeasure := false } : StepWait).cmd
      = none)
    ∧ ((ready : State).quiet = true ∧ hasMirror (ready : State) = false ∧ (ready : State).time.step = none) := by
  and_intros <;> decide +kernel

theorem test_witness_SyncAndPpsEvents :
    Now at0 ({ ready with nextId := 1, cmds := [running 0x0204 [0, 0, 0]], time := { ready.time with syncs := [{ cmd := 0, pps := false, apply := false, syncIndex := 0 }] } })
      (fun _ s => s.time.tb = .locked ∧ s.time.applyCapture = none ∧ (s.time.syncs.filter fun x => x.pps == false) = [({ cmd := 0, pps := false, apply := false, syncIndex := 0 }
      : SyncWait)] ∧ cmdById s ({ cmd := 0, pps := false, apply := false, syncIndex := 0 } : SyncWait).cmd = some (running 0x0204
      [0, 0, 0] : Cmd) ∧ (running 0x0204 [0, 0, 0] : Cmd).src ≠ .pairLink ∧ ({ cmd := 0, pps := false, apply := false, syncIndex := 0 }
      : SyncWait).apply = false)
    ∧ Now at0 ({ ready with nextId := 1, cmds := [running 0x0204 [0, 0, 0]], time := { ready.time with syncs := [{ cmd := 0, pps := false, apply := true, syncIndex := 0 }] } })
      (fun _ s => s.time.tb = .locked ∧ s.time.applyCapture = none ∧ (s.time.syncs.filter fun x => x.pps == false) = [({ cmd := 0, pps := false, apply := true, syncIndex := 0 }
      : SyncWait)] ∧ ({ cmd := 0, pps := false, apply := true, syncIndex := 0 } : SyncWait).apply = true ∧ s.mode = .quiet)
    ∧ Now at0 ({ ready with time := { ready.time with tb := .relocking } }) (fun _ s => locked s = false ∨ s.time.tb.isHoldover =
      true)
    ∧ Now at0 ({ ready with nextId := 1, cmds := [running 0x0204 [0, 0, 0]], time := { ready.time with syncs := [{ cmd := 0, pps := false, apply := false, syncIndex := 0 }] } })
      (fun _ s => (s.time.syncs.any fun w => w.cmd == 0) = true ∧ cmdById s 0 = some (running 0x0204 [0, 0, 0] : Cmd) ∧ (running
      0x0204 [0, 0, 0] : Cmd).src ≠ .pairLink)
    ∧ Now at0 ready (fun _ s => (s.time.syncs.any fun w => w.cmd == 0) = false)
    ∧ (({ ready with time := { ready.time with tb := .relocking, configCmds := [0] } } : State).quiet = true ∧ hasMirror ({ ready with time := { ready.time with tb := .relocking, configCmds := [0] } }
      : State) = false ∧ ({ ready with time := { ready.time with tb := .relocking, configCmds := [0] } } : State).time.tb =
      .relocking ∧ ({ ready with time := { ready.time with tb := .relocking, configCmds := [0] } } : State).time.configCmds ≠ [] ∧
      ({ ready with time := { ready.time with tb := .relocking, configCmds := [0] } } : State).hub.tripped = false)
    ∧ (({ ready with time := { ready.time with applyCapture := some { at_ := 0, syncRef := 0, syncIndex := 0 } } } : State).quiet
      = true ∧ hasMirror ({ ready with time := { ready.time with applyCapture := some { at_ := 0, syncRef := 0, syncIndex := 0 } } }
      : State) = false ∧ locked ({ ready with time := { ready.time with applyCapture := some { at_ := 0, syncRef := 0, syncIndex := 0 } } }
      : State) = true ∧ ({ ready with time := { ready.time with applyCapture := some { at_ := 0, syncRef := 0, syncIndex := 0 } } }
      : State).time.applyCapture = some ({ at_ := 0, syncRef := 0, syncIndex := 0 } : ApplyCapture))
    ∧ ((ready : State).quiet = true ∧ hasMirror (ready : State) = false ∧ (ready : State).time.tb ≠ .relocking ∧ (ready :
      State).time.applyCapture = none)
    ∧ Now at0 ready (fun _ s => s.time.ppsInEn = false ∨ s.tdc.notReady = true ∨ delivering s = false)
    ∧ Now at0 ({ ready with tdc := { TdcUnit.power with notReady := false }, time := { ready.time with ppsInEn := true, ppsAt := some 1280 } })
      (fun _ s => s.time.ppsInEn = true ∧ s.tdc.notReady = false ∧ delivering s = true ∧ ppsAccepts s (tdcRaw s 8 5 0) = false)
    ∧ Now 40000000000 ({ ready with time := { ready.time with ppsInEn := true, ppsAt := some 0 } }) (fun _ s => s.time.ppsInEn =
      true ∧ ppsDue s = true)
    ∧ Now at0 ready (fun _ s => s.time.ppsInEn = false ∨ ppsDue s = false)
    ∧ Now at0 ({ ready with time := { ready.time with ppsOutEn := true } }) (fun _ s => s.time.ppsOutEn = true ∧ delivering s =
      true)
    ∧ Now at0 ready (fun _ s => s.time.ppsOutEn = false ∨ delivering s = false) := by
  and_intros <;> decide +kernel

theorem test_witness_SyncAndPpsEvents_11 :
    Now at0 ({ ready with tdc := { TdcUnit.power with notReady := false }, time := { ready.time with ppsInEn := true, ppsNotice := false } })
      (fun _ s => s.time.ppsInEn = true ∧ s.tdc.notReady = false ∧ delivering s = true ∧ s.time.ppsNotice = false ∧ s.time.ppsWait
      = false ∧ (tdcRaw (passTo at0 ({ ready with tdc := { TdcUnit.power with notReady := false }, time := { ready.time with ppsInEn := true, ppsNotice := false } }))
      8 5 0) = tdcRaw s 8 5 0 ∧ (stampOf (passTo at0 ({ ready with tdc := { TdcUnit.power with notReady := false }, time := { ready.time with ppsInEn := true, ppsNotice := false } }))
      12 (((tdcRaw (passTo at0 ({ ready with tdc := { TdcUnit.power with notReady := false }, time := { ready.time with ppsInEn := true, ppsNotice := false } }))
      8 5 0 : Nat) : Int) * 2 ^ 28) 0 : Nat) = stampOf s 12 (((tdcRaw (passTo at0 ({ ready with tdc := { TdcUnit.power with notReady := false }, time := { ready.time with ppsInEn := true, ppsNotice := false } }))
      8 5 0) : Int) * 2 ^ 28) 0 ∧ ppsAccepts s (tdcRaw (passTo at0 ({ ready with tdc := { TdcUnit.power with notReady := false }, time := { ready.time with ppsInEn := true, ppsNotice := false } }))
      8 5 0) = true) := by
  and_intros <;> first | with_reducible rfl | decide +kernel

theorem test_witness_SyncAndPpsEvents_12 :
    Now at0 ({ ready with tdc := { TdcUnit.power with notReady := false }, time := { ready.time with ppsInEn := true, ppsNotice := true } })
      (fun _ s => s.time.ppsInEn = true ∧ s.tdc.notReady = false ∧ delivering s = true ∧ s.time.ppsNotice = true ∧ s.time.ppsWait
      = false ∧ (tdcRaw (passTo at0 ({ ready with tdc := { TdcUnit.power with notReady := false }, time := { ready.time with ppsInEn := true, ppsNotice := true } }))
      8 5 0) = tdcRaw s 8 5 0 ∧ (stampOf (passTo at0 ({ ready with tdc := { TdcUnit.power with notReady := false }, time := { ready.time with ppsInEn := true, ppsNotice := true } }))
      12 (((tdcRaw (passTo at0 ({ ready with tdc := { TdcUnit.power with notReady := false }, time := { ready.time with ppsInEn := true, ppsNotice := true } }))
      8 5 0 : Nat) : Int) * 2 ^ 28) 0 : Nat) = stampOf s 12 (((tdcRaw (passTo at0 ({ ready with tdc := { TdcUnit.power with notReady := false }, time := { ready.time with ppsInEn := true, ppsNotice := true } }))
      8 5 0) : Int) * 2 ^ 28) 0 ∧ ppsAccepts s (tdcRaw (passTo at0 ({ ready with tdc := { TdcUnit.power with notReady := false }, time := { ready.time with ppsInEn := true, ppsNotice := true } }))
      8 5 0) = true) := by
  and_intros <;> first | with_reducible rfl | decide +kernel

theorem test_witness_ConverterEvents :
    ((ready : State).quiet = true ∧ hasMirror (ready : State) = false ∧ (ready : State).variant.channels ≤ 4)
    ∧ ((ready : State).quiet = true ∧ hasMirror (ready : State) = false ∧ 0 < (ready : State).variant.channels ∧ delivering (ready
      : State) = true)
    ∧ (100 ∈ ovrList ({ ready with conv := { ready.conv with channels := List.replicate 4 { Channel.power with guards := [(0, 80)] }, signal := [{ channel := 1, first := 100, values := [3000] }] } }
      : State) (neighbour 0) ∧ neighbour 0 < ({ ready with conv := { ready.conv with channels := List.replicate 4 { Channel.power with guards := [(0, 80)] }, signal := [{ channel := 1, first := 100, values := [3000] }] } }
      : State).variant.channels ∧ 100 < 101 ∧ 101 ≤ 100 + 32)
    ∧ (100 ∈ ovrList ({ ready with conv := { ready.conv with channels := List.replicate 4 { Channel.power with guards := [(0, 80)] }, signal := [{ channel := 1, first := 100, values := [3000] }] } }
      : State) 1 ∧ (∀ i ∈ ovrList ({ ready with conv := { ready.conv with channels := List.replicate 4 { Channel.power with guards := [(0, 80)] }, signal := [{ channel := 1, first := 100, values := [3000] }] } }
      : State) 1, i < 101 → i ≤ 100) ∧ 101 ∉ ovrList ({ ready with conv := { ready.conv with channels := List.replicate 4 { Channel.power with guards := [(0, 80)] }, signal := [{ channel := 1, first := 100, values := [3000] }] } }
      : State) 1 ∧ 100 < 101 ∧ 101 ≤ 100 + settingAt 0 (channelOf ({ ready with conv := { ready.conv with channels := List.replicate 4 { Channel.power with guards := [(0, 80)] }, signal := [{ channel := 1, first := 100, values := [3000] }] } }
      : State) 1).guards 100)
    ∧ Now at0 ready (fun k s => coresRun s = true ∧ delivering s = true ∧ s.conv.hold = false ∧ runMode s ≠ .calibrate ∧ k % (32 *
      2 ^ s.conv.dwellLog2) = 0 ∧ s.maint.sliceFrom ≤ k)
    ∧ Now at0 ({ ready with conv := { ConvUnit.power with hold := true } }) (fun _ s => coresRun s = true ∧ (s.conv.hold = true ∨
      runMode s = .calibrate))
    ∧ Now at0 ready (fun _ s => delivering s = true ∧ windowWhole s s.index = true ∧ 0 < s.variant.channels ∧ 0 <
      s.conv.channels.length ∧ (channelOf s 0).retired = none ∧ (channelOf s 0).noSpareSince = none ∧ failedPositions ((List.range
      32).map fun i => (if i = 5 then 10000000 else 0, 0) : List (Int × Nat)) = [5] ∧ servingSlice s (channelOf s 0) 5 ≠ idleSlice
      s (channelOf s 0))
    ∧ Now at0 ({ ready with conv := { ConvUnit.power with channels := List.replicate 4 { Channel.power with retired := some 1, frozenSpare := some 2 } } })
      (fun _ s => delivering s = true ∧ windowWhole s s.index = true ∧ 0 < s.variant.channels ∧ 0 < s.conv.channels.length ∧
      (channelOf s 0).retired = some 1 ∧ (channelOf s 0).noSpareSince = none ∧ failedPositions ((List.range 32).map fun i => (if i
      = 5 then 10000000 else 0, 0) : List (Int × Nat)) = [5] ∧ servingSlice s (channelOf s 0) 5 ≠ idleSlice s (channelOf s 0))
    ∧ Now at0 ({ ready with time := { ready.time with tb := .relocking } }) (fun _ s => delivering s = false ∨ windowWhole s
      s.index = false ∨ ([] : List SliceSums).all (fun x => failedPositions x.sums == []) = true)
    ∧ Now at0 ready (fun _ _ => True)
    ∧ ((Equaliser.power : Equaliser).running = none)
    ∧ (({ Equaliser.power with running := some { target := true, start := 0, stop := 10, fade := false } } : Equaliser).running =
      some ({ target := true, start := 0, stop := 10, fade := false } : EqSwap) ∧ 9 < ({ target := true, start := 0, stop := 10, fade := false }
      : EqSwap).stop)
    ∧ (({ Equaliser.power with running := some { target := true, start := 0, stop := 10, fade := false } } : Equaliser).running =
      some ({ target := true, start := 0, stop := 10, fade := false } : EqSwap) ∧ ({ target := true, start := 0, stop := 10, fade := false }
      : EqSwap).stop ≤ 10 ∧ ({ Equaliser.power with running := some { target := true, start := 0, stop := 10, fade := false } } :
      Equaliser).held = none) := by
  and_intros <;> decide +kernel

theorem test_witness_SpectrumDone :
    Now at0 ({ inMode .analyse with engines := List.replicate 8 { Engine.power false with enabled := true, live := true, anchor := some 0 } })
      (fun _ s => engineRunning s 0 = true ∧ locked s = true ∧ frameEnd s 0 (engineOf s 0).frame < heldBefore s ∧ 0 <
      s.engines.length)
    ∧ Now at0 ready (fun _ s => engineRunning s 0 = false ∨ locked s = false ∨ heldBefore s ≤ frameEnd s 0 (engineOf s 0).frame) := by
  and_intros <;> decide +kernel

theorem test_witness_DensityEvents :
    Now at0 ({ inMode .analyse with dens := List.replicate 4 { Density.power with enabled := true, cfg := { Density.power.cfg with frameSc := 1 }, anchor := some 0, frame := some { start := 0, spectra := 0, skipped := 0, discarded := 0, flags := default, regrid := false, cleared := false } } })
      (fun k s => densRunning s 0 = true ∧ locked s = true ∧ 0 < s.dens.length ∧ (densOf s 0).frame = some ({ start := 0, spectra := 0, skipped := 0, discarded := 0, flags := default, regrid := false, cleared := false }
      : DensityFrame) ∧ densFrameLen (densOf s 0) ≠ 0 ∧ ({ start := 0, spectra := 0, skipped := 0, discarded := 0, flags := default, regrid := false, cleared := false }
      : DensityFrame).start + densFrameLen (densOf s 0) ≤ k ∧ reached s (densEngine 0 (densOf s 0)) (({ start := 0, spectra := 0, skipped := 0, discarded := 0, flags := default, regrid := false, cleared := false }
      : DensityFrame).start + densFrameLen (densOf s 0)) = true)
    ∧ Now at0 ready (fun _ s => densRunning s 0 = false)
    ∧ Now at0 ready (fun _ s => locked s = true)
    ∧ Now at0 ({ ready with time := { ready.time with tb := .relocking } }) (fun _ s => locked s = false)
    ∧ ((densOf ({ inMode .analyse with dens := List.replicate 4 { Density.power with enabled := true, cfg := { Density.power.cfg with frameSc := 100000, persist := 1 }, anchor := some 0, frame := some { start := 0, spectra := 0, skipped := 0, discarded := 0, flags := default, regrid := false, cleared := false } } }
      : State) 0).late = [] ∧ densRunning ({ inMode .analyse with dens := List.replicate 4 { Density.power with enabled := true, cfg := { Density.power.cfg with frameSc := 100000, persist := 1 }, anchor := some 0, frame := some { start := 0, spectra := 0, skipped := 0, discarded := 0, flags := default, regrid := false, cleared := false } } }
      : State) 0 = true ∧ reached ({ inMode .analyse with dens := List.replicate 4 { Density.power with enabled := true, cfg := { Density.power.cfg with frameSc := 100000, persist := 1 }, anchor := some 0, frame := some { start := 0, spectra := 0, skipped := 0, discarded := 0, flags := default, regrid := false, cleared := false } } }
      : State) (densEngine 0 (densOf ({ inMode .analyse with dens := List.replicate 4 { Density.power with enabled := true, cfg := { Density.power.cfg with frameSc := 100000, persist := 1 }, anchor := some 0, frame := some { start := 0, spectra := 0, skipped := 0, discarded := 0, flags := default, regrid := false, cleared := false } } }
      : State) 0)) 0 = true ∧ (densOf ({ inMode .analyse with dens := List.replicate 4 { Density.power with enabled := true, cfg := { Density.power.cfg with frameSc := 100000, persist := 1 }, anchor := some 0, frame := some { start := 0, spectra := 0, skipped := 0, discarded := 0, flags := default, regrid := false, cleared := false } } }
      : State) 0).frame = some ({ start := 0, spectra := 0, skipped := 0, discarded := 0, flags := default, regrid := false, cleared := false }
      : DensityFrame) ∧ 0 < ({ start := 0, spectra := 0, skipped := 0, discarded := 0, flags := default, regrid := false, cleared := false }
      : DensityFrame).start + densFrameLen (densOf ({ inMode .analyse with dens := List.replicate 4 { Density.power with enabled := true, cfg := { Density.power.cfg with frameSc := 100000, persist := 1 }, anchor := some 0, frame := some { start := 0, spectra := 0, skipped := 0, discarded := 0, flags := default, regrid := false, cleared := false } } }
      : State) 0) ∧ (densOf ({ inMode .analyse with dens := List.replicate 4 { Density.power with enabled := true, cfg := { Density.power.cfg with frameSc := 100000, persist := 1 }, anchor := some 0, frame := some { start := 0, spectra := 0, skipped := 0, discarded := 0, flags := default, regrid := false, cleared := false } } }
      : State) 0).cfg.persist = 1 ∧ 0 % (32 * 2 ^ (densOf ({ inMode .analyse with dens := List.replicate 4 { Density.power with enabled := true, cfg := { Density.power.cfg with frameSc := 100000, persist := 1 }, anchor := some 0, frame := some { start := 0, spectra := 0, skipped := 0, discarded := 0, flags := default, regrid := false, cleared := false } } }
      : State) 0).cfg.decayLog2) = 0) := by
  and_intros <;> decide +kernel

theorem test_witness_TriggerEvents :
    Now at0 ready (fun _ s => trigDecides s = false)
    ∧ Now at0 (inMode .analyse) (fun _ s => trigDecides s = true)
    ∧ ((ready : State).trig.forced = [] ∧ (ready : State).trig.slots.all (fun t => t.st == .disabled) = true)
    ∧ (0 < 1) := by
  and_intros <;> decide +kernel

theorem test_witness_SegmentClose :
    Now at0 ({ ready with cap := { ready.cap with sheaves := modAt ready.cap.sheaves 0 fun x => { x with seg := some { (default : Segment) with stop := 5 } } } })
      (fun k s => trigDecides s = false ∧ 0 < s.cap.sheaves.length ∧ (sheafOf s 0).closing = [] ∧ (sheafOf s 0).seg = some ({ (default : Segment) with stop := 5 }
      : Segment) ∧ (sheafOf s 0).cfg.kind ≠ 2 ∧ ({ (default : Segment) with stop := 5 } : Segment).stop ≤ k ∧ ({ (default : Segment) with stop := 5 }
      : Segment).stop < heldBefore s ∧ sheafAwaits s 0 ({ (default : Segment) with stop := 5 } : Segment).stop = false)
    ∧ Now at0 ({ ready with cap := { ready.cap with sheaves := modAt ready.cap.sheaves 0 fun x => { x with seg := some { (default : Segment) with stop := at0 + 1 } } } })
      (fun k s => trigDecides s = false ∧ (sheafOf s 0).closing = [] ∧ (sheafOf s 0).seg = some ({ (default : Segment) with stop := at0 + 1 }
      : Segment) ∧ (sheafOf s 0).cfg.kind ≠ 2 ∧ k < ({ (default : Segment) with stop := at0 + 1 } : Segment).stop)
    ∧ Now at0 ready (fun _ s => trigDecides s = false ∧ (sheafOf s 0).closing = [] ∧ (sheafOf s 0).seg = none)
    ∧ Now at0 ({ ready with cap := { ready.cap with sheaves := modAt ready.cap.sheaves 0 fun x => { x with closing := [{ (default : Segment) with stop := 5 }] } } })
      (fun _ s => trigDecides s = false ∧ 0 < s.cap.sheaves.length ∧ (sheafOf s 0).closing = [({ (default : Segment) with stop := 5 }
      : Segment)] ∧ (sheafOf s 0).seg = none) := by
  and_intros <;> decide +kernel

theorem test_witness_IntegrationEvents :
    Now at0 ({ inMode .analyse with intg := { IntUnit.power with enabled := true, frame := some { start := 0, stop := 10, partialFrame := false, sets := 0, invalidSets := 0, taintedSets := 0, warmupSets := 0, flags := default, retune := false, gap := false, sat := [] }, members := [{ engine := 0, number := 1, key := 5 * 2 ^ 32, invalid := false, flags := default, bins := [], th := .flags [] }] } })
      (fun _ s => s.intg.frame = some ({ start := 0, stop := 10, partialFrame := false, sets := 0, invalidSets := 0, taintedSets := 0, warmupSets := 0, flags := default, retune := false, gap := false, sat := [] }
      : IntFrame) ∧ favoursIntegration (runMode s) = false ∧ (setMembers s.intg 1).head? = some ({ engine := 0, number := 1, key := 5 * 2 ^ 32, invalid := false, flags := default, bins := [], th := .flags [] }
      : IntMember) ∧ ({ start := 0, stop := 10, partialFrame := false, sets := 0, invalidSets := 0, taintedSets := 0, warmupSets := 0, flags := default, retune := false, gap := false, sat := [] }
      : IntFrame).start * 2 ^ 32 ≤ ({ engine := 0, number := 1, key := 5 * 2 ^ 32, invalid := false, flags := default, bins := [], th := .flags [] }
      : IntMember).key ∧ ({ engine := 0, number := 1, key := 5 * 2 ^ 32, invalid := false, flags := default, bins := [], th := .flags [] }
      : IntMember).key < ({ start := 0, stop := 10, partialFrame := false, sets := 0, invalidSets := 0, taintedSets := 0, warmupSets := 0, flags := default, retune := false, gap := false, sat := [] }
      : IntFrame).stop * 2 ^ 32 ∧ ((setMembers s.intg 1).any fun x => x.engine == (intEngines s.intg.cfg).headD 0) = true)
    ∧ Now at0 ({ inMode .integrate with intg := { IntUnit.power with enabled := true, frame := some { start := 0, stop := 10, partialFrame := false, sets := 0, invalidSets := 0, taintedSets := 0, warmupSets := 0, flags := default, retune := false, gap := false, sat := [] }, members := [{ engine := 0, number := 1, key := 5 * 2 ^ 32, invalid := true, flags := default, bins := [], th := .flags [] }] } })
      (fun _ s => s.intg.frame = some ({ start := 0, stop := 10, partialFrame := false, sets := 0, invalidSets := 0, taintedSets := 0, warmupSets := 0, flags := default, retune := false, gap := false, sat := [] }
      : IntFrame) ∧ setWhole s.intg (setMembers s.intg 1) = true ∧ (setMembers s.intg 1).head? = some ({ engine := 0, number := 1, key := 5 * 2 ^ 32, invalid := true, flags := default, bins := [], th := .flags [] }
      : IntMember) ∧ ({ start := 0, stop := 10, partialFrame := false, sets := 0, invalidSets := 0, taintedSets := 0, warmupSets := 0, flags := default, retune := false, gap := false, sat := [] }
      : IntFrame).start * 2 ^ 32 ≤ ({ engine := 0, number := 1, key := 5 * 2 ^ 32, invalid := true, flags := default, bins := [], th := .flags [] }
      : IntMember).key ∧ ({ engine := 0, number := 1, key := 5 * 2 ^ 32, invalid := true, flags := default, bins := [], th := .flags [] }
      : IntMember).key < ({ start := 0, stop := 10, partialFrame := false, sets := 0, invalidSets := 0, taintedSets := 0, warmupSets := 0, flags := default, retune := false, gap := false, sat := [] }
      : IntFrame).stop * 2 ^ 32 ∧ ((setMembers s.intg 1).any fun x => x.invalid) = true)
    ∧ Now at0 ({ inMode .integrate with intg := { IntUnit.power with enabled := true, frame := some { start := 0, stop := 10, partialFrame := false, sets := 0, invalidSets := 0, taintedSets := 0, warmupSets := 0, flags := default, retune := false, gap := false, sat := [] }, members := [{ engine := 0, number := 1, key := 5 * 2 ^ 32, invalid := false, flags := default, bins := [], th := .flags [] }] } })
      (fun _ s => s.intg.frame = some ({ start := 0, stop := 10, partialFrame := false, sets := 0, invalidSets := 0, taintedSets := 0, warmupSets := 0, flags := default, retune := false, gap := false, sat := [] }
      : IntFrame) ∧ setWhole s.intg (setMembers s.intg 1) = true ∧ (setMembers s.intg 1).head? = some ({ engine := 0, number := 1, key := 5 * 2 ^ 32, invalid := false, flags := default, bins := [], th := .flags [] }
      : IntMember) ∧ ({ start := 0, stop := 10, partialFrame := false, sets := 0, invalidSets := 0, taintedSets := 0, warmupSets := 0, flags := default, retune := false, gap := false, sat := [] }
      : IntFrame).start * 2 ^ 32 ≤ ({ engine := 0, number := 1, key := 5 * 2 ^ 32, invalid := false, flags := default, bins := [], th := .flags [] }
      : IntMember).key ∧ ({ engine := 0, number := 1, key := 5 * 2 ^ 32, invalid := false, flags := default, bins := [], th := .flags [] }
      : IntMember).key < ({ start := 0, stop := 10, partialFrame := false, sets := 0, invalidSets := 0, taintedSets := 0, warmupSets := 0, flags := default, retune := false, gap := false, sat := [] }
      : IntFrame).stop * 2 ^ 32 ∧ intPoisoned s = false ∧ ∀ x ∈ setMembers s.intg 1, x.invalid = false ∧ x.th ≠ .warmup ∧ x.th ≠
      .lost)
    ∧ Now at0 ready (fun _ s => s.intg.frame = none ∨ setMembers s.intg 1 = [])
    ∧ Now at0 ({ inMode .integrate with intg := { IntUnit.power with enabled := true, frame := some { start := 0, stop := 10, partialFrame := false, sets := 0, invalidSets := 0, taintedSets := 0, warmupSets := 0, flags := default, retune := false, gap := false, sat := [] } } })
      (fun k s => locked s = true ∧ s.intg.frame = some ({ start := 0, stop := 10, partialFrame := false, sets := 0, invalidSets := 0, taintedSets := 0, warmupSets := 0, flags := default, retune := false, gap := false, sat := [] }
      : IntFrame) ∧ s.intg.members = [] ∧ ({ start := 0, stop := 10, partialFrame := false, sets := 0, invalidSets := 0, taintedSets := 0, warmupSets := 0, flags := default, retune := false, gap := false, sat := [] }
      : IntFrame).stop ≤ k ∧ (intEngines s.intg.cfg).all (fun e => reached s e ({ start := 0, stop := 10, partialFrame := false, sets := 0, invalidSets := 0, taintedSets := 0, warmupSets := 0, flags := default, retune := false, gap := false, sat := [] }
      : IntFrame).stop) = true)
    ∧ Now at0 ({ ready with time := { ready.time with tb := .relocking }, intg := { IntUnit.power with enabled := true, frame := some { start := 0, stop := 10, partialFrame := false, sets := 0, invalidSets := 0, taintedSets := 0, warmupSets := 0, flags := default, retune := false, gap := false, sat := [] } } })
      (fun k s => s.intg.frame = some ({ start := 0, stop := 10, partialFrame := false, sets := 0, invalidSets := 0, taintedSets := 0, warmupSets := 0, flags := default, retune := false, gap := false, sat := [] }
      : IntFrame) ∧ (locked s = false ∨ k < ({ start := 0, stop := 10, partialFrame := false, sets := 0, invalidSets := 0, taintedSets := 0, warmupSets := 0, flags := default, retune := false, gap := false, sat := [] }
      : IntFrame).stop))
    ∧ Now at0 ready (fun _ s => s.intg.frame = none) := by
  and_intros <;> decide +kernel

theorem test_witness_StreamEvents :
    Now at0 ready (fun _ s => modeRunsProducts (runMode s) = false ∨ ((ctxOf s 0).cfg.pkind ≤ 1 ∧ nextPiece s 0 = none))
    ∧ Now at0 ({ inMode .analyse with nextId := 1, cmds := [], strm := { StreamUnit.power with ctxs := modAt StreamUnit.power.ctxs 0 fun c => { c with packets := [{ seq := 0, bytes := [], offset := 0, index := 0, first := false, last := false, sent := false }] }, dests := List.replicate 64 { dest := .hostRing 0 4 2048 0 0 false 1 0, prod := 0, cons := 0, unsignalled := 0 } } })
      (fun _ s => liveReady s 0 = some (({ seq := 0, bytes := [], offset := 0, index := 0, first := false, last := false, sent := false }
      : StoredPacket), 0) ∧ theirs s 0 ({ seq := 0, bytes := [], offset := 0, index := 0, first := false, last := false, sent := false }
      : StoredPacket) = false ∧ packetLost s (ctxOf s 0).cfg ({ seq := 0, bytes := [], offset := 0, index := 0, first := false, last := false, sent := false }
      : StoredPacket) = false ∧ hasTurn s 0 (linkOf s 0) = true ∧ ((ctxOf s 0).cfg.pkind = 8 → ({ seq := 0, bytes := [], offset := 0, index := 0, first := false, last := false, sent := false }
      : StoredPacket).last = false))
    ∧ Now at0 ({ inMode .analyse with nextId := 1, cmds := [], strm := { StreamUnit.power with ctxs := modAt StreamUnit.power.ctxs 0 fun c => { c with cfg := { c.cfg with pkind := 8 }, packets := [{ seq := 0, bytes := [], offset := 0, index := 0, first := false, last := true, sent := false }] }, dests := List.replicate 64 { dest := .hostRing 0 4 2048 0 0 false 1 0, prod := 0, cons := 0, unsignalled := 0 } } })
      (fun _ s => liveReady s 0 = some (({ seq := 0, bytes := [], offset := 0, index := 0, first := false, last := true, sent := false }
      : StoredPacket), 0) ∧ theirs s 0 ({ seq := 0, bytes := [], offset := 0, index := 0, first := false, last := true, sent := false }
      : StoredPacket) = false ∧ packetLost s (ctxOf s 0).cfg ({ seq := 0, bytes := [], offset := 0, index := 0, first := false, last := true, sent := false }
      : StoredPacket) = false ∧ hasTurn s 0 (linkOf s 0) = true ∧ (ctxOf s 0).cfg.pkind = 8 ∧ ({ seq := 0, bytes := [], offset := 0, index := 0, first := false, last := true, sent := false }
      : StoredPacket).last = true)
    ∧ Now at0 ({ inMode .analyse with pool := { mem8.pool with parts := [{ newPart 8 0 1 0 with poisoned := [0] }] }, nextId := 1, cmds := [], strm := { StreamUnit.power with ctxs := modAt StreamUnit.power.ctxs 0 fun c => { c with cfg := { c.cfg with ring := 8 }, packets := [{ seq := 0, bytes := [0], offset := 0, index := 0, first := false, last := false, sent := false }] }, dests := List.replicate 64 { dest := .hostRing 0 4 2048 0 0 false 1 0, prod := 0, cons := 0, unsignalled := 0 } } })
      (fun _ s => liveReady s 0 = some (({ seq := 0, bytes := [0], offset := 0, index := 0, first := false, last := false, sent := false }
      : StoredPacket), 0) ∧ theirs s 0 ({ seq := 0, bytes := [0], offset := 0, index := 0, first := false, last := false, sent := false }
      : StoredPacket) = false ∧ packetLost s (ctxOf s 0).cfg ({ seq := 0, bytes := [0], offset := 0, index := 0, first := false, last := false, sent := false }
      : StoredPacket) = true ∧ (ctxOf s 0).cfg.pkind ≠ 8)
    ∧ Now at0 ({ inMode .analyse with nextId := 1, cmds := [], strm := { StreamUnit.power with ctxs := StreamUnit.power.ctxs.map fun c => { c with packets := [{ seq := 0, bytes := [], offset := 0, index := 0, first := false, last := false, sent := false }] }, dests := List.replicate 64 { dest := .hostRing 0 4 2048 0 0 false 1 0, prod := 0, cons := 0, unsignalled := 0 } } })
      (fun _ s => liveReady s 1 = some (({ seq := 0, bytes := [], offset := 0, index := 0, first := false, last := false, sent := false }
      : StoredPacket), 0) ∧ theirs s 1 ({ seq := 0, bytes := [], offset := 0, index := 0, first := false, last := false, sent := false }
      : StoredPacket) = false ∧ packetLost s (ctxOf s 1).cfg ({ seq := 0, bytes := [], offset := 0, index := 0, first := false, last := false, sent := false }
      : StoredPacket) = false ∧ hasTurn s 1 (linkOf s 0) = false)
    ∧ Now at0 ({ inMode .analyse with pair := { PairUnit.power with handover := some 1 }, nextId := 1, cmds := [], strm := { StreamUnit.power with ctxs := modAt StreamUnit.power.ctxs 0 fun c => { c with packets := [{ seq := 0, bytes := [], offset := 0, index := 0, first := false, last := false, sent := false }] }, dests := List.replicate 64 { dest := .hostRing 0 4 2048 0 0 false 1 0, prod := 0, cons := 0, unsignalled := 0 } } })
      (fun _ s => unsentOf (ctxOf s 0) = ({ seq := 0, bytes := [], offset := 0, index := 0, first := false, last := false, sent := false }
      : StoredPacket) :: ([] : List StoredPacket) ∧ theirs s 0 ({ seq := 0, bytes := [], offset := 0, index := 0, first := false, last := false, sent := false }
      : StoredPacket) = true)
    ∧ Now at0 ({ inMode .analyse with nextId := 1, cmds := [], strm := { StreamUnit.power with ctxs := modAt StreamUnit.power.ctxs 0 fun c => { c with packets := [{ seq := 0, bytes := [], offset := 0, index := 0, first := false, last := false, sent := false }] }, dests := List.replicate 64 { dest := .none, prod := 0, cons := 0, unsignalled := 0 } } })
      (fun _ s => unsentOf (ctxOf s 0) = ({ seq := 0, bytes := [], offset := 0, index := 0, first := false, last := false, sent := false }
      : StoredPacket) :: ([] : List StoredPacket) ∧ theirs s 0 ({ seq := 0, bytes := [], offset := 0, index := 0, first := false, last := false, sent := false }
      : StoredPacket) = false ∧ (destReady s ((ctxOf s 0).cfg.destFor ({ seq := 0, bytes := [], offset := 0, index := 0, first := false, last := false, sent := false }
      : StoredPacket).seq) = false ∨ egressOf s 0 ({ seq := 0, bytes := [], offset := 0, index := 0, first := false, last := false, sent := false }
      : StoredPacket) = false))
    ∧ Now at0 ready (fun _ s => unsentOf (ctxOf s 0) = [])
    ∧ Now at0 ({ inMode .analyse with nextId := 1, cmds := [], strm := { StreamUnit.power with ctxs := modAt StreamUnit.power.ctxs 0 fun c => { c with packets := [{ seq := 0, bytes := [], offset := 0, index := 0, first := false, last := false, sent := true }], rewind := some { cmd := 0, next := 0, stop := 0, override := none, resent := 0, lost := false } }, dests := List.replicate 64 { dest := .hostRing 0 4 2048 0 0 false 1 0, prod := 0, cons := 0, unsignalled := 0 } } })
      (fun _ s => rewindReady s 0 = some (({ seq := 0, bytes := [], offset := 0, index := 0, first := false, last := false, sent := true }
      : StoredPacket), 0) ∧ packetLost s (ctxOf s 0).cfg ({ seq := 0, bytes := [], offset := 0, index := 0, first := false, last := false, sent := true }
      : StoredPacket) = false ∧ hasTurn s 0 (linkOf s 0) = true)
    ∧ Now at0 ready (fun _ s => egressRuns s = false ∨ (ctxOf s 0).rewind = none)
    ∧ Now at0 ({ inMode .analyse with nextId := 1, cmds := [running 0x0A05 [0, 0, 0, 0, 0]], strm := { StreamUnit.power with ctxs := modAt StreamUnit.power.ctxs 0 fun c1 => { c1 with rewind := some { cmd := 0, next := 1, stop := 0, override := none, resent := 0, lost := false } }, dests := List.replicate 64 { dest := .none, prod := 0, cons := 0, unsignalled := 0 } } })
      (fun _ s => (ctxOf s 0).rewind = some ({ cmd := 0, next := 1, stop := 0, override := none, resent := 0, lost := false } :
      Rewind) ∧ ({ cmd := 0, next := 1, stop := 0, override := none, resent := 0, lost := false } : Rewind).lost = false ∧ ({ cmd := 0, next := 1, stop := 0, override := none, resent := 0, lost := false }
      : Rewind).stop < ({ cmd := 0, next := 1, stop := 0, override := none, resent := 0, lost := false } : Rewind).next ∧ cmdById
      s ({ cmd := 0, next := 1, stop := 0, override := none, resent := 0, lost := false } : Rewind).cmd = some (running 0x0A05 [0,
      0, 0, 0, 0] : Cmd) ∧ (running 0x0A05 [0, 0, 0, 0, 0] : Cmd).src ≠ .pairLink)
    ∧ Now at0 ({ inMode .analyse with nextId := 1, cmds := [running 0x0A05 [0, 0, 0, 0, 0]], strm := { StreamUnit.power with ctxs := modAt StreamUnit.power.ctxs 0 fun c1 => { c1 with rewind := some { cmd := 0, next := 1, stop := 0, override := none, resent := 0, lost := true } }, dests := List.replicate 64 { dest := .none, prod := 0, cons := 0, unsignalled := 0 } } })
      (fun _ s => (ctxOf s 0).rewind = some ({ cmd := 0, next := 1, stop := 0, override := none, resent := 0, lost := true } :
      Rewind) ∧ ({ cmd := 0, next := 1, stop := 0, override := none, resent := 0, lost := true } : Rewind).lost = true ∧ cmdById s
      ({ cmd := 0, next := 1, stop := 0, override := none, resent := 0, lost := true } : Rewind).cmd = some (running 0x0A05 [0, 0,
      0, 0, 0] : Cmd) ∧ (running 0x0A05 [0, 0, 0, 0, 0] : Cmd).src ≠ .pairLink)
    ∧ Now at0 ready (fun _ s => (ctxOf s 0).rewind = none)
    ∧ (destOf ready 0).dest = .none ∧ (destOf ({ inMode .analyse with nextId := 1, cmds := [], strm := { StreamUnit.power with ctxs := modAt StreamUnit.power.ctxs 0 fun c => { c with seq := 0 }, dests := List.replicate 64 { dest := .hostRing 0 4 2048 0 0 false 1 0, prod := 0, cons := 0, unsignalled := 0 } } })
      0).dest = .hostRing 0 4 2048 0 0 false 1 0 ∧ (destOf ({ inMode .analyse with nextId := 1, cmds := [], strm := { StreamUnit.power with ctxs := modAt StreamUnit.power.ctxs 0 fun c => { c with seq := 0 }, dests := List.replicate 64 { dest := .udp 0 false 0 0 0 0 [], prod := 0, cons := 0, unsignalled := 0 } } })
      0).dest = .udp 0 false 0 0 0 0 [] ∧ 0 < ready.strm.ports.length ∧ (destOf ({ inMode .analyse with nextId := 1, cmds := [], strm := { StreamUnit.power with ctxs := modAt StreamUnit.power.ctxs 0 fun c => { c with seq := 0 }, dests := List.replicate 64 { dest := .pair 1, prod := 0, cons := 0, unsignalled := 0 } } })
      0).dest = .pair 1 := by
  and_intros <;> decide +kernel

theorem test_witness_StreamEvents_1 :
    (∃ bytes : List Byte, ∃ s2 : State, Now at0 ({ inMode .analyse with nextId := 1, cmds := [], strm := { StreamUnit.power with ctxs := modAt StreamUnit.power.ctxs 0 fun c => { c with pieces := [{ (default : StreamPiece) with count := 1, last := true, settled := some ([0], default) }] }, dests := List.replicate 64 { dest := .none, prod := 0, cons := 0, unsignalled := 0 } } })
      (fun _ s => modeRunsProducts (runMode s) = true ∧ 0 < s.strm.ctxs.length ∧ (ctxOf s 0).cfg.pkind ≤ 1 ∧ s.mode ≠ .shadow ∧
      nextPiece s 0 = some (({ (default : StreamPiece) with count := 1, last := true, settled := some ([0], default) } :
      StreamPiece), true) ∧ (ctxOf s 0).cfg.ring = 0 ∧ (unsentOf (ctxOf s 0)).length < 64 ∧ (if (ctxOf s 0).cfg.vdif then some
      (vdifPacket s 0 ({ (default : StreamPiece) with count := 1, last := true, settled := some ([0], default) } : StreamPiece)
      (pieceData s (ctxOf s 0).cfg ({ (default : StreamPiece) with count := 1, last := true, settled := some ([0], default) } :
      StreamPiece)).1, s) else kdpSample s 0 ({ (default : StreamPiece) with count := 1, last := true, settled := some ([0], default) }
      : StreamPiece) ({ (default : StreamPiece) with count := 1, last := true, settled := some ([0], default) } :
      StreamPiece).last (pieceData s (ctxOf s 0).cfg ({ (default : StreamPiece) with count := 1, last := true, settled := some ([0], default) }
      : StreamPiece)).2 (pieceData s (ctxOf s 0).cfg ({ (default : StreamPiece) with count := 1, last := true, settled := some ([0], default) }
      : StreamPiece)).1 ([] : List Byte)) = some (bytes, s2))) := by
  refine ⟨_, _, ?_, ?_, ?_, ?_, ?_, ?_, ?_, ?_, ?_, rfl⟩ <;> decide +kernel

theorem test_witness_StreamEvents_2 :
    (∃ bytes : List Byte, ∃ s2 : State, Now at0 ({ inMode .analyse with nextId := 1, cmds := [], strm := { StreamUnit.power with ctxs := modAt StreamUnit.power.ctxs 0 fun c => { c with pieces := [{ (default : StreamPiece) with count := 1, last := true, settled := some ([0], default) }], packets := List.replicate 64 { seq := 0, bytes := [], offset := 0, index := 0, first := false, last := false, sent := false } }, dests := List.replicate 64 { dest := .none, prod := 0, cons := 0, unsignalled := 0 } } })
      (fun _ s => modeRunsProducts (runMode s) = true ∧ 0 < s.strm.ctxs.length ∧ (ctxOf s 0).cfg.pkind ≤ 1 ∧ s.mode ≠ .shadow ∧
      nextPiece s 0 = some (({ (default : StreamPiece) with count := 1, last := true, settled := some ([0], default) } :
      StreamPiece), true) ∧ (ctxOf s 0).cfg.ring = 0 ∧ 64 ≤ (unsentOf (ctxOf s 0)).length ∧ (if (ctxOf s 0).cfg.vdif then some
      (vdifPacket s 0 ({ (default : StreamPiece) with count := 1, last := true, settled := some ([0], default) } : StreamPiece)
      (pieceData s (ctxOf s 0).cfg ({ (default : StreamPiece) with count := 1, last := true, settled := some ([0], default) } :
      StreamPiece)).1, s) else kdpSample s 0 ({ (default : StreamPiece) with count := 1, last := true, settled := some ([0], default) }
      : StreamPiece) ({ (default : StreamPiece) with count := 1, last := true, settled := some ([0], default) } :
      StreamPiece).last (pieceData s (ctxOf s 0).cfg ({ (default : StreamPiece) with count := 1, last := true, settled := some ([0], default) }
      : StreamPiece)).2 (pieceData s (ctxOf s 0).cfg ({ (default : StreamPiece) with count := 1, last := true, settled := some ([0], default) }
      : StreamPiece)).1 ([] : List Byte)) = some (bytes, s2))) := by
  refine ⟨_, _, ?_, ?_, ?_, ?_, ?_, ?_, ?_, ?_, ?_, rfl⟩ <;> decide +kernel

theorem test_witness_NetworkEvents :
    Now at0 ({ ready with strm := { StreamUnit.power with dests := List.replicate 64 { dest := .hostRing 0 4 2048 0 0 false 1 0, prod := 0, cons := 0, unsignalled := 0 } } })
      (fun _ s => (destOf s 0).dest = .hostRing 0 4 2048 0 0 (false : Bool) 1 0)
    ∧ Now at0 ({ ready with strm := { StreamUnit.power with dests := List.replicate 64 { dest := .hostRing 0 4 2048 0 0 true 1 0, prod := 0, cons := 0, unsignalled := 1 } } })
      (fun _ s => (destOf s 0).dest = .hostRing 0 4 2048 0 0 true 1 0 ∧ 0 < (destOf s 0).unsignalled)
    ∧ Now at0 ready (fun _ s => (destOf s 0).unsignalled = 0)
    ∧ Now at0 ({ ready with strm := { StreamUnit.power with ports := List.replicate 4 { EthPort.power with en := true, ipv4 := 5 }, dests := List.replicate 64 { dest := .none, prod := 0, cons := 0, unsignalled := 0 } } })
      (fun _ s => (portOf s 0).en = true ∧ s.mode ≠ .shadow ∧ (portOf s 0).ipv4 ≠ 0 ∧ (portOf s 0).ipv4.toNat = 5)
    ∧ Now at0 ready (fun _ s => s.mode = .shadow ∨ (portOf s 0).ipv4 = 0 ∨ (portOf s 0).ipv4.toNat ≠ 5)
    ∧ Now at0 ({ ready with strm := { StreamUnit.power with ports := List.replicate 4 { EthPort.power with en := true, ipv6 := [1, 2, 3, 4] }, dests := List.replicate 64 { dest := .none, prod := 0, cons := 0, unsignalled := 0 } } })
      (fun _ s => (portOf s 0).en = true ∧ s.mode ≠ .shadow ∧ ((portOf s 0).ipv6.any fun w => w != 0) = true ∧ (portOf s 0).ipv6 =
      ([1, 2, 3, 4] : List Word))
    ∧ Now at0 ready (fun _ s => s.mode = .shadow ∨ (portOf s 0).ipv6 ≠ ([1, 2, 3, 4] : List Word))
    ∧ Now at0 ({ ready with strm := { StreamUnit.power with ports := List.replicate 4 { EthPort.power with en := true, ptpEn := true }, dests := List.replicate 64 { dest := .none, prod := 0, cons := 0, unsignalled := 0 } } })
      (fun _ s => (portOf s 0).en = true ∧ (portOf s 0).ptpEn = true ∧ 0 < s.strm.ports.length ∧ (destOf s (portOf s
      0).ptpEntry).dest = .none)
    ∧ Now at0 ({ ready with strm := { StreamUnit.power with ports := List.replicate 4 { EthPort.power with en := true, ptpEn := true }, dests := List.replicate 64 { dest := .hostRing 0 4 2048 0 0 false 1 0, prod := 0, cons := 0, unsignalled := 0 } } })
      (fun _ s => (portOf s 0).en = true ∧ (portOf s 0).ptpEn = true ∧ 0 < s.strm.ports.length ∧ (destOf s (portOf s
      0).ptpEntry).dest = .hostRing 0 4 2048 0 0 (false : Bool) 1 0 ∧ (portOf s 0).ptpEntry < s.strm.dests.length ∧ destReady s
      (portOf s 0).ptpEntry = true ∧ 16 + ([] : List Byte).length ≤ 2048)
    ∧ Now at0 ({ ready with strm := { StreamUnit.power with ports := List.replicate 4 { EthPort.power with en := true, ptpEn := true }, dests := List.replicate 64 { dest := .hostRing 0 4 8 0 0 false 1 0, prod := 0, cons := 0, unsignalled := 0 } } })
      (fun _ s => (portOf s 0).en = true ∧ (portOf s 0).ptpEn = true ∧ 0 < s.strm.ports.length ∧ (destOf s (portOf s
      0).ptpEntry).dest = .hostRing 0 4 8 0 0 false 1 0 ∧ (destReady s (portOf s 0).ptpEntry = false ∨ 8 < 16 + ([] : List
      Byte).length))
    ∧ Now at0 ({ ready with strm := { StreamUnit.power with ports := List.replicate 4 { EthPort.power with en := true }, dests := List.replicate 64 { dest := .none, prod := 0, cons := 0, unsignalled := 0 } } })
      (fun _ s => (portOf s 0).en = true ∧ (portOf s 0).ptpEn = false)
    ∧ Now at0 ready (fun _ s => (portOf s 0).en = false)
    ∧ Now at0 ready (fun _ _ => True)
    ∧ Now at0 ready (fun _ _ => True)
    ∧ Now at0 ready (fun _ s => 0 < s.variant.ports ∧ (portOf s 0).linkUp ≠ true)
    ∧ Now at0 ready (fun _ s => s.variant.ports ≤ 4 ∨ (portOf s 4).linkUp = true) := by
  and_intros <;> decide +kernel

theorem test_witness_QueueEvents :
    Now at0 ready (fun _ s => (s.packers.getD 0 default).jobs = [])
    ∧ Now at0 ({ ready with mq := { MqUnit.power with mask := 62, handle := 7 }, trig := { TrigUnit.power with records := [[1, 2]] } })
      (fun _ s => mqTurn s 1 = true ∧ s.trig.records = ([1, 2] : List Word) :: ([] : List (List Word)) ∧ mqRoom s (mqItemBytes
      ([1, 2] : List Word)) = true)
    ∧ Now at0 ({ ready with mq := { MqUnit.power with mask := 62, handle := 7 }, cap := { ready.cap with queue := [[1, 2]] } })
      (fun _ s => mqTurn s 2 = true ∧ s.cap.queue = ([1, 2] : List Word) :: ([] : List (List Word)) ∧ mqRoom s (mqItemBytes ([1,
      2] : List Word)) = true)
    ∧ Now at0 ({ ready with mq := { MqUnit.power with mask := 62, handle := 7 }, intg := { IntUnit.power with queue := [[1, 2]] } })
      (fun _ s => mqTurn s 3 = true ∧ s.intg.queue = ([1, 2] : List Word) :: ([] : List (List Word)) ∧ mqRoom s (mqItemBytes ([1,
      2] : List Word)) = true)
    ∧ Now at0 ({ ready with mq := { MqUnit.power with mask := 62, handle := 7 }, tdc := { TdcUnit.power with queue := [(0, [1, 2])] } })
      (fun _ s => mqTurn s 4 = true ∧ s.tdc.queue = ((0, [1, 2]) : Nat × List Word) :: ([] : List (Nat × List Word)) ∧ mqRoom s
      (mqItemBytes ((0, [1, 2]) : Nat × List Word).2) = true)
    ∧ Now at0 ({ ready with mq := { MqUnit.power with mask := 62, handle := 0 }, trig := { TrigUnit.power with records := [[1, 2]] } })
      (fun _ s => mqTurn s 1 = true ∧ s.trig.records = ([1, 2] : List Word) :: ([] : List (List Word)) ∧ mqRoom s (mqItemBytes
      ([1, 2] : List Word)) = false)
    ∧ Now at0 ready (fun _ s => (1 = 5 → s.mq.open_ = none) ∧ mqTurn s 1 = false)
    ∧ Now at0 ({ ready with nextId := 1, cmds := [running 0x0C02 []], mq := { MqUnit.power with mask := 62, handle := 7, hostQueue := [{ cmd := 0, tag := 0, payload := [] }] } })
      (fun _ s => mqTurn s 5 = true ∧ s.mq.hostQueue = ({ cmd := 0, tag := 0, payload := [] } : HostItem) :: ([] : List HostItem)
      ∧ mqRoom s (mqItemBytes ({ cmd := 0, tag := 0, payload := [] } : HostItem).payload) = true)
    ∧ Now at0 ({ ready with nextId := 1, cmds := [running 0x0C02 []], mq := { MqUnit.power with mask := 62, handle := 0, hostQueue := [{ cmd := 0, tag := 0, payload := [] }] } })
      (fun _ s => mqTurn s 5 = true ∧ s.mq.hostQueue = ({ cmd := 0, tag := 0, payload := [] } : HostItem) :: ([] : List HostItem)
      ∧ mqRoom s (mqItemBytes ({ cmd := 0, tag := 0, payload := [] } : HostItem).payload) = false)
    ∧ Now at0 ({ ready with nextId := 1, cmds := [running 0x0C02 []], mq := { MqUnit.power with mask := 62, handle := 7, open_ := some { item := { cmd := 0, tag := 0, payload := [] }, seq := 0, accept := 0, loss := false, aborted := false } } })
      (fun _ s => s.mq.open_ = some ({ item := { cmd := 0, tag := 0, payload := [] }, seq := 0, accept := 0, loss := false, aborted := false }
      : MqOpen))
    ∧ (({ ready with mq := { MqUnit.power with mask := 62, handle := 7 }, trig := { TrigUnit.power with records := [[1, 2]] } } :
      State).mq.turn ≤ 5 ∧ mqTurn ({ ready with mq := { MqUnit.power with mask := 62, handle := 7 }, trig := { TrigUnit.power with records := [[1, 2]] } }
      : State) 1 = true ∧ mqTurn ({ ready with mq := { MqUnit.power with mask := 62, handle := 7 }, trig := { TrigUnit.power with records := [[1, 2]] } }
      : State) 1 = true ∧ 1 ≤ 1 ∧ 1 ≤ 5 ∧ 1 ≤ 1 ∧ 1 ≤ 5)
    ∧ Now at0 ({ ready with nextId := 1, cmds := [running 0x0C02 []], mq := { MqUnit.power with mask := 62, handle := 7, open_ := some { item := { cmd := 0, tag := 0, payload := [] }, seq := 0, accept := 0, loss := false, aborted := false } } })
      (fun _ s => s.mq.open_.isSome = true)
    ∧ Now at0 ({ ready with nextId := 1, cmds := [running 0x0C02 []], mq := { MqUnit.power with mask := 62, handle := 7, buffer := [1] } })
      (fun _ s => s.mq.open_ = none ∧ s.mq.buffer ≠ [] ∧ s.mq.buffer.length < 64)
    ∧ Now at0 ({ ready with nextId := 1, cmds := [running 0x0C02 []], mq := { MqUnit.power with mask := 62, handle := 7, read := some { cmd := 0, host := none, minItems := 0, maxBytes := 64 } } })
      (fun _ s => s.mq.read = some ({ cmd := 0, host := none, minItems := 0, maxBytes := 64 } : MqRead) ∧ ({ cmd := 0, host := none, minItems := 0, maxBytes := 64 }
      : MqRead).minItems ≤ (s.mq.readable s.mq.hostPos).length)
    ∧ Now at0 ({ ready with nextId := 1, cmds := [running 0x0C02 []], mq := { MqUnit.power with mask := 62, handle := 7, read := some { cmd := 0, host := none, minItems := 1, maxBytes := 64 } } })
      (fun _ s => s.mq.read = some ({ cmd := 0, host := none, minItems := 1, maxBytes := 64 } : MqRead) ∧ (s.mq.readable
      s.mq.hostPos).length < ({ cmd := 0, host := none, minItems := 1, maxBytes := 64 } : MqRead).minItems)
    ∧ Now at0 ({ ready with nextId := 1, cmds := [running 0x0C02 []], mq := { MqUnit.power with mask := 62, handle := 7, read := some { cmd := 0, host := none, minItems := 1, maxBytes := 64 } } })
      (fun _ s => s.mq.read = some ({ cmd := 0, host := none, minItems := 1, maxBytes := 64 } : MqRead))
    ∧ Now at0 ready (fun _ s => s.mq.read = none) := by
  and_intros <;> decide +kernel

theorem test_witness_QueueEvents_1 :
    (∃ r : JobRun, Now at0 ({ ready with nextId := 1, cmds := [running 0x0A01 []], packers := List.replicate 2 { Packer.power with jobs := [{ cmd := 0, elem := 0, pred := 0, level := 0, rawOk := true, stride := 1, blockBytes := 64, inHandle := 0, inOffset := 0, length := 0, outHandle := 0, outOffset := 0, outLength := 0 }] } })
      (fun _ s => 0 < s.packers.length ∧ (s.packers.getD 0 default).jobs = ({ cmd := 0, elem := 0, pred := 0, level := 0, rawOk := true, stride := 1, blockBytes := 64, inHandle := 0, inOffset := 0, length := 0, outHandle := 0, outOffset := 0, outLength := 0 }
      : PackJob) :: ([] : List PackJob) ∧ r = jobBlocks s ({ cmd := 0, elem := 0, pred := 0, level := 0, rawOk := true, stride := 1, blockBytes := 64, inHandle := 0, inOffset := 0, length := 0, outHandle := 0, outOffset := 0, outLength := 0 }
      : PackJob) (({ cmd := 0, elem := 0, pred := 0, level := 0, rawOk := true, stride := 1, blockBytes := 64, inHandle := 0, inOffset := 0, length := 0, outHandle := 0, outOffset := 0, outLength := 0 }
      : PackJob).length / max 1 ({ cmd := 0, elem := 0, pred := 0, level := 0, rawOk := true, stride := 1, blockBytes := 64, inHandle := 0, inOffset := 0, length := 0, outHandle := 0, outOffset := 0, outLength := 0 }
      : PackJob).blockBytes + 1) ([] : List (List Byte)) { done := none, consumed := 0, out := [], blocks := 0, raws := 0, noGain := 0, ue := 0 })) := by
  refine ⟨_, ?_, ?_, ?_, ?_, rfl⟩ <;> decide +kernel

theorem test_witness_TdcEvents :
    Now at0 ({ ready with tdc := { TdcUnit.power with notReady := false, inputs := List.replicate 12 { TdcInput.power 0 with enabled := true, last := some 100 } } })
      (fun _ s => tdcEnabled s 0 = true ∧ s.tdc.notReady = false ∧ delivering s = true ∧ (tdcInputOf s 0).last = some 100 ∧ tdcRaw
      s 0 0 0 < 100 + deadTicks s)
    ∧ Now at0 ready (fun _ s => tdcEnabled s 0 = false ∨ s.tdc.notReady = true ∨ delivering s = false)
    ∧ Now at0 ({ ready with tdc := { TdcUnit.power with notReady := false, inputs := List.replicate 12 { TdcInput.power 0 with enabled := true, stuckUs := 5, stuckNotice := true } } })
      (fun _ s => tdcEnabled s 0 = true ∧ (tdcInputOf s 0).stuckUs ≠ 0 ∧ (tdcInputOf s 0).stuck = false ∧ stuckDue s (tdcInputOf s
      0) = true ∧ (tdcInputOf s 0).stuckNotice = true)
    ∧ Now at0 ({ ready with tdc := { TdcUnit.power with notReady := false, inputs := List.replicate 12 { TdcInput.power 0 with enabled := true, stuckUs := 5 } } })
      (fun _ s => tdcEnabled s 0 = true ∧ (tdcInputOf s 0).stuckUs ≠ 0 ∧ (tdcInputOf s 0).stuck = false ∧ stuckDue s (tdcInputOf s
      0) = true ∧ (tdcInputOf s 0).stuckNotice = false)
    ∧ Now at0 ready (fun _ s => (tdcInputOf s 0).stuckUs = 0 ∨ (tdcInputOf s 0).stuck = true ∨ stuckDue s (tdcInputOf s 0) =
      false)
    ∧ Now at0 ready (fun _ _ => True)
    ∧ Now at0 ({ ready with tdc := { TdcUnit.power with notReady := false, slots := List.replicate 8 { TdcSlot.power with armed := true, cfg := { TdcSlot.power.cfg with timeoutNs := 1 }, open_ := some default } } })
      (fun k s => 0 < s.tdc.slots.length ∧ (tdcSlotOf s 0).armed = true ∧ (tdcSlotOf s 0).cfg.event = false ∧ (tdcSlotOf s
      0).open_.isSome = true ∧ timeoutTick s (tdcSlotOf s 0) ≤ 16 * (k + 1) ∧ (tdcSlotOf s 0).cfg.count = 0)
    ∧ Now at0 ready (fun k s => (tdcSlotOf s 0).armed = false ∨ (tdcSlotOf s 0).open_ = none ∨ 16 * (k + 1) < timeoutTick s
      (tdcSlotOf s 0))
    ∧ Now at0 ready (fun _ s => (tdcSlotOf s 0).armed = false ∨ (tdcSlotOf s 0).cfg.event = false)
    ∧ Now at0 ({ ready with tdc := { TdcUnit.power with notReady := false, slots := List.replicate 8 { TdcSlot.power with armed := true, cfg := { TdcSlot.power.cfg with start := 12, spacing := 1 } } } })
      (fun k s => (tdcSlotOf s 0).armed = true ∧ (tdcSlotOf s 0).cfg.event = false ∧ 12 ≤ (tdcSlotOf s 0).cfg.start ∧ (tdcSlotOf s
      0).suspended = false ∧ (tdcSlotOf s 0).open_ = none ∧ delivering s = true ∧ (tdcSlotOf s 0).launchBase ≤ k ∧ (k - (tdcSlotOf
      s 0).launchBase) % (16 * max 1 (tdcSlotOf s 0).cfg.spacing) = 0)
    ∧ Now at0 ready (fun _ s => (tdcSlotOf s 0).open_ = none ∧ ((tdcSlotOf s 0).armed = false ∨ (tdcSlotOf s 0).suspended = true ∨
      (tdcSlotOf s 0).cfg.start < 12)) := by
  and_intros <;> decide +kernel

theorem test_witness_TdcEvents_2 :
    Now at0 ({ ready with tdc := { TdcUnit.power with notReady := false, inputs := List.replicate 12 { TdcInput.power 0 with enabled := true } } })
      (fun _ s => tdcEnabled s 0 = true ∧ s.tdc.notReady = false ∧ delivering s = true ∧ 0 < s.tdc.inputs.length ∧ (∀ l,
      (tdcInputOf s 0).last = some l → l + deadTicks s ≤ tdcRaw s 0 5 0)) := by
  refine ⟨?_, ?_, ?_, ?_, ?_, ?_, fun l h => by cases h⟩ <;> decide +kernel

theorem test_witness_TdcEvents_10 :
    (∃ x : Nat, Now at0 ({ ready with tdc := { TdcUnit.power with notReady := false, slots := List.replicate 8 { TdcSlot.power with armed := true, cfg := { TdcSlot.power.cfg with event := true } } } })
      (fun k s => 0 < s.tdc.slots.length ∧ (tdcSlotOf s 0).armed = true ∧ (tdcSlotOf s 0).cfg.event = true ∧ windowCentre s
      (tdcSlotOf s 0).cfg (tdcSlotOf s 0).window = some x ∧ x + halfWindow32 (tdcSlotOf s 0).cfg ≤ (k + 1) * 2 ^ 32 ∧ (tdcSlotOf s
      0).cfg.count = 0)) := by
  refine ⟨_, ?_, ?_, ?_, ?_, ?_, rfl, ?_, ?_⟩ <;> decide +kernel

theorem test_witness_MonitorEvents :
    Now at0 ({ ready with nextId := 1, cmds := [running 0x0D03 []], mc := { McUnit.power with running := some { kind := .convert 0, input := 1, order := 0, dr := 0, detCh := 0, restarted := false, continuous := false } } })
      (fun _ s => s.mc.running = some ({ kind := .convert 0, input := 1, order := 0, dr := 0, detCh := 0, restarted := false, continuous := false }
      : McConversion) ∧ ({ kind := .convert 0, input := 1, order := 0, dr := 0, detCh := 0, restarted := false, continuous := false }
      : McConversion).kind = .convert 0 ∧ ({ kind := .convert 0, input := 1, order := 0, dr := 0, detCh := 0, restarted := false, continuous := false }
      : McConversion).input < s.mc.inputs.length ∧ ({ kind := .convert 0, input := 1, order := 0, dr := 0, detCh := 0, restarted := false, continuous := false }
      : McConversion).input < 16)
    ∧ Now at0 ready (fun _ s => s.mc.running = none)
    ∧ Now at0 ({ ready with nextId := 1, cmds := [running 0x0D03 []], mc := { McUnit.power with running := some { kind := .system, input := 1, order := 0, dr := 0, detCh := 0, restarted := false, continuous := false } } })
      (fun _ s => s.mc.running.isSome = true)
    ∧ Now at0 ready (fun _ s => s.mc.running = none ∧ s.mc.urgents = [] ∧ s.mc.aborted = none ∧ s.mc.converts = [] ∧ coresRun s =
      true ∧ s.mc.sysPos = 0 ∧ (systemInputs s).filter (fun i1 => decide (16 ≤ i1)) = 16 :: (((systemInputs ready).filter fun i =>
      decide (16 ≤ i)).tail : List Nat)) := by
  and_intros <;> decide +kernel

theorem test_witness_MaintenanceEvents :
    Now 20000000000 ({ inMode .quiet with nextId := 1, index := 20000000000, cmds := [], maint := { MaintUnit.power with dwell := some 0 } })
      (fun _ s => s.maint.dwell = some 0 ∧ 0 + dwellSamples ≤ s.index ∧ delivering s = true ∧ 2 ^ 20 - ([1047552] : List Nat).sum
      ≤ 1024 ∧ s.tdc.relief < s.tdc.inputs.length ∧ s.tdc.spare < s.tdc.lines.length)
    ∧ Now 20000000000 ({ inMode .quiet with nextId := 1, index := 20000000000, cmds := [], maint := { MaintUnit.power with dwell := some 0 } })
      (fun _ s => s.maint.dwell = some 0 ∧ 0 + dwellSamples ≤ s.index ∧ delivering s = true ∧ 1024 < 2 ^ 20 - ([1047551] : List
      Nat).sum ∧ s.tdc.spare < s.tdc.lines.length)
    ∧ Now at0 ready (fun _ s => s.maint.dwell = none)
    ∧ Now at0 ready (fun _ s => s.tdc.notReady = true ∧ locked s = true)
    ∧ Now at0 ({ ready with tdc := { TdcUnit.power with notReady := false, inputs := List.replicate 12 { TdcInput.power 0 with enabled := true } } })
      (fun _ s => s.tdc.notReady = false)
    ∧ Now 20000000000 ({ { inMode .quiet with nextId := 1, index := 20000000000, cmds := [], maint := { MaintUnit.power with deferred := some 0 } } with tdc := { TdcUnit.power with rotating := true } })
      (fun _ s => s.maint.deferred = some 0 ∧ s.tdc.rotating = true ∧ 0 + fsOf s.time ≤ s.index ∧ s.maint.priority = false)
    ∧ Now at0 ready (fun _ s => s.maint.deferred = none ∨ s.tdc.rotating = false ∨ s.maint.priority = true)
    ∧ Now at0 ready (fun _ s => nextStart s = none)
    ∧ Now at0 ({ inMode .quiet with nextId := 1, cmds := [], maint := { MaintUnit.power with acts := [{ codes := [3], cmd := 0, key := 0, waitFrom := 0, clear := at0, start := none, length := 0, taken := [] }] } })
      (fun _ s => nextStart s = some ({ codes := [3], cmd := 0, key := 0, waitFrom := 0, clear := at0, start := none, length := 0, taken := [] }
      : Activity) ∧ wayClear s ({ codes := [3], cmd := 0, key := 0, waitFrom := 0, clear := at0, start := none, length := 0, taken := [] }
      : Activity) = false)
    ∧ Now at0 ({ inMode .quiet with nextId := 1, cmds := [], maint := { MaintUnit.power with acts := [{ codes := [3], cmd := 0, key := 0, waitFrom := 0, clear := 0, start := none, length := 0, taken := [] }] } })
      (fun _ s => nextStart s = some ({ codes := [3], cmd := 0, key := 0, waitFrom := 0, clear := 0, start := none, length := 0, taken := [] }
      : Activity) ∧ wayClear s ({ codes := [3], cmd := 0, key := 0, waitFrom := 0, clear := 0, start := none, length := 0, taken := [] }
      : Activity) = true ∧ ({ codes := [3], cmd := 0, key := 0, waitFrom := 0, clear := 0, start := none, length := 0, taken := [] }
      : Activity).codes = [3])
    ∧ Now at0 ({ inMode .quiet with nextId := 1, cmds := [running 0x0E00 [0x100101, 0, 0, 0, 0]], maint := { MaintUnit.power with acts := [{ codes := [6], cmd := 0, key := 0, waitFrom := 0, clear := 0, start := none, length := 0, taken := [] }] } })
      (fun _ s => nextStart s = some ({ codes := [6], cmd := 0, key := 0, waitFrom := 0, clear := 0, start := none, length := 0, taken := [] }
      : Activity) ∧ wayClear s ({ codes := [6], cmd := 0, key := 0, waitFrom := 0, clear := 0, start := none, length := 0, taken := [] }
      : Activity) = true ∧ ({ codes := [6], cmd := 0, key := 0, waitFrom := 0, clear := 0, start := none, length := 0, taken := [] }
      : Activity).codes.contains 6 = true ∧ holdsTdr ({ codes := [6], cmd := 0, key := 0, waitFrom := 0, clear := 0, start := none, length := 0, taken := [] }
      : Activity).codes = false ∧ cmdById s ({ codes := [6], cmd := 0, key := 0, waitFrom := 0, clear := 0, start := none, length := 0, taken := [] }
      : Activity).cmd = some (running 0x0E00 [0x100101, 0, 0, 0, 0] : Cmd) ∧ (locked s = false ∨ runMode s ≠ .calibrate))
    ∧ Now at0 ({ inMode .calibrate with nextId := 1, cmds := [running 0x0E00 [0x100101, 0, 0, 0, 0]], maint := { MaintUnit.power with acts := [{ codes := [6], cmd := 0, key := 0, waitFrom := 0, clear := 0, start := some 0, length := 0, taken := [] }] } })
      (fun _ s => (s.maint.acts.find? fun a1 => a1.running && a1.codes.contains 6) = some ({ codes := [6], cmd := 0, key := 0, waitFrom := 0, clear := 0, start := some 0, length := 0, taken := [] }
      : Activity) ∧ cmdById s ({ codes := [6], cmd := 0, key := 0, waitFrom := 0, clear := 0, start := some 0, length := 0, taken := [] }
      : Activity).cmd = some (running 0x0E00 [0x100101, 0, 0, 0, 0] : Cmd) ∧ ({ codes := [6], cmd := 0, key := 0, waitFrom := 0, clear := 0, start := some 0, length := 0, taken := [] }
      : Activity).start = some 0 ∧ 0 + ({ codes := [6], cmd := 0, key := 0, waitFrom := 0, clear := 0, start := some 0, length := 0, taken := [] }
      : Activity).length ≤ s.index + 1 ∧ delivering s = true)
    ∧ Now at0 ready (fun _ s => (s.maint.acts.find? fun a => a.running && a.codes.contains 6) = none ∨ delivering s = false) := by
  and_intros <;> decide +kernel

theorem test_witness_DisplayEvents :
    Now at0 ({ ready with nextId := 1, cmds := [running 0x0F05 [0]], disp := { DispUnit.power with mode := .run, timing := { DispUnit.power.timing with video := true }, running := false } })
      (fun _ s => s.disp.mode = .run ∧ s.disp.timing.video = true ∧ s.disp.leaving = none ∧ s.disp.running = false)
    ∧ Now at0 ({ ready with nextId := 1, cmds := [running 0x0F05 [0]], disp := { DispUnit.power with mode := .run, timing := { DispUnit.power.timing with video := true }, running := true } })
      (fun _ s => s.disp.mode = .run ∧ s.disp.timing.video = true ∧ s.disp.leaving = none ∧ s.disp.running = true ∧
      s.disp.linkReset = none)
    ∧ Now at0 ({ ready with nextId := 1, cmds := [running 0x0F05 [0]], disp := { DispUnit.power with mode := .run, timing := { DispUnit.power.timing with video := true }, running := true } })
      (fun _ s => s.disp.mode = .run ∧ s.disp.timing.video = true ∧ s.disp.leaving = none ∧ s.disp.running = true ∧
      s.disp.linkReset = none)
    ∧ Now at0 ({ ready with nextId := 1, cmds := [running 0x0F05 [0]], disp := { DispUnit.power with mode := .run, timing := { DispUnit.power.timing with video := true }, running := true, linkReset := some { frame := 0, computed := 0, readback := 0, at_ := 0 } } })
      (fun _ s => s.disp.mode = .run ∧ s.disp.timing.video = true ∧ s.disp.leaving = none ∧ s.disp.running = true ∧
      s.disp.linkReset = some ({ frame := 0, computed := 0, readback := 0, at_ := 0 } : DispCrc))
    ∧ Now at0 ready (fun _ s => s.disp.mode ≠ .run ∨ (s.disp.timing.video = false ∧ s.disp.teReady = false ∧ s.disp.teLost =
      false))
    ∧ Now at0 ({ ready with nextId := 1, cmds := [running 0x0F05 [0]], disp := { DispUnit.power with mode := .run, timing := { DispUnit.power.timing with video := true }, running := true } })
      (fun _ s => s.disp.running = true ∧ s.disp.pastLatch = false)
    ∧ Now at0 ready (fun _ s => s.disp.running = false ∨ s.disp.pastLatch = true)
    ∧ Now at0 ({ ready with nextId := 1, cmds := [running 0x0F05 [0]], disp := { DispUnit.power with mode := .run, timing := { DispUnit.power.timing with video := true }, running := true, sending := true, compare := true, shown := some { number := 0, pixels := [], skipped := 0 } } })
      (fun _ s => s.disp.running = true ∧ s.disp.sending = true ∧ s.disp.compare = true ∧ s.disp.shown = some ({ number := 0, pixels := [], skipped := 0 }
      : DispFrame) ∧ BitVec.ofNat 32 (crc32c (frameLines s.disp.timing ({ number := 0, pixels := [], skipped := 0 } :
      DispFrame).pixels).flatten) ≠ (1 : Word))
    ∧ Now at0 ({ ready with nextId := 1, cmds := [running 0x0F05 [0]], disp := { DispUnit.power with mode := .run, timing := { DispUnit.power.timing with video := true }, running := true, sending := true, compare := true, shown := some { number := 0, pixels := [], skipped := 0 } } })
      (fun _ s => s.disp.running = true ∧ s.disp.sending = true ∧ s.disp.compare = true ∧ s.disp.shown = some ({ number := 0, pixels := [], skipped := 0 }
      : DispFrame))
    ∧ Now at0 ready (fun _ s => s.disp.running = false ∨ s.disp.sending = false)
    ∧ Now at0 ({ ready with nextId := 1, cmds := [running 0x0F05 [0]], disp := { DispUnit.power with mode := .run, timing := { DispUnit.power.timing with video := false }, running := false } })
      (fun _ s => s.disp.mode = .run ∧ s.disp.timing.video = false ∧ (s.disp.running && s.disp.timing.early 0) = false ∧
      s.disp.teLost = false)
    ∧ Now at0 ({ ready with nextId := 1, cmds := [running 0x0F05 [0]], disp := { DispUnit.power with mode := .run, timing := { DispUnit.power.timing with video := false }, running := true } })
      (fun _ s => s.disp.mode = .run ∧ s.disp.timing.video = false ∧ (s.disp.running && s.disp.timing.early 0) = true)
    ∧ Now at0 ready (fun _ s => s.disp.mode ≠ .run ∨ s.disp.timing.video = true)
    ∧ Now at0 ({ ready with nextId := 1, cmds := [running 0x0F05 [0]], disp := { DispUnit.power with mode := .run, timing := { DispUnit.power.timing with video := false }, running := false } })
      (fun _ s => s.disp.mode = .run ∧ s.disp.timing.video = false ∧ s.disp.teLost = false ∧ s.disp.teReady = false)
    ∧ Now at0 ready (fun _ s => s.disp.mode ≠ .run ∨ s.disp.timing.video = true ∨ s.disp.teLost = true ∨ s.disp.teReady = true)
    ∧ Now at0 ({ ready with nextId := 1, cmds := [running 0x0F05 [0]], disp := { DispUnit.power with mode := .run, timing := { DispUnit.power.timing with video := true }, panel := [0] } })
      (fun _ s => s.disp.panel = 0 :: ([] : List Nat) ∧ s.disp.panelWait = none ∧ cmdById s 0 = some (running 0x0F05 [0] : Cmd) ∧
      (running 0x0F05 [0] : Cmd).flag 0 24 = false ∧ (running 0x0F05 [0] : Cmd).src ≠ .pairLink)
    ∧ Now at0 ({ ready with nextId := 1, cmds := [running 0x0F05 [0x01000000]], disp := { DispUnit.power with mode := .run, timing := { DispUnit.power.timing with video := true }, panel := [0] } })
      (fun _ s => s.disp.panel = 0 :: ([] : List Nat) ∧ s.disp.panelWait = none ∧ cmdById s 0 = some (running 0x0F05 [0x01000000]
      : Cmd) ∧ (running 0x0F05 [0x01000000] : Cmd).flag 0 24 = true ∧ (running 0x0F05 [0x01000000] : Cmd).src ≠ .pairLink)
    ∧ Now at0 ({ ready with nextId := 1, cmds := [running 0x0F05 [0x01000000]], disp := { DispUnit.power with mode := .run, timing := { DispUnit.power.timing with video := true }, panel := [0] } })
      (fun _ s => s.disp.panel = 0 :: ([] : List Nat) ∧ s.disp.panelWait = none ∧ cmdById s 0 = some (running 0x0F05 [0x01000000]
      : Cmd) ∧ (running 0x0F05 [0x01000000] : Cmd).flag 0 24 = true)
    ∧ Now at0 ready (fun _ s => s.disp.panel = [] ∨ s.disp.panelWait.isSome = true)
    ∧ Now at0 ({ ready with nextId := 1, cmds := [running 0x0F05 [0x01000000]], disp := { DispUnit.power with mode := .run, timing := { DispUnit.power.timing with video := true }, panel := [0], panelWait := some false } })
      (fun _ s => s.disp.panelWait.isSome = true ∧ s.disp.panel = 0 :: ([] : List Nat) ∧ cmdById s 0 = some (running 0x0F05
      [0x01000000] : Cmd) ∧ (running 0x0F05 [0x01000000] : Cmd).src ≠ .pairLink)
    ∧ Now at0 ready (fun _ s => s.disp.panelWait = none) := by
  and_intros <;> decide +kernel

theorem test_witness_DisplayEvents_10 :
    (∃ readback : Word, Now at0 ({ ready with nextId := 1, cmds := [running 0x0F05 [0]], disp := { DispUnit.power with mode := .run, timing := { DispUnit.power.timing with video := true }, running := true, sending := true, compare := true, shown := some { number := 0, pixels := [], skipped := 0 } } })
      (fun _ s => s.disp.running = true ∧ s.disp.sending = true ∧ s.disp.compare = true ∧ s.disp.shown = some ({ number := 0, pixels := [], skipped := 0 }
      : DispFrame) ∧ BitVec.ofNat 32 (crc32c (frameLines s.disp.timing ({ number := 0, pixels := [], skipped := 0 } :
      DispFrame).pixels).flatten) = readback)) := by
  refine ⟨_, ?_, ?_, ?_, ?_, ?_, ?_, rfl⟩ <;> decide +kernel

theorem test_witness_PairLink :
    Now at0 ready (fun _ s => coresRun s = true ∧ s.ready = true ∧ s.pair.link ≠ .up ∧ s.pair.suppressed = false)
    ∧ Now at0 ({ inMode .quiet with pair := { PairUnit.power with link := .up } }) (fun _ s => coresRun s = true ∧ s.ready = true
      ∧ s.pair.link = .up)
    ∧ Now at0 ({ inMode .quiet with pair := { PairUnit.power with link := .down }, hub := { ready.hub with cores := List.replicate 2 { CorePair.power with st := .halted } } })
      (fun _ s => coresRun s = false ∧ s.pair.link ≠ .up)
    ∧ Now at0 ready (fun _ s => s.pair.link ≠ .up)
    ∧ Now at0 ({ inMode .quiet with pair := { PairUnit.power with link := .up } }) (fun _ s => s.pair.link = .up ∧ s.pair.role ≠
      .mirror ∧ ({ primary := false, mirror := true, eligible := true, hbTimeout := 50, live := 1, mseq := 0, index := 0, coasting := false, lastSent := [] }
      : Heartbeat).mirror = true)
    ∧ Now at0 ({ inMode .shadow with pair := { PairUnit.power with role := .mirror, link := .up } }) (fun _ s => s.pair.link = .up
      ∧ s.pair.role = .mirror ∧ ({ primary := true, mirror := false, eligible := true, hbTimeout := 50, live := 1, mseq := 0, index := 0, coasting := false, lastSent := [] }
      : Heartbeat).mirror = false ∧ ({ primary := true, mirror := false, eligible := true, hbTimeout := 50, live := 1, mseq := 0, index := 0, coasting := false, lastSent := [] }
      : Heartbeat).primary = true ∧ ({ primary := true, mirror := false, eligible := true, hbTimeout := 50, live := 1, mseq := 0, index := 0, coasting := false, lastSent := [] }
      : Heartbeat).lastSent = [])
    ∧ Now at0 ({ inMode .quiet with pair := { PairUnit.power with role := .primary }, hub := { ready.hub with cores := List.replicate 2 { CorePair.power with st := .halted } } })
      (fun _ s => s.pair.role = .primary ∧ coresRun s = false)
    ∧ Now at0 ready (fun _ s => s.pair.role ≠ .primary ∨ coresRun s = true)
    ∧ Now at0 ({ inMode .quiet with pair := { PairUnit.power with strobeEn := true } }) (fun _ s => s.pair.strobeEn = true)
    ∧ Now at0 ready (fun _ s => s.pair.strobeEn = false)
    ∧ Now at0 ready (fun _ s => s.pair.strobeEn = false ∨ s.pair.role ≠ .mirror ∨ (s.pair.condition ≠ .isolated ∧ s.pair.liveAt =
      none))
    ∧ Now at0 ({ inMode .quiet with pair := { PairUnit.power with linkEn := false } }) (fun _ s => s.pair.linkEn = false)
    ∧ Now at0 ready (fun _ s => s.pair.linkEn = true ∧ ((.ka2820 : Variant) ≠ s.variant ∨ 1 ≠ s.compat))
    ∧ Now at0 ready (fun _ s => s.pair.linkEn = true ∧ (.ka4820 : Variant) = s.variant ∧ 1 = s.compat ∧ s.pair.role = .solo)
    ∧ Now at0 ({ inMode .quiet with pair := { PairUnit.power with role := .primary } }) (fun _ s => s.pair.linkEn = true ∧
      (.ka4820 : Variant) = s.variant ∧ 1 = s.compat ∧ s.pair.role = .primary)
    ∧ Now at0 ready (fun _ s => s.pair.link = .down)
    ∧ Now at0 ({ inMode .quiet with pair := { PairUnit.power with link := .up } }) (fun _ s => s.pair.link ≠ .down ∧ s.pair.role =
      .solo)
    ∧ Now at0 ({ inMode .shadow with pair := { PairUnit.power with role := .mirror, link := .up, join := some 0 } }) (fun _ s =>
      s.pair.link ≠ .down ∧ s.pair.role = .mirror ∧ s.pair.condition = .joining ∧ s.pair.join = some 0)
    ∧ Now at0 ready (fun _ s => s.pair.link ≠ .up)
    ∧ Now at0 ({ inMode .quiet with pair := { PairUnit.power with link := .up } }) (fun _ s => s.pair.link = .up)
    ∧ Now at0 ({ ready with pair := { PairUnit.power with link := .up }, strm := { StreamUnit.power with ports := List.replicate 4 { EthPort.power with en := true, linkUp := true, ipv4 := 5 }, dests := List.replicate 64 { dest := .udp 0 false 0 5000 5001 0 [], prod := 0, cons := 0, unsignalled := 0 } } })
      (fun _ s => s.pair.link = .up ∧ (destOf s 0).dest = .udp 0 (false : Bool) 0 5000 5001 0 ([] : List Word) ∧ destReady s 0 =
      true)
    ∧ Now at0 ready (fun _ s => s.pair.link ≠ .up)
    ∧ Now at0 ({ inMode .quiet with pair := { PairUnit.power with link := .up } }) (fun _ s => s.pair.link = .up ∧ (destOf s
      0).dest = .none) := by
  and_intros <;> decide +kernel

theorem test_witness_Takeover :
    (({ inMode .quiet with pair := { PairUnit.power with role := .primary, link := .up } } : State).quiet = true ∧ ({ inMode .quiet with pair := { PairUnit.power with role := .primary, link := .up } }
      : State).pair.link = .up ∧ ({ inMode .quiet with pair := { PairUnit.power with role := .primary, link := .up } } :
      State).pair.role = .primary)
    ∧ Now at0 ready (fun _ s => s.pair.link ≠ .up ∨ s.pair.role ≠ .primary)
    ∧ (({ inMode .analyse with pair := { PairUnit.power with role := .primary, link := .up, mirrored := true, otherEligible := true }, strm := { StreamUnit.power with ctxs := modAt StreamUnit.power.ctxs 0 fun c => { c with started := true }, dests := List.replicate 64 { dest := .udp 0 false 0 5000 5001 0 [], prod := 0, cons := 0, unsignalled := 0 } } } : State).quiet = true ∧ hasMirror ({ inMode .analyse with pair := { PairUnit.power with role := .primary, link := .up, mirrored := true, otherEligible := true }, strm := { StreamUnit.power with ctxs := modAt StreamUnit.power.ctxs 0 fun c => { c with started := true }, dests := List.replicate 64 { dest := .udp 0 false 0 5000 5001 0 [], prod := 0, cons := 0, unsignalled := 0 } } } : State) = true ∧ ({ inMode .analyse with pair := { PairUnit.power with role := .primary, link := .up, mirrored := true, otherEligible := true }, strm := { StreamUnit.power with ctxs := modAt StreamUnit.power.ctxs 0 fun c => { c with started := true }, dests := List.replicate 64 { dest := .udp 0 false 0 5000 5001 0 [], prod := 0, cons := 0, unsignalled := 0 } } } : State).pair.yieldMask.testBit 2 = true ∧ (portOf ({ inMode .analyse with pair := { PairUnit.power with role := .primary, link := .up, mirrored := true, otherEligible := true }, strm := { StreamUnit.power with ctxs := modAt StreamUnit.power.ctxs 0 fun c => { c with started := true }, dests := List.replicate 64 { dest := .udp 0 false 0 5000 5001 0 [], prod := 0, cons := 0, unsignalled := 0 } } } : State) 0).linkUp = false ∧ (({ inMode .analyse with pair := { PairUnit.power with role := .primary, link := .up, mirrored := true, otherEligible := true }, strm := { StreamUnit.power with ctxs := modAt StreamUnit.power.ctxs 0 fun c => { c with started := true }, dests := List.replicate 64 { dest := .udp 0 false 0 5000 5001 0 [], prod := 0, cons := 0, unsignalled := 0 } } } : State).strm.ctxs.any fun c => c.started && c.cfg.entries.any fun e => match (destOf ({ inMode .analyse with pair := { PairUnit.power with role := .primary, link := .up, mirrored := true, otherEligible := true }, strm := { StreamUnit.power with ctxs := modAt StreamUnit.power.ctxs 0 fun c => { c with started := true }, dests := List.replicate 64 { dest := .udp 0 false 0 5000 5001 0 [], prod := 0, cons := 0, unsignalled := 0 } } } : State) e).dest with | .udp p _ _ _ _ _ _ => p == 0 | _ => false) = true)
    ∧ Now at0 ready (fun _ _ => True)
    ∧ Now at0 ({ inMode .shadow with pair := { PairUnit.power with role := .mirror, condition := .eligible, link := .up } }) (fun
      _ s => s.pair.role = .mirror ∧ conditionNow s = .eligible ∧ overdue s s.pair.liveAt = true ∧ (s.pair.strobeEn = false ∨
      s.pair.strobeSeen = false))
    ∧ Now at0 ({ inMode .shadow with pair := { PairUnit.power with role := .mirror, condition := .eligible, link := .up, strobeEn := true, strobeSeen := true } })
      (fun _ s => s.pair.role = .mirror ∧ conditionNow s = .eligible ∧ overdue s s.pair.liveAt = true ∧ s.pair.strobeEn = true ∧
      s.pair.strobeSeen = true ∧ overdue s s.pair.heardAt = true)
    ∧ Now at0 ready (fun _ s => s.pair.role ≠ .mirror ∨ overdue s s.pair.liveAt = false ∨ (s.pair.strobeEn = true ∧
      s.pair.strobeSeen = true ∧ overdue s s.pair.heardAt = false))
    ∧ Now at0 ({ inMode .shadow with pair := { PairUnit.power with role := .mirror, condition := .isolated, strobeEn := true } })
      (fun _ s => s.pair.role = .mirror ∧ s.pair.strobeEn = true ∧ (s.pair.condition = .isolated ∨ (conditionNow s = .eligible ∧
      s.pair.liveAt.isSome = true ∧ overdue s s.pair.liveAt = true)))
    ∧ Now at0 ({ inMode .shadow with pair := { PairUnit.power with role := .mirror, condition := .eligible, link := .up } }) (fun
      _ s => s.pair.link = .up ∧ mayTakeOver s = true)
    ∧ Now at0 ready (fun _ s => s.pair.link ≠ .up ∨ mayTakeOver s = false)
    ∧ (({ inMode .shadow with pair := { PairUnit.power with role := .mirror, condition := .eligible, link := .up, switchAt := some at0 } }
      : State).quiet = true ∧ ({ inMode .shadow with pair := { PairUnit.power with role := .mirror, condition := .eligible, link := .up, switchAt := some at0 } }
      : State).pair.role = .mirror ∧ conditionNow ({ inMode .shadow with pair := { PairUnit.power with role := .mirror, condition := .eligible, link := .up, switchAt := some at0 } }
      : State) = .eligible ∧ ({ inMode .shadow with pair := { PairUnit.power with role := .mirror, condition := .eligible, link := .up, switchAt := some at0 } }
      : State).pair.switchAt = some at0)
    ∧ ((ready : State).quiet = true ∧ (ready : State).pair.role = .solo) := by
  and_intros <;> decide +kernel

theorem test_witness_MirrorReceives :
    Now at0 ready (fun _ s => s.pair.link ≠ .up ∨ s.pair.role ≠ .mirror ∨ neverForwarded ({ mseq := 1, origin := 0, opcode := 1, flags := 0, tag := 1, atIndex := at0 + 32000, params := [], data := [] }
      : Forwarded).opcode = true)
    ∧ Now at0 ({ inMode .shadow with pair := { PairUnit.power with role := .mirror, link := .up }, ready := false }) (fun _ s =>
      s.pair.link = .up ∧ s.pair.role = .mirror ∧ neverForwarded ({ mseq := 1, origin := 0, opcode := 0x0300, flags := 0, tag := 1, atIndex := at0 + 32000, params := [], data := [] }
      : Forwarded).opcode = false ∧ ({ mseq := 1, origin := 0, opcode := 0x0300, flags := 0, tag := 1, atIndex := at0 + 32000, params := [], data := [] }
      : Forwarded).origin < 18 ∧ ({ mseq := 1, origin := 0, opcode := 0x0300, flags := 0, tag := 1, atIndex := at0 + 32000, params := [], data := [] }
      : Forwarded).opcode ≠ 0x0105 ∧ serves s = false)
    ∧ Now at0 ready (fun _ _ => True)
    ∧ (({ inMode .quiet with pair := { PairUnit.power with role := .primary, link := .up, mirrored := true, forwarded := [{ mseq := 1, cmd := 0, own := some .ok, other := none }] } }
      : State).cmds = [] ∧ ({ inMode .quiet with pair := { PairUnit.power with role := .primary, link := .up, mirrored := true, forwarded := [{ mseq := 1, cmd := 0, own := some .ok, other := none }] } }
      : State).pair.link = .up ∧ ({ inMode .quiet with pair := { PairUnit.power with role := .primary, link := .up, mirrored := true, forwarded := [{ mseq := 1, cmd := 0, own := some .ok, other := none }] } }
      : State).pair.forwarded = [{ mseq := 1, cmd := 0, own := some (.ok : Status), other := none }] ∧ (.ok : Status).isFirst =
      false ∧ (.ok : Status).rejects = false)
    ∧ (({ inMode .quiet with pair := { PairUnit.power with role := .primary, link := .up, mirrored := true, forwarded := [{ mseq := 1, cmd := 0, own := some .ok, other := none }] } }
      : State).cmds = [] ∧ ({ inMode .quiet with pair := { PairUnit.power with role := .primary, link := .up, mirrored := true, forwarded := [{ mseq := 1, cmd := 0, own := some .ok, other := none }] } }
      : State).pair.link = .up ∧ ({ inMode .quiet with pair := { PairUnit.power with role := .primary, link := .up, mirrored := true, forwarded := [{ mseq := 1, cmd := 0, own := some .ok, other := none }] } }
      : State).pair.forwarded = [{ mseq := 1, cmd := 0, own := some (.ok : Status), other := none }] ∧ (.ok : Status).isFirst =
      false ∧ (.ok : Status).code < 0x10 ∧ (.badParam : Status).rejects = true)
    ∧ Now at0 ready (fun _ s => s.pair.link ≠ .up ∨ s.pair.role ≠ .mirror)
    ∧ Now at0 ({ inMode .shadow with pair := { PairUnit.power with role := .mirror, link := .up } }) (fun _ s => s.pair.link = .up
      ∧ s.pair.role = .mirror)
    ∧ Now at0 ({ { inMode .shadow with pair := { PairUnit.power with role := .mirror, link := .up } } with strm := { StreamUnit.power with ctxs := modAt StreamUnit.power.ctxs 0 fun c => { c with cfg := { c.cfg with pkind := 2 } } } })
      (fun _ s => s.pair.link = .up ∧ s.pair.role = .mirror ∧ 1 < (ctxOf s 0).cfg.pkind)
    ∧ Now at0 ready (fun _ s => s.pair.link ≠ .up ∨ s.pair.role ≠ .mirror ∨ s.pair.condition ≠ .joining)
    ∧ Now at0 ({ inMode .shadow with pair := { PairUnit.power with role := .mirror, link := .up } }) (fun _ s => s.pair.link = .up
      ∧ s.pair.role = .mirror ∧ s.pair.condition = .joining ∧ ({ mode := .analyse, m0 := 0, cmds := [], pool := ready.pool, time := ready.time, conv := ready.conv, eqs := ready.eqs, tuners := ready.tuners, engines := ready.engines, dens := ready.dens, spgm := ready.spgm, trig := ready.trig, cap := ready.cap, intg := ready.intg, th := ready.th, strm := ready.strm, packers := ready.packers, mq := ready.mq, tdc := ready.tdc, maint := ready.maint }
      : Snapshot).mode ≠ .shadow ∧ skewed s = false)
    ∧ Now at0 ({ inMode .shadow with pair := { PairUnit.power with role := .mirror, link := .up, skew := -13 } }) (fun _ s =>
      s.pair.link = .up ∧ s.pair.role = .mirror ∧ s.pair.condition = .joining ∧ ({ mode := .analyse, m0 := 0, cmds := [], pool := ready.pool, time := ready.time, conv := ready.conv, eqs := ready.eqs, tuners := ready.tuners, engines := ready.engines, dens := ready.dens, spgm := ready.spgm, trig := ready.trig, cap := ready.cap, intg := ready.intg, th := ready.th, strm := ready.strm, packers := ready.packers, mq := ready.mq, tdc := ready.tdc, maint := ready.maint }
      : Snapshot).mode ≠ .shadow ∧ skewed s = true)
    ∧ (({ inMode .shadow with pair := { PairUnit.power with role := .mirror, link := .up, joined := some 0 } } : State).quiet =
      true ∧ ({ inMode .shadow with pair := { PairUnit.power with role := .mirror, link := .up, joined := some 0 } } :
      State).pair.role = .mirror ∧ ({ inMode .shadow with pair := { PairUnit.power with role := .mirror, link := .up, joined := some 0 } }
      : State).pair.condition = .joining ∧ ({ inMode .shadow with pair := { PairUnit.power with role := .mirror, link := .up, joined := some 0 } }
      : State).pair.joined = some 0 ∧ at0 % 32 = 0 ∧ 0 + ceilDiv (fsOf ({ inMode .shadow with pair := { PairUnit.power with role := .mirror, link := .up, joined := some 0 } }
      : State).time) 1000 ≤ at0 ∧ ({ inMode .shadow with pair := { PairUnit.power with role := .mirror, link := .up, joined := some 0 } }
      : State).index ≤ at0 ∧ locked ({ inMode .shadow with pair := { PairUnit.power with role := .mirror, link := .up, joined := some 0 } }
      : State) = true) := by
  and_intros <;> decide +kernel

theorem test_witness_MirrorReceives_3 :
    Now at0 ({ mem8 with mode := .shadow, pair := { PairUnit.power with role := .mirror, link := .up } }) (fun _ s =>
      s.pair.link = .up ∧ s.pair.role = .mirror ∧ ({ mseq := 1, origin := 0, opcode := 0x0105, flags := 0, tag := 1, atIndex := at0 + 32000, params := [8, 0, 64, 0, 0, 0], data := [] }
      : Forwarded).origin < 18 ∧ ({ mseq := 1, origin := 0, opcode := 0x0105, flags := 0, tag := 1, atIndex := at0 + 32000, params := [8, 0, 64, 0, 0, 0], data := [] }
      : Forwarded).opcode = 0x0105 ∧ partForUse s (({ mseq := 1, origin := 0, opcode := 0x0105, flags := 0, tag := 1, atIndex := at0 + 32000, params := [8, 0, 64, 0, 0, 0], data := [] }
      : Forwarded).params.getD 0 0) = some (newPart 8 0 1 0 : Partition) ∧ writtenBy s (({ mseq := 1, origin := 0, opcode := 0x0105, flags := 0, tag := 1, atIndex := at0 + 32000, params := [8, 0, 64, 0, 0, 0], data := [] }
      : Forwarded).params.getD 0 0) = false ∧ (∀ c : Cmd, c.inline = ({ mseq := 1, origin := 0, opcode := 0x0105, flags := 0, tag := 1, atIndex := at0 + 32000, params := [8, 0, 64, 0, 0, 0], data := [] }
      : Forwarded).params → c.indirect = false → c.plen = ({ mseq := 1, origin := 0, opcode := 0x0105, flags := 0, tag := 1, atIndex := at0 + 32000, params := [8, 0, 64, 0, 0, 0], data := [] }
      : Forwarded).params.length → c.word 0 = ({ mseq := 1, origin := 0, opcode := 0x0105, flags := 0, tag := 1, atIndex := at0 + 32000, params := [8, 0, 64, 0, 0, 0], data := [] }
      : Forwarded).params.getD 0 0 ∧ transferOk c (newPart 8 0 1 0 : Partition) = true)) := by
  refine ⟨?_, ?_, ?_, ?_, ?_, ?_, ?_, ?_, mem_words⟩ <;> decide +kernel

theorem test_witness_PowerAndReset :
    (bootChoice ((match (none : Option FlashImage) with | some x => fitFlash x (powerDown (ready : State)) | none => powerDown (ready : State)).hub.fw) = none)
    ∧ Now at0 ready (fun _ s => s.hub.resetLow = false ∧ s.hub.tripped = false)
    ∧ Now at0 ({ ready with hub := { ready.hub with tripped := true } }) (fun _ s => s.hub.resetLow = false ∧ s.hub.tripped = true
      ∧ s.hub.cooled = false)
    ∧ Now at0 ({ ready with hub := { ready.hub with resetLow := true } }) (fun _ s => s.hub.resetLow = true)
    ∧ Now at0 ({ ready with hub := { ready.hub with resetLow := true } }) (fun _ s => s.hub.resetLow = true ∧ s.hub.tripped =
      false ∧ bootChoice s.hub.fw = none)
    ∧ Now at0 ready (fun _ s => s.hub.resetLow = false)
    ∧ Now at0 ready (fun _ s => s.ready = true ∧ s.nextId = s.hub.bootId ∧ s.cmds = [] ∧ validImage s.hub.fw (otherSlot
      s.hub.fw.running) = false)
    ∧ Now at0 ({ ready with nextId := 5 }) (fun _ s => s.ready = false ∨ s.nextId ≠ s.hub.bootId)
    ∧ Now at0 ready (fun _ _ => True)
    ∧ Now at0 ready (fun _ s => s.hub.resetLow = false ∧ s.hub.tripped = false)
    ∧ Now at0 ({ ready with hub := { ready.hub with tripped := true } }) (fun _ s => s.hub.resetLow = true ∨ s.hub.tripped = true)
    ∧ Now at0 ready (fun _ s => s.hub.tripped = false)
    ∧ Now at0 ({ ready with hub := { ready.hub with tripped := true } }) (fun _ s => s.hub.tripped = true)
    ∧ Now at0 ({ ready with hub := { ready.hub with tripped := true } }) (fun _ s => s.hub.tripped = true ∧ s.hub.warmHeld =
      false)
    ∧ Now at0 ({ ready with hub := { ready.hub with tripped := true, warmHeld := true, resetLow := true } }) (fun _ s =>
      s.hub.tripped = true ∧ s.hub.warmHeld = true ∧ s.hub.resetLow = true)
    ∧ Now at0 ready (fun _ s => s.hub.tripped = false) := by
  and_intros <;> decide +kernel

theorem test_witness_PowerAndReset_2 :
    Config.signatureOk (imageBytes { data := goodImage, valid := false }) = true → bootChoice ((match (none : Option FlashImage) with | some x => fitFlash x (powerDown bootable) | none => powerDown bootable).hub.fw) = some (0, false) := by
  intro h
  exact if_pos (good_valid _ _ rfl rfl h)

theorem test_witness_PowerAndReset_7 :
    Config.signatureOk (imageBytes { data := goodImage, valid := false }) = true → Now at0 bootable (fun _ s => s.hub.resetLow =
      true ∧ s.hub.tripped = false ∧ bootChoice s.hub.fw = some (0, false)) := by
  intro h
  refine ⟨by decide +kernel, by decide +kernel, by decide +kernel, by decide +kernel, ?_⟩
  exact if_pos (good_valid _ _ rfl rfl h)

theorem test_witness_PowerAndReset_11 :
    Config.signatureOk (imageBytes { data := goodImage, valid := false }) = true → Now at0 { bootable with hub := { bootable.hub with resetLow := false, fw := { bootable.hub.fw with running := 1 } } }
      (fun _ s => s.ready = true ∧ s.nextId = s.hub.bootId ∧ s.cmds = [] ∧ validImage s.hub.fw (otherSlot s.hub.fw.running) = true
      ∧ s.bb.fallback = false) := by
  intro h
  exact ⟨by decide +kernel, by decide +kernel, by decide +kernel, by decide +kernel, by decide +kernel, good_valid _ 0 rfl rfl h, by decide +kernel⟩

theorem test_witness_HubEvents :
    Now at0 ready (fun _ s => (coreOf s 0).st = .running ∧ 0 < s.hub.cores.length ∧ coresRun s = true ∧ ((coreOf s
      0).halts.filter fun i => decide (s.index < i + 86400 * fsOf s.time)).length < 2)
    ∧ Now at0 ({ ready with hub := { ready.hub with cores := [{ CorePair.power with halts := [at0, at0] }, CorePair.power] } })
      (fun _ s => (coreOf s 0).st = .running ∧ 0 < s.hub.cores.length ∧ coresRun s = true ∧ 2 ≤ ((coreOf s 0).halts.filter fun i
      => decide (s.index < i + 86400 * fsOf s.time)).length)
    ∧ Now at0 ({ ready with hub := { ready.hub with cores := [{ CorePair.power with st := .halted }, CorePair.power] } }) (fun _ s
      => (coreOf s 0).st ≠ .running)
    ∧ Now at0 ({ ready with hub := { ready.hub with cores := [{ CorePair.power with st := .recovering }, CorePair.power] } }) (fun
      _ s => (coreOf s 0).st = .recovering ∧ 0 < s.hub.cores.length ∧ s.hub.tripped = false ∧ s.hub.resetLow = false ∧
      s.hub.replies = [])
    ∧ Now at0 ({ ready with hub := { ready.hub with cores := [{ CorePair.power with st := .recovering }, CorePair.power] } }) (fun
      _ s => (coreOf s 0).st = .recovering ∧ 0 < s.hub.cores.length ∧ s.hub.tripped = false ∧ s.hub.resetLow = false)
    ∧ Now at0 ready (fun _ s => (coreOf s 0).st ≠ .recovering)
    ∧ Now at0 ready (fun _ s => s.ready = true ∧ s.hub.cores.length = 2 ∧ 0 < 2 ∧ s.hub.tripped = false ∧ s.hub.resetLow = false ∧
      (coreOf s 0).st = .running ∧ (coreOf s 1).st = .running ∧ ((coreOf s 0).halts.filter fun i => decide (s.index < i + 86400 *
      fsOf s.time)).length < 2)
    ∧ Now at0 ready (fun _ s => s.ready = true ∧ s.hub.cores.length = 2 ∧ s.hub.tripped = false ∧ s.hub.resetLow = false ∧ (coreOf
      s 0).st = .running ∧ (coreOf s 1).st = .running)
    ∧ Now at0 ready (fun _ _ => True)
    ∧ Now at0 ready (fun _ s => 0 < s.variant.tiles ∧ 0 < s.hub.tiles.length ∧ 0 < s.bb.linkErrors.length ∧ 2 * 0 + 1 <
      s.conv.channels.length ∧ (tileOf s 0).attempt = 0 ∧ (tileOf s 0).dead = none ∧ delivering s = true)
    ∧ Now at0 ({ ready with hub := { ready.hub with tiles := List.replicate 2 { recent := List.replicate 65 at0, attempt := 0, since := 0, dead := none } } })
      (fun _ s => 0 < s.variant.tiles ∧ 0 < s.hub.tiles.length ∧ 2 * 0 + 1 < s.conv.channels.length ∧ (tileOf s 0).attempt = 0 ∧
      (tileOf s 0).dead = none ∧ 64 < (recentFails s 0).length)
    ∧ Now at0 ({ ready with hub := { ready.hub with tiles := List.replicate 2 { recent := [], attempt := 1, since := 0, dead := none } } })
      (fun _ s => (tileOf s 0).attempt ≠ 0 ∧ 0 < s.hub.tiles.length ∧ 2 * 0 + 1 < s.conv.channels.length)
    ∧ Now at0 ({ ready with hub := { ready.hub with tiles := List.replicate 2 { recent := [], attempt := 2, since := 0, dead := none } } })
      (fun _ s => (tileOf s 0).attempt ≠ 0 ∧ (tileOf s 0).attempt < 3 ∧ 0 < s.hub.tiles.length)
    ∧ Now at0 ({ ready with hub := { ready.hub with tiles := List.replicate 2 { recent := [], attempt := 3, since := 0, dead := none } } })
      (fun _ s => 3 ≤ (tileOf s 0).attempt ∧ 0 < s.hub.tiles.length)
    ∧ Now at0 ready (fun _ s => s.variant.tiles ≤ 2)
    ∧ Now at0 ready (fun _ s => (tileOf s 0).attempt = 0)
    ∧ Now at0 ({ ready with hub := { ready.hub with fw := { Firmware.power with erase := some { cmd := 0, slot := 1, data := [1, 2] } } } })
      (fun _ s => s.hub.fw.erase = some ({ cmd := 0, slot := 1, data := [1, 2] } : FlashErase) ∧ ({ cmd := 0, slot := 1, data := [1, 2] }
      : FlashErase).slot < s.hub.fw.slots.length)
    ∧ Now at0 ready (fun _ s => s.hub.fw.erase = none)
    ∧ Now at0 ({ ready with hub := { ready.hub with fw := { Firmware.power with activate := some { cmd := 0, slot := 1, prefer := true, raise := false } } } })
      (fun _ s => s.hub.fw.activate = some ({ cmd := 0, slot := 1, prefer := true, raise := false } : Activation) ∧ (validImage
      s.hub.fw ({ cmd := 0, slot := 1, prefer := true, raise := false } : Activation).slot = false ∨ compatImage s.compat s.hub.fw
      ({ cmd := 0, slot := 1, prefer := true, raise := false } : Activation).slot = false))
    ∧ Now at0 ready (fun _ s => s.hub.fw.activate = none) := by
  and_intros <;> decide +kernel

theorem test_witness_HubEvents_20 :
    Config.signatureOk (imageBytes { data := goodImage, valid := false }) = true → Now at0 { bootable with hub := { bootable.hub with fw := { bootable.hub.fw with running := 1, activate := some { cmd := 0, slot := 0, prefer := true, raise := false } } } }
      (fun _ s => s.hub.fw.activate = some { cmd := 0, slot := 0, prefer := true, raise := false } ∧ validImage s.hub.fw 0 = true
      ∧ compatImage s.compat s.hub.fw 0 = true) := by
  intro h
  exact ⟨by decide +kernel, by decide +kernel, by decide +kernel, good_valid _ 0 rfl rfl h, by decide +kernel⟩

theorem test_witness_DebugEvents :
    Now at0 ready (fun _ _ => True)
    ∧ Now at0 ready (fun _ s => drivesPins (0x03 % 256) = true ∧ s.hub.resetLow = false)
    ∧ Now at0 ({ ready with hub := { ready.hub with resetLow := true } }) (fun _ s => drivesPins (0x03 % 256) = true ∧
      s.hub.resetLow = true)
    ∧ Now at0 ready (fun _ _ => True)
    ∧ Now at0 ready (fun _ _ => ([true] : List Bool) ≠ [])
    ∧ Now at0 ready (fun _ _ => True)
    ∧ Now at0 ready (fun _ _ => tapKnown (0x07 % 256) = false)
    ∧ Now at0 ready (fun _ s => gauntletClosed s = false)
    ∧ Now at0 ({ ready with dbg := { DebugUnit.power with failures := 3 } }) (fun _ s => gauntletClosed s = true)
    ∧ Now at0 ({ ready with dbg := { DebugUnit.power with ir := 0x20, challenge := [1, 2, 3, 4, 5, 6, 7, 8] } }) (fun _ s =>
      s.dbg.ir = 0x20 ∧ s.dbg.challenge ≠ [] ∧ gauntletClosed s = false ∧ (((0 : BitVec 776).extractLsb' 768 8).toNat ≠ 1 ∧ ((0 :
      BitVec 776).extractLsb' 768 8).toNat ≠ 2 ∨ Config.debugKeyOk s.dbg.challenge (0 : BitVec 776) = false))
    ∧ Now at0 ready (fun _ s => s.dbg.ir ≠ 0x20 ∨ s.dbg.challenge = [] ∨ gauntletClosed s = true)
    ∧ Now at0 ready (fun _ s => s.dbg.ir ≠ 0x21)
    ∧ Now at0 ({ ready with dbg := { DebugUnit.power with ir := 0x21 } }) (fun _ s => s.dbg.ir = 0x21 ∧ s.dbg.level = 0)
    ∧ Now at0 ({ ready with dbg := { DebugUnit.power with ir := 0x21, level := 1 } }) (fun _ s => s.dbg.ir = 0x21 ∧ s.dbg.level ≠
      0 ∧ dbgPlace 0 0xFFFC = true)
    ∧ Now at0 ({ ready with dbg := { DebugUnit.power with ir := 0x21, level := 1 } }) (fun _ s => s.dbg.ir = 0x21 ∧ s.dbg.level =
      1)
    ∧ Now at0 ready (fun _ s => s.dbg.ir ≠ 0x21)
    ∧ Now at0 ({ ready with dbg := { DebugUnit.power with ir := 0x21, level := 1 } }) (fun _ s => s.dbg.ir = 0x21 ∧ s.dbg.level ≠
      0)
    ∧ Now at0 ready (fun _ s => s.dbg.ir ≠ 0x21)
    ∧ Now at0 ({ ready with dbg := { DebugUnit.power with ir := 0x21, level := 2 }, hub := { ready.hub with cores := [{ CorePair.power with st := .running }, CorePair.power] } })
      (fun _ s => 0 < s.hub.cores.length ∧ 0 < 2 ∧ s.dbg.ir = 0x21 ∧ s.dbg.level = 2 ∧ (coreOf s 0).st = .running ∧ s.hub.tripped
      = false ∧ s.hub.resetLow = false)
    ∧ Now at0 ({ ready with dbg := { DebugUnit.power with ir := 0x21, level := 2 }, hub := { ready.hub with cores := [{ CorePair.power with st := .halted }, CorePair.power] } })
      (fun _ s => 0 < s.hub.cores.length ∧ 0 < 2 ∧ s.dbg.ir = 0x21 ∧ s.dbg.level = 2 ∧ (coreOf s 0).st = .halted ∧ s.hub.tripped =
      false ∧ s.hub.resetLow = false ∧ s.hub.replies = [])
    ∧ Now at0 ({ ready with dbg := { DebugUnit.power with ir := 0x21, level := 2 }, hub := { ready.hub with cores := [{ CorePair.power with st := .halted }, CorePair.power] } })
      (fun _ s => 0 < s.hub.cores.length ∧ 0 < 2 ∧ s.dbg.ir = 0x21 ∧ s.dbg.level = 2 ∧ (coreOf s 0).st = .halted)
    ∧ Now at0 ({ ready with hub := { ready.hub with cores := [{ CorePair.power with bpEn := 8 }, CorePair.power] } }) (fun _ s =>
      0 < s.hub.cores.length ∧ 3 < 4 ∧ bit (coreOf s 0).bpEn 3 = true ∧ (coreOf s 0).st = .running ∧ s.hub.tripped = false ∧
      s.hub.resetLow = false)
    ∧ Now at0 ready (fun _ s => bit (coreOf s 0).bpEn 0 = false ∨ (coreOf s 0).st ≠ .running)
    ∧ Now at0 ({ ready with hub := { ready.hub with cores := [{ CorePair.power with wpCtrl := [0, 3] }, CorePair.power] } }) (fun
      _ s => 0 < s.hub.cores.length ∧ 1 < 2 ∧ field ((coreOf s 0).wpCtrl.getD 1 0) 1 0 ≠ 0 ∧ (coreOf s 0).st = .running ∧
      s.hub.tripped = false ∧ s.hub.resetLow = false) := by
  and_intros <;> decide +kernel

theorem test_witness_DebugEvents_10 :
    Config.debugKeyOk [1, 2, 3, 4, 5, 6, 7, 8] (BitVec.ofNat 776 (2 ^ 768)) = true → Now at0 ({ ready with dbg := { DebugUnit.power with ir := 0x20, challenge := [1, 2, 3, 4, 5, 6, 7, 8] } })
      (fun _ s => s.dbg.ir = 0x20 ∧ s.dbg.challenge ≠ [] ∧ gauntletClosed s = false ∧ (((BitVec.ofNat 776 (2 ^ 768)).extractLsb'
      768 8).toNat = 1 ∨ ((BitVec.ofNat 776 (2 ^ 768)).extractLsb' 768 8).toNat = 2) ∧ Config.debugKeyOk s.dbg.challenge
      (BitVec.ofNat 776 (2 ^ 768)) = true) := by
  intro h
  exact ⟨by decide +kernel, by decide +kernel, by decide +kernel, by decide +kernel, by decide +kernel, .inl (by decide +kernel), h⟩

theorem test_witness_DebugEvents_17 :
    Config.auPlace 8 0 0 < 384 → Now at0 { mem8 with pool := { mem8.pool with parts := [newPart 8 0 1 0] }, dbg := { DebugUnit.power with ir := 0x21, level := 2 } }
      (fun _ s => s.dbg.ir = 0x21 ∧ s.dbg.level = 2 ∧ dbgPlace 2 (Config.auPlace 8 0 0 * 2 ^ 20) = true ∧ poolPlace s
      (Config.auPlace 8 0 0 * 2 ^ 20) = some (newPart 8 0 1 0, 0)) := by
  intro h
  exact ⟨by decide +kernel, by decide +kernel, by decide +kernel, by decide +kernel, place_low _ h, place_at _ _ _ rfl rfl (Nat.mul_div_cancel _ (by decide +kernel)) (Nat.mul_mod_left _ _)⟩

theorem test_witness_HeldCommands :
    (due specSysNop (held 0 1 [] : Cmd) (at0 + 32000 : Nat) (holding (held 0 1 []) ready : State) = true ∧ (held 0 1 [] :
      Cmd).timed = true)
    ∧ (due specTimeOffset (held 0x0207 0 [0, 0, 0] : Cmd) (at0 + 32000 : Nat) (holding (held 0x0207 0 [0, 0, 0]) ready : State) =
      true ∧ (held 0x0207 0 [0, 0, 0] : Cmd).timed = false)
    ∧ (due specSysMode (held 1 0 [1] : Cmd) (at0 + 32000 : Nat) (holding (held 1 0 [1]) ready : State) = true ∧ Mode.ofCode ((held
      1 0 [1] : Cmd).arg 0 2 0) = some (.analyse : Mode))
    ∧ (firstHeld (fireable (holding (held 0 1 []) ready : State)) = some (held 0 1 [] : Cmd) ∧ (held 0 1 [] : Cmd).phase = .held
      (some (at0 + 32000 : Nat)) ∧ delivering (holding (held 0 1 []) ready : State) = true) := by
  and_intros <;> decide +kernel

theorem test_witness_HeldCommands_1 :
    ∃ x ∈ commandRows, x.2.opcode ≠ 0x1103 ∧ ∃ k p s, accepted x.2 k p s = true ∧ (rowCmd k p s).timed = true := by
  refine ⟨_, nop_row, ?_, at0, pk 0 1 [], ready, ?_⟩
  · decide
  · decide +kernel

theorem test_witness_HeldCommands_5 :
    ∃ x ∈ commandRows, ∃ c e i s, s.quiet = true ∧ hasMirror s = false ∧ firstHeld (fireable s) = some c ∧ c.phase = .held (some
      e) ∧ c.opcode = x.2.opcode ∧ delivering s = true ∧ modeOk x.2 c (runMode (passTo e s)) = false ∧ firesIt c i := by
  refine ⟨_, force_row, held 0x0704 1 [0], at0 + 32000, _, holding (held 0x0704 1 [0]) ready, ?_, ?_, ?_, ?_, ?_, ?_, ?_, firing_fits _⟩ <;> decide +kernel

theorem test_witness_HeldCommands_7 :
    ∀ c ∈ ready.cmds, ∀ e, c.phase ≠ .held e := by
  intro c h
  cases h

theorem test_witness_RefusedCommands_1 :
    ∃ x ∈ commandRows, ∃ k p s st, heard x.2 k p s = true ∧ checkCmd x.2 (rowCmd k p s) (rowState k p s) = some st := by
  exact ⟨_, nop_row, at0, pk 0 0 [5], ready, .badLength, by decide +kernel, by decide +kernel⟩

theorem test_witness_MarkerCommand :
    (accepted specSysNop at0 (pk 0x0000 0 [] : Packet) (ready : State) = true ∧ (rowCmd at0 (pk 0x0000 0 [] : Packet) (ready :
      State)).timed = false)
    ∧ (heard specSysNop at0 (pk 0x0000 0 [5] : Packet) (ready : State) = true ∧ plenOf (pk 0x0000 0 [5] : Packet) ≠ 0)
    ∧ (accepted specSysNop at0 (pk 0x0000 1 [] : Packet) (ready : State) = true ∧ (rowCmd at0 (pk 0x0000 1 [] : Packet) (ready :
      State)).timed = true)
    ∧ (due specSysNop (held 0 1 [] : Cmd) (at0 + 32000 : Nat) (holding (held 0 1 []) ready : State) = true ∧ (held 0 1 [] :
      Cmd).timed = true)
    ∧ (({ ready with nextId := 1, cmds := [running 0x0204 []] } : State).quiet = true ∧ hasMirror ({ ready with nextId := 1, cmds := [running 0x0204 []] }
      : State) = false ∧ opcodeOf (pk 0x0000 2 [] : Packet) = 0x0000 ∧ takesFrom (pk 0x0000 2 [] : Packet).src (passTo at0 ({ ready with nextId := 1, cmds := [running 0x0204 []] }
      : State)) = true ∧ (rowCmd at0 (pk 0x0000 2 [] : Packet) ({ ready with nextId := 1, cmds := [running 0x0204 []] } :
      State)).fence = true ∧ (running 0x0204 [] : Cmd) ∈ ({ ready with nextId := 1, cmds := [running 0x0204 []] } : State).cmds ∧
      (running 0x0204 [] : Cmd).id < ({ ready with nextId := 1, cmds := [running 0x0204 []] } : State).nextId ∧ (running 0x0204 []
      : Cmd).origin = srcRank (pk 0x0000 2 [] : Packet).src ∧ sameSource (pk 0x0000 2 [] : Packet).src (running 0x0204 [] :
      Cmd).src = true) := by
  and_intros <;> decide +kernel

theorem test_witness_SystemRules :
    (accepted specSysNoticeRoute at0 (pk 0x0002 0 [0x1113] : Packet) (ready : State) = true ∧ (rowCmd at0 (pk 0x0002 0 [0x1113])
      ready : Cmd) = rowCmd at0 (pk 0x0002 0 [0x1113] : Packet) (ready : State) ∧ (ready : State).routes.length = 20)
    ∧ (heard specSysNoticeRoute at0 (pk 0x0002 0 [0x1213] : Packet) (ready : State) = true ∧ (rowCmd at0 (pk 0x0002 0 [0x1213])
      ready : Cmd) = rowCmd at0 (pk 0x0002 0 [0x1213] : Packet) (ready : State) ∧ (rowState at0 (pk 0x0002 0 [0x1213]) ready :
      State) = rowState at0 (pk 0x0002 0 [0x1213] : Packet) (ready : State) ∧ ((rowCmd at0 (pk 0x0002 0 [0x1213]) ready :
      Cmd).plen ≠ 1 ∧ (.badParam : Status) = .badLength ∨ (rowCmd at0 (pk 0x0002 0 [0x1213]) ready : Cmd).plen = 1 ∧ badHeader
      specSysNoticeRoute (rowCmd at0 (pk 0x0002 0 [0x1213]) ready : Cmd) = false ∧ indirectFails (rowCmd at0 (pk 0x0002 0
      [0x1213]) ready : Cmd) (rowState at0 (pk 0x0002 0 [0x1213]) ready : State) = false ∧ (17 < (rowCmd at0 (pk 0x0002 0
      [0x1213]) ready : Cmd).arg 0 12 8 ∨ 0x13 < (rowCmd at0 (pk 0x0002 0 [0x1213]) ready : Cmd).arg 0 7 0) ∧ (.badParam : Status)
      = .badParam))
    ∧ (accepted specSysGetIndex at0 (pk 0x0004 0 [] : Packet) (ready : State) = true ∧ (rowCmd at0 (pk 0x0004 0 []) ready : Cmd) =
      rowCmd at0 (pk 0x0004 0 [] : Packet) (ready : State) ∧ (rowState at0 (pk 0x0004 0 []) ready : State) = rowState at0 (pk
      0x0004 0 [] : Packet) (ready : State))
    ∧ (accepted specTimeSetEpoch at0 (pk 0x0202 0 [5, 0] : Packet) (ready : State) = true ∧ (rowCmd at0 (pk 0x0202 0 [5, 0]) ready
      : Cmd) = rowCmd at0 (pk 0x0202 0 [5, 0] : Packet) (ready : State)) := by
  and_intros <;> decide +kernel

theorem test_witness_BankInUse_1 :
    (heard specEqLoad at0 (pk 0x0400 0 (List.replicate 35 0) : Packet) (ready : State) = true ∧ (rowCmd at0 (pk 0x0400 0
      (List.replicate 35 0)) ready : Cmd) = rowCmd at0 (pk 0x0400 0 (List.replicate 35 0) : Packet) (ready : State) ∧ (rowState
      at0 (pk 0x0400 0 (List.replicate 35 0)) ready : State) = rowState at0 (pk 0x0400 0 (List.replicate 35 0) : Packet) (ready :
      State) ∧ (endSwap at0 Equaliser.power : Equaliser) = endSwap (rowState at0 (pk 0x0400 0 (List.replicate 35 0)) ready :
      State).index ((rowState at0 (pk 0x0400 0 (List.replicate 35 0)) ready : State).eqs.getD ((rowCmd at0 (pk 0x0400 0
      (List.replicate 35 0)) ready : Cmd).arg 0 1 0) default) ∧ (rowCmd at0 (pk 0x0400 0 (List.replicate 35 0)) ready : Cmd).plen
      = 35 ∧ (isQp (rowCmd at0 (pk 0x0400 0 (List.replicate 35 0)) ready : Cmd).src = true → (rowCmd at0 (pk 0x0400 0
      (List.replicate 35 0)) ready : Cmd).indirect = true) ∧ badHeader specEqLoad (rowCmd at0 (pk 0x0400 0 (List.replicate 35 0))
      ready : Cmd) = false ∧ indirectFails (rowCmd at0 (pk 0x0400 0 (List.replicate 35 0)) ready : Cmd) (rowState at0 (pk 0x0400 0
      (List.replicate 35 0)) ready : State) = false ∧ (rowCmd at0 (pk 0x0400 0 (List.replicate 35 0)) ready : Cmd).arg 0 25 16 ≤
      960 ∧ (rowCmd at0 (pk 0x0400 0 (List.replicate 35 0)) ready : Cmd).arg 0 1 0 < (rowState at0 (pk 0x0400 0 (List.replicate 35
      0)) ready : State).variant.channels ∧ modeAt (rowState at0 (pk 0x0400 0 (List.replicate 35 0)) ready : State) (rowState at0
      (pk 0x0400 0 (List.replicate 35 0)) ready : State).index ≠ .shadow ∧ ((endSwap at0 Equaliser.power : Equaliser).active =
      (rowCmd at0 (pk 0x0400 0 (List.replicate 35 0)) ready : Cmd).flag 0 8 ∨ (endSwap at0 Equaliser.power : Equaliser).running ≠
      none ∨ ∃ h, (endSwap at0 Equaliser.power : Equaliser).held = some h ∧ h.bank = (rowCmd at0 (pk 0x0400 0 (List.replicate 35
      0)) ready : Cmd).flag 0 8)) := by
  exact ⟨by decide +kernel, by decide +kernel, by decide +kernel, by decide +kernel, by decide +kernel, by decide +kernel, by decide +kernel, by decide +kernel, by decide +kernel, by decide +kernel, by decide +kernel, .inl (by decide +kernel)⟩

theorem test_witness_Forwarding :
    (({ inMode .analyse with pair := { PairUnit.power with role := .primary, link := .up, mirrored := true, otherEligible := true } }
      : State).quiet = true ∧ hasMirror ({ inMode .analyse with pair := { PairUnit.power with role := .primary, link := .up, mirrored := true, otherEligible := true } }
      : State) = true ∧ opcodeOf (pk 0x0300 0 [0x10200] : Packet) = 0x0300 ∧ takesFrom (pk 0x0300 0 [0x10200] : Packet).src
      (passTo at0 ({ inMode .analyse with pair := { PairUnit.power with role := .primary, link := .up, mirrored := true, otherEligible := true } }
      : State)) = true ∧ ({ inMode .analyse with pair := { PairUnit.power with role := .primary, link := .up, mirrored := true, otherEligible := true } }
      : State).hub.fw.recovery = false ∧ (rowCmd at0 (pk 0x0300 0 [0x10200]) ({ inMode .analyse with pair := { PairUnit.power with role := .primary, link := .up, mirrored := true, otherEligible := true } })
      : Cmd) = rowCmd at0 (pk 0x0300 0 [0x10200] : Packet) ({ inMode .analyse with pair := { PairUnit.power with role := .primary, link := .up, mirrored := true, otherEligible := true } }
      : State) ∧ startable (rowState at0 (pk 0x0300 0 [0x10200] : Packet) ({ inMode .analyse with pair := { PairUnit.power with role := .primary, link := .up, mirrored := true, otherEligible := true } }
      : State)) (rowCmd at0 (pk 0x0300 0 [0x10200]) ({ inMode .analyse with pair := { PairUnit.power with role := .primary, link := .up, mirrored := true, otherEligible := true } })
      : Cmd) = true ∧ checkCmd specConvConfig (rowCmd at0 (pk 0x0300 0 [0x10200]) ({ inMode .analyse with pair := { PairUnit.power with role := .primary, link := .up, mirrored := true, otherEligible := true } })
      : Cmd) (rowState at0 (pk 0x0300 0 [0x10200] : Packet) ({ inMode .analyse with pair := { PairUnit.power with role := .primary, link := .up, mirrored := true, otherEligible := true } }
      : State)) = none ∧ (rowCmd at0 (pk 0x0300 0 [0x10200]) ({ inMode .analyse with pair := { PairUnit.power with role := .primary, link := .up, mirrored := true, otherEligible := true } })
      : Cmd).noMirror = false)
    ∧ (({ inMode .analyse with pair := { PairUnit.power with role := .primary, link := .up, mirrored := true, otherEligible := true } }
      : State).quiet = true ∧ hasMirror ({ inMode .analyse with pair := { PairUnit.power with role := .primary, link := .up, mirrored := true, otherEligible := true } }
      : State) = true ∧ opcodeOf (pk 0x0300 32 [0x10200] : Packet) = 0x0300 ∧ takesFrom (pk 0x0300 32 [0x10200] : Packet).src
      (passTo at0 ({ inMode .analyse with pair := { PairUnit.power with role := .primary, link := .up, mirrored := true, otherEligible := true } }
      : State)) = true ∧ ({ inMode .analyse with pair := { PairUnit.power with role := .primary, link := .up, mirrored := true, otherEligible := true } }
      : State).hub.fw.recovery = false ∧ (rowCmd at0 (pk 0x0300 32 [0x10200]) ({ inMode .analyse with pair := { PairUnit.power with role := .primary, link := .up, mirrored := true, otherEligible := true } })
      : Cmd) = rowCmd at0 (pk 0x0300 32 [0x10200] : Packet) ({ inMode .analyse with pair := { PairUnit.power with role := .primary, link := .up, mirrored := true, otherEligible := true } }
      : State) ∧ startable (rowState at0 (pk 0x0300 32 [0x10200] : Packet) ({ inMode .analyse with pair := { PairUnit.power with role := .primary, link := .up, mirrored := true, otherEligible := true } }
      : State)) (rowCmd at0 (pk 0x0300 32 [0x10200]) ({ inMode .analyse with pair := { PairUnit.power with role := .primary, link := .up, mirrored := true, otherEligible := true } })
      : Cmd) = true ∧ checkCmd specConvConfig (rowCmd at0 (pk 0x0300 32 [0x10200]) ({ inMode .analyse with pair := { PairUnit.power with role := .primary, link := .up, mirrored := true, otherEligible := true } })
      : Cmd) (rowState at0 (pk 0x0300 32 [0x10200] : Packet) ({ inMode .analyse with pair := { PairUnit.power with role := .primary, link := .up, mirrored := true, otherEligible := true } }
      : State)) = none ∧ (rowCmd at0 (pk 0x0300 32 [0x10200]) ({ inMode .analyse with pair := { PairUnit.power with role := .primary, link := .up, mirrored := true, otherEligible := true } })
      : Cmd).noMirror = true)
    ∧ (({ inMode .analyse with pair := { PairUnit.power with role := .primary, link := .up, mirrored := true, otherEligible := true } }
      : State).quiet = true ∧ hasMirror ({ inMode .analyse with pair := { PairUnit.power with role := .primary, link := .up, mirrored := true, otherEligible := true } }
      : State) = true ∧ opcodeOf (pk 0x0301 0 [1, 3] : Packet) = 0x0301 ∧ takesFrom (pk 0x0301 0 [1, 3] : Packet).src (passTo at0
      ({ inMode .analyse with pair := { PairUnit.power with role := .primary, link := .up, mirrored := true, otherEligible := true } }
      : State)) = true ∧ ({ inMode .analyse with pair := { PairUnit.power with role := .primary, link := .up, mirrored := true, otherEligible := true } }
      : State).hub.fw.recovery = false ∧ (rowCmd at0 (pk 0x0301 0 [1, 3]) ({ inMode .analyse with pair := { PairUnit.power with role := .primary, link := .up, mirrored := true, otherEligible := true } })
      : Cmd) = rowCmd at0 (pk 0x0301 0 [1, 3] : Packet) ({ inMode .analyse with pair := { PairUnit.power with role := .primary, link := .up, mirrored := true, otherEligible := true } }
      : State) ∧ startable (rowState at0 (pk 0x0301 0 [1, 3] : Packet) ({ inMode .analyse with pair := { PairUnit.power with role := .primary, link := .up, mirrored := true, otherEligible := true } }
      : State)) (rowCmd at0 (pk 0x0301 0 [1, 3]) ({ inMode .analyse with pair := { PairUnit.power with role := .primary, link := .up, mirrored := true, otherEligible := true } })
      : Cmd) = true ∧ checkCmd specConvAtten (rowCmd at0 (pk 0x0301 0 [1, 3]) ({ inMode .analyse with pair := { PairUnit.power with role := .primary, link := .up, mirrored := true, otherEligible := true } })
      : Cmd) (rowState at0 (pk 0x0301 0 [1, 3] : Packet) ({ inMode .analyse with pair := { PairUnit.power with role := .primary, link := .up, mirrored := true, otherEligible := true } }
      : State)) = none ∧ (rowCmd at0 (pk 0x0301 0 [1, 3]) ({ inMode .analyse with pair := { PairUnit.power with role := .primary, link := .up, mirrored := true, otherEligible := true } })
      : Cmd).timed = false ∧ (rowCmd at0 (pk 0x0301 0 [1, 3]) ({ inMode .analyse with pair := { PairUnit.power with role := .primary, link := .up, mirrored := true, otherEligible := true } })
      : Cmd).noMirror = false ∧ locked ({ inMode .analyse with pair := { PairUnit.power with role := .primary, link := .up, mirrored := true, otherEligible := true } }
      : State) = true ∧ (boundaryAfter (rowState at0 (pk 0x0301 0 [1, 3]) ({ inMode .analyse with pair := { PairUnit.power with role := .primary, link := .up, mirrored := true, otherEligible := true } }))
      4000 : Nat) = boundaryAfter (rowState at0 (pk 0x0301 0 [1, 3] : Packet) ({ inMode .analyse with pair := { PairUnit.power with role := .primary, link := .up, mirrored := true, otherEligible := true } }
      : State)) 4000) := by
  and_intros <;> decide +kernel

theorem test_witness_AfterReady_1 :
    Config.signatureOk (imageBytes { data := goodImage, valid := false }) = true → (evPowerOn none false 0 bootable).ready =
      true := by
  exact ready_after

theorem test_witness_RoleKept_1 :
    ∃ t, ({ ready with pending := [.sysNop at0 (pk 0 0 [])] } : State).roleFits = true ∧ step { ready with pending := [.sysNop at0 (pk 0 0 [])] }
      = .next t := by
  exact ⟨_, by decide +kernel, rfl⟩

theorem test_witness_MemoryKept_1 :
    ∃ t, ({ ready with pending := [.sysNop at0 (pk 0 0 [])] } : State).memWf = true ∧ step { ready with pending := [.sysNop at0 (pk 0 0 [])] }
      = .next t := by
  exact ⟨_, by decide +kernel, rfl⟩

theorem test_witness_NoticesKept_1 :
    ∃ t, ({ ready with pending := [.sysNop at0 (pk 0 0 [])] } : State).noticesFit = true ∧ step { ready with pending := [.sysNop at0 (pk 0 0 [])] }
      = .next t := by
  exact ⟨_, by decide +kernel, rfl⟩

end Sys2Proof.Tests
end

section
/-! The statements of the scope: what a refused command does. -/

namespace Sys2Proof.Machine

/-- Beside its reply, the refusal of a row's packet writes the black-box entry of a failed indirect read (R48, R60), and nothing else (R18). -/
theorem refuseEffects_rowCmd {sp : CmdSpec} {k : Nat} {p : Packet} {s : State} (h : Heard sp k p s) (st : Status) (a : State) :
    refuseEffects (rowCmd k p s) st a =
      if st = .internal then
        latchGint 2 (bbWrite 0x12 0 0x1285 [BitVec.ofNat 32 sp.opcode, tagOf p, BitVec.ofNat 32 (srcRank p.src)] a.index a)
      else a := by
  have hop : (rowCmd k p s).opcode = sp.opcode := h.opcode
  have htag : (rowCmd k p s).tag = tagOf p := rfl
  have horigin : (rowCmd k p s).origin = srcRank p.src := rfl
  simp only [refuseEffects, beq_iff_eq, hop, htag, horigin]

/-- Settles O49: `row_refused` says it for every row that fits its opcode, and every command row does (`commandRows_fit`). -/
theorem refusedCommands : Obligations.RefusedCommands := by
  intro x hx k p s st hheard hcheck
  obtain ⟨hexec, hspec⟩ := commandRows_fit x hx
  have h : Heard x.2 k p s := heard_iff.mp hheard
  rw [hexec, row_refused h hspec hcheck, refuseEffects_rowCmd h]

end Sys2Proof.Machine
end

section
/-! What the invariant of the roles speaks of, and the operations that leave it as it is: the mode, the shadowed mode, the role of the device in its pair,
and the mode that a snapshot brings. -/

namespace Sys2Proof.Machine

/-- All that `State.roleFits` judges of a state (R38, R584, R597). -/
def stance (s : State) : Mode × Mode × Role × Mode := (s.mode, s.shadowed, s.pair.role, s.pair.joinMode)

theorem roleFits_stance {s t : State} (h : stance t = stance s) : t.roleFits = s.roleFits := by
  obtain ⟨hm, hs, hr, hj⟩ : t.mode = s.mode ∧ t.shadowed = s.shadowed ∧ t.pair.role = s.pair.role ∧ t.pair.joinMode = s.pair.joinMode := by
    simpa [stance] using h
  simp only [State.roleFits, hm, hs, hr, hj]

theorem stance_ends {s t : State} (h : Ends s t) : stance t = stance s := by
  simp only [stance, h.mode, h.shadowed, h.role, h.joinMode]

theorem stance_core {s t : State} (h : core t = core s) : stance t = stance s := stance_ends (ends_core h)

theorem stance_foldl {β : Type} (l : List β) (f : State → β → State) (s : State) (h : ∀ a i, stance (f a i) = stance a) :
    stance (l.foldl f s) = stance s := by
  induction l generalizing s with
  | nil => rfl
  | cons x t ih => exact (ih _).trans (h s x)

theorem stance_ite {p : Prop} [Decidable p] {a b s : State} (ha : stance a = stance s) (hb : stance b = stance s) :
    stance (if p then a else b) = stance s := by
  split_ifs
  · exact ha
  · exact hb

/-- For a command whose effect and answer depend on one test. -/
theorem stance_fst_ite {α : Type} {p : Prop} [Decidable p] {a b : State × α} {s : State} (ha : stance a.1 = stance s) (hb : stance b.1 = stance s) :
    stance (if p then a else b).1 = stance s := by
  split_ifs
  · exact ha
  · exact hb

/-- A command that clears counters on request only. -/
theorem stance_clear {p : Prop} [Decidable p] {a s : State} (ha : stance a = stance s) : stance (if p then a else s) = stance s := stance_ite ha rfl

/-- Every other field may change. -/
theorem stance_mk (s : State) (pending_ : _) (out_ : _) (variant_ : _) (compat_ : _) (index_ : _) (ready_ : _) (nextId_ : _) (cmds_ : _) (qps_ : _) (spi_ : _) (ctlport_ : _) (routes_ : _) (notices_ : _) (aside_ : _) (glob_ : _) (pool_ : _) (time_ : _) (conv_ : _) (eqs_ : _) (tuners_ : _) (engines_ : _) (dens_ : _) (spgm_ : _) (trig_ : _) (cap_ : _) (intg_ : _) (th_ : _) (strm_ : _) (packers_ : _) (mq_ : _) (tdc_ : _) (mc_ : _) (maint_ : _) (disp_ : _) (hub_ : _) (dbg_ : _) (bb_ : _) (faultCause_ : _) (faultActive_ : _) (hist_ : _) (free_ : _) :
    stance (State.mk pending_ out_ variant_ compat_ index_ ready_ s.mode s.shadowed nextId_ cmds_ qps_ spi_ ctlport_ routes_ notices_ aside_ glob_ pool_ time_ conv_ eqs_ tuners_ engines_ dens_ spgm_ trig_ cap_ intg_ th_ strm_ packers_ mq_ tdc_ mc_ maint_ disp_ hub_ dbg_ s.pair bb_ faultCause_ faultActive_ hist_ free_) = stance s := rfl

/-! ### Operations on units -/

@[simp] theorem emit_stance (o : Output) (s : State) : stance (emit o s) = stance s := rfl
@[simp] theorem setTime_stance (f : TimeUnit → TimeUnit) (s : State) : stance (setTime f s) = stance s := rfl
@[simp] theorem setHub_stance (f : HubUnit → HubUnit) (s : State) : stance (setHub f s) = stance s := rfl
@[simp] theorem setStrm_stance (f : StreamUnit → StreamUnit) (s : State) : stance (setStrm f s) = stance s := rfl
@[simp] theorem setCtx_stance (n : Nat) (f : StreamCtx → StreamCtx) (s : State) : stance (setCtx n f s) = stance s := rfl
@[simp] theorem setMq_stance (f : MqUnit → MqUnit) (s : State) : stance (setMq f s) = stance s := rfl
@[simp] theorem setMc_stance (f : McUnit → McUnit) (s : State) : stance (setMc f s) = stance s := rfl
@[simp] theorem setTdc_stance (f : TdcUnit → TdcUnit) (s : State) : stance (setTdc f s) = stance s := rfl
@[simp] theorem setMaint_stance (f : MaintUnit → MaintUnit) (s : State) : stance (setMaint f s) = stance s := rfl
@[simp] theorem setDisp_stance (f : DispUnit → DispUnit) (s : State) : stance (setDisp f s) = stance s := rfl
@[simp] theorem setPool_stance (f : Pool → Pool) (s : State) : stance (setPool f s) = stance s := rfl
@[simp] theorem setPart_stance (n : Nat) (f : Partition → Partition) (s : State) : stance (setPart n f s) = stance s := rfl
@[simp] theorem setPacker_stance (n : Nat) (f : Packer → Packer) (s : State) : stance (setPacker n f s) = stance s := rfl
@[simp] theorem setChannel_stance (n : Nat) (f : Channel → Channel) (s : State) : stance (setChannel n f s) = stance s := rfl
@[simp] theorem setEq_stance (n : Nat) (f : Equaliser → Equaliser) (s : State) : stance (setEq n f s) = stance s := rfl
@[simp] theorem setTuner_stance (n : Nat) (f : Tuner → Tuner) (s : State) : stance (setTuner n f s) = stance s := rfl
@[simp] theorem setEngine_stance (n : Nat) (f : Engine → Engine) (s : State) : stance (setEngine n f s) = stance s := rfl
@[simp] theorem setDens_stance (n : Nat) (f : Density → Density) (s : State) : stance (setDens n f s) = stance s := rfl
@[simp] theorem setSpgm_stance (n : Nat) (f : Spgm → Spgm) (s : State) : stance (setSpgm n f s) = stance s := rfl
@[simp] theorem setSheaf_stance (n : Nat) (f : Sheaf → Sheaf) (s : State) : stance (setSheaf n f s) = stance s := rfl
@[simp] theorem setSlot_stance (n : Nat) (f : TrigSlot → TrigSlot) (s : State) : stance (setSlot n f s) = stance s := rfl
@[simp] theorem setTh_stance (n : Nat) (f : Thresher → Thresher) (s : State) : stance (setTh n f s) = stance s := rfl
@[simp] theorem setInt_stance (f : IntUnit → IntUnit) (s : State) : stance (setInt f s) = stance s := rfl
@[simp] theorem setQp_stance (q : Nat) (f : QueuePair → QueuePair) (s : State) : stance (setQp q f s) = stance s := rfl
@[simp] theorem takeFree_stance (s : State) : stance (takeFree s).2 = stance s := rfl
@[simp] theorem endFault_stance (b : Nat) (s : State) : stance (endFault b s) = stance s := rfl

@[simp] theorem notify_stance (a : Nat) (b : List Word) (c : Nat) (s : State) : stance (notify a b c s) = stance s := stance_core (notify_core ..)
@[simp] theorem bbWrite_stance (u p e : Nat) (d : List Word) (i : Nat) (s : State) : stance (bbWrite u p e d i s) = stance s := stance_core (bbWrite_core ..)
@[simp] theorem setFault_stance (b : Nat) (s : State) : stance (setFault b s) = stance s := stance_core (setFault_core ..)
@[simp] theorem bringErrors_stance (l : List MemError) (s : State) : stance (bringErrors l s) = stance s := stance_core (bringErrors_core ..)
@[simp] theorem bringVolts_stance (l : List Volts) (s : State) : stance (bringVolts l s) = stance s := stance_core (bringVolts_core ..)
@[simp] theorem writeAt_stance (h : Word) (o : Nat) (b : List Byte) (s : State) : stance (writeAt h o b s) = stance s := stance_core (writeAt_core ..)
@[simp] theorem endActivity_stance (f : Activity → Bool) (s : State) : stance (endActivity f s) = stance s := stance_core (endActivity_core ..)
@[simp] theorem afterLate_stance (s : State) : stance (afterLate s) = stance s := stance_core (afterLate_core ..)
@[simp] theorem mqReadNow_stance (r : MqRead) (s : State) : stance (mqReadNow r s).1 = stance s := stance_core (mqReadNow_core ..)
@[simp] theorem gapStart_stance (v : Nat) (s : State) : stance (gapStart v s) = stance s := stance_core (gapStart_core ..)

/-! ### Replies, and the path of a command -/

@[simp] theorem writeReply_stance (c : Cmd) (e : Entry) (s : State) : stance (writeReply c e s) = stance s := stance_ends (ends_writeReply ..)

@[simp] theorem complete_stance (c : Cmd) (st : Status) (pl : List Word) (i : Nat) (s : State) : stance (complete c st pl i s) = stance s :=
  stance_ends (ends_complete ..)

@[simp] theorem completeId_stance (id : Nat) (st : Status) (pl : List Word) (i : Nat) (s : State) : stance (completeId id st pl i s) = stance s :=
  stance_ends (ends_completeId ..)

@[simp] theorem firstReply_stance (c : Cmd) (st : Status) (i : Nat) (s : State) : stance (firstReply c st i s) = stance s := by
  unfold firstReply
  dsimp only
  split_ifs
  · rfl
  · exact (stance_ends (ends_deliverReply ..)).trans rfl

@[simp] theorem passTo_stance (k : Nat) (s : State) : stance (passTo k s) = stance s := by simp [stance]

@[simp] theorem atTime_stance (k : Nat) (s : State) : stance (atTime k s) = stance s := by rw [atTime_frame]; rfl

@[simp] theorem settleFate_stance (c : Cmd) (i : Nat) (r : State × Fate) : stance (settleFate c i r) = stance r.1 := by
  obtain ⟨u, f⟩ := r
  cases f <;> simp only [settleFate, complete_stance, firstReply_stance] <;> rfl

@[simp] theorem sendForward_stance (c : Cmd) (e : Option Nat) (d : List Byte) (s : State) : stance (sendForward c e d s) = stance s := rfl

@[simp] theorem forwardCmd_stance (sp : CmdSpec) (c : Cmd) (e : Option Nat) (s : State) : stance (forwardCmd sp c e s) = stance s := by
  unfold forwardCmd
  split_ifs <;> rfl

@[simp] theorem holdCmd_stance (c : Cmd) (e : Option Nat) (s : State) : stance (holdCmd c e s) = stance s := by
  cases e with
  | none => rfl
  | some w =>
    simp only [holdCmd]
    split_ifs <;> rfl

@[simp] theorem repliesFirst_stance (f : State → State) (s : State) : stance (repliesFirst f s) = stance (f (opened s)) :=
  stance_core (repliesFirst_opened ..)

/-! ### Samples: decisions, captures, and breaks in the numbering -/

@[simp] theorem decideTo_stance (k : Nat) (s : State) : stance (decideTo k s) = stance s := stance_ends (ends_decideTo ..)

@[simp] theorem gapStop_stance (u reason ring stop : Nat) (step : Bool) (s : State) : stance (gapStop u reason ring stop step s) = stance s :=
  stance_ends (ends_gapStop ..)

@[simp] theorem skipGap_stance (u v : Nat) (s : State) : stance (skipGap u v s) = stance s := stance_ends (ends_skipGap ..)

@[simp] theorem failSyncs_stance (s : State) : stance (failSyncs s) = stance s :=
  stance_foldl _ _ s fun _ _ => completeId_stance ..

@[simp] theorem endResume_stance (s : State) : stance (endResume s) = stance s := by
  obtain ⟨u, hu, he⟩ := endResume_ends s
  rw [stance_ends he, setTime_stance, stance_ends hu]

@[simp] theorem renumber_stance (v : Nat) (s : State) : stance (renumber v s) = stance s :=
  show stance (stepSlots (settleOld s)) = stance s from stance_core ((stepSlots_core ..).trans (settleOld_core ..))

theorem evOverRange_stance (c first : Nat) (values : List Rat) (s : State) : stance (evOverRange c first values s) = stance s := by
  unfold evOverRange
  split_ifs
  · rfl
  · refine (stance_foldl _ _ _ fun a j => ?_).trans (bringVolts_stance ..)
    rw [stance_core (ovrNotice_core ..), atTime_stance]

theorem evTrigDecide_stance (k : Nat) (volts : List Volts) (s : State) : stance (evTrigDecide k volts s) = stance s := by
  simp [evTrigDecide]

theorem evSegmentClose_stance (k n : Nat) (dropped : Bool) (volts : List Volts) (errors : List MemError) (s : State) :
    stance (evSegmentClose k n dropped volts errors s) = stance s := by
  simp [evSegmentClose, apply_ite stance, stance_core (completeAll_core ..), stance_core (closeAtEnd_core ..), stance_core (closeSegment_core ..),
    stance_core (ringErrors_core ..)]

end Sys2Proof.Machine
end

section
/-! The events of the units that leave the role of the device and its mode as they are: the message queue, the streams, the packers, the timebase, the
monitor converter, maintenance, the display and the pool. -/

namespace Sys2Proof.Machine

/-! ### The message queue -/

@[simp] theorem mqOpenHost_stance (h : HostItem) (s : State) : stance (mqOpenHost h s) = stance s := by
  unfold mqOpenHost
  split_ifs <;> simp

@[simp] theorem mqCloseHost_stance (s : State) : stance (mqCloseHost s) = stance s := by
  unfold mqCloseHost
  split
  · rfl
  · simp [apply_ite stance, stance_core (mqItemEnd_core ..), stance_core (mqWrite_core ..)]

/-- An item leaves its producer for the queue. -/
theorem evMqItemAccept_stance (producer : Nat) (s : State) : stance (evMqItemAccept producer s) = stance s := by
  have accept (p t : Nat) (r : List Word) (u : State) (h : stance u = stance s) : stance (mqAccept p t r u) = stance s :=
    (stance_core (mqAccept_core ..)).trans h
  unfold evMqItemAccept
  dsimp only
  split
  · exact mqCloseHost_stance ..
  · split
    · rfl
    · split <;> split
      · exact accept _ _ _ _ rfl
      · rfl
      · exact accept _ _ _ _ rfl
      · rfl
      · exact accept _ _ _ _ rfl
      · rfl
      · exact accept _ _ _ _ rfl
      · rfl
      · exact (mqOpenHost_stance ..).trans rfl
      · rfl

@[simp] theorem mqFinishRead_stance (s : State) : stance (mqFinishRead s) = stance s := by
  unfold mqFinishRead
  split <;> simp

theorem evMqReadComplete_stance (errors : List MemError) (s : State) : stance (evMqReadComplete errors s) = stance s := by
  unfold evMqReadComplete
  dsimp only
  repeat' split
  all_goals simp

theorem evMqReadTimeout_stance (errors : List MemError) (s : State) : stance (evMqReadTimeout errors s) = stance s := by
  simp [evMqReadTimeout]

/-! ### Streams and packers -/

@[simp] theorem attachMarks_stance (n seq index : Nat) (s : State) : stance (attachMarks n seq index s) = stance s :=
  stance_foldl _ _ s fun _ _ => by simp

@[simp] theorem storePacket_stance (n : Nat) (bytes : List Byte) (index : Nat) (first last : Bool) (s : State) :
    stance (storePacket n bytes index first last s).1 = stance s := by
  unfold storePacket
  dsimp only
  split_ifs <;> simp [stance_core (loseMarks_core ..)]

/-- The packet of a piece takes counts of its packer with it. -/
theorem kdpSample_stance {s t : State} {n : Nat} {p : StreamPiece} {last : Bool} {note : ClockNote} {elems : List Word} {choice bytes : List Byte}
    (h : kdpSample s n p last note elems choice = some (bytes, t)) : stance t = stance s := by
  unfold kdpSample at h
  dsimp only at h
  split at h
  · cases h
  · cases h
    exact stance_core (countPacked_core ..)

@[simp] theorem generateSample_stance (n : Nat) (choice : List Byte) (s : State) : stance (generateSample n choice s) = stance s := by
  unfold generateSample
  split
  · rfl
  · next p ended _ =>
    extract_lets number u c data elems packet
    have hu : stance u = stance s := by
      dsimp only [u]
      clear_value number
      split <;> rfl
    have hp : ∀ b t, packet = some (b, t) → stance t = stance s := by
      intro b t h
      dsimp only [packet] at h
      split_ifs at h
      · cases h
        exact hu
      · exact (kdpSample_stance h).trans hu
    clear_value packet
    split
    · exact hu
    · next b t =>
      have ht := hp b t rfl
      split_ifs <;> simp [ht]

@[simp] theorem generateItem_stance (n : Nat) (choice : List Byte) (s : State) : stance (generateItem n choice s) = stance s := by
  unfold generateItem
  extract_lets s0 u c
  have hu : stance u = stance s := by
    dsimp only [u, s0]
    rw [stance_core (skipStale_core ..)]
    split_ifs
    · exact stance_core (pullMq_core ..)
    · rfl
  clear_value u
  split
  · exact hu
  · split
    · split <;> simp [hu, stance_core (dropItem_core ..), stance_core (regionDone_core ..)]
    · dsimp only
      split
      · exact hu
      · simp [apply_ite stance, hu, stance_core (dropItem_core ..), stance_core (countPacked_core ..)]

theorem evStrmPacketGenerate_stance (n : Nat) (volts : List Volts) (choice : List Byte) (errors : List MemError) (s : State) :
    stance (evStrmPacketGenerate n volts choice errors s) = stance s := by
  simp [evStrmPacketGenerate, apply_ite stance]

@[simp] theorem sendTo_stance (e : Nat) (bytes : List Byte) (s : State) : stance (sendTo e bytes s) = stance s := by
  unfold sendTo
  split
  · rfl
  · rfl
  · exact stance_core (hostRingWrite_core ..)
  · split <;> rfl

@[simp] theorem sendLive_stance (n : Nat) (s : State) : stance (sendLive n s) = stance s := by
  unfold sendLive
  dsimp only
  repeat' split
  all_goals simp [stance_core (regionDone_core ..), stance_core (serveTurn_core ..)]

@[simp] theorem sendRewind_stance (n : Nat) (s : State) : stance (sendRewind n s) = stance s := by
  unfold sendRewind
  dsimp only
  repeat' split
  all_goals simp [stance_core (serveTurn_core ..)]

theorem evStrmPacketSend_stance (n : Nat) (rewind : Bool) (errors : List MemError) (s : State) :
    stance (evStrmPacketSend n rewind errors s) = stance s := by
  simp [evStrmPacketSend, apply_ite stance]

@[simp] theorem endRewind_stance (n : Nat) (st : Status) (s : State) : stance (endRewind n st s) = stance s := by
  unfold endRewind
  split <;> simp

theorem evRewindDone_stance (n : Nat) (s : State) : stance (evRewindDone n s) = stance s := by
  unfold evRewindDone
  repeat' split
  all_goals simp

@[simp] theorem dropMarkWaits_stance (n : Nat) (s : State) : stance (dropMarkWaits n s) = stance s :=
  (stance_foldl _ _ _ fun _ _ => completeId_stance ..).trans (setCtx_stance ..)

theorem evPkJobEnd_stance (p : Nat) (choices : List (List Byte)) (errors : List MemError) (s : State) :
    stance (evPkJobEnd p choices errors s) = stance s := by
  unfold evPkJobEnd
  dsimp only
  split <;> simp

/-! ### The timebase -/

@[simp] theorem requestStep_stance (b : Nat) (cmd : Option Nat) (remeasure : Bool) (s : State) : stance (requestStep b cmd remeasure s) = stance s := by
  simp [requestStep, apply_ite stance]

@[simp] theorem startSlew_stance (s : State) : stance (startSlew s) = stance s := rfl

@[simp] theorem runRefResume_stance (c : Cmd) (i : Nat) (s : State) : stance (runRefResume c i s).1 = stance s := by
  simp only [runRefResume]
  split_ifs <;> simp

@[simp] theorem declareLoss_stance (cause dac : Nat) (s : State) : stance (declareLoss cause dac s) = stance s := by
  simp only [declareLoss]
  repeat' split
  all_goals simp

theorem evRefMissingEdge_stance (dac : Nat) (s : State) : stance (evRefMissingEdge dac s) = stance s := by simp [evRefMissingEdge]

theorem evRefFreqCheck_stance (dac : Nat) (ppb : Int) (s : State) : stance (evRefFreqCheck dac ppb s) = stance s := by
  simp [evRefFreqCheck, apply_ite stance]

theorem evRefQualExpiry_stance (ppb : Int) (s : State) : stance (evRefQualExpiry ppb s) = stance s := by
  simp [evRefQualExpiry, apply_ite stance]

theorem evJumpKnown_stance (measured : Int) (s : State) : stance (evJumpKnown measured s) = stance s := by
  simp only [evJumpKnown]
  generalize (match s.time.resume with
      | some r => !r.step
      | none => s.time.returnPolicy.1 == 1 && (heldResumes s).isEmpty) = slew
  generalize (match s.time.resume with
      | some r => r.step
      | none => s.time.returnPolicy.1 == 2 && (heldResumes s).isEmpty) = step
  repeat' split
  all_goals simp

theorem evSlewEnd_stance (s : State) : stance (evSlewEnd s) = stance s := by simp [evSlewEnd, apply_ite stance]

theorem evTimeSyncTimeout_stance (id : Nat) (s : State) : stance (evTimeSyncTimeout id s) = stance s := by simp [evTimeSyncTimeout, apply_ite stance]

theorem evPpsInEdge_stance (cycle tap : Nat) (s : State) : stance (evPpsInEdge cycle tap s) = stance s := by
  simp [evPpsInEdge, apply_ite stance]

theorem evPpsMissingTimeout_stance (s : State) : stance (evPpsMissingTimeout s) = stance s := by simp [evPpsMissingTimeout, apply_ite stance]

/-! ### Locks and unlocks -/

theorem evUnlockDetected_stance (k : Nat) (jrem : Int) (s : State) : stance (evUnlockDetected k jrem s) = stance s := by
  unfold evUnlockDetected
  split
  · rfl
  · extract_lets u x step cmd dac s0 s1 s2 s3
    have h0 : stance s0 = stance s := by
      dsimp only [s0]
      split_ifs <;> rfl
    have h1 : stance s1 = stance s := by
      dsimp only [s1]
      clear_value cmd s0
      split
      · split
        · exact h0
        · exact (completeId_stance ..).trans h0
      · exact h0
    simp [↓stance_mk, s3, s2, apply_ite stance, stance_core (latchGint_core ..), stance_core (reportUnlock_core ..), h1]

theorem evLockAttemptFail_stance (s : State) : stance (evLockAttemptFail s) = stance s := by simp [evLockAttemptFail, apply_ite stance]

theorem evStepBoundary_stance (measured : Int) (s : State) : stance (evStepBoundary measured s) = stance s := by
  unfold evStepBoundary
  split
  · rfl
  · split
    · rfl
    · split
      · dsimp only
        split <;> simp
      · simp [↓stance_mk, stance_core (reportUnlock_core ..)]

@[simp] theorem firstLock_stance (edge band : Nat) (s : State) : stance (firstLock edge band s) = stance s := by
  simp only [firstLock, endFault_stance, setMaint_stance, skipGap_stance, gapStart_stance, setTime_stance]
  rfl

theorem evLockConfirmed_stance (edge band : Nat) (s : State) : stance (evLockConfirmed edge band s) = stance s := by
  unfold evLockConfirmed
  extract_lets t n v isStep moved s1 s2 s3
  split
  · rfl
  · split
    · exact firstLock_stance ..
    · have h2 : stance s2 = stance s := by simp [s2, s1, apply_ite stance, ↓stance_mk]
      have h3 : stance s3 = stance s := by
        dsimp only [s3]
        clear_value s2
        repeat' split
        all_goals simp [h2, stance_core (reportStep_core ..)]
      simp [h3, stance_core (reportRelock_core ..)]

@[simp] theorem startSpllConfig_stance (c : Cmd) (s : State) : stance (startSpllConfig c s) = stance s := by
  unfold startSpllConfig
  extract_lets u s0 s1 count place s2
  have h0 : stance s0 = stance s := by simp [s0, apply_ite stance]
  have h1 : stance s1 = stance s := by simp [s1, apply_ite stance, h0]
  exact h1

@[simp] theorem captureApply_stance (w : SyncWait) (n : Nat) (s : State) : stance (captureApply w n s) = stance s := by simp [captureApply]

theorem evSyncEdgeCapture_stance (pps : Bool) (s : State) : stance (evSyncEdgeCapture pps s) = stance s := by
  unfold evSyncEdgeCapture
  split
  · rfl
  · refine (stance_foldl _ _ _ fun a w => ?_).trans (setTime_stance ..)
    split_ifs <;> simp

@[simp] theorem rephaseApply_stance (x : ApplyCapture) (s : State) : stance (rephaseApply x s) = stance s := by
  simp only [rephaseApply, skipGap_stance, gapStart_stance, stance_core (invAtNew_core ..), renumber_stance]
  rfl

theorem evTimebaseRephase_stance (edge band : Nat) (s : State) : stance (evTimebaseRephase edge band s) = stance s := by
  unfold evTimebaseRephase
  extract_lets t v n passed s1 s2 s3 w
  split
  · have h2 : stance s2 = stance s := by simp [s2, s1, ↓stance_mk, stance_core (invAtNew_core ..)]
    have h3 : stance s3 = stance s := by simp [s3, apply_ite stance, h2]
    rw [stance_foldl _ _ _ fun _ _ => completeId_stance .., endFault_stance, skipGap_stance, h3]
  · split
    · split_ifs
      · exact rephaseApply_stance ..
      · rfl
    · rfl

/-! ### The monitor converter, maintenance, the display and the pool -/

@[simp] theorem mcDeliver_stance (r : McConversion) (volts : Rat) (given : Int) (overload : Bool) (s : State) :
    stance (mcDeliver r volts given overload s) = stance s := by
  simp only [mcDeliver]
  split <;>
    simp [apply_ite stance, stance_core (mcNotices_core ..), stance_core (mcHistory_core ..), stance_core (protect_core ..)]

theorem evMcConversionEnd_stance (volts : Rat) (value : Int) (overload : Bool) (s : State) :
    stance (evMcConversionEnd volts value overload s) = stance s := by
  simp only [evMcConversionEnd]
  split
  · rfl
  · simp only [stance_core (mcNext_core ..), stance_core (applySequence_core ..), apply_ite stance, setMc_stance, mcDeliver_stance, ite_self]

theorem evScrubPassEnd_stance (found : List (Nat × Nat × List Nat)) (s : State) : stance (evScrubPassEnd found s) = stance s := by
  unfold evScrubPassEnd
  split
  · rfl
  · extract_lets parts of_ bad payload s1 pool s2
    have h1 : stance s1 = stance s := stance_foldl _ _ _ fun _ _ => stance_core (scrubbed_core ..)
    simp [s2, apply_ite stance, ↓stance_mk, h1]

/-- A measurement goes from channel to channel. -/
theorem core_blocks (l : List Nat) (f : List Word × State → Nat → List Word × State) (r : List Word × State)
    (h : ∀ r ch, core (f r ch).2 = core r.2) : core (l.foldl f r).2 = core r.2 := by
  induction l generalizing r with
  | nil => rfl
  | cons ch t ih => exact (ih _).trans (h r ch)

theorem evCalMeasureEnd_stance (volts : List Volts) (s : State) : stance (evCalMeasureEnd volts s) = stance s := by
  unfold evCalMeasureEnd
  extract_lets u
  have hu : stance u = stance s := bringVolts_stance ..
  split
  · exact hu
  · split
    · split
      · exact hu
      · rw [completeId_stance, endActivity_stance, ← hu]
        exact stance_core (core_blocks _ _ _ fun r ch => measureBlock_core ..)
    · exact hu

@[simp] theorem breakMeasure_stance (st : Status) (s : State) : stance (breakMeasure st s) = stance s := stance_ends (ends_breakMeasure ..)

theorem evActivityStart_stance (s : State) : stance (evActivityStart s) = stance s := by
  have armed : ∀ (l : List Nat) (e c : Nat) (w : Option Nat) (u : State), stance (l.foldl (fun b n => armTdc e c w n b) u) = stance u :=
    fun l e c w u => stance_foldl l _ u fun _ _ => stance_core (armTdc_core ..)
  unfold evActivityStart
  repeat' split
  all_goals simp [armed, stance_core (startMeasure_core ..), stance_core (countStart_core ..)]

@[simp] theorem leaveRun_stance (m : DispMode) (ids : List Nat) (s : State) : stance (leaveRun m ids s) = stance s := by
  simp only [leaveRun]
  rw [stance_foldl _ _ _ fun _ _ => completeId_stance ..]
  split_ifs
  · rw [stance_foldl _ _ _ fun _ _ => completeId_stance ..]
    rfl
  · rfl

theorem evDispFrameStart_stance (k : Nat) (complete : Bool) (errors : List MemError) (s : State) :
    stance (evDispFrameStart k complete errors s) = stance s := by
  simp only [evDispFrameStart]
  repeat' split
  all_goals
    simp [stance_core (beginPeriod_core ..), stance_core (trimRefs_core ..), stance_core (compose_core ..), stance_core (linkResetNow_core ..)]

@[simp] theorem endPanel_stance (payload : List Word) (s : State) : stance (endPanel payload s) = stance s := by
  unfold endPanel
  split <;> simp

theorem evPanelCmdSend_stance (errorReport : Bool) (response : Option (List Byte)) (s : State) :
    stance (evPanelCmdSend errorReport response s) = stance s := by
  simp only [evPanelCmdSend]
  repeat' split
  all_goals simp

theorem evPanelRespTimeout_stance (s : State) : stance (evPanelRespTimeout s) = stance s := by simp [evPanelRespTimeout, apply_ite stance]

theorem evMemFreeRelease_stance (slot : Nat) (s : State) : stance (evMemFreeRelease slot s) = stance s := by
  unfold evMemFreeRelease
  repeat' split
  all_goals simp [stance_core (releasePart_core ..)]

theorem evMemTransferEnd_stance (cmd : Nat) (ok : Bool) (hostData : List Byte) (errors : List MemError) (s : State) :
    stance (evMemTransferEnd cmd ok hostData errors s) = stance s := by
  simp only [evMemTransferEnd]
  repeat' split
  all_goals
    simp [stance_core (refuseEffects_core ..), stance_core (poolWrite_core ..), stance_core (usedFree_core ..)]

end Sys2Proof.Machine
end

section
/-! The operations that move the role of the device or its mode, and those of the control complex: each keeps the invariant of the roles. -/

namespace Sys2Proof.Machine

/-- An operation keeps the invariant of the roles. -/
def KeepsRole (f : State → State) : Prop := ∀ s : State, s.roleFits = true → (f s).roleFits = true

theorem keepsRole_of_stance {f : State → State} (h : ∀ s, stance (f s) = stance s) : KeepsRole f :=
  fun s hs => (roleFits_stance (h s)).trans hs

theorem roleFits_iff {s : State} :
    s.roleFits = true ↔ (s.pair.role = .mirror ↔ s.mode = .shadow) ∧ s.shadowed ≠ .shadow ∧ s.pair.joinMode ≠ .shadow := by
  simp only [State.roleFits, Bool.and_eq_true, bne_iff_ne, and_assoc]
  refine and_congr ?_ Iff.rfl
  rw [beq_iff_eq, Bool.eq_iff_iff, beq_iff_eq, beq_iff_eq]

/-- The invariant, told of the stance. -/
theorem roleFits_of_stance {s : State} {m sh jm : Mode} {r : Role} (h : stance s = (m, sh, r, jm)) (hr : r = .mirror ↔ m = .shadow) (hs : sh ≠ .shadow)
    (hj : jm ≠ .shadow) : s.roleFits = true := by
  simp only [stance, Prod.mk.injEq] at h
  obtain ⟨rfl, rfl, rfl, rfl⟩ := h
  exact roleFits_iff.mpr ⟨hr, hs, hj⟩

theorem hasMirror_primary {s : State} (h : hasMirror s = true) : s.pair.role = .primary := by
  simp only [hasMirror, Bool.and_eq_true, beq_iff_eq] at h
  exact h.1.1

/-! ### Modes and layouts -/

theorem setRunMode_keeps {m : Mode} (hm : m ≠ .shadow) : KeepsRole (setRunMode m) := by
  intro s hs
  obtain ⟨hr, hsh, hj⟩ := roleFits_iff.mp hs
  unfold setRunMode
  split
  · exact roleFits_iff.mpr ⟨hr, hm, hj⟩
  · next h => exact roleFits_iff.mpr ⟨⟨fun hp => absurd (hr.mp hp) h, fun h => absurd h hm⟩, hsh, hj⟩

theorem setRunMode_same {m : Mode} {s : State} (h : runMode s = m) : setRunMode m s = s := by
  subst h
  unfold setRunMode runMode
  split_ifs <;> rfl

theorem ends_ite {p : Prop} [Decidable p] {s a b : State} (ha : Ends s a) (hb : Ends s b) : Ends s (if p then a else b) := by
  split_ifs
  · exact ha
  · exact hb

theorem ends_leaveCalibrate (e : Nat) (s : State) : Ends s (leaveCalibrate e s) :=
  ((ends_core (core_mk ..)).trans (ends_breakMeasure ..)).trans (ends_core ((dwellDue_core ..).trans (setMaint_core ..)))

/-- A change of mode sets the mode in which units run, and moves units before and after (R107, R109). -/
theorem changeMode_ends (m : Mode) (e : Nat) (s : State) : ∃ u, Ends s u ∧ Ends (setRunMode m u) (changeMode m e s) := by
  unfold changeMode
  extract_lets old s1 s2 s3 s4 s5
  split
  · next h => exact ⟨s, Ends.refl s, (setRunMode_same h).symm ▸ Ends.refl s⟩
  · have h1 : Ends s s1 := ends_ite (ends_core (intAct_core ..)) (Ends.refl s)
    have h2 : Ends s1 s2 := ends_ite ((ends_stopProducts ..).trans (ends_core (stopSlots_core ..))) (Ends.refl s1)
    have h4 : Ends s3 s4 := ends_ite (ends_core (startProducts_core ..)) (Ends.refl s3)
    have h5 : Ends s4 s5 := ends_ite (ends_core (intAct_core ..)) (Ends.refl s4)
    have h6 := ends_ite (p := m = .calibrate) (ends_core (dropDwell_core s5)) (ends_ite (p := old = .calibrate) (ends_leaveCalibrate e s5) (Ends.refl s5))
    exact ⟨s2, h1.trans h2, (h4.trans h5).trans h6⟩

theorem setRunMode_congr {m : Mode} {s t : State} (h : stance t = stance s) : stance (setRunMode m t) = stance (setRunMode m s) := by
  simp only [stance, Prod.mk.injEq] at h
  obtain ⟨hm, hs, hr, hj⟩ := h
  by_cases h : s.mode = .shadow
  · simp [setRunMode, stance, hm, hr, hj, h]
  · simp [setRunMode, stance, hm, hs, hr, hj, h]

theorem changeMode_stance (m : Mode) (e : Nat) (s : State) : stance (changeMode m e s) = stance (setRunMode m s) := by
  obtain ⟨u, hu, hc⟩ := changeMode_ends m e s
  rw [stance_ends hc, setRunMode_congr (stance_ends hu)]

theorem changeMode_keeps {m : Mode} (hm : m ≠ .shadow) (e : Nat) : KeepsRole (changeMode m e) :=
  fun s hs => (roleFits_stance (changeMode_stance m e s)).trans (setRunMode_keeps hm s hs)

theorem ends_loseContext (n e : Nat) (s : State) : Ends s (loseContext n e s) := by
  have rewind (s : State) : Ends s (endRewind n .markLost s) := by
    unfold endRewind
    split
    · exact Ends.refl s
    · exact (ends_core (setCtx_core ..)).trans (ends_completeId ..)
  have waits (s : State) : Ends s (dropMarkWaits n s) :=
    (ends_core (setCtx_core ..)).trans (ends_foldl _ _ _ fun _ _ => ends_completeId ..)
  exact (((ends_core (endCtxRun_core ..)).trans (rewind _)).trans (waits _)).trans (ends_core (setCtx_core ..))

/-- A memory that is let go leaves its users without it, and ends the commands that wait for them. -/
theorem ends_unbindAll (h : Word) (e : Nat) (s : State) : Ends s (unbindAll h e s) := by
  unfold unbindAll
  extract_lets u s1 s2 s3 s4 s5 b s6 s7 s8
  have h1 : Ends u s1 := ends_foldl _ _ _ fun _ _ =>
    ends_ite (ends_core ((checkIntSource_core ..).trans ((setEngine_core ..).trans (endGrid_core ..)))) (Ends.refl _)
  have h2 : Ends s1 s2 := ends_foldl _ _ _ fun _ _ => ends_ite (ends_core ((setDens_core ..).trans (endDensity_core ..))) (Ends.refl _)
  have h3 : Ends s2 s3 := ends_foldl _ _ _ fun _ _ => ends_ite (ends_core ((setSpgm_core ..).trans (emitLine_core ..))) (Ends.refl _)
  have h4 : Ends s3 s4 := ends_foldl _ _ _ fun _ r =>
    (ends_core (endRun_core r.kind r.unit 2 e _)).trans
      ((ends_foldl _ _ _ fun _ _ => ends_ite (ends_core (completeAll_core ..)) (Ends.refl _)).trans (ends_core (core_mk ..)))
  have h5 : Ends s4 s5 := ends_foldl _ _ _ fun _ _ =>
    ends_ite (ends_core ((setSheaf_core ..).trans ((completeAll_core ..).trans (closeSegment_core ..)))) (Ends.refl _)
  have h6 : Ends s5 s6 := ends_ite (ends_core ((setInt_core ..).trans ((stopInt_core ..).trans (intBefore_core ..)))) (Ends.refl _)
  have h7 : Ends s6 s7 := ends_foldl _ _ _ fun _ _ => ends_ite (ends_core ((setTh_core ..).trans (endThReports_core ..))) (Ends.refl _)
  have h8 : Ends s7 s8 := ends_foldl _ _ _ fun _ _ => ends_ite (ends_loseContext ..) (Ends.refl _)
  have h9 := ends_ite (p := (s8.mq.handle == h) = true)
    (ends_core ((mqBind_core h _).trans ((setMq_core (fun m => { m with handle := 0 }) _).trans (mqFlush_core s8)))) (Ends.refl s8)
  exact (ends_decideTo ..).trans (h1.trans (h2.trans (h3.trans (h4.trans (h5.trans (h6.trans (h7.trans (h8.trans h9))))))))

theorem ends_layoutSlot (m : Mode) (e slot : Nat) (r : State × Nat) : Ends r.1 (layoutSlot m e slot r).1 := by
  unfold layoutSlot
  dsimp only
  split
  · exact ends_core (addRole_core ..)
  · split_ifs
    · exact ends_core (setPart_core ..)
    · exact Ends.refl _
    · exact (ends_unbindAll ..).trans (ends_core ((addRole_core ..).trans (dropPart_core ..)))

theorem ends_applyLayout (m : Mode) (e : Nat) (s : State) : Ends s (applyLayout m e s).1 := by
  have fold : ∀ (l : List Nat) (r : State × Nat), Ends r.1 (l.foldl (fun r i => layoutSlot m e (i + 1) r) r).1 := by
    intro l
    induction l with
    | nil => exact fun r => Ends.refl r.1
    | cons i t ih => exact fun r => (ends_layoutSlot ..).trans (ih _)
  exact fold (List.range 7) (s, 0)

@[simp] theorem applyLayout_stance (m : Mode) (e : Nat) (s : State) : stance (applyLayout m e s).1 = stance s := stance_ends (ends_applyLayout ..)

/-! ### Commands that arrive -/

@[simp] theorem submitCmd_stance (p : Packet) (s : State) : stance (submitCmd p s) = stance s := rfl

theorem evCommandFetch_stance (q : Fin 16) (got : Fetched) (s : State) : stance (evCommandFetch q got s) = stance s := by
  unfold evCommandFetch
  dsimp only
  repeat' split
  all_goals simp [↓stance_mk, stance_core (stopQp_core ..)]

theorem spiTransaction_stance (code : Byte) (bytes : List Byte) (cut : Bool) (s : State) : stance (spiTransaction code bytes cut s) = stance s := by
  unfold spiTransaction
  split
  · unfold spiSubmit
    repeat' split
    all_goals rfl
  · exact stance_core (spiReadReply_core ..)
  · exact stance_core (spiReadStatus_core ..)
  · rfl

theorem ctlPacket_stance (snd : Sender) (words : List Word) (s : State) : stance (ctlPacket snd words s) = stance s := by
  unfold ctlPacket
  dsimp only
  repeat' split
  · exact stance_core (sendDatagram_core ..)
  · rfl
  · exact stance_core (sendDatagram_core ..)
  · rfl

theorem evCtlportDatagram_stance (snd : Sender) (udp : Nat) (bytes : List Byte) (s : State) : stance (evCtlportDatagram snd udp bytes s) = stance s := by
  unfold evCtlportDatagram
  dsimp only
  repeat' split
  · exact stance_core (discardRx_core ..)
  · exact (stance_mk ..).trans (stance_core (countRx_core ..))
  · rw [stance_foldl _ _ _ fun _ _ => ctlPacket_stance .., stance_mk]
    exact stance_core (countRx_core ..)

end Sys2Proof.Machine
end

section
/-! The pair and the control complex: what yields, takes over, joins, leaves or resets keeps the invariant of the roles. -/

namespace Sys2Proof.Machine

/-- What the pair keeps beside its role and the mode of a join is no matter of the roles. -/
theorem setPair_stance {f : PairUnit → PairUnit} (s : State)
    (h : ∀ p, (f p).role = p.role ∧ (f p).joinMode = p.joinMode := by exact fun _ => ⟨rfl, rfl⟩) : stance (setPair f s) = stance s := by
  simp only [stance, setPair, h]

theorem setPair_keeps {f : PairUnit → PairUnit} {s : State} (hs : s.roleFits = true)
    (h : ∀ p, (f p).role = p.role ∧ (f p).joinMode = p.joinMode := by exact fun _ => ⟨rfl, rfl⟩) : (setPair f s).roleFits = true :=
  (roleFits_stance (setPair_stance s h)).trans hs

/-! ### Yielding (R600, R603, R608) -/

/-- A primary that yields is SOLO, in the mode that it had. -/
theorem depose_stance (s : State) : stance (depose s) = (s.mode, s.shadowed, .solo, s.pair.joinMode) := rfl

theorem depose_primary {s : State} (hp : s.pair.role = .primary) (hs : s.roleFits = true) : (depose s).roleFits = true := by
  obtain ⟨hr, hsh, hj⟩ := roleFits_iff.mp hs
  refine roleFits_of_stance (depose_stance s) ⟨nofun, fun h => ?_⟩ hsh hj
  rw [hr.mpr h] at hp
  cases hp

theorem yieldNow_primary {s : State} (hp : s.pair.role = .primary) (hs : s.roleFits = true) : (yieldNow s).roleFits = true :=
  depose_primary (s := emit .pairYield s) hp hs

theorem yieldClass_keeps (cls : Nat) : KeepsRole (yieldClass cls) := by
  intro s hs
  unfold yieldClass
  split
  · next h => exact yieldNow_primary (hasMirror_primary ((Bool.and_eq_true _ _).mp h).1) hs
  · exact hs

theorem evEgressDownTimeout_keeps (port : Nat) : KeepsRole (evEgressDownTimeout port) := by
  intro s hs
  unfold evEgressDownTimeout
  dsimp only
  split
  · exact yieldClass_keeps 2 s hs
  · exact hs

theorem evTakeoverRequestReceive_keeps : KeepsRole evTakeoverRequestReceive := by
  intro s hs
  unfold evTakeoverRequestReceive
  split
  · next h => exact yieldNow_primary (beq_iff_eq.mp ((Bool.and_eq_true _ _).mp h).2) hs
  · exact hs

theorem yieldFaults_keeps (old : State) : KeepsRole (yieldFaults old) := by
  have step : ∀ (b : Bool) (cls : Nat) (u : State), u.roleFits = true → (if b then yieldClass cls u else u).roleFits = true := by
    intro b cls u hu
    cases b
    · exact hu
    · exact yieldClass_keeps cls u hu
  exact fun s hs => step _ 1 _ (step _ 0 s hs)

/-! ### Takeover (R599, R601, R604) -/

theorem resumeCtx_stance (n : Nat) (s : State) : stance (resumeCtx n s) = stance s := by
  have pass : stance (passLastSent n s) = stance s := stance_core (passLastSent_core ..)
  unfold resumeCtx
  dsimp only
  repeat' split
  · rw [stance_core (loseItemMarks_core ..), setPair_stance, stance_core (renumberItems_core ..), pass]
  · rw [stance_core (loseItemMarks_core ..), pass]
  · exact pass
  · exact pass

/-- The mirror that takes over is PRIMARY in the mode that it shadowed. -/
theorem takeOver_stance (cause : Nat) (s : State) : stance (takeOver cause s) = (s.shadowed, s.shadowed, .primary, s.pair.joinMode) := by
  unfold takeOver
  extract_lets held word mute s1 s2 s3
  have h2 : stance s2 = (s.shadowed, s.shadowed, .primary, s.pair.joinMode) := stance_core (announce_core ..)
  have h3 : stance s3 = stance s2 := by
    dsimp only [s3]
    split
    · rfl
    · exact stance_foldl _ _ _ fun a n => by simp [apply_ite stance, resumeCtx_stance]
  rw [notify_stance, bbWrite_stance]
  exact h3.trans h2

theorem takeOver_keeps (cause : Nat) : KeepsRole (takeOver cause) := by
  intro s hs
  obtain ⟨-, hsh, hj⟩ := roleFits_iff.mp hs
  exact roleFits_of_stance (takeOver_stance cause s) ⟨nofun, fun h => absurd h hsh⟩ hsh hj

theorem evYieldReceive_keeps : KeepsRole evYieldReceive := by
  intro s hs
  unfold evYieldReceive
  split
  · exact takeOver_keeps 0 s hs
  · exact hs

theorem evHeartbeatTimeout_keeps : KeepsRole evHeartbeatTimeout := by
  intro s hs
  unfold evHeartbeatTimeout
  dsimp only
  repeat' split
  · exact hs
  · exact setPair_keeps hs
  · exact hs
  · exact takeOver_keeps 1 _ (setPair_keeps hs)

theorem evPartnerStrobeTimeout_keeps : KeepsRole evPartnerStrobeTimeout := by
  intro s hs
  unfold evPartnerStrobeTimeout
  dsimp only
  have h1 : (setPair (fun p => { p with strobeSeen := false }) s).roleFits = true := setPair_keeps hs
  split
  · exact takeOver_keeps 1 _ h1
  · exact h1

theorem mirrorSwitch_keeps (w : Nat) : KeepsRole (mirrorSwitch w) := by
  intro s hs
  unfold mirrorSwitch
  split
  · exact setPair_keeps (takeOver_keeps 3 s hs)
  · exact hs

/-! ### Heartbeats and the link (R582, R585, R587) -/

theorem evLiveStall_stance (s : State) : stance (evLiveStall s) = stance s := by
  unfold evLiveStall
  split <;> rfl

theorem evPartnerStrobeEdge_stance (s : State) : stance (evPartnerStrobeEdge s) = stance s := by
  unfold evPartnerStrobeEdge
  split <;> rfl

theorem evHeartbeatSend_stance (s : State) : stance (evHeartbeatSend s) = stance s := by
  unfold evHeartbeatSend
  dsimp only
  repeat' split
  all_goals rfl

/-- A SOLO device that sees a mirror is PRIMARY. -/
theorem seeMirror_keeps (hb : Heartbeat) : KeepsRole (seeMirror hb) := by
  intro s hs
  obtain ⟨hr, hsh, hj⟩ := roleFits_iff.mp hs
  unfold seeMirror
  dsimp only
  split
  · exact setPair_keeps hs
  · next h =>
    have hm : s.mode ≠ .shadow := fun e => h (beq_iff_eq.mpr (hr.mpr e))
    have fits : ∀ u : State, stance u = (s.mode, s.shadowed, .primary, s.pair.joinMode) → u.roleFits = true := fun u hu =>
      roleFits_of_stance hu ⟨nofun, fun h => absurd h hm⟩ hsh hj
    split <;> refine fits _ ?_ <;> rfl

theorem checkSkew_stance (s : State) : stance (checkSkew s) = stance s := by
  unfold checkSkew
  split
  · exact notify_stance ..
  · rfl

theorem leaveSoon_stance (id : Option Nat) (s : State) : stance (leaveSoon id s) = stance s := by
  unfold leaveSoon
  split <;> rfl

theorem evHeartbeatReceive_keeps (hb : Heartbeat) : KeepsRole (evHeartbeatReceive hb) := by
  intro s hs
  unfold evHeartbeatReceive
  extract_lets s1 s2
  have h1 : stance s1 = stance s := by unfold s1; exact setPair_stance s
  have h2 : stance s2 = stance s := by unfold s2; exact (setPair_stance s1).trans h1
  clear_value s1 s2
  split
  · exact hs
  · split
    · exact seeMirror_keeps hb s hs
    · refine (roleFits_stance ?_).trans hs
      repeat' split
      · exact h1
      · exact h2
      · exact (leaveSoon_stance ..).trans h2
      · rw [checkSkew_stance, stance_foldl _ _ _ fun _ _ => stance_core (passLastSent_core ..), h2]

/-- A mirror that leaves is SOLO in QUIET (R610). -/
theorem leaveMirror_stance (e : Nat) (s : State) : stance (leaveMirror e s) = (.quiet, .quiet, .solo, s.pair.joinMode) := by
  have h : stance (changeMode .quiet e s) = stance (setRunMode .quiet s) := changeMode_stance ..
  have hj : (setRunMode .quiet s).pair.joinMode = s.pair.joinMode := by
    unfold setRunMode
    split_ifs <;> rfl
  simp only [stance, Prod.mk.injEq] at h
  simp only [leaveMirror, stance, setPair, h.2.2.2, hj]

theorem leaveMirror_keeps (e : Nat) : KeepsRole (leaveMirror e) := fun s hs =>
  roleFits_of_stance (leaveMirror_stance e s) ⟨nofun, nofun⟩ (by decide) (roleFits_iff.mp hs).2.2

theorem evPairLinkTrained_keeps (latency : Nat) (v : Variant) (compat : Nat) (later : Bool) : KeepsRole (evPairLinkTrained latency v compat later) := by
  intro s hs
  unfold evPairLinkTrained
  extract_lets s1
  have h1 : s1.roleFits = true := by unfold s1; exact setPair_keeps hs
  repeat' split
  · exact hs
  · exact setPair_keeps hs
  · next h => exact depose_primary (s := s1) (beq_iff_eq.mp ((Bool.and_eq_true _ _).mp h).1) h1
  · exact setPair_keeps h1
  · exact h1

theorem linkDown_keeps : KeepsRole linkDown := by
  intro s hs
  unfold linkDown
  extract_lets s1
  have h1 : s1.roleFits = true := by unfold s1; exact setPair_keeps hs
  split
  · exact (roleFits_stance (completeId_stance ..)).trans (leaveMirror_keeps _ s1 h1)
  · exact setPair_keeps h1
  · exact h1

theorem evPairLinkDown_keeps : KeepsRole evPairLinkDown := by
  intro s hs
  unfold evPairLinkDown
  split
  · exact hs
  · exact linkDown_keeps s hs

theorem evPairLaneFail_stance (s : State) : stance (evPairLaneFail s) = stance s := by
  unfold evPairLaneFail
  split <;> rfl

theorem evPairRelayPacket_stance (entry : Nat) (bytes : List Byte) (s : State) : stance (evPairRelayPacket entry bytes s) = stance s := by
  unfold evPairRelayPacket
  repeat' split
  · rfl
  · exact sendTo_stance ..
  · rfl
  · rfl

/-! ### Forwarded commands (R589-R594) -/

theorem evForwardedCommand_stance (f : Forwarded) (s : State) : stance (evForwardedCommand f s) = stance s := by
  unfold evForwardedCommand
  extract_lets c s1
  have h1 : stance s1 = stance s := rfl
  have hd : ∀ m, stance (diverge m s1) = stance s := fun m => (stance_ends (ends_diverge ..)).trans h1
  repeat' split
  · rfl
  · rw [emit_stance, stance_core (poolWrite_core ..), h1]
  · exact hd _
  · exact hd _
  · rfl

theorem compareStatus_stance (r : ForwardRecord) (s : State) : stance (compareStatus r s) = stance s := by
  unfold compareStatus
  dsimp only
  split
  · exact stance_ite ((notify_stance ..).trans rfl) (stance_ite rfl rfl)
  · rfl

theorem compareAll_stance (s : State) : stance (compareAll s) = stance s := stance_foldl _ _ s fun _ _ => compareStatus_stance ..

theorem evMirrorStatusReturn_stance (mseq : Nat) (st : Status) (s : State) : stance (evMirrorStatusReturn mseq st s) = stance s := by
  unfold evMirrorStatusReturn
  split <;> rfl

theorem evMirrorStateReceive_stance (m : MirrorState) (s : State) : stance (evMirrorStateReceive m s) = stance s := by
  unfold evMirrorStateReceive
  split
  · rfl
  · cases m with
    | checkpoint n seq cell ends =>
      dsimp only
      split
      · exact (stance_core (renumberCells_core ..)).trans rfl
      · rfl
    | stepBoundary b =>
      dsimp only
      split
      · rfl
      · split
        · exact requestStep_stance ..
        · rfl
    | switchIndex w => rfl

/-! ### Joining (R597) -/

theorem takeSnapshot_stance (fwd : Cmd → Bool) (x : Snapshot) (s : State) : stance (takeSnapshot fwd x s) = stance s := rfl

/-- A snapshot brings no SHADOW. -/
theorem evSnapshotReceive_keeps (fwd : Cmd → Bool) (x : Snapshot) : KeepsRole (evSnapshotReceive fwd x) := by
  intro s hs
  unfold evSnapshotReceive
  dsimp only
  split
  · exact hs
  · next h =>
    split
    · split
      · exact (roleFits_stance (completeId_stance ..)).trans (leaveMirror_keeps _ s hs)
      · exact leaveMirror_keeps _ s hs
    · have hx : x.mode ≠ .shadow := by
        intro e
        simp [e] at h
      obtain ⟨hr, hsh, -⟩ := roleFits_iff.mp hs
      exact roleFits_of_stance (s := setPair _ (takeSnapshot fwd x s)) rfl hr hsh hx

/-- At the join index the mirror shadows the mode of the snapshot. -/
theorem evJoinIndex_keeps (j : Nat) : KeepsRole (evJoinIndex j) := by
  intro s hs
  unfold evJoinIndex
  extract_lets early s1 s2 s3
  split
  · exact hs
  · have h1 : s1.roleFits = true := by
      obtain ⟨hr, -, hj⟩ := roleFits_iff.mp hs
      exact roleFits_iff.mpr ⟨hr, hj, hj⟩
    have h3 : stance s3 = stance s1 := by
      have h2 : stance s2 = stance s1 := by simp [s2, apply_ite stance, stance_core (joinUnits_core ..)]
      exact h2
    have hf : s3.roleFits = true := (roleFits_stance h3).trans h1
    split
    · exact (roleFits_stance (completeId_stance ..)).trans hf
    · exact hf

/-- The primary that hands over is a mirror, and shadows the mode that it had. -/
theorem switchRoles_keeps {w : Nat} {s : State} (h : s.pair.role = .primary) (hs : s.roleFits = true) : (switchRoles w s).roleFits = true := by
  obtain ⟨hr, hsh, hj⟩ := roleFits_iff.mp hs
  refine roleFits_of_stance (s := switchRoles w s) rfl ⟨fun _ => rfl, fun _ => rfl⟩ (fun e => ?_) hj
  rw [hr.mpr e] at h
  cases h

/-! ### Start-up and resets (R615-R623, R693) -/

theorem runFirmware_stance (slot : Nat) (s : State) : stance (runFirmware slot s) = stance s := by
  simp [runFirmware, ↓stance_mk]

theorem enterRecovery_stance (s : State) : stance (enterRecovery s) = stance s := by
  simp [enterRecovery, ↓stance_mk]

theorem fallbackEntry_stance (failed why booted : Nat) (s : State) : stance (fallbackEntry failed why booted s) = stance s :=
  stance_core (fallbackEntry_core ..)

/-- The black-box entry of a boot that follows a reset. -/
def bootMark (entry : Bool) (s : State) : State := if entry then resetEntry s else s

/-- The state from which a boot goes on: the ROM has looked at the images. -/
def bootStart (s : State) : State := setFw bootVerify { s with bb := { s.bb with fallback := false } }

/-- A boot ends in recovery, or runs the firmware of a slot, which may be the fallback. -/
theorem bootNow_cases (entry : Bool) (s : State) :
    bootNow entry s = enterRecovery (bootMark entry (bootStart s)) ∨
      ∃ slot, bootNow entry s = bootMark entry (runFirmware slot (bootStart s)) ∨
        bootNow entry s = fallbackEntry (otherSlot slot) 0 slot (bootMark entry (runFirmware slot (bootStart s))) := by
  generalize hb : bootNow = boot
  delta bootNow at hb
  subst hb
  beta_reduce
  generalize bootChoice s.hub.fw = choice
  rcases choice with - | ⟨slot, - | -⟩
  · exact .inl rfl
  · exact .inr ⟨slot, .inl rfl⟩
  · exact .inr ⟨slot, .inr rfl⟩

theorem bootMark_stance (entry : Bool) (s : State) : stance (bootMark entry s) = stance s := by
  simp [bootMark, apply_ite stance, stance_core (resetEntry_core ..)]

theorem setFw_stance (f : Firmware → Firmware) (s : State) : stance (setFw f s) = stance s := rfl

theorem bootStart_stance (s : State) : stance (bootStart s) = stance s := by rw [bootStart, setFw_stance, stance_mk]

theorem bootNow_stance (entry : Bool) (s : State) : stance (bootNow entry s) = stance s := by
  rcases bootNow_cases entry s with h | ⟨slot, h | h⟩ <;>
    rw [h] <;> simp [enterRecovery_stance, fallbackEntry_stance, bootMark_stance, runFirmware_stance, bootStart_stance]

theorem evBootStartTimeout_stance (s : State) : stance (evBootStartTimeout s) = stance s := by
  unfold evBootStartTimeout
  dsimp only
  repeat' split
  · rfl
  · rw [fallbackEntry_stance, runFirmware_stance]
    rfl
  · rw [enterRecovery_stance]
    rfl

/-- The device is SOLO in QUIET. -/
def Alone (s : State) : Prop := stance s = (.quiet, .quiet, .solo, .quiet)

theorem Alone.fits {s : State} (h : Alone s) : s.roleFits = true :=
  roleFits_of_stance h (by decide) (by decide) (by decide)

theorem Alone.of_stance {s t : State} (hs : Alone s) (h : stance t = stance s) : Alone t := h.trans hs

theorem powerDown_alone (s : State) : Alone (powerDown s) := by simp [Alone, stance, powerDown, State.power, PairUnit.power]

theorem hubReset_alone (kind : Nat) (s : State) : Alone (hubReset kind s) := by
  simp [Alone, hubReset]
  simp [stance, State.power, PairUnit.power]

theorem reboot_stance (s : State) : stance (reboot s) = stance s := by
  unfold reboot
  rw [bootNow_stance]
  unfold resumeIndex
  split <;> rfl

theorem resetAndBoot_alone (kind : Nat) (s : State) : Alone (resetAndBoot kind s) := (hubReset_alone kind s).of_stance (reboot_stance _)

theorem compatRestart_alone (level : Nat) (s : State) : Alone (compatRestart level s) := by
  refine Alone.of_stance (hubReset_alone 1 s) ?_
  unfold compatRestart
  dsimp only
  rw [applyLayout_stance, stance_foldl _ _ _ fun _ _ => by simp, stance_mk]

theorem evPowerOn_alone (fit : Option FlashImage) (refOk : Bool) (band : Nat) (s : State) : Alone (evPowerOn fit refOk band s) := by
  unfold evPowerOn
  extract_lets s0 s1
  have h0 : Alone s0 := powerDown_alone s
  have h1 : Alone s1 := by
    refine Alone.of_stance ?_ (bootNow_stance ..)
    clear_value s0
    cases fit with
    | none => exact h0
    | some x => exact h0.of_stance (stance_core (fitFlash_core ..))
  clear_value s1
  repeat' split
  · exact h1.of_stance (setTime_stance ..)
  · exact h1.of_stance ((firstLock_stance ..).trans (takeFree_stance ..))
  · exact h1

theorem evResetNLow_keeps : KeepsRole evResetNLow := by
  intro s hs
  unfold evResetNLow
  dsimp only
  repeat' split
  · exact hs
  · exact (roleFits_stance ((setHub_stance ..).trans (setHub_stance ..))).trans hs
  all_goals exact (hubReset_alone ..).fits

theorem evResetNRelease_stance (s : State) : stance (evResetNRelease s) = stance s := by
  unfold evResetNRelease
  dsimp only
  repeat' split
  · rfl
  · rfl
  · exact reboot_stance ..

theorem evThermalTripClear_keeps : KeepsRole evThermalTripClear := by
  intro s hs
  unfold evThermalTripClear
  dsimp only
  repeat' split
  · exact hs
  · exact (hubReset_alone ..).fits
  · exact ((hubReset_alone ..).of_stance (reboot_stance _)).fits
  · exact (roleFits_stance (setHub_stance ..)).trans hs

theorem evPcieReset_stance (s : State) : stance (evPcieReset s) = stance s := (stance_core (clearHostRings_core ..)).trans rfl

theorem evThermalTrip_keeps (input : Nat) (value : Int) : KeepsRole (evThermalTrip input value) := by
  intro s hs
  unfold evThermalTrip
  extract_lets s1 s2 s3 s4
  split
  · exact hs
  · have h2 : stance s2 = stance s := by simp [s2, s1, apply_ite stance]
    have h3 : s3.roleFits = true := (roleFits_stance h2).trans hs
    have h4 : s4.roleFits = true := (roleFits_stance (evPcieReset_stance _)).trans (linkDown_keeps s3 h3)
    clear_value s4
    exact (roleFits_stance (((setHub_stance ..).trans (setDisp_stance ..)).trans (setStrm_stance ..))).trans h4

/-! ### Lockstep pairs, firmware and the debug port -/

theorem resumeService_stance (s : State) : stance (resumeService s) = stance s := by
  unfold resumeService
  split
  · exact stance_foldl _ _ _ fun _ _ => writeReply_stance ..
  · rfl

theorem loseCommand_stance (id : Nat) (s : State) : stance (loseCommand id s) = stance s := by
  unfold loseCommand
  repeat' split
  all_goals simp

theorem haltCore_keeps (p : Nat) (pc : Word) (begun : List Nat) : KeepsRole (haltCore p pc begun) := by
  intro s hs
  unfold haltCore
  extract_lets day halts s1 s2
  refine yieldClass_keeps 3 _ ((roleFits_stance ?_).trans hs)
  have h1 : stance s1 = stance s := by simp [s1, stance_core (lockstepEntry_core ..)]
  have h2 : stance s2 = stance s := (stance_foldl _ _ _ fun _ _ => loseCommand_stance ..).trans h1
  simp [apply_ite stance, stance_core (retireCore_core ..), h2]

theorem evLockstepMismatch_keeps (p : Nat) (pc : Word) (ue : Bool) (begun : List Nat) : KeepsRole (evLockstepMismatch p pc ue begun) := by
  intro s hs
  unfold evLockstepMismatch
  split
  · exact hs
  · refine haltCore_keeps _ _ _ _ ?_
    split
    · exact (roleFits_stance (stance_core (countStore_core ..))).trans hs
    · exact hs

theorem evCoreSelftestEnd_stance (p : Nat) (pass : Bool) (s : State) : stance (evCoreSelftestEnd p pass s) = stance s := by
  unfold evCoreSelftestEnd
  dsimp only
  repeat' split
  · rfl
  · rw [resumeService_stance, stance_core (lockstepEntry_core ..)]
    rfl
  · exact stance_core (retireCore_core ..)

theorem keepsRole_foldl {β : Type} (l : List β) (f : State → β → State) (h : ∀ i, KeepsRole fun s => f s i) : KeepsRole (l.foldl f) := by
  induction l with
  | nil => exact fun _ hs => hs
  | cons x t ih => exact fun s hs => ih _ (h x s hs)

theorem evWatchdogExpiry_keeps (missed : Nat) : KeepsRole (evWatchdogExpiry missed) := by
  intro s hs
  unfold evWatchdogExpiry
  dsimp only
  repeat' split
  · exact hs
  · exact hs
  · exact (resetAndBoot_alone ..).fits
  · exact keepsRole_foldl _ (fun a p => haltCore p 0 [] a) (fun p => haltCore_keeps p 0 []) s hs

theorem evFlashEraseEnd_stance (s : State) : stance (evFlashEraseEnd s) = stance s := by
  unfold evFlashEraseEnd
  split <;> simp

theorem recoveryBoot_stance (c : Cmd) (s : State) : stance (recoveryBoot c s) = stance s := by
  simp [recoveryBoot, apply_ite stance, runFirmware_stance, ↓stance_mk]

theorem evFwImageReady_stance (pause : Nat) (s : State) : stance (evFwImageReady pause s) = stance s := by
  unfold evFwImageReady
  dsimp only
  repeat' split
  all_goals simp

theorem freeRegs_stance (p : Nat) (pc : Option Word) (s : State) : stance (freeRegs p pc s) = stance s := stance_core (freeRegs_core ..)

theorem debugHalt_stance (p cause number : Nat) (pc : Option Word) (begun : List Nat) (s : State) : stance (debugHalt p cause number pc begun s) = stance s := by
  unfold debugHalt
  dsimp only
  split
  · rfl
  · rw [stance_foldl _ _ _ fun _ _ => loseCommand_stance .., stance_core (debugEntry_core ..), freeRegs_stance]
    rfl

theorem writeDctrl_stance (p : Nat) (v : Word) (begun : List Nat) (s : State) : stance (writeDctrl p v begun s) = stance s := by
  have resume : ∀ u, stance (debugResume p u) = stance u := by
    intro u
    unfold debugResume
    split
    · rfl
    · rw [resumeService_stance, stance_core (debugEntry_core ..)]
      rfl
  simp [writeDctrl, apply_ite stance, debugHalt_stance, resume, stance_core (debugStep_core ..)]

theorem writeCoreReg_stance (p off : Nat) (v : Word) (begun : List Nat) (s : State) : stance (writeCoreReg p off v begun s) = stance s := by
  simp [writeCoreReg, apply_ite stance, writeDctrl_stance]

theorem dbgStore_stance (space addr : Nat) (v : Word) (begun : List Nat) (s : State) : stance (dbgStore space addr v begun s) = stance s := by
  unfold dbgStore
  repeat' split
  · rfl
  · exact stance_core (writeReg_core ..)
  · rfl
  · rfl
  · exact stance_core (poolWriteWord_core ..)
  · rfl
  · exact writeCoreReg_stance ..

theorem evDbgWrite_stance (space addr : Nat) (v : Word) (begun : List Nat) (s : State) : stance (evDbgWrite space addr v begun s) = stance s := by
  simp [evDbgWrite, apply_ite stance, stance_core (dbgResult_core ..), dbgStore_stance, stance_core (countWrite_core ..)]

theorem evDctrl_stance (p value : Nat) (begun : List Nat) (s : State) : stance (evDctrl p value begun s) = stance s := by
  simp [evDctrl, apply_ite stance, evDbgWrite_stance]

theorem evBreakpointHit_stance (p number : Nat) (begun : List Nat) (s : State) : stance (evBreakpointHit p number begun s) = stance s := by
  simp [evBreakpointHit, apply_ite stance, debugHalt_stance]

theorem evWatchpointHit_stance (p number : Nat) (begun : List Nat) (s : State) : stance (evWatchpointHit p number begun s) = stance s := by
  simp [evWatchpointHit, apply_ite stance, debugHalt_stance]

end Sys2Proof.Machine
end

section
/-! What the commands leave of the roles (R38): all but SYS_MODE, SYS_COMPAT, DIAG_RESET and the commands of the pair leave the stance as it is; these
keep the invariant. -/

namespace Sys2Proof.Machine

/-- The effect of a command keeps the invariant of the roles. -/
def RunKeeps (sp : CmdSpec) : Prop := ∀ c e, KeepsRole fun s => (sp.run c e s).1

theorem RunKeeps.of_stance {sp : CmdSpec} (h : ∀ c e s, stance (sp.run c e s).1 = stance s) : RunKeeps sp :=
  fun c e => keepsRole_of_stance (h c e)

/-! ### The system commands and memory -/

theorem ofCode_ne_shadow (n : Nat) : (Mode.ofCode n).getD .quiet ≠ .shadow := by
  unfold Mode.ofCode
  split <;> decide

/-- To lift the suppression of a device, and to lay its memory out, move no role. -/
theorem sysMode_stance (c : Cmd) (e : Nat) (s : State) :
    stance (specSysMode.run c e s).1 = stance (setRunMode ((Mode.ofCode (c.arg 0 2 0)).getD .quiet) s) := by
  dsimp -zeta only [specSysMode]
  extract_lets m old s0 p s1 r
  have h0 : stance s0 = stance (setRunMode m s) := changeMode_stance ..
  clear_value s0
  have h1 : stance s1 = stance s0 := stance_clear rfl
  clear_value s1
  have hr : stance r.1 = stance s1 := stance_fst_ite (applyLayout_stance ..) rfl
  exact (hr.trans h1).trans h0

theorem sysMode_keeps : RunKeeps specSysMode := fun c e s hs =>
  (roleFits_stance (sysMode_stance c e s)).trans (setRunMode_keeps (ofCode_ne_shadow _) s hs)

theorem sysCompat_keeps : RunKeeps specSysCompat := by
  intro c e s hs
  unfold specSysCompat
  dsimp only
  split
  · exact hs
  · exact (compatRestart_alone _ s).fits

theorem sysCancel_stance (c : Cmd) (e : Nat) (s : State) : stance (specSysCancel.run c e s).1 = stance s := by
  unfold specSysCancel
  dsimp only
  split <;> rfl

theorem specs00_keep : ∀ sp ∈ specs00, RunKeeps sp := by
  simp only [specs00, List.forall_mem_cons]
  exact ⟨.of_stance fun _ _ _ => rfl, sysMode_keeps, .of_stance fun _ _ _ => rfl, .of_stance sysCancel_stance, .of_stance fun _ _ _ => rfl,
    .of_stance fun _ _ _ => rfl, .of_stance fun _ _ _ => rfl, sysCompat_keeps, nofun⟩

theorem memFree_stance (c : Cmd) (e : Nat) (s : State) : stance (specMemFree.run c e s).1 = stance s := by
  unfold specMemFree
  dsimp only
  split
  · rfl
  · exact stance_fst_ite (stance_core (releasePart_core ..)) rfl

theorem memQuery_stance (c : Cmd) (e : Nat) (s : State) : stance (specMemQuery.run c e s).1 = stance s := by
  unfold specMemQuery
  dsimp only
  split <;> rfl

theorem specs01_keep : ∀ sp ∈ specs01, RunKeeps sp := by
  simp only [specs01, List.forall_mem_cons]
  exact ⟨.of_stance fun _ _ _ => rfl, .of_stance memFree_stance, .of_stance memQuery_stance, .of_stance fun _ _ _ => rfl,
    .of_stance fun c _ s => stance_core (startTransfer_core false c s), .of_stance fun c _ s => stance_core (startTransfer_core true c s), nofun⟩

/-! ### Time, conversion, equalisers and tuners -/

theorem specs02_keep : ∀ sp ∈ specs02, RunKeeps sp := by
  simp only [specs02, List.forall_mem_cons]
  exact ⟨.of_stance fun c _ s => startSpllConfig_stance c s, .of_stance fun _ _ s => takeFree_stance s, .of_stance fun _ _ s => setTime_stance _ s,
    .of_stance fun _ _ s => setTime_stance _ s, .of_stance fun _ _ s => setTime_stance _ s, .of_stance runRefResume_stance,
    .of_stance fun _ _ s => setTime_stance _ s, .of_stance fun _ _ s => setTime_stance _ s, .of_stance fun _ _ _ => rfl, .of_stance fun _ _ _ => rfl,
    .of_stance fun _ _ s => setTime_stance _ s, nofun⟩

theorem specs03_keep : ∀ sp ∈ specs03, RunKeeps sp := by
  simp only [specs03, List.forall_mem_cons]
  exact ⟨.of_stance fun _ _ _ => rfl, .of_stance fun _ _ s => stance_foldl _ _ s fun _ _ => rfl, .of_stance fun _ _ s => stance_foldl _ _ s fun _ _ => rfl,
    .of_stance fun _ _ _ => rfl, .of_stance fun _ _ s => stance_clear (setChannel_stance _ _ s), .of_stance fun _ _ _ => rfl, nofun⟩

theorem specs04_keep : ∀ sp ∈ specs04, RunKeeps sp := by
  simp only [specs04, List.forall_mem_cons]
  exact ⟨.of_stance fun _ _ _ => rfl, .of_stance fun _ _ _ => rfl, .of_stance fun _ _ _ => stance_ite rfl rfl,
    .of_stance fun _ _ s => stance_foldl _ _ s fun _ _ => stance_core (configTuner_core ..),
    .of_stance fun _ _ _ => (stance_core (markRetune_core ..)).trans rfl,
    .of_stance fun _ _ s => stance_foldl _ _ s fun _ _ =>
      stance_ite rfl (stance_ite (stance_core (changeTuner_core ..)) (stance_ite (stance_core (startTuner_core ..)) rfl)),
    .of_stance fun _ _ s => stance_clear (setTuner_stance _ _ s), nofun⟩

/-! ### Spectra and what is made of them, triggers, captures, integration and thresholds -/

theorem specs05_keep : ∀ sp ∈ specs05, RunKeeps sp := by
  simp only [specs05, List.forall_mem_cons]
  exact ⟨.of_stance fun _ _ s => stance_foldl _ _ s fun _ _ => stance_core (regrid_core ..),
    .of_stance fun _ _ s => stance_foldl _ _ s fun _ _ => stance_ite rfl (stance_core (regrid_core ..)),
    .of_stance fun _ _ s => stance_foldl _ _ s fun _ _ => rfl, .of_stance fun _ _ _ => rfl,
    .of_stance fun _ _ s => stance_clear (setEngine_stance _ _ s), nofun⟩

theorem specs06_keep : ∀ sp ∈ specs06, RunKeeps sp := by
  simp only [specs06, List.forall_mem_cons]
  exact ⟨.of_stance fun _ _ _ => stance_core (densAct_core ..),
    .of_stance fun _ _ s => stance_foldl _ _ s fun _ _ => stance_ite rfl (stance_core (densAct_core ..)),
    .of_stance fun _ _ s => stance_foldl _ _ s fun _ _ => stance_core (densAct_core ..),
    .of_stance fun _ _ s => stance_clear (setDens_stance _ _ s), .of_stance fun _ _ _ => stance_core (spgmAct_core ..),
    .of_stance fun _ _ s => stance_foldl _ _ s fun _ _ => stance_ite rfl (stance_core (spgmAct_core ..)),
    .of_stance fun _ _ s => stance_clear (setSpgm_stance _ _ s), nofun⟩

theorem specs07_keep : ∀ sp ∈ specs07, RunKeeps sp := by
  simp only [specs07, List.forall_mem_cons]
  exact ⟨.of_stance fun _ _ _ => stance_ends (ends_changeTrig ..), .of_stance fun _ _ _ => stance_ends (ends_changeTrig ..), .of_stance fun _ _ _ => rfl,
    .of_stance fun _ _ _ => rfl, .of_stance fun _ _ _ => rfl, .of_stance fun _ _ s => stance_clear (setSlot_stance _ _ s), nofun⟩

theorem specs08_keep : ∀ sp ∈ specs08, RunKeeps sp := by
  simp only [specs08, List.forall_mem_cons]
  exact ⟨.of_stance fun c e s => stance_ends (ends_rebind c e s),
    .of_stance fun _ _ _ => (setSheaf_stance ..).trans ((stance_core (completeAll_core ..)).trans (decideTo_stance ..)),
    .of_stance fun _ _ _ => stance_ends (ends_changeTrig ..), .of_stance fun _ _ s => stance_clear (setSheaf_stance _ _ s), nofun⟩

theorem specs09_keep : ∀ sp ∈ specs09, RunKeeps sp := by
  simp only [specs09, List.forall_mem_cons]
  exact ⟨.of_stance fun _ _ _ => stance_core (intAct_core ..), .of_stance fun _ _ _ => stance_core (intAct_core ..),
    .of_stance fun _ _ s => stance_clear (setInt_stance _ s), .of_stance fun _ _ _ => rfl, .of_stance fun _ _ _ => stance_core (thAct_core ..),
    .of_stance fun _ _ s => stance_foldl _ _ s fun _ _ => stance_ite rfl (stance_core (thAct_core ..)),
    .of_stance fun _ _ s => stance_clear (setTh_stance _ _ s), nofun⟩

/-! ### Streams, packers and the message queue -/

theorem strmConfig_stance (c : Cmd) (e : Nat) (s : State) : stance (specStrmConfig.run c e s).1 = stance s := by
  dsimp -zeta only [specStrmConfig]
  extract_lets n g s1 s2
  have h1 : stance s1 = stance s := (dropMarkWaits_stance ..).trans (endRewind_stance ..)
  have h2 : stance s2 = stance s := (setMq_stance ..).trans ((setCtx_stance ..).trans h1)
  clear_value s1 s2
  exact (takeFree_stance _).trans ((stance_core (sendCheckpoint_core ..)).trans h2)

theorem strmMark_stance (c : Cmd) (e : Nat) (s : State) : stance (specStrmMark.run c e s).1 = stance s := by
  unfold specStrmMark
  dsimp only
  split
  · rfl
  · exact stance_fst_ite rfl rfl
  · rfl

theorem strmRewind_stance (c : Cmd) (e : Nat) (s : State) : stance (specStrmRewind.run c e s).1 = stance s := by
  unfold specStrmRewind
  dsimp only
  split
  · rfl
  · exact stance_fst_ite rfl rfl

theorem specs0A_keep : ∀ sp ∈ specs0A, RunKeeps sp := by
  simp only [specs0A, List.forall_mem_cons]
  exact ⟨.of_stance fun _ _ _ => rfl, .of_stance fun _ _ _ => rfl, .of_stance strmConfig_stance,
    .of_stance fun _ _ s => stance_foldl _ _ s fun _ _ => stance_ite rfl (stance_ite (stance_core (startCtx_core ..)) (stance_core (stopCtx_core ..))),
    .of_stance strmMark_stance, .of_stance strmRewind_stance, .of_stance fun _ _ s => stance_clear (setCtx_stance _ _ s),
    .of_stance fun _ _ _ => stance_ite rfl rfl, .of_stance fun _ _ _ => rfl, nofun⟩

theorem specs0B_keep : ∀ sp ∈ specs0B, RunKeeps sp := by
  simp only [specs0B, List.forall_mem_cons]
  exact ⟨.of_stance fun _ _ _ => rfl, .of_stance fun _ _ _ => rfl, .of_stance fun _ _ s => stance_clear (setPacker_stance _ _ s), nofun⟩

theorem specs0C_keep : ∀ sp ∈ specs0C, RunKeeps sp := by
  simp only [specs0C, List.forall_mem_cons]
  exact ⟨.of_stance fun _ _ _ => (setMq_stance ..).trans ((stance_core (mqMask_core ..)).trans (stance_core (mqBind_core ..))),
    .of_stance fun _ _ s => stance_fst_ite (mqReadNow_stance _ s) rfl,
    .of_stance fun _ _ _ => stance_fst_ite rfl (stance_fst_ite rfl (stance_fst_ite ((mqOpenHost_stance ..).trans rfl) rfl)),
    .of_stance fun _ _ _ => stance_core (mqFlush_core ..), .of_stance fun _ _ _ => stance_ite rfl rfl, nofun⟩

/-! ### Stamps, the monitor converter, calibration and the display -/

theorem specs0D_keep : ∀ sp ∈ specs0D, RunKeeps sp := by
  simp only [specs0D, List.forall_mem_cons]
  exact ⟨.of_stance fun _ _ _ => rfl, .of_stance fun _ _ _ => rfl,
    .of_stance fun _ _ s => stance_fst_ite
      (stance_foldl _ _ s fun _ _ => stance_ite ((stance_core (disarmSlot_core ..)).trans ((stance_core (emitStats_core ..)).trans rfl)) rfl)
      (stance_fst_ite (stance_core (waitActivity_core ..)) (stance_foldl _ _ s fun _ _ => stance_core (armTdc_core ..))),
    .of_stance fun _ _ _ => rfl, .of_stance fun _ _ _ => stance_ite rfl rfl, nofun⟩

theorem specs0E_keep : ∀ sp ∈ specs0E, RunKeeps sp := by
  simp only [specs0E, List.forall_mem_cons]
  have next (s : State) : stance (mcNext none s) = stance s := stance_core (mcNext_core ..)
  exact ⟨.of_stance fun _ _ _ => rfl,
    .of_stance fun _ _ _ => stance_ite ((next _).trans ((stance_core (applySequence_core ..)).trans rfl)) rfl,
    .of_stance fun _ _ _ => stance_fst_ite ((next _).trans ((stance_core (mcAbort_core ..)).trans rfl)) ((next _).trans rfl),
    .of_stance fun _ _ _ => stance_fst_ite rfl rfl, .of_stance fun _ _ s => stance_clear (setMc_stance _ s), nofun⟩

theorem maintCancel_stance (c : Cmd) (e : Nat) (s : State) : stance (specMaintCancel.run c e s).1 = stance s := by
  unfold specMaintCancel
  dsimp only
  split
  · exact (completeId_stance ..).trans (endActivity_stance ..)
  · rfl

theorem specs0F_keep : ∀ sp ∈ specs0F, RunKeeps sp := by
  simp only [specs0F, List.forall_mem_cons]
  have measure (c : Cmd) (e : Nat) (s : State) : stance (startMeasure c e none s) = stance s := stance_core (startMeasure_core ..)
  have wait {codes : List Nat} {c : Cmd} {k n : Nat} (s : State) : stance (waitActivity codes c k n s).1 = stance s := stance_core (waitActivity_core ..)
  exact ⟨.of_stance fun c e s => stance_fst_ite (stance_fst_ite rfl (measure c e s)) (stance_fst_ite (wait s) (measure c e s)),
    .of_stance fun _ _ _ => rfl, .of_stance fun _ _ _ => rfl,
    .of_stance fun _ _ s => stance_fst_ite (wait s) ((stance_core (countStart_core ..)).trans rfl),
    .of_stance maintCancel_stance, .of_stance fun _ _ s => stance_clear (setMaint_stance _ s), nofun⟩

theorem dispEnable_stance (c : Cmd) (e : Nat) (s : State) : stance (specDispEnable.run c e s).1 = stance s :=
  stance_fst_ite rfl (stance_fst_ite (stance_fst_ite rfl ((leaveRun_stance ..).trans rfl))
    (stance_fst_ite ((stance_core (calibrateSkew_core ..)).trans rfl) ((leaveRun_stance ..).trans rfl)))

theorem specs10_keep : ∀ sp ∈ specs10, RunKeeps sp := by
  simp only [specs10, List.forall_mem_cons]
  exact ⟨.of_stance fun _ _ _ => rfl, .of_stance dispEnable_stance, .of_stance fun _ _ _ => rfl, .of_stance fun _ _ _ => rfl,
    .of_stance fun _ _ _ => stance_ite ((setDisp_stance ..).trans ((stance_core (genLine_core ..)).trans rfl)) ((stance_core (genLine_core ..)).trans rfl),
    .of_stance fun _ _ _ => rfl,
    .of_stance fun _ _ s => stance_ite ((setDisp_stance ..).trans (stance_core (genLine_core ..))) (stance_core (genLine_core s)), nofun⟩

/-! ### The pair, diagnosis and firmware -/

theorem pairConfig_keeps : RunKeeps specPairConfig := by
  intro c e s hs
  unfold specPairConfig
  dsimp only
  split
  · exact setPair_keeps hs
  · exact evPairLinkDown_keeps _ (setPair_keeps hs)

/-- A device that joins a pair is its MIRROR, in SHADOW (R601). -/
theorem pairJoin_keeps : RunKeeps specPairJoin := by
  intro c e s hs
  obtain ⟨-, -, hj⟩ := roleFits_iff.mp hs
  unfold specPairJoin
  dsimp only
  split
  · exact hs
  · exact roleFits_of_stance (m := .shadow) (sh := .quiet) (r := .mirror) (jm := s.pair.joinMode) rfl (iff_of_true rfl rfl) nofun hj

/-- A device that leaves a pair is alone: a PRIMARY runs in its mode, a MIRROR goes to QUIET (R604). -/
theorem pairLeave_keeps : RunKeeps specPairLeave := by
  intro c e s hs
  obtain ⟨hr, hsh, hj⟩ := roleFits_iff.mp hs
  have left : (if s.pair.role == .mirror then leaveMirror e s else s).roleFits = true := by
    split
    · exact leaveMirror_keeps e s hs
    · exact hs
  unfold specPairLeave
  dsimp only
  split
  · split
    · exact (roleFits_stance (completeId_stance ..)).trans left
    · exact left
  · split
    · exact (roleFits_stance (leaveSoon_stance ..)).trans hs
    · next hp =>
      refine roleFits_of_stance (m := s.mode) (sh := s.shadowed) (r := .solo) (jm := s.pair.joinMode) rfl (iff_of_false nofun fun hm => ?_) hsh hj
      exact absurd (hp.symm.trans (hr.mpr hm)) nofun
    · exact hs

theorem pairSwitch_keeps : RunKeeps specPairSwitch := by
  intro c e s hs
  unfold specPairSwitch
  dsimp only
  split
  · next h => exact switchRoles_keeps (hasMirror_primary (Bool.and_eq_true_iff.mp h).1) hs
  · exact hs

theorem pairTakeover_keeps : RunKeeps specPairTakeover := by
  intro c e s hs
  have h1 : stance (if s.pair.link == .up then emit .pairTakeover s else s) = stance s := stance_clear (emit_stance ..)
  exact takeOver_keeps 2 _ ((roleFits_stance h1).trans hs)

theorem specs11_keep : ∀ sp ∈ specs11, RunKeeps sp := by
  simp only [specs11, List.forall_mem_cons]
  exact ⟨pairConfig_keeps, pairJoin_keeps, pairLeave_keeps, pairSwitch_keeps, pairTakeover_keeps,
    .of_stance fun _ _ s => stance_clear (setPair_stance s), nofun⟩

theorem diagReset_keeps : RunKeeps specDiagReset := by
  intro c e s hs
  unfold specDiagReset
  dsimp only
  split
  · exact (resetAndBoot_alone 2 s).fits
  · exact hs

theorem bbRead_stance (c : Cmd) (e : Nat) (s : State) : stance (specBbRead.run c e s).1 = stance s :=
  stance_fst_ite (stance_core (hostResult_core ..)) rfl

theorem specs12_keep : ∀ sp ∈ specs12, RunKeeps sp := by
  simp only [specs12, List.forall_mem_cons]
  exact ⟨diagReset_keeps, .of_stance fun _ _ _ => stance_ite rfl rfl, .of_stance fun _ _ _ => rfl, .of_stance bbRead_stance,
    .of_stance fun _ _ _ => stance_core (bbFreeze_core ..), .of_stance fun _ _ _ => rfl, .of_stance fun _ _ _ => rfl, nofun⟩

theorem specs13_keep : ∀ sp ∈ specs13, RunKeeps sp := by
  simp only [specs13, List.forall_mem_cons]
  exact ⟨.of_stance fun _ _ _ => rfl, .of_stance fun _ _ _ => stance_fst_ite rfl rfl, .of_stance fun _ _ _ => rfl,
    .of_stance fun c _ s => stance_fst_ite (recoveryBoot_stance c s) (stance_fst_ite rfl rfl), nofun⟩

end Sys2Proof.Machine
end

section
/-! O57: the path of a command, what follows every action, and every row keep the invariant of the roles; so does every step. -/

namespace Sys2Proof.Machine

/-! ### The path of a command -/

theorem allSpecs_keep : ∀ sp ∈ allSpecs, RunKeeps sp := by
  unfold allSpecs
  simp only [List.forall_mem_append, and_assoc]
  exact ⟨specs00_keep, specs01_keep, specs02_keep, specs03_keep, specs04_keep, specs05_keep, specs06_keep, specs07_keep, specs08_keep, specs09_keep,
    specs0A_keep, specs0B_keep, specs0C_keep, specs0D_keep, specs0E_keep, specs0F_keep, specs10_keep, specs11_keep, specs12_keep, specs13_keep⟩

theorem specOf_keep {opcode : Nat} {sp : CmdSpec} (h : specOf opcode = some sp) : RunKeeps sp := allSpecs_keep sp (List.mem_of_find?_eq_some h)

/-- An opcode without a row answers, and does no more. -/
theorem specAny_keep (opcode : Nat) : RunKeeps (specAny opcode) := by
  unfold specAny
  cases h : specOf opcode with
  | some sp => exact specOf_keep h
  | none => exact .of_stance fun _ _ _ => rfl

theorem repliesFirst_keeps {f : State → State} (hf : KeepsRole f) : KeepsRole (repliesFirst f) := fun s hs =>
  (roleFits_stance (repliesFirst_stance f s)).trans (hf _ ((roleFits_stance (stance_core (opened_core s))).trans hs))

theorem runNow_keeps {sp : CmdSpec} (h : RunKeeps sp) (c : Cmd) : KeepsRole (runNow sp c) :=
  repliesFirst_keeps fun s hs => by
    have hr := h c s.index s hs
    refine (roleFits_stance (settleFate_stance ..)).trans ?_
    dsimp only
    split
    · exact (roleFits_stance (forwardCmd_stance ..)).trans hr
    · exact hr

theorem applyNow_keeps {sp : CmdSpec} (h : RunKeeps sp) (c : Cmd) (idx : Nat) : KeepsRole (applyNow sp c idx) :=
  repliesFirst_keeps fun s hs => (roleFits_stance (settleFate_stance ..)).trans (h c idx s hs)

theorem startCmd_keeps {sp : CmdSpec} (h : RunKeeps sp) (c : Cmd) : KeepsRole (startCmd sp c) := by
  intro s hs
  unfold startCmd
  dsimp only
  split
  · exact (roleFits_stance ((complete_stance ..).trans (stance_core (refuseEffects_core ..)))).trans hs
  · split
    · exact (roleFits_stance ((holdCmd_stance ..).trans (forwardCmd_stance ..))).trans hs
    · split
      · exact (roleFits_stance ((holdCmd_stance ..).trans (forwardCmd_stance ..))).trans hs
      · exact runNow_keeps h _ s hs

theorem startAny_keeps (c : Cmd) : KeepsRole (startAny c) := by
  intro s hs
  unfold startAny
  split
  · next hsp =>
    split
    · exact (roleFits_stance (complete_stance ..)).trans hs
    · exact startCmd_keeps (specOf_keep hsp) c s hs
  · exact (roleFits_stance (complete_stance ..)).trans hs

theorem pump_keeps (n : Nat) : KeepsRole (pump n) := by
  induction n with
  | zero => exact fun _ hs => hs
  | succ n ih =>
    intro s hs
    unfold pump
    split
    · exact hs
    · split
      · exact ih _ (startAny_keeps _ s hs)
      · exact hs

theorem fireHeld_keeps {sp : CmdSpec} (h : RunKeeps sp) (c : Cmd) : KeepsRole (fireHeld sp c) := by
  intro s hs
  unfold fireHeld
  dsimp only
  split
  · exact applyNow_keeps h c _ s hs
  · exact (roleFits_stance (complete_stance ..)).trans hs

theorem finish_keeps (old : State) : KeepsRole (finish old) := fun s hs =>
  (roleFits_stance ((stance_core (pairNotice_core ..)).trans (compareAll_stance _))).trans (pump_keeps _ _ (yieldFaults_keeps old s hs))

/-! ### Rows -/

/-- Where an outcome is a next state, that state keeps the invariant. -/
def Lands (o : Host.Outcome State Fault Refusal) : Prop := ∀ t, o = .next t → t.roleFits = true

section
variable {s : State} (hs : s.roleFits = true) {f : State → State} {k : Nat}
include hs

theorem direct_of_keeps (hf : KeepsRole f) : Lands (.next (finish s (f s))) := by
  rintro t ⟨⟩
  exact finish_keeps s _ (hf s hs)

theorem direct_of_stance (hf : ∀ s, stance (f s) = stance s) : Lands (.next (finish s (f s))) := direct_of_keeps hs (keepsRole_of_stance hf)

theorem lands_of_keeps (hf : KeepsRole f) : Lands (runEvent f k s) := by
  rintro t ⟨⟩
  exact finish_keeps s _ (repliesFirst_keeps hf _ ((roleFits_stance (passTo_stance k s)).trans hs))

theorem lands_of_stance (hf : ∀ s, stance (f s) = stance s) : Lands (runEvent f k s) := lands_of_keeps hs (keepsRole_of_stance hf)

theorem lands_of_core (hf : ∀ s, core (f s) = core s) : Lands (runEvent f k s) := lands_of_stance hs fun a => stance_core (hf a)

theorem row_lands (sp : CmdSpec) (k : Nat) (p : Packet) : Lands (runRow sp k p s) := by
  refine lands_of_stance hs fun a => ?_
  split
  · exact submitCmd_stance p a
  · rfl

theorem fireRow_lands (kind : Cmd → Bool) : Lands (fireRow kind s) := by
  unfold fireRow
  dsimp only
  split
  · rintro t ⟨⟩
    exact hs
  · split
    · exact lands_of_keeps hs (fireHeld_keeps (specAny_keep _) _)
    · rintro t ⟨⟩
      exact hs

theorem evSwitchIndex_lands (w : Nat) : Lands (evSwitchIndex w s) := by
  unfold evSwitchIndex
  split
  · exact fireRow_lands hs _
  · exact lands_of_keeps hs (mirrorSwitch_keeps w)

/-- The rows of the events each keep the invariant by the law of their event; a row of a command only submits it. -/
theorem exec_lands : ∀ i, Lands (exec i s)
  | .sqTailDoorbell .. => lands_of_core hs fun _ => evSqTailDoorbell_core ..
  | .rqHeadWrite .. => lands_of_core hs fun _ => evRqHeadWrite_core ..
  | .qpEnable .. => lands_of_core hs fun _ => evQpEnable_core ..
  | .qpDisable .. => lands_of_core hs fun _ => evQpDisable_core ..
  | .gintStatusClear .. => lands_of_core hs fun _ => evGintStatusClear_core ..
  | .indexLoRead .. => lands_of_core hs fun _ => evIndexLoRead_core ..
  | .registerWrite .. => lands_of_core hs fun _ => evRegisterWrite_core ..
  | .commandFetch .. => lands_of_stance hs fun _ => evCommandFetch_stance ..
  | .coalTimeExpiry .. => lands_of_core hs fun _ => evCoalTimeExpiry_core ..
  | .noticeDelivery .. => lands_of_core hs fun _ => evNoticeDelivery_core ..
  | .spiSubmit .. => lands_of_stance hs fun _ => spiTransaction_stance ..
  | .spiReadReply .. => lands_of_stance hs fun _ => spiTransaction_stance ..
  | .spiReadStatus .. => lands_of_stance hs fun _ => spiTransaction_stance ..
  | .ctlportDatagram .. => lands_of_stance hs fun _ => evCtlportDatagram_stance ..
  | .timedExecute .. => fireRow_lands hs _
  | .scheduledEffect .. => fireRow_lands hs _
  | .modeChangeEffect .. => fireRow_lands hs _
  | .memFreeRelease .. => lands_of_stance hs fun _ => evMemFreeRelease_stance ..
  | .memTransferEnd .. => lands_of_stance hs fun _ => evMemTransferEnd_stance ..
  | .scrub .. => lands_of_core hs fun _ => evScrub_core ..
  | .unlockDetected .. => lands_of_stance hs fun _ => evUnlockDetected_stance ..
  | .lockConfirmed .. => direct_of_stance hs fun _ => evLockConfirmed_stance ..
  | .lockAttemptFail .. => lands_of_stance hs fun _ => evLockAttemptFail_stance ..
  | .refMissingEdge .. => lands_of_stance hs fun _ => evRefMissingEdge_stance ..
  | .refFreqCheck .. => lands_of_stance hs fun _ => evRefFreqCheck_stance ..
  | .refQualExpiry .. => lands_of_stance hs fun _ => evRefQualExpiry_stance ..
  | .jumpKnown .. => lands_of_stance hs fun _ => evJumpKnown_stance ..
  | .ppsDisambigTimeout .. => lands_of_stance hs fun s => setTime_stance _ s
  | .slewEnd .. => lands_of_stance hs fun _ => evSlewEnd_stance ..
  | .stepBoundary .. => direct_of_stance hs fun _ => evStepBoundary_stance ..
  | .syncEdgeCapture .. => lands_of_stance hs fun _ => evSyncEdgeCapture_stance ..
  | .timebaseRephase .. => direct_of_stance hs fun _ => evTimebaseRephase_stance ..
  | .timeSyncTimeout .. => lands_of_stance hs fun _ => evTimeSyncTimeout_stance ..
  | .ppsInEdge .. => lands_of_stance hs fun _ => evPpsInEdge_stance ..
  | .ppsMissingTimeout .. => lands_of_stance hs fun _ => evPpsMissingTimeout_stance ..
  | .ppsOutPulse .. => lands_of_core hs fun _ => evPpsOutPulse_core ..
  | .overRange .. => lands_of_stance hs fun _ => evOverRange_stance ..
  | .sliceSwap .. => lands_of_core hs fun _ => evSliceSwap_core ..
  | .sliceMonitorWindow .. => lands_of_core hs fun _ => evSliceMonitorWindow_core ..
  | .eqHeldStart .. => lands_of_core hs fun _ => evEqHeldStart_core ..
  | .spectrumDone .. => lands_of_core hs fun _ => evSpectrumDone_core ..
  | .densityFrameClose .. => lands_of_core hs fun _ => evDensityFrameClose_core ..
  | .decayStep .. => lands_of_core hs fun _ => evDecayStep_core ..
  | .trigDecide .. => lands_of_stance hs fun _ => evTrigDecide_stance ..
  | .segmentClose .. => lands_of_stance hs fun _ => evSegmentClose_stance ..
  | .intSetAccumulate .. => lands_of_core hs fun _ => evIntSetAccumulate_core ..
  | .intFrameClose .. => lands_of_core hs fun _ => evIntFrameClose_core ..
  | .strmPacketGenerate .. => lands_of_stance hs fun _ => evStrmPacketGenerate_stance ..
  | .strmPacketSend .. => lands_of_stance hs fun _ => evStrmPacketSend_stance ..
  | .hostRingConsPoll .. => lands_of_core hs fun _ => evHostRingConsPoll_core ..
  | .rewindDone .. => lands_of_stance hs fun _ => evRewindDone_stance ..
  | .arpRequest .. => lands_of_core hs fun _ => evArpRequest_core ..
  | .neighbourSolicitation .. => lands_of_core hs fun _ => evNeighbourSolicitation_core ..
  | .ptpFrameRx .. => lands_of_core hs fun _ => evPtpFrameRx_core ..
  | .pauseFrame .. => lands_of_core hs fun _ => evPauseFrame_core ..
  | .otherFrame .. => lands_of_core hs fun _ => evOtherFrame_core ..
  | .ethLinkChange .. => lands_of_core hs fun _ => evEthLinkChange_core ..
  | .egressDownTimeout .. => lands_of_keeps hs (evEgressDownTimeout_keeps _)
  | .pkJobEnd .. => lands_of_stance hs fun _ => evPkJobEnd_stance ..
  | .mqItemAccept .. => lands_of_stance hs fun _ => evMqItemAccept_stance ..
  | .mqLingerExpiry .. => lands_of_core hs fun _ => evMqLingerExpiry_core ..
  | .mqReadComplete .. => lands_of_stance hs fun _ => evMqReadComplete_stance ..
  | .mqReadTimeout .. => lands_of_stance hs fun _ => evMqReadTimeout_stance ..
  | .tdcEdge .. => lands_of_core hs fun _ => evTdcEdge_core ..
  | .tdcMeasureTimeout .. => lands_of_core hs fun _ => evTdcMeasureTimeout_core ..
  | .tdcWindowClose .. => lands_of_core hs fun _ => evTdcWindowClose_core ..
  | .probeLaunch .. => lands_of_core hs fun _ => evProbeLaunch_core ..
  | .tdcStuckTimeout .. => lands_of_core hs fun _ => evTdcStuckTimeout_core ..
  | .tdcDwellEnd .. => lands_of_core hs fun _ => evTdcDwellEnd_core ..
  | .tdcTablesReady .. => lands_of_core hs fun _ => evTdcTablesReady_core ..
  | .mcConversionEnd .. => lands_of_stance hs fun _ => evMcConversionEnd_stance ..
  | .mcSystemPass .. => lands_of_core hs fun _ => evMcSystemPass_core ..
  | .activityStart .. => lands_of_stance hs fun _ => evActivityStart_stance ..
  | .tdcCalPriority .. => lands_of_core hs fun _ => evTdcCalPriority_core ..
  | .calMeasureEnd .. => lands_of_stance hs fun _ => evCalMeasureEnd_stance ..
  | .scrubPassEnd .. => lands_of_stance hs fun _ => evScrubPassEnd_stance ..
  | .dispFrameStart .. => lands_of_stance hs fun _ => evDispFrameStart_stance ..
  | .dispLatchLine .. => lands_of_core hs fun _ => evDispLatchLine_core ..
  | .scanoutEnd .. => lands_of_core hs fun _ => evScanoutEnd_core ..
  | .teEdge .. => lands_of_core hs fun _ => evTeEdge_core ..
  | .teLostTimeout .. => lands_of_core hs fun _ => evTeLostTimeout_core ..
  | .panelCmdSend .. => lands_of_stance hs fun _ => evPanelCmdSend_stance ..
  | .panelRespTimeout .. => lands_of_stance hs fun _ => evPanelRespTimeout_stance ..
  | .heartbeatSend .. => lands_of_stance hs fun _ => evHeartbeatSend_stance ..
  | .heartbeatReceive .. => lands_of_keeps hs (evHeartbeatReceive_keeps _)
  | .heartbeatTimeout .. => lands_of_keeps hs evHeartbeatTimeout_keeps
  | .liveStall .. => lands_of_stance hs fun _ => evLiveStall_stance ..
  | .pairLinkTrained .. => lands_of_keeps hs (evPairLinkTrained_keeps _ _ _ _)
  | .pairLinkDown .. => lands_of_keeps hs evPairLinkDown_keeps
  | .pairLaneFail .. => lands_of_stance hs fun _ => evPairLaneFail_stance ..
  | .forwardedCommand .. => lands_of_stance hs fun _ => evForwardedCommand_stance ..
  | .mirrorStatusReturn .. => lands_of_stance hs fun _ => evMirrorStatusReturn_stance ..
  | .mirrorStateReceive .. => lands_of_stance hs fun _ => evMirrorStateReceive_stance ..
  | .yieldReceive .. => lands_of_keeps hs evYieldReceive_keeps
  | .takeoverRequestReceive .. => lands_of_keeps hs evTakeoverRequestReceive_keeps
  | .snapshotReceive .. => lands_of_keeps hs (evSnapshotReceive_keeps _ _)
  | .joinIndex .. => lands_of_keeps hs (evJoinIndex_keeps _)
  | .switchIndex .. => evSwitchIndex_lands hs _
  | .pairRelayPacket .. => lands_of_stance hs fun _ => evPairRelayPacket_stance ..
  | .powerOn .. => direct_of_keeps hs fun s _ => (evPowerOn_alone _ _ _ s).fits
  | .pwrGoodLow .. => lands_of_keeps hs fun s _ => (powerDown_alone s).fits
  | .resetNLow .. => lands_of_keeps hs evResetNLow_keeps
  | .pcieReset .. => lands_of_stance hs fun _ => evPcieReset_stance ..
  | .bootStartTimeout .. => lands_of_stance hs fun _ => evBootStartTimeout_stance ..
  | .lockstepMismatch .. => lands_of_keeps hs (evLockstepMismatch_keeps _ _ _ _)
  | .coreSelftestEnd .. => lands_of_stance hs fun _ => evCoreSelftestEnd_stance ..
  | .watchdogExpiry .. => lands_of_keeps hs (evWatchdogExpiry_keeps _)
  | .thermalTripEvent .. => lands_of_keeps hs (evThermalTrip_keeps _ _)
  | .tileLinkSeqFail .. => lands_of_core hs fun _ => evTileLinkSeqFail_core ..
  | .tileLinkRetrain .. => lands_of_core hs fun _ => evTileLinkRetrain_core ..
  | .tileRetrainEnd .. => lands_of_core hs fun _ => evTileRetrainEnd_core ..
  | .fwImageReady .. => lands_of_stance hs fun _ => evFwImageReady_stance ..
  | .flashEraseEnd .. => lands_of_stance hs fun _ => evFlashEraseEnd_stance ..
  | .tapReset .. => lands_of_core hs fun _ => evTapReset_core ..
  | .tapInstructionLoad .. => lands_of_core hs fun _ => evTapInstructionLoad_core ..
  | .gauntletSelect .. => lands_of_core hs fun _ => evGauntletSelect_core ..
  | .gauntletResponse .. => lands_of_core hs fun _ => evGauntletResponse_core ..
  | .dbgRead .. => lands_of_core hs fun _ => evDbgRead_core ..
  | .dbgWrite .. => lands_of_stance hs fun _ => evDbgWrite_stance ..
  | .dbgCtrlLock .. => lands_of_core hs fun _ => evDbgCtrlLock_core ..
  | .dctrlHalt .. => lands_of_stance hs fun _ => evDctrl_stance ..
  | .dctrlResume .. => lands_of_stance hs fun _ => evDctrl_stance ..
  | .dctrlStep .. => lands_of_stance hs fun _ => evDctrl_stance ..
  | .breakpointHit .. => lands_of_stance hs fun _ => evBreakpointHit_stance ..
  | .watchpointHit .. => lands_of_stance hs fun _ => evWatchpointHit_stance ..
  | .refEdgesReturn .. => lands_of_stance hs fun s => setTime_stance _ s
  | .resetNRelease .. => lands_of_stance hs fun _ => evResetNRelease_stance ..
  | .pcieLinkUp .. => lands_of_core hs fun _ => evPcieLinkUp_core ..
  | .partnerStrobeEdge .. => lands_of_stance hs fun _ => evPartnerStrobeEdge_stance ..
  | .partnerStrobeTimeout .. => lands_of_keeps hs evPartnerStrobeTimeout_keeps
  | .levelInactive .. => lands_of_core hs fun _ => evLevelInactive_core ..
  | .thermalTripClear .. => lands_of_keeps hs evThermalTripClear_keeps
  | .hostRingIntTime .. => lands_of_core hs fun _ => evHostRingIntTime_core ..
  | .sysNop .. | .sysMode .. | .sysNoticeRoute .. | .sysCancel .. | .sysGetIndex .. | .sysCtlport .. | .sysGetMode .. | .sysCompat .. | .memAlloc .. |
    .memFree .. | .memQuery .. | .memScrub .. | .memRead .. | .memWrite .. | .timeSpllConfig .. | .timeStatus .. | .timeSetEpoch .. | .timeSync .. |
    .timeRefPolicy .. | .timeRefResume .. | .timePpsConfig .. | .timeOffset .. | .timeGetOffset .. | .timePpsRead .. | .timePtpAdjust .. |
    .convConfig .. | .convAtten .. | .convInput .. | .convRotation .. | .convStatus .. | .convAttenInfo .. | .eqLoad .. | .eqSwap .. | .eqStatus .. |
    .tunerConfig .. | .tunerRetune .. | .tunerEnable .. | .tunerStatus .. | .specConfig .. | .specEnable .. | .specOutput .. | .specWindowLoad .. |
    .specStatus .. | .densConfig .. | .densEnable .. | .densClear .. | .densStatus .. | .spgmConfig .. | .spgmEnable .. | .spgmStatus .. |
    .trigSlotConfig .. | .trigArm .. | .trigMaskConfig .. | .trigMaskLoad .. | .trigForce .. | .trigStatus .. | .capSource .. | .capSheafConfig .. |
    .capArm .. | .capStatus .. | .intConfig .. | .intEnable .. | .intStatus .. | .intHeader .. | .thConfig .. | .thEnable .. | .thStatus .. |
    .strmPortConfig .. | .strmDest .. | .strmConfig .. | .strmEnable .. | .strmMark .. | .strmRewind .. | .strmStatus .. | .strmPortStatus .. |
    .strmPtpSend .. | .pkConfig .. | .pkEncode .. | .pkStatus .. | .mqConfig .. | .mqRead .. | .mqPut .. | .mqFlush .. | .mqStatus .. | .tdcInput .. |
    .tdcSlotConfig .. | .tdcArm .. | .tdcRead .. | .tdcStatus .. | .mcInput .. | .mcSequence .. | .mcConvert .. | .mcRead .. | .mcStatus .. |
    .calibMeasure .. | .calibSliceRead .. | .calibTdcRead .. | .maintStart .. | .maintCancel .. | .maintStatus .. | .dispTiming .. | .dispEnable .. |
    .dispLayer .. | .dispPalette .. | .dispCommit .. | .dispPanelCmd .. | .dispStatus .. | .pairConfig .. | .pairJoin .. | .pairLeave .. |
    .pairSwitch .. | .pairTakeover .. | .pairStatus .. | .diagReset .. | .diagFault .. | .diagEcc .. | .bbRead .. | .bbFreeze .. | .bbClear .. |
    .diagWatchdog .. | .fwStatus .. | .fwLoad .. | .fwVerify .. | .fwActivate .. => row_lands hs _ _ _

end

theorem step_lands {s : State} (hs : s.roleFits = true) : Lands (step s) := by
  unfold step
  split
  · rintro t ⟨⟩
    exact hs
  · next c rest _ => exact exec_lands (s := { s with pending := rest }) hs c

/-- Settles O57: only a join makes a device the MIRROR, and it sets SHADOW with it; a takeover, a leave, a switch of roles, and a reset end both together,
and no change of mode goes to SHADOW or leaves it (`changeMode_keeps`). -/
theorem roleKept : Obligations.RoleKept := fun _ t hs h => step_lands hs t h

end Sys2Proof.Machine
end

section
/-! O48: held commands. -/

namespace Sys2Proof.Machine

/-! ### What is held, and what no row fires -/

theorem firstHeld_none {l : List Cmd} (h : ∀ c ∈ l, ∀ e, c.phase ≠ .held e) : firstHeld l = none := by
  unfold firstHeld
  induction l with
  | nil => rfl
  | cons c t ih =>
    rw [List.foldl_cons]
    split
    · next x hx => exact absurd hx (h c List.mem_cons_self x)
    · exact ih fun d hd => h d (List.mem_cons_of_mem c hd)

theorem mem_of_mem_fireable {c : Cmd} {s : State} (h : c ∈ fireable s) : c ∈ s.cmds := by
  unfold fireable at h
  split at h
  · exact (List.mem_filter.mp h).1
  · exact h

/-- With nothing held, no row fires. -/
theorem fireRow_empty {s : State} (h : ∀ c ∈ s.cmds, ∀ e, c.phase ≠ .held e) (kind : Cmd → Bool) : fireRow kind s = .next s := by
  have hl : firstHeld (if delivering s then fireable s else s.cmds.filter fun c => isInternal c && c.eff.isNone) = none :=
    firstHeld_none fun c hc => h c <| by
      split at hc
      · exact mem_of_mem_fireable hc
      · exact (List.mem_filter.mp hc).1
  simp only [fireRow, hl]

/-- The row of another kind leaves the first held command held. -/
theorem fireRow_other {kind : Cmd → Bool} {c : Cmd} {s : State} (hd : delivering s = true) (hc : firstHeld (fireable s) = some c) (hk : kind c = false) :
    fireRow kind s = .next s := by
  simp [fireRow, hd, hc, hk]

/-! ### A command whose mode has gone -/

/-- The reply of a command of this device that ends leaves the pair as it is, and nothing to follow. -/
theorem fire_refused {sp : CmdSpec} {c : Cmd} {e : Nat} {i : Instr} {s : State} (hsp : specOf sp.opcode = some sp) (hq : s.quiet = true)
    (hm : hasMirror s = false) (hfst : firstHeld (fireable s) = some c) (hph : c.phase = .held (some e)) (hop : c.opcode = sp.opcode)
    (hd : delivering s = true) (hmode : modeOk sp c (runMode (passTo e s)) = false) (hi : firesIt c i) :
    exec i s = .next (repliesFirst (complete c .mode [] e) (passTo e s)) := by
  have hE : c.eff = some e := by simp [Cmd.eff, hph]
  have hsrc : c.src ≠ .pairLink := fun h => by simp [modeOk, h] at hmode
  have hap : fireHeld sp c (opened (passTo e s)) = complete c .mode [] e (opened (passTo e s)) := by
    have hmo : modeOk sp c (runMode (opened (passTo e s))) = false := hmode
    simp [fireHeld, hE, hmo]
  obtain ⟨hpair, -, hnone⟩ := settleFate_calm (c := c) (i := e) (u := opened (passTo e s)) (f := .done .mode []) (.inl hsrc)
    (by rw [show (opened (passTo e s)).pair = s.pair from passTo_pair ..]; exact quiet_forwarded hq) (fire_rest hq (passTo_cmds ..))
  rw [fire_row hfst hph hop hd hsp hi, event_quiet hq hm, repliesFirst_congr hap]
  · rw [hap]; exact hnone
  · rw [hap]; exact hpair.trans (passTo_pair ..)
  · rw [hap]; simp [locked, complete_time, opened]

/-! ### A mode that takes effect -/

theorem runMode_stance {s t : State} (h : stance t = stance s) : runMode t = runMode s := by
  simp only [stance, Prod.mk.injEq] at h
  simp only [runMode, h.1, h.2.1]

theorem setRunMode_calm {m : Mode} {s : State} (h : Calm s) : Calm (setRunMode m s) := by
  unfold setRunMode
  split
  · exact h.same rfl rfl
  · exact h.same rfl rfl

theorem sysMode_calm {c : Cmd} {e : Nat} {s : State} (h : Calm s) : Calm (specSysMode.run c e s).1 := by
  dsimp -zeta only [specSysMode]
  extract_lets m old s0 p s1 r
  have h0 : Calm s0 := by
    obtain ⟨u, hu, hc⟩ := changeMode_ends m e s
    exact (setRunMode_calm (h.ends hu)).ends hc
  clear_value s0
  have h1 : Calm s1 := by
    unfold s1
    split
    · exact ⟨h0.none, h0.alone, h0.forwarded⟩
    · exact h0
  clear_value s1
  unfold r
  split
  · exact h1.ends (ends_applyLayout ..)
  · exact h1

theorem sysMode_runMode {c : Cmd} {e : Nat} {s : State} {m : Mode} (hm : Mode.ofCode (c.arg 0 2 0) = some m) :
    runMode (specSysMode.run c e s).1 = m := by
  have h := sysMode_stance c e s
  have hne := ofCode_ne_shadow (c.arg 0 2 0)
  rw [hm, Option.getD_some] at h hne
  rw [runMode_stance h]
  by_cases hs : s.mode = .shadow
  · simp [setRunMode, runMode, hs]
  · simp [setRunMode, runMode, hs, hne]

theorem modeChange_fires {c : Cmd} {e : Nat} {s : State} {m : Mode} (h : due specSysMode c e s = true) (hm : Mode.ofCode (c.arg 0 2 0) = some m) :
    ∃ t, exec .modeChangeEffect s = .next t ∧ runMode t = m := by
  have hd := due_iff.mp h
  have hE : c.eff = some e := by simp [Cmd.eff, hd.phase]
  let a := opened (passTo e s)
  have hap : fireHeld specSysMode c a = settleFate c e (specSysMode.run c e a) := by
    have hmo : modeOk specSysMode c (runMode a) = true := hd.mode
    simp only [fireHeld, hE, Option.getD_some, hmo, if_true, applyNow, a, repliesFirst_nested]
  have hends : Ends (specSysMode.run c e a).1 (fireHeld specSysMode c a) := hap ▸ ends_complete ..
  have hcalm : Calm a := (calm_quiet hd.quiet hd.alone).core (opened_core _)
  obtain ⟨t, hrun, ht, -⟩ := event_calm (f := fireHeld specSysMode c) ((sysMode_calm hcalm).ends hends)
  refine ⟨t, ?_, ?_⟩
  · rw [fire_row hd.first hd.phase hd.opcode hd.delivers rfl (.inr (.inr ⟨rfl, hd.opcode⟩)), hrun]
  · rw [runMode_stance (stance_ends (hends.trans ht)), sysMode_runMode hm]

/-- Settles O48: a command with TIMED is held for AT by `row_held`; the first held one fires by the row of its kind (`fires_of`, `modeChange_fires`), is
refused where its mode has gone (`fire_refused`), and no other row fires it (`fireRow_other`), nor anything where nothing is held (`fireRow_empty`). -/
theorem heldCommands : Obligations.HeldCommands := by
  unfold Obligations.HeldCommands
  refine ⟨?_, ?_, ?_, fun c e s m => modeChange_fires, ?_, ?_, fun s h => ⟨fireRow_empty h _, fireRow_empty h _, fireRow_empty h _⟩⟩
  · intro x hx hop k p s ha ht
    obtain ⟨hexec, hspec⟩ := commandRows_fit x hx
    rw [hexec]
    exact row_held ha hspec hop (.inl ⟨ht, rfl⟩)
  · intro c e s hd ht
    exact fires_of (sp := specSysNop) (pre := anyTime) (effect := fun _ _ s => s) (words := noWordsAt) rfl (fun _ _ _ _ => rfl) (fun _ _ _ _ => rfl)
      (fun _ _ _ _ => rfl) (fun _ _ _ _ => rfl) c e _ s hd (.inl ⟨rfl, ht⟩) trivial
  · intro c e s hd ht
    exact fires_of (sp := specTimeOffset) (pre := anyTime) (words := noWordsAt) rfl (fun _ _ _ _ => rfl) (fun _ _ _ _ => rfl)
      (fun _ _ _ _ => rfl) (fun _ _ _ _ => rfl) c e _ s hd (.inr (.inl ⟨rfl, ht, by rw [(due_iff.mp hd).opcode]; decide⟩)) trivial
  · intro x hx c e i s hq hm hfst hph hop hd hmode hi
    exact fire_refused (commandRows_fit x hx).2 hq hm hfst hph hop hd hmode hi
  · intro c e s hfst hph hd
    have hE : c.eff = some e := by simp [Cmd.eff, hph]
    refine ⟨fun ht => fireRow_other hd hfst ht, fun h => fireRow_other hd hfst ?_, fun h => fireRow_other hd hfst (by simpa using h)⟩
    rcases h with ht | ho
    · simp [ht]
    · simp [ho, hE]

end Sys2Proof.Machine
end

section
/-! O46: what the black box, a notice and a latched fault leave of the hub and the units; the supervision of cores and tile links as equations of their
states. -/

namespace Sys2Proof.Machine

/-! ### Units that stay as they are -/

/-- The counters of the black box that its entries do not touch. -/
def counts (b : BlackBox) : Nat × Nat × Nat × List Nat := (b.lastReset, b.watchdogResets, b.coreRecoveries, b.linkErrors)

theorem counts_mk (b : BlackBox) (live : List BbEntry) (seq : Nat) (frozen : Option (List BbEntry)) (event freezeSeq suppressed warm : Nat) (fallback : Bool) :
    counts (BlackBox.mk live seq frozen event freezeSeq suppressed b.lastReset warm b.watchdogResets b.coreRecoveries b.linkErrors fallback) = counts b :=
  rfl

/-- From `s` to `t` only the ways of replies and notices change, and the entries of the black box. -/
structure SameUnits (s t : State) : Prop where
  core : core t = core s
  hub : t.hub = s.hub
  counts : counts t.bb = counts s.bb
  conv : t.conv = s.conv
  pool : t.pool = s.pool
  faults : t.faultCause = s.faultCause

theorem SameUnits.trans {s t u : State} (a : SameUnits s t) (b : SameUnits t u) : SameUnits s u :=
  ⟨b.core.trans a.core, b.hub.trans a.hub, b.counts.trans a.counts, b.conv.trans a.conv, b.pool.trans a.pool, b.faults.trans a.faults⟩

theorem opened_units (s : State) : SameUnits s (opened s) := ⟨opened_core s, rfl, rfl, rfl, rfl, rfl⟩

theorem notify_units (a : Nat) (l : List Word) (k : Nat) (s : State) : SameUnits s (notify a l k s) where
  core := notify_core ..
  hub := by rw [notify_frame]
  counts := by rw [notify_frame]
  conv := by rw [notify_frame]
  pool := by rw [notify_frame]
  faults := by rw [notify_frame]

theorem bbFreeze_counts (event : Nat) (s : State) : counts (bbFreeze event s).bb = counts s.bb := by
  unfold bbFreeze
  split
  · rfl
  · exact counts_mk s.bb ..

theorem bbWrite_counts (unit place event : Nat) (data : List Word) (k : Nat) (s : State) : counts (bbWrite unit place event data k s).bb = counts s.bb := by
  unfold bbWrite
  dsimp only
  split_ifs
  · exact counts_mk s.bb ..
  · exact (bbFreeze_counts ..).trans (counts_mk s.bb ..)
  · exact counts_mk s.bb ..

theorem bbWrite_units (unit place event : Nat) (data : List Word) (k : Nat) (s : State) : SameUnits s (bbWrite unit place event data k s) where
  core := bbWrite_core ..
  hub := by rw [bbWrite_frame]
  counts := bbWrite_counts ..
  conv := by rw [bbWrite_frame]
  pool := by rw [bbWrite_frame]
  faults := by rw [bbWrite_frame]

theorem lockstepEntry_units (p what : Nat) (s : State) : SameUnits s (lockstepEntry p what s) := by
  unfold lockstepEntry
  exact (bbWrite_units ..).trans (notify_units ..)

theorem tileEntry_units (t attempt : Nat) (s : State) : SameUnits s (tileEntry t attempt s) := by
  unfold tileEntry
  exact bbWrite_units ..

/-- What follows an action leaves the units as the action left them. -/
theorem after_units (old : State) (f : State → State) (s : State) : SameUnits (f (opened s)) (pairNotice old (repliesFirst f s)) where
  core := (pairNotice_core ..).trans (repliesFirst_opened ..)
  hub := by rw [after_frame]
  counts := by rw [after_frame]
  conv := by rw [after_frame]
  pool := by rw [after_frame]
  faults := by rw [after_frame]

/-- A statement of an event by what stands in the next state, told of the units. -/
theorem eventTo_units {f : Nat → State → State} {ev : Nat → Instr} {pre : Nat → State → Prop} {post : Nat → State → State → Prop}
    (hrow : ∀ k s, exec (ev k) s = runEvent (f k) k s) (hcalm : ∀ k s, pre k s → Calm s → Calm (f k (opened s)))
    (h : ∀ k s t, pre k s → Calm s → SameUnits (f k (opened s)) t → post k s t) : EventTo ev pre post := by
  intro k s hq hm hp
  have hs := calm_quiet (k := k) hq hm
  obtain ⟨t, hrun, -, ht⟩ := event_calm (hcalm k _ hp hs)
  exact ⟨t, by rw [hrow, hrun], h k _ t hp hs (ht ▸ after_units ..)⟩

theorem opened_calm {s : State} (h : Calm s) : Calm (opened s) := h.core (opened_core s)

/-! ### Faults -/

theorem bit_or_pow {w : Word} {b : Nat} (hb : b < 32) : bit (w ||| BitVec.ofNat 32 (2 ^ b)) b = true := by
  have hlt : 2 ^ b < 2 ^ 32 := Nat.pow_lt_pow_right (by decide) hb
  have h : (w ||| BitVec.ofNat 32 (2 ^ b)).toNat.testBit b = true := by
    rw [BitVec.toNat_or, BitVec.toNat_ofNat, Nat.mod_eq_of_lt hlt, Nat.testBit_or, Nat.testBit_two_pow_self, Bool.or_true]
  rw [Nat.testBit_eq_decide_div_mod_eq, decide_eq_true_iff] at h
  rw [bit, h]
  rfl

theorem setFault_bit {b : Nat} (hb : b < 32) (s : State) : bit (setFault b s).faultCause b = true := by
  unfold setFault
  dsimp only
  split
  · next h => exact h
  · rw [(notify_units ..).faults, apply_ite State.faultCause, latchGint_frame, ite_self]
    exact bit_or_pow hb

/-- A fault that is latched is all that changes, and the notice of it. -/
theorem setFault_units (b : Nat) (s : State) : SameUnits { s with faultCause := (setFault b s).faultCause } (setFault b s) where
  core := (setFault_core ..).trans (core_mk ..).symm
  hub := by rw [setFault_frame]
  counts := by rw [setFault_frame]
  conv := by rw [setFault_frame]
  pool := by rw [setFault_frame]
  faults := rfl

/-! ### Members of lists -/

theorem getD_modAt_same {α : Type} {l : List α} {i : Nat} {d : α} {f : α → α} (h : i < l.length) : (modAt l i f).getD i d = f (l.getD i d) := by
  simp [modAt, List.getD_eq_getElem?_getD, List.getElem?_eq_getElem h]

theorem getD_modAt_ne {α : Type} {l : List α} {i j : Nat} {d : α} {f : α → α} (h : j ≠ i) : (modAt l i f).getD j d = l.getD j d := by
  simp [modAt, List.getD_eq_getElem?_getD, h.symm]

/-! ### Core pairs (R624, R625) -/

theorem coreOf_setCore {p : Nat} {f : CorePair → CorePair} {s : State} (h : p < s.hub.cores.length) : coreOf (setCore p f s) p = f (coreOf s p) :=
  getD_modAt_same h

theorem coreOf_setCore_ne {p i : Nat} {f : CorePair → CorePair} {s : State} (h : i ≠ p) : coreOf (setCore p f s) i = coreOf s i := getD_modAt_ne h

theorem SameUnits.coreOf {s t : State} (h : SameUnits s t) (i : Nat) : coreOf t i = coreOf s i := by rw [Machine.coreOf, h.hub, Machine.coreOf]

/-- The halts of a pair within the last day. -/
def recentHalts (p : Nat) (s : State) : List Nat := (coreOf s p).halts.filter fun i => decide (s.index < i + 86400 * fsOf s.time)

/-- A pair that halts waits for its self-test. -/
def halted (p : Nat) (pc : Word) (s : State) : State := setCore p (fun c => { c with st := .recovering, halts := recentHalts p s ++ [s.index], pc := pc }) s

theorem retireCore_units (p : Nat) (s : State) :
    SameUnits { setCore p (fun c => { c with st := .retired }) s with faultCause := (retireCore p s).faultCause } (retireCore p s) := by
  have h := lockstepEntry_units p 2 (setCore p (fun c => { c with st := .retired }) s)
  refine SameUnits.trans ?_ (setFault_units ..)
  exact ⟨h.core, h.hub, h.counts, h.conv, h.pool, rfl⟩

theorem retireCore_core_units (p : Nat) (s : State) : core (retireCore p s) = core s := (retireCore_units p s).core.trans ((core_mk ..).trans (setCore_core ..))

theorem yieldClass_alone {cls : Nat} {s : State} (h : hasMirror s = false) : yieldClass cls s = s := by simp [yieldClass, h]

theorem haltCore_units {p : Nat} {pc : Word} {s : State} (hm : hasMirror s = false) (h : (recentHalts p s).length < 2) :
    SameUnits (halted p pc s) (haltCore p pc [] s) := by
  have hl := lockstepEntry_units p 0 (halted p pc s)
  have heq : haltCore p pc [] s = yieldClass 3 (lockstepEntry p 0 (halted p pc s)) := by
    have hn : ¬ 3 ≤ (recentHalts p s ++ [s.index]).length := by rw [List.length_append, List.length_singleton]; omega
    show yieldClass 3 (if 3 ≤ (recentHalts p s ++ [s.index]).length then _ else _) = _
    rw [if_neg hn]
    rfl
  rw [heq, yieldClass_alone ((hasMirror_congr (core_pair hl.core)).trans hm)]
  exact hl

/-- The third halt within a day is for good. -/
theorem haltCore_retires {p : Nat} {pc : Word} {s : State} (hm : hasMirror s = false) (h : 2 ≤ (recentHalts p s).length) :
    haltCore p pc [] s = retireCore p (lockstepEntry p 0 (halted p pc s)) := by
  have hl := lockstepEntry_units p 0 (halted p pc s)
  have hn : 3 ≤ (recentHalts p s ++ [s.index]).length := by rw [List.length_append, List.length_singleton]; omega
  have heq : haltCore p pc [] s = yieldClass 3 (retireCore p (lockstepEntry p 0 (halted p pc s))) := by
    show yieldClass 3 (if 3 ≤ (recentHalts p s ++ [s.index]).length then _ else _) = _
    rw [if_pos hn]
    rfl
  rw [heq, yieldClass_alone ((hasMirror_congr (core_pair ((retireCore_core_units ..).trans hl.core))).trans hm)]

end Sys2Proof.Machine
end

section
/-! O46: the events of the control complex, each by what it leaves of the cores, the tile links, the boot, and the flash. -/

namespace Sys2Proof.Machine

/-! ### A mismatch, and the self-test after it (R624, R626) -/

theorem evLockstepMismatch_idle {p : Nat} {pc : Word} {ue : Bool} {begun : List Nat} {s : State} (h : (coreOf s p).st ≠ .running) :
    evLockstepMismatch p pc ue begun s = s := by simp [evLockstepMismatch, h]

theorem evLockstepMismatch_halts {p : Nat} {pc : Word} {s : State} (h : (coreOf s p).st = .running) (hp : p < s.hub.cores.length) (hr : coresRun s = true) :
    evLockstepMismatch p pc false [] s = haltCore p pc [] s := by simp [evLockstepMismatch, h, hp, hr]

theorem coreOf_halted {p : Nat} {pc : Word} {s : State} (h : p < s.hub.cores.length) :
    coreOf (halted p pc s) p = { coreOf s p with st := .recovering, halts := recentHalts p s ++ [s.index], pc := pc } := coreOf_setCore h

theorem retireCore_st {p : Nat} {s : State} (h : p < s.hub.cores.length) : (coreOf (retireCore p s) p).st = .retired := by
  rw [(retireCore_units p s).coreOf]
  exact congrArg CorePair.st (coreOf_setCore h)

theorem retireCore_bit (p : Nat) (s : State) : bit (retireCore p s).faultCause 4 = true := setFault_bit (by decide) _

theorem evCoreSelftestEnd_idle {p : Nat} {pass : Bool} {s : State} (h : (coreOf s p).st ≠ .recovering) : evCoreSelftestEnd p pass s = s := by
  simp [evCoreSelftestEnd, h]

theorem evCoreSelftestEnd_fails {p : Nat} {s : State} (h : (coreOf s p).st = .recovering) (hp : p < s.hub.cores.length) (ht : s.hub.tripped = false)
    (hl : s.hub.resetLow = false) : evCoreSelftestEnd p false s = retireCore p s := by simp [evCoreSelftestEnd, h, hp, ht, hl]

/-- A pair that passed its self-test, and the recovery counted. -/
def recovered (p : Nat) (s : State) : State :=
  { setCore p (fun c => { c with st := .running }) s with bb := { s.bb with coreRecoveries := satAdd 32 s.bb.coreRecoveries 1 } }

/-- Without a reply held back, service goes on. -/
theorem resumeService_units {s : State} (h : s.hub.replies = []) : SameUnits s (resumeService s) := by
  unfold resumeService
  split
  · rw [h, List.foldl_nil]
    refine ⟨rfl, ?_, rfl, rfl, rfl, rfl⟩
    rw [setHub_hub, ← h]
  · exact ⟨rfl, rfl, rfl, rfl, rfl, rfl⟩

theorem evCoreSelftestEnd_passes {p : Nat} {s : State} (h : (coreOf s p).st = .recovering) (hp : p < s.hub.cores.length) (ht : s.hub.tripped = false)
    (hl : s.hub.resetLow = false) (hr : s.hub.replies = []) : SameUnits (recovered p s) (evCoreSelftestEnd p true s) := by
  have heq : evCoreSelftestEnd p true s = resumeService (lockstepEntry p 1 (recovered p s)) := by
    simp only [evCoreSelftestEnd, h, hp, ht, hl]
    rfl
  have hu := lockstepEntry_units p 1 (recovered p s)
  rw [heq]
  exact hu.trans (resumeService_units ((congrArg HubUnit.replies hu.hub).trans hr))

/-! ### The watchdog (R625) -/

theorem coresRun_of {p : Nat} {s : State} (h : (coreOf s p).st = .running) (hp : p < s.hub.cores.length) (ht : s.hub.tripped = false)
    (hl : s.hub.resetLow = false) : coresRun s = true := by
  have ha : (s.hub.cores.any fun c => c.st == .running) = true :=
    List.any_eq_true.mpr ⟨s.hub.cores[p], List.getElem_mem hp, by simpa [coreOf, List.getD_eq_getElem?_getD, List.getElem?_eq_getElem hp] using h⟩
  simp [coresRun, ht, hl, ha]

theorem evWatchdogExpiry_idle (s : State) : evWatchdogExpiry 0 s = s := by simp [evWatchdogExpiry]

/-- A pair that is late alone halts; the other one serves on. -/
theorem evWatchdogExpiry_halts {p : Nat} {s : State} (hready : s.ready = true) (hlen : s.hub.cores.length = 2) (hp : p < 2) (ht : s.hub.tripped = false)
    (hl : s.hub.resetLow = false) (h0 : (coreOf s 0).st = .running) (h1 : (coreOf s 1).st = .running) :
    evWatchdogExpiry (2 ^ p) s = haltCore p 0 [] s := by
  have hr : coresRun s = true := coresRun_of h0 (by omega) ht hl
  have hrange : List.range 2 = [0, 1] := rfl
  interval_cases p
  · simp [evWatchdogExpiry, hr, hready, hlen, hrange, h0, h1, show Nat.testBit 1 1 = false from rfl]
  · simp [evWatchdogExpiry, hr, hready, hlen, hrange, h0, h1, show Nat.testBit 2 0 = false from rfl, show Nat.testBit 2 1 = true from rfl]

/-- The watchdog has its entry, and its fault is latched, before the hub starts anew. -/
def watchdogEntry (s : State) : State := setFault 5 (bbWrite 0x12 0 0x1283 [BitVec.ofNat 32 3, BitVec.ofNat 32 s.hub.wdtMs, 0] s.index s)

theorem evWatchdogExpiry_resets {s : State} (hready : s.ready = true) (hlen : s.hub.cores.length = 2) (ht : s.hub.tripped = false)
    (hl : s.hub.resetLow = false) (h0 : (coreOf s 0).st = .running) (h1 : (coreOf s 1).st = .running) :
    evWatchdogExpiry 3 s = resetAndBoot 3 (watchdogEntry s) := by
  have hr : coresRun s = true := coresRun_of h0 (by omega) ht hl
  have hrange : List.range 2 = [0, 1] := rfl
  have hmask : maskOf [0, 1] = 3 := by decide
  simp [evWatchdogExpiry, hr, hready, hlen, hrange, hmask, h0, h1, watchdogEntry, show Nat.testBit 3 1 = true from rfl]

/-! ### A boot into empty memory -/

/-- What a boot leaves of a state: counters of the black box, commands, the pair, the index, and the mode. -/
structure SameStart (s t : State) : Prop where
  counts : counts t.bb = counts s.bb
  cmds : t.cmds = s.cmds
  pair : t.pair = s.pair
  index : t.index = s.index
  mode : t.mode = s.mode

theorem SameStart.trans {s t u : State} (a : SameStart s t) (b : SameStart t u) : SameStart s u :=
  ⟨b.counts.trans a.counts, b.cmds.trans a.cmds, b.pair.trans a.pair, b.index.trans a.index, b.mode.trans a.mode⟩

theorem SameUnits.start {s t : State} (h : SameUnits s t) : SameStart s t :=
  ⟨h.counts, core_cmds h.core, core_pair h.core, core_index h.core, core_mode h.core⟩

theorem setFault_start (b : Nat) (s : State) : SameStart s (setFault b s) :=
  SameStart.trans (t := { s with faultCause := (setFault b s).faultCause }) ⟨rfl, rfl, rfl, rfl, rfl⟩ (setFault_units b s).start

theorem layoutSlot_new {m : Mode} {e slot : Nat} {r : State × Nat} (h : partAt r.1 slot = none) :
    layoutSlot m e slot r = (addRole slot (layoutAu m slot) r.1, r.2 + layoutAu m slot) := by simp [layoutSlot, h]

/-- The layout of QUIET in an empty pool: the display's memory and that of the message queue (R105). -/
theorem applyLayout_quiet_empty {e : Nat} {s : State} (h : s.pool.parts = []) :
    (applyLayout .quiet e s).1 = setPool (fun p => { p with parts := [newPart 6 0 24 6, newPart 7 0 1 7] }) s := by
  have free (slot : Nat) : partAt s slot = none := by simp [partAt, h]
  have hrange : List.range 7 = [0, 1, 2, 3, 4, 5, 6] := rfl
  have none (slot n : Nat) (hn : layoutAu .quiet slot = 0) : layoutSlot .quiet e slot (s, n) = (s, n) := by
    rw [layoutSlot_new (free slot), hn, addRole, if_pos rfl, Nat.add_zero]
  have six : layoutSlot .quiet e 6 (s, 0) = (setPool (fun p => { p with parts := [newPart 6 0 24 6] }) s, 24) := by
    rw [layoutSlot_new (free 6)]
    simp [addRole, layoutAu, setPool, h]
  simp only [applyLayout, hrange, List.foldl_cons, List.foldl_nil, Nat.zero_add, Nat.reduceAdd, none 1 0 rfl, none 2 0 rfl, none 3 0 rfl, none 4 0 rfl,
    none 5 0 rfl, six]
  rw [layoutSlot_new (by rfl)]
  simp [addRole, layoutAu, setPool]

theorem runFirmware_start {slot : Nat} {s : State} (h : s.pool.parts = []) : SameStart s (runFirmware slot s) := by
  unfold runFirmware
  dsimp only
  rw [applyLayout_quiet_empty (by exact h)]
  exact ⟨rfl, rfl, rfl, rfl, rfl⟩

theorem bootMark_start (s : State) : SameStart s (bootMark true s) := by
  rw [bootMark, if_pos rfl, resetEntry]
  exact (bbWrite_units ..).start

theorem enterRecovery_start (s : State) : SameStart s (enterRecovery s) := by
  unfold enterRecovery
  refine SameStart.trans ?_ (setFault_start ..)
  exact ⟨rfl, rfl, rfl, rfl, rfl⟩

theorem fallbackEntry_start (failed why booted : Nat) (s : State) : SameStart s (fallbackEntry failed why booted s) := by
  unfold fallbackEntry
  refine SameStart.trans ?_ (bbWrite_units ..).start
  exact ⟨counts_mk s.bb .., rfl, rfl, rfl, rfl⟩

theorem setHub_start (f : HubUnit → HubUnit) (s : State) : SameStart s (setHub f s) := ⟨rfl, rfl, rfl, rfl, rfl⟩

theorem bootStart_start (s : State) : SameStart s (bootStart s) := by
  rw [bootStart, setFw_eq]
  refine SameStart.trans ?_ (setHub_start ..)
  exact ⟨counts_mk s.bb .., rfl, rfl, rfl, rfl⟩

theorem bootStart_pool (s : State) : (bootStart s).pool = s.pool := by rw [bootStart, setFw_eq, setHub_pool]

theorem bootNow_start {s : State} (h : s.pool.parts = []) : SameStart s (bootNow true s) := by
  have run (slot : Nat) : SameStart s (bootMark true (runFirmware slot (bootStart s))) :=
    ((bootStart_start s).trans (runFirmware_start (by rw [bootStart_pool, h]))).trans (bootMark_start _)
  rcases bootNow_cases true s with hb | ⟨slot, hb | hb⟩ <;> rw [hb]
  · exact ((bootStart_start s).trans (bootMark_start _)).trans (enterRecovery_start _)
  · exact run slot
  · exact (run slot).trans (fallbackEntry_start ..)

end Sys2Proof.Machine
end

section
/-! O46: the reset by the watchdog, the tile links, the flash, and the obligation. -/

namespace Sys2Proof.Machine

/-! ### The reset by the watchdog (R625) -/

theorem hubReset_time (kind : Nat) (s : State) : (hubReset kind s).time = s.time.warm := rfl

theorem hubReset_index (kind : Nat) (s : State) : (hubReset kind s).index = s.index := rfl

theorem hubReset_delivering (kind : Nat) (s : State) : delivering (hubReset kind s) = delivering s := by
  rw [delivering, locked, hubReset_time]
  rfl

/-- A warm timebase counts reference edges as before. -/
theorem hubReset_indexOfEdge (kind : Nat) (s : State) :
    indexOfEdge (hubReset kind s).time (refCountNow (hubReset kind s) + 1) = indexOfEdge s.time (refCountNow s + 1) := by
  rw [refCountNow, hubReset_time, hubReset_index]
  rfl

theorem hubReset_counts (s : State) :
    counts (hubReset 3 s).bb = (3, satAdd 32 s.bb.watchdogResets 1, s.bb.coreRecoveries, s.bb.linkErrors) := rfl

theorem resumeIndex_index (s : State) : (resumeIndex s).index = if delivering s then indexOfEdge s.time (refCountNow s + 1) else s.index := by
  unfold resumeIndex
  split_ifs <;> rfl

/-- To resume the numbering of samples changes nothing else of what a boot keeps. -/
theorem resumeIndex_frame (s : State) :
    (resumeIndex s).bb = s.bb ∧ (resumeIndex s).cmds = s.cmds ∧ (resumeIndex s).pair = s.pair ∧ (resumeIndex s).mode = s.mode
      ∧ (resumeIndex s).pool = s.pool := by
  unfold resumeIndex
  split_ifs <;> exact ⟨rfl, rfl, rfl, rfl, rfl⟩

/-- What stands after a reset by the watchdog. -/
structure WatchdogReset (s t : State) : Prop where
  counts : counts t.bb = (3, satAdd 32 s.bb.watchdogResets 1, s.bb.coreRecoveries, s.bb.linkErrors)
  cmds : t.cmds = []
  pair : t.pair = PairUnit.power
  mode : t.mode = .quiet
  index : t.index = if delivering s then indexOfEdge s.time (refCountNow s + 1) else s.index

theorem resetAndBoot_watchdog (s : State) : WatchdogReset s (resetAndBoot 3 s) := by
  obtain ⟨hbb, hcmds, hpair, hmode, hpool⟩ := resumeIndex_frame (hubReset 3 s)
  have h : SameStart (resumeIndex (hubReset 3 s)) (resetAndBoot 3 s) := bootNow_start (by rw [hpool]; rfl)
  refine ⟨?_, h.cmds.trans (hcmds.trans rfl), h.pair.trans (hpair.trans rfl), h.mode.trans (hmode.trans rfl), ?_⟩
  · rw [h.counts, hbb, hubReset_counts]
  · rw [h.index, resumeIndex_index, hubReset_delivering, hubReset_indexOfEdge, hubReset_index]

theorem watchdogEntry_frame (s : State) :
    (watchdogEntry s).time = s.time ∧ (watchdogEntry s).index = s.index ∧ counts (watchdogEntry s).bb = counts s.bb := by
  unfold watchdogEntry
  have hb := bbWrite_units 0x12 0 0x1283 [BitVec.ofNat 32 3, BitVec.ofNat 32 s.hub.wdtMs, 0] s.index s
  generalize bbWrite 0x12 0 0x1283 [BitVec.ofNat 32 3, BitVec.ofNat 32 s.hub.wdtMs, 0] s.index s = b at hb ⊢
  exact ⟨(core_time (setFault_core ..)).trans (core_time hb.core), (core_index (setFault_core ..)).trans (core_index hb.core),
    (setFault_start ..).counts.trans hb.counts⟩

theorem watchdogReset (s : State) : WatchdogReset s (resetAndBoot 3 (watchdogEntry s)) := by
  obtain ⟨htime, hindex, hcounts⟩ := watchdogEntry_frame s
  simp only [counts, Prod.mk.injEq] at hcounts
  obtain ⟨-, hresets, hrec, hlink⟩ := hcounts
  obtain ⟨hc, hcmds, hpair, hmode, hi⟩ := resetAndBoot_watchdog (watchdogEntry s)
  have hd : delivering (watchdogEntry s) = delivering s := by rw [delivering, delivering, locked, locked, htime]
  have hn : refCountNow (watchdogEntry s) = refCountNow s := by rw [refCountNow, refCountNow, htime, hindex]
  exact ⟨by rw [hc, hresets, hrec, hlink], hcmds, hpair, hmode, by rw [hi, hd, hn, htime, hindex]⟩

/-! ### The tile links (R21, R630) -/

theorem tileOf_setTile {i : Nat} {f : TileLink → TileLink} {s : State} (h : i < s.hub.tiles.length) : tileOf (setTile i f s) i = f (tileOf s i) :=
  getD_modAt_same h

theorem SameUnits.tileOf {s t : State} (h : SameUnits s t) (i : Nat) : tileOf t i = tileOf s i := by rw [Machine.tileOf, h.hub, Machine.tileOf]

theorem SameUnits.channelOf {s t : State} (h : SameUnits s t) (c : Nat) : channelOf t c = channelOf s c := by
  rw [Machine.channelOf, h.conv, Machine.channelOf]

theorem channelOf_onTile_even {i : Nat} {f : Channel → Channel} {s : State} (h : 2 * i + 1 < s.conv.channels.length) :
    channelOf (onTile i f s) (2 * i) = f (channelOf s (2 * i)) :=
  (getD_modAt_ne (Nat.ne_of_lt (Nat.lt_succ_self _))).trans (getD_modAt_same (Nat.lt_of_succ_lt h))

theorem channelOf_onTile_odd {i : Nat} {f : Channel → Channel} {s : State} (h : 2 * i + 1 < s.conv.channels.length) :
    channelOf (onTile i f s) (2 * i + 1) = f (channelOf s (2 * i + 1)) :=
  (getD_modAt_same (by simpa [setChannel, modAt] using h)).trans (congrArg f (getD_modAt_ne (Nat.succ_ne_self _)))

/-- A failed SC on a link: it is INV on both channels, counted, and kept for the second that follows. -/
def seqFailed (i : Nat) (s : State) : State :=
  setTile i (fun x => { x with recent := recentFails s i ++ [s.index] })
    (onTile i (addInv (s.index / 32 * 32) (s.index / 32 * 32 + 32))
      { s with bb := { s.bb with linkErrors := modAt s.bb.linkErrors i fun n => satAdd 32 n 1 } })

theorem evTileLinkSeqFail_fails {i : Nat} {s : State} (hv : i < s.variant.tiles) (ha : (tileOf s i).attempt = 0) (hd : (tileOf s i).dead = none)
    (hl : delivering s = true) : evTileLinkSeqFail i s = tileEntry i 0 (seqFailed i s) := by
  have hv' : ¬ s.variant.tiles ≤ i := by omega
  simp only [evTileLinkSeqFail, ha, hd, hl]
  simp [hv', seqFailed]

theorem evTileLinkSeqFail_idle {i : Nat} {s : State} (h : s.variant.tiles ≤ i) : evTileLinkSeqFail i s = s := by simp [evTileLinkSeqFail, h]

/-- A link that retrains: both channels are INV from the next sample on. -/
def retraining (i : Nat) (s : State) : State :=
  onTile i (openTile (s.index + 1)) (setTile i (fun x => { x with attempt := 1, since := s.index + 1 }) s)

theorem evTileLinkRetrain_starts {i : Nat} {s : State} (hv : i < s.variant.tiles) (ha : (tileOf s i).attempt = 0) (hd : (tileOf s i).dead = none)
    (hn : 64 < (recentFails s i).length) : evTileLinkRetrain i s = tileEntry i 1 (retraining i s) := by
  have hv' : ¬ s.variant.tiles ≤ i := by omega
  have hn' : ¬ (recentFails s i).length ≤ 64 := by omega
  simp [evTileLinkRetrain, hv', ha, hd, hn', retraining]

theorem openTile_open (e : Nat) (ch : Channel) : ((openTile e ch).tile.any fun x => x.hi.isNone) = true := by
  unfold openTile
  split
  · next h => exact h
  · rfl

theorem closeTile_closed (e : Nat) (ch : Channel) : ((closeTile e ch).tile.any fun x => x.hi.isNone) = false := by
  simp [closeTile]

theorem evTileRetrainEnd_idle {i : Nat} {ok : Bool} {s : State} (h : (tileOf s i).attempt = 0) : evTileRetrainEnd i ok s = s := by
  simp [evTileRetrainEnd, h]

theorem evTileRetrainEnd_succeeds {i : Nat} {s : State} (h : (tileOf s i).attempt ≠ 0) :
    evTileRetrainEnd i true s = onTile i (closeTile (s.index + 1)) (setTile i (fun x => { x with attempt := 0, recent := [] }) s) := by
  simp only [evTileRetrainEnd, h, if_false, if_true]

theorem evTileRetrainEnd_retries {i : Nat} {s : State} (h : (tileOf s i).attempt ≠ 0) (hlt : (tileOf s i).attempt < 3) :
    evTileRetrainEnd i false s = tileEntry i ((tileOf s i).attempt + 1) (setTile i (fun x => { x with attempt := x.attempt + 1 }) s) := by
  simp only [evTileRetrainEnd, h, hlt, if_false, if_true, Bool.false_eq_true]

/-- After three tries a link is out of service for good. -/
theorem evTileRetrainEnd_dies {i : Nat} {s : State} (h : 3 ≤ (tileOf s i).attempt) :
    evTileRetrainEnd i false s = setFault 3 (setTile i (fun x => { x with attempt := 0, dead := some x.since }) s) := by
  have h0 : (tileOf s i).attempt ≠ 0 := by omega
  have h3 : ¬ (tileOf s i).attempt < 3 := by omega
  simp only [evTileRetrainEnd, h0, h3, if_false, Bool.false_eq_true]

/-! ### The flash (R636, R637, R647, R685) -/

theorem completeId_fw (id : Nat) (st : Status) (pl : List Word) (i : Nat) (s : State) : (completeId id st pl i s).hub.fw = s.hub.fw := by
  unfold completeId
  split
  · rw [complete_hub]
  · rfl

theorem completeId_pool (id : Nat) (st : Status) (pl : List Word) (i : Nat) (s : State) : (completeId id st pl i s).pool = s.pool := by
  unfold completeId
  split
  · rw [complete_frame]
  · rfl

/-- The flash as an erase leaves it, with the data written. -/
def erased (x : FlashErase) (s : State) : State :=
  setFw (fun f => { f with
    slots := modAt f.slots x.slot (fun y => flashWrite 0 x.data { y with data := [] }), loadOffset := x.data.length, erase := none }) s

theorem evFlashEraseEnd_ends {x : FlashErase} {s : State} (h : s.hub.fw.erase = some x) :
    evFlashEraseEnd s = completeId x.cmd .ok [BitVec.ofNat 32 x.data.length] s.index (erased x s) := by
  rw [evFlashEraseEnd, h]
  rfl

theorem evFlashEraseEnd_idle {s : State} (h : s.hub.fw.erase = none) : evFlashEraseEnd s = s := by rw [evFlashEraseEnd, h]

theorem evFwImageReady_idle {pause : Nat} {s : State} (h : s.hub.fw.activate = none) : evFwImageReady pause s = s := by rw [evFwImageReady, h]

/-- The image of an activation has been looked at. -/
def imageSeen (x : Activation) (s : State) : State := setFw (fun f => { noteValid x.slot (validImage s.hub.fw x.slot) f with activate := none }) s

theorem evFwImageReady_refuses {pause : Nat} {x : Activation} {s : State} (h : s.hub.fw.activate = some x)
    (hv : validImage s.hub.fw x.slot = false ∨ compatImage s.compat s.hub.fw x.slot = false) :
    evFwImageReady pause s = completeId x.cmd .badParam [] s.index (imageSeen x s) := by
  have hg : (!validImage s.hub.fw x.slot || !compatImage s.compat s.hub.fw x.slot) = true := by
    rcases hv with hv | hv <;> simp [hv]
  rw [evFwImageReady, h]
  dsimp only
  rw [if_pos hg]
  rfl

/-- The new firmware runs. -/
def activated (x : Activation) (s : State) : State := setFw (fun f => { adopt x.slot x.prefer x.raise f with running := x.slot }) (imageSeen x s)

theorem evFwImageReady_activates {pause : Nat} {x : Activation} {s : State} (h : s.hub.fw.activate = some x) (hv : validImage s.hub.fw x.slot = true)
    (hc : compatImage s.compat s.hub.fw x.slot = true) :
    SameUnits (completeId x.cmd .ok [runningHeader (activated x s) 3] s.index (activated x s)) (evFwImageReady pause s) := by
  rw [evFwImageReady, h]
  dsimp only
  rw [if_neg (by simp [hv, hc])]
  exact SameUnits.trans (bbWrite_units ..) (notify_units ..)

end Sys2Proof.Machine
end

section
/-! O46: the obligation. -/

namespace Sys2Proof.Machine

/-- A statement of an event whose row leaves the units as `g` does. -/
theorem eventTo_same {f g : Nat → State → State} {ev : Nat → Instr} {pre : Nat → State → Prop} {post : Nat → State → State → Prop}
    (hrow : ∀ k s, exec (ev k) s = runEvent (f k) k s) (hg : ∀ k s, pre k s → Calm s → SameUnits (g k (opened s)) (f k (opened s)))
    (hcore : ∀ k s, core (g k s) = core s) (h : ∀ k s t, pre k s → SameUnits (g k (opened s)) t → post k s t) : EventTo ev pre post :=
  eventTo_units hrow (fun k s hp hs => (opened_calm hs).core ((hg k s hp hs).core.trans (hcore k _)))
    fun k s t hp hs ht => h k s t hp ((hg k s hp hs).trans ht)

theorem halted_core (p : Nat) (pc : Word) (s : State) : core (halted p pc s) = core s := setCore_core ..

theorem recovered_core (p : Nat) (s : State) : core (recovered p s) = core s := (core_mk (setCore p _ s) ..).trans (setCore_core ..)

theorem seqFailed_core (i : Nat) (s : State) : core (seqFailed i s) = core s := (setTile_core ..).trans ((onTile_core ..).trans (core_mk ..))

theorem retraining_core (i : Nat) (s : State) : core (retraining i s) = core s := (onTile_core ..).trans (setTile_core ..)

theorem SameUnits.refl (s : State) : SameUnits s s := ⟨rfl, rfl, rfl, rfl, rfl, rfl⟩

/-- The commands and the timebase, as most clauses tell them of an action that leaves the core. -/
theorem SameUnits.cmds_time {s u t : State} (h : SameUnits u t) (hc : Machine.core u = Machine.core s) : t.cmds = s.cmds ∧ t.time = s.time :=
  ⟨(core_cmds h.core).trans (core_cmds hc), (core_time h.core).trans (core_time hc)⟩

/-- What the retirement of a pair does, after an entry that leaves the units. -/
theorem retired_post {p : Nat} {s u t : State} (hp : p < u.hub.cores.length) (hc : core u = core s) (ht : SameUnits (retireCore p u) t) :
    (coreOf t p).st = .retired ∧ bit t.faultCause 4 = true ∧ t.cmds = s.cmds ∧ t.time = s.time :=
  ⟨by rw [ht.coreOf, retireCore_st hp], by rw [ht.faults, retireCore_bit], ht.cmds_time ((retireCore_core_units ..).trans hc)⟩

theorem lockstepMismatch_halts (p : Nat) (pc : Word) : EventTo (fun k => .lockstepMismatch k p pc false [])
    (fun _ s => (coreOf s p).st = .running ∧ p < s.hub.cores.length ∧ coresRun s = true ∧ (recentHalts p s).length < 2)
    (fun _ s t => (coreOf t p).st = .recovering ∧ (coreOf t p).pc = pc ∧ (∀ i, i ≠ p → coreOf t i = coreOf s i)
      ∧ t.faultCause = s.faultCause ∧ t.cmds = s.cmds ∧ t.time = s.time ∧ t.mode = s.mode) := by
  refine eventTo_same (g := fun _ => halted p pc) (fun _ _ => rfl) (fun k s ⟨hrun, hp, hr, hn⟩ hs => ?_) (fun _ s => halted_core p pc s) ?_
  · rw [evLockstepMismatch_halts (s := opened s) hrun hp hr]
    exact haltCore_units (opened_calm hs).alone hn
  · intro k s t ⟨_, hp, _, _⟩ ht
    have hc : core (halted p pc (opened s)) = core s := (halted_core ..).trans (opened_core s)
    have hcore := (ht.coreOf p).trans (coreOf_halted (s := opened s) hp)
    exact ⟨by rw [hcore], by rw [hcore], fun i hi => (ht.coreOf i).trans (coreOf_setCore_ne hi), ht.faults, (ht.cmds_time hc).1, (ht.cmds_time hc).2,
      (core_mode ht.core).trans (core_mode hc)⟩

theorem lockstepMismatch_retires (p : Nat) (pc : Word) : EventTo (fun k => .lockstepMismatch k p pc false [])
    (fun _ s => (coreOf s p).st = .running ∧ p < s.hub.cores.length ∧ coresRun s = true ∧ 2 ≤ (recentHalts p s).length)
    (fun _ s t => (coreOf t p).st = .retired ∧ bit t.faultCause 4 = true ∧ t.cmds = s.cmds ∧ t.time = s.time) := by
  have hl (s : State) := lockstepEntry_units p 0 (halted p pc s)
  have hlen (s : State) : (lockstepEntry p 0 (halted p pc s)).hub.cores.length = s.hub.cores.length := by
    rw [(hl s).hub]
    simp [halted, modAt]
  refine eventTo_same (g := fun _ s => retireCore p (lockstepEntry p 0 (halted p pc s))) (fun _ _ => rfl) (fun k s ⟨hrun, hp, hr, hn⟩ hs => ?_)
    (fun _ s => (retireCore_core_units ..).trans ((hl s).core.trans (halted_core ..))) ?_
  · rw [evLockstepMismatch_halts (s := opened s) hrun hp hr, haltCore_retires (opened_calm hs).alone hn]
    exact SameUnits.refl _
  · intro k s t ⟨_, hp, _, _⟩ ht
    exact retired_post (by rw [hlen]; exact hp) ((hl _).core.trans ((halted_core ..).trans (opened_core s))) ht

theorem coreSelftestEnd_passes (p : Nat) : EventTo (fun k => .coreSelftestEnd k p true)
    (fun _ s => (coreOf s p).st = .recovering ∧ p < s.hub.cores.length ∧ s.hub.tripped = false ∧ s.hub.resetLow = false ∧ s.hub.replies = [])
    (fun _ s t => (coreOf t p).st = .running ∧ t.bb.coreRecoveries = satAdd 32 s.bb.coreRecoveries 1 ∧ t.cmds = s.cmds ∧ t.time = s.time) := by
  refine eventTo_same (g := fun _ => recovered p) (fun _ _ => rfl)
    (fun k s ⟨hst, hp, htrip, hlow, hrep⟩ _ => evCoreSelftestEnd_passes (s := opened s) hst hp htrip hlow hrep) (fun _ s => recovered_core p s) ?_
  intro k s t ⟨_, hp, _, _, _⟩ ht
  refine ⟨?_, congrArg (fun x => x.2.2.1) ht.counts, ht.cmds_time ((recovered_core ..).trans (opened_core s))⟩
  rw [ht.coreOf]
  exact congrArg CorePair.st (coreOf_setCore (s := opened s) hp)

theorem coreSelftestEnd_fails (p : Nat) : EventTo (fun k => .coreSelftestEnd k p false)
    (fun _ s => (coreOf s p).st = .recovering ∧ p < s.hub.cores.length ∧ s.hub.tripped = false ∧ s.hub.resetLow = false)
    (fun _ s t => (coreOf t p).st = .retired ∧ bit t.faultCause 4 = true ∧ t.cmds = s.cmds ∧ t.time = s.time) := by
  refine eventTo_same (g := fun _ => retireCore p) (fun _ _ => rfl) (fun k s ⟨hst, hp, htrip, hlow⟩ _ => ?_) (fun _ s => retireCore_core_units p s)
    fun k s t ⟨_, hp, _, _⟩ ht => retired_post (u := opened s) hp (opened_core s) ht
  rw [evCoreSelftestEnd_fails (s := opened s) hst hp htrip hlow]
  exact SameUnits.refl _

theorem watchdogExpiry_halts (p : Nat) : EventTo (fun k => .watchdogExpiry k (2 ^ p))
    (fun _ s => s.ready = true ∧ s.hub.cores.length = 2 ∧ p < 2 ∧ s.hub.tripped = false ∧ s.hub.resetLow = false ∧ (coreOf s 0).st = .running
      ∧ (coreOf s 1).st = .running ∧ (recentHalts p s).length < 2)
    (fun _ s t => (coreOf t p).st = .recovering ∧ (coreOf t (1 - p)).st = .running ∧ t.cmds = s.cmds ∧ t.time = s.time) := by
  refine eventTo_same (g := fun _ => halted p 0) (fun _ _ => rfl) (fun k s ⟨hready, hlen, hp, htrip, hlow, h0, h1, hn⟩ hs => ?_)
    (fun _ s => halted_core p 0 s) ?_
  · rw [evWatchdogExpiry_halts (s := opened s) hready hlen hp htrip hlow h0 h1]
    exact haltCore_units (opened_calm hs).alone hn
  · intro k s t ⟨_, hlen, hp, _, _, h0, h1, _⟩ ht
    have hother : (coreOf t (1 - p)).st = .running := by
      rw [ht.coreOf, halted, coreOf_setCore_ne (by omega)]
      interval_cases p
      · exact h1
      · exact h0
    refine ⟨?_, hother, ht.cmds_time ((halted_core ..).trans (opened_core s))⟩
    rw [ht.coreOf, coreOf_halted (s := opened s) (hp.trans_eq hlen.symm)]

theorem watchdogExpiry_resets : EventTo (fun k => .watchdogExpiry k 3)
    (fun _ s => s.ready = true ∧ s.hub.cores.length = 2 ∧ s.hub.tripped = false ∧ s.hub.resetLow = false ∧ (coreOf s 0).st = .running
      ∧ (coreOf s 1).st = .running)
    (fun _ s t => t.bb.lastReset = 3 ∧ t.bb.watchdogResets = satAdd 32 s.bb.watchdogResets 1 ∧ t.cmds = [] ∧ t.mode = .quiet ∧ t.pair.role = .solo
      ∧ t.index = (if delivering s then indexOfEdge s.time (refCountNow s + 1) else s.index)) := by
  have reset (s : State) := watchdogReset (opened s)
  refine eventTo_units (f := fun _ => evWatchdogExpiry 3) (fun _ _ => rfl) (fun k s ⟨hready, hlen, htrip, hlow, h0, h1⟩ _ => ?_) ?_
  · rw [evWatchdogExpiry_resets (s := opened s) hready hlen htrip hlow h0 h1]
    obtain ⟨_, hcmds, hpair, _, _⟩ := reset s
    exact ⟨by rw [hcmds]; rfl, by rw [hasMirror, hpair]; rfl, by rw [hpair]; rfl⟩
  · intro k s t ⟨hready, hlen, htrip, hlow, h0, h1⟩ _ ht
    rw [evWatchdogExpiry_resets (s := opened s) hready hlen htrip hlow h0 h1] at ht
    obtain ⟨hcounts, hcmds, hpair, hmode, hindex⟩ := reset s
    have hc := ht.counts.trans hcounts
    exact ⟨congrArg (fun x => x.1) hc, congrArg (fun x => x.2.1) hc, (core_cmds ht.core).trans hcmds, (core_mode ht.core).trans hmode,
      by rw [core_pair ht.core, hpair]; rfl, (core_index ht.core).trans hindex⟩

theorem tileLinkSeqFail_fails (i : Nat) : EventTo (fun k => .tileLinkSeqFail k i)
    (fun _ s => i < s.variant.tiles ∧ i < s.hub.tiles.length ∧ i < s.bb.linkErrors.length ∧ 2 * i + 1 < s.conv.channels.length
      ∧ (tileOf s i).attempt = 0 ∧ (tileOf s i).dead = none ∧ delivering s = true)
    (fun _ s t => t.bb.linkErrors.getD i 0 = satAdd 32 (s.bb.linkErrors.getD i 0) 1
      ∧ (channelOf t (2 * i)).inv = { lo := s.index / 32 * 32, hi := some (s.index / 32 * 32 + 32) } :: (channelOf s (2 * i)).inv
      ∧ (channelOf t (2 * i + 1)).inv = { lo := s.index / 32 * 32, hi := some (s.index / 32 * 32 + 32) } :: (channelOf s (2 * i + 1)).inv
      ∧ (tileOf t i).recent = recentFails s i ++ [s.index] ∧ t.cmds = s.cmds ∧ t.time = s.time) := by
  refine eventTo_same (g := fun _ => seqFailed i) (fun _ _ => rfl) (fun k s ⟨hv, _, _, _, ha, hd, hl⟩ _ => ?_) (fun _ s => seqFailed_core i s) ?_
  · rw [evTileLinkSeqFail_fails (s := opened s) hv ha hd hl]
    exact tileEntry_units ..
  · intro k s t ⟨_, hi, he, hch, _, _, _⟩ ht
    refine ⟨?_, ?_, ?_, ?_, ht.cmds_time ((seqFailed_core ..).trans (opened_core s))⟩
    · have h : t.bb.linkErrors = modAt s.bb.linkErrors i fun n => satAdd 32 n 1 := congrArg (fun x => x.2.2.2) ht.counts
      rw [h, getD_modAt_same he]
    · rw [ht.channelOf]
      exact congrArg Channel.inv (channelOf_onTile_even hch)
    · rw [ht.channelOf]
      exact congrArg Channel.inv (channelOf_onTile_odd hch)
    · rw [ht.tileOf, seqFailed, tileOf_setTile (by exact hi)]
      rfl

theorem tileLinkRetrain_starts (i : Nat) : EventTo (fun k => .tileLinkRetrain k i)
    (fun _ s => i < s.variant.tiles ∧ i < s.hub.tiles.length ∧ 2 * i + 1 < s.conv.channels.length ∧ (tileOf s i).attempt = 0 ∧ (tileOf s i).dead = none
      ∧ 64 < (recentFails s i).length)
    (fun _ s t => (tileOf t i).attempt = 1 ∧ (tileOf t i).since = s.index + 1 ∧ ((channelOf t (2 * i)).tile.any fun x => x.hi.isNone) = true
      ∧ ((channelOf t (2 * i + 1)).tile.any fun x => x.hi.isNone) = true ∧ t.cmds = s.cmds ∧ t.time = s.time) := by
  refine eventTo_same (g := fun _ => retraining i) (fun _ _ => rfl) (fun k s ⟨hv, _, _, ha, hd, hn⟩ _ => ?_) (fun _ s => retraining_core i s) ?_
  · rw [evTileLinkRetrain_starts (s := opened s) hv ha hd hn]
    exact tileEntry_units ..
  · intro k s t ⟨_, hi, hch, _, _, _⟩ ht
    have htile := (ht.tileOf i).trans (tileOf_setTile (s := opened s) (f := fun x => { x with attempt := 1, since := s.index + 1 }) hi)
    refine ⟨by rw [htile], by rw [htile], ?_, ?_, ht.cmds_time ((retraining_core ..).trans (opened_core s))⟩
    · rw [ht.channelOf, retraining, channelOf_onTile_even (by exact hch)]
      exact openTile_open ..
    · rw [ht.channelOf, retraining, channelOf_onTile_odd (by exact hch)]
      exact openTile_open ..

/-- A link that has retrained. -/
def retrained (i : Nat) (s : State) : State := onTile i (closeTile (s.index + 1)) (setTile i (fun x => { x with attempt := 0, recent := [] }) s)

theorem retrained_core (i : Nat) (s : State) : core (retrained i s) = core s := (onTile_core ..).trans (setTile_core ..)

theorem tileRetrainEnd_succeeds (i : Nat) : EventTo (fun k => .tileRetrainEnd k i true)
    (fun _ s => (tileOf s i).attempt ≠ 0 ∧ i < s.hub.tiles.length ∧ 2 * i + 1 < s.conv.channels.length)
    (fun _ s t => (tileOf t i).attempt = 0 ∧ (tileOf t i).recent = [] ∧ ((channelOf t (2 * i)).tile.any fun x => x.hi.isNone) = false
      ∧ ((channelOf t (2 * i + 1)).tile.any fun x => x.hi.isNone) = false ∧ t.cmds = s.cmds ∧ t.time = s.time) := by
  refine eventTo_same (g := fun _ => retrained i) (fun _ _ => rfl) (fun k s ⟨ha, _, _⟩ _ => ?_) (fun _ s => retrained_core i s) ?_
  · rw [evTileRetrainEnd_succeeds (s := opened s) ha]
    exact SameUnits.refl _
  · intro k s t ⟨_, hi, hch⟩ ht
    have htile := (ht.tileOf i).trans (tileOf_setTile (s := opened s) (f := fun x => { x with attempt := 0, recent := [] }) hi)
    refine ⟨by rw [htile], by rw [htile], ?_, ?_, ht.cmds_time ((retrained_core ..).trans (opened_core s))⟩
    · rw [ht.channelOf, retrained, channelOf_onTile_even (by exact hch)]
      exact closeTile_closed ..
    · rw [ht.channelOf, retrained, channelOf_onTile_odd (by exact hch)]
      exact closeTile_closed ..

theorem tileRetrainEnd_retries (i : Nat) : EventTo (fun k => .tileRetrainEnd k i false)
    (fun _ s => (tileOf s i).attempt ≠ 0 ∧ (tileOf s i).attempt < 3 ∧ i < s.hub.tiles.length)
    (fun _ s t => (tileOf t i).attempt = (tileOf s i).attempt + 1 ∧ t.conv = s.conv ∧ t.faultCause = s.faultCause) := by
  refine eventTo_same (g := fun _ => setTile i fun x => { x with attempt := x.attempt + 1 }) (fun _ _ => rfl) (fun k s ⟨ha, hlt, _⟩ _ => ?_)
    (fun _ s => setTile_core ..) ?_
  · rw [evTileRetrainEnd_retries (s := opened s) ha hlt]
    exact tileEntry_units ..
  · intro k s t ⟨_, _, hi⟩ ht
    exact ⟨by rw [ht.tileOf, tileOf_setTile (s := opened s) hi]; rfl, ht.conv, ht.faults⟩

theorem tileRetrainEnd_dies (i : Nat) : EventTo (fun k => .tileRetrainEnd k i false)
    (fun _ s => 3 ≤ (tileOf s i).attempt ∧ i < s.hub.tiles.length)
    (fun _ s t => (tileOf t i).attempt = 0 ∧ (tileOf t i).dead = some (tileOf s i).since ∧ bit t.faultCause 3 = true ∧ t.conv = s.conv) := by
  refine eventTo_same (g := fun _ s => setFault 3 (setTile i (fun x => { x with attempt := 0, dead := some x.since }) s)) (fun _ _ => rfl)
    (fun k s ⟨ha, _⟩ _ => ?_) (fun _ s => (setFault_core ..).trans (setTile_core ..)) ?_
  · rw [evTileRetrainEnd_dies (s := opened s) ha]
    exact SameUnits.refl _
  · intro k s t ⟨_, hi⟩ ht
    have hu := (setFault_units ..).trans ht
    have htile := (hu.tileOf i).trans (tileOf_setTile (s := opened s) (f := fun x => { x with attempt := 0, dead := some x.since }) hi)
    exact ⟨by rw [htile], by rw [htile]; rfl, by rw [ht.faults, setFault_bit (by decide)], hu.conv⟩

/-- The command of an event is gone, and timebase and mode are as they were. -/
theorem completed_post {id : Nat} {st : Status} {pl : List Word} {k : Nat} {s u v t : State} (hu : core u = core s)
    (hv : SameUnits (completeId id st pl k u) v) (ht : SameUnits v t) :
    (t.cmds.any fun c => c.id == id) = false ∧ t.time = s.time ∧ t.mode = s.mode := by
  have he := ends_completeId id st pl k u
  have hc := (hv.trans ht).core
  exact ⟨by rw [core_cmds hc, gone_completeId], (core_time hc).trans (he.time.trans (core_time hu)), (core_mode hc).trans (he.mode.trans (core_mode hu))⟩

theorem completed_calm {id : Nat} {st : Status} {pl : List Word} {k : Nat} {s u v : State} (hs : Calm s) (hu : core u = core s)
    (hv : SameUnits (completeId id st pl k u) v) : Calm v := ((hs.core hu).ends (ends_completeId ..)).core hv.core

theorem flashEraseEnd_ends (x : FlashErase) : EventTo (fun k => .flashEraseEnd k)
    (fun _ s => s.hub.fw.erase = some x ∧ x.slot < s.hub.fw.slots.length)
    (fun _ s t => t.hub.fw.erase = none ∧ t.hub.fw.loadOffset = x.data.length
      ∧ (t.hub.fw.slots.getD x.slot default).data = (flashWrite 0 x.data { data := [], valid := (s.hub.fw.slots.getD x.slot default).valid }).data
      ∧ (∀ i, i ≠ x.slot → t.hub.fw.slots.getD i default = s.hub.fw.slots.getD i default)
      ∧ (t.cmds.any fun c => c.id == x.cmd) = false ∧ t.time = s.time ∧ t.mode = s.mode) := by
  have ends (s : State) (h : s.hub.fw.erase = some x) :
      SameUnits (completeId x.cmd .ok [BitVec.ofNat 32 x.data.length] s.index (erased x s)) (evFlashEraseEnd s) :=
    evFlashEraseEnd_ends h ▸ SameUnits.refl _
  refine eventTo_units (f := fun _ => evFlashEraseEnd) (fun _ _ => rfl)
    (fun k s ⟨he, _⟩ hs => completed_calm (opened_calm hs) (setFw_core ..) (ends (opened s) he)) ?_
  intro k s t ⟨he, hx⟩ _ ht
  have hu := ends (opened s) he
  have hfw : t.hub.fw = (erased x (opened s)).hub.fw := by rw [(hu.trans ht).hub, completeId_fw]
  refine ⟨by rw [hfw]; rfl, by rw [hfw]; rfl, ?_, fun i hi => ?_, completed_post ((setFw_core ..).trans (opened_core s)) hu ht⟩
  · rw [hfw]
    exact congrArg FlashSlot.data (getD_modAt_same hx)
  · rw [hfw]
    exact getD_modAt_ne hi

theorem fwImageReady_refuses (pause : Nat) (x : Activation) : EventTo (fun k => .fwImageReady k pause)
    (fun _ s => s.hub.fw.activate = some x ∧ (validImage s.hub.fw x.slot = false ∨ compatImage s.compat s.hub.fw x.slot = false))
    (fun _ s t => t.hub.fw.running = s.hub.fw.running ∧ t.hub.fw.activate = none ∧ t.hub.fw.preferred = s.hub.fw.preferred
      ∧ (t.cmds.any fun c => c.id == x.cmd) = false ∧ t.time = s.time ∧ t.mode = s.mode) := by
  have ends (s : State) (h : s.hub.fw.activate = some x) (hv : validImage s.hub.fw x.slot = false ∨ compatImage s.compat s.hub.fw x.slot = false) :
      SameUnits (completeId x.cmd .badParam [] s.index (imageSeen x s)) (evFwImageReady pause s) := evFwImageReady_refuses h hv ▸ SameUnits.refl _
  refine eventTo_units (f := fun _ => evFwImageReady pause) (fun _ _ => rfl)
    (fun k s ⟨ha, hv⟩ hs => completed_calm (opened_calm hs) (setFw_core ..) (ends (opened s) ha hv)) ?_
  intro k s t ⟨ha, hv⟩ _ ht
  have hu := ends (opened s) ha hv
  have hfw : t.hub.fw = (imageSeen x (opened s)).hub.fw := by rw [(hu.trans ht).hub, completeId_fw]
  exact ⟨by rw [hfw]; rfl, by rw [hfw]; rfl, by rw [hfw]; rfl, completed_post ((setFw_core ..).trans (opened_core s)) hu ht⟩

theorem fwImageReady_activates (pause : Nat) (x : Activation) : EventTo (fun k => .fwImageReady k pause)
    (fun _ s => s.hub.fw.activate = some x ∧ validImage s.hub.fw x.slot = true ∧ compatImage s.compat s.hub.fw x.slot = true)
    (fun _ s t => t.hub.fw.running = x.slot ∧ t.hub.fw.activate = none ∧ t.hub.fw.preferred = (if x.prefer then x.slot else s.hub.fw.preferred)
      ∧ (t.cmds.any fun c => c.id == x.cmd) = false ∧ t.time = s.time ∧ t.mode = s.mode ∧ t.pool = s.pool) := by
  have act (s : State) : core (activated x s) = core s := (setFw_core ..).trans (setFw_core ..)
  refine eventTo_units (f := fun _ => evFwImageReady pause) (fun _ _ => rfl)
    (fun k s ⟨ha, hv, hc⟩ hs => completed_calm (opened_calm hs) (act _) (evFwImageReady_activates (s := opened s) ha hv hc)) ?_
  intro k s t ⟨ha, hv, hc⟩ _ ht
  have hu := evFwImageReady_activates (pause := pause) (s := opened s) ha hv hc
  have hfw : t.hub.fw = (activated x (opened s)).hub.fw := by rw [(hu.trans ht).hub, completeId_fw]
  have hpool : t.pool = s.pool := by rw [(hu.trans ht).pool, completeId_pool]; rfl
  obtain ⟨hgone, htime, hmode⟩ := completed_post ((act _).trans (opened_core s)) hu ht
  exact ⟨by rw [hfw]; rfl, by rw [hfw]; rfl, by rw [hfw]; rfl, hgone, htime, hmode, hpool⟩

/-- An event that does nothing here. -/
theorem event_idle {f : Nat → State → State} {ev : Nat → Instr} {pre : Nat → State → Prop} (hrow : ∀ k s, exec (ev k) s = runEvent (f k) k s)
    (hf : ∀ k s, pre k s → f k (opened s) = opened s) : Event ev pre fun _ s => s := event_of_core hrow hf fun _ _ => rfl

/-- Settles O46, clause by clause: the theorems above say what an event does where its condition holds, and `event_idle` that it does nothing elsewhere. -/
theorem hubEvents : Obligations.HubEvents :=
  ⟨lockstepMismatch_halts, lockstepMismatch_retires,
    fun _ _ _ _ => event_idle (fun _ _ => rfl) fun _ s h => evLockstepMismatch_idle (s := opened s) h,
    coreSelftestEnd_passes, coreSelftestEnd_fails,
    fun _ _ => event_idle (fun _ _ => rfl) fun _ s h => evCoreSelftestEnd_idle (s := opened s) h,
    watchdogExpiry_halts, watchdogExpiry_resets, event_idle (fun _ _ => rfl) fun _ s _ => evWatchdogExpiry_idle (opened s),
    tileLinkSeqFail_fails, tileLinkRetrain_starts, tileRetrainEnd_succeeds, tileRetrainEnd_retries, tileRetrainEnd_dies,
    fun _ => event_idle (fun _ _ => rfl) fun _ s h => evTileLinkSeqFail_idle (s := opened s) h,
    fun _ _ => event_idle (fun _ _ => rfl) fun _ s h => evTileRetrainEnd_idle (s := opened s) h,
    flashEraseEnd_ends, event_idle (fun _ _ => rfl) fun _ s h => evFlashEraseEnd_idle (s := opened s) h,
    fwImageReady_refuses, fwImageReady_activates, fun _ => event_idle (fun _ _ => rfl) fun _ s h => evFwImageReady_idle (s := opened s) h⟩

end Sys2Proof.Machine
end

section
/-! What the operations of the device leave of the queue and of the notices that wait. No operation but a delivery and a reset changes whether the
buffers of notices fit: a notice that is held lengthens only a buffer that has room. -/

namespace Sys2Proof.Machine

/-- What every row but a delivery and a reset keeps: the queue, and whether the buffers of notices fit. -/
def ways (s : State) : List Instr × Bool := (s.pending, s.noticesFit)

/-- Every other field may change. -/
theorem ways_mk (s : State) (out_ : _) (variant_ : _) (compat_ : _) (index_ : _) (ready_ : _) (mode_ : _) (shadowed_ : _) (nextId_ : _) (cmds_ : _)
    (qps_ : _) (spi_ : _) (ctlport_ : _) (routes_ : _) (aside_ : _) (glob_ : _) (pool_ : _) (time_ : _) (conv_ : _) (eqs_ : _) (tuners_ : _)
    (engines_ : _) (dens_ : _) (spgm_ : _) (trig_ : _) (cap_ : _) (intg_ : _) (th_ : _) (strm_ : _) (packers_ : _) (mq_ : _) (tdc_ : _) (mc_ : _)
    (maint_ : _) (disp_ : _) (hub_ : _) (dbg_ : _) (pair_ : _) (bb_ : _) (faultCause_ : _) (faultActive_ : _) (hist_ : _) (free_ : _) :
    ways (State.mk s.pending out_ variant_ compat_ index_ ready_ mode_ shadowed_ nextId_ cmds_ qps_ spi_ ctlport_ routes_ s.notices aside_ glob_
      pool_ time_ conv_ eqs_ tuners_ engines_ dens_ spgm_ trig_ cap_ intg_ th_ strm_ packers_ mq_ tdc_ mc_ maint_ disp_ hub_ dbg_ pair_ bb_
      faultCause_ faultActive_ hist_ free_) = ways s := rfl

@[simp] theorem ways_ite {p : Prop} [Decidable p] (a b : State) : ways (if p then a else b) = if p then ways a else ways b := apply_ite ways p a b

@[simp] theorem ways_foldl {β : Type} {l : List β} {f : State → β → State} {s : State} (h : ∀ a i, ways (f a i) = ways a) :
    ways (l.foldl f s) = ways s := by
  induction l generalizing s with
  | nil => rfl
  | cons x t ih => exact ih.trans (h s x)

@[simp] theorem ways_foldl_snd {α β : Type} {l : List β} {f : α × State → β → α × State} {r : α × State} (h : ∀ a i, ways (f a i).2 = ways a.2) :
    ways (l.foldl f r).2 = ways r.2 := by
  induction l generalizing r with
  | nil => rfl
  | cons x t ih => exact ih.trans (h r x)

@[simp] theorem ways_foldl_fst {α β : Type} {l : List β} {f : State × α → β → State × α} {r : State × α} (h : ∀ a i, ways (f a i).1 = ways a.1) :
    ways (l.foldl f r).1 = ways r.1 := by
  induction l generalizing r with
  | nil => rfl
  | cons x t ih => exact ih.trans (h r x)

/-- A change of one buffer that neither overfills it nor relieves it. -/
theorem forall_held_modAt {l : List NoticeBuffer} {d : Nat} {f : NoticeBuffer → NoticeBuffer}
    (hf : (f (l.getD d default)).held.length ≤ 64 ↔ (l.getD d default).held.length ≤ 64) :
    (∀ b ∈ modAt l d f, b.held.length ≤ 64) ↔ ∀ b ∈ l, b.held.length ≤ 64 := by
  simp only [List.forall_mem_iff_getElem, modAt, List.length_modify, List.getElem_modify]
  refine forall_congr' fun i => forall_congr' fun hi => ?_
  split_ifs with hd
  · subst hd
    simpa [List.getD_eq_getElem?_getD, List.getElem?_eq_getElem hi] using hf
  · rfl

/-- A held notice lengthens a buffer that has room, and no other. -/
theorem holdNotice_noticesFit (d : Nat) (e : Entry) (s : State) : (holdNotice d e s).noticesFit = s.noticesFit := by
  rw [Bool.eq_iff_iff, noticesFit_iff, noticesFit_iff, holdNotice_notices]
  refine and_congr (by simp [modAt]) (forall_held_modAt ?_)
  rw [← noticeBuf]
  split_ifs
  · simp only [List.length_append, List.length_singleton]
    omega
  · simp only [List.length_append, List.length_tail, List.length_singleton]
    omega

/-! ### Shared operations -/

@[simp] theorem emit_ways (o : Output) (s : State) : ways (emit o s) = ways s := rfl

@[simp] theorem raiseVector_ways (v : Nat) (s : State) : ways (raiseVector v s) = ways s := by simp [raiseVector]

@[simp] theorem latchGint_ways (b : Nat) (s : State) : ways (latchGint b s) = ways s := by simp [latchGint, ↓ways_mk]

@[simp] theorem setStrm_ways (f : StreamUnit → StreamUnit) (s : State) : ways (setStrm f s) = ways s := rfl

@[simp] theorem setPort_ways (p : Nat) (f : EthPort → EthPort) (s : State) : ways (setPort p f s) = ways s := rfl

@[simp] theorem countRx_ways (p : Nat) (f : EthPort → EthPort) (s : State) : ways (countRx p f s) = ways s := rfl

@[simp] theorem discardRx_ways (p : Nat) (s : State) : ways (discardRx p s) = ways s := rfl

@[simp] theorem sendDatagram_ways (dest : Sender) (l : List Entry) (s : State) : ways (sendDatagram dest l s) = ways s := rfl

@[simp] theorem setQp_ways (q : Nat) (f : QueuePair → QueuePair) (s : State) : ways (setQp q f s) = ways s := rfl

@[simp] theorem stopQp_ways (q code : Nat) (s : State) : ways (stopQp q code s) = ways s := by
  unfold stopQp
  split <;> simp

@[simp] theorem tryRq_ways (q : Nat) (e : Entry) (s : State) : ways (tryRq q e s).1 = ways s := by
  unfold tryRq
  dsimp only
  repeat' split
  all_goals simp

@[simp] theorem replyQp_ways (q : Nat) (e : Entry) (s : State) : ways (replyQp q e s) = ways s := by
  have h := tryRq_ways q e s
  unfold replyQp
  dsimp only
  split
  · exact setQp_ways ..
  · split <;> next hr => simp_all

@[simp] theorem rememberReply_ways (id : Nat) (e : Entry) (s : State) : ways (rememberReply id e s) = ways s := rfl

@[simp] theorem diverge_ways (mseq : Nat) (s : State) : ways (diverge mseq s) = ways s := by simp [diverge, ↓ways_mk]

@[simp] theorem writeReply_ways (c : Cmd) (e : Entry) (s : State) : ways (writeReply c e s) = ways s := by
  unfold writeReply
  repeat' split
  all_goals simp [↓ways_mk]

@[simp] theorem deliverReply_ways (c : Cmd) (e : Entry) (s : State) : ways (deliverReply c e s) = ways s := by simp [deliverReply, ↓ways_mk]

@[simp] theorem complete_ways (c : Cmd) (st : Status) (payload : List Word) (idx : Nat) (s : State) :
    ways (complete c st payload idx s) = ways s := by
  unfold complete
  split <;> simp [↓ways_mk]

@[simp] theorem firstReply_ways (c : Cmd) (st : Status) (idx : Nat) (s : State) : ways (firstReply c st idx s) = ways s :=
  by simp [firstReply, ↓ways_mk]

@[simp] theorem keepRunning_ways (c : Cmd) (s : State) : ways (keepRunning c s) = ways s := rfl

@[simp] theorem completeId_ways (id : Nat) (st : Status) (payload : List Word) (idx : Nat) (s : State) :
    ways (completeId id st payload idx s) = ways s := by
  unfold completeId
  split <;> simp

@[simp] theorem putNotice_ways (d : Nat) (e : Entry) (s : State) : ways (putNotice d e s).1 = ways s := by
  unfold putNotice
  repeat' split
  all_goals simp [↓ways_mk]

@[simp] theorem holdNotice_ways (d : Nat) (e : Entry) (s : State) : ways (holdNotice d e s) = ways s := by
  have hp : (holdNotice d e s).pending = s.pending := by rw [holdNotice_frame]
  simp only [ways, hp, holdNotice_noticesFit]

@[simp] theorem sendNotice_ways (d : Nat) (e : Entry) (s : State) : ways (sendNotice d e s) = ways s := by
  have hput := putNotice_ways d e s
  unfold sendNotice
  split
  · split <;> next hr => simp_all
  · simp

@[simp] theorem notify_ways (code : Nat) (payload : List Word) (idx : Nat) (s : State) : ways (notify code payload idx s) = ways s := by
  unfold notify
  split <;> simp [↓ways_mk]

@[simp] theorem sendAside_ways (s : State) : ways (sendAside s) = ways s := by simp [sendAside, ↓ways_mk]

@[simp] theorem setPart_ways (slot : Nat) (f : Partition → Partition) (s : State) : ways (setPart slot f s) = ways s := rfl

@[simp] theorem poolWrite_ways (slot o : Nat) (bytes : List Byte) (s : State) : ways (poolWrite slot o bytes s) = ways s := rfl

@[simp] theorem advance_ways (locked : Bool) (k : Nat) (s : State) : ways (advance locked k s) = ways s := by simp [advance, ↓ways_mk]

/-! ### Time, faults and memory errors -/

@[simp] theorem keepNotes_ways (s : State) : ways (keepNotes s) = ways s := by simp [keepNotes, ↓ways_mk]

@[simp] theorem atTime_ways (k : Nat) (s : State) : ways (atTime k s) = ways s := by simp [atTime]

@[simp] theorem bbFreeze_ways (event : Nat) (s : State) : ways (bbFreeze event s) = ways s := by simp [bbFreeze, ↓ways_mk]

@[simp] theorem bbWrite_ways (unit place event : Nat) (data : List Word) (idx : Nat) (s : State) :
    ways (bbWrite unit place event data idx s) = ways s := by rw [bbWrite_frame]; rfl

@[simp] theorem setFault_ways (b : Nat) (s : State) : ways (setFault b s) = ways s := by simp [setFault, ↓ways_mk]

@[simp] theorem endFault_ways (b : Nat) (s : State) : ways (endFault b s) = ways s := rfl

@[simp] theorem detectUe_ways (slot offset : Nat) (s : State) : ways (detectUe slot offset s) = ways s := by
  unfold detectUe
  split <;> simp [↓ways_mk]

@[simp] theorem countCe_ways (slot n : Nat) (s : State) : ways (countCe slot n s) = ways s := by simp [countCe, ↓ways_mk]

@[simp] theorem countStore_ways (store ce ue passes : Nat) (s : State) : ways (countStore store ce ue passes s) = ways s := rfl

@[simp] theorem bringErrors_ways (l : List MemError) (s : State) : ways (bringErrors l s) = ways s := by simp [bringErrors]

@[simp] theorem takeFree_ways (s : State) : ways (takeFree s).2 = ways s := rfl

/-! ### The path of a command -/

@[simp] theorem settleFate_ways (c : Cmd) (idx : Nat) (r : State × Fate) : ways (settleFate c idx r) = ways r.1 := by
  unfold settleFate
  split <;> simp [↓ways_mk]

@[simp] theorem sendForward_ways (c : Cmd) (e : Option Nat) (data : List Byte) (s : State) : ways (sendForward c e data s) = ways s := rfl

@[simp] theorem forwardCmd_ways (sp : CmdSpec) (c : Cmd) (e : Option Nat) (s : State) : ways (forwardCmd sp c e s) = ways s :=
  by simp [forwardCmd, ↓ways_mk]

@[simp] theorem holdCmd_ways (c : Cmd) (e : Option Nat) (s : State) : ways (holdCmd c e s) = ways s := by
  unfold holdCmd
  split <;> simp [↓ways_mk]

@[simp] theorem refuseEffects_ways (c : Cmd) (st : Status) (s : State) : ways (refuseEffects c st s) = ways s := by simp [refuseEffects]

@[simp] theorem hostResult_ways (id address : Nat) (bytes : List Byte) (s : State) : ways (hostResult id address bytes s).1 = ways s := by
  unfold hostResult
  repeat' split
  all_goals simp

/-! ### The sample path -/

@[simp] theorem bringVolts_ways (l : List Volts) (s : State) : ways (bringVolts l s) = ways s := by simp [bringVolts, ↓ways_mk]

/-! ### Converters -/

@[simp] theorem setChannel_ways (c : Nat) (f : Channel → Channel) (s : State) : ways (setChannel c f s) = ways s := rfl

@[simp] theorem settleConv_ways (stop next : Nat) (s : State) : ways (settleConv stop next s) = ways s := rfl

@[simp] theorem ovrNotice_ways (c j : Nat) (s : State) : ways (ovrNotice c j s) = ways s := by simp [ovrNotice]

@[simp] theorem evOverRange_ways (c first : Nat) (values : List ℚ) (s : State) : ways (evOverRange c first values s) = ways s := by simp [evOverRange]

@[simp] theorem sliceFailed_ways (e c slice : Nat) (s : State) : ways (sliceFailed e c slice s) = ways s := by
  unfold sliceFailed
  dsimp only
  repeat' split
  all_goals simp

@[simp] theorem testChannel_ways (e : Nat) (x : SliceSums) (s : State) : ways (testChannel e x s) = ways s := by simp [testChannel]

@[simp] theorem evSliceMonitorWindow_ways (sums : List SliceSums) (s : State) : ways (evSliceMonitorWindow sums s) = ways s :=
  by simp [evSliceMonitorWindow]

/-! ### Grids, slots and items -/

@[simp] theorem setTuner_ways (t : Nat) (f : Tuner → Tuner) (s : State) : ways (setTuner t f s) = ways s := rfl

@[simp] theorem setCtx_ways (n : Nat) (f : StreamCtx → StreamCtx) (s : State) : ways (setCtx n f s) = ways s := rfl

@[simp] theorem offerItem_ways (pkind unit seq index : Nat) (source : ItemSource) (s : State) :
    ways (offerItem pkind unit seq index source s) = ways s := by simp [offerItem, ↓ways_mk]

@[simp] theorem sendCheckpoint_ways (n cell : Nat) (ends : Bool) (s : State) : ways (sendCheckpoint n cell ends s) = ways s :=
  by simp [sendCheckpoint]

@[simp] theorem endCtxRun_ways (limit n : Nat) (s : State) : ways (endCtxRun limit n s) = ways s := by
  unfold endCtxRun
  dsimp only
  repeat' split
  all_goals simp

@[simp] theorem endStreams_ways (kind unit limit : Nat) (s : State) : ways (endStreams kind unit limit s) = ways s := by simp [endStreams]

@[simp] theorem startCtxRun_ways (e n : Nat) (s : State) : ways (startCtxRun e n s) = ways s := by simp [startCtxRun]

@[simp] theorem startStreams_ways (kind unit e : Nat) (s : State) : ways (startStreams kind unit e s) = ways s := by simp [startStreams]

@[simp] theorem setEngine_ways (e : Nat) (f : Engine → Engine) (s : State) : ways (setEngine e f s) = ways s := rfl

@[simp] theorem pushRecord_ways (e : Nat) (r : RingRecord) (s : State) : ways (pushRecord e r s) = ways s := rfl

@[simp] theorem emitProduct_ways (e : Nat) (s : State) : ways (emitProduct e s) = ways s := by
  unfold emitProduct
  dsimp only
  repeat' split
  all_goals simp

@[simp] theorem writeAt_ways (h : Word) (o : Nat) (bytes : List Byte) (s : State) : ways (writeAt h o bytes s) = ways s := by
  unfold writeAt
  split <;> rfl

@[simp] theorem setDens_ways (c : Nat) (f : Density → Density) (s : State) : ways (setDens c f s) = ways s := rfl

@[simp] theorem closeDensity_ways (c stop : Nat) (gap early lost busy : Bool) (next : Option Nat) (s0 : State) :
    ways (closeDensity c stop gap early lost busy next s0) = ways s0 := by
  unfold closeDensity
  split <;> simp

@[simp] theorem closeDueDensity_ways (u i : Nat) (lost busy : Bool) (fuel : Nat) (s : State) :
    ways (closeDueDensity u i lost busy fuel s) = ways s := by
  induction fuel generalizing lost busy s with
  | zero => rfl
  | succ fuel ih =>
    unfold closeDueDensity
    dsimp only
    repeat' split
    all_goals simp [ih]

@[simp] theorem densUpTo_ways (u i : Nat) (s : State) : ways (densUpTo u i s) = ways s := by simp [densUpTo]

@[simp] theorem endDensity_ways (c i : Nat) (gap : Bool) (s0 : State) : ways (endDensity c i gap s0) = ways s0 := by
  unfold endDensity
  dsimp only
  repeat' split
  all_goals simp

@[simp] theorem anchorDensity_ways (c e : Nat) (s : State) : ways (anchorDensity c e s) = ways s := rfl

@[simp] theorem setSpgm_ways (i : Nat) (f : Spgm → Spgm) (s : State) : ways (setSpgm i f s) = ways s := rfl

@[simp] theorem emitLine_ways (i : Nat) (lost : Bool) (s : State) : ways (emitLine i lost s) = ways s := by
  unfold emitLine
  dsimp only
  split
  · rfl
  · simp only [setSpgm_ways, ways_ite, offerItem_ways, writeAt_ways, ite_self]

@[simp] theorem checkLineRates_ways (e : Nat) (s : State) : ways (checkLineRates e s) = ways s := by simp [checkLineRates, ↓ways_mk]

/-! ### Capture, triggers and integration along the sample path -/

@[simp] theorem setSheaf_ways (n : Nat) (f : Sheaf → Sheaf) (s : State) : ways (setSheaf n f s) = ways s := rfl

@[simp] theorem setRing_ways (kind unit : Nat) (f : CapRing → CapRing) (s : State) : ways (setRing kind unit f s) = ways s := rfl

@[simp] theorem pendingConfig_ways (c : Cmd) (s : State) : ways (pendingConfig c s) = ways s := by
  have fold (l : List Nat) (f : State → Nat → State) (h : ∀ a i, ways (f a i) = ways a) : ways (l.foldl f s) = ways s := ways_foldl h
  unfold pendingConfig
  split
  all_goals first | rfl | exact fold _ _ fun _ _ => rfl

@[simp] theorem closeSegmentOn_ways (records : List RingRecord) (n reason limit : Nat) (s : State) :
    ways (closeSegmentOn records n reason limit s) = ways s := by
  unfold closeSegmentOn
  dsimp only
  repeat' split
  all_goals rfl

@[simp] theorem closeSegment_ways (n reason limit : Nat) (s : State) : ways (closeSegment n reason limit s) = ways s := by simp [closeSegment]

@[simp] theorem endRun_ways (kind unit reason limit : Nat) (s : State) : ways (endRun kind unit reason limit s) = ways s := by simp [endRun]

@[simp] theorem startRun_ways (kind unit e : Nat) (s : State) : ways (startRun kind unit e s) = ways s := rfl

@[simp] theorem resizeRing_ways (e : Nat) (s : State) : ways (resizeRing e s) = ways s := by
  unfold resizeRing
  split <;> simp [↓ways_mk]

@[simp] theorem setSlot_ways (c : Nat) (f : TrigSlot → TrigSlot) (s : State) : ways (setSlot c f s) = ways s := rfl

@[simp] theorem pushEvent_ways (x : TrigEvent) (s : State) : ways (pushEvent x s) = ways s := by simp [pushEvent, ↓ways_mk]

@[simp] theorem endEngineEvents_ways (g e : Nat) (s : State) : ways (endEngineEvents g e s) = ways s := by simp [endEngineEvents]

@[simp] theorem setTh_ways (c : Nat) (f : Thresher → Thresher) (s : State) : ways (setTh c f s) = ways s := rfl

@[simp] theorem restartTh_ways (c : Nat) (s : State) : ways (restartTh c s) = ways s := rfl

@[simp] theorem restartThOn_ways (g : Nat) (s : State) : ways (restartThOn g s) = ways s := by simp [restartThOn]

@[simp] theorem setInt_ways (f : IntUnit → IntUnit) (s : State) : ways (setInt f s) = ways s := rfl

@[simp] theorem openIntFrame_ways (x : Nat) (s : State) : ways (openIntFrame x s) = ways s := rfl

@[simp] theorem closeIntFrame_ways (close last : Nat) (s : State) : ways (closeIntFrame close last s) = ways s := by
  unfold closeIntFrame
  split <;> simp

@[simp] theorem stopInt_ways (close i : Nat) (s : State) : ways (stopInt close i s) = ways s := by simp [stopInt]

/-! ### The decisions of the trigger unit -/

@[simp] theorem endBefore_ways (k n : Nat) (s : State) : ways (endBefore k n s) = ways s := by
  unfold endBefore
  split <;> simp

@[simp] theorem sheafTrigger_ways (k trigSeq n : Nat) (s0 : State) : ways (sheafTrigger k trigSeq n s0) = ways s0 := by
  unfold sheafTrigger
  dsimp only
  repeat' split
  all_goals simp

@[simp] theorem armSheaf_ways (e : Nat) (arm finish : Bool) (n : Nat) (s : State) : ways (armSheaf e arm finish n s) = ways s := by simp [armSheaf]

@[simp] theorem winnerAction_ways (k w fmask : Nat) (vs : List Verdict) (s : State) : ways (winnerAction k w fmask vs s) = ways s := by
  unfold winnerAction
  split <;> simp [↓ways_mk]

@[simp] theorem decideIndex_ways (k : Nat) (s : State) : ways (decideIndex k s) = ways s := by
  unfold decideIndex
  dsimp only
  refine (ways_foldl fun _ _ => completeId_ways ..).trans ?_
  split
  · exact (winnerAction_ways ..).trans (ways_mk s ..)
  · exact ways_mk s ..

@[simp] theorem restartSlots_ways (e : Nat) (keep : Bool) (s : State) : ways (restartSlots e keep s) = ways s := rfl

@[simp] theorem stopSlots_ways (e : Nat) (cancel : Bool) (s : State) : ways (stopSlots e cancel s) = ways s := rfl

@[simp] theorem stepSlots_ways (s : State) : ways (stepSlots s) = ways s := rfl

@[simp] theorem applyChange_ways (e : Nat) (x : TrigChange) (s : State) : ways (applyChange e x s) = ways s := by
  cases x with
  | config i g => rfl
  | arm m st => exact ways_foldl fun _ _ => rfl
  | sheaves m arm finish => exact ways_foldl fun _ _ => armSheaf_ways ..

@[simp] theorem afterChanges_ways (s : State) : ways (afterChanges s) = ways s := by simp [afterChanges, ↓ways_mk]

@[simp] theorem decideRun_ways (hi fuel : Nat) (s : State) : ways (decideRun hi fuel s) = ways s := by
  induction fuel generalizing s with
  | zero => rfl
  | succ fuel ih =>
    unfold decideRun
    repeat' split
    all_goals simp [ih]

@[simp] theorem decideSpan_ways (hi : Nat) (s : State) : ways (decideSpan hi s) = ways s := by simp [decideSpan, ↓ways_mk]

@[simp] theorem decideSteps_ways (hi : Nat) (all : Bool) (fuel : Nat) (s : State) : ways (decideSteps hi all fuel s) = ways s := by
  induction fuel generalizing s with
  | zero => rfl
  | succ fuel ih =>
    unfold decideSteps
    dsimp only
    generalize (if all then hi else min hi (undecided s)) = limit
    split
    · split
      · rw [ih, applyChange_ways]
        exact (ways_mk (decideSpan ..) ..).trans (decideSpan_ways ..)
      · exact decideSpan_ways ..
    · exact decideSpan_ways ..

@[simp] theorem dropEvents_ways (s : State) : ways (dropEvents s) = ways s := rfl

@[simp] theorem decideTo_ways (k : Nat) (s : State) : ways (decideTo k s) = ways s := by simp [decideTo]

@[simp] theorem decideBefore_ways (e : Nat) (s : State) : ways (decideBefore e s) = ways s := by simp [decideBefore, ↓ways_mk]

@[simp] theorem changeTrig_ways (e : Nat) (x : TrigChange) (s : State) : ways (changeTrig e x s) = ways s := by simp [changeTrig, ↓ways_mk]

/-! ### Threshers and accumulation -/

@[simp] theorem endThReports_ways (ch e : Nat) (s : State) : ways (endThReports ch e s) = ways s := by simp [endThReports]

@[simp] theorem runThAct_ways (ch e : Nat) (x : ThAct) (s : State) : ways (runThAct ch e x s) = ways s := by
  unfold runThAct
  split <;> simp

@[simp] theorem thCatch_ways (all : Bool) (ch fuel : Nat) (s : State) : ways (thCatch all ch fuel s) = ways s := by
  induction fuel generalizing s with
  | zero => rfl
  | succ fuel ih =>
    unfold thCatch
    split
    · rfl
    · split
      · rw [ih, runThAct_ways, setTh_ways]
      · rfl

@[simp] theorem thCatchAll_ways (all : Bool) (s : State) : ways (thCatchAll all s) = ways s := by simp [thCatchAll]

@[simp] theorem thAct_ways (ch e : Nat) (x : ThAct) (s : State) : ways (thAct ch e x s) = ways s := by simp [thAct]

@[simp] theorem thTake_ways (c : Nat) (invalid dropped : Bool) (binStart : Nat) (powers : List Dyad) (s : State) :
    ways (thTake c invalid dropped binStart powers s).1 = ways s := by
  unfold thTake
  dsimp only
  repeat' split
  all_goals simp

@[simp] theorem accumulateBin_ways (ms : List IntMember) (p j arr cnt : Nat) (first : Bool) (s : State) :
    ways (accumulateBin ms p j arr cnt first s) = ways s := by simp [accumulateBin]

@[simp] theorem accumulateSet_ways (ms : List IntMember) (s : State) : ways (accumulateSet ms s) = ways s := by simp [accumulateSet]

@[simp] theorem closeDueInt_ways (key32 fuel : Nat) (s : State) : ways (closeDueInt key32 fuel s) = ways s := by
  induction fuel generalizing s with
  | zero => rfl
  | succ fuel ih =>
    unfold closeDueInt
    repeat' split
    all_goals simp [ih]

@[simp] theorem intUpTo_ways (key32 : Nat) (s : State) : ways (intUpTo key32 s) = ways s := by simp [intUpTo]

@[simp] theorem mapIntFrame_ways (f : IntFrame → IntFrame) (s : State) : ways (mapIntFrame f s) = ways s := rfl

@[simp] theorem accountSet_ways (ms : List IntMember) (lost : Bool) (s : State) : ways (accountSet ms lost s) = ways s := by simp [accountSet]

@[simp] theorem takeSet_ways (ms : List IntMember) (lost dropped : Bool) (s0 : State) : ways (takeSet ms lost dropped s0) = ways s0 := by
  unfold takeSet
  dsimp only
  repeat' split
  all_goals simp

@[simp] theorem evIntSetAccumulate_ways (number : Nat) (drop : Bool) (errors : List MemError) (s0 : State) :
    ways (evIntSetAccumulate number drop errors s0) = ways s0 := by simp [evIntSetAccumulate]

@[simp] theorem intDrain_ways (i fuel : Nat) (s : State) : ways (intDrain i fuel s) = ways s := by
  induction fuel generalizing s with
  | zero => rfl
  | succ fuel ih =>
    unfold intDrain
    repeat' split
    all_goals simp [ih]

@[simp] theorem intBefore_ways (i : Nat) (s : State) : ways (intBefore i s) = ways s := by simp [intBefore]

@[simp] theorem startInt_ways (e : Nat) (s : State) : ways (startInt e s) = ways s := by simp [startInt]

@[simp] theorem runIntAct_ways (e : Nat) (x : IntAct) (s0 : State) : ways (runIntAct e x s0) = ways s0 := by
  unfold runIntAct
  split <;> simp

@[simp] theorem intCatch_ways (all : Bool) (fuel : Nat) (s : State) : ways (intCatch all fuel s) = ways s := by
  induction fuel generalizing s with
  | zero => rfl
  | succ fuel ih =>
    unfold intCatch
    split
    · rfl
    · split
      · rw [ih, runIntAct_ways, setInt_ways]
      · rfl

@[simp] theorem intCatchAll_ways (all : Bool) (s : State) : ways (intCatchAll all s) = ways s := by simp [intCatchAll]

@[simp] theorem intAct_ways (e : Nat) (x : IntAct) (s : State) : ways (intAct e x s) = ways s := by simp [intAct]

@[simp] theorem checkIntSource_ways (e i : Nat) (stopped : Bool) (s : State) : ways (checkIntSource e i stopped s) = ways s :=
  by simp [checkIntSource]

@[simp] theorem evIntFrameClose_ways (k : Nat) (s : State) : ways (evIntFrameClose k s) = ways s := by
  unfold evIntFrameClose
  split <;> simp

/-! ### The consumers of spectra -/

@[simp] theorem startDensity_ways (u e : Nat) (s : State) : ways (startDensity u e s) = ways s := by simp [startDensity]

@[simp] theorem runDensAct_ways (u e : Nat) (x : DensAct) (s : State) : ways (runDensAct u e x s) = ways s := by
  unfold runDensAct
  split <;> simp

@[simp] theorem densCatch_ways (all : Bool) (u fuel : Nat) (s : State) : ways (densCatch all u fuel s) = ways s := by
  induction fuel generalizing s with
  | zero => rfl
  | succ fuel ih =>
    unfold densCatch
    split
    · rfl
    · split
      · rw [ih, runDensAct_ways, setDens_ways]
      · rfl

@[simp] theorem densCatchAll_ways (all : Bool) (s : State) : ways (densCatchAll all s) = ways s := by simp [densCatchAll]

@[simp] theorem densAct_ways (u e : Nat) (x : DensAct) (s : State) : ways (densAct u e x s) = ways s := by simp [densAct]

@[simp] theorem densityTake_ways (u key : Nat) (invalid : Bool) (flags : SpecFlags) (regrid : Bool) (cols : List Dyad) (s0 : State) :
    ways (densityTake u key invalid flags regrid cols s0) = ways s0 := by
  unfold densityTake
  dsimp only
  repeat' split
  all_goals simp

@[simp] theorem evDensityFrameClose_ways (k u : Nat) (lost busy : Bool) (s : State) : ways (evDensityFrameClose k u lost busy s) = ways s := by
  unfold evDensityFrameClose
  split <;> simp

@[simp] theorem evDecayStep_ways (k : Nat) (s : State) : ways (evDecayStep k s) = ways s := by simp [evDecayStep]

@[simp] theorem spgmTake_ways (i : Nat) (x : FrameIn) (cols : List Dyad) (lost : Bool) (s : State) : ways (spgmTake i x cols lost s) = ways s :=
  by simp [spgmTake]

@[simp] theorem runSpgmAct_ways (i : Nat) (x : SpgmAct) (s : State) : ways (runSpgmAct i x s) = ways s := by
  unfold runSpgmAct
  split <;> simp

@[simp] theorem spgmCatch_ways (all : Bool) (i fuel : Nat) (s : State) : ways (spgmCatch all i fuel s) = ways s := by
  induction fuel generalizing s with
  | zero => rfl
  | succ fuel ih =>
    unfold spgmCatch
    split
    · rfl
    · split
      · rw [ih, runSpgmAct_ways, setSpgm_ways]
      · rfl

@[simp] theorem spgmCatchAll_ways (all : Bool) (s : State) : ways (spgmCatchAll all s) = ways s := by simp [spgmCatchAll]

@[simp] theorem spgmAct_ways (i e : Nat) (x : SpgmAct) (s : State) : ways (spgmAct i e x s) = ways s := by simp [spgmAct]

@[simp] theorem catchAll_ways (s : State) : ways (catchAll s) = ways s := by simp [catchAll]

@[simp] theorem afterLate_ways (s : State) : ways (afterLate s) = ways s := by simp [afterLate]

@[simp] theorem switchOutput_ways (x : Spectrum) (s : State) : ways (switchOutput x s) = ways s := by
  unfold switchOutput
  dsimp only
  repeat' split
  all_goals simp

@[simp] theorem productTake_ways (x : Spectrum) (s0 : State) : ways (productTake x s0) = ways s0 := by simp [productTake]

@[simp] theorem trigTake_ways (x : Spectrum) (s : State) : ways (trigTake x s) = ways s := by
  unfold trigTake
  dsimp only
  repeat' split
  all_goals simp

@[simp] theorem thresherTake_ways (x : Spectrum) (dropped : Bool) (s : State) : ways (thresherTake x dropped s) = ways s := by
  unfold thresherTake
  dsimp only
  repeat' split
  all_goals simp

@[simp] theorem completeSpectrum_ways (e : Nat) (linesLost : List Nat) (thDrop : Bool) (s0 : State) :
    ways (completeSpectrum e linesLost thDrop s0) = ways s0 := by simp [completeSpectrum]

@[simp] theorem drainFrames_ways (e i fuel : Nat) (s : State) : ways (drainFrames e i fuel s) = ways s := by
  induction fuel generalizing s with
  | zero => rfl
  | succ fuel ih =>
    unfold drainFrames
    repeat' split
    all_goals simp [ih]

@[simp] theorem drainEngine_ways (e i : Nat) (s : State) : ways (drainEngine e i s) = ways s := by simp [drainEngine]

/-! ### Engine and tuner grids -/

@[simp] theorem endGrid_ways (g e reason : Nat) (s : State) : ways (endGrid g e reason s) = ways s := by simp [endGrid]

@[simp] theorem startGrid_ways (g e : Nat) (s : State) : ways (startGrid g e s) = ways s := by simp [startGrid]

@[simp] theorem checkColumns_ways (g e : Nat) (s : State) : ways (checkColumns g e s) = ways s := by simp [checkColumns]

@[simp] theorem regrid_ways (g e : Nat) (f : Engine → Engine) (s : State) : ways (regrid g e f s) = ways s := by simp [regrid]

@[simp] theorem endFeeds_ways (t e reason : Nat) (s : State) : ways (endFeeds t e reason s) = ways s := by simp [endFeeds]

@[simp] theorem startFeeds_ways (t e : Nat) (s : State) : ways (startFeeds t e s) = ways s := by simp [startFeeds]

@[simp] theorem changeTuner_ways (t e : Nat) (f : Tuner → Tuner) (s : State) : ways (changeTuner t e f s) = ways s := by simp [changeTuner]

/-! ### Trigger commands -/

@[simp] theorem evTrigDecide_ways (k : Nat) (volts : List Volts) (s : State) : ways (evTrigDecide k volts s) = ways s := by simp [evTrigDecide]

/-! ### Segmented capture -/

@[simp] theorem completeSegment_ways (n : Nat) (g : Segment) (s : State) : ways (completeSegment n g s) = ways s :=
  by simp [completeSegment, ↓ways_mk]

@[simp] theorem completeOldest_ways (n : Nat) (s : State) : ways (completeOldest n s) = ways s := by
  unfold completeOldest
  split <;> simp

@[simp] theorem completeAll_ways (n : Nat) (s : State) : ways (completeAll n s) = ways s := by simp [completeAll]

@[simp] theorem ringErrors_ways (n : Nat) (errors : List MemError) (s : State) : ways (ringErrors n errors s) = ways s := by
  unfold ringErrors
  dsimp only
  repeat' split
  all_goals simp

@[simp] theorem closeAtEnd_ways (k n : Nat) (s : State) : ways (closeAtEnd k n s) = ways s := by
  unfold closeAtEnd
  dsimp only
  repeat' split
  all_goals simp

@[simp] theorem evSegmentClose_ways (k n : Nat) (dropped : Bool) (volts : List Volts) (errors : List MemError) (s : State) :
    ways (evSegmentClose k n dropped volts errors s) = ways s := by simp [evSegmentClose]

@[simp] theorem rebind_ways (c : Cmd) (e : Nat) (s : State) : ways (rebind c e s) = ways s := by simp [rebind, ↓ways_mk]

/-! ### The message queue -/

@[simp] theorem setMq_ways (f : MqUnit → MqUnit) (s : State) : ways (setMq f s) = ways s := rfl

@[simp] theorem mqTrim_ways (s : State) : ways (mqTrim s) = ways s := rfl

@[simp] theorem mqLevelCheck_ways (s : State) : ways (mqLevelCheck s) = ways s := by simp [mqLevelCheck]

@[simp] theorem mqRingWrite_ways (pos : Nat) (bytes : List Byte) (s : State) : ways (mqRingWrite pos bytes s) = ways s := by simp [mqRingWrite]

@[simp] theorem mqWrite_ways (bytes : List Byte) (s : State) : ways (mqWrite bytes s) = ways s := by simp [mqWrite]

@[simp] theorem mqPad_ways (s : State) : ways (mqPad s) = ways s := by simp [mqPad]

@[simp] theorem mqItemEnd_ways (s : State) : ways (mqItemEnd s) = ways s := by simp [mqItemEnd]

@[simp] theorem mqAccept_ways (producer unit : Nat) (payload : List Word) (s : State) : ways (mqAccept producer unit payload s) = ways s :=
  by simp [mqAccept]

@[simp] theorem mqOpenHost_ways (h : HostItem) (s : State) : ways (mqOpenHost h s) = ways s := by simp [mqOpenHost]

@[simp] theorem mqCloseHost_ways (s : State) : ways (mqCloseHost s) = ways s := by
  unfold mqCloseHost
  split <;> simp

@[simp] theorem evMqItemAccept_ways (producer : Nat) (s0 : State) : ways (evMqItemAccept producer s0) = ways s0 := by
  unfold evMqItemAccept
  dsimp only
  repeat' split
  all_goals simp [↓ways_mk]

@[simp] theorem evMqLingerExpiry_ways (s : State) : ways (evMqLingerExpiry s) = ways s := by simp [evMqLingerExpiry]

@[simp] theorem mqReadNow_ways (r : MqRead) (s : State) : ways (mqReadNow r s).1 = ways s := by
  unfold mqReadNow
  dsimp only
  repeat' split
  all_goals simp

@[simp] theorem mqFinishRead_ways (s : State) : ways (mqFinishRead s) = ways s := by
  unfold mqFinishRead
  split <;> simp

@[simp] theorem evMqReadComplete_ways (errors : List MemError) (s0 : State) : ways (evMqReadComplete errors s0) = ways s0 := by
  unfold evMqReadComplete
  dsimp only
  repeat' split
  all_goals simp

@[simp] theorem evMqReadTimeout_ways (errors : List MemError) (s : State) : ways (evMqReadTimeout errors s) = ways s := by simp [evMqReadTimeout]

@[simp] theorem mqFlush_ways (s : State) : ways (mqFlush s).1 = ways s := by simp [mqFlush]

@[simp] theorem mqBind_ways (h : Word) (s : State) : ways (mqBind h s) = ways s := by simp [mqBind]

@[simp] theorem mqMask_ways (mask : Nat) (s : State) : ways (mqMask mask s) = ways s := rfl

/-! ### Frames -/

@[simp] theorem setPacker_ways (p : Nat) (f : Packer → Packer) (s : State) : ways (setPacker p f s) = ways s := rfl

@[simp] theorem countPacked_ways (c : StreamConfig) (n : Nat) (bytes : List Byte) (packed raw : Bool) (s : State) :
    ways (countPacked c n bytes packed raw s) = ways s := by simp [countPacked]

/-! ### Streams -/

@[simp] theorem setDest_ways (e : Nat) (f : DestEntry → DestEntry) (s : State) : ways (setDest e f s) = ways s := rfl

@[simp] theorem loseMarks_ways (n index : Nat) (seqs : List Nat) (s : State) : ways (loseMarks n index seqs s) = ways s := ways_foldl fun a m => by
  split
  · split
    · rw [notify_ways, setCtx_ways]
    · rfl
  · rfl

@[simp] theorem attachMarks_ways (n seq index : Nat) (s : State) : ways (attachMarks n seq index s) = ways s := by simp [attachMarks]

@[simp] theorem storePacket_ways (n : Nat) (bytes : List Byte) (index : Nat) (first last : Bool) (s : State) :
    ways (storePacket n bytes index first last s).1 = ways s := by
  unfold storePacket
  dsimp only
  repeat' split
  all_goals simp

@[simp] theorem settlePieces_ways (s : State) : ways (settlePieces s) = ways s := rfl

/-! ### Frames -/

theorem kdpSample_ways {s : State} {n : Nat} {p : StreamPiece} {last : Bool} {note : ClockNote} {elems : List Word} {choice bytes : List Byte}
    {t : State}
    (h : kdpSample s n p last note elems choice = some (bytes, t)) : ways t = ways s := by
  unfold kdpSample at h
  dsimp only at h
  split at h
  · cases h
  · cases h
    exact countPacked_ways ..

/-! ### Streams -/

@[simp] theorem generateSample_ways (n : Nat) (choice : List Byte) (s0 : State) : ways (generateSample n choice s0) = ways s0 := by
  unfold generateSample
  split
  · rfl
  · next p ended _ =>
    extract_lets number s c data elems packet
    clear_value number
    have h : ways s = ways s0 := by
      unfold s
      split <;> rfl
    have hp (bytes : List Byte) (t : State) (hp : packet = some (bytes, t)) : ways t = ways s := by
      unfold packet at hp
      split at hp
      · cases hp; rfl
      · exact kdpSample_ways hp
    clear_value s packet
    split
    · exact h
    · next bytes t => simp [hp bytes t rfl, h]

@[simp] theorem pullMq_ways (n : Nat) (s : State) : ways (pullMq n s) = ways s := by
  unfold pullMq
  dsimp only
  repeat' split
  all_goals rfl

@[simp] theorem skipStale_ways (n fuel : Nat) (s : State) : ways (skipStale n fuel s) = ways s := by
  induction fuel generalizing s with
  | zero => rfl
  | succ fuel ih =>
    unfold skipStale
    dsimp only
    repeat' split
    all_goals simp [ih]

@[simp] theorem regionDone_ways (n : Nat) (s : State) : ways (regionDone n s) = ways s := by simp [regionDone]

@[simp] theorem dropItem_ways (n more : Nat) (s : State) : ways (dropItem n more s) = ways s := rfl

@[simp] theorem generateItem_ways (n : Nat) (choice : List Byte) (s00 : State) : ways (generateItem n choice s00) = ways s00 := by
  unfold generateItem
  dsimp only
  repeat' split
  all_goals simp

@[simp] theorem evStrmPacketGenerate_ways (n : Nat) (volts : List Volts) (choice : List Byte) (errors : List MemError) (s0 : State) :
    ways (evStrmPacketGenerate n volts choice errors s0) = ways s0 := by simp [evStrmPacketGenerate]

@[simp] theorem hostRingWrite_ways (e : Nat) (bytes : List Byte) (s : State) : ways (hostRingWrite e bytes s) = ways s := by
  unfold hostRingWrite
  split <;> simp

@[simp] theorem sendTo_ways (e : Nat) (bytes : List Byte) (s : State) : ways (sendTo e bytes s) = ways s := by
  unfold sendTo
  split <;> simp [↓ways_mk]

@[simp] theorem serveTurn_ways (n link : Nat) (s : State) : ways (serveTurn n link s) = ways s := rfl

@[simp] theorem sendLive_ways (n : Nat) (s : State) : ways (sendLive n s) = ways s := by
  unfold sendLive
  dsimp only
  repeat' split
  all_goals simp

@[simp] theorem sendRewind_ways (n : Nat) (s : State) : ways (sendRewind n s) = ways s := by
  unfold sendRewind
  split <;> simp

@[simp] theorem evStrmPacketSend_ways (n : Nat) (rewind : Bool) (errors : List MemError) (s0 : State) :
    ways (evStrmPacketSend n rewind errors s0) = ways s0 := by simp [evStrmPacketSend]

@[simp] theorem endRewind_ways (n : Nat) (st : Status) (s : State) : ways (endRewind n st s) = ways s := by
  unfold endRewind
  split <;> simp

@[simp] theorem evRewindDone_ways (n : Nat) (s : State) : ways (evRewindDone n s) = ways s := by
  unfold evRewindDone
  split <;> simp

@[simp] theorem evHostRingConsPoll_ways (e cons : Nat) (s : State) : ways (evHostRingConsPoll e cons s) = ways s := by
  unfold evHostRingConsPoll
  split <;> rfl

@[simp] theorem evHostRingIntTime_ways (e : Nat) (s : State) : ways (evHostRingIntTime e s) = ways s := by
  unfold evHostRingIntTime
  split <;> simp

@[simp] theorem evOtherFrame_ways (p : Nat) (s : State) : ways (evOtherFrame p s) = ways s := rfl

@[simp] theorem evPauseFrame_ways (p : Nat) (s : State) : ways (evPauseFrame p s) = ways s := rfl

@[simp] theorem evArpRequest_ways (p mac ip target : Nat) (s : State) : ways (evArpRequest p mac ip target s) = ways s := by simp [evArpRequest]

@[simp] theorem evNeighbourSolicitation_ways (p mac : Nat) (ip target : List Word) (s : State) :
    ways (evNeighbourSolicitation p mac ip target s) = ways s := by simp [evNeighbourSolicitation]

@[simp] theorem evEthLinkChange_ways (p : Nat) (up : Bool) (s : State) : ways (evEthLinkChange p up s) = ways s := by simp [evEthLinkChange]

@[simp] theorem evPtpFrameRx_ways (p stamp : Nat) (frame : List Byte) (s : State) : ways (evPtpFrameRx p stamp frame s) = ways s := by
  unfold evPtpFrameRx
  dsimp only
  repeat' split
  all_goals simp

/-! ### Stream commands and packers -/

@[simp] theorem dropMarkWaits_ways (n : Nat) (s : State) : ways (dropMarkWaits n s) = ways s := by simp [dropMarkWaits]

@[simp] theorem startCtx_ways (e n : Nat) (s : State) : ways (startCtx e n s) = ways s := by
  unfold startCtx
  dsimp only
  repeat' split
  all_goals simp

@[simp] theorem stopCtx_ways (e n : Nat) (s : State) : ways (stopCtx e n s) = ways s := by simp [stopCtx]

@[simp] theorem evPkJobEnd_ways (p : Nat) (choices : List (List Byte)) (errors : List MemError) (s0 : State) :
    ways (evPkJobEnd p choices errors s0) = ways s0 := by
  unfold evPkJobEnd
  dsimp only
  repeat' split
  all_goals simp

/-! ### The maintenance arbiter -/

@[simp] theorem setMaint_ways (f : MaintUnit → MaintUnit) (s : State) : ways (setMaint f s) = ways s := rfl

@[simp] theorem setTdc_ways (f : TdcUnit → TdcUnit) (s : State) : ways (setTdc f s) = ways s := rfl

@[simp] theorem setTdcSlot_ways (n : Nat) (f : TdcSlot → TdcSlot) (s : State) : ways (setTdcSlot n f s) = ways s := rfl

@[simp] theorem countStart_ways (codes : List Nat) (from_ : Option Nat) (k : Nat) (s : State) : ways (countStart codes from_ k s) = ways s :=
  ways_foldl fun _ _ => rfl

@[simp] theorem countWait_ways (codes : List Nat) (s : State) : ways (countWait codes s) = ways s := ways_foldl fun _ _ => rfl

@[simp] theorem pumpDwell_ways (s : State) : ways (pumpDwell s) = ways s := by
  unfold pumpDwell
  split <;> simp

@[simp] theorem dwellDue_ways (s : State) : ways (dwellDue s) = ways s := by simp [dwellDue]

@[simp] theorem clearWay_ways (conflicts : Activity → Bool) (s : State) : ways (clearWay conflicts s) = ways s := rfl

@[simp] theorem dropDwell_ways (s : State) : ways (dropDwell s) = ways s := rfl

@[simp] theorem endActivity_ways (sel : Activity → Bool) (s : State) : ways (endActivity sel s) = ways s := by simp [endActivity]

@[simp] theorem evTdcCalPriority_ways (s : State) : ways (evTdcCalPriority s) = ways s := by
  unfold evTdcCalPriority
  split
  · rfl
  · split
    · rfl
    · rw [pumpDwell_ways, ways_foldl fun _ _ => setTdcSlot_ways .., setMaint_ways]

@[simp] theorem waitActivity_ways (codes : List Nat) (c : Cmd) (key length : Nat) (s : State) :
    ways (waitActivity codes c key length s).1 = ways s := by simp [waitActivity]

/-! ### Interval measurement -/

@[simp] theorem setTdcInput_ways (i : Nat) (f : TdcInput → TdcInput) (s : State) : ways (setTdcInput i f s) = ways s := rfl

@[simp] theorem tdcOffer_ways (n : Nat) (words : List Word) (s : State) : ways (tdcOffer n words s) = ways s := by simp [tdcOffer]

@[simp] theorem emitStats_ways (n : Nat) (s : State) : ways (emitStats n s) = ways s := by simp [emitStats]

@[simp] theorem disarmSlot_ways (n : Nat) (s : State) : ways (disarmSlot n s) = ways s := by simp [disarmSlot]

@[simp] theorem tdcResult_ways (n k : Nat) (r : TdcResult) (s : State) : ways (tdcResult n k r s) = ways s := by
  unfold tdcResult
  dsimp only
  repeat' split
  all_goals simp

@[simp] theorem closeEmpty_ways (n k : Nat) (clock : Bool) (s : State) : ways (closeEmpty n k clock s) = ways s := by
  unfold closeEmpty
  dsimp only
  repeat' split
  all_goals simp

@[simp] theorem closeWith_ways (n : Nat) (e : TdcEdge) (s : State) : ways (closeWith n e s) = ways s := by
  unfold closeWith
  dsimp only
  repeat' split
  all_goals simp

@[simp] theorem intervalEdge_ways (i n : Nat) (e : TdcEdge) (s0 : State) : ways (intervalEdge i n e s0) = ways s0 := by
  unfold intervalEdge
  dsimp only
  repeat' split
  all_goals simp

@[simp] theorem closeWindow_ways (n : Nat) (clock : Bool) (s : State) : ways (closeWindow n clock s) = ways s := by
  unfold closeWindow
  dsimp only
  repeat' split
  all_goals simp

@[simp] theorem closeWindowsBefore_ways (n d fuel : Nat) (s : State) : ways (closeWindowsBefore n d fuel s) = ways s := by
  induction fuel generalizing s with
  | zero => rfl
  | succ fuel ih =>
    unfold closeWindowsBefore
    dsimp only
    repeat' split
    all_goals simp [ih]

@[simp] theorem eventEdge_ways (n : Nat) (e : TdcEdge) (s0 : State) : ways (eventEdge n e s0) = ways s0 := by simp [eventEdge]

@[simp] theorem slotEdge_ways (i : Nat) (e : TdcEdge) (s : State) (n : Nat) : ways (slotEdge i e s n) = ways s := by simp [slotEdge]

@[simp] theorem externalEdge_ways (i stamp accepted : Nat) (s : State) : ways (externalEdge i stamp accepted s) = ways s := by simp [externalEdge]

@[simp] theorem evTdcEdge_ways (i cycle tap : Nat) (s : State) : ways (evTdcEdge i cycle tap s) = ways s := by simp [evTdcEdge]

@[simp] theorem evTdcMeasureTimeout_ways (k n : Nat) (s : State) : ways (evTdcMeasureTimeout k n s) = ways s := by simp [evTdcMeasureTimeout]

@[simp] theorem evTdcWindowClose_ways (k n : Nat) (s : State) : ways (evTdcWindowClose k n s) = ways s := by
  unfold evTdcWindowClose
  dsimp only
  repeat' split
  all_goals simp

@[simp] theorem evProbeLaunch_ways (k n : Nat) (s0 : State) : ways (evProbeLaunch k n s0) = ways s0 := by simp [evProbeLaunch]

@[simp] theorem evTdcStuckTimeout_ways (i : Nat) (s : State) : ways (evTdcStuckTimeout i s) = ways s := by simp [evTdcStuckTimeout]

@[simp] theorem evLevelInactive_ways (i : Nat) (s : State) : ways (evLevelInactive i s) = ways s := rfl

@[simp] theorem setTdcLine_ways (l : Nat) (f : TdcLine → TdcLine) (s : State) : ways (setTdcLine l f s) = ways s := rfl

@[simp] theorem endDwell_ways (s : State) : ways (endDwell s) = ways s := by
  rw [endDwell, clearWay_ways, setMaint_ways, setTdc_ways]

@[simp] theorem evTdcDwellEnd_ways (hits : List Nat) (s : State) : ways (evTdcDwellEnd hits s) = ways s := by
  unfold evTdcDwellEnd
  split <;> simp

@[simp] theorem evTdcTablesReady_ways (hits : List (List Nat)) (s : State) : ways (evTdcTablesReady hits s) = ways s := by simp [evTdcTablesReady]

@[simp] theorem unlockTdc_ways (s : State) : ways (unlockTdc s) = ways s := by
  refine (setTdc_ways ..).trans (ways_foldl fun a n => ?_)
  dsimp only
  repeat' split
  all_goals simp

@[simp] theorem relockTdc_ways (v : Nat) (s : State) : ways (relockTdc v s) = ways s := rfl

@[simp] theorem armTdc_ways (e cmd : Nat) (from_ : Option Nat) (n : Nat) (s : State) : ways (armTdc e cmd from_ n s) = ways s := by simp [armTdc]

/-! ### The timebase -/

@[simp] theorem setTime_ways (f : TimeUnit → TimeUnit) (s : State) : ways (setTime f s) = ways s := rfl

@[simp] theorem startSlew_ways (s : State) : ways (startSlew s) = ways s := rfl

@[simp] theorem requestStep_ways (b : Nat) (cmd : Option Nat) (remeasure : Bool) (s : State) : ways (requestStep b cmd remeasure s) = ways s :=
  by simp [requestStep]

@[simp] theorem endResume_ways (s : State) : ways (endResume s) = ways s := by
  unfold endResume
  dsimp only
  repeat' split
  all_goals simp

@[simp] theorem runRefResume_ways (c : Cmd) (idx : Nat) (s : State) : ways (runRefResume c idx s).1 = ways s := by
  unfold runRefResume
  dsimp only
  repeat' split
  all_goals simp

@[simp] theorem failSyncs_ways (s : State) : ways (failSyncs s) = ways s := by simp [failSyncs]

@[simp] theorem declareLoss_ways (cause dac : Nat) (s : State) : ways (declareLoss cause dac s) = ways s := by
  unfold declareLoss
  dsimp only
  repeat' split
  all_goals simp

@[simp] theorem evRefMissingEdge_ways (dac : Nat) (s : State) : ways (evRefMissingEdge dac s) = ways s := by simp [evRefMissingEdge]

@[simp] theorem evRefFreqCheck_ways (dac : Nat) (ppb : ℤ) (s : State) : ways (evRefFreqCheck dac ppb s) = ways s := by simp [evRefFreqCheck]

@[simp] theorem evRefEdgesReturn_ways (s : State) : ways (evRefEdgesReturn s) = ways s := rfl

@[simp] theorem evRefQualExpiry_ways (ppb : ℤ) (s : State) : ways (evRefQualExpiry ppb s) = ways s := by simp [evRefQualExpiry]

@[simp] theorem evPpsDisambigTimeout_ways (s : State) : ways (evPpsDisambigTimeout s) = ways s := rfl

@[simp] theorem evJumpKnown_ways (measured : ℤ) (s : State) : ways (evJumpKnown measured s) = ways s := by
  unfold evJumpKnown
  extract_lets t j amb s1 held wantsSlew wantsStep refused said s2 rid
  have h2 : ways s2 = ways s := notify_ways ..
  clear_value s2 rid
  split
  · rfl
  · split
    · rfl
    · split
      · split
        · rw [completeId_ways, setTime_ways, h2]
        · exact h2
      · split
        · split
          · rw [completeId_ways, startSlew_ways, h2]
          · rw [startSlew_ways, h2]
        · rw [ways_ite, requestStep_ways, h2, ite_self]

@[simp] theorem evSlewEnd_ways (s : State) : ways (evSlewEnd s) = ways s := by simp [evSlewEnd]

@[simp] theorem evTimeSyncTimeout_ways (id : Nat) (s : State) : ways (evTimeSyncTimeout id s) = ways s := by simp [evTimeSyncTimeout]

@[simp] theorem evPpsInEdge_ways (cycle tap : Nat) (s : State) : ways (evPpsInEdge cycle tap s) = ways s := by simp [evPpsInEdge]

@[simp] theorem evPpsMissingTimeout_ways (s : State) : ways (evPpsMissingTimeout s) = ways s := by simp [evPpsMissingTimeout]

@[simp] theorem evPpsOutPulse_ways (n : Nat) (s : State) : ways (evPpsOutPulse n s) = ways s := by simp [evPpsOutPulse]

/-! ### The monitor converter -/

@[simp] theorem setMc_ways (f : McUnit → McUnit) (s : State) : ways (setMc f s) = ways s := rfl

@[simp] theorem setMcInput_ways (i : Nat) (f : McInput → McInput) (s : State) : ways (setMcInput i f s) = ways s := rfl

@[simp] theorem startSequence_ways (stream : Option McConversion) (s : State) : ways (startSequence stream s) = ways s := by
  unfold startSequence
  repeat' split
  all_goals rfl

@[simp] theorem mcNext_ways (stream : Option McConversion) (s : State) : ways (mcNext stream s) = ways s := by
  unfold mcNext
  repeat' split
  all_goals simp

@[simp] theorem applySequence_ways (s : State) : ways (applySequence s) = ways s := by
  unfold applySequence
  split <;> rfl

@[simp] theorem protect_ways (i : Nat) (value : ℤ) (s : State) : ways (protect i value s) = ways s := by simp [protect]

@[simp] theorem mcHistory_ways (e : List Word) (s : State) : ways (mcHistory e s) = ways s := by simp [mcHistory]

@[simp] theorem mcNotices_ways (old : McInput) (r : McConversion) (code value : ℤ) (ovr : Bool) (st : Bool × Bool) (s : State) :
    ways (mcNotices old r code value ovr st s) = ways s := by simp [mcNotices]

@[simp] theorem mcDeliver_ways (r : McConversion) (volts : ℚ) (given : ℤ) (overload : Bool) (s : State) :
    ways (mcDeliver r volts given overload s) = ways s := by
  unfold mcDeliver
  repeat' split
  all_goals simp

@[simp] theorem evMcConversionEnd_ways (volts : ℚ) (value : ℤ) (overload : Bool) (s : State) :
    ways (evMcConversionEnd volts value overload s) = ways s := by
  unfold evMcConversionEnd
  split <;> simp

@[simp] theorem evMcSystemPass_ways (s : State) : ways (evMcSystemPass s) = ways s := by simp [evMcSystemPass]

@[simp] theorem mcAbort_ways (s : State) : ways (mcAbort s) = ways s := by
  unfold mcAbort
  repeat' split
  all_goals rfl

/-! ### Calibration -/

@[simp] theorem setSlice_ways (c n : Nat) (f : SliceCorr → SliceCorr) (s : State) : ways (setSlice c n f s) = ways s := rfl

@[simp] theorem sliceDwellEnd_ways (k c : Nat) (r : ℤ × ℤ × ℤ) (s : State) : ways (sliceDwellEnd k c r s) = ways s := by simp [sliceDwellEnd]

@[simp] theorem evSliceSwap_ways (k : Nat) (results : List (ℤ × ℤ × ℤ)) (s : State) : ways (evSliceSwap k results s) = ways s :=
  by simp [evSliceSwap, ↓ways_mk]

@[simp] theorem scrubbed_ways (slot corrected : Nat) (found : List Nat) (s : State) : ways (scrubbed slot corrected found s) = ways s :=
  by simp [scrubbed]

@[simp] theorem evScrub_ways (slot corrected : Nat) (found : List Nat) (s : State) : ways (evScrub slot corrected found s) = ways s :=
  by simp [evScrub, ↓ways_mk]

@[simp] theorem evScrubPassEnd_ways (found : List (Nat × Nat × List Nat)) (s : State) : ways (evScrubPassEnd found s) = ways s := by
  unfold evScrubPassEnd
  split <;> simp [↓ways_mk]

@[simp] theorem startMeasure_ways (c : Cmd) (e : Nat) (from_ : Option Nat) (s : State) : ways (startMeasure c e from_ s) = ways s := rfl

@[simp] theorem measureEntry_ways (c : Cmd) (taken : List ℤ) (ch k : Nat) (valid : Bool) (y r : SDyad × SDyad) (s : State) :
    ways (measureEntry c taken ch k valid y r s).2 = ways s := by
  unfold measureEntry
  dsimp only
  repeat' split
  all_goals rfl

@[simp] theorem measureBlock_ways (c : Cmd) (taken : List ℤ) (e ch : Nat) (s : State) : ways (measureBlock c taken e ch s).2 = ways s :=
  by simp [measureBlock]

@[simp] theorem evCalMeasureEnd_ways (volts : List Volts) (s0 : State) : ways (evCalMeasureEnd volts s0) = ways s0 := by
  unfold evCalMeasureEnd
  dsimp only
  repeat' split
  all_goals simp

@[simp] theorem breakMeasure_ways (st : Status) (s : State) : ways (breakMeasure st s) = ways s := by
  unfold breakMeasure
  split <;> simp

@[simp] theorem evActivityStart_ways (s : State) : ways (evActivityStart s) = ways s := by
  unfold evActivityStart
  repeat' split
  all_goals simp

/-! ### The display -/

@[simp] theorem setDisp_ways (f : DispUnit → DispUnit) (s : State) : ways (setDisp f s) = ways s := rfl

@[simp] theorem genLine_ways (s : State) : ways (genLine s).2 = ways s := by
  unfold genLine
  split <;> rfl

@[simp] theorem compose_ways (n : Nat) (s : State) : ways (compose n s) = ways s := rfl

@[simp] theorem trimRefs_ways (s : State) : ways (trimRefs s) = ways s := rfl

@[simp] theorem leaveRun_ways (m : DispMode) (ids : List Nat) (s : State) : ways (leaveRun m ids s) = ways s := by simp [leaveRun]

@[simp] theorem calibrateSkew_ways (s : State) : ways (calibrateSkew s) = ways s := by simp [calibrateSkew]

@[simp] theorem beginPeriod_ways (k : Nat) (abandoned reset : Bool) (s : State) : ways (beginPeriod k abandoned reset s) = ways s :=
  by simp [beginPeriod]

@[simp] theorem linkResetNow_ways (x : DispCrc) (s : State) : ways (linkResetNow x s) = ways s := by simp [linkResetNow]

@[simp] theorem evDispFrameStart_ways (k : Nat) (complete : Bool) (errors : List MemError) (s0 : State) :
    ways (evDispFrameStart k complete errors s0) = ways s0 := by
  unfold evDispFrameStart
  dsimp only
  repeat' split
  all_goals simp

@[simp] theorem evDispLatchLine_ways (s : State) : ways (evDispLatchLine s) = ways s := by simp [evDispLatchLine]

@[simp] theorem evScanoutEnd_ways (k : Nat) (readback : Word) (errors : List MemError) (s : State) :
    ways (evScanoutEnd k readback errors s) = ways s := by
  unfold evScanoutEnd
  repeat' split
  all_goals simp

@[simp] theorem evTeEdge_ways (k ns : Nat) (s : State) : ways (evTeEdge k ns s) = ways s := by simp [evTeEdge]

@[simp] theorem evTeLostTimeout_ways (k : Nat) (s : State) : ways (evTeLostTimeout k s) = ways s := by simp [evTeLostTimeout]

@[simp] theorem endPanel_ways (payload : List Word) (s : State) : ways (endPanel payload s) = ways s := by
  unfold endPanel
  split <;> simp

@[simp] theorem evPanelCmdSend_ways (errorReport : Bool) (response : Option (List Byte)) (s : State) :
    ways (evPanelCmdSend errorReport response s) = ways s := by
  unfold evPanelCmdSend
  repeat' split
  all_goals simp

@[simp] theorem evPanelRespTimeout_ways (s : State) : ways (evPanelRespTimeout s) = ways s := by simp [evPanelRespTimeout]

/-! ### A spectrum that is done -/

@[simp] theorem evSpectrumDone_ways (e : Nat) (volts : List Volts) (linesLost : List Nat) (thDrop : Bool) (errors : List MemError) (s0 : State) :
    ways (evSpectrumDone e volts linesLost thDrop errors s0) = ways s0 := by simp [evSpectrumDone]

/-! ### The pool -/

@[simp] theorem setPool_ways (f : Pool → Pool) (s : State) : ways (setPool f s) = ways s := rfl

@[simp] theorem addRole_ways (slot au : Nat) (s : State) : ways (addRole slot au s) = ways s := by simp [addRole]

@[simp] theorem dropPart_ways (slot : Nat) (s : State) : ways (dropPart slot s) = ways s := rfl

@[simp] theorem releasePart_ways (p : Partition) (s : State) : ways (releasePart p s) = ways s := by
  unfold releasePart
  split <;> simp

@[simp] theorem evMemFreeRelease_ways (slot : Nat) (s : State) : ways (evMemFreeRelease slot s) = ways s := by
  unfold evMemFreeRelease
  repeat' split
  all_goals simp

@[simp] theorem startTransfer_ways (write : Bool) (c : Cmd) (s : State) : ways (startTransfer write c s).1 = ways s := rfl

@[simp] theorem usedFree_ways (n : Nat) (s : State) : ways (usedFree n s) = ways s := rfl

@[simp] theorem evMemTransferEnd_ways (cmd : Nat) (ok : Bool) (hostData : List Byte) (errors : List MemError) (s : State) :
    ways (evMemTransferEnd cmd ok hostData errors s) = ways s := by
  unfold evMemTransferEnd
  dsimp only
  repeat' split
  all_goals simp

/-! ### Tuners -/

@[simp] theorem setEq_ways (c : Nat) (f : Equaliser → Equaliser) (s : State) : ways (setEq c f s) = ways s := rfl

@[simp] theorem settleWide_ways (stop next : Nat) (s : State) : ways (settleWide stop next s) = ways s := rfl

@[simp] theorem evEqHeldStart_ways (c : Nat) (s : State) : ways (evEqHeldStart c s) = ways s := rfl

@[simp] theorem startTuner_ways (t e : Nat) (s : State) : ways (startTuner t e s) = ways s := by simp [startTuner]

@[simp] theorem configTuner_ways (snap : Bool) (decim d gain e t : Nat) (s : State) : ways (configTuner snap decim d gain e t s) = ways s :=
  by simp [configTuner]

@[simp] theorem markRetune_ways (t e : Nat) (s : State) : ways (markRetune t e s) = ways s := by simp [markRetune]

/-! ### Modes and layouts -/

@[simp] theorem finishBefore_ways (e : Nat) (s : State) : ways (finishBefore e s) = ways s := by simp [finishBefore]

@[simp] theorem stopProducts_ways (reason e ring limit : Nat) (gap : Bool) (s0 : State) : ways (stopProducts reason e ring limit gap s0) = ways s0 :=
  by simp [stopProducts]

@[simp] theorem startProducts_ways (e : Nat) (keep : Bool) (s : State) : ways (startProducts e keep s) = ways s := by simp [startProducts]

@[simp] theorem setRunMode_ways (m : Mode) (s : State) : ways (setRunMode m s) = ways s := by simp [setRunMode, ↓ways_mk]

@[simp] theorem leaveCalibrate_ways (e : Nat) (s : State) : ways (leaveCalibrate e s) = ways s := by simp [leaveCalibrate, ↓ways_mk]

@[simp] theorem changeMode_ways (m : Mode) (e : Nat) (s : State) : ways (changeMode m e s) = ways s := by simp [changeMode]

@[simp] theorem loseContext_ways (n e : Nat) (s : State) : ways (loseContext n e s) = ways s := by simp [loseContext]

@[simp] theorem unbindAll_ways (h : Word) (e : Nat) (s0 : State) : ways (unbindAll h e s0) = ways s0 := by simp [unbindAll, ↓ways_mk]

@[simp] theorem layoutSlot_ways (m : Mode) (e slot : Nat) (r : State × Nat) : ways (layoutSlot m e slot r).1 = ways r.1 := by
  unfold layoutSlot
  dsimp only
  repeat' split
  all_goals simp

@[simp] theorem applyLayout_ways (m : Mode) (e : Nat) (s : State) : ways (applyLayout m e s).1 = ways s := by simp [applyLayout]

/-! ### Breaks in the numbering -/

@[simp] theorem stepInt_ways (u : Nat) (g : Option IntGap) (s : State) : ways (stepInt u g s) = ways s := by simp [stepInt]

@[simp] theorem gapInt_ways (u : Nat) (step : Bool) (s : State) : ways (gapInt u step s) = ways s := by simp [gapInt]

@[simp] theorem markGap_ways (u stop : Nat) (s : State) : ways (markGap u stop s) = ways s := rfl

@[simp] theorem skipForced_ways (u : Nat) (s : State) : ways (skipForced u s) = ways s := by
  refine (ways_foldl fun a f => ?_).trans (ways_mk s ..)
  split
  · split
    · exact complete_ways ..
    · rfl
  · rfl

@[simp] theorem gapStop_ways (u reason ring stop : Nat) (step : Bool) (s0 : State) : ways (gapStop u reason ring stop step s0) = ways s0 :=
  by simp [gapStop, ↓ways_mk]

@[simp] theorem settleOld_ways (s : State) : ways (settleOld s) = ways s := by simp [settleOld]

@[simp] theorem renumber_ways (v : Nat) (s0 : State) : ways (renumber v s0) = ways s0 := by simp [renumber, ↓ways_mk]

@[simp] theorem gapStart_ways (v : Nat) (s : State) : ways (gapStart v s) = ways s := by simp [gapStart, ↓ways_mk]

@[simp] theorem skipHeld_ways (u v : Nat) (c : Cmd) (s : State) : ways (skipHeld u v c s) = ways s := by
  unfold skipHeld
  split <;> simp [↓ways_mk]

@[simp] theorem skipGap_ways (u v : Nat) (s : State) : ways (skipGap u v s) = ways s := by simp [skipGap]

@[simp] theorem reportUnlock_ways (u cause : Nat) (s : State) : ways (reportUnlock u cause s) = ways s := by simp [reportUnlock]

@[simp] theorem reportRelock_ways (v : Nat) (s : State) : ways (reportRelock v s) = ways s := by simp [reportRelock]

@[simp] theorem reportStep_ways (b : Nat) (adjust : ℤ) (s : State) : ways (reportStep b adjust s) = ways s := by simp [reportStep]

@[simp] theorem evUnlockDetected_ways (k : Nat) (jrem : ℤ) (s : State) : ways (evUnlockDetected k jrem s) = ways s := by
  unfold evUnlockDetected
  split
  · rfl
  · extract_lets u x step cmd dac s0 s1 s2 s3
    have h0 : ways s0 = ways s := by simp [s0]
    clear_value step cmd dac s0
    have h1 : ways s1 = ways s0 := by
      unfold s1
      split
      · simp [↓ways_mk]
      · rfl
    have h2 : ways s2 = ways s := by simp [s2, h1, h0]
    exact (reportUnlock_ways ..).trans h2

@[simp] theorem evLockAttemptFail_ways (s : State) : ways (evLockAttemptFail s) = ways s := by simp [evLockAttemptFail]

@[simp] theorem evStepBoundary_ways (measured : ℤ) (s : State) : ways (evStepBoundary measured s) = ways s := by
  unfold evStepBoundary
  repeat' split
  all_goals simp [↓ways_mk]

@[simp] theorem firstLock_ways (edge band : Nat) (s : State) : ways (firstLock edge band s) = ways s := by simp [firstLock, ↓ways_mk]

@[simp] theorem evLockConfirmed_ways (edge band : Nat) (s : State) : ways (evLockConfirmed edge band s) = ways s := by
  unfold evLockConfirmed
  dsimp only
  repeat' split
  all_goals simp [↓ways_mk]

@[simp] theorem startSpllConfig_ways (c : Cmd) (s : State) : ways (startSpllConfig c s) = ways s := by simp [startSpllConfig, ↓ways_mk]

@[simp] theorem invAtNew_ways (v : Nat) (s : State) : ways (invAtNew v s) = ways s := rfl

@[simp] theorem captureApply_ways (w : SyncWait) (n : Nat) (s : State) : ways (captureApply w n s) = ways s := by simp [captureApply]

@[simp] theorem evSyncEdgeCapture_ways (pps : Bool) (s : State) : ways (evSyncEdgeCapture pps s) = ways s := by simp [evSyncEdgeCapture]

@[simp] theorem rephaseApply_ways (x : ApplyCapture) (s : State) : ways (rephaseApply x s) = ways s := by simp [rephaseApply, ↓ways_mk]

@[simp] theorem evTimebaseRephase_ways (edge band : Nat) (s : State) : ways (evTimebaseRephase edge band s) = ways s := by
  unfold evTimebaseRephase
  dsimp only
  repeat' split
  all_goals simp [↓ways_mk]

/-! ### Registers, queue pairs and ports -/

@[simp] theorem submitCmd_ways (p : Packet) (s : State) : ways (submitCmd p s) = ways s := rfl

@[simp] theorem writeQpCtrl_ways (q : Nat) (v : Word) (s : State) : ways (writeQpCtrl q v s) = ways s := by simp [writeQpCtrl]

@[simp] theorem writeSqTail_ways (q : Nat) (v : Word) (s : State) : ways (writeSqTail q v s) = ways s := by simp [writeSqTail]

@[simp] theorem writeRqHead_ways (q : Nat) (v : Word) (s : State) : ways (writeRqHead q v s) = ways s := by simp [writeRqHead]

@[simp] theorem writeQpReg_ways (q off : Nat) (v : Word) (s : State) : ways (writeQpReg q off v s) = ways s := by
  unfold writeQpReg
  repeat' split
  all_goals simp

@[simp] theorem afterRead_ways (bar off : Nat) (s : State) : ways (afterRead bar off s) = ways s := by simp [afterRead, ↓ways_mk]

@[simp] theorem clearGint_ways (v : Word) (s : State) : ways (clearGint v s) = ways s := rfl

@[simp] theorem writeGintEnable_ways (v : Word) (s : State) : ways (writeGintEnable v s) = ways s := by simp [writeGintEnable, ↓ways_mk]

@[simp] theorem writeReg_ways (off : Nat) (v : Word) (s : State) : ways (writeReg off v s) = ways s := by
  unfold writeReg
  repeat' split
  all_goals simp [↓ways_mk]

@[simp] theorem writeBar2_ways (off : Nat) (v : Word) (s : State) : ways (writeBar2 off v s) = ways s := by simp [writeBar2, ↓ways_mk]

@[simp] theorem readWord_ways (bar off : Nat) (s : State) : ways (readWord bar off s).2 = ways s := by simp [readWord]

@[simp] theorem readAccess_ways (bar size off : Nat) (s : State) : ways (readAccess bar size off s).2 = ways s := by
  unfold readAccess
  repeat' split
  all_goals simp

@[simp] theorem writeBar_ways (bar off : Nat) (v : Word) (s : State) : ways (writeBar bar off v s) = ways s := by simp [writeBar]

@[simp] theorem evRegisterWrite_ways (bar size off : Nat) (value : BitVec 64) (s : State) : ways (evRegisterWrite bar size off value s) = ways s :=
  by simp [evRegisterWrite]

@[simp] theorem evSqTailDoorbell_ways (q : Nat) (v : Word) (s : State) : ways (evSqTailDoorbell q v s) = ways s := by simp [evSqTailDoorbell]

@[simp] theorem evRqHeadWrite_ways (q : Nat) (v : Word) (s : State) : ways (evRqHeadWrite q v s) = ways s := by simp [evRqHeadWrite]

@[simp] theorem evGintStatusClear_ways (v : Word) (s : State) : ways (evGintStatusClear v s) = ways s := by simp [evGintStatusClear]

@[simp] theorem evQpEnable_ways (q : Nat) (v : Word) (s : State) : ways (evQpEnable q v s) = ways s := by simp [evQpEnable]

@[simp] theorem evQpDisable_ways (q : Nat) (v : Word) (s : State) : ways (evQpDisable q v s) = ways s := by simp [evQpDisable]

@[simp] theorem evIndexLoRead_ways (size off : Nat) (s : State) : ways (evIndexLoRead size off s) = ways s := by simp [evIndexLoRead]

@[simp] theorem evCoalTimeExpiry_ways (q : Nat) (s : State) : ways (evCoalTimeExpiry q s) = ways s := by simp [evCoalTimeExpiry]

@[simp] theorem evCommandFetch_ways (q : Fin 16) (got : Fetched) (s : State) : ways (evCommandFetch q got s) = ways s := by
  unfold evCommandFetch
  repeat' split
  all_goals simp [↓ways_mk]

@[simp] theorem spiSubmit_ways (bytes : List Byte) (s : State) : ways (spiSubmit bytes s) = ways s := by
  unfold spiSubmit
  split <;> simp [↓ways_mk]

@[simp] theorem spiReadReply_ways (cut : Bool) (s : State) : ways (spiReadReply cut s) = ways s := by
  unfold spiReadReply
  repeat' split
  all_goals rfl

@[simp] theorem spiReadStatus_ways (s : State) : ways (spiReadStatus s) = ways s := rfl

@[simp] theorem spiTransaction_ways (code : Byte) (bytes : List Byte) (cut : Bool) (s : State) : ways (spiTransaction code bytes cut s) = ways s := by
  unfold spiTransaction
  split <;> simp

@[simp] theorem ctlPacket_ways (snd : Sender) (words : List Word) (s : State) : ways (ctlPacket snd words s) = ways s := by
  unfold ctlPacket
  repeat' split
  all_goals rfl

@[simp] theorem evCtlportDatagram_ways (snd : Sender) (udp : Nat) (bytes : List Byte) (s0 : State) :
    ways (evCtlportDatagram snd udp bytes s0) = ways s0 := by
  unfold evCtlportDatagram
  dsimp only
  repeat' split
  all_goals simp [↓ways_mk]

/-! ### The pair -/

@[simp] theorem setPair_ways (f : PairUnit → PairUnit) (s : State) : ways (setPair f s) = ways s := rfl

@[simp] theorem holdInternal_ways (opcode : Nat) (words : List Word) (e : Option Nat) (s : State) : ways (holdInternal opcode words e s) = ways s :=
  rfl

@[simp] theorem depose_ways (s : State) : ways (depose s) = ways s := rfl

@[simp] theorem yieldNow_ways (s : State) : ways (yieldNow s) = ways s := rfl

@[simp] theorem yieldClass_ways (cls : Nat) (s : State) : ways (yieldClass cls s) = ways s := by simp [yieldClass]

@[simp] theorem evEgressDownTimeout_ways (port : Nat) (s : State) : ways (evEgressDownTimeout port s) = ways s := by simp [evEgressDownTimeout]

@[simp] theorem evTakeoverRequestReceive_ways (s : State) : ways (evTakeoverRequestReceive s) = ways s := by simp [evTakeoverRequestReceive]

@[simp] theorem evLiveStall_ways (s : State) : ways (evLiveStall s) = ways s := by simp [evLiveStall]

@[simp] theorem passLastSent_ways (n : Nat) (s : State) : ways (passLastSent n s) = ways s := by
  unfold passLastSent
  split
  · rfl
  · exact ways_foldl fun _ _ => rfl

@[simp] theorem renumberItems_ways (n first : Nat) (s : State) : ways (renumberItems n first s) = ways s := rfl

@[simp] theorem loseItemMarks_ways (n : Nat) (s : State) : ways (loseItemMarks n s) = ways s := ways_foldl fun a m => by
  split
  · rw [notify_ways, setCtx_ways]
  · rfl

@[simp] theorem resumeCtx_ways (n : Nat) (s : State) : ways (resumeCtx n s) = ways s := by
  unfold resumeCtx
  dsimp only
  repeat' split
  all_goals simp

@[simp] theorem announce_ways (s : State) : ways (announce s) = ways s := by simp [announce]

@[simp] theorem takeOver_ways (cause : Nat) (s : State) : ways (takeOver cause s) = ways s := by simp [takeOver, ↓ways_mk]

@[simp] theorem evYieldReceive_ways (s : State) : ways (evYieldReceive s) = ways s := by simp [evYieldReceive]

@[simp] theorem evHeartbeatTimeout_ways (s0 : State) : ways (evHeartbeatTimeout s0) = ways s0 := by simp [evHeartbeatTimeout]

@[simp] theorem evPartnerStrobeEdge_ways (s : State) : ways (evPartnerStrobeEdge s) = ways s := by simp [evPartnerStrobeEdge]

@[simp] theorem evPartnerStrobeTimeout_ways (s : State) : ways (evPartnerStrobeTimeout s) = ways s := by simp [evPartnerStrobeTimeout]

@[simp] theorem evHeartbeatSend_ways (s : State) : ways (evHeartbeatSend s) = ways s := by simp [evHeartbeatSend]

@[simp] theorem seeMirror_ways (hb : Heartbeat) (s : State) : ways (seeMirror hb s) = ways s := by simp [seeMirror]

@[simp] theorem checkSkew_ways (s : State) : ways (checkSkew s) = ways s := by simp [checkSkew]

@[simp] theorem leaveMirror_ways (e : Nat) (s : State) : ways (leaveMirror e s) = ways s := by simp [leaveMirror, ↓ways_mk]

@[simp] theorem leaveSoon_ways (id : Option Nat) (s : State) : ways (leaveSoon id s) = ways s := by simp [leaveSoon]

@[simp] theorem evHeartbeatReceive_ways (hb : Heartbeat) (s : State) : ways (evHeartbeatReceive hb s) = ways s := by simp [evHeartbeatReceive]

@[simp] theorem evPairLinkTrained_ways (latency : Nat) (variant : Variant) (compat : Nat) (later : Bool) (s : State) :
    ways (evPairLinkTrained latency variant compat later s) = ways s := by simp [evPairLinkTrained]

@[simp] theorem linkDown_ways (s : State) : ways (linkDown s) = ways s := by
  unfold linkDown
  split <;> simp

@[simp] theorem evPairLinkDown_ways (s : State) : ways (evPairLinkDown s) = ways s := by simp [evPairLinkDown]

@[simp] theorem evPairLaneFail_ways (s : State) : ways (evPairLaneFail s) = ways s := by simp [evPairLaneFail]

@[simp] theorem evPairRelayPacket_ways (entry : Nat) (bytes : List Byte) (s : State) : ways (evPairRelayPacket entry bytes s) = ways s := by
  unfold evPairRelayPacket
  repeat' split
  all_goals simp

@[simp] theorem evForwardedCommand_ways (f : Forwarded) (s : State) : ways (evForwardedCommand f s) = ways s := by
  unfold evForwardedCommand
  dsimp only
  repeat' split
  all_goals simp [↓ways_mk]

@[simp] theorem compareStatus_ways (r : ForwardRecord) (s : State) : ways (compareStatus r s) = ways s := by
  unfold compareStatus
  split <;> simp

@[simp] theorem compareAll_ways (s : State) : ways (compareAll s) = ways s := by simp [compareAll]

@[simp] theorem evMirrorStatusReturn_ways (mseq : Nat) (st : Status) (s : State) : ways (evMirrorStatusReturn mseq st s) = ways s :=
  by simp [evMirrorStatusReturn]

@[simp] theorem renumberCells_ways (n : Nat) (s : State) : ways (renumberCells n s) = ways s := rfl

@[simp] theorem evMirrorStateReceive_ways (m : MirrorState) (s : State) : ways (evMirrorStateReceive m s) = ways s := by
  unfold evMirrorStateReceive
  repeat' split
  all_goals simp

@[simp] theorem keepCounts_ways (old s : State) : ways (keepCounts old s) = ways s := rfl

@[simp] theorem takeSnapshot_ways (fwd : Cmd → Bool) (x : Snapshot) (s : State) : ways (takeSnapshot fwd x s) = ways s := rfl

@[simp] theorem evSnapshotReceive_ways (fwd : Cmd → Bool) (x : Snapshot) (s : State) : ways (evSnapshotReceive fwd x s) = ways s := by
  unfold evSnapshotReceive
  repeat' split
  all_goals simp

@[simp] theorem joinEngine_ways (j g : Nat) (s : State) : ways (joinEngine j g s) = ways s := by simp [joinEngine]

@[simp] theorem joinDensity_ways (j u : Nat) (s : State) : ways (joinDensity j u s) = ways s := by
  unfold joinDensity
  dsimp only
  repeat' split
  all_goals rfl

@[simp] theorem joinUnits_ways (j : Nat) (s : State) : ways (joinUnits j s) = ways s := by simp [joinUnits, ↓ways_mk]

@[simp] theorem evJoinIndex_ways (j : Nat) (s : State) : ways (evJoinIndex j s) = ways s := by
  unfold evJoinIndex
  repeat' split
  all_goals simp [↓ways_mk]

@[simp] theorem switchRoles_ways (w : Nat) (s : State) : ways (switchRoles w s) = ways s := rfl

@[simp] theorem mirrorSwitch_ways (w : Nat) (s : State) : ways (mirrorSwitch w s) = ways s := by simp [mirrorSwitch]

/-! ### Start-up, resets and firmware -/

@[simp] theorem setHub_ways (f : HubUnit → HubUnit) (s : State) : ways (setHub f s) = ways s := rfl

@[simp] theorem setFw_ways (f : Firmware → Firmware) (s : State) : ways (setFw f s) = ways s := rfl

@[simp] theorem runFirmware_ways (slot : Nat) (s : State) : ways (runFirmware slot s) = ways s := by simp [runFirmware, ↓ways_mk]

@[simp] theorem enterRecovery_ways (s : State) : ways (enterRecovery s) = ways s := by simp [enterRecovery, ↓ways_mk]

@[simp] theorem resetEntry_ways (s : State) : ways (resetEntry s) = ways s := by simp [resetEntry]

@[simp] theorem fallbackEntry_ways (failed why booted : Nat) (s : State) : ways (fallbackEntry failed why booted s) = ways s :=
  by simp [fallbackEntry, ↓ways_mk]

theorem bootMark_ways (entry : Bool) (s : State) : ways (bootMark entry s) = ways s := by simp [bootMark]

theorem bootStart_ways (s : State) : ways (bootStart s) = ways s := (setFw_ways ..).trans (ways_mk ..)

@[simp] theorem bootNow_ways (entry : Bool) (s : State) : ways (bootNow entry s) = ways s := by
  rcases bootNow_cases entry s with h | ⟨slot, h | h⟩ <;> rw [h] <;> simp [bootMark_ways, bootStart_ways]

@[simp] theorem evBootStartTimeout_ways (s : State) : ways (evBootStartTimeout s) = ways s := by simp [evBootStartTimeout]

@[simp] theorem fitFlash_ways (x : FlashImage) (s : State) : ways (fitFlash x s) = ways s := rfl

@[simp] theorem resumeIndex_ways (s : State) : ways (resumeIndex s) = ways s := by simp [resumeIndex, ↓ways_mk]

@[simp] theorem reboot_ways (s : State) : ways (reboot s) = ways s := by simp [reboot]

@[simp] theorem compatRestart_ways (level : Nat) (s : State) : ways (compatRestart level s) = ways s := by
  unfold compatRestart
  extract_lets r glob hub r1 dead
  have h1 : ways r1 = ways s := rfl
  exact (applyLayout_ways ..).trans ((ways_foldl fun _ _ => (setChannel_ways ..).trans (setChannel_ways ..)).trans h1)

@[simp] theorem evResetNRelease_ways (s : State) : ways (evResetNRelease s) = ways s := by simp [evResetNRelease]

@[simp] theorem clearHostRings_ways (s : State) : ways (clearHostRings s) = ways s := by simp [clearHostRings]

@[simp] theorem evPcieReset_ways (s : State) : ways (evPcieReset s) = ways s := by simp [evPcieReset, ↓ways_mk]

@[simp] theorem evPcieLinkUp_ways (msix : Bool) (dead : List (Nat × Nat)) (s : State) : ways (evPcieLinkUp msix dead s) = ways s :=
  by simp [evPcieLinkUp, ↓ways_mk]

@[simp] theorem setCore_ways (p : Nat) (f : CorePair → CorePair) (s : State) : ways (setCore p f s) = ways s := rfl

@[simp] theorem resumeService_ways (s : State) : ways (resumeService s) = ways s := by simp [resumeService]

@[simp] theorem loseCommand_ways (id : Nat) (s : State) : ways (loseCommand id s) = ways s := by
  unfold loseCommand
  split <;> simp

@[simp] theorem lockstepEntry_ways (p what : Nat) (s : State) : ways (lockstepEntry p what s) = ways s := by simp [lockstepEntry]

@[simp] theorem retireCore_ways (p : Nat) (s : State) : ways (retireCore p s) = ways s := by simp [retireCore]

@[simp] theorem haltCore_ways (p : Nat) (pc : Word) (begun : List Nat) (s : State) : ways (haltCore p pc begun s) = ways s := by simp [haltCore]

@[simp] theorem evLockstepMismatch_ways (p : Nat) (pc : Word) (ue : Bool) (begun : List Nat) (s : State) :
    ways (evLockstepMismatch p pc ue begun s) = ways s := by simp [evLockstepMismatch]

@[simp] theorem evCoreSelftestEnd_ways (p : Nat) (pass : Bool) (s : State) : ways (evCoreSelftestEnd p pass s) = ways s :=
  by simp [evCoreSelftestEnd, ↓ways_mk]

@[simp] theorem evThermalTrip_ways (input : Nat) (value : ℤ) (s : State) : ways (evThermalTrip input value s) = ways s := by simp [evThermalTrip]

@[simp] theorem setTile_ways (t : Nat) (f : TileLink → TileLink) (s : State) : ways (setTile t f s) = ways s := rfl

@[simp] theorem onTile_ways (t : Nat) (f : Channel → Channel) (s : State) : ways (onTile t f s) = ways s := rfl

@[simp] theorem tileEntry_ways (t attempt : Nat) (s : State) : ways (tileEntry t attempt s) = ways s := by simp [tileEntry]

@[simp] theorem evTileLinkSeqFail_ways (t : Nat) (s : State) : ways (evTileLinkSeqFail t s) = ways s := by simp [evTileLinkSeqFail, ↓ways_mk]

@[simp] theorem evTileLinkRetrain_ways (t : Nat) (s : State) : ways (evTileLinkRetrain t s) = ways s := by simp [evTileLinkRetrain]

@[simp] theorem evTileRetrainEnd_ways (t : Nat) (ok : Bool) (s : State) : ways (evTileRetrainEnd t ok s) = ways s := by simp [evTileRetrainEnd]

@[simp] theorem evFlashEraseEnd_ways (s : State) : ways (evFlashEraseEnd s) = ways s := by
  unfold evFlashEraseEnd
  split <;> simp

@[simp] theorem recoveryBoot_ways (c : Cmd) (s : State) : ways (recoveryBoot c s) = ways s := by simp [recoveryBoot, ↓ways_mk]

@[simp] theorem evFwImageReady_ways (pause : Nat) (s : State) : ways (evFwImageReady pause s) = ways s := by
  unfold evFwImageReady
  split <;> simp

/-! ### The debug port -/

@[simp] theorem setDbg_ways (f : DebugUnit → DebugUnit) (s : State) : ways (setDbg f s) = ways s := rfl

@[simp] theorem debugEntry_ways (place event : Nat) (data : List Word) (s : State) : ways (debugEntry place event data s) = ways s :=
  by simp [debugEntry]

@[simp] theorem evTapReset_ways (s : State) : ways (evTapReset s) = ways s := rfl

@[simp] theorem freeWords_ways (fuel : Nat) (s : State) : ways (freeWords fuel s).2 = ways s := by
  induction fuel generalizing s with
  | zero => rfl
  | succ fuel ih =>
    unfold freeWords
    dsimp only
    simp [ih]

@[simp] theorem newChallenge_ways (s : State) : ways (newChallenge s) = ways s := by simp [newChallenge]

@[simp] theorem evGauntletSelect_ways (s : State) : ways (evGauntletSelect s) = ways s := by simp [evGauntletSelect]

@[simp] theorem boundaryScan_ways (levels shifted : List Bool) (s : State) : ways (boundaryScan levels shifted s) = ways s := rfl

@[simp] theorem evTapInstructionLoad_ways (code : Nat) (levels shifted : List Bool) (s : State) :
    ways (evTapInstructionLoad code levels shifted s) = ways s := by
  unfold evTapInstructionLoad
  dsimp only
  repeat' split
  all_goals simp

@[simp] theorem evGauntletResponse_ways (r : BitVec 776) (s : State) : ways (evGauntletResponse r s) = ways s := by simp [evGauntletResponse]

@[simp] theorem dbgResult_ways (data : Word) (addr st : Nat) (s : State) : ways (dbgResult data addr st s) = ways s := rfl

@[simp] theorem poolWriteWord_ways (p : Partition) (o : Nat) (v : Word) (s : State) : ways (poolWriteWord p o v s) = ways s := rfl

@[simp] theorem readCoreReg_ways (p off : Nat) (s : State) : ways (readCoreReg p off s).2 = ways s := by
  unfold readCoreReg
  dsimp only
  repeat' split
  all_goals rfl

@[simp] theorem freeRegs_ways (p : Nat) (pc : Option Word) (s : State) : ways (freeRegs p pc s) = ways s := by
  unfold freeRegs
  split <;> simp

@[simp] theorem debugHalt_ways (p cause number : Nat) (pc : Option Word) (begun : List Nat) (s : State) :
    ways (debugHalt p cause number pc begun s) = ways s := by simp [debugHalt]

@[simp] theorem debugResume_ways (p : Nat) (s : State) : ways (debugResume p s) = ways s := by simp [debugResume]

@[simp] theorem debugStep_ways (p : Nat) (s : State) : ways (debugStep p s) = ways s := by simp [debugStep]

@[simp] theorem writeDctrl_ways (p : Nat) (v : Word) (begun : List Nat) (s : State) : ways (writeDctrl p v begun s) = ways s := by simp [writeDctrl]

@[simp] theorem writeCoreReg_ways (p off : Nat) (v : Word) (begun : List Nat) (s : State) : ways (writeCoreReg p off v begun s) = ways s :=
  by simp [writeCoreReg]

@[simp] theorem dbgFetch_ways (space addr : Nat) (s : State) : ways (dbgFetch space addr s).2.2 = ways s := by
  unfold dbgFetch
  repeat' split
  all_goals simp

@[simp] theorem dbgStore_ways (space addr : Nat) (v : Word) (begun : List Nat) (s : State) : ways (dbgStore space addr v begun s) = ways s := by
  unfold dbgStore
  repeat' split
  all_goals simp

@[simp] theorem evDbgRead_ways (space addr : Nat) (errors : List MemError) (s : State) : ways (evDbgRead space addr errors s) = ways s :=
  by simp [evDbgRead]

@[simp] theorem countWrite_ways (s : State) : ways (countWrite s) = ways s := by simp [countWrite]

@[simp] theorem evDbgWrite_ways (space addr : Nat) (v : Word) (begun : List Nat) (s : State) : ways (evDbgWrite space addr v begun s) = ways s :=
  by simp [evDbgWrite]

@[simp] theorem evDbgCtrlLock_ways (s : State) : ways (evDbgCtrlLock s) = ways s := by simp [evDbgCtrlLock]

@[simp] theorem evDctrl_ways (p value : Nat) (begun : List Nat) (s : State) : ways (evDctrl p value begun s) = ways s := by simp [evDctrl]

@[simp] theorem evBreakpointHit_ways (p number : Nat) (begun : List Nat) (s : State) : ways (evBreakpointHit p number begun s) = ways s :=
  by simp [evBreakpointHit]

@[simp] theorem evWatchpointHit_ways (p number : Nat) (begun : List Nat) (s : State) : ways (evWatchpointHit p number begun s) = ways s :=
  by simp [evWatchpointHit]

/-! ### What every row ends with -/

@[simp] theorem yieldFaults_ways (old s : State) : ways (yieldFaults old s) = ways s := by simp [yieldFaults]

@[simp] theorem pairNotice_ways (old s : State) : ways (pairNotice old s) = ways s := by simp [pairNotice]

@[simp] theorem passTo_ways (k : Nat) (s : State) : ways (passTo k s) = ways s := by simp [passTo, ↓ways_mk]

end Sys2Proof.Machine
end

section
/-! O59, O56: deliveries, resets, and the executions of the opcodes leave the queue, and the notices within their buffers. -/

namespace Sys2Proof.Machine

/-- From `s` to `t` the queue stands as it was, and the buffers of notices fit, if they did. -/
structure Carries (s t : State) : Prop where
  pending : t.pending = s.pending
  fits : s.noticesFit = true → t.noticesFit = true

theorem Carries.refl (s : State) : Carries s s := ⟨rfl, id⟩

theorem Carries.trans {s t u : State} (a : Carries s t) (b : Carries t u) : Carries s u := ⟨b.pending.trans a.pending, b.fits ∘ a.fits⟩

theorem carries_of_ways {s t : State} (h : ways t = ways s) : Carries s t :=
  have ⟨hp, hn⟩ := Prod.ext_iff.mp h
  ⟨hp, fun hs => Eq.trans hn hs⟩

/-! ### Delivery -/

theorem setNoticeBuf_carries {d : Nat} {f : NoticeBuffer → NoticeBuffer} {s : State}
    (h : (noticeBuf s d).held.length ≤ 64 → (f (noticeBuf s d)).held.length ≤ 64) :
    Carries s (setNoticeBuf d f s) where
  pending := rfl
  fits hs := by
    rw [noticesFit_iff] at hs ⊢
    exact noticesFit_modAt hs fun b hb => hb ▸ h

theorem evNoticeDelivery_carries (d : Nat) (s : State) : Carries s (evNoticeDelivery d s) := by
  unfold evNoticeDelivery
  extract_lets b deliver
  have put (e : Entry) (left : NoticeBuffer → NoticeBuffer) (h : b.held.length ≤ 64 → (left b).held.length ≤ 64) : Carries s (deliver e left) := by
    have hw := putNotice_ways d e s
    have hn := putNotice_notices d e s
    unfold deliver
    split <;> next a hp =>
      rw [hp] at hw hn
      first
      | exact carries_of_ways hw
      | exact (carries_of_ways hw).trans (setNoticeBuf_carries (by rwa [show noticeBuf a d = b by rw [noticeBuf, hn]; rfl]))
  split
  · exact .refl s
  · split
    · exact put _ _ id
    · split
      · exact .refl s
      · next e t ht => exact put _ _ fun h => by rw [ht] at h; exact Nat.le_of_succ_le h

/-! ### Resets -/

theorem powerDown_carries (s : State) : Carries s (powerDown s) := ⟨rfl, fun _ => rfl⟩

theorem hubReset_carries (kind : Nat) (s : State) : Carries s (hubReset kind s) := ⟨rfl, fun _ => rfl⟩

theorem resetAndBoot_carries (kind : Nat) (s : State) : Carries s (resetAndBoot kind s) :=
  (hubReset_carries kind s).trans (carries_of_ways (reboot_ways ..))

theorem evPowerOn_carries (fit : Option FlashImage) (refOk : Bool) (band : Nat) (s : State) : Carries s (evPowerOn fit refOk band s) := by
  unfold evPowerOn
  extract_lets s0 s1
  have h0 : Carries s s0 := powerDown_carries s
  have h1 : Carries s s1 := by
    refine Carries.trans ?_ (carries_of_ways (bootNow_ways ..))
    clear_value s0
    cases fit with
    | none => exact h0
    | some x => exact h0.trans (carries_of_ways (fitFlash_ways ..))
  clear_value s1
  split
  · exact h1.trans (carries_of_ways (setTime_ways ..))
  · split
    · exact h1.trans (carries_of_ways ((firstLock_ways ..).trans (takeFree_ways ..)))
    · exact h1

theorem evResetNLow_carries (s : State) : Carries s (evResetNLow s) := by
  unfold evResetNLow
  split
  · exact .refl s
  · dsimp only
    split
    · exact carries_of_ways ((setHub_ways ..).trans (setHub_ways ..))
    · exact (carries_of_ways (setHub_ways ..)).trans (hubReset_carries ..)

theorem evThermalTripClear_carries (s : State) : Carries s (evThermalTripClear s) := by
  unfold evThermalTripClear
  split
  · exact .refl s
  · split
    · exact (hubReset_carries 4 s).trans (carries_of_ways (by simp))
    · exact carries_of_ways (setHub_ways ..)

theorem evWatchdogExpiry_carries (missed : Nat) (s : State) : Carries s (evWatchdogExpiry missed s) := by
  unfold evWatchdogExpiry
  dsimp only
  split
  · exact .refl s
  · split
    · exact .refl s
    · split
      · exact (carries_of_ways (by simp)).trans (resetAndBoot_carries ..)
      · exact carries_of_ways (ways_foldl fun _ _ => haltCore_ways ..)


/-! ### Executions -/

/-- The execution of an opcode leaves the queue, and the buffers of notices within their 64 entries. -/
def RunCarries (sp : CmdSpec) : Prop := ∀ c e s, Carries s (sp.run c e s).1

theorem runCarries_of_ways {sp : CmdSpec} (h : ∀ c e s, ways (sp.run c e s).1 = ways s) : RunCarries sp := fun c e s => carries_of_ways (h c e s)

theorem specSysCancel_ways (c : Cmd) (e : Nat) (s : State) : ways (specSysCancel.run c e s).1 = ways s := by
  unfold specSysCancel
  dsimp only
  repeat' split
  all_goals rfl

theorem specMemFree_ways (c : Cmd) (e : Nat) (s : State) : ways (specMemFree.run c e s).1 = ways s := by
  unfold specMemFree
  dsimp only
  repeat' split
  all_goals simp

theorem specMemQuery_ways (c : Cmd) (e : Nat) (s : State) : ways (specMemQuery.run c e s).1 = ways s := by
  unfold specMemQuery
  dsimp only
  repeat' split
  all_goals rfl

theorem specStrmMark_ways (c : Cmd) (e : Nat) (s : State) : ways (specStrmMark.run c e s).1 = ways s := by
  unfold specStrmMark
  dsimp only
  repeat' split
  all_goals rfl

theorem specStrmRewind_ways (c : Cmd) (e : Nat) (s : State) : ways (specStrmRewind.run c e s).1 = ways s := by
  unfold specStrmRewind
  dsimp only
  repeat' split
  all_goals rfl

theorem specMaintCancel_ways (c : Cmd) (e : Nat) (s : State) : ways (specMaintCancel.run c e s).1 = ways s := by
  unfold specMaintCancel
  dsimp only
  repeat' split
  all_goals simp

theorem specDispEnable_ways (c : Cmd) (e : Nat) (s : State) : ways (specDispEnable.run c e s).1 = ways s := by
  unfold specDispEnable
  dsimp only
  repeat' split
  all_goals simp

theorem specPairLeave_ways (c : Cmd) (e : Nat) (s : State) : ways (specPairLeave.run c e s).1 = ways s := by
  unfold specPairLeave
  dsimp only
  repeat' split
  all_goals simp

theorem specDiagReset_carries : RunCarries specDiagReset := by
  intro c e s
  unfold specDiagReset
  dsimp only
  split
  · exact resetAndBoot_carries 2 s
  · exact carries_of_ways (holdInternal_ways ..)

theorem specs00_carry : ∀ sp ∈ specs00, RunCarries sp := by
  simp only [specs00, List.forall_mem_cons]
  exact ⟨runCarries_of_ways fun _ _ _ => rfl,
    runCarries_of_ways fun _ _ _ => by simp [specSysMode, apply_ite Prod.fst, ↓ways_mk],
    runCarries_of_ways fun _ _ _ => rfl,
    runCarries_of_ways specSysCancel_ways,
    runCarries_of_ways fun _ _ _ => rfl,
    runCarries_of_ways fun _ _ _ => rfl,
    runCarries_of_ways fun _ _ _ => rfl,
    runCarries_of_ways fun _ _ _ => by simp [specSysCompat], nofun⟩

theorem specs01_carry : ∀ sp ∈ specs01, RunCarries sp := by
  simp only [specs01, List.forall_mem_cons]
  exact ⟨runCarries_of_ways fun _ _ _ => rfl,
    runCarries_of_ways specMemFree_ways,
    runCarries_of_ways specMemQuery_ways,
    runCarries_of_ways fun _ _ _ => rfl,
    runCarries_of_ways fun _ _ _ => rfl,
    runCarries_of_ways fun _ _ _ => rfl, nofun⟩

theorem specs02_carry : ∀ sp ∈ specs02, RunCarries sp := by
  simp only [specs02, List.forall_mem_cons]
  exact ⟨runCarries_of_ways fun _ _ _ => by simp [specTimeSpllConfig],
    runCarries_of_ways fun _ _ _ => rfl,
    runCarries_of_ways fun _ _ _ => setTime_ways ..,
    runCarries_of_ways fun _ _ _ => rfl,
    runCarries_of_ways fun _ _ _ => rfl,
    runCarries_of_ways fun _ _ _ => by simp [specTimeRefResume],
    runCarries_of_ways fun _ _ _ => rfl,
    runCarries_of_ways fun _ _ _ => rfl,
    runCarries_of_ways fun _ _ _ => rfl,
    runCarries_of_ways fun _ _ _ => rfl,
    runCarries_of_ways fun _ _ _ => rfl, nofun⟩

theorem specs03_carry : ∀ sp ∈ specs03, RunCarries sp := by
  simp only [specs03, List.forall_mem_cons]
  exact ⟨runCarries_of_ways fun _ _ _ => rfl,
    runCarries_of_ways fun _ _ _ => ways_foldl fun _ _ => rfl,
    runCarries_of_ways fun _ _ _ => ways_foldl fun _ _ => rfl,
    runCarries_of_ways fun _ _ _ => rfl,
    runCarries_of_ways fun _ _ _ => by simp [specConvStatus],
    runCarries_of_ways fun _ _ _ => rfl, nofun⟩

theorem specs04_carry : ∀ sp ∈ specs04, RunCarries sp := by
  simp only [specs04, List.forall_mem_cons]
  exact ⟨runCarries_of_ways fun _ _ _ => rfl,
    runCarries_of_ways fun _ _ _ => rfl,
    runCarries_of_ways fun _ _ _ => by simp [specEqStatus],
    runCarries_of_ways fun _ _ _ => by simp [specTunerConfig],
    runCarries_of_ways fun _ _ _ => by simp [specTunerRetune],
    runCarries_of_ways fun _ _ _ => by simp [specTunerEnable],
    runCarries_of_ways fun _ _ _ => by simp [specTunerStatus], nofun⟩

theorem specs05_carry : ∀ sp ∈ specs05, RunCarries sp := by
  simp only [specs05, List.forall_mem_cons]
  exact ⟨runCarries_of_ways fun _ _ _ => by simp [specSpecConfig],
    runCarries_of_ways fun _ _ _ => by simp [specSpecEnable],
    runCarries_of_ways fun _ _ _ => ways_foldl fun _ _ => rfl,
    runCarries_of_ways fun _ _ _ => rfl,
    runCarries_of_ways fun _ _ _ => by simp [specSpecStatus], nofun⟩

theorem specs06_carry : ∀ sp ∈ specs06, RunCarries sp := by
  simp only [specs06, List.forall_mem_cons]
  exact ⟨runCarries_of_ways fun _ _ _ => by simp [specDensConfig],
    runCarries_of_ways fun _ _ _ => by simp [specDensEnable],
    runCarries_of_ways fun _ _ _ => by simp [specDensClear],
    runCarries_of_ways fun _ _ _ => by simp [specDensStatus],
    runCarries_of_ways fun _ _ _ => by simp [specSpgmConfig],
    runCarries_of_ways fun _ _ _ => by simp [specSpgmEnable],
    runCarries_of_ways fun _ _ _ => by simp [specSpgmStatus], nofun⟩

theorem specs07_carry : ∀ sp ∈ specs07, RunCarries sp := by
  simp only [specs07, List.forall_mem_cons]
  exact ⟨runCarries_of_ways fun _ _ _ => by simp [specTrigSlotConfig],
    runCarries_of_ways fun _ _ _ => by simp [specTrigArm],
    runCarries_of_ways fun _ _ _ => rfl,
    runCarries_of_ways fun _ _ _ => rfl,
    runCarries_of_ways fun _ _ _ => rfl,
    runCarries_of_ways fun _ _ _ => by simp [specTrigStatus], nofun⟩

theorem specs08_carry : ∀ sp ∈ specs08, RunCarries sp := by
  simp only [specs08, List.forall_mem_cons]
  exact ⟨runCarries_of_ways fun _ _ _ => by simp [specCapSource],
    runCarries_of_ways fun _ _ _ => by simp [specCapSheafConfig],
    runCarries_of_ways fun _ _ _ => by simp [specCapArm],
    runCarries_of_ways fun _ _ _ => by simp [specCapStatus], nofun⟩

theorem specs09_carry : ∀ sp ∈ specs09, RunCarries sp := by
  simp only [specs09, List.forall_mem_cons]
  exact ⟨runCarries_of_ways fun _ _ _ => by simp [specIntConfig],
    runCarries_of_ways fun _ _ _ => by simp [specIntEnable],
    runCarries_of_ways fun _ _ _ => by simp [specIntStatus],
    runCarries_of_ways fun _ _ _ => rfl,
    runCarries_of_ways fun _ _ _ => by simp [specThConfig],
    runCarries_of_ways fun _ _ _ => by simp [specThEnable],
    runCarries_of_ways fun _ _ _ => by simp [specThStatus], nofun⟩

theorem specs0A_carry : ∀ sp ∈ specs0A, RunCarries sp := by
  simp only [specs0A, List.forall_mem_cons]
  exact ⟨runCarries_of_ways fun _ _ _ => rfl,
    runCarries_of_ways fun _ _ _ => rfl,
    runCarries_of_ways fun _ _ _ => by simp [specStrmConfig, ↓ways_mk],
    runCarries_of_ways fun _ _ _ => by simp [specStrmEnable],
    runCarries_of_ways specStrmMark_ways,
    runCarries_of_ways specStrmRewind_ways,
    runCarries_of_ways fun _ _ _ => by simp [specStrmStatus],
    runCarries_of_ways fun _ _ _ => by simp [specStrmPortStatus],
    runCarries_of_ways fun _ _ _ => rfl, nofun⟩

theorem specs0B_carry : ∀ sp ∈ specs0B, RunCarries sp := by
  simp only [specs0B, List.forall_mem_cons]
  exact ⟨runCarries_of_ways fun _ _ _ => rfl,
    runCarries_of_ways fun _ _ _ => rfl,
    runCarries_of_ways fun _ _ _ => by simp [specPkStatus], nofun⟩

theorem specs0C_carry : ∀ sp ∈ specs0C, RunCarries sp := by
  simp only [specs0C, List.forall_mem_cons]
  exact ⟨runCarries_of_ways fun _ _ _ => by simp [specMqConfig],
    runCarries_of_ways fun _ _ _ => by simp [specMqRead, apply_ite Prod.fst],
    runCarries_of_ways fun _ _ _ => by simp [specMqPut, apply_ite Prod.fst],
    runCarries_of_ways fun _ _ _ => by simp [specMqFlush],
    runCarries_of_ways fun _ _ _ => by simp [specMqStatus], nofun⟩

theorem specs0D_carry : ∀ sp ∈ specs0D, RunCarries sp := by
  simp only [specs0D, List.forall_mem_cons]
  exact ⟨runCarries_of_ways fun _ _ _ => rfl,
    runCarries_of_ways fun _ _ _ => rfl,
    runCarries_of_ways fun _ _ _ => by simp [specTdcArm, apply_ite Prod.fst],
    runCarries_of_ways fun _ _ _ => rfl,
    runCarries_of_ways fun _ _ _ => by simp [specTdcStatus], nofun⟩

theorem specs0E_carry : ∀ sp ∈ specs0E, RunCarries sp := by
  simp only [specs0E, List.forall_mem_cons]
  exact ⟨runCarries_of_ways fun _ _ _ => rfl,
    runCarries_of_ways fun _ _ _ => by simp [specMcSequence],
    runCarries_of_ways fun _ _ _ => by simp [specMcConvert, apply_ite Prod.fst],
    runCarries_of_ways fun _ _ _ => by simp [specMcRead, apply_ite Prod.fst],
    runCarries_of_ways fun _ _ _ => by simp [specMcStatus], nofun⟩

theorem specs0F_carry : ∀ sp ∈ specs0F, RunCarries sp := by
  simp only [specs0F, List.forall_mem_cons]
  exact ⟨runCarries_of_ways fun _ _ _ => by simp [specCalibMeasure, apply_ite Prod.fst],
    runCarries_of_ways fun _ _ _ => rfl,
    runCarries_of_ways fun _ _ _ => rfl,
    runCarries_of_ways fun _ _ _ => by simp [specMaintStart, apply_ite Prod.fst],
    runCarries_of_ways specMaintCancel_ways,
    runCarries_of_ways fun _ _ _ => by simp [specMaintStatus], nofun⟩

theorem specs10_carry : ∀ sp ∈ specs10, RunCarries sp := by
  simp only [specs10, List.forall_mem_cons]
  exact ⟨runCarries_of_ways fun _ _ _ => rfl,
    runCarries_of_ways specDispEnable_ways,
    runCarries_of_ways fun _ _ _ => rfl,
    runCarries_of_ways fun _ _ _ => rfl,
    runCarries_of_ways fun _ _ _ => by simp [specDispCommit],
    runCarries_of_ways fun _ _ _ => rfl,
    runCarries_of_ways fun _ _ _ => by simp [specDispStatus], nofun⟩

theorem specs11_carry : ∀ sp ∈ specs11, RunCarries sp := by
  simp only [specs11, List.forall_mem_cons]
  exact ⟨runCarries_of_ways fun _ _ _ => by simp [specPairConfig],
    runCarries_of_ways fun _ _ _ => by simp [specPairJoin, apply_ite Prod.fst, ↓ways_mk],
    runCarries_of_ways specPairLeave_ways,
    runCarries_of_ways fun _ _ _ => by simp [specPairSwitch, apply_ite Prod.fst],
    runCarries_of_ways fun _ _ _ => by simp [specPairTakeover],
    runCarries_of_ways fun _ _ _ => by simp [specPairStatus], nofun⟩

theorem specs12_carry : ∀ sp ∈ specs12, RunCarries sp := by
  simp only [specs12, List.forall_mem_cons]
  exact ⟨specDiagReset_carries,
    runCarries_of_ways fun _ _ _ => by simp [specDiagFault, ↓ways_mk],
    runCarries_of_ways fun _ _ _ => rfl,
    runCarries_of_ways fun _ _ _ => by simp [specBbRead, apply_ite Prod.fst],
    runCarries_of_ways fun _ _ _ => by simp [specBbFreeze],
    runCarries_of_ways fun _ _ _ => rfl,
    runCarries_of_ways fun _ _ _ => rfl, nofun⟩

theorem specs13_carry : ∀ sp ∈ specs13, RunCarries sp := by
  simp only [specs13, List.forall_mem_cons]
  exact ⟨runCarries_of_ways fun _ _ _ => rfl,
    runCarries_of_ways fun _ _ _ => by simp [specFwLoad, apply_ite Prod.fst],
    runCarries_of_ways fun _ _ _ => rfl,
    runCarries_of_ways fun _ _ _ => by simp [specFwActivate, apply_ite Prod.fst], nofun⟩

theorem allSpecs_carry : ∀ sp ∈ allSpecs, RunCarries sp := by
  unfold allSpecs
  simp only [List.forall_mem_append, and_assoc]
  exact ⟨specs00_carry, specs01_carry, specs02_carry, specs03_carry, specs04_carry, specs05_carry, specs06_carry, specs07_carry, specs08_carry,
    specs09_carry, specs0A_carry, specs0B_carry, specs0C_carry, specs0D_carry, specs0E_carry, specs0F_carry, specs10_carry,
    specs11_carry, specs12_carry, specs13_carry⟩

/-- An opcode without a row answers, and does no more. -/
theorem specAny_carries (opcode : Nat) : RunCarries (specAny opcode) := by
  unfold specAny
  cases h : specOf opcode with
  | some sp => exact allSpecs_carry sp (List.mem_of_find?_eq_some h)
  | none => exact runCarries_of_ways fun _ _ _ => rfl

end Sys2Proof.Machine
end

section
/-! O59, O56: so do the path of a command, every row, and every step. -/

namespace Sys2Proof.Machine

/-! ### The path of a command -/

theorem repliesFirst_carries {f : State → State} (hf : ∀ a, Carries a (f a)) (s : State) : Carries s (repliesFirst f s) := by
  unfold repliesFirst
  split
  · exact hf s
  · exact ((carries_of_ways (ways_mk s ..)).trans (hf _)).trans (carries_of_ways (sendAside_ways _))

theorem runNow_carries {sp : CmdSpec} (h : RunCarries sp) (c : Cmd) (s : State) : Carries s (runNow sp c s) :=
  repliesFirst_carries (fun a => (h c a.index a).trans (carries_of_ways (by simp))) s

theorem applyNow_carries {sp : CmdSpec} (h : RunCarries sp) (c : Cmd) (idx : Nat) (s : State) : Carries s (applyNow sp c idx s) :=
  repliesFirst_carries (fun a => (h c idx a).trans (carries_of_ways (settleFate_ways ..))) s

theorem startCmd_carries {sp : CmdSpec} (h : RunCarries sp) (c : Cmd) (s : State) : Carries s (startCmd sp c s) := by
  unfold startCmd
  dsimp only
  split
  · exact carries_of_ways (by simp)
  · split
    · exact carries_of_ways (by simp)
    · split
      · exact carries_of_ways (by simp)
      · exact runNow_carries h _ s

theorem startAny_carries (c : Cmd) (s : State) : Carries s (startAny c s) := by
  unfold startAny
  split
  · next hsp =>
    split
    · exact carries_of_ways (complete_ways ..)
    · exact startCmd_carries (allSpecs_carry _ (List.mem_of_find?_eq_some hsp)) c s
  · exact carries_of_ways (complete_ways ..)

theorem pump_carries (n : Nat) (s : State) : Carries s (pump n s) := by
  induction n generalizing s with
  | zero => exact .refl s
  | succ n ih =>
    unfold pump
    split
    · exact .refl s
    · split
      · exact (startAny_carries _ s).trans (ih _)
      · exact .refl s

theorem fireHeld_carries {sp : CmdSpec} (h : RunCarries sp) (c : Cmd) (s : State) : Carries s (fireHeld sp c s) := by
  unfold fireHeld
  dsimp only
  split
  · exact applyNow_carries h c _ s
  · exact carries_of_ways (complete_ways ..)

theorem finish_carries (old s : State) : Carries s (finish old s) :=
  ((carries_of_ways (yieldFaults_ways old s)).trans (pump_carries _ _)).trans (carries_of_ways ((pairNotice_ways ..).trans (compareAll_ways ..)))

/-! ### Rows -/

/-- The outcome of a row is a next state, with the queue of the state before it, and the notices within their buffers. -/
def Moves (s : State) (o : Host.Outcome State Fault Refusal) : Prop := ∃ t, o = .next t ∧ Carries s t

theorem moves_of_carries {s t : State} (h : Carries s t) : Moves s (.next t) := ⟨t, rfl, h⟩

theorem direct_moves {f : State → State} (s : State) (hf : Carries s (f s)) : Moves s (.next (finish s (f s))) :=
  moves_of_carries (hf.trans (finish_carries ..))

theorem event_moves {f : State → State} {k : Nat} (s : State) (hf : ∀ a, Carries a (f a)) : Moves s (runEvent f k s) :=
  moves_of_carries (((carries_of_ways (passTo_ways k s)).trans (repliesFirst_carries hf _)).trans (finish_carries ..))

theorem row_moves (sp : CmdSpec) (k : Nat) (p : Packet) (s : State) : Moves s (runRow sp k p s) :=
  event_moves s fun _ => carries_of_ways (by simp)

theorem fireRow_moves (kind : Cmd → Bool) (s : State) : Moves s (fireRow kind s) := by
  unfold fireRow
  dsimp only
  split
  · exact moves_of_carries (.refl s)
  · split
    · exact event_moves s (fireHeld_carries (specAny_carries _) _)
    · exact moves_of_carries (.refl s)

theorem evSwitchIndex_moves (w : Nat) (s : State) : Moves s (evSwitchIndex w s) := by
  unfold evSwitchIndex
  split
  · exact fireRow_moves _ s
  · exact event_moves s fun _ => carries_of_ways (mirrorSwitch_ways ..)

/-- The events that deliver no notice and reset nothing leave the ways of notices; a row of a command only submits it. -/
theorem exec_moves (s : State) : ∀ i, Moves s (exec i s)
  | .noticeDelivery .. => event_moves s fun _ => evNoticeDelivery_carries ..
  | .pwrGoodLow .. => event_moves s fun _ => powerDown_carries _
  | .resetNLow .. => event_moves s fun _ => evResetNLow_carries _
  | .watchdogExpiry .. => event_moves s fun _ => evWatchdogExpiry_carries ..
  | .thermalTripClear .. => event_moves s fun _ => evThermalTripClear_carries _
  | .powerOn .. => direct_moves s (evPowerOn_carries ..)
  | .switchIndex .. => evSwitchIndex_moves _ s
  | .timedExecute .. | .scheduledEffect .. | .modeChangeEffect .. => fireRow_moves _ s
  | .lockConfirmed .. | .stepBoundary .. | .timebaseRephase .. => direct_moves s (carries_of_ways (by simp))
  | .sqTailDoorbell .. | .rqHeadWrite .. | .qpEnable .. | .qpDisable .. | .gintStatusClear .. | .indexLoRead .. | .registerWrite ..
    | .commandFetch .. | .coalTimeExpiry .. | .spiSubmit .. | .spiReadReply .. | .spiReadStatus .. | .ctlportDatagram .. | .memFreeRelease ..
    | .memTransferEnd .. | .scrub .. | .unlockDetected .. | .lockAttemptFail .. | .refMissingEdge .. | .refFreqCheck .. | .refQualExpiry ..
    | .jumpKnown .. | .ppsDisambigTimeout .. | .slewEnd .. | .syncEdgeCapture .. | .timeSyncTimeout .. | .ppsInEdge .. | .ppsMissingTimeout ..
    | .ppsOutPulse .. | .overRange .. | .sliceSwap .. | .sliceMonitorWindow .. | .eqHeldStart .. | .spectrumDone .. | .densityFrameClose ..
    | .decayStep .. | .trigDecide .. | .segmentClose .. | .intSetAccumulate .. | .intFrameClose .. | .strmPacketGenerate .. | .strmPacketSend ..
    | .hostRingConsPoll .. | .rewindDone .. | .arpRequest .. | .neighbourSolicitation .. | .ptpFrameRx .. | .pauseFrame .. | .otherFrame ..
    | .ethLinkChange .. | .egressDownTimeout .. | .pkJobEnd .. | .mqItemAccept .. | .mqLingerExpiry .. | .mqReadComplete .. | .mqReadTimeout ..
    | .tdcEdge .. | .tdcMeasureTimeout .. | .tdcWindowClose .. | .probeLaunch .. | .tdcStuckTimeout .. | .tdcDwellEnd .. | .tdcTablesReady ..
    | .mcConversionEnd .. | .mcSystemPass .. | .activityStart .. | .tdcCalPriority .. | .calMeasureEnd .. | .scrubPassEnd .. | .dispFrameStart ..
    | .dispLatchLine .. | .scanoutEnd .. | .teEdge .. | .teLostTimeout .. | .panelCmdSend .. | .panelRespTimeout .. | .heartbeatSend ..
    | .heartbeatReceive .. | .heartbeatTimeout .. | .liveStall .. | .pairLinkTrained .. | .pairLinkDown .. | .pairLaneFail ..
    | .forwardedCommand .. | .mirrorStatusReturn .. | .mirrorStateReceive .. | .yieldReceive .. | .takeoverRequestReceive .. | .snapshotReceive ..
    | .joinIndex .. | .pairRelayPacket .. | .pcieReset .. | .bootStartTimeout .. | .lockstepMismatch .. | .coreSelftestEnd ..
    | .thermalTripEvent .. | .tileLinkSeqFail .. | .tileLinkRetrain .. | .tileRetrainEnd .. | .fwImageReady .. | .flashEraseEnd .. | .tapReset ..
    | .tapInstructionLoad .. | .gauntletSelect .. | .gauntletResponse .. | .dbgRead .. | .dbgWrite .. | .dbgCtrlLock .. | .dctrlHalt ..
    | .dctrlResume .. | .dctrlStep .. | .breakpointHit .. | .watchpointHit .. | .refEdgesReturn .. | .resetNRelease .. | .pcieLinkUp ..
    | .partnerStrobeEdge .. | .partnerStrobeTimeout .. | .levelInactive .. | .hostRingIntTime .. =>
    event_moves s fun _ => carries_of_ways (by simp)
  | .sysNop .. | .sysMode .. | .sysNoticeRoute .. | .sysCancel .. | .sysGetIndex .. | .sysCtlport .. | .sysGetMode .. | .sysCompat ..
    | .memAlloc .. | .memFree .. | .memQuery .. | .memScrub .. | .memRead .. | .memWrite .. | .timeSpllConfig .. | .timeStatus ..
    | .timeSetEpoch .. | .timeSync .. | .timeRefPolicy .. | .timeRefResume .. | .timePpsConfig .. | .timeOffset .. | .timeGetOffset ..
    | .timePpsRead .. | .timePtpAdjust .. | .convConfig .. | .convAtten .. | .convInput .. | .convRotation .. | .convStatus .. | .convAttenInfo ..
    | .eqLoad .. | .eqSwap .. | .eqStatus .. | .tunerConfig .. | .tunerRetune .. | .tunerEnable .. | .tunerStatus .. | .specConfig ..
    | .specEnable .. | .specOutput .. | .specWindowLoad .. | .specStatus .. | .densConfig .. | .densEnable .. | .densClear .. | .densStatus ..
    | .spgmConfig .. | .spgmEnable .. | .spgmStatus .. | .trigSlotConfig .. | .trigArm .. | .trigMaskConfig .. | .trigMaskLoad .. | .trigForce ..
    | .trigStatus .. | .capSource .. | .capSheafConfig .. | .capArm .. | .capStatus .. | .intConfig .. | .intEnable .. | .intStatus ..
    | .intHeader .. | .thConfig .. | .thEnable .. | .thStatus .. | .strmPortConfig .. | .strmDest .. | .strmConfig .. | .strmEnable ..
    | .strmMark .. | .strmRewind .. | .strmStatus .. | .strmPortStatus .. | .strmPtpSend .. | .pkConfig .. | .pkEncode .. | .pkStatus ..
    | .mqConfig .. | .mqRead .. | .mqPut .. | .mqFlush .. | .mqStatus .. | .tdcInput .. | .tdcSlotConfig .. | .tdcArm .. | .tdcRead ..
    | .tdcStatus .. | .mcInput .. | .mcSequence .. | .mcConvert .. | .mcRead .. | .mcStatus .. | .calibMeasure .. | .calibSliceRead ..
    | .calibTdcRead .. | .maintStart .. | .maintCancel .. | .maintStatus .. | .dispTiming .. | .dispEnable .. | .dispLayer .. | .dispPalette ..
    | .dispCommit .. | .dispPanelCmd .. | .dispStatus .. | .pairConfig .. | .pairJoin .. | .pairLeave .. | .pairSwitch .. | .pairTakeover ..
    | .pairStatus .. | .diagReset .. | .diagFault .. | .diagEcc .. | .bbRead .. | .bbFreeze .. | .bbClear .. | .diagWatchdog .. | .fwStatus ..
    | .fwLoad .. | .fwVerify .. | .fwActivate .. => row_moves _ _ _ s

theorem step_moves (s : State) : ∃ t, step s = .next t ∧ t.pending = s.pending.tail ∧ (s.noticesFit = true → t.noticesFit = true) := by
  unfold step
  split
  · next h => exact ⟨s, rfl, by rw [h]; rfl, id⟩
  · next c rest h =>
    obtain ⟨t, ht, hp, hn⟩ := exec_moves { s with pending := rest } c
    exact ⟨t, ht, by rw [hp, h]; rfl, hn⟩

/-- Settles O59: of all actions only a held notice lengthens a buffer, and only one that has room (`holdNotice_noticesFit`); a delivery shortens one,
and a reset empties all. -/
theorem noticesKept : Obligations.NoticesKept := by
  intro s t hs ht
  obtain ⟨u, hu, -, hn⟩ := step_moves s
  obtain rfl : t = u := Host.Outcome.next.inj (ht.symm.trans hu)
  exact hn hs

/-- Settles O56: every row of the table answers a next state (`exec_moves`), with the rest of the queue. -/
theorem queueAdvances : Obligations.QueueAdvances := fun s =>
  have ⟨t, ht, hp, _⟩ := step_moves s
  ⟨t, ht, hp⟩

end Sys2Proof.Machine
end

section
/-! O1, O2, O3, O55: a step, the rows of events, and the state after reset. -/

namespace Sys2Proof.Machine

/-- Settles O1: a step is the definition's two cases. -/
theorem stepRunsFront : Obligations.StepRunsFront :=
  ⟨fun _ _ s h => by rw [step, h], fun s h => by rw [step, h]⟩

/-! ### The rows of events -/

theorem exec_next (i : Instr) (s : State) : ∃ t, exec i s = .next t ∧ t.pending = s.pending :=
  have ⟨t, ht, h⟩ := exec_moves s i
  ⟨t, ht, h.pending⟩

theorem exec_answers {i : Instr} {s t : State} (h : exec i s = .next t) : exec i s = .next t ∧ t.pending = s.pending := by
  obtain ⟨u, hu, hp⟩ := exec_next i s
  obtain rfl : t = u := Host.Outcome.next.inj (h.symm.trans hu)
  exact ⟨h, hp⟩

/-- A row that the dispatch gives to an event runs it. -/
theorem runs {row : Nat → Instr} {effect : Nat → State → State} (h : ∀ k s, exec (row k) s = runEvent (effect k) k s := by exact fun _ _ => rfl) :
    Runs row effect := fun k s => exec_answers (h k s)

/-- Settles O2: the dispatch gives each row to its event, and every row leaves the queue its rest (`exec_moves`). -/
theorem earlyRowsRun : Obligations.EarlyRowsRun :=
  ⟨fun _ _ => runs, fun _ _ => runs, fun _ _ => runs, fun _ _ => runs, fun _ => runs, fun _ _ => runs, fun _ _ _ _ => runs, fun _ _ => runs,
    fun _ => runs, fun _ => runs, fun _ => runs, fun _ => runs, runs, fun _ _ _ => runs, fun _ => runs, fun _ _ _ _ => runs, fun _ _ _ => runs,
    fun _ => runs, runs, fun _ => runs, fun _ _ => runs, fun _ => runs, fun _ => runs, runs, runs, fun _ => runs, fun _ => runs, fun _ _ => runs,
    runs, fun _ => runs, fun _ => runs, fun _ => runs, fun _ => runs, fun _ _ _ _ _ => runs, fun _ _ _ => runs, runs, fun _ => runs,
    fun _ _ _ _ => runs, fun _ _ _ => runs, runs, fun _ _ _ => exec_answers rfl, fun _ _ => exec_answers rfl, fun _ _ _ => exec_answers rfl,
    fun _ _ _ _ => exec_next .., fun _ => exec_next .., fun _ => exec_next .., fun _ => exec_next ..⟩

/-- Settles O3, as O2. -/
theorem lateRowsRun : Obligations.LateRowsRun :=
  ⟨fun _ _ _ _ => runs, fun _ _ _ => runs, fun _ _ => runs, fun _ => runs, fun _ _ _ _ => runs, fun _ _ _ _ => runs, fun _ _ _ => runs,
    fun _ => runs, fun _ => runs, fun _ _ => runs, fun _ => runs, fun _ _ _ => runs, fun _ => runs, runs, fun _ => runs, fun _ => runs,
    fun _ _ _ => runs, fun _ => runs, fun _ => runs, fun _ => runs, fun _ => runs, fun _ => runs, fun _ => runs, fun _ _ _ => runs, runs, runs,
    runs, fun _ => runs, fun _ => runs, fun _ _ => runs, runs, fun _ _ => runs, fun _ => runs, runs, fun _ _ => runs, runs, runs, fun _ => runs,
    runs, runs, fun _ _ _ _ => runs, runs, runs, fun _ => runs, fun _ _ => runs, fun _ => runs, runs, runs, fun _ => runs, fun _ _ => runs, runs,
    runs, runs, runs, fun _ _ _ _ => runs, fun _ _ => runs, fun _ => runs, fun _ _ => runs, fun _ => runs, fun _ => runs, fun _ _ => runs,
    fun _ => runs, runs, runs, fun _ _ _ => runs, runs, fun _ => runs, fun _ _ _ => runs, fun _ _ _ _ => runs, runs, fun _ _ => runs,
    fun _ => runs, fun _ => runs, fun _ _ _ => runs, fun _ _ _ => runs, runs, runs, fun _ _ => runs, runs, runs, fun _ => runs, runs,
    fun _ => runs, fun _ _ => exec_answers rfl, fun _ _ => exec_next .., fun _ _ _ _ => exec_answers rfl⟩

/-! ### The state after reset -/

/-- Settles O55, by evaluation: the units of one kind are alike. -/
theorem resetState : Obligations.ResetState := by
  refine ⟨rfl, rfl, rfl, rfl, rfl, ?_, rfl, ?_, ?_, rfl, rfl, rfl, rfl, rfl, rfl⟩ <;> decide

end Sys2Proof.Machine
end

section
/-! O4, O50, O51: the checks of a command (R50), and the system commands. -/

namespace Sys2Proof.Machine

/-! ### The checks of a command (R50) -/

/-- What a command meets that passes the checks up to its parameters. -/
theorem checkCmd_none {sp : CmdSpec} {c : Cmd} {s : State} (h : checkCmd sp c s = none) :
    sp.plen c = true ∧ badHeader sp c = false ∧ indirectFails c s = false ∧ sp.params s c = true := by
  unfold checkCmd at h
  split_ifs at h with hplen hheader hindirect hparams
  all_goals simp_all

/-- An opcode without TIMED in its row of the table refuses it from a local source (R714). -/
theorem timed_of_no {sp : CmdSpec} {c : Cmd} (hsrc : c.src ≠ .pairLink) (hsp : sp.timed c = .no) (h : badHeader sp c = false) : c.timed = false := by
  simp only [badHeader, Bool.or_eq_false_iff, Bool.and_eq_false_iff] at h
  obtain ⟨⟨-, ht⟩, -⟩ := h
  simpa [hsrc, hsp] using ht

theorem checkCmd_badLength {sp : CmdSpec} {c : Cmd} (s : State) (h : sp.plen c = false) : checkCmd sp c s = some .badLength := by
  simp [checkCmd, h]

theorem checkCmd_badParam {sp : CmdSpec} {c : Cmd} {s : State} (hplen : sp.plen c = true) (hlen : c.plen ≤ 12) (hheader : badHeader sp c = false)
    (hindirect : indirectFails c s = false) (hparams : sp.params s c = false) : checkCmd sp c s = some .badParam := by
  simp [checkCmd, hplen, Nat.not_lt.mpr hlen, hheader, hindirect, hparams]

/-- A refusal that is neither of the resource class nor of a failed read is its reply. -/
theorem row_refused_plain {sp : CmdSpec} {k : Nat} {p : Packet} {s : State} {st : Status} (h : Heard sp k p s) (hsp : specOf sp.opcode = some sp)
    (hck : checkCmd sp (rowCmd k p s) (rowState k p s) = some st) (hres : st.isResource = false) (hint : st ≠ .internal) :
    runRow sp k p s = .next (complete (rowCmd k p s) st [] (rowState k p s).index (rowState k p s)) := by
  rw [row_refused h hsp hck, hres, refuseEffects, beq_eq_false_iff_ne.mpr hint]
  rfl

/-! ### SYS_CANCEL (R89) -/

/-- A held command of the source that has the tag, and is no other, is cancelled; with no mirror none is forwarded. -/
theorem sysCancel_run {c d : Cmd} {e : Nat} {s : State} (h : cancelTarget c s = some d) (hf : s.pair.forwarded = []) :
    specSysCancel.run c e s = ({ s with cmds := s.cmds.filter (fun x => some x.id != (cancelTarget c s).map Cmd.id) }, .done .ok [1]) := by
  have hp : ({ s.pair with forwarded := s.pair.forwarded.filter (fun r => r.cmd != d.id) } : PairUnit) = s.pair := by
    rw [hf, List.filter_nil, ← hf]
  have hid : (fun x : Cmd => some x.id != some d.id) = fun x => x.id != d.id := by
    funext x
    rfl
  simp only [specSysCancel, h, hp, Option.map_some, hid]

theorem sysCancel_does : Does .sysCancel specSysCancel (fun c s => (cancelTarget c s).isSome = true)
    (fun c s => { s with cmds := s.cmds.filter (fun d => some d.id != (cancelTarget c s).map Cmd.id) }) (fun _ _ => [1]) := by
  intro k p s ha ht hpre
  obtain ⟨d, hd⟩ := Option.isSome_iff_exists.mp hpre
  have hq := (accepted_iff.mp ha).1.quiet
  refine row_runs (f := .done .ok [1]) ha rfl ht rfl (sysCancel_run (d := d) hd ?_) rfl ?_ (rowState_pair k p s) (rowState_locked k p s)
  · exact (congrArg PairUnit.forwarded (rowState_pair k p s)).trans (quiet_forwarded hq)
  · show noneWaits (((rowState k p s).cmds.filter _).filter _) = true
    rw [List.filter_comm]
    exact noneWaits_filter _ (noneWaits_served hq)

/-! ### SYS_GET_INDEX (R90) -/

/-- SAMPLE_INDEX as a DTS. -/
theorem dtsWords_index (i : Nat) : dtsWords (i * 2 ^ 32) = [0, BitVec.ofNat 32 i, BitVec.ofNat 32 (i / 2 ^ 32)] := by
  have h1 : i * 2 ^ 32 / 2 ^ 32 = i := Nat.mul_div_cancel i (by decide)
  have h2 : i * 2 ^ 32 / 2 ^ 64 = i / 2 ^ 32 := by omega
  have h0 : BitVec.ofNat 32 (i * 2 ^ 32) = 0#32 := BitVec.eq_of_toNat_eq (by simp)
  simp only [dtsWords, lo32, h0, h1, h2]
  rfl

/-- Settles O4, each command by its execution; SYS_CANCEL by `sysCancel_does`. -/
theorem systemCommands : Obligations.SystemCommands := by
  unfold Obligations.SystemCommands
  refine ⟨?_, ?_, sysCancel_does, ?_, ?_, ?_, ?_, ?_⟩
  · exact does_core (fun _ _ _ => rfl) rfl (fun _ => rfl) (fun _ _ _ _ _ => rfl) fun _ _ => rfl
  · exact does_core (fun _ _ _ => rfl) rfl (fun _ => rfl) (fun _ _ _ _ _ => rfl) fun _ _ => rfl
  · refine does_core (fun _ _ _ => rfl) rfl (fun _ => rfl) (fun c s _ _ h => ?_) fun _ _ => rfl
    have h : cancelTarget c (opened s) = none := h
    simp only [specSysCancel, h]
    rfl
  · refine does_core (fun _ _ _ => rfl) rfl (fun _ => rfl) (fun c s _ _ _ => ?_) fun _ _ => rfl
    simp only [specSysGetIndex, dtsWords_index]
    rfl
  · refine does_of (fun _ _ _ => rfl) rfl (fun _ => rfl) (fun c s _ _ h => ?_) (fun _ _ _ => rfl) (fun _ _ _ => rfl) fun _ _ _ => rfl
    have hport : (opened s).ctlport.portEn ≠ 0 := h.2
    simp [specSysCtlport, h.1, hport, noWords]
  · refine does_core (fun _ _ _ => rfl) rfl (fun _ => rfl) (fun c s _ _ h => ?_) fun _ _ => rfl
    have hmode : (opened s).mode ≠ .shadow := h.1
    have hheld : (opened s).cmds.any isPendingMode = false := by
      rw [show (opened s).cmds = s.cmds from rfl]
      simpa using h.2
    simp only [specSysGetMode, hmode, hheld, if_false, leavesAll]
    rfl
  · refine does_core (fun _ _ _ => rfl) rfl (fun _ => rfl) (fun c s _ _ h => ?_) fun _ _ => rfl
    have hcompat : (opened s).compat = 1 := h.1
    simp [specSysCompat, hcompat, h.2, leavesAll]

/-! ### SYS_NOP (R87) -/

theorem pump_idle {u : State} (h : nextCommand u = none) (n : Nat) : pump n u = u := by
  cases n with
  | zero => rfl
  | succ n =>
    simp only [pump, h]
    exact ite_self u

/-- A row submits its packet. -/
theorem row_submits {sp : CmdSpec} {k : Nat} {p : Packet} {s : State} (hop : opcodeOf p = sp.opcode) (hsrc : takesFrom p.src (passTo k s) = true) :
    repliesFirst (fun a => if takesFrom p.src a && opcodeOf p == sp.opcode then submitCmd p a else a) (passTo k s) = rowState k p s := by
  refine (repliesFirst_plain fun l => ?_).trans ?_
  · show (if takesFrom p.src (passTo k s) && opcodeOf p == sp.opcode then _ else _) = _
    split_ifs <;> rfl
  · simp [hsrc, hop, rowState_eq]

/-- The commands of a quiet device do not wait. -/
theorem startable_none {s u : State} (hq : s.quiet = true) : s.cmds.filter (startable u) = [] := by
  refine List.filter_eq_nil_iff.mpr fun c hc => ?_
  have hphase := List.all_eq_true.mp (quiet_noneWaits hq) c hc
  simp only [startable]
  simp_all

/-- A row whose command waits for another leaves it waiting. -/
theorem row_waits {sp : CmdSpec} {k : Nat} {p : Packet} {s : State} (hq : s.quiet = true) (hm : hasMirror s = false) (hop : opcodeOf p = sp.opcode)
    (hsrc : takesFrom p.src (passTo k s) = true) (hw : startable (rowState k p s) (rowCmd k p s) = false) :
    runRow sp k p s = .next (rowState k p s) := by
  have hnext : nextCommand (rowState k p s) = none := by
    have hnone : (rowState k p s).cmds.filter (startable (rowState k p s)) = [] := by
      rw [rowState_cmds, List.filter_append, startable_none hq]
      simp [hw]
    rw [nextCommand, hnone]
    rfl
  rw [runRow, runEvent, row_submits hop hsrc]
  simp only [finish, yieldFaults_alone ((hasMirror_congr (rowState_pair k p s)).trans hm), pump_idle hnext]
  rw [compareAll_none (rowState_pair k p s ▸ quiet_forwarded hq), pairNotice_same (pairWord_congr (rowState_pair k p s) (rowState_locked k p s))]

/-- FENCE makes a command wait for every earlier one of its source (R57). -/
theorem fence_blocks {spc spd : CmdSpec} {c d : Cmd} (hfence : c.fence = true) (hlocal : c.src ≠ .pairLink) (hop : c.opcode ≠ 0x0003)
    (hid : d.id < c.id)
    (horigin : d.origin = c.origin) (hsame : sameSource c.src d.src = true) : blocks spc spd c d = true := by
  simp [blocks, hfence, hlocal, hop, hid, horigin, hsame]

theorem sysNop_fenced {k : Nat} {p : Packet} {s : State} {d : Cmd} (hop : opcodeOf p = 0x0000) (hsrc : takesFrom p.src (passTo k s) = true)
    (hfence : (rowCmd k p s).fence = true) (hd : d ∈ s.cmds) (hid : d.id < s.nextId) (horigin : d.origin = srcRank p.src)
    (hsame : sameSource p.src d.src = true) : startable (rowState k p s) (rowCmd k p s) = false := by
  have hlocal : p.src ≠ .pairLink := by
    simp only [takesFrom, Bool.and_eq_true, bne_iff_ne] at hsrc
    exact hsrc.1.2
  have hmem : d ∈ (rowState k p s).cmds := by
    rw [rowState_cmds]
    exact List.mem_append_left _ hd
  have hopc : (rowCmd k p s).opcode ≠ 0x0003 := by
    rw [show (rowCmd k p s).opcode = opcodeOf p from rfl, hop]
    decide
  simp only [startable, Bool.and_eq_false_iff, Bool.not_eq_false', List.any_eq_true]
  exact .inr ⟨d, hmem, fence_blocks hfence hlocal hopc hid horigin hsame⟩

/-- Settles O50: the marker leaves everything as it is; with words it is refused, with TIMED held (`row_held`), with FENCE it waits
(`fence_blocks`). -/
theorem markerCommand : Obligations.MarkerCommand := by
  unfold Obligations.MarkerCommand
  refine ⟨fun k p s ha ht => ?_, fun k p s hh hp => ?_, fun k p s ha ht => ?_, heldCommands.2.1, ?_⟩
  · exact does_core (sp := specSysNop) (pre := anyCase) (effect := leavesAll) (words := noWords) (fun _ _ _ => rfl) rfl (fun _ => rfl)
      (fun _ _ _ _ _ => rfl) (fun _ _ => rfl) k p s ha ht trivial
  · exact row_refused_plain (heard_iff.mp hh) rfl (checkCmd_badLength _ (beq_eq_false_iff_ne.mpr hp)) rfl nofun
  · exact row_held ha rfl (by decide) (.inl ⟨ht, rfl⟩)
  · intro k p s d hq hm hop hsrc hfence hd hid horigin hsame
    exact row_waits (sp := specSysNop) hq hm hop hsrc (sysNop_fenced hop hsrc hfence hd hid horigin hsame)

/-! ### SYS_NOTICE_ROUTE (R88) -/

theorem routeOf_set {s : State} {g d : Nat} (hg : g < s.routes.length) : routeOf { s with routes := s.routes.set g d } g = d := by
  simp [routeOf, hg]

theorem routeOf_set_ne {s : State} {g h d : Nat} (hne : h ≠ g) : routeOf { s with routes := s.routes.set g d } h = routeOf s h := by
  simp [routeOf, List.getD_eq_getElem?_getD, hne.symm]

/-- An action that generates no notice has none to send. -/
theorem repliesFirst_silent {f : State → State} {s : State} (h : (f (opened s)).aside = (opened s).aside) :
    repliesFirst f s = { f (opened s) with aside := s.aside } := by
  unfold repliesFirst
  split
  · next l hl =>
    have hs : opened s = s := by
      unfold opened
      rw [hl, Option.getD_some, ← hl]
    rw [hs] at h ⊢
    rw [← h]
  · next hn =>
    have hs : opened s = { s with aside := some [] } := by
      unfold opened
      rw [hn, Option.getD_none]
    rw [← hs, sendAside, h, hs, hn]
    rfl

@[simp] theorem complete_aside (c : Cmd) (st : Status) (pl : List Word) (i : Nat) (s : State) : (complete c st pl i s).aside = s.aside := by
  rw [complete_frame]

@[simp] theorem complete_notices (c : Cmd) (st : Status) (pl : List Word) (i : Nat) (s : State) : (complete c st pl i s).notices = s.notices := by
  rw [complete_frame]

@[simp] theorem complete_routes (c : Cmd) (st : Status) (pl : List Word) (i : Nat) (s : State) : (complete c st pl i s).routes = s.routes := by
  rw [complete_frame]

theorem sysNoticeRoute_params {k : Nat} {p : Packet} {s : State} (ha : accepted specSysNoticeRoute k p s = true) :
    (rowCmd k p s).timed = false ∧ (rowCmd k p s).plen = 1 ∧ (rowCmd k p s).arg 0 7 0 ≤ 0x13 ∧ (rowCmd k p s).arg 0 12 8 ≤ 17 := by
  obtain ⟨hheard, hcheck⟩ := accepted_iff.mp ha
  obtain ⟨hplen, hheader, -, hparams⟩ := checkCmd_none hcheck
  simp only [specSysNoticeRoute, Bool.and_eq_true, decide_eq_true_eq] at hparams
  exact ⟨timed_of_no hheard.local rfl hheader, beq_iff_eq.mp hplen, hparams.1, hparams.2⟩

theorem sysNoticeRoute_routes (k : Nat) (p : Packet) (s : State) (ha : accepted specSysNoticeRoute k p s = true) (hlen : s.routes.length = 20) :
    ∃ t, exec (.sysNoticeRoute k p) s = .next t ∧ (rowCmd k p s).plen = 1 ∧ (rowCmd k p s).arg 0 7 0 ≤ 0x13 ∧ (rowCmd k p s).arg 0 12 8 ≤ 17
      ∧ routeOf t ((rowCmd k p s).arg 0 7 0) = (rowCmd k p s).arg 0 12 8 ∧ (∀ g, g ≠ (rowCmd k p s).arg 0 7 0 → routeOf t g = routeOf s g)
      ∧ t.notices = s.notices := by
  obtain ⟨ht, hplen, hgroup, hdest⟩ := sysNoticeRoute_params ha
  have hroutes : (passTo k s).routes = s.routes := by rw [passTo_frame]
  have hnotices : (passTo k s).notices = s.notices := by rw [passTo_frame]
  have hsilent (c : Cmd) (f : State → State) (hf : (f (opened (rowState k p s))).aside = (opened (rowState k p s)).aside) :
      repliesFirst (fun a => complete c .ok (noWords c a) a.index (f a)) (rowState k p s)
        = { complete c .ok [] (rowState k p s).index (f (opened (rowState k p s))) with aside := (rowState k p s).aside } :=
    repliesFirst_silent ((complete_aside ..).trans hf)
  refine ⟨_, systemCommands.2.1 k p s ha ht trivial, hplen, hgroup, hdest, ?_⟩
  rw [hsilent _ (fun a => { a with routes := a.routes.set ((rowCmd k p s).arg 0 7 0) ((rowCmd k p s).arg 0 12 8) }) rfl]
  have hin : (rowCmd k p s).arg 0 7 0 < (passTo k s).routes.length := by
    rw [hroutes, hlen]
    omega
  have hsame (g : Nat) : routeOf (passTo k s) g = routeOf s g := by
    unfold routeOf
    rw [hroutes]
  refine ⟨?_, fun g hg => ?_, ?_⟩
  · refine Eq.trans ?_ (routeOf_set (s := passTo k s) hin)
    simp only [routeOf, complete_routes]
    rfl
  · refine Eq.trans ?_ ((routeOf_set_ne (s := passTo k s) (d := (rowCmd k p s).arg 0 12 8) hg).trans (hsame g))
    simp only [routeOf, complete_routes]
    rfl
  · exact (complete_notices ..).trans hnotices

theorem sysNoticeRoute_refused (k : Nat) (p : Packet) (s : State) (st : Status) (hh : heard specSysNoticeRoute k p s = true)
    (hcase : (rowCmd k p s).plen ≠ 1 ∧ st = .badLength
      ∨ (rowCmd k p s).plen = 1 ∧ badHeader specSysNoticeRoute (rowCmd k p s) = false ∧ indirectFails (rowCmd k p s) (rowState k p s) = false
        ∧ (17 < (rowCmd k p s).arg 0 12 8 ∨ 0x13 < (rowCmd k p s).arg 0 7 0) ∧ st = .badParam) :
    exec (.sysNoticeRoute k p) s = .next (complete (rowCmd k p s) st [] (rowState k p s).index (rowState k p s)) := by
  have h := heard_iff.mp hh
  rcases hcase with ⟨hplen, rfl⟩ | ⟨hplen, hheader, hindirect, hbad, rfl⟩
  · exact row_refused_plain h rfl (checkCmd_badLength _ (beq_eq_false_iff_ne.mpr hplen)) rfl nofun
  · refine row_refused_plain h rfl (checkCmd_badParam (beq_iff_eq.mpr hplen) (by omega) hheader hindirect ?_) rfl nofun
    simp only [specSysNoticeRoute, Bool.and_eq_false_iff, decide_eq_false_iff_not, Nat.not_le]
    exact hbad.symm

/-! ### The index and the epoch (R90, R155) -/

/-- SAMPLE_INDEX as the words of SYS_GET_INDEX give it. -/
def indexWords (s : State) : List Word := [0, BitVec.ofNat 32 s.index, BitVec.ofNat 32 (s.index / 2 ^ 32)]

/-- A command that leaves everything replies with the index of its execution. -/
theorem repliesFirst_index (c : Cmd) (s : State) :
    repliesFirst (fun a => complete c .ok (indexWords a) a.index (leavesAll c a)) s = repliesFirst (complete c .ok (indexWords s) s.index) s := by
  refine repliesFirst_congr ?_
  have hwords : indexWords (opened s) = indexWords s := rfl
  have hindex : (opened s).index = s.index := rfl
  rw [hwords, hindex, leavesAll]

theorem sysGetIndex_replies (k : Nat) (p : Packet) (s : State) (ha : accepted specSysGetIndex k p s = true) : (rowCmd k p s).plen = 0
    ∧ exec (.sysGetIndex k p) s = .next
        (repliesFirst (complete (rowCmd k p s) .ok (indexWords (rowState k p s)) (rowState k p s).index) (rowState k p s)) := by
  obtain ⟨hheard, hcheck⟩ := accepted_iff.mp ha
  obtain ⟨hplen, hheader, -, -⟩ := checkCmd_none hcheck
  refine ⟨beq_iff_eq.mp hplen, (systemCommands.2.2.2.2.1 k p s ha (timed_of_no hheard.local rfl hheader) trivial).trans ?_⟩
  exact congrArg Host.Outcome.next (repliesFirst_index (rowCmd k p s) (rowState k p s))

/-- EPOCH_TAI as TIME_SET_EPOCH gives it. -/
def epochOf (c : Cmd) : Nat := (c.word 0).toNat + c.arg 1 15 0 * 2 ^ 32

/-- A time unit with another EPOCH_TAI. -/
def withEpoch (n : Nat) (t : TimeUnit) : TimeUnit := { t with epochTai := n }

theorem setTime_withEpoch_locked (n : Nat) (s : State) : locked (setTime (withEpoch n) s) = locked s := rfl

theorem timeSetEpoch_run (c : Cmd) (e : Nat) (s : State) : specTimeSetEpoch.run c e s = (setTime (withEpoch (epochOf c)) s, .done .ok []) := by
  simp only [specTimeSetEpoch, epochOf]
  generalize (c.word 0).toNat + c.arg 1 15 0 * 2 ^ 32 = n
  rfl

theorem timeSetEpoch_does : Does .timeSetEpoch specTimeSetEpoch anyCase (fun c => setTime (withEpoch (epochOf c))) noWords :=
  does_of (fun _ _ _ => rfl) rfl (fun _ => rfl) (fun c s _ _ _ => timeSetEpoch_run c s.index (opened s)) (fun _ _ _ => rfl) (fun _ _ _ => rfl)
    fun c s _ => (setTime_withEpoch_locked (epochOf c) (opened s)).trans rfl

/-- The time after a command has its effect and replies is the time its effect left. -/
theorem repliesFirst_complete_time {c : Cmd} {effect : Cmd → State → State} {words : Cmd → State → List Word} {s : State} :
    (repliesFirst (fun a => complete c .ok (words c a) a.index (effect c a)) s).time = (effect c (opened s)).time :=
  (core_time (repliesFirst_opened ..)).trans (complete_time ..)

theorem timeSetEpoch_sets (k : Nat) (p : Packet) (s : State) (ha : accepted specTimeSetEpoch k p s = true) :
    ∃ t, exec (.timeSetEpoch k p) s = .next t
      ∧ t.time = { s.time with epochTai := ((rowCmd k p s).word 0).toNat + (rowCmd k p s).arg 1 15 0 * 2 ^ 32 } := by
  obtain ⟨hheard, hcheck⟩ := accepted_iff.mp ha
  obtain ⟨-, hheader, -, -⟩ := checkCmd_none hcheck
  refine ⟨_, timeSetEpoch_does k p s ha (timed_of_no hheard.local rfl hheader) trivial, ?_⟩
  have htime := repliesFirst_complete_time (c := rowCmd k p s) (effect := fun c => setTime (withEpoch (epochOf c))) (words := noWords)
      (s := rowState k p s)
  have hopened : (opened (rowState k p s)).time = s.time := (core_time (opened_core _)).trans (rowState_time k p s)
  rw [htime, setTime_time, hopened, withEpoch, epochOf]

/-- Settles O51: a route set is the one read (`sysNoticeRoute_routes`), and the index of SYS_GET_INDEX is the one its reply carries. -/
theorem systemRules : Obligations.SystemRules := by
  unfold Obligations.SystemRules
  refine ⟨?_, ?_, ?_, ?_⟩
  · rintro k p s c ha rfl hlen
    exact sysNoticeRoute_routes k p s ha hlen
  · rintro k p s c a st hh rfl rfl hcase
    exact sysNoticeRoute_refused k p s st hh hcase
  · rintro k p s c a ha rfl rfl
    obtain ⟨hplen, hrun⟩ := sysGetIndex_replies k p s ha
    exact ⟨replyEntry (rowCmd k p s) .ok (indexWords (rowState k p s)) (rowState k p s).index, hrun, rfl, hplen, rfl, rfl⟩
  · rintro k p s c ha rfl
    exact timeSetEpoch_sets k p s ha

end Sys2Proof.Machine
end

section
/-! O24: the delivery of notices and the overflow of their buffers (R76). -/

namespace Sys2Proof.Machine

/-- A notice put to its destination; what the destination took leaves the buffer by `left`. -/
def delivered (d : Nat) (e : Entry) (left : NoticeBuffer → NoticeBuffer) (s : State) : State :=
  if (putNotice d e s).2 then setNoticeBuf d left (putNotice d e s).1 else (putNotice d e s).1

theorem delivered_core (d : Nat) (e : Entry) (left : NoticeBuffer → NoticeBuffer) (s : State) : core (delivered d e left s) = core s := by
  unfold delivered
  split
  · exact (setNoticeBuf_core ..).trans (putNotice_core ..)
  · exact putNotice_core ..

/-- The delivery as the model writes it. -/
theorem delivered_match (d : Nat) (e : Entry) (left : NoticeBuffer → NoticeBuffer) (s : State) :
    (match putNotice d e s with
      | (a, true) => setNoticeBuf d left a
      | (a, false) => a) = delivered d e left s := by
  unfold delivered
  rcases putNotice d e s with ⟨a, - | -⟩ <;> rfl

theorem evNoticeDelivery_lost {d : Nat} {s : State} (hroom : noticeRoom s d = true) (hlost : 0 < (noticeBuf s d).lost) :
    evNoticeDelivery d s
      = delivered d (noticeEntry 0x0001 [BitVec.ofNat 32 (noticeBuf s d).lost] s.index) (fun b => { b with lost := 0 }) s := by
  simp only [evNoticeDelivery, hroom, hlost, Bool.not_true, Bool.false_eq_true, if_false, if_true]
  exact delivered_match ..

theorem evNoticeDelivery_oldest {d : Nat} {e : Entry} {l : List Entry} {s : State} (hroom : noticeRoom s d = true) (hlost : (noticeBuf s d).lost = 0)
    (hheld : (noticeBuf s d).held = e :: l) : evNoticeDelivery d s = delivered d e (fun b => { b with held := l }) s := by
  simp only [evNoticeDelivery, hroom, hlost, hheld, Bool.not_true, Bool.false_eq_true, if_false, Nat.lt_irrefl]
  exact delivered_match ..

theorem evNoticeDelivery_full {d : Nat} {s : State} (hroom : noticeRoom s d = false) : evNoticeDelivery d s = s := by
  simp [evNoticeDelivery, hroom]

theorem noticeBuf_holdNotice {d : Nat} {s : State} (e : Entry) (hd : d < s.notices.length) :
    noticeBuf (holdNotice d e s) d
      = if (noticeBuf s d).held.length < 64 then { noticeBuf s d with held := (noticeBuf s d).held ++ [e] }
        else { held := (noticeBuf s d).held.tail ++ [e], lost := (noticeBuf s d).lost + 1 } := by
  rw [noticeBuf, holdNotice_notices, getD_modAt_same hd]
  split <;> rfl

theorem latchGint_noticeLostCount (b : Nat) (s : State) : (latchGint b s).glob.noticeLostCount = s.glob.noticeLostCount := by
  rcases latchGint_glob b s with h | h <;> rw [h]

theorem holdNotice_lostCount {d : Nat} {s : State} (e : Entry) (hfull : 64 ≤ (noticeBuf s d).held.length) :
    (holdNotice d e s).glob.noticeLostCount = satAdd 32 s.glob.noticeLostCount 1 := by
  simp only [holdNotice, Nat.not_lt.mpr hfull, if_false, latchGint_noticeLostCount, setNoticeBuf_glob]

/-- Settles O24: the delivery of NOTICE_LOSS, of the oldest notice and of none, and what an overflow leaves. -/
theorem noticeEvents : Obligations.NoticeEvents := by
  unfold Obligations.NoticeEvents
  refine ⟨fun d => ?_, fun d e l => ?_, fun d => ?_, fun d e s hd => ⟨fun h => ?_, fun h => ?_⟩⟩
  · exact event_of_core (fun _ _ => rfl) (fun _ s h => evNoticeDelivery_lost (s := opened s) h.1 h.2) fun _ s => delivered_core ..
  · exact event_of_core (fun _ _ => rfl) (fun _ s h => evNoticeDelivery_oldest (s := opened s) h.1 h.2.1 h.2.2) fun _ s => delivered_core ..
  · exact event_idle (fun _ _ => rfl) fun _ s h => evNoticeDelivery_full (s := opened s) h
  · simp [noticeBuf_holdNotice e hd, h]
  · simp [noticeBuf_holdNotice e hd, Nat.not_lt.mpr h, holdNotice_lostCount e h]

end Sys2Proof.Machine
end

section
/-! O22: the register accesses over PCIe (R66, R69-R71, R73, R82-R84). -/

namespace Sys2Proof.Machine

/-! ### The registers of a queue pair -/

theorem setQp_congr {q : Nat} {f g : QueuePair → QueuePair} {s : State} (h : f (qpOf s q) = g (qpOf s q)) : setQp q f s = setQp q g s := by
  have hmod : modAt s.qps q f = modAt s.qps q g := by
    refine List.ext_getElem? fun i => ?_
    by_cases hi : q = i
    · subst hi
      simp only [modAt, List.getElem?_modify, if_true]
      rcases hq : s.qps[q]? with - | p
      · rfl
      · have hp : qpOf s q = p := by simp [qpOf, List.getD_eq_getElem?_getD, hq]
        rw [hp] at h
        simp [h]
    · simp [modAt, hi]
  rw [setQp, setQp, hmod]

theorem qpOf_setQp {q : Nat} {s : State} (f : QueuePair → QueuePair) (hq : q < s.qps.length) : qpOf (setQp q f s) q = f (qpOf s q) :=
  getD_modAt_same hq

/-- What SQ_TAIL takes: a pair that is stopped or disabled anything, another what lies ahead of the entries exposed. -/
theorem writeSqTail_takes {q : Nat} {v : Word} {s : State}
    (h : ((qpOf s q).enabled = false ∨ (qpOf s q).err = true)
      ∨ v.toNat < (qpOf s q).sqEntries ∧ (qpOf s q).sqWork ≤ (v.toNat + (qpOf s q).sqEntries - (qpOf s q).sqHead) % (qpOf s q).sqEntries) :
    writeSqTail q v s = setQp q (fun p => { p with sqTail := v.toNat }) s := by
  unfold writeSqTail
  rcases h with h | ⟨hlt, hwork⟩
  · rcases h with h | h <;> simp [h]
  · simp [Nat.not_le.mpr hlt, Nat.not_lt.mpr hwork]

theorem writeSqTail_outside {q : Nat} {v : Word} {s : State} (hen : (qpOf s q).enabled = true) (herr : (qpOf s q).err = false)
    (h : (qpOf s q).sqEntries ≤ v.toNat) : writeSqTail q v s = latchGint 0 (setQp q (fun p => { p with err := true, errCode := 1 }) s) := by
  simp [writeSqTail, hen, herr, h, stopQp]

theorem writeRqHead_takes {q : Nat} {v : Word} {s : State} (hen : (qpOf s q).enabled = true) (herr : (qpOf s q).err = false)
    (hlt : v.toNat < (qpOf s q).rqEntries)
    (hused : (v.toNat + (qpOf s q).rqEntries - (qpOf s q).rqHead) % (qpOf s q).rqEntries ≤ (qpOf s q).rqUsed) :
    writeRqHead q v s = setQp q (fun p => { p with
      rqHead := v.toNat, rq := p.rq.drop ((v.toNat + (qpOf s q).rqEntries - (qpOf s q).rqHead) % (qpOf s q).rqEntries) }) s := by
  simp [writeRqHead, hen, herr, Nat.not_le.mpr hlt, Nat.not_lt.mpr hused]

theorem writeRqHead_outside {q : Nat} {v : Word} {s : State} (hen : (qpOf s q).enabled = true) (herr : (qpOf s q).err = false)
    (h : (qpOf s q).rqEntries ≤ v.toNat) : writeRqHead q v s = latchGint 1 (setQp q (fun p => { p with err := true, errCode := 2 }) s) := by
  simp [writeRqHead, hen, herr, h, stopQp]

theorem writeRqHead_disabled {q : Nat} {v : Word} {s : State} (hen : (qpOf s q).enabled = false) :
    writeRqHead q v s = setQp q (fun p => { p with rqHead := v.toNat }) s := by
  simp [writeRqHead, hen]

/-! ### QP_CTRL (R66, R69) -/

theorem bit_eq_getLsbD (w : Word) (i : Nat) : bit w i = w.getLsbD i := by
  simp only [bit, BitVec.getLsbD, Nat.testBit_eq_decide_div_mod_eq, beq_eq_decide]

theorem ctrl_enables (v : Word) : bit ((v ||| 1#32) &&& 0x3F0F#32) 0 = true := by
  simp [bit_eq_getLsbD]

theorem ctrl_disables (v : Word) : bit ((v &&& ~~~1#32) &&& 0x3F0F#32) 0 = false := by
  simp [bit_eq_getLsbD]

theorem ctrl_failed (v : Word) : bit (((v ||| 1#32) &&& 0x3F0F#32) &&& 0x3F0E#32) 0 = false := by
  simp [bit_eq_getLsbD]

theorem writeQpCtrl_disables (q : Nat) (v : Word) (s : State) :
    writeQpCtrl q (v &&& ~~~1#32) s = setQp q (fun p => { p with ctrl := (v &&& ~~~1#32) &&& 0x3F0F#32 }) s := by
  simp only [writeQpCtrl, ctrl_disables, Bool.false_and, Bool.false_eq_true, if_false]

theorem writeQpCtrl_enables {q : Nat} {v : Word} {s : State} (hen : (qpOf s q).enabled = false) (herror : enableError (qpOf s q) = 0)
    (hheld : (qpOf s q).heldReplies = []) :
    writeQpCtrl q (v ||| 1#32) s = setQp q (fun p => { p with
      ctrl := (v ||| 1#32) &&& 0x3F0F#32, sqHead := (qpOf s q).sqTail, rqTail := (qpOf s q).rqHead, err := false, errCode := 0, rq := [],
      unsignalled := 0, heldReplies := [] }) s := by
  simp only [writeQpCtrl, ctrl_enables, hen, herror, hheld, Bool.not_false, Bool.and_true, bne_self_eq_false, Bool.false_eq_true, if_true, if_false,
    List.foldl_nil]
  exact setQp_congr rfl

theorem writeQpCtrl_fails {q : Nat} {v : Word} {s : State} (hen : (qpOf s q).enabled = false) (herror : enableError (qpOf s q) ≠ 0) :
    writeQpCtrl q (v ||| 1#32) s
      = stopQp q (enableError (qpOf s q)) (setQp q (fun p => { p with ctrl := (v ||| 1#32) &&& 0x3F0F#32 &&& 0x3F0E#32 }) s) := by
  simp [writeQpCtrl, ctrl_enables, hen, herror]

theorem latchGint_qps (b : Nat) (s : State) : (latchGint b s).qps = s.qps := by
  rw [latchGint_frame]

theorem stopQp_qps (q code : Nat) (s : State) : (stopQp q code s).qps = modAt s.qps q fun p => { p with err := true, errCode := code } := by
  unfold stopQp
  split <;> simp only [latchGint_qps] <;> rfl

theorem qpOf_stopQp {q : Nat} {s : State} (code : Nat) (hq : q < s.qps.length) :
    qpOf (stopQp q code s) q = { qpOf s q with err := true, errCode := code } := by
  rw [qpOf, stopQp_qps, getD_modAt_same hq, qpOf]

theorem stopQp_aside (q code : Nat) (s : State) : (stopQp q code s).aside = s.aside := by
  rw [stopQp_frame]

/-! ### Reads of BAR0 (R83) -/

theorem readWord_at_other {off : Nat} (s : State) (h : off ≠ 0x110) : readWord 0 off s = (readReg s off, s) := by
  simp [readWord, afterRead, h]

theorem readAccess_part {size off : Nat} (s : State) (hsize : size = 1 ∨ size = 2) (halign : off % size = 0) (hoff : off / 4 ≠ 68) :
    readAccess 0 size off s = (((wordBytes (readReg s (off / 4 * 4))).drop (off % 4)).take size, s) := by
  have hlow : off / 4 * 4 ≠ 0x110 := by omega
  have hsmall : size ≤ 4 := by omega
  have hin : off % 4 + size ≤ 4 := by rcases hsize with rfl | rfl <;> omega
  have hnot : size ≠ 8 := by omega
  simp [readAccess, readWord_at_other s hlow, hsmall, hin, hnot]

theorem readAccess_double {off : Nat} (s : State) (halign : off % 8 = 0) (hoff : off ≠ 0x110) :
    readAccess 0 8 off s = (wordBytes (readReg s off) ++ wordBytes (readReg s (off + 4)), s) := by
  have hlow : off / 4 * 4 = off := by omega
  have hhigh : off + 4 ≠ 0x110 := by omega
  simp [readAccess, hlow, readWord_at_other s hoff, readWord_at_other s hhigh, halign]

theorem readAccess_index (s : State) :
    readAccess 0 4 0x110 s = (wordBytes (lo32 s.index), { s with glob := { s.glob with indexHi := hi32 s.index } }) := rfl

theorem readAccess_index_double (s : State) :
    readAccess 0 8 0x110 s
      = (wordBytes (lo32 s.index) ++ wordBytes (hi32 s.index), { s with glob := { s.glob with indexHi := hi32 s.index } }) := rfl

theorem evIndexLoRead_up {size off : Nat} {s : State} (hup : s.hub.pcieUp = true) :
    evIndexLoRead size off s = emit (.readData (readAccess 0 size off s).1) (readAccess 0 size off s).2 := by
  simp only [evIndexLoRead, hup, if_true]

/-! ### Writes of a register of a queue pair (R66, R70) -/

theorem writeQpReg_readOnly {off : Nat} (q : Nat) (v : Word) (s : State)
    (h : off ∉ [0x00, 0x04, 0x08, 0x0C, 0x20, 0x24, 0x28, 0x2C, 0x38, 0x3C, 0x40, 0x48, 0x58, 0x5C]) : writeQpReg q off v s = s := by
  simp only [List.mem_cons, not_or] at h
  unfold writeQpReg
  split <;> simp_all

/-- An address or a size holds still while the pair is enabled. -/
theorem writeQpReg_held {q off : Nat} (v : Word) {s : State} (hen : (qpOf s q).enabled = true)
    (h : off ∈ [0x00, 0x04, 0x08, 0x20, 0x24, 0x28, 0x38, 0x3C, 0x58, 0x5C]) : writeQpReg q off v s = s := by
  simp only [List.mem_cons, List.not_mem_nil, or_false] at h
  rcases h with rfl | rfl | rfl | rfl | rfl | rfl | rfl | rfl | rfl | rfl <;> simp [writeQpReg, hen]

theorem readQpReg_writeQpReg_disabled {q : Nat} (v : Word) {s : State} (hen : (qpOf s q).enabled = false) (hq : q < s.qps.length) :
    readQpReg (writeQpReg q 0x00 v s) q 0x00 = v ∧ readQpReg (writeQpReg q 0x04 v s) q 0x04 = v
      ∧ readQpReg (writeQpReg q 0x08 v s) q 0x08 = v &&& 0xF#32 ∧ readQpReg (writeQpReg q 0x28 v s) q 0x28 = v &&& 0xF#32
      ∧ readQpReg (writeQpReg q 0x0C v s) q 0x0C = v ∧ readQpReg (writeQpReg q 0x2C v s) q 0x2C = v := by
  have htail : writeQpReg q 0x0C v s = setQp q (fun p => { p with sqTail := v.toNat }) s := writeSqTail_takes (.inl (.inl hen))
  have hhead : writeQpReg q 0x2C v s = setQp q (fun p => { p with rqHead := v.toNat }) s := writeRqHead_disabled hen
  rw [htail, hhead]
  simp only [writeQpReg, hen, Bool.false_eq_true, if_false, readQpReg, qpOf_setQp _ hq, BitVec.ofNat_toNat, BitVec.setWidth_eq, true_and]

/-! ### The events -/

/-- An enable that fails leaves the pair stopped and disabled (R69). -/
theorem qpEnable_fails (q : Fin 16) (v : Word) : EventTo (fun k => .qpEnable k q v)
    (fun _ s => s.hub.pcieUp = true ∧ (qpOf s q.val).enabled = false ∧ enableError (qpOf s q.val) ≠ 0 ∧ q.val < s.qps.length)
    (fun _ s t => (qpOf t q.val).enabled = false ∧ (qpOf t q.val).err = true ∧ (qpOf t q.val).errCode = enableError (qpOf s q.val)) := by
  rintro k s hq hm ⟨hup, hen, herror, hin⟩
  refine ⟨_, event_core (f := evQpEnable q.val v) hq hm (evQpEnable_core ..), ?_⟩
  generalize passTo k s = a at hup hen herror hin ⊢
  have hrun : evQpEnable q.val v (opened a) = stopQp q.val (enableError (qpOf a q.val))
      (setQp q.val (fun p => { p with ctrl := (v ||| 1#32) &&& 0x3F0F#32 &&& 0x3F0E#32 }) (opened a)) := by
    have hup : (opened a).hub.pcieUp = true := hup
    rw [evQpEnable, hup, if_pos rfl]
    exact writeQpCtrl_fails (s := opened a) hen herror
  have hsilent : repliesFirst (evQpEnable q.val v) a = { evQpEnable q.val v (opened a) with aside := a.aside } :=
    repliesFirst_silent (by rw [hrun, stopQp_aside]; rfl)
  have hlen : q.val < (setQp q.val (fun p => { p with ctrl := (v ||| 1#32) &&& 0x3F0F#32 &&& 0x3F0E#32 }) (opened a)).qps.length := by
    show q.val < (modAt a.qps q.val _).length
    simpa [modAt] using hin
  have hqp : qpOf (repliesFirst (evQpEnable q.val v) a) q.val
      = { qpOf a q.val with ctrl := (v ||| 1#32) &&& 0x3F0F#32 &&& 0x3F0E#32, err := true, errCode := enableError (qpOf a q.val) } := by
    rw [hsilent]
    show qpOf (evQpEnable q.val v (opened a)) q.val = _
    rw [hrun, qpOf_stopQp _ hlen, qpOf_setQp _ (s := opened a) hin]
    rfl
  rw [hqp]
  exact ⟨ctrl_failed v, rfl, rfl⟩

/-- Settles O22, each access by the lemma of its register. -/
theorem registerEvents : Obligations.RegisterEvents := by
  unfold Obligations.RegisterEvents
  refine ⟨fun q v => ?_, fun q v => ?_, fun q v => ?_, fun q v => ?_, fun q v => ?_, fun q v => ?_, qpEnable_fails, fun q v => ?_, fun v => ?_, ?_,
    fun size off => ?_, fun off => ?_, ?_, fun bar off v => ?_, fun bar off v => ?_, fun bar size off v => ?_, fun q => ?_,
    fun q v s => ⟨fun hen => ?_, fun hen hq => readQpReg_writeQpReg_disabled v hen hq, fun hq => ?_, ?_⟩⟩
  · refine event_of_core (f := fun _ => evSqTailDoorbell q.val v) (fun _ _ => rfl) (fun _ s ⟨hup, h⟩ => ?_) fun _ _ => setQp_core ..
    exact (if_pos hup).trans (writeSqTail_takes (s := opened s) (.inl h))
  · refine event_of_core (f := fun _ => evSqTailDoorbell q.val v) (fun _ _ => rfl) (fun _ s ⟨hup, _, _, h⟩ => ?_) fun _ _ => setQp_core ..
    exact (if_pos hup).trans (writeSqTail_takes (s := opened s) (.inr h))
  · refine event_of_core (f := fun _ => evSqTailDoorbell q.val v) (fun _ _ => rfl) (fun _ s ⟨hup, hen, herr, h⟩ => ?_)
      fun _ _ => (latchGint_core ..).trans (setQp_core ..)
    exact (if_pos hup).trans (writeSqTail_outside (s := opened s) hen herr h)
  · refine event_of_core (f := fun _ => evRqHeadWrite q.val v) (fun _ _ => rfl) (fun _ s ⟨hup, hen, herr, hlt, hused⟩ => ?_) fun _ _ => setQp_core ..
    exact (if_pos hup).trans (writeRqHead_takes (s := opened s) hen herr hlt hused)
  · refine event_of_core (f := fun _ => evRqHeadWrite q.val v) (fun _ _ => rfl) (fun _ s ⟨hup, hen, herr, h⟩ => ?_)
      fun _ _ => (latchGint_core ..).trans (setQp_core ..)
    exact (if_pos hup).trans (writeRqHead_outside (s := opened s) hen herr h)
  · refine event_of_core (f := fun _ => evQpEnable q.val v) (fun _ _ => rfl) (fun _ s ⟨hup, hen, herror, hheld⟩ => ?_) fun _ _ => setQp_core ..
    exact (if_pos hup).trans (writeQpCtrl_enables (s := opened s) hen herror hheld)
  · refine event_of_core (f := fun _ => evQpDisable q.val v) (fun _ _ => rfl) (fun _ s hup => ?_) fun _ _ => setQp_core ..
    exact (if_pos hup).trans (writeQpCtrl_disables q.val v (opened s))
  · exact event_of_core (f := fun _ => evGintStatusClear v) (fun _ _ => rfl) (fun _ s hup => if_pos hup) fun _ _ => core_mk ..
  · refine event_of_core (f := fun _ => evIndexLoRead 4 0x110) (fun _ _ => rfl) (fun _ s hup => ?_) fun _ _ => core_mk ..
    rw [evIndexLoRead_up (s := opened s) hup, readAccess_index]
    rfl
  · refine event_of_core (f := fun _ => evIndexLoRead size off) (fun _ _ => rfl) (fun _ s ⟨hup, hsize, halign, hoff⟩ => ?_) fun _ _ => emit_core ..
    rw [evIndexLoRead_up (s := opened s) hup, readAccess_part _ hsize halign hoff]
  · refine event_of_core (f := fun _ => evIndexLoRead 8 off) (fun _ _ => rfl) (fun _ s ⟨hup, halign, hoff⟩ => ?_) fun _ _ => emit_core ..
    rw [evIndexLoRead_up (s := opened s) hup, readAccess_double _ halign hoff]
  · refine event_of_core (f := fun _ => evIndexLoRead 8 0x110) (fun _ _ => rfl) (fun _ s hup => ?_) fun _ _ => core_mk ..
    rw [evIndexLoRead_up (s := opened s) hup, readAccess_index_double]
    rfl
  · refine event_of_core (f := fun _ => evRegisterWrite bar 4 off v) (fun _ _ => rfl) (fun _ s ⟨hup, halign⟩ => ?_) fun _ _ => writeBar_core ..
    have hup : (opened s).hub.pcieUp = true := hup
    simp [evRegisterWrite, hup, halign]
  · refine event_of_core (f := fun _ => evRegisterWrite bar 8 off v) (fun _ _ => rfl) (fun _ s ⟨hup, halign⟩ => ?_)
      fun _ _ => (writeBar_core ..).trans (writeBar_core ..)
    have hup : (opened s).hub.pcieUp = true := hup
    simp [evRegisterWrite, hup, halign]
  · refine event_idle (f := fun _ => evRegisterWrite bar size off v) (fun _ _ => rfl) fun _ s ⟨h4, h8⟩ => ?_
    simp [evRegisterWrite, h4, h8]
  · refine event_of_core (f := fun _ => evCoalTimeExpiry q.val) (fun _ _ => rfl) (fun _ s ⟨hint, htime, hsome⟩ => ?_)
      fun _ _ => (raiseVector_core ..).trans (setQp_core ..)
    refine if_pos ?_
    simp only [Bool.and_eq_true, bne_iff_ne, decide_eq_true_eq]
    exact ⟨⟨hint, htime⟩, hsome⟩
  · refine ⟨?_, ?_, ?_, ?_, ?_, ?_, ?_, ?_, ?_, ?_⟩ <;> exact writeQpReg_held v hen (by decide)
  · simp only [writeQpReg, readQpReg, qpOf_setQp _ hq]
  · refine ⟨?_, ?_, ?_, ?_, ?_⟩ <;> exact writeQpReg_readOnly q v s (by decide)

end Sys2Proof.Machine
end

section
/-! What stands through the replies and notices: a cause that GINT_STATUS shows (R73), and an output that has been sent. -/

namespace Sys2Proof.Machine

/-- A predicate on what is sent and latched that neither an output nor a latched cause ends. -/
structure Stands (P : State → Prop) : Prop where
  emit : ∀ {o s}, P s → P (emit o s)
  latch : ∀ {b s}, P s → P (latchGint b s)
  other : ∀ {s t}, P s → t.out = s.out → t.glob.gintStatus = s.glob.gintStatus → P t

theorem stands_ite {P : State → Prop} {p : Prop} [Decidable p] {s t : State} (hs : P s) (ht : P t) : P (if p then s else t) := by
  split
  · exact hs
  · exact ht

section
variable {P : State → Prop} (h : Stands P) {s : State}
include h

theorem Stands.setQp {q : Nat} {f : QueuePair → QueuePair} (hs : P s) : P (setQp q f s) := h.other hs rfl rfl

theorem Stands.raiseVector {v : Nat} (hs : P s) : P (raiseVector v s) := stands_ite (h.emit hs) hs

theorem Stands.stopQp {q code : Nat} (hs : P s) : P (stopQp q code s) := by
  unfold Machine.stopQp
  split
  · exact h.latch (h.setQp hs)
  · exact h.latch (h.setQp hs)
  · exact h.latch (h.setQp hs)
  · exact h.setQp hs

theorem Stands.tryRq {q : Nat} {e : Entry} (hs : P s) : P (tryRq q e s).1 := by
  unfold Machine.tryRq
  extract_lets p tail n fire s0 s1 e' s2 s3
  have h0 : P s0 := stands_ite (h.emit hs) hs
  have h1 : P s1 := h.emit h0
  have h2 : P s2 := h.setQp h1
  have h3 : P s3 := stands_ite h2 (stands_ite (h.stopQp h2) (h.emit h2))
  clear_value s3
  split
  · show P (Machine.stopQp q 4 s)
    exact h.stopQp hs
  · exact stands_ite (h.raiseVector h3) h3

theorem Stands.replyQp {q : Nat} {e : Entry} (hs : P s) : P (replyQp q e s) := by
  have htry := h.tryRq (q := q) (e := e) hs
  unfold Machine.replyQp
  dsimp only
  split
  · exact h.setQp hs
  · split
    · next a heq => rwa [heq] at htry
    · next a heq =>
      rw [heq] at htry
      exact h.setQp htry

theorem Stands.sendDatagram {dest : Sender} {l : List Entry} (hs : P s) : P (sendDatagram dest l s) := h.emit (h.other hs rfl rfl)

theorem Stands.putNotice {d : Nat} {e : Entry} (hs : P s) : P (putNotice d e s).1 := by
  unfold Machine.putNotice
  split_ifs
  · exact h.tryRq hs
  · exact h.other hs rfl rfl
  · split
    · exact h.sendDatagram hs
    · exact hs

theorem Stands.holdNotice {d : Nat} {e : Entry} (hs : P s) : P (holdNotice d e s) := by
  unfold Machine.holdNotice
  extract_lets buf s1
  split
  · exact h.other hs rfl rfl
  · exact h.latch (h.other hs rfl rfl)

theorem Stands.sendNotice {d : Nat} {e : Entry} (hs : P s) : P (sendNotice d e s) := by
  have hput := h.putNotice (d := d) (e := e) hs
  unfold Machine.sendNotice
  split
  · split
    · next a heq => rwa [heq] at hput
    · next a heq =>
      rw [heq] at hput
      exact h.holdNotice hput
  · exact h.holdNotice hs

theorem Stands.notify {code idx : Nat} {pl : List Word} (hs : P s) : P (notify code pl idx s) := by
  unfold Machine.notify
  dsimp only
  split
  · exact h.other hs rfl rfl
  · exact h.sendNotice hs

theorem Stands.sendAside (hs : P s) : P (sendAside s) := by
  have hfold (l : List (Nat × Entry)) (a : State) (ha : P a) : P (l.foldl (fun a x => Machine.sendNotice x.1 x.2 a) a) := by
    induction l generalizing a with
    | nil => exact ha
    | cons x l ih => exact ih _ (h.sendNotice ha)
  exact hfold _ _ (h.other hs rfl rfl)

theorem Stands.repliesFirst {f : State → State} (hs : P (f (opened s))) : P (repliesFirst f s) := by
  unfold Machine.repliesFirst
  split
  · next l hl =>
    have hopened : opened s = s := by
      unfold opened
      rw [hl, Option.getD_some, ← hl]
    rwa [hopened] at hs
  · next hn =>
    have hopened : opened s = { s with aside := some [] } := by
      unfold opened
      rw [hn, Option.getD_none]
    rw [hopened] at hs
    exact h.sendAside hs

theorem Stands.pairNotice {old : State} (hs : P s) : P (pairNotice old s) := by
  unfold Machine.pairNotice
  split
  · exact h.notify hs
  · exact hs

theorem Stands.reportUnlock {u cause : Nat} (hs : P s) : P (reportUnlock u cause s) := by
  refine h.notify ?_
  rw [bbWrite_frame]
  exact h.other hs rfl rfl

theorem Stands.deliverReply {c : Cmd} {e : Entry} (hs : P s) : P (deliverReply c e s) := by
  unfold Machine.deliverReply writeReply
  refine stands_ite (stands_ite hs ?_) (h.other hs rfl rfl)
  split
  · exact h.replyQp (stands_ite (h.setQp hs) hs)
  · exact h.other hs rfl rfl
  · exact h.sendDatagram hs
  · refine h.emit (stands_ite ?_ hs)
    unfold diverge
    exact stands_ite (h.other hs rfl rfl) hs

theorem Stands.complete {c : Cmd} {st : Status} {pl : List Word} {i : Nat} (hs : P s) : P (complete c st pl i s) := by
  unfold Machine.complete
  extract_lets e s1 s2
  have h1 : P s1 := h.other hs rfl rfl
  have h2 : P s2 := by
    dsimp only [s2]
    split
    · exact h.other h1 rfl rfl
    · exact h1
  exact stands_ite h2 (h.deliverReply h2)

end

/-! ### A latched cause -/

/-- GINT_STATUS shows the cause `b`. -/
def latched (b : Nat) (s : State) : Prop := bit s.glob.gintStatus b = true

theorem bit_or_left {w x : Word} {b : Nat} (h : bit w b = true) : bit (w ||| x) b = true := by
  rw [bit_eq_getLsbD] at h ⊢
  rw [BitVec.getLsbD_or, h, Bool.true_or]

theorem latchGint_keeps_latched {b c : Nat} {s : State} (h : latched b s) : latched b (latchGint c s) := by
  unfold latched
  rcases latchGint_glob c s with hg | hg <;> rw [hg]
  · exact h
  · exact bit_or_left h

theorem stands_latched (b : Nat) : Stands (latched b) where
  emit h := h
  latch := latchGint_keeps_latched
  other h _ hg := by rwa [latched, hg]

theorem latchGint_latched {b : Nat} (s : State) (hb : b < 32) : latched b (latchGint b s) := by
  unfold latchGint
  dsimp only
  split
  · next h => exact h
  · exact stands_ite ((stands_latched b).raiseVector (bit_or_pow hb)) (bit_or_pow hb)

/-! ### An output -/

/-- The output `o` has been sent. -/
def emitted (o : Output) (s : State) : Prop := o ∈ s.out

theorem emit_emitted (o : Output) (s : State) : emitted o (emit o s) := List.mem_append_right _ (List.mem_singleton.mpr rfl)

theorem emit_keeps_emitted {o o' : Output} {s : State} (h : emitted o s) : emitted o (emit o' s) := List.mem_append_left _ h

theorem latchGint_keeps_emitted {o : Output} {b : Nat} {s : State} (h : emitted o s) : emitted o (latchGint b s) := by
  unfold latchGint raiseVector
  exact stands_ite h (stands_ite (stands_ite (emit_keeps_emitted h) h) h)

theorem stands_emitted (o : Output) : Stands (emitted o) where
  emit := emit_keeps_emitted
  latch := latchGint_keeps_emitted
  other h ho _ := by rwa [emitted, ho]

end Sys2Proof.Machine
end

section
/-! O27: an unlock, a relock, and a STEP at its boundary (R124-R131, R139, R741). -/

namespace Sys2Proof.Machine

/-! ### An unlock (R127, R129-R131) -/

/-- Samples stop at `u`, the captures of SYNC edges end, and GINT_STATUS shows the unlock. -/
def samplesStop (u : Nat) (s : State) : State :=
  latchGint 4 (failSyncs (if delivering s then gapStop u 1 (u + 96) (u + 96) false s else s))

theorem ends_gapStop_if {u : Nat} (s : State) : Ends s (if delivering s then gapStop u 1 (u + 96) (u + 96) false s else s) := by
  split
  · exact ends_gapStop ..
  · exact Ends.refl s

theorem samplesStop_time (u : Nat) (s : State) : (samplesStop u s).time = { s.time with syncs := [] } := by
  rw [samplesStop, core_time (latchGint_core ..), failSyncs_time, (ends_gapStop_if s).time]

theorem samplesStop_calm {u : Nat} {s : State} (h : Calm s) : Calm (samplesStop u s) :=
  (failSyncs_calm (h.ends (ends_gapStop_if s))).core (latchGint_core ..)

theorem samplesStop_mode (u : Nat) (s : State) : (samplesStop u s).mode = s.mode := by
  obtain ⟨a, ha, heq⟩ := failSyncs_ends (if delivering s then gapStop u 1 (u + 96) (u + 96) false s else s)
  rw [samplesStop, core_mode (latchGint_core ..), heq]
  exact ha.mode.trans (ends_gapStop_if s).mode

theorem samplesStop_gone {u : Nat} {s : State} : ∀ w ∈ s.time.syncs, ((samplesStop u s).cmds.any fun c => c.id == w.cmd) = false := by
  intro w hw
  rw [samplesStop, core_cmds (latchGint_core ..)]
  exact failSyncs_gone _ w ((ends_gapStop_if s).time ▸ hw)

theorem samplesStop_latched (u : Nat) (s : State) : latched 4 (samplesStop u s) := latchGint_latched _ (by decide)

/-- The timebase after an unlock at `u`; `x` is what a STEP held then would do. -/
def unlockTime (u dac : Nat) (x : Option (Int × Bool × Option Nat)) (step : Bool) (t : TimeUnit) : TimeUnit :=
  { t with
    tb := unlockedState t step, unlockIndex := u, unlockCount := satAdd 32 t.unlockCount 1, lockAttempts := 0, estimatedRelock := false,
    holdDac := dac, jump := match x with | some y => if step && y.2.1 then y.1 else t.jump | none => t.jump,
    qualifying := t.refPresent && unlockedState t step == .waitRef, jumpKnown := false, ppsWait := false, step := none,
    applyCapture := none,
    relockStep := if step then x.map fun y => { boundary := u, jump := y.1, correct := y.2.1, cmd := y.2.2 } else none }

/-- The state after an unlock at `u`, its notice still to send. -/
def unlockedAt (u i dac : Nat) (x : Option (Int × Bool × Option Nat)) (step : Bool) (s : State) : State :=
  { setTime (unlockTime u dac x step) (samplesStop u s) with index := i }

/-- An unlock that no held command is tied to. -/
theorem evUnlockDetected_stops {k : Nat} {j : Int} {s : State} {x : Option (Int × Bool × Option Nat)} (hl : locked s = true)
    (hx : stepAtUnlock j s = x)
    (hcmd : (x.bind fun y => y.2.2) = none) :
    ∃ dac a, core a = core s ∧ evUnlockDetected k j s
      = reportUnlock (k / 32 * 32) 0
          (unlockedAt (k / 32 * 32) (if delivering s then k / 32 * 32 + 95 else s.index) dac x (x.isSome && s.time.refPresent) a) := by
  have hcore : core (if s.time.tb == .locked then (takeFree s).2 else s) = core s := by
    split
    · exact takeFree_core s
    · rfl
  refine ⟨if s.time.tb == .locked then (takeFree s).1.toNat % 2 ^ 20 else s.time.holdDac, _, hcore, ?_⟩
  have hdel : delivering (if s.time.tb == .locked then (takeFree s).2 else s) = delivering s := by
    rw [delivering, core_locked hcore, core_time hcore, delivering]
  simp only [evUnlockDetected, hl, hx, hcmd, unlockedAt, samplesStop, hdel, Bool.not_true, Bool.false_eq_true, if_false]
  rfl

theorem unlockedAt_latched (u i dac : Nat) (x : Option (Int × Bool × Option Nat)) (step : Bool) (s : State) :
    latched 4 (unlockedAt u i dac x step s) :=
  samplesStop_latched u s

theorem unlockedAt_calm {u i dac : Nat} {x : Option (Int × Bool × Option Nat)} {step : Bool} {s : State} (h : Calm s) :
    Calm (unlockedAt u i dac x step s) := (samplesStop_calm h).same rfl rfl

theorem unlockedAt_time (u i dac : Nat) (x : Option (Int × Bool × Option Nat)) (step : Bool) (s : State) :
    (unlockedAt u i dac x step s).time = unlockTime u dac x step { s.time with syncs := [] } := by
  rw [← samplesStop_time u s]
  rfl

theorem stepAtUnlock_locked {j : Int} {s : State} (h : s.time.tb = .locked) : stepAtUnlock j s = none := by
  simp only [stepAtUnlock, h]

theorem stepAtUnlock_slew {j : Int} {s : State} (h : s.time.tb = .slew) (hstep : s.time.step = none) (hresume : s.time.resume = none)
    (hcmds : s.cmds = []) :
    stepAtUnlock j s = some (j, false, none) := by
  have hheld : heldStep s = none := by
    rw [heldStep, heldInOrder, hcmds]
    rfl
  simp only [stepAtUnlock, h, hstep, hresume, hheld, Option.map_none]

theorem unlockDetected_stops (j : Int) : EventTo (fun k => .unlockDetected k j) (fun _ s => s.time.tb = .locked ∧ s.time.applyCapture = none)
    (fun k s t => t.time.tb = (if s.time.refPresent then .relocking else .waitRef) ∧ t.time.unlockIndex = k / 32 * 32
      ∧ t.index = k / 32 * 32 + 95 ∧ t.time.unlockCount = satAdd 32 s.time.unlockCount 1 ∧ t.time.lockAttempts = 0 ∧ t.time.syncs = []
      ∧ t.time.applyCapture = none ∧ bit t.glob.gintStatus 4 = true ∧ t.mode = s.mode
      ∧ (∀ w ∈ s.time.syncs, (t.cmds.any fun c => c.id == w.cmd) = false)) := by
  have run (k : Nat) (s : State) (htb : s.time.tb = .locked) (hcap : s.time.applyCapture = none) :
      ∃ dac a, core a = core s ∧ evUnlockDetected k j s
        = reportUnlock (k / 32 * 32) 0 (unlockedAt (k / 32 * 32) (k / 32 * 32 + 95) dac none false a) := by
    have hl : locked s = true := by rw [locked, htb]; rfl
    have hdel : delivering s = true := by rw [delivering, hl, hcap]; rfl
    have hrun := evUnlockDetected_stops (k := k) hl (stepAtUnlock_locked (j := j) htb) rfl
    rwa [hdel] at hrun
  refine eventTo_of (f := fun k => evUnlockDetected k j) (fun _ _ => rfl) (fun k s ⟨htb, hcap⟩ hs => ?_) ?_
  · obtain ⟨dac, a, ha, hrun⟩ := run k (opened s) htb hcap
    rw [hrun]
    exact (unlockedAt_calm ((opened_calm hs).core ha)).core (reportUnlock_core ..)
  · rintro k s t old ⟨htb, hcap⟩ hends rfl
    obtain ⟨dac, a, ha, hrun⟩ := run k (opened s) htb hcap
    have hglob : latched 4 (pairNotice old (repliesFirst (fun s => evUnlockDetected k j s) s)) := by
      refine (stands_latched 4).pairNotice ((stands_latched 4).repliesFirst ?_)
      rw [hrun]
      exact (stands_latched 4).reportUnlock (unlockedAt_latched ..)
    rw [hrun] at hends
    generalize pairNotice old (repliesFirst (fun s => evUnlockDetected k j s) s) = t at hends hglob ⊢
    have hends := (ends_core (reportUnlock_core ..)).trans hends
    have ha := ha.trans (opened_core s)
    have htime : t.time = unlockTime (k / 32 * 32) dac none false { s.time with syncs := [] } := by
      rw [hends.time, unlockedAt_time, core_time ha]
    rw [htime]
    refine ⟨?_, rfl, hends.index, rfl, rfl, rfl, rfl, hglob, ?_, fun w hw => hends.gone ?_⟩
    · simp only [unlockTime, unlockedState, htb]
      simp
    · exact hends.mode.trans ((samplesStop_mode ..).trans (core_mode ha))
    · exact samplesStop_gone w (core_time ha ▸ hw)

theorem unlockDetected_inSlew (j : Int) : EventTo (fun k => .unlockDetected k j)
    (fun _ s => s.time.tb = .slew ∧ s.time.refPresent = true ∧ s.time.step = none ∧ s.time.resume = none ∧ s.cmds = [])
    (fun k _ t => t.time.tb = .relocking ∧ t.time.relockStep = some { boundary := k / 32 * 32, jump := j, correct := false, cmd := none }) := by
  have run (k : Nat) (s : State) (htb : s.time.tb = .slew) (href : s.time.refPresent = true) (hstep : s.time.step = none)
      (hresume : s.time.resume = none)
      (hcmds : s.cmds = []) : ∃ i dac a, core a = core s ∧ evUnlockDetected k j s
        = reportUnlock (k / 32 * 32) 0 (unlockedAt (k / 32 * 32) i dac (some (j, false, none)) true a) := by
    have hl : locked s = true := by rw [locked, htb]; rfl
    obtain ⟨dac, a, ha, hrun⟩ := evUnlockDetected_stops (k := k) hl (stepAtUnlock_slew (j := j) htb hstep hresume hcmds) rfl
    rw [href] at hrun
    exact ⟨_, dac, a, ha, hrun⟩
  refine eventTo_of (f := fun k => evUnlockDetected k j) (fun _ _ => rfl) (fun k s ⟨htb, href, hstep, hresume, hcmds⟩ hs => ?_) ?_
  · obtain ⟨i, dac, a, ha, hrun⟩ := run k (opened s) htb href hstep hresume hcmds
    rw [hrun]
    exact (unlockedAt_calm ((opened_calm hs).core ha)).core (reportUnlock_core ..)
  · rintro k s t old ⟨htb, href, hstep, hresume, hcmds⟩ hends -
    obtain ⟨i, dac, a, ha, hrun⟩ := run k (opened s) htb href hstep hresume hcmds
    rw [hrun] at hends
    have ha := ha.trans (opened_core s)
    rw [hends.time, core_time (reportUnlock_core ..), unlockedAt_time, core_time ha]
    refine ⟨?_, rfl⟩
    simp only [unlockTime, unlockedState, htb, href]
    rfl

/-! ### Attempts to lock that fail (R129) -/

theorem evLockAttemptFail_counts {s : State} (htb : s.time.tb = .relocking) (hn : s.time.lockAttempts ≠ 3) :
    evLockAttemptFail s = setTime (fun t => { t with lockAttempts := t.lockAttempts + 1 }) s := by
  have hn : s.time.lockAttempts + 1 ≠ 4 := by omega
  simp only [evLockAttemptFail, htb, hn, if_false, bne_self_eq_false, Bool.false_eq_true]
  rfl

/-- The fourth failed attempt, its entry and its notice made. -/
def attemptsOver (s : State) : State :=
  let a := setTime (fun t => { t with lockAttempts := 4 }) s
  notify 0x0209 [4] a.index (bbWrite 2 0 0x0209 [4] a.index a)

theorem attemptsOver_time (s : State) : (attemptsOver s).time = { s.time with lockAttempts := 4 } :=
  (core_time (notify_core ..)).trans (core_time (bbWrite_core ..))

theorem attemptsOver_calm {s : State} (h : Calm s) : Calm (attemptsOver s) :=
  (setTime_calm h).core ((notify_core ..).trans (bbWrite_core ..))

theorem evLockAttemptFail_fourth {s : State} (htb : s.time.tb = .relocking) (hn : s.time.lockAttempts = 3) :
    evLockAttemptFail s = setFault 1 (attemptsOver s) := by
  simp only [evLockAttemptFail, htb, hn, bne_self_eq_false, Bool.false_eq_true, if_false, if_true, attemptsOver]

theorem notify_faultActive (code idx : Nat) (pl : List Word) (s : State) : (notify code pl idx s).faultActive = s.faultActive := by
  rw [notify_frame]

theorem setFault_active {b : Nat} (hb : b < 32) (s : State) : bit (setFault b s).faultActive b = true := by
  unfold setFault
  dsimp only
  split
  · exact bit_or_pow hb
  · rw [notify_faultActive, apply_ite State.faultActive, latchGint_frame, ite_self]
    exact bit_or_pow hb

theorem after_faultActive (old : State) (f : State → State) (s : State) :
    (pairNotice old (repliesFirst f s)).faultActive = (f (opened s)).faultActive := by
  rw [after_frame]

theorem lockAttemptFail_counts : Event (fun k => .lockAttemptFail k) (fun _ s => s.time.tb = .relocking ∧ s.time.lockAttempts ≠ 3)
    (fun _ s => setTime (fun t => { t with lockAttempts := t.lockAttempts + 1 }) s) :=
  event_of (f := fun _ => evLockAttemptFail) (fun _ _ => rfl) (fun _ s h => evLockAttemptFail_counts (s := opened s) h.1 h.2)
    (fun _ _ _ hs => setTime_calm (opened_calm hs)) (fun _ _ _ _ => rfl) fun _ _ _ => rfl

theorem lockAttemptFail_fourth : EventTo (fun k => .lockAttemptFail k) (fun _ s => s.time.tb = .relocking ∧ s.time.lockAttempts = 3)
    (fun _ s t => t.time = { s.time with lockAttempts := 4 } ∧ bit t.faultCause 1 = true ∧ bit t.faultActive 1 = true) := by
  refine eventTo_of (f := fun _ => evLockAttemptFail) (fun _ _ => rfl) (fun _ s ⟨htb, hn⟩ hs => ?_) ?_
  · rw [evLockAttemptFail_fourth (s := opened s) htb hn]
    exact (attemptsOver_calm (opened_calm hs)).core (setFault_core ..)
  · rintro _ s t old ⟨htb, hn⟩ hends rfl
    have hrun := evLockAttemptFail_fourth (s := opened s) htb hn
    refine ⟨?_, ?_, ?_⟩
    · rw [hends.time, hrun, core_time (setFault_core ..), attemptsOver_time]
      rfl
    · rw [(after_units old evLockAttemptFail s).faults, hrun]
      exact setFault_bit (by decide) _
    · rw [after_faultActive, hrun]
      exact setFault_active (by decide) _

/-! ### An event with no index of its own -/

theorem quiet_calm {s : State} (hq : s.quiet = true) (hm : hasMirror s = false) : Calm s := ⟨quiet_noneWaits hq, hm, quiet_forwarded hq⟩

theorem pairNotice_faultActive (old s : State) : (pairNotice old s).faultActive = s.faultActive := by
  unfold pairNotice
  split
  · exact notify_faultActive ..
  · rfl

/-- An event that leaves nothing to start answers what it has done, and at most a notice of the pair. -/
theorem finish_answers {s u : State} (h : Calm u) : ∃ t, finish s u = t ∧ core t = core u ∧ t.faultActive = u.faultActive := by
  refine ⟨_, finish_calm h, pairNotice_core .., pairNotice_faultActive ..⟩

theorem finish_same {s u : State} (h : Calm u) (hp : u.pair = s.pair) (hl : locked u = locked s) : finish s u = u :=
  (finish_calm h).trans (pairNotice_same (pairWord_congr hp hl))

/-! ### A confirmed lock (R124, R125, R127, R139) -/

theorem endFault_bit {b : Nat} (hb : b < 32) (s : State) : bit (endFault b s).faultActive b = false := by
  have hpow : (BitVec.ofNat 32 (2 ^ b)).getLsbD b = true := by
    rw [BitVec.getLsbD_ofNat, Nat.testBit_two_pow_self, decide_eq_true hb, Bool.and_self]
  simp only [bit_eq_getLsbD, endFault, BitVec.getLsbD_and, BitVec.getLsbD_not, hb, hpow, decide_true, Bool.not_true, Bool.and_false]

theorem evLockConfirmed_idle {edge band : Nat} {s : State} (h : s.time.tb ≠ .relocking) : evLockConfirmed edge band s = s := by
  simp [evLockConfirmed, h]

theorem evLockConfirmed_first {edge band : Nat} {s : State} (htb : s.time.tb = .relocking) (hcfg : s.time.configCmds = [])
    (htrip : s.hub.tripped = false)
    (hever : s.time.everLocked = false) : evLockConfirmed edge band s = firstLock edge band s := by
  simp [evLockConfirmed, htb, hcfg, htrip, hever]

/-- The timebase after the first lock. -/
def firstLockTime (edge band : Nat) (t : TimeUnit) : TimeUnit :=
  { t with
    tb := .locked, everLocked := true, syncRef := edge, syncIndex := t.indexStart, refCount := edge, refIndex := t.indexStart, vcoBand := band,
    refPresent := true, qualifying := false, estimatedRelock := false, lockAttempts := 0 }

/-- The samples resume at INDEX_START with the first lock. -/
def firstLocked (edge band : Nat) (s : State) : State :=
  setTime (firstLockTime edge band) { s with index := s.time.indexStart, hist := { s.hist with first := s.time.indexStart } }

theorem firstLock_ends (edge band : Nat) (s : State) : ∃ u, Ends (firstLocked edge band s) u ∧ firstLock edge band s = endFault 1 u := by
  refine ⟨_, ?_, rfl⟩
  refine Ends.trans ?_ (ends_core (setMaint_core ..))
  exact Ends.trans (ends_core (gapStart_core ..)) (ends_skipGap ..)

theorem firstLocked_calm {edge band : Nat} {s : State} (h : Calm s) : Calm (firstLocked edge band s) := h.same rfl rfl

theorem lockConfirmed_first (edge band : Nat) (s : State) (hq : s.quiet = true) (hm : hasMirror s = false) (htb : s.time.tb = .relocking)
    (hcfg : s.time.configCmds = []) (htrip : s.hub.tripped = false) (hever : s.time.everLocked = false) :
    ∃ t, exec (.lockConfirmed edge band) s = .next t
      ∧ t.time.tb = .locked ∧ t.time.everLocked = true ∧ t.index = s.time.indexStart ∧ t.time.syncRef = edge ∧ t.time.syncIndex = s.time.indexStart
      ∧ t.time.refCount = edge ∧ t.time.vcoBand = band ∧ t.time.refPresent = true ∧ bit t.faultActive 1 = false := by
  obtain ⟨u, hu, hrun⟩ := firstLock_ends edge band s
  have hcalm : Calm (endFault 1 u) := ((firstLocked_calm (quiet_calm hq hm)).ends hu).core (endFault_core ..)
  obtain ⟨t, ht, hcore, hactive⟩ := finish_answers (s := s) hcalm
  have htime : t.time = firstLockTime edge band s.time := (core_time (hcore.trans (endFault_core ..))).trans hu.time
  refine ⟨t, ?_, ?_⟩
  · rw [← ht, ← hrun, ← evLockConfirmed_first htb hcfg htrip hever]
    rfl
  · rw [htime, hactive]
    exact ⟨rfl, rfl, (core_index (hcore.trans (endFault_core ..))).trans hu.index, rfl, rfl, rfl, rfl, rfl, endFault_bit (by decide) u⟩

/-- The timebase as a relock at the edge `n` leaves it. -/
def relockTime (band : Nat) (n : Int) (isStep : Bool) (moved : Int) (t : TimeUnit) : TimeUnit :=
  { t with
    tb := .locked, vcoBand := band, refCount := edgeOf t n, refIndex := indexOfEdge t n, ppsAt := t.ppsAt.map (fun p => p + moved),
    estimatedRelock := false, lockAttempts := 0, relockStep := none,
    indexEstimated := t.indexEstimated || t.estimatedRelock,
    syncRef := if isStep then edgeOf t n else t.syncRef, syncIndex := if isStep then indexOfEdge t n else t.syncIndex,
    gen := if isStep then (t.gen + 1) % 65536 else t.gen }

/-- The relock at the edge `n`, the samples not yet started. -/
def relockAt (band : Nat) (n : Int) (isStep : Bool) (moved : Int) (s : State) : State :=
  setTime (relockTime band n isStep moved) { s with index := indexOfEdge s.time n }

/-- The samples resume at `v` after an unlock at `u`. -/
def samplesResume (u v : Nat) (s : State) : State := skipGap u v (gapStart v s)

theorem ends_samplesResume (u v : Nat) (s : State) : Ends s (samplesResume u v s) := Ends.trans (ends_core (gapStart_core ..)) (ends_skipGap ..)

/-- The end of a relock that makes no STEP. -/
def plainRelock (u v : Nat) (s : State) : State := endFault 1 (reportRelock v (endResume (samplesResume u v s)))

/-- The command that asked for a STEP, if one did, ends with what the STEP has done. -/
def stepDone (r : RelockStep) (jump : Int) (s : State) : State :=
  match r.cmd with
  | some id => completeId id .ok (resumePayload true jump (stepAdjust r.jump)) r.boundary s
  | none => s

/-- The end of a relock that makes the STEP `r`. -/
def stepRelock (r : RelockStep) (u v : Nat) (jump : Int) (s : State) : State :=
  endFault 1 (reportRelock v (reportStep r.boundary (stepAdjust r.jump) (stepDone r jump (samplesResume u v (renumber v s)))))

theorem evLockConfirmed_plain {edge band : Nat} {s : State} (htb : s.time.tb = .relocking) (hcfg : s.time.configCmds = [])
    (htrip : s.hub.tripped = false) (hever : s.time.everLocked = true) (hstep : s.time.relockStep = none) :
    evLockConfirmed edge band s
      = plainRelock s.time.unlockIndex (indexOfEdge s.time (max edge (refCountNow s) : Nat))
          (relockAt band (max edge (refCountNow s) : Nat) false 0 s) := by
  simp only [evLockConfirmed, htb, hcfg, htrip, hever, hstep, rephaseEdge, bne_self_eq_false, List.isEmpty_nil, Bool.not_true, Bool.or_self,
    Bool.false_eq_true, if_false, Option.isSome_none]
  rfl

theorem evLockConfirmed_step {edge band : Nat} {s : State} {r : RelockStep} (htb : s.time.tb = .relocking) (hcfg : s.time.configCmds = [])
    (htrip : s.hub.tripped = false) (hever : s.time.everLocked = true) (hstep : s.time.relockStep = some r) :
    evLockConfirmed edge band s
      = stepRelock r s.time.unlockIndex (indexOfEdge s.time (rephaseEdge s.time (max edge (refCountNow s)))) s.time.jump
          (relockAt band (rephaseEdge s.time (max edge (refCountNow s))) true (16 * stepAdjust r.jump) s) := by
  simp only [evLockConfirmed, htb, hcfg, htrip, hever, hstep, bne_self_eq_false, List.isEmpty_nil, Bool.not_true, Bool.or_self,
    Bool.false_eq_true, if_false, Option.isSome_some, if_true]
  rfl

theorem relockAt_calm {band : Nat} {n moved : Int} {isStep : Bool} {s : State} (h : Calm s) : Calm (relockAt band n isStep moved s) := h.same rfl rfl

theorem ends_stepDone (r : RelockStep) (jump : Int) (s : State) : Ends s (stepDone r jump s) := by
  unfold stepDone
  split
  · exact ends_completeId ..
  · exact Ends.refl s

theorem stepDone_gone {r : RelockStep} {id : Nat} (h : r.cmd = some id) (jump : Int) (s : State) :
    ((stepDone r jump s).cmds.any fun c => c.id == id) = false := by
  simp only [stepDone, h]
  exact gone_completeId ..

theorem plainRelock_ends (u v : Nat) (s : State) :
    ∃ a, Ends s a ∧ Ends (setTime (fun t => { t with resume := none, step := none }) a) (plainRelock u v s) := by
  obtain ⟨a, ha, hends⟩ := endResume_ends (samplesResume u v s)
  exact ⟨a, (ends_samplesResume u v s).trans ha, hends.trans (ends_core ((endFault_core ..).trans (reportRelock_core ..)))⟩

theorem stepRelock_core (r : RelockStep) (u v : Nat) (jump : Int) (s : State) :
    core (stepRelock r u v jump s) = core (stepDone r jump (samplesResume u v (renumber v s))) :=
  (endFault_core ..).trans ((reportRelock_core ..).trans (reportStep_core ..))

theorem ends_stepRelock (r : RelockStep) (u v : Nat) (jump : Int) (s : State) : Ends (renumber v s) (stepRelock r u v jump s) :=
  ((ends_samplesResume ..).trans (ends_stepDone ..)).trans (ends_core (stepRelock_core ..))

theorem renumber_index (v : Nat) (s : State) : (renumber v s).index = s.index := by
  show (stepSlots (settleOld s)).index = s.index
  exact core_index ((stepSlots_core ..).trans (settleOld_core ..))

theorem lockConfirmed_plain (edge band : Nat) (s : State) (hq : s.quiet = true) (hm : hasMirror s = false) (htb : s.time.tb = .relocking)
    (hcfg : s.time.configCmds = []) (htrip : s.hub.tripped = false) (hever : s.time.everLocked = true) (hstep : s.time.relockStep = none) :
    ∃ t, exec (.lockConfirmed edge band) s = .next t
      ∧ t.time.tb = .locked ∧ t.index = indexOfEdge s.time (max edge (refCountNow s) : Nat)
      ∧ t.time.refCount = edgeOf s.time (max edge (refCountNow s) : Nat) ∧ t.time.syncRef = s.time.syncRef
      ∧ t.time.syncIndex = s.time.syncIndex ∧ t.time.gen = s.time.gen
      ∧ t.time.indexEstimated = (s.time.indexEstimated || s.time.estimatedRelock) ∧ t.time.resume = none ∧ t.time.step = none
      ∧ bit t.faultActive 1 = false := by
  obtain ⟨a, ha, hends⟩ := plainRelock_ends s.time.unlockIndex (indexOfEdge s.time (max edge (refCountNow s) : Nat))
    (relockAt band (max edge (refCountNow s) : Nat) false 0 s)
  have hcalm := (setTime_calm (f := fun t => { t with resume := none, step := none }) ((relockAt_calm (quiet_calm hq hm)).ends ha)).ends hends
  obtain ⟨t, ht, hcore, hactive⟩ := finish_answers (s := s) hcalm
  have htime : t.time = { relockTime band (max edge (refCountNow s) : Nat) false 0 s.time with resume := none, step := none } := by
    rw [core_time hcore, hends.time, setTime_time, ha.time]
    rfl
  refine ⟨t, ?_, ?_⟩
  · rw [← ht, ← evLockConfirmed_plain htb hcfg htrip hever hstep]
    rfl
  · rw [htime, hactive]
    exact ⟨rfl, (core_index hcore).trans (hends.index.trans ha.index), rfl, rfl, rfl, rfl, rfl, rfl, rfl, endFault_bit (by decide) _⟩

theorem lockConfirmed_step (edge band : Nat) (s : State) (r : RelockStep) (hq : s.quiet = true) (hm : hasMirror s = false)
    (htb : s.time.tb = .relocking) (hcfg : s.time.configCmds = []) (htrip : s.hub.tripped = false) (hever : s.time.everLocked = true)
    (hstep : s.time.relockStep = some r) :
    ∃ t, exec (.lockConfirmed edge band) s = .next t
      ∧ t.time.tb = .locked ∧ t.index = indexOfEdge s.time (rephaseEdge s.time (max edge (refCountNow s)))
      ∧ t.time.syncRef = edgeOf s.time (rephaseEdge s.time (max edge (refCountNow s)))
      ∧ t.time.syncIndex = t.index ∧ t.time.gen = (s.time.gen + 1) % 65536 ∧ t.time.relockStep = none
      ∧ (∀ id, r.cmd = some id → (t.cmds.any fun c => c.id == id) = false) := by
  have hrun := evLockConfirmed_step (edge := edge) (band := band) htb hcfg htrip hever hstep
  generalize hn : rephaseEdge s.time (max edge (refCountNow s)) = n at hrun ⊢
  have hends := ends_stepRelock r s.time.unlockIndex (indexOfEdge s.time n) s.time.jump (relockAt band n true (16 * stepAdjust r.jump) s)
  obtain ⟨t, ht, hcore, -⟩ := finish_answers (s := s) ((renumber_calm (relockAt_calm (quiet_calm hq hm))).ends hends)
  have htime := (core_time hcore).trans (hends.time.trans (renumber_time ..))
  have hindex : t.index = indexOfEdge s.time n := (core_index hcore).trans (hends.index.trans (renumber_index ..))
  refine ⟨t, ?_, ?_⟩
  · rw [← ht, ← hrun]
    rfl
  · rw [htime, hindex]
    refine ⟨rfl, rfl, rfl, rfl, rfl, rfl, fun id hid => ?_⟩
    rw [core_cmds (hcore.trans (stepRelock_core ..))]
    exact stepDone_gone hid ..

/-! ### A STEP at its boundary (R139, R141, R741) -/

theorem evStepBoundary_none {m : Int} {s : State} (h : s.time.step = none) : evStepBoundary m s = s := by
  simp only [evStepBoundary, h]

/-- Without a reference the STEP is not made. -/
theorem evStepBoundary_dropped {m : Int} {s : State} {w : StepWait} (hstep : s.time.step = some w) (hl : locked s = true) (hslew : s.time.tb ≠ .slew)
    (hqual : s.time.tb ≠ .qualified ∨ s.time.refPresent = false) (hcmd : w.cmd = none) :
    evStepBoundary m s = setTime (fun t => { t with step := none }) s := by
  have hno : (s.time.tb == .slew || s.time.tb == .qualified && s.time.refPresent) = false := by
    rcases hqual with h | h <;> simp [hslew, h]
  simp only [evStepBoundary, hstep, hl, hno, hcmd, Bool.not_true, Bool.not_false, Bool.false_eq_true, if_false, if_true]

/-- The timebase from the boundary of a STEP to the relock that makes it. -/
def stepTime (b : Nat) (slew : Bool) (j : Int) (cmd : Option Nat) (t : TimeUnit) : TimeUnit :=
  { t with
    tb := .relocking, unlockIndex := b, lockAttempts := 0, estimatedRelock := false, jump := if slew then t.jump else j, step := none,
    relockStep := some { boundary := b, jump := j, correct := !slew, cmd := cmd } }

/-- The state at the boundary of a STEP, its notice still to send. -/
def stepStarted (m : Int) (w : StepWait) (s : State) : State :=
  { setTime (stepTime w.boundary (s.time.tb == .slew) (if s.time.tb == .slew || w.remeasure then m else s.time.jump) w.cmd)
      (gapStop w.boundary 3 w.boundary (w.boundary + 96) true s) with index := w.boundary + 95 }

theorem evStepBoundary_starts {m : Int} {s : State} {w : StepWait} (hstep : s.time.step = some w)
    (htb : s.time.tb = .slew ∨ (s.time.tb = .qualified ∧ s.time.refPresent = true)) :
    evStepBoundary m s = reportUnlock w.boundary 1 (stepStarted m w s) := by
  have hl : locked s = true := by
    rw [locked]
    rcases htb with h | ⟨h, -⟩ <;> rw [h] <;> rfl
  have hyes : (s.time.tb == .slew || s.time.tb == .qualified && s.time.refPresent) = true := by
    rcases htb with h | ⟨h, href⟩
    · simp [h]
    · simp [h, href]
  simp only [evStepBoundary, hstep, hl, hyes, Bool.not_true, Bool.false_eq_true, if_false]
  rfl

theorem stepStarted_calm {m : Int} {w : StepWait} {s : State} (h : Calm s) : Calm (stepStarted m w s) := by
  have h := h.ends (ends_gapStop w.boundary 3 w.boundary (w.boundary + 96) true s)
  unfold stepStarted
  generalize gapStop w.boundary 3 w.boundary (w.boundary + 96) true s = a at h ⊢
  exact h.same rfl rfl

theorem stepStarted_time (m : Int) (w : StepWait) (s : State) : (stepStarted m w s).time
    = stepTime w.boundary (s.time.tb == .slew) (if s.time.tb == .slew || w.remeasure then m else s.time.jump) w.cmd s.time := by
  have htime := (ends_gapStop w.boundary 3 w.boundary (w.boundary + 96) true s).time
  unfold stepStarted
  generalize gapStop w.boundary 3 w.boundary (w.boundary + 96) true s = a at htime ⊢
  rw [← htime]
  rfl

theorem stepBoundary_starts (m : Int) (s : State) (w : StepWait) (hq : s.quiet = true) (hm : hasMirror s = false) (hstep : s.time.step = some w)
    (htb : s.time.tb = .slew ∨ (s.time.tb = .qualified ∧ s.time.refPresent = true)) :
    ∃ t, exec (.stepBoundary m) s = .next t ∧ t.time.tb = .relocking ∧ t.time.unlockIndex = w.boundary ∧ t.index = w.boundary + 95
      ∧ t.time.step = none ∧ t.time.unlockCount = s.time.unlockCount
      ∧ t.time.relockStep = some { boundary := w.boundary, correct := s.time.tb != .slew, cmd := w.cmd,
                                   jump := if s.time.tb == .slew || w.remeasure then m else s.time.jump } := by
  have hcalm : Calm (reportUnlock w.boundary 1 (stepStarted m w s)) := (stepStarted_calm (quiet_calm hq hm)).core (reportUnlock_core ..)
  obtain ⟨t, ht, hcore, -⟩ := finish_answers (s := s) hcalm
  have hcore := hcore.trans (reportUnlock_core ..)
  have htime := (core_time hcore).trans (stepStarted_time ..)
  refine ⟨t, ?_, ?_⟩
  · rw [← ht, ← evStepBoundary_starts hstep htb]
    rfl
  · rw [htime]
    exact ⟨rfl, rfl, core_index hcore, rfl, rfl, rfl⟩

/-- Settles O27, clause by clause. -/
theorem lockEvents : Obligations.LockEvents := by
  unfold Obligations.LockEvents
  refine ⟨unlockDetected_stops, unlockDetected_inSlew, fun j => ?_, lockAttemptFail_counts, lockAttemptFail_fourth, ?_, lockConfirmed_first,
    lockConfirmed_plain, lockConfirmed_step, fun edge band s hq hm htb => ?_, stepBoundary_starts, fun m s w hq hm hstep hl hslew hqual hcmd => ?_,
    fun m s hq hm hstep => ?_⟩
  · exact event_idle (f := fun k => evUnlockDetected k j) (fun _ _ => rfl) fun k s hl => by
      have hl : locked (opened s) = false := hl
      simp [evUnlockDetected, hl]
  · exact event_idle (f := fun _ => evLockAttemptFail) (fun _ _ => rfl) fun _ s htb => by
      have htb : (opened s).time.tb ≠ .relocking := htb
      simp [evLockAttemptFail, htb]
  · show Host.Outcome.next (finish s (evLockConfirmed edge band s)) = _
    rw [evLockConfirmed_idle htb, finish_same (quiet_calm hq hm) rfl rfl]
  · show Host.Outcome.next (finish s (evStepBoundary m s)) = _
    rw [evStepBoundary_dropped hstep hl hslew hqual hcmd, finish_same (s := s) (setTime_calm (quiet_calm hq hm)) rfl rfl]
    rfl
  · show Host.Outcome.next (finish s (evStepBoundary m s)) = _
    rw [evStepBoundary_none hstep, finish_same (quiet_calm hq hm) rfl rfl]

end Sys2Proof.Machine
end

section
/-! O53: what a primary forwards to its mirror (R61, R588-R590). -/

namespace Sys2Proof.Machine

/-! ### A row of a device that has a mirror -/

/-- A row whose command may start; the device may have a mirror. -/
structure Starts (sp : CmdSpec) (k : Nat) (p : Packet) (s : State) : Prop where
  quiet : s.quiet = true
  opcode : opcodeOf p = sp.opcode
  source : takesFrom p.src (passTo k s) = true
  firmware : s.hub.fw.recovery = false
  free : startable (rowState k p s) (rowCmd k p s) = true

theorem Starts.local {sp : CmdSpec} {k : Nat} {p : Packet} {s : State} (h : Starts sp k p s) : (rowCmd k p s).src ≠ .pairLink := by
  have hsource := h.source
  simp only [takesFrom, Bool.and_eq_true, bne_iff_ne] at hsource
  exact hsource.1.2

theorem Starts.serves {sp : CmdSpec} {k : Nat} {p : Packet} {s : State} (h : Starts sp k p s) : serves (rowState k p s) = true := by
  have hsource := h.source
  simp only [takesFrom, Bool.and_eq_true] at hsource
  exact hsource.1.1

/-- The command of the row is the only one that may start. -/
theorem Starts.next {sp : CmdSpec} {k : Nat} {p : Packet} {s : State} (h : Starts sp k p s) : nextCommand (rowState k p s) = some (rowCmd k p s) := by
  have honly : (rowState k p s).cmds.filter (startable (rowState k p s)) = [rowCmd k p s] := by
    rw [rowState_cmds, List.filter_append, startable_none h.quiet, List.filter_cons, if_pos h.free]
    rfl
  rw [nextCommand, honly]
  by_cases hu : (rowCmd k p s).urgent = true <;> simp [hu, eldest]

theorem yieldFaults_same {old s : State} (h : s.faultCause = old.faultCause) : yieldFaults old s = s := by
  have hno (b : Nat) : (bit s.faultCause b && !bit old.faultCause b) = false := by
    rw [h, Bool.and_not_self]
  simp only [yieldFaults, hno, Bool.false_eq_true, if_false]

/-- The row leaves what the start of its command leaves, when no other waits, no two statuses meet, and the pair has no notice to give. -/
theorem Starts.runs {sp : CmdSpec} {k : Nat} {p : Packet} {s u : State} (h : Starts sp k p s) (hsp : specOf sp.opcode = some sp)
    (hu : startCmd sp (rowCmd k p s) (rowState k p s) = u) (hc : noneWaits u.cmds = true) (hcmp : compareAll u = u) (hw : pairWord s = pairWord u) :
    runRow sp k p s = .next u := by
  have hstart : startAny (rowCmd k p s) (rowState k p s) = u := by
    have hop : (rowCmd k p s).opcode = sp.opcode := h.opcode
    simp [startAny, hop, hsp, h.firmware, hu]
  have hfault : (rowState k p s).faultCause = s.faultCause := by
    show (passTo k s).faultCause = s.faultCause
    rw [passTo_frame]
  have hlen : (rowState k p s).cmds.length = s.cmds.length + 1 := by simp
  rw [runRow, runEvent, row_submits h.opcode h.source]
  simp only [finish, yieldFaults_same hfault, hlen, pump, h.serves, h.next, hstart, Bool.not_true, Bool.false_eq_true, if_false]
  rw [pump_none hc, hcmp, pairNotice_same hw]

theorem compareStatus_open {r : ForwardRecord} (h : r.other = none) (s : State) : compareStatus r s = s := by
  unfold compareStatus
  split
  · next hother =>
    rw [h] at hother
    cases hother
  · rfl

/-- A forwarded command whose mirror has not answered is not compared yet. -/
theorem compareAll_open {s : State} (h : ∀ r ∈ s.pair.forwarded, r.other = none) : compareAll s = s := by
  have hfold (l : List ForwardRecord) (hl : ∀ r ∈ l, r.other = none) : l.foldl (fun a r => compareStatus r a) s = s := by
    induction l with
    | nil => rfl
    | cons r l ih =>
      rw [List.foldl_cons, compareStatus_open (hl r List.mem_cons_self)]
      exact ih fun x hx => hl x (List.mem_cons_of_mem _ hx)
  exact hfold _ h

/-- What the pair reports depends neither on what is forwarded nor on the counters. -/
theorem pairWord_counts {s t : State} {m n : Nat} {g : List ForwardRecord}
    (hp : t.pair = { s.pair with mseq := m, forwarded := g, noMirrorCount := n })
    (hl : locked t = locked s) : pairWord s = pairWord t := by
  simp [pairWord, conditionNow, hp, hl]

/-! ### What is forwarded (R61, R588-R590) -/

theorem forwardCmd_forwards {sp : CmdSpec} {c : Cmd} {e : Option Nat} {s : State} (hm : hasMirror s = true) (hn : c.noMirror = false)
    (hop : neverForwarded c.opcode = false) (hshadow : sp.modes .shadow c = false) (hcopy : c.opcode ≠ 0x0105) :
    forwardCmd sp c e s = sendForward c (if (sp.lead c).isSome then e else none) [] s := by
  simp [forwardCmd, forwards, hm, hn, hop, hshadow, hcopy]

theorem forwardCmd_kept {sp : CmdSpec} {c : Cmd} {e : Option Nat} {s : State} (hm : hasMirror s = true) (hn : c.noMirror = true)
    (hop : neverForwarded c.opcode = false) (hshadow : sp.modes .shadow c = false) :
    forwardCmd sp c e s = { s with pair := { s.pair with noMirrorCount := satAdd 32 s.pair.noMirrorCount 1 } } := by
  simp [forwardCmd, forwards, hm, hn, hop, hshadow]

/-- The number of the next forwarded command. -/
def nextMseq (s : State) : Nat := (s.pair.mseq + 1) % 2 ^ 32

/-- The command as it goes to the mirror. -/
def forwardedAs (m : Nat) (c : Cmd) (e : Option Nat) : Forwarded :=
  { mseq := m, origin := c.origin, opcode := c.opcode,
    flags := if e.isSome then (c.flags &&& 0xEF#8) ||| 0x01#8 else c.flags &&& 0xEF#8,
    tag := c.tag, atIndex := e.getD c.atIndex, params := c.params.take c.plen, data := [] }

theorem forwardedAs_now (m : Nat) (c : Cmd) : forwardedAs m c none
    = { mseq := m, origin := c.origin, opcode := c.opcode, flags := c.flags &&& 0xEF#8, tag := c.tag, atIndex := c.atIndex,
        params := c.params.take c.plen, data := [] } := rfl

theorem forwardedAs_at (m : Nat) (c : Cmd) (e : Nat) : forwardedAs m c (some e)
    = { mseq := m, origin := c.origin, opcode := c.opcode, flags := (c.flags &&& 0xEF#8) ||| 0x01#8, tag := c.tag, atIndex := e,
        params := c.params.take c.plen, data := [] } := rfl

/-- What the packet of a row says of its command. -/
theorem rowCmd_packet (k : Nat) (p : Packet) (s : State) : (rowCmd k p s).origin = srcRank p.src ∧ (rowCmd k p s).opcode = opcodeOf p
    ∧ (rowCmd k p s).flags = flagsOf p ∧ (rowCmd k p s).tag = tagOf p ∧ (rowCmd k p s).atIndex = atOf p := ⟨rfl, rfl, rfl, rfl, rfl⟩

theorem sendForward_emitted (c : Cmd) (e : Option Nat) (s : State) : emitted (.pairForward (forwardedAs (nextMseq s) c e)) (sendForward c e [] s) :=
  emit_emitted ..

theorem sendForward_pair (c : Cmd) (e : Option Nat) (s : State) : (sendForward c e [] s).pair
    = { s.pair with mseq := nextMseq s, forwarded := s.pair.forwarded ++ [{ mseq := nextMseq s, cmd := c.id, own := none, other := none }] } := by
  rfl

/-- The device that forwards sees its own status of the command. -/
theorem recordOwn_last {p : PairUnit} {m id : Nat} {st : Status} :
    recordOwn id st { p with mseq := m, forwarded := [{ mseq := m, cmd := id, own := none, other := none }] }
      = { p with mseq := m, forwarded := [{ mseq := m, cmd := id, own := some st, other := none }] } := by
  simp [recordOwn]

/-! ### CONV_CONFIG -/

/-- What CONV_CONFIG leaves. -/
def convConfigured (c : Cmd) (s : State) : State :=
  setChannel (c.arg 0 1 0) (fun ch => { ch with
    guards := (nextSc s.index, c.arg 0 14 8) :: ch.guards.filter (fun x => decide (x.1 < nextSc s.index)),
    notices := (nextSc s.index, c.flag 0 16) :: ch.notices.filter (fun x => decide (x.1 < nextSc s.index)) }) s

theorem convConfigured_conv (c : Cmd) (s : State) : (convConfigured c s).conv = { s.conv with
    channels := modAt s.conv.channels (c.arg 0 1 0) fun ch => { ch with
      guards := (nextSc s.index, c.arg 0 14 8) :: ch.guards.filter (fun x => decide (x.1 < nextSc s.index)),
      notices := (nextSc s.index, c.flag 0 16) :: ch.notices.filter (fun x => decide (x.1 < nextSc s.index)) } } := rfl

/-- An OK after the effect of CONV_CONFIG and after what the pair makes of it, the notices set aside as before. -/
def convConfigEnds (c : Cmd) (s : State) : State :=
  { complete c .ok [] s.index (forwardCmd specConvConfig c none (convConfigured c (opened s))) with aside := s.aside }

theorem sendForward_aside (c : Cmd) (e : Option Nat) (data : List Byte) (s : State) : (sendForward c e data s).aside = s.aside := rfl

theorem forwardCmd_aside (sp : CmdSpec) (c : Cmd) (e : Option Nat) (s : State) : (forwardCmd sp c e s).aside = s.aside := by
  unfold forwardCmd
  split
  · split
    · rfl
    · exact sendForward_aside ..
  · split <;> rfl

theorem startCmd_convConfig {c : Cmd} {s : State} (harrival : { c with arrival := s.index } = c) (hlocal : c.src ≠ .pairLink)
    (hck : checkCmd specConvConfig c s = none) : startCmd specConvConfig c s = convConfigEnds c s := by
  obtain ⟨-, hheader, -, -⟩ := checkCmd_none hck
  have htimed : c.timed = false := timed_of_no hlocal rfl hheader
  have hlead : leadNs specConvConfig c s = none := leadNs_none rfl
  simp only [startCmd, harrival, hck, htimed, hlead, Bool.false_eq_true, if_false, runNow]
  exact repliesFirst_silent ((complete_aside ..).trans (forwardCmd_aside ..))

/-- A command of the row is the last of its state, and arrives as it is. -/
theorem rowCmd_arrives (k : Nat) (p : Packet) (s : State) :
    ({ rowCmd k p s with arrival := (rowState k p s).index } : Cmd) = rowCmd k p s := rfl

section
variable {c : Cmd} {s v : State} (hv : convConfigEnds c s = { complete c .ok [] s.index v with aside := s.aside })
include hv

theorem convConfigEnds_cmds (hcmds : v.cmds = s.cmds) : (convConfigEnds c s).cmds = s.cmds.filter fun d => d.id != c.id := by
  rw [hv, ← hcmds]
  exact complete_cmds ..

theorem convConfigEnds_pair (hlocal : c.src ≠ .pairLink) : (convConfigEnds c s).pair = recordOwn c.id .ok v.pair := by
  rw [hv]
  exact complete_pair _ _ _ _ hlocal

theorem convConfigEnds_locked (htime : v.time = s.time) : locked (convConfigEnds c s) = locked s := by
  rw [locked, hv, locked, ← htime]
  exact congrArg (fun t => t.tb.isLocked) (complete_time c .ok [] s.index v)

theorem convConfigEnds_conv : (convConfigEnds c s).conv = v.conv ∧ (convConfigEnds c s).index = v.index := by
  rw [hv]
  show (complete c .ok [] s.index v).conv = v.conv ∧ (complete c .ok [] s.index v).index = v.index
  rw [complete_frame]
  exact ⟨rfl, rfl⟩

theorem convConfigEnds_emitted {o : Output} (ho : emitted o v) : emitted o (convConfigEnds c s) := by
  rw [hv]
  exact (stands_emitted o).other ((stands_emitted o).complete ho) rfl rfl

end

theorem convConfigEnds_forwards {c : Cmd} {s : State} (hm : hasMirror s = true) (hop : c.opcode = 0x0300) (hn : c.noMirror = false) :
    convConfigEnds c s = { complete c .ok [] s.index (sendForward c none [] (convConfigured c (opened s))) with aside := s.aside } := by
  have hfwd : forwardCmd specConvConfig c none (convConfigured c (opened s)) = sendForward c none [] (convConfigured c (opened s)) :=
    forwardCmd_forwards (s := convConfigured c (opened s)) hm hn (hop ▸ rfl) rfl (hop ▸ by decide)
  rw [convConfigEnds, hfwd]

theorem convConfigEnds_keeps {c : Cmd} {s : State} (hm : hasMirror s = true) (hop : c.opcode = 0x0300) (hn : c.noMirror = true) :
    convConfigEnds c s = { complete c .ok [] s.index { convConfigured c (opened s) with
      pair := { s.pair with noMirrorCount := satAdd 32 s.pair.noMirrorCount 1 } } with aside := s.aside } := by
  have hkept := forwardCmd_kept (sp := specConvConfig) (e := none) (s := convConfigured c (opened s)) hm hn (hop ▸ rfl) rfl
  rw [convConfigEnds, hkept]
  rfl

theorem convConfigured_forwarded_conv (c : Cmd) (s : State) : (sendForward c none [] (convConfigured c (opened s))).conv = (convConfigured c s).conv
    ∧ (sendForward c none [] (convConfigured c (opened s))).index = s.index := ⟨rfl, rfl⟩

theorem convConfigured_forwarded_frame (c : Cmd) (s : State) : (sendForward c none [] (convConfigured c (opened s))).cmds = s.cmds
    ∧ (sendForward c none [] (convConfigured c (opened s))).time = s.time := ⟨rfl, rfl⟩

theorem convConfigured_kept_frame (c : Cmd) (p : PairUnit) (s : State) : ({ convConfigured c (opened s) with pair := p } : State).cmds = s.cmds
    ∧ ({ convConfigured c (opened s) with pair := p } : State).time = s.time := ⟨rfl, rfl⟩

/-- The commands that are left when the one of the row ends do not wait. -/
theorem noneWaits_row {k : Nat} {p : Packet} {s u : State} (hq : s.quiet = true)
    (hu : u.cmds = (rowState k p s).cmds.filter fun d => d.id != (rowCmd k p s).id) : noneWaits u.cmds = true := by
  rw [hu]
  exact noneWaits_served hq

theorem convConfig_starts {k : Nat} {p : Packet} {s : State} (h : Starts specConvConfig k p s)
    (hck : checkCmd specConvConfig (rowCmd k p s) (rowState k p s) = none) :
    startCmd specConvConfig (rowCmd k p s) (rowState k p s) = convConfigEnds (rowCmd k p s) (rowState k p s) :=
  startCmd_convConfig (rowCmd_arrives k p s) h.local hck

theorem rowState_conv (k : Nat) (p : Packet) (s : State) : (rowState k p s).conv = s.conv := by
  show (passTo k s).conv = s.conv
  rw [passTo_frame]

theorem convConfig_forwarded {k : Nat} {p : Packet} {s : State} (h : Starts specConvConfig k p s) (hm : hasMirror s = true)
    (hck : checkCmd specConvConfig (rowCmd k p s) (rowState k p s) = none) (hn : (rowCmd k p s).noMirror = false) :
    ∃ t, exec (.convConfig k p) s = .next t ∧ t.index = (rowState k p s).index
      ∧ t.conv = (convConfigured (rowCmd k p s) (rowState k p s)).conv
      ∧ t.pair = { s.pair with mseq := nextMseq s, forwarded := [{ mseq := nextMseq s, cmd := s.nextId, own := some .ok, other := none }] }
      ∧ emitted (.pairForward (forwardedAs (nextMseq s) (rowCmd k p s) none)) t := by
  have hpair : (rowState k p s).pair = s.pair := rowState_pair k p s
  have hv := convConfigEnds_forwards ((hasMirror_congr hpair).trans hm) h.opcode hn
  have hmseq : nextMseq (convConfigured (rowCmd k p s) (opened (rowState k p s))) = nextMseq s := by
    show nextMseq (rowState k p s) = nextMseq s
    rw [nextMseq, hpair, nextMseq]
  have htpair : (convConfigEnds (rowCmd k p s) (rowState k p s)).pair
      = { s.pair with mseq := nextMseq s, forwarded := [{ mseq := nextMseq s, cmd := s.nextId, own := some .ok, other := none }] } := by
    have hopened : (convConfigured (rowCmd k p s) (opened (rowState k p s))).pair = s.pair := hpair
    rw [convConfigEnds_pair hv h.local, sendForward_pair, hmseq, hopened, quiet_forwarded h.quiet]
    exact recordOwn_last
  obtain ⟨hconv, hindex⟩ := convConfigEnds_conv hv
  have hlocked := (convConfigEnds_locked hv (convConfigured_forwarded_frame ..).2).trans (rowState_locked k p s)
  have hrun := h.runs rfl (convConfig_starts h hck) (noneWaits_row h.quiet (convConfigEnds_cmds hv (convConfigured_forwarded_frame ..).1))
    (compareAll_open fun r hr => by
      rw [htpair, List.mem_singleton] at hr
      rw [hr])
    (pairWord_counts (n := s.pair.noMirrorCount) htpair hlocked)
  refine ⟨_, hrun, hindex.trans (convConfigured_forwarded_conv ..).2, hconv.trans (convConfigured_forwarded_conv ..).1, htpair, ?_⟩
  have hsent := sendForward_emitted (rowCmd k p s) none (convConfigured (rowCmd k p s) (opened (rowState k p s)))
  rw [hmseq] at hsent
  exact convConfigEnds_emitted hv hsent

theorem convConfig_kept {k : Nat} {p : Packet} {s : State} (h : Starts specConvConfig k p s) (hm : hasMirror s = true)
    (hck : checkCmd specConvConfig (rowCmd k p s) (rowState k p s) = none) (hn : (rowCmd k p s).noMirror = true) :
    ∃ t, exec (.convConfig k p) s = .next t ∧ t.pair = { s.pair with noMirrorCount := satAdd 32 s.pair.noMirrorCount 1 } := by
  have hpair : (rowState k p s).pair = s.pair := rowState_pair k p s
  have hforwarded := quiet_forwarded h.quiet
  have hv := convConfigEnds_keeps ((hasMirror_congr hpair).trans hm) h.opcode hn
  have htpair : (convConfigEnds (rowCmd k p s) (rowState k p s)).pair = { s.pair with noMirrorCount := satAdd 32 s.pair.noMirrorCount 1 } := by
    rw [convConfigEnds_pair hv h.local, recordOwn_none (by rw [hpair]; exact hforwarded), hpair]
  have hlocked := (convConfigEnds_locked hv (convConfigured_kept_frame ..).2).trans (rowState_locked k p s)
  have hrun := h.runs rfl (convConfig_starts h hck) (noneWaits_row h.quiet (convConfigEnds_cmds hv (convConfigured_kept_frame ..).1))
    (compareAll_none (by rw [htpair]; exact hforwarded))
    (pairWord_counts (m := s.pair.mseq) (g := s.pair.forwarded) (n := satAdd 32 s.pair.noMirrorCount 1) htpair hlocked)
  exact ⟨_, hrun, htpair⟩

/-! ### CONV_ATTEN -/

/-- What the start of a CONV_ATTEN leaves: it goes to the mirror with its effective index, and is held for that here. -/
def attenHeld (c : Cmd) (e : Nat) (s : State) : State := holdCmd c (some e) (sendForward c (some e) [] s)

theorem startCmd_convAtten {c : Cmd} {s : State} (harrival : { c with arrival := s.index } = c) (hck : checkCmd specConvAtten c s = none)
    (htimed : c.timed = false) (hm : hasMirror s = true) (hop : c.opcode = 0x0301) (hn : c.noMirror = false) (hl : locked s = true) :
    startCmd specConvAtten c s = attenHeld c (boundaryAfter s 4000) s := by
  have hlead : leadNs specConvAtten c s = some 4000 := by simp [leadNs, specConvAtten, hm]
  have hfwd : forwardCmd specConvAtten c (some (boundaryAfter s 4000)) s = sendForward c (some (boundaryAfter s 4000)) [] s :=
    forwardCmd_forwards hm hn (hop ▸ rfl) rfl (hop ▸ by decide)
  simp only [startCmd, harrival, hck, htimed, hlead, hl, hfwd, Bool.false_eq_true, if_false, if_true, attenHeld]

theorem attenHeld_eq {c : Cmd} {e : Nat} {s : State} (hop : c.opcode = 0x0301) :
    attenHeld c e s = { sendForward c (some e) [] s with cmds := s.cmds.filter (fun d => d.id != c.id) ++ [{ c with phase := .held (some e) }] } := by
  have hno : (c.opcode == 0x1103) = false := by rw [hop]; rfl
  simp only [attenHeld, holdCmd, hno, Bool.false_eq_true, if_false]
  rfl

theorem attenHeld_left {c : Cmd} {e : Nat} {s : State} (hop : c.opcode = 0x0301) :
    (attenHeld c e s).cmds = s.cmds.filter (fun d => d.id != c.id) ++ [{ c with phase := .held (some e) }] ∧ (attenHeld c e s).conv = s.conv
      ∧ emitted (.pairForward (forwardedAs (nextMseq s) c (some e))) (attenHeld c e s) := by
  rw [attenHeld_eq hop]
  exact ⟨rfl, rfl, sendForward_emitted c (some e) s⟩

theorem noneWaits_held {l : List Cmd} (c : Cmd) (e : Nat) (h : noneWaits l = true) :
    noneWaits (l ++ [{ c with phase := .held (some e) }]) = true := by
  rw [noneWaits] at h ⊢
  rw [List.all_append, h]
  rfl

theorem convAtten_forwarded {k : Nat} {p : Packet} {s : State} (h : Starts specConvAtten k p s) (hm : hasMirror s = true)
    (hck : checkCmd specConvAtten (rowCmd k p s) (rowState k p s) = none) (htimed : (rowCmd k p s).timed = false)
        (hn : (rowCmd k p s).noMirror = false)
    (hl : locked s = true) :
    exec (.convAtten k p) s = .next (attenHeld (rowCmd k p s) (boundaryAfter (rowState k p s) 4000) (rowState k p s)) := by
  have hpair : (rowState k p s).pair = s.pair := rowState_pair k p s
  have hstart := startCmd_convAtten (rowCmd_arrives k p s) hck htimed ((hasMirror_congr hpair).trans hm) h.opcode hn
      ((rowState_locked k p s).trans hl)
  have heq := attenHeld_eq (e := boundaryAfter (rowState k p s) 4000) (s := rowState k p s) (c := rowCmd k p s) h.opcode
  have htpair : (attenHeld (rowCmd k p s) (boundaryAfter (rowState k p s) 4000) (rowState k p s)).pair
      = { s.pair with mseq := nextMseq s, forwarded := [{ mseq := nextMseq s, cmd := s.nextId, own := none, other := none }] } := by
    rw [heq]
    show (sendForward (rowCmd k p s) (some (boundaryAfter (rowState k p s) 4000)) [] (rowState k p s)).pair = _
    rw [sendForward_pair, nextMseq, hpair, quiet_forwarded h.quiet]
    rfl
  refine h.runs rfl hstart ?_ (compareAll_open fun r hr => ?_) (pairWord_counts (n := s.pair.noMirrorCount) htpair ?_)
  · rw [heq]
    exact noneWaits_held _ _ (noneWaits_served h.quiet)
  · rw [htpair, List.mem_singleton] at hr
    rw [hr]
  · rw [heq]
    exact rowState_locked k p s

/-- Settles O53: CONV_CONFIG goes to the mirror as it is or stays here with NOMIRROR, CONV_ATTEN goes with its effective index. -/
theorem forwarding : Obligations.Forwarding := by
  unfold Obligations.Forwarding
  refine ⟨?_, ?_, ?_⟩
  · rintro k p s c hq hm hop hsrc hfw rfl hfree hck hn
    obtain ⟨t, hrun, hindex, hconv, hpair, hsent⟩ := convConfig_forwarded ⟨hq, hop, hsrc, hfw, hfree⟩ hm hck hn
    obtain ⟨horigin, hopcode, hflags, htag, hat⟩ := rowCmd_packet k p s
    rw [forwardedAs_now, horigin, hopcode, hop, hflags, htag, hat, nextMseq] at hsent
    rw [nextMseq] at hpair
    refine ⟨t, hrun, ?_, hpair, hsent⟩
    rw [hconv, hindex, convConfigured_conv, rowState_conv]
  · rintro k p s c hq hm hop hsrc hfw rfl hfree hck hn
    exact convConfig_kept ⟨hq, hop, hsrc, hfw, hfree⟩ hm hck hn
  · rintro k p s c e hq hm hop hsrc hfw rfl hfree hck htimed hn hl rfl
    obtain ⟨hcmds, hconv, hsent⟩ := attenHeld_left (e := boundaryAfter (rowState k p s) 4000) (s := rowState k p s) (c := rowCmd k p s) hop
    obtain ⟨horigin, hopcode, hflags, htag, hat⟩ := rowCmd_packet k p s
    have hmseq : nextMseq (rowState k p s) = nextMseq s := by rw [nextMseq, rowState_pair, nextMseq]
    rw [hmseq, forwardedAs_at, horigin, hopcode, hop, hflags, htag, nextMseq] at hsent
    refine ⟨_, convAtten_forwarded ⟨hq, hop, hsrc, hfw, hfree⟩ hm hck htimed hn hl, ?_, hconv.trans (rowState_conv k p s), hsent⟩
    rw [hcmds, rowState_cmds, List.filter_append]
    have hself : [rowCmd k p s].filter (fun d => d.id != (rowCmd k p s).id) = [] := by simp
    rw [hself, List.append_nil]
    rfl

end Sys2Proof.Machine
end

section
/-! O58: what the device's memories hold, and the operations that leave it as it is: all but those that write a byte, make or drop a
partition, or load the flash. Where the model's update shows it by unfolding, the proof is `(rfl)`: the parentheses keep the lemma an ordinary
rewrite rule, which `simp` may use to discharge a side condition. -/

namespace Sys2Proof.Machine

/-- What the flash slots hold. -/
def flashCells (fw : Firmware) : List (List Host.Cell) := fw.slots.map FlashSlot.data

/-- What the memories of the device hold: the cells of every partition of the pool, by its slot, and those of the two flash slots. -/
def memory (s : State) : List (Nat × List Host.Cell) × List (List Host.Cell) :=
  (s.pool.parts.map fun p => (p.slot, p.data), flashCells s.hub.fw)

/-- Every cell list is in canonical form (R98, R621). -/
def Canonical (m : List (Nat × List Host.Cell) × List (List Host.Cell)) : Prop :=
  (∀ p ∈ m.1, cellsWf p.2 = true) ∧ ∀ l ∈ m.2, cellsWf l = true

theorem memWf_iff {s : State} : s.memWf = true ↔ Canonical (memory s) := by
  simp [State.memWf, Canonical, memory, flashCells]

/-- Every field but the pool and the control complex may change. -/
theorem memory_mk (s : State) (pending_ : _) (out_ : _) (variant_ : _) (compat_ : _) (index_ : _) (ready_ : _) (mode_ : _) (shadowed_ : _)
    (nextId_ : _) (cmds_ : _) (qps_ : _) (spi_ : _) (ctlport_ : _) (routes_ : _) (notices_ : _) (aside_ : _) (glob_ : _) (time_ : _) (conv_ : _)
    (eqs_ : _) (tuners_ : _) (engines_ : _) (dens_ : _) (spgm_ : _) (trig_ : _) (cap_ : _) (intg_ : _) (th_ : _) (strm_ : _) (packers_ : _)
    (mq_ : _) (tdc_ : _) (mc_ : _) (maint_ : _) (disp_ : _) (dbg_ : _) (pair_ : _) (bb_ : _) (faultCause_ : _) (faultActive_ : _) (hist_ : _)
    (free_ : _) :
    memory (State.mk pending_ out_ variant_ compat_ index_ ready_ mode_ shadowed_ nextId_ cmds_ qps_ spi_ ctlport_ routes_ notices_ aside_ glob_
      s.pool time_ conv_ eqs_ tuners_ engines_ dens_ spgm_ trig_ cap_ intg_ th_ strm_ packers_ mq_ tdc_ mc_ maint_ disp_ s.hub dbg_ pair_ bb_
      faultCause_ faultActive_ hist_ free_) = memory s := (rfl)

@[simp] theorem memory_ite {p : Prop} [Decidable p] (a b : State) : memory (if p then a else b) = if p then memory a else memory b :=
  apply_ite memory p a b

@[simp] theorem memory_foldl {β : Type} {l : List β} {f : State → β → State} {s : State} (h : ∀ a i, memory (f a i) = memory a) :
    memory (l.foldl f s) = memory s := by
  induction l generalizing s with
  | nil => rfl
  | cons x t ih => exact ih.trans (h s x)

@[simp] theorem memory_foldl_snd {α β : Type} {l : List β} {f : α × State → β → α × State} {r : α × State}
    (h : ∀ a i, memory (f a i).2 = memory a.2) : memory (l.foldl f r).2 = memory r.2 := by
  induction l generalizing r with
  | nil => rfl
  | cons x t ih => exact ih.trans (h r x)

@[simp] theorem setPart_memory {slot : Nat} {f : Partition → Partition} {s : State} (h : ∀ p, (f p).slot = p.slot ∧ (f p).data = p.data) :
    memory (setPart slot f s) = memory s := by
  simp only [memory, setPart, List.map_map]
  congr 1
  refine List.map_congr_left fun p _ => ?_
  simp only [Function.comp]
  split_ifs
  · rw [(h p).1, (h p).2]
  · rfl

@[simp] theorem setPool_memory {f : Pool → Pool} {s : State} (h : (f s.pool).parts = s.pool.parts) : memory (setPool f s) = memory s := by
  simp only [memory, setPool, h]

@[simp] theorem setHub_memory {f : HubUnit → HubUnit} {s : State} (h : (f s.hub).fw = s.hub.fw) : memory (setHub f s) = memory s := by
  simp only [memory, setHub, h]

@[simp] theorem setFw_memory {f : Firmware → Firmware} {s : State} (h : flashCells (f s.hub.fw) = flashCells s.hub.fw) :
    memory (setFw f s) = memory s := by
  simp only [memory, setFw, setHub, h]

/-- The same with counts of the pool. -/
theorem memory_setCounts (s : State) (generations_ : _) (transfers_ : _) (scrub_ : _) (ce_ : _) (ue_ : _) (passes_ : _) :
    memory { s with pool := Pool.mk s.pool.parts generations_ transfers_ scrub_ ce_ ue_ passes_ } = memory s := (rfl)

/-! ### Shared operations -/

@[simp] theorem emit_memory (o : Output) (s : State) : memory (emit o s) = memory s := (rfl)

@[simp] theorem raiseVector_memory (v : Nat) (s : State) : memory (raiseVector v s) = memory s := by simp [raiseVector]

@[simp] theorem latchGint_memory (b : Nat) (s : State) : memory (latchGint b s) = memory s := by simp [latchGint, ↓memory_mk]

@[simp] theorem setStrm_memory (f : StreamUnit → StreamUnit) (s : State) : memory (setStrm f s) = memory s := (rfl)

@[simp] theorem countRx_memory (p : Nat) (f : EthPort → EthPort) (s : State) : memory (countRx p f s) = memory s := (rfl)

@[simp] theorem discardRx_memory (p : Nat) (s : State) : memory (discardRx p s) = memory s := (rfl)

@[simp] theorem sendDatagram_memory (dest : Sender) (l : List Entry) (s : State) : memory (sendDatagram dest l s) = memory s := (rfl)

@[simp] theorem setQp_memory (q : Nat) (f : QueuePair → QueuePair) (s : State) : memory (setQp q f s) = memory s := (rfl)

@[simp] theorem stopQp_memory (q code : Nat) (s : State) : memory (stopQp q code s) = memory s := by
  unfold stopQp
  split <;> simp

@[simp] theorem tryRq_memory (q : Nat) (e : Entry) (s : State) : memory (tryRq q e s).1 = memory s := by
  unfold tryRq
  dsimp only
  repeat' split
  all_goals simp

@[simp] theorem replyQp_memory (q : Nat) (e : Entry) (s : State) : memory (replyQp q e s) = memory s := by
  have h := tryRq_memory q e s
  unfold replyQp
  dsimp only
  split
  · exact setQp_memory ..
  · split <;> next hr => simp_all

@[simp] theorem rememberReply_memory (id : Nat) (e : Entry) (s : State) : memory (rememberReply id e s) = memory s := (rfl)

@[simp] theorem diverge_memory (mseq : Nat) (s : State) : memory (diverge mseq s) = memory s := by simp [diverge, ↓memory_mk]

@[simp] theorem writeReply_memory (c : Cmd) (e : Entry) (s : State) : memory (writeReply c e s) = memory s := by
  unfold writeReply
  repeat' split
  all_goals simp [↓memory_mk]

@[simp] theorem deliverReply_memory (c : Cmd) (e : Entry) (s : State) : memory (deliverReply c e s) = memory s := by
  unfold deliverReply
  split
  · exact writeReply_memory ..
  · rfl

@[simp] theorem complete_memory (c : Cmd) (st : Status) (payload : List Word) (idx : Nat) (s : State) :
    memory (complete c st payload idx s) = memory s := by
  unfold complete
  split <;> simp [↓memory_mk]

@[simp] theorem firstReply_memory (c : Cmd) (st : Status) (idx : Nat) (s : State) : memory (firstReply c st idx s) = memory s :=
  by simp [firstReply, ↓memory_mk]

@[simp] theorem keepRunning_memory (c : Cmd) (s : State) : memory (keepRunning c s) = memory s := (rfl)

@[simp] theorem completeId_memory (id : Nat) (st : Status) (payload : List Word) (idx : Nat) (s : State) :
    memory (completeId id st payload idx s) = memory s := by
  unfold completeId
  split <;> simp

@[simp] theorem putNotice_memory (d : Nat) (e : Entry) (s : State) : memory (putNotice d e s).1 = memory s := by
  unfold putNotice
  repeat' split
  all_goals simp [↓memory_mk]

@[simp] theorem setNoticeBuf_memory (d : Nat) (f : NoticeBuffer → NoticeBuffer) (s : State) : memory (setNoticeBuf d f s) = memory s := (rfl)

@[simp] theorem holdNotice_memory (d : Nat) (e : Entry) (s : State) : memory (holdNotice d e s) = memory s := by simp [holdNotice, ↓memory_mk]

@[simp] theorem sendNotice_memory (d : Nat) (e : Entry) (s : State) : memory (sendNotice d e s) = memory s := by
  have hput := putNotice_memory d e s
  unfold sendNotice
  split
  · split <;> next hr => simp_all
  · simp

@[simp] theorem notify_memory (code : Nat) (payload : List Word) (idx : Nat) (s : State) : memory (notify code payload idx s) = memory s := by
  unfold notify
  split <;> simp [↓memory_mk]

@[simp] theorem sendAside_memory (s : State) : memory (sendAside s) = memory s := by simp [sendAside, ↓memory_mk]

@[simp] theorem advance_memory (locked : Bool) (k : Nat) (s : State) : memory (advance locked k s) = memory s := by simp [advance, ↓memory_mk]

/-! ### Time, faults and memory errors -/

@[simp] theorem keepNotes_memory (s : State) : memory (keepNotes s) = memory s := by simp [keepNotes, ↓memory_mk]

@[simp] theorem atTime_memory (k : Nat) (s : State) : memory (atTime k s) = memory s := by simp [atTime]

@[simp] theorem bbFreeze_memory (event : Nat) (s : State) : memory (bbFreeze event s) = memory s := by simp [bbFreeze, ↓memory_mk]

@[simp] theorem bbWrite_memory (unit place event : Nat) (data : List Word) (idx : Nat) (s : State) :
    memory (bbWrite unit place event data idx s) = memory s := by rw [bbWrite_frame]; rfl

@[simp] theorem setFault_memory (b : Nat) (s : State) : memory (setFault b s) = memory s := by simp [setFault, ↓memory_mk]

@[simp] theorem endFault_memory (b : Nat) (s : State) : memory (endFault b s) = memory s := (rfl)

@[simp] theorem detectUe_memory (slot offset : Nat) (s : State) : memory (detectUe slot offset s) = memory s := by
  unfold detectUe
  dsimp only
  split
  · rfl
  · split
    · rfl
    · rw [notify_memory, bbWrite_memory]
      exact (memory_setCounts ..).trans (setPart_memory fun _ => ⟨rfl, rfl⟩)

@[simp] theorem countCe_memory (slot n : Nat) (s : State) : memory (countCe slot n s) = memory s := by
  unfold countCe
  split
  · rfl
  · exact (memory_setCounts ..).trans (setPart_memory fun _ => ⟨rfl, rfl⟩)

@[simp] theorem countStore_memory (store ce ue passes : Nat) (s : State) : memory (countStore store ce ue passes s) = memory s := (rfl)

@[simp] theorem bringErrors_memory (l : List MemError) (s : State) : memory (bringErrors l s) = memory s := by simp [bringErrors]

@[simp] theorem takeFree_memory (s : State) : memory (takeFree s).2 = memory s := (rfl)

/-! ### The path of a command -/

@[simp] theorem settleFate_memory (c : Cmd) (idx : Nat) (r : State × Fate) : memory (settleFate c idx r) = memory r.1 := by
  unfold settleFate
  split <;> simp [↓memory_mk]

@[simp] theorem sendForward_memory (c : Cmd) (e : Option Nat) (data : List Byte) (s : State) : memory (sendForward c e data s) = memory s := (rfl)

@[simp] theorem forwardCmd_memory (sp : CmdSpec) (c : Cmd) (e : Option Nat) (s : State) : memory (forwardCmd sp c e s) = memory s :=
  by simp [forwardCmd, ↓memory_mk]

@[simp] theorem holdCmd_memory (c : Cmd) (e : Option Nat) (s : State) : memory (holdCmd c e s) = memory s := by
  unfold holdCmd
  split <;> simp [↓memory_mk]

@[simp] theorem refuseEffects_memory (c : Cmd) (st : Status) (s : State) : memory (refuseEffects c st s) = memory s := by simp [refuseEffects]

@[simp] theorem hostResult_memory (id address : Nat) (bytes : List Byte) (s : State) : memory (hostResult id address bytes s).1 = memory s := by
  unfold hostResult
  repeat' split
  all_goals simp

/-! ### The sample path -/

@[simp] theorem bringVolts_memory (l : List Volts) (s : State) : memory (bringVolts l s) = memory s := by simp [bringVolts, ↓memory_mk]

/-! ### Converters -/

@[simp] theorem setChannel_memory (c : Nat) (f : Channel → Channel) (s : State) : memory (setChannel c f s) = memory s := (rfl)

@[simp] theorem ovrNotice_memory (c j : Nat) (s : State) : memory (ovrNotice c j s) = memory s := by simp [ovrNotice]

@[simp] theorem evOverRange_memory (c first : Nat) (values : List ℚ) (s : State) : memory (evOverRange c first values s) = memory s :=
  by simp [evOverRange]

@[simp] theorem sliceFailed_memory (e c slice : Nat) (s : State) : memory (sliceFailed e c slice s) = memory s := by
  unfold sliceFailed
  dsimp only
  repeat' split
  all_goals simp

@[simp] theorem testChannel_memory (e : Nat) (x : SliceSums) (s : State) : memory (testChannel e x s) = memory s := by simp [testChannel]

@[simp] theorem evSliceMonitorWindow_memory (sums : List SliceSums) (s : State) : memory (evSliceMonitorWindow sums s) = memory s :=
  by simp [evSliceMonitorWindow]

/-! ### Grids, slots and items -/

@[simp] theorem setTuner_memory (t : Nat) (f : Tuner → Tuner) (s : State) : memory (setTuner t f s) = memory s := (rfl)

@[simp] theorem setCtx_memory (n : Nat) (f : StreamCtx → StreamCtx) (s : State) : memory (setCtx n f s) = memory s := (rfl)

@[simp] theorem offerItem_memory (pkind unit seq index : Nat) (source : ItemSource) (s : State) :
    memory (offerItem pkind unit seq index source s) = memory s := by simp [offerItem, ↓memory_mk]

@[simp] theorem sendCheckpoint_memory (n cell : Nat) (ends : Bool) (s : State) : memory (sendCheckpoint n cell ends s) = memory s :=
  by simp [sendCheckpoint]

@[simp] theorem endCtxRun_memory (limit n : Nat) (s : State) : memory (endCtxRun limit n s) = memory s := by
  unfold endCtxRun
  dsimp only
  repeat' split
  all_goals simp

@[simp] theorem endStreams_memory (kind unit limit : Nat) (s : State) : memory (endStreams kind unit limit s) = memory s := by simp [endStreams]

@[simp] theorem startCtxRun_memory (e n : Nat) (s : State) : memory (startCtxRun e n s) = memory s := by simp [startCtxRun]

@[simp] theorem startStreams_memory (kind unit e : Nat) (s : State) : memory (startStreams kind unit e s) = memory s := by simp [startStreams]

@[simp] theorem setEngine_memory (e : Nat) (f : Engine → Engine) (s : State) : memory (setEngine e f s) = memory s := (rfl)

@[simp] theorem pushRecord_memory (e : Nat) (r : RingRecord) (s : State) : memory (pushRecord e r s) = memory s := (rfl)

@[simp] theorem emitProduct_memory (e : Nat) (s : State) : memory (emitProduct e s) = memory s := by
  unfold emitProduct
  dsimp only
  repeat' split
  all_goals simp

@[simp] theorem setDens_memory (c : Nat) (f : Density → Density) (s : State) : memory (setDens c f s) = memory s := (rfl)

@[simp] theorem anchorDensity_memory (c e : Nat) (s : State) : memory (anchorDensity c e s) = memory s := (rfl)

@[simp] theorem setSpgm_memory (i : Nat) (f : Spgm → Spgm) (s : State) : memory (setSpgm i f s) = memory s := (rfl)

@[simp] theorem checkLineRates_memory (e : Nat) (s : State) : memory (checkLineRates e s) = memory s := by simp [checkLineRates, ↓memory_mk]

/-! ### Capture, triggers and integration along the sample path -/

@[simp] theorem setSheaf_memory (n : Nat) (f : Sheaf → Sheaf) (s : State) : memory (setSheaf n f s) = memory s := (rfl)

@[simp] theorem setRing_memory (kind unit : Nat) (f : CapRing → CapRing) (s : State) : memory (setRing kind unit f s) = memory s := (rfl)

@[simp] theorem closeSegmentOn_memory (records : List RingRecord) (n reason limit : Nat) (s : State) :
    memory (closeSegmentOn records n reason limit s) = memory s := by
  unfold closeSegmentOn
  dsimp only
  repeat' split
  all_goals rfl

@[simp] theorem closeSegment_memory (n reason limit : Nat) (s : State) : memory (closeSegment n reason limit s) = memory s := by simp [closeSegment]

@[simp] theorem endRun_memory (kind unit reason limit : Nat) (s : State) : memory (endRun kind unit reason limit s) = memory s := by simp [endRun]

@[simp] theorem startRun_memory (kind unit e : Nat) (s : State) : memory (startRun kind unit e s) = memory s := (rfl)

@[simp] theorem resizeRing_memory (e : Nat) (s : State) : memory (resizeRing e s) = memory s := by
  unfold resizeRing
  split <;> simp [↓memory_mk]

@[simp] theorem setSlot_memory (c : Nat) (f : TrigSlot → TrigSlot) (s : State) : memory (setSlot c f s) = memory s := (rfl)

@[simp] theorem pushEvent_memory (x : TrigEvent) (s : State) : memory (pushEvent x s) = memory s := by simp [pushEvent, ↓memory_mk]

@[simp] theorem endEngineEvents_memory (g e : Nat) (s : State) : memory (endEngineEvents g e s) = memory s := by simp [endEngineEvents]

@[simp] theorem setTh_memory (c : Nat) (f : Thresher → Thresher) (s : State) : memory (setTh c f s) = memory s := (rfl)

@[simp] theorem restartTh_memory (c : Nat) (s : State) : memory (restartTh c s) = memory s := (rfl)

@[simp] theorem restartThOn_memory (g : Nat) (s : State) : memory (restartThOn g s) = memory s := by simp [restartThOn]

@[simp] theorem setInt_memory (f : IntUnit → IntUnit) (s : State) : memory (setInt f s) = memory s := (rfl)

@[simp] theorem openIntFrame_memory (x : Nat) (s : State) : memory (openIntFrame x s) = memory s := (rfl)

@[simp] theorem closeIntFrame_memory (close last : Nat) (s : State) : memory (closeIntFrame close last s) = memory s := by
  unfold closeIntFrame
  split <;> simp

@[simp] theorem stopInt_memory (close i : Nat) (s : State) : memory (stopInt close i s) = memory s := by simp [stopInt]

/-! ### The decisions of the trigger unit -/

@[simp] theorem endBefore_memory (k n : Nat) (s : State) : memory (endBefore k n s) = memory s := by
  unfold endBefore
  split <;> simp

@[simp] theorem armSheaf_memory (e : Nat) (arm finish : Bool) (n : Nat) (s : State) : memory (armSheaf e arm finish n s) = memory s :=
  by simp [armSheaf]

@[simp] theorem restartSlots_memory (e : Nat) (keep : Bool) (s : State) : memory (restartSlots e keep s) = memory s := (rfl)

@[simp] theorem stopSlots_memory (e : Nat) (cancel : Bool) (s : State) : memory (stopSlots e cancel s) = memory s := (rfl)

@[simp] theorem stepSlots_memory (s : State) : memory (stepSlots s) = memory s := (rfl)

@[simp] theorem applyChange_memory (e : Nat) (x : TrigChange) (s : State) : memory (applyChange e x s) = memory s := by
  cases x with
  | config i g => rfl
  | arm m st => exact memory_foldl fun _ _ => rfl
  | sheaves m arm finish => exact memory_foldl fun _ _ => armSheaf_memory ..

@[simp] theorem afterChanges_memory (s : State) : memory (afterChanges s) = memory s := by simp [afterChanges, ↓memory_mk]

@[simp] theorem dropEvents_memory (s : State) : memory (dropEvents s) = memory s := (rfl)

/-! ### Threshers and accumulation -/

@[simp] theorem endThReports_memory (ch e : Nat) (s : State) : memory (endThReports ch e s) = memory s := by simp [endThReports]

@[simp] theorem runThAct_memory (ch e : Nat) (x : ThAct) (s : State) : memory (runThAct ch e x s) = memory s := by
  unfold runThAct
  split <;> simp

@[simp] theorem thCatch_memory (all : Bool) (ch fuel : Nat) (s : State) : memory (thCatch all ch fuel s) = memory s := by
  induction fuel generalizing s with
  | zero => rfl
  | succ fuel ih =>
    unfold thCatch
    split
    · rfl
    · split
      · rw [ih, runThAct_memory, setTh_memory]
      · rfl

@[simp] theorem thCatchAll_memory (all : Bool) (s : State) : memory (thCatchAll all s) = memory s := by simp [thCatchAll]

@[simp] theorem thAct_memory (ch e : Nat) (x : ThAct) (s : State) : memory (thAct ch e x s) = memory s := by simp [thAct]

@[simp] theorem closeDueInt_memory (key32 fuel : Nat) (s : State) : memory (closeDueInt key32 fuel s) = memory s := by
  induction fuel generalizing s with
  | zero => rfl
  | succ fuel ih =>
    unfold closeDueInt
    repeat' split
    all_goals simp [ih]

@[simp] theorem intUpTo_memory (key32 : Nat) (s : State) : memory (intUpTo key32 s) = memory s := by simp [intUpTo]

@[simp] theorem mapIntFrame_memory (f : IntFrame → IntFrame) (s : State) : memory (mapIntFrame f s) = memory s := (rfl)

@[simp] theorem startInt_memory (e : Nat) (s : State) : memory (startInt e s) = memory s := by simp [startInt]

/-! ### The consumers of spectra -/

@[simp] theorem startDensity_memory (u e : Nat) (s : State) : memory (startDensity u e s) = memory s := by simp [startDensity]

@[simp] theorem switchOutput_memory (x : Spectrum) (s : State) : memory (switchOutput x s) = memory s := by
  unfold switchOutput
  dsimp only
  repeat' split
  all_goals simp

@[simp] theorem productTake_memory (x : Spectrum) (s0 : State) : memory (productTake x s0) = memory s0 := by simp [productTake]

@[simp] theorem trigTake_memory (x : Spectrum) (s : State) : memory (trigTake x s) = memory s := by
  unfold trigTake
  dsimp only
  repeat' split
  all_goals simp

/-! ### Engine and tuner grids -/

@[simp] theorem startGrid_memory (g e : Nat) (s : State) : memory (startGrid g e s) = memory s := by simp [startGrid]

@[simp] theorem startFeeds_memory (t e : Nat) (s : State) : memory (startFeeds t e s) = memory s := by simp [startFeeds]

/-! ### Segmented capture -/

@[simp] theorem ringErrors_memory (n : Nat) (errors : List MemError) (s : State) : memory (ringErrors n errors s) = memory s := by
  unfold ringErrors
  dsimp only
  repeat' split
  all_goals simp

@[simp] theorem closeAtEnd_memory (k n : Nat) (s : State) : memory (closeAtEnd k n s) = memory s := by
  unfold closeAtEnd
  dsimp only
  repeat' split
  all_goals simp

/-! ### The message queue -/

@[simp] theorem setMq_memory (f : MqUnit → MqUnit) (s : State) : memory (setMq f s) = memory s := (rfl)

@[simp] theorem mqTrim_memory (s : State) : memory (mqTrim s) = memory s := (rfl)

@[simp] theorem mqLevelCheck_memory (s : State) : memory (mqLevelCheck s) = memory s := by simp [mqLevelCheck]

@[simp] theorem mqOpenHost_memory (h : HostItem) (s : State) : memory (mqOpenHost h s) = memory s := by simp [mqOpenHost]

@[simp] theorem mqReadNow_memory (r : MqRead) (s : State) : memory (mqReadNow r s).1 = memory s := by
  unfold mqReadNow
  dsimp only
  repeat' split
  all_goals simp

@[simp] theorem mqFinishRead_memory (s : State) : memory (mqFinishRead s) = memory s := by
  unfold mqFinishRead
  split <;> simp

@[simp] theorem evMqReadComplete_memory (errors : List MemError) (s0 : State) : memory (evMqReadComplete errors s0) = memory s0 := by
  unfold evMqReadComplete
  dsimp only
  repeat' split
  all_goals simp

@[simp] theorem evMqReadTimeout_memory (errors : List MemError) (s : State) : memory (evMqReadTimeout errors s) = memory s :=
  by simp [evMqReadTimeout]

@[simp] theorem mqFlush_memory (s : State) : memory (mqFlush s).1 = memory s := by simp [mqFlush]

@[simp] theorem mqBind_memory (h : Word) (s : State) : memory (mqBind h s) = memory s := by simp [mqBind]

@[simp] theorem mqMask_memory (mask : Nat) (s : State) : memory (mqMask mask s) = memory s := (rfl)

/-! ### Packers -/

@[simp] theorem setPacker_memory (p : Nat) (f : Packer → Packer) (s : State) : memory (setPacker p f s) = memory s := (rfl)

@[simp] theorem countPacked_memory (c : StreamConfig) (n : Nat) (bytes : List Byte) (packed raw : Bool) (s : State) :
    memory (countPacked c n bytes packed raw s) = memory s := by simp [countPacked]

/-! ### Streams -/

@[simp] theorem loseMarks_memory (n index : Nat) (seqs : List Nat) (s : State) :
    memory (loseMarks n index seqs s) = memory s := memory_foldl fun a m => by
  split
  · split
    · rw [notify_memory, setCtx_memory]
    · rfl
  · rfl

@[simp] theorem attachMarks_memory (n seq index : Nat) (s : State) : memory (attachMarks n seq index s) = memory s := by simp [attachMarks]

@[simp] theorem settlePieces_memory (s : State) : memory (settlePieces s) = memory s := (rfl)

theorem kdpSample_memory {s : State} {n : Nat} {p : StreamPiece} {last : Bool} {note : ClockNote} {elems : List Word} {choice bytes : List Byte}
    {t : State}
    (h : kdpSample s n p last note elems choice = some (bytes, t)) : memory t = memory s := by
  unfold kdpSample at h
  dsimp only at h
  split at h
  · cases h
  · cases h
    exact countPacked_memory ..

@[simp] theorem pullMq_memory (n : Nat) (s : State) : memory (pullMq n s) = memory s := by
  unfold pullMq
  dsimp only
  repeat' split
  all_goals rfl

@[simp] theorem skipStale_memory (n fuel : Nat) (s : State) : memory (skipStale n fuel s) = memory s := by
  induction fuel generalizing s with
  | zero => rfl
  | succ fuel ih =>
    unfold skipStale
    dsimp only
    repeat' split
    all_goals simp [ih]

@[simp] theorem regionDone_memory (n : Nat) (s : State) : memory (regionDone n s) = memory s := by simp [regionDone]

@[simp] theorem dropItem_memory (n more : Nat) (s : State) : memory (dropItem n more s) = memory s := (rfl)

@[simp] theorem hostRingWrite_memory (e : Nat) (bytes : List Byte) (s : State) : memory (hostRingWrite e bytes s) = memory s := by
  unfold hostRingWrite
  split <;> simp

@[simp] theorem sendTo_memory (e : Nat) (bytes : List Byte) (s : State) : memory (sendTo e bytes s) = memory s := by
  unfold sendTo
  split <;> simp [↓memory_mk]

@[simp] theorem serveTurn_memory (n link : Nat) (s : State) : memory (serveTurn n link s) = memory s := (rfl)

@[simp] theorem sendLive_memory (n : Nat) (s : State) : memory (sendLive n s) = memory s := by
  unfold sendLive
  dsimp only
  repeat' split
  all_goals simp

@[simp] theorem sendRewind_memory (n : Nat) (s : State) : memory (sendRewind n s) = memory s := by
  unfold sendRewind
  split <;> simp

@[simp] theorem evStrmPacketSend_memory (n : Nat) (rewind : Bool) (errors : List MemError) (s0 : State) :
    memory (evStrmPacketSend n rewind errors s0) = memory s0 := by simp [evStrmPacketSend]

@[simp] theorem endRewind_memory (n : Nat) (st : Status) (s : State) : memory (endRewind n st s) = memory s := by
  unfold endRewind
  split <;> simp

@[simp] theorem evRewindDone_memory (n : Nat) (s : State) : memory (evRewindDone n s) = memory s := by
  unfold evRewindDone
  split <;> simp

@[simp] theorem evHostRingConsPoll_memory (e cons : Nat) (s : State) : memory (evHostRingConsPoll e cons s) = memory s := by
  unfold evHostRingConsPoll
  split <;> rfl

@[simp] theorem evHostRingIntTime_memory (e : Nat) (s : State) : memory (evHostRingIntTime e s) = memory s := by
  unfold evHostRingIntTime
  split <;> simp

@[simp] theorem evOtherFrame_memory (p : Nat) (s : State) : memory (evOtherFrame p s) = memory s := (rfl)

@[simp] theorem evPauseFrame_memory (p : Nat) (s : State) : memory (evPauseFrame p s) = memory s := (rfl)

@[simp] theorem evArpRequest_memory (p mac ip target : Nat) (s : State) : memory (evArpRequest p mac ip target s) = memory s := by simp [evArpRequest]

@[simp] theorem evNeighbourSolicitation_memory (p mac : Nat) (ip target : List Word) (s : State) :
    memory (evNeighbourSolicitation p mac ip target s) = memory s := by simp [evNeighbourSolicitation]

@[simp] theorem evEthLinkChange_memory (p : Nat) (up : Bool) (s : State) : memory (evEthLinkChange p up s) = memory s := by simp [evEthLinkChange]

@[simp] theorem evPtpFrameRx_memory (p stamp : Nat) (frame : List Byte) (s : State) : memory (evPtpFrameRx p stamp frame s) = memory s := by
  unfold evPtpFrameRx
  dsimp only
  repeat' split
  all_goals simp

/-! ### Stream commands and packers -/

@[simp] theorem dropMarkWaits_memory (n : Nat) (s : State) : memory (dropMarkWaits n s) = memory s := by simp [dropMarkWaits]

@[simp] theorem startCtx_memory (e n : Nat) (s : State) : memory (startCtx e n s) = memory s := by
  unfold startCtx
  dsimp only
  repeat' split
  all_goals simp

@[simp] theorem stopCtx_memory (e n : Nat) (s : State) : memory (stopCtx e n s) = memory s := by simp [stopCtx]

end Sys2Proof.Machine
end

section
/-! O58: what the operations of the maintenance arbiter, the slow units and the timebase leave of the memories. -/

namespace Sys2Proof.Machine

/-! ### The maintenance arbiter -/

@[simp] theorem setMaint_memory (f : MaintUnit → MaintUnit) (s : State) : memory (setMaint f s) = memory s := (rfl)

@[simp] theorem setTdc_memory (f : TdcUnit → TdcUnit) (s : State) : memory (setTdc f s) = memory s := (rfl)

@[simp] theorem setTdcSlot_memory (n : Nat) (f : TdcSlot → TdcSlot) (s : State) : memory (setTdcSlot n f s) = memory s := (rfl)

@[simp] theorem countStart_memory (codes : List Nat) (from_ : Option Nat) (k : Nat) (s : State) : memory (countStart codes from_ k s) = memory s :=
  memory_foldl fun _ _ => rfl

@[simp] theorem countWait_memory (codes : List Nat) (s : State) : memory (countWait codes s) = memory s := memory_foldl fun _ _ => rfl

@[simp] theorem pumpDwell_memory (s : State) : memory (pumpDwell s) = memory s := by
  unfold pumpDwell
  split <;> simp

@[simp] theorem dwellDue_memory (s : State) : memory (dwellDue s) = memory s := by simp [dwellDue]

@[simp] theorem clearWay_memory (conflicts : Activity → Bool) (s : State) : memory (clearWay conflicts s) = memory s := (rfl)

@[simp] theorem dropDwell_memory (s : State) : memory (dropDwell s) = memory s := (rfl)

@[simp] theorem endActivity_memory (sel : Activity → Bool) (s : State) : memory (endActivity sel s) = memory s := by simp [endActivity]

@[simp] theorem evTdcCalPriority_memory (s : State) : memory (evTdcCalPriority s) = memory s := by
  unfold evTdcCalPriority
  split
  · rfl
  · split
    · rfl
    · rw [pumpDwell_memory, memory_foldl fun _ _ => setTdcSlot_memory .., setMaint_memory]

@[simp] theorem waitActivity_memory (codes : List Nat) (c : Cmd) (key length : Nat) (s : State) :
    memory (waitActivity codes c key length s).1 = memory s := by simp [waitActivity]

/-! ### Interval measurement -/

@[simp] theorem tdcOffer_memory (n : Nat) (words : List Word) (s : State) : memory (tdcOffer n words s) = memory s := by simp [tdcOffer]

@[simp] theorem emitStats_memory (n : Nat) (s : State) : memory (emitStats n s) = memory s := by simp [emitStats]

@[simp] theorem disarmSlot_memory (n : Nat) (s : State) : memory (disarmSlot n s) = memory s := by simp [disarmSlot]

@[simp] theorem tdcResult_memory (n k : Nat) (r : TdcResult) (s : State) : memory (tdcResult n k r s) = memory s := by
  unfold tdcResult
  dsimp only
  repeat' split
  all_goals simp

@[simp] theorem closeEmpty_memory (n k : Nat) (clock : Bool) (s : State) : memory (closeEmpty n k clock s) = memory s := by
  unfold closeEmpty
  dsimp only
  repeat' split
  all_goals simp

@[simp] theorem closeWith_memory (n : Nat) (e : TdcEdge) (s : State) : memory (closeWith n e s) = memory s := by
  unfold closeWith
  dsimp only
  repeat' split
  all_goals simp

@[simp] theorem intervalEdge_memory (i n : Nat) (e : TdcEdge) (s0 : State) : memory (intervalEdge i n e s0) = memory s0 := by
  unfold intervalEdge
  dsimp only
  repeat' split
  all_goals simp

@[simp] theorem closeWindow_memory (n : Nat) (clock : Bool) (s : State) : memory (closeWindow n clock s) = memory s := by
  unfold closeWindow
  dsimp only
  repeat' split
  all_goals simp

@[simp] theorem closeWindowsBefore_memory (n d fuel : Nat) (s : State) : memory (closeWindowsBefore n d fuel s) = memory s := by
  induction fuel generalizing s with
  | zero => rfl
  | succ fuel ih =>
    unfold closeWindowsBefore
    dsimp only
    repeat' split
    all_goals simp [ih]

@[simp] theorem eventEdge_memory (n : Nat) (e : TdcEdge) (s0 : State) : memory (eventEdge n e s0) = memory s0 := by simp [eventEdge]

@[simp] theorem slotEdge_memory (i : Nat) (e : TdcEdge) (s : State) (n : Nat) : memory (slotEdge i e s n) = memory s := by simp [slotEdge]

@[simp] theorem externalEdge_memory (i stamp accepted : Nat) (s : State) : memory (externalEdge i stamp accepted s) = memory s :=
  by simp [externalEdge]

@[simp] theorem evTdcEdge_memory (i cycle tap : Nat) (s : State) : memory (evTdcEdge i cycle tap s) = memory s := by simp [evTdcEdge]

@[simp] theorem evTdcMeasureTimeout_memory (k n : Nat) (s : State) : memory (evTdcMeasureTimeout k n s) = memory s := by simp [evTdcMeasureTimeout]

@[simp] theorem evTdcWindowClose_memory (k n : Nat) (s : State) : memory (evTdcWindowClose k n s) = memory s := by
  unfold evTdcWindowClose
  dsimp only
  repeat' split
  all_goals simp

@[simp] theorem evProbeLaunch_memory (k n : Nat) (s0 : State) : memory (evProbeLaunch k n s0) = memory s0 := by simp [evProbeLaunch]

@[simp] theorem evTdcStuckTimeout_memory (i : Nat) (s : State) : memory (evTdcStuckTimeout i s) = memory s := by simp [evTdcStuckTimeout]

@[simp] theorem evLevelInactive_memory (i : Nat) (s : State) : memory (evLevelInactive i s) = memory s := (rfl)

@[simp] theorem endDwell_memory (s : State) : memory (endDwell s) = memory s := by
  rw [endDwell, clearWay_memory, setMaint_memory, setTdc_memory]

@[simp] theorem evTdcDwellEnd_memory (hits : List Nat) (s : State) : memory (evTdcDwellEnd hits s) = memory s := by
  unfold evTdcDwellEnd
  split <;> simp

@[simp] theorem evTdcTablesReady_memory (hits : List (List Nat)) (s : State) : memory (evTdcTablesReady hits s) = memory s :=
  by simp [evTdcTablesReady]

@[simp] theorem unlockTdc_memory (s : State) : memory (unlockTdc s) = memory s := by
  refine (setTdc_memory ..).trans (memory_foldl fun a n => ?_)
  dsimp only
  repeat' split
  all_goals simp

@[simp] theorem relockTdc_memory (v : Nat) (s : State) : memory (relockTdc v s) = memory s := (rfl)

@[simp] theorem armTdc_memory (e cmd : Nat) (from_ : Option Nat) (n : Nat) (s : State) : memory (armTdc e cmd from_ n s) = memory s :=
  by simp [armTdc]

/-! ### The timebase -/

@[simp] theorem setTime_memory (f : TimeUnit → TimeUnit) (s : State) : memory (setTime f s) = memory s := (rfl)

@[simp] theorem startSlew_memory (s : State) : memory (startSlew s) = memory s := (rfl)

@[simp] theorem requestStep_memory (b : Nat) (cmd : Option Nat) (remeasure : Bool) (s : State) : memory (requestStep b cmd remeasure s) = memory s :=
  by simp [requestStep]

@[simp] theorem endResume_memory (s : State) : memory (endResume s) = memory s := by
  unfold endResume
  dsimp only
  repeat' split
  all_goals simp

@[simp] theorem runRefResume_memory (c : Cmd) (idx : Nat) (s : State) : memory (runRefResume c idx s).1 = memory s := by
  unfold runRefResume
  dsimp only
  repeat' split
  all_goals simp

@[simp] theorem failSyncs_memory (s : State) : memory (failSyncs s) = memory s := by simp [failSyncs]

@[simp] theorem declareLoss_memory (cause dac : Nat) (s : State) : memory (declareLoss cause dac s) = memory s := by
  unfold declareLoss
  dsimp only
  repeat' split
  all_goals simp

@[simp] theorem evRefMissingEdge_memory (dac : Nat) (s : State) : memory (evRefMissingEdge dac s) = memory s := by simp [evRefMissingEdge]

@[simp] theorem evRefFreqCheck_memory (dac : Nat) (ppb : ℤ) (s : State) : memory (evRefFreqCheck dac ppb s) = memory s := by simp [evRefFreqCheck]

@[simp] theorem evRefEdgesReturn_memory (s : State) : memory (evRefEdgesReturn s) = memory s := (rfl)

@[simp] theorem evRefQualExpiry_memory (ppb : ℤ) (s : State) : memory (evRefQualExpiry ppb s) = memory s := by simp [evRefQualExpiry]

@[simp] theorem evPpsDisambigTimeout_memory (s : State) : memory (evPpsDisambigTimeout s) = memory s := (rfl)

@[simp] theorem evJumpKnown_memory (measured : ℤ) (s : State) : memory (evJumpKnown measured s) = memory s := by
  unfold evJumpKnown
  extract_lets t j amb s1 held wantsSlew wantsStep refused said s2 rid
  have h2 : memory s2 = memory s := notify_memory ..
  clear_value s2 rid
  split
  · rfl
  · split
    · rfl
    · split
      · split
        · rw [completeId_memory, setTime_memory, h2]
        · exact h2
      · split
        · split
          · rw [completeId_memory, startSlew_memory, h2]
          · rw [startSlew_memory, h2]
        · rw [memory_ite, requestStep_memory, h2, ite_self]

@[simp] theorem evSlewEnd_memory (s : State) : memory (evSlewEnd s) = memory s := by simp [evSlewEnd]

@[simp] theorem evTimeSyncTimeout_memory (id : Nat) (s : State) : memory (evTimeSyncTimeout id s) = memory s := by simp [evTimeSyncTimeout]

@[simp] theorem evPpsInEdge_memory (cycle tap : Nat) (s : State) : memory (evPpsInEdge cycle tap s) = memory s := by simp [evPpsInEdge]

@[simp] theorem evPpsMissingTimeout_memory (s : State) : memory (evPpsMissingTimeout s) = memory s := by simp [evPpsMissingTimeout]

@[simp] theorem evPpsOutPulse_memory (n : Nat) (s : State) : memory (evPpsOutPulse n s) = memory s := by simp [evPpsOutPulse]

/-! ### The monitor converter -/

@[simp] theorem setMc_memory (f : McUnit → McUnit) (s : State) : memory (setMc f s) = memory s := (rfl)

@[simp] theorem startSequence_memory (stream : Option McConversion) (s : State) : memory (startSequence stream s) = memory s := by
  unfold startSequence
  repeat' split
  all_goals rfl

@[simp] theorem mcNext_memory (stream : Option McConversion) (s : State) : memory (mcNext stream s) = memory s := by
  unfold mcNext
  repeat' split
  all_goals simp

@[simp] theorem applySequence_memory (s : State) : memory (applySequence s) = memory s := by
  unfold applySequence
  split <;> rfl

@[simp] theorem protect_memory (i : Nat) (value : ℤ) (s : State) : memory (protect i value s) = memory s := by simp [protect]

@[simp] theorem mcHistory_memory (e : List Word) (s : State) : memory (mcHistory e s) = memory s := by simp [mcHistory]

@[simp] theorem mcNotices_memory (old : McInput) (r : McConversion) (code value : ℤ) (ovr : Bool) (st : Bool × Bool) (s : State) :
    memory (mcNotices old r code value ovr st s) = memory s := by simp [mcNotices]

@[simp] theorem mcDeliver_memory (r : McConversion) (volts : ℚ) (given : ℤ) (overload : Bool) (s : State) :
    memory (mcDeliver r volts given overload s) = memory s := by
  unfold mcDeliver
  repeat' split
  all_goals simp

@[simp] theorem evMcConversionEnd_memory (volts : ℚ) (value : ℤ) (overload : Bool) (s : State) :
    memory (evMcConversionEnd volts value overload s) = memory s := by
  unfold evMcConversionEnd
  split <;> simp

@[simp] theorem evMcSystemPass_memory (s : State) : memory (evMcSystemPass s) = memory s := by simp [evMcSystemPass]

@[simp] theorem mcAbort_memory (s : State) : memory (mcAbort s) = memory s := by
  unfold mcAbort
  repeat' split
  all_goals rfl

/-! ### Calibration -/

@[simp] theorem setSlice_memory (c n : Nat) (f : SliceCorr → SliceCorr) (s : State) : memory (setSlice c n f s) = memory s := (rfl)

@[simp] theorem sliceDwellEnd_memory (k c : Nat) (r : ℤ × ℤ × ℤ) (s : State) : memory (sliceDwellEnd k c r s) = memory s := by simp [sliceDwellEnd]

@[simp] theorem evSliceSwap_memory (k : Nat) (results : List (ℤ × ℤ × ℤ)) (s : State) : memory (evSliceSwap k results s) = memory s :=
  by simp [evSliceSwap, ↓memory_mk]

@[simp] theorem scrubbed_memory (slot corrected : Nat) (found : List Nat) (s : State) : memory (scrubbed slot corrected found s) = memory s :=
  by simp [scrubbed]

@[simp] theorem evScrub_memory (slot corrected : Nat) (found : List Nat) (s : State) : memory (evScrub slot corrected found s) = memory s := by
  simp [evScrub, ↓memory_setCounts]

@[simp] theorem evScrubPassEnd_memory (found : List (Nat × Nat × List Nat)) (s : State) : memory (evScrubPassEnd found s) = memory s := by
  unfold evScrubPassEnd
  split
  · rfl
  · simp [↓memory_setCounts]

@[simp] theorem startMeasure_memory (c : Cmd) (e : Nat) (from_ : Option Nat) (s : State) : memory (startMeasure c e from_ s) = memory s := (rfl)

@[simp] theorem measureEntry_memory (c : Cmd) (taken : List ℤ) (ch k : Nat) (valid : Bool) (y r : SDyad × SDyad) (s : State) :
    memory (measureEntry c taken ch k valid y r s).2 = memory s := by
  unfold measureEntry
  dsimp only
  repeat' split
  all_goals rfl

@[simp] theorem measureBlock_memory (c : Cmd) (taken : List ℤ) (e ch : Nat) (s : State) : memory (measureBlock c taken e ch s).2 = memory s :=
  by simp [measureBlock]

@[simp] theorem evCalMeasureEnd_memory (volts : List Volts) (s0 : State) : memory (evCalMeasureEnd volts s0) = memory s0 := by
  unfold evCalMeasureEnd
  dsimp only
  repeat' split
  all_goals simp

@[simp] theorem breakMeasure_memory (st : Status) (s : State) : memory (breakMeasure st s) = memory s := by
  unfold breakMeasure
  split <;> simp

@[simp] theorem evActivityStart_memory (s : State) : memory (evActivityStart s) = memory s := by
  unfold evActivityStart
  repeat' split
  all_goals simp

/-! ### The display -/

@[simp] theorem setDisp_memory (f : DispUnit → DispUnit) (s : State) : memory (setDisp f s) = memory s := (rfl)

@[simp] theorem genLine_memory (s : State) : memory (genLine s).2 = memory s := by
  unfold genLine
  split <;> rfl

@[simp] theorem compose_memory (n : Nat) (s : State) : memory (compose n s) = memory s := (rfl)

@[simp] theorem trimRefs_memory (s : State) : memory (trimRefs s) = memory s := (rfl)

@[simp] theorem leaveRun_memory (m : DispMode) (ids : List Nat) (s : State) : memory (leaveRun m ids s) = memory s := by simp [leaveRun]

@[simp] theorem calibrateSkew_memory (s : State) : memory (calibrateSkew s) = memory s := by simp [calibrateSkew]

@[simp] theorem beginPeriod_memory (k : Nat) (abandoned reset : Bool) (s : State) : memory (beginPeriod k abandoned reset s) = memory s :=
  by simp [beginPeriod]

@[simp] theorem linkResetNow_memory (x : DispCrc) (s : State) : memory (linkResetNow x s) = memory s := by simp [linkResetNow]

@[simp] theorem evDispFrameStart_memory (k : Nat) (complete : Bool) (errors : List MemError) (s0 : State) :
    memory (evDispFrameStart k complete errors s0) = memory s0 := by
  unfold evDispFrameStart
  dsimp only
  repeat' split
  all_goals simp

@[simp] theorem evDispLatchLine_memory (s : State) : memory (evDispLatchLine s) = memory s := by simp [evDispLatchLine]

@[simp] theorem evScanoutEnd_memory (k : Nat) (readback : Word) (errors : List MemError) (s : State) :
    memory (evScanoutEnd k readback errors s) = memory s := by
  unfold evScanoutEnd
  repeat' split
  all_goals simp

@[simp] theorem evTeEdge_memory (k ns : Nat) (s : State) : memory (evTeEdge k ns s) = memory s := by simp [evTeEdge]

@[simp] theorem evTeLostTimeout_memory (k : Nat) (s : State) : memory (evTeLostTimeout k s) = memory s := by simp [evTeLostTimeout]

@[simp] theorem endPanel_memory (payload : List Word) (s : State) : memory (endPanel payload s) = memory s := by
  unfold endPanel
  split <;> simp

@[simp] theorem evPanelCmdSend_memory (errorReport : Bool) (response : Option (List Byte)) (s : State) :
    memory (evPanelCmdSend errorReport response s) = memory s := by
  unfold evPanelCmdSend
  repeat' split
  all_goals simp

@[simp] theorem evPanelRespTimeout_memory (s : State) : memory (evPanelRespTimeout s) = memory s := by simp [evPanelRespTimeout]

/-! ### The pool -/

@[simp] theorem usedFree_memory (n : Nat) (s : State) : memory (usedFree n s) = memory s := (rfl)

/-! ### Tuners -/

@[simp] theorem setEq_memory (c : Nat) (f : Equaliser → Equaliser) (s : State) : memory (setEq c f s) = memory s := (rfl)

@[simp] theorem evEqHeldStart_memory (c : Nat) (s : State) : memory (evEqHeldStart c s) = memory s := (rfl)

end Sys2Proof.Machine
end

section
/-! O58: what the operations of the registers, the pair, the start-up and the debug port leave of the memories. -/

namespace Sys2Proof.Machine

/-! ### Modes and layouts -/

@[simp] theorem setRunMode_memory (m : Mode) (s : State) : memory (setRunMode m s) = memory s := by simp [setRunMode, ↓memory_mk]

@[simp] theorem leaveCalibrate_memory (e : Nat) (s : State) : memory (leaveCalibrate e s) = memory s := by simp [leaveCalibrate, ↓memory_mk]

@[simp] theorem loseContext_memory (n e : Nat) (s : State) : memory (loseContext n e s) = memory s := by simp [loseContext]

/-! ### Breaks in the numbering -/

@[simp] theorem stepInt_memory (u : Nat) (g : Option IntGap) (s : State) : memory (stepInt u g s) = memory s := by simp [stepInt]

@[simp] theorem markGap_memory (u stop : Nat) (s : State) : memory (markGap u stop s) = memory s := (rfl)

@[simp] theorem skipForced_memory (u : Nat) (s : State) : memory (skipForced u s) = memory s := by
  refine (memory_foldl fun a f => ?_).trans (memory_mk s ..)
  split
  · split
    · exact complete_memory ..
    · rfl
  · rfl

@[simp] theorem skipHeld_memory (u v : Nat) (c : Cmd) (s : State) : memory (skipHeld u v c s) = memory s := by
  unfold skipHeld
  split <;> simp [↓memory_mk]

@[simp] theorem skipGap_memory (u v : Nat) (s : State) : memory (skipGap u v s) = memory s := by simp [skipGap]

@[simp] theorem reportUnlock_memory (u cause : Nat) (s : State) : memory (reportUnlock u cause s) = memory s := by simp [reportUnlock]

@[simp] theorem reportRelock_memory (v : Nat) (s : State) : memory (reportRelock v s) = memory s := by simp [reportRelock]

@[simp] theorem reportStep_memory (b : Nat) (adjust : ℤ) (s : State) : memory (reportStep b adjust s) = memory s := by simp [reportStep]

@[simp] theorem evLockAttemptFail_memory (s : State) : memory (evLockAttemptFail s) = memory s := by simp [evLockAttemptFail]

@[simp] theorem invAtNew_memory (v : Nat) (s : State) : memory (invAtNew v s) = memory s := (rfl)

/-! ### Registers, queue pairs and ports -/

@[simp] theorem submitCmd_memory (p : Packet) (s : State) : memory (submitCmd p s) = memory s := (rfl)

@[simp] theorem writeQpCtrl_memory (q : Nat) (v : Word) (s : State) : memory (writeQpCtrl q v s) = memory s := by simp [writeQpCtrl]

@[simp] theorem writeSqTail_memory (q : Nat) (v : Word) (s : State) : memory (writeSqTail q v s) = memory s := by simp [writeSqTail]

@[simp] theorem writeRqHead_memory (q : Nat) (v : Word) (s : State) : memory (writeRqHead q v s) = memory s := by simp [writeRqHead]

@[simp] theorem writeQpReg_memory (q off : Nat) (v : Word) (s : State) : memory (writeQpReg q off v s) = memory s := by
  unfold writeQpReg
  repeat' split
  all_goals simp

@[simp] theorem afterRead_memory (bar off : Nat) (s : State) : memory (afterRead bar off s) = memory s := by simp [afterRead, ↓memory_mk]

@[simp] theorem clearGint_memory (v : Word) (s : State) : memory (clearGint v s) = memory s := (rfl)

@[simp] theorem writeGintEnable_memory (v : Word) (s : State) : memory (writeGintEnable v s) = memory s := by simp [writeGintEnable, ↓memory_mk]

@[simp] theorem writeReg_memory (off : Nat) (v : Word) (s : State) : memory (writeReg off v s) = memory s := by
  unfold writeReg
  repeat' split
  all_goals simp [↓memory_mk]

@[simp] theorem writeBar2_memory (off : Nat) (v : Word) (s : State) : memory (writeBar2 off v s) = memory s := by simp [writeBar2, ↓memory_mk]

@[simp] theorem readWord_memory (bar off : Nat) (s : State) : memory (readWord bar off s).2 = memory s := by simp [readWord]

@[simp] theorem readAccess_memory (bar size off : Nat) (s : State) : memory (readAccess bar size off s).2 = memory s := by
  unfold readAccess
  repeat' split
  all_goals simp

@[simp] theorem writeBar_memory (bar off : Nat) (v : Word) (s : State) : memory (writeBar bar off v s) = memory s := by simp [writeBar]

@[simp] theorem evRegisterWrite_memory (bar size off : Nat) (value : BitVec 64) (s : State) :
    memory (evRegisterWrite bar size off value s) = memory s :=
  by simp [evRegisterWrite]

@[simp] theorem evSqTailDoorbell_memory (q : Nat) (v : Word) (s : State) : memory (evSqTailDoorbell q v s) = memory s := by simp [evSqTailDoorbell]

@[simp] theorem evRqHeadWrite_memory (q : Nat) (v : Word) (s : State) : memory (evRqHeadWrite q v s) = memory s := by simp [evRqHeadWrite]

@[simp] theorem evGintStatusClear_memory (v : Word) (s : State) : memory (evGintStatusClear v s) = memory s := by simp [evGintStatusClear]

@[simp] theorem evQpEnable_memory (q : Nat) (v : Word) (s : State) : memory (evQpEnable q v s) = memory s := by simp [evQpEnable]

@[simp] theorem evQpDisable_memory (q : Nat) (v : Word) (s : State) : memory (evQpDisable q v s) = memory s := by simp [evQpDisable]

@[simp] theorem evIndexLoRead_memory (size off : Nat) (s : State) : memory (evIndexLoRead size off s) = memory s := by simp [evIndexLoRead]

@[simp] theorem evCoalTimeExpiry_memory (q : Nat) (s : State) : memory (evCoalTimeExpiry q s) = memory s := by simp [evCoalTimeExpiry]

@[simp] theorem evCommandFetch_memory (q : Fin 16) (got : Fetched) (s : State) : memory (evCommandFetch q got s) = memory s := by
  unfold evCommandFetch
  repeat' split
  all_goals simp [↓memory_mk]

@[simp] theorem spiSubmit_memory (bytes : List Byte) (s : State) : memory (spiSubmit bytes s) = memory s := by
  unfold spiSubmit
  split <;> simp [↓memory_mk]

@[simp] theorem spiReadReply_memory (cut : Bool) (s : State) : memory (spiReadReply cut s) = memory s := by
  unfold spiReadReply
  repeat' split
  all_goals rfl

@[simp] theorem spiReadStatus_memory (s : State) : memory (spiReadStatus s) = memory s := (rfl)

@[simp] theorem spiTransaction_memory (code : Byte) (bytes : List Byte) (cut : Bool) (s : State) :
    memory (spiTransaction code bytes cut s) = memory s := by
  unfold spiTransaction
  split <;> simp

@[simp] theorem ctlPacket_memory (snd : Sender) (words : List Word) (s : State) : memory (ctlPacket snd words s) = memory s := by
  unfold ctlPacket
  repeat' split
  all_goals rfl

@[simp] theorem evCtlportDatagram_memory (snd : Sender) (udp : Nat) (bytes : List Byte) (s0 : State) :
    memory (evCtlportDatagram snd udp bytes s0) = memory s0 := by
  unfold evCtlportDatagram
  dsimp only
  repeat' split
  all_goals simp [↓memory_mk]

/-! ### The pair -/

@[simp] theorem setPair_memory (f : PairUnit → PairUnit) (s : State) : memory (setPair f s) = memory s := (rfl)

@[simp] theorem holdInternal_memory (opcode : Nat) (words : List Word) (e : Option Nat) (s : State) :
    memory (holdInternal opcode words e s) = memory s := (rfl)

@[simp] theorem depose_memory (s : State) : memory (depose s) = memory s := (rfl)

@[simp] theorem yieldNow_memory (s : State) : memory (yieldNow s) = memory s := (rfl)

@[simp] theorem yieldClass_memory (cls : Nat) (s : State) : memory (yieldClass cls s) = memory s := by simp [yieldClass]

@[simp] theorem evEgressDownTimeout_memory (port : Nat) (s : State) : memory (evEgressDownTimeout port s) = memory s := by simp [evEgressDownTimeout]

@[simp] theorem evTakeoverRequestReceive_memory (s : State) : memory (evTakeoverRequestReceive s) = memory s := by simp [evTakeoverRequestReceive]

@[simp] theorem evLiveStall_memory (s : State) : memory (evLiveStall s) = memory s := by simp [evLiveStall]

@[simp] theorem passLastSent_memory (n : Nat) (s : State) : memory (passLastSent n s) = memory s := by
  unfold passLastSent
  split
  · rfl
  · exact memory_foldl fun _ _ => rfl

@[simp] theorem renumberItems_memory (n first : Nat) (s : State) : memory (renumberItems n first s) = memory s := (rfl)

@[simp] theorem loseItemMarks_memory (n : Nat) (s : State) : memory (loseItemMarks n s) = memory s := memory_foldl fun a m => by
  split
  · rw [notify_memory, setCtx_memory]
  · rfl

@[simp] theorem resumeCtx_memory (n : Nat) (s : State) : memory (resumeCtx n s) = memory s := by
  unfold resumeCtx
  dsimp only
  repeat' split
  all_goals simp

@[simp] theorem announce_memory (s : State) : memory (announce s) = memory s := by simp [announce]

@[simp] theorem takeOver_memory (cause : Nat) (s : State) : memory (takeOver cause s) = memory s := by simp [takeOver, ↓memory_mk]

@[simp] theorem evYieldReceive_memory (s : State) : memory (evYieldReceive s) = memory s := by simp [evYieldReceive]

@[simp] theorem evHeartbeatTimeout_memory (s0 : State) : memory (evHeartbeatTimeout s0) = memory s0 := by simp [evHeartbeatTimeout]

@[simp] theorem evPartnerStrobeEdge_memory (s : State) : memory (evPartnerStrobeEdge s) = memory s := by simp [evPartnerStrobeEdge]

@[simp] theorem evPartnerStrobeTimeout_memory (s : State) : memory (evPartnerStrobeTimeout s) = memory s := by simp [evPartnerStrobeTimeout]

@[simp] theorem evHeartbeatSend_memory (s : State) : memory (evHeartbeatSend s) = memory s := by simp [evHeartbeatSend]

@[simp] theorem seeMirror_memory (hb : Heartbeat) (s : State) : memory (seeMirror hb s) = memory s := by simp [seeMirror]

@[simp] theorem checkSkew_memory (s : State) : memory (checkSkew s) = memory s := by simp [checkSkew]

@[simp] theorem leaveSoon_memory (id : Option Nat) (s : State) : memory (leaveSoon id s) = memory s := by simp [leaveSoon]

@[simp] theorem evHeartbeatReceive_memory (hb : Heartbeat) (s : State) : memory (evHeartbeatReceive hb s) = memory s := by simp [evHeartbeatReceive]

@[simp] theorem evPairLinkTrained_memory (latency : Nat) (variant : Variant) (compat : Nat) (later : Bool) (s : State) :
    memory (evPairLinkTrained latency variant compat later s) = memory s := by simp [evPairLinkTrained]

@[simp] theorem evPairLaneFail_memory (s : State) : memory (evPairLaneFail s) = memory s := by simp [evPairLaneFail]

@[simp] theorem evPairRelayPacket_memory (entry : Nat) (bytes : List Byte) (s : State) : memory (evPairRelayPacket entry bytes s) = memory s := by
  unfold evPairRelayPacket
  repeat' split
  all_goals simp

@[simp] theorem compareStatus_memory (r : ForwardRecord) (s : State) : memory (compareStatus r s) = memory s := by
  unfold compareStatus
  split <;> simp

@[simp] theorem compareAll_memory (s : State) : memory (compareAll s) = memory s := by simp [compareAll]

@[simp] theorem evMirrorStatusReturn_memory (mseq : Nat) (st : Status) (s : State) : memory (evMirrorStatusReturn mseq st s) = memory s :=
  by simp [evMirrorStatusReturn]

@[simp] theorem renumberCells_memory (n : Nat) (s : State) : memory (renumberCells n s) = memory s := (rfl)

@[simp] theorem evMirrorStateReceive_memory (m : MirrorState) (s : State) : memory (evMirrorStateReceive m s) = memory s := by
  unfold evMirrorStateReceive
  repeat' split
  all_goals simp

@[simp] theorem joinEngine_memory (j g : Nat) (s : State) : memory (joinEngine j g s) = memory s := by simp [joinEngine]

@[simp] theorem joinDensity_memory (j u : Nat) (s : State) : memory (joinDensity j u s) = memory s := by
  unfold joinDensity
  dsimp only
  repeat' split
  all_goals rfl

@[simp] theorem joinUnits_memory (j : Nat) (s : State) : memory (joinUnits j s) = memory s := by simp [joinUnits, ↓memory_mk]

@[simp] theorem evJoinIndex_memory (j : Nat) (s : State) : memory (evJoinIndex j s) = memory s := by
  unfold evJoinIndex
  repeat' split
  all_goals simp [↓memory_mk]

@[simp] theorem switchRoles_memory (w : Nat) (s : State) : memory (switchRoles w s) = memory s := (rfl)

@[simp] theorem mirrorSwitch_memory (w : Nat) (s : State) : memory (mirrorSwitch w s) = memory s := by simp [mirrorSwitch]

/-! ### Start-up, resets and firmware -/

@[simp] theorem enterRecovery_memory (s : State) : memory (enterRecovery s) = memory s :=
  (setFault_memory ..).trans ((setFw_memory rfl).trans (memory_mk ..))

@[simp] theorem resetEntry_memory (s : State) : memory (resetEntry s) = memory s := by simp [resetEntry]

@[simp] theorem fallbackEntry_memory (failed why booted : Nat) (s : State) : memory (fallbackEntry failed why booted s) = memory s :=
  by simp [fallbackEntry, ↓memory_mk]

theorem bootMark_memory (entry : Bool) (s : State) : memory (bootMark entry s) = memory s := by simp [bootMark]

theorem noteValid_data (slot : Nat) (v : Bool) (fw : Firmware) : flashCells (noteValid slot v fw) = flashCells fw := by
  simp only [flashCells, noteValid, modAt]
  exact List.ext_getElem (by simp) fun i hi _ => by
    simp only [List.getElem_map, List.getElem_modify]
    split_ifs <;> rfl

/-- A boot verifies the preferred image, and the other one if that fails: it marks what it finds. -/
theorem bootVerify_marks (fw : Firmware) :
    bootVerify fw = noteValid fw.preferred (validImage fw fw.preferred) fw ∨
      bootVerify fw = noteValid (otherSlot fw.preferred) (validImage fw (otherSlot fw.preferred))
        (noteValid fw.preferred (validImage fw fw.preferred) fw) :=
  have pick (p : Bool) (a b : Firmware) : (if p then a else b) = a ∨ (if p then a else b) = b := by cases p <;> simp
  pick _ _ _

theorem bootVerify_data (fw : Firmware) : flashCells (bootVerify fw) = flashCells fw := by
  rcases bootVerify_marks fw with h | h <;> rw [h]
  · exact noteValid_data ..
  · exact (noteValid_data ..).trans (noteValid_data ..)

theorem bootStart_memory (s : State) : memory (bootStart s) = memory s := (setFw_memory (bootVerify_data _)).trans (memory_mk ..)

@[simp] theorem resumeIndex_memory (s : State) : memory (resumeIndex s) = memory s := by simp [resumeIndex, ↓memory_mk]

@[simp] theorem clearHostRings_memory (s : State) : memory (clearHostRings s) = memory s := by simp [clearHostRings]

@[simp] theorem evPcieReset_memory (s : State) : memory (evPcieReset s) = memory s := (clearHostRings_memory _).trans rfl

@[simp] theorem evPcieLinkUp_memory (msix : Bool) (dead : List (Nat × Nat)) (s : State) : memory (evPcieLinkUp msix dead s) = memory s := by
  unfold evPcieLinkUp
  split <;> rfl

@[simp] theorem resumeService_memory (s : State) : memory (resumeService s) = memory s := by simp [resumeService]

@[simp] theorem loseCommand_memory (id : Nat) (s : State) : memory (loseCommand id s) = memory s := by
  unfold loseCommand
  split <;> simp

@[simp] theorem lockstepEntry_memory (p what : Nat) (s : State) : memory (lockstepEntry p what s) = memory s := by simp [lockstepEntry]

@[simp] theorem retireCore_memory (p : Nat) (s : State) : memory (retireCore p s) = memory s := by simp [retireCore]

@[simp] theorem haltCore_memory (p : Nat) (pc : Word) (begun : List Nat) (s : State) : memory (haltCore p pc begun s) = memory s := by simp [haltCore]

@[simp] theorem evLockstepMismatch_memory (p : Nat) (pc : Word) (ue : Bool) (begun : List Nat) (s : State) :
    memory (evLockstepMismatch p pc ue begun s) = memory s := by simp [evLockstepMismatch]

@[simp] theorem evCoreSelftestEnd_memory (p : Nat) (pass : Bool) (s : State) : memory (evCoreSelftestEnd p pass s) = memory s := by
  unfold evCoreSelftestEnd
  dsimp only
  repeat' split
  · rfl
  · rw [resumeService_memory, lockstepEntry_memory]
    rfl
  · exact retireCore_memory ..

@[simp] theorem onTile_memory (t : Nat) (f : Channel → Channel) (s : State) : memory (onTile t f s) = memory s := (rfl)

@[simp] theorem tileEntry_memory (t attempt : Nat) (s : State) : memory (tileEntry t attempt s) = memory s := by simp [tileEntry]

@[simp] theorem evTileLinkSeqFail_memory (t : Nat) (s : State) : memory (evTileLinkSeqFail t s) = memory s := by simp [evTileLinkSeqFail, ↓memory_mk]

@[simp] theorem evTileLinkRetrain_memory (t : Nat) (s : State) : memory (evTileLinkRetrain t s) = memory s := by simp [evTileLinkRetrain]

@[simp] theorem evTileRetrainEnd_memory (t : Nat) (ok : Bool) (s : State) : memory (evTileRetrainEnd t ok s) = memory s := by simp [evTileRetrainEnd]

@[simp] theorem evFwImageReady_memory (pause : Nat) (s : State) : memory (evFwImageReady pause s) = memory s := by
  unfold evFwImageReady
  dsimp only
  split
  · rfl
  · split
    · exact (completeId_memory ..).trans (setFw_memory (noteValid_data ..))
    · rw [notify_memory, bbWrite_memory, completeId_memory]
      exact (setFw_memory rfl).trans (setFw_memory (noteValid_data ..))

/-! ### The debug port -/

@[simp] theorem setDbg_memory (f : DebugUnit → DebugUnit) (s : State) : memory (setDbg f s) = memory s := (rfl)

@[simp] theorem debugEntry_memory (place event : Nat) (data : List Word) (s : State) : memory (debugEntry place event data s) = memory s :=
  by simp [debugEntry]

@[simp] theorem evTapReset_memory (s : State) : memory (evTapReset s) = memory s := (rfl)

@[simp] theorem freeWords_memory (fuel : Nat) (s : State) : memory (freeWords fuel s).2 = memory s := by
  induction fuel generalizing s with
  | zero => rfl
  | succ fuel ih =>
    unfold freeWords
    dsimp only
    simp [ih]

@[simp] theorem newChallenge_memory (s : State) : memory (newChallenge s) = memory s := by simp [newChallenge]

@[simp] theorem evGauntletSelect_memory (s : State) : memory (evGauntletSelect s) = memory s := by simp [evGauntletSelect]

@[simp] theorem boundaryScan_memory (levels shifted : List Bool) (s : State) : memory (boundaryScan levels shifted s) = memory s := (rfl)

@[simp] theorem evTapInstructionLoad_memory (code : Nat) (levels shifted : List Bool) (s : State) :
    memory (evTapInstructionLoad code levels shifted s) = memory s := by
  unfold evTapInstructionLoad
  dsimp only
  repeat' split
  all_goals simp

@[simp] theorem evGauntletResponse_memory (r : BitVec 776) (s : State) : memory (evGauntletResponse r s) = memory s := by simp [evGauntletResponse]

@[simp] theorem dbgResult_memory (data : Word) (addr st : Nat) (s : State) : memory (dbgResult data addr st s) = memory s := (rfl)

@[simp] theorem readCoreReg_memory (p off : Nat) (s : State) : memory (readCoreReg p off s).2 = memory s := by
  unfold readCoreReg
  dsimp only
  repeat' split
  all_goals rfl

@[simp] theorem freeRegs_memory (p : Nat) (pc : Option Word) (s : State) : memory (freeRegs p pc s) = memory s := by
  unfold freeRegs
  split <;> simp

@[simp] theorem debugHalt_memory (p cause number : Nat) (pc : Option Word) (begun : List Nat) (s : State) :
    memory (debugHalt p cause number pc begun s) = memory s := by simp [debugHalt]

@[simp] theorem debugResume_memory (p : Nat) (s : State) : memory (debugResume p s) = memory s := by simp [debugResume]

@[simp] theorem debugStep_memory (p : Nat) (s : State) : memory (debugStep p s) = memory s := by simp [debugStep]

@[simp] theorem writeDctrl_memory (p : Nat) (v : Word) (begun : List Nat) (s : State) : memory (writeDctrl p v begun s) = memory s :=
  by simp [writeDctrl]

@[simp] theorem writeCoreReg_memory (p off : Nat) (v : Word) (begun : List Nat) (s : State) : memory (writeCoreReg p off v begun s) = memory s :=
  by simp [writeCoreReg]

@[simp] theorem dbgFetch_memory (space addr : Nat) (s : State) : memory (dbgFetch space addr s).2.2 = memory s := by
  unfold dbgFetch
  repeat' split
  all_goals simp

@[simp] theorem evDbgRead_memory (space addr : Nat) (errors : List MemError) (s : State) : memory (evDbgRead space addr errors s) = memory s :=
  by simp [evDbgRead]

@[simp] theorem countWrite_memory (s : State) : memory (countWrite s) = memory s := by simp [countWrite]

@[simp] theorem evDbgCtrlLock_memory (s : State) : memory (evDbgCtrlLock s) = memory s := by simp [evDbgCtrlLock]

@[simp] theorem evBreakpointHit_memory (p number : Nat) (begun : List Nat) (s : State) : memory (evBreakpointHit p number begun s) = memory s :=
  by simp [evBreakpointHit]

@[simp] theorem evWatchpointHit_memory (p number : Nat) (begun : List Nat) (s : State) : memory (evWatchpointHit p number begun s) = memory s :=
  by simp [evWatchpointHit]

/-! ### What every row ends with -/

@[simp] theorem yieldFaults_memory (old s : State) : memory (yieldFaults old s) = memory s := by simp [yieldFaults]

@[simp] theorem pairNotice_memory (old s : State) : memory (pairNotice old s) = memory s := by simp [pairNotice]

@[simp] theorem passTo_memory (k : Nat) (s : State) : memory (passTo k s) = memory s := by simp [passTo, ↓memory_mk]

end Sys2Proof.Machine
end

section
/-! O58: the operations that write bytes, make or drop partitions, or load the flash keep the memories in canonical form. -/

namespace Sys2Proof.Machine

@[simp] theorem canonical_ite {p : Prop} [Decidable p] {a b : List (Nat × List Host.Cell) × List (List Host.Cell)} :
    Canonical (if p then a else b) ↔ (p → Canonical a) ∧ (¬p → Canonical b) := by
  split_ifs with h <;> simp [h]

theorem canonical_foldl {β : Type} {l : List β} {f : State → β → State} {s : State} (hm : Canonical (memory s))
    (h : ∀ a i, Canonical (memory a) → Canonical (memory (f a i))) : Canonical (memory (l.foldl f s)) := by
  induction l generalizing s with
  | nil => exact hm
  | cons x t ih => exact ih (h s x hm)

/-- For a step of a fold that is taken on a condition. -/
theorem canonical_if {p : Prop} [Decidable p] {a b : State} (ha : Canonical (memory a)) (hb : Canonical (memory b)) :
    Canonical (memory (if p then a else b)) := by
  simp [ha, hb]

@[simp] theorem poolWrite_canonical {slot o : Nat} {bytes : List Byte} {s : State} (hm : Canonical (memory s)) :
    Canonical (memory (poolWrite slot o bytes s)) :=
  memWf_iff.mp (memWf_poolWrite slot o bytes (memWf_iff.mpr hm))

@[simp] theorem writeAt_canonical {h : Word} {o : Nat} {bytes : List Byte} {s : State} (hm : Canonical (memory s)) :
    Canonical (memory (writeAt h o bytes s)) := by
  unfold writeAt
  split
  · exact poolWrite_canonical hm
  · exact hm

/-! ### Densities and spectrograms -/

@[simp] theorem closeDensity_canonical {c stop : Nat} {gap early lost busy : Bool} {next : Option Nat} {s0 : State} (hm : Canonical (memory s0)) :
    Canonical (memory (closeDensity c stop gap early lost busy next s0)) := by
  unfold closeDensity
  extract_lets s d
  have hs : Canonical (memory s) := by simpa [s] using hm
  clear_value s
  split
  · exact hm
  · extract_lets image s1 s1a s2 s3
    have h1 : Canonical (memory s1) := by simp [s1, hs]
    have h1a : Canonical (memory s1a) := writeAt_canonical h1
    have h2 : Canonical (memory s2) := by simp [s2, h1, h1a]
    simp [s3, h2]

@[simp] theorem closeDueDensity_canonical {u i : Nat} {lost busy : Bool} {fuel : Nat} {s : State} (hm : Canonical (memory s)) :
    Canonical (memory (closeDueDensity u i lost busy fuel s)) := by
  induction fuel generalizing lost busy s with
  | zero => exact hm
  | succ fuel ih =>
    unfold closeDueDensity
    split
    · exact canonical_if hm (ih (closeDensity_canonical hm))
    · exact hm

@[simp] theorem densUpTo_canonical {u i : Nat} {s : State} (hm : Canonical (memory s)) : Canonical (memory (densUpTo u i s)) :=
  closeDueDensity_canonical hm

@[simp] theorem endDensity_canonical {c i : Nat} {gap : Bool} {s0 : State} (hm : Canonical (memory s0)) :
    Canonical (memory (endDensity c i gap s0)) := by
  unfold endDensity
  dsimp only
  split <;> simp [hm]

@[simp] theorem runDensAct_canonical {u e : Nat} {x : DensAct} {s : State} (hm : Canonical (memory s)) :
    Canonical (memory (runDensAct u e x s)) := by
  cases x <;> simp [runDensAct, hm]

@[simp] theorem densCatch_canonical {all : Bool} {u fuel : Nat} {s : State} (hm : Canonical (memory s)) :
    Canonical (memory (densCatch all u fuel s)) := by
  induction fuel generalizing s with
  | zero => exact hm
  | succ fuel ih =>
    unfold densCatch
    split
    · exact hm
    · exact canonical_if (ih (by simp [hm])) hm

@[simp] theorem densCatchAll_canonical {all : Bool} {s : State} (hm : Canonical (memory s)) : Canonical (memory (densCatchAll all s)) :=
  canonical_foldl hm fun _ _ h => densCatch_canonical h

@[simp] theorem densAct_canonical {u e : Nat} {x : DensAct} {s : State} (hm : Canonical (memory s)) : Canonical (memory (densAct u e x s)) := by
  simp [densAct, hm]

@[simp] theorem densityTake_canonical {u key : Nat} {invalid : Bool} {flags : SpecFlags} {regrid : Bool} {cols : List Dyad} {s0 : State}
    (hm : Canonical (memory s0)) : Canonical (memory (densityTake u key invalid flags regrid cols s0)) := by
  unfold densityTake
  dsimp only
  repeat' split
  all_goals simp [hm]

@[simp] theorem evDensityFrameClose_canonical {k u : Nat} {lost busy : Bool} {s : State} (hm : Canonical (memory s)) :
    Canonical (memory (evDensityFrameClose k u lost busy s)) := by
  unfold evDensityFrameClose
  split <;> simp [hm]

@[simp] theorem evDecayStep_canonical {k : Nat} {s : State} (hm : Canonical (memory s)) : Canonical (memory (evDecayStep k s)) :=
  canonical_if (canonical_foldl hm fun _ _ h => densAct_canonical h) hm

@[simp] theorem emitLine_canonical {i : Nat} {lost : Bool} {s : State} (hm : Canonical (memory s)) : Canonical (memory (emitLine i lost s)) := by
  unfold emitLine
  extract_lets u
  split
  · exact hm
  · extract_lets o entries body head s1 s2 stride at_ s3
    have h1 : Canonical (memory s1) := by simp [s1, hm]
    have h2 : Canonical (memory s2) := by simp [s2, h1]
    simp [s3, h2]

@[simp] theorem spgmTake_canonical {i : Nat} {x : FrameIn} {cols : List Dyad} {lost : Bool} {s : State} (hm : Canonical (memory s)) :
    Canonical (memory (spgmTake i x cols lost s)) := by simp [spgmTake, hm]

@[simp] theorem runSpgmAct_canonical {i : Nat} {x : SpgmAct} {s : State} (hm : Canonical (memory s)) : Canonical (memory (runSpgmAct i x s)) := by
  cases x <;> simp [runSpgmAct, hm]

@[simp] theorem spgmCatch_canonical {all : Bool} {i fuel : Nat} {s : State} (hm : Canonical (memory s)) :
    Canonical (memory (spgmCatch all i fuel s)) := by
  induction fuel generalizing s with
  | zero => exact hm
  | succ fuel ih =>
    unfold spgmCatch
    split
    · exact hm
    · exact canonical_if (ih (by simp [hm])) hm

@[simp] theorem spgmCatchAll_canonical {all : Bool} {s : State} (hm : Canonical (memory s)) : Canonical (memory (spgmCatchAll all s)) :=
  canonical_foldl hm fun _ _ h => spgmCatch_canonical h

@[simp] theorem spgmAct_canonical {i e : Nat} {x : SpgmAct} {s : State} (hm : Canonical (memory s)) : Canonical (memory (spgmAct i e x s)) := by
  simp [spgmAct, hm]

/-! ### The trigger unit -/

@[simp] theorem sheafTrigger_canonical {k trigSeq n : Nat} {s0 : State} (hm : Canonical (memory s0)) :
    Canonical (memory (sheafTrigger k trigSeq n s0)) := by
  unfold sheafTrigger
  dsimp only
  repeat' split
  all_goals simp [hm]

@[simp] theorem winnerAction_canonical {k w fmask : Nat} {vs : List Verdict} {s : State} (hm : Canonical (memory s)) :
    Canonical (memory (winnerAction k w fmask vs s)) := by
  unfold winnerAction
  split
  · exact hm
  · exact canonical_foldl (by simpa [↓memory_mk] using hm) fun _ _ h => sheafTrigger_canonical h

@[simp] theorem decideIndex_canonical {k : Nat} {s : State} (hm : Canonical (memory s)) : Canonical (memory (decideIndex k s)) := by
  unfold decideIndex
  dsimp only
  refine canonical_foldl ?_ fun _ _ h => by simpa using h
  split
  · exact winnerAction_canonical hm
  · exact hm

@[simp] theorem decideRun_canonical {hi fuel : Nat} {s : State} (hm : Canonical (memory s)) : Canonical (memory (decideRun hi fuel s)) := by
  induction fuel generalizing s with
  | zero => exact hm
  | succ fuel ih =>
    unfold decideRun
    split
    · exact canonical_if (ih (decideIndex_canonical hm)) hm
    · exact hm

@[simp] theorem decideSpan_canonical {hi : Nat} {s : State} (hm : Canonical (memory s)) : Canonical (memory (decideSpan hi s)) := by
  have h := decideRun_canonical (hi := hi) (fuel := hi - s.trig.next)
    (s := { s with trig := { s.trig with slots := s.trig.slots.map fun t => feedSlot s (hi - t.cfg.shift) t } }) hm
  exact canonical_if hm (canonical_if (decideIndex_canonical h) h)

@[simp] theorem decideSteps_canonical {hi : Nat} {all : Bool} {fuel : Nat} {s : State} (hm : Canonical (memory s)) :
    Canonical (memory (decideSteps hi all fuel s)) := by
  induction fuel generalizing s with
  | zero => exact hm
  | succ fuel ih =>
    unfold decideSteps
    extract_lets limit
    clear_value limit
    split
    · refine canonical_if (ih ?_) (decideSpan_canonical hm)
      rw [applyChange_memory]
      exact decideSpan_canonical hm
    · exact decideSpan_canonical hm

@[simp] theorem decideTo_canonical {k : Nat} {s : State} (hm : Canonical (memory s)) : Canonical (memory (decideTo k s)) := by
  simp [decideTo, hm]

@[simp] theorem decideBefore_canonical {e : Nat} {s : State} (hm : Canonical (memory s)) : Canonical (memory (decideBefore e s)) :=
  canonical_if (show Canonical (memory (afterChanges (decideSteps ..))) by simp [hm]) hm

@[simp] theorem changeTrig_canonical {e : Nat} {x : TrigChange} {s : State} (hm : Canonical (memory s)) :
    Canonical (memory (changeTrig e x s)) :=
  canonical_if (decideTo_canonical hm) (by simpa using hm)

@[simp] theorem evTrigDecide_canonical {k : Nat} {volts : List Volts} {s : State} (hm : Canonical (memory s)) :
    Canonical (memory (evTrigDecide k volts s)) := by simp [evTrigDecide, hm]

/-! ### Threshers and integration -/

@[simp] theorem thTake_canonical {c : Nat} {invalid dropped : Bool} {binStart : Nat} {powers : List Dyad} {s : State} (hm : Canonical (memory s)) :
    Canonical (memory (thTake c invalid dropped binStart powers s).1) := by
  unfold thTake
  dsimp only
  repeat' split
  all_goals simp [hm]

@[simp] theorem accumulateBin_canonical {ms : List IntMember} {p j arr cnt : Nat} {first : Bool} {s : State} (hm : Canonical (memory s)) :
    Canonical (memory (accumulateBin ms p j arr cnt first s)) := by simp [accumulateBin, hm]

@[simp] theorem accumulateSet_canonical {ms : List IntMember} {s : State} (hm : Canonical (memory s)) :
    Canonical (memory (accumulateSet ms s)) := by
  simp only [accumulateSet, setInt_memory]
  exact canonical_foldl hm fun _ _ h => canonical_foldl h fun _ _ h => accumulateBin_canonical h

@[simp] theorem accountSet_canonical {ms : List IntMember} {lost : Bool} {s : State} (hm : Canonical (memory s)) :
    Canonical (memory (accountSet ms lost s)) := by simp [accountSet, hm]

@[simp] theorem takeSet_canonical {ms : List IntMember} {lost dropped : Bool} {s0 : State} (hm : Canonical (memory s0)) :
    Canonical (memory (takeSet ms lost dropped s0)) := by
  unfold takeSet
  dsimp only
  repeat' split
  all_goals simp [hm]

@[simp] theorem evIntSetAccumulate_canonical {number : Nat} {drop : Bool} {errors : List MemError} {s0 : State} (hm : Canonical (memory s0)) :
    Canonical (memory (evIntSetAccumulate number drop errors s0)) := by simp [evIntSetAccumulate, hm]

@[simp] theorem intDrain_canonical {i fuel : Nat} {s : State} (hm : Canonical (memory s)) : Canonical (memory (intDrain i fuel s)) := by
  induction fuel generalizing s with
  | zero => exact hm
  | succ fuel ih =>
    unfold intDrain
    split
    · exact hm
    · exact canonical_if hm (ih (takeSet_canonical hm))

@[simp] theorem intBefore_canonical {i : Nat} {s : State} (hm : Canonical (memory s)) : Canonical (memory (intBefore i s)) := by simp [intBefore, hm]

@[simp] theorem runIntAct_canonical {e : Nat} {x : IntAct} {s0 : State} (hm : Canonical (memory s0)) :
    Canonical (memory (runIntAct e x s0)) := by
  cases x <;> simp [runIntAct, hm]

@[simp] theorem intCatch_canonical {all : Bool} {fuel : Nat} {s : State} (hm : Canonical (memory s)) :
    Canonical (memory (intCatch all fuel s)) := by
  induction fuel generalizing s with
  | zero => exact hm
  | succ fuel ih =>
    unfold intCatch
    split
    · exact hm
    · exact canonical_if (ih (by simp [hm])) hm

@[simp] theorem intCatchAll_canonical {all : Bool} {s : State} (hm : Canonical (memory s)) : Canonical (memory (intCatchAll all s)) :=
  intCatch_canonical hm

@[simp] theorem intAct_canonical {e : Nat} {x : IntAct} {s : State} (hm : Canonical (memory s)) : Canonical (memory (intAct e x s)) := by
  simp [intAct, hm]

@[simp] theorem checkIntSource_canonical {e i : Nat} {stopped : Bool} {s : State} (hm : Canonical (memory s)) :
    Canonical (memory (checkIntSource e i stopped s)) := by simp [checkIntSource, hm]

@[simp] theorem evIntFrameClose_canonical {k : Nat} {s : State} (hm : Canonical (memory s)) : Canonical (memory (evIntFrameClose k s)) := by
  unfold evIntFrameClose
  split <;> simp [hm]

/-! ### Spectra, engine grids and tuner grids -/

@[simp] theorem catchAll_canonical {s : State} (hm : Canonical (memory s)) : Canonical (memory (catchAll s)) :=
  intCatchAll_canonical (spgmCatchAll_canonical (densCatchAll_canonical (by simpa using hm)))

@[simp] theorem thresherTake_canonical {x : Spectrum} {dropped : Bool} {s : State} (hm : Canonical (memory s)) :
    Canonical (memory (thresherTake x dropped s)) := by
  unfold thresherTake
  dsimp only
  repeat' split
  all_goals simp [hm]

@[simp] theorem completeSpectrum_canonical {e : Nat} {linesLost : List Nat} {thDrop : Bool} {s0 : State} (hm : Canonical (memory s0)) :
    Canonical (memory (completeSpectrum e linesLost thDrop s0)) := by
  unfold completeSpectrum
  extract_lets s x s1 s2 s3 s4
  have h1 : Canonical (memory s1) := by simp [s1, s, hm]
  have h2 : Canonical (memory s2) := canonical_foldl h1 fun _ _ h => canonical_if (densityTake_canonical h) h
  have h3 : Canonical (memory s3) := canonical_foldl h2 fun _ _ h => canonical_if (spgmTake_canonical h) h
  clear_value s3
  simp [s4, h3]

@[simp] theorem drainFrames_canonical {e i fuel : Nat} {s : State} (hm : Canonical (memory s)) :
    Canonical (memory (drainFrames e i fuel s)) := by
  induction fuel generalizing s with
  | zero => exact hm
  | succ fuel ih => exact canonical_if (ih (completeSpectrum_canonical hm)) hm

@[simp] theorem drainEngine_canonical {e i : Nat} {s : State} (hm : Canonical (memory s)) : Canonical (memory (drainEngine e i s)) :=
  drainFrames_canonical hm

@[simp] theorem evSpectrumDone_canonical {e : Nat} {volts : List Volts} {linesLost : List Nat} {thDrop : Bool} {errors : List MemError} {s0 : State}
    (hm : Canonical (memory s0)) : Canonical (memory (evSpectrumDone e volts linesLost thDrop errors s0)) := by simp [evSpectrumDone, hm]

@[simp] theorem endGrid_canonical {g e reason : Nat} {s : State} (hm : Canonical (memory s)) : Canonical (memory (endGrid g e reason s)) := by
  unfold endGrid
  extract_lets s1 s2
  have h1 : Canonical (memory s1) := by simp [s1, hm]
  have h2 : Canonical (memory s2) := canonical_foldl h1 fun _ _ h => canonical_if (emitLine_canonical h) h
  clear_value s2
  exact canonical_if hm (by simp [h2])

@[simp] theorem checkColumns_canonical {g e : Nat} {s : State} (hm : Canonical (memory s)) : Canonical (memory (checkColumns g e s)) := by
  simp only [checkColumns, checkLineRates_memory]
  exact canonical_foldl hm fun _ _ h => canonical_if (by simp [h]) h

@[simp] theorem regrid_canonical {g e : Nat} {f : Engine → Engine} {s : State} (hm : Canonical (memory s)) :
    Canonical (memory (regrid g e f s)) :=
  checkIntSource_canonical (checkColumns_canonical (by simp [hm]))

@[simp] theorem endFeeds_canonical {t e reason : Nat} {s : State} (hm : Canonical (memory s)) : Canonical (memory (endFeeds t e reason s)) := by
  simp [endFeeds, hm]

@[simp] theorem changeTuner_canonical {t e : Nat} {f : Tuner → Tuner} {s : State} (hm : Canonical (memory s)) :
    Canonical (memory (changeTuner t e f s)) := by simp [changeTuner, hm]

@[simp] theorem startTuner_canonical {t e : Nat} {s : State} (hm : Canonical (memory s)) : Canonical (memory (startTuner t e s)) :=
  changeTuner_canonical hm

@[simp] theorem configTuner_canonical {snap : Bool} {decim d gain e t : Nat} {s : State} (hm : Canonical (memory s)) :
    Canonical (memory (configTuner snap decim d gain e t s)) :=
  canonical_if (by simpa using hm) (changeTuner_canonical hm)

@[simp] theorem markRetune_canonical {t e : Nat} {s : State} (hm : Canonical (memory s)) : Canonical (memory (markRetune t e s)) :=
  canonical_if (intAct_canonical hm) hm

/-! ### Segments, the message queue, streams and packers -/

@[simp] theorem completeSegment_canonical {n : Nat} {g : Segment} {s : State} (hm : Canonical (memory s)) :
    Canonical (memory (completeSegment n g s)) := by
  unfold completeSegment
  extract_lets sh c esize base parts elems body lanes counts trunc inv head s1 s2 s3 s4 last s5 s5' cap s6
  have h1 : Canonical (memory s1) := by simp [s1, hm]
  have h2 : Canonical (memory s2) := canonical_foldl h1 fun _ _ h => writeAt_canonical h
  clear_value s2
  have h4 : Canonical (memory s4) := writeAt_canonical (writeAt_canonical h2)
  clear_value s4
  have h5 : Canonical (memory s5') := by simp [s5', s5, h4]
  have h6 : Canonical (memory s6) := h5
  clear_value s6
  simp [h6]

@[simp] theorem completeOldest_canonical {n : Nat} {s : State} (hm : Canonical (memory s)) : Canonical (memory (completeOldest n s)) := by
  unfold completeOldest
  split <;> simp [hm]

@[simp] theorem completeAll_canonical {n : Nat} {s : State} (hm : Canonical (memory s)) : Canonical (memory (completeAll n s)) :=
  canonical_foldl hm fun _ _ h => completeOldest_canonical h

@[simp] theorem evSegmentClose_canonical {k n : Nat} {dropped : Bool} {volts : List Volts} {errors : List MemError} {s : State}
    (hm : Canonical (memory s)) : Canonical (memory (evSegmentClose k n dropped volts errors s)) := by simp [evSegmentClose, hm]

@[simp] theorem rebind_canonical {c : Cmd} {e : Nat} {s : State} (hm : Canonical (memory s)) : Canonical (memory (rebind c e s)) := by
  unfold rebind
  extract_lets k u s1 cap s2
  have h1 : Canonical (memory s1) := by simp [s1, hm]
  have h2 : Canonical (memory s2) := h1
  clear_value s2
  simp [h2]

@[simp] theorem mqRingWrite_canonical {pos : Nat} {bytes : List Byte} {s : State} (hm : Canonical (memory s)) :
    Canonical (memory (mqRingWrite pos bytes s)) := writeAt_canonical (writeAt_canonical hm)

@[simp] theorem mqWrite_canonical {bytes : List Byte} {s : State} (hm : Canonical (memory s)) : Canonical (memory (mqWrite bytes s)) := by
  simp [mqWrite, hm]

@[simp] theorem mqPad_canonical {s : State} (hm : Canonical (memory s)) : Canonical (memory (mqPad s)) := by simp [mqPad, hm]

@[simp] theorem mqItemEnd_canonical {s : State} (hm : Canonical (memory s)) : Canonical (memory (mqItemEnd s)) := by simp [mqItemEnd, hm]

@[simp] theorem mqAccept_canonical {producer unit : Nat} {payload : List Word} {s : State} (hm : Canonical (memory s)) :
    Canonical (memory (mqAccept producer unit payload s)) := by simp [mqAccept, hm]

@[simp] theorem mqCloseHost_canonical {s : State} (hm : Canonical (memory s)) : Canonical (memory (mqCloseHost s)) := by
  unfold mqCloseHost
  split <;> simp [hm]

@[simp] theorem evMqItemAccept_canonical {producer : Nat} {s0 : State} (hm : Canonical (memory s0)) :
    Canonical (memory (evMqItemAccept producer s0)) := by
  unfold evMqItemAccept
  dsimp only
  repeat' split
  all_goals simp [↓memory_mk, hm]

@[simp] theorem evMqLingerExpiry_canonical {s : State} (hm : Canonical (memory s)) : Canonical (memory (evMqLingerExpiry s)) := by
  simp [evMqLingerExpiry, hm]

@[simp] theorem storePacket_canonical {n : Nat} {bytes : List Byte} {index : Nat} {first last : Bool} {s : State} (hm : Canonical (memory s)) :
    Canonical (memory (storePacket n bytes index first last s).1) := by
  unfold storePacket
  dsimp only
  repeat' split
  all_goals simp [hm]

@[simp] theorem generateSample_canonical {n : Nat} {choice : List Byte} {s0 : State} (hm : Canonical (memory s0)) :
    Canonical (memory (generateSample n choice s0)) := by
  unfold generateSample
  split
  · exact hm
  · next p ended _ =>
    extract_lets number s c data elems packet
    clear_value number
    have h : Canonical (memory s) := by
      unfold s
      split <;> exact hm
    have hp (bytes : List Byte) (t : State) (hp : packet = some (bytes, t)) : Canonical (memory t) := by
      unfold packet at hp
      split at hp
      · cases hp; exact h
      · rwa [kdpSample_memory hp]
    clear_value s packet
    split
    · exact h
    · next bytes t => simp [hp bytes t rfl]

@[simp] theorem generateItem_canonical {n : Nat} {choice : List Byte} {s00 : State} (hm : Canonical (memory s00)) :
    Canonical (memory (generateItem n choice s00)) := by
  unfold generateItem
  dsimp only
  repeat' split
  all_goals simp [hm]

@[simp] theorem evStrmPacketGenerate_canonical {n : Nat} {volts : List Volts} {choice : List Byte} {errors : List MemError} {s0 : State}
    (hm : Canonical (memory s0)) : Canonical (memory (evStrmPacketGenerate n volts choice errors s0)) := by simp [evStrmPacketGenerate, hm]

@[simp] theorem evPkJobEnd_canonical {p : Nat} {choices : List (List Byte)} {errors : List MemError} {s0 : State} (hm : Canonical (memory s0)) :
    Canonical (memory (evPkJobEnd p choices errors s0)) := by
  unfold evPkJobEnd
  dsimp only
  split <;> simp [hm]

end Sys2Proof.Machine
end

section
/-! O58: so do changes of mode and of layout, breaks in the numbering, the pair, and the control complex. -/

namespace Sys2Proof.Machine

/-! ### Partitions -/

/-- A new partition is zeroed (R98). -/
@[simp] theorem addRole_canonical {slot au : Nat} {s : State} (hm : Canonical (memory s)) : Canonical (memory (addRole slot au s)) := by
  unfold addRole
  split
  · exact hm
  · refine ⟨fun p hp => ?_, hm.2⟩
    simp only [memory, setPool, List.map_append, List.mem_append, List.map_cons, List.map_nil, List.mem_singleton] at hp
    obtain hp | rfl := hp
    · exact hm.1 p hp
    · rfl

@[simp] theorem dropPart_canonical {slot : Nat} {s : State} (hm : Canonical (memory s)) : Canonical (memory (dropPart slot s)) := by
  refine ⟨fun p hp => ?_, hm.2⟩
  obtain ⟨q, hq, rfl⟩ := List.mem_map.mp hp
  exact hm.1 _ (List.mem_map_of_mem (List.mem_of_mem_filter hq))

@[simp] theorem releasePart_canonical {p : Partition} {s : State} (hm : Canonical (memory s)) : Canonical (memory (releasePart p s)) := by
  unfold releasePart
  dsimp only
  split <;> simp [hm]

theorem evMemFreeRelease_canonical {slot : Nat} {s : State} (hm : Canonical (memory s)) : Canonical (memory (evMemFreeRelease slot s)) := by
  unfold evMemFreeRelease
  repeat' split
  all_goals simp [hm]

theorem evMemTransferEnd_canonical {cmd : Nat} {ok : Bool} {hostData : List Byte} {errors : List MemError} {s : State} (hm : Canonical (memory s)) :
    Canonical (memory (evMemTransferEnd cmd ok hostData errors s)) := by
  unfold evMemTransferEnd
  dsimp only
  repeat' split
  all_goals simp [hm]

/-! ### Modes and layouts -/

@[simp] theorem finishBefore_canonical {e : Nat} {s : State} (hm : Canonical (memory s)) : Canonical (memory (finishBefore e s)) :=
  decideBefore_canonical (catchAll_canonical (canonical_foldl hm fun _ _ h => drainEngine_canonical h))

@[simp] theorem stopProducts_canonical {reason e ring limit : Nat} {gap : Bool} {s0 : State} (hm : Canonical (memory s0)) :
    Canonical (memory (stopProducts reason e ring limit gap s0)) := by
  unfold stopProducts
  extract_lets s s1 s2 s3
  have h1 : Canonical (memory s1) := canonical_foldl (finishBefore_canonical hm) fun _ _ h => canonical_if (endFeeds_canonical h) h
  have h2 : Canonical (memory s2) := canonical_foldl h1 fun _ _ h => endGrid_canonical h
  have h3 : Canonical (memory s3) := canonical_foldl h2 fun _ _ h => endDensity_canonical h
  exact canonical_foldl h3 fun _ _ h => by simpa using h

@[simp] theorem startProducts_canonical {e : Nat} {keep : Bool} {s : State} (hm : Canonical (memory s)) :
    Canonical (memory (startProducts e keep s)) := by
  unfold startProducts
  extract_lets s1 s2 s3
  have h1 : Canonical (memory s1) := canonical_foldl hm fun _ _ h => canonical_if (startTuner_canonical h) h
  have h3 : Canonical (memory s3) := by simpa [s3, s2] using h1
  exact canonical_if hm (by simpa using h3)

@[simp] theorem changeMode_canonical {m : Mode} {e : Nat} {s : State} (hm : Canonical (memory s)) : Canonical (memory (changeMode m e s)) := by
  unfold changeMode
  extract_lets old s1 s2 s3 s4 s5
  have h1 : Canonical (memory s1) := canonical_if (intAct_canonical hm) hm
  have h2 : Canonical (memory s2) := canonical_if (by simp [h1]) h1
  have h3 : Canonical (memory s3) := by simpa [s3] using h2
  have h4 : Canonical (memory s4) := canonical_if (startProducts_canonical h3) h3
  have h5 : Canonical (memory s5) := canonical_if (intAct_canonical h4) h4
  exact canonical_if hm (by simp [h5])

@[simp] theorem unbindAll_canonical {h : Word} {e : Nat} {s0 : State} (hm : Canonical (memory s0)) : Canonical (memory (unbindAll h e s0)) := by
  unfold unbindAll
  extract_lets s s1 s2 s3 s4 s5 b s6 s7 s8
  have h1 : Canonical (memory s1) := canonical_foldl (decideTo_canonical hm) fun _ _ h => canonical_if (by simp [h]) h
  have h2 : Canonical (memory s2) := canonical_foldl h1 fun _ _ h => canonical_if (by simp [h]) h
  have h3 : Canonical (memory s3) := canonical_foldl h2 fun _ _ h => canonical_if (by simp [h]) h
  have h4 : Canonical (memory s4) := canonical_foldl h3 fun a r h =>
    canonical_foldl (s := endRun r.kind r.unit 2 e a) (by simpa using h) fun _ _ h => canonical_if (completeAll_canonical h) h
  have h5 : Canonical (memory s5) := canonical_foldl h4 fun _ _ h => canonical_if (by simp [h]) h
  have h6 : Canonical (memory s6) := canonical_if (by simp [b, h5]) h5
  have h8 : Canonical (memory s8) := by simpa [s8, s7] using h6
  clear_value s8
  exact canonical_if (by simpa using h8) h8

theorem layoutSlot_canonical {m : Mode} {e slot : Nat} {r : State × Nat} (hm : Canonical (memory r.1)) :
    Canonical (memory (layoutSlot m e slot r).1) := by
  unfold layoutSlot
  dsimp only
  split
  · exact addRole_canonical hm
  · split
    · simpa using hm
    · split
      · exact hm
      · exact addRole_canonical (dropPart_canonical (unbindAll_canonical hm))

@[simp] theorem applyLayout_canonical {m : Mode} {e : Nat} {s : State} (hm : Canonical (memory s)) : Canonical (memory (applyLayout m e s).1) := by
  have fold (l : List Nat) : ∀ r : State × Nat, Canonical (memory r.1) →
      Canonical (memory (l.foldl (fun r i => layoutSlot m e (i + 1) r) r).1) := by
    induction l with
    | nil => exact fun _ h => h
    | cons i t ih => exact fun r h => ih _ (layoutSlot_canonical h)
  exact fold (List.range 7) (s, 0) hm

/-! ### Breaks in the numbering -/

@[simp] theorem gapInt_canonical {u : Nat} {step : Bool} {s : State} (hm : Canonical (memory s)) : Canonical (memory (gapInt u step s)) := by
  simp [gapInt, hm]

@[simp] theorem gapStop_canonical {u reason ring stop : Nat} {step : Bool} {s0 : State} (hm : Canonical (memory s0)) :
    Canonical (memory (gapStop u reason ring stop step s0)) := by
  unfold gapStop
  extract_lets s s1 s2
  have h : Canonical (memory s) := gapInt_canonical (finishBefore_canonical hm)
  have h1 : Canonical (memory s1) := by simp [s1, h]
  clear_value s1
  simp [s2, ↓memory_mk, h1]

@[simp] theorem settleOld_canonical {s : State} (hm : Canonical (memory s)) : Canonical (memory (settleOld s)) :=
  show Canonical (memory (settlePieces _)) by
    rw [settlePieces_memory]
    exact canonical_foldl hm fun _ _ h => completeAll_canonical h

@[simp] theorem renumber_canonical {v : Nat} {s0 : State} (hm : Canonical (memory s0)) : Canonical (memory (renumber v s0)) :=
  show Canonical (memory (stepSlots (settleOld s0))) by simp [hm]

@[simp] theorem gapStart_canonical {v : Nat} {s : State} (hm : Canonical (memory s)) : Canonical (memory (gapStart v s)) := by
  simp [gapStart, ↓memory_mk, hm]

@[simp] theorem evUnlockDetected_canonical {k : Nat} {jrem : ℤ} {s : State} (hm : Canonical (memory s)) :
    Canonical (memory (evUnlockDetected k jrem s)) := by
  unfold evUnlockDetected
  split
  · exact hm
  · extract_lets u x step cmd dac s0 s1 s2 s3
    have h0 : Canonical (memory s0) := by simp [s0, hm]
    clear_value step cmd dac s0
    have h1 : Canonical (memory s1) := by
      unfold s1
      split
      · simp [↓memory_mk, h0]
      · exact h0
    have h2 : Canonical (memory s2) := by simp [s2, h1]
    clear_value s2
    simp [s3, ↓memory_mk, h2]

@[simp] theorem evStepBoundary_canonical {measured : ℤ} {s : State} (hm : Canonical (memory s)) :
    Canonical (memory (evStepBoundary measured s)) := by
  unfold evStepBoundary
  repeat' split
  all_goals simp [↓memory_mk, hm]

@[simp] theorem firstLock_canonical {edge band : Nat} {s : State} (hm : Canonical (memory s)) : Canonical (memory (firstLock edge band s)) := by
  simp [firstLock, ↓memory_mk, hm]

@[simp] theorem evLockConfirmed_canonical {edge band : Nat} {s : State} (hm : Canonical (memory s)) :
    Canonical (memory (evLockConfirmed edge band s)) := by
  unfold evLockConfirmed
  dsimp only
  repeat' split
  all_goals simp [↓memory_mk, hm]

@[simp] theorem startSpllConfig_canonical {c : Cmd} {s : State} (hm : Canonical (memory s)) : Canonical (memory (startSpllConfig c s)) := by
  simp [startSpllConfig, ↓memory_mk, hm]

@[simp] theorem captureApply_canonical {w : SyncWait} {n : Nat} {s : State} (hm : Canonical (memory s)) :
    Canonical (memory (captureApply w n s)) := by simp [captureApply, hm]

@[simp] theorem evSyncEdgeCapture_canonical {pps : Bool} {s : State} (hm : Canonical (memory s)) :
    Canonical (memory (evSyncEdgeCapture pps s)) :=
  canonical_if hm (canonical_foldl (by simpa using hm) fun _ _ h =>
    canonical_if (by simpa using h) (canonical_if (by simp [h]) (by simpa using h)))

@[simp] theorem rephaseApply_canonical {x : ApplyCapture} {s : State} (hm : Canonical (memory s)) : Canonical (memory (rephaseApply x s)) := by
  simp [rephaseApply, ↓memory_mk, hm]

@[simp] theorem evTimebaseRephase_canonical {edge band : Nat} {s : State} (hm : Canonical (memory s)) :
    Canonical (memory (evTimebaseRephase edge band s)) := by
  unfold evTimebaseRephase
  dsimp only
  repeat' split
  all_goals simp [↓memory_mk, hm]

/-! ### The pair -/

@[simp] theorem leaveMirror_canonical {e : Nat} {s : State} (hm : Canonical (memory s)) : Canonical (memory (leaveMirror e s)) := by
  simp [leaveMirror, ↓memory_mk, hm]

@[simp] theorem linkDown_canonical {s : State} (hm : Canonical (memory s)) : Canonical (memory (linkDown s)) := by
  unfold linkDown
  dsimp only
  split <;> simp [hm]

@[simp] theorem evPairLinkDown_canonical {s : State} (hm : Canonical (memory s)) : Canonical (memory (evPairLinkDown s)) := by
  simp [evPairLinkDown, hm]

@[simp] theorem evForwardedCommand_canonical {f : Forwarded} {s : State} (hm : Canonical (memory s)) :
    Canonical (memory (evForwardedCommand f s)) := by
  unfold evForwardedCommand
  dsimp only
  repeat' split
  all_goals simp [↓memory_mk, hm]

/-- The partitions that a snapshot brings are zeroed (R597). -/
@[simp] theorem takeSnapshot_canonical {fwd : Cmd → Bool} {x : Snapshot} {s : State} (hm : Canonical (memory s)) :
    Canonical (memory (takeSnapshot fwd x s)) := by
  refine ⟨fun p hp => ?_, hm.2⟩
  have hp : p ∈ (bareParts x.pool.parts).map fun p => (p.slot, p.data) := hp
  simp only [bareParts, List.mem_map] at hp
  obtain ⟨-, ⟨q, -, rfl⟩, rfl⟩ := hp
  rfl

@[simp] theorem evSnapshotReceive_canonical {fwd : Cmd → Bool} {x : Snapshot} {s : State} (hm : Canonical (memory s)) :
    Canonical (memory (evSnapshotReceive fwd x s)) := by
  unfold evSnapshotReceive
  dsimp only
  repeat' split
  all_goals simp [hm]

/-! ### The flash -/

/-- A change of the firmware store that keeps the form of its slots. -/
theorem setFw_canonical {f : Firmware → Firmware} {s : State} (hm : Canonical (memory s))
    (h : (∀ l ∈ flashCells s.hub.fw, cellsWf l = true) → ∀ l ∈ flashCells (f s.hub.fw), cellsWf l = true) :
    Canonical (memory (setFw f s)) :=
  ⟨hm.1, h hm.2⟩

theorem flashWrite_wf {o : Nat} {l : List Byte} {f : FlashSlot} (h : cellsWf f.data = true) : cellsWf (flashWrite o l f).data = true :=
  cellsWf_writeCells _ _ h

/-- A change of one slot that keeps its form. -/
theorem modAt_flash_wf {l : List FlashSlot} {i : Nat} {f : FlashSlot → FlashSlot} (hl : ∀ x ∈ l.map FlashSlot.data, cellsWf x = true)
    (hf : ∀ x : FlashSlot, cellsWf x.data = true → cellsWf (f x).data = true) : ∀ x ∈ (modAt l i f).map FlashSlot.data, cellsWf x = true := by
  simp only [List.forall_mem_map, List.forall_mem_iff_getElem, modAt, List.length_modify, List.getElem_modify] at hl ⊢
  intro j hj
  split_ifs
  · exact hf _ (hl j hj)
  · exact hl j hj

theorem evFlashEraseEnd_canonical {s : State} (hm : Canonical (memory s)) : Canonical (memory (evFlashEraseEnd s)) := by
  unfold evFlashEraseEnd
  split
  · exact hm
  · dsimp only
    rw [completeId_memory]
    exact setFw_canonical hm fun h => modAt_flash_wf h fun _ _ => flashWrite_wf rfl

theorem fitFlash_canonical {x : FlashImage} {s : State} (hm : Canonical (memory s)) : Canonical (memory (fitFlash x s)) :=
  setFw_canonical hm fun _ => by
    simp only [flashCells, List.map_cons, List.map_nil, List.forall_mem_cons]
    exact ⟨flashWrite_wf rfl, flashWrite_wf rfl, nofun⟩

/-! ### Start-up, resets and firmware -/

@[simp] theorem runFirmware_canonical {slot : Nat} {s : State} (hm : Canonical (memory s)) : Canonical (memory (runFirmware slot s)) := by
  unfold runFirmware
  extract_lets s1
  have h1 : Canonical (memory s1) := hm
  rw [endFault_memory, memory_mk]
  exact applyLayout_canonical h1

@[simp] theorem bootNow_canonical {entry : Bool} {s : State} (hm : Canonical (memory s)) : Canonical (memory (bootNow entry s)) := by
  have hs : Canonical (memory (bootStart s)) := by rwa [bootStart_memory]
  rcases bootNow_cases entry s with h | ⟨slot, h | h⟩ <;> rw [h] <;> simp [bootMark_memory, hs]

theorem evBootStartTimeout_canonical {s : State} (hm : Canonical (memory s)) : Canonical (memory (evBootStartTimeout s)) := by
  unfold evBootStartTimeout
  extract_lets other v s1
  have h1 : Canonical (memory s1) := setFw_canonical hm fun h => by rwa [noteValid_data]
  exact canonical_if hm (canonical_if (by simp [h1]) (by simp [h1]))

@[simp] theorem reboot_canonical {s : State} (hm : Canonical (memory s)) : Canonical (memory (reboot s)) := by simp [reboot, hm]

/-- A reset leaves the flash alone, and drops all partitions. -/
theorem canonical_emptied {s t : State} (hm : Canonical (memory s)) (hp : t.pool.parts = []) (hf : flashCells t.hub.fw = flashCells s.hub.fw) :
    Canonical (memory t) := by
  refine ⟨fun p h => ?_, fun l h => hm.2 l ?_⟩
  · simp [memory, hp] at h
  · rwa [memory, ← hf]

theorem powerDown_canonical {s : State} (hm : Canonical (memory s)) : Canonical (memory (powerDown s)) := by
  refine canonical_emptied hm rfl ?_
  simp only [flashCells, powerDown, List.map_map]
  rfl

@[simp] theorem hubReset_canonical {kind : Nat} {s : State} (hm : Canonical (memory s)) : Canonical (memory (hubReset kind s)) :=
  canonical_emptied hm rfl rfl

@[simp] theorem resetAndBoot_canonical {kind : Nat} {s : State} (hm : Canonical (memory s)) : Canonical (memory (resetAndBoot kind s)) :=
  reboot_canonical (hubReset_canonical hm)

theorem compatRestart_canonical {level : Nat} {s : State} (hm : Canonical (memory s)) : Canonical (memory (compatRestart level s)) := by
  unfold compatRestart
  extract_lets r glob hub r1 dead
  have h1 : Canonical (memory r1) := canonical_emptied hm rfl rfl
  exact applyLayout_canonical (canonical_foldl h1 fun _ _ h => by simpa using h)

theorem evPowerOn_canonical {fit : Option FlashImage} {refOk : Bool} {band : Nat} {s : State} (hm : Canonical (memory s)) :
    Canonical (memory (evPowerOn fit refOk band s)) := by
  unfold evPowerOn
  extract_lets s0 s1
  have h0 : Canonical (memory s0) := powerDown_canonical hm
  have h1 : Canonical (memory s1) := by
    refine bootNow_canonical ?_
    clear_value s0
    cases fit with
    | none => exact h0
    | some x => exact fitFlash_canonical h0
  clear_value s1
  exact canonical_if (by simpa using h1) (canonical_if (firstLock_canonical (by simpa using h1)) h1)

theorem evResetNLow_canonical {s : State} (hm : Canonical (memory s)) : Canonical (memory (evResetNLow s)) :=
  have h1 : Canonical (memory (setHub (fun h => { h with resetLow := true }) s)) := by simpa using hm
  canonical_if hm (canonical_if (by rwa [setHub_memory rfl]) (hubReset_canonical h1))

theorem evResetNRelease_canonical {s : State} (hm : Canonical (memory s)) : Canonical (memory (evResetNRelease s)) :=
  have h1 : Canonical (memory (setHub (fun h => { h with resetLow := false }) s)) := by simpa using hm
  canonical_if hm (canonical_if h1 (reboot_canonical h1))

theorem evWatchdogExpiry_canonical {missed : Nat} {s : State} (hm : Canonical (memory s)) : Canonical (memory (evWatchdogExpiry missed s)) :=
  canonical_if hm (canonical_if hm (canonical_if (resetAndBoot_canonical (by simpa using hm)) (by simpa using hm)))

theorem evThermalTripClear_canonical {s : State} (hm : Canonical (memory s)) : Canonical (memory (evThermalTripClear s)) :=
  have h1 : Canonical (memory (hubReset 4 s)) := hubReset_canonical hm
  canonical_if hm (canonical_if (canonical_if h1 (reboot_canonical h1)) (by simpa using hm))

theorem evThermalTrip_canonical {input : Nat} {value : ℤ} {s : State} (hm : Canonical (memory s)) :
    Canonical (memory (evThermalTrip input value s)) := by
  unfold evThermalTrip
  extract_lets s1 s2 s3 s4
  have h1 : Canonical (memory s1) := by simpa [s1] using hm
  clear_value s1
  have h2 : Canonical (memory s2) := canonical_if (gapStop_canonical h1) h1
  have h4 : Canonical (memory s4) := by simp [s4, s3, h2]
  clear_value s4
  exact canonical_if hm (by rwa [setHub_memory rfl, setDisp_memory, setStrm_memory])

theorem recoveryBoot_canonical {c : Cmd} {s : State} (hm : Canonical (memory s)) : Canonical (memory (recoveryBoot c s)) := by
  unfold recoveryBoot
  extract_lets slot v s1
  have h1 : Canonical (memory s1) := setFw_canonical hm fun h => by rwa [noteValid_data]
  clear_value v s1
  refine canonical_if ?_ h1
  rw [setTime_memory]
  exact runFirmware_canonical (setFw_canonical h1 id)

/-! ### The debug port -/

@[simp] theorem poolWriteWord_canonical {p : Partition} {o : Nat} {v : Word} {s : State} (hm : Canonical (memory s)) :
    Canonical (memory (poolWriteWord p o v s)) := poolWrite_canonical hm

@[simp] theorem dbgStore_canonical {space addr : Nat} {v : Word} {begun : List Nat} {s : State} (hm : Canonical (memory s)) :
    Canonical (memory (dbgStore space addr v begun s)) := by
  unfold dbgStore
  repeat' split
  all_goals simp [hm]

@[simp] theorem evDbgWrite_canonical {space addr : Nat} {v : Word} {begun : List Nat} {s : State} (hm : Canonical (memory s)) :
    Canonical (memory (evDbgWrite space addr v begun s)) := by simp [evDbgWrite, hm]

@[simp] theorem evDctrl_canonical {p value : Nat} {begun : List Nat} {s : State} (hm : Canonical (memory s)) :
    Canonical (memory (evDctrl p value begun s)) := by simp [evDctrl, hm]

end Sys2Proof.Machine
end

section
/-! O58: the executions of the opcodes, the path of a command, every row, and every step keep the memories in canonical form. -/

namespace Sys2Proof.Machine

/-! ### Executions -/

/-- The execution of an opcode keeps the memories in canonical form. -/
def RunCanonical (sp : CmdSpec) : Prop := ∀ c e s, Canonical (memory s) → Canonical (memory (sp.run c e s).1)

theorem specSysCancel_canonical : RunCanonical specSysCancel := by
  intro c e s hm
  unfold specSysCancel
  dsimp only
  repeat' split
  all_goals exact hm

theorem specMemAlloc_canonical : RunCanonical specMemAlloc := by
  refine fun c e s hm => ⟨fun p hp => ?_, hm.2⟩
  simp only [memory, specMemAlloc, setPool, List.map_append, List.mem_append, List.map_cons, List.map_nil, List.mem_singleton] at hp
  obtain hp | rfl := hp
  · exact hm.1 p hp
  · rfl

theorem specMemFree_canonical : RunCanonical specMemFree := by
  intro c e s hm
  unfold specMemFree
  dsimp only
  repeat' split
  all_goals simp [hm]

theorem specMemQuery_canonical : RunCanonical specMemQuery := by
  intro c e s hm
  unfold specMemQuery
  dsimp only
  repeat' split
  all_goals exact hm

theorem specStrmMark_canonical : RunCanonical specStrmMark := by
  intro c e s hm
  unfold specStrmMark
  dsimp only
  repeat' split
  all_goals exact hm

theorem specStrmRewind_canonical : RunCanonical specStrmRewind := by
  intro c e s hm
  unfold specStrmRewind
  dsimp only
  repeat' split
  all_goals exact hm

theorem specMaintCancel_canonical : RunCanonical specMaintCancel := by
  intro c e s hm
  unfold specMaintCancel
  dsimp only
  split <;> simp [hm]

theorem specDispEnable_canonical : RunCanonical specDispEnable := by
  intro c e s hm
  unfold specDispEnable
  dsimp only
  repeat' split
  all_goals simp [hm]

theorem specPairLeave_canonical : RunCanonical specPairLeave := by
  intro c e s hm
  unfold specPairLeave
  dsimp only
  repeat' split
  all_goals simp [hm]

theorem specDiagReset_canonical : RunCanonical specDiagReset := by
  intro c e s hm
  unfold specDiagReset
  dsimp only
  split
  · exact resetAndBoot_canonical hm
  · exact hm

theorem specFwLoad_canonical : RunCanonical specFwLoad := by
  intro c e s hm
  unfold specFwLoad
  dsimp only
  split
  · exact setFw_canonical hm fun h => (noteValid_data ..).symm ▸ h
  · exact setFw_canonical hm fun h => modAt_flash_wf h fun _ => flashWrite_wf

theorem specFwActivate_canonical : RunCanonical specFwActivate := by
  intro c e s hm
  unfold specFwActivate
  dsimp only
  repeat' split
  · exact recoveryBoot_canonical hm
  · exact hm
  · exact setFw_canonical hm id

theorem specs00_canonical : ∀ sp ∈ specs00, RunCanonical sp := by
  simp only [specs00, List.forall_mem_cons]
  exact ⟨fun _ _ _ hm => hm,
    fun _ _ _ hm => by simp [specSysMode, apply_ite Prod.fst, ↓memory_mk, hm],
    fun _ _ _ hm => hm,
    specSysCancel_canonical,
    fun _ _ _ hm => hm,
    fun _ _ _ hm => hm,
    fun _ _ _ hm => hm,
    fun _ _ _ hm => canonical_if hm (compatRestart_canonical hm), nofun⟩

theorem specs01_canonical : ∀ sp ∈ specs01, RunCanonical sp := by
  simp only [specs01, List.forall_mem_cons]
  exact ⟨specMemAlloc_canonical,
    specMemFree_canonical,
    specMemQuery_canonical,
    fun _ _ _ hm => hm,
    fun _ _ _ hm => hm,
    fun _ _ _ hm => hm, nofun⟩

theorem specs02_canonical : ∀ sp ∈ specs02, RunCanonical sp := by
  simp only [specs02, List.forall_mem_cons]
  exact ⟨fun _ _ _ hm => by simp [specTimeSpllConfig, hm],
    fun _ _ _ hm => hm,
    fun _ _ _ hm => by simp [specTimeSetEpoch, hm],
    fun _ _ _ hm => hm,
    fun _ _ _ hm => hm,
    fun _ _ _ hm => by simp [specTimeRefResume, hm],
    fun _ _ _ hm => hm,
    fun _ _ _ hm => hm,
    fun _ _ _ hm => hm,
    fun _ _ _ hm => hm,
    fun _ _ _ hm => hm, nofun⟩

theorem specs03_canonical : ∀ sp ∈ specs03, RunCanonical sp := by
  simp only [specs03, List.forall_mem_cons]
  exact ⟨fun _ _ _ hm => hm,
    fun _ _ _ hm => canonical_foldl hm fun _ _ h => h,
    fun _ _ _ hm => canonical_foldl hm fun _ _ h => h,
    fun _ _ _ hm => hm,
    fun _ _ _ hm => by simp [specConvStatus, hm],
    fun _ _ _ hm => hm, nofun⟩

theorem specs04_canonical : ∀ sp ∈ specs04, RunCanonical sp := by
  simp only [specs04, List.forall_mem_cons]
  exact ⟨fun _ _ _ hm => hm,
    fun _ _ _ hm => hm,
    fun _ _ _ hm => by simp [specEqStatus, hm],
    fun _ _ _ hm => canonical_foldl hm fun _ _ h => configTuner_canonical h,
    fun _ _ _ hm => by simp [specTunerRetune, hm],
    fun _ _ _ hm => canonical_foldl hm fun _ _ h =>
      canonical_if h (canonical_if (changeTuner_canonical h) (canonical_if (startTuner_canonical h) h)),
    fun _ _ _ hm => by simp [specTunerStatus, hm], nofun⟩

theorem specs05_canonical : ∀ sp ∈ specs05, RunCanonical sp := by
  simp only [specs05, List.forall_mem_cons]
  exact ⟨fun _ _ _ hm => canonical_foldl hm fun _ _ h => regrid_canonical h,
    fun _ _ _ hm => canonical_foldl hm fun _ _ h => canonical_if h (regrid_canonical h),
    fun _ _ _ hm => canonical_foldl hm fun _ _ h => h,
    fun _ _ _ hm => hm,
    fun _ _ _ hm => by simp [specSpecStatus, hm], nofun⟩

theorem specs06_canonical : ∀ sp ∈ specs06, RunCanonical sp := by
  simp only [specs06, List.forall_mem_cons]
  exact ⟨fun _ _ _ hm => by simp [specDensConfig, hm],
    fun _ _ _ hm => canonical_foldl hm fun _ _ h => canonical_if h (densAct_canonical h),
    fun _ _ _ hm => canonical_foldl hm fun _ _ h => densAct_canonical h,
    fun _ _ _ hm => by simp [specDensStatus, hm],
    fun _ _ _ hm => by simp [specSpgmConfig, hm],
    fun _ _ _ hm => canonical_foldl hm fun _ _ h => canonical_if h (spgmAct_canonical h),
    fun _ _ _ hm => by simp [specSpgmStatus, hm], nofun⟩

theorem specs07_canonical : ∀ sp ∈ specs07, RunCanonical sp := by
  simp only [specs07, List.forall_mem_cons]
  exact ⟨fun _ _ _ hm => by simp [specTrigSlotConfig, hm],
    fun _ _ _ hm => by simp [specTrigArm, hm],
    fun _ _ _ hm => hm,
    fun _ _ _ hm => hm,
    fun _ _ _ hm => hm,
    fun _ _ _ hm => by simp [specTrigStatus, hm], nofun⟩

theorem specs08_canonical : ∀ sp ∈ specs08, RunCanonical sp := by
  simp only [specs08, List.forall_mem_cons]
  exact ⟨fun _ _ _ hm => by simp [specCapSource, hm],
    fun _ _ _ hm => by simp [specCapSheafConfig, hm],
    fun _ _ _ hm => by simp [specCapArm, hm],
    fun _ _ _ hm => by simp [specCapStatus, hm], nofun⟩

theorem specs09_canonical : ∀ sp ∈ specs09, RunCanonical sp := by
  simp only [specs09, List.forall_mem_cons]
  exact ⟨fun _ _ _ hm => by simp [specIntConfig, hm],
    fun _ _ _ hm => by simp [specIntEnable, hm],
    fun _ _ _ hm => by simp [specIntStatus, hm],
    fun _ _ _ hm => hm,
    fun _ _ _ hm => by simp [specThConfig, hm],
    fun _ _ _ hm => by simp [specThEnable, hm],
    fun _ _ _ hm => by simp [specThStatus, hm], nofun⟩

theorem specs0A_canonical : ∀ sp ∈ specs0A, RunCanonical sp := by
  simp only [specs0A, List.forall_mem_cons]
  exact ⟨fun _ _ _ hm => hm,
    fun _ _ _ hm => hm,
    fun _ _ _ hm => by simp [specStrmConfig, ↓memory_mk, hm],
    fun _ _ _ hm => by simp [specStrmEnable, hm],
    specStrmMark_canonical,
    specStrmRewind_canonical,
    fun _ _ _ hm => by simp [specStrmStatus, hm],
    fun _ _ _ hm => by simp [specStrmPortStatus, hm],
    fun _ _ _ hm => hm, nofun⟩

theorem specs0B_canonical : ∀ sp ∈ specs0B, RunCanonical sp := by
  simp only [specs0B, List.forall_mem_cons]
  exact ⟨fun _ _ _ hm => hm,
    fun _ _ _ hm => hm,
    fun _ _ _ hm => by simp [specPkStatus, hm], nofun⟩

theorem specs0C_canonical : ∀ sp ∈ specs0C, RunCanonical sp := by
  simp only [specs0C, List.forall_mem_cons]
  exact ⟨fun _ _ _ hm => by simp [specMqConfig, hm],
    fun _ _ _ hm => by simp [specMqRead, apply_ite Prod.fst, hm],
    fun _ _ _ hm => by simp [specMqPut, apply_ite Prod.fst, hm],
    fun _ _ _ hm => by simp [specMqFlush, hm],
    fun _ _ _ hm => by simp [specMqStatus, hm], nofun⟩

theorem specs0D_canonical : ∀ sp ∈ specs0D, RunCanonical sp := by
  simp only [specs0D, List.forall_mem_cons]
  exact ⟨fun _ _ _ hm => hm,
    fun _ _ _ hm => hm,
    fun _ _ _ hm => by simp [specTdcArm, apply_ite Prod.fst, hm],
    fun _ _ _ hm => hm,
    fun _ _ _ hm => by simp [specTdcStatus, hm], nofun⟩

theorem specs0E_canonical : ∀ sp ∈ specs0E, RunCanonical sp := by
  simp only [specs0E, List.forall_mem_cons]
  exact ⟨fun _ _ _ hm => hm,
    fun _ _ _ hm => by simp [specMcSequence, hm],
    fun _ _ _ hm => by simp [specMcConvert, apply_ite Prod.fst, hm],
    fun _ _ _ hm => by simp [specMcRead, apply_ite Prod.fst, hm],
    fun _ _ _ hm => by simp [specMcStatus, hm], nofun⟩

theorem specs0F_canonical : ∀ sp ∈ specs0F, RunCanonical sp := by
  simp only [specs0F, List.forall_mem_cons]
  exact ⟨fun _ _ _ hm => by simp [specCalibMeasure, apply_ite Prod.fst, hm],
    fun _ _ _ hm => hm,
    fun _ _ _ hm => hm,
    fun _ _ _ hm => by simp [specMaintStart, apply_ite Prod.fst, hm],
    specMaintCancel_canonical,
    fun _ _ _ hm => by simp [specMaintStatus, hm], nofun⟩

theorem specs10_canonical : ∀ sp ∈ specs10, RunCanonical sp := by
  simp only [specs10, List.forall_mem_cons]
  exact ⟨fun _ _ _ hm => hm,
    specDispEnable_canonical,
    fun _ _ _ hm => hm,
    fun _ _ _ hm => hm,
    fun _ _ _ hm => by simp [specDispCommit, hm],
    fun _ _ _ hm => hm,
    fun _ _ _ hm => by simp [specDispStatus, hm], nofun⟩

theorem specs11_canonical : ∀ sp ∈ specs11, RunCanonical sp := by
  simp only [specs11, List.forall_mem_cons]
  exact ⟨fun _ _ _ hm => by simp [specPairConfig, hm],
    fun _ _ _ hm => by simp [specPairJoin, apply_ite Prod.fst, ↓memory_mk, hm],
    specPairLeave_canonical,
    fun _ _ _ hm => by simp [specPairSwitch, apply_ite Prod.fst, hm],
    fun _ _ _ hm => by simp [specPairTakeover, hm],
    fun _ _ _ hm => by simp [specPairStatus, hm], nofun⟩

theorem specs12_canonical : ∀ sp ∈ specs12, RunCanonical sp := by
  simp only [specs12, List.forall_mem_cons]
  exact ⟨specDiagReset_canonical,
    fun _ _ _ hm => by simp [specDiagFault, ↓memory_mk, hm],
    fun _ _ _ hm => hm,
    fun _ _ _ hm => by simp [specBbRead, apply_ite Prod.fst, hm],
    fun _ _ _ hm => by simp [specBbFreeze, hm],
    fun _ _ _ hm => hm,
    fun _ _ _ hm => hm, nofun⟩

theorem specs13_canonical : ∀ sp ∈ specs13, RunCanonical sp := by
  simp only [specs13, List.forall_mem_cons]
  exact ⟨fun _ _ _ hm => hm,
    specFwLoad_canonical,
    fun _ _ _ hm => setFw_canonical hm fun h => by rwa [noteValid_data],
    specFwActivate_canonical, nofun⟩

theorem allSpecs_canonical : ∀ sp ∈ allSpecs, RunCanonical sp := by
  unfold allSpecs
  simp only [List.forall_mem_append, and_assoc]
  exact ⟨specs00_canonical, specs01_canonical, specs02_canonical, specs03_canonical, specs04_canonical, specs05_canonical,
    specs06_canonical, specs07_canonical, specs08_canonical, specs09_canonical, specs0A_canonical, specs0B_canonical,
    specs0C_canonical, specs0D_canonical, specs0E_canonical, specs0F_canonical, specs10_canonical, specs11_canonical,
    specs12_canonical, specs13_canonical⟩

/-- An opcode without a row answers, and does no more. -/
theorem specAny_canonical (opcode : Nat) : RunCanonical (specAny opcode) := by
  unfold specAny
  cases h : specOf opcode with
  | some sp => exact allSpecs_canonical sp (List.mem_of_find?_eq_some h)
  | none => exact fun _ _ _ hm => hm

/-! ### The path of a command -/

theorem repliesFirst_canonical {f : State → State} (hf : ∀ a, Canonical (memory a) → Canonical (memory (f a))) {s : State}
    (hm : Canonical (memory s)) : Canonical (memory (repliesFirst f s)) := by
  unfold repliesFirst
  split
  · exact hf s hm
  · rw [sendAside_memory]
    exact hf _ hm

theorem runNow_canonical {sp : CmdSpec} (h : RunCanonical sp) (c : Cmd) {s : State} (hm : Canonical (memory s)) :
    Canonical (memory (runNow sp c s)) :=
  repliesFirst_canonical (fun a ha => by simpa using h c a.index a ha) hm

theorem applyNow_canonical {sp : CmdSpec} (h : RunCanonical sp) (c : Cmd) (idx : Nat) {s : State} (hm : Canonical (memory s)) :
    Canonical (memory (applyNow sp c idx s)) :=
  repliesFirst_canonical (fun a ha => by simpa using h c idx a ha) hm

theorem startCmd_canonical {sp : CmdSpec} (h : RunCanonical sp) (c : Cmd) {s : State} (hm : Canonical (memory s)) :
    Canonical (memory (startCmd sp c s)) := by
  unfold startCmd
  dsimp only
  split
  · simpa using hm
  · split
    · simpa using hm
    · split
      · simpa using hm
      · exact runNow_canonical h _ hm

theorem startAny_canonical (c : Cmd) {s : State} (hm : Canonical (memory s)) : Canonical (memory (startAny c s)) := by
  unfold startAny
  split
  · next hsp =>
    split
    · simpa using hm
    · exact startCmd_canonical (allSpecs_canonical _ (List.mem_of_find?_eq_some hsp)) c hm
  · simpa using hm

theorem pump_canonical (n : Nat) {s : State} (hm : Canonical (memory s)) : Canonical (memory (pump n s)) := by
  induction n generalizing s with
  | zero => exact hm
  | succ n ih =>
    unfold pump
    split
    · exact hm
    · split
      · exact ih (startAny_canonical _ hm)
      · exact hm

theorem fireHeld_canonical {sp : CmdSpec} (h : RunCanonical sp) (c : Cmd) {s : State} (hm : Canonical (memory s)) :
    Canonical (memory (fireHeld sp c s)) := by
  unfold fireHeld
  dsimp only
  split
  · exact applyNow_canonical h c _ hm
  · simpa using hm

theorem finish_canonical (old : State) {s : State} (hm : Canonical (memory s)) : Canonical (memory (finish old s)) := by
  have h := pump_canonical (yieldFaults old s).cmds.length (s := yieldFaults old s) (by simpa using hm)
  simpa [finish] using h

/-! ### Rows -/

theorem memory_of_putNotice {d : Nat} {e : Entry} {s a : State} {b : Bool} (h : putNotice d e s = (a, b)) : memory a = memory s := by
  rw [← putNotice_memory d e s, h]

@[simp] theorem evNoticeDelivery_memory (d : Nat) (s : State) : memory (evNoticeDelivery d s) = memory s := by
  unfold evNoticeDelivery
  dsimp only
  split
  · rfl
  · split
    · split <;> next h => simp [memory_of_putNotice h]
    · split
      · rfl
      · split <;> next h => simp [memory_of_putNotice h]

/-- If the memories of `s` are in canonical form, so are those of every outcome. -/
def KeepsMemory (s : State) (o : Host.Outcome State Fault Refusal) : Prop := Canonical (memory s) → ∀ t, o = .next t → Canonical (memory t)

theorem keepsMemory_next {s t : State} (h : Canonical (memory s) → Canonical (memory t)) : KeepsMemory s (.next t) :=
  fun hm _ ht => Host.Outcome.next.inj ht ▸ h hm

theorem direct_keepsMemory {f : State → State} {s : State} (hf : Canonical (memory s) → Canonical (memory (f s))) :
    KeepsMemory s (.next (finish s (f s))) := keepsMemory_next fun hm => finish_canonical s (hf hm)

theorem event_keepsMemory {f : State → State} {k : Nat} (s : State) (hf : ∀ {a}, Canonical (memory a) → Canonical (memory (f a))) :
    KeepsMemory s (runEvent f k s) :=
  keepsMemory_next fun hm => finish_canonical s (repliesFirst_canonical (fun _ => hf) (by simpa using hm))

/-- An event that writes no byte. -/
theorem event_keepsMemory_of_memory {f : State → State} {k : Nat} (s : State) (hf : ∀ a, memory (f a) = memory a) :
    KeepsMemory s (runEvent f k s) := event_keepsMemory s fun {a} ha => (hf a).symm ▸ ha

theorem row_keepsMemory (sp : CmdSpec) (k : Nat) (p : Packet) (s : State) : KeepsMemory s (runRow sp k p s) :=
  event_keepsMemory_of_memory s fun _ => by simp

theorem fireRow_keepsMemory (kind : Cmd → Bool) (s : State) : KeepsMemory s (fireRow kind s) := by
  unfold fireRow
  dsimp only
  split
  · exact keepsMemory_next id
  · split
    · exact event_keepsMemory s (fireHeld_canonical (specAny_canonical _) _)
    · exact keepsMemory_next id

theorem evSwitchIndex_keepsMemory (w : Nat) (s : State) : KeepsMemory s (evSwitchIndex w s) := by
  unfold evSwitchIndex
  split
  · exact fireRow_keepsMemory _ s
  · exact event_keepsMemory_of_memory s fun _ => mirrorSwitch_memory ..

/-- A row of a command only submits it; of the events, those that write bytes, change the layout, or reset the device are named one by one. -/
theorem exec_keepsMemory (s : State) : ∀ i, KeepsMemory s (exec i s)
  | .memFreeRelease .. => event_keepsMemory s evMemFreeRelease_canonical
  | .memTransferEnd .. => event_keepsMemory s evMemTransferEnd_canonical
  | .unlockDetected .. => event_keepsMemory s evUnlockDetected_canonical
  | .syncEdgeCapture .. => event_keepsMemory s evSyncEdgeCapture_canonical
  | .spectrumDone .. => event_keepsMemory s evSpectrumDone_canonical
  | .densityFrameClose .. => event_keepsMemory s evDensityFrameClose_canonical
  | .decayStep .. => event_keepsMemory s evDecayStep_canonical
  | .trigDecide .. => event_keepsMemory s evTrigDecide_canonical
  | .segmentClose .. => event_keepsMemory s evSegmentClose_canonical
  | .intSetAccumulate .. => event_keepsMemory s evIntSetAccumulate_canonical
  | .intFrameClose .. => event_keepsMemory s evIntFrameClose_canonical
  | .strmPacketGenerate .. => event_keepsMemory s evStrmPacketGenerate_canonical
  | .pkJobEnd .. => event_keepsMemory s evPkJobEnd_canonical
  | .mqItemAccept .. => event_keepsMemory s evMqItemAccept_canonical
  | .mqLingerExpiry .. => event_keepsMemory s evMqLingerExpiry_canonical
  | .pairLinkDown .. => event_keepsMemory s evPairLinkDown_canonical
  | .forwardedCommand .. => event_keepsMemory s evForwardedCommand_canonical
  | .snapshotReceive .. => event_keepsMemory s evSnapshotReceive_canonical
  | .bootStartTimeout .. => event_keepsMemory s evBootStartTimeout_canonical
  | .thermalTripEvent .. => event_keepsMemory s evThermalTrip_canonical
  | .flashEraseEnd .. => event_keepsMemory s evFlashEraseEnd_canonical
  | .dbgWrite .. => event_keepsMemory s evDbgWrite_canonical
  | .dctrlHalt .. => event_keepsMemory s evDctrl_canonical
  | .dctrlResume .. => event_keepsMemory s evDctrl_canonical
  | .dctrlStep .. => event_keepsMemory s evDctrl_canonical
  | .resetNRelease .. => event_keepsMemory s evResetNRelease_canonical
  | .pwrGoodLow .. => event_keepsMemory s powerDown_canonical
  | .resetNLow .. => event_keepsMemory s evResetNLow_canonical
  | .watchdogExpiry .. => event_keepsMemory s evWatchdogExpiry_canonical
  | .thermalTripClear .. => event_keepsMemory s evThermalTripClear_canonical
  | .powerOn .. => direct_keepsMemory evPowerOn_canonical
  | .lockConfirmed .. => direct_keepsMemory evLockConfirmed_canonical
  | .stepBoundary .. => direct_keepsMemory evStepBoundary_canonical
  | .timebaseRephase .. => direct_keepsMemory evTimebaseRephase_canonical
  | .switchIndex .. => evSwitchIndex_keepsMemory _ s
  | .timedExecute .. | .scheduledEffect .. | .modeChangeEffect .. => fireRow_keepsMemory _ s
  | .noticeDelivery .. | .sqTailDoorbell .. | .rqHeadWrite .. | .qpEnable .. | .qpDisable .. | .gintStatusClear .. | .indexLoRead ..
    | .registerWrite .. | .commandFetch .. | .coalTimeExpiry .. | .spiSubmit .. | .spiReadReply .. | .spiReadStatus .. | .ctlportDatagram ..
    | .scrub .. | .lockAttemptFail .. | .refMissingEdge .. | .refFreqCheck .. | .refQualExpiry .. | .jumpKnown .. | .ppsDisambigTimeout ..
    | .slewEnd .. | .timeSyncTimeout .. | .ppsInEdge .. | .ppsMissingTimeout .. | .ppsOutPulse .. | .overRange .. | .sliceSwap ..
    | .sliceMonitorWindow .. | .eqHeldStart .. | .strmPacketSend .. | .hostRingConsPoll .. | .rewindDone .. | .arpRequest ..
    | .neighbourSolicitation .. | .ptpFrameRx .. | .pauseFrame .. | .otherFrame .. | .ethLinkChange .. | .egressDownTimeout .. | .mqReadComplete ..
    | .mqReadTimeout .. | .tdcEdge .. | .tdcMeasureTimeout .. | .tdcWindowClose .. | .probeLaunch .. | .tdcStuckTimeout .. | .tdcDwellEnd ..
    | .tdcTablesReady .. | .mcConversionEnd .. | .mcSystemPass .. | .activityStart .. | .tdcCalPriority .. | .calMeasureEnd .. | .scrubPassEnd ..
    | .dispFrameStart .. | .dispLatchLine .. | .scanoutEnd .. | .teEdge .. | .teLostTimeout .. | .panelCmdSend .. | .panelRespTimeout ..
    | .heartbeatSend .. | .heartbeatReceive .. | .heartbeatTimeout .. | .liveStall .. | .pairLinkTrained .. | .pairLaneFail ..
    | .mirrorStatusReturn .. | .mirrorStateReceive .. | .yieldReceive .. | .takeoverRequestReceive .. | .joinIndex .. | .pairRelayPacket ..
    | .pcieReset .. | .lockstepMismatch .. | .coreSelftestEnd .. | .tileLinkSeqFail .. | .tileLinkRetrain .. | .tileRetrainEnd ..
    | .fwImageReady .. | .tapReset .. | .tapInstructionLoad .. | .gauntletSelect .. | .gauntletResponse .. | .dbgRead .. | .dbgCtrlLock ..
    | .breakpointHit .. | .watchpointHit .. | .refEdgesReturn .. | .pcieLinkUp .. | .partnerStrobeEdge .. | .partnerStrobeTimeout ..
    | .levelInactive .. | .hostRingIntTime .. =>
    event_keepsMemory_of_memory s fun _ => by simp
  | .sysNop .. | .sysMode .. | .sysNoticeRoute .. | .sysCancel .. | .sysGetIndex .. | .sysCtlport .. | .sysGetMode .. | .sysCompat ..
    | .memAlloc .. | .memFree .. | .memQuery .. | .memScrub .. | .memRead .. | .memWrite .. | .timeSpllConfig .. | .timeStatus ..
    | .timeSetEpoch .. | .timeSync .. | .timeRefPolicy .. | .timeRefResume .. | .timePpsConfig .. | .timeOffset .. | .timeGetOffset ..
    | .timePpsRead .. | .timePtpAdjust .. | .convConfig .. | .convAtten .. | .convInput .. | .convRotation .. | .convStatus .. | .convAttenInfo ..
    | .eqLoad .. | .eqSwap .. | .eqStatus .. | .tunerConfig .. | .tunerRetune .. | .tunerEnable .. | .tunerStatus .. | .specConfig ..
    | .specEnable .. | .specOutput .. | .specWindowLoad .. | .specStatus .. | .densConfig .. | .densEnable .. | .densClear .. | .densStatus ..
    | .spgmConfig .. | .spgmEnable .. | .spgmStatus .. | .trigSlotConfig .. | .trigArm .. | .trigMaskConfig .. | .trigMaskLoad .. | .trigForce ..
    | .trigStatus .. | .capSource .. | .capSheafConfig .. | .capArm .. | .capStatus .. | .intConfig .. | .intEnable .. | .intStatus ..
    | .intHeader .. | .thConfig .. | .thEnable .. | .thStatus .. | .strmPortConfig .. | .strmDest .. | .strmConfig .. | .strmEnable ..
    | .strmMark .. | .strmRewind .. | .strmStatus .. | .strmPortStatus .. | .strmPtpSend .. | .pkConfig .. | .pkEncode .. | .pkStatus ..
    | .mqConfig .. | .mqRead .. | .mqPut .. | .mqFlush .. | .mqStatus .. | .tdcInput .. | .tdcSlotConfig .. | .tdcArm .. | .tdcRead ..
    | .tdcStatus .. | .mcInput .. | .mcSequence .. | .mcConvert .. | .mcRead .. | .mcStatus .. | .calibMeasure .. | .calibSliceRead ..
    | .calibTdcRead .. | .maintStart .. | .maintCancel .. | .maintStatus .. | .dispTiming .. | .dispEnable .. | .dispLayer .. | .dispPalette ..
    | .dispCommit .. | .dispPanelCmd .. | .dispStatus .. | .pairConfig .. | .pairJoin .. | .pairLeave .. | .pairSwitch .. | .pairTakeover ..
    | .pairStatus .. | .diagReset .. | .diagFault .. | .diagEcc .. | .bbRead .. | .bbFreeze .. | .bbClear .. | .diagWatchdog .. | .fwStatus ..
    | .fwLoad .. | .fwVerify .. | .fwActivate .. => row_keepsMemory _ _ _ s

/-- Settles O58: a byte enters a memory by `writeCells`, which keeps the canonical form (`cellsWf_writeCells`), a new partition is empty, and an erase
empties a flash slot. -/
theorem memoryKept : Obligations.MemoryKept := by
  intro s t hs ht
  rw [memWf_iff] at hs ⊢
  unfold step at ht
  split at ht
  · exact Host.Outcome.next.inj ht ▸ hs
  · next c rest _ => exact exec_keepsMemory { s with pending := rest } c hs t ht

end Sys2Proof.Machine
end

section
/-! O5: the commands of the Memory group (R97-R99, R112-R116). -/

namespace Sys2Proof.Machine

/-- Settles O5, each command by its execution, which leaves the core of the state. -/
theorem memoryCommands : Obligations.MemoryCommands := by
  unfold Obligations.MemoryCommands
  refine ⟨?_, fun q => ?_, fun q => ?_, fun q => ?_, ?_, ?_, ?_, ?_⟩
  · exact does_core (fun _ _ _ => rfl) rfl (fun _ => rfl) (fun _ _ _ _ _ => rfl) fun _ _ => core_mk ..
  · refine does_core (fun _ _ _ => rfl) rfl (fun _ => rfl) (fun c s _ _ h => ?_) fun _ s => releasePart_core q s
    obtain ⟨hpart, href⟩ : partForUse (opened s) (c.word 0) = some q ∧ refsOf (opened s) q.handle = 0 := h
    simp [specMemFree, hpart, href]
  · refine defers_core (fun _ _ _ => rfl) rfl (fun _ => rfl) (fun c s _ _ h => ?_) (fun _ _ => rfl) (fun _ _ => rfl) (fun _ _ => rfl) fun _ _ => rfl
    obtain ⟨hpart, href⟩ : partForUse (opened s) (c.word 0) = some q ∧ refsOf (opened s) q.handle ≠ 0 := h
    simp [specMemFree, hpart, href]
  · refine does_core (fun _ _ _ => rfl) rfl (fun _ => rfl) (fun c s _ _ h => ?_) fun _ _ => rfl
    have hpart : partByHandle (opened s) (c.word 0) = some q := h
    simp only [specMemQuery, hpart, leavesAll]
  · refine does_core (fun _ _ _ => rfl) rfl (fun _ => rfl) (fun c s _ _ h => ?_) fun _ _ => rfl
    have hpart : partByHandle (opened s) (c.word 0) = none := h
    simp only [specMemQuery, hpart, leavesAll]
  · exact does_core (fun _ _ _ => rfl) rfl (fun _ => rfl) (fun _ _ _ _ _ => rfl) fun _ _ => core_mk ..
  · exact begins_core (fun _ _ _ => rfl) rfl (fun _ => rfl) (fun _ _ _ _ _ => rfl) fun _ _ => core_mk ..
  · exact begins_core (fun _ _ _ => rfl) rfl (fun _ => rfl) (fun _ _ _ _ _ => rfl) fun _ _ => core_mk ..

end Sys2Proof.Machine
end

section
/-! O21: SYS_MODE (R106-R110). -/

namespace Sys2Proof.Machine

theorem setRunMode_time (m : Mode) (s : State) : (setRunMode m s).time = s.time := by
  unfold setRunMode
  split <;> rfl

theorem setRunMode_role (m : Mode) (s : State) : (setRunMode m s).pair.role = s.pair.role := by
  unfold setRunMode
  split <;> rfl

theorem sysMode_time (c : Cmd) (e : Nat) (s : State) : (specSysMode.run c e s).1.time = s.time := by
  dsimp -zeta only [specSysMode]
  extract_lets m old s0 p s1 r
  have h0 : s0.time = s.time := by
    obtain ⟨u, hu, hc⟩ := changeMode_ends m e s
    rw [hc.time, setRunMode_time, hu.time]
  clear_value s0
  have h1 : s1.time = s.time := by
    unfold s1
    split <;> exact h0
  clear_value s1
  unfold r
  split
  · exact (ends_applyLayout m e s1).time.trans h1
  · exact h1

theorem sysMode_role (c : Cmd) (e : Nat) (s : State) : (specSysMode.run c e s).1.pair.role = s.pair.role := by
  have h := sysMode_stance c e s
  simp only [stance, Prod.mk.injEq] at h
  obtain ⟨-, -, hrole, -⟩ := h
  exact hrole.trans (setRunMode_role ..)

/-- From the execution of a SYS_MODE that is due to the state after its row, commands only end. -/
theorem sysMode_ends {c : Cmd} {e : Nat} {i : Instr} {s : State} (h : due specSysMode c e s = true) (hi : firesIt c i) :
    ∃ t, exec i s = .next t ∧ Ends (specSysMode.run c e (opened (passTo e s))).1 t := by
  have hd := due_iff.mp h
  have hE : c.eff = some e := by simp [Cmd.eff, hd.phase]
  have hfire : fireHeld specSysMode c (opened (passTo e s)) = settleFate c e (specSysMode.run c e (opened (passTo e s))) := by
    have hmode : modeOk specSysMode c (runMode (opened (passTo e s))) = true := hd.mode
    simp only [fireHeld, hE, Option.getD_some, hmode, if_true, applyNow, repliesFirst_nested]
  have hends : Ends (specSysMode.run c e (opened (passTo e s))).1 (fireHeld specSysMode c (opened (passTo e s))) := hfire ▸ ends_complete ..
  obtain ⟨t, hrun, ht, -⟩ := event_calm (f := fireHeld specSysMode c)
    ((sysMode_calm ((calm_quiet hd.quiet hd.alone).core (opened_core _))).ends hends)
  exact ⟨t, (fire_row hd.first hd.phase hd.opcode hd.delivers rfl hi).trans hrun, hends.trans ht⟩

/-- Settles O21: SYS_MODE is held (`holds_of`), and what its execution does to the mode (`sysMode_runMode`), the timebase and the role stands
after its
row. -/
theorem systemMode : Obligations.SystemMode := by
  unfold Obligations.SystemMode
  refine ⟨holds_of (fun _ _ _ => rfl) rfl (by decide) fun _ => rfl, fun c e i s m h hi hm => ?_⟩
  obtain ⟨t, hexec, hends⟩ := sysMode_ends h hi
  refine ⟨t, hexec, ?_, ?_, ?_⟩
  · rw [runMode_stance (stance_ends hends), sysMode_runMode hm]
  · exact (hends.time.trans (sysMode_time ..)).trans (passTo_time e s)
  · exact (hends.role.trans (sysMode_role ..)).trans (congrArg PairUnit.role (passTo_pair e s))

end Sys2Proof.Machine
end

section
/-! O54: the device after READY (R105). -/

namespace Sys2Proof.Machine

/-! ### From the power-down to the running firmware -/

/-- The device from the reset to the end of the boot: in QUIET, without commands and without a partner. -/
structure Starting (s : State) : Prop where
  mode : s.mode = .quiet
  cmds : s.cmds = []
  pair : s.pair = PairUnit.power
  scrub : s.pool.scrubPeriod = 60

/-- Firmware runs, and the QUIET layout stands. -/
structure Booted (s : State) : Prop extends Starting s where
  ready : s.ready = true
  parts : s.pool.parts = [newPart 6 0 24 6, newPart 7 0 1 7]

/-- No slot holds an image that runs. -/
structure Recovering (s : State) : Prop extends Starting s where
  notReady : s.ready = false
  recovery : s.hub.fw.recovery = true

theorem Starting.same {s t : State} (h : Starting s) (hcore : core t = core s) (hpool : t.pool = s.pool) : Starting t :=
  ⟨(core_mode hcore).trans h.mode, (core_cmds hcore).trans h.cmds, (core_pair hcore).trans h.pair, hpool ▸ h.scrub⟩

theorem core_ready {s t : State} (h : core t = core s) : t.ready = s.ready := congrArg (fun x => x.2.2.2.2.2.2.2.2.2.1) h

theorem Booted.same {s t : State} (h : Booted s) (hcore : core t = core s) (hpool : t.pool = s.pool) : Booted t :=
  ⟨h.toStarting.same hcore hpool, (core_ready hcore).trans h.ready, hpool ▸ h.parts⟩

theorem Starting.calm {s : State} (h : Starting s) : Calm s where
  none := by rw [h.cmds]; rfl
  alone := by rw [hasMirror, h.pair]; rfl
  forwarded := by rw [h.pair]; rfl

theorem Booted.freeAu {s : State} (h : Booted s) : freeAu s = 359 := by
  simp [Machine.freeAu, roleAu, hostAu, reservedAu, h.parts, h.cmds, newPart]

theorem powerDown_starting (s : State) : Starting (powerDown s) := ⟨rfl, rfl, rfl, rfl⟩

theorem powerDown_parts (s : State) : (powerDown s).pool.parts = [] := rfl

theorem runFirmware_booted {slot : Nat} {s : State} (h : Starting s) (hparts : s.pool.parts = []) : Booted (runFirmware slot s) := by
  unfold runFirmware
  dsimp only
  rw [applyLayout_quiet_empty (by exact hparts)]
  exact ⟨⟨h.mode, h.cmds, h.pair, h.scrub⟩, rfl, rfl⟩

theorem enterRecovery_recovering {s : State} (h : Starting s) : Recovering (enterRecovery s) where
  mode := by rw [enterRecovery, setFault_frame]; exact h.mode
  cmds := by rw [enterRecovery, setFault_frame]; exact h.cmds
  pair := by rw [enterRecovery, setFault_frame]; exact h.pair
  scrub := by rw [enterRecovery, setFault_frame]; exact h.scrub
  notReady := by rw [enterRecovery, setFault_frame]; rfl
  recovery := by rw [enterRecovery, setFault_frame]; rfl

theorem bootStart_starting {s : State} (h : Starting s) : Starting (bootStart s) := h.same ((setFw_core ..).trans (core_mk ..)) (bootStart_pool s)

theorem fallbackEntry_pool (failed why booted : Nat) (s : State) : (fallbackEntry failed why booted s).pool = s.pool := by
  unfold fallbackEntry
  rw [bbWrite_frame]

/-- A boot from the power-down ends in recovery or with running firmware. -/
theorem bootNow_ends {s : State} (h : Starting s) (hparts : s.pool.parts = []) : Recovering (bootNow false s) ∨ Booted (bootNow false s) := by
  have run (slot : Nat) : Booted (runFirmware slot (bootStart s)) := runFirmware_booted (bootStart_starting h) (by rw [bootStart_pool, hparts])
  rcases bootNow_cases false s with hb | ⟨slot, hb | hb⟩ <;> rw [hb]
  · exact .inl (enterRecovery_recovering (bootStart_starting h))
  · exact .inr (run slot)
  · exact .inr ((run slot).same (fallbackEntry_core ..) (fallbackEntry_pool ..))

/-! ### The first lock, in QUIET -/

theorem foldl_setMaint_pool (l : List Nat) (f : Nat → MaintUnit → MaintUnit) (s : State) :
    (l.foldl (fun a c => setMaint (f c) a) s).pool = s.pool := by
  induction l generalizing s with
  | nil => rfl
  | cons c t ih => exact ih _

theorem countStart_pool (codes : List Nat) (from_ : Option Nat) (k : Nat) (s : State) : (countStart codes from_ k s).pool = s.pool :=
  foldl_setMaint_pool codes _ s

theorem countWait_pool (codes : List Nat) (s : State) : (countWait codes s).pool = s.pool := foldl_setMaint_pool codes _ s

theorem pumpDwell_pool (s : State) : (pumpDwell s).pool = s.pool := by
  unfold pumpDwell
  split
  · rfl
  · split
    · exact countStart_pool ..
    · rfl

theorem dwellDue_pool (s : State) : (dwellDue s).pool = s.pool := by
  unfold dwellDue
  dsimp only
  repeat' split
  · rfl
  · exact (countWait_pool ..).trans (pumpDwell_pool _)
  · exact pumpDwell_pool _

theorem startInt_pool (e : Nat) (s : State) : (startInt e s).pool = s.pool := by
  unfold startInt
  repeat' split
  all_goals rfl

/-- In QUIET no product starts with the samples. -/
theorem startProducts_quiet {e : Nat} {keep : Bool} {s : State} (h : s.mode = .quiet) : startProducts e keep s = s := by
  simp [startProducts, runMode, h, modeRunsProducts]

theorem gapStart_pool {v : Nat} {s : State} (h : s.mode = .quiet) : (gapStart v s).pool = s.pool := by
  unfold gapStart
  extract_lets hist conv trig s0 s1 s2
  have h1 : s1 = relockTdc v s0 := startProducts_quiet h
  have h2 : s2.pool = s.pool := by
    unfold s2
    split
    · rw [startInt_pool, h1]
      rfl
    · rw [setInt_pool, h1]
      rfl
  rw [dwellDue_pool, setMaint_pool, h2]

theorem skipGap_empty {u v : Nat} {s : State} (h : s.cmds = []) : skipGap u v s = s := by
  simp [skipGap, heldInOrder, h]

theorem firstLock_booted {edge band : Nat} {s : State} (h : Booted s) : Booted (firstLock edge band s) := by
  have hlocked : Booted (firstLocked edge band s) := ⟨⟨h.mode, h.cmds, h.pair, h.scrub⟩, h.ready, h.parts⟩
  have hgap : Booted (gapStart s.time.indexStart (firstLocked edge band s)) := hlocked.same (gapStart_core ..) (gapStart_pool hlocked.mode)
  have hskip : Booted (skipGap 0 s.time.indexStart (gapStart s.time.indexStart (firstLocked edge band s))) := by
    rwa [skipGap_empty hgap.cmds]
  exact (hskip.same (setMaint_core (fun m => { m with sliceFrom := s.time.indexStart + 1 }) _) (setMaint_pool ..)).same (endFault_core 1 _) rfl

/-! ### POWER_ON -/

theorem fitFlash_pool (x : FlashImage) (s : State) : (fitFlash x s).pool = s.pool := by rw [fitFlash, setFw_eq, setHub_pool]

theorem setTime_recovering {f : TimeUnit → TimeUnit} {s : State} (h : Recovering s) : Recovering (setTime f s) :=
  ⟨⟨h.mode, h.cmds, h.pair, h.scrub⟩, h.notReady, h.recovery⟩

theorem setTime_booted {f : TimeUnit → TimeUnit} {s : State} (h : Booted s) : Booted (setTime f s) :=
  ⟨⟨h.mode, h.cmds, h.pair, h.scrub⟩, h.ready, h.parts⟩

theorem takeFree_booted {s : State} (h : Booted s) : Booted (takeFree s).2 := ⟨⟨h.mode, h.cmds, h.pair, h.scrub⟩, h.ready, h.parts⟩

theorem evPowerOn_ends (fit : Option FlashImage) (refOk : Bool) (band : Nat) (s : State) :
    Recovering (evPowerOn fit refOk band s) ∨ Booted (evPowerOn fit refOk band s) := by
  unfold evPowerOn
  extract_lets s0 s1
  have h1 : Recovering s1 ∨ Booted s1 := by
    cases fit with
    | none => exact bootNow_ends (powerDown_starting s) (powerDown_parts s)
    | some x => exact bootNow_ends ((powerDown_starting s).same (fitFlash_core ..) (fitFlash_pool ..)) (by rw [fitFlash_pool, powerDown_parts])
  clear_value s1
  obtain h | h := h1
  · rw [if_pos h.recovery]
    exact .inl (setTime_recovering h)
  · split
    · exact .inr (setTime_booted h)
    · split
      · exact .inr (firstLock_booted (takeFree_booted h))
      · exact .inr h

theorem pairNotice_units (old s : State) : SameUnits s (pairNotice old s) := by
  unfold pairNotice
  split
  · exact notify_units ..
  · exact ⟨rfl, rfl, rfl, rfl, rfl, rfl⟩

/-- Settles O54: the boot ends in recovery or with the QUIET layout (`bootNow_ends`), and neither the first lock (`firstLock_booted`) nor a
notice of the
pair changes that. -/
theorem afterReady : Obligations.AfterReady := by
  intro fit refOk band s
  refine ⟨finish s (evPowerOn fit refOk band s), rfl, ?_⟩
  obtain h | h := evPowerOn_ends fit refOk band s
  all_goals
    rw [finish_calm h.calm]
    have hunits := pairNotice_units s (evPowerOn fit refOk band s)
    have hready := core_ready hunits.core
  · refine ⟨.inr (by rw [hunits.hub]; exact h.recovery), fun hr => ?_⟩
    rw [hready, h.notReady] at hr
    exact absurd hr (by decide)
  · have ht : Booted (pairNotice s (evPowerOn fit refOk band s)) := h.same hunits.core hunits.pool
    exact ⟨.inl ht.ready, fun _ => ⟨ht.mode, by rw [ht.parts]; rfl, ht.freeAu, ht.scrub⟩⟩

end Sys2Proof.Machine
end

section
/-! O25: the events of the pool (R99, R102, R115, R116, R546). -/

namespace Sys2Proof.Machine

/-! ### Events that complete a command -/

theorem event_of_calm {ev : Nat → Instr} {pre : Nat → State → Prop} {effect : Nat → State → State}
    (h : Event ev (fun k s => pre k s ∧ Calm s) effect) :
    Event ev pre effect := fun k s hq hm hp => h k s hq hm ⟨hp, calm_quiet hq hm⟩

theorem eventTo_of_calm {ev : Nat → Instr} {pre : Nat → State → Prop} {post : Nat → State → State → Prop}
    (h : EventTo ev (fun k s => pre k s ∧ Calm s) post) : EventTo ev pre post := fun k s hq hm hp => h k s hq hm ⟨hp, calm_quiet hq hm⟩

/-- An event that keeps to its units and then completes the command of a local source. -/
theorem event_completes {f : Nat → State → State} {ev : Nat → Instr} {pre : Nat → State → Prop} {c : Cmd} {st : Status}
    {words : State → List Word} {g : State → State}
    (hrow : ∀ k s, exec (ev k) s = runEvent (f k) k s) (hsrc : ∀ k s, pre k s → c.src ≠ .pairLink)
    (hf : ∀ k s, pre k s → Calm s → f k (opened s) = complete c st (words (opened s)) s.index (g (opened s))) (hg : ∀ s, core (g s) = core s) :
    Event ev pre fun _ s => complete c st (words s) s.index (g s) := by
  have hcore (s : State) : core (g (opened s)) = core s := (hg _).trans (opened_core s)
  refine event_of_calm (event_of hrow (fun k s h => hf k s h.1 h.2) (fun k s h hs => (hs.core (hcore s)).ends (ends_complete ..)) ?_ ?_)
  · intro k s hfwd h
    rw [complete_pair _ _ _ _ (hsrc k s h.1), core_pair (hcore s), recordOwn_none hfwd]
  · intro k s _
    rw [locked, complete_time, core_time (hcore s), locked]

theorem complete_pool (c : Cmd) (st : Status) (pl : List Word) (i : Nat) (s : State) : (complete c st pl i s).pool = s.pool := by rw [complete_frame]

theorem completeId_maint (id : Nat) (st : Status) (pl : List Word) (i : Nat) (s : State) : (completeId id st pl i s).maint = s.maint := by
  unfold completeId
  split
  · rw [complete_frame]
  · rfl

theorem complete_gone {c : Cmd} {st : Status} {pl : List Word} {i id : Nat} {s : State} (h : c.id = id) :
    ((complete c st pl i s).cmds.any fun d => d.id == id) = false := by
  simp [complete_cmds, h]

theorem cmdById_id {s : State} {id : Nat} {c : Cmd} (h : cmdById s id = some c) : c.id = id := by simpa using List.find?_some h

/-! ### The partitions -/

theorem partAt_slot {s : State} {slot : Nat} {p : Partition} (h : partAt s slot = some p) : p.slot = slot := by simpa using List.find?_some h

theorem partAt_dropPart (slot : Nat) (s : State) : partAt (dropPart slot s) slot = none := by
  simp [partAt, dropPart, setPool]

theorem partAt_congr {s t : State} (h : t.pool = s.pool) (slot : Nat) : partAt t slot = partAt s slot := by rw [partAt, h, partAt]

theorem partAt_setPart {slot : Nat} {f : Partition → Partition} (s : State) (n : Nat) (hf : ∀ p, (f p).slot = p.slot) :
    partAt (setPart slot f s) n = (partAt s n).map fun p => if p.slot == slot then f p else p := by
  have hslot (p : Partition) : (if p.slot == slot then f p else p).slot = p.slot := by
    split
    · exact hf p
    · rfl
  simp only [partAt, setPart_pool, List.find?_map, Function.comp_def, hslot]

theorem poolByte_congr {s t : State} (h : t.pool = s.pool) (slot o : Nat) : poolByte t slot o = poolByte s slot o := by
  rw [poolByte, partAt_congr h, poolByte]

/-- A partition in which bytes are written, as far as it reaches. -/
def written (o : Nat) (bytes : List Byte) (p : Partition) : Partition :=
  { p with
    data := writeCells p.data o (bytes.take (p.au * 1048576 - o)),
    poisoned := p.poisoned.filter fun a => !(decide (o ≤ a) && decide (a + 8 ≤ o + (bytes.take (p.au * 1048576 - o)).length)) }

theorem partAt_poolWrite (slot o : Nat) (bytes : List Byte) (s : State) (n : Nat) :
    partAt (poolWrite slot o bytes s) n = (partAt s n).map fun p => if p.slot == slot then written o bytes p else p :=
  partAt_setPart (f := written o bytes) s n fun _ => rfl

/-- A byte that a write names is the byte written. -/
theorem poolByte_poolWrite_inside {slot o i : Nat} {bytes : List Byte} {s : State} {p : Partition} (hp : partAt s slot = some p)
    (hwf : cellsWf p.data = true) (hfit : o + bytes.length ≤ p.au * 1048576) (hi : i < bytes.length) :
    poolByte (poolWrite slot o bytes s) slot (o + i) = bytes[i] := by
  have htake : bytes.take (p.au * 1048576 - o) = bytes := List.take_of_length_le (by omega)
  rw [poolByte, partAt_poolWrite, hp]
  simp only [Option.map_some, partAt_slot hp, beq_self_eq_true, if_true, written, htake]
  exact readCell_writeCells_inside hwf hi

/-- Every other byte stays. -/
theorem poolByte_poolWrite_outside {slot o slot' o' : Nat} {bytes : List Byte} {s : State}
    (h : slot' ≠ slot ∨ o' < o ∨ o + bytes.length ≤ o') : poolByte (poolWrite slot o bytes s) slot' o' = poolByte s slot' o' := by
  rw [poolByte, partAt_poolWrite, poolByte]
  rcases hp : partAt s slot' with - | p
  · rfl
  simp only [Option.map_some]
  split
  · next hslot =>
    have hne : ¬slot' ≠ slot := fun hne => hne (partAt_slot hp ▸ beq_iff_eq.mp hslot)
    have hle : (bytes.take (p.au * 1048576 - o)).length ≤ bytes.length := List.length_take_le' ..
    exact readCell_writeCells_outside (by omega)
  · rfl

/-! ### A free, and a transfer -/

theorem evMemFreeRelease_last {slot id : Nat} {p : Partition} {s : State} (hp : partAt s slot = some p) (hid : p.freeCmd = some id)
    (href : refsOf s p.handle = 0) : evMemFreeRelease slot s = completeId id .ok [BitVec.ofNat 32 p.au] s.index (releasePart p s) := by
  simp [evMemFreeRelease, hp, hid, href]

theorem releasePart_gone {p : Partition} {s : State} (hnext : p.nextAu = none) : partAt (releasePart p s) p.slot = none := by
  rw [releasePart, hnext]
  exact partAt_dropPart p.slot s

theorem memFreeRelease_frees (slot : Nat) (p : Partition) (id : Nat) : EventTo (fun k => .memFreeRelease k slot)
    (fun _ s => partAt s slot = some p ∧ p.freeCmd = some id ∧ refsOf s p.handle = 0 ∧ p.nextAu = none)
    (fun _ s t => partAt t slot = none ∧ t.time = s.time ∧ (t.cmds.any fun c => c.id == id) = false) := by
  have ends (s : State) (hp : partAt s slot = some p) (hid : p.freeCmd = some id) (href : refsOf s p.handle = 0) :
      SameUnits (completeId id .ok [BitVec.ofNat 32 p.au] s.index (releasePart p s)) (evMemFreeRelease slot s) :=
    evMemFreeRelease_last hp hid href ▸ SameUnits.refl _
  refine eventTo_units (f := fun _ => evMemFreeRelease slot) (fun _ _ => rfl)
    (fun k s ⟨hp, hid, href, _⟩ hs => completed_calm (opened_calm hs) (releasePart_core p _) (ends (opened s) hp hid href)) ?_
  intro k s t ⟨hp, hid, href, hnext⟩ _ ht
  have hu := ends (opened s) hp hid href
  obtain ⟨hgone, htime, -⟩ := completed_post ((releasePart_core p _).trans (opened_core s)) hu ht
  refine ⟨?_, htime, hgone⟩
  rw [partAt_congr ((hu.trans ht).pool.trans (completeId_pool ..)), ← partAt_slot hp]
  exact releasePart_gone hnext

/-- A transfer has left the list of those in progress. -/
def transferOver (cmd : Nat) : State → State := setPool fun p => { p with transfers := p.transfers.filter (fun x => x.cmd != cmd) }

theorem transferOver_core (cmd : Nat) (s : State) : core (transferOver cmd s) = core s := core_mk ..

section
variable {cmd : Nat} {data : List Byte} {errors : List MemError} {x : Transfer} {c : Cmd} {s : State}
  (hx : (s.pool.transfers.find? fun t => t.cmd == cmd) = some x) (hc : cmdById s cmd = some c)
include hx hc

theorem evMemTransferEnd_write (hw : x.write = true) (hhost : hostFails s x.host x.length = false) (halone : hasMirror s = false) :
    evMemTransferEnd cmd true data errors s = complete c .ok [0] s.index (poolWrite x.slot x.offset (data.take x.length) (transferOver cmd s)) := by
  have hhost' : hostFails (transferOver cmd s) x.host x.length = false := hhost
  have halone' : hasMirror (poolWrite x.slot x.offset (data.take x.length) (transferOver cmd s)) = false := halone
  unfold transferOver at *
  simp only [evMemTransferEnd, hx, hc, hhost', halone', hw, Bool.not_true, Bool.false_or, Bool.false_and, Bool.false_eq_true, if_false, if_true]
  rfl

theorem evMemTransferEnd_read {p : Partition} (hw : x.write = false) (hhost : hostFails s x.host x.length = false) (hp : partAt s x.slot = some p) :
    evMemTransferEnd cmd true data [] s
      = complete c .ok [BitVec.ofNat 32 (readRange s p x.offset x.length).2] s.index
          (emit (.hostWrite true x.host (readRange s p x.offset x.length).1) (usedFree x.length (transferOver cmd s))) := by
  have hhost' : hostFails (transferOver cmd s) x.host x.length = false := hhost
  have hp' : partAt (transferOver cmd s) x.slot = some p := hp
  unfold transferOver at *
  simp only [evMemTransferEnd, hx, hc, hhost', hw, hp', bringErrors, List.foldl_nil, Bool.not_true, Bool.false_or, Bool.false_eq_true, if_false]
  rfl

theorem evMemTransferEnd_fails {ok : Bool} (h : ok = false ∨ hostFails s x.host x.length = true) :
    evMemTransferEnd cmd ok data errors s = complete c .internal [] s.index (refuseEffects c .internal (transferOver cmd s)) := by
  have hfails : (!ok || hostFails (transferOver cmd s) x.host x.length) = true := by
    rw [Bool.or_eq_true, Bool.not_eq_true']
    exact h
  unfold transferOver at *
  simp only [evMemTransferEnd, hx, hc, hfails, if_true]
  rfl

end

theorem refuseEffects_pool (c : Cmd) (st : Status) (s : State) : (refuseEffects c st s).pool = s.pool := by
  unfold refuseEffects
  split
  · rw [latchGint_frame, bbWrite_frame]
  · rfl

theorem memTransferEnd_writes (cmd : Nat) (data : List Byte) (errors : List MemError) (x : Transfer) (c : Cmd) :
    Event (fun k => .memTransferEnd k cmd true data errors)
      (fun _ s => (s.pool.transfers.find? fun t => t.cmd == cmd) = some x ∧ cmdById s cmd = some c ∧ x.write = true ∧ c.src ≠ .pairLink
        ∧ hostFails s x.host x.length = false)
      (fun _ s => complete c .ok [0] s.index (poolWrite x.slot x.offset (data.take x.length) (transferOver cmd s))) :=
  event_completes (g := fun s => poolWrite x.slot x.offset (data.take x.length) (transferOver cmd s)) (words := fun _ => [0]) (fun _ _ => rfl)
    (fun _ _ ⟨_, _, _, hsrc, _⟩ => hsrc)
    (fun _ s ⟨hx, hc, hw, _, hhost⟩ hs => evMemTransferEnd_write (s := opened s) hx hc hw hhost hs.alone)
    fun s => (poolWrite_core ..).trans (transferOver_core cmd s)

theorem memTransferEnd_stores (cmd : Nat) (data : List Byte) (errors : List MemError) (x : Transfer) (c : Cmd) (p : Partition) :
    EventTo (fun k => .memTransferEnd k cmd true data errors)
      (fun _ s => (s.pool.transfers.find? fun t => t.cmd == cmd) = some x ∧ cmdById s cmd = some c ∧ x.write = true ∧ c.src ≠ .pairLink
        ∧ hostFails s x.host x.length = false
        ∧ partAt s x.slot = some p ∧ cellsWf p.data = true ∧ x.offset + (data.take x.length).length ≤ p.au * 1048576)
      (fun _ s t => (∀ i, i < (data.take x.length).length → poolByte t x.slot (x.offset + i) = data.getD i 0)
        ∧ (∀ slot o, (slot ≠ x.slot ∨ o < x.offset ∨ x.offset + (data.take x.length).length ≤ o) →
          poolByte t slot o = poolByte s slot o)) := by
  have hcore (s : State) : core (poolWrite x.slot x.offset (data.take x.length) (transferOver cmd s)) = core s :=
    (poolWrite_core ..).trans (transferOver_core cmd s)
  refine eventTo_of_calm (eventTo_units (f := fun _ => evMemTransferEnd cmd true data errors) (fun _ _ => rfl) ?_ ?_)
  · intro k s ⟨⟨hx, hc, hw, _, hhost, _⟩, _⟩ hs
    show Calm (evMemTransferEnd cmd true data errors (opened s))
    rw [evMemTransferEnd_write (s := opened s) hx hc hw hhost hs.alone]
    exact ((opened_calm hs).core (hcore _)).ends (ends_complete ..)
  · intro k s t ⟨⟨hx, hc, hw, _, hhost, hp, hwf, hfit⟩, _⟩ hs ht
    rw [evMemTransferEnd_write (s := opened s) hx hc hw hhost hs.alone] at ht
    have hpool : t.pool = (poolWrite x.slot x.offset (data.take x.length) (transferOver cmd (opened s))).pool := ht.pool.trans (complete_pool ..)
    refine ⟨fun i hi => ?_, fun slot o h => ?_⟩
    · rw [poolByte_congr hpool, poolByte_poolWrite_inside (s := transferOver cmd (opened s)) hp hwf hfit hi, List.getElem_take,
        List.getD_eq_getElem]
    · rw [poolByte_congr hpool, poolByte_poolWrite_outside h]
      rfl

theorem memTransferEnd_reads (cmd : Nat) (data : List Byte) (x : Transfer) (c : Cmd) (p : Partition) :
    Event (fun k => .memTransferEnd k cmd true data [])
      (fun _ s => (s.pool.transfers.find? fun t => t.cmd == cmd) = some x ∧ cmdById s cmd = some c ∧ x.write = false ∧ c.src ≠ .pairLink
        ∧ hostFails s x.host x.length = false ∧ partAt s x.slot = some p)
      (fun _ s => complete c .ok [BitVec.ofNat 32 (readRange s p x.offset x.length).2] s.index
        (emit (.hostWrite true x.host (readRange s p x.offset x.length).1) (usedFree x.length (transferOver cmd s)))) :=
  event_completes (g := fun s => emit (.hostWrite true x.host (readRange s p x.offset x.length).1) (usedFree x.length (transferOver cmd s)))
    (words := fun s => [BitVec.ofNat 32 (readRange s p x.offset x.length).2]) (fun _ _ => rfl)
    (fun _ _ ⟨_, _, _, hsrc, _⟩ => hsrc)
    (fun _ s ⟨hx, hc, hw, _, hhost, hp⟩ _ => evMemTransferEnd_read (s := opened s) hx hc hw hhost hp)
    fun s => (core_mk (transferOver cmd s) ..).trans (transferOver_core cmd s)

theorem memTransferEnd_fails (cmd : Nat) (ok : Bool) (data : List Byte) (errors : List MemError) (x : Transfer) (c : Cmd) :
    EventTo (fun k => .memTransferEnd k cmd ok data errors)
      (fun _ s => (s.pool.transfers.find? fun t => t.cmd == cmd) = some x ∧ cmdById s cmd = some c ∧ c.src ≠ .pairLink
        ∧ (ok = false ∨ hostFails s x.host x.length = true))
      (fun _ s t => t.pool.parts = s.pool.parts ∧ t.pool.transfers = s.pool.transfers.filter (fun t => t.cmd != cmd)
        ∧ (t.cmds.any fun d => d.id == cmd) = false) := by
  have hcore (s : State) : core (refuseEffects c .internal (transferOver cmd s)) = core s := (refuseEffects_core ..).trans (transferOver_core cmd s)
  refine eventTo_units (f := fun _ => evMemTransferEnd cmd ok data errors) (fun _ _ => rfl) ?_ ?_
  · intro k s ⟨hx, hc, _, hfails⟩ hs
    show Calm (evMemTransferEnd cmd ok data errors (opened s))
    rw [evMemTransferEnd_fails (s := opened s) hx hc hfails]
    exact ((opened_calm hs).core (hcore _)).ends (ends_complete ..)
  · intro k s t ⟨hx, hc, _, hfails⟩ _ ht
    rw [evMemTransferEnd_fails (s := opened s) hx hc hfails] at ht
    have hpool : t.pool = (transferOver cmd s).pool := (ht.pool.trans (complete_pool ..)).trans (refuseEffects_pool ..)
    refine ⟨by rw [hpool]; rfl, by rw [hpool]; rfl, ?_⟩
    rw [core_cmds ht.core]
    exact complete_gone (cmdById_id hc)

/-! ### The scrub (R115, R546) -/

theorem countCe_maint (slot n : Nat) (s : State) : (countCe slot n s).maint = s.maint := by
  unfold countCe
  split <;> rfl

theorem detectUe_maint (slot offset : Nat) (s : State) : (detectUe slot offset s).maint = s.maint := by
  unfold detectUe
  split
  · rfl
  · dsimp only
    split
    · rfl
    · rw [notify_frame, bbWrite_frame]
      rfl

theorem detectUe_ceTotal (slot offset : Nat) (s : State) : (detectUe slot offset s).pool.ceTotal = s.pool.ceTotal := by
  unfold detectUe
  split
  · rfl
  · dsimp only
    split
    · rfl
    · rw [notify_frame, bbWrite_frame]
      rfl

theorem scrubbed_maint (slot corrected : Nat) (found : List Nat) (s : State) : (scrubbed slot corrected found s).maint = s.maint := by
  have fold (l : List Nat) (a : State) : (l.foldl (fun a o => detectUe slot o a) a).maint = a.maint := by
    induction l generalizing a with
    | nil => rfl
    | cons o t ih => exact (ih _).trans (detectUe_maint ..)
  exact (fold ..).trans (countCe_maint ..)

/-- The corrected words of a partition are counted in the pool. -/
theorem scrubbed_ceTotal {slot : Nat} (corrected : Nat) (found : List Nat) {s : State} (h : (partAt s slot).isSome = true) :
    (scrubbed slot corrected found s).pool.ceTotal = satAdd 32 s.pool.ceTotal corrected := by
  have fold (l : List Nat) (a : State) : (l.foldl (fun a o => detectUe slot o a) a).pool.ceTotal = a.pool.ceTotal := by
    induction l generalizing a with
    | nil => rfl
    | cons o t ih => exact (ih _).trans (detectUe_ceTotal ..)
  refine (fold ..).trans ?_
  have hpart : (partAt (setPart slot (fun p => { p with passes := satAdd 32 p.passes 1 }) s) slot).isNone = false := by
    rw [partAt_setPart (hf := fun _ => by rfl), Option.isNone_map]
    simpa using h
  simp only [countCe, hpart, Bool.false_eq_true, if_false]
  rfl

/-- A part of the arbiter's state that every step of a fold leaves. -/
theorem foldl_setMaint_keeps {α : Type} (part : MaintUnit → α) (l : List Nat) (f : Nat → MaintUnit → MaintUnit) (hf : ∀ c m, part (f c m) = part m)
    (s : State) : part (l.foldl (fun a c => setMaint (f c) a) s).maint = part s.maint := by
  induction l generalizing s with
  | nil => rfl
  | cons c t ih => exact (ih _).trans (hf c s.maint)

theorem countStart_scrubFrom (codes : List Nat) (from_ : Option Nat) (k : Nat) (s : State) :
    (countStart codes from_ k s).maint.scrubFrom = s.maint.scrubFrom := foldl_setMaint_keeps MaintUnit.scrubFrom codes _ (fun _ _ => by rfl) s

/-- The scrub of a partition begins: nothing waits for it any more. -/
def scrubStarted (s : State) : State := countStart [2] s.maint.scrubFrom s.index (setMaint (fun m => { m with scrubFrom := none }) s)

theorem scrubStarted_scrubFrom (s : State) : (scrubStarted s).maint.scrubFrom = none := countStart_scrubFrom ..

theorem scrubStarted_pool (s : State) : (scrubStarted s).pool = s.pool := countStart_pool ..

/-- A scrub that runs ends with the partition scrubbed, and with the last one the pass. -/
theorem evScrub_runs {slot corrected : Nat} {found : List Nat} {s : State} (hslot : slot < 256) (hperiod : s.pool.scrubPeriod ≠ 0)
    (hcores : coresRun s = true) (hacts : (s.maint.acts.any fun a => a.codes.contains 3) = false) :
    ∃ n, evScrub slot corrected found s = setPool (fun p => { p with passes := n }) (scrubbed slot corrected found (scrubStarted s)) := by
  have hguard : (!coresRun s || s.maint.acts.any fun a => a.codes.contains 3) = false := by rw [hcores, hacts]; rfl
  simp only [evScrub, Nat.not_le.mpr hslot, hperiod, hguard, Bool.false_eq_true, if_false]
  split
  · exact ⟨_, rfl⟩
  · exact ⟨(scrubbed slot corrected found (scrubStarted s)).pool.passes, rfl⟩

theorem after_maint (old : State) (f : State → State) (s : State) : (pairNotice old (repliesFirst f s)).maint = (f (opened s)).maint :=
  by rw [after_frame]

theorem scrub_counts (slot corrected : Nat) (found : List Nat) : EventTo (fun k => .scrub k slot corrected found)
    (fun _ s => slot < 256 ∧ (partAt s slot).isSome = true ∧ s.pool.scrubPeriod ≠ 0 ∧ coresRun s = true
      ∧ (s.maint.acts.any fun a => a.codes.contains 3) = false)
    (fun _ s t => t.maint.scrubFrom = none ∧ t.pool.ceTotal = satAdd 32 s.pool.ceTotal corrected ∧ t.time = s.time ∧ t.cmds = s.cmds) := by
  have hcore (s : State) : core (evScrub slot corrected found (opened s)) = core s := (evScrub_core ..).trans (opened_core s)
  refine eventTo_of (f := fun _ => evScrub slot corrected found) (fun _ _ => rfl) (fun k s _ hs => hs.core (hcore s)) ?_
  intro k s t old ⟨hslot, hpart, hperiod, hcores, hacts⟩ _ ht
  obtain ⟨n, hn⟩ := evScrub_runs (corrected := corrected) (found := found) (s := opened s) hslot hperiod hcores hacts
  have hu : SameUnits (evScrub slot corrected found (opened s)) t := ht ▸ after_units ..
  have hpart' : (partAt (scrubStarted (opened s)) slot).isSome = true := by
    rw [partAt_congr (scrubStarted_pool _)]
    exact hpart
  refine ⟨?_, ?_, core_time (hu.core.trans (hcore s)), core_cmds (hu.core.trans (hcore s))⟩
  · rw [ht, after_maint, hn, setPool_maint, scrubbed_maint, scrubStarted_scrubFrom]
  · rw [hu.pool, hn]
    exact (scrubbed_ceTotal corrected found hpart').trans (by rw [scrubStarted_pool]; rfl)

/-! ### The pass of MAINT_START (R546) -/

theorem countStart_acts (codes : List Nat) (from_ : Option Nat) (k : Nat) (s : State) : (countStart codes from_ k s).maint.acts = s.maint.acts :=
  foldl_setMaint_keeps MaintUnit.acts codes _ (fun _ _ => by rfl) s

theorem pumpDwell_acts (s : State) : (pumpDwell s).maint.acts = s.maint.acts := by
  unfold pumpDwell
  split
  · rfl
  · split
    · exact countStart_acts ..
    · rfl

/-- An activity that ends is among the activities no more. -/
theorem endActivity_gone (id : Nat) (s : State) : ((endActivity (fun x => x.cmd == id) s).maint.acts.any fun x => x.cmd == id) = false := by
  have hcmd (b : Prop) [Decidable b] (x : Activity) (k : Nat) : (if b then { x with clear := k } else x).cmd = x.cmd := by
    split <;> rfl
  simp only [endActivity, pumpDwell_acts, clearWay, setMaint_maint, List.any_map, List.any_filter, Function.comp_def, hcmd]
  simp

theorem scrubPassEnd_ends (found : List (Nat × Nat × List Nat)) (a : Activity) : EventTo (fun k => .scrubPassEnd k found)
    (fun _ s => (s.maint.acts.find? fun a => a.running && a.codes.contains 3) = some a)
    (fun _ s t => (t.cmds.any fun c => c.id == a.cmd) = false ∧ (t.maint.acts.any fun x => x.cmd == a.cmd) = false ∧ t.time = s.time) := by
  have run (s : State) (ha : (s.maint.acts.find? fun a => a.running && a.codes.contains 3) = some a) :
      ∃ pl k u, core u = core s ∧ evScrubPassEnd found s = completeId a.cmd .ok pl k (endActivity (fun x => x.cmd == a.cmd) u) := by
    have hscrub (l : List Partition) (g : Partition → Nat × List Nat) : core (l.foldl (fun b p => scrubbed p.slot (g p).1 (g p).2 b) s) = core s :=
      foldl_core _ _ _ fun _ _ => scrubbed_core ..
    rw [evScrubPassEnd, ha]
    dsimp only
    refine ⟨_, _, _, ?_, rfl⟩
    split
    · exact (core_mk (List.foldl _ _ _) ..).trans (hscrub ..)
    · exact hscrub ..
  refine eventTo_of (f := fun _ => evScrubPassEnd found) (fun _ _ => rfl) (fun k s ha hs => ?_) ?_
  · obtain ⟨pl, i, u, hu, hrun⟩ := run (opened s) ha
    rw [hrun]
    exact ((opened_calm hs).core ((endActivity_core ..).trans hu)).ends (ends_completeId ..)
  · intro k s t old ha _ ht
    obtain ⟨pl, i, u, hu, hrun⟩ := run (opened s) ha
    have hunits : SameUnits (evScrubPassEnd found (opened s)) t := ht ▸ after_units ..
    obtain ⟨hgone, htime, -⟩ := completed_post (((endActivity_core ..).trans hu).trans (opened_core s)) (by rw [hrun]; exact SameUnits.refl _) hunits
    refine ⟨hgone, ?_, htime⟩
    rw [ht, after_maint, hrun, completeId_maint]
    exact endActivity_gone ..

/-- Settles O25, clause by clause: a free by `memFreeRelease_frees`, a transfer by the equations of `evMemTransferEnd` and what a write of bytes
leaves
(`poolByte_poolWrite_inside`, `poolByte_poolWrite_outside`), a scrub by `scrub_counts` and `scrubPassEnd_ends`. -/
theorem memoryEvents : Obligations.MemoryEvents :=
  ⟨memFreeRelease_frees, memTransferEnd_writes, memTransferEnd_stores, memTransferEnd_reads, memTransferEnd_fails, scrub_counts,
    fun slot corrected found => event_idle (f := fun _ => evScrub slot corrected found) (fun _ _ => rfl) fun _ s ⟨hslot, hperiod⟩ => by
      have hperiod' : (opened s).pool.scrubPeriod = 0 := hperiod
      simp [evScrub, Nat.not_le.mpr hslot, hperiod'],
    fun slot corrected found => event_of_core (f := fun _ => evScrub slot corrected found) (fun _ _ => rfl)
      (fun _ s hslot => by simp [evScrub, show 256 ≤ slot from hslot]) fun _ _ => countStore_core ..,
    scrubPassEnd_ends⟩

end Sys2Proof.Machine
end

section
/-! O35: what replies and notices leave of the stream contexts, and the rules of a context. -/

namespace Sys2Proof.Machine

/-! ### Replies and notices leave the contexts -/

/-- The contexts of the stream engine: of its unit, replies and notices write the counters of the ports alone. -/
def contexts (s : State) : List StreamCtx := s.strm.ctxs

theorem ctxOf_congr {s t : State} (h : contexts t = contexts s) (n : Nat) : ctxOf t n = ctxOf s n := congrArg (fun l => l.getD n default) h

theorem writeReply_contexts (c : Cmd) (e : Entry) (s : State) : contexts (writeReply c e s) = contexts s := by
  unfold writeReply
  split
  · rfl
  · split
    · rw [replyQp_frame]
      split <;> rfl
    · rfl
    · rfl
    · rw [diverge_frame]
      split <;> rfl

theorem deliverReply_contexts (c : Cmd) (e : Entry) (s : State) : contexts (deliverReply c e s) = contexts s := by
  unfold deliverReply
  split
  · exact writeReply_contexts ..
  · rfl

theorem complete_contexts (c : Cmd) (st : Status) (pl : List Word) (i : Nat) (s : State) : contexts (complete c st pl i s) = contexts s := by
  unfold complete
  dsimp only
  split
  · split <;> rfl
  · rw [deliverReply_contexts]
    split <;> rfl

theorem completeId_contexts (id : Nat) (st : Status) (pl : List Word) (i : Nat) (s : State) : contexts (completeId id st pl i s) = contexts s := by
  unfold completeId
  split
  · exact complete_contexts ..
  · rfl

theorem putNotice_contexts (d : Nat) (e : Entry) (s : State) : contexts (putNotice d e s).1 = contexts s := by
  unfold putNotice
  split
  · rw [tryRq_frame]
    rfl
  · split
    · rfl
    · split <;> rfl

theorem holdNotice_contexts (d : Nat) (e : Entry) (s : State) : contexts (holdNotice d e s) = contexts s := by
  rw [holdNotice_frame]
  rfl

theorem sendNotice_contexts (d : Nat) (e : Entry) (s : State) : contexts (sendNotice d e s) = contexts s := by
  have hput := putNotice_contexts d e s
  unfold sendNotice
  split
  · split
    · next a h => rwa [h] at hput
    · next a h =>
      rw [h] at hput
      exact (holdNotice_contexts ..).trans hput
  · exact holdNotice_contexts ..

theorem notify_contexts (code : Nat) (pl : List Word) (i : Nat) (s : State) : contexts (notify code pl i s) = contexts s := by
  unfold notify
  dsimp only
  split
  · rfl
  · exact sendNotice_contexts ..

theorem sendAside_contexts (s : State) : contexts (sendAside s) = contexts s := by
  have fold (l : List (Nat × Entry)) (a : State) : contexts (l.foldl (fun a x => sendNotice x.1 x.2 a) a) = contexts a := by
    induction l generalizing a with
    | nil => rfl
    | cons x t ih => exact (ih _).trans (sendNotice_contexts ..)
  exact fold _ _

theorem repliesFirst_contexts (f : State → State) (s : State) : contexts (repliesFirst f s) = contexts (f (opened s)) := by
  unfold repliesFirst
  split
  · next l h => rw [show opened s = s by unfold opened; rw [h, Option.getD_some, ← h]]
  · next h =>
    rw [show opened s = { s with aside := some [] } by unfold opened; rw [h, Option.getD_none]]
    exact sendAside_contexts _

theorem after_contexts (old : State) (f : State → State) (s : State) : contexts (pairNotice old (repliesFirst f s)) = contexts (f (opened s)) := by
  unfold pairNotice
  split
  · exact (notify_contexts ..).trans (repliesFirst_contexts ..)
  · exact repliesFirst_contexts ..

/-! ### One context -/

theorem ctxOf_setCtx_same {n : Nat} {f : StreamCtx → StreamCtx} {s : State} (h : n < (contexts s).length) : ctxOf (setCtx n f s) n = f (ctxOf s n) :=
  getD_modAt_same h

theorem ctxOf_setCtx_ne {n i : Nat} {f : StreamCtx → StreamCtx} {s : State} (h : i ≠ n) : ctxOf (setCtx n f s) i = ctxOf s i := getD_modAt_ne h

theorem contexts_setCtx_length (n : Nat) (f : StreamCtx → StreamCtx) (s : State) : (contexts (setCtx n f s)).length = (contexts s).length :=
  List.length_modify ..

/-- A part of every context that a change of one leaves. -/
theorem setCtx_keeps {α : Type} (part : StreamCtx → α) {n : Nat} {f : StreamCtx → StreamCtx} (hf : ∀ c, part (f c) = part c) (s : State) (i : Nat) :
    part (ctxOf (setCtx n f s) i) = part (ctxOf s i) := by
  by_cases hi : i = n
  · subst hi
    by_cases hlen : i < (contexts s).length
    · rw [ctxOf_setCtx_same hlen, hf]
    · have hout : (contexts s).length ≤ i := Nat.le_of_not_lt hlen
      have hs : ctxOf s i = default := List.getD_eq_default _ _ hout
      have ht : ctxOf (setCtx i f s) i = default := List.getD_eq_default _ _ ((contexts_setCtx_length i f s).trans_le hout)
      rw [hs, ht]
  · rw [ctxOf_setCtx_ne hi]

/-- From `s` to `t` context `n` keeps its packets, its SEQ and what it has dropped; the other contexts and the pool stay. -/
structure KeepsPackets (n : Nat) (s t : State) : Prop where
  seq : (ctxOf t n).seq = (ctxOf s n).seq
  packets : (ctxOf t n).packets = (ctxOf s n).packets
  dropped : (ctxOf t n).dropped = (ctxOf s n).dropped
  others : ∀ i, i ≠ n → ctxOf t i = ctxOf s i
  pool : t.pool = s.pool

theorem KeepsPackets.refl (n : Nat) (s : State) : KeepsPackets n s s := ⟨rfl, rfl, rfl, fun _ _ => rfl, rfl⟩

theorem KeepsPackets.trans {n : Nat} {s t u : State} (a : KeepsPackets n s t) (b : KeepsPackets n t u) : KeepsPackets n s u :=
  ⟨b.seq.trans a.seq, b.packets.trans a.packets, b.dropped.trans a.dropped, fun i hi => (b.others i hi).trans (a.others i hi), b.pool.trans a.pool⟩

theorem KeepsPackets.of_contexts {n : Nat} {s t : State} (h : contexts t = contexts s) (hpool : t.pool = s.pool) : KeepsPackets n s t :=
  ⟨by rw [ctxOf_congr h], by rw [ctxOf_congr h], by rw [ctxOf_congr h], fun i _ => ctxOf_congr h i, hpool⟩

/-- A mark that attaches leaves the packets of the context, and completes its command. -/
theorem attachMarks_keeps (n seq index : Nat) (s : State) : KeepsPackets n s (attachMarks n seq index s) := by
  unfold attachMarks
  dsimp only
  generalize (ctxOf s n).markWaits.filter _ = due
  induction due generalizing s with
  | nil => exact .refl n s
  | cons w t ih =>
    refine KeepsPackets.trans ?_ (ih _)
    refine KeepsPackets.trans (t := setCtx n (fun c => { c with
      marks := modAt c.marks w.mark (fun _ => { seq := some seq, lost := false }), markWaits := c.markWaits.filter (fun x => x.cmd != w.cmd) }) s) ?_
      (.of_contexts (completeId_contexts ..) (completeId_pool ..))
    exact ⟨setCtx_keeps StreamCtx.seq (fun _ => by rfl) s n, setCtx_keeps StreamCtx.packets (fun _ => by rfl) s n,
      setCtx_keeps StreamCtx.dropped (fun _ => by rfl) s n, fun i hi => ctxOf_setCtx_ne hi, rfl⟩

theorem ends_attachMarks (n seq index : Nat) (s : State) : Ends s (attachMarks n seq index s) :=
  ends_foldl _ _ s fun _ _ => (ends_core (setCtx_core ..)).trans (ends_completeId ..)

end Sys2Proof.Machine
end

section
/-! O35: the next packet of a sample context (R392, R394, R398, R413). -/

namespace Sys2Proof.Machine

/-- The bytes of a piece, with the counts of its packer. -/
def packetOf (s : State) (n : Nat) (choice : List Byte) (p : StreamPiece) : Option (List Byte × State) :=
  if (ctxOf s n).cfg.vdif then some (vdifPacket s n p (pieceData s (ctxOf s n).cfg p).1, s)
  else kdpSample s n p p.last (pieceData s (ctxOf s n).cfg p).2 (pieceData s (ctxOf s n).cfg p).1 choice

/-- A piece has left the run of its context, with `clipped` containers clipped. -/
def pieceTaken (n : Nat) (p : StreamPiece) (ended : Bool) (clipped : Nat) : State → State := setCtx n fun c =>
  { c with
    clipped := satAdd 32 c.clipped clipped, pieces := if ended then c.pieces.tail else c.pieces,
    run := if ended then c.run else some (p.first + p.count), fresh := if ended then c.fresh else false }

theorem countPacked_opened (c : StreamConfig) (k : Nat) (bytes : List Byte) (packed raw : Bool) (s : State) :
    countPacked c k bytes packed raw (opened s) = opened (countPacked c k bytes packed raw s) := by
  unfold countPacked
  split <;> rfl

/-- Which notices wait is no matter of a packet. -/
theorem packetOf_opened {s s2 : State} {n : Nat} {choice bytes : List Byte} {p : StreamPiece} (h : packetOf s n choice p = some (bytes, s2)) :
    packetOf (opened s) n choice p = some (bytes, opened s2) := by
  have hcfg : (ctxOf (opened s) n).cfg = (ctxOf s n).cfg := rfl
  have hdata : pieceData (opened s) (ctxOf s n).cfg p = pieceData s (ctxOf s n).cfg p := rfl
  unfold packetOf at h ⊢
  rw [hcfg, hdata]
  split at h
  · next hvdif =>
    cases h
    rw [if_pos hvdif]
    rfl
  · next hvdif =>
    rw [if_neg hvdif]
    unfold kdpSample at h ⊢
    dsimp only at h ⊢
    have hpack (l : List Byte) : packPayload (opened s) (ctxOf s n).cfg l choice = packPayload s (ctxOf s n).cfg l choice := rfl
    rw [hcfg, hpack]
    split at h
    · cases h
    · cases h
      rw [countPacked_opened]
      rfl

theorem countPacked_rest (c : StreamConfig) (k : Nat) (bytes : List Byte) (packed raw : Bool) (s : State) :
    contexts (countPacked c k bytes packed raw s) = contexts s ∧ (countPacked c k bytes packed raw s).pool = s.pool := by
  unfold countPacked
  split <;> exact ⟨rfl, rfl⟩

theorem packetOf_keeps {s s2 : State} {n : Nat} {choice bytes : List Byte} {p : StreamPiece} (h : packetOf s n choice p = some (bytes, s2)) :
    core s2 = core s ∧ contexts s2 = contexts s ∧ s2.pool = s.pool := by
  unfold packetOf at h
  split at h
  · cases h
    exact ⟨rfl, rfl, rfl⟩
  · unfold kdpSample at h
    dsimp only at h
    split at h
    · cases h
    · cases h
      exact ⟨countPacked_core .., countPacked_rest ..⟩

section
variable {n : Nat} {choice bytes : List Byte} {p : StreamPiece} {ended : Bool} {s s2 : State}

theorem generateSample_packet (hmode : s.mode ≠ .shadow) (hnext : nextPiece s n = some (p, ended))
    (hpacket : packetOf s n choice p = some (bytes, s2)) :
    ∃ k, generateSample n choice s = (storePacket n bytes p.index p.fresh p.last (pieceTaken n p ended k s2)).1 := by
  unfold packetOf at hpacket
  simp only [generateSample, hnext, hmode, if_false]
  rw [hpacket]
  exact ⟨_, rfl⟩

theorem evStrmPacketGenerate_sample (hrun : modeRunsProducts (runMode s) = true) (hkind : (ctxOf s n).cfg.pkind ≤ 1) :
    evStrmPacketGenerate n [] choice [] s = generateSample n choice s := by
  have hnone : bringErrors [] (bringVolts [] s) = s := rfl
  simp only [evStrmPacketGenerate, hnone, hrun, hkind, Bool.not_true, Bool.false_eq_true, if_false, if_true]

/-- A context without a store and with room takes the packet. -/
theorem storePacket_waits {index : Nat} {first last : Bool} (hring : (ctxOf s n).cfg.ring = 0) (hmode : s.mode ≠ .shadow)
    (hroom : (unsentOf (ctxOf s n)).length < 64) :
    (storePacket n bytes index first last s).1 = attachMarks n (ctxOf s n).seq index (setCtx n (fun c => { c with
      packets := c.packets
        ++ [{ seq := (ctxOf s n).seq, bytes := bytes, offset := 0, index := index, first := first, last := last, sent := false }],
      seq := (c.seq + 1) % 2 ^ 64 }) s) := by
  simp only [storePacket, hring, hmode, Nat.not_le.mpr hroom, if_false, if_true]

/-- One with 64 packets waiting drops it. -/
theorem storePacket_drops {index : Nat} {first last : Bool} (hring : (ctxOf s n).cfg.ring = 0) (hmode : s.mode ≠ .shadow)
    (hfull : 64 ≤ (unsentOf (ctxOf s n)).length) :
    (storePacket n bytes index first last s).1 = setCtx n (fun c => { c with seq := (c.seq + 1) % 2 ^ 64, dropped := satAdd 32 c.dropped 1 }) s := by
  simp only [storePacket, hring, hmode, hfull, if_false, if_true]

end

theorem pieceTaken_keeps (n : Nat) (p : StreamPiece) (ended : Bool) (k : Nat) (s : State) : KeepsPackets n s (pieceTaken n p ended k s) where
  seq := setCtx_keeps StreamCtx.seq (fun _ => by rfl) s n
  packets := setCtx_keeps StreamCtx.packets (fun _ => by rfl) s n
  dropped := setCtx_keeps StreamCtx.dropped (fun _ => by rfl) s n
  others := fun _ hi => ctxOf_setCtx_ne hi
  pool := rfl

/-- The condition of the events below, up to the room for the packet. -/
structure PacketDue (n : Nat) (choice : List Byte) (p : StreamPiece) (ended : Bool) (bytes : List Byte) (s2 s : State) : Prop where
  runs : modeRunsProducts (runMode s) = true
  inside : n < (contexts s).length
  kind : (ctxOf s n).cfg.pkind ≤ 1
  mode : s.mode ≠ .shadow
  next : nextPiece s n = some (p, ended)
  ring : (ctxOf s n).cfg.ring = 0
  packet : packetOf s n choice p = some (bytes, s2)

/-- A packet that is due is stored from a state in which its piece has left the run, and nothing else of the packets has changed. -/
theorem PacketDue.generates {n : Nat} {choice : List Byte} {p : StreamPiece} {ended : Bool} {bytes : List Byte} {s2 s : State}
    (h : PacketDue n choice p ended bytes s2 s) :
    ∃ w, evStrmPacketGenerate n [] choice [] (opened s) = (storePacket n bytes p.index p.fresh p.last w).1
      ∧ core w = core s ∧ KeepsPackets n s w ∧ (ctxOf w n).cfg.ring = 0 ∧ w.mode ≠ .shadow ∧ n < (contexts w).length := by
  obtain ⟨k, hk⟩ := generateSample_packet (s := opened s) h.mode h.next (packetOf_opened h.packet)
  obtain ⟨hcore, hctx, hpool⟩ := packetOf_keeps h.packet
  have hbefore : core (pieceTaken n p ended k (opened s2)) = core s := (setCtx_core ..).trans ((opened_core s2).trans hcore)
  have hcfg : (ctxOf (pieceTaken n p ended k (opened s2)) n).cfg = (ctxOf s n).cfg :=
    (setCtx_keeps StreamCtx.cfg (fun _ => by rfl) (opened s2) n).trans (congrArg StreamCtx.cfg (ctxOf_congr hctx n))
  refine ⟨pieceTaken n p ended k (opened s2), ?_, hbefore, ?_, by rw [hcfg, h.ring], by rw [core_mode hbefore]; exact h.mode, ?_⟩
  · rw [evStrmPacketGenerate_sample (s := opened s) h.runs h.kind, hk]
  · exact (KeepsPackets.of_contexts (t := opened s2) hctx hpool).trans (pieceTaken_keeps ..)
  · exact ((contexts_setCtx_length ..).trans (congrArg List.length hctx)).symm ▸ h.inside

theorem unsentOf_congr {c d : StreamCtx} (h : d.packets = c.packets) : unsentOf d = unsentOf c := by rw [unsentOf, h, unsentOf]

theorem packetGenerate_waits (n : Nat) (choice : List Byte) (p : StreamPiece) (ended : Bool) (bytes : List Byte) (s2 : State) :
    EventTo (fun k => .strmPacketGenerate k n [] choice [])
      (fun _ s => PacketDue n choice p ended bytes s2 s ∧ (unsentOf (ctxOf s n)).length < 64)
      (fun _ s t => (ctxOf t n).seq = ((ctxOf s n).seq + 1) % 2 ^ 64
        ∧ (ctxOf t n).packets = (ctxOf s n).packets
          ++ [{ seq := (ctxOf s n).seq, bytes := bytes, offset := 0, index := p.index, first := p.fresh, last := p.last, sent := false }]
        ∧ (ctxOf t n).dropped = (ctxOf s n).dropped ∧ (∀ i, i ≠ n → ctxOf t i = ctxOf s i)
        ∧ t.time = s.time ∧ t.mode = s.mode ∧ t.pool = s.pool) := by
  have run (s : State) (h : PacketDue n choice p ended bytes s2 s) (hroom : (unsentOf (ctxOf s n)).length < 64) :
      ∃ w, KeepsPackets n s w ∧ n < (contexts w).length ∧ core w = core s ∧ evStrmPacketGenerate n [] choice [] (opened s)
        = attachMarks n (ctxOf w n).seq p.index (setCtx n (fun c => { c with
            packets := c.packets
              ++ [{ seq := (ctxOf w n).seq, bytes := bytes, offset := 0, index := p.index, first := p.fresh, last := p.last, sent := false }],
            seq := (c.seq + 1) % 2 ^ 64 }) w) := by
    obtain ⟨w, hrun, hcore, hkeeps, hring, hmode, hin⟩ := h.generates
    exact ⟨w, hkeeps, hin, hcore, hrun.trans (storePacket_waits hring hmode (by rwa [unsentOf_congr hkeeps.packets]))⟩
  refine eventTo_of (f := fun _ => evStrmPacketGenerate n [] choice []) (fun _ _ => rfl) (fun k s ⟨h, hroom⟩ hs => ?_) ?_
  · obtain ⟨w, -, -, hcore, hrun⟩ := run s h hroom
    rw [hrun]
    exact (hs.core ((setCtx_core ..).trans hcore)).ends (ends_attachMarks ..)
  · intro k s t old ⟨h, hroom⟩ hends ht
    obtain ⟨w, hkeeps, hin, hcore, hrun⟩ := run s h hroom
    have hctx : contexts t = contexts (evStrmPacketGenerate n [] choice [] (opened s)) := ht ▸ after_contexts ..
    have hpool : t.pool = (evStrmPacketGenerate n [] choice [] (opened s)).pool := (ht ▸ after_units old _ s : SameUnits _ t).pool
    rw [hrun] at hctx hpool hends
    have hmarks := (attachMarks_keeps n (ctxOf w n).seq p.index _).trans (.of_contexts hctx hpool)
    have hbefore := (ends_attachMarks n (ctxOf w n).seq p.index _).trans hends
    refine ⟨?_, ?_, ?_, fun i hi => ?_, ?_, ?_, ?_⟩
    · rw [hmarks.seq, ctxOf_setCtx_same hin, hkeeps.seq]
    · rw [hmarks.packets, ctxOf_setCtx_same hin, hkeeps.packets, hkeeps.seq]
    · rw [hmarks.dropped, ctxOf_setCtx_same hin, hkeeps.dropped]
    · rw [hmarks.others i hi, ctxOf_setCtx_ne hi, hkeeps.others i hi]
    · exact hbefore.time.trans (core_time hcore)
    · exact hbefore.mode.trans (core_mode hcore)
    · exact hmarks.pool.trans hkeeps.pool

theorem packetGenerate_drops (n : Nat) (choice : List Byte) (p : StreamPiece) (ended : Bool) (bytes : List Byte) (s2 : State) :
    EventTo (fun k => .strmPacketGenerate k n [] choice [])
      (fun _ s => PacketDue n choice p ended bytes s2 s ∧ 64 ≤ (unsentOf (ctxOf s n)).length)
      (fun _ s t => (ctxOf t n).seq = ((ctxOf s n).seq + 1) % 2 ^ 64 ∧ (ctxOf t n).packets = (ctxOf s n).packets
        ∧ (ctxOf t n).dropped = satAdd 32 (ctxOf s n).dropped 1 ∧ t.time = s.time ∧ t.cmds = s.cmds) := by
  have run (s : State) (h : PacketDue n choice p ended bytes s2 s) (hfull : 64 ≤ (unsentOf (ctxOf s n)).length) :
      ∃ w, KeepsPackets n s w ∧ n < (contexts w).length ∧ core w = core s ∧ evStrmPacketGenerate n [] choice [] (opened s)
        = setCtx n (fun c => { c with seq := (c.seq + 1) % 2 ^ 64, dropped := satAdd 32 c.dropped 1 }) w := by
    obtain ⟨w, hrun, hcore, hkeeps, hring, hmode, hin⟩ := h.generates
    exact ⟨w, hkeeps, hin, hcore, hrun.trans (storePacket_drops hring hmode (by rwa [unsentOf_congr hkeeps.packets]))⟩
  refine eventTo_of (f := fun _ => evStrmPacketGenerate n [] choice []) (fun _ _ => rfl) (fun k s ⟨h, hfull⟩ hs => ?_) ?_
  · obtain ⟨w, -, -, hcore, hrun⟩ := run s h hfull
    rw [hrun]
    exact hs.core ((setCtx_core ..).trans hcore)
  · intro k s t old ⟨h, hfull⟩ _ ht
    obtain ⟨w, hkeeps, hin, hcore, hrun⟩ := run s h hfull
    have hctx : contexts t = contexts (evStrmPacketGenerate n [] choice [] (opened s)) := ht ▸ after_contexts ..
    have htcore : core t = core (evStrmPacketGenerate n [] choice [] (opened s)) := (ht ▸ after_units old _ s : SameUnits _ t).core
    rw [hrun] at hctx htcore
    replace htcore := htcore.trans ((setCtx_core ..).trans hcore)
    refine ⟨?_, ?_, ?_, core_time htcore, core_cmds htcore⟩
    · rw [ctxOf_congr hctx, ctxOf_setCtx_same hin, hkeeps.seq]
    · rw [ctxOf_congr hctx, ctxOf_setCtx_same hin, hkeeps.packets]
    · rw [ctxOf_congr hctx, ctxOf_setCtx_same hin, hkeeps.dropped]

theorem evStrmPacketGenerate_idle {n : Nat} {choice : List Byte} {s : State}
    (h : modeRunsProducts (runMode s) = false ∨ ((ctxOf s n).cfg.pkind ≤ 1 ∧ nextPiece s n = none)) :
    evStrmPacketGenerate n [] choice [] s = s := by
  have hnone : bringErrors [] (bringVolts [] s) = s := rfl
  rcases h with hrun | ⟨hkind, hnext⟩
  · simp [evStrmPacketGenerate, hnone, hrun]
  · simp [evStrmPacketGenerate, hnone, hkind, generateSample, hnext]

end Sys2Proof.Machine
end

section
/-! O35: what goes out (R104, R403, R406-R408, R412, R417). -/

namespace Sys2Proof.Machine

/-! ### A packet through a destination (R403, R406-R408) -/

theorem portOf_setPort {p : Nat} {f : EthPort → EthPort} {s : State} (h : p < s.strm.ports.length) : portOf (setPort p f s) p = f (portOf s p) :=
  getD_modAt_same h

theorem destOf_setDest {e : Nat} {f : DestEntry → DestEntry} {s : State} (h : e < s.strm.dests.length) : destOf (setDest e f s) e = f (destOf s e) :=
  getD_modAt_same h

theorem destOf_raiseVector (v : Nat) (s : State) (e : Nat) : destOf (raiseVector v s) e = destOf s e := by
  rw [raiseVector_frame]
  rfl

section
variable {e : Nat} {bytes : List Byte} {s : State}

theorem sendTo_none (h : (destOf s e).dest = .none) : sendTo e bytes s = s := by simp only [sendTo, h]

theorem sendTo_udp {port v6 dscp src dst mac addr} (h : (destOf s e).dest = .udp port v6 dscp src dst mac addr) :
    sendTo e bytes s = emit (.streamFrame port (udpFrame (portOf s port) v6 dscp src dst mac addr bytes))
      (setPort port (fun p => { p with txFrames := satAdd 32 p.txFrames 1 }) s) := by
  simp only [sendTo, h]

theorem sendTo_hostRing {base slots size ptr vector intEn count time}
    (h : (destOf s e).dest = .hostRing base slots size ptr vector intEn count time) :
    sendTo e bytes s = hostRingWrite e bytes s := by
  simp only [sendTo, h]

theorem sendTo_pair {remote} (h : (destOf s e).dest = .pair remote) :
    sendTo e bytes s = if s.pair.link == .up then emit (.pairRelay remote bytes) s
      else { s with pair := { s.pair with relayDropped := satAdd 32 s.pair.relayDropped 1 } } := by
  simp only [sendTo, h]

theorem hostRingWrite_prod {base slots size ptr vector intEn count time}
    (h : (destOf s e).dest = .hostRing base slots size ptr vector intEn count time)
    (hin : e < s.strm.dests.length) : (destOf (hostRingWrite e bytes s) e).prod = ((destOf s e).prod + 1) % 2 ^ 64 := by
  simp only [hostRingWrite, h]
  split
  · rw [destOf_raiseVector, destOf_setDest (by exact hin)]
  · rw [destOf_setDest (by exact hin)]

/-- Without an interrupt the two writes are all that goes out: the slot, then PROD. -/
theorem hostRingWrite_out {base slots size ptr vector count time} (h : (destOf s e).dest = .hostRing base slots size ptr vector false count time) :
    (hostRingWrite e bytes s).out = s.out ++ [.hostWrite true (base + (destOf s e).prod % 2 ^ slots * size) bytes,
      .hostWrite false ptr (bytes64 (((destOf s e).prod + 1) % 2 ^ 64))] := by
  simp only [hostRingWrite, h, Bool.false_and, Bool.false_eq_true, if_false, setDest, setStrm_out, emit_out, List.append_assoc, List.cons_append,
    List.nil_append]

/-- A packet sent leaves what the pair tells of itself, and starts nothing. -/
theorem sendTo_rest (e : Nat) (bytes : List Byte) (s : State) : pairWord (sendTo e bytes s) = pairWord s ∧ (Calm s → Calm (sendTo e bytes s)) := by
  have of_core {t : State} (h : core t = core s) : pairWord t = pairWord s ∧ (Calm s → Calm t) :=
    ⟨(pairWord_congr (core_pair h) (core_locked h)).symm, fun hs => hs.core h⟩
  cases hd : (destOf s e).dest with
  | none =>
    rw [sendTo_none hd]
    exact of_core rfl
  | udp =>
    rw [sendTo_udp hd]
    exact of_core ((emit_core ..).trans (setPort_core ..))
  | hostRing =>
    rw [sendTo_hostRing hd]
    exact of_core (hostRingWrite_core ..)
  | pair =>
    rw [sendTo_pair hd]
    split
    · exact of_core (emit_core ..)
    · exact ⟨rfl, fun hs => ⟨hs.none, hs.alone, hs.forwarded⟩⟩

end

/-! ### The turn of a context (R104, R412, R417) -/

/-- An event of which the pair may count something that it does not tell. -/
theorem event_of_word {f : Nat → State → State} {ev : Nat → Instr} {pre : Nat → State → Prop} {effect : Nat → State → State}
    (hrow : ∀ k s, exec (ev k) s = runEvent (f k) k s) (hf : ∀ k s, pre k s → f k (opened s) = effect k (opened s))
    (hcalm : ∀ k s, Calm s → Calm (effect k s)) (hword : ∀ k s, pairWord (effect k s) = pairWord s) : Event ev pre effect := by
  intro k s hq hm hp
  have hcore := repliesFirst_opened (effect k) (passTo k s)
  have hcalm' : Calm (effect k (opened (passTo k s))) := hcalm k _ (opened_calm (calm_quiet hq hm))
  have hsame : pairWord s = pairWord (repliesFirst (effect k) (passTo k s)) :=
    calc pairWord s = pairWord (passTo k s) := pairWord_congr (passTo_pair ..) (by simp [locked])
      _ = pairWord (opened (passTo k s)) := rfl
      _ = pairWord (effect k (opened (passTo k s))) := (hword k _).symm
      _ = pairWord (repliesFirst (effect k) (passTo k s)) := pairWord_congr (core_pair hcore) (core_locked hcore)
  rw [hrow, runEvent, repliesFirst_congr (hf k _ hp), finish_calm (hcalm'.core hcore), pairNotice_same hsame]

/-- The same for an effect that has the core of a packet sent. -/
theorem event_sends {f : Nat → State → State} {ev : Nat → Instr} {pre : Nat → State → Prop} {effect : State → State} {e : Nat}
    {bytes : State → List Byte}
    (hrow : ∀ k s, exec (ev k) s = runEvent (f k) k s) (hf : ∀ k s, pre k s → f k (opened s) = effect (opened s))
    (hcore : ∀ s, core (effect s) = core (sendTo e (bytes s) s)) : Event ev pre fun _ => effect :=
  event_of_word hrow hf (fun _ s hs => ((sendTo_rest e (bytes s) s).2 hs).core (hcore s)) fun _ s =>
    (pairWord_congr (core_pair (hcore s)) (core_locked (hcore s))).symm.trans (sendTo_rest e (bytes s) s).1

section
variable {n e : Nat} {p : StoredPacket} {s : State}

theorem liveReady_some (h : liveReady s n = some (p, e)) : ∃ l, unsentOf (ctxOf s n) = p :: l := by
  unfold liveReady at h
  split at h
  · cases h
  · next q l hl =>
    dsimp only at h
    split at h
    · cases h
      exact ⟨l, hl⟩
    · cases h

theorem sendLive_ready (h : liveReady s n = some (p, e)) (htheirs : theirs s n p = false) :
    sendLive n s
      = if packetLost s (ctxOf s n).cfg p then
          (if (ctxOf s n).cfg.pkind = 8 && p.last then regionDone n else id)
            (setCtx n (fun c => { passSent p.seq c with dropped := satAdd 32 c.dropped 1 }) s)
        else if !hasTurn s n (linkOf s e) then s
        else (if (ctxOf s n).cfg.pkind = 8 && p.last then regionDone n else id)
          (serveTurn n (linkOf s e) (setCtx n (markSent p.seq) (sendTo e p.bytes s))) := by
  obtain ⟨l, hl⟩ := liveReady_some h
  simp only [sendLive, hl, htheirs, h, Bool.false_eq_true, if_false]

theorem sendLive_waits (h : liveReady s n = none) {l : List StoredPacket} (hl : unsentOf (ctxOf s n) = p :: l) (htheirs : theirs s n p = false) :
    sendLive n s = s := by
  simp only [sendLive, hl, htheirs, h, Bool.false_eq_true, if_false]

theorem liveReady_none {l : List StoredPacket} (hl : unsentOf (ctxOf s n) = p :: l)
    (h : destReady s ((ctxOf s n).cfg.destFor p.seq) = false ∨ egressOf s n p = false) : liveReady s n = none := by
  simp only [liveReady, hl]
  rcases h with h | h <;> simp [h]

theorem sendRewind_ready (h : rewindReady s n = some (p, e)) (hlost : packetLost s (ctxOf s n).cfg p = false)
    (hturn : hasTurn s n (linkOf s e) = true) :
    sendRewind n s = serveTurn n (linkOf s e) (setCtx n (fun c => { c with
        retx := satAdd 32 c.retx 1, rewind := c.rewind.map fun r => { r with next := r.next + 1, resent := r.resent + 1 } })
      (sendTo e (markRetx (ctxOf s n).cfg p.bytes) s)) := by
  simp only [sendRewind, h, hlost, hturn, Bool.not_true, Bool.false_eq_true, if_false]

theorem rewindReady_none (h : egressRuns s = false ∨ (ctxOf s n).rewind = none) : rewindReady s n = none := by
  unfold rewindReady
  dsimp only
  split
  · rfl
  · next r hr =>
    have hegress : egressRuns s = false := h.resolve_right (by rw [hr]; exact nofun)
    simp [hegress]

end

theorem packetSend_sends (n : Nat) (p : StoredPacket) (e : Nat) : Event (fun k => .strmPacketSend k n false [])
    (fun _ s => liveReady s n = some (p, e) ∧ theirs s n p = false ∧ packetLost s (ctxOf s n).cfg p = false ∧ hasTurn s n (linkOf s e) = true
      ∧ ((ctxOf s n).cfg.pkind = 8 → p.last = false))
    (fun _ s => serveTurn n (linkOf s e) (setCtx n (markSent p.seq) (sendTo e p.bytes s))) := by
  refine event_sends (bytes := fun _ => p.bytes) (f := fun _ => evStrmPacketSend n false []) (fun _ _ => rfl)
    (fun k s ⟨hready, htheirs, hlost, hturn, hlast⟩ => ?_)
    fun s => (serveTurn_core ..).trans (setCtx_core ..)
  have hmore : (decide ((ctxOf (opened s) n).cfg.pkind = 8) && p.last) = false := by
    rw [Bool.and_eq_false_imp, decide_eq_true_iff]
    exact hlast
  refine (sendLive_ready (s := opened s) hready htheirs).trans ?_
  rw [show packetLost (opened s) (ctxOf (opened s) n).cfg p = false from hlost,
    show hasTurn (opened s) n (linkOf (opened s) e) = true from hturn, hmore]
  rfl

theorem packetSend_ends (n : Nat) (p : StoredPacket) (e : Nat) : Event (fun k => .strmPacketSend k n false [])
    (fun _ s => liveReady s n = some (p, e) ∧ theirs s n p = false ∧ packetLost s (ctxOf s n).cfg p = false ∧ hasTurn s n (linkOf s e) = true
      ∧ (ctxOf s n).cfg.pkind = 8 ∧ p.last = true)
    (fun _ s => regionDone n (serveTurn n (linkOf s e) (setCtx n (markSent p.seq) (sendTo e p.bytes s)))) := by
  refine event_sends (bytes := fun _ => p.bytes) (f := fun _ => evStrmPacketSend n false []) (fun _ _ => rfl)
    (fun k s ⟨hready, htheirs, hlost, hturn, hkind, hlast⟩ => ?_)
    fun s => (regionDone_core ..).trans ((serveTurn_core ..).trans (setCtx_core ..))
  refine (sendLive_ready (s := opened s) hready htheirs).trans ?_
  rw [show packetLost (opened s) (ctxOf (opened s) n).cfg p = false from hlost,
    show hasTurn (opened s) n (linkOf (opened s) e) = true from hturn,
    show (ctxOf (opened s) n).cfg.pkind = 8 from hkind, hlast]
  rfl

theorem packetSend_discards (n : Nat) (p : StoredPacket) (e : Nat) : Event (fun k => .strmPacketSend k n false [])
    (fun _ s => liveReady s n = some (p, e) ∧ theirs s n p = false ∧ packetLost s (ctxOf s n).cfg p = true ∧ (ctxOf s n).cfg.pkind ≠ 8)
    (fun _ s => setCtx n (fun c => { passSent p.seq c with dropped := satAdd 32 c.dropped 1 }) s) := by
  refine event_of_core (f := fun _ => evStrmPacketSend n false []) (fun _ _ => rfl)
    (fun k s ⟨hready, htheirs, hlost, hkind⟩ => ?_)
    fun _ s => setCtx_core ..
  refine (sendLive_ready (s := opened s) hready htheirs).trans ?_
  have hkind' : ¬(ctxOf (opened s) n).cfg.pkind = 8 := hkind
  rw [show packetLost (opened s) (ctxOf (opened s) n).cfg p = true from hlost, decide_eq_false hkind']
  rfl

theorem packetSend_turn (n : Nat) (p : StoredPacket) (e : Nat) : Event (fun k => .strmPacketSend k n false [])
    (fun _ s => liveReady s n = some (p, e) ∧ theirs s n p = false ∧ packetLost s (ctxOf s n).cfg p = false ∧ hasTurn s n (linkOf s e) = false)
    (fun _ s => s) := by
  refine event_idle (f := fun _ => evStrmPacketSend n false []) (fun _ _ => rfl) fun k s ⟨hready, htheirs, hlost, hturn⟩ => ?_
  refine (sendLive_ready (s := opened s) hready htheirs).trans ?_
  rw [show packetLost (opened s) (ctxOf (opened s) n).cfg p = false from hlost,
    show hasTurn (opened s) n (linkOf (opened s) e) = false from hturn]
  rfl

theorem packetSend_theirs (n : Nat) (p : StoredPacket) (l : List StoredPacket) : Event (fun k => .strmPacketSend k n false [])
    (fun _ s => unsentOf (ctxOf s n) = p :: l ∧ theirs s n p = true) (fun _ s => setCtx n (passSent p.seq) s) := by
  refine event_of_core (f := fun _ => evStrmPacketSend n false []) (fun _ _ => rfl) (fun k s ⟨hl, htheirs⟩ => ?_) fun _ s => setCtx_core ..
  have hl' : unsentOf (ctxOf (opened s) n) = p :: l := hl
  have htheirs' : theirs (opened s) n p = true := htheirs
  show sendLive n (opened s) = _
  simp only [sendLive, hl', htheirs', if_true]

theorem packetSend_waits (n : Nat) (p : StoredPacket) (l : List StoredPacket) : Event (fun k => .strmPacketSend k n false [])
    (fun _ s => unsentOf (ctxOf s n) = p :: l ∧ theirs s n p = false
      ∧ (destReady s ((ctxOf s n).cfg.destFor p.seq) = false ∨ egressOf s n p = false)) (fun _ s => s) :=
  event_idle (f := fun _ => evStrmPacketSend n false []) (fun _ _ => rfl) fun _ s ⟨hl, htheirs, hwait⟩ =>
    sendLive_waits (s := opened s) (liveReady_none hl hwait) hl htheirs

theorem packetSend_empty (n : Nat) : Event (fun k => .strmPacketSend k n false []) (fun _ s => unsentOf (ctxOf s n) = []) (fun _ s => s) := by
  refine event_idle (f := fun _ => evStrmPacketSend n false []) (fun _ _ => rfl) fun k s hl => ?_
  have hl' : unsentOf (ctxOf (opened s) n) = [] := hl
  show sendLive n (opened s) = _
  simp only [sendLive, hl']

theorem packetSend_rewinds (n : Nat) (p : StoredPacket) (e : Nat) : Event (fun k => .strmPacketSend k n true [])
    (fun _ s => rewindReady s n = some (p, e) ∧ packetLost s (ctxOf s n).cfg p = false ∧ hasTurn s n (linkOf s e) = true)
    (fun _ s => serveTurn n (linkOf s e) (setCtx n (fun c => { c with
        retx := satAdd 32 c.retx 1, rewind := c.rewind.map fun r => { r with next := r.next + 1, resent := r.resent + 1 } })
      (sendTo e (markRetx (ctxOf s n).cfg p.bytes) s))) :=
  event_sends (bytes := fun s => markRetx (ctxOf s n).cfg p.bytes) (f := fun _ => evStrmPacketSend n true []) (fun _ _ => rfl)
    (fun _ s ⟨hready, hlost, hturn⟩ => sendRewind_ready (s := opened s) hready hlost hturn) fun _ => (serveTurn_core ..).trans (setCtx_core ..)

theorem packetSend_noRewind (n : Nat) : Event (fun k => .strmPacketSend k n true [])
    (fun _ s => egressRuns s = false ∨ (ctxOf s n).rewind = none) (fun _ s => s) := by
  refine event_idle (f := fun _ => evStrmPacketSend n true []) (fun _ _ => rfl) fun k s h => ?_
  have hnone : rewindReady (opened s) n = none := rewindReady_none (s := opened s) h
  show sendRewind n (opened s) = _
  simp only [sendRewind, hnone]

/-! ### The end of a rewind (R417) -/

theorem endRewind_completes {n : Nat} {r : Rewind} {c : Cmd} {s : State} (st : Status) (hr : (ctxOf s n).rewind = some r)
    (hc : cmdById s r.cmd = some c) :
    endRewind n st s = complete c st (u64Words r.resent) s.index (setCtx n (fun c => { c with rewind := none }) s) := by
  have hc' : cmdById (setCtx n (fun c => { c with rewind := none }) s) r.cmd = some c := hc
  simp only [endRewind, hr, completeId, hc']

theorem rewindDone_done (n : Nat) (r : Rewind) (c : Cmd) : Event (fun k => .rewindDone k n)
    (fun _ s => (ctxOf s n).rewind = some r ∧ r.lost = false ∧ r.stop < r.next ∧ cmdById s r.cmd = some c ∧ c.src ≠ .pairLink)
    (fun _ s => complete c .ok (u64Words r.resent) s.index (setCtx n (fun c => { c with rewind := none }) s)) := by
  refine event_completes (f := fun _ => evRewindDone n) (words := fun _ => u64Words r.resent) (fun _ _ => rfl) (fun _ _ ⟨_, _, _, _, hsrc⟩ => hsrc)
    (fun k s ⟨hr, hlost, hdone, hc, _⟩ _ => ?_) fun s => setCtx_core ..
  have hr' : (ctxOf (opened s) n).rewind = some r := hr
  simp only [evRewindDone, hr', hlost, hdone, Bool.false_eq_true, if_false, if_true]
  exact endRewind_completes (s := opened s) .ok hr hc

theorem rewindDone_lost (n : Nat) (r : Rewind) (c : Cmd) : Event (fun k => .rewindDone k n)
    (fun _ s => (ctxOf s n).rewind = some r ∧ r.lost = true ∧ cmdById s r.cmd = some c ∧ c.src ≠ .pairLink)
    (fun _ s => complete c .markLost (u64Words r.resent) s.index (setCtx n (fun c => { c with rewind := none }) s)) := by
  refine event_completes (f := fun _ => evRewindDone n) (words := fun _ => u64Words r.resent) (fun _ _ => rfl) (fun _ _ ⟨_, _, _, hsrc⟩ => hsrc)
    (fun k s ⟨hr, hlost, hc, _⟩ _ => ?_) fun s => setCtx_core ..
  have hr' : (ctxOf (opened s) n).rewind = some r := hr
  simp only [evRewindDone, hr', hlost, if_true]
  exact endRewind_completes (s := opened s) .markLost hr hc

theorem evRewindDone_none {n : Nat} {s : State} (h : (ctxOf s n).rewind = none) : evRewindDone n s = s := by simp only [evRewindDone, h]

theorem sendTo_does (e : Nat) (bytes : List Byte) (s : State) :
    ((destOf s e).dest = .none → sendTo e bytes s = s)
    ∧ (∀ port v6 dscp src dst mac addr, (destOf s e).dest = .udp port v6 dscp src dst mac addr → port < s.strm.ports.length →
        (portOf (sendTo e bytes s) port).txFrames = satAdd 32 (portOf s port).txFrames 1
        ∧ (sendTo e bytes s).out = s.out ++ [.streamFrame port (udpFrame (portOf s port) v6 dscp src dst mac addr bytes)])
    ∧ (∀ base slots size ptr vector intEn count time, (destOf s e).dest = .hostRing base slots size ptr vector intEn count time →
        e < s.strm.dests.length →
        (destOf (sendTo e bytes s) e).prod = ((destOf s e).prod + 1) % 2 ^ 64
        ∧ (intEn = false → (sendTo e bytes s).out = s.out ++ [.hostWrite true (base + (destOf s e).prod % 2 ^ slots * size) bytes,
            .hostWrite false ptr (bytes64 (((destOf s e).prod + 1) % 2 ^ 64))]))
    ∧ (∀ remote, (destOf s e).dest = .pair remote → s.pair.link = .up →
        sendTo e bytes s = { s with out := s.out ++ [.pairRelay remote bytes] })
    ∧ (∀ remote, (destOf s e).dest = .pair remote → s.pair.link ≠ .up →
        sendTo e bytes s = { s with pair := { s.pair with relayDropped := satAdd 32 s.pair.relayDropped 1 } }) := by
  refine ⟨sendTo_none, ?_, ?_, ?_, ?_⟩
  · intro port v6 dscp src dst mac addr hd hport
    rw [sendTo_udp hd]
    exact ⟨congrArg EthPort.txFrames (portOf_setPort hport), rfl⟩
  · intro base slots size ptr vector intEn count time hd hin
    rw [sendTo_hostRing hd]
    refine ⟨hostRingWrite_prod hd hin, ?_⟩
    rintro rfl
    exact hostRingWrite_out hd
  · intro remote hd hup
    rw [sendTo_pair hd, if_pos (beq_iff_eq.mpr hup)]
    rfl
  · intro remote hd hdown
    rw [sendTo_pair hd, if_neg (mt beq_iff_eq.mp hdown)]

/-- Settles O35, clause by clause: a packet that is due by `PacketDue.generates`, a packet that goes out by `event_sends`, the destinations by
`sendTo_does`. -/
theorem streamEvents : Obligations.StreamEvents := by
  refine ⟨?_, ?_, fun n choice => event_idle (f := fun _ => evStrmPacketGenerate n [] choice []) (fun _ _ => rfl) fun _ s h =>
      evStrmPacketGenerate_idle (s := opened s) h, packetSend_sends, packetSend_ends, packetSend_discards, packetSend_turn, packetSend_theirs,
    packetSend_waits, packetSend_empty, packetSend_rewinds, packetSend_noRewind, rewindDone_done, rewindDone_lost,
    fun n => event_idle (f := fun _ => evRewindDone n) (fun _ _ => rfl) fun _ s h => evRewindDone_none (s := opened s) h, sendTo_does⟩
  · intro n choice p ended bytes s2 k s hq hm ⟨hrun, hin, hkind, hmode, hnext, hring, hroom, hpacket⟩
    exact packetGenerate_waits n choice p ended bytes s2 k s hq hm ⟨⟨hrun, hin, hkind, hmode, hnext, hring, hpacket⟩, hroom⟩
  · intro n choice p ended bytes s2 k s hq hm ⟨hrun, hin, hkind, hmode, hnext, hring, hfull, hpacket⟩
    exact packetGenerate_drops n choice p ended bytes s2 k s hq hm ⟨⟨hrun, hin, hkind, hmode, hnext, hring, hpacket⟩, hfull⟩

end Sys2Proof.Machine
end

section
/-! O6, O26, O28: effects that change the timebase beside ending commands, and the events that have such an effect. -/

namespace Sys2Proof.Machine

/-! ### Effects that end commands and change the timebase -/

/-- From `s` to `t` commands only end or go on, and units change, the timebase among them. -/
def Retimes (s t : State) : Prop := Ends (setTime (fun _ => t.time) s) t

theorem setTime_congr {f g : TimeUnit → TimeUnit} {s : State} (h : f s.time = g s.time) : setTime f s = setTime g s := by
  rw [setTime, h, ← setTime]

theorem Ends.setTime {s t : State} (h : Ends s t) (f : TimeUnit → TimeUnit) : Ends (setTime f s) (setTime f t) :=
  { h with time := congrArg f h.time }

theorem Ends.retimes {s t : State} (h : Ends s t) : Retimes s t := h.setTime fun _ => t.time

theorem retimes_setTime (f : TimeUnit → TimeUnit) (s : State) : Retimes s (setTime f s) := Ends.refl _

theorem Retimes.trans {s t u : State} (a : Retimes s t) (b : Retimes t u) : Retimes s u := (Ends.setTime a fun _ => u.time).trans b

theorem Retimes.calm {s t : State} (h : Retimes s t) (hs : Calm s) : Calm t := (setTime_calm hs).ends h

theorem retimes_failSyncs (s : State) : Retimes s (failSyncs s) := by
  obtain ⟨u, hu, he⟩ := failSyncs_ends s
  exact he ▸ hu.retimes.trans (retimes_setTime ..)

theorem retimes_endResume (s : State) : Retimes s (endResume s) := by
  obtain ⟨u, hu, he⟩ := endResume_ends s
  exact hu.retimes.trans ((retimes_setTime ..).trans he.retimes)

theorem endResume_time (s : State) : (endResume s).time = { s.time with resume := none, step := none } := by
  obtain ⟨u, hu, he⟩ := endResume_ends s
  rw [he.time, setTime_time, hu.time]

/-! ### Effects that leave the commands, the pair and the lock -/

/-- The outstanding commands, the pair and the lock of `t` are those of `s`. -/
structure Stays (s t : State) : Prop where
  cmds : t.cmds = s.cmds
  pair : t.pair = s.pair
  lock : locked t = locked s

theorem Stays.trans {s t u : State} (a : Stays s t) (b : Stays t u) : Stays s u := ⟨b.cmds.trans a.cmds, b.pair.trans a.pair, b.lock.trans a.lock⟩

theorem stays_core {s t : State} (h : core t = core s) : Stays s t := ⟨core_cmds h, core_pair h, core_locked h⟩

theorem stays_setTime {f : TimeUnit → TimeUnit} {s : State} (h : (f s.time).tb.isLocked = s.time.tb.isLocked) : Stays s (setTime f s) :=
  ⟨rfl, rfl, h⟩

theorem stays_opened (s : State) : Stays s (opened s) := stays_core (opened_core s)

theorem Stays.notify {s t : State} (h : Stays s t) (code idx : Nat) (words : List Word) : Stays s (Machine.notify code words idx t) :=
  h.trans (stays_core (notify_core ..))

theorem Stays.setTime {s t : State} (h : Stays s t) {f : TimeUnit → TimeUnit} (hl : (f t.time).tb.isLocked = t.time.tb.isLocked) :
    Stays s (Machine.setTime f t) := h.trans (stays_setTime hl)

theorem Stays.calm {s t : State} (h : Stays s t) (hs : Calm s) : Calm t := hs.same h.cmds h.pair

theorem completeId_of {id : Nat} {c : Cmd} {s : State} (h : cmdById s id = some c) (st : Status) (pl : List Word) (i : Nat) :
    completeId id st pl i s = complete c st pl i s := by
  rw [completeId, h]

theorem cmdById_stays {s t : State} (h : Stays s t) (id : Nat) : cmdById t id = cmdById s id := by
  rw [cmdById, h.cmds, cmdById]

/-- An event that leaves the outstanding commands, the pair and the lock. -/
theorem event_stays {f : Nat → State → State} {ev : Nat → Instr} {pre : Nat → State → Prop} {effect : Nat → State → State}
    (hrow : ∀ k s, exec (ev k) s = runEvent (f k) k s) (hf : ∀ k s, pre k s → Calm s → f k (opened s) = effect k (opened s))
    (h : ∀ k s, pre k s → Stays s (effect k (opened s))) : Event ev pre effect :=
  event_of_calm (event_of hrow (fun k s hs => hf k s hs.1 hs.2) (fun k s hp hs => (h k s hp.1).calm hs) (fun k s _ hp => (h k s hp.1).pair)
    fun k s hp => (h k s hp.1).lock)

/-- An event that changes nothing but the timebase, and not whether it is locked. -/
theorem event_setTime {f : State → State} {ev : Nat → Instr} {pre : State → Prop} {g : TimeUnit → TimeUnit}
    (hrow : ∀ k s, exec (ev k) s = runEvent f k s) (hf : ∀ s, pre s → f (opened s) = setTime g (opened s))
    (hl : ∀ s, pre s → (g s.time).tb.isLocked = s.time.tb.isLocked) : Event ev (fun _ => pre) fun _ s => setTime g s :=
  event_stays hrow (fun _ s h _ => hf s h) fun _ s h => (stays_opened s).setTime (hl s h)

/-- An event that leaves the commands, the pair and the lock, and then completes the command of a local source. -/
theorem event_stays_completes {f : Nat → State → State} {ev : Nat → Instr} {pre : Nat → State → Prop} {c : Cmd} {st : Status}
    {words : State → List Word} {g : State → State}
    (hrow : ∀ k s, exec (ev k) s = runEvent (f k) k s) (hsrc : ∀ k s, pre k s → c.src ≠ .pairLink)
    (hf : ∀ k s, pre k s → f k (opened s) = complete c st (words (opened s)) s.index (g (opened s)))
    (h : ∀ k s, pre k s → Stays s (g (opened s))) : Event ev pre fun _ s => complete c st (words s) s.index (g s) := by
  refine event_of hrow hf (fun k s hp hs => complete_calm ((h k s hp).calm hs)) (fun k s hfwd hp => ?_) fun k s hp => ?_
  · rw [complete_pair _ _ _ _ (hsrc k s hp), (h k s hp).pair, recordOwn_none hfwd]
  · rw [locked, complete_time, ← (h k s hp).lock, locked]

end Sys2Proof.Machine
end

section
/-! O6: the commands of the Time group (R153-R163). -/

namespace Sys2Proof.Machine

/-! ### The pair of a device that is no mirror -/

/-- Of a device that is no mirror, and that awaits the status of no forwarded command, the pair stays from `s` to `t`. -/
structure PairStands (s t : State) : Prop where
  pair : s.pair.role ≠ .mirror → s.pair.forwarded = [] → t.pair = s.pair

theorem PairStands.trans {s t u : State} (a : PairStands s t) (b : PairStands t u) : PairStands s u where
  pair hr hf := (b.pair (a.pair hr hf ▸ hr) (a.pair hr hf ▸ hf)).trans (a.pair hr hf)

theorem pairStands_core {s t : State} (h : core t = core s) : PairStands s t := ⟨fun _ _ => core_pair h⟩

theorem pairStands_refl (s : State) : PairStands s s := ⟨fun _ _ => rfl⟩

theorem pairStands_setTime (f : TimeUnit → TimeUnit) (s : State) : PairStands s (setTime f s) := ⟨fun _ _ => rfl⟩

theorem pairStands_foldl {β : Type} (l : List β) (f : State → β → State) (s : State) (h : ∀ a i, PairStands a (f a i)) :
    PairStands s (l.foldl f s) := by
  induction l generalizing s with
  | nil => exact pairStands_refl s
  | cons x t ih => exact (h s x).trans (ih _)

/-- Only a mirror diverges. -/
theorem diverge_of_ne {m : Nat} {s : State} (h : s.pair.role ≠ .mirror) : diverge m s = s := if_neg (mt beq_iff_eq.mp h)

theorem pairStands_deliverReply (c : Cmd) (e : Entry) (s : State) : PairStands s (deliverReply c e s) := by
  refine ⟨fun hr _ => ?_⟩
  by_cases hsrc : c.src = .pairLink
  · have hwrite : (writeReply c e s).pair = s.pair := by
      simp only [writeReply, hsrc, diverge_of_ne hr, ite_self]
      split <;> rfl
    unfold deliverReply
    split
    · exact hwrite
    · rfl
  · exact deliverReply_pair e s hsrc

theorem pairStands_complete (c : Cmd) (st : Status) (pl : List Word) (i : Nat) (s : State) : PairStands s (complete c st pl i s) := by
  have h1 : PairStands s { s with cmds := s.cmds.filter (fun d => d.id != c.id), pair := recordOwn c.id st s.pair } :=
    ⟨fun _ hf => recordOwn_none hf⟩
  refine h1.trans ?_
  unfold complete
  extract_lets e s1 s2
  have h2 : PairStands s1 s2 := by
    dsimp only [s2]
    split
    · exact pairStands_core (rememberReply_core ..)
    · exact pairStands_refl s1
  split
  · exact h2
  · exact h2.trans (pairStands_deliverReply ..)

theorem pairStands_completeId (id : Nat) (st : Status) (pl : List Word) (i : Nat) (s : State) : PairStands s (completeId id st pl i s) := by
  unfold completeId
  split
  · exact pairStands_complete ..
  · exact pairStands_refl s

theorem pairStands_decideBefore (e : Nat) (s : State) : PairStands s (decideBefore e s) := by
  unfold decideBefore
  dsimp only
  split
  · exact ⟨fun _ hf => (core_pair ((core_mk (afterChanges _) ..).trans (afterChanges_core ..))).trans (decideSteps_pair _ _ _ hf)⟩
  · exact pairStands_refl s

theorem pairStands_finishBefore (e : Nat) (s : State) : PairStands s (finishBefore e s) :=
  PairStands.trans (pairStands_core ((catchAll_core ..).trans (foldl_core _ _ _ fun _ _ => drainEngine_core ..))) (pairStands_decideBefore e _)

theorem stopProducts_core (reason e ring limit : Nat) (gap : Bool) (s : State) :
    core (stopProducts reason e ring limit gap s) = core (finishBefore e s) := by
  unfold stopProducts
  generalize finishBefore e s = a
  refine (foldl_core _ _ _ fun _ _ => (endRun_core ..).trans (endStreams_core ..)).trans ?_
  refine (foldl_core _ _ _ fun _ _ => endDensity_core ..).trans ?_
  refine (foldl_core _ _ _ fun _ _ => endGrid_core ..).trans ?_
  refine foldl_core _ _ _ fun x _ => ?_
  split
  · exact endFeeds_core ..
  · rfl

theorem pairStands_skipForced (u : Nat) (s : State) : PairStands s (skipForced u s) := by
  refine (pairStands_core (core_mk ..)).trans (pairStands_foldl _ _ _ fun a f => ?_)
  split
  · split
    · exact pairStands_complete ..
    · exact ⟨fun _ _ => rfl⟩
  · exact pairStands_refl a

theorem pairStands_breakMeasure (st : Status) (s : State) : PairStands s (breakMeasure st s) := by
  unfold breakMeasure
  split
  · exact pairStands_refl s
  · exact (pairStands_core (endActivity_core ..)).trans (pairStands_completeId ..)

theorem pairStands_gapStop (u reason ring stop : Nat) (step : Bool) (s : State) : PairStands s (gapStop u reason ring stop step s) := by
  unfold gapStop
  refine PairStands.trans ?_ (pairStands_breakMeasure ..)
  refine PairStands.trans ?_ (pairStands_core (dropDwell_core ..))
  refine PairStands.trans ?_ (pairStands_skipForced ..)
  refine PairStands.trans ?_ (pairStands_core ((markGap_core ..).trans (core_mk ..)))
  refine PairStands.trans ?_ (pairStands_core ((unlockTdc_core ..).trans ((stopSlots_core ..).trans (stopProducts_core ..))))
  exact ((pairStands_finishBefore u s).trans (pairStands_core (gapInt_core ..))).trans (pairStands_finishBefore ..)

theorem pairStands_failSyncs (s : State) : PairStands s (failSyncs s) := by
  unfold failSyncs
  exact PairStands.trans (pairStands_foldl _ _ s fun _ _ => pairStands_completeId ..) (pairStands_setTime ..)

theorem pairStands_endResume (s : State) : PairStands s (endResume s) := by
  unfold endResume
  extract_lets s1 s2
  have h1 : PairStands s s1 := by
    dsimp only [s1]
    split
    · exact pairStands_completeId ..
    · exact pairStands_refl s
  have h2 : PairStands s1 s2 := by
    dsimp only [s2]
    split
    · split
      · exact pairStands_completeId ..
      · exact pairStands_refl s1
    · exact pairStands_refl s1
  exact (h1.trans h2).trans ((pairStands_setTime ..).trans (pairStands_foldl _ _ _ fun _ _ => pairStands_completeId ..))

/-! ### TIME_SPLL_CONFIG (R153) -/

/-- The samples stop, and the TIME_SYNCs and the resumes that wait end, as TIME_SPLL_CONFIG mutes the SPLL. -/
def spllMuted (s : State) : State :=
  let s0 := if s.time.tb == .locked then setTime (fun t => { t with holdDac := (takeFree s).1.toNat % 2 ^ 20 }) (takeFree s).2 else s
  endResume (failSyncs (if delivering s0 then gapStop (s.index + 1) 1 (s.index + 1) (s.index + 1) false s0 else s0))

theorem spllMuted_ends (s : State) : Retimes s (spllMuted s) ∧ PairStands s (spllMuted s) := by
  unfold spllMuted
  extract_lets s0
  have h0 : Retimes s s0 ∧ PairStands s s0 := by
    dsimp only [s0]
    split
    · exact ⟨(ends_core (takeFree_core s)).retimes.trans (retimes_setTime ..), (pairStands_core (takeFree_core s)).trans (pairStands_setTime ..)⟩
    · exact ⟨(Ends.refl s).retimes, pairStands_refl s⟩
  have h1 : Ends s0 (if delivering s0 then gapStop (s.index + 1) 1 (s.index + 1) (s.index + 1) false s0 else s0)
      ∧ PairStands s0 (if delivering s0 then gapStop (s.index + 1) 1 (s.index + 1) (s.index + 1) false s0 else s0) := by
    split
    · exact ⟨ends_gapStop .., pairStands_gapStop ..⟩
    · exact ⟨Ends.refl s0, pairStands_refl s0⟩
  exact ⟨h0.1.trans (h1.1.retimes.trans ((retimes_failSyncs _).trans (retimes_endResume _))),
    h0.2.trans (h1.2.trans ((pairStands_failSyncs _).trans (pairStands_endResume _)))⟩

/-- The timebase that TIME_SPLL_CONFIG asks for, which waits for its lock. -/
structure Reconfigured (c : Cmd) (t : TimeUnit) : Prop where
  tb : t.tb = .relocking
  refFreq : t.refFreq = (c.word 0).toNat
  refDiv : t.refDiv = c.arg 1 7 0
  fbDiv : t.fbDiv = c.arg 1 28 16
  indexStart : t.indexStart = c.arg64 2

theorem startSpllConfig_reconfigures (c : Cmd) (s : State) : Reconfigured c (startSpllConfig c s).time := ⟨rfl, rfl, rfl, rfl, rfl⟩

theorem startSpllConfig_notReady (c : Cmd) (s : State) : (startSpllConfig c s).tdc.notReady = true := rfl

theorem startSpllConfig_core (c : Cmd) (s : State) :
    core (startSpllConfig c s) = core (setTime (fun _ => (startSpllConfig c s).time) (spllMuted s)) := rfl

theorem retimes_startSpllConfig (c : Cmd) (s : State) : Retimes s (startSpllConfig c s) :=
  (spllMuted_ends s).1.trans ((retimes_setTime ..).trans (ends_core (startSpllConfig_core c s)).retimes)

theorem pairStands_startSpllConfig (c : Cmd) (s : State) : PairStands s (startSpllConfig c s) :=
  (spllMuted_ends s).2.trans ((pairStands_setTime ..).trans (pairStands_core (startSpllConfig_core c s)))

theorem repliesFirst_tdc (f : State → State) (s : State) : (repliesFirst f s).tdc = (f (opened s)).tdc := by
  have h := congrArg State.tdc (after_frame (repliesFirst f s) f s)
  rwa [pairNotice_same rfl] at h

/-- Of a device that is in no pair the lock is no matter of its PAIR_STATUS. -/
theorem pairWord_solo {s t : State} (h : t.pair = s.pair) (hs : s.pair.role = .solo) : pairWord s = pairWord t := by
  simp [pairWord, h, hs]

/-- The row of an accepted TIME_SPLL_CONFIG in a device that has no mirror: the effect, and the command stays outstanding. -/
theorem spllConfig_starts {k : Nat} {p : Packet} {s : State} (ha : accepted specTimeSpllConfig k p s = true) :
    startCmd specTimeSpllConfig (rowCmd k p s) (rowState k p s)
      = repliesFirst (fun a => keepRunning (rowCmd k p s) (startSpllConfig (rowCmd k p s) a)) (rowState k p s) := by
  obtain ⟨h, hck⟩ := accepted_iff.mp ha
  have harrival : ({ rowCmd k p s with arrival := (rowState k p s).index } : Cmd) = rowCmd k p s := rfl
  have htimed : (rowCmd k p s).timed = false := timed_of_no h.local rfl (checkCmd_none hck).2.1
  have halone : hasMirror (startSpllConfig (rowCmd k p s) (opened (rowState k p s))) = false :=
    (retimes_startSpllConfig ..).alone.trans ((hasMirror_congr (rowState_pair k p s)).trans h.alone)
  have hlead : leadNs specTimeSpllConfig (rowCmd k p s) (rowState k p s) = none := leadNs_none rfl
  simp only [startCmd, harrival, hck, htimed, hlead, Bool.false_eq_true, if_false, runNow]
  refine repliesFirst_congr ?_
  show settleFate _ _ (if true = true then forwardCmd _ _ _ (startSpllConfig _ _) else _, Fate.later) = _
  rw [if_pos rfl, forwardCmd_alone halone]
  rfl

theorem keepRunning_time (c : Cmd) (s : State) : (keepRunning c s).time = s.time := rfl

theorem keepRunning_tdc (c : Cmd) (s : State) : (keepRunning c s).tdc = s.tdc := rfl

/-- With no other command outstanding, none waits once this one runs. -/
theorem keepRunning_noneWaits {c : Cmd} {s t : State} (hs : s.cmds = [c]) (h : Retimes s t) : noneWaits (keepRunning c t).cmds = true := by
  refine List.all_eq_true.mpr fun d hd => ?_
  rcases List.mem_append.mp hd with hd | hd
  · obtain ⟨hd, hne⟩ := List.mem_filter.mp hd
    obtain ⟨x, hx, hid, -⟩ := h.fewer d hd
    have hx : x = c := List.mem_singleton.mp (hs ▸ hx)
    simp [← hid, hx] at hne
  · rw [List.mem_singleton.mp hd]
    rfl

theorem timeSpllConfig_starts (k : Nat) (p : Packet) (s : State) (ha : accepted specTimeSpllConfig k p s = true) (hsolo : s.pair.role = .solo)
    (hnone : s.cmds = []) : ∃ t, exec (.timeSpllConfig k p) s = .next t
      ∧ t.time.tb = .relocking ∧ t.time.refFreq = ((rowCmd k p s).word 0).toNat
      ∧ t.time.refDiv = (rowCmd k p s).arg 1 7 0 ∧ t.time.fbDiv = (rowCmd k p s).arg 1 28 16
      ∧ t.time.indexStart = (rowCmd k p s).arg64 2 ∧ t.tdc.notReady = true := by
  have h := (accepted_iff.mp ha).1
  have hstart := spllConfig_starts ha
  have hcore := repliesFirst_opened (fun a => keepRunning (rowCmd k p s) (startSpllConfig (rowCmd k p s) a)) (rowState k p s)
  have htdc := repliesFirst_tdc (fun a => keepRunning (rowCmd k p s) (startSpllConfig (rowCmd k p s) a)) (rowState k p s)
  rw [← hstart] at hcore htdc
  have hre := retimes_startSpllConfig (rowCmd k p s) (opened (rowState k p s))
  have hopened := opened_core (rowState k p s)
  have hforwarded : (opened (rowState k p s)).pair.forwarded = [] := by
    rw [core_pair hopened, rowState_pair]
    exact quiet_forwarded h.quiet
  have hpair : (startCmd specTimeSpllConfig (rowCmd k p s) (rowState k p s)).pair = s.pair := by
    have hstands := (pairStands_startSpllConfig (rowCmd k p s) (opened (rowState k p s))).pair
    rw [core_pair hopened, rowState_pair] at hstands
    exact (core_pair hcore).trans (hstands (by simp [hsolo]) (quiet_forwarded h.quiet))
  refine ⟨_, row_starts h rfl ?_ ?_ (pairWord_solo hpair hsolo), ?_⟩
  · rw [core_cmds hcore]
    refine keepRunning_noneWaits ?_ hre
    rw [core_cmds hopened, rowState_cmds, hnone, List.nil_append]
  · rw [hpair]
    exact quiet_forwarded h.quiet
  · have htime := core_time hcore
    rw [keepRunning_time] at htime
    rw [keepRunning_tdc] at htdc
    obtain ⟨htb, hfreq, hdiv, hfb, hindex⟩ := startSpllConfig_reconfigures (rowCmd k p s) (opened (rowState k p s))
    rw [htime, htdc]
    exact ⟨htb, hfreq, hdiv, hfb, hindex, startSpllConfig_notReady _ _⟩

/-! ### TIME_REF_RESUME (R158) -/

/-- Outside holdover there is nothing to resume. -/
theorem runRefResume_locked {c : Cmd} {e : Nat} {s : State} (htb : s.time.tb = .locked) :
    runRefResume c e s = (s, .done .ok (0#32 :: (i64Words s.time.jump ++ i64Words 0))) := by
  simp only [runRefResume, htb]
  rfl

theorem runRefResume_holdover {c : Cmd} {e : Nat} {s : State} (htb : s.time.tb = .holdover) (htimed : c.timed = false) :
    runRefResume c e s = (setTime (fun t => { t with resume := some { cmd := c.id, step := c.flag 0 0 } }) s, .first .deferred) := by
  simp only [runRefResume, htb, htimed]
  rfl

theorem requestStep_alone {b : Nat} {cmd : Option Nat} {remeasure : Bool} {s : State} (h : hasMirror s = false) :
    requestStep b cmd remeasure s = setTime (fun t => { t with
      step := some { boundary := b, cmd := cmd, fromSlew := t.tb == .slew, remeasure := remeasure }, resume := none }) s := by
  rw [requestStep, h]
  rfl

theorem runRefResume_step {c : Cmd} {e : Nat} {s : State} (htb : s.time.tb = .qualified) (hknown : s.time.jumpKnown = true)
    (hstep : c.flag 0 0 = true) (hm : hasMirror s = false) (htimed : c.timed = false) :
    runRefResume c e s = (setTime (fun t => { t with
      step := some { boundary := boundaryAfter s 10000, cmd := some c.id, fromSlew := false, remeasure := false }, resume := none }) s,
      .later) := by
  simp only [runRefResume, htb, hknown, hstep, htimed, requestStep_alone hm]
  simp [TbState.isHoldover, setTime, htb]

/-! ### TIME_PTP_ADJUST (R163) -/

/-- A time unit with another PTP_ADJUST. -/
def withPtpAdjust (v : Int) (t : TimeUnit) : TimeUnit := { t with ptpAdjust := v }

theorem setTime_withPtpAdjust_locked (v : Int) (s : State) : locked (setTime (withPtpAdjust v) s) = locked s := rfl

theorem timePtpAdjust_sets {c : Cmd} {e : Nat} {s : State} (h : c.flag 0 0 = false) :
    specTimePtpAdjust.run c e s = (setTime (withPtpAdjust (signed 64 (c.arg64 1))) s, .done .ok (i64Words (signed 64 (c.arg64 1)))) := by
  simp only [specTimePtpAdjust, h, Bool.false_eq_true, if_false]
  generalize signed 64 (c.arg64 1) = v
  rfl

theorem timePtpAdjust_adds {c : Cmd} {e : Nat} {s : State} (h : c.flag 0 0 = true) :
    specTimePtpAdjust.run c e s = (setTime (withPtpAdjust (satI64 (s.time.ptpAdjust + signed 64 (c.arg64 1)))) s,
      .done .ok (i64Words (satI64 (s.time.ptpAdjust + signed 64 (c.arg64 1))))) := by
  simp only [specTimePtpAdjust, h, if_true]
  generalize satI64 (s.time.ptpAdjust + signed 64 (c.arg64 1)) = v
  rfl

theorem timePtpAdjust_does {pre : Cmd → State → Prop} {v : Cmd → State → Int}
    (h : ∀ c e s, pre c s → specTimePtpAdjust.run c e (opened s) = (setTime (withPtpAdjust (v c (opened s))) (opened s),
      .done .ok (i64Words (v c (opened s))))) :
    Does .timePtpAdjust specTimePtpAdjust pre (fun c s => setTime (withPtpAdjust (v c s)) s) (fun c s => i64Words (v c s)) :=
  does_of (fun _ _ _ => rfl) rfl (fun _ => rfl) (fun c s _ _ hpre => h c s.index s hpre) (fun _ _ _ => rfl) (fun _ _ _ => rfl)
    fun _ s _ => (setTime_withPtpAdjust_locked _ (opened s)).trans rfl

/-- Settles O6: TIME_SPLL_CONFIG by `timeSpllConfig_starts`; each other command by its execution, which leaves the commands, the pair and the lock. -/
theorem timeCommands : Obligations.TimeCommands := by
  unfold Obligations.TimeCommands
  refine ⟨timeSpllConfig_starts, ?_, timeSetEpoch_does, ?_, ?_, ?_, ?_, ?_, ?_, ?_, ?_, ?_, fun d => ?_, ?_, ?_, ?_⟩
  · exact does_core (fun _ _ _ => rfl) rfl (fun _ => rfl) (fun _ _ _ _ _ => rfl) fun _ _ => rfl
  · exact defers_core (fun _ _ _ => rfl) rfl (fun _ => rfl) (fun _ _ _ _ _ => rfl) (fun _ _ => rfl) (fun _ _ => rfl) (fun _ _ => rfl) fun _ _ => rfl
  · exact does_of (fun _ _ _ => rfl) rfl (fun _ => rfl) (fun _ _ _ _ _ => rfl) (fun _ _ _ => rfl) (fun _ _ _ => rfl) fun _ _ _ => rfl
  · exact does_core (fun _ _ _ => rfl) rfl (fun _ => rfl) (fun c s _ _ h => runRefResume_locked (s := opened s) h) fun _ _ => rfl
  · exact defers_core (fun _ _ _ => rfl) rfl (fun _ => rfl) (fun c s ht _ h => runRefResume_holdover (s := opened s) h ht) (fun _ _ => rfl)
      (fun _ _ => rfl) (fun _ _ => rfl) fun _ _ => rfl
  · exact begins_of (fun _ _ _ => rfl) rfl (fun _ => rfl)
      (fun c s ht _ ⟨htb, hknown, hstep, hm⟩ => runRefResume_step (s := opened s) htb hknown hstep hm ht) (fun _ _ _ => rfl) (fun _ _ _ => rfl)
      fun _ _ _ => rfl
  · exact does_of (fun _ _ _ => rfl) rfl (fun _ => rfl) (fun _ _ _ _ _ => rfl) (fun _ _ _ => rfl) (fun _ _ _ => rfl) fun _ _ _ => rfl
  · exact holds_of (fun _ _ _ => rfl) rfl (by decide) fun _ => rfl
  · exact fires_of rfl (fun _ _ _ _ => rfl) (fun _ _ _ _ => rfl) (fun _ _ _ _ => rfl) fun _ _ _ _ => rfl
  · exact does_core (fun _ _ _ => rfl) rfl (fun _ => rfl) (fun _ _ _ _ _ => rfl) fun _ _ => rfl
  · refine does_core (fun _ _ _ => rfl) rfl (fun _ => rfl) (fun c s _ _ h => ?_) fun _ _ => rfl
    have h : (opened s).time.ppsLast = some d := h
    simp only [specTimePpsRead, h]
    rfl
  · refine does_core (fun _ _ _ => rfl) rfl (fun _ => rfl) (fun c s _ _ h => ?_) fun _ _ => rfl
    have h : (opened s).time.ppsLast = none := h
    simp only [specTimePpsRead, h]
    rfl
  · exact timePtpAdjust_does (v := fun c _ => signed 64 (c.arg64 1)) fun _ _ _ h => timePtpAdjust_sets h
  · exact timePtpAdjust_does (v := fun c s => satI64 (s.time.ptpAdjust + signed 64 (c.arg64 1))) fun _ _ _ h => timePtpAdjust_adds h

end Sys2Proof.Machine
end

section
/-! O26: the loss of the reference and its return (R132, R136-R139, R141, R158). -/

namespace Sys2Proof.Machine

/-! ### The loss of the reference (R132, R136, R141) -/

theorem failSyncs_none {s : State} (h : s.time.syncs = []) : failSyncs s = setTime (fun t => { t with syncs := [] }) s := by
  simp only [failSyncs, h, List.foldl_nil]

/-- The timebase as a loss during lock leaves it, declared by missing edges or, with `present`, by frequency. -/
def lossTime (present : Bool) (dac : Nat) (s : State) (t : TimeUnit) : TimeUnit :=
  { t with
    tb := .holdover, holdDac := dac % 2 ^ 20, holdStart := s.index, tjEntry := t.tj, qualifying := present, jumpKnown := false, ppsWait := false,
    ppsDelta := none, ppsHeld := t.ppsAt, refLossCount := satAdd 32 t.refLossCount 1 }

/-- The timebase as a loss during a slew leaves it: the tracker mean and the edge of the first loss stand. -/
def slewLossTime (present : Bool) (s : State) (t : TimeUnit) : TimeUnit :=
  { t with
    tb := .holdover, holdStart := s.index, tjEntry := t.tj, qualifying := present, jumpKnown := false, ppsWait := false,
    ppsDelta := none, refLossCount := satAdd 32 t.refLossCount 1 }

theorem declareLoss_locked {cause dac : Nat} {s : State} (h : s.time.tb = .locked) : declareLoss cause dac s
    = notify 0x0203 (u64Words s.index ++ [BitVec.ofNat 32 cause]) s.index (failSyncs (setTime (lossTime (cause == 1) dac s) s)) := by
  simp only [declareLoss, h]
  rfl

theorem declareLoss_slew {cause dac : Nat} {s : State} (h : s.time.tb = .slew) : declareLoss cause dac s
    = notify 0x0203 (u64Words s.index ++ [BitVec.ofNat 32 cause]) s.index (failSyncs (setTime (slewLossTime (cause == 1) s) s)) := by
  simp only [declareLoss, h]
  rfl

/-- A loss while the device follows its reference is declared: holdover begins at the present index, and the SYNC waits end. -/
theorem declareLoss_declares {cause : Nat} (dac : Nat) {s : State} (h : s.time.tb = .locked ∨ s.time.tb = .slew) :
    ∃ f, declareLoss cause dac s = notify 0x0203 (u64Words s.index ++ [BitVec.ofNat 32 cause]) s.index (failSyncs (setTime f s))
      ∧ (f s.time).tb = .holdover ∧ (f s.time).holdStart = s.index ∧ (f s.time).syncs = s.time.syncs := by
  rcases h with h | h
  · exact ⟨_, declareLoss_locked h, rfl, rfl, rfl⟩
  · exact ⟨_, declareLoss_slew h, rfl, rfl, rfl⟩

theorem declareLoss_qualified {cause dac : Nat} {s : State} (h : s.time.tb = .qualified) :
    declareLoss cause dac s = setTime (fun t => { t with
      tb := .holdover, qualifying := cause == 1, jumpKnown := false, ppsWait := false, ppsDelta := none,
      refLossCount := satAdd 32 t.refLossCount 1 }) s := by
  simp only [declareLoss, h]

/-- The test of a returning reference starts over. -/
theorem declareLoss_again {cause dac : Nat} {s : State} (h : s.time.tb = .holdover ∨ s.time.tb = .waitRef) (hq : s.time.qualifying = true) :
    declareLoss cause dac s = setTime (fun t => { t with refLossCount := satAdd 32 t.refLossCount 1 }) s := by
  rcases h with h | h <;> simp only [declareLoss, h, hq, if_true]

theorem declareLoss_relocking {cause dac : Nat} {s : State} (h : s.time.tb = .relocking) (hr : s.time.relockStep = none) :
    declareLoss cause dac s = setTime (fun t => { t with tb := .waitRef, relockStep := none }) s := by
  simp only [declareLoss, h, hr]

/-- A loss during lock with no SYNC edge awaited. -/
theorem declareLoss_unawaited {cause dac : Nat} {s : State} (h : s.time.tb = .locked) (hsyncs : s.time.syncs = []) : declareLoss cause dac s
    = notify 0x0203 (u64Words s.index ++ [BitVec.ofNat 32 cause]) s.index
        (setTime (fun t => { lossTime (cause == 1) dac s t with syncs := [] }) s) := by
  have hsyncs : (setTime (lossTime (cause == 1) dac s) s).time.syncs = [] := hsyncs
  rw [declareLoss_locked h, failSyncs_none hsyncs]
  rfl

theorem refMissingEdge_locked (dac : Nat) : Event (fun k => .refMissingEdge k dac) (fun _ s => s.time.tb = .locked ∧ s.time.syncs = [])
    (fun _ s => setTime (fun t => { t with refPresent := false, qualifying := false })
      (notify 0x0203 (u64Words s.index ++ [0#32]) s.index (setTime (fun t => { t with
        tb := .holdover, holdDac := dac % 2 ^ 20, holdStart := s.index, tjEntry := t.tj, qualifying := false, jumpKnown := false, ppsWait := false,
        ppsDelta := none, ppsHeld := t.ppsAt, refLossCount := satAdd 32 t.refLossCount 1, syncs := [] }) s))) := by
  refine event_stays (f := fun _ => evRefMissingEdge dac) (fun _ _ => rfl) (fun k s ⟨htb, hsyncs⟩ _ => ?_) fun k s ⟨htb, _⟩ => ?_
  · rw [evRefMissingEdge, declareLoss_unawaited (s := opened s) htb hsyncs]
    rfl
  · have htb : (opened s).time.tb = .locked := htb
    exact (((stays_opened s).setTime (by rw [htb]; rfl)).notify ..).setTime rfl

theorem refFreqCheck_locked (dac : Nat) (ppb : Int) : Event (fun k => .refFreqCheck k dac ppb)
    (fun _ s => 200000 < ppb.natAbs ∧ s.time.tb = .locked ∧ s.time.syncs = [])
    (fun _ s => notify 0x0203 (u64Words s.index ++ [1#32]) s.index (setTime (fun t => { t with
      tb := .holdover, holdDac := dac % 2 ^ 20, holdStart := s.index, tjEntry := t.tj, qualifying := true, jumpKnown := false, ppsWait := false,
      ppsDelta := none, ppsHeld := t.ppsAt, refLossCount := satAdd 32 t.refLossCount 1, syncs := [] }) s)) := by
  refine event_stays (f := fun _ => evRefFreqCheck dac ppb) (fun _ _ => rfl) (fun k s ⟨hppb, htb, hsyncs⟩ _ => ?_) fun k s ⟨_, htb, _⟩ => ?_
  · have hcheck : evRefFreqCheck dac ppb (opened s) = declareLoss 1 dac (opened s) := by
      have htb : (opened s).time.tb = .locked := htb
      simp [evRefFreqCheck, htb, hppb]
    rw [hcheck, declareLoss_unawaited (s := opened s) htb hsyncs]
    rfl
  · have htb : (opened s).time.tb = .locked := htb
    exact ((stays_opened s).setTime (by rw [htb]; rfl)).notify ..

/-- The loss as its notice leaves it: holdover, and no SYNC edge awaited. -/
theorem refMissingEdge_declares (dac : Nat) : EventTo (fun k => .refMissingEdge k dac) (fun _ s => s.time.tb = .locked ∨ s.time.tb = .slew)
    (fun _ s t => t.time.tb = .holdover ∧ t.time.syncs = [] ∧ t.time.holdStart = s.index ∧ t.time.refPresent = false
      ∧ (∀ w ∈ s.time.syncs, (t.cmds.any fun c => c.id == w.cmd) = false)) := by
  refine eventTo_of (f := fun _ => evRefMissingEdge dac) (fun _ _ => rfl) (fun k s h hs => ?_) ?_
  · obtain ⟨f, hrun, -⟩ := declareLoss_declares (s := opened s) (cause := 0) dac h
    rw [evRefMissingEdge, hrun]
    exact setTime_calm (notify_calm (failSyncs_calm (setTime_calm (opened_calm hs))))
  · intro k s t old h hends _
    obtain ⟨f, hrun, htb, hstart, hsyncs⟩ := declareLoss_declares (s := opened s) (cause := 0) dac h
    rw [evRefMissingEdge, hrun] at hends
    rw [hends.time, setTime_time, notify_time, failSyncs_time, setTime_time]
    refine ⟨htb, rfl, hstart, rfl, fun w hw => hends.gone ?_⟩
    rw [setTime_cmds, notify_cmds]
    exact failSyncs_gone _ w (hsyncs ▸ hw)

theorem refMissingEdge_qualified (dac : Nat) : Event (fun k => .refMissingEdge k dac) (fun _ s => s.time.tb = .qualified)
    (fun _ s => setTime (fun t => { t with
      tb := .holdover, jumpKnown := false, ppsWait := false, ppsDelta := none, refLossCount := satAdd 32 t.refLossCount 1, refPresent := false,
      qualifying := false }) s) := by
  refine event_setTime (f := evRefMissingEdge dac) (fun _ _ => rfl) (fun s htb => ?_) fun s htb => by rw [htb]; rfl
  rw [evRefMissingEdge, declareLoss_qualified (s := opened s) htb]
  rfl

theorem refMissingEdge_again (dac : Nat) : Event (fun k => .refMissingEdge k dac)
    (fun _ s => (s.time.tb = .holdover ∨ s.time.tb = .waitRef) ∧ s.time.qualifying = true)
    (fun _ s => setTime (fun t => { t with refLossCount := satAdd 32 t.refLossCount 1, refPresent := false, qualifying := false }) s) := by
  refine event_setTime (f := evRefMissingEdge dac) (fun _ _ => rfl) (fun s ⟨htb, hq⟩ => ?_) fun _ _ => rfl
  rw [evRefMissingEdge, declareLoss_again (s := opened s) htb hq]
  rfl

theorem refMissingEdge_relocking (dac : Nat) : Event (fun k => .refMissingEdge k dac)
    (fun _ s => s.time.tb = .relocking ∧ s.time.relockStep = none)
    (fun _ s => setTime (fun t => { t with tb := .waitRef, relockStep := none, refPresent := false, qualifying := false }) s) := by
  refine event_setTime (f := evRefMissingEdge dac) (fun _ _ => rfl) (fun s ⟨htb, hstep⟩ => ?_) fun s ⟨htb, _⟩ => by rw [htb]; rfl
  rw [evRefMissingEdge, declareLoss_relocking (s := opened s) htb hstep]
  rfl

theorem evRefFreqCheck_near {dac : Nat} {ppb : Int} {s : State} (h : ppb.natAbs ≤ 200000) : evRefFreqCheck dac ppb s = s := by
  simp [evRefFreqCheck, Nat.not_lt.mpr h]

/-! ### The qualification (R136, R131) -/

section
variable {ppb : Int} {s : State} (hpresent : s.time.refPresent = true) (hq : s.time.qualifying = true)
include hpresent hq

theorem evRefQualExpiry_far (htb : s.time.tb = .holdover ∨ s.time.tb = .waitRef) (hppb : 1000 < ppb.natAbs) :
    evRefQualExpiry ppb s = setTime (fun t => { t with refLossCount := satAdd 32 t.refLossCount 1 }) s := by
  rcases htb with htb | htb <;> simp [evRefQualExpiry, hpresent, hq, htb, hppb]

theorem evRefQualExpiry_holdover (htb : s.time.tb = .holdover) (hppb : ppb.natAbs ≤ 1000) :
    evRefQualExpiry ppb s = setTime (fun t => { t with
      tb := .qualified, qualifying := false, jumpKnown := false, ppsDelta := none, ppsWait := t.ppsDisambig && t.ppsInEn,
      returnPolicy := (t.policy, t.slewMax) }) s := by
  simp [evRefQualExpiry, hpresent, hq, htb, Nat.not_lt.mpr hppb]

theorem evRefQualExpiry_waitRef (htb : s.time.tb = .waitRef) (hppb : ppb.natAbs ≤ 1000) : evRefQualExpiry ppb s
    = setTime (fun t => { t with tb := .relocking, qualifying := false, estimatedRelock := true, lockAttempts := 0 }) s := by
  simp [evRefQualExpiry, hpresent, hq, htb, Nat.not_lt.mpr hppb]

end

/-! ### JUMP becomes final (R137-R139, R141, R158) -/

/-- The timebase in which JUMP is final. -/
def finalTime (m : Int) (s : State) (t : TimeUnit) : TimeUnit :=
  { t with jump := resolveJump s.time m, jumpKnown := true, ambiguous := jumpAmbiguous s }

theorem jumpFinal_core (refused : Bool) (m : Int) (s : State) : core (jumpFinal refused m s) = core (setTime (finalTime m s) s) := notify_core ..

theorem stays_jumpFinal (refused : Bool) (m : Int) (s : State) : Stays s (jumpFinal refused m (opened s)) :=
  ((stays_opened s).setTime rfl).trans (stays_core (jumpFinal_core ..))

theorem jumpFinal_time (refused : Bool) (m : Int) (s : State) : (jumpFinal refused m s).time = finalTime m s s.time :=
  core_time (jumpFinal_core ..)

theorem boundaryAfter_congr {s t : State} (hindex : t.index = s.index) (hfs : fsOf t.time = fsOf s.time) (ns : Nat) :
    boundaryAfter t ns = boundaryAfter s ns := by
  rw [boundaryAfter, samplesNs, hindex, hfs, ← samplesNs, ← boundaryAfter]

theorem boundaryAfter_jumpFinal (refused : Bool) (m : Int) (s : State) (ns : Nat) :
    boundaryAfter (jumpFinal refused m s) ns = boundaryAfter s ns :=
  boundaryAfter_congr (core_index (jumpFinal_core ..)) (congrArg fsOf (jumpFinal_time ..)) ns

/-- Whether a slew is allowed is a matter of JUMP, of the sample rate and of the limit alone. -/
theorem slewWithin_congr {s t : State} (hjump : t.time.jump = s.time.jump) (hfs : fsOf t.time = fsOf s.time) (x : Nat) :
    slewWithin t x = slewWithin s x := by
  rw [slewWithin, hjump, hfs, ← slewWithin]

theorem slewWithin_final (m : Int) (s : State) (x : Nat) : slewWithin (setTime (finalTime m s) s) x = slewWithin (jumpOf m s) x :=
  slewWithin_congr rfl rfl x

theorem slewAllowed_final (m : Int) (s : State) : slewAllowed (setTime (finalTime m s) s) = slewAllowed (jumpOf m s) := slewWithin_final ..

/-- What is done with a JUMP that is final now, told by what is asked of the device: a slew that is refused or made, a STEP, or nothing. -/
def actOnJump (m : Int) (id : Option Nat) (slew step allowed : Bool) (s : State) : State :=
  let refused := slew && !allowed
  let a := jumpFinal (refused || heldRefused m s) m s
  if refused then
    match id with
    | some id => completeId id .ok (resumePayload false (resolveJump s.time m) 0) s.index (setTime (fun t => { t with resume := none }) a)
    | none => a
  else if slew then
    match id with
    | some id => completeId id .ok (resumePayload true (resolveJump s.time m) 0) s.index (startSlew a)
    | none => startSlew a
  else if step then requestStep (boundaryAfter a 10000) id false a
  else a

/-- The policy acts on a final JUMP while no resume is pending (R138, R139, R141). -/
theorem evJumpKnown_unasked {m : Int} {s : State} (hdue : jumpDue s) (hresume : s.time.resume = none) :
    evJumpKnown m s = actOnJump m none (s.time.returnPolicy.1 == 1 && (heldResumes s).isEmpty)
      (s.time.returnPolicy.1 == 2 && (heldResumes s).isEmpty) (slewWithin (jumpOf m s) s.time.returnPolicy.2) s := by
  obtain ⟨htb, hwait, hknown⟩ := hdue
  rw [← slewWithin_final]
  simp only [evJumpKnown, htb, hwait, hknown, hresume, actOnJump, jumpFinal, heldRefused, ← slewAllowed_final, bne_self_eq_false,
    Bool.or_self, Bool.false_eq_true, if_false, Option.map_none, Option.isSome_none]
  rfl

/-- The resume that is pending takes a final JUMP (R158). -/
theorem evJumpKnown_asked {m : Int} {s : State} {r : ResumeWait} (hdue : jumpDue s) (hresume : s.time.resume = some r) :
    evJumpKnown m s = actOnJump m (some r.cmd) (!r.step) r.step (slewAllowed (jumpOf m s)) s := by
  obtain ⟨htb, hwait, hknown⟩ := hdue
  rw [← slewAllowed_final]
  simp only [evJumpKnown, htb, hwait, hknown, hresume, actOnJump, jumpFinal, heldRefused, ← slewAllowed_final, bne_self_eq_false,
    Bool.or_self, Bool.false_eq_true, if_false, if_true, Option.map_some, Option.isSome_some]
  rfl

/-- With no resume held for its AT, none is refused. -/
theorem heldRefused_none {m : Int} {s : State} (h : heldResumes s = []) : heldRefused m s = false := by simp [heldRefused, h]

theorem heldRefused_allowed {m : Int} {s : State} (h : slewAllowed (jumpOf m s) = true) : heldRefused m s = false := by simp [heldRefused, h]

theorem actOnJump_waits {m : Int} {id : Option Nat} {allowed : Bool} {s : State} :
    actOnJump m id false false allowed s = jumpFinal (heldRefused m s) m s := rfl

/-- A slew that is allowed is made; the resume that asked for it ends. -/
theorem actOnJump_slews {m : Int} {s : State} (id : Option Nat) : actOnJump m id true false true s = match id with
    | some id => completeId id .ok (resumePayload true (resolveJump s.time m) 0) s.index (startSlew (jumpFinal (heldRefused m s) m s))
    | none => startSlew (jumpFinal (heldRefused m s) m s) := rfl

/-- A STEP is asked for, at the boundary of R139. -/
theorem actOnJump_steps {m : Int} {id : Option Nat} {allowed : Bool} {s : State} (hm : hasMirror s = false) (htb : s.time.tb = .qualified) :
    actOnJump m id false true allowed s = setTime (fun t => { t with
      step := some { boundary := boundaryAfter s 10000, cmd := id, fromSlew := false, remeasure := false }, resume := none })
      (jumpFinal (heldRefused m s) m s) := by
  have hmirror : hasMirror (jumpFinal (heldRefused m s) m s) = false := (hasMirror_congr (core_pair (jumpFinal_core ..))).trans hm
  have hslew : ((jumpFinal (heldRefused m s) m s).time.tb == .slew) = false := by
    rw [jumpFinal_time, finalTime, htb]
    rfl
  show requestStep (boundaryAfter (jumpFinal (heldRefused m s) m s) 10000) id false (jumpFinal (heldRefused m s) m s) = _
  rw [requestStep_alone hmirror, boundaryAfter_jumpFinal, setTime, setTime, hslew]

theorem stays_startSlew {s t : State} (h : Stays s t) (htb : t.time.tb = .qualified) : Stays s (startSlew t) :=
  h.setTime (by rw [htb]; rfl)

theorem jumpFinal_qualified {refused : Bool} {m : Int} {s : State} (htb : s.time.tb = .qualified) :
    (jumpFinal refused m (opened s)).time.tb = .qualified := by
  rw [jumpFinal_time]
  exact htb

theorem evJumpKnown_idle {m : Int} {s : State} (h : s.time.tb ≠ .qualified ∨ s.time.ppsWait = true) : evJumpKnown m s = s := by
  rcases h with h | h <;> simp [evJumpKnown, h]

theorem evJumpKnown_renewed {m : Int} {s : State} (htb : s.time.tb = .qualified) (hwait : s.time.ppsWait = false) (hknown : s.time.jumpKnown = true) :
    evJumpKnown m s = setTime (fun t => { t with jump := m }) s := by
  simp [evJumpKnown, htb, hwait, hknown]

theorem jumpKnown_waits (m : Int) : Event (fun k => .jumpKnown k m)
    (fun _ s => jumpDue s ∧ s.time.resume = none ∧ (s.time.returnPolicy.1 = 0 ∨ heldResumes s ≠ []))
    (fun _ s => jumpFinal (heldRefused m s) m s) := by
  refine event_stays (f := fun _ => evJumpKnown m) (fun _ _ => rfl) (fun k s ⟨hdue, hresume, hpolicy⟩ _ => ?_) fun k s _ => stays_jumpFinal ..
  have hno (n : Nat) (hn : n ≠ 0) : ((opened s).time.returnPolicy.1 == n && (heldResumes (opened s)).isEmpty) = false := by
    rcases hpolicy with h | h
    · have h : (opened s).time.returnPolicy.1 = 0 := h
      simp [h, hn.symm]
    · have h : heldResumes (opened s) ≠ [] := h
      simp [h]
  rw [evJumpKnown_unasked (s := opened s) hdue hresume, hno 1 (by decide), hno 2 (by decide), actOnJump_waits]

theorem jumpKnown_slews (m : Int) : Event (fun k => .jumpKnown k m)
    (fun _ s => jumpDue s ∧ s.time.resume = none ∧ s.time.returnPolicy.1 = 1 ∧ heldResumes s = []
      ∧ slewWithin (jumpOf m s) s.time.returnPolicy.2 = true)
    (fun _ s => startSlew (jumpFinal false m s)) := by
  refine event_stays (f := fun _ => evJumpKnown m) (fun _ _ => rfl) (fun k s ⟨hdue, hresume, hpolicy, hheld, hallowed⟩ _ => ?_)
    fun k s ⟨hdue, _⟩ => stays_startSlew (stays_jumpFinal ..) (jumpFinal_qualified hdue.1)
  have hpolicy : (opened s).time.returnPolicy.1 = 1 := hpolicy
  have hheld : heldResumes (opened s) = [] := hheld
  have hallowed : slewWithin (jumpOf m (opened s)) (opened s).time.returnPolicy.2 = true := hallowed
  rw [evJumpKnown_unasked (s := opened s) hdue hresume, hpolicy, hheld, hallowed]
  exact (actOnJump_slews none).trans (by rw [heldRefused_none hheld])

theorem jumpKnown_refuses (m : Int) : Event (fun k => .jumpKnown k m)
    (fun _ s => jumpDue s ∧ s.time.resume = none ∧ s.time.returnPolicy.1 = 1 ∧ heldResumes s = []
      ∧ slewWithin (jumpOf m s) s.time.returnPolicy.2 = false)
    (fun _ s => jumpFinal true m s) := by
  refine event_stays (f := fun _ => evJumpKnown m) (fun _ _ => rfl) (fun k s ⟨hdue, hresume, hpolicy, hheld, hallowed⟩ _ => ?_)
    fun k s _ => stays_jumpFinal ..
  have hpolicy : (opened s).time.returnPolicy.1 = 1 := hpolicy
  have hheld : heldResumes (opened s) = [] := hheld
  have hallowed : slewWithin (jumpOf m (opened s)) (opened s).time.returnPolicy.2 = false := hallowed
  rw [evJumpKnown_unasked (s := opened s) hdue hresume, hpolicy, hheld, hallowed]
  rfl

theorem jumpKnown_steps (m : Int) : Event (fun k => .jumpKnown k m)
    (fun _ s => jumpDue s ∧ s.time.resume = none ∧ s.time.returnPolicy.1 = 2 ∧ heldResumes s = [])
    (fun _ s => setTime (fun t => { t with
      step := some { boundary := boundaryAfter s 10000, cmd := none, fromSlew := false, remeasure := false }, resume := none })
      (jumpFinal false m s)) := by
  refine event_stays (f := fun _ => evJumpKnown m) (fun _ _ => rfl) (fun k s ⟨hdue, hresume, hpolicy, hheld⟩ hs => ?_)
    fun k s _ => (stays_jumpFinal ..).setTime rfl
  have hpolicy : (opened s).time.returnPolicy.1 = 2 := hpolicy
  have hheld : heldResumes (opened s) = [] := hheld
  have hmirror : hasMirror (opened s) = false := hs.alone
  have hact := actOnJump_steps (m := m) (id := none) (allowed := slewWithin (jumpOf m (opened s)) (opened s).time.returnPolicy.2) hmirror hdue.1
  rw [heldRefused_none hheld] at hact
  rw [evJumpKnown_unasked (s := opened s) hdue hresume, hpolicy, hheld]
  exact hact

theorem jumpKnown_resumes (m : Int) (r : ResumeWait) (c : Cmd) : Event (fun k => .jumpKnown k m)
    (fun _ s => jumpDue s ∧ s.time.resume = some r ∧ r.step = false ∧ slewAllowed (jumpOf m s) = true ∧ cmdById s r.cmd = some c
      ∧ c.src ≠ .pairLink)
    (fun _ s => complete c .ok (1#32 :: (i64Words (resolveJump s.time m) ++ i64Words 0)) s.index (startSlew (jumpFinal false m s))) := by
  have stays (s : State) (hdue : jumpDue s) : Stays s (startSlew (jumpFinal false m (opened s))) :=
    stays_startSlew (stays_jumpFinal ..) (jumpFinal_qualified hdue.1)
  refine event_stays_completes (f := fun _ => evJumpKnown m) (words := fun s => 1#32 :: (i64Words (resolveJump s.time m) ++ i64Words 0))
    (g := fun s => startSlew (jumpFinal false m s)) (fun _ _ => rfl) (fun _ _ ⟨_, _, _, _, _, hsrc⟩ => hsrc) (fun k s h => ?_)
    fun k s ⟨hdue, _⟩ => stays s hdue
  obtain ⟨hdue, hresume, hstep, hallowed, hc, -⟩ := h
  have hallowed : slewAllowed (jumpOf m (opened s)) = true := hallowed
  rw [evJumpKnown_asked (s := opened s) hdue hresume, hstep, hallowed, ← completeId_of ((cmdById_stays (stays s hdue) r.cmd).trans hc)]
  exact (actOnJump_slews (some r.cmd)).trans (by rw [heldRefused_allowed hallowed]; rfl)

theorem jumpKnown_refusesResume (m : Int) (r : ResumeWait) (c : Cmd) : Event (fun k => .jumpKnown k m)
    (fun _ s => jumpDue s ∧ s.time.resume = some r ∧ r.step = false ∧ slewAllowed (jumpOf m s) = false ∧ cmdById s r.cmd = some c
      ∧ c.src ≠ .pairLink)
    (fun _ s => complete c .ok (0#32 :: (i64Words (resolveJump s.time m) ++ i64Words 0)) s.index
      (setTime (fun t => { t with resume := none }) (jumpFinal true m s))) := by
  have stays (s : State) : Stays s (setTime (fun t => { t with resume := none }) (jumpFinal true m (opened s))) := (stays_jumpFinal ..).setTime rfl
  refine event_stays_completes (f := fun _ => evJumpKnown m) (words := fun s => 0#32 :: (i64Words (resolveJump s.time m) ++ i64Words 0))
    (g := fun s => setTime (fun t => { t with resume := none }) (jumpFinal true m s)) (fun _ _ => rfl) (fun _ _ ⟨_, _, _, _, _, hsrc⟩ => hsrc)
    (fun k s h => ?_) fun k s _ => stays s
  obtain ⟨hdue, hresume, hstep, hallowed, hc, -⟩ := h
  have hallowed : slewAllowed (jumpOf m (opened s)) = false := hallowed
  rw [evJumpKnown_asked (s := opened s) hdue hresume, hstep, hallowed, ← completeId_of ((cmdById_stays (stays s) r.cmd).trans hc)]
  rfl

theorem jumpKnown_stepsResume (m : Int) (r : ResumeWait) : Event (fun k => .jumpKnown k m)
    (fun _ s => jumpDue s ∧ s.time.resume = some r ∧ r.step = true)
    (fun _ s => setTime (fun t => { t with
      step := some { boundary := boundaryAfter s 10000, cmd := some r.cmd, fromSlew := false, remeasure := false }, resume := none })
      (jumpFinal (heldRefused m s) m s)) := by
  refine event_stays (f := fun _ => evJumpKnown m) (fun _ _ => rfl) (fun k s ⟨hdue, hresume, hstep⟩ hs => ?_)
    fun k s _ => (stays_jumpFinal ..).setTime rfl
  have hmirror : hasMirror (opened s) = false := hs.alone
  rw [evJumpKnown_asked (s := opened s) hdue hresume, hstep]
  exact actOnJump_steps hmirror hdue.1

/-! ### The resumes that wait end (R138, R158) -/

/-- The resume that waits for JUMP ends without effect. -/
def resumeEnded (s : State) : State :=
  match s.time.resume with
  | some r => completeId r.cmd .ok (resumePayload false s.time.jump 0) s.index s
  | none => s

/-- The resume of the STEP that waits for its boundary ends without effect. -/
def stepEnded (s : State) : State :=
  match s.time.step with
  | some w => (match w.cmd with
    | some id => completeId id .ok (resumePayload false s.time.jump 0) s.index s
    | none => s)
  | none => s

theorem endResume_eq (s : State) : endResume s =
    (heldResumes (stepEnded (resumeEnded s))).foldl (fun a c => completeId c.id .ok (resumePayload false s.time.jump 0) s.index a)
      (setTime (fun t => { t with resume := none, step := none }) (stepEnded (resumeEnded s))) := rfl

theorem ends_resumeEnded (s : State) : Ends s (resumeEnded s) := by
  unfold resumeEnded
  split
  · exact ends_completeId ..
  · exact Ends.refl s

theorem ends_stepEnded (s : State) : Ends s (stepEnded s) := by
  unfold stepEnded
  split
  · split
    · exact ends_completeId ..
    · exact Ends.refl s
  · exact Ends.refl s

theorem retimes_heldEnded (s : State) : Retimes (stepEnded (resumeEnded s)) (endResume s) := by
  rw [endResume_eq]
  exact (retimes_setTime ..).trans (Ends.retimes (ends_foldl _ _ _ fun _ _ => ends_completeId ..))

/-- No outstanding command has the number `id`. -/
def Gone (id : Nat) (s : State) : Prop := (s.cmds.any fun c => c.id == id) = false

theorem Retimes.gone {s t : State} (h : Retimes s t) {id : Nat} (hs : Gone id s) : Gone id t := Ends.gone h hs

theorem endResume_resume_gone {s : State} {r : ResumeWait} (h : s.time.resume = some r) : Gone r.cmd (endResume s) := by
  refine (retimes_heldEnded s).gone (Ends.gone (ends_stepEnded _) ?_)
  simp only [resumeEnded, h]
  exact gone_completeId ..

theorem endResume_step_gone {s : State} {w : StepWait} {id : Nat} (hw : s.time.step = some w) (hid : w.cmd = some id) : Gone id (endResume s) := by
  refine (retimes_heldEnded s).gone ?_
  have hw : (resumeEnded s).time.step = some w := (ends_resumeEnded s).time ▸ hw
  simp only [stepEnded, hw, hid]
  exact gone_completeId ..

/-- Every command of `s` is one of `t`, or none in `t` has its number. -/
def Drops (s t : State) : Prop := ∀ d ∈ s.cmds, d ∈ t.cmds ∨ Gone d.id t

theorem drops_refl (s : State) : Drops s s := fun _ h => .inl h

theorem Drops.trans {s t u : State} (a : Drops s t) (e : Ends t u) (b : Drops t u) : Drops s u := fun d hd =>
  (a d hd).elim (b d) fun h => .inr (e.gone h)

theorem drops_completeId (id : Nat) (st : Status) (pl : List Word) (i : Nat) (s : State) : Drops s (completeId id st pl i s) := by
  intro d hd
  by_cases hid : d.id = id
  · exact .inr (hid ▸ gone_completeId ..)
  · left
    unfold completeId
    split
    · next c hc =>
      rw [complete_cmds, List.mem_filter]
      exact ⟨hd, by simp [cmdById_id hc, hid]⟩
    · exact hd

theorem drops_resumeEnded (s : State) : Drops s (resumeEnded s) := by
  unfold resumeEnded
  split
  · exact drops_completeId _ _ _ _ s
  · exact drops_refl s

theorem drops_stepEnded (s : State) : Drops s (stepEnded s) := by
  unfold stepEnded
  split
  · split
    · exact drops_completeId _ _ _ _ s
    · exact drops_refl s
  · exact drops_refl s

theorem mem_insertHeld {c d : Cmd} {l : List Cmd} : d ∈ insertHeld c l ↔ d = c ∨ d ∈ l := by
  induction l with
  | nil => simp [insertHeld]
  | cons x l ih =>
    unfold insertHeld
    split
    · exact List.mem_cons
    · simp only [List.mem_cons, ih]
      exact or_left_comm

theorem mem_foldr_insertHeld {d : Cmd} (l : List Cmd) : d ∈ l.foldr insertHeld [] ↔ d ∈ l := by
  induction l with
  | nil => rfl
  | cons x l ih => rw [List.foldr_cons, mem_insertHeld, ih, List.mem_cons]

/-- Whether a command is a resume that waits for its AT is seen from the command alone. -/
theorem mem_heldResumes_of {s t : State} {d : Cmd} (h : d ∈ heldResumes s) (ht : d ∈ t.cmds) : d ∈ heldResumes t := by
  simp only [heldResumes, heldOf, heldInOrder, List.mem_filter, mem_foldr_insertHeld] at h ⊢
  exact ⟨⟨ht, h.1.2⟩, h.2⟩

theorem heldResumes_mem {s : State} {d : Cmd} (h : d ∈ heldResumes s) : d ∈ s.cmds := by
  simp only [heldResumes, heldOf, heldInOrder, List.mem_filter, mem_foldr_insertHeld] at h
  exact h.1.1

theorem endResume_held_gone {s : State} : ∀ d ∈ heldResumes s, Gone d.id (endResume s) := by
  intro d hd
  rcases (drops_resumeEnded s).trans (ends_stepEnded _) (drops_stepEnded _) d (heldResumes_mem hd) with h | h
  · rw [endResume_eq]
    exact gone_foldl _ (fun c => c.id) (fun a c => completeId c.id .ok (resumePayload false s.time.jump 0) s.index a) _
      (fun _ _ => ends_completeId ..) (fun _ _ => gone_completeId ..) d (mem_heldResumes_of hd h)
  · exact (retimes_heldEnded s).gone h

/-- Nothing is pending, and nothing ends. -/
theorem endResume_none {s : State} (hresume : s.time.resume = none) (hstep : s.time.step = none) (hheld : heldResumes s = []) : endResume s = s := by
  have h1 : stepEnded (resumeEnded s) = s := by
    simp only [resumeEnded, hresume, stepEnded, hstep]
  rw [endResume_eq, h1, hheld, List.foldl_nil, setTime, ← hresume, ← hstep]

theorem evSlewEnd_ends {s : State} (h : s.time.tb = .slew) : evSlewEnd s
    = notify 0x0206 (u64Words s.index) s.index (endResume (setTime (fun t => { t with tb := .locked, jumpKnown := false }) s)) := by
  simp [evSlewEnd, h]

theorem slewEnd_locks : Event (fun k => .slewEnd k)
    (fun _ s => s.time.tb = .slew ∧ s.time.resume = none ∧ s.time.step = none ∧ heldResumes s = [])
    (fun _ s => notify 0x0206 (u64Words s.index) s.index (setTime (fun t => { t with tb := .locked, jumpKnown := false }) s)) := by
  refine event_stays (f := fun _ => evSlewEnd) (fun _ _ => rfl) (fun k s ⟨htb, hresume, hstep, hheld⟩ _ => ?_) fun k s ⟨htb, _⟩ => ?_
  · rw [evSlewEnd_ends (s := opened s) htb]
    rw [endResume_none (s := setTime (fun t => { t with tb := .locked, jumpKnown := false }) (opened s)) hresume hstep hheld]
  · have htb : (opened s).time.tb = .slew := htb
    exact ((stays_opened s).setTime (by rw [htb]; rfl)).notify ..

theorem slewEnd_ends : EventTo (fun k => .slewEnd k) (fun _ s => s.time.tb = .slew)
    (fun _ s t => t.time = { s.time with tb := .locked, jumpKnown := false, resume := none, step := none }
      ∧ (∀ r, s.time.resume = some r → (t.cmds.any fun c => c.id == r.cmd) = false)
      ∧ (∀ w id, s.time.step = some w → w.cmd = some id → (t.cmds.any fun c => c.id == id) = false)
      ∧ (∀ d ∈ heldResumes s, (t.cmds.any fun c => c.id == d.id) = false)) := by
  refine eventTo_of (f := fun _ => evSlewEnd) (fun _ _ => rfl) (fun k s htb hs => ?_) ?_
  · rw [evSlewEnd_ends (s := opened s) htb]
    exact notify_calm ((retimes_endResume _).calm (setTime_calm (opened_calm hs)))
  · intro k s t old htb hends _
    rw [evSlewEnd_ends (s := opened s) htb] at hends
    have hends := (ends_core (notify_core ..)).trans hends
    refine ⟨?_, fun r hr => hends.gone (endResume_resume_gone hr), fun w id hw hid => hends.gone (endResume_step_gone hw hid), fun d hd => ?_⟩
    · rw [hends.time, endResume_time]
      rfl
    · exact hends.gone (endResume_held_gone d hd)

theorem evSlewEnd_idle {s : State} (h : s.time.tb ≠ .slew) : evSlewEnd s = s := by simp [evSlewEnd, h]

/-- Settles O26, clause by clause. -/
theorem referenceEvents : Obligations.ReferenceEvents := by
  unfold Obligations.ReferenceEvents
  refine ⟨refMissingEdge_locked, refMissingEdge_declares, refMissingEdge_qualified, refMissingEdge_again, refMissingEdge_relocking,
    refFreqCheck_locked, fun dac ppb => event_idle (f := fun _ => evRefFreqCheck dac ppb) (fun _ _ => rfl) fun _ s h => evRefFreqCheck_near h,
    event_setTime (f := evRefEdgesReturn) (fun _ _ => rfl) (fun _ _ => rfl) fun _ _ => rfl, fun ppb => ?_, fun ppb => ?_, fun ppb => ?_,
    event_setTime (f := evPpsDisambigTimeout) (fun _ _ => rfl) (fun _ _ => rfl) fun _ _ => rfl,
    fun m => event_idle (f := fun _ => evJumpKnown m) (fun _ _ => rfl) fun _ s h => evJumpKnown_idle (s := opened s) h, fun m => ?_,
    jumpKnown_waits, jumpKnown_slews, jumpKnown_refuses, jumpKnown_steps, jumpKnown_resumes, jumpKnown_refusesResume, jumpKnown_stepsResume,
    slewEnd_locks, slewEnd_ends, event_idle (f := fun _ => evSlewEnd) (fun _ _ => rfl) fun _ s h => evSlewEnd_idle (s := opened s) h⟩
  · exact event_setTime (f := evRefQualExpiry ppb) (fun _ _ => rfl)
      (fun s ⟨hpresent, hq, htb, hppb⟩ => evRefQualExpiry_far (s := opened s) hpresent hq htb hppb) fun _ _ => rfl
  · exact event_setTime (f := evRefQualExpiry ppb) (fun _ _ => rfl)
      (fun s ⟨hpresent, hq, htb, hppb⟩ => evRefQualExpiry_holdover (s := opened s) hpresent hq htb hppb)
      fun s ⟨_, _, htb, _⟩ => by rw [htb]; rfl
  · exact event_setTime (f := evRefQualExpiry ppb) (fun _ _ => rfl)
      (fun s ⟨hpresent, hq, htb, hppb⟩ => evRefQualExpiry_waitRef (s := opened s) hpresent hq htb hppb)
      fun s ⟨_, _, htb, _⟩ => by rw [htb]; rfl
  · exact event_setTime (f := evJumpKnown m) (fun _ _ => rfl)
      (fun s ⟨htb, hwait, hknown⟩ => evJumpKnown_renewed (s := opened s) htb hwait hknown) fun _ _ => rfl

end Sys2Proof.Machine
end

section
/-! O28: a SYNC edge, the new numbering of an APPLY or of TIME_SPLL_CONFIG, and the pulses of PPS_IN and PPS_OUT (R126, R143-R146, R153, R156,
R742). -/

namespace Sys2Proof.Machine

/-! ### The SYNC edge (R126, R156) -/

/-- The words of a SYNC edge: REF_COUNT at it, and its distance from the alignment grid. -/
def syncWords (s : State) : List Word := 1#32 :: (u64Words (refCountNow s) ++ [BitVec.ofInt 32 (alignDistance s.time (refCountNow s))])

/-- Only the waits for a SYNC edge that pass a test are left. -/
def keepSyncs (keep : SyncWait → Bool) : State → State := setTime fun t => { t with syncs := t.syncs.filter keep }

theorem stays_keepSyncs (keep : SyncWait → Bool) (s : State) : Stays s (keepSyncs keep (opened s)) := ⟨rfl, rfl, rfl⟩

theorem cmdById_keepSyncs {keep : SyncWait → Bool} {s : State} {id : Nat} {c : Cmd} (h : cmdById s id = some c) :
    cmdById (keepSyncs keep (opened s)) id = some c := h

theorem delivering_locked {s : State} (htb : s.time.tb = .locked) (hcap : s.time.applyCapture = none) : delivering s = true := by
  rw [delivering, locked, htb, hcap]
  rfl

section
variable {pps : Bool} {w : SyncWait} {s : State} (htb : s.time.tb = .locked) (hcap : s.time.applyCapture = none)
  (hdue : (s.time.syncs.filter fun x => x.pps == pps) = [w])
include htb hcap hdue

theorem evSyncEdgeCapture_record (happly : w.apply = false) :
    evSyncEdgeCapture pps s = completeId w.cmd .ok (syncWords s) s.index (keepSyncs (fun x => x.pps != pps) s) := by
  have hholdover : s.time.tb.isHoldover = false := by rw [htb]; rfl
  simp only [evSyncEdgeCapture, delivering_locked htb hcap, hholdover, hdue, List.foldl_cons, List.foldl_nil, happly, Bool.not_true, Bool.not_false,
    Bool.or_self, Bool.false_eq_true, if_false, if_true]
  rfl

theorem evSyncEdgeCapture_apply (happly : w.apply = true) (hmode : s.mode = .quiet) :
    evSyncEdgeCapture pps s = completeId w.cmd .ok (syncWords s) s.index (captureApply w (refCountNow s) (keepSyncs (fun x => x.pps != pps) s)) := by
  have hholdover : s.time.tb.isHoldover = false := by rw [htb]; rfl
  simp only [evSyncEdgeCapture, delivering_locked htb hcap, hholdover, hdue, List.foldl_cons, List.foldl_nil, happly, hmode, Bool.not_true,
    Bool.or_self, Bool.false_eq_true, if_false, beq_self_eq_true, if_true]
  rfl

end

theorem evSyncEdgeCapture_idle {pps : Bool} {s : State} (h : locked s = false ∨ s.time.tb.isHoldover = true) : evSyncEdgeCapture pps s = s := by
  rcases h with h | h <;> simp [evSyncEdgeCapture, delivering, h]

theorem syncEdgeCapture_records (pps : Bool) (w : SyncWait) (c : Cmd) : Event (fun k => .syncEdgeCapture k pps)
    (fun _ s => s.time.tb = .locked ∧ s.time.applyCapture = none ∧ (s.time.syncs.filter fun x => x.pps == pps) = [w] ∧ cmdById s w.cmd = some c
      ∧ c.src ≠ .pairLink ∧ w.apply = false)
    (fun _ s => complete c .ok (1#32 :: (u64Words (refCountNow s) ++ [BitVec.ofInt 32 (alignDistance s.time (refCountNow s))])) s.index
      (setTime (fun t => { t with syncs := t.syncs.filter (fun x => x.pps != pps) }) s)) := by
  refine event_stays_completes (f := fun _ => evSyncEdgeCapture pps) (words := syncWords) (g := keepSyncs fun x => x.pps != pps) (fun _ _ => rfl)
    (fun _ _ ⟨_, _, _, _, hsrc, _⟩ => hsrc) (fun k s h => ?_) fun _ s _ => stays_keepSyncs _ s
  obtain ⟨htb, hcap, hdue, hc, -, happly⟩ := h
  rw [evSyncEdgeCapture_record (s := opened s) htb hcap hdue happly, completeId_of (cmdById_keepSyncs hc)]
  rfl

theorem captureApply_ends (w : SyncWait) (n : Nat) (s : State) : ∃ u, Ends s u
    ∧ captureApply w n s = setTime (fun t => { t with applyCapture := some { at_ := s.index, syncRef := n, syncIndex := w.syncIndex } }) u :=
  ⟨_, ends_gapStop .., rfl⟩

theorem syncEdgeCapture_captures (pps : Bool) (w : SyncWait) : EventTo (fun k => .syncEdgeCapture k pps)
    (fun _ s => s.time.tb = .locked ∧ s.time.applyCapture = none ∧ (s.time.syncs.filter fun x => x.pps == pps) = [w] ∧ w.apply = true
      ∧ s.mode = .quiet)
    (fun _ s t => t.time.applyCapture = some { at_ := s.index, syncRef := refCountNow s, syncIndex := w.syncIndex }
      ∧ t.time.syncs = s.time.syncs.filter (fun x => x.pps != pps) ∧ t.time.syncRef = s.time.syncRef
      ∧ (t.cmds.any fun c => c.id == w.cmd) = false) := by
  have run (s : State) (htb : s.time.tb = .locked) (hcap : s.time.applyCapture = none)
      (hdue : (s.time.syncs.filter fun x => x.pps == pps) = [w]) (happly : w.apply = true) (hmode : s.mode = .quiet) :
      ∃ u, Ends (keepSyncs (fun x => x.pps != pps) s) u ∧ evSyncEdgeCapture pps s = completeId w.cmd .ok (syncWords s) s.index
        (setTime (fun t => { t with applyCapture := some { at_ := s.index, syncRef := refCountNow s, syncIndex := w.syncIndex } }) u) := by
    obtain ⟨u, hu, heq⟩ := captureApply_ends w (refCountNow s) (keepSyncs (fun x => x.pps != pps) s)
    refine ⟨u, hu, ?_⟩
    rw [evSyncEdgeCapture_apply htb hcap hdue happly hmode, heq]
    rfl
  refine eventTo_of (f := fun _ => evSyncEdgeCapture pps) (fun _ _ => rfl) (fun k s ⟨htb, hcap, hdue, happly, hmode⟩ hs => ?_) ?_
  · obtain ⟨u, hu, hrun⟩ := run (opened s) htb hcap hdue happly hmode
    rw [hrun]
    exact (setTime_calm (Calm.ends (setTime_calm (opened_calm hs)) hu)).ends (ends_completeId ..)
  · intro k s t old ⟨htb, hcap, hdue, happly, hmode⟩ hends _
    obtain ⟨u, hu, hrun⟩ := run (opened s) htb hcap hdue happly hmode
    rw [hrun] at hends
    have htime := hends.time.trans (ends_completeId ..).time
    rw [setTime_time, hu.time] at htime
    rw [htime]
    exact ⟨rfl, rfl, rfl, hends.gone (gone_completeId ..)⟩

theorem evTimeSyncTimeout_due {id : Nat} {s : State} (h : (s.time.syncs.any fun w => w.cmd == id) = true) :
    evTimeSyncTimeout id s = completeId id .ok [0, 0, 0, 0] s.index (keepSyncs (fun w => w.cmd != id) s) := by
  rw [evTimeSyncTimeout, h]
  rfl

theorem evTimeSyncTimeout_none {id : Nat} {s : State} (h : (s.time.syncs.any fun w => w.cmd == id) = false) : evTimeSyncTimeout id s = s := by
  rw [evTimeSyncTimeout, h]
  rfl

theorem timeSyncTimeout_ends (id : Nat) (c : Cmd) : Event (fun k => .timeSyncTimeout k id)
    (fun _ s => (s.time.syncs.any fun w => w.cmd == id) = true ∧ cmdById s id = some c ∧ c.src ≠ .pairLink)
    (fun _ s => complete c .ok [0, 0, 0, 0] s.index (setTime (fun t => { t with syncs := t.syncs.filter (fun w => w.cmd != id) }) s)) := by
  refine event_stays_completes (f := fun _ => evTimeSyncTimeout id) (words := fun _ => [0, 0, 0, 0]) (g := keepSyncs fun w => w.cmd != id)
    (fun _ _ => rfl) (fun _ _ ⟨_, _, hsrc⟩ => hsrc) (fun k s ⟨hdue, hc, _⟩ => ?_) fun _ s _ => stays_keepSyncs _ s
  rw [evTimeSyncTimeout_due (s := opened s) hdue, completeId_of (cmdById_keepSyncs hc)]
  rfl

/-! ### A new numbering (R126, R153, R742) -/

/-- The samples of a new numbering start at `v`, the first of them INV. -/
def samplesAnew (v : Nat) (s : State) : State := gapStart v (invAtNew v (renumber v s))

theorem ends_samplesAnew (v : Nat) (s : State) : Ends (renumber v s) (samplesAnew v s) :=
  ends_core ((gapStart_core ..).trans (invAtNew_core ..))

/-- The timebase as the restart of TIME_SPLL_CONFIG at REFIN edge `n` leaves it; `moved` is where the PPS edges are then. -/
def restartTime (band n : Nat) (moved : Int → Int) (t : TimeUnit) : TimeUnit :=
  { t with
    tb := .locked, everLocked := true, syncRef := n, syncIndex := t.indexStart, refCount := n, refIndex := t.indexStart, vcoBand := band,
    configCmds := [], ppsAt := t.ppsAt.map moved, indexEstimated := false, gen := if t.everLocked then (t.gen + 1) % 65536 else 0,
    lockAttempts := 0 }

/-- The restart of TIME_SPLL_CONFIG at REFIN edge `n`, the samples not yet started. -/
def restartAt (band n : Nat) (moved : Int → Int) (s : State) : State :=
  setTime (restartTime band n moved) { s with index := s.time.indexStart }

/-- At a restart of TIME_SPLL_CONFIG the samples start anew, and the commands that asked for it end. -/
theorem evTimebaseRephase_restarts {edge band : Nat} {s : State} (htb : s.time.tb = .relocking) (hcfg : s.time.configCmds ≠ [])
    (htrip : s.hub.tripped = false) :
    ∃ moved words u, Ends (renumber s.time.indexStart (restartAt band (max edge s.time.refCount) moved s)) u
      ∧ evTimebaseRephase edge band s = s.time.configCmds.foldl (fun a id => completeId id .ok words s.time.indexStart a) u := by
  have hdo : (s.time.tb == .relocking && !s.time.configCmds.isEmpty && !s.hub.tripped) = true := by simp [htb, hcfg, htrip]
  unfold evTimebaseRephase
  extract_lets t v n passed s1 s2 s3 words
  rw [if_pos hdo]
  refine ⟨fun p => p + 16 * ((v : Int) - s.index) - passed, words, _, ?_, rfl⟩
  have h3 : Ends s2 s3 := by
    dsimp only [s3]
    split
    · exact Ends.refl s2
    · exact ends_core (setMaint_core ..)
  exact (ends_samplesAnew v s1).trans (h3.trans ((ends_skipGap ..).trans (ends_core (endFault_core ..))))

theorem timebaseRephase_restarts (edge band : Nat) (s : State) (hq : s.quiet = true) (hm : hasMirror s = false) (htb : s.time.tb = .relocking)
    (hcfg : s.time.configCmds ≠ []) (htrip : s.hub.tripped = false) : ∃ t, exec (.timebaseRephase edge band) s = .next t
      ∧ t.time.tb = .locked ∧ t.index = s.time.indexStart
      ∧ t.time.syncRef = (max edge s.time.refCount : Nat) ∧ t.time.syncIndex = s.time.indexStart ∧ t.time.refCount = max edge s.time.refCount
      ∧ t.time.configCmds = [] ∧ t.time.indexEstimated = false ∧ t.time.gen = (if s.time.everLocked then (s.time.gen + 1) % 65536 else 0)
      ∧ (∀ id ∈ s.time.configCmds, (t.cmds.any fun c => c.id == id) = false) := by
  obtain ⟨moved, words, u, hu, hrun⟩ := evTimebaseRephase_restarts (edge := edge) (band := band) htb hcfg htrip
  have hends := hu.trans (ends_foldl s.time.configCmds (fun a id => completeId id .ok words s.time.indexStart a) u fun _ _ => ends_completeId ..)
  have hstart : Calm (restartAt band (max edge s.time.refCount) moved s) := (quiet_calm hq hm).same rfl rfl
  obtain ⟨t, ht, hcore, -⟩ := finish_answers (s := s) ((renumber_calm hstart).ends hends)
  have htime := (core_time hcore).trans (hends.time.trans (renumber_time ..))
  refine ⟨t, ?_, ?_⟩
  · rw [← ht, ← hrun]
    rfl
  · rw [htime]
    refine ⟨rfl, (core_index hcore).trans (hends.index.trans (renumber_index ..)), rfl, rfl, rfl, rfl, rfl, rfl, ?_⟩
    rw [core_cmds hcore]
    exact gone_foldl _ (fun id => id) (fun a id => completeId id .ok words s.time.indexStart a) _ (fun _ _ => ends_completeId ..)
      fun _ _ => gone_completeId ..

/-- The timebase as the re-phase of an APPLY leaves it. -/
def applyTime (x : ApplyCapture) (moved : Int → Int) (t : TimeUnit) : TimeUnit :=
  { t with
    syncRef := x.syncRef, syncIndex := x.syncIndex, gen := (t.gen + 1) % 65536, indexEstimated := false, applyCapture := none,
    refCount := x.syncRef + rephaseCount t * alignRef t, refIndex := x.syncIndex + rephaseCount t * alignSamples t, ppsAt := t.ppsAt.map moved }

/-- The re-phase of an APPLY, the samples not yet started. -/
def applyAt (x : ApplyCapture) (moved : Int → Int) (s : State) : State :=
  setTime (applyTime x moved) { s with index := x.syncIndex + rephaseCount s.time * alignSamples s.time }

theorem rephaseApply_ends (x : ApplyCapture) (s : State) : ∃ moved,
    Ends (renumber (x.syncIndex + rephaseCount s.time * alignSamples s.time) (applyAt x moved s)) (rephaseApply x s) := by
  unfold rephaseApply
  extract_lets t m v moved s1
  exact ⟨fun p => p + moved, (ends_samplesAnew v _).trans (ends_skipGap ..)⟩

theorem evTimebaseRephase_apply {edge band : Nat} {s : State} {x : ApplyCapture} (hl : locked s = true) (hx : s.time.applyCapture = some x) :
    evTimebaseRephase edge band s = rephaseApply x s := by
  have htb : (s.time.tb == .relocking) = false := by
    rw [beq_eq_false_iff_ne]
    rintro htb
    rw [locked, htb] at hl
    cases hl
  simp only [evTimebaseRephase, htb, hx, hl, Bool.false_and, Bool.false_eq_true, if_false, if_true]

theorem timebaseRephase_applies (edge band : Nat) (s : State) (x : ApplyCapture) (hq : s.quiet = true) (hm : hasMirror s = false)
    (hl : locked s = true) (hx : s.time.applyCapture = some x) : ∃ t, exec (.timebaseRephase edge band) s = .next t
      ∧ t.index = x.syncIndex + rephaseCount s.time * alignSamples s.time ∧ t.time.syncRef = x.syncRef
      ∧ t.time.refCount = x.syncRef + rephaseCount s.time * alignRef s.time
      ∧ t.time.syncIndex = x.syncIndex ∧ t.time.gen = (s.time.gen + 1) % 65536 ∧ t.time.applyCapture = none ∧ t.time.tb = s.time.tb
      ∧ t.time.unlockCount = s.time.unlockCount := by
  obtain ⟨moved, hends⟩ := rephaseApply_ends x s
  have hstart : Calm (applyAt x moved s) := (quiet_calm hq hm).same rfl rfl
  obtain ⟨t, ht, hcore, -⟩ := finish_answers (s := s) ((renumber_calm hstart).ends hends)
  have htime := (core_time hcore).trans (hends.time.trans (renumber_time ..))
  refine ⟨t, ?_, ?_⟩
  · rw [← ht, ← evTimebaseRephase_apply hl hx]
    rfl
  · rw [htime]
    exact ⟨(core_index hcore).trans (hends.index.trans (renumber_index ..)), rfl, rfl, rfl, rfl, rfl, rfl, rfl⟩

theorem evTimebaseRephase_idle {edge band : Nat} {s : State} (htb : s.time.tb ≠ .relocking) (hcap : s.time.applyCapture = none) :
    evTimebaseRephase edge band s = s := by
  simp [evTimebaseRephase, htb, hcap]

/-! ### PPS_IN (R143, R144) -/

theorem evPpsInEdge_idle {cycle tap : Nat} {s : State} (h : s.time.ppsInEn = false ∨ s.tdc.notReady = true ∨ delivering s = false) :
    evPpsInEdge cycle tap s = s := by
  rcases h with h | h | h <;> simp [evPpsInEdge, h]

section
variable {cycle tap : Nat} {s : State} (hen : s.time.ppsInEn = true) (hready : s.tdc.notReady = false) (hdel : delivering s = true)
include hen hready hdel

theorem evPpsInEdge_spurious (hno : ppsAccepts s (tdcRaw s 8 cycle tap) = false) :
    evPpsInEdge cycle tap s = setTime (fun t => { t with ppsSpurious := satAdd 16 t.ppsSpurious 1 }) s := by
  simp only [evPpsInEdge, hen, hready, hdel, hno, Bool.not_true, Bool.not_false, Bool.or_self, Bool.false_eq_true, if_false, if_true]

/-- An accepted edge that no qualification waits for. -/
theorem evPpsInEdge_accepts {t16 d : Nat} (hwait : s.time.ppsWait = false) (ht : t16 = tdcRaw s 8 cycle tap)
    (hd : d = stampOf s 12 ((t16 : Int) * 2 ^ 28) 0) (hyes : ppsAccepts s t16 = true) :
    evPpsInEdge cycle tap s =
      (let s1 := setTime (fun t => { t with
        ppsLast := some d, ppsAt := some (t16 : Int), ppsRun := 0, ppsPhase := ppsPhaseOf s d, ppsAccepted := satAdd 32 t.ppsAccepted 1 }) s
      if s.time.ppsNotice then
        notify 0x0207 [lo32 (d / 2 ^ 32), lo32 (d / 2 ^ 64), lo32 d, BitVec.ofInt 32 (ppsPhaseOf s d)] (d / 2 ^ 32) s1
      else s1) := by
  subst ht hd
  unfold evPpsInEdge
  extract_lets t16 d phase delta s1
  have hdelta : delta = s.time.ppsDelta := by
    dsimp only [delta]
    rw [hwait]
    split <;> rfl
  have hs1 : s1 = setTime (fun t => { t with
      ppsLast := some d, ppsAt := some (t16 : Int), ppsRun := 0, ppsPhase := phase, ppsAccepted := satAdd 32 t.ppsAccepted 1 }) s := by
    refine setTime_congr ?_
    rw [hdelta, hwait]
  have hyes : ppsAccepts s t16 = true := hyes
  rw [hen, hready, hdel, hyes, hs1]
  rfl

end

theorem ppsInEdge_spurious (cycle tap : Nat) : Event (fun k => .ppsInEdge k cycle tap)
    (fun _ s => s.time.ppsInEn = true ∧ s.tdc.notReady = false ∧ delivering s = true ∧ ppsAccepts s (tdcRaw s 8 cycle tap) = false)
    (fun _ s => setTime (fun t => { t with ppsSpurious := satAdd 16 t.ppsSpurious 1 }) s) :=
  event_setTime (f := evPpsInEdge cycle tap) (fun _ _ => rfl)
    (fun s ⟨hen, hready, hdel, hno⟩ => evPpsInEdge_spurious (s := opened s) hen hready hdel hno) fun _ _ => rfl

theorem ppsInEdge_stamps (cycle tap t16 d : Nat) : Event (fun k => .ppsInEdge k cycle tap)
    (fun _ s => s.time.ppsInEn = true ∧ s.tdc.notReady = false ∧ delivering s = true ∧ s.time.ppsNotice = false ∧ s.time.ppsWait = false
      ∧ t16 = tdcRaw s 8 cycle tap ∧ d = stampOf s 12 ((t16 : Int) * 2 ^ 28) 0 ∧ ppsAccepts s t16 = true)
    (fun _ s => setTime (fun t => { t with
      ppsLast := some d, ppsAt := some (t16 : Int), ppsRun := 0, ppsPhase := ppsPhaseOf s d, ppsAccepted := satAdd 32 t.ppsAccepted 1 }) s) := by
  refine event_stays (f := fun _ => evPpsInEdge cycle tap) (fun _ _ => rfl) (fun k s h _ => ?_) fun k s _ => (stays_opened s).setTime rfl
  obtain ⟨hen, hready, hdel, hnotice, hwait, ht, hd, hyes⟩ := h
  have hnotice : (opened s).time.ppsNotice = false := hnotice
  rw [evPpsInEdge_accepts (s := opened s) hen hready hdel hwait ht hd hyes, hnotice]
  rfl

theorem ppsInEdge_notifies (cycle tap t16 d : Nat) : Event (fun k => .ppsInEdge k cycle tap)
    (fun _ s => s.time.ppsInEn = true ∧ s.tdc.notReady = false ∧ delivering s = true ∧ s.time.ppsNotice = true ∧ s.time.ppsWait = false
      ∧ t16 = tdcRaw s 8 cycle tap ∧ d = stampOf s 12 ((t16 : Int) * 2 ^ 28) 0 ∧ ppsAccepts s t16 = true)
    (fun _ s => notify 0x0207 [lo32 (d / 2 ^ 32), lo32 (d / 2 ^ 64), lo32 d, BitVec.ofInt 32 (ppsPhaseOf s d)] (d / 2 ^ 32)
      (setTime (fun t => { t with
        ppsLast := some d, ppsAt := some (t16 : Int), ppsRun := 0, ppsPhase := ppsPhaseOf s d, ppsAccepted := satAdd 32 t.ppsAccepted 1 }) s)) := by
  refine event_stays (f := fun _ => evPpsInEdge cycle tap) (fun _ _ => rfl) (fun k s h _ => ?_) fun k s _ => ((stays_opened s).setTime rfl).notify ..
  obtain ⟨hen, hready, hdel, hnotice, hwait, ht, hd, hyes⟩ := h
  have hnotice : (opened s).time.ppsNotice = true := hnotice
  rw [evPpsInEdge_accepts (s := opened s) hen hready hdel hwait ht hd hyes, hnotice]
  rfl

theorem evPpsMissingTimeout_due {s : State} (hen : s.time.ppsInEn = true) (hdue : ppsDue s = true) : evPpsMissingTimeout s
    = notify 0x0208 [BitVec.ofNat 32 (satAdd 16 s.time.ppsMissing 1)] s.index
        (setTime (fun t => { t with ppsMissing := satAdd 16 t.ppsMissing 1, ppsRun := t.ppsRun + 1 }) s) := by
  simp only [evPpsMissingTimeout, hen, hdue, Bool.not_true, Bool.or_self, Bool.false_eq_true, if_false, setTime_time]

theorem evPpsMissingTimeout_idle {s : State} (h : s.time.ppsInEn = false ∨ ppsDue s = false) : evPpsMissingTimeout s = s := by
  rcases h with h | h <;> simp [evPpsMissingTimeout, h]

theorem ppsMissingTimeout_counts : Event (fun k => .ppsMissingTimeout k) (fun _ s => s.time.ppsInEn = true ∧ ppsDue s = true)
    (fun _ s => notify 0x0208 [BitVec.ofNat 32 (satAdd 16 s.time.ppsMissing 1)] s.index
      (setTime (fun t => { t with ppsMissing := satAdd 16 t.ppsMissing 1, ppsRun := t.ppsRun + 1 }) s)) :=
  event_stays (f := fun _ => evPpsMissingTimeout) (fun _ _ => rfl) (fun _ s ⟨hen, hdue⟩ _ => evPpsMissingTimeout_due (s := opened s) hen hdue)
    fun _ s _ => ((stays_opened s).setTime rfl).notify ..

/-! ### PPS_OUT (R146) -/

/-- The place of the pulse of a second, advanced by the offset of PPS_OUT, in 2^-32 of 10^-12 sample. -/
def ppsPlace (second : Nat) (s : State) : Int := ((second * fsOf s.time : Nat) : Int) * 2 ^ 32 * 1000000000000 - delayScaled s 13 s.index

/-- The multiple of `den` nearest to `num`, of two the lower one. -/
def nearestBelow (num : Int) (den : Nat) : Int := -((-(2 * num) + den) / (2 * den))

theorem nearestBelow_bounds (num : Int) {den : Nat} (hden : 0 < den) :
    2 * num - den ≤ 2 * den * nearestBelow num den ∧ 2 * den * nearestBelow num den < 2 * num + den := by
  have hpos : (0 : Int) < 2 * den := by omega
  have hdiv := Int.mul_ediv_add_emod (-(2 * num) + den) (2 * den)
  have hnonneg := Int.emod_nonneg (-(2 * num) + den) hpos.ne'
  have hlt := Int.emod_lt_of_pos (-(2 * num) + den) hpos
  rw [nearestBelow, Int.mul_neg]
  omega

/-- The pulse of a second, at the nearest edge of the TDC domain. -/
def ppsPulse (second : Nat) (s : State) : Output := .ppsOut (nearestBelow (ppsPlace second s) (16 * 2 ^ 32 * 1000000000000)) s.time.ppsOutWidth

theorem evPpsOutPulse_launches {second : Nat} {s : State} (hen : s.time.ppsOutEn = true) (hdel : delivering s = true) :
    evPpsOutPulse second s = emit (ppsPulse second s) s := by
  simp only [evPpsOutPulse, hen, hdel, Bool.not_true, Bool.or_self, Bool.false_eq_true, if_false, ppsPulse, nearestBelow, ppsPlace]

theorem evPpsOutPulse_idle {second : Nat} {s : State} (h : s.time.ppsOutEn = false ∨ delivering s = false) : evPpsOutPulse second s = s := by
  rcases h with h | h <;> simp [evPpsOutPulse, h]

theorem ppsOutPulse_emits (second : Nat) : Event (fun k => .ppsOutPulse k second) (fun _ s => s.time.ppsOutEn = true ∧ delivering s = true)
    (fun _ s => emit (ppsPulse second s) s) :=
  event_stays (f := fun _ => evPpsOutPulse second) (fun _ _ => rfl) (fun _ s ⟨hen, hdel⟩ _ => evPpsOutPulse_launches (s := opened s) hen hdel)
    fun _ s _ => (stays_opened s).trans (stays_core (emit_core ..))

theorem ppsPlace_eq (second : Nat) (s : State) :
    ((second * fsOf s.time * 2 ^ 32 * 1000000000000 : Nat) : Int) - delayScaled s 13 s.index = ppsPlace second s := by
  rw [ppsPlace, Nat.cast_mul (second * fsOf s.time * 2 ^ 32), Nat.cast_mul (second * fsOf s.time)]
  rfl

theorem ppsOutPulse_launches (second : Nat) : EventTo (fun k => .ppsOutPulse k second) (fun _ s => s.time.ppsOutEn = true ∧ delivering s = true)
    (fun _ s t => ∃ edge : Int, t = { s with out := s.out ++ [.ppsOut edge s.time.ppsOutWidth] }
      ∧ 2 * ((second * fsOf s.time * 2 ^ 32 * 1000000000000 : Nat) - delayScaled s 13 s.index) - 16 * 2 ^ 32 * 1000000000000
        ≤ 2 * (16 * 2 ^ 32 * 1000000000000) * edge
      ∧ 2 * (16 * 2 ^ 32 * 1000000000000) * edge
        < 2 * ((second * fsOf s.time * 2 ^ 32 * 1000000000000 : Nat) - delayScaled s 13 s.index) + 16 * 2 ^ 32 * 1000000000000) := by
  intro k s hq hm hpre
  have hplain : repliesFirst (fun s => emit (ppsPulse second s) s) (passTo k s) = emit (ppsPulse second (passTo k s)) (passTo k s) :=
    repliesFirst_plain fun _ => rfl
  refine ⟨_, (ppsOutPulse_emits second k s hq hm hpre).trans (congrArg Host.Outcome.next hplain), _, rfl, ?_⟩
  rw [ppsPlace_eq]
  exact nearestBelow_bounds (ppsPlace second (passTo k s)) (den := 16 * 2 ^ 32 * 1000000000000) (by decide)

/-- Settles O28, clause by clause. -/
theorem syncAndPpsEvents : Obligations.SyncAndPpsEvents := by
  unfold Obligations.SyncAndPpsEvents
  refine ⟨syncEdgeCapture_records, syncEdgeCapture_captures,
    fun pps => event_idle (f := fun _ => evSyncEdgeCapture pps) (fun _ _ => rfl) fun _ s h => evSyncEdgeCapture_idle (s := opened s) h,
    timeSyncTimeout_ends,
    fun id => event_idle (f := fun _ => evTimeSyncTimeout id) (fun _ _ => rfl) fun _ s h => evTimeSyncTimeout_none (s := opened s) h,
    timebaseRephase_restarts, timebaseRephase_applies, fun edge band s hq hm htb hcap => ?_,
    fun cycle tap => event_idle (f := fun _ => evPpsInEdge cycle tap) (fun _ _ => rfl) fun _ s h => evPpsInEdge_idle (s := opened s) h,
    ppsInEdge_spurious, ppsInEdge_stamps, ppsInEdge_notifies, ppsMissingTimeout_counts,
    event_idle (f := fun _ => evPpsMissingTimeout) (fun _ _ => rfl) fun _ s h => evPpsMissingTimeout_idle (s := opened s) h,
    ppsOutPulse_launches,
    fun second => event_idle (f := fun _ => evPpsOutPulse second) (fun _ _ => rfl) fun _ s h => evPpsOutPulse_idle (s := opened s) h⟩
  show Host.Outcome.next (finish s (evTimebaseRephase edge band s)) = _
  rw [evTimebaseRephase_idle htb hcap, finish_same (quiet_calm hq hm) rfl rfl]

end Sys2Proof.Machine
end

section
/-! O7: the commands of the Converter group (R169, R174, R194-R199). -/

namespace Sys2Proof.Machine

/-! ### The attenuator and the injection switch of a channel (R169, R174) -/

theorem newest_putSetting {α : Type} (d : α) (e : Nat) (v : α) (l : List (Nat × α)) : newest d (putSetting e v l) = v := rfl

theorem attenAt_same {e v : Nat} {ch : Channel} (h : ch.atten = v) : attenAt e v ch = ch := if_pos (beq_iff_eq.mpr h)

theorem attenAt_changes {e v : Nat} {ch : Channel} (h : ch.atten ≠ v) :
    attenAt e v ch = addInv e (e + 64) { ch with attens := putSetting e v ch.attens } := if_neg (mt beq_iff_eq.mp h)

theorem attenAt_atten (e v : Nat) (ch : Channel) : (attenAt e v ch).atten = v := by
  by_cases h : ch.atten = v
  · rw [attenAt_same h, h]
  · rw [attenAt_changes h]
    exact newest_putSetting 0 e v ch.attens

theorem attenAt_cal (e v : Nat) (ch : Channel) : (attenAt e v ch).cal = ch.cal := by
  by_cases h : ch.atten = v
  · rw [attenAt_same h]
  · rw [attenAt_changes h, addInv]

theorem switchAt_same {e : Nat} {cal : Bool} {ch : Channel} (h : ch.cal = cal) : switchAt e cal ch = ch := if_pos (beq_iff_eq.mpr h)

theorem switchAt_changes {e : Nat} {cal : Bool} {ch : Channel} (h : ch.cal ≠ cal) :
    switchAt e cal ch = addInv e (e + 128) { ch with cal := cal } := if_neg (mt beq_iff_eq.mp h)

theorem switchAt_cal (e : Nat) (cal : Bool) (ch : Channel) : (switchAt e cal ch).cal = cal := by
  by_cases h : ch.cal = cal
  · rw [switchAt_same h, h]
  · rw [switchAt_changes h, addInv]

theorem switchAt_atten (e : Nat) (cal : Bool) (ch : Channel) : (switchAt e cal ch).atten = ch.atten := by
  by_cases h : ch.cal = cal
  · rw [switchAt_same h]
  · rw [switchAt_changes h]
    rfl

/-! ### The commands (R194-R199) -/

/-- Changes of channels keep to the converter unit. -/
theorem foldl_setChannel_core (l : List Nat) (f : Nat → Channel → Channel) (s : State) :
    core (l.foldl (fun a i => setChannel i (f i) a) s) = core s := foldl_core l _ s fun _ _ => setChannel_core ..

theorem convStatus_reads {c : Cmd} {e : Nat} {s : State} (h : c.flag 0 8 = false) :
    specConvStatus.run c e s = (s, .done .ok (convStatusWords s (c.arg 0 1 0))) := by
  simp [specConvStatus, h]

/-- CLEAR zeroes the counters after they are read (R198). -/
theorem convStatus_clears {c : Cmd} {e : Nat} {s : State} (h : c.flag 0 8 = true) :
    specConvStatus.run c e s = (setChannel (c.arg 0 1 0) (clearChannel (s.index + 1)) s, .done .ok (convStatusWords s (c.arg 0 1 0))) := by
  simp [specConvStatus, h]

/-- Settles O7: each command by its execution, which leaves the core of the state; what a change does to a channel by whether the channel has the
setting already (`attenAt_same`, `attenAt_changes`, `switchAt_same`, `switchAt_changes`). -/
theorem converterCommands : Obligations.ConverterCommands := by
  unfold Obligations.ConverterCommands
  refine ⟨?_, ?_, ?_, ?_, ?_, ?_, ?_, ?_, ?_, fun ch e v cal => ⟨attenAt_atten .., attenAt_cal .., fun h => ?_, attenAt_same,
    switchAt_cal .., switchAt_atten .., fun h => ?_, switchAt_same⟩⟩
  · exact does_core (fun _ _ _ => rfl) rfl (fun _ => rfl) (fun _ _ _ _ _ => rfl) fun _ _ => core_mk ..
  · exact holds_of (fun _ _ _ => rfl) rfl (by decide) fun _ => rfl
  · exact holds_of (fun _ _ _ => rfl) rfl (by decide) fun _ => rfl
  · exact fires_core rfl (fun _ _ _ _ => rfl) fun c e s => foldl_setChannel_core _ (fun i => attenAt e (c.arg 1 (4 * i + 3) (4 * i))) s
  · exact fires_core rfl (fun _ _ _ _ => rfl) fun c e s => foldl_setChannel_core _ (fun _ => switchAt e (c.flag 0 8)) s
  · exact does_core (fun _ _ _ => rfl) rfl (fun _ => rfl) (fun _ _ _ _ _ => rfl) fun _ _ => core_mk ..
  · exact does_core (fun _ _ _ => rfl) rfl (fun _ => rfl) (fun c s _ _ h => convStatus_reads (s := opened s) h) fun _ _ => rfl
  · exact does_core (fun _ _ _ => rfl) rfl (fun _ => rfl) (fun c s _ _ h => convStatus_clears (s := opened s) h) fun _ _ => core_mk ..
  · exact does_core (fun _ _ _ => rfl) rfl (fun _ => rfl) (fun _ _ _ _ _ => rfl) fun _ _ => rfl
  · rw [attenAt_changes h]
    exact ⟨rfl, rfl⟩
  · rw [switchAt_changes h]
    rfl

end Sys2Proof.Machine
end

section
/-! O52: EQ_LOAD of a bank in use (R212). -/

namespace Sys2Proof.Machine

/-- The three ways in which a bank is in use (R212). -/
theorem bankInUse_iff {b : Bool} {e : Equaliser} :
    bankInUse b e = true ↔ e.active = b ∨ e.running ≠ none ∨ ∃ h, e.held = some h ∧ h.bank = b := by
  cases hh : e.held <;> simp [bankInUse, hh, Option.isSome_iff_ne_none, or_assoc]

/-- An EQ_LOAD of a local source that passes the checks before it fails that of its bank (R50, R212). -/
theorem eqLoad_busy {c : Cmd} {s : State} (hsrc : c.src ≠ .pairLink) (hplen : c.plen = 35) (hlen : isQp c.src = true → c.indirect = true)
    (hheader : badHeader specEqLoad c = false) (hindirect : indirectFails c s = false) (hbulk : c.arg 0 25 16 ≤ 960)
    (hunit : c.arg 0 1 0 < s.variant.channels) (hmode : modeAt s s.index ≠ .shadow)
    (huse : bankInUse (c.flag 0 8) (endSwap s.index (s.eqs.getD (c.arg 0 1 0) default)) = true) : checkCmd specEqLoad c s = some .busy := by
  have htimed : c.timed = false := timed_of_no hsrc rfl hheader
  have heff : arrivalEff specEqLoad c s = s.index := by
    rw [arrivalEff, htimed]
    rfl
  have hshort : (!specEqLoad.plen c || (isQp c.src && !c.indirect && decide (12 < c.plen))) = false := by
    cases hqp : isQp c.src with
    | false => simp [specEqLoad, plenIs, hplen]
    | true => simp [specEqLoad, plenIs, hplen, hlen hqp]
  have hmodeOk : modeOk specEqLoad c (modeAt s s.index) = true := (Bool.or_eq_true ..).mpr (.inr (bne_iff_ne.mpr hmode))
  have hparams : specEqLoad.params s c = true := decide_eq_true hbulk
  have hunits : specEqLoad.units s c = true := decide_eq_true hunit
  have hbusy : specEqLoad.busy s c = true := huse
  simp only [checkCmd, hshort, hheader, hindirect, hparams, hunits, heff, hmodeOk, htimed, hbusy]
  rfl

/-- Settles O52: the command fails no check before that of its bank (`eqLoad_busy`), and its refusal is its reply (`row_refused_plain`). -/
theorem bankInUse_refuses : Obligations.BankInUse := by
  rintro k p s c a e hheard rfl rfl rfl hplen hlen hheader hindirect hbulk hunit hmode huse
  have h : Heard specEqLoad k p s := heard_iff.mp hheard
  exact row_refused_plain h rfl (eqLoad_busy h.local hplen hlen hheader hindirect hbulk hunit hmode (bankInUse_iff.mpr huse)) rfl nofun

end Sys2Proof.Machine
end

section
/-! O8: the commands of the equalisers and the tuners (R234-R240). -/

namespace Sys2Proof.Machine

/-! ### EQ_SWAP (R235) -/

/-- A held command that is due settles as its execution says, after which come the notices of what it does, and that of the pair. -/
theorem fire_settles {sp : CmdSpec} {c : Cmd} {e : Nat} {i : Instr} {s : State} (h : due sp c e s = true) (hsp : specOf sp.opcode = some sp)
    (hi : firesIt c i) (hcalm : Calm (settleFate c e (sp.run c e (opened (passTo e s))))) :
    ∃ f, exec i s = .next (pairNotice s (repliesFirst f (passTo e s)))
      ∧ f (opened (passTo e s)) = settleFate c e (sp.run c e (opened (passTo e s))) := by
  have hd := due_iff.mp h
  have hE : c.eff = some e := by simp [Cmd.eff, hd.phase]
  have hfire : fireHeld sp c (opened (passTo e s)) = settleFate c e (sp.run c e (opened (passTo e s))) := by
    have hmode : modeOk sp c (runMode (opened (passTo e s))) = true := hd.mode
    simp only [fireHeld, hE, Option.getD_some, hmode, if_true, applyNow, repliesFirst_nested]
  obtain ⟨t, hrun, -, rfl⟩ := event_calm (f := fireHeld sp c) (hfire ▸ hcalm)
  exact ⟨_, (fire_row hd.first hd.phase hd.opcode hd.delivers hsp hi).trans hrun, hfire⟩

/-- The equaliser of the channel of an EQ_SWAP takes the request. -/
def swapEq (c : Cmd) (e : Nat) (s : State) : State :=
  setEq (c.arg 0 1 0) (fun _ => (presentSwap c.tag (c.flag 0 8) (c.arg 0 31 16) e (s.eqs.getD (c.arg 0 1 0) default)).1) s

theorem settleFate_swap (c : Cmd) (e : Nat) (s : State) :
    ∃ st words start, settleFate c e (specEqSwap.run c e s) = complete c st words start (swapEq c e s) := ⟨_, _, _, rfl⟩

theorem complete_eqs (c : Cmd) (st : Status) (pl : List Word) (i : Nat) (s : State) : (complete c st pl i s).eqs = s.eqs := by rw [complete_frame]

theorem complete_tuners (c : Cmd) (st : Status) (pl : List Word) (i : Nat) (s : State) : (complete c st pl i s).tuners = s.tuners := by
  rw [complete_frame]

theorem passTo_tuners (k : Nat) (s : State) : (passTo k s).tuners = s.tuners := by rw [passTo_frame]

theorem eqSwap_fires {c : Cmd} {e : Nat} {i : Instr} {s : State} (h : due specEqSwap c e s = true) (hi : firesIt c i) : ∃ t, exec i s = .next t
    ∧ t.eqs = (swapEq c e (passTo e s)).eqs ∧ t.tuners = s.tuners ∧ t.pool = s.pool := by
  have hd := due_iff.mp h
  obtain ⟨st, words, start, hsettle⟩ := settleFate_swap c e (opened (passTo e s))
  have hcalm : Calm (swapEq c e (opened (passTo e s))) := (calm_quiet hd.quiet hd.alone).core ((setEq_core ..).trans (opened_core _))
  obtain ⟨f, hexec, hf⟩ := fire_settles h rfl hi (hsettle ▸ complete_calm hcalm)
  refine ⟨_, hexec, ?_⟩
  rw [after_frame, hf, hsettle]
  exact ⟨complete_eqs .., (complete_tuners ..).trans (passTo_tuners ..), (complete_pool ..).trans (passTo_pool ..)⟩

/-! ### EQ_STATUS (R236) -/

theorem modAt_eq_set {α : Type} {l : List α} {i : Nat} (d : α) (f : α → α) (h : i < l.length) : modAt l i f = l.set i (f (l.getD i d)) := by
  simp [modAt, List.modify_eq_set_getElem?, h]

theorem setEq_eq_set {n : Nat} (f : Equaliser → Equaliser) {s : State} (h : n < s.eqs.length) :
    setEq n f s = { s with eqs := s.eqs.set n (f (s.eqs.getD n default)) } := by
  rw [setEq, modAt_eq_set default f h]

theorem setEq_set {n : Nat} (f : Equaliser → Equaliser) (x : Equaliser) {s : State} (h : n < s.eqs.length) :
    setEq n f { s with eqs := s.eqs.set n x } = { s with eqs := s.eqs.set n (f x) } := by
  rw [setEq_eq_set f (by simpa using h)]
  simp [h]

/-- The counts of an equaliser start anew after index `k` (R236). -/
def clearEq (k : Nat) (e : Equaliser) : Equaliser := { e with swapCount := 0, replacedCount := 0, clipCount := 0, clipFrom := k + 1 }

/-- The words of EQ_STATUS, for equaliser `ch` in the state `e` (R236). -/
def eqStatusWords (ch : Nat) (e : Equaliser) (s : State) : List Word :=
  [BitVec.ofNat 32 (oneIf e.active + oneIf e.running.isSome * 2 + oneIf e.held.isSome * 4 + oneIf ((e.held.map fun h => h.bank).getD false) * 8
    + (eqBank e e.active).bulk * 65536)]
  ++ u64Words ((e.running.map fun r => r.stop).getD 0)
    ++ [BitVec.ofNat 32 (eqClips { s with eqs := s.eqs.set ch e } ch (s.index + 1)), BitVec.ofNat 32 e.swapCount, BitVec.ofNat 32 e.replacedCount]

theorem oneIf_mul (b : Bool) (n : Nat) : oneIf b * n = if b then n else 0 := by
  cases b <;> simp [oneIf]

theorem eqStatus_run {c : Cmd} {k : Nat} {e : Equaliser} {s : State} (hch : c.arg 0 1 0 < s.eqs.length)
    (he : e = endSwap s.index (s.eqs.getD (c.arg 0 1 0) default)) :
    specEqStatus.run c k s = ({ s with eqs := s.eqs.set (c.arg 0 1 0) (if c.flag 0 8 then clearEq s.index e else e) },
      .done .ok (eqStatusWords (c.arg 0 1 0) e s)) := by
  have hended : setEq (c.arg 0 1 0) (endSwap s.index) s = { s with eqs := s.eqs.set (c.arg 0 1 0) e } := by rw [setEq_eq_set _ hch, he]
  have hget : (s.eqs.set (c.arg 0 1 0) e).getD (c.arg 0 1 0) default = e := by simp [hch]
  have hclear := setEq_set (clearEq s.index) e hch
  simp only [specEqStatus, hended, hget, eqStatusWords, oneIf_mul, Prod.mk.injEq]
  refine ⟨?_, ?_⟩
  · split
    · exact hclear
    · rfl
  · cases e.held <;> cases e.running <;> rfl

theorem eqStatus_does (ch : Nat) (e : Equaliser) : Does .eqStatus specEqStatus
    (fun c s => c.arg 0 1 0 = ch ∧ ch < s.eqs.length ∧ e = endSwap s.index (s.eqs.getD ch default))
    (fun c s => { s with eqs := s.eqs.set ch (if c.flag 0 8 then clearEq s.index e else e) }) (fun _ => eqStatusWords ch e) := by
  refine does_core (fun _ _ _ => rfl) rfl (fun _ => rfl) (fun c s _ _ h => ?_) fun _ _ => core_mk ..
  obtain ⟨rfl, hch, he⟩ := h
  exact eqStatus_run (s := opened s) hch he

/-! ### TUNER_RETUNE (R219, R220, R238) -/

/-- FREQ of a TUNER_RETUNE. -/
def retuneFreq (c : Cmd) : Nat := (c.word 1).toNat + c.arg 2 15 0 * 2 ^ 32

/-- A tuner takes FREQ and PHASE and the accumulator of the COHERENT formula at index `e` (R220). -/
def retuneCoherent (f phase e : Nat) (running : Bool) (u : Tuner) : Tuner :=
  { u with freq := f, phase := phase, continuous := false,
           ncos := (e, f, (f * e + phase * 65536) % 2 ^ 48) :: u.ncos.filter (fun x => decide (x.1 < e)),
           retunes := if running then e :: u.retunes else u.retunes }

/-- A tuner takes FREQ, and its accumulator goes on (R220). -/
def retuneContinuous (f e : Nat) (running : Bool) (u : Tuner) : Tuner :=
  { u with freq := f, continuous := true, ncos := (e, f, accAt u e) :: u.ncos.filter (fun x => decide (x.1 < e)),
           retunes := if running then e :: u.retunes else u.retunes }

theorem tunerRetune_coherent {c : Cmd} (e : Nat) (s : State) (h : c.flag 0 8 = false) : specTunerRetune.run c e s =
    (markRetune (c.arg 0 2 0) e (setTuner (c.arg 0 2 0) (retuneCoherent (retuneFreq c) (c.word 3).toNat e (tunerRunning s (c.arg 0 2 0))) s),
      .done .ok []) := by
  simp only [specTunerRetune, h, Bool.false_eq_true, if_false]
  rfl

theorem tunerRetune_continuous {c : Cmd} (e : Nat) (s : State) (h : c.flag 0 8 = true) : specTunerRetune.run c e s =
    (markRetune (c.arg 0 2 0) e (setTuner (c.arg 0 2 0) (retuneContinuous (retuneFreq c) e (tunerRunning s (c.arg 0 2 0))) s), .done .ok []) := by
  simp only [specTunerRetune, h, if_true]
  rfl

theorem retune_core (t e : Nat) (f : Tuner → Tuner) (s : State) : core (markRetune t e (setTuner t f s)) = core s :=
  (markRetune_core ..).trans (setTuner_core ..)

/-! ### TUNER_ENABLE (R232, R239) -/

/-- A tuner that runs stops at index `e`. -/
def stopTuner (e t : Nat) (s : State) : State :=
  if (s.tuners.getD t default).enabled then changeTuner t e (fun u => { u with enabled := false }) s else s

/-- A tuner that is stopped starts at index `e`, in a mode that runs products. -/
def wakeTuner (e t : Nat) (s : State) : State := if (s.tuners.getD t default).enabled then s else startTuner t e s

theorem stopTuner_core (e t : Nat) (s : State) : core (stopTuner e t s) = core s := by
  unfold stopTuner
  split
  · exact changeTuner_core ..
  · rfl

theorem wakeTuner_core (e t : Nat) (s : State) : core (wakeTuner e t s) = core s := by
  unfold wakeTuner
  split
  · rfl
  · exact startTuner_core ..

/-- TUNER_ENABLE at one tuner. -/
def switchTuner (on : Bool) (e t : Nat) (s : State) : State :=
  if (s.tuners.getD t default).enabled == on then s
  else if !on then changeTuner t e (fun u => { u with enabled := false }) s
  else if modeRunsProducts (runMode s) then startTuner t e s
  else setTuner t (fun u => { u with enabled := true }) s

theorem tunerEnable_run (c : Cmd) (e : Nat) (s : State) : specTunerEnable.run c e s =
    ((maskBits 8 (c.arg 0 7 0)).foldl (fun a t => switchTuner (c.flag 0 8) e t a) s, .done .ok []) := rfl

theorem switchTuner_off (e t : Nat) (s : State) : switchTuner false e t s = stopTuner e t s := by
  cases h : (s.tuners.getD t default).enabled <;> simp only [switchTuner, stopTuner, h] <;> rfl

theorem switchTuner_on {e t : Nat} {s : State} (hmode : modeRunsProducts (runMode s) = true) : switchTuner true e t s = wakeTuner e t s := by
  cases h : (s.tuners.getD t default).enabled <;> simp only [switchTuner, wakeTuner, h, hmode] <;> rfl

/-- No tuner that starts changes the mode in force, so each of a list starts as the first does. -/
theorem foldl_switchTuner_on (l : List Nat) (e : Nat) {s : State} (hmode : modeRunsProducts (runMode s) = true) :
    l.foldl (fun a t => switchTuner true e t a) s = l.foldl (fun a t => wakeTuner e t a) s := by
  induction l generalizing s with
  | nil => rfl
  | cons t l ih =>
    have hwake : runMode (wakeTuner e t s) = runMode s := runMode_stance (stance_core (wakeTuner_core e t s))
    rw [List.foldl_cons, List.foldl_cons, switchTuner_on hmode, ih (hwake ▸ hmode)]

theorem tunerEnable_off {c : Cmd} (e : Nat) (s : State) (h : c.flag 0 8 = false) :
    specTunerEnable.run c e s = ((maskBits 8 (c.arg 0 7 0)).foldl (fun a t => stopTuner e t a) s, .done .ok []) := by
  simp only [tunerEnable_run, h, switchTuner_off]

theorem tunerEnable_on {c : Cmd} (e : Nat) {s : State} (h : c.flag 0 8 = true) (hmode : modeRunsProducts (runMode s) = true) :
    specTunerEnable.run c e s = ((maskBits 8 (c.arg 0 7 0)).foldl (fun a t => wakeTuner e t a) s, .done .ok []) := by
  rw [tunerEnable_run, h, foldl_switchTuner_on _ e hmode]

/-! ### TUNER_STATUS (R240) -/

/-- The words of TUNER_STATUS (R240). -/
def tunerStatusWords (t : Nat) (u : Tuner) (s : State) : List Word :=
  [BitVec.ofNat 32 (oneIf u.enabled + oneIf (tunerRunning s t) * 2 + oneIf u.snap * 4 + oneIf u.continuous * 8
    + oneIf u.configReset * 16 + tunerH u.snap u.decim * 256 + u.gainShift * 65536)]
  ++ u64Words (u.anchor.getD 0) ++ u64Words u.freq
  ++ [BitVec.ofNat 32 (tunerCounts s t (s.index + 1)).1, BitVec.ofNat 32 (tunerCounts s t (s.index + 1)).2.1,
      BitVec.ofNat 32 (tunerCounts s t (s.index + 1)).2.2]

theorem tunerStatus_run (c : Cmd) (e : Nat) (s : State) : specTunerStatus.run c e s =
    (if c.flag 0 8 then setTuner (c.arg 0 2 0) (fun x => { x with invCount := 0, clipCount := 0, ovrCount := 0, countFrom := s.index + 1 }) s else s,
      .done .ok (tunerStatusWords (c.arg 0 2 0) (s.tuners.getD (c.arg 0 2 0) default) s)) := by
  simp only [specTunerStatus, tunerStatusWords, oneIf_mul, u64Words, List.append_assoc]
  rfl

/-- Settles O8: each command by its execution, which leaves the core of the state. EQ_SWAP may answer REPLACED, and is settled by `eqSwap_fires`. -/
theorem tunerCommands : Obligations.TunerCommands := by
  unfold Obligations.TunerCommands
  refine ⟨fun b => ?_, fun c e i s => eqSwap_fires, eqStatus_does, ?_, ?_, ?_, ?_, ?_, fun f => ?_, fun f => ?_, ?_, ?_, fun u => ?_⟩
  · refine does_core (fun _ _ _ => rfl) rfl (fun _ => rfl) (fun c s _ _ h => ?_) fun _ _ => core_mk ..
    obtain ⟨htaps, hbulk, hint, hfrac⟩ := h
    obtain ⟨taps, bulk, delayInt, delayFrac⟩ := b
    subst htaps hbulk hint hfrac
    rfl
  · exact holds_of (fun _ _ _ => rfl) rfl (by decide) fun _ => rfl
  · exact holds_of (fun _ _ _ => rfl) rfl (by decide) fun _ => rfl
  · exact holds_of (fun _ _ _ => rfl) rfl (by decide) fun _ => rfl
  · exact holds_of (fun _ _ _ => rfl) rfl (by decide) fun _ => rfl
  · exact fires_core rfl (fun _ _ _ _ => rfl) fun c e s => foldl_core _ _ _ fun _ _ => configTuner_core ..
  · refine fires_core rfl (fun c e s h => ?_) fun c e s => retune_core ..
    obtain ⟨hflag, rfl⟩ := h
    exact tunerRetune_coherent e (opened s) hflag
  · refine fires_core rfl (fun c e s h => ?_) fun c e s => retune_core ..
    obtain ⟨hflag, rfl⟩ := h
    exact tunerRetune_continuous e (opened s) hflag
  · exact fires_core rfl (fun c e s h => tunerEnable_off e (opened s) h) fun c e s => foldl_core _ _ _ fun a t => stopTuner_core ..
  · exact fires_core rfl (fun c e s h => tunerEnable_on e (s := opened s) h.1 h.2) fun c e s => foldl_core _ _ _ fun a t => wakeTuner_core ..
  · refine does_core (fun _ _ _ => rfl) rfl (fun _ => rfl) (fun c s _ _ h => ?_) fun c s => ?_
    · subst h
      exact tunerStatus_run c s.index (opened s)
    · split
      · exact setTuner_core ..
      · rfl

end Sys2Proof.Machine
end

section
/-! O9: the commands of the spectrum engines, the density engines and the spectrogram units (R264-R268, R276, R292-R297). -/

namespace Sys2Proof.Machine

/-! ### The effects keep to their units -/

theorem core_if {p : Prop} [Decidable p] {a b s : State} (ha : core a = core s) (hb : core b = core s) : core (if p then a else b) = core s := by
  split
  · exact ha
  · exact hb

/-- DENS_ENABLE starts or stops one engine, unless it is as asked once its changes have come. -/
def switchDens (on : Bool) (e u : Nat) (s : State) : State :=
  if (densOf (afterLate s) u).enabled == on then s else densAct u e (if on then .start else .stop) s

theorem densEnable_run (c : Cmd) (e : Nat) (s : State) : specDensEnable.run c e s =
    ((maskBits 4 (c.arg 0 3 0)).foldl (fun a u => switchDens (c.flag 0 8) e u a) s, .done .ok []) := rfl

theorem switchDens_on (e u : Nat) (s : State) :
    switchDens true e u s = if (densOf (afterLate s) u).enabled then s else densAct u e .start s := by
  simp [switchDens]

theorem switchDens_off (e u : Nat) (s : State) :
    switchDens false e u s = if (densOf (afterLate s) u).enabled then densAct u e .stop s else s := by
  cases h : (densOf (afterLate s) u).enabled <;> simp [switchDens, h]

theorem switchDens_core (on : Bool) (e u : Nat) (s : State) : core (switchDens on e u s) = core s := core_if rfl (densAct_core ..)

/-! ### The window load and the status words (R267, R268, R294, R297) -/

/-- A load into a user bank of engine `n` (R267). -/
def loadBank (second : Bool) (n : Nat) (b : UserBank) (s : State) : State :=
  setEngine n (fun x => if second then { x with bank1 := b } else { x with bank0 := b }) s

theorem windowLoad_run {c : Cmd} {s : State} {t : List (Nat × Nat)} (e : Nat)
    (ht : t = loadedTable c (userBank (engineOf s (c.arg 0 2 0)) (c.flag 0 8))) : specSpecWindowLoad.run c e s =
    (loadBank (c.flag 0 8) (c.arg 0 2 0) { table := t, ready := c.flag 0 16 } s,
      .done .ok [BitVec.ofNat 32 (if c.flag 0 16 then windowGain t else (0, 0)).1, BitVec.ofNat 32 (if c.flag 0 16 then windowGain t else (0, 0)).2,
        flagWord (c.flag 0 16)]) := by
  subst ht
  rfl

/-- The words of SPEC_STATUS (R268) of engine `n` in the state `g`. -/
def specStatusWords (n : Nat) (g : Engine) (s : State) : List Word :=
  [BitVec.ofNat 32 (oneIf g.enabled + oneIf (engineRunning s n) * 2 + oneIf g.cfg.tuner * 4 + oneIf g.overrate * 8
    + oneIf g.bank0.ready * 16 + oneIf g.bank1.ready * 32 + oneIf g.bindingLost * 64 + g.cfg.window * 256 + g.cfg.log2n * 4096),
    BitVec.ofNat 32 g.cfg.hop]
  ++ u64Words (g.anchor.getD 0) ++ [lo32 g.frame, BitVec.ofNat 32 g.spectra, BitVec.ofNat 32 g.invalidSpectra, BitVec.ofNat 32 g.prodRecords,
    (g.wbuf.map fun r => r.handle).getD 0]

theorem specStatus_run (c : Cmd) (e : Nat) (s : State) : specSpecStatus.run c e s =
    (if c.flag 0 8 then setEngine (c.arg 0 2 0) (fun x => { x with spectra := 0, invalidSpectra := 0, prodRecords := 0 }) s else s,
      .done .ok (specStatusWords (c.arg 0 2 0) (engineOf s (c.arg 0 2 0)) s)) := by
  simp only [specSpecStatus, specStatusWords, oneIf_mul]
  rfl

/-- The words of DENS_STATUS (R294): the changes that are still to come show, the counts are those of now. -/
def densStatusWords (u : Nat) (s : State) : List Word :=
  let d := densOf (afterLate s) u
  let n := densOf s u
  [BitVec.ofNat 32 (oneIf d.enabled + oneIf (d.enabled && modeRunsProducts (runMode s)) * 2 + oneIf d.mismatch * 4)]
    ++ u64Words (d.anchor.getD 0) ++ [lo32 d.seq, BitVec.ofNat 32 n.frames, BitVec.ofNat 32 n.exportLost, BitVec.ofNat 32 n.layerSkipped]

theorem densStatus_run (c : Cmd) (e : Nat) (s : State) : specDensStatus.run c e s =
    (if c.flag 0 8 then setDens (c.arg 0 1 0) (fun d => { d with frames := 0, exportLost := 0, layerSkipped := 0 }) s else s,
      .done .ok (densStatusWords (c.arg 0 1 0) s)) := by
  simp only [specDensStatus, densStatusWords, oneIf_mul]
  rfl

/-- The words of SPGM_STATUS (R297): the changes that are still to come show, the counts are those of now. -/
def spgmStatusWords (i : Nat) (s : State) : List Word :=
  let v := afterLate s
  let u := spgmOf v i
  let n := spgmOf s i
  [BitVec.ofNat 32 (oneIf u.enabled + oneIf (spgmRunning v i) * 2 + oneIf u.overrate * 4), lo32 u.line,
    BitVec.ofNat 32 n.lines, BitVec.ofNat 32 n.invalidLines, BitVec.ofNat 32 n.linesLost,
    BitVec.ofNat 32 (((v.spgm.filter fun u => u.enabled).map fun u => lineRate s u.cfg).sum).floor.toNat]

theorem spgmStatus_run (c : Cmd) (e : Nat) (s : State) : specSpgmStatus.run c e s =
    (if c.flag 0 8 then setSpgm (c.arg 0 2 0) (fun u => { u with lines := 0, invalidLines := 0, linesLost := 0 }) s else s,
      .done .ok (spgmStatusWords (c.arg 0 2 0) s)) := by
  simp only [specSpgmStatus, spgmStatusWords, oneIf_mul]
  rfl

/-! ### A change whose index the source has reached takes effect at once (R30) -/

/-- A change of an element that a second one takes back. -/
theorem modAt_undone {α : Type} {l : List α} {i : Nat} (d : α) {f g : α → α} (h : i < l.length) (hfg : g (f (l.getD i d)) = l.getD i d) :
    modAt (modAt l i f) i g = l := by
  rw [modAt, modAt, List.modify_modify_eq, ← modAt, modAt_eq_set d _ h, Function.comp_apply, hfg]
  simp [h]

theorem setDens_late_undone {u : Nat} (x : Nat × DensAct) {s : State} (hu : u < s.dens.length) (hlate : (densOf s u).late = []) :
    setDens u (fun d => { d with late := [] }) (setDens u (fun d => { d with late := insertDens x d.late }) s) = s := by
  have hfix : ({ densOf s u with late := [] } : Density) = densOf s u := by rw [← hlate]
  simp only [setDens]
  rw [modAt_undone default hu]
  exact hfix

theorem setSpgm_late_undone {i : Nat} (x : Nat × SpgmAct) {s : State} (hi : i < s.spgm.length) (hlate : (spgmOf s i).late = []) :
    setSpgm i (fun u => { u with late := [] }) (setSpgm i (fun u => { u with late := u.late ++ [x] }) s) = s := by
  have hfix : ({ spgmOf s i with late := [] } : Spgm) = spgmOf s i := by rw [← hlate]
  simp only [setSpgm]
  rw [modAt_undone default hi]
  exact hfix

/-- The change is queued, found due, and taken off the queue again. -/
theorem densAct_of_reached {u e : Nat} (x : DensAct) {s : State} (hu : u < s.dens.length) (hlate : (densOf s u).late = [])
    (hr : reached s (densEngine u (densOf s u)) e = true) : densAct u e x s = runDensAct u e x s := by
  have hd : densOf (setDens u (fun d => { d with late := insertDens (e, x) d.late }) s) u = { densOf s u with late := [(e, x)] } := by
    rw [densOf, setDens_dens, getD_modAt_same hu, ← densOf, hlate]
    rfl
  have hr' : reached (setDens u (fun d => { d with late := insertDens (e, x) d.late }) s) (densEngine u { densOf s u with late := [(e, x)] }) e = true := hr
  simp only [densAct, hd, List.length_singleton, densCatch, hr', Bool.or_true, if_true, setDens_late_undone (e, x) hu hlate]

theorem spgmAct_of_reached {i e : Nat} (x : SpgmAct) {s : State} (hi : i < s.spgm.length) (hlate : (spgmOf s i).late = [])
    (hr : reached s (spgmOf s i).cfg.engine e = true) : spgmAct i e x s = runSpgmAct i x s := by
  have hd : spgmOf (setSpgm i (fun u => { u with late := u.late ++ [(e, x)] }) s) i = { spgmOf s i with late := [(e, x)] } := by
    rw [spgmOf, setSpgm_spgm, getD_modAt_same hi, ← spgmOf, hlate]
    rfl
  have hr' : reached (setSpgm i (fun u => { u with late := u.late ++ [(e, x)] }) s) (spgmOf s i).cfg.engine e = true := hr
  simp only [spgmAct, hd, List.length_singleton, spgmCatch, hr', Bool.or_true, if_true, setSpgm_late_undone (e, x) hi hlate]

/-! ### The obligation -/

/-- Settles O9: each command by its execution, which leaves the core of the state; a change of a density engine or a spectrogram unit whose index the source
has reached by what it does when it takes effect (`densAct_of_reached`, `spgmAct_of_reached`). -/
theorem productCommands : Obligations.ProductCommands := by
  unfold Obligations.ProductCommands
  refine ⟨?_, ?_, ?_, ?_, ?_, ?_, fun t => ?_, fun t => ?_, fun g => ?_, ?_, ?_, ?_, ?_, ?_, ?_, ?_, fun u e g s hu hlate hr => ?_, ?_, ?_, ?_, ?_, ?_,
    fun i e g b s hi hlate hr => ?_, ?_⟩
  · exact holds_of (fun _ _ _ => rfl) rfl (by decide) fun _ => rfl
  · exact fires_core rfl (fun _ _ _ _ => rfl) fun c e s => foldl_core _ _ s fun _ _ => regrid_core ..
  · exact holds_of (fun _ _ _ => rfl) rfl (by decide) fun _ => rfl
  · exact fires_core rfl (fun _ _ _ _ => rfl) fun c e s => foldl_core _ _ s fun _ _ => core_if rfl (regrid_core ..)
  · exact holds_of (fun _ _ _ => rfl) rfl (by decide) fun _ => rfl
  · exact fires_core rfl (fun _ _ _ _ => rfl) fun c e s => foldl_core _ _ s fun _ _ => setEngine_core ..
  · refine does_core (fun _ _ _ => rfl) rfl (fun _ => rfl) (fun c s _ _ h => ?_) fun _ _ => setEngine_core ..
    rw [windowLoad_run (s := opened s) s.index h.1, h.2]
    rfl
  · refine does_core (fun _ _ _ => rfl) rfl (fun _ => rfl) (fun c s _ _ h => ?_) fun _ _ => setEngine_core ..
    rw [windowLoad_run (s := opened s) s.index h.1, h.2]
    rfl
  · refine does_core (fun _ _ _ => rfl) rfl (fun _ => rfl) (fun c s _ _ h => ?_) fun c s => core_if (setEngine_core ..) rfl
    subst h
    exact specStatus_run c s.index (opened s)
  · exact holds_of (fun _ _ _ => rfl) rfl (by decide) fun _ => rfl
  · exact fires_core rfl (fun _ _ _ _ => rfl) fun c e s => densAct_core ..
  · exact holds_of (fun _ _ _ => rfl) rfl (by decide) fun _ => rfl
  · refine fires_core rfl (fun c e s h => ?_) fun c e s => foldl_core _ _ s fun a u => switchDens_on e u a ▸ switchDens_core ..
    simp only [densEnable_run, h, switchDens_on, noWordsAt]
  · refine fires_core rfl (fun c e s h => ?_) fun c e s => foldl_core _ _ s fun a u => switchDens_off e u a ▸ switchDens_core ..
    simp only [densEnable_run, h, switchDens_off, noWordsAt]
  · exact holds_of (fun _ _ _ => rfl) rfl (by decide) fun _ => rfl
  · exact fires_core rfl (fun _ _ _ _ => rfl) fun c e s => foldl_core _ _ s fun _ _ => densAct_core ..
  · have h : ∀ x, densAct u e x s = runDensAct u e x s := fun x => densAct_of_reached x hu hlate hr
    exact ⟨h _, h _, h _, h _⟩
  · exact does_core (fun _ _ _ => rfl) rfl (fun _ => rfl) (fun c s _ _ _ => densStatus_run c s.index (opened s)) fun c s => core_if (setDens_core ..) rfl
  · exact holds_of (fun _ _ _ => rfl) rfl (by decide) fun _ => rfl
  · exact fires_core rfl (fun _ _ _ _ => rfl) fun c e s => spgmAct_core ..
  · exact holds_of (fun _ _ _ => rfl) rfl (by decide) fun _ => rfl
  · exact fires_core rfl (fun _ _ _ _ => rfl) fun c e s => foldl_core _ _ s fun _ _ => core_if rfl (spgmAct_core ..)
  · exact ⟨spgmAct_of_reached _ hi hlate hr, spgmAct_of_reached _ hi hlate hr⟩
  · exact does_core (fun _ _ _ => rfl) rfl (fun _ => rfl) (fun c s _ _ _ => spgmStatus_run c s.index (opened s)) fun c s => core_if (setSpgm_core ..) rfl

end Sys2Proof.Machine
end

section
/-! O30: what the consumers of spectra leave as it is: the samples, the tuners, and the engines but for their product output (R253). -/

namespace Sys2Proof.Machine

/-- An engine without its product output (R260), which is a consumer of its spectra. -/
def Engine.bare (g : Engine) : Engine := { g with prodRecords := 0, out := default, nextOut := [], group := none }

/-- What spectra are made from, and the engines that count them: the converters, the equalisers, the tuners, the engines without their product
output, and what the samples have said. -/
def sampled (s : State) : ConvUnit × List Equaliser × List Tuner × List Engine × History :=
  (s.conv, s.eqs, s.tuners, s.engines.map Engine.bare, s.hist)

@[simp] theorem sampled_ite {p : Prop} [Decidable p] (a b : State) : sampled (if p then a else b) = if p then sampled a else sampled b :=
  apply_ite sampled p a b

@[simp] theorem sampled_foldl {β : Type} {l : List β} {f : State → β → State} {s : State} (h : ∀ a i, sampled (f a i) = sampled a) :
    sampled (l.foldl f s) = sampled s := by
  induction l generalizing s with
  | nil => rfl
  | cons x t ih => exact ih.trans (h s x)

/-! ### Shared operations -/

@[simp] theorem emit_sampled (o : Output) (s : State) : sampled (emit o s) = sampled s := rfl

@[simp] theorem notify_sampled (code : Nat) (payload : List Word) (idx : Nat) (s : State) : sampled (notify code payload idx s) = sampled s := by
  rw [notify_frame]
  rfl

@[simp] theorem writeAt_sampled (h : Word) (o : Nat) (bytes : List Byte) (s : State) : sampled (writeAt h o bytes s) = sampled s := by
  unfold writeAt
  split <;> rfl

@[simp] theorem offerItem_sampled (pkind unit seq index : Nat) (source : ItemSource) (s : State) :
    sampled (offerItem pkind unit seq index source s) = sampled s := by
  unfold offerItem
  split <;> rfl

/-! ### Segments and trigger slots -/

@[simp] theorem setRing_sampled (kind unit : Nat) (f : CapRing → CapRing) (s : State) : sampled (setRing kind unit f s) = sampled s := rfl

@[simp] theorem closeSegment_sampled (n reason limit : Nat) (s : State) : sampled (closeSegment n reason limit s) = sampled s := by
  unfold closeSegment closeSegmentOn
  dsimp only
  split <;> rfl

@[simp] theorem endRun_sampled (kind unit reason limit : Nat) (s : State) : sampled (endRun kind unit reason limit s) = sampled s := by
  simp [endRun]

@[simp] theorem startRun_sampled (kind unit e : Nat) (s : State) : sampled (startRun kind unit e s) = sampled s := rfl

@[simp] theorem resizeRing_sampled (e : Nat) (s : State) : sampled (resizeRing e s) = sampled s := by
  unfold resizeRing
  split
  · rfl
  · split <;> rfl

@[simp] theorem pushEvent_sampled (x : TrigEvent) (s : State) : sampled (pushEvent x s) = sampled s := by
  unfold pushEvent
  split <;> rfl

@[simp] theorem trigTake_sampled (x : Spectrum) (s : State) : sampled (trigTake x s) = sampled s := by
  unfold trigTake
  dsimp only
  repeat' split
  all_goals simp

/-! ### Product output -/

/-- A change of an engine's product output. -/
theorem setEngine_sampled (e : Nat) {f : Engine → Engine} (s : State) (h : ∀ g, (f g).bare = g.bare) : sampled (setEngine e f s) = sampled s := by
  have hmap : (modAt s.engines e f).map Engine.bare = s.engines.map Engine.bare := by
    refine List.ext_getElem (by simp [modAt]) fun i _ _ => ?_
    simp only [modAt, List.getElem_map, List.getElem_modify]
    split
    · exact h _
    · rfl
  simp only [sampled, setEngine_conv, setEngine_eqs, setEngine_tuners, setEngine_engines, setEngine_hist, hmap]

@[simp] theorem pushRecord_sampled (e : Nat) (r : RingRecord) (s : State) : sampled (pushRecord e r s) = sampled s := rfl

@[simp] theorem emitProduct_sampled (e : Nat) (s : State) : sampled (emitProduct e s) = sampled s := by
  unfold emitProduct
  dsimp only
  split
  · rfl
  · rw [emit_sampled, offerItem_sampled, pushRecord_sampled]
    exact setEngine_sampled e s fun _ => rfl

@[simp] theorem switchOutput_sampled (x : Spectrum) (s : State) : sampled (switchOutput x s) = sampled s := by
  unfold switchOutput
  dsimp only
  split
  · rfl
  · split
    · rfl
    · split
      · split
        · exact setEngine_sampled _ s fun _ => rfl
        · rw [startRun_sampled, resizeRing_sampled, endRun_sampled]
          exact setEngine_sampled _ s fun _ => rfl
      · exact setEngine_sampled _ s fun _ => rfl

@[simp] theorem productTake_sampled (x : Spectrum) (s : State) : sampled (productTake x s) = sampled s := by
  unfold productTake
  dsimp only
  rw [sampled_ite, emitProduct_sampled, ite_self, ← switchOutput_sampled x s]
  exact setEngine_sampled _ _ fun _ => rfl

/-! ### Densities -/

@[simp] theorem setDens_sampled (u : Nat) (f : Density → Density) (s : State) : sampled (setDens u f s) = sampled s := rfl

@[simp] theorem closeDensity_sampled (c stop : Nat) (gap early lost busy : Bool) (next : Option Nat) (s : State) :
    sampled (closeDensity c stop gap early lost busy next s) = sampled s := by
  unfold closeDensity
  split <;> simp

@[simp] theorem closeDueDensity_sampled (u i : Nat) (lost busy : Bool) (fuel : Nat) (s : State) :
    sampled (closeDueDensity u i lost busy fuel s) = sampled s := by
  induction fuel generalizing lost busy s with
  | zero => rfl
  | succ fuel ih =>
    unfold closeDueDensity
    dsimp only
    repeat' split
    all_goals simp [ih]

@[simp] theorem densUpTo_sampled (u i : Nat) (s : State) : sampled (densUpTo u i s) = sampled s := closeDueDensity_sampled ..

@[simp] theorem endDensity_sampled (c i : Nat) (gap : Bool) (s : State) : sampled (endDensity c i gap s) = sampled s := by
  unfold endDensity
  dsimp only
  repeat' split
  all_goals simp

@[simp] theorem startDensity_sampled (u e : Nat) (s : State) : sampled (startDensity u e s) = sampled s := by
  unfold startDensity anchorDensity
  dsimp only
  repeat' split
  all_goals simp

@[simp] theorem runDensAct_sampled (u e : Nat) (x : DensAct) (s : State) : sampled (runDensAct u e x s) = sampled s := by
  cases x <;> simp [runDensAct]

@[simp] theorem densCatch_sampled (all : Bool) (u fuel : Nat) (s : State) : sampled (densCatch all u fuel s) = sampled s := by
  induction fuel generalizing s with
  | zero => rfl
  | succ fuel ih =>
    unfold densCatch
    repeat' split
    all_goals simp [ih]

@[simp] theorem densityTake_sampled (u key : Nat) (invalid : Bool) (flags : SpecFlags) (regrid : Bool) (cols : List Dyad) (s : State) :
    sampled (densityTake u key invalid flags regrid cols s) = sampled s := by
  unfold densityTake
  dsimp only
  repeat' split
  all_goals simp

/-! ### Spectrograms -/

@[simp] theorem setSpgm_sampled (i : Nat) (f : Spgm → Spgm) (s : State) : sampled (setSpgm i f s) = sampled s := rfl

@[simp] theorem emitLine_sampled (i : Nat) (lost : Bool) (s : State) : sampled (emitLine i lost s) = sampled s := by
  unfold emitLine
  dsimp only
  split
  · rfl
  · simp only [setSpgm_sampled, sampled_ite, offerItem_sampled, writeAt_sampled, ite_self]

@[simp] theorem spgmTake_sampled (i : Nat) (x : FrameIn) (cols : List Dyad) (lost : Bool) (s : State) :
    sampled (spgmTake i x cols lost s) = sampled s := by
  simp [spgmTake]

@[simp] theorem runSpgmAct_sampled (i : Nat) (x : SpgmAct) (s : State) : sampled (runSpgmAct i x s) = sampled s := by
  cases x <;> simp [runSpgmAct]

@[simp] theorem spgmCatch_sampled (all : Bool) (i fuel : Nat) (s : State) : sampled (spgmCatch all i fuel s) = sampled s := by
  induction fuel generalizing s with
  | zero => rfl
  | succ fuel ih =>
    unfold spgmCatch
    repeat' split
    all_goals simp [ih]

/-! ### Threshers -/

@[simp] theorem setTh_sampled (c : Nat) (f : Thresher → Thresher) (s : State) : sampled (setTh c f s) = sampled s := rfl

@[simp] theorem runThAct_sampled (ch e : Nat) (x : ThAct) (s : State) : sampled (runThAct ch e x s) = sampled s := by
  cases x <;> simp [runThAct, restartTh, endThReports]

@[simp] theorem thCatch_sampled (all : Bool) (ch fuel : Nat) (s : State) : sampled (thCatch all ch fuel s) = sampled s := by
  induction fuel generalizing s with
  | zero => rfl
  | succ fuel ih =>
    unfold thCatch
    repeat' split
    all_goals simp [ih]

@[simp] theorem thTake_sampled (c : Nat) (invalid dropped : Bool) (binStart : Nat) (powers : List Dyad) (s : State) :
    sampled (thTake c invalid dropped binStart powers s).1 = sampled s := by
  unfold thTake
  dsimp only
  repeat' split
  all_goals simp

/-! ### Integration -/

@[simp] theorem setInt_sampled (f : IntUnit → IntUnit) (s : State) : sampled (setInt f s) = sampled s := rfl

@[simp] theorem openIntFrame_sampled (x : Nat) (s : State) : sampled (openIntFrame x s) = sampled s := rfl

@[simp] theorem closeIntFrame_sampled (close last : Nat) (s : State) : sampled (closeIntFrame close last s) = sampled s := by
  unfold closeIntFrame
  split <;> simp

@[simp] theorem stopInt_sampled (close i : Nat) (s : State) : sampled (stopInt close i s) = sampled s := by simp [stopInt]

@[simp] theorem mapIntFrame_sampled (f : IntFrame → IntFrame) (s : State) : sampled (mapIntFrame f s) = sampled s := rfl

@[simp] theorem accumulateBin_sampled (ms : List IntMember) (p j arr cnt : Nat) (first : Bool) (s : State) :
    sampled (accumulateBin ms p j arr cnt first s) = sampled s := by simp [accumulateBin]

@[simp] theorem accumulateSet_sampled (ms : List IntMember) (s : State) : sampled (accumulateSet ms s) = sampled s := by simp [accumulateSet]

@[simp] theorem closeDueInt_sampled (key32 fuel : Nat) (s : State) : sampled (closeDueInt key32 fuel s) = sampled s := by
  induction fuel generalizing s with
  | zero => rfl
  | succ fuel ih =>
    unfold closeDueInt
    repeat' split
    all_goals simp [ih]

@[simp] theorem intUpTo_sampled (key32 : Nat) (s : State) : sampled (intUpTo key32 s) = sampled s := closeDueInt_sampled ..

@[simp] theorem accountSet_sampled (ms : List IntMember) (lost : Bool) (s : State) : sampled (accountSet ms lost s) = sampled s := by
  simp [accountSet]

@[simp] theorem takeSet_sampled (ms : List IntMember) (lost dropped : Bool) (s : State) : sampled (takeSet ms lost dropped s) = sampled s := by
  unfold takeSet
  dsimp only
  repeat' split
  all_goals simp

@[simp] theorem intDrain_sampled (i fuel : Nat) (s : State) : sampled (intDrain i fuel s) = sampled s := by
  induction fuel generalizing s with
  | zero => rfl
  | succ fuel ih =>
    unfold intDrain
    repeat' split
    all_goals simp [ih]

@[simp] theorem intBefore_sampled (i : Nat) (s : State) : sampled (intBefore i s) = sampled s := by simp [intBefore]

@[simp] theorem startInt_sampled (e : Nat) (s : State) : sampled (startInt e s) = sampled s := by simp [startInt]

@[simp] theorem runIntAct_sampled (e : Nat) (x : IntAct) (s : State) : sampled (runIntAct e x s) = sampled s := by
  cases x <;> simp [runIntAct]

@[simp] theorem intCatch_sampled (all : Bool) (fuel : Nat) (s : State) : sampled (intCatch all fuel s) = sampled s := by
  induction fuel generalizing s with
  | zero => rfl
  | succ fuel ih =>
    unfold intCatch
    repeat' split
    all_goals simp [ih]

@[simp] theorem thresherTake_sampled (x : Spectrum) (dropped : Bool) (s : State) : sampled (thresherTake x dropped s) = sampled s := by
  unfold thresherTake
  dsimp only
  repeat' split
  all_goals simp

/-- The changes of the consumers that have fallen due. -/
@[simp] theorem catchAll_sampled (s : State) : sampled (catchAll s) = sampled s := by
  simp [catchAll, intCatchAll, spgmCatchAll, densCatchAll, thCatchAll]

end Sys2Proof.Machine
end

section
/-! O30: an engine completes a spectrum (R252, R253, R255, R257). -/

namespace Sys2Proof.Machine

/-! ### The engines, but for their product output -/

theorem engineOf_setEngine_same {e : Nat} {f : Engine → Engine} {s : State} (h : e < s.engines.length) :
    engineOf (setEngine e f s) e = f (engineOf s e) := getD_modAt_same h

theorem engineOf_setEngine_ne {e i : Nat} {f : Engine → Engine} {s : State} (h : i ≠ e) : engineOf (setEngine e f s) i = engineOf s i :=
  getD_modAt_ne h

section
variable {s t : State} (h : sampled t = sampled s)
include h

theorem sampled_engines : t.engines.map Engine.bare = s.engines.map Engine.bare := congrArg (fun x => x.2.2.2.1) h

theorem sampled_engine (e : Nat) : (engineOf t e).bare = (engineOf s e).bare := by
  have hget : ∀ u : State, (engineOf u e).bare = (u.engines.map Engine.bare).getD e default := fun u =>
    (List.getD_map u.engines default Engine.bare).symm
  rw [hget, hget, sampled_engines h]

theorem sampled_engines_length : t.engines.length = s.engines.length := by
  simpa using congrArg List.length (sampled_engines h)

theorem sampled_tuners : t.tuners = s.tuners := congrArg (fun x => x.2.2.1) h

end

/-! ### What INVALID rests on (R257) -/

/-- The same samples, tuners, engines and time. -/
structure SameSource (s t : State) : Prop where
  core : core t = core s
  sampled : sampled t = sampled s

namespace SameSource
variable {s t : State} (h : SameSource s t)
include h

theorem tuners : t.tuners = s.tuners := sampled_tuners h.sampled

theorem hist : t.hist = s.hist := congrArg (fun x => x.2.2.2.2) h.sampled

theorem cfg (e : Nat) : (engineOf t e).cfg = (engineOf s e).cfg := (congrArg Engine.cfg (sampled_engine h.sampled e) :)

theorem anchor (e : Nat) : (engineOf t e).anchor = (engineOf s e).anchor := (congrArg Engine.anchor (sampled_engine h.sampled e) :)

theorem frame (e : Nat) : (engineOf t e).frame = (engineOf s e).frame := (congrArg Engine.frame (sampled_engine h.sampled e) :)

theorem wideTags (c : Nat) : wideTags t c = wideTags s c := by
  have hconv : t.conv = s.conv := congrArg (fun x => x.1) h.sampled
  have heqs : t.eqs = s.eqs := congrArg (fun x => x.2.1) h.sampled
  have hvariant : t.variant = s.variant := congrArg (fun x => x.2.2.2.2.2.2.2.1) h.core
  simp only [Machine.wideTags, tileInv, tileNbr, windowRanges, guardRanges, gapRanges, ovrList, voltAt, channelOf, hconv, heqs, h.hist, hvariant]

theorem notesOver (lo hi : Nat) : notesOver t lo hi = notesOver s lo hi := by
  have hshadowed : t.shadowed = s.shadowed := congrArg (fun x => x.2.2.2.2.2.1) h.core
  simp only [Machine.notesOver, noteNow, runMode, h.hist, core_time h.core, core_mode h.core, hshadowed]

theorem inputTags (e : Nat) : inputTags t e = inputTags s e := by
  simp only [Machine.inputTags, tunerTags, h.cfg, h.tuners, h.wideTags]

theorem mixedGain (e f : Nat) : mixedGain t e f = mixedGain s e f := by
  simp only [Machine.mixedGain, frameFirst, elementGain, h.cfg, h.anchor, h.tuners]

theorem frameTags (e f : Nat) : frameTags t e f = frameTags s e f := by
  simp only [Machine.frameTags, frameFirst, frameStart, frameEnd, framePos, h.cfg, h.anchor, h.tuners, h.inputTags, h.notesOver, h.mixedGain]

theorem invalid (e f : Nat) : (spectrumOf t e f).frame.invalid = (spectrumOf s e f).frame.invalid := by
  simp only [spectrumOf, h.frameTags]

end SameSource

theorem catchAll_source (s : State) : SameSource s (catchAll s) := ⟨catchAll_core s, catchAll_sampled s⟩

theorem opened_source (s : State) : SameSource s (opened s) := ⟨opened_core s, rfl⟩

/-! ### The count (R252, R253) -/

/-- An engine counts the spectrum of its next frame and moves on to the one after it. -/
def countSpectrum (invalid : Bool) (g : Engine) : Engine :=
  { g with frame := g.frame + 1, spectra := satAdd 32 g.spectra 1,
           invalidSpectra := if invalid then satAdd 32 g.invalidSpectra 1 else g.invalidSpectra }

theorem countSpectrum_bare (invalid : Bool) (g : Engine) : (countSpectrum invalid g).bare = countSpectrum invalid g.bare := rfl

/-- The consumers of a spectrum take it (R253). -/
def offerSpectrum (e : Nat) (linesLost : List Nat) (thDrop : Bool) (x : Spectrum) (s : State) : State :=
  let s1 := productTake x s
  let s2 := (List.range s1.dens.length).foldl (fun a u =>
    if densEngine u (densOf a u) == e then densityTake u x.frame.key x.frame.invalid x.frame.flags (x.frame.number == 0) x.cols a else a) s1
  let s3 := (List.range s2.spgm.length).foldl (fun a i =>
    if (spgmOf a i).cfg.engine == e then spgmTake i x.frame x.cols (linesLost.contains i) a else a) s2
  thresherTake x (thDrop && !favoursIntegration (runMode s)) (trigTake x s3)

theorem offerSpectrum_sampled (e : Nat) (linesLost : List Nat) (thDrop : Bool) (x : Spectrum) (s : State) :
    sampled (offerSpectrum e linesLost thDrop x s) = sampled s := by
  simp [offerSpectrum]

/-- The spectrum that an engine completes next, when the changes that are due have come. -/
def nextSpectrum (e : Nat) (s : State) : Spectrum := spectrumOf (catchAll s) e (engineOf (catchAll s) e).frame

theorem completeSpectrum_eq (e : Nat) (linesLost : List Nat) (thDrop : Bool) (s : State) : completeSpectrum e linesLost thDrop s =
    catchAll (setEngine e (countSpectrum (nextSpectrum e s).frame.invalid) (offerSpectrum e linesLost thDrop (nextSpectrum e s) (catchAll s))) := rfl

section
variable (e : Nat) (linesLost : List Nat) (thDrop : Bool) (s : State)

/-- The state in which the engine counts: the spectrum has been offered. -/
theorem offered_sampled : sampled (offerSpectrum e linesLost thDrop (nextSpectrum e s) (catchAll s)) = sampled s :=
  (offerSpectrum_sampled ..).trans (catchAll_sampled s)

theorem nextSpectrum_invalid : (nextSpectrum e s).frame.invalid = (spectrumOf s e (engineOf s e).frame).frame.invalid := by
  have h := catchAll_source s
  rw [nextSpectrum, h.invalid, h.frame]

theorem completeSpectrum_engine_same (he : e < s.engines.length) : (engineOf (completeSpectrum e linesLost thDrop s) e).bare =
    countSpectrum (spectrumOf s e (engineOf s e).frame).frame.invalid (engineOf s e).bare := by
  have hsame := offered_sampled e linesLost thDrop s
  have hlen : e < (offerSpectrum e linesLost thDrop (nextSpectrum e s) (catchAll s)).engines.length := he.trans_eq (sampled_engines_length hsame).symm
  rw [completeSpectrum_eq, sampled_engine (catchAll_sampled _), engineOf_setEngine_same hlen, countSpectrum_bare, nextSpectrum_invalid,
    sampled_engine hsame]

theorem completeSpectrum_engine_ne {i : Nat} (hi : i ≠ e) :
    (engineOf (completeSpectrum e linesLost thDrop s) i).bare = (engineOf s i).bare := by
  rw [completeSpectrum_eq, sampled_engine (catchAll_sampled _), engineOf_setEngine_ne hi, sampled_engine (offered_sampled e linesLost thDrop s)]

theorem completeSpectrum_tuners : (completeSpectrum e linesLost thDrop s).tuners = s.tuners := by
  rw [completeSpectrum_eq, sampled_tuners (catchAll_sampled _), setEngine_tuners]
  exact sampled_tuners (offered_sampled e linesLost thDrop s)

end

/-! ### SPECTRUM_DONE -/

/-- The engine runs, and no sample of its next frame is still to come (R253). -/
def frameComplete (e : Nat) (s : State) : Bool :=
  engineRunning s e && locked s && decide (frameEnd s e (engineOf s e).frame < heldBefore s)

theorem bringVolts_frame (l : List Volts) (s : State) : bringVolts l s = { s with conv := (bringVolts l s).conv } := by
  unfold bringVolts
  split <;> rfl

theorem frameComplete_bringVolts (e : Nat) (l : List Volts) (s : State) : frameComplete e (bringVolts l s) = frameComplete e s := by
  rw [bringVolts_frame]
  rfl

theorem frameComplete_opened (e : Nat) (s : State) : frameComplete e (opened s) = frameComplete e s := rfl

theorem engineOf_bringVolts (l : List Volts) (s : State) (i : Nat) : engineOf (bringVolts l s) i = engineOf s i := by
  rw [bringVolts_frame]
  rfl

theorem bringVolts_opened (l : List Volts) (s : State) : bringVolts l (opened s) = opened (bringVolts l s) := by
  unfold bringVolts
  split <;> rfl

theorem evSpectrumDone_complete {e : Nat} (volts : List Volts) (linesLost : List Nat) (thDrop : Bool) {s : State} (h : frameComplete e s = true) :
    evSpectrumDone e volts linesLost thDrop [] s = completeSpectrum e linesLost thDrop (bringVolts volts s) :=
  if_pos ((frameComplete_bringVolts e volts s).trans h)

theorem evSpectrumDone_waits {e : Nat} (volts : List Volts) (linesLost : List Nat) (thDrop : Bool) {s : State} (h : frameComplete e s = false) :
    evSpectrumDone e volts linesLost thDrop [] s = bringVolts volts s :=
  if_neg (Bool.eq_false_iff.mp ((frameComplete_bringVolts e volts s).trans h))

section
variable {e : Nat} (volts : List Volts) (linesLost : List Nat) (thDrop : Bool) {s : State} (h : frameComplete e s = true)
include h

theorem evSpectrumDone_engine_same (he : e < s.engines.length) : (engineOf (evSpectrumDone e volts linesLost thDrop [] s) e).bare =
    countSpectrum (spectrumOf (bringVolts volts s) e (engineOf s e).frame).frame.invalid (engineOf s e).bare := by
  have hlen : e < (bringVolts volts s).engines.length := by
    rw [bringVolts_frame]
    exact he
  rw [evSpectrumDone_complete volts linesLost thDrop h, completeSpectrum_engine_same _ _ _ _ hlen, engineOf_bringVolts]

theorem evSpectrumDone_engine_ne {i : Nat} (hi : i ≠ e) :
    (engineOf (evSpectrumDone e volts linesLost thDrop [] s) i).bare = (engineOf s i).bare := by
  rw [evSpectrumDone_complete volts linesLost thDrop h, completeSpectrum_engine_ne _ _ _ _ hi, engineOf_bringVolts]

theorem evSpectrumDone_tuners : (evSpectrumDone e volts linesLost thDrop [] s).tuners = s.tuners := by
  rw [evSpectrumDone_complete volts linesLost thDrop h, completeSpectrum_tuners, bringVolts_frame]

end

theorem spectrumOf_invalid_opened (volts : List Volts) (e f : Nat) (s : State) :
    (spectrumOf (bringVolts volts (opened s)) e f).frame.invalid = (spectrumOf (bringVolts volts s) e f).frame.invalid := by
  rw [bringVolts_opened]
  exact (opened_source _).invalid e f

theorem after_engines (old : State) (f : State → State) (s : State) : (pairNotice old (repliesFirst f s)).engines = (f (opened s)).engines := by
  rw [after_frame]

theorem after_tuners (old : State) (f : State → State) (s : State) : (pairNotice old (repliesFirst f s)).tuners = (f (opened s)).tuners := by
  rw [after_frame]

/-- Settles O30: the spectrum is counted by its engine (`evSpectrumDone_engine_same`), and its consumers leave the other engines and the tuners
(`evSpectrumDone_engine_ne`, `evSpectrumDone_tuners`) and the core of the state; before its last sample nothing happens. -/
theorem spectrumDone : Obligations.SpectrumDone := by
  unfold Obligations.SpectrumDone
  refine ⟨fun e volts lost drop => ?_, fun s e f => ⟨rfl, ?_, rfl⟩, fun e lost drop => ?_⟩
  · refine eventTo_of (fun _ _ => rfl) (fun k s _ hs => (opened_calm hs).core (evSpectrumDone_core ..)) fun k s t old hp _ ht => ?_
    obtain ⟨hrun, hlock, hend, he⟩ := hp
    have hcomplete : frameComplete e s = true := by simp [frameComplete, hrun, hlock, hend]
    rw [← frameComplete_opened] at hcomplete
    have hcore : core t = core s :=
      ht ▸ (pairNotice_core ..).trans ((repliesFirst_opened ..).trans ((evSpectrumDone_core ..).trans (opened_core s)))
    have hengine : ∀ i, engineOf t i = engineOf (evSpectrumDone e volts lost drop [] (opened s)) i := fun i => by
      rw [engineOf, ht, after_engines, engineOf]
    have hsame := evSpectrumDone_engine_same volts lost drop hcomplete he
    rw [spectrumOf_invalid_opened, ← hengine] at hsame
    have hne : ∀ i, i ≠ e → (engineOf t i).bare = (engineOf s i).bare := fun i hi => by
      rw [hengine, evSpectrumDone_engine_ne volts lost drop hcomplete hi]
      rfl
    refine ⟨(congrArg Engine.frame hsame :), (congrArg Engine.spectra hsame :), (congrArg Engine.invalidSpectra hsame :),
      fun i hi => ⟨(congrArg Engine.frame (hne i hi) :), (congrArg Engine.spectra (hne i hi) :)⟩, core_time hcore, core_cmds hcore, core_mode hcore, ?_⟩
    rw [ht, after_tuners, evSpectrumDone_tuners volts lost drop hcomplete]
    rfl
  · simp [spectrumOf, frameBins]
  · refine event_of_core (fun _ _ => rfl) (fun k s h => evSpectrumDone_waits [] lost drop ?_) fun _ _ => rfl
    rw [frameComplete_opened]
    simp only [frameComplete, Bool.and_eq_false_iff, decide_eq_false_iff_not, not_lt, or_assoc]
    exact h

end Sys2Proof.Machine
end

section
/-! O10: the commands of the trigger fabric (R308, R328-R334). -/

namespace Sys2Proof.Machine

/-! ### What TRIG_ARM does to a slot (R330) -/

theorem takeReports_cfg (k : Nat) (t : TrigSlot) : (takeReports k t).cfg = t.cfg := by
  unfold takeReports
  dsimp only
  split
  · split <;> rfl
  · rw [apply_ite TrigSlot.cfg, ite_self]
    refine List.foldlRecOn (motive := fun u : TrigSlot => u.cfg = t.cfg) _ _ rfl fun u hu r _ => ?_
    split_ifs <;> exact hu

@[simp] theorem restartSlot_cfg (e : Nat) (t : TrigSlot) : (restartSlot e t).cfg = t.cfg := takeReports_cfg (e - 1) t

theorem armSlot_same (e : Nat) (t : TrigSlot) : armSlot e t.st t = t := by simp [armSlot]

@[simp] theorem armSlot_st (e : Nat) (st : SlotState) (t : TrigSlot) : (armSlot e st t).st = st := by
  by_cases h : t.st = st
  · rw [← h, armSlot_same]
  · cases st <;> simp [armSlot, h]

@[simp] theorem armSlot_cfg (e : Nat) (st : SlotState) (t : TrigSlot) : (armSlot e st t).cfg = t.cfg := by
  by_cases h : t.st = st
  · rw [← h, armSlot_same]
  · cases st <;> by_cases hd : t.st = .disabled <;> simp [armSlot, h, hd]

theorem armSlot_disabled_lastFiring (e : Nat) {t : TrigSlot} (h : t.st ≠ .disabled) : (armSlot e .disabled t).lastFiring = none := by
  simp [armSlot, h]

theorem le_armSlot_armed_armIndex (e : Nat) {t : TrigSlot} (h : t.st ≠ .armed) : e ≤ (armSlot e .armed t).armIndex := by
  simp [armSlot, h]

theorem slotStateOf_eq (n : Nat) : slotStateOf n = if n = 0 then .disabled else if n = 1 then .enabled else .armed := by
  match n with
  | 0 | 1 | n + 2 => simp [slotStateOf]

/-! ### A change of the fabric: at once where it stands still, in its turn among the decisions where it runs (R315, R318) -/

theorem changeTrig_still (e : Nat) (x : TrigChange) {s : State} (h : trigDecides s = false) : changeTrig e x s = applyChange e x s := by
  simp [changeTrig, h]

theorem changeTrig_decides (e : Nat) (x : TrigChange) {s : State} (h : trigDecides s = true) :
    changeTrig e x s = decideTo e { s with trig := { s.trig with changes := s.trig.changes ++ [(e, x)] } } := by
  simp [changeTrig, h]

/-! ### The status words (R334) -/

/-- A slot's state as STATE of the status reports it. -/
def slotStateCode : SlotState → Nat
  | .disabled => 0
  | .enabled => 1
  | .armed => 2

/-- The words of TRIG_STATUS for slot `i`: the changes that are still to come show, the counts and the decided state are those of now. -/
def trigStatusWords (i : Nat) (s : State) : List Word :=
  let t := slotOf (afterChanges s) i
  let n := slotOf s i
  [BitVec.ofNat 32 (slotStateCode t.st + oneIf (trigRunning s) * 4 + oneIf n.q * 8
    + oneIf (sourceIdle s t) * 16 + oneIf (outOfColumns s t) * 32 + oneIf t.timerAt.isSome * 64)]
  ++ u64Words s.trig.evalIndex
  ++ [BitVec.ofNat 32 n.firings, BitVec.ofNat 32 n.wins, BitVec.ofNat 32 n.suppressed, BitVec.ofNat 32 n.heldOff, BitVec.ofNat 32 n.blanked,
    BitVec.ofNat 32 s.trig.recordsLost]

theorem trigStatus_run (c : Cmd) (e : Nat) (s : State) : specTrigStatus.run c e s =
    (if c.flag 0 8 then setSlot (c.arg 0 4 0) (fun t => { t with firings := 0, wins := 0, suppressed := 0, heldOff := 0, blanked := 0 }) s else s,
      .done .ok (trigStatusWords (c.arg 0 4 0) s)) := by
  simp only [specTrigStatus, trigStatusWords, oneIf_mul]
  rfl

/-! ### The obligation -/

/-- Settles O10: each command by its execution. A change of the slots may decide, and so end forced commands (`ends_changeTrig`); the other commands leave
the core of the state. What TRIG_ARM does to a slot is said by the laws of `armSlot`. -/
theorem triggerCommands : Obligations.TriggerCommands := by
  unfold Obligations.TriggerCommands
  refine ⟨?_, ?_, ?_, ?_, fun e i m g st s h => ⟨changeTrig_still _ _ h, changeTrig_still _ _ h⟩, fun e x s h => changeTrig_decides e x h, ?_, ?_, ?_,
    ?_, ?_, ?_, fun e st t => ⟨armSlot_st .., armSlot_cfg .., ?_, ?_, ?_⟩⟩
  · exact holds_of (fun _ _ _ => rfl) rfl (by decide) fun _ => rfl
  · exact fires_ends rfl (fun _ _ _ _ => rfl) (fun _ _ _ => ends_changeTrig ..) fun _ _ _ h => changeTrig_pair _ _ h
  · exact holds_of (fun _ _ _ => rfl) rfl (by decide) fun _ => rfl
  · refine fires_ends rfl (fun c e s _ => ?_) (fun _ _ _ => ends_changeTrig ..) fun _ _ _ h => changeTrig_pair _ _ h
    rw [← slotStateOf_eq]
    rfl
  · exact holds_of (fun _ _ _ => rfl) rfl (by decide) fun _ => rfl
  · exact fires_core rfl (fun _ _ _ _ => rfl) fun _ _ _ => core_mk ..
  · exact does_core (fun _ _ _ => rfl) rfl (fun _ => rfl) (fun _ _ _ _ _ => rfl) fun _ _ => core_mk ..
  · exact holds_of (fun _ _ _ => rfl) rfl (by decide) fun _ => rfl
  · exact firesLater_core rfl (fun _ _ _ _ => rfl) fun _ _ _ => core_mk ..
  · exact does_core (fun _ _ _ => rfl) rfl (fun _ => rfl) (fun c s _ _ _ => trigStatus_run c s.index (opened s)) fun c s => core_if (setSlot_core ..) rfl
  · rintro rfl
    exact armSlot_same e t
  · rintro h rfl
    exact armSlot_disabled_lastFiring e h
  · rintro h rfl
    exact le_armSlot_armed_armIndex e h

end Sys2Proof.Machine
end

section
/-! O11: the commands of the capture sheaves (R336-R339, R358-R361). -/

namespace Sys2Proof.Machine

/-! ### A row whose effect ends other commands -/

theorem Ends.noneWaits_others {s t : State} (h : Ends s t) {id : Nat} (hs : noneWaits (s.cmds.filter fun d => d.id != id) = true) :
    noneWaits (t.cmds.filter fun d => d.id != id) = true := by
  simp only [noneWaits, List.all_eq_true, List.mem_filter, bne_iff_ne] at hs ⊢
  intro c ⟨hc, hid⟩
  obtain ⟨d, hd, hdc, hw⟩ := h.fewer c hc
  exact hw (hs d ⟨hd, hdc ▸ hid⟩)

/-- A command that is served at once, with an effect that ends other commands and leaves the pair. -/
theorem does_ends {row : Nat → Packet → Instr} {sp : CmdSpec} {pre : Cmd → State → Prop} {effect : Cmd → State → State} {words : Cmd → State → List Word}
    (hrow : ∀ k p s, exec (row k p) s = runRow sp k p s) (hsp : specOf sp.opcode = some sp) (hl : ∀ c, sp.lead c = none)
    (hr : ∀ c s, pre c s → sp.run c s.index (opened s) = (effect c (opened s), .done .ok (words c (opened s))))
    (he : ∀ c s, Ends s (effect c s)) (hp : ∀ c s, s.pair.forwarded = [] → (effect c s).pair = s.pair) : Does row sp pre effect words := by
  intro k p s ha hti hpre
  have hquiet := (accepted_iff.mp ha).1.quiet
  have hends : Ends (rowState k p s) (effect (rowCmd k p s) (opened (rowState k p s))) := (ends_core (opened_core _)).trans (he ..)
  have hpair : (opened (rowState k p s)).pair = s.pair := rowState_pair k p s
  rw [hrow]
  refine row_runs ha hsp hti (hl _) (hr _ _ hpre) rfl (hends.noneWaits_others (noneWaits_served hquiet)) ?_ ?_
  · exact (hp _ _ (by rw [hpair]; exact quiet_forwarded hquiet)).trans hpair
  · rw [locked, hends.time]
    exact rowState_locked k p s

/-! ### The binding of a ring that no sheaf reads (R337, R358) -/

theorem decideTo_still (k : Nat) {s : State} (h : trigDecides s = false) : decideTo k s = s := by simp [decideTo, h]

/-- A ring whose run has ended (R337): what a trigger before that index may still find is kept. -/
def endedRing (reason limit : Nat) (r : CapRing) : CapRing :=
  { r with
    run := none, records := [], bad := [],
    past := match r.run with
      | some x => some { start := x, stop := limit, reason := reason, records := r.records }
      | none => r.past }

theorem endRun_unread {kind unit : Nat} (reason limit : Nat) {s : State}
    (h : (s.cap.sheaves.all fun sh => !(sh.cfg.kind == kind && sh.cfg.unit == unit)) = true) :
    endRun kind unit reason limit s = setRing kind unit (endedRing reason limit) s := by
  have hoff : ∀ n ∈ List.range s.cap.sheaves.length, ((sheafOf s n).cfg.kind == kind && (sheafOf s n).cfg.unit == unit) = false := fun n hn => by
    have hn : n < s.cap.sheaves.length := List.mem_range.mp hn
    rw [sheafOf, List.getD_eq_getElem _ _ hn]
    simpa only [Bool.not_eq_true'] using List.all_eq_true.mp h _ (List.getElem_mem hn)
  unfold endRun
  refine congrArg (setRing kind unit (endedRing reason limit)) ?_
  refine List.foldlRecOn (motive := fun a => a = s) _ _ rfl fun a ha n hn => ?_
  subst ha
  simp [hoff n hn]

/-- A change of the ring of one source shows in no other ring. -/
theorem filter_others_setRing {kind unit : Nat} {f : CapRing → CapRing} (s : State) (hf : ∀ r, (f r).kind = r.kind ∧ (f r).unit = r.unit) :
    (setRing kind unit f s).cap.rings.filter (fun r => !(r.kind == kind && r.unit == unit))
      = s.cap.rings.filter fun r => !(r.kind == kind && r.unit == unit) := by
  simp only [setRing_cap]
  induction s.cap.rings with
  | nil => rfl
  | cons r rs ih =>
    by_cases h : (r.kind == kind && r.unit == unit) = true
    · have hfr : ((f r).kind == kind && (f r).unit == unit) = true := by rw [(hf r).1, (hf r).2, h]
      simp only [List.map_cons, h, if_true, List.filter_cons, hfr, Bool.not_true, Bool.false_eq_true, if_false, ih]
    · simp only [List.map_cons, h, if_false, List.filter_cons, ih, Bool.false_eq_true]

theorem ringsAfter_setRing (c : Cmd) {f : CapRing → CapRing} (s : State) (hf : ∀ r, (f r).kind = r.kind ∧ (f r).unit = r.unit) :
    ringsAfter (setRing (c.arg 0 1 0) (c.arg 0 10 8) f s) c = ringsAfter s c := by
  unfold ringsAfter
  rw [filter_others_setRing s hf]
  rfl

/-- The capture units with these rings. -/
def withRings (rings : List CapRing) (s : State) : State := { s with cap := { s.cap with rings := rings } }

/-- A run that starts in the rings after a CAP_SOURCE is that of the new ring. -/
theorem startRun_ringsAfter (c : Cmd) (e : Nat) (s : State) :
    startRun (c.arg 0 1 0) (c.arg 0 10 8) e (withRings (ringsAfter s c) s)
      = withRings (s.cap.rings.filter (fun r => !(r.kind == c.arg 0 1 0 && r.unit == c.arg 0 10 8))
        ++ if c.word 1 = 0 then [] else [{ boundRing s c with run := some e }]) s := by
  have hothers : ∀ r ∈ s.cap.rings.filter (fun r => !(r.kind == c.arg 0 1 0 && r.unit == c.arg 0 10 8)),
      (if r.kind == c.arg 0 1 0 && r.unit == c.arg 0 10 8 then { r with run := some e, records := [] } else r) = r := fun r hr =>
    if_neg (by simpa only [Bool.not_eq_true, Bool.not_eq_true'] using (List.mem_filter.mp hr).2)
  refine congrArg (withRings · s) ?_
  simp only [withRings, ringsAfter, List.map_append]
  rw [List.map_congr_left hothers, List.map_id']
  split <;> simp [boundRing]

section
variable (c : Cmd) (e : Nat) {s : State} (hd : trigDecides s = false)
    (hs : (s.cap.sheaves.all fun sh => !(sh.cfg.kind == c.arg 0 1 0 && sh.cfg.unit == c.arg 0 10 8)) = true)
include hd hs

theorem rebind_unread_run : rebind c e s = if sourceProduces s (c.arg 0 1 0) (c.arg 0 10 8) then
      startRun (c.arg 0 1 0) (c.arg 0 10 8) e (withRings (ringsAfter s c) s) else withRings (ringsAfter s c) s := by
  rw [rebind, decideTo_still _ hd, endRun_unread _ _ hs]
  simp only [← ringsAfter_setRing c (f := endedRing 5 e) s fun _ => ⟨rfl, rfl⟩]
  rfl

theorem rebind_unread : rebind c e s = withRings (s.cap.rings.filter (fun r => !(r.kind == c.arg 0 1 0 && r.unit == c.arg 0 10 8))
      ++ if c.word 1 = 0 then [] else
        [{ boundRing s c with run := if sourceProduces s (c.arg 0 1 0) (c.arg 0 10 8) then some e else none }]) s := by
  rw [rebind_unread_run c e hd hs]
  cases sourceProduces s (c.arg 0 1 0) (c.arg 0 10 8) with
  | true => exact startRun_ringsAfter c e s
  | false => rfl

end

/-! ### CAP_SHEAF_CONFIG: what is still to come of the old configuration comes first (R316, R359) -/

/-- Sheaf `n` takes a configuration. -/
def configureSheaf (n : Nat) (g : SheafConfig) (esize : Nat) (s : State) : State :=
  setSheaf n (fun sh => { sh with configured := true, cfg := g, esize := esize, sourceChanged := false, bindingLost := false })
    (completeAll n (decideTo s.index s))

theorem configureSheaf_core (n : Nat) (g : SheafConfig) (esize : Nat) (s : State) : core (configureSheaf n g esize s) = core (decideTo s.index s) :=
  (setSheaf_core ..).trans (completeAll_core ..)

theorem ends_configureSheaf (n : Nat) (g : SheafConfig) (esize : Nat) (s : State) : Ends s (configureSheaf n g esize s) :=
  (ends_decideTo ..).trans (ends_core (configureSheaf_core ..))

theorem configureSheaf_pair (n : Nat) (g : SheafConfig) (esize : Nat) {s : State} (h : s.pair.forwarded = []) :
    (configureSheaf n g esize s).pair = s.pair :=
  (core_pair (configureSheaf_core ..)).trans (decideTo_pair _ h)

/-! ### The status words (R361) -/

/-- The words of CAP_STATUS for sheaf `n`: the changes that are still to come show, the counts are those of now. -/
def capStatusWords (n : Nat) (s : State) : List Word :=
  let sh := sheafNow s n
  let m := sheafOf s n
  [BitVec.ofNat 32 (oneIf sh.armed + oneIf sh.seg.isSome * 2 + oneIf (modeRunsProducts (runMode s)) * 4 + oneIf sh.sourceChanged * 8
      + oneIf sh.bindingLost * 16 + sh.lastClose * 256), lo32 sh.next,
    BitVec.ofNat 32 (((ringOf s sh.cfg.kind sh.cfg.unit).map fun r => r.depth).getD 0), BitVec.ofNat 32 m.segments, BitVec.ofNat 32 m.ignored,
    BitVec.ofNat 32 m.preShort, BitVec.ofNat 32 m.early, BitVec.ofNat 32 m.truncated]

theorem capStatus_run (c : Cmd) (e : Nat) (s : State) : specCapStatus.run c e s =
    (if c.flag 0 8 then setSheaf (c.arg 0 2 0) (fun sh => { sh with segments := 0, ignored := 0, preShort := 0, early := 0, truncated := 0 }) s else s,
      .done .ok (capStatusWords (c.arg 0 2 0) s)) := by
  simp only [specCapStatus, capStatusWords, oneIf_mul]
  rfl

/-! ### The obligation -/

/-- Settles O11: each command by its execution. A new binding, a configuration and a change of the sheaves may first decide, and so end forced commands
(`ends_rebind`, `ends_configureSheaf`, `ends_changeTrig`); what a new binding leaves of the rings is said by `rebind_unread`. -/
theorem captureCommands : Obligations.CaptureCommands := by
  unfold Obligations.CaptureCommands
  refine ⟨?_, ?_, ?_, fun c e s hd hs => rebind_unread c e hd hs, fun g => ?_, ?_, ?_, fun e m arm fin s h => changeTrig_still _ _ h, ?_⟩
  · exact holds_of (fun _ _ _ => rfl) rfl (by decide) fun _ => rfl
  · refine fires_ends rfl (fun c e s h => ?_) (fun _ _ _ => ends_rebind ..) fun _ _ _ h => rebind_pair _ _ h
    simp only [specCapSource, h, if_true]
    rfl
  · refine fires_ends rfl (fun c e s h => ?_) (fun _ _ _ => ends_rebind ..) fun _ _ _ h => rebind_pair _ _ h
    simp only [specCapSource, h, if_false]
  · refine does_ends (fun _ _ _ => rfl) rfl (fun _ => rfl) (fun c s h => ?_) (fun _ _ => ends_configureSheaf ..) fun _ _ h => configureSheaf_pair _ _ _ h
    subst h
    rfl
  · exact holds_of (fun _ _ _ => rfl) rfl (by decide) fun _ => rfl
  · exact fires_ends rfl (fun _ _ _ _ => rfl) (fun _ _ _ => ends_changeTrig ..) fun _ _ _ h => changeTrig_pair _ _ h
  · exact does_core (fun _ _ _ => rfl) rfl (fun _ => rfl) (fun c s _ _ _ => capStatus_run c s.index (opened s)) fun c s =>
      core_if (setSheaf_core ..) rfl

end Sys2Proof.Machine
end

section
/-! O12: the commands of the integration unit and of the Threshers (R370, R376, R382-R389). -/

namespace Sys2Proof.Machine

/-! ### A change whose index the sources have reached takes effect at once (R370, R379) -/

theorem setInt_late_undone (x : Nat × IntAct) {s : State} (hlate : s.intg.late = []) :
    setInt (fun u => { u with late := [] }) (setInt (fun u => { u with late := u.late ++ [x] }) s) = s := by
  have hfix : ({ s.intg with late := [] } : IntUnit) = s.intg := by rw [← hlate]
  exact congrArg (fun u : IntUnit => { s with intg := u }) hfix

theorem setTh_late_undone {ch : Nat} (x : Nat × ThAct) {s : State} (hch : ch < s.th.length) (hlate : (s.th.getD ch default).late = []) :
    setTh ch (fun t => { t with late := [] }) (setTh ch (fun t => { t with late := t.late ++ [x] }) s) = s := by
  have hfix : ({ s.th.getD ch default with late := [] } : Thresher) = s.th.getD ch default := by rw [← hlate]
  simp only [setTh]
  rw [modAt_undone default hch]
  exact hfix

/-- The change is queued, found due, and taken off the queue again. -/
theorem intAct_of_reached {e : Nat} (x : IntAct) {s : State} (hlate : s.intg.late = [])
    (hr : (intEngines s.intg.cfg).all (fun g => reached s g e) = true) : intAct e x s = runIntAct e x s := by
  have hqueue : (setInt (fun u => { u with late := u.late ++ [(e, x)] }) s).intg.late = [(e, x)] := by simp [hlate]
  have hr' : ((intEngines (setInt (fun u => { u with late := u.late ++ [(e, x)] }) s).intg.cfg).all fun g =>
      reached (setInt (fun u => { u with late := u.late ++ [(e, x)] }) s) g e) = true := hr
  simp only [intAct, intCatchAll, hqueue, List.length_singleton, intCatch, hr', Bool.or_true, if_true, setInt_late_undone (e, x) hlate]

theorem thAct_of_reached {ch e : Nat} (x : ThAct) {s : State} (hch : ch < s.th.length) (hlate : (s.th.getD ch default).late = [])
    (hr : reached s (thEngine ch (s.th.getD ch default)) e = true) : thAct ch e x s = runThAct ch e x s := by
  have ht : (setTh ch (fun t => { t with late := t.late ++ [(e, x)] }) s).th.getD ch default = { s.th.getD ch default with late := [(e, x)] } := by
    rw [setTh_th, getD_modAt_same hch, hlate]
    rfl
  have hr' : reached (setTh ch (fun t => { t with late := t.late ++ [(e, x)] }) s)
      (thEngine ch { s.th.getD ch default with late := [(e, x)] }) e = true := hr
  simp only [thAct, ht, List.length_singleton, thCatch, hr', Bool.or_true, if_true, setTh_late_undone (e, x) hch hlate]

/-! ### INT_ENABLE and TH_ENABLE (R384, R388) -/

theorem runIntAct_enable_same (e : Nat) (s : State) : runIntAct e (.enable (intBefore e s).intg.enabled) s = intBefore e s := by simp [runIntAct]

theorem runIntAct_enable_on {e : Nat} {s : State} (h : (intBefore e s).intg.enabled = false) :
    runIntAct e (.enable true) s = startInt e (setInt (fun u => { u with enabled := true }) (intBefore e s)) := by
  simp [runIntAct, h]

theorem runIntAct_enable_off {e : Nat} {s : State} (h : (intBefore e s).intg.enabled = true) : runIntAct e (.enable false) s =
    setInt (fun u => { u with enabled := false }) (stopInt (closeCode (intBefore e s) e 1) e (intBefore e s)) := by
  simp [runIntAct, h]

/-- TH_ENABLE starts or stops one Thresher, unless it is as asked once its changes have come. -/
def switchTh (on : Bool) (e ch : Nat) (s : State) : State :=
  if ((afterLate s).th.getD ch default).enabled == on then s else thAct ch e (if on then .start else .stop) s

theorem thEnable_run (c : Cmd) (e : Nat) (s : State) : specThEnable.run c e s =
    ((maskBits 4 (c.arg 0 3 0)).foldl (fun a ch => switchTh (c.flag 0 8) e ch a) s, .done .ok []) := rfl

theorem switchTh_on (e ch : Nat) (s : State) :
    switchTh true e ch s = if ((afterLate s).th.getD ch default).enabled then s else thAct ch e .start s := by
  simp [switchTh]

theorem switchTh_off (e ch : Nat) (s : State) :
    switchTh false e ch s = if ((afterLate s).th.getD ch default).enabled then thAct ch e .stop s else s := by
  cases h : ((afterLate s).th.getD ch default).enabled <;> simp only [switchTh, h] <;> rfl

theorem switchTh_core (on : Bool) (e ch : Nat) (s : State) : core (switchTh on e ch s) = core s := core_if rfl (thAct_core ..)

/-! ### The status words and the header (R385, R386, R389) -/

/-- The words of INT_STATUS (R385): the changes that are still to come show, the counts are those of now. -/
def intStatusWords (s : State) : List Word :=
  let u := (afterLate s).intg
  [BitVec.ofNat 32 (oneIf u.enabled + oneIf (u.enabled && modeRunsIntegration (runMode s)) * 2 + oneIf u.mismatch * 4
    + oneIf u.bindingLost * 8 + u.configGen * 256), lo32 u.seq]
  ++ u64Words ((u.frame.map fun f => f.stop).getD 0)
  ++ [BitVec.ofNat 32 s.intg.frames, BitVec.ofNat 32 s.intg.droppedSets, BitVec.ofNat 32 s.intg.satFrames]

theorem intStatus_run (c : Cmd) (e : Nat) (s : State) : specIntStatus.run c e s =
    (if c.flag 0 8 then setInt (fun u => { u with frames := 0, droppedSets := 0, satFrames := 0 }) s else s, .done .ok (intStatusWords s)) := by
  simp only [specIntStatus, intStatusWords, oneIf_mul]
  rfl

theorem intHeader_run {c : Cmd} {h : List Word} {s : State} (e : Nat) (hh : h = if c.flag 0 0 then s.intg.header1 else s.intg.header0) :
    specIntHeader.run c e s = (s, .done .ok (if h = [] then List.replicate 16 0 else h)) := by
  simp only [specIntHeader, ← hh, List.isEmpty_iff]

/-- The words of TH_STATUS (R389) for Thresher `ch`: the changes that are still to come show. -/
def thStatusWords (ch : Nat) (s : State) : List Word :=
  let v := afterLate s
  let t := v.th.getD ch default
  [BitVec.ofNat 32 (oneIf t.enabled + oneIf (thRunning v ch) * 2 + oneIf (thRunning v ch && decide (t.valid < 2 ^ (t.cfg.skLog2 + 1))) * 4),
    BitVec.ofNat 32 t.valid, BitVec.ofNat 32 t.skFlags, BitVec.ofNat 32 t.powFlags, BitVec.ofNat 32 t.dropped, BitVec.ofNat 32 t.restarts]

theorem thStatus_run (c : Cmd) (e : Nat) (s : State) : specThStatus.run c e s =
    (if c.flag 0 8 then setTh (c.arg 0 1 0) (fun t => { t with skFlags := 0, powFlags := 0, dropped := 0 }) s else s,
      .done .ok (thStatusWords (c.arg 0 1 0) s)) := by
  simp only [specThStatus, thStatusWords, oneIf_mul]
  rfl

/-! ### The obligation -/

/-- Settles O12: each command by its execution, which leaves the core of the state; a change of the integration unit or of a Thresher whose index the
sources have reached by what it does when it takes effect (`intAct_of_reached`, `thAct_of_reached`). -/
theorem integrationCommands : Obligations.IntegrationCommands := by
  unfold Obligations.IntegrationCommands
  refine ⟨?_, ?_, ?_, ?_, fun e g s t hlate hr ht => ?_, ?_, fun h => ?_, ?_, ?_, ?_, ?_, ?_, fun ch e g s hch hlate hr => ?_, ?_⟩
  · exact holds_of (fun _ _ _ => rfl) rfl (by decide) fun _ => rfl
  · exact fires_core rfl (fun _ _ _ _ => rfl) fun _ _ _ => intAct_core ..
  · exact holds_of (fun _ _ _ => rfl) rfl (by decide) fun _ => rfl
  · exact fires_core rfl (fun _ _ _ _ => rfl) fun _ _ _ => intAct_core ..
  · have h : ∀ x, intAct e x s = runIntAct e x s := fun x => intAct_of_reached x hlate hr
    subst ht
    exact ⟨h _, fun hoff => (h _).trans (runIntAct_enable_on hoff), fun hon => (h _).trans (runIntAct_enable_off hon),
      (h _).trans (runIntAct_enable_same e s)⟩
  · exact does_core (fun _ _ _ => rfl) rfl (fun _ => rfl) (fun c s _ _ _ => intStatus_run c s.index (opened s)) fun _ _ => core_if (setInt_core ..) rfl
  · exact does_core (fun _ _ _ => rfl) rfl (fun _ => rfl) (fun _ s _ _ hh => intHeader_run (s := opened s) s.index hh) fun _ _ => rfl
  · exact holds_of (fun _ _ _ => rfl) rfl (by decide) fun _ => rfl
  · exact fires_core rfl (fun _ _ _ _ => rfl) fun _ _ _ => thAct_core ..
  · exact holds_of (fun _ _ _ => rfl) rfl (by decide) fun _ => rfl
  · refine fires_core rfl (fun c e s h => ?_) fun c e s => foldl_core _ _ s fun a ch => switchTh_on e ch a ▸ switchTh_core ..
    simp only [thEnable_run, h, switchTh_on, noWordsAt]
  · refine fires_core rfl (fun c e s h => ?_) fun c e s => foldl_core _ _ s fun a ch => switchTh_off e ch a ▸ switchTh_core ..
    simp only [thEnable_run, h, switchTh_off, noWordsAt]
  · have h : ∀ x, thAct ch e x s = runThAct ch e x s := fun x => thAct_of_reached x hch hlate hr
    exact ⟨h _, h _, h _⟩
  · exact does_core (fun _ _ _ => rfl) rfl (fun _ => rfl) (fun c s _ _ _ => thStatus_run c s.index (opened s)) fun _ _ => core_if (setTh_core ..) rfl

end Sys2Proof.Machine
end

section
/-! O34: the sets and the frames of the integration unit (R364, R365, R367, R368, R370). -/

namespace Sys2Proof.Machine

/-! ### An event told of the integration unit -/

/-- A statement of an event that keeps to its units, by what it leaves of the integration unit, the pool and the engines. -/
theorem eventTo_intg {f : Nat → State → State} {ev : Nat → Instr} {pre : Nat → State → Prop} {post : Nat → State → State → Prop}
    (hrow : ∀ k s, exec (ev k) s = runEvent (f k) k s) (hc : ∀ k s, core (f k s) = core s)
    (h : ∀ k s t, pre k s → t.intg = (f k (opened s)).intg → t.pool = (f k (opened s)).pool → t.engines = (f k (opened s)).engines →
      t.time = s.time → t.cmds = s.cmds → post k s t) : EventTo ev pre post :=
  eventTo_of hrow (fun k _ _ hs => (opened_calm hs).core (hc k _)) fun k s t old hp _ ht =>
    have hcore : core t = core s := ht ▸ (pairNotice_core ..).trans ((repliesFirst_opened ..).trans ((hc k _).trans (opened_core s)))
    h k s t hp (by rw [ht, after_frame]) (by rw [ht, after_frame]) (by rw [ht, after_frame]) (core_time hcore) (core_cmds hcore)

/-! ### A set whose key index lies in the open frame (R367, R368) -/

/-- The key index of a member lies in a frame. -/
def IntFrame.Covers (f : IntFrame) (m : IntMember) : Prop := f.start * 2 ^ 32 ≤ m.key ∧ m.key < f.stop * 2 ^ 32

/-- The set of `m` no longer waits; it counts where it is dropped under R36. -/
def removeSet (m : IntMember) (dropped : Bool) (s : State) : State :=
  setInt (fun u => { u with
    members := u.members.filter (fun x => !(x.number == m.number && x.key == m.key)),
    droppedSets := if dropped then satAdd 32 u.droppedSets 1 else u.droppedSets }) s

theorem intUpTo_inside {f : IntFrame} {key : Nat} {s : State} (hf : s.intg.frame = some f) (h : key < f.stop * 2 ^ 32) : intUpTo key s = s := by
  have hdue : dueIntFrames s key = 0 := by simp only [dueIntFrames, hf, Nat.not_le.mpr h, if_false]
  rw [intUpTo, hdue, closeDueInt]

theorem takeSet_nil (lost dropped : Bool) (s : State) : takeSet [] lost dropped s = s := rfl

theorem takeSet_covered {ms : List IntMember} {m : IntMember} {f : IntFrame} {lost : Bool} {s : State} (dropped : Bool) (hm : ms.head? = some m)
    (hf : s.intg.frame = some f) (hcov : f.Covers m)
    (hlead : lost = true → (ms.any fun x => x.engine == (intEngines s.intg.cfg).headD 0) = true) :
    takeSet ms lost dropped s = accountSet ms lost (removeSet m dropped s) := by
  have hframe : (removeSet m dropped s).intg.frame = some f := hf
  have hup : intUpTo m.key (removeSet m dropped s) = removeSet m dropped s := intUpTo_inside hframe hcov.2
  have hlost : (lost && !(ms.any fun x => x.engine == (intEngines (removeSet m dropped s).intg.cfg).headD 0)) = false := by
    cases lost with
    | false => rfl
    | true => exact congrArg (!·) (hlead rfl)
  rw [removeSet] at hframe hup hlost ⊢
  simp only [takeSet, hm, hup, hframe, hlost, decide_eq_false (Nat.not_lt.mpr hcov.1), Bool.or_false, Bool.false_eq_true, if_false]

theorem mapIntFrame_frame (g : IntFrame → IntFrame) {f : IntFrame} {s : State} (hf : s.intg.frame = some f) :
    (mapIntFrame g s).intg.frame = some (g f) := congrArg (Option.map g) hf

theorem accountSet_lost (ms : List IntMember) (s : State) :
    accountSet ms true s = mapIntFrame (fun f => { f with taintedSets := f.taintedSets + 1 }) s := if_pos rfl

theorem accountSet_invalid {ms : List IntMember} (s : State) (h : (ms.any fun x => x.invalid) = true) :
    accountSet ms false s = mapIntFrame (fun f => { f with invalidSets := f.invalidSets + 1 }) s := by
  simp [accountSet, h]

theorem accountSet_valid {ms : List IntMember} {s : State} (hp : intPoisoned s = false)
    (h : ∀ x ∈ ms, x.invalid = false ∧ x.th ≠ .warmup ∧ x.th ≠ .lost) : accountSet ms false s = accumulateSet ms s := by
  have hinvalid : (ms.any fun x => x.invalid) = false := List.any_eq_false.mpr fun x hx => by simp [(h x hx).1]
  have hwarm : (ms.any fun x => x.th == .warmup) = false := List.any_eq_false.mpr fun x hx => by simp [(h x hx).2.1]
  have hlost : (ms.any fun x => x.th == .lost) = false := List.any_eq_false.mpr fun x hx => by simp [(h x hx).2.2]
  simp [accountSet, hinvalid, hwarm, hlost, hp]

/-! ### INT_SET_ACCUMULATE (R364, R368) -/

theorem bringErrors_nil (s : State) : bringErrors [] s = s := rfl

section
variable {number : Nat} {s : State}

theorem evIntSetAccumulate_none (drop : Bool) (h : s.intg.frame = none ∨ setMembers s.intg number = []) :
    evIntSetAccumulate number drop [] s = s := by
  rcases h with h | h
  · simp [evIntSetAccumulate, bringErrors_nil, h]
  · simp [evIntSetAccumulate, bringErrors_nil, h, takeSet_nil, setHopeless]

variable {f : IntFrame} {m : IntMember} (hf : s.intg.frame = some f) (hm : (setMembers s.intg number).head? = some m) (hcov : f.Covers m)
include hf hm hcov

theorem evIntSetAccumulate_dropped (hmode : favoursIntegration (runMode s) = false)
    (hlead : ((setMembers s.intg number).any fun x => x.engine == (intEngines s.intg.cfg).headD 0) = true) :
    evIntSetAccumulate number true [] s = mapIntFrame (fun f => { f with taintedSets := f.taintedSets + 1 }) (removeSet m true s) := by
  have htake : evIntSetAccumulate number true [] s = takeSet (setMembers s.intg number) true true s := by
    simp [evIntSetAccumulate, bringErrors_nil, hf, hmode]
  rw [htake, takeSet_covered true hm hf hcov fun _ => hlead, accountSet_lost]

section
variable (hwhole : setWhole s.intg (setMembers s.intg number) = true)
include hwhole

theorem evIntSetAccumulate_whole : evIntSetAccumulate number false [] s = accountSet (setMembers s.intg number) false (removeSet m false s) := by
  have htake : evIntSetAccumulate number false [] s = takeSet (setMembers s.intg number) false false s := by
    simp [evIntSetAccumulate, bringErrors_nil, hf, hwhole]
  rw [htake, takeSet_covered false hm hf hcov (absurd · Bool.false_ne_true)]

theorem evIntSetAccumulate_invalid (hinvalid : ((setMembers s.intg number).any fun x => x.invalid) = true) :
    evIntSetAccumulate number false [] s = mapIntFrame (fun f => { f with invalidSets := f.invalidSets + 1 }) (removeSet m false s) := by
  rw [evIntSetAccumulate_whole hf hm hcov hwhole, accountSet_invalid _ hinvalid]

theorem evIntSetAccumulate_valid (hp : intPoisoned s = false)
    (hvalid : ∀ x ∈ setMembers s.intg number, x.invalid = false ∧ x.th ≠ .warmup ∧ x.th ≠ .lost) :
    evIntSetAccumulate number false [] s = accumulateSet (setMembers s.intg number) (removeSet m false s) := by
  have hp' : intPoisoned (removeSet m false s) = false := hp
  rw [evIntSetAccumulate_whole hf hm hcov hwhole, accountSet_valid hp' hvalid]

end

end

/-! ### What the accumulation of a set leaves (R365) -/

@[simp] theorem writeAt_intg (h : Word) (o : Nat) (bytes : List Byte) (s : State) : (writeAt h o bytes s).intg = s.intg := by
  unfold writeAt
  split <;> rfl

@[simp] theorem writeAt_engines (h : Word) (o : Nat) (bytes : List Byte) (s : State) : (writeAt h o bytes s).engines = s.engines := by
  unfold writeAt
  split <;> rfl

/-- The unit, but for which accumulators of the open frame have saturated. -/
def IntUnit.unsaturated (u : IntUnit) : IntUnit := { u with frame := u.frame.map fun f => { f with sat := [] } }

/-- What stays while accumulators take a set: the engines, and the unit but for the saturations of its frame. -/
def steady (s : State) : IntUnit × List Engine := (s.intg.unsaturated, s.engines)

theorem steady_writeAt (h : Word) (o : Nat) (bytes : List Byte) (s : State) : steady (writeAt h o bytes s) = steady s := by
  simp [steady]

theorem steady_setSat (g : IntFrame → List (Nat × Nat)) (s : State) :
    steady (setInt (fun u => { u with frame := u.frame.map fun f => { f with sat := g f } }) s) = steady s := by
  simp [steady, IntUnit.unsaturated, Function.comp_def]

theorem steady_foldl {β : Type} (l : List β) {f : State → β → State} (s : State) (h : ∀ a i, steady (f a i) = steady a) :
    steady (l.foldl f s) = steady s :=
  List.foldlRecOn (motive := fun a => steady a = steady s) l f rfl fun a ha i _ => (h a i).trans ha

theorem accumulateBin_steady (ms : List IntMember) (p j arr cnt : Nat) (first : Bool) (s : State) :
    steady (accumulateBin ms p j arr cnt first s) = steady s := by
  unfold accumulateBin
  extract_lets c ch find a b excluded n o term sat one re im s1 count s2 hits fresh
  have h1 : steady s1 = steady s := steady_writeAt ..
  have h2 : steady s2 = steady s := by
    dsimp only [s2]
    split
    · exact (steady_writeAt ..).trans h1
    · exact h1
  split
  · exact h2
  · exact (steady_setSat (fun f => f.sat ++ fresh) s2).trans h2

/-- A frame counts an accumulated set, and takes its flags (R365, R375). -/
def countSet (ms : List IntMember) (f : IntFrame) : IntFrame :=
  { f with sets := f.sets + 1, flags := ms.foldl (fun a m => orFlags a m.flags) f.flags }

/-- The accumulators of every product and bin take the set, and then the frame counts it. -/
theorem accumulateSet_eq (ms : List IntMember) (s : State) :
    ∃ a, accumulateSet ms s = mapIntFrame (countSet ms) a ∧ steady a = steady s := by
  refine ⟨_, rfl, ?_⟩
  exact steady_foldl _ _ fun _ _ => steady_foldl _ _ fun _ _ => accumulateBin_steady ..

theorem mapIntFrame_countSet_unsaturated (ms : List IntMember) (s : State) : (mapIntFrame (countSet ms) s).intg.unsaturated =
    { s.intg.unsaturated with frame := s.intg.unsaturated.frame.map (countSet ms) } := by
  simp [mapIntFrame, IntUnit.unsaturated, Function.comp_def, countSet]

theorem accumulateSet_unsaturated (ms : List IntMember) (s : State) : (accumulateSet ms s).intg.unsaturated =
    { s.intg.unsaturated with frame := s.intg.unsaturated.frame.map (countSet ms) } := by
  obtain ⟨a, heq, ha⟩ := accumulateSet_eq ms s
  have hunit : a.intg.unsaturated = s.intg.unsaturated := congrArg Prod.fst ha
  rw [heq, mapIntFrame_countSet_unsaturated, hunit]

theorem accumulateSet_engines (ms : List IntMember) (s : State) : (accumulateSet ms s).engines = s.engines := by
  obtain ⟨a, heq, ha⟩ := accumulateSet_eq ms s
  rw [heq]
  exact congrArg Prod.snd ha

theorem accumulateSet_members (ms : List IntMember) (s : State) : (accumulateSet ms s).intg.members = s.intg.members :=
  (congrArg IntUnit.members (accumulateSet_unsaturated ms s) :)

/-- The open frame counts the set, and may find accumulators saturated. -/
theorem accumulateSet_frame (ms : List IntMember) {f : IntFrame} {s : State} (hf : s.intg.frame = some f) :
    ∃ sat, (accumulateSet ms s).intg.frame = some { countSet ms f with sat := sat } := by
  have h : (accumulateSet ms s).intg.frame.map (fun g => { g with sat := [] }) = some { countSet ms f with sat := [] } := by
    have h := congrArg IntUnit.frame (accumulateSet_unsaturated ms s)
    simpa [IntUnit.unsaturated, hf, countSet] using h
  obtain ⟨g, hg, heq⟩ := Option.map_eq_some_iff.mp h
  refine ⟨g.sat, hg.trans (congrArg some ?_)⟩
  exact congrArg (fun x : IntFrame => { x with sat := g.sat }) heq

/-! ### INT_FRAME_CLOSE (R367, R370) -/

theorem chargeGap_counts (u : IntUnit) : (chargeGap u).seq = u.seq ∧ (chargeGap u).frames = u.frames := by
  unfold chargeGap
  split
  · split <;> exact ⟨rfl, rfl⟩
  · exact ⟨rfl, rfl⟩

/-- The sets that an unlock gap took taint the open frame, and are none that it counts. -/
theorem chargeGap_frame {u : IntUnit} {f : IntFrame} (hf : u.frame = some f) :
    ∃ g, (chargeGap u).frame = some g ∧ g.start = f.start ∧ g.sets = f.sets := by
  unfold chargeGap
  split
  next g f' _ hf' =>
    obtain rfl : f' = f := Option.some.inj (hf'.symm.trans hf)
    split
    · exact ⟨_, rfl, rfl, rfl⟩
    · exact ⟨_, hf, rfl, rfl⟩
  · exact ⟨_, hf, rfl, rfl⟩

theorem openIntFrame_frame (x : Nat) (s : State) : ∃ g, (openIntFrame x s).intg.frame = some g ∧ g.start = x ∧ g.sets = 0 := by
  unfold openIntFrame
  extract_lets c r f
  exact chargeGap_frame (f := f) rfl

theorem openIntFrame_counts (x : Nat) (s : State) :
    (openIntFrame x s).intg.seq = s.intg.seq ∧ (openIntFrame x s).intg.frames = s.intg.frames := chargeGap_counts _

theorem openIntFrame_pool (x : Nat) (s : State) : (openIntFrame x s).pool = s.pool := rfl

/-- The closed frame takes its number, and is counted. -/
structure FrameClosed (s t : State) : Prop where
  seq : t.intg.seq = (s.intg.seq + 1) % 2 ^ 32
  frames : t.intg.frames = satAdd 32 s.intg.frames 1
  pool : t.pool = s.pool

theorem FrameClosed.notify {s t : State} (h : FrameClosed s t) (code : Nat) (payload : List Word) (idx : Nat) :
    FrameClosed s (Machine.notify code payload idx t) := by
  rw [notify_frame]
  exact ⟨h.seq, h.frames, h.pool⟩

/-- A change of the unit that keeps its numbers, as the count of the notices withheld. -/
theorem FrameClosed.setInt {s t : State} (h : FrameClosed s t) {g : IntUnit → IntUnit} (hseq : (g t.intg).seq = t.intg.seq)
    (hframes : (g t.intg).frames = t.intg.frames) : FrameClosed s (Machine.setInt g t) :=
  ⟨hseq.trans h.seq, hframes.trans h.frames, h.pool⟩

@[simp] theorem offerItem_intg (pkind unit seq index : Nat) (source : ItemSource) (s : State) :
    (offerItem pkind unit seq index source s).intg = s.intg := by
  unfold offerItem
  split <;> rfl

@[simp] theorem offerItem_pool (pkind unit seq index : Nat) (source : ItemSource) (s : State) :
    (offerItem pkind unit seq index source s).pool = s.pool := by
  unfold offerItem
  split <;> rfl

theorem closeIntFrame_closed (close last : Nat) {f : IntFrame} {s : State} (hf : s.intg.frame = some f) :
    FrameClosed s (closeIntFrame close last s) := by
  unfold closeIntFrame
  split
  next h => exact absurd (h.symm.trans hf) (Option.some_ne_none f).symm
  next =>
    extract_lets u h due s1
    have h1 : FrameClosed s s1 := ⟨by simp [s1], by simp [s1], by simp [s1]⟩
    split
    · exact h1
    · split
      · exact (h1.setInt rfl rfl).notify ..
      · exact h1.setInt rfl rfl

section
variable {k : Nat} {s : State}

theorem evIntFrameClose_none (h : s.intg.frame = none) : evIntFrameClose k s = s := by simp only [evIntFrameClose, h]

variable {f : IntFrame} (hf : s.intg.frame = some f)
include hf

theorem evIntFrameClose_waits (h : locked s = false ∨ k < f.stop) : evIntFrameClose k s = s := by
  rcases h with h | h
  · simp [evIntFrameClose, hf, h]
  · simp [evIntFrameClose, hf, Nat.not_le.mpr h]

/-- With no set that waits, the frame closes and the next one opens at its boundary. -/
theorem evIntFrameClose_turns (hlocked : locked s = true) (hnone : s.intg.members = []) (hk : f.stop ≤ k)
    (hreached : (intEngines s.intg.cfg).all (fun e => reached s e f.stop) = true) :
    evIntFrameClose k s = openIntFrame f.stop (closeIntFrame 0 (f.stop - 1) s) := by
  simp only [evIntFrameClose, hf, hlocked, hk, hreached, decide_true, Bool.and_self, if_true, hnone, List.length_nil, intDrain, closeDueInt, le_refl]

end

/-! ### The obligation -/

/-- Settles O34: a set whose key index lies in the open frame is accounted for there (`takeSet_covered`), and the accumulation changes of the
frame no more than its count, flags and saturations (`accumulateSet_frame`); at the boundary the frame turns (`evIntFrameClose_turns`). -/
theorem integrationEvents : Obligations.IntegrationEvents := by
  unfold Obligations.IntegrationEvents
  refine ⟨fun number f m => ?_, fun number f m => ?_, fun number f m => ?_, fun number drop => ?_, fun f => ?_, fun f => ?_, ?_⟩
  · refine eventTo_intg (fun _ _ => rfl) (fun _ _ => evIntSetAccumulate_core ..) fun k s t hp hintg hpool _ htime hcmds => ?_
    obtain ⟨hf, hmode, hm, hlo, hhi, hlead⟩ := hp
    rw [evIntSetAccumulate_dropped (s := opened s) hf hm ⟨hlo, hhi⟩ hmode hlead] at hintg hpool
    exact ⟨by rw [hintg]; rfl, by rw [hintg]; exact mapIntFrame_frame _ hf, by rw [hintg]; rfl, hpool, htime, hcmds⟩
  · refine eventTo_intg (fun _ _ => rfl) (fun _ _ => evIntSetAccumulate_core ..) fun k s t hp hintg hpool _ htime hcmds => ?_
    obtain ⟨hf, hwhole, hm, hlo, hhi, hinvalid⟩ := hp
    rw [evIntSetAccumulate_invalid (s := opened s) hf hm ⟨hlo, hhi⟩ hwhole hinvalid] at hintg hpool
    exact ⟨by rw [hintg]; exact mapIntFrame_frame _ hf, by rw [hintg]; rfl, hpool, by rw [hintg]; rfl, htime, hcmds⟩
  · refine eventTo_intg (fun _ _ => rfl) (fun _ _ => evIntSetAccumulate_core ..) fun k s t hp hintg _ hengines htime hcmds => ?_
    obtain ⟨hf, hwhole, hm, hlo, hhi, hpoison, hvalid⟩ := hp
    rw [evIntSetAccumulate_valid (s := opened s) hf hm ⟨hlo, hhi⟩ hwhole hpoison hvalid] at hintg hengines
    obtain ⟨sat, hframe⟩ := accumulateSet_frame (setMembers s.intg number) (s := removeSet m false (opened s)) hf
    exact ⟨⟨_, (congrArg IntUnit.frame hintg).trans hframe, rfl, rfl, rfl, rfl⟩, by rw [hintg, accumulateSet_members]; rfl, htime, hcmds,
      by rw [hengines, accumulateSet_engines]; rfl⟩
  · exact event_idle (fun _ _ => rfl) fun _ _ h => evIntSetAccumulate_none drop h
  · refine eventTo_intg (fun _ _ => rfl) (fun _ _ => evIntFrameClose_core ..) fun k s t hp hintg hpool _ htime hcmds => ?_
    obtain ⟨hlocked, hf, hnone, hk, hreached⟩ := hp
    have hclosed := closeIntFrame_closed 0 (f.stop - 1) (s := opened s) hf
    rw [evIntFrameClose_turns (s := opened s) hf hlocked hnone hk hreached] at hintg hpool
    obtain ⟨hseq, hframes⟩ := openIntFrame_counts f.stop (closeIntFrame 0 (f.stop - 1) (opened s))
    refine ⟨?_, ?_, ?_, htime, hcmds, hpool.trans ((openIntFrame_pool ..).trans hclosed.pool)⟩
    · rw [hintg, hseq, hclosed.seq]
      rfl
    · rw [hintg, hframes, hclosed.frames]
      rfl
    · rw [hintg]
      exact openIntFrame_frame ..
  · exact event_idle (fun _ _ => rfl) fun _ _ h => evIntFrameClose_waits h.1 h.2
  · exact event_idle (fun _ _ => rfl) fun _ _ h => evIntFrameClose_none h

end Sys2Proof.Machine
end

section
/-! What replies and notices leave of the stream unit; and a row whose effect ends other commands or changes the pair, told by the state after it. -/

namespace Sys2Proof.Machine

/-! ### Replies and notices count the frames that they send, and leave the stream unit otherwise -/

/-- The stream unit, but for how many frames its ports have sent. -/
def streams (s : State) : StreamUnit := { s.strm with ports := s.strm.ports.map fun e => { e with txFrames := 0 } }

theorem streams_congr {s t : State} (h : t.strm = s.strm) : streams t = streams s := by simp only [streams, h]

theorem streams_setPort {p : Nat} {f : EthPort → EthPort} (hf : ∀ e, ({ f e with txFrames := 0 } : EthPort) = { e with txFrames := 0 }) (s : State) :
    streams (setPort p f s) = streams s := by
  refine congrArg (fun l => ({ s.strm with ports := l } : StreamUnit)) ?_
  simp only [setPort_eq, setStrm_strm, modAt]
  refine List.ext_getElem (by simp) fun i h1 h2 => ?_
  simp only [List.getElem_map, List.getElem_modify]
  split
  · rw [hf]
  · rfl

theorem sendDatagram_streams (d : Sender) (l : List Entry) (s : State) : streams (sendDatagram d l s) = streams s := by
  refine (streams_congr (emit_strm ..)).trans (streams_setPort (fun e => ?_) s)
  rfl

theorem writeReply_streams (c : Cmd) (e : Entry) (s : State) : streams (writeReply c e s) = streams s := by
  unfold writeReply
  split
  · rfl
  · split
    · refine streams_congr ?_
      rw [replyQp_frame]
      split <;> rfl
    · rfl
    · exact sendDatagram_streams ..
    · refine streams_congr ?_
      rw [diverge_frame]
      split <;> rfl

theorem deliverReply_streams (c : Cmd) (e : Entry) (s : State) : streams (deliverReply c e s) = streams s := by
  unfold deliverReply
  split
  · exact writeReply_streams ..
  · rfl

theorem complete_streams (c : Cmd) (st : Status) (pl : List Word) (i : Nat) (s : State) : streams (complete c st pl i s) = streams s := by
  unfold complete
  dsimp only
  split
  · split <;> rfl
  · rw [deliverReply_streams]
    split <;> rfl

theorem completeId_streams (id : Nat) (st : Status) (pl : List Word) (i : Nat) (s : State) : streams (completeId id st pl i s) = streams s := by
  unfold completeId
  split
  · exact complete_streams ..
  · rfl

theorem putNotice_streams (d : Nat) (e : Entry) (s : State) : streams (putNotice d e s).1 = streams s := by
  unfold putNotice
  split
  · refine streams_congr ?_
    rw [tryRq_frame]
  · split
    · rfl
    · split
      · exact sendDatagram_streams ..
      · rfl

theorem holdNotice_streams (d : Nat) (e : Entry) (s : State) : streams (holdNotice d e s) = streams s :=
  streams_congr (by rw [holdNotice_frame])

theorem sendNotice_streams (d : Nat) (e : Entry) (s : State) : streams (sendNotice d e s) = streams s := by
  have hput := putNotice_streams d e s
  unfold sendNotice
  split
  · split
    · next a h => rwa [h] at hput
    · next a h =>
      rw [h] at hput
      exact (holdNotice_streams ..).trans hput
  · exact holdNotice_streams ..

theorem notify_streams (code : Nat) (pl : List Word) (i : Nat) (s : State) : streams (notify code pl i s) = streams s := by
  unfold notify
  dsimp only
  split
  · rfl
  · exact sendNotice_streams ..

theorem streams_foldl {β : Type} (l : List β) {f : State → β → State} (s : State) (h : ∀ a i, streams (f a i) = streams a) :
    streams (l.foldl f s) = streams s :=
  List.foldlRecOn (motive := fun a => streams a = streams s) l f rfl fun a ha i _ => (h a i).trans ha

theorem repliesFirst_streams (f : State → State) (s : State) : streams (repliesFirst f s) = streams (f (opened s)) := by
  unfold repliesFirst
  split
  · next l h => rw [show opened s = s by unfold opened; rw [h, Option.getD_some, ← h]]
  · next h =>
    rw [show opened s = { s with aside := some [] } by unfold opened; rw [h, Option.getD_none]]
    exact streams_foldl (f := fun a (x : Nat × Entry) => sendNotice x.1 x.2 a) _ _ fun _ _ => sendNotice_streams ..

theorem after_streams (old : State) (f : State → State) (s : State) : streams (pairNotice old (repliesFirst f s)) = streams (f (opened s)) := by
  unfold pairNotice
  split
  · exact (notify_streams ..).trans (repliesFirst_streams ..)
  · exact repliesFirst_streams ..

/-! ### A row told by the state after it -/

/-- A row whose command starts at once, after which no command waits: at most a notice of the pair follows. -/
theorem row_starts_notice {sp : CmdSpec} {k : Nat} {p : Packet} {s : State} (h : Heard sp k p s) (hsp : specOf sp.opcode = some sp)
    (hc : Calm (startCmd sp (rowCmd k p s) (rowState k p s))) :
    runRow sp k p s = .next (pairNotice s (startCmd sp (rowCmd k p s) (rowState k p s))) := by
  have hstart : startAny (rowCmd k p s) (rowState k p s) = startCmd sp (rowCmd k p s) (rowState k p s) := by
    have hopcode : (rowCmd k p s).opcode = sp.opcode := h.opcode
    simp [startAny, hopcode, hsp, h.firmware]
  have hplain : repliesFirst (fun a => if takesFrom p.src a && opcodeOf p == sp.opcode then submitCmd p a else a) (passTo k s) = rowState k p s := by
    refine (repliesFirst_plain fun l => ?_).trans ?_
    · show (if takesFrom p.src (passTo k s) && opcodeOf p == sp.opcode then _ else _) = _
      split <;> rfl
    · simp [h.source, h.opcode, ← rowState_eq]
  have halone : hasMirror (rowState k p s) = false := (hasMirror_congr (rowState_pair k p s)).trans h.alone
  have hlen : (rowState k p s).cmds.length = s.cmds.length + 1 := by simp
  unfold runRow runEvent
  rw [hplain]
  simp only [finish, yieldFaults_alone halone, hlen, pump, h.serves, nextCommand_row h, hstart, Bool.not_true, Bool.false_eq_true, if_false,
    pump_none hc.none, compareAll_none hc.forwarded]

/-- What stands after the row of a command that completes: what its effect left, but for the ways of replies and notices. -/
structure Served (c : Cmd) (u t : State) : Prop where
  frame : t = { u with
    cmds := u.cmds.filter fun d => d.id != c.id, hub := { u.hub with replies := t.hub.replies }, aside := t.aside, qps := t.qps, spi := t.spi,
    ctlport := t.ctlport, glob := t.glob, strm := t.strm, out := t.out, notices := t.notices }
  streams : streams t = streams u

theorem Served.cmds {c : Cmd} {u t : State} (h : Served c u t) : t.cmds = u.cmds.filter fun d => d.id != c.id := by rw [h.frame]
theorem Served.pair {c : Cmd} {u t : State} (h : Served c u t) : t.pair = u.pair := by rw [h.frame]
theorem Served.time {c : Cmd} {u t : State} (h : Served c u t) : t.time = u.time := by rw [h.frame]
theorem Served.mode {c : Cmd} {u t : State} (h : Served c u t) : t.mode = u.mode := by rw [h.frame]
theorem Served.shadowed {c : Cmd} {u t : State} (h : Served c u t) : t.shadowed = u.shadowed := by rw [h.frame]
theorem Served.pool {c : Cmd} {u t : State} (h : Served c u t) : t.pool = u.pool := by rw [h.frame]
theorem Served.mq {c : Cmd} {u t : State} (h : Served c u t) : t.mq = u.mq := by rw [h.frame]
theorem Served.tdc {c : Cmd} {u t : State} (h : Served c u t) : t.tdc = u.tdc := by rw [h.frame]
theorem Served.maint {c : Cmd} {u t : State} (h : Served c u t) : t.maint = u.maint := by rw [h.frame]
theorem Served.disp {c : Cmd} {u t : State} (h : Served c u t) : t.disp = u.disp := by rw [h.frame]
theorem Served.bb {c : Cmd} {u t : State} (h : Served c u t) : t.bb = u.bb := by rw [h.frame]

theorem complete_served {c : Cmd} {st : Status} {pl : List Word} {i : Nat} {u : State} (hsrc : c.src ≠ .pairLink) (hf : u.pair.forwarded = [])
    {old : State} {f : State → State} {s : State} (he : f (opened s) = complete c st pl i u) : Served c u (pairNotice old (repliesFirst f s)) where
  frame := by
    have hpair : (complete c st pl i u).pair = u.pair := by rw [complete_pair _ _ _ _ hsrc, recordOwn_none hf]
    rw [after_frame, he, complete_frame, hpair, complete_hub]
  streams := by rw [after_streams, he, complete_streams]

variable {sp : CmdSpec} {k : Nat} {p : Packet} {s u : State}

/-- The row of an accepted command that completes at once, when its effect ends other commands at most. -/
theorem row_served {st : Status} {words : List Word} (ha : accepted sp k p s = true) (hsp : specOf sp.opcode = some sp)
    (ht : (rowCmd k p s).timed = false) (hl : sp.lead (rowCmd k p s) = none)
    (hr : sp.run (rowCmd k p s) (rowState k p s).index (opened (rowState k p s)) = (u, .done st words)) (he : Ends (rowState k p s) u) :
    ∃ t, runRow sp k p s = .next t ∧ Served (rowCmd k p s) u t := by
  obtain ⟨h, hck⟩ := accepted_iff.mp ha
  have halone : hasMirror u = false := he.alone.trans ((hasMirror_congr (rowState_pair k p s)).trans h.alone)
  have hforwarded : u.pair.forwarded = [] := he.forwarded (by rw [rowState_pair]; exact quiet_forwarded h.quiet)
  have harrival : ({ rowCmd k p s with arrival := (rowState k p s).index } : Cmd) = rowCmd k p s := rfl
  let g := fun a => settleFate (rowCmd k p s) (rowState k p s).index
    (let r := sp.run (rowCmd k p s) (rowState k p s).index a
     (if r.2.accepted then forwardCmd sp (rowCmd k p s) none r.1 else r.1, r.2))
  have hg : g (opened (rowState k p s)) = complete (rowCmd k p s) st words (rowState k p s).index u := by
    simp only [g, hr, forwardCmd_alone halone, ite_self, settleFate]
  have hstart : startCmd sp (rowCmd k p s) (rowState k p s) = repliesFirst g (rowState k p s) := by
    simp only [startCmd, harrival, hck, ht, leadNs_none hl, Bool.false_eq_true, if_false, runNow]
    exact repliesFirst_congr rfl
  have hwait : noneWaits (u.cmds.filter fun d => d.id != (rowCmd k p s).id) = true := he.noneWaits_others (noneWaits_served h.quiet)
  have hcalm : Calm (startCmd sp (rowCmd k p s) (rowState k p s)) := by
    have hends : Ends u (complete (rowCmd k p s) st words (rowState k p s).index u) := ends_complete ..
    rw [hstart]
    refine Calm.core (s := complete (rowCmd k p s) st words (rowState k p s).index u) ⟨?_, hends.alone.trans halone, hends.forwarded hforwarded⟩
      (hg ▸ repliesFirst_opened ..)
    rw [complete_cmds]
    exact hwait
  refine ⟨_, row_starts_notice h hsp hcalm, ?_⟩
  rw [hstart]
  exact complete_served h.local hforwarded hg

theorem accepted_untimed (ha : accepted sp k p s = true) (hno : sp.timed (rowCmd k p s) = .no) : (rowCmd k p s).timed = false :=
  have ⟨h, hck⟩ := accepted_iff.mp ha
  timed_of_no h.local hno (checkCmd_none hck).2.1

end Sys2Proof.Machine
end

section
/-! O13: the commands of the Ethernet ports, destinations and stream contexts (R402, R406, R415-R417, R419, R422-R431). -/

namespace Sys2Proof.Machine

/-! ### STRM_CONFIG (R402, R415-R417, R425) -/

theorem ends_endRewind (n : Nat) (st : Status) (s : State) : Ends s (endRewind n st s) := by
  unfold endRewind
  split
  · exact Ends.refl s
  · exact (ends_core (setCtx_core ..)).trans (ends_completeId ..)

theorem ends_dropMarkWaits (n : Nat) (s : State) : Ends s (dropMarkWaits n s) :=
  (ends_core (setCtx_core ..)).trans (ends_foldl _ _ _ fun _ _ => ends_completeId ..)

theorem setCtx_streams (n : Nat) (f : StreamCtx → StreamCtx) (s : State) :
    streams (setCtx n f s) = { streams s with ctxs := modAt (streams s).ctxs n f } := rfl

theorem modAt_comp {α : Type} (l : List α) (n : Nat) (f g : α → α) : modAt (modAt l n f) n g = modAt l n fun x => g (f x) := by
  simp [modAt, List.modify_modify_eq, Function.comp_def]

theorem modAt_fixed {α : Type} {l : List α} {n : Nat} {f : α → α} (h : ∀ x ∈ l[n]?, f x = x) : modAt l n f = l := by
  refine List.ext_getElem? fun i => ?_
  rw [modAt, List.getElem?_modify]
  split
  · next hi =>
    subst hi
    cases hx : l[n]? with
    | none => rfl
    | some x => exact congrArg some (h x hx)
  · simp

theorem endRewind_streams (n : Nat) (st : Status) (s : State) :
    streams (endRewind n st s) = { streams s with ctxs := modAt (streams s).ctxs n fun x => { x with rewind := none } } := by
  unfold endRewind
  split
  next hnone =>
    have hfixed : ∀ x ∈ (streams s).ctxs[n]?, ({ x with rewind := none } : StreamCtx) = x := fun x hx => by
      have hctx : ctxOf s n = x := by
        have hx' : s.strm.ctxs[n]? = some x := hx
        simp [ctxOf, hx']
      rw [← hnone, hctx]
    rw [modAt_fixed hfixed]
  next => rw [completeId_streams, setCtx_streams]

theorem dropMarkWaits_streams (n : Nat) (s : State) :
    streams (dropMarkWaits n s) = { streams s with ctxs := modAt (streams s).ctxs n fun x => { x with markWaits := [] } } :=
  (streams_foldl _ _ fun _ _ => completeId_streams ..).trans (setCtx_streams ..)

/-- The message queue and the pool. -/
def queueAndPool (s : State) : MqUnit × Pool := (s.mq, s.pool)

theorem completeId_queueAndPool (id : Nat) (st : Status) (pl : List Word) (i : Nat) (s : State) :
    queueAndPool (completeId id st pl i s) = queueAndPool s := by
  unfold completeId
  split
  · rw [complete_frame]
    rfl
  · rfl

theorem endRewind_queueAndPool (n : Nat) (st : Status) (s : State) : queueAndPool (endRewind n st s) = queueAndPool s := by
  unfold endRewind
  split
  · rfl
  · exact completeId_queueAndPool ..

theorem dropMarkWaits_queueAndPool (n : Nat) (s : State) : queueAndPool (dropMarkWaits n s) = queueAndPool s :=
  List.foldlRecOn (motive := fun a => queueAndPool a = queueAndPool s) _ _ rfl fun _ ha _ _ => (completeId_queueAndPool ..).trans ha

/-- What waits for the store of a context ends, as the store empties. -/
def storeEnds (n : Nat) (s : State) : State := dropMarkWaits n (endRewind n .markLost s)

theorem ends_storeEnds (n : Nat) (s : State) : Ends s (storeEnds n s) := (ends_endRewind ..).trans (ends_dropMarkWaits ..)

theorem storeEnds_streams (n : Nat) (s : State) :
    streams (storeEnds n s) = { streams s with ctxs := modAt (streams s).ctxs n fun x => { x with markWaits := [], rewind := none } } := by
  rw [storeEnds, dropMarkWaits_streams, endRewind_streams, modAt_comp]

/-- The context, and the readers of the message queue, as STRM_CONFIG leaves them. -/
def configured (c : Cmd) (s : State) : State :=
  setMq (fun m => { m with readers := m.readers.filter fun r => r.1 != c.arg 0 5 0 })
    (setCtx (c.arg 0 5 0) (contextFrom c) (storeEnds (c.arg 0 5 0) s))

/-- The checkpoint that tells the mirror of a new numbering, the floor of the old one, and the free value of a rate that the spec leaves open. -/
def checkpointed (n e : Nat) (s : State) : State :=
  (takeFree (sendCheckpoint n e true { s with pair := { s.pair with itemFloor := s.pair.itemFloor.filter fun x => x.1 != n } })).2

theorem ends_checkpointed (n e : Nat) (s : State) : Ends s (checkpointed n e s) := by
  refine Ends.trans ?_ (ends_core ((takeFree_core _).trans (sendCheckpoint_core ..)))
  exact ⟨rfl, rfl, rfl, rfl, rfl, rfl, rfl, fewer_of fun _ h => h, rfl, rfl, fun h => h, rfl⟩

theorem checkpointed_units (n e : Nat) (s : State) :
    (checkpointed n e s).strm = s.strm ∧ queueAndPool (checkpointed n e s) = queueAndPool s := by
  unfold checkpointed sendCheckpoint
  split <;> exact ⟨rfl, rfl⟩

theorem strmConfig_run (c : Cmd) (e : Nat) (s : State) : ∃ words,
    specStrmConfig.run c e s = (checkpointed (c.arg 0 5 0) s.index (configured c s), .done .ok words) := ⟨_, rfl⟩

theorem configured_streams (c : Cmd) (s : State) : streams (configured c s) = { streams s with
    ctxs := modAt (streams s).ctxs (c.arg 0 5 0) fun x => contextFrom c { x with markWaits := [], rewind := none } } := by
  show streams (setCtx (c.arg 0 5 0) (contextFrom c) (storeEnds (c.arg 0 5 0) s)) = _
  rw [setCtx_streams, storeEnds_streams, modAt_comp]

theorem configured_queueAndPool (c : Cmd) (s : State) : queueAndPool (configured c s) =
    ({ s.mq with readers := s.mq.readers.filter fun r => r.1 != c.arg 0 5 0 }, s.pool) := by
  have h : queueAndPool (storeEnds (c.arg 0 5 0) s) = queueAndPool s := (dropMarkWaits_queueAndPool ..).trans (endRewind_queueAndPool ..)
  exact congrArg (fun x : MqUnit × Pool => ({ x.1 with readers := x.1.readers.filter fun r => r.1 != c.arg 0 5 0 }, x.2)) h

theorem passTo_strm (k : Nat) (s : State) : (passTo k s).strm = s.strm := by rw [passTo_frame]

theorem passTo_queueAndPool (k : Nat) (s : State) : queueAndPool (passTo k s) = queueAndPool s := by
  rw [passTo_frame]
  rfl

theorem rowState_configured_streams (c : Cmd) (k : Nat) (p : Packet) (s : State) : streams (configured c (opened (rowState k p s))) =
    { streams s with ctxs := modAt (streams s).ctxs (c.arg 0 5 0) fun x => contextFrom c { x with markWaits := [], rewind := none } } := by
  have hrow : streams (opened (rowState k p s)) = streams s := streams_congr (passTo_strm k s)
  rw [configured_streams, hrow]

theorem rowState_configured_queueAndPool (c : Cmd) (k : Nat) (p : Packet) (s : State) : queueAndPool (configured c (opened (rowState k p s))) =
    ({ s.mq with readers := s.mq.readers.filter fun r => r.1 != c.arg 0 5 0 }, s.pool) := by
  have hrow : queueAndPool (opened (rowState k p s)) = queueAndPool s := passTo_queueAndPool k s
  rw [configured_queueAndPool]
  exact congrArg (fun x : MqUnit × Pool => ({ x.1 with readers := x.1.readers.filter fun r => r.1 != c.arg 0 5 0 }, x.2)) hrow

theorem Served.queueAndPool {c : Cmd} {u t : State} (h : Served c u t) : Machine.queueAndPool t = Machine.queueAndPool u :=
  congrArg₂ Prod.mk h.mq h.pool

theorem strmConfig_leaves (k : Nat) (p : Packet) (s : State) (ha : accepted specStrmConfig k p s = true) : ∃ t, exec (.strmConfig k p) s = .next t
    ∧ t.strm.ctxs = modAt s.strm.ctxs ((rowCmd k p s).arg 0 5 0) (fun x => contextFrom (rowCmd k p s) { x with markWaits := [], rewind := none })
    ∧ t.mq.readers = s.mq.readers.filter (fun r => r.1 != (rowCmd k p s).arg 0 5 0)
    ∧ t.strm.ports.map (fun e => { e with txFrames := 0 }) = s.strm.ports.map (fun e => { e with txFrames := 0 })
    ∧ t.strm.dests = s.strm.dests ∧ t.pool = s.pool := by
  obtain ⟨words, hrun⟩ := strmConfig_run (rowCmd k p s) (rowState k p s).index (opened (rowState k p s))
  have hends : Ends (rowState k p s) (configured (rowCmd k p s) (opened (rowState k p s))) :=
    (ends_core (opened_core _)).trans ((ends_storeEnds ..).trans (ends_core (core_mk ..)))
  obtain ⟨t, hexec, ht⟩ := row_served ha rfl (accepted_untimed ha rfl) rfl hrun
    (hends.trans (ends_checkpointed ..))
  obtain ⟨hstrm, hqueue⟩ := checkpointed_units ((rowCmd k p s).arg 0 5 0) (opened (rowState k p s)).index
    (configured (rowCmd k p s) (opened (rowState k p s)))
  have hstreams := ht.streams.trans ((streams_congr hstrm).trans (rowState_configured_streams ..))
  have hkept := ht.queueAndPool.trans (hqueue.trans (rowState_configured_queueAndPool ..))
  exact ⟨t, hexec, (congrArg StreamUnit.ctxs hstreams :), (congrArg (fun x => x.1.readers) hkept :), (congrArg StreamUnit.ports hstreams :),
    (congrArg StreamUnit.dests hstreams :), (congrArg Prod.snd hkept :)⟩

/-! ### STRM_ENABLE (R426) -/

/-- STRM_ENABLE starts or stops one context, unless it is as asked. -/
def switchCtx (on : Bool) (e n : Nat) (s : State) : State :=
  if (ctxOf s n).started == on then s else if on then startCtx e n s else stopCtx e n s

theorem strmEnable_run (c : Cmd) (e : Nat) (s : State) : specStrmEnable.run c e s =
    ((maskBits 64 (c.arg64 0)).foldl (fun a n => switchCtx (c.flag 2 0) e n a) s, .done .ok []) := rfl

theorem switchCtx_on (e n : Nat) (s : State) : switchCtx true e n s = if (ctxOf s n).started then s else startCtx e n s := by
  simp [switchCtx]

theorem switchCtx_off (e n : Nat) (s : State) : switchCtx false e n s = if (ctxOf s n).started then stopCtx e n s else s := by
  cases h : (ctxOf s n).started <;> simp [switchCtx, h]

theorem switchCtx_core (on : Bool) (e n : Nat) (s : State) : core (switchCtx on e n s) = core s :=
  core_if rfl (core_if (startCtx_core ..) (stopCtx_core ..))

/-! ### STRM_MARK and STRM_REWIND (R415-R417, R427, R428) -/

/-- Mark `m` of context `n` has this value. -/
def setMark (n m : Nat) (v : Mark) (s : State) : State := setCtx n (fun x => { x with marks := modAt x.marks m (fun _ => v) }) s

theorem strmMark_waits {c : Cmd} (e : Nat) (s : State) (h : c.arg 0 11 10 = 0) : specStrmMark.run c e s =
    (setCtx (c.arg 0 5 0) (fun x => { x with
      marks := modAt x.marks (c.arg 0 9 8) (fun v => { v with lost := false }),
      markWaits := x.markWaits ++ [{ cmd := c.id, mark := c.arg 0 9 8, at_ := if c.timed then e else 0 }] }) s, .later) := by
  simp only [specStrmMark, h]

theorem strmMark_sets {c : Cmd} (e : Nat) {s : State} (h : c.arg 0 11 10 = 1)
    (hstored : ((ctxOf s (c.arg 0 5 0)).packets.any fun p => p.seq == c.arg64 1) = true) : specStrmMark.run c e s =
    (setMark (c.arg 0 5 0) (c.arg 0 9 8) { seq := some (c.arg64 1), lost := false } s, .done .ok (u64Words (c.arg64 1))) := by
  simp only [specStrmMark, h, hstored, if_true, setMark]

theorem strmMark_lost {c : Cmd} (e : Nat) {s : State} (h : c.arg 0 11 10 = 1)
    (hstored : ((ctxOf s (c.arg 0 5 0)).packets.any fun p => p.seq == c.arg64 1) = false) :
    specStrmMark.run c e s = (s, .done .markLost [0, 0]) := by
  simp only [specStrmMark, h, hstored, Bool.false_eq_true, if_false]

theorem strmMark_clears {c : Cmd} (e : Nat) (s : State) (h : 2 ≤ c.arg 0 11 10) : specStrmMark.run c e s =
    (setMark (c.arg 0 5 0) (c.arg 0 9 8) { seq := none, lost := false } s, .done .ok [0, 0]) := by
  unfold specStrmMark
  dsimp only
  split
  next h0 => omega
  next h1 => omega
  next => rfl

/-- The SEQ from which a STRM_REWIND sends again. -/
def rewindFrom (c : Cmd) (s : State) : Option Nat :=
  if c.flag 0 10 then some (c.arg64 1) else ((ctxOf s (c.arg 0 5 0)).marks.getD (c.arg 0 9 8) default).seq

/-- A packet that the device may send again: it is stored, and no item before it went out while the pair shadowed. -/
def resendable (s : State) (n q : Nat) : Bool :=
  ((ctxOf s n).packets.any fun p => p.seq == q) && !(s.pair.itemFloor.any fun f => f.1 == n && decide (q ≤ f.2))

theorem strmRewind_unmarked {c : Cmd} (e : Nat) {s : State} (h : rewindFrom c s = none) : specStrmRewind.run c e s = (s, .done .markLost [0, 0]) := by
  unfold rewindFrom at h
  simp only [specStrmRewind, h]

theorem strmRewind_run {c : Cmd} (e : Nat) {q : Nat} {s : State} (h : rewindFrom c s = some q) : specStrmRewind.run c e s =
    if resendable s (c.arg 0 5 0) q then
      (setCtx (c.arg 0 5 0) (fun x => { x with rewind := some {
        cmd := c.id, next := q, stop := min (c.arg64 3) ((ctxOf s (c.arg 0 5 0)).seq - 1), override := if c.flag 0 22 then some (c.arg 0 21 16) else none,
        resent := 0, lost := false } }) s, .first .deferred)
    else (s, .done .markLost [0, 0]) := by
  unfold rewindFrom at h
  simp only [specStrmRewind, h, resendable]
  rfl

/-! ### The status words (R429, R430) -/

/-- The words of STRM_STATUS for context `n` (R429). -/
def ctxStatusWords (n : Nat) (s : State) : List Word :=
  let x := ctxOf s n
  [BitVec.ofNat 32 (oneIf x.started + oneIf (x.started && modeRunsProducts s.mode && s.mode != .shadow) * 2 + oneIf x.rewind.isSome * 4
    + oneIf x.bindingLost * 8 + maskOf ((List.range 4).filter fun m => (x.marks.getD m default).seq.isSome) * 16
    + maskOf ((List.range 4).filter fun m => (x.marks.getD m default).lost) * 256)]
  ++ u64Words x.seq ++ [BitVec.ofNat 32 x.sent, BitVec.ofNat 32 x.dropped, BitVec.ofNat 32 x.retx, BitVec.ofNat 32 x.clipped,
    BitVec.ofNat 32 x.spoiled, BitVec.ofNat 32 x.skipped, BitVec.ofNat 32 (unsentOf x).length]

theorem strmStatus_run (c : Cmd) (e : Nat) (s : State) : specStrmStatus.run c e s =
    (if c.flag 0 8 then setCtx (c.arg 0 5 0) (fun x =>
        { x with sent := 0, dropped := 0, retx := 0, clipped := 0, spoiled := 0, skipped := 0 }) s else s,
      .done .ok (ctxStatusWords (c.arg 0 5 0) s)) := by
  simp only [specStrmStatus, ctxStatusWords, oneIf_mul]
  rfl

/-- The words of STRM_PORT_STATUS for port `p` (R430). -/
def portStatusWords (p : Nat) (s : State) : List Word :=
  let e := portOf s p
  [BitVec.ofNat 32 (oneIf e.linkUp + oneIf e.en * 2 + oneIf e.ptpEn * 4), BitVec.ofNat 32 e.txFrames, BitVec.ofNat 32 e.rxFrames,
    BitVec.ofNat 32 e.rxDiscarded, Config.freeWord s.free, Config.freeWord (s.free + 1), BitVec.ofNat 32 e.pauseIgnored, BitVec.ofNat 32 e.ptpRxLost]

theorem strmPortStatus_run (c : Cmd) (e : Nat) (s : State) : specStrmPortStatus.run c e s =
    (if c.flag 0 8 then setPort (c.arg 0 1 0) (fun e =>
        { e with txFrames := 0, rxFrames := 0, rxDiscarded := 0, pauseIgnored := 0, ptpRxLost := 0 }) { s with free := s.free + 1 + 1 }
      else { s with free := s.free + 1 + 1 },
      .done .ok (portStatusWords (c.arg 0 1 0) s)) := by
  simp only [specStrmPortStatus, portStatusWords, oneIf_mul]
  rfl

/-! ### The obligation -/

/-- Settles O13: each command by its execution, which leaves the core of the state, but for STRM_CONFIG, which also ends what waits for the store of its
context (`strmConfig_leaves`). -/
theorem streamCommands : Obligations.StreamCommands := by
  unfold Obligations.StreamCommands
  refine ⟨?_, ?_, strmConfig_leaves, ?_, ?_, ?_, ?_, ?_, ?_, ?_, ?_, fun q => ?_, ?_, fun q => ?_, ?_, fun e => ?_, fun frame => ?_⟩
  · exact does_core (fun _ _ _ => rfl) rfl (fun _ => rfl) (fun _ _ _ _ _ => rfl) fun _ _ => core_mk ..
  · exact does_core (fun _ _ _ => rfl) rfl (fun _ => rfl) (fun _ _ _ _ _ => rfl) fun _ _ => core_mk ..
  · exact holds_of (fun _ _ _ => rfl) rfl (by decide) fun _ => rfl
  · refine fires_core rfl (fun c e s h => ?_) fun c e s => foldl_core _ _ s fun a n => switchCtx_on e n a ▸ switchCtx_core ..
    simp only [strmEnable_run, h, switchCtx_on, noWordsAt]
  · refine fires_core rfl (fun c e s h => ?_) fun c e s => foldl_core _ _ s fun a n => switchCtx_off e n a ▸ switchCtx_core ..
    simp only [strmEnable_run, h, switchCtx_off, noWordsAt]
  · exact holds_of (fun _ _ _ => rfl) rfl (by decide) fun _ => rfl
  · exact firesLater_core rfl (fun c e s h => strmMark_waits e _ h) fun _ _ _ => core_mk ..
  · exact fires_core rfl (fun c e s h => strmMark_sets (s := opened s) e h.1 h.2) fun _ _ _ => core_mk ..
  · exact firesRefused_of rfl fun c e s h => strmMark_lost (s := opened s) e h.1 h.2
  · exact fires_core rfl (fun c e s h => strmMark_clears e _ h) fun _ _ _ => core_mk ..
  · refine defers_core (fun _ _ _ => rfl) rfl (fun _ => rfl) (fun c s _ _ h => ?_) (fun _ _ => rfl) (fun _ _ => rfl) (fun _ _ => rfl) fun _ _ => rfl
    obtain ⟨hfrom, hstored, hfloor⟩ := h
    have hok : resendable (opened s) (c.arg 0 5 0) q = true := (congrArg₂ (· && !·) hstored hfloor :)
    rw [strmRewind_run (s := opened s) _ hfrom, hok]
    rfl
  · refine answers_core (fun _ _ _ => rfl) rfl (fun _ => rfl) (fun c s _ _ h => strmRewind_unmarked (s := opened s) _ ?_) fun _ _ => rfl
    obtain ⟨hflag, hmark⟩ := h
    rw [rewindFrom, hflag]
    exact hmark
  · refine answers_core (fun _ _ _ => rfl) rfl (fun _ => rfl) (fun c s _ _ h => ?_) fun _ _ => rfl
    obtain ⟨hfrom, hlost⟩ := h
    have hno : resendable (opened s) (c.arg 0 5 0) q = false := by
      rcases hlost with hlost | hlost
      · exact Bool.and_eq_false_iff.mpr (.inl hlost)
      · exact Bool.and_eq_false_iff.mpr (.inr (congrArg (!·) hlost))
    rw [strmRewind_run (s := opened s) _ hfrom, hno]
    rfl
  · exact does_core (fun _ _ _ => rfl) rfl (fun _ => rfl) (fun c s _ _ _ => strmStatus_run c s.index (opened s)) fun _ _ => core_if (setCtx_core ..) rfl
  · refine does_core (fun _ _ _ => rfl) rfl (fun _ => rfl) (fun c s _ _ h => ?_) fun _ _ => core_if (core_mk ..) rfl
    subst h
    exact strmPortStatus_run c s.index (opened s)
  · refine does_core (fun _ _ _ => rfl) rfl (fun _ => rfl) (fun c s _ _ h => ?_) fun _ _ => core_mk ..
    subst h
    rfl

end Sys2Proof.Machine
end

section
/-! O36: the host rings and what the Ethernet ports receive (R408, R410, R419, R432). -/

namespace Sys2Proof.Machine

/-- What stands after an event, from its whole effect. -/
theorem eventTo_of_event {ev : Nat → Instr} {pre : Nat → State → Prop} {effect : Nat → State → State} {post : Nat → State → State → Prop}
    (h : Event ev pre effect) (hpost : ∀ k s, pre k s → post k s (repliesFirst (effect k) s)) : EventTo ev pre post :=
  fun k s hq hm hp => ⟨_, h k s hq hm hp, hpost k _ hp⟩

/-! ### The host rings (R408) -/

section
variable {e : Nat} {s : State} {base slots size ptr vector : Nat} {intEn : Bool} {count time : Nat}

theorem evHostRingConsPoll_ring (cons : Nat) (h : (destOf s e).dest = .hostRing base slots size ptr vector intEn count time) :
    evHostRingConsPoll e cons s = setDest e (fun d => { d with cons := cons }) s := by
  simp only [evHostRingConsPoll, h]

theorem evHostRingIntTime_fires (h : (destOf s e).dest = .hostRing base slots size ptr vector true count time) (hnew : 0 < (destOf s e).unsignalled) :
    evHostRingIntTime e s = raiseVector vector (setDest e (fun d => { d with unsignalled := 0 }) s) := by
  simp only [evHostRingIntTime, h, hnew, decide_true, Bool.and_self, if_true]

theorem evHostRingIntTime_idle (h : (destOf s e).unsignalled = 0) : evHostRingIntTime e s = s := by
  unfold evHostRingIntTime
  split
  · simp [h]
  · rfl

end

/-! ### Requests for the port's own address (R410) -/

section
variable {p mac ip target : Nat} {s : State}

theorem evArpRequest_own (hen : (portOf s p).en = true) (hmode : s.mode ≠ .shadow) (hset : (portOf s p).ipv4 ≠ 0)
    (hown : (portOf s p).ipv4.toNat = target) : evArpRequest p mac ip target s =
      emit (.arpReply p mac ip) (countRx p (fun e => { e with txFrames := satAdd 32 e.txFrames 1 }) s) := by
  simp only [evArpRequest, hen, bne_iff_ne.mpr hmode, bne_iff_ne.mpr hset, beq_iff_eq.mpr hown, Bool.and_self, if_true]

theorem evArpRequest_other (h : s.mode = .shadow ∨ (portOf s p).ipv4 = 0 ∨ (portOf s p).ipv4.toNat ≠ target) :
    evArpRequest p mac ip target s = discardRx p s := by
  rcases h with h | h | h <;> simp [evArpRequest, h]

end

section
variable {p mac : Nat} {ip target : List Word} {s : State}

theorem evNeighbourSolicitation_own (hen : (portOf s p).en = true) (hmode : s.mode ≠ .shadow)
    (hset : ((portOf s p).ipv6.any fun w => w != 0) = true) (hown : (portOf s p).ipv6 = target) :
    evNeighbourSolicitation p mac ip target s =
      emit (.neighbourAdvert p mac ip) (countRx p (fun e => { e with txFrames := satAdd 32 e.txFrames 1 }) s) := by
  rw [hown] at hset
  simp only [evNeighbourSolicitation, hen, hown, hset, bne_iff_ne.mpr hmode, Bool.and_self, beq_self_eq_true, if_true]

theorem evNeighbourSolicitation_other (h : s.mode = .shadow ∨ (portOf s p).ipv6 ≠ target) :
    evNeighbourSolicitation p mac ip target s = discardRx p s := by
  rcases h with h | h <;> simp [evNeighbourSolicitation, h]

end

/-! ### A PTP frame (R419) -/

/-- A port receives a PTP frame that its ring cannot take. -/
def ptpLost (p : Nat) (s : State) : State := setPort p (fun e => { e with ptpRxLost := satAdd 32 e.ptpRxLost 1 }) (countRx p id s)

theorem portOf_countRx {p : Nat} {f : EthPort → EthPort} {s : State} (hp : p < s.strm.ports.length) (hen : (portOf s p).en = true) :
    portOf (countRx p f s) p = f { portOf s p with rxFrames := satAdd 32 (portOf s p).rxFrames 1 } := by
  rw [countRx, portOf_setPort hp, if_pos hen]

/-- What a lost frame leaves. -/
theorem ptpLost_leaves {p : Nat} {s : State} (hen : (portOf s p).en = true) (hp : p < s.strm.ports.length) :
    (portOf (repliesFirst (ptpLost p) s) p).ptpRxLost = satAdd 32 (portOf s p).ptpRxLost 1
      ∧ (portOf (repliesFirst (ptpLost p) s) p).rxFrames = satAdd 32 (portOf s p).rxFrames 1
      ∧ (repliesFirst (ptpLost p) s).strm.dests = s.strm.dests ∧ (repliesFirst (ptpLost p) s).out = s.out := by
  have hcount : p < (countRx p id s).strm.ports.length := by simpa [countRx, modAt] using hp
  rw [repliesFirst_plain (f := ptpLost p) fun _ => rfl, ptpLost, portOf_setPort hcount, portOf_countRx hp hen]
  exact ⟨rfl, rfl, rfl, rfl⟩

section
variable {p stamp : Nat} {frame : List Byte} {s : State}

theorem evPtpFrameRx_off (h : (portOf s p).en = false) : evPtpFrameRx p stamp frame s = s := by simp [evPtpFrameRx, h]

theorem evPtpFrameRx_other (hen : (portOf s p).en = true) (hptp : (portOf s p).ptpEn = false) : evPtpFrameRx p stamp frame s = discardRx p s := by
  simp [evPtpFrameRx, hen, hptp]

section
variable (hen : (portOf s p).en = true) (hptp : (portOf s p).ptpEn = true)
include hen hptp

theorem evPtpFrameRx_noRing (hdest : (destOf s (portOf s p).ptpEntry).dest = .none) : evPtpFrameRx p stamp frame s = ptpLost p s := by
  simp only [evPtpFrameRx, hen, hptp, hdest, Bool.not_true, Bool.false_eq_true, if_false, ptpLost]

variable {base slots size ptr vector : Nat} {intEn : Bool} {count time : Nat}
  (hdest : (destOf s (portOf s p).ptpEntry).dest = .hostRing base slots size ptr vector intEn count time)
include hdest

theorem evPtpFrameRx_ring (hready : destReady s (portOf s p).ptpEntry = true) (hfits : 16 + frame.length ≤ size) :
    evPtpFrameRx p stamp frame s = hostRingWrite (portOf s p).ptpEntry
      (bytesOfWords (stampRecord (ptpForm s stamp) p frame.length) ++ frame) (countRx p id s) := by
  simp only [evPtpFrameRx, hen, hptp, hdest, hready, hfits, Bool.not_true, Bool.false_eq_true, if_false, decide_true, Bool.and_self, if_true]

theorem evPtpFrameRx_full (h : destReady s (portOf s p).ptpEntry = false ∨ size < 16 + frame.length) :
    evPtpFrameRx p stamp frame s = ptpLost p s := by
  have hno : (destReady s (portOf s p).ptpEntry && decide (16 + frame.length ≤ size)) = false := by
    simpa only [Bool.and_eq_false_iff, decide_eq_false_iff_not, not_le] using h
  simp only [evPtpFrameRx, hen, hptp, hdest, hno, Bool.not_true, Bool.false_eq_true, if_false, ptpLost]

end

end

/-- A write of a ring leaves the ports. -/
theorem hostRingWrite_ports (e : Nat) (bytes : List Byte) (s : State) : (hostRingWrite e bytes s).strm.ports = s.strm.ports := by
  unfold hostRingWrite
  split
  · dsimp only
    split
    · rw [raiseVector_frame]
      rfl
    · rfl
  · rfl

/-- Replies and notices change no more of a port than how many frames it has sent. -/
theorem portOf_streams {s t : State} (h : streams t = streams s) (p : Nat) :
    (portOf t p).ptpRxLost = (portOf s p).ptpRxLost ∧ (portOf t p).rxFrames = (portOf s p).rxFrames := by
  have hports (u : State) : { portOf u p with txFrames := 0 } = (streams u).ports.getD p { (default : EthPort) with txFrames := 0 } :=
    List.getD_map (f := fun e : EthPort => { e with txFrames := 0 }) .. |>.symm
  have hport : ({ portOf t p with txFrames := 0 } : EthPort) = { portOf s p with txFrames := 0 } := by rw [hports, hports, h]
  exact ⟨(congrArg EthPort.ptpRxLost hport :), (congrArg EthPort.rxFrames hport :)⟩

theorem ptpFrameRx_delivers (p stamp : Nat) (frame : List Byte) (base slots size ptr vector : Nat) (intEn : Bool) (count time : Nat) :
    EventTo (fun k => .ptpFrameRx k p stamp frame)
      (fun _ s => (portOf s p).en = true ∧ (portOf s p).ptpEn = true ∧ p < s.strm.ports.length
        ∧ (destOf s (portOf s p).ptpEntry).dest = .hostRing base slots size ptr vector intEn count time ∧ (portOf s p).ptpEntry < s.strm.dests.length
        ∧ destReady s (portOf s p).ptpEntry = true ∧ 16 + frame.length ≤ size)
      (fun _ s t => (portOf t p).ptpRxLost = (portOf s p).ptpRxLost ∧ (portOf t p).rxFrames = satAdd 32 (portOf s p).rxFrames 1
        ∧ (destOf t (portOf s p).ptpEntry).prod = ((destOf s (portOf s p).ptpEntry).prod + 1) % 2 ^ 64) := by
  refine eventTo_of (fun _ _ => rfl) (fun k s _ hs => (opened_calm hs).core (evPtpFrameRx_core ..)) fun k s t old hp _ ht => ?_
  obtain ⟨hen, hptp, hport, hdest, hin, hready, hfits⟩ := hp
  have hring := evPtpFrameRx_ring (stamp := stamp) (s := opened s) hen hptp hdest hready hfits
  have hstreams := ht ▸ after_streams old (evPtpFrameRx p stamp frame) s
  obtain ⟨hlost, hrx⟩ := portOf_streams hstreams p
  have hdests : destOf t (portOf s p).ptpEntry = destOf (evPtpFrameRx p stamp frame (opened s)) (portOf s p).ptpEntry :=
    (congrArg (fun u : StreamUnit => u.dests.getD (portOf s p).ptpEntry default) hstreams :)
  have hports : portOf (evPtpFrameRx p stamp frame (opened s)) p = { portOf s p with rxFrames := satAdd 32 (portOf s p).rxFrames 1 } := by
    rw [hring, portOf, hostRingWrite_ports]
    exact portOf_countRx (s := opened s) hport hen
  rw [hlost, hrx, hdests, hports, hring]
  exact ⟨rfl, rfl, hostRingWrite_prod (s := countRx p id (opened s)) hdest hin⟩

/-! ### The link of a port (R432) -/

theorem evEthLinkChange_same {p : Nat} {up : Bool} {s : State} (h : s.variant.ports ≤ p ∨ (portOf s p).linkUp = up) : evEthLinkChange p up s = s := by
  rcases h with h | h <;> simp [evEthLinkChange, h]

theorem evEthLinkChange_changes {p : Nat} {up : Bool} {s : State} (hp : p < s.variant.ports) (h : (portOf s p).linkUp ≠ up) : evEthLinkChange p up s =
    notify 0x0A02 [BitVec.ofNat 32 (p + (if up then 256 else 0))] s.index (setPort p (fun e => { e with linkUp := up }) s) := by
  simp [evEthLinkChange, Nat.not_le.mpr hp, h]

/-! ### The obligation -/

/-- Settles O36: each event by its own function, on the states of its clause. -/
theorem networkEvents : Obligations.NetworkEvents := by
  unfold Obligations.NetworkEvents
  refine ⟨fun e cons _ _ _ _ _ _ _ _ => ?_, fun e _ _ _ _ _ _ _ => ?_, fun e => ?_, fun p mac ip target => ?_, fun p mac ip target => ?_,
    fun p mac ip target => ?_, fun p mac ip target => ?_, fun p stamp frame => ?_, ptpFrameRx_delivers, fun p stamp frame _ _ _ _ _ _ _ _ => ?_,
    fun p stamp frame => ?_, fun p stamp frame => ?_, fun p => ?_, fun p => ?_, fun p up => ?_, fun p up => ?_⟩
  · exact event_of_core (fun _ _ => rfl) (fun _ s h => evHostRingConsPoll_ring (s := opened s) cons h) fun _ _ => setDest_core ..
  · exact event_of_core (fun _ _ => rfl) (fun _ s h => evHostRingIntTime_fires (s := opened s) h.1 h.2) fun _ _ =>
      (raiseVector_core ..).trans (setDest_core ..)
  · exact event_idle (fun _ _ => rfl) fun _ s h => evHostRingIntTime_idle (s := opened s) h
  · exact event_of_core (fun _ _ => rfl) (fun _ s ⟨hen, hmode, hset, hown⟩ => evArpRequest_own (s := opened s) hen hmode hset hown) fun _ _ =>
      (emit_core ..).trans (setPort_core ..)
  · exact event_of_core (fun _ _ => rfl) (fun _ s h => evArpRequest_other (s := opened s) h) fun _ _ => discardRx_core ..
  · exact event_of_core (fun _ _ => rfl) (fun _ s ⟨hen, hmode, hset, hown⟩ =>
      evNeighbourSolicitation_own (s := opened s) hen hmode hset hown) fun _ _ =>
      (emit_core ..).trans (setPort_core ..)
  · exact event_of_core (fun _ _ => rfl) (fun _ s h => evNeighbourSolicitation_other (s := opened s) h) fun _ _ => discardRx_core ..
  · exact eventTo_of_event (event_of_core (effect := fun _ => ptpLost p) (fun _ _ => rfl)
      (fun _ s ⟨hen, hptp, _, hdest⟩ => evPtpFrameRx_noRing (s := opened s) hen hptp hdest) fun _ _ => core_mk ..)
      fun _ _ ⟨hen, _, hport, _⟩ => ptpLost_leaves hen hport
  · exact eventTo_of_event (event_of_core (effect := fun _ => ptpLost p) (fun _ _ => rfl)
      (fun _ s ⟨hen, hptp, _, hdest, hfull⟩ => evPtpFrameRx_full (s := opened s) hen hptp hdest hfull) fun _ _ => core_mk ..)
      fun _ _ ⟨hen, _, hport, _⟩ => ptpLost_leaves hen hport
  · exact event_of_core (fun _ _ => rfl) (fun _ s h => evPtpFrameRx_other (s := opened s) h.1 h.2) fun _ _ => discardRx_core ..
  · exact event_idle (fun _ _ => rfl) fun _ s h => evPtpFrameRx_off (s := opened s) h
  · exact event_of_core (fun _ _ => rfl) (fun _ _ _ => rfl) fun _ _ => setPort_core ..
  · exact event_of_core (fun _ _ => rfl) (fun _ _ _ => rfl) fun _ _ => discardRx_core ..
  · exact event_of_core (fun _ _ => rfl) (fun _ s h => evEthLinkChange_changes (s := opened s) h.1 h.2) fun _ _ =>
      (notify_core ..).trans (setPort_core ..)
  · exact event_idle (fun _ _ => rfl) fun _ s h => evEthLinkChange_same (s := opened s) h

end Sys2Proof.Machine
end

section
/-! O14: the commands of the packers and of the message queue (R448-R450, R460, R464-R469). -/

namespace Sys2Proof.Machine

/-! ### PK_STATUS (R450) -/

theorem pkStatus_run {c : Cmd} {p : Packer} {on : List StreamConfig} (e : Nat) {s : State} (hp : p = s.packers.getD (c.arg 0 0 0) default)
    (hon : on = packContexts s (c.arg 0 0 0) 64) : specPkStatus.run c e s =
    (if c.flag 0 8 then setPacker (c.arg 0 0 0) (fun p => { p with blocks := 0, noGain := 0, outFull := 0, inBytes := 0, outBytes := 0 }) s else s,
      .done .ok [BitVec.ofNat 32 (on.length % 128 + p.jobs.length * 256 + ((on.map (packLoad s)).sum * 100).ceil.toNat % 256 * 65536),
        BitVec.ofNat 32 p.blocks, BitVec.ofNat 32 p.noGain, BitVec.ofNat 32 p.outFull, BitVec.ofNat 32 (min (p.inBytes / 1048576) (2 ^ 32 - 1)),
        BitVec.ofNat 32 (min (p.outBytes / 1048576) (2 ^ 32 - 1))]) := by
  subst hp hon
  rfl

/-! ### MQ_READ (R465) -/

theorem hostResult_written (id address : Nat) (bytes : List Byte) (s : State) : (hostResult id address bytes s).2 = !hostFails s address bytes.length := by
  unfold hostResult
  split
  next h => rw [h]; rfl
  next h => rw [Bool.eq_false_iff.mpr h]; rfl

theorem mqReadNow_status (c : Cmd) (s : State) : (mqReadNow (mqReadOf c) s).2.1 = mqReadStatus c s := by
  by_cases hfull : mqReadFull (mqReadOf c) s = true
  · simp only [mqReadNow, mqReadStatus, hfull, if_true]
  · simp only [mqReadNow, mqReadStatus, hfull, if_false, Bool.false_eq_true]
    cases (mqReadOf c).host with
    | none => rfl
    | some a =>
      simp only [hostResult_written, Option.map_some, Option.getD_some, Bool.not_not]
      split <;> rfl

/-- Which notices wait is no matter of what can be read. -/
theorem mqTake_opened (s : State) (l : List MqItem) (budget most : Nat) (t : MqTaken) :
    mqTake (opened s) l budget most t = mqTake s l budget most t := by
  induction l generalizing budget most t with
  | nil => rfl
  | cons x rest ih =>
    simp only [mqTake, ih]
    rfl

theorem mqReadFull_opened (r : MqRead) (s : State) : mqReadFull r (opened s) = mqReadFull r s := by
  simp only [mqReadFull, mqTake_opened]
  rfl

theorem mqReadNowOk_opened (c : Cmd) (s : State) : mqReadNowOk c (opened s) ↔ mqReadNowOk c s := by
  rw [mqReadNowOk, mqReadFull_opened]
  rfl

theorem mqReadStatus_opened (c : Cmd) (s : State) : mqReadStatus c (opened s) = mqReadStatus c s := by
  simp only [mqReadStatus, mqReadFull_opened, mqTake_opened]
  rfl

theorem mqReadNowOk_iff (c : Cmd) (s : State) : mqReadNowOk c s ↔
    (decide ((mqReadOf c).minItems ≤ (s.mq.readable s.mq.hostPos).length) || c.arg 1 19 0 == 0 || mqReadFull (mqReadOf c) s) = true := by
  simp only [mqReadNowOk, Bool.or_eq_true, decide_eq_true_eq, beq_iff_eq, or_assoc]

theorem mqRead_now {c : Cmd} (e : Nat) {s : State} (h : mqReadNowOk c s) :
    specMqRead.run c e s = ((mqReadNow (mqReadOf c) s).1, .done (mqReadStatus c s) (mqReadNow (mqReadOf c) s).2.2) :=
  mqReadNow_status c s ▸ if_pos ((mqReadNowOk_iff c s).mp h)

theorem mqRead_waits {c : Cmd} (e : Nat) {s : State} (h : ¬ mqReadNowOk c s) :
    specMqRead.run c e s = (setMq (fun m => { m with read := some (mqReadOf c) }) s, .first .deferred) :=
  if_neg (mt (mqReadNowOk_iff c s).mpr h)

/-! ### MQ_PUT (R466, R467) -/

/-- The item in an MQ_PUT. -/
def hostItemOf (c : Cmd) : HostItem := { cmd := c.id, tag := c.arg 0 7 0, payload := (List.range (c.plen - 1)).map fun i => c.word (i + 1) }

/-- Another item is open, or ready before this one. -/
def mqBusy (s : State) : Bool := s.mq.open_.isSome || [1, 2, 3, 4, 5].any (mqReady s)

section
variable {c : Cmd} (e : Nat) {s : State}

theorem mqPut_off (h : mqTakes s 5 = false) : specMqPut.run c e s = (s, .done .ok [0]) := by
  simp only [specMqPut, h, Bool.not_false, if_true]

variable (ht : mqTakes s 5 = true)
include ht

theorem mqPut_queues (hb : mqBusy s = true) :
    specMqPut.run c e s = (setMq (fun m => { m with hostQueue := m.hostQueue ++ [hostItemOf c] }) s, .later) := by
  unfold mqBusy at hb
  simp only [specMqPut, ht, hb, Bool.not_true, Bool.false_eq_true, if_false, if_true]
  rfl

theorem mqPut_opens (hb : mqBusy s = false) (hr : mqRoom s (mqItemBytes (hostItemOf c).payload) = true) : specMqPut.run c e s =
    (setMq (fun m => { m with
      turn := 5, open_ := some { item := hostItemOf c, seq := m.seq, accept := s.index, loss := m.loss.contains 5, aborted := false },
      seq := (m.seq + 1) % 2 ^ 32, loss := m.loss.filter (fun p => p != 5) }) s, .later) := by
  have hroom : mqRoom (setMq (fun m => { m with turn := 5 }) s) (mqItemBytes (hostItemOf c).payload) = true := hr
  unfold mqBusy at hb
  unfold hostItemOf at hr hroom
  simp only [specMqPut, ht, hb, hr, Bool.not_true, Bool.false_eq_true, if_false, if_true, mqOpenHost, hroom]
  rfl

theorem mqPut_full (hb : mqBusy s = false) (hr : mqRoom s (mqItemBytes (hostItemOf c).payload) = false) :
    specMqPut.run c e s = (s, .done .noMemory []) := by
  unfold mqBusy at hb
  unfold hostItemOf at hr
  simp only [specMqPut, ht, hb, hr, Bool.not_true, Bool.false_eq_true, if_false]

end

/-! ### MQ_FLUSH (R460, R468) -/

/-- A check of the level arms MQ_LEVEL or sends it, and changes nothing else of the queue. -/
theorem mqLevelCheck_mq (s : State) : (mqLevelCheck s).mq = { s.mq with armed := (mqLevelCheck s).mq.armed } := by
  unfold mqLevelCheck
  split
  · rfl
  · split
    · rw [notify_frame]
      rfl
    · rfl

theorem mqFlush_leaves (s : State) : (mqFlush s).1.mq.items = [] ∧ (mqFlush s).1.mq.hostPos = s.mq.lineEnd
    ∧ (mqFlush s).1.mq.readers = s.mq.readers.map (fun r => (r.1, s.mq.lineEnd)) ∧ (∀ o, (mqFlush s).1.mq.open_ = some o → o.aborted = true)
    ∧ (mqFlush s).1.mq.flushed = satAdd 32 s.mq.flushed s.mq.items.length ∧ (mqFlush s).2.1 = s.mq.items.length := by
  unfold mqFlush
  dsimp only
  rw [mqLevelCheck_mq]
  refine ⟨rfl, rfl, rfl, fun o ho => ?_, rfl, rfl⟩
  obtain ⟨_, _, rfl⟩ := Option.map_eq_some_iff.mp ho
  rfl

/-! ### MQ_STATUS (R469) -/

/-- The words of MQ_STATUS. -/
def mqStatusWords (s : State) : List Word :=
  [BitVec.ofNat 32 (oneIf (partByHandle s s.mq.handle).isSome + oneIf s.mq.read.isSome * 2 + oneIf s.mq.armed * 4 + oneIf s.mq.open_.isSome * 80),
    BitVec.ofNat 32 (mqSize s - 64), BitVec.ofNat 32 (mqLevel s), lo32 s.mq.seq, BitVec.ofNat 32 s.mq.dropped, BitVec.ofNat 32 s.mq.aborted,
    BitVec.ofNat 32 s.mq.flushed, Config.freeWord s.free, BitVec.ofNat 32 s.mq.ueItems, BitVec.ofNat 32 s.mq.padBytes]

theorem mqStatus_run (c : Cmd) (e : Nat) (s : State) : specMqStatus.run c e s =
    (if c.flag 0 8 then setMq (fun m => { m with dropped := 0, aborted := 0, flushed := 0, ueItems := 0, padBytes := 0 })
        { s with free := s.free + 1 } else { s with free := s.free + 1 }, .done .ok (mqStatusWords s)) := by
  simp only [specMqStatus, mqStatusWords, oneIf_mul]
  rfl

/-! ### The obligation -/

/-- Settles O14: each command by its execution, which leaves the core of the state; what a flush leaves is `mqFlush_leaves`. -/
theorem messageQueueCommands : Obligations.MessageQueueCommands := by
  unfold Obligations.MessageQueueCommands
  refine ⟨?_, ?_, fun p on => ?_, ?_, fun st => ?_, ?_, ?_, ?_, ?_, ?_, ?_, ?_, mqFlush_leaves⟩
  · exact does_core (fun _ _ _ => rfl) rfl (fun _ => rfl) (fun _ _ _ _ _ => rfl) fun _ _ => core_mk ..
  · exact begins_core (fun _ _ _ => rfl) rfl (fun _ => rfl) (fun _ _ _ _ _ => rfl) fun _ _ => core_mk ..
  · exact does_core (fun _ _ _ => rfl) rfl (fun _ => rfl) (fun c s _ _ h => pkStatus_run (s := opened s) s.index h.1 h.2) fun _ _ =>
      core_if (core_mk ..) rfl
  · exact does_core (fun _ _ _ => rfl) rfl (fun _ => rfl) (fun _ _ _ _ _ => rfl) fun _ _ =>
      (setMq_core ..).trans ((mqMask_core ..).trans (mqBind_core ..))
  · refine answers_core (fun _ _ _ => rfl) rfl (fun _ => rfl) (fun c s _ _ h => ?_) fun _ _ => mqReadNow_core ..
    obtain ⟨hnow, hst⟩ := h
    rw [mqRead_now (s := opened s) _ ((mqReadNowOk_opened c s).mpr hnow), mqReadStatus_opened, hst]
  · exact defers_core (fun _ _ _ => rfl) rfl (fun _ => rfl) (fun c s _ _ h => mqRead_waits (s := opened s) _ (mt (mqReadNowOk_opened c s).mp h)) (fun _ _ => rfl) (fun _ _ => rfl)
      (fun _ _ => rfl) fun _ _ => rfl
  · exact does_core (fun _ _ _ => rfl) rfl (fun _ => rfl) (fun c s _ _ h => mqPut_off (s := opened s) _ h) fun _ _ => rfl
  · exact begins_core (fun _ _ _ => rfl) rfl (fun _ => rfl) (fun c s _ _ ⟨ht, hb⟩ => mqPut_queues (s := opened s) _ ht hb) fun _ _ => core_mk ..
  · exact begins_core (fun _ _ _ => rfl) rfl (fun _ => rfl) (fun c s _ _ ⟨ht, hb, hr⟩ => mqPut_opens (s := opened s) _ ht hb hr) fun _ _ => core_mk ..
  · exact answers_core (fun _ _ _ => rfl) rfl (fun _ => rfl) (fun c s _ _ ⟨ht, hb, hr⟩ => mqPut_full (s := opened s) _ ht hb hr) fun _ _ => rfl
  · exact does_core (fun _ _ _ => rfl) rfl (fun _ => rfl) (fun _ _ _ _ _ => rfl) fun _ _ => mqFlush_core ..
  · exact does_core (fun _ _ _ => rfl) rfl (fun _ => rfl) (fun c s _ _ _ => mqStatus_run c s.index (opened s)) fun _ _ => core_if (core_mk ..) (core_mk ..)

end Sys2Proof.Machine
end

section
/-! O15: the commands of the TDC (R481, R482, R494-R498, R531) and of the monitoring converter (R507, R510, R511, R518-R522). -/

namespace Sys2Proof.Machine

/-! ### TDC_ARM (R481, R482, R496, R531) -/

/-- What a disarming TDC_ARM leaves of one slot. -/
def tdcDisarmed (s : State) (n : Nat) : State :=
  if (tdcSlotOf s n).armed then disarmSlot n (emitStats n (setTdcSlot n (fun t => { t with open_ := none }) s)) else s

theorem tdcDisarmed_core (s : State) (n : Nat) : core (tdcDisarmed s n) = core s :=
  core_if ((disarmSlot_core ..).trans ((emitStats_core ..).trans (setTdcSlot_core ..))) rfl

theorem setMaint_acts_core (l : List Activity) (s : State) : core (setMaint (fun m => { m with acts := m.acts ++ l }) s) = core s := setMaint_core ..

section
variable {c : Cmd} (e : Nat) {s : State}

theorem tdcArm_disarms (h : c.flag 0 8 = false) : specTdcArm.run c e s = ((maskBits 8 (c.arg 0 7 0)).foldl tdcDisarmed s, .done .ok []) := by
  simp only [specTdcArm, h, Bool.not_false, if_true]
  rfl

theorem tdcArm_waits (h : c.flag 0 8 = true) (ht : c.timed = false) (hnew : newProbes s (c.arg 0 7 0) ≠ [])
    (hb : actBlocked s s.maint.acts (newProbes s (c.arg 0 7 0)) = true) :
    specTdcArm.run c e s = waitActivity (newProbes s (c.arg 0 7 0)) c (c.arg 0 7 0) 0 s := by
  simp [specTdcArm, h, ht, hnew, hb]

theorem tdcArm_arms (h : c.flag 0 8 = true) (hfree : c.timed = true ∨ newProbes s (c.arg 0 7 0) = []
    ∨ actBlocked s s.maint.acts (newProbes s (c.arg 0 7 0)) = false) :
    specTdcArm.run c e s = ((maskBits 8 (c.arg 0 7 0)).foldl (fun a n => armTdc e c.id none n a) s, .done .ok []) := by
  rcases hfree with ht | hnone | hb
  · simp [specTdcArm, h, ht]
  · simp [specTdcArm, h, hnone]
  · simp [specTdcArm, h, hb]

end

/-! ### TDC_READ and TDC_STATUS (R497, R498) -/

theorem tdcRead_run {c : Cmd} (e : Nat) {s : State} {t : TdcSlot} (ht : t = tdcSlotOf s (c.arg 0 2 0)) : specTdcRead.run c e s =
    (s, .done .ok ([BitVec.ofNat 32 (oneIf t.armed + oneIf t.open_.isSome * 2
        + oneIf (s.maint.acts.any fun a => !a.running && holdsTdr a.codes && a.key.testBit (c.arg 0 2 0)) * 4),
      BitVec.ofNat 32 (min t.results (2 ^ 32 - 1)), BitVec.ofNat 32 t.lost]
      ++ (List.range 8).map (fun i => t.lastResult.getD i 0) ++ (List.range 16).map (fun i => t.lastStats.getD i 0))) := by
  subst ht
  simp only [specTdcRead, oneIf_mul]
  rfl

theorem tdcStatus_run {c : Cmd} (e : Nat) {s : State} {x : TdcInput} (hx : x = tdcInputOf s (c.arg 0 3 0)) : specTdcStatus.run c e s =
    (if c.flag 0 8 then setTdcInput (c.arg 0 3 0) (fun x => { x with overrun := 0, stuckEvents := 0 }) s else s,
      .done .ok ([BitVec.ofNat 32 (oneIf (tdcEnabled s (c.arg 0 3 0)) + oneIf x.stuck * 2 + oneIf x.active * 4 + oneIf s.tdc.notReady * 8
          + oneIf s.tdc.rotating * 16), BitVec.ofNat 32 x.accepted, BitVec.ofNat 32 x.overrun, BitVec.ofNat 32 x.stuckEvents]
        ++ dtsWords x.lastStamp
        ++ [BitVec.ofNat 32 (min ((s.index - (s.tdc.lines.getD x.line default).calIndex) * 1000 / max 1 (fsOf s.time)) (2 ^ 32 - 1))])) := by
  subst hx
  simp only [specTdcStatus, oneIf_mul]
  rfl

/-! ### The monitoring converter (R507, R510, R511, R518-R522) -/

section
variable {c : Cmd} (e : Nat) {s : State}

theorem mcSequence_now (h : s.mc.running = none) : specMcSequence.run c e s =
    (mcNext none (applySequence (setMc (fun u => { u with pendingSeq := some ((c.word 0).toNat, c.flag 1 0, c.flag 1 1) }) s)), .done .ok []) := by
  simp only [specMcSequence, h, Option.isNone_none, if_true]

theorem mcSequence_later (h : s.mc.running ≠ none) : specMcSequence.run c e s =
    (setMc (fun u => { u with pendingSeq := some ((c.word 0).toNat, c.flag 1 0, c.flag 1 1) }) s, .done .ok []) := by
  simp only [specMcSequence, Option.isNone_iff_eq_none, h, if_false]

theorem mcConvert_urgent (h : c.urgent = true) : specMcConvert.run c e s =
    (mcNext none (mcAbort (setMc (fun u => { u with urgents := u.urgents ++ [(c.id, c.arg 0 4 0)] }) s)), .later) := by
  simp only [specMcConvert, h, if_true]

theorem mcConvert_queued (h : c.urgent = false) : specMcConvert.run c e s =
    (mcNext none (setMc (fun u => { u with converts := u.converts ++ [(c.id, c.arg 0 4 0)] }) s), .later) := by
  simp only [specMcConvert, h, Bool.false_eq_true, if_false]

theorem mcRead_history {n : Nat} (h : c.flag 0 0 = true) (hn : n = min (c.arg 0 13 8) s.mc.history.length) : specMcRead.run c e s =
    (setMc (fun u => { u with history := u.history.drop n }) s, .done .ok (BitVec.ofNat 32 n :: (s.mc.history.take n).flatten)) := by
  subst hn
  simp only [specMcRead, h, if_true]

theorem mcRead_latest (h : c.flag 0 0 = false) : specMcRead.run c e s =
    (s, .done .ok (1 :: (List.range 5).map fun i => (mcInputOf s (c.arg 0 5 1)).latest.getD i 0)) := by
  simp only [specMcRead, h, Bool.false_eq_true, if_false]
  rfl

end

/-- The words of MC_STATUS. -/
def mcStatusWords (s : State) : List Word :=
  [BitVec.ofNat 32 (oneIf s.mc.run + oneIf (streamRuns s.mc) * 2 + oneIf (s.mc.sysPos != 0) * 4
      + min 4 s.mc.urgents.length * 8 + min 8 (s.mc.converts.length + abortedConvert s) * 64),
    mcStates s (fun i => i.highState), mcStates s (fun i => i.lowState), BitVec.ofNat 32 s.mc.aborts, BitVec.ofNat 32 s.mc.lost,
    BitVec.ofNat 32 s.mc.ovrResults]

theorem mcStatus_run (c : Cmd) (e : Nat) (s : State) : specMcStatus.run c e s =
    (if c.flag 0 8 then setMc (fun u => { u with aborts := 0, lost := 0, ovrResults := 0 }) s else s, .done .ok (mcStatusWords s)) := by
  simp only [specMcStatus, mcStatusWords, oneIf_mul]
  rfl

/-! ### The obligation -/

/-- Settles O15: each command by its execution, which leaves the core of the state. -/
theorem tdcAndMonitorCommands : Obligations.TdcAndMonitorCommands := by
  unfold Obligations.TdcAndMonitorCommands
  refine ⟨?_, ?_, ?_, ?_, ?_, ?_, ?_, fun t => ?_, fun x => ?_, ?_, ?_, ?_, ?_, ?_, fun n => ?_, ?_, ?_⟩
  · exact holds_of (fun _ _ _ => rfl) rfl (by decide) fun _ => rfl
  · exact fires_core rfl (fun _ _ _ _ => rfl) fun _ _ _ => setTdcInput_core ..
  · exact does_core (fun _ _ _ => rfl) rfl (fun _ => rfl) (fun _ _ _ _ _ => rfl) fun _ _ => setTdcSlot_core ..
  · exact holds_of (fun _ _ _ => rfl) rfl (by decide) fun _ => rfl
  · exact fires_core rfl (fun c e s h => tdcArm_disarms (s := opened s) e h) fun _ _ _ => foldl_core _ tdcDisarmed _ tdcDisarmed_core
  · exact firesQueued_core rfl (fun c e s ⟨h, ht, hnew, hb⟩ => tdcArm_waits (s := opened s) e h ht hnew hb) fun _ _ _ =>
      (countWait_core ..).trans (setMaint_acts_core ..)
  · exact fires_core rfl (fun c e s ⟨h, hfree⟩ => tdcArm_arms (s := opened s) e h hfree) fun _ _ _ => foldl_core _ _ _ fun _ _ => armTdc_core ..
  · exact does_core (fun _ _ _ => rfl) rfl (fun _ => rfl) (fun c s _ _ h => tdcRead_run (s := opened s) s.index h) fun _ _ => rfl
  · exact does_core (fun _ _ _ => rfl) rfl (fun _ => rfl) (fun c s _ _ h => tdcStatus_run (s := opened s) s.index h) fun _ _ =>
      core_if (setTdcInput_core ..) rfl
  · exact does_core (fun _ _ _ => rfl) rfl (fun _ => rfl) (fun _ _ _ _ _ => rfl) fun _ _ => setMcInput_core ..
  · exact does_core (fun _ _ _ => rfl) rfl (fun _ => rfl) (fun c s _ _ h => mcSequence_now (s := opened s) s.index h) fun _ _ =>
      (mcNext_core ..).trans ((applySequence_core ..).trans (core_mk ..))
  · exact does_core (fun _ _ _ => rfl) rfl (fun _ => rfl) (fun c s _ _ h => mcSequence_later (s := opened s) s.index h) fun _ _ => core_mk ..
  · exact begins_core (fun _ _ _ => rfl) rfl (fun _ => rfl) (fun c s _ _ h => mcConvert_urgent (s := opened s) s.index h) fun _ _ =>
      (mcNext_core ..).trans ((mcAbort_core ..).trans (core_mk ..))
  · exact begins_core (fun _ _ _ => rfl) rfl (fun _ => rfl) (fun c s _ _ h => mcConvert_queued (s := opened s) s.index h) fun _ _ =>
      (mcNext_core ..).trans (core_mk ..)
  · exact does_core (fun _ _ _ => rfl) rfl (fun _ => rfl) (fun c s _ _ ⟨h, hn⟩ => mcRead_history (s := opened s) s.index h hn) fun _ _ => core_mk ..
  · exact does_core (fun _ _ _ => rfl) rfl (fun _ => rfl) (fun c s _ _ h => mcRead_latest (s := opened s) s.index h) fun _ _ => rfl
  · exact does_core (fun _ _ _ => rfl) rfl (fun _ => rfl) (fun c s _ _ _ => mcStatus_run c s.index (opened s)) fun _ _ => core_if (core_mk ..) rfl

end Sys2Proof.Machine
end

section
/-! O16: the commands of calibration and maintenance (R531, R534-R536, R538-R548). -/

namespace Sys2Proof.Machine

/-! ### The arbiter keeps to its own unit -/

theorem foldl_setMaint_frame (l : List Nat) (f : Nat → MaintUnit → MaintUnit) (s : State) :
    l.foldl (fun a c => setMaint (f c) a) s = { s with maint := (l.foldl (fun a c => setMaint (f c) a) s).maint } := by
  induction l generalizing s with
  | nil => rfl
  | cons c t ih => exact ih _

theorem countStart_frame (codes : List Nat) (from_ : Option Nat) (k : Nat) (s : State) :
    countStart codes from_ k s = { s with maint := (countStart codes from_ k s).maint } := foldl_setMaint_frame codes _ s

theorem pumpDwell_frame (s : State) : pumpDwell s = { s with maint := (pumpDwell s).maint } := by
  unfold pumpDwell
  split
  · rfl
  · split
    · exact countStart_frame ..
    · rfl

theorem endActivity_frame (sel : Activity → Bool) (s : State) : endActivity sel s = { s with maint := (endActivity sel s).maint } :=
  pumpDwell_frame (clearWay _ _)

theorem endActivity_fewer (sel : Activity → Bool) (s : State) : (endActivity sel s).maint.acts.length ≤ s.maint.acts.length := by
  simpa [endActivity, pumpDwell_acts, clearWay] using List.length_filter_le _ s.maint.acts

/-! ### CALIB_MEASURE (R531, R534, R538) -/

section
variable {c : Cmd} (e : Nat) {s : State}

theorem calibMeasure_starts (h : c.timed = true ∧ (s.maint.acts.any fun a => a.codes.contains 6) = false
    ∨ c.timed = false ∧ actBlocked s s.maint.acts [6] = false) : specCalibMeasure.run c e s = (startMeasure c e none s, .later) := by
  rcases h with ⟨ht, hnone⟩ | ⟨ht, hfree⟩
  · simp only [specCalibMeasure, ht, hnone, if_true, Bool.false_eq_true, if_false]
  · simp only [specCalibMeasure, ht, hfree, Bool.false_eq_true, if_false]

theorem calibMeasure_busy (ht : c.timed = true) (hb : (s.maint.acts.any fun a => a.codes.contains 6) = true) :
    specCalibMeasure.run c e s = (s, .done .busy []) := by
  simp only [specCalibMeasure, ht, hb, if_true]

theorem calibMeasure_waits (ht : c.timed = false) (hb : actBlocked s s.maint.acts [6] = true) :
    specCalibMeasure.run c e s = waitActivity [6] c (c.arg 0 3 0) 0 s := by
  simp only [specCalibMeasure, ht, hb, Bool.false_eq_true, if_true, if_false]

end

/-- A measurement whose index has come is refused BUSY while another runs or waits. -/
theorem calibMeasure_refused : FiresRefused specCalibMeasure .busy
    (fun c _ s => c.timed = true ∧ (s.maint.acts.any fun a => a.codes.contains 6) = true) [] := by
  intro c e i s hd hi hl ⟨ht, hb⟩
  have h := due_iff.mp hd
  exact fire_runs hd rfl hi (calibMeasure_busy (s := opened (passTo e s)) e ht hb) (.inl hl) rfl (fire_rest h.quiet (passTo_cmds ..)) (passTo_pair ..)
    (by simp [locked, opened])

/-! ### CALIB_SLICE_READ (R544) -/

theorem calibSliceRead_run (c : Cmd) (e : Nat) (s : State) : specCalibSliceRead.run c e s = (s, .done .ok
    (BitVec.ofNat 32 (spareOf s (channelOf s (c.arg 0 1 0))) :: lo32 s.conv.step :: (List.range 33).flatMap fun n =>
      let x := sliceOf s (c.arg 0 1 0) n
      [BitVec.ofNat 32 (unsign 16 x.offset + unsign 16 x.gain * 65536),
       BitVec.ofNat 32 (unsign 16 x.skew + min 65535 (s.conv.step - x.step) * 65536),
       BitVec.ofNat 32 (sat8 x.dOffset + sat8 x.dGain * 256 + sat8 x.dSkew * 65536
         + oneIf ((channelOf s (c.arg 0 1 0)).retired == some n) * 2 ^ 24)])) := by
  simp only [oneIf_mul]
  rfl

/-! ### MAINT_START and MAINT_CANCEL (R531, R535, R546, R547) -/

section
variable {c : Cmd} (e : Nat) {s : State}

theorem maintStart_starts (h : actBlocked s s.maint.acts [3] = false) : specMaintStart.run c e s =
    (countStart [3] none s.index (setMaint (fun m => { m with acts := m.acts ++ [{
      codes := [3], cmd := c.id, key := (c.word 0).toNat, waitFrom := s.index, clear := s.index, start := some s.index, length := 0, taken := [] }] }) s),
      .later) := by
  simp only [specMaintStart, h, Bool.false_eq_true, if_false]

theorem maintStart_waits (h : actBlocked s s.maint.acts [3] = true) : specMaintStart.run c e s = waitActivity [3] c (c.word 0).toNat 0 s := by
  simp only [specMaintStart, h, if_true]

end

/-- A waiting activity is withdrawn: its command ends BUSY. -/
def withdrawn (a : Activity) (s : State) : State := completeId a.cmd .busy [] s.index (endActivity (fun x => x.cmd == a.cmd) s)

theorem maintCancel_cases (c : Cmd) (e : Nat) (s : State) :
    (∃ a, specMaintCancel.run c e s = (withdrawn a s, .done .ok [1])) ∨ specMaintCancel.run c e s = (s, .done .ok [0]) := by
  simp only [specMaintCancel]
  split
  next a _ => exact .inl ⟨a, rfl⟩
  next => exact .inr rfl

theorem ends_withdrawn (a : Activity) (s : State) : Ends s (withdrawn a s) := (ends_core (endActivity_core ..)).trans (ends_completeId ..)

theorem withdrawn_units (a : Activity) (s : State) :
    (withdrawn a s).maint.acts.length ≤ s.maint.acts.length ∧ (withdrawn a s).pool = s.pool ∧ (withdrawn a s).tdc = s.tdc := by
  refine ⟨?_, ?_, ?_⟩
  · rw [withdrawn, completeId_maint]
    exact endActivity_fewer ..
  · rw [withdrawn, completeId_pool, endActivity_frame]
  · unfold withdrawn completeId
    split
    · rw [complete_frame, endActivity_frame]
    · rw [endActivity_frame]

theorem passTo_acts (k : Nat) (s : State) : (passTo k s).maint.acts = s.maint.acts := by rw [passTo_frame]

theorem maintCancel_ends (k : Nat) (p : Packet) (s : State) (ha : accepted specMaintCancel k p s = true) :
    ∃ t, exec (.maintCancel k p) s = .next t ∧ t.maint.acts.length ≤ s.maint.acts.length ∧ t.pool = s.pool ∧ t.tdc = s.tdc := by
  have hs : (opened (rowState k p s)).maint.acts.length ≤ s.maint.acts.length ∧ (opened (rowState k p s)).pool = s.pool
      ∧ (opened (rowState k p s)).tdc = s.tdc := by
    show (passTo k s).maint.acts.length ≤ _ ∧ (passTo k s).pool = _ ∧ (passTo k s).tdc = _
    rw [passTo_frame]
    exact ⟨le_refl _, rfl, rfl⟩
  have run {u : State} {words : List Word}
      (hr : specMaintCancel.run (rowCmd k p s) (rowState k p s).index (opened (rowState k p s)) = (u, .done .ok words))
      (he : Ends (opened (rowState k p s)) u)
      (hu : u.maint.acts.length ≤ (opened (rowState k p s)).maint.acts.length ∧ u.pool = (opened (rowState k p s)).pool
        ∧ u.tdc = (opened (rowState k p s)).tdc) :
      ∃ t, exec (.maintCancel k p) s = .next t ∧ t.maint.acts.length ≤ s.maint.acts.length ∧ t.pool = s.pool ∧ t.tdc = s.tdc := by
    obtain ⟨t, hrun, ht⟩ := row_served ha rfl (accepted_untimed ha rfl) rfl hr ((ends_core (opened_core _)).trans he)
    obtain ⟨hacts, hpool, htdc⟩ := hu
    refine ⟨t, hrun, ?_, ht.pool.trans (hpool.trans hs.2.1), ht.tdc.trans (htdc.trans hs.2.2)⟩
    rw [ht.maint]
    exact hacts.trans hs.1
  rcases maintCancel_cases (rowCmd k p s) (rowState k p s).index (opened (rowState k p s)) with ⟨a, hr⟩ | hr
  · exact run hr (ends_withdrawn ..) (withdrawn_units ..)
  · exact run hr (Ends.refl _) ⟨le_refl _, rfl, rfl⟩

theorem maintCancel_none {c : Cmd} (e : Nat) {s : State} (h : s.maint.acts.all Activity.running = true) :
    specMaintCancel.run c e s = (s, .done .ok [0]) := by
  have hnone (f : Activity → Bool) : (s.maint.acts.find? fun a => !a.running && f a) = none :=
    List.find?_eq_none.mpr fun a ha => by simp [List.all_eq_true.mp h a ha]
  simp only [specMaintCancel, hnone]

/-! ### The obligation -/

/-- Settles O16: each command by its execution; what a MAINT_CANCEL leaves is `withdrawn_units`. -/
theorem calibrationCommands : Obligations.CalibrationCommands := by
  unfold Obligations.CalibrationCommands
  refine ⟨?_, ?_, calibMeasure_refused, ?_, ?_, ?_, ?_, ?_, maintCancel_ends, ?_, ?_⟩
  · exact holds_of (fun _ _ _ => rfl) rfl (by decide) fun _ => rfl
  · exact firesLater_core rfl (fun c e s h => calibMeasure_starts (s := opened s) e h) fun _ _ _ => startMeasure_core ..
  · exact firesQueued_core rfl (fun c e s ⟨ht, hb⟩ => calibMeasure_waits (s := opened s) e ht hb) fun _ _ _ =>
      (countWait_core ..).trans (setMaint_acts_core ..)
  · exact does_core (fun _ _ _ => rfl) rfl (fun _ => rfl) (fun c s _ _ _ => calibSliceRead_run c s.index (opened s)) fun _ _ => rfl
  · exact does_core (fun _ _ _ => rfl) rfl (fun _ => rfl) (fun _ _ _ _ _ => rfl) fun _ _ => rfl
  · exact begins_core (fun _ _ _ => rfl) rfl (fun _ => rfl) (fun c s _ _ h => maintStart_starts (s := opened s) s.index h) fun _ _ =>
      (countStart_core ..).trans (setMaint_acts_core ..)
  · exact queues_core (fun _ _ _ => rfl) rfl (fun _ => rfl) (fun c s _ _ h => maintStart_waits (s := opened s) s.index h) fun _ _ =>
      (countWait_core ..).trans (setMaint_acts_core ..)
  · exact does_core (fun _ _ _ => rfl) rfl (fun _ => rfl) (fun c s _ _ h => maintCancel_none (s := opened s) s.index h) fun _ _ => rfl
  · exact does_core (fun _ _ _ => rfl) rfl (fun _ => rfl) (fun _ _ _ _ _ => rfl) fun _ _ => core_if (setMaint_core ..) rfl

end Sys2Proof.Machine
end

section
/-! O39: the events of the monitor converter (R506-R509, R511). -/

namespace Sys2Proof.Machine

/-! ### What keeps the inputs of the converter -/

theorem startSequence_inputs (stream : Option McConversion) (s : State) : (startSequence stream s).mc.inputs = s.mc.inputs := by
  unfold startSequence
  split
  · rfl
  · split <;> rfl

theorem mcNext_inputs (stream : Option McConversion) (s : State) : (mcNext stream s).mc.inputs = s.mc.inputs := by
  unfold mcNext
  split
  · rfl
  · dsimp only
    split
    next => rfl
    next => split <;> rfl
    next => rfl
    next =>
      split
      · split
        · rfl
        · exact startSequence_inputs ..
      · exact startSequence_inputs ..

theorem applySequence_inputs (s : State) : (applySequence s).mc.inputs = s.mc.inputs := by
  unfold applySequence
  split <;> rfl

theorem mcHistory_inputs (e : List Word) (s : State) : (mcHistory e s).mc.inputs = s.mc.inputs := by
  unfold mcHistory
  split <;> rfl

theorem notify_mc (code : Nat) (pl : List Word) (i : Nat) (s : State) : (notify code pl i s).mc = s.mc := by rw [notify_frame]

theorem mcNotices_mc (old : McInput) (r : McConversion) (code value : Int) (ovr : Bool) (st : Bool × Bool) (s : State) :
    (mcNotices old r code value ovr st s).mc = s.mc := by
  unfold mcNotices
  dsimp only
  split <;> split <;> simp only [notify_mc]

theorem completeId_mc (id : Nat) (st : Status) (pl : List Word) (i : Nat) (s : State) : (completeId id st pl i s).mc = s.mc := by
  unfold completeId
  split
  · rw [complete_frame]
  · rfl

/-! ### A conversion that an MC_CONVERT asked for (R502, R510-R514) -/

/-- The voltage of an external input, from the modulator's (R503). -/
def mcValue (volts : Rat) : Int := roundDiv (limitCode (rawCode volts) * 1200000) (2 ^ 23)

/-- The result is over range (R502). -/
def mcOver (volts : Rat) (ov : Bool) : Bool := ov || limitCode (rawCode volts) != rawCode volts

/-- The limit states after the result (R514). -/
def mcLimits (r : McConversion) (volts : Rat) (s : State) : Bool × Bool := limitStates (mcInputOf s r.input) (mcValue volts)

/-- The entry of the result (R512). -/
def mcResult (r : McConversion) (volts : Rat) (ov : Bool) (s : State) : List Word :=
  mcEntry s r (limitCode (rawCode volts)) (mcValue volts) (mcOver volts ov) (mcLimits r volts s)

/-- The input and the history with the result in them. -/
def mcTaken (r : McConversion) (volts : Rat) (ov : Bool) (s : State) : State :=
  let s1 := setMcInput r.input (fun c => { c with
    latest := mcResult r volts ov s, highState := (mcLimits r volts s).1, lowState := (mcLimits r volts s).2, prevOvr := mcOver volts ov }) s
  mcHistory (mcResult r volts ov s) (if mcOver volts ov then setMc (fun u => { u with ovrResults := satAdd 32 u.ovrResults 1 }) s1 else s1)

theorem mcTaken_core (r : McConversion) (volts : Rat) (ov : Bool) (s : State) : core (mcTaken r volts ov s) = core s :=
  (mcHistory_core ..).trans (core_if ((setMc_core ..).trans (setMcInput_core ..)) (setMcInput_core ..))

theorem mcTaken_inputs (r : McConversion) (volts : Rat) (ov : Bool) (s : State) : (mcTaken r volts ov s).mc.inputs =
    modAt s.mc.inputs r.input fun c => { c with
      latest := mcResult r volts ov s, highState := (mcLimits r volts s).1, lowState := (mcLimits r volts s).2, prevOvr := mcOver volts ov } := by
  rw [mcTaken, mcHistory_inputs]
  split <;> rfl

/-- The state in which the next conversion starts, after the reply and the notices of this one. -/
def mcConverted (r : McConversion) (cmd : Nat) (volts : Rat) (ov : Bool) (s : State) : State :=
  mcNotices (mcInputOf s r.input) r (limitCode (rawCode volts)) (mcValue volts) (mcOver volts ov) (mcLimits r volts s)
    (completeId cmd .ok (mcResult r volts ov s) s.index (mcTaken r volts ov s))

section
variable {r : McConversion} {cmd : Nat} (volts : Rat) (value : Int) (ov : Bool) {s : State}

theorem mcDeliver_convert (hk : r.kind = .convert cmd) (hin : r.input < 16) : mcDeliver r volts value ov s = mcConverted r cmd volts ov s := by
  have hindex : (if mcOver volts ov then setMc (fun u => { u with ovrResults := satAdd 32 u.ovrResults 1 }) (setMcInput r.input (fun c => { c with
      latest := mcResult r volts ov s, highState := (mcLimits r volts s).1, lowState := (mcLimits r volts s).2, prevOvr := mcOver volts ov }) s)
      else setMcInput r.input (fun c => { c with
      latest := mcResult r volts ov s, highState := (mcLimits r volts s).1, lowState := (mcLimits r volts s).2, prevOvr := mcOver volts ov }) s).index
      = s.index := by
    split <;> rfl
  unfold mcDeliver
  simp only [hk, hin, if_true]
  rw [mcConverted, ← hindex]
  rfl

theorem evMcConversionEnd_convert (hr : s.mc.running = some r) (hk : r.kind = .convert cmd) (hin : r.input < 16) :
    evMcConversionEnd volts value ov s =
      mcNext none (applySequence (mcConverted r cmd volts ov (setMc (fun u => { u with running := none }) s))) := by
  unfold evMcConversionEnd
  simp only [hr, hk, Bool.false_eq_true, if_false, mcDeliver_convert volts value ov hk hin]

end

theorem ends_mcConverted (r : McConversion) (cmd : Nat) (volts : Rat) (ov : Bool) (s : State) : Ends s (mcConverted r cmd volts ov s) :=
  (ends_core (mcTaken_core ..)).trans ((ends_completeId ..).trans (ends_core (mcNotices_core ..)))

theorem mcConverted_gone (r : McConversion) (cmd : Nat) (volts : Rat) (ov : Bool) (s : State) :
    ((mcConverted r cmd volts ov s).cmds.any fun c => c.id == cmd) = false := by
  rw [mcConverted, core_cmds (mcNotices_core ..)]
  exact gone_completeId ..

theorem mcConverted_inputs (r : McConversion) (cmd : Nat) (volts : Rat) (ov : Bool) (s : State) :
    (mcConverted r cmd volts ov s).mc.inputs = (mcTaken r volts ov s).mc.inputs := by
  rw [mcConverted, mcNotices_mc, completeId_mc]

theorem after_mc (old : State) (f : State → State) (s : State) : (pairNotice old (repliesFirst f s)).mc = (f (opened s)).mc := by rw [after_frame]

theorem mcConvert_ends (volts : Rat) (value : Int) (ov : Bool) (r : McConversion) (cmd : Nat) : EventTo (fun k => .mcConversionEnd k volts value ov)
    (fun _ s => s.mc.running = some r ∧ r.kind = .convert cmd ∧ r.input < s.mc.inputs.length ∧ r.input < 16)
    (fun _ s t => (∃ st, (mcInputOf t r.input).latest = mcEntry s r (limitCode (rawCode volts)) (mcValue volts) (mcOver volts ov) st
        ∧ st = limitStates (mcInputOf s r.input) (mcValue volts))
      ∧ (t.cmds.any fun c => c.id == cmd) = false ∧ (∀ i, i ≠ r.input → mcInputOf t i = mcInputOf s i) ∧ t.time = s.time) := by
  have ends (s : State) : Ends s (mcNext none (applySequence (mcConverted r cmd volts ov (setMc (fun u => { u with running := none }) s)))) :=
    (ends_core (setMc_core (fun u => { u with running := none }) s)).trans
      ((ends_mcConverted ..).trans (ends_core ((mcNext_core ..).trans (applySequence_core _))))
  have run {s : State} (h : s.mc.running = some r ∧ r.kind = .convert cmd ∧ r.input < s.mc.inputs.length ∧ r.input < 16) :
      evMcConversionEnd volts value ov (opened s) =
        mcNext none (applySequence (mcConverted r cmd volts ov (setMc (fun u => { u with running := none }) (opened s)))) :=
    have ⟨hr, hk, _, hin⟩ := h
    evMcConversionEnd_convert (s := opened s) volts value ov hr hk hin
  refine eventTo_of (f := fun _ => evMcConversionEnd volts value ov) (fun _ _ => rfl) (fun k s h hs => ?_) fun k s t old h he ht => ?_
  · rw [run h]
    exact (opened_calm hs).ends (ends _)
  · rw [run h] at he
    have hinputs : t.mc.inputs = modAt s.mc.inputs r.input fun c => { c with
        latest := mcResult r volts ov s, highState := (mcLimits r volts s).1, lowState := (mcLimits r volts s).2, prevOvr := mcOver volts ov } := by
      rw [ht, after_mc, run h, mcNext_inputs, applySequence_inputs, mcConverted_inputs, mcTaken_inputs]
      rfl
    obtain ⟨_, _, hlen, _⟩ := h
    refine ⟨⟨_, ?_, rfl⟩, ?_, fun i hi => ?_, he.time.trans (ends (opened s)).time⟩
    · rw [mcInputOf, hinputs, getD_modAt_same hlen]
      rfl
    · refine he.gone ?_
      rw [core_cmds ((mcNext_core ..).trans (applySequence_core _))]
      exact mcConverted_gone ..
    · rw [mcInputOf, hinputs, getD_modAt_ne hi]
      rfl

/-! ### The pass over the system inputs (R508) -/

theorem evMcSystemPass_due {s : State} (h : s.mc.running.isSome = true) : evMcSystemPass s = { s with mc := { s.mc with sysDue := true } } := by
  have hrun : (setMc (fun u => { u with sysDue := true }) s).mc.running.isSome = true := h
  rw [evMcSystemPass, mcNext, if_pos hrun]
  rfl

/-- The first input of the pass is the first of the system inputs. -/
theorem systemInputs_first {s : State} {i : Nat} {l : List Nat} (h : (systemInputs s).filter (fun i => decide (16 ≤ i)) = i :: l) :
    (systemInputs s).find? (fun i => decide (16 ≤ i)) = some i := by
  rw [← List.head?_filter, h, List.head?_cons]

theorem evMcSystemPass_starts {s : State} {i : Nat} {l : List Nat} (hr : s.mc.running = none) (hu : s.mc.urgents = []) (ha : s.mc.aborted = none)
    (hc : s.mc.converts = []) (hcores : coresRun s = true) (hpos : s.mc.sysPos = 0)
    (hl : (systemInputs s).filter (fun i => decide (16 ≤ i)) = i :: l) :
    (evMcSystemPass s).mc.running = some (systemConversion s i false) := by
  have hfirst : (systemInputs (setMc (fun u => { u with sysDue := true }) s)).find? (fun i => decide (16 ≤ i)) = some i := systemInputs_first hl
  have hcores' : coresRun (setMc (fun u => { u with sysDue := true }) s) = true := hcores
  have hmc : (setMc (fun u => { u with sysDue := true }) s).mc = { s.mc with sysDue := true } := rfl
  simp only [evMcSystemPass, mcNext, hmc, hr, hu, ha, hc, hpos, Option.isSome_none, Bool.false_eq_true, if_false, Nat.max_zero, hfirst, hcores',
    Bool.and_self, Bool.or_true, if_true]
  rfl

theorem mcSystemPass_starts (i : Nat) (l : List Nat) : EventTo (fun k => .mcSystemPass k)
    (fun _ s => s.mc.running = none ∧ s.mc.urgents = [] ∧ s.mc.aborted = none ∧ s.mc.converts = [] ∧ coresRun s = true ∧ s.mc.sysPos = 0
      ∧ (systemInputs s).filter (fun i => decide (16 ≤ i)) = i :: l)
    (fun _ _ t => ∃ r, t.mc.running = some r ∧ r.input = i ∧ r.kind = .system) := by
  refine eventTo_of (f := fun _ => evMcSystemPass) (fun _ _ => rfl) (fun k s _ hs => (opened_calm hs).core (evMcSystemPass_core _)) fun k s t old h _ ht => ?_
  obtain ⟨hr, hu, ha, hc, hcores, hpos, hl⟩ := h
  refine ⟨systemConversion s i false, ?_, rfl, rfl⟩
  rw [ht, after_mc, evMcSystemPass_starts (s := opened s) hr hu ha hc hcores hpos hl]
  rfl

/-! ### The obligation -/

/-- Settles O39: what a conversion leaves is `mcConverted`, and what a pass starts is `evMcSystemPass_starts`. -/
theorem monitorEvents : Obligations.MonitorEvents := by
  unfold Obligations.MonitorEvents
  refine ⟨mcConvert_ends, fun volts value ov => ?_, ?_, mcSystemPass_starts⟩
  · refine event_idle (f := fun _ => evMcConversionEnd volts value ov) (fun _ _ => rfl) fun _ s h => ?_
    have hr : (opened s).mc.running = none := h
    rw [evMcConversionEnd, hr]
  · exact event_of_core (f := fun _ => evMcSystemPass) (fun _ _ => rfl) (fun _ s h => evMcSystemPass_due (s := opened s) h) fun _ _ => core_mk ..

end Sys2Proof.Machine
end

section
/-! O40: the calibration of the TDC lines (R477-R479, R533) and the maintenance arbiter (R531, R538). -/

namespace Sys2Proof.Machine

/-- What an event of the TDC or of the arbiter leaves in their units, where it leaves the core of the state. -/
theorem eventTo_arbiter {f : Nat → State → State} {ev : Nat → Instr} {pre : Nat → State → Prop} {post : Nat → State → State → Prop}
    (hrow : ∀ k s, exec (ev k) s = runEvent (f k) k s) (hc : ∀ k s, core (f k s) = core s)
    (h : ∀ k s t, pre k s → t.tdc = (f k (opened s)).tdc → t.maint = (f k (opened s)).maint → t.time = s.time → t.cmds = s.cmds → post k s t) :
    EventTo ev pre post :=
  eventTo_of hrow (fun k _ _ hs => (opened_calm hs).core (hc k _)) fun k s t old hp _ ht =>
    have hcore : core t = core s := ht ▸ (pairNotice_core ..).trans ((repliesFirst_opened ..).trans ((hc k _).trans (opened_core s)))
    h k s t hp (by rw [ht, after_frame]) (by rw [ht, after_frame]) (core_time hcore) (core_cmds hcore)

/-! ### What a dwell that is due or starts leaves -/

theorem pumpDwell_tdc (s : State) : (pumpDwell s).tdc = s.tdc := by rw [pumpDwell_frame]

theorem countWait_frame (codes : List Nat) (s : State) : countWait codes s = { s with maint := (countWait codes s).maint } :=
  foldl_setMaint_frame codes _ s

theorem dwellDue_tdc (s : State) : (dwellDue s).tdc = s.tdc := by
  unfold dwellDue
  dsimp only
  split
  · rfl
  · split
    · rw [countWait_frame, pumpDwell_tdc]
      rfl
    · rw [pumpDwell_tdc]
      rfl

theorem pumpDwell_priority (s : State) : (pumpDwell s).maint.priority = s.maint.priority := by
  unfold pumpDwell
  split
  · rfl
  · split
    · exact foldl_setMaint_keeps MaintUnit.priority _ _ (fun _ _ => by rfl) _
    · rfl

theorem dwellDue_priority (s : State) : (dwellDue s).maint.priority = s.maint.priority := by
  have hwait (codes : List Nat) (a : State) : (countWait codes a).maint.priority = a.maint.priority :=
    foldl_setMaint_keeps MaintUnit.priority codes _ (fun _ _ => by rfl) a
  unfold dwellDue
  dsimp only
  split
  · rfl
  · split
    · rw [hwait, pumpDwell_priority]
      rfl
    · rw [pumpDwell_priority]
      rfl

/-! ### The end of a dwell (R477, R478) -/

section
variable {hits : List Nat} {d : Nat} {s : State} (hd : s.maint.dwell = some d) (hdone : d + dwellSamples ≤ s.index) (hdel : delivering s = true)
include hd hdone hdel

/-- The spare has its table, and relieves the line of the next input. -/
theorem evTdcDwellEnd_relieves (hmiss : 2 ^ 20 - hits.sum ≤ 1024) : evTdcDwellEnd hits s =
    dwellDue (setTdc (fun u => { u with spare := (tdcInputOf s s.tdc.relief).line, relief := (s.tdc.relief + 1) % 12 })
      (setTdcInput s.tdc.relief (fun x => { x with line := s.tdc.spare })
        (setTdcLine s.tdc.spare (calibrateLine (endDwell s) hits) (endDwell s)))) := by
  unfold evTdcDwellEnd
  simp only [hd, not_lt.mpr hdone, hdel, not_lt.mpr hmiss, decide_false, Bool.not_true, Bool.or_false, Bool.false_eq_true, if_false]

/-- The spare is too short: it is retired, and the rotation stops. -/
theorem evTdcDwellEnd_retires (hmiss : 1024 < 2 ^ 20 - hits.sum) : evTdcDwellEnd hits s =
    notify 0x0D03 [BitVec.ofNat 32 s.tdc.spare] s.index (bbWrite 0x0D s.tdc.spare 0x0D03 [BitVec.ofNat 32 s.tdc.spare] s.index
      (setTdc (fun u => { u with rotating := false })
        (setTdcLine s.tdc.spare (fun l => { l with retired := true, dnl := dnlMax hits, misses := 2 ^ 20 - hits.sum }) (endDwell s)))) := by
  unfold evTdcDwellEnd
  simp only [hd, not_lt.mpr hdone, hdel, hmiss, decide_false, Bool.not_true, Bool.or_false, Bool.false_eq_true, if_false, if_true]

end

theorem evTdcDwellEnd_none {hits : List Nat} {s : State} (h : s.maint.dwell = none) : evTdcDwellEnd hits s = s := by
  rw [evTdcDwellEnd, h]

theorem endDwell_priority (s : State) : (endDwell s).maint.priority = false := rfl

theorem endDwell_inputs (s : State) : (endDwell s).tdc.inputs = s.tdc.inputs := rfl

theorem endDwell_spare (s : State) : (endDwell s).tdc.spare = s.tdc.spare := rfl

theorem endDwell_counts (s : State) : (endDwell s).tdc.dwells = s.tdc.dwells + 1 := rfl

theorem endDwell_rotating (s : State) : (endDwell s).tdc.rotating = s.tdc.rotating := rfl

theorem tdcDwellEnd_relieves (hits : List Nat) (d : Nat) : EventTo (fun k => .tdcDwellEnd k hits)
    (fun _ s => s.maint.dwell = some d ∧ d + dwellSamples ≤ s.index ∧ delivering s = true ∧ 2 ^ 20 - hits.sum ≤ 1024
      ∧ s.tdc.relief < s.tdc.inputs.length ∧ s.tdc.spare < s.tdc.lines.length)
    (fun _ s t => (tdcInputOf t s.tdc.relief).line = s.tdc.spare ∧ t.tdc.spare = (tdcInputOf s s.tdc.relief).line
      ∧ (t.tdc.lines.getD s.tdc.spare default).table = tapTable 0 hits
      ∧ t.tdc.relief = (s.tdc.relief + 1) % 12 ∧ t.tdc.dwells = s.tdc.dwells + 1 ∧ t.tdc.rotating = s.tdc.rotating ∧ t.maint.priority = false
      ∧ t.time = s.time ∧ t.cmds = s.cmds) := by
  refine eventTo_arbiter (f := fun _ => evTdcDwellEnd hits) (fun _ _ => rfl) (fun _ _ => evTdcDwellEnd_core ..) ?_
  intro k s t h htdc hmaint htime hcmds
  obtain ⟨hd, hdone, hdel, hmiss, hrelief, hspare⟩ := h
  rw [evTdcDwellEnd_relieves (s := opened s) hd hdone hdel hmiss] at htdc hmaint
  rw [dwellDue_tdc] at htdc
  replace htdc : t.tdc = { (endDwell s).tdc with
      lines := modAt s.tdc.lines s.tdc.spare (calibrateLine (endDwell s) hits),
      inputs := modAt s.tdc.inputs s.tdc.relief fun x => { x with line := s.tdc.spare },
      spare := (tdcInputOf s s.tdc.relief).line, relief := (s.tdc.relief + 1) % 12 } := htdc
  have hpriority : t.maint.priority = (endDwell (opened s)).maint.priority := by
    rw [hmaint, dwellDue_priority]
    rfl
  refine ⟨?_, by rw [htdc], ?_, by rw [htdc], by rw [htdc, endDwell_counts], by rw [htdc, endDwell_rotating], hpriority.trans (endDwell_priority _),
    htime, hcmds⟩
  · rw [tdcInputOf, htdc, getD_modAt_same hrelief]
  · rw [htdc, getD_modAt_same hspare, calibrateLine]

theorem tdcDwellEnd_retires (hits : List Nat) (d : Nat) : EventTo (fun k => .tdcDwellEnd k hits)
    (fun _ s => s.maint.dwell = some d ∧ d + dwellSamples ≤ s.index ∧ delivering s = true ∧ 1024 < 2 ^ 20 - hits.sum
      ∧ s.tdc.spare < s.tdc.lines.length)
    (fun _ s t => t.tdc.rotating = false ∧ (t.tdc.lines.getD s.tdc.spare default).retired = true ∧ t.tdc.inputs = s.tdc.inputs ∧ t.maint.dwell = none
      ∧ t.tdc.spare = s.tdc.spare) := by
  refine eventTo_arbiter (f := fun _ => evTdcDwellEnd hits) (fun _ _ => rfl) (fun _ _ => evTdcDwellEnd_core ..) ?_
  intro k s t h htdc hmaint _ _
  obtain ⟨hd, hdone, hdel, hmiss, hspare⟩ := h
  rw [evTdcDwellEnd_retires (s := opened s) hd hdone hdel hmiss, notify_frame, bbWrite_frame] at htdc hmaint
  replace htdc : t.tdc = { (endDwell s).tdc with
      lines := modAt s.tdc.lines s.tdc.spare fun l => { l with retired := true, dnl := dnlMax hits, misses := 2 ^ 20 - hits.sum },
      rotating := false } := htdc
  refine ⟨by rw [htdc], ?_, by rw [htdc, endDwell_inputs], congrArg MaintUnit.dwell hmaint, by rw [htdc, endDwell_spare]⟩
  rw [htdc, getD_modAt_same hspare]

/-! ### The tables of all lines (R479) -/

/-- Each line with its table from the hits of its taps. -/
def calibratedLines (s : State) (hits : List (List Nat)) : List TdcLine := s.tdc.lines.zipIdx.map fun x => calibrateLine s (hits.getD x.2 []) x.1

theorem evTdcTablesReady_ready {hits : List (List Nat)} {s : State} (hn : s.tdc.notReady = true) (hl : locked s = true) : evTdcTablesReady hits s =
    dwellDue (clearWay (fun a => holdsTdr a.codes)
      (setTdc (fun u => { u with notReady := false, relief := 0, lines := calibratedLines s hits }) s)) := by
  simp only [evTdcTablesReady, hn, hl, Bool.not_true, Bool.or_self, Bool.false_eq_true, if_false]
  rfl

theorem evTdcTablesReady_done {hits : List (List Nat)} {s : State} (hn : s.tdc.notReady = false) : evTdcTablesReady hits s = s := by
  simp only [evTdcTablesReady, hn, Bool.not_false, Bool.true_or, if_true]

theorem calibratedLines_length (s : State) (hits : List (List Nat)) : (calibratedLines s hits).length = s.tdc.lines.length := by
  simp [calibratedLines]

theorem calibratedLines_at {s : State} {hits : List (List Nat)} {l : TdcLine} (h : l ∈ calibratedLines s hits) :
    l.calIndex = s.index ∧ l.calDwell = s.tdc.dwells := by
  obtain ⟨_, _, rfl⟩ := List.mem_map.mp h
  exact ⟨rfl, rfl⟩

theorem tdcTablesReady_ready (hits : List (List Nat)) : EventTo (fun k => .tdcTablesReady k hits) (fun _ s => s.tdc.notReady = true ∧ locked s = true)
    (fun _ s t => t.tdc.notReady = false ∧ t.tdc.relief = 0 ∧ t.tdc.lines.length = s.tdc.lines.length
      ∧ (∀ l ∈ t.tdc.lines, l.calIndex = s.index ∧ l.calDwell = s.tdc.dwells) ∧ t.time = s.time ∧ t.cmds = s.cmds) := by
  refine eventTo_arbiter (f := fun _ => evTdcTablesReady hits) (fun _ _ => rfl) (fun _ _ => evTdcTablesReady_core ..) ?_
  intro k s t ⟨hn, hl⟩ htdc _ htime hcmds
  rw [evTdcTablesReady_ready (s := opened s) hn hl, dwellDue_tdc] at htdc
  have hlines : t.tdc.lines = calibratedLines (opened s) hits := congrArg TdcUnit.lines htdc
  refine ⟨congrArg TdcUnit.notReady htdc, congrArg TdcUnit.relief htdc, ?_, fun l h => ?_, htime, hcmds⟩
  · rw [hlines, calibratedLines_length]
    rfl
  · rw [hlines] at h
    exact calibratedLines_at h

/-! ### The priority of a deferred dwell (R533) -/

/-- The running probes are to suspend, and the dwell is ahead. -/
def priorityTaken (s : State) : State :=
  (s.maint.acts.filter fun a => a.running && holdsTdr a.codes).foldl (fun a x => setTdcSlot x.key (fun t => { t with suspend := true }) a)
    (setMaint (fun m => { m with priority := true }) s)

theorem priorityTaken_maint (s : State) : (priorityTaken s).maint = { s.maint with priority := true } :=
  List.foldlRecOn (motive := fun a : State => a.maint = { s.maint with priority := true }) _ _ rfl fun _ h _ _ => h

theorem evTdcCalPriority_taken {d : Nat} {s : State} (hd : s.maint.deferred = some d) (hr : s.tdc.rotating = true)
    (hs : d + fsOf s.time ≤ s.index) (hp : s.maint.priority = false) : evTdcCalPriority s = pumpDwell (priorityTaken s) := by
  simp only [evTdcCalPriority, hd, hr, hp, not_lt.mpr hs, decide_false, Bool.not_true, Bool.or_self, Bool.false_eq_true, if_false]
  rfl

theorem evTdcCalPriority_idle {s : State} (h : s.maint.deferred = none ∨ s.tdc.rotating = false ∨ s.maint.priority = true) :
    evTdcCalPriority s = s := by
  unfold evTdcCalPriority
  split
  next => rfl
  next d hd =>
    rcases h with hn | hr | hp
    · rw [hn] at hd
      cases hd
    · simp [hr]
    · simp [hp]

theorem tdcCalPriority_taken (d : Nat) : EventTo (fun k => .tdcCalPriority k)
    (fun _ s => s.maint.deferred = some d ∧ s.tdc.rotating = true ∧ d + fsOf s.time ≤ s.index ∧ s.maint.priority = false)
    (fun _ s t => t.maint.priority = true ∧ t.maint.acts = s.maint.acts ∧ t.time = s.time ∧ t.cmds = s.cmds) := by
  refine eventTo_arbiter (f := fun _ => evTdcCalPriority) (fun _ _ => rfl) (fun _ _ => evTdcCalPriority_core ..) ?_
  intro k s t ⟨hd, hr, hs, hp⟩ _ hmaint htime hcmds
  rw [evTdcCalPriority_taken (s := opened s) hd hr hs hp] at hmaint
  refine ⟨?_, ?_, htime, hcmds⟩
  · rw [hmaint, pumpDwell_priority, priorityTaken_maint]
  · rw [hmaint, pumpDwell_acts, priorityTaken_maint]
    rfl

/-! ### The start of an activity (R531) -/

/-- The activity starts at the next boundary. -/
def startedAt (a : Activity) (s : State) : State :=
  setMaint (fun m => { m with acts := m.acts.map fun x => if x.cmd == a.cmd then { x with start := some (nextBoundary s.index) } else x }) s

/-- A measurement may not start now: the status of its command. -/
def measureRefusal (s : State) : Status := if locked s then .mode else .clock

section
variable {a : Activity} {s : State} (hn : nextStart s = some a)
include hn

theorem evActivityStart_later (hw : wayClear s a = false) : evActivityStart s = s := by
  simp only [evActivityStart, hn, hw, Bool.not_false, if_true]

variable (hw : wayClear s a = true)
include hw

theorem evActivityStart_pass (hc : a.codes = [3]) :
    evActivityStart s = countStart [3] (some a.waitFrom) (nextBoundary s.index) (startedAt a s) := by
  have htdr : holdsTdr a.codes = false := by rw [hc]; rfl
  have hsix : a.codes.contains 6 = false := by rw [hc]; rfl
  simp only [evActivityStart, hn, hw, htdr, hsix, Bool.not_true, Bool.false_eq_true, if_false]
  rw [hc]
  rfl

theorem evActivityStart_refused {c : Cmd} (hsix : a.codes.contains 6 = true) (htdr : holdsTdr a.codes = false) (hcmd : cmdById s a.cmd = some c)
    (hno : locked s = false ∨ runMode s ≠ .calibrate) :
    evActivityStart s = completeId a.cmd (measureRefusal s) [] s.index (endActivity (fun x => x.cmd == a.cmd) s) := by
  simp only [evActivityStart, hn, hw, htdr, hsix, hcmd, Bool.not_true, Bool.false_eq_true, if_false, if_true]
  cases hl : locked s with
  | false => simp [measureRefusal, hl]
  | true =>
    have hmode : runMode s ≠ .calibrate := hno.resolve_left (by simp [hl])
    simp [measureRefusal, hl, hmode]

end

theorem evActivityStart_idle {s : State} (h : nextStart s = none) : evActivityStart s = s := by
  rw [evActivityStart, h]

theorem activityStart_pass (a : Activity) : EventTo (fun k => .activityStart k)
    (fun _ s => nextStart s = some a ∧ wayClear s a = true ∧ a.codes = [3])
    (fun _ s t => t.maint.acts = s.maint.acts.map (fun x => if x.cmd == a.cmd then { x with start := some (nextBoundary s.index) } else x)
      ∧ t.cmds = s.cmds ∧ t.time = s.time) := by
  have hcore (s : State) : core (countStart [3] (some a.waitFrom) (nextBoundary s.index) (startedAt a s)) = core s :=
    (countStart_core ..).trans (setMaint_core ..)
  have run {s : State} (h : nextStart s = some a ∧ wayClear s a = true ∧ a.codes = [3]) :
      evActivityStart (opened s) = countStart [3] (some a.waitFrom) (nextBoundary s.index) (startedAt a (opened s)) :=
    have ⟨hn, hw, hc⟩ := h
    evActivityStart_pass (s := opened s) hn hw hc
  refine eventTo_of (f := fun _ => evActivityStart) (fun _ _ => rfl) (fun k s h hs => ?_) fun k s t old h he ht => ?_
  · rw [run h]
    exact (opened_calm hs).core (hcore (opened s))
  · have ht' : core t = core s := ht ▸ (pairNotice_core ..).trans ((repliesFirst_opened ..).trans (run h ▸ (hcore (opened s)).trans (opened_core s)))
    refine ⟨?_, core_cmds ht', core_time ht'⟩
    rw [ht, after_maint, run h, countStart_acts]
    rfl

/-! ### The end of a measurement (R538-R540) -/

/-- A command and its activity end together. -/
def endsWith (id : Nat) (st : Status) (pl : List Word) (i : Nat) (u : State) : State := completeId id st pl i (endActivity (fun x => x.cmd == id) u)

theorem ends_endsWith (id : Nat) (st : Status) (pl : List Word) (i : Nat) (u : State) : Ends u (endsWith id st pl i u) :=
  (ends_core (endActivity_core ..)).trans (ends_completeId ..)

/-- After an event that ends a command with its activity, neither is left. -/
theorem eventTo_endsWith {f : State → State} {ev : Nat → Instr} {pre : Nat → State → Prop} {id : Nat} (hrow : ∀ k s, exec (ev k) s = runEvent f k s)
    (hrun : ∀ k s, pre k s → ∃ st pl i u, core u = core s ∧ f (opened s) = endsWith id st pl i u) :
    EventTo ev pre fun _ s t => (t.maint.acts.any fun x => x.cmd == id) = false ∧ (t.cmds.any fun d => d.id == id) = false ∧ t.time = s.time := by
  refine eventTo_of (f := fun _ => f) hrow (fun k s h hs => ?_) fun k s t old h he ht => ?_
  · obtain ⟨st, pl, i, u, hu, hf⟩ := hrun k s h
    rw [hf]
    exact (hs.core hu).ends (ends_endsWith ..)
  · obtain ⟨st, pl, i, u, hu, hf⟩ := hrun k s h
    rw [hf] at he
    refine ⟨?_, he.gone (gone_completeId ..), ?_⟩
    · rw [ht, after_maint, hf, endsWith, completeId_maint]
      exact endActivity_gone ..
    · exact he.time.trans ((ends_endsWith ..).time.trans (core_time hu))

theorem activityStart_refused (a : Activity) (c : Cmd) : EventTo (fun k => .activityStart k)
    (fun _ s => nextStart s = some a ∧ wayClear s a = true ∧ a.codes.contains 6 = true ∧ holdsTdr a.codes = false ∧ cmdById s a.cmd = some c
      ∧ (locked s = false ∨ runMode s ≠ .calibrate))
    (fun _ s t => (t.maint.acts.any fun x => x.cmd == a.cmd) = false ∧ (t.cmds.any fun d => d.id == a.cmd) = false ∧ t.time = s.time) :=
  eventTo_endsWith (f := evActivityStart) (fun _ _ => rfl) fun _ s ⟨hn, hw, hsix, htdr, hcmd, hno⟩ =>
    ⟨_, _, _, opened s, opened_core s, evActivityStart_refused (s := opened s) hn hw hsix htdr hcmd hno⟩

/-- The measurement that runs. -/
def measureRunning (s : State) : Option Activity := s.maint.acts.find? fun a => a.running && a.codes.contains 6

theorem evCalMeasureEnd_ends {a : Activity} {c : Cmd} {e : Nat} {s : State} (ha : measureRunning s = some a) (hcmd : cmdById s a.cmd = some c)
    (he : a.start = some e) (hdone : e + a.length ≤ s.index + 1) (hdel : delivering s = true) :
    ∃ pl u, core u = core s ∧ evCalMeasureEnd [] s = endsWith a.cmd .ok pl e u := by
  have hbring : bringVolts [] s = s := rfl
  unfold measureRunning at ha
  simp only [evCalMeasureEnd, hbring, ha, hcmd, he, not_lt.mpr hdone, hdel, decide_false, Bool.not_true, Bool.or_self, Bool.false_eq_true, if_false]
  refine ⟨_, _, core_blocks _ _ _ fun r ch => ?_, rfl⟩
  exact measureBlock_core ..

theorem evCalMeasureEnd_idle {s : State} (h : measureRunning s = none ∨ delivering s = false) : evCalMeasureEnd [] s = s := by
  have hbring : bringVolts [] s = s := rfl
  unfold measureRunning at h
  simp only [evCalMeasureEnd, hbring]
  rcases h with hn | hd
  · rw [hn]
  · split
    · rfl
    · split
      · simp [hd]
      · rfl

theorem calMeasureEnd_ends (a : Activity) (c : Cmd) (e : Nat) : EventTo (fun k => .calMeasureEnd k [])
    (fun _ s => (s.maint.acts.find? fun a => a.running && a.codes.contains 6) = some a ∧ cmdById s a.cmd = some c ∧ a.start = some e
      ∧ e + a.length ≤ s.index + 1 ∧ delivering s = true)
    (fun _ s t => (t.maint.acts.any fun x => x.cmd == a.cmd) = false ∧ (t.cmds.any fun d => d.id == a.cmd) = false ∧ t.time = s.time) :=
  eventTo_endsWith (f := evCalMeasureEnd []) (fun _ _ => rfl) fun _ s ⟨ha, hcmd, he, hdone, hdel⟩ =>
    have ⟨pl, u, hu, hrun⟩ := evCalMeasureEnd_ends (s := opened s) ha hcmd he hdone hdel
    ⟨.ok, pl, e, u, hu.trans (opened_core s), hrun⟩

/-! ### The obligation -/

/-- Settles O40, event by event: each by what it leaves where its condition holds, and by its idling elsewhere. -/
theorem maintenanceEvents : Obligations.MaintenanceEvents := by
  unfold Obligations.MaintenanceEvents
  refine ⟨tdcDwellEnd_relieves, tdcDwellEnd_retires, fun hits => ?_, tdcTablesReady_ready, fun hits => ?_, tdcCalPriority_taken, ?_, ?_, fun a => ?_,
    activityStart_pass, activityStart_refused, calMeasureEnd_ends, ?_⟩
  · exact event_idle (f := fun _ => evTdcDwellEnd hits) (fun _ _ => rfl) fun _ s h => evTdcDwellEnd_none (s := opened s) h
  · exact event_idle (f := fun _ => evTdcTablesReady hits) (fun _ _ => rfl) fun _ s h => evTdcTablesReady_done (s := opened s) h
  · exact event_idle (f := fun _ => evTdcCalPriority) (fun _ _ => rfl) fun _ s h => evTdcCalPriority_idle (s := opened s) h
  · exact event_idle (f := fun _ => evActivityStart) (fun _ _ => rfl) fun _ s h => evActivityStart_idle (s := opened s) h
  · exact event_idle (f := fun _ => evActivityStart) (fun _ _ => rfl) fun _ s ⟨hn, hw⟩ => evActivityStart_later (s := opened s) hn hw
  · exact event_idle (f := fun _ => evCalMeasureEnd []) (fun _ _ => rfl) fun _ s h => evCalMeasureEnd_idle (s := opened s) h

end Sys2Proof.Machine
end

section
/-! O17: the commands of the display (R560-R562, R568, R572-R578). -/

namespace Sys2Proof.Machine

/-! ### A display command told by the display after it -/

theorem passTo_disp (k : Nat) (s : State) : (passTo k s).disp = s.disp := by rw [passTo_frame]

theorem rowState_disp (k : Nat) (p : Packet) (s : State) : (opened (rowState k p s)).disp = s.disp := passTo_disp k s

theorem rowState_pool (k : Nat) (p : Packet) (s : State) : (opened (rowState k p s)).pool = s.pool := by
  show (passTo k s).pool = s.pool
  rw [passTo_frame]

theorem repliesFirst_disp (f : State → State) (s : State) : (repliesFirst f s).disp = (f (opened s)).disp := by
  unfold repliesFirst
  split
  · next l h => rw [show opened s = s by unfold opened; rw [h, Option.getD_some, ← h]]
  · next h =>
    rw [show opened s = { s with aside := some [] } by unfold opened; rw [h, Option.getD_none], sendAside_frame]

/-- The row of an accepted command that completes at once leaves the display and the pool as its effect left them. -/
theorem row_displays {sp : CmdSpec} {k : Nat} {p : Packet} {s u : State} {st : Status} {words : List Word} (ha : accepted sp k p s = true)
    (hsp : specOf sp.opcode = some sp) (hno : sp.timed (rowCmd k p s) = .no) (hl : sp.lead (rowCmd k p s) = none)
    (hr : sp.run (rowCmd k p s) (rowState k p s).index (opened (rowState k p s)) = (u, .done st words)) (he : Ends (opened (rowState k p s)) u) :
    ∃ t, runRow sp k p s = .next t ∧ t.disp = u.disp ∧ t.pool = u.pool := by
  obtain ⟨t, hrun, ht⟩ := row_served ha hsp (accepted_untimed ha hno) hl hr ((ends_core (opened_core _)).trans he)
  exact ⟨t, hrun, ht.disp, ht.pool⟩

/-- A free value that is taken changes nothing else. -/
theorem genLine_frame (s : State) : (genLine s).2 = { s with free := (genLine s).2.free } := by
  unfold genLine
  dsimp only
  split <;> rfl

theorem genLine_disp (s : State) : (genLine s).2.disp = s.disp := by rw [genLine_frame]

theorem genLine_pool (s : State) : (genLine s).2.pool = s.pool := by rw [genLine_frame]

/-! ### DISP_TIMING (R572) -/

/-- The active area changes its size. -/
def areaMoves (t : DispTiming) (s : State) : Bool := t.hact != s.disp.timing.hact || t.vact != s.disp.timing.vact

/-- Every layer off. -/
def layersOff (l : List DispLayer) : List DispLayer := l.map fun x => { x with en := false }

/-- The display with its new timing. -/
def retimed (t : DispTiming) (s : State) : State :=
  (takeFree (setDisp (fun u => { u with
    timing := t, pending := if areaMoves t s then layersOff u.pending else u.pending,
    latched := if areaMoves t s then { u.latched with layers := layersOff u.latched.layers } else u.latched }) s)).2

theorem dispTiming_run (c : Cmd) (e : Nat) (s : State) : ∃ words, specDispTiming.run c e s = (retimed (timingOf c) s, .done .ok words) := ⟨_, rfl⟩

theorem retimed_core (t : DispTiming) (s : State) : core (retimed t s) = core s := (takeFree_core _).trans (setDisp_core ..)

theorem retimed_same {t : DispTiming} {s : State} (h : t.hact = s.disp.timing.hact) (v : t.vact = s.disp.timing.vact) :
    (retimed t s).disp.pending = s.disp.pending ∧ (retimed t s).disp.latched = s.disp.latched := by
  have hmoves : areaMoves t s = false := by simp [areaMoves, h, v]
  simp only [retimed, hmoves]
  exact ⟨rfl, rfl⟩

theorem retimed_moved {t : DispTiming} {s : State} (h : t.hact ≠ s.disp.timing.hact ∨ t.vact ≠ s.disp.timing.vact) :
    (retimed t s).disp.pending = layersOff s.disp.pending ∧ (retimed t s).disp.latched.layers = layersOff s.disp.latched.layers := by
  have hmoves : areaMoves t s = true := by simpa [areaMoves] using h
  simp only [retimed, hmoves]
  exact ⟨rfl, rfl⟩

theorem dispTiming_leaves (k : Nat) (p : Packet) (s : State) (ha : accepted specDispTiming k p s = true) : ∃ t, exec (.dispTiming k p) s = .next t
    ∧ t.disp.timing = timingOf (rowCmd k p s) ∧ t.disp.mode = s.disp.mode
    ∧ (t.disp.timing.hact = s.disp.timing.hact → t.disp.timing.vact = s.disp.timing.vact →
        t.disp.pending = s.disp.pending ∧ t.disp.latched = s.disp.latched)
    ∧ (t.disp.timing.hact ≠ s.disp.timing.hact ∨ t.disp.timing.vact ≠ s.disp.timing.vact →
        t.disp.pending = s.disp.pending.map (fun x => { x with en := false })
        ∧ t.disp.latched.layers = s.disp.latched.layers.map (fun x => { x with en := false })) := by
  obtain ⟨words, hr⟩ := dispTiming_run (rowCmd k p s) (rowState k p s).index (opened (rowState k p s))
  obtain ⟨t, hrun, hdisp, -⟩ := row_displays ha rfl rfl rfl hr (ends_core (retimed_core ..))
  have hs := rowState_disp k p s
  have htiming : t.disp.timing = timingOf (rowCmd k p s) := congrArg DispUnit.timing hdisp
  have hmode : t.disp.mode = (opened (rowState k p s)).disp.mode := (congrArg DispUnit.mode hdisp).trans rfl
  rw [← hs]
  refine ⟨t, hrun, htiming, hmode, fun hh hv => ?_, fun hmove => ?_⟩
  · rw [hdisp]
    rw [htiming] at hh hv
    exact retimed_same hh hv
  · rw [hdisp]
    rw [htiming] at hmove
    exact retimed_moved hmove

/-! ### DISP_ENABLE (R573) -/

/-- The state that a DISP_ENABLE asks for. -/
def dispModeOf (c : Cmd) : DispMode := if c.arg 0 1 0 = 0 then .off else if c.arg 0 1 0 = 1 then .link else .run

/-- The notices of the frame starts on or off. -/
def vblankSet (c : Cmd) (s : State) : State := setDisp (fun u => { u with vblank := c.flag 0 8 }) s

/-- RUN, the mode `m`, begins. -/
def runEntered (m : DispMode) (s : State) : State :=
  calibrateSkew (setDisp (fun u => { u with mode := m, running := false, pastLatch := false, teReady := false, teLost := false, fsIndex := s.index }) s)

/-- RUN is to be left at the next frame start. -/
def leavingRun (m : DispMode) (c : Cmd) (s : State) : State :=
  setDisp (fun u => { u with leaving := some (m, (match s.disp.leaving with | some (_, l) => l | none => []) ++ [c.id]) }) s

/-- What a DISP_ENABLE does once the notices are set. -/
def modeEntered (m : DispMode) (c : Cmd) (s : State) : State × Fate :=
  if s.disp.mode == m then (s, .done .ok [])
  else if s.disp.mode == .run then
    if s.disp.running then (leavingRun m c s, .later) else (leaveRun m [] s, .done .ok [])
  else if m == .run then (runEntered m s, .done .ok [])
  else (leaveRun m [] s, .done .ok [])

theorem dispEnable_run (c : Cmd) (e : Nat) (s : State) : specDispEnable.run c e s = modeEntered (dispModeOf c) c (vblankSet c s) := rfl

section
variable {m : DispMode} {c : Cmd} {s : State}

theorem modeEntered_same (h : s.disp.mode = m) : modeEntered m c s = (s, .done .ok []) := by
  simp [modeEntered, h]

theorem modeEntered_run (h : s.disp.mode ≠ m) (hm : m = .run) : modeEntered m c s = (runEntered m s, .done .ok []) := by
  subst hm
  simp [modeEntered, h]

theorem modeEntered_leaves (hne : s.disp.mode ≠ m) (hm : m ≠ .run) (hrun : s.disp.mode = .run → s.disp.running = false) :
    modeEntered m c s = (leaveRun m [] s, .done .ok []) := by
  by_cases hr : s.disp.mode = .run
  · have hne' : DispMode.run ≠ m := hm.symm
    simp [modeEntered, hr, hrun hr, hne']
  · simp [modeEntered, hne, hr, hm]

theorem modeEntered_waits (hmode : s.disp.mode = .run) (hrun : s.disp.running = true) (hm : m ≠ .run) :
    modeEntered m c s = (leavingRun m c s, .later) := by
  simp [modeEntered, hmode, hrun, hm.symm]

end

/-- The display as RUN leaves it, before the commands end that wait. -/
def runLeft (m : DispMode) (u : DispUnit) : DispUnit :=
  { u with
    mode := m, running := false, leaving := none, refs := [], sending := false, compare := false, teReady := false, teLost := false,
    composed := none, shown := none, linkReset := none }

theorem completeId_disp (id : Nat) (st : Status) (pl : List Word) (i : Nat) (s : State) : (completeId id st pl i s).disp = s.disp := by
  unfold completeId
  split
  · rw [complete_frame]
  · rfl

theorem completeAll_disp (l : List Nat) (st : Status) (s : State) : (l.foldl (fun a id => completeId id st [] a.index a) s).disp = s.disp :=
  List.foldlRecOn (motive := fun a : State => a.disp = s.disp) _ _ rfl fun _ h _ _ => (completeId_disp ..).trans h

theorem leaveRun_disp (m : DispMode) (ids : List Nat) (s : State) :
    (leaveRun m ids s).disp = if m == .off then { runLeft m s.disp with panel := [], panelWait := none } else runLeft m s.disp := by
  unfold leaveRun
  dsimp only
  rw [completeAll_disp]
  split
  · rw [completeAll_disp]
    rfl
  · rfl

theorem ends_leaveRun (m : DispMode) (ids : List Nat) (s : State) : Ends s (leaveRun m ids s) := by
  have all (l : List Nat) (st : Status) (a : State) : Ends a (l.foldl (fun a id => completeId id st [] a.index a) a) :=
    ends_foldl _ _ _ fun _ _ => ends_completeId ..
  unfold leaveRun
  dsimp only
  refine Ends.trans ?_ (all ..)
  split
  · exact (ends_core (core_mk ..)).trans (all ..)
  · exact ends_core (core_mk ..)

theorem leaveRun_mode (m : DispMode) (ids : List Nat) (s : State) : (leaveRun m ids s).disp.mode = m := by
  rw [leaveRun_disp]
  split <;> rfl

theorem leaveRun_vblank (m : DispMode) (ids : List Nat) (s : State) : (leaveRun m ids s).disp.vblank = s.disp.vblank := by
  rw [leaveRun_disp]
  split <;> rfl

theorem runEntered_core (m : DispMode) (s : State) : core (runEntered m s) = core s := (calibrateSkew_core ..).trans (setDisp_core ..)

theorem runEntered_disp (m : DispMode) (s : State) : (runEntered m s).disp.mode = m ∧ (runEntered m s).disp.vblank = s.disp.vblank := by
  unfold runEntered calibrateSkew
  split <;> exact ⟨rfl, rfl⟩

theorem vblankSet_core (c : Cmd) (s : State) : core (vblankSet c s) = core s := setDisp_core ..

/-- Whatever a DISP_ENABLE finds, it sets the notices of the frame starts; and it is at once in the state that it asks for, unless a frame runs. -/
theorem dispEnable_cases (c : Cmd) (e : Nat) (s : State) :
    (∃ u, specDispEnable.run c e s = (u, .done .ok []) ∧ Ends s u ∧ u.disp.vblank = c.flag 0 8 ∧ u.disp.mode = dispModeOf c)
    ∨ s.disp.mode = .run ∧ s.disp.running = true ∧ dispModeOf c ≠ .run := by
  have hkeeps : (vblankSet c s).disp.mode = s.disp.mode ∧ (vblankSet c s).disp.running = s.disp.running := ⟨rfl, rfl⟩
  have hset : Ends s (vblankSet c s) := ends_core (vblankSet_core ..)
  rw [dispEnable_run, ← hkeeps.1, ← hkeeps.2]
  by_cases hsame : (vblankSet c s).disp.mode = dispModeOf c
  · exact .inl ⟨_, modeEntered_same hsame, hset, rfl, hsame⟩
  · by_cases hm : dispModeOf c = .run
    · have ⟨hmode, hvblank⟩ := runEntered_disp (dispModeOf c) (vblankSet c s)
      exact .inl ⟨_, modeEntered_run hsame hm, hset.trans (ends_core (runEntered_core ..)), hvblank, hmode⟩
    · cases hrun : (vblankSet c s).disp.running with
      | false => exact .inl ⟨_, modeEntered_leaves hsame hm fun _ => hrun, hset.trans (ends_leaveRun ..), leaveRun_vblank .., leaveRun_mode ..⟩
      | true =>
        by_cases hmode : (vblankSet c s).disp.mode = .run
        · exact .inr ⟨hmode, rfl, hm⟩
        · exact .inl ⟨_, modeEntered_leaves hsame hm fun h => absurd h hmode, hset.trans (ends_leaveRun ..), leaveRun_vblank .., leaveRun_mode ..⟩

theorem dispEnable_begins : Begins .dispEnable specDispEnable (fun c s => s.disp.mode = .run ∧ s.disp.running = true ∧ dispModeOf c ≠ .run)
    (fun c s => leavingRun (dispModeOf c) c (vblankSet c s)) :=
  begins_core (fun _ _ _ => rfl) rfl (fun _ => rfl) (fun c s _ _ ⟨hmode, hrun, hm⟩ =>
    (dispEnable_run c s.index (opened s)).trans (modeEntered_waits (s := vblankSet c (opened s)) hmode hrun hm)) fun _ _ =>
    (setDisp_core ..).trans (setDisp_core ..)

theorem dispEnable_leaves_disp (k : Nat) (p : Packet) (s : State) (ha : accepted specDispEnable k p s = true) :
    ∃ t, exec (.dispEnable k p) s = .next t
      ∧ t.disp.vblank = (rowCmd k p s).flag 0 8
      ∧ ((rowCmd k p s).arg 0 1 0 = 2 → t.disp.mode = .run)
      ∧ (s.disp.running = false → (rowCmd k p s).arg 0 1 0 = 1 → t.disp.mode = .link)
      ∧ (s.disp.running = false → (rowCmd k p s).arg 0 1 0 = 0 → t.disp.mode = .off) := by
  rcases dispEnable_cases (rowCmd k p s) (rowState k p s).index (opened (rowState k p s)) with ⟨u, hr, he, hvblank, hmode⟩ | ⟨hmode, hrun, hm⟩
  · obtain ⟨t, hrow, hdisp, -⟩ := row_displays ha rfl rfl rfl hr he
    refine ⟨t, hrow, by rw [hdisp, hvblank], fun h => ?_, fun _ h => ?_, fun _ h => ?_⟩ <;> rw [hdisp, hmode, dispModeOf, h] <;> rfl
  · have hrow := dispEnable_begins k p s ha (accepted_untimed ha rfl) ⟨hmode, hrun, hm⟩
    have hrunning : s.disp.running = true := rowState_disp k p s ▸ hrun
    refine ⟨_, hrow, by rw [repliesFirst_disp]; rfl, fun h => ?_, fun hoff => ?_, fun hoff => ?_⟩
    · exact absurd (by rw [dispModeOf, h]; rfl) hm
    · simp [hrunning] at hoff
    · simp [hrunning] at hoff

theorem dispEnable_off : Begins .dispEnable specDispEnable
    (fun c s => s.disp.mode = .run ∧ s.disp.running = true ∧ s.disp.leaving = none ∧ c.arg 0 1 0 = 0)
    (fun c s => setDisp (fun u => { u with vblank := c.flag 0 8, leaving := some (.off, [c.id]) }) s) := by
  refine begins_core (fun _ _ _ => rfl) rfl (fun _ => rfl) (fun c s _ _ ⟨hmode, hrun, hnone, harg⟩ => ?_) fun _ _ => setDisp_core ..
  have hm : dispModeOf c = .off := by rw [dispModeOf, harg]; rfl
  have hleaving : (vblankSet c (opened s)).disp.leaving = none := hnone
  rw [dispEnable_run, modeEntered_waits (s := vblankSet c (opened s)) hmode hrun (by rw [hm]; decide), hm, leavingRun, hleaving]
  rfl

/-! ### DISP_COMMIT (R560-R562, R576) -/

/-- The layers that a commit names, and the background, latched, with the references that they need. -/
def latchedBy (c : Cmd) (s : State) : State :=
  setDisp (fun u => { u with
    latched := { layers := committed c s, bg := if c.flag 0 8 then c.arg 1 23 0 else u.latched.bg },
    refs := (u.refs ++ layerHandles ((maskBits 6 (c.arg 0 5 0)).map fun i => s.disp.pending.getD i default)).dedup }) s

theorem dispCommit_run (c : Cmd) (e : Nat) (s : State) : ∃ (late : Bool) (words : List Word), specDispCommit.run c e s =
    (if late then setDisp (fun u => { u with lateCommits := satAdd 32 u.lateCommits 1 }) (genLine (latchedBy c s)).2 else (genLine (latchedBy c s)).2,
      .done .ok words) := ⟨_, _, rfl⟩

theorem dispCommit_leaves (k : Nat) (p : Packet) (s : State) (ha : accepted specDispCommit k p s = true) : ∃ t, exec (.dispCommit k p) s = .next t
    ∧ t.disp.latched.layers = committed (rowCmd k p s) s
    ∧ t.disp.latched.bg = (if (rowCmd k p s).flag 0 8 then (rowCmd k p s).arg 1 23 0 else s.disp.latched.bg)
    ∧ t.disp.pending = s.disp.pending ∧ t.disp.timing = s.disp.timing ∧ t.pool = s.pool := by
  obtain ⟨late, words, hr⟩ := dispCommit_run (rowCmd k p s) (rowState k p s).index (opened (rowState k p s))
  obtain ⟨t, hrun, hdisp, hpool⟩ := row_displays ha rfl rfl rfl hr
    (ends_core (core_if ((setDisp_core ..).trans ((genLine_core _).trans (setDisp_core ..))) ((genLine_core _).trans (setDisp_core ..))))
  have hs := rowState_disp k p s
  have hcommitted : committed (rowCmd k p s) (opened (rowState k p s)) = committed (rowCmd k p s) s := by rw [committed, hs, committed]
  have hdisp' : ∃ n, t.disp = { (latchedBy (rowCmd k p s) (opened (rowState k p s))).disp with lateCommits := n } := by
    rw [hdisp]
    split
    · exact ⟨_, congrArg (fun u : DispUnit => { u with lateCommits := satAdd 32 u.lateCommits 1 }) (genLine_disp _)⟩
    · exact ⟨_, genLine_disp _⟩
  obtain ⟨n, hn⟩ := hdisp'
  refine ⟨t, hrun, ?_, ?_, ?_, ?_, ?_⟩
  · rw [hn, ← hcommitted]
    rfl
  · rw [hn, ← hs]
    rfl
  · rw [hn, ← hs]
    rfl
  · rw [hn, ← hs]
    rfl
  · rw [hpool, ← rowState_pool k p s]
    split
    · exact genLine_pool _
    · exact genLine_pool _

/-! ### DISP_STATUS (R578) -/

/-- The counters of the display at zero. -/
def countersCleared (u : DispUnit) : DispUnit :=
  { u with
    crcMismatches := 0, linkResets := 0, overruns := 0, lateCommits := 0, teIgnored := 0, teLostEvents := 0, renderErrors := 0, storeUe := 0,
    layerUe := 0 }

theorem dispStatus_run (c : Cmd) (e : Nat) (s : State) : ∃ words, specDispStatus.run c e s =
    (if c.flag 0 8 then setDisp countersCleared (genLine s).2 else (genLine s).2, .done .ok words) := ⟨_, rfl⟩

theorem dispStatus_leaves (k : Nat) (p : Packet) (s : State) (ha : accepted specDispStatus k p s = true) : ∃ t, exec (.dispStatus k p) s = .next t
    ∧ ((rowCmd k p s).flag 0 8 = false → t.disp = s.disp)
    ∧ ((rowCmd k p s).flag 0 8 = true → t.disp.crcMismatches = 0 ∧ t.disp.linkResets = 0 ∧ t.disp.overruns = 0
        ∧ t.disp.lateCommits = 0 ∧ t.disp.teIgnored = 0 ∧ t.disp.teLostEvents = 0 ∧ t.disp.renderErrors = 0 ∧ t.disp.storeUe = 0 ∧ t.disp.layerUe = 0
        ∧ t.disp.mode = s.disp.mode ∧ t.disp.latched = s.disp.latched) := by
  obtain ⟨words, hr⟩ := dispStatus_run (rowCmd k p s) (rowState k p s).index (opened (rowState k p s))
  obtain ⟨t, hrun, hdisp, -⟩ := row_displays ha rfl rfl rfl hr
    (ends_core (core_if ((setDisp_core ..).trans (genLine_core _)) (genLine_core _)))
  have hs : (genLine (opened (rowState k p s))).2.disp = s.disp := (genLine_disp _).trans (rowState_disp k p s)
  refine ⟨t, hrun, fun h => ?_, fun h => ?_⟩
  · rw [hdisp, h]
    exact hs
  · have hcleared : t.disp = countersCleared s.disp := by
      rw [hdisp, h, ← hs]
      rfl
    rw [hcleared]
    exact ⟨rfl, rfl, rfl, rfl, rfl, rfl, rfl, rfl, rfl, rfl, rfl⟩

/-! ### The obligation -/

/-- Settles O17, command by command; what the display is after each is said by its execution and `row_displays`. -/
theorem displayCommands : Obligations.DisplayCommands := by
  unfold Obligations.DisplayCommands
  refine ⟨dispTiming_leaves, dispEnable_leaves_disp, dispEnable_off, ?_, ?_, dispCommit_leaves, ?_, dispStatus_leaves⟩
  · exact does_core (fun _ _ _ => rfl) rfl (fun _ => rfl) (fun _ _ _ _ _ => rfl) fun _ _ => setDisp_core ..
  · exact does_core (fun _ _ _ => rfl) rfl (fun _ => rfl) (fun _ _ _ _ _ => rfl) fun _ _ => setDisp_core ..
  · exact begins_core (fun _ _ _ => rfl) rfl (fun _ => rfl) (fun _ _ _ _ _ => rfl) fun _ _ => setDisp_core ..

end Sys2Proof.Machine
end

section
/-! O41: the frame period of the display, and the panel's TE line and commands (R549, R550, R560, R562, R565-R568). -/

namespace Sys2Proof.Machine

/-- What an event of the display leaves of it and sends, where it leaves the core of the state. -/
theorem eventTo_display {f : Nat → State → State} {ev : Nat → Instr} {pre : Nat → State → Prop} {post : Nat → State → State → Prop}
    (hrow : ∀ k s, exec (ev k) s = runEvent (f k) k s) (hc : ∀ k s, core (f k s) = core s)
    (h : ∀ k s t, pre k s → t.disp = (f k (opened s)).disp → (∀ o, emitted o (f k (opened s)) → emitted o t) → t.time = s.time → t.cmds = s.cmds →
      post k s t) : EventTo ev pre post :=
  eventTo_of hrow (fun k _ _ hs => (opened_calm hs).core (hc k _)) fun k s t old hp _ ht =>
    have hcore : core t = core s := ht ▸ (pairNotice_core ..).trans ((repliesFirst_opened ..).trans ((hc k _).trans (opened_core s)))
    h k s t hp (by rw [ht, after_frame]) (fun o ho => ht ▸ (stands_emitted o).pairNotice ((stands_emitted o).repliesFirst ho)) (core_time hcore)
      (core_cmds hcore)

theorem notify_disp (code : Nat) (pl : List Word) (i : Nat) (s : State) : (notify code pl i s).disp = s.disp := by rw [notify_frame]

/-! ### The start of a frame period (R549, R550, R560, R562, R567) -/

/-- The display as a frame period begins, with the link reset or not. -/
def periodBegun (k : Nat) (reset : Bool) (u : DispUnit) : DispUnit :=
  { u with fsIndex := k, pastLatch := false, sending := !reset, compare := !reset && u.shown.isSome, teReady := false }

theorem beginPeriod_disp (k : Nat) (abandoned reset : Bool) (s : State) : (beginPeriod k abandoned reset s).disp = periodBegun k reset s.disp := by
  have hskew (a : State) : (calibrateSkew a).disp = a.disp := by
    unfold calibrateSkew
    split <;> rfl
  unfold beginPeriod
  dsimp only
  split
  · rw [notify_disp]
    split
    · rw [hskew]
      rfl
    · rfl
  · split
    · rw [hskew]
      rfl
    · rfl

/-- A composition writes what it composed, and the references that it needs. -/
theorem composeTrim_disp (n : Nat) (s : State) : ∃ composed skip errors ues refs, (trimRefs (compose n s)).disp = { s.disp with
    current := s.disp.fixed, composed := composed, skipMask := skip, renderErrors := errors, layerUe := ues, refs := refs } :=
  ⟨_, _, _, _, _, rfl⟩

/-- The first frame of RUN is fixed as what was latched. -/
def firstFixed (s : State) : State := setDisp (fun u => { u with running := true, frame := 0, fixed := u.latched, shown := none }) s

/-- The half that the composition wrote is shown when it is whole; else the period is an overrun. -/
def halfShown (k : Nat) (complete : Bool) (s : State) : State :=
  if complete then setDisp (fun u => { u with shown := u.composed }) s
  else notify 0x1004 [BitVec.ofNat 32 s.disp.frame] k (setDisp (fun u => { u with overruns := satAdd 32 u.overruns 1 }) s)

/-- The next frame is fixed, if the latch line has not fixed it. -/
def nextFixed (n : Nat) (s : State) : State := setDisp (fun u => { u with frame := n, fixed := if u.pastLatch then u.fixed else u.latched }) s

/-- The next frame, composed. -/
def nextComposed (k : Nat) (complete : Bool) (s : State) : State :=
  trimRefs (compose ((s.disp.frame + 1) % 2 ^ 32) (nextFixed ((s.disp.frame + 1) % 2 ^ 32) (halfShown k complete s)))

theorem halfShown_core (k : Nat) (complete : Bool) (s : State) : core (halfShown k complete s) = core s :=
  core_if (setDisp_core ..) ((notify_core ..).trans (setDisp_core ..))

theorem nextComposed_core (k : Nat) (complete : Bool) (s : State) : core (nextComposed k complete s) = core s :=
  (trimRefs_core _).trans ((compose_core ..).trans ((setDisp_core ..).trans (halfShown_core ..)))

theorem linkResetNow_disp (x : DispCrc) (s : State) :
    (linkResetNow x s).disp = { s.disp with linkReset := none, consec := 0, linkResets := satAdd 32 s.disp.linkResets 1 } := by
  unfold linkResetNow
  rw [notify_disp, bbWrite_frame]
  rfl

section
variable {k : Nat} {complete : Bool} {s : State}

theorem evDispFrameStart_idle (h : s.disp.mode ≠ .run ∨ (s.disp.timing.video = false ∧ s.disp.teReady = false ∧ s.disp.teLost = false)) :
    evDispFrameStart k complete [] s = s := by
  have hcond : (s.disp.mode != .run || (!s.disp.timing.video && (!(s.disp.teReady || s.disp.teLost) || s.disp.sending || s.disp.panelWait.isSome)))
      = true := by
    rcases h with hmode | ⟨hvideo, hready, hlost⟩
    · simp [hmode]
    · simp [hvideo, hready, hlost]
  simp only [evDispFrameStart, bringErrors_nil, hcond, if_true]

variable (hmode : s.disp.mode = .run) (hvideo : s.disp.timing.video = true) (hleaving : s.disp.leaving = none)
include hmode hvideo hleaving

theorem evDispFrameStart_first (hrun : s.disp.running = false) :
    evDispFrameStart k complete [] s = beginPeriod k false false (trimRefs (compose 0 (firstFixed s))) := by
  simp only [evDispFrameStart, bringErrors_nil, hmode, hvideo, hleaving, hrun, bne_self_eq_false, Bool.not_true, Bool.not_false, Bool.false_and,
    Bool.or_self, Bool.false_eq_true, if_false, if_true]
  rfl

variable (hrun : s.disp.running = true)
include hrun

theorem evDispFrameStart_next (hreset : s.disp.linkReset = none) :
    evDispFrameStart k complete [] s = beginPeriod k (!complete) false (nextComposed k complete s) := by
  simp only [evDispFrameStart, bringErrors_nil, hmode, hvideo, hleaving, hrun, hreset, bne_self_eq_false, Bool.not_true, Bool.false_and,
    Bool.or_self, Bool.false_eq_true, if_false]
  rfl

theorem evDispFrameStart_resets {x : DispCrc} (hreset : s.disp.linkReset = some x) :
    evDispFrameStart k complete [] s = beginPeriod k (!complete) true (linkResetNow x (nextComposed k complete s)) := by
  simp only [evDispFrameStart, bringErrors_nil, hmode, hvideo, hleaving, hrun, hreset, bne_self_eq_false, Bool.not_true, Bool.false_and,
    Bool.or_self, Bool.false_eq_true, if_false]
  rfl

end

/-- The display as the next frame is composed. -/
theorem nextComposed_disp (k : Nat) (complete : Bool) (s : State) : ∃ composed skip errors ues refs current fixed,
    (nextComposed k complete s).disp = { s.disp with
      frame := (s.disp.frame + 1) % 2 ^ 32, shown := if complete then s.disp.composed else s.disp.shown,
      overruns := if complete then s.disp.overruns else satAdd 32 s.disp.overruns 1,
      current := current, fixed := fixed, composed := composed, skipMask := skip, renderErrors := errors, layerUe := ues, refs := refs } := by
  obtain ⟨composed, skip, errors, ues, refs, h⟩ :=
    composeTrim_disp ((s.disp.frame + 1) % 2 ^ 32) (nextFixed ((s.disp.frame + 1) % 2 ^ 32) (halfShown k complete s))
  have hhalf : (halfShown k complete s).disp = { s.disp with
      shown := if complete then s.disp.composed else s.disp.shown,
      overruns := if complete then s.disp.overruns else satAdd 32 s.disp.overruns 1 } := by
    cases complete with
    | true => rfl
    | false => exact notify_disp ..
  have hnext : (nextFixed ((s.disp.frame + 1) % 2 ^ 32) (halfShown k complete s)).disp = { (halfShown k complete s).disp with
      frame := (s.disp.frame + 1) % 2 ^ 32,
      fixed := if (halfShown k complete s).disp.pastLatch then (halfShown k complete s).disp.fixed else (halfShown k complete s).disp.latched } := rfl
  rw [hhalf] at hnext
  rw [hnext] at h
  exact ⟨composed, skip, errors, ues, refs, _, _, h⟩

theorem dispFrameStart_first (complete : Bool) : EventTo (fun k => .dispFrameStart k complete [])
    (fun _ s => s.disp.mode = .run ∧ s.disp.timing.video = true ∧ s.disp.leaving = none ∧ s.disp.running = false)
    (fun k s t => t.disp.running = true ∧ t.disp.frame = 0 ∧ t.disp.fsIndex = k ∧ t.disp.fixed = s.disp.latched ∧ t.disp.pastLatch = false
      ∧ t.time = s.time ∧ t.cmds = s.cmds) := by
  refine eventTo_of (f := fun k => evDispFrameStart k complete []) (fun _ _ => rfl) (fun k s ⟨hmode, hvideo, hleaving, hrun⟩ hs => ?_)
    fun k s t old ⟨hmode, hvideo, hleaving, hrun⟩ _ ht => ?_
  all_goals
    have hf : evDispFrameStart k complete [] (opened s) = beginPeriod k false false (trimRefs (compose 0 (firstFixed (opened s)))) :=
      evDispFrameStart_first (s := opened s) hmode hvideo hleaving hrun
    have hcore : core (evDispFrameStart k complete [] (opened s)) = core s :=
      hf ▸ (beginPeriod_core ..).trans ((trimRefs_core _).trans ((compose_core ..).trans ((setDisp_core ..).trans (opened_core s))))
  · exact hs.core hcore
  · have ht' : core t = core s := ht ▸ (pairNotice_core ..).trans ((repliesFirst_opened ..).trans hcore)
    obtain ⟨composed, skip, errors, ues, refs, hdisp⟩ := composeTrim_disp 0 (firstFixed (opened s))
    have hdisp' : t.disp = periodBegun k false (trimRefs (compose 0 (firstFixed (opened s)))).disp := by
      rw [ht, after_frame, hf, beginPeriod_disp]
    rw [hdisp', hdisp]
    exact ⟨rfl, rfl, rfl, rfl, rfl, core_time ht', core_cmds ht'⟩

/-- A frame period follows another, without a link reset. -/
theorem dispFrameStart_next (complete : Bool) : EventTo (fun k => .dispFrameStart k complete [])
    (fun _ s => s.disp.mode = .run ∧ s.disp.timing.video = true ∧ s.disp.leaving = none ∧ s.disp.running = true ∧ s.disp.linkReset = none)
    (fun k s t => t.disp.frame = (s.disp.frame + 1) % 2 ^ 32 ∧ t.disp.shown = (if complete then s.disp.composed else s.disp.shown) ∧ t.disp.fsIndex = k
      ∧ t.disp.overruns = (if complete then s.disp.overruns else satAdd 32 s.disp.overruns 1) ∧ t.disp.sending = true ∧ t.time = s.time
      ∧ t.cmds = s.cmds) := by
  refine eventTo_of (f := fun k => evDispFrameStart k complete []) (fun _ _ => rfl) (fun k s ⟨hmode, hvideo, hleaving, hrun, hreset⟩ hs => ?_)
    fun k s t old ⟨hmode, hvideo, hleaving, hrun, hreset⟩ _ ht => ?_
  all_goals
    have hf : evDispFrameStart k complete [] (opened s) = beginPeriod k (!complete) false (nextComposed k complete (opened s)) :=
      evDispFrameStart_next (s := opened s) hmode hvideo hleaving hrun hreset
    have hcore : core (evDispFrameStart k complete [] (opened s)) = core s :=
      hf ▸ (beginPeriod_core ..).trans ((nextComposed_core ..).trans (opened_core s))
  · exact hs.core hcore
  · have ht' : core t = core s := ht ▸ (pairNotice_core ..).trans ((repliesFirst_opened ..).trans hcore)
    obtain ⟨composed, skip, errors, ues, refs, current, fixed, hdisp⟩ := nextComposed_disp k complete (opened s)
    have hdisp' : t.disp = periodBegun k false (nextComposed k complete (opened s)).disp := by
      rw [ht, after_frame, hf, beginPeriod_disp]
    rw [hdisp', hdisp]
    exact ⟨rfl, rfl, rfl, rfl, rfl, core_time ht', core_cmds ht'⟩

theorem dispFrameStart_resets (complete : Bool) (x : DispCrc) : EventTo (fun k => .dispFrameStart k complete [])
    (fun _ s => s.disp.mode = .run ∧ s.disp.timing.video = true ∧ s.disp.leaving = none ∧ s.disp.running = true ∧ s.disp.linkReset = some x)
    (fun _ s t => t.disp.linkReset = none ∧ t.disp.linkResets = satAdd 32 s.disp.linkResets 1 ∧ t.disp.sending = false ∧ t.disp.consec = 0) := by
  refine eventTo_of (f := fun k => evDispFrameStart k complete []) (fun _ _ => rfl) (fun k s ⟨hmode, hvideo, hleaving, hrun, hreset⟩ hs => ?_)
    fun k s t old ⟨hmode, hvideo, hleaving, hrun, hreset⟩ _ ht => ?_
  all_goals
    have hf : evDispFrameStart k complete [] (opened s) = beginPeriod k (!complete) true (linkResetNow x (nextComposed k complete (opened s))) :=
      evDispFrameStart_resets (s := opened s) hmode hvideo hleaving hrun hreset
  · exact hs.core (hf ▸ (beginPeriod_core ..).trans ((linkResetNow_core ..).trans ((nextComposed_core ..).trans (opened_core s))))
  · obtain ⟨composed, skip, errors, ues, refs, current, fixed, hdisp⟩ := nextComposed_disp k complete (opened s)
    have hdisp' : t.disp = periodBegun k true (linkResetNow x (nextComposed k complete (opened s))).disp := by
      rw [ht, after_frame, hf, beginPeriod_disp]
    rw [hdisp', linkResetNow_disp, hdisp]
    exact ⟨rfl, rfl, rfl, rfl⟩

/-! ### The latch line (R560) -/

theorem evDispLatchLine_fixes {s : State} (hrun : s.disp.running = true) (hpast : s.disp.pastLatch = false) :
    evDispLatchLine s = { s with disp := { s.disp with pastLatch := true, fixed := s.disp.latched } } := by
  exact if_pos (by simp [hrun, hpast])

theorem evDispLatchLine_idle {s : State} (h : s.disp.running = false ∨ s.disp.pastLatch = true) : evDispLatchLine s = s := by
  rcases h with hrun | hpast
  · simp [evDispLatchLine, hrun]
  · simp [evDispLatchLine, hpast]

/-! ### The end of a frame (R552, R564, R566, R567) -/

/-- The words of the frame store that came uncorrectable. -/
def storeBad (errors : List MemError) : List Nat := (errors.filter fun e => e.place == 260 && !e.corrected).map fun e => e.offset / 8

/-- What the period has sent, as it leaves the device. -/
def frameSent (errors : List MemError) (f : DispFrame) (s : State) : State :=
  emit (scanOut s.disp.timing (some f.number) (storedPixels s.disp.timing (storeBad errors) f.pixels))
    (setDisp (fun u => { u with sending := false, compare := false, storeUe := satAdd 16 u.storeUe (storeBad errors).length }) (bringErrors errors s))

/-- The CRC of the frame that was to be sent. -/
def frameCrc (f : DispFrame) (s : State) : Word := BitVec.ofNat 32 (crc32c (frameLines s.disp.timing f.pixels).flatten)

/-- The frame fails the comparison. -/
def frameFails (k : Nat) (readback : Word) (f : DispFrame) (s a : State) : State :=
  let s1 := setDisp (fun u => { u with
    crcMismatches := satAdd 32 u.crcMismatches 1, consec := satAdd 8 u.consec 1,
    linkReset := if u.timing.crcLimit != 0 && decide (u.timing.crcLimit ≤ u.consec + 1)
      then some { frame := f.number, computed := frameCrc f s, readback := readback, at_ := k } else u.linkReset }) a
  if s.disp.consec == 0 then notify 0x1003 [BitVec.ofNat 32 f.number, frameCrc f s, readback, 0] k s1 else s1

section
variable {k : Nat} {readback : Word} {errors : List MemError} {f : DispFrame} {s : State}

theorem evScanoutEnd_idle (h : s.disp.running = false ∨ s.disp.sending = false) : evScanoutEnd k readback errors s = s := by
  rcases h with hrun | hsend
  · simp [evScanoutEnd, hrun]
  · simp [evScanoutEnd, hsend]

variable (hrun : s.disp.running = true) (hsend : s.disp.sending = true) (hcomp : s.disp.compare = true) (hshown : s.disp.shown = some f)
include hrun hsend hcomp hshown

theorem evScanoutEnd_compares : evScanoutEnd k readback errors s =
    if frameCrc f s == readback && (storeBad errors).isEmpty then setDisp (fun u => { u with consec := 0 }) (frameSent errors f s)
    else frameFails k readback f s (frameSent errors f s) := by
  unfold evScanoutEnd
  rw [if_neg (by simp [hrun, hsend])]
  simp only [hcomp, hshown]
  rfl

theorem evScanoutEnd_fits (hcrc : frameCrc f s = readback) (hbad : storeBad errors = []) :
    evScanoutEnd k readback errors s = setDisp (fun u => { u with consec := 0 }) (frameSent errors f s) := by
  rw [evScanoutEnd_compares hrun hsend hcomp hshown, if_pos (by simp [hcrc, hbad])]

theorem evScanoutEnd_fails (hbad : frameCrc f s ≠ readback ∨ storeBad errors ≠ []) :
    evScanoutEnd k readback errors s = frameFails k readback f s (frameSent errors f s) := by
  refine (evScanoutEnd_compares hrun hsend hcomp hshown).trans (if_neg ?_)
  rcases hbad with h | h <;> simp [h]

end

theorem detectUe_disp (slot offset : Nat) (s : State) : (detectUe slot offset s).disp = s.disp := by
  unfold detectUe
  split
  · rfl
  · dsimp only
    split
    · rfl
    · rw [notify_disp, bbWrite_frame]
      rfl

theorem countStore_disp (store ce ue passes : Nat) (s : State) : (countStore store ce ue passes s).disp = s.disp := rfl

theorem countCe_disp (slot n : Nat) (s : State) : (countCe slot n s).disp = s.disp := by
  unfold countCe
  split <;> rfl

theorem bringErrors_disp (l : List MemError) (s : State) : (bringErrors l s).disp = s.disp := by
  refine List.foldlRecOn (motive := fun a : State => a.disp = s.disp) _ _ rfl fun a h e _ => ?_
  split
  · exact (countStore_disp ..).trans h
  · split
    · exact (countCe_disp ..).trans h
    · exact (detectUe_disp ..).trans h

theorem frameSent_disp (errors : List MemError) (f : DispFrame) (s : State) : (frameSent errors f s).disp =
    { s.disp with sending := false, compare := false, storeUe := satAdd 16 s.disp.storeUe (storeBad errors).length } := by
  rw [← bringErrors_disp errors s]
  rfl

theorem frameSent_emitted (errors : List MemError) (f : DispFrame) (s : State) :
    emitted (scanOut s.disp.timing (some f.number) (storedPixels s.disp.timing (storeBad errors) f.pixels)) (frameSent errors f s) := emit_emitted ..

theorem frameFails_emitted {o : Output} (k : Nat) (readback : Word) (f : DispFrame) (s : State) {a : State} (h : emitted o a) :
    emitted o (frameFails k readback f s a) :=
  stands_ite ((stands_emitted o).notify h) h

theorem frameFails_disp (k : Nat) (readback : Word) (f : DispFrame) (s a : State) : ∃ reset, (frameFails k readback f s a).disp =
    { a.disp with crcMismatches := satAdd 32 a.disp.crcMismatches 1, consec := satAdd 8 a.disp.consec 1, linkReset := reset } := by
  unfold frameFails
  dsimp only
  split
  · exact ⟨_, notify_disp ..⟩
  · exact ⟨_, rfl⟩

theorem frame_fails (readback : Word) (f : DispFrame) (errors : List MemError) : EventTo (fun k => .scanoutEnd k readback errors)
    (fun _ s => s.disp.running = true ∧ s.disp.sending = true ∧ s.disp.compare = true ∧ s.disp.shown = some f
      ∧ (frameCrc f s ≠ readback ∨ storeBad errors ≠ []))
    (fun _ s t => t.disp.crcMismatches = satAdd 32 s.disp.crcMismatches 1 ∧ t.disp.consec = satAdd 8 s.disp.consec 1 ∧ t.disp.sending = false
      ∧ t.disp.storeUe = satAdd 16 s.disp.storeUe (storeBad errors).length
      ∧ scanOut s.disp.timing (some f.number) (storedPixels s.disp.timing (storeBad errors) f.pixels) ∈ t.out ∧ t.time = s.time ∧ t.cmds = s.cmds) := by
  refine eventTo_display (f := fun k => evScanoutEnd k readback errors) (fun _ _ => rfl) (fun _ _ => evScanoutEnd_core ..) ?_
  intro k s t ⟨hrun, hsend, hcomp, hshown, hbad⟩ hdisp hout htime hcmds
  have hf : evScanoutEnd k readback errors (opened s) = frameFails k readback f (opened s) (frameSent errors f (opened s)) :=
    evScanoutEnd_fails (s := opened s) hrun hsend hcomp hshown hbad
  rw [hf] at hdisp hout
  obtain ⟨reset, hreset⟩ := frameFails_disp k readback f (opened s) (frameSent errors f (opened s))
  rw [hreset, frameSent_disp] at hdisp
  rw [hdisp]
  exact ⟨rfl, rfl, rfl, rfl, hout _ (frameFails_emitted k readback f _ (frameSent_emitted ..)), htime, hcmds⟩

theorem frame_fits (readback : Word) (f : DispFrame) : EventTo (fun k => .scanoutEnd k readback [])
    (fun _ s => s.disp.running = true ∧ s.disp.sending = true ∧ s.disp.compare = true ∧ s.disp.shown = some f ∧ frameCrc f s = readback)
    (fun _ s t => t.disp.crcMismatches = s.disp.crcMismatches ∧ t.disp.consec = 0 ∧ t.disp.sending = false ∧ t.cmds = s.cmds
      ∧ scanOut s.disp.timing (some f.number) (storedPixels s.disp.timing [] f.pixels) ∈ t.out) := by
  refine eventTo_display (f := fun k => evScanoutEnd k readback []) (fun _ _ => rfl) (fun _ _ => evScanoutEnd_core ..) ?_
  intro k s t ⟨hrun, hsend, hcomp, hshown, hcrc⟩ hdisp hout _ hcmds
  have hf : evScanoutEnd k readback [] (opened s) = setDisp (fun u => { u with consec := 0 }) (frameSent [] f (opened s)) :=
    evScanoutEnd_fits (s := opened s) hrun hsend hcomp hshown hcrc rfl
  rw [hf] at hdisp hout
  have hdisp' : t.disp = { (frameSent [] f (opened s)).disp with consec := 0 } := hdisp
  rw [frameSent_disp] at hdisp'
  rw [hdisp']
  exact ⟨rfl, rfl, rfl, hcmds, hout _ (frameSent_emitted [] f (opened s))⟩

/-! ### The TE line (R565) -/

section
variable {k ns : Nat} {s : State}

theorem evTeEdge_idle (h : s.disp.mode ≠ .run ∨ s.disp.timing.video = true) : evTeEdge k ns s = s := by
  rcases h with hmode | hvideo
  · simp [evTeEdge, hmode]
  · simp [evTeEdge, hvideo]

theorem evTeLostTimeout_idle (h : s.disp.mode ≠ .run ∨ s.disp.timing.video = true ∨ s.disp.teLost = true ∨ s.disp.teReady = true) :
    evTeLostTimeout k s = s := by
  rcases h with hmode | hvideo | hlost | hready
  · simp [evTeLostTimeout, hmode]
  · simp [evTeLostTimeout, hvideo]
  · simp [evTeLostTimeout, hlost]
  · simp [evTeLostTimeout, hready]

variable (hmode : s.disp.mode = .run) (hvideo : s.disp.timing.video = false)
include hmode hvideo

theorem evTeEdge_held (hearly : (s.disp.running && s.disp.timing.early ns) = false) (hlost : s.disp.teLost = false) :
    evTeEdge k ns s = { s with disp := { s.disp with teReady := true, teLost := false } } := by
  unfold evTeEdge
  dsimp only
  rw [if_neg (by simp [hmode, hvideo]), if_neg (by simp [hearly]), if_neg (by simp [hlost])]
  rfl

theorem evTeEdge_ignored (hearly : (s.disp.running && s.disp.timing.early ns) = true) :
    evTeEdge k ns s = { s with disp := { s.disp with teIgnored := satAdd 16 s.disp.teIgnored 1 } } := by
  unfold evTeEdge
  dsimp only
  rw [if_neg (by simp [hmode, hvideo]), if_pos hearly]
  rfl

theorem evTeLostTimeout_lost (hlost : s.disp.teLost = false) (hready : s.disp.teReady = false) : evTeLostTimeout k s =
    notify 0x1002 [1, BitVec.ofNat 32 s.disp.teIgnored] k
      { s with disp := { s.disp with teLost := true, teLostEvents := satAdd 16 s.disp.teLostEvents 1 } } := by
  unfold evTeLostTimeout
  dsimp only
  rw [if_neg (by simp [hmode, hvideo, hlost, hready])]
  rfl

end

/-! ### Panel commands (R568) -/

/-- The packet of a panel command. -/
def panelPacket (c : Cmd) : Output := .dsiPacket (c.arg 0 5 0) ((bytesOfWords (c.params.drop 1)).take (c.arg 0 22 16))

section
variable {er : Bool} {resp : Option (List Byte)} {id : Nat} {l : List Nat} {c : Cmd} {s : State}

theorem endPanel_completes (payload : List Word) (hpanel : s.disp.panel = id :: l) (hcmd : cmdById s id = some c) :
    endPanel payload s = complete c .ok payload s.index { s with disp := { s.disp with panel := l, panelWait := none } } := by
  rw [endPanel, hpanel]
  exact completeId_of (s := { s with disp := { s.disp with panel := l, panelWait := none } }) hcmd ..

theorem evPanelCmdSend_idle (h : s.disp.panel = [] ∨ s.disp.panelWait.isSome = true) : evPanelCmdSend er resp s = s := by
  unfold evPanelCmdSend
  split
  next => rfl
  next id l hpanel =>
    obtain ⟨w, hw⟩ := Option.isSome_iff_exists.mp (h.resolve_left (by simp [hpanel]))
    rw [hw]

theorem evPanelRespTimeout_idle (h : s.disp.panelWait = none) : evPanelRespTimeout s = s := by
  simp [evPanelRespTimeout, h]

theorem evPanelRespTimeout_ends (hwait : s.disp.panelWait.isSome = true) (hpanel : s.disp.panel = id :: l) (hcmd : cmdById s id = some c) :
    evPanelRespTimeout s =
      complete c .ok (panelReply false true []) s.index { s with disp := { s.disp with panel := l, panelWait := none } } := by
  rw [evPanelRespTimeout, if_pos hwait, endPanel_completes _ hpanel hcmd]

variable (hpanel : s.disp.panel = id :: l) (hwait : s.disp.panelWait = none) (hcmd : cmdById s id = some c)
include hpanel hwait hcmd

theorem evPanelCmdSend_write (hread : c.flag 0 24 = false) : evPanelCmdSend er resp s =
    complete c .ok (panelReply false false []) s.index
      { s with disp := { s.disp with panel := l, panelWait := none }, out := s.out ++ [panelPacket c] } := by
  simp only [evPanelCmdSend, hpanel, hwait, hcmd, hread, Bool.not_false, if_true]
  exact endPanel_completes (s := emit (panelPacket c) s) _ hpanel hcmd

theorem evPanelCmdSend_answered {r : List Byte} (hread : c.flag 0 24 = true) : evPanelCmdSend er (some r) s =
    complete c .ok (panelReply er false r) s.index
      { s with disp := { s.disp with panel := l, panelWait := none }, out := s.out ++ [panelPacket c] } := by
  simp only [evPanelCmdSend, hpanel, hwait, hcmd, hread, Bool.not_true, Bool.false_eq_true, if_false]
  exact endPanel_completes (s := emit (panelPacket c) s) _ hpanel hcmd

theorem evPanelCmdSend_waits (hread : c.flag 0 24 = true) : evPanelCmdSend er none s =
    { s with disp := { s.disp with panelWait := some er }, out := s.out ++ [panelPacket c] } := by
  refine Eq.trans (b := setDisp (fun u => { u with panelWait := some er }) (emit (panelPacket c) s)) ?_ rfl
  simp only [evPanelCmdSend, hpanel, hwait, hcmd, hread, Bool.not_true, Bool.false_eq_true, if_false]
  rfl

end

/-! ### The obligation -/

/-- Settles O41, event by event: each by what it leaves of the display where its condition holds, and by its idling elsewhere. -/
theorem displayEvents : Obligations.DisplayEvents := by
  unfold Obligations.DisplayEvents
  refine ⟨dispFrameStart_first, ?_, ?_, dispFrameStart_resets, fun complete => ?_, ?_, ?_, fun readback f => ?_, fun readback f o => ?_, frame_fits,
    fun readback errors => ?_, fun ns => ?_, fun ns => ?_, fun ns => ?_, ?_, ?_, fun er resp id l c => ?_, fun er r id l c => ?_, fun er id l c => ?_,
    fun er resp => ?_, fun id l c => ?_, ?_⟩
  · exact dispFrameStart_next true
  · intro k s hq hm hpre
    obtain ⟨t, hrun, hframe, hshown, hfs, hover, _, hrest⟩ := dispFrameStart_next false k s hq hm hpre
    exact ⟨t, hrun, hframe, hshown, hfs, hover, hrest⟩
  · exact event_idle (f := fun k => evDispFrameStart k complete []) (fun _ _ => rfl) fun _ s h => evDispFrameStart_idle (s := opened s) h
  · exact event_of_core (f := fun _ => evDispLatchLine) (fun _ _ => rfl) (fun _ s ⟨hrun, hpast⟩ => evDispLatchLine_fixes (s := opened s) hrun hpast)
      fun _ _ => core_mk ..
  · exact event_idle (f := fun _ => evDispLatchLine) (fun _ _ => rfl) fun _ s h => evDispLatchLine_idle (s := opened s) h
  · intro k s hq hm ⟨hrun, hsend, hcomp, hshown, hcrc⟩
    obtain ⟨t, hexec, hmis, hconsec, hsending, _, hrest⟩ := frame_fails readback f [] k s hq hm ⟨hrun, hsend, hcomp, hshown, .inl hcrc⟩
    exact ⟨t, hexec, hmis, hconsec, hsending, hrest⟩
  · intro k s hq hm ⟨hrun, hsend, hcomp, hshown⟩
    obtain ⟨t, hexec, hmis, _, hsending, hue, hout, _⟩ := frame_fails readback f [{ place := 260, offset := o, corrected := false }] k s hq hm
      ⟨hrun, hsend, hcomp, hshown, .inr (List.cons_ne_nil _ _)⟩
    exact ⟨t, hexec, hmis, hue, hsending, hout⟩
  · exact event_idle (f := fun k => evScanoutEnd k readback errors) (fun _ _ => rfl) fun _ s h => evScanoutEnd_idle (s := opened s) h
  · exact event_of_core (f := fun k => evTeEdge k ns) (fun _ _ => rfl)
      (fun _ s ⟨hmode, hvideo, hearly, hlost⟩ => evTeEdge_held (s := opened s) hmode hvideo hearly hlost) fun _ _ => core_mk ..
  · exact event_of_core (f := fun k => evTeEdge k ns) (fun _ _ => rfl)
      (fun _ s ⟨hmode, hvideo, hearly⟩ => evTeEdge_ignored (s := opened s) hmode hvideo hearly) fun _ _ => core_mk ..
  · exact event_idle (f := fun k => evTeEdge k ns) (fun _ _ => rfl) fun _ s h => evTeEdge_idle (s := opened s) h
  · exact event_of_core (f := fun k => evTeLostTimeout k) (fun _ _ => rfl)
      (fun _ s ⟨hmode, hvideo, hlost, hready⟩ => evTeLostTimeout_lost (s := opened s) hmode hvideo hlost hready) fun _ _ =>
        (notify_core ..).trans (core_mk ..)
  · exact event_idle (f := fun k => evTeLostTimeout k) (fun _ _ => rfl) fun _ s h => evTeLostTimeout_idle (s := opened s) h
  · exact event_completes (f := fun _ => evPanelCmdSend er resp) (fun _ _ => rfl) (fun _ _ ⟨_, _, _, _, hsrc⟩ => hsrc)
      (fun _ s ⟨hpanel, hwait, hcmd, hread, _⟩ _ => evPanelCmdSend_write (s := opened s) hpanel hwait hcmd hread) fun _ => core_mk ..
  · exact event_completes (f := fun _ => evPanelCmdSend er (some r)) (fun _ _ => rfl) (fun _ _ ⟨_, _, _, _, hsrc⟩ => hsrc)
      (fun _ s ⟨hpanel, hwait, hcmd, hread, _⟩ _ => evPanelCmdSend_answered (s := opened s) hpanel hwait hcmd hread) fun _ => core_mk ..
  · exact event_of_core (f := fun _ => evPanelCmdSend er none) (fun _ _ => rfl)
      (fun _ s ⟨hpanel, hwait, hcmd, hread⟩ => evPanelCmdSend_waits (s := opened s) hpanel hwait hcmd hread) fun _ _ => core_mk ..
  · exact event_idle (f := fun _ => evPanelCmdSend er resp) (fun _ _ => rfl) fun _ s h => evPanelCmdSend_idle (s := opened s) h
  · exact event_completes (f := fun _ => evPanelRespTimeout) (fun _ _ => rfl) (fun _ _ ⟨_, _, _, hsrc⟩ => hsrc)
      (fun _ s ⟨hwait, hpanel, hcmd, _⟩ _ => evPanelRespTimeout_ends (s := opened s) hwait hpanel hcmd) fun _ => core_mk ..
  · exact event_idle (f := fun _ => evPanelRespTimeout) (fun _ _ => rfl) fun _ s h => evPanelRespTimeout_idle (s := opened s) h

end Sys2Proof.Machine
end

section
/-! What a change of the pair leaves: a row whose command changes it, a takeover, and the link through what a mirror ends. -/

namespace Sys2Proof.Machine

/-! ### A row whose command may change the pair -/

section
variable {sp : CmdSpec} {k : Nat} {p : Packet} {s u : State} {f : Fate}

/-- The row of an accepted command that starts at once leaves its effect and its reply, and at most a notice of the pair, when no mirror follows and
nothing waits then. -/
theorem row_settles (ha : accepted sp k p s = true) (hsp : specOf sp.opcode = some sp) (hno : sp.timed (rowCmd k p s) = .no)
    (hl : sp.lead (rowCmd k p s) = none) (hr : sp.run (rowCmd k p s) (rowState k p s).index (opened (rowState k p s)) = (u, f))
    (halone : hasMirror u = false) (hforwarded : u.pair.forwarded = [])
    (hwait : noneWaits (u.cmds.filter fun d => d.id != (rowCmd k p s).id) = true) :
    ∃ g, runRow sp k p s = .next (pairNotice s (repliesFirst g (rowState k p s)))
      ∧ g (opened (rowState k p s)) = settleFate (rowCmd k p s) (rowState k p s).index (u, f) := by
  obtain ⟨h, hck⟩ := accepted_iff.mp ha
  have ht : (rowCmd k p s).timed = false := accepted_untimed ha hno
  have harrival : ({ rowCmd k p s with arrival := (rowState k p s).index } : Cmd) = rowCmd k p s := rfl
  let g := fun a => settleFate (rowCmd k p s) (rowState k p s).index
    (let r := sp.run (rowCmd k p s) (rowState k p s).index a
     (if r.2.accepted then forwardCmd sp (rowCmd k p s) none r.1 else r.1, r.2))
  have hg : g (opened (rowState k p s)) = settleFate (rowCmd k p s) (rowState k p s).index (u, f) := by
    simp only [g, hr, forwardCmd_alone halone, ite_self]
  have hstart : startCmd sp (rowCmd k p s) (rowState k p s) = repliesFirst g (rowState k p s) := by
    simp only [startCmd, harrival, hck, ht, leadNs_none hl, Bool.false_eq_true, if_false, runNow]
    exact repliesFirst_congr rfl
  obtain ⟨hpair, -, hnone⟩ := settleFate_calm (i := (rowState k p s).index) (f := f) (.inl h.local) hforwarded hwait
  have hcalm : Calm (startCmd sp (rowCmd k p s) (rowState k p s)) := by
    rw [hstart]
    exact Calm.core ⟨hnone, (hasMirror_congr hpair).trans halone, hpair ▸ hforwarded⟩ (hg ▸ repliesFirst_opened ..)
  exact ⟨g, hstart ▸ row_starts_notice h hsp hcalm, hg⟩

/-- The same for a command that completes. -/
theorem row_completes {st : Status} {words : List Word} (ha : accepted sp k p s = true) (hsp : specOf sp.opcode = some sp)
    (hno : sp.timed (rowCmd k p s) = .no) (hl : sp.lead (rowCmd k p s) = none)
    (hr : sp.run (rowCmd k p s) (rowState k p s).index (opened (rowState k p s)) = (u, .done st words))
    (halone : hasMirror u = false) (hforwarded : u.pair.forwarded = []) (hwait : noneWaits u.cmds = true) :
    ∃ t, runRow sp k p s = .next t ∧ Served (rowCmd k p s) u t :=
  have ⟨_, hrow, hg⟩ := row_settles ha hsp hno hl hr halone hforwarded (noneWaits_filter _ hwait)
  ⟨_, hrow, complete_served (accepted_iff.mp ha).1.local hforwarded hg⟩

end

/-- No command waits while the command of a row is the only one that has come. -/
theorem rowState_rest (k : Nat) (p : Packet) (s : State) :
    (rowState k p s).cmds.filter (fun d => d.id != (rowCmd k p s).id) = s.cmds.filter fun d => d.id != s.nextId := by
  have hid : (rowCmd k p s).id = s.nextId := rfl
  rw [rowState_cmds, List.filter_append, hid]
  simp [hid]

/-! ### A takeover (R599, R601) -/

/-- The core of the state but for what the pair keeps of its partner's packets, and the pool. -/
def heritage (s : State) := (core { s with pair := { s.pair with itemFloor := [], checkpoints := [] } }, s.pool)

/-- The core and the pool. -/
def corePool (s : State) := (core s, s.pool)

theorem heritage_of {s t : State} (h : corePool t = corePool s) : heritage t = heritage s := by
  obtain ⟨hcore, hpool⟩ := Prod.mk.inj h
  simp only [core, Prod.mk.injEq] at hcore
  obtain ⟨h1, h2, h3, h4, h5, h6, h7, h8, h9, h10, h11⟩ := hcore
  simp only [heritage, core, h1, h2, h3, h4, h5, h6, h7, h8, h9, h10, h11, hpool]

theorem corePool_foldl {β : Type} (l : List β) {f : State → β → State} (s : State) (h : ∀ a i, corePool (f a i) = corePool a) :
    corePool (l.foldl f s) = corePool s :=
  List.foldlRecOn (motive := fun a : State => corePool a = corePool s) l f rfl fun a ha i _ => (h a i).trans ha

theorem heritage_foldl {β : Type} (l : List β) {f : State → β → State} (s : State) (h : ∀ a i, heritage (f a i) = heritage a) :
    heritage (l.foldl f s) = heritage s :=
  List.foldlRecOn (motive := fun a : State => heritage a = heritage s) l f rfl fun a ha i _ => (h a i).trans ha

theorem notify_corePool (code : Nat) (pl : List Word) (i : Nat) (s : State) : corePool (notify code pl i s) = corePool s :=
  Prod.ext (notify_core ..) (show (notify code pl i s).pool = s.pool by rw [notify_frame])

theorem bbWrite_corePool (u p ev : Nat) (data : List Word) (i : Nat) (s : State) : corePool (bbWrite u p ev data i s) = corePool s :=
  Prod.ext (bbWrite_core ..) (show (bbWrite u p ev data i s).pool = s.pool by rw [bbWrite_frame])

theorem passLastSent_corePool (n : Nat) (s : State) : corePool (passLastSent n s) = corePool s := by
  unfold passLastSent
  split
  · rfl
  · exact corePool_foldl _ _ fun _ _ => rfl

theorem loseItemMarks_corePool (n : Nat) (s : State) : corePool (loseItemMarks n s) = corePool s := by
  refine corePool_foldl _ _ fun a m => ?_
  split
  · exact (notify_corePool ..).trans rfl
  · rfl

theorem announce_corePool (s : State) : corePool (announce s) = corePool s := by
  refine corePool_foldl _ _ fun a p => ?_
  dsimp only
  split <;> split <;> rfl

theorem setItemFloor_heritage (l : List (Nat × Nat) → List (Nat × Nat)) (s : State) :
    heritage (setPair (fun p => { p with itemFloor := l p.itemFloor }) s) = heritage s := rfl

theorem resumeCtx_heritage (n : Nat) (s : State) : heritage (resumeCtx n s) = heritage s := by
  have pass : heritage (passLastSent n s) = heritage s := heritage_of (passLastSent_corePool ..)
  unfold resumeCtx
  dsimp only
  split
  · split
    · refine (heritage_of (loseItemMarks_corePool ..)).trans ?_
      exact (setItemFloor_heritage (fun l => l.filter (fun x => x.1 != n) ++ [(n, _)]) _).trans ((heritage_of rfl).trans pass)
    · exact (heritage_of (loseItemMarks_corePool ..)).trans pass
  · split
    · exact (heritage_of rfl).trans pass
    · exact pass

/-- The commands of the partner no longer answer. -/
def muted (c : Cmd) : Cmd := if c.src == .pairLink then { c with mute := true } else c

/-- The mirror is PRIMARY, in the mode that it shadowed. -/
def heir (s : State) : State :=
  setPair (fun p => { p with
    role := .primary, suppressed := false, deposed := false, mirrored := false, otherEligible := false, takeovers := satAdd 32 p.takeovers 1,
    switchAt := none, handover := none, forwarded := [] }) { s with mode := s.shadowed, cmds := s.cmds.map muted }

theorem takeOver_heritage (cause : Nat) (s : State) : heritage (takeOver cause s) = heritage (heir s) := by
  have hheir : heritage (announce (heir s)) = heritage (heir s) := heritage_of (announce_corePool _)
  unfold takeOver
  dsimp only
  refine (heritage_of ((notify_corePool ..).trans (bbWrite_corePool ..))).trans ?_
  refine Eq.trans (b := heritage (if cause = 3 then announce (heir s)
    else (List.range (announce (heir s)).strm.ctxs.length).foldl (fun a n => if (ctxOf a n).configured then resumeCtx n a else a) (announce (heir s)))) rfl ?_
  split
  · exact hheir
  · refine (heritage_foldl _ _ fun a n => ?_).trans hheir
    split
    · exact resumeCtx_heritage ..
    · rfl

section
variable {s t : State} (h : heritage t = heritage s)
include h

theorem heritage_cmds : t.cmds = s.cmds := congrArg (fun x => x.1.2.1) h

theorem heritage_pair : t.pair = { s.pair with itemFloor := t.pair.itemFloor, checkpoints := t.pair.checkpoints } :=
  congrArg (fun p : PairUnit => { p with itemFloor := t.pair.itemFloor, checkpoints := t.pair.checkpoints }) (congrArg (fun x => x.1.2.2.1) h :
    ({ t.pair with itemFloor := [], checkpoints := [] } : PairUnit) = { s.pair with itemFloor := [], checkpoints := [] })

theorem heritage_time : t.time = s.time := congrArg (fun x => x.1.2.2.2.1) h

theorem heritage_mode : t.mode = s.mode := congrArg (fun x => x.1.2.2.2.2.1) h

theorem heritage_pool : t.pool = s.pool := congrArg (fun x => x.2) h

end

/-- What a takeover leaves: the role, the mode and the count of takeovers; no mirror, and nothing forwarded. -/
structure TakenOver (s t : State) : Prop where
  role : t.pair.role = .primary
  mode : t.mode = s.shadowed
  takeovers : t.pair.takeovers = satAdd 32 s.pair.takeovers 1
  time : t.time = s.time
  pool : t.pool = s.pool
  cmds : t.cmds = s.cmds.map muted
  mirrored : t.pair.mirrored = false
  forwarded : t.pair.forwarded = []

theorem takeOver_takenOver (cause : Nat) (s : State) : TakenOver s (takeOver cause s) := by
  have h := takeOver_heritage cause s
  have hpair := heritage_pair h
  refine ⟨?_, (heritage_mode h).trans rfl, ?_, (heritage_time h).trans rfl, (heritage_pool h).trans rfl,
    (heritage_cmds h).trans rfl, ?_, ?_⟩ <;> rw [hpair] <;> rfl

theorem noneWaits_muted (l : List Cmd) : noneWaits (l.map muted) = noneWaits l := by
  rw [noneWaits, noneWaits, List.all_map]
  refine congrArg l.all (funext fun c => ?_)
  show ((muted c).phase != .waiting) = _
  unfold muted
  split <;> rfl

theorem TakenOver.alone {s t : State} (h : TakenOver s t) : hasMirror t = false := by
  rw [hasMirror, h.mirrored, Bool.and_false]

theorem TakenOver.calm {s t : State} (h : TakenOver s t) (hw : noneWaits s.cmds = true) : Calm t where
  none := by rw [h.cmds, noneWaits_muted, hw]
  alone := h.alone
  forwarded := h.forwarded

/-! ### The link, while commands end -/

/-- Whether the link is enabled, and its state. -/
def wire (s : State) : Bool × LinkState := (s.pair.linkEn, s.pair.link)

theorem wire_core {s t : State} (h : core t = core s) : wire t = wire s := by rw [wire, core_pair h, wire]

theorem wire_of {s t : State} (h : t.pair = s.pair) : wire t = wire s := by rw [wire, h, wire]

theorem diverge_wire (m : Nat) (s : State) : wire (diverge m s) = wire s := by
  unfold diverge
  split <;> rfl

theorem deliverReply_wire (c : Cmd) (e : Entry) (s : State) : wire (deliverReply c e s) = wire s := by
  by_cases hsrc : c.src = .pairLink
  · unfold deliverReply writeReply
    split
    · split
      · rfl
      · simp only [hsrc]
        refine (wire_core (emit_core ..)).trans ?_
        split
        · exact diverge_wire ..
        · rfl
    · rfl
  · exact wire_of (deliverReply_pair e s hsrc)

theorem complete_wire (c : Cmd) (st : Status) (pl : List Word) (i : Nat) (s : State) : wire (complete c st pl i s) = wire s := by
  unfold complete
  extract_lets e s1 s2
  have h2 : wire s2 = wire s := by
    dsimp only [s2]
    split
    · exact (wire_core (rememberReply_core ..)).trans rfl
    · rfl
  split
  · exact h2
  · exact (deliverReply_wire ..).trans h2

theorem completeId_wire (id : Nat) (st : Status) (pl : List Word) (i : Nat) (s : State) : wire (completeId id st pl i s) = wire s := by
  unfold completeId
  split
  · exact complete_wire ..
  · rfl

theorem breakMeasure_wire (st : Status) (s : State) : wire (breakMeasure st s) = wire s := by
  unfold breakMeasure
  split
  · rfl
  · exact (completeId_wire ..).trans (wire_core (endActivity_core ..))

theorem leaveCalibrate_wire (e : Nat) (s : State) : wire (leaveCalibrate e s) = wire s :=
  (wire_core ((dwellDue_core ..).trans (setMaint_core ..))).trans ((breakMeasure_wire ..).trans (wire_core (core_mk ..)))

theorem finishBefore_pair (e : Nat) {s : State} (h : s.pair.forwarded = []) : (finishBefore e s).pair = s.pair := by
  have hcore : core (catchAll ((List.range s.engines.length).foldl (fun a g => drainEngine g e a) s)) = core s :=
    (catchAll_core ..).trans (foldl_core _ _ _ fun _ _ => drainEngine_core ..)
  refine Eq.trans ?_ (core_pair hcore)
  have hf : (catchAll ((List.range s.engines.length).foldl (fun a g => drainEngine g e a) s)).pair.forwarded = [] := by
    rw [core_pair hcore, h]
  unfold finishBefore decideBefore
  dsimp only
  split
  · exact (core_pair ((core_mk (afterChanges _) ..).trans (afterChanges_core ..))).trans (decideSteps_pair _ _ _ hf)
  · rfl

theorem wire_ite {p : Prop} [Decidable p] {s a b : State} (ha : wire a = wire s) (hb : wire b = wire s) : wire (if p then a else b) = wire s := by
  split
  · exact ha
  · exact hb

theorem setRunMode_wire (m : Mode) (s : State) : wire (setRunMode m s) = wire s := by
  unfold setRunMode
  split <;> rfl

theorem changeMode_wire (m : Mode) (e : Nat) {s : State} (h : s.pair.forwarded = []) : wire (changeMode m e s) = wire s := by
  unfold changeMode
  extract_lets old s1 s2 s3 s4 s5
  have h1 : core s1 = core s := core_if (intAct_core ..) rfl
  have h2 : wire s2 = wire s1 := by
    refine wire_ite ?_ rfl
    refine (wire_core ((stopSlots_core ..).trans (stopProducts_core ..))).trans (wire_of (finishBefore_pair e ?_))
    rw [core_pair h1, h]
  have h4 : wire s4 = wire s3 := wire_ite (wire_core (startProducts_core ..)) rfl
  have h5 : wire s5 = wire s4 := wire_ite (wire_core (intAct_core ..)) rfl
  have h5' : wire s5 = wire s := h5.trans (h4.trans ((setRunMode_wire ..).trans (h2.trans (wire_core h1))))
  split
  · rfl
  · exact wire_ite ((wire_core (dropDwell_core ..)).trans h5') (wire_ite ((leaveCalibrate_wire ..).trans h5') h5')

/-! ### A mirror that leaves, and a link that goes down (R582, R610) -/

/-- The commands of `l'` are some of `l`, and none of them comes to wait. -/
def Fewer (l l' : List Cmd) : Prop := ∀ c ∈ l', ∃ d ∈ l, d.id = c.id ∧ (d.phase ≠ .waiting → c.phase ≠ .waiting)

theorem Fewer.trans {l m n : List Cmd} (a : Fewer l m) (b : Fewer m n) : Fewer l n := fun c hc =>
  have ⟨d, hd, hid, hkeep⟩ := b c hc
  have ⟨x, hx, hid', hkeep'⟩ := a d hd
  ⟨x, hx, hid'.trans hid, fun h => hkeep (hkeep' h)⟩

theorem fewer_filter (p : Cmd → Bool) (l : List Cmd) : Fewer l (l.filter p) := fewer_of fun _ h => List.mem_of_mem_filter h

theorem Fewer.noneWaits {l l' : List Cmd} (h : Fewer l l') (hw : noneWaits l = true) : noneWaits l' = true :=
  List.all_eq_true.mpr fun c hc => by
    obtain ⟨d, hd, -, hkeep⟩ := h c hc
    have hd' := List.all_eq_true.mp hw d hd
    simp only [bne_iff_ne] at hd' ⊢
    exact hkeep hd'

/-- The commands but one, of fewer commands, are fewer. -/
theorem Fewer.others {l l' : List Cmd} (h : Fewer l l') (id : Nat) : Fewer (l.filter fun d => d.id != id) (l'.filter fun d => d.id != id) := by
  intro c hc
  obtain ⟨hc', hne⟩ := List.mem_filter.mp hc
  obtain ⟨d, hd, hid, hkeep⟩ := h c hc'
  exact ⟨d, List.mem_filter.mpr ⟨hd, by rw [hid]; exact hne⟩, hid, hkeep⟩

theorem setRunMode_frame (m : Mode) (s : State) : (setRunMode m s).pair = s.pair ∧ (setRunMode m s).cmds = s.cmds ∧ (setRunMode m s).time = s.time := by
  unfold setRunMode
  split <;> exact ⟨rfl, rfl, rfl⟩

/-- What stands of a device as it leaves the pair: its commands end or go on, nothing is forwarded, and the timebase is as it was. -/
structure Unpaired (s t : State) : Prop where
  wire : wire t = wire s
  fewer : Fewer s.cmds t.cmds
  forwarded : t.pair.forwarded = []
  time : t.time = s.time

theorem Unpaired.trans {s t u : State} (a : Unpaired s t) (b : Unpaired t u) : Unpaired s u :=
  ⟨b.wire.trans a.wire, a.fewer.trans b.fewer, b.forwarded, b.time.trans a.time⟩

theorem completeId_unpaired (id : Nat) (st : Status) (pl : List Word) (i : Nat) {s : State} (hf : s.pair.forwarded = []) :
    Unpaired s (completeId id st pl i s) :=
  have h : Ends s (completeId id st pl i s) := ends_completeId ..
  ⟨completeId_wire .., h.fewer, h.forwarded hf, h.time⟩

theorem leaveMirror_unpaired (e : Nat) {s : State} (hf : s.pair.forwarded = []) : Unpaired s (leaveMirror e s) := by
  obtain ⟨u, hu, hmode⟩ := changeMode_ends .quiet e s
  obtain ⟨hpair, hcmds, htime⟩ := setRunMode_frame .quiet u
  have hfewer : Fewer (setRunMode .quiet u).cmds (changeMode .quiet e s).cmds := hmode.fewer
  rw [hcmds] at hfewer
  refine ⟨changeMode_wire .quiet e hf, (Fewer.trans hu.fewer hfewer).trans (fewer_filter _ _), hmode.forwarded ?_,
    hmode.time.trans (htime.trans hu.time)⟩
  rw [hpair]
  exact hu.forwarded hf

/-- The link as it goes down. -/
def linkLost (s : State) : State := setPair (fun p => { p with link := .down, fourLanes := false, mirrored := false, otherEligible := false }) s

theorem linkDown_joining {s : State} {id : Nat} (hr : s.pair.role = .mirror) (hc : s.pair.condition = .joining) (hj : s.pair.join = some id) :
    linkDown s = completeId id .busy [0, 0, 1] s.index (leaveMirror s.index (linkLost s)) := by
  simp only [linkDown, hr, hc, hj, beq_self_eq_true, Bool.and_self]
  rfl

theorem linkDown_unpaired {s : State} (hf : s.pair.forwarded = []) : Unpaired (linkLost s) (linkDown s) := by
  have hfewer : Fewer (linkLost s).cmds (linkLost s).cmds := fewer_of fun _ h => h
  simp only [linkDown]
  split
  · have hleave : Unpaired (linkLost s) (leaveMirror (linkLost s).index (linkLost s)) := leaveMirror_unpaired _ hf
    exact hleave.trans (completeId_unpaired _ _ _ _ hleave.forwarded)
  · exact ⟨rfl, hfewer, hf, rfl⟩
  · exact ⟨rfl, hfewer, hf, rfl⟩

/-- Without a link the device has no mirror. -/
theorem hasMirror_down {s : State} (h : s.pair.link = .down) : hasMirror s = false := by
  simp [hasMirror, h]

end Sys2Proof.Machine
end

section
/-! O18: the commands of the pair (R597, R604, R608-R613). -/

namespace Sys2Proof.Machine

theorem opened_rowState_pair (k : Nat) (p : Packet) (s : State) : (opened (rowState k p s)).pair = s.pair := rowState_pair k p s

theorem opened_rowState_mode (k : Nat) (p : Packet) (s : State) : (opened (rowState k p s)).mode = s.mode := passTo_mode k s

theorem opened_rowState_shadowed (k : Nat) (p : Packet) (s : State) : (opened (rowState k p s)).shadowed = s.shadowed := passTo_shadowed k s

theorem opened_rowState_time (k : Nat) (p : Packet) (s : State) : (opened (rowState k p s)).time = s.time := rowState_time k p s

/-! ### PAIR_CONFIG (R608) -/

/-- The settings of a PAIR_CONFIG. -/
def pairConfigured (c : Cmd) (s : State) : State :=
  setPair (fun p => { p with
    linkEn := c.flag 0 0, strobeEn := c.flag 0 1, autoRejoin := c.flag 0 2, yieldMask := c.arg 0 7 4, hbTimeout := c.arg 0 25 16,
    strobeSeen := p.strobeSeen && c.flag 0 1 }) s

theorem pairConfig_on {c : Cmd} (e : Nat) {s : State} (h : c.flag 0 0 = true) : specPairConfig.run c e s = (pairConfigured c s, .done .ok []) :=
  congrArg (fun u : State => (u, Fate.done .ok [])) (if_pos h)

theorem pairConfig_off {c : Cmd} (e : Nat) {s : State} (h : c.flag 0 0 = false) :
    specPairConfig.run c e s = (evPairLinkDown (pairConfigured c s), .done .ok []) :=
  congrArg (fun u : State => (u, Fate.done .ok [])) (if_neg (by simp [h]))

section
variable {k : Nat} {p : Packet} {s : State}

/-- With the settings of the pair changed alone, the device has a mirror as before. -/
theorem pairConfigured_alone (ha : hasMirror s = false) (c : Cmd) : hasMirror (pairConfigured c (opened (rowState k p s))) = false := by
  have hpair : (rowState k p s).pair = s.pair := rowState_pair k p s
  show hasMirror (rowState k p s) = false
  rw [hasMirror_congr hpair, ha]

theorem pairConfig_leaves (ha : accepted specPairConfig k p s = true) (hon : (rowCmd k p s).flag 0 0 = true) : ∃ t, exec (.pairConfig k p) s = .next t
    ∧ t.pair.linkEn = true ∧ t.pair.strobeEn = (rowCmd k p s).flag 0 1 ∧ t.pair.autoRejoin = (rowCmd k p s).flag 0 2
    ∧ t.pair.yieldMask = (rowCmd k p s).arg 0 7 4 ∧ t.pair.hbTimeout = (rowCmd k p s).arg 0 25 16
    ∧ t.pair.role = s.pair.role ∧ t.mode = s.mode ∧ t.cmds = s.cmds.filter (fun d => d.id != s.nextId) := by
  have h := (accepted_iff.mp ha).1
  obtain ⟨g, hrow, hg⟩ := row_settles ha rfl rfl rfl (pairConfig_on _ hon) (pairConfigured_alone h.alone _)
    (by show (rowState k p s).pair.forwarded = []; rw [rowState_pair]; exact quiet_forwarded h.quiet)
    (by show noneWaits ((rowState k p s).cmds.filter _) = true; exact noneWaits_served h.quiet)
  have ht : Served (rowCmd k p s) (pairConfigured (rowCmd k p s) (opened (rowState k p s))) (pairNotice s (repliesFirst g (rowState k p s))) :=
    complete_served h.local (by show (rowState k p s).pair.forwarded = []; rw [rowState_pair]; exact quiet_forwarded h.quiet) hg
  refine ⟨_, hrow, ?_⟩
  rw [ht.pair, ht.mode, ht.cmds]
  exact ⟨hon, rfl, rfl, rfl, rfl, (congrArg PairUnit.role (opened_rowState_pair k p s) :), opened_rowState_mode k p s, rowState_rest k p s⟩

/-- What PAIR_CONFIG leaves without a link. -/
theorem evPairLinkDown_unpaired {s : State} (hf : s.pair.forwarded = []) :
    Fewer s.cmds (evPairLinkDown s).cmds ∧ (evPairLinkDown s).pair.forwarded = [] ∧ (evPairLinkDown s).pair.linkEn = s.pair.linkEn
      ∧ (evPairLinkDown s).pair.link = .down := by
  unfold evPairLinkDown
  split
  · next h => exact ⟨fewer_of fun _ h => h, hf, rfl, beq_iff_eq.mp h⟩
  · have h := linkDown_unpaired hf
    exact ⟨h.fewer, h.forwarded, congrArg Prod.fst h.wire, congrArg Prod.snd h.wire⟩

theorem pairConfig_downs (ha : accepted specPairConfig k p s = true) (hoff : (rowCmd k p s).flag 0 0 = false) :
    ∃ t, exec (.pairConfig k p) s = .next t ∧ t.pair.linkEn = false ∧ t.pair.link = .down ∧ hasMirror t = false := by
  have h := (accepted_iff.mp ha).1
  obtain ⟨hfewer, hforwarded, hen, hdown⟩ := evPairLinkDown_unpaired (s := pairConfigured (rowCmd k p s) (opened (rowState k p s)))
    (by show (rowState k p s).pair.forwarded = []; rw [rowState_pair]; exact quiet_forwarded h.quiet)
  obtain ⟨g, hrow, hg⟩ := row_settles ha rfl rfl rfl (pairConfig_off _ hoff) (hasMirror_down hdown) hforwarded
    ((hfewer.others _).noneWaits (noneWaits_served h.quiet))
  have ht := complete_served h.local hforwarded hg (old := s)
  have hlink : (pairNotice s (repliesFirst g (rowState k p s))).pair.link = .down := by rw [ht.pair, hdown]
  refine ⟨_, hrow, ?_, hlink, hasMirror_down hlink⟩
  rw [ht.pair, hen]
  exact hoff

end

/-! ### PAIR_JOIN (R597, R609) -/

/-- The device begins to join. -/
def joinBegun (c : Cmd) (s : State) : State :=
  setPair (fun p => { p with
    role := .mirror, condition := .joining, join := some c.id, joined := none, divergeMseq := 0, checkpoints := [], lastSent := [], heardAt := none,
    liveAt := none }) { s with mode := .shadow, shadowed := .quiet }

theorem pairJoin_begins {c : Cmd} (e : Nat) {s : State} (h : joinReason s = 0) : specPairJoin.run c e s = (joinBegun c s, .first .deferred) := by
  simp only [specPairJoin, h, bne_self_eq_false, Bool.false_eq_true, if_false]
  rfl

theorem pairJoin_refused {c : Cmd} (e : Nat) {s : State} (h : joinReason s ≠ 0) :
    specPairJoin.run c e s = (s, .done .busy [0, 0, BitVec.ofNat 32 (joinReason s)]) := by
  simp only [specPairJoin, bne_iff_ne.mpr h, if_true]

theorem pairJoin_joins (k : Nat) (p : Packet) (s : State) (ha : accepted specPairJoin k p s = true) (hreason : joinReason s = 0) :
    ∃ t, exec (.pairJoin k p) s = .next t
      ∧ t.pair.role = .mirror ∧ t.pair.condition = .joining ∧ t.mode = .shadow ∧ t.shadowed = .quiet ∧ t.time = s.time ∧ t.pool = s.pool := by
  have h := (accepted_iff.mp ha).1
  have hreason' : joinReason (opened (rowState k p s)) = 0 := by rw [joinReason, opened_rowState_pair, ← joinReason, hreason]
  have hforwarded : (joinBegun (rowCmd k p s) (opened (rowState k p s))).pair.forwarded = [] := by
    show (rowState k p s).pair.forwarded = []
    rw [rowState_pair]
    exact quiet_forwarded h.quiet
  obtain ⟨g, hrow, hg⟩ := row_settles ha rfl rfl rfl (pairJoin_begins _ hreason') rfl hforwarded (noneWaits_served (k := k) (p := p) h.quiet)
  have hpair : (settleFate (rowCmd k p s) (rowState k p s).index (joinBegun (rowCmd k p s) (opened (rowState k p s)), .first .deferred)).pair
      = (joinBegun (rowCmd k p s) (opened (rowState k p s))).pair :=
    (settleFate_calm (.inl h.local) hforwarded (noneWaits_served (k := k) (p := p) h.quiet)).1
  refine ⟨_, hrow, ?_⟩
  rw [after_frame, hg]
  refine ⟨?_, ?_, ?_, ?_, ?_, ?_⟩
  · show (settleFate _ _ _).pair.role = _
    rw [hpair]
    rfl
  · show (settleFate _ _ _).pair.condition = _
    rw [hpair]
    rfl
  · show (firstReply _ _ _ _).mode = _
    rw [firstReply_frame]
    rfl
  · show (firstReply _ _ _ _).shadowed = _
    rw [firstReply_frame]
    rfl
  · show (firstReply _ _ _ _).time = _
    rw [firstReply_frame]
    exact opened_rowState_time k p s
  · show (firstReply _ _ _ _).pool = _
    rw [firstReply_frame]
    exact rowState_pool k p s

/-! ### PAIR_LEAVE (R610) -/

/-- The primary dismisses its mirror. -/
def dismissed (s : State) : State :=
  emit .pairDismiss (setPair (fun p => { p with role := .solo, mirrored := false, otherEligible := false, forwarded := [], handover := none }) s)

section
variable {c : Cmd} (e : Nat) {s : State} (hsrc : c.src ≠ .pairLink)
include hsrc

theorem pairLeave_solo (h : s.pair.role = .solo) : specPairLeave.run c e s = (s, .done .ok [BitVec.ofNat 32 s.pair.role.code]) := by
  simp [specPairLeave, hsrc, h]

theorem pairLeave_primary (h : s.pair.role = .primary) :
    specPairLeave.run c e s = (dismissed s, .done .ok [BitVec.ofNat 32 s.pair.role.code]) := by
  simp [specPairLeave, hsrc, h, dismissed]

theorem pairLeave_mirror (h : s.pair.role = .mirror) : specPairLeave.run c e s = (leaveSoon (some c.id) s, .later) := by
  simp [specPairLeave, hsrc, h]

end

theorem pairLeave_leaves (k : Nat) (p : Packet) (s : State) (ha : accepted specPairLeave k p s = true) (hr : s.pair.role = .primary) :
    ∃ t, exec (.pairLeave k p) s = .next t
      ∧ t.pair.role = .solo ∧ t.mode = s.mode ∧ t.cmds = s.cmds.filter (fun d => d.id != s.nextId) ∧ t.time = s.time := by
  have h := (accepted_iff.mp ha).1
  have hr' : (opened (rowState k p s)).pair.role = .primary := by rw [opened_rowState_pair, hr]
  obtain ⟨g, hrow, hg⟩ := row_settles ha rfl rfl rfl (pairLeave_primary _ h.local hr') rfl rfl (noneWaits_served (k := k) (p := p) h.quiet)
  have ht := complete_served h.local rfl hg (old := s)
  refine ⟨_, hrow, ?_⟩
  rw [ht.pair, ht.mode, ht.cmds, ht.time]
  exact ⟨rfl, opened_rowState_mode k p s, rowState_rest k p s, opened_rowState_time k p s⟩

/-- The leaving of a mirror is held among its commands. -/
def leaveHeld (s : State) : Bool := s.cmds.any fun c => c.opcode == 0x1102 && c.src == .pairLink

/-- A mirror that is to leave holds the leaving, and nothing that waits comes with it. -/
theorem leaveSoon_cmds (id : Option Nat) (s : State) :
    ∃ l, (leaveSoon id s).cmds = s.cmds ++ l ∧ leaveHeld (leaveSoon id s) = true ∧ noneWaits l = true ∧ ∀ c ∈ l, c.id = s.nextId := by
  unfold leaveSoon
  split
  · next h => exact ⟨[], (List.append_nil _).symm, h, rfl, nofun⟩
  · refine ⟨_, rfl, ?_, rfl, fun c hc => ?_⟩
    · simp [leaveHeld, holdInternal]
    · rw [List.mem_singleton.mp hc]

theorem leaveSoon_rest (id : Option Nat) (s : State) : (leaveSoon id s).pair = s.pair ∧ (leaveSoon id s).mode = s.mode ∧ (leaveSoon id s).time = s.time := by
  unfold leaveSoon
  split <;> exact ⟨rfl, rfl, rfl⟩

theorem pairLeave_waits (k : Nat) (p : Packet) (s : State) (ha : accepted specPairLeave k p s = true) (hr : s.pair.role = .mirror)
    (hnew : (s.cmds.any fun c => c.id == s.nextId) = false) : ∃ t, exec (.pairLeave k p) s = .next t
      ∧ t.pair = s.pair ∧ t.mode = s.mode ∧ (t.cmds.any fun c => c.opcode == 0x1102 && c.src == .pairLink) = true
      ∧ (t.cmds.any fun c => c.id == s.nextId && c.phase == .running) = true := by
  have h := (accepted_iff.mp ha).1
  have hr' : (opened (rowState k p s)).pair.role = .mirror := by rw [opened_rowState_pair, hr]
  obtain ⟨l, hcmds, hheld, hnone, hid⟩ := leaveSoon_cmds (some (rowCmd k p s).id) (opened (rowState k p s))
  obtain ⟨hpair, hmode, htime⟩ := leaveSoon_rest (some (rowCmd k p s).id) (opened (rowState k p s))
  have hwait : noneWaits ((leaveSoon (some (rowCmd k p s).id) (opened (rowState k p s))).cmds.filter fun d => d.id != (rowCmd k p s).id) = true := by
    have hserved := noneWaits_served (k := k) (p := p) h.quiet
    rw [noneWaits] at hserved
    rw [hcmds, List.filter_append, noneWaits, List.all_append]
    exact Bool.and_eq_true_iff.mpr ⟨hserved, noneWaits_filter _ hnone⟩
  have hrun := row_runs (g := fun a => keepRunning (rowCmd k p s) (leaveSoon (some (rowCmd k p s).id) a)) ha rfl (accepted_untimed ha rfl) rfl
    (pairLeave_mirror _ h.local hr') rfl hwait (hpair.trans (opened_rowState_pair k p s))
    (by rw [locked, htime, opened_rowState_time, locked])
  have hcore := repliesFirst_opened (fun a => keepRunning (rowCmd k p s) (leaveSoon (some (rowCmd k p s).id) a)) (rowState k p s)
  have htcmds : (repliesFirst (fun a => keepRunning (rowCmd k p s) (leaveSoon (some (rowCmd k p s).id) a)) (rowState k p s)).cmds
      = (leaveSoon (some (rowCmd k p s).id) (opened (rowState k p s))).cmds.filter (fun d => d.id != (rowCmd k p s).id)
        ++ [{ rowCmd k p s with phase := .running }] := core_cmds hcore
  refine ⟨_, hrun, ?_, ?_, ?_, ?_⟩
  · exact (core_pair hcore).trans (hpair.trans (opened_rowState_pair k p s))
  · exact (core_mode hcore).trans (hmode.trans (opened_rowState_mode k p s))
  · obtain ⟨d, hd, hdop⟩ := List.any_eq_true.mp hheld
    have hne : (d.id != (rowCmd k p s).id) = true := by
      rw [bne_iff_ne]
      have hmem : d ∈ (s.cmds ++ [rowCmd k p s]) ++ l := by
        rw [hcmds] at hd
        exact rowState_cmds k p s ▸ hd
      rcases List.mem_append.mp hmem with hrow | hleave
      · rcases List.mem_append.mp hrow with hold | hself
        · exact fun hid => absurd (beq_iff_eq.mpr hid) (List.any_eq_false.mp hnew d hold)
        · rw [List.mem_singleton.mp hself] at hdop
          have hlink := (Bool.and_eq_true _ _ ▸ hdop).2
          exact absurd (beq_iff_eq.mp hlink) h.local
      · rw [hid d hleave]
        show s.nextId + 1 ≠ s.nextId
        omega
    rw [htcmds, List.any_append]
    exact Bool.or_eq_true_iff.mpr (.inl (List.any_eq_true.mpr ⟨d, List.mem_filter.mpr ⟨hd, hne⟩, hdop⟩))
  · rw [htcmds, List.any_append]
    exact Bool.or_eq_true_iff.mpr (.inr (by simp [show (rowCmd k p s).id = s.nextId from rfl]))

/-! ### PAIR_TAKEOVER (R612) -/

theorem pairTakeover_run (c : Cmd) (e : Nat) (s : State) : specPairTakeover.run c e s =
    (takeOver 2 (if s.pair.link == .up then emit .pairTakeover s else s), .done .ok (u64Words s.index)) := rfl

theorem pairTakeover_takes (k : Nat) (p : Packet) (s : State) (ha : accepted specPairTakeover k p s = true) : ∃ t, exec (.pairTakeover k p) s = .next t
    ∧ t.pair.role = .primary ∧ t.mode = s.shadowed ∧ t.pair.takeovers = satAdd 32 s.pair.takeovers 1 ∧ t.time = s.time ∧ t.pool = s.pool := by
  have h := (accepted_iff.mp ha).1
  let a := if (opened (rowState k p s)).pair.link == .up then emit .pairTakeover (opened (rowState k p s)) else opened (rowState k p s)
  have hcore : corePool a = corePool (opened (rowState k p s)) := by
    show corePool (if _ then _ else _) = _
    split <;> rfl
  have hpool : a.pool = s.pool := (congrArg Prod.snd hcore).trans (rowState_pool k p s)
  replace hcore : core a = core (opened (rowState k p s)) := congrArg Prod.fst hcore
  have htaken := takeOver_takenOver 2 a
  have hwait : noneWaits ((takeOver 2 a).cmds.filter fun d => d.id != (rowCmd k p s).id) = true := by
    have hids : (fun d : Cmd => d.id != (rowCmd k p s).id) ∘ muted = fun d : Cmd => d.id != (rowCmd k p s).id := funext fun d => by
      show ((muted d).id != _) = _
      unfold muted
      split <;> rfl
    rw [htaken.cmds, core_cmds hcore, List.filter_map, hids, noneWaits_muted]
    exact noneWaits_served h.quiet
  obtain ⟨g, hrow, hg⟩ := row_settles ha rfl rfl rfl (pairTakeover_run _ _ _) htaken.alone htaken.forwarded hwait
  have ht := complete_served h.local htaken.forwarded hg (old := s)
  refine ⟨_, hrow, ?_⟩
  rw [ht.pair, ht.mode, ht.time, ht.pool]
  refine ⟨htaken.role, htaken.mode.trans ?_, htaken.takeovers.trans ?_, htaken.time.trans ?_, htaken.pool.trans hpool⟩
  · exact (congrArg (fun x => x.2.2.2.2.2.1) hcore : a.shadowed = _).trans (opened_rowState_shadowed k p s)
  · rw [core_pair hcore, opened_rowState_pair]
  · rw [core_time hcore, opened_rowState_time]

/-! ### PAIR_STATUS (R613) -/

/-- The words of PAIR_STATUS. -/
def pairStatusWords (s : State) : List Word :=
  [pairWord s, BitVec.ofInt 32 s.pair.skew, BitVec.ofNat 32 s.pair.mseq, BitVec.ofNat 32 s.pair.divergeMseq,
    BitVec.ofNat 32 s.pair.noMirrorCount, BitVec.ofNat 32 s.pair.takeovers, BitVec.ofNat 32 s.pair.resourceMismatch,
    BitVec.ofNat 32 s.pair.hbMissed, BitVec.ofNat 32 s.pair.relayDropped, BitVec.ofNat 32 s.pair.retrains]

/-- The counters of PAIR_STATUS at zero. -/
def pairCleared (s : State) : State := setPair (fun p => { p with resourceMismatch := 0, hbMissed := 0, relayDropped := 0, retrains := 0 }) s

theorem pairStatus_run (c : Cmd) (e : Nat) (s : State) :
    specPairStatus.run c e s = (if c.flag 0 8 then pairCleared s else s, .done .ok (pairStatusWords s)) := rfl

theorem pairStatus_clears (k : Nat) (p : Packet) (s : State) (ha : accepted specPairStatus k p s = true) (hclear : (rowCmd k p s).flag 0 8 = true) :
    ∃ t, exec (.pairStatus k p) s = .next t ∧ t.pair = { s.pair with resourceMismatch := 0, hbMissed := 0, relayDropped := 0, retrains := 0 } := by
  have h := (accepted_iff.mp ha).1
  have hforwarded : (pairCleared (opened (rowState k p s))).pair.forwarded = [] := by
    show (rowState k p s).pair.forwarded = []
    rw [rowState_pair]
    exact quiet_forwarded h.quiet
  have hr := pairStatus_run (rowCmd k p s) (rowState k p s).index (opened (rowState k p s))
  rw [if_pos hclear] at hr
  obtain ⟨g, hrow, hg⟩ := row_settles ha rfl rfl rfl hr ((hasMirror_congr (rowState_pair k p s)).trans h.alone) hforwarded
    (noneWaits_served (k := k) (p := p) h.quiet)
  refine ⟨_, hrow, ?_⟩
  rw [(complete_served h.local hforwarded hg).pair]
  exact congrArg (fun p : PairUnit => { p with resourceMismatch := 0, hbMissed := 0, relayDropped := 0, retrains := 0 }) (opened_rowState_pair k p s)

/-! ### PAIR_SWITCH (R604, R611) -/

/-- A PAIR_SWITCH held for W, which the mirror learns. -/
def switchHeld (c : Cmd) (e : Option Nat) (s : State) : State :=
  match e with
  | some w => emit (.pairState (.switchIndex w)) (heldState c e s)
  | none => heldState c none s

theorem switchHeld_core (c : Cmd) (e : Option Nat) (s : State) : core (switchHeld c e s) = core (heldState c e s) := by
  cases e <;> rfl

theorem holdCmd_switch {c : Cmd} (h : c.opcode = 0x1103) (e : Option Nat) (s : State) : holdCmd c e s = switchHeld c e s := by
  cases e with
  | none => rfl
  | some w =>
    exact if_pos (beq_iff_eq.mpr h)

/-- A PAIR_SWITCH goes to no mirror (R588). -/
theorem forwardCmd_switch {c : Cmd} (h : c.opcode = 0x1103) (e : Option Nat) (s : State) : forwardCmd specPairSwitch c e s = s := by
  have hnever : neverForwarded c.opcode = true := by rw [h]; rfl
  simp [forwardCmd, forwards, hnever]

theorem startCmd_switch {c : Cmd} {s : State} (harrival : { c with arrival := s.index } = c) (hop : c.opcode = 0x1103)
    (hck : checkCmd specPairSwitch c s = none) : startCmd specPairSwitch c s =
      switchHeld c (if c.timed then some c.atIndex else if locked s then some (boundaryAfter s 100000) else none) s := by
  have hlead : leadNs specPairSwitch c s = some 100000 := by simp [leadNs, specPairSwitch]
  simp only [startCmd, harrival, hck, hlead, forwardCmd_switch hop, holdCmd_switch hop]
  split <;> rfl

theorem pairSwitch_holds (k : Nat) (p : Packet) (s : State) (e : Option Nat) (hq : s.quiet = true) (hop : opcodeOf p = 0x1103)
    (hsource : takesFrom p.src (passTo k s) = true) (hfw : s.hub.fw.recovery = false) (hfree : startable (rowState k p s) (rowCmd k p s) = true)
    (hck : checkCmd specPairSwitch (rowCmd k p s) (rowState k p s) = none)
    (he : e = (if (rowCmd k p s).timed then some (atOf p) else if locked s then some (boundaryAfter (rowState k p s) 100000) else none)) :
    exec (.pairSwitch k p) s = .next (switchHeld (rowCmd k p s) e (rowState k p s)) := by
  have h : Starts specPairSwitch k p s := ⟨hq, hop, hsource, hfw, hfree⟩
  have hstart : startCmd specPairSwitch (rowCmd k p s) (rowState k p s) = switchHeld (rowCmd k p s) e (rowState k p s) := by
    rw [startCmd_switch (rowCmd_arrives k p s) hop hck, he, rowState_locked]
    rfl
  have hcore := switchHeld_core (rowCmd k p s) e (rowState k p s)
  have hpair : (switchHeld (rowCmd k p s) e (rowState k p s)).pair = s.pair := (core_pair hcore).trans (rowState_pair k p s)
  refine h.runs rfl hstart ?_ (compareAll_none (by rw [hpair]; exact quiet_forwarded hq))
    (pairWord_congr hpair ((core_locked hcore).trans (rowState_locked k p s)))
  have hserved := noneWaits_served (k := k) (p := p) hq
  rw [noneWaits] at hserved
  rw [core_cmds hcore, heldState, noneWaits, List.all_append]
  exact Bool.and_eq_true_iff.mpr ⟨hserved, rfl⟩

theorem pairSwitch_exchanges (c : Cmd) (w : Nat) (i : Instr) (s : State) (hq : s.quiet = true) (hfirst : firstHeld (fireable s) = some c)
    (hphase : c.phase = .held (some w)) (hop : c.opcode = 0x1103) (hdel : delivering s = true) (hm : hasMirror s = true)
    (helig : s.pair.otherEligible = true) (hquiet : s.mode ≠ .quiet) (hshadow : s.mode ≠ .shadow) (hi : firesIt c i) :
    ∃ t, exec i s = .next t ∧ t.pair.role = .mirror ∧ t.pair.condition = .eligible ∧ t.mode = .shadow ∧ t.shadowed = s.mode ∧ t.time = s.time
      ∧ t.pool = s.pool := by
  have hmode : modeOk specPairSwitch c (runMode (opened (passTo w s))) = true := by
    have hrun : runMode (opened (passTo w s)) = s.mode := by
      have hopened : (opened (passTo w s)).mode = s.mode := passTo_mode w s
      rw [runMode, hopened, if_neg hshadow]
    rw [hrun, modeOk, Bool.or_eq_true]
    refine .inr ?_
    show (s.mode != .quiet && s.mode != .shadow) = true
    simp [hquiet, hshadow]
  have hmirror : (hasMirror (opened (passTo w s)) && (opened (passTo w s)).pair.otherEligible) = true := by
    have hpair : (opened (passTo w s)).pair = s.pair := passTo_pair w s
    rw [hasMirror_congr hpair, hpair, hm, helig]
    rfl
  have heff : c.eff = some w := by simp [Cmd.eff, hphase]
  have hf : fireHeld specPairSwitch c (opened (passTo w s)) = complete c .ok (u64Words w) w (switchRoles w (opened (passTo w s))) := by
    simp only [fireHeld, heff, Option.getD_some, hmode, if_true, applyNow, repliesFirst_nested]
    have hr : specPairSwitch.run c w (opened (passTo w s)) = (switchRoles w (opened (passTo w s)), .done .ok (u64Words w)) := if_pos hmirror
    rw [hr]
    rfl
  have hpair : (complete c .ok (u64Words w) w (switchRoles w (opened (passTo w s)))).pair = (switchRoles w (opened (passTo w s))).pair := by
    rw [complete_pair_ok, recordOwn_none rfl]
  have hcalm : Calm (fireHeld specPairSwitch c (opened (passTo w s))) := by
    rw [hf]
    refine ⟨?_, (hasMirror_congr hpair).trans rfl, by rw [hpair]; rfl⟩
    rw [complete_cmds]
    exact noneWaits_filter _ ((passTo_cmds w s).symm ▸ quiet_noneWaits hq)
  obtain ⟨t, hrun, he, ht⟩ := event_calm hcalm
  rw [fire_row (sp := specPairSwitch) hfirst hphase hop hdel rfl hi]
  refine ⟨t, hrun, ?_⟩
  rw [ht, after_frame, hf]
  refine ⟨?_, ?_, ?_, ?_, ?_, ?_⟩
  · show (complete _ _ _ _ _).pair.role = _
    rw [hpair]
    rfl
  · show (complete _ _ _ _ _).pair.condition = _
    rw [hpair]
    rfl
  · show (complete _ _ _ _ _).mode = _
    rw [complete_frame]
    rfl
  · show (complete _ _ _ _ _).shadowed = _
    rw [complete_frame]
    exact passTo_mode w s
  · show (complete _ _ _ _ _).time = _
    rw [complete_frame]
    exact passTo_time w s
  · show (complete _ _ _ _ _).pool = _
    rw [complete_frame]
    exact passTo_pool w s

/-! ### The obligation -/

/-- Settles O18, command by command; a row that changes the pair is told by `row_settles`. -/
theorem pairCommands : Obligations.PairCommands := by
  unfold Obligations.PairCommands
  refine ⟨fun _ _ _ => pairConfig_leaves, fun _ _ _ => pairConfig_downs, pairJoin_joins, ?_, ?_, pairLeave_leaves, pairLeave_waits, pairTakeover_takes,
    ?_, pairStatus_clears, pairSwitch_holds, pairSwitch_exchanges⟩
  · exact answers_core (fun _ _ _ => rfl) rfl (fun _ => rfl) (fun c s _ _ h => pairJoin_refused (s := opened s) s.index h) fun _ _ => rfl
  · intro k p s ha ht hr
    exact row_plain ha rfl ht rfl (pairLeave_solo (s := opened (rowState k p s)) _ (accepted_iff.mp ha).1.local hr) rfl rfl rfl rfl
  · refine does_core (fun _ _ _ => rfl) rfl (fun _ => rfl) (fun c s _ _ h => ?_) fun _ _ => rfl
    rw [pairStatus_run, if_neg (by simp [h])]
    rfl

end Sys2Proof.Machine
end

section
/-! O42: the link of the pair, its heartbeats and the partner strobe (R582, R585-R587, R600). -/

namespace Sys2Proof.Machine

/-! ### What the pair tells of itself (R614) -/

/-- What PAIR_STATE is sent for: the role, the condition and the state of the link. -/
def shown (s : State) : Role × Condition × LinkState := (s.pair.role, conditionNow s, s.pair.link)

theorem shown_of {s t : State} (hp : t.pair = s.pair) (ht : t.time = s.time) : shown t = shown s := by
  rw [shown, hp, conditionNow, locked, hp, ht, ← locked, ← conditionNow, ← shown]

theorem shown_core {s t : State} (h : core t = core s) : shown t = shown s :=
  shown_of (core_pair h) (core_time h)

/-- The bits of word 0 that PAIR_STATE is sent for. -/
theorem pairWord_low (s : State) : field (pairWord s) 5 0 =
    (s.pair.role.code + (if s.pair.role == .mirror then (conditionNow s).code * 4 else 0) + s.pair.link.code * 16) % 64 := by
  simp only [field, pairWord, BitVec.toNat_ofNat]
  omega

theorem pairNotice_shown {old u : State} (h : shown old = shown u) : pairNotice old u = u := by
  obtain ⟨hrole, hcond, hlink⟩ : old.pair.role = u.pair.role ∧ conditionNow old = conditionNow u ∧ old.pair.link = u.pair.link := by
    simpa [shown] using h
  simp [pairNotice, pairWord_low, hrole, hcond, hlink]

/-- An event that changes of the pair only what it does not tell. -/
theorem event_hushed {f : Nat → State → State} {ev : Nat → Instr} {pre : Nat → State → Prop} {effect : State → State}
    (hrow : ∀ k s, exec (ev k) s = runEvent (f k) k s) (hf : ∀ k s, pre k s → f k (opened s) = effect (opened s))
    (hcalm : ∀ s, Calm s → Calm (effect s)) (hshown : ∀ s, shown (effect s) = shown s) : Event ev pre fun _ => effect := by
  intro k s hq hm hp
  have hcore := repliesFirst_opened effect (passTo k s)
  have hsame : shown s = shown (repliesFirst effect (passTo k s)) :=
    calc shown s = shown (passTo k s) := (shown_of (passTo_pair ..) (passTo_time ..)).symm
      _ = shown (effect (opened (passTo k s))) := (hshown (opened (passTo k s))).symm
      _ = shown (repliesFirst effect (passTo k s)) := (shown_core hcore).symm
  rw [hrow, runEvent, repliesFirst_congr (hf k _ hp), finish_calm ((hcalm _ (opened_calm (calm_quiet hq hm))).core hcore), pairNotice_shown hsame]

/-- An event whose effect has nothing to do with notices leaves just that effect. -/
theorem eventTo_plain {ev : Nat → Instr} {pre : Nat → State → Prop} {effect : State → State} {post : Nat → State → State → Prop}
    (h : Event ev pre fun _ => effect) (hplain : ∀ s l, effect { s with aside := l } = { effect s with aside := l })
    (hpost : ∀ k s, pre k s → post k s (effect s)) : EventTo ev pre post :=
  eventTo_of_event h fun k s hp => by
    rw [repliesFirst_plain (hplain s)]
    exact hpost k s hp

/-- An event after which a mirror may follow the device: no command waits, and no fault is new. -/
theorem eventTo_still {f : Nat → State → State} {ev : Nat → Instr} {pre : Nat → State → Prop} {post : Nat → State → State → Prop}
    (hrow : ∀ k s, exec (ev k) s = runEvent (f k) k s)
    (hstill : ∀ k s, pre k s → Calm s → noneWaits (f k (opened s)).cmds = true ∧ (f k (opened s)).pair.forwarded = []
      ∧ (f k (opened s)).faultCause = s.faultCause)
    (h : ∀ k s t, pre k s → core t = core (f k (opened s)) → post k s t) : EventTo ev pre post := by
  intro k s hq hm hp
  obtain ⟨hnone, hforwarded, hfault⟩ := hstill k _ hp (calm_quiet (k := k) hq hm)
  have hcore : core (repliesFirst (f k) (passTo k s)) = core (f k (opened (passTo k s))) := repliesFirst_opened ..
  have hcause : (repliesFirst (f k) (passTo k s)).faultCause = s.faultCause := by
    have hframe := after_frame (repliesFirst (f k) (passTo k s)) (f k) (passTo k s)
    rw [pairNotice_same rfl] at hframe
    rw [hframe]
    exact hfault.trans (passTo_faultCause k s)
  refine ⟨_, by rw [hrow, runEvent, finish, yieldFaults_same hcause, pump_none (by rw [core_cmds hcore, hnone]),
    compareAll_none (by rw [core_pair hcore, hforwarded])], h k _ _ hp ((pairNotice_core ..).trans hcore)⟩

/-! ### Heartbeats (R585-R587, R600) -/

/-- LIVE advances and the strobe toggles. -/
def beaten (s : State) : State :=
  setPair (fun p => { p with live := (p.live + 1) % 2 ^ 32, strobe := !p.strobe, suppressed := p.suppressed && p.role == .solo }) s

/-- The heartbeat that a device sends. -/
def heartbeatSent (s : State) : State :=
  emit (.heartbeat (s.pair.role == .primary) s.pair.hbTimeout s.pair.live s.index s.pair.mseq (lastSentList s)) s

theorem evHeartbeatSend_runs {s : State} (hrun : coresRun s = true) (hready : s.ready = true) :
    evHeartbeatSend s = if s.pair.link == .up then heartbeatSent (beaten s) else beaten s := by
  simp only [evHeartbeatSend, hrun, hready, Bool.and_self, if_true]
  rfl

theorem evHeartbeatSend_halted {s : State} (hrun : coresRun s = false) (hlink : s.pair.link ≠ .up) : evHeartbeatSend s = s := by
  simp [evHeartbeatSend, hrun, hlink]

theorem heartbeatSend_alone : Event (fun k => .heartbeatSend k)
    (fun _ s => coresRun s = true ∧ s.ready = true ∧ s.pair.link ≠ .up ∧ s.pair.suppressed = false)
    (fun _ s => { s with pair := { s.pair with live := (s.pair.live + 1) % 2 ^ 32, strobe := !s.pair.strobe } }) := by
  refine event_hushed (f := fun _ => evHeartbeatSend) (fun _ _ => rfl) (fun k s ⟨hrun, hready, hlink, hsuppressed⟩ => ?_)
    (fun _ hs => ⟨hs.none, hs.alone, hs.forwarded⟩) fun _ => rfl
  have hoff : ((opened s).pair.suppressed && (opened s).pair.role == .solo) = (opened s).pair.suppressed := by
    rw [show (opened s).pair.suppressed = false from hsuppressed, Bool.false_and]
  refine (evHeartbeatSend_runs (s := opened s) hrun hready).trans ((if_neg (by simp [opened, hlink])).trans ?_)
  rw [beaten, setPair, hoff]

theorem heartbeatSend_sends : EventTo (fun k => .heartbeatSend k) (fun _ s => coresRun s = true ∧ s.ready = true ∧ s.pair.link = .up)
    (fun _ s t => t.pair.live = (s.pair.live + 1) % 2 ^ 32 ∧ t.pair.strobe = !s.pair.strobe
      ∧ t.out = s.out ++ [.heartbeat (s.pair.role == .primary) s.pair.hbTimeout ((s.pair.live + 1) % 2 ^ 32) s.index s.pair.mseq
          (lastSentList s)]) :=
  eventTo_plain (effect := fun s => heartbeatSent (beaten s))
    (event_hushed (f := fun _ => evHeartbeatSend) (fun _ _ => rfl)
      (fun k s ⟨hrun, hready, hlink⟩ => (evHeartbeatSend_runs (s := opened s) hrun hready).trans (if_pos (by simp [opened, hlink])))
      (fun _ hs => ⟨hs.none, hs.alone, hs.forwarded⟩) fun _ => rfl)
    (fun _ _ => rfl) fun _ _ _ => ⟨rfl, rfl, rfl⟩

section
variable {hb : Heartbeat} {s : State}

theorem evHeartbeatReceive_down (h : s.pair.link ≠ .up) : evHeartbeatReceive hb s = s := by
  simp [evHeartbeatReceive, linkUp, h]

theorem evHeartbeatReceive_mirror (hlink : s.pair.link = .up) (hm : hb.mirror = true) : evHeartbeatReceive hb s = seeMirror hb s := by
  simp [evHeartbeatReceive, linkUp, hlink, hm]

/-- What a device that is no mirror leaves when its partner shows itself one. -/
structure MirrorSeen (hb : Heartbeat) (s t : State) : Prop where
  role : t.pair.role = .primary
  mirrored : t.pair.mirrored = true
  eligible : t.pair.otherEligible = hb.eligible
  deposed : t.pair.deposed = false
  cmds : t.cmds = s.cmds
  forwarded : s.pair.forwarded = [] → t.pair.forwarded = []
  cause : t.faultCause = s.faultCause

theorem seeMirror_seen (hr : s.pair.role ≠ .mirror) : MirrorSeen hb s (seeMirror hb s) := by
  unfold seeMirror
  dsimp only
  rw [if_neg (by simpa using hr)]
  split
  · exact ⟨rfl, rfl, rfl, rfl, rfl, fun _ => rfl, rfl⟩
  · exact ⟨rfl, rfl, rfl, rfl, rfl, fun h => h, rfl⟩

theorem heartbeatReceive_mirror (hb : Heartbeat) : EventTo (fun k => .heartbeatReceive k hb)
    (fun _ s => s.pair.link = .up ∧ s.pair.role ≠ .mirror ∧ hb.mirror = true)
    (fun _ _ t => t.pair.role = .primary ∧ t.pair.mirrored = true ∧ t.pair.otherEligible = hb.eligible ∧ t.pair.deposed = false) := by
  have seen {s : State} (h : s.pair.link = .up ∧ s.pair.role ≠ .mirror ∧ hb.mirror = true) :
      MirrorSeen hb (opened s) (evHeartbeatReceive hb (opened s)) := by
    rw [evHeartbeatReceive_mirror (s := opened s) h.1 h.2.2]
    exact seeMirror_seen (s := opened s) h.2.1
  refine eventTo_still (f := fun _ => evHeartbeatReceive hb) (fun _ _ => rfl) (fun k s hp hs => ?_) fun k s t hp ht => ?_
  · have h := seen hp
    exact ⟨h.cmds ▸ hs.none, h.forwarded hs.forwarded, h.cause⟩
  · have h := seen hp
    rw [core_pair ht]
    exact ⟨h.role, h.mirrored, h.eligible, h.deposed⟩

/-- What a mirror keeps of a heartbeat of its primary that carries no LAST_SENT. -/
def heartbeatHeard (hb : Heartbeat) (s : State) : State :=
  setPair (fun p => { p with
    mirrored := false, otherEligible := false,
    hbMissed := satAdd 32 p.hbMissed (missedSince s s.index + oneIf (hb.live == p.otherLive)), heardAt := some s.index,
    liveAt := if hb.live == p.otherLive then p.liveAt else some s.index, otherLive := hb.live, otherHb := hb.hbTimeout, skew := skewOf hb s,
    coasting := hb.coasting, lastSent := [] }) s

theorem evHeartbeatReceive_heard (hlink : s.pair.link = .up) (hr : s.pair.role = .mirror) (hm : hb.mirror = false) (hp : hb.primary = true)
    (hl : hb.lastSent = []) : evHeartbeatReceive hb s = checkSkew (heartbeatHeard hb s) := by
  simp only [evHeartbeatReceive, linkUp, hlink, hr, hm, hp, hl, beq_self_eq_true, bne_self_eq_false, Bool.not_true, Bool.false_eq_true, if_false, if_true,
    List.foldl_nil]
  rfl

/-- The index check leaves of the pair all but the condition. -/
theorem checkSkew_pair (s : State) : (checkSkew s).pair = { s.pair with condition := (checkSkew s).pair.condition } := by
  unfold checkSkew
  split
  · rw [notify_pair]
    rfl
  · rfl

theorem checkSkew_diverged (hskewed : skewed s = true) (hcond : s.pair.condition = .eligible) : (checkSkew s).pair.condition = .diverged := by
  rw [checkSkew, if_pos (by rw [hskewed, hcond]; rfl), notify_pair]
  rfl

theorem checkSkew_narrow (h : skewed s = false) : checkSkew s = s := by
  simp [checkSkew, h]

theorem checkSkew_cmds (s : State) : (checkSkew s).cmds = s.cmds := by
  unfold checkSkew
  split
  · exact notify_cmds ..
  · rfl

theorem skewed_wide (hwide : 12 < s.pair.skew.natAbs) (hcoast : s.pair.coasting = false) (htb : s.time.tb = .locked) : skewed s = true := by
  simp [skewed, hwide, hcoast, locked, holdoverNow, htb, TbState.isLocked, TbState.isHoldover]

theorem skewed_narrow (h : s.pair.skew.natAbs ≤ 12) : skewed s = false := by
  simp [skewed, h]

end

theorem heartbeatReceive_heard (hb : Heartbeat) : EventTo (fun k => .heartbeatReceive k hb)
    (fun _ s => s.pair.link = .up ∧ s.pair.role = .mirror ∧ hb.mirror = false ∧ hb.primary = true ∧ hb.lastSent = [])
    (fun _ s t => t.pair.otherLive = hb.live ∧ t.pair.otherHb = hb.hbTimeout ∧ t.pair.skew = (s.index : Int) - s.pair.latency - hb.index
      ∧ t.pair.role = .mirror ∧ t.pair.heardAt = some s.index
      ∧ t.pair.hbMissed = satAdd 32 s.pair.hbMissed (missedSince s s.index + if hb.live = s.pair.otherLive then 1 else 0)
      ∧ t.pair.liveAt = (if hb.live = s.pair.otherLive then s.pair.liveAt else some s.index)
      ∧ (12 < (skewOf hb s).natAbs → hb.coasting = false → s.time.tb = .locked → s.pair.condition = .eligible → t.pair.condition = .diverged)
      ∧ ((skewOf hb s).natAbs ≤ 12 → t.pair.condition = s.pair.condition)) := by
  refine eventTo_of (f := fun _ => evHeartbeatReceive hb) (fun _ _ => rfl) ?_ ?_
  · intro k s ⟨hlink, hrole, hm, hp, hl⟩ hs
    rw [evHeartbeatReceive_heard (s := opened s) hlink hrole hm hp hl]
    have hpair := checkSkew_pair (heartbeatHeard hb (opened s))
    exact ⟨by rw [checkSkew_cmds]; exact hs.none, by rw [hasMirror, hpair]; exact Bool.and_false _, by rw [hpair]; exact hs.forwarded⟩
  · intro k s t old ⟨hlink, hrole, hm, hp, hl⟩ _ ht
    have hpair : t.pair = (checkSkew (heartbeatHeard hb (opened s))).pair := by
      rw [← evHeartbeatReceive_heard (s := opened s) hlink hrole hm hp hl, ht]
      exact core_pair ((pairNotice_core ..).trans (repliesFirst_opened ..))
    have hmissed : (heartbeatHeard hb (opened s)).pair.hbMissed
        = satAdd 32 s.pair.hbMissed (missedSince s s.index + if hb.live = s.pair.otherLive then 1 else 0) := by
      simp only [heartbeatHeard, setPair, oneIf, beq_iff_eq]
      rfl
    have hlive : (heartbeatHeard hb (opened s)).pair.liveAt = if hb.live = s.pair.otherLive then s.pair.liveAt else some s.index := by
      simp only [heartbeatHeard, setPair, beq_iff_eq]
      rfl
    refine ⟨?_, ?_, ?_, ?_, ?_, ?_, ?_, fun hwide hcoast htb hcond => ?_, fun hnarrow => ?_⟩
    rotate_left 7
    · rw [hpair, checkSkew_diverged (skewed_wide (s := heartbeatHeard hb (opened s)) hwide hcoast htb) hcond]
    · rw [hpair, checkSkew_narrow (skewed_narrow (s := heartbeatHeard hb (opened s)) hnarrow)]
      rfl
    all_goals rw [hpair, checkSkew_pair]
    · rfl
    · rfl
    · rfl
    · exact hrole
    · rfl
    · exact hmissed
    · exact hlive

/-! ### LIVE and the strobe (R586, R600) -/

theorem evLiveStall_stalls {s : State} (hr : s.pair.role = .primary) (hrun : coresRun s = false) :
    evLiveStall s = { s with pair := { s.pair with suppressed := true } } := by
  simp [evLiveStall, hr, hrun, setPair]

theorem evLiveStall_idle {s : State} (h : s.pair.role ≠ .primary ∨ coresRun s = true) : evLiveStall s = s := by
  rcases h with h | h <;> simp [evLiveStall, h]

theorem evPartnerStrobeEdge_seen {s : State} (h : s.pair.strobeEn = true) :
    evPartnerStrobeEdge s = { s with pair := { s.pair with strobeSeen := true } } := by
  simp [evPartnerStrobeEdge, h, setPair]

theorem evPartnerStrobeEdge_off {s : State} (h : s.pair.strobeEn = false) : evPartnerStrobeEdge s = s := by simp [evPartnerStrobeEdge, h]

/-- A strobe that is not enabled, or not a mirror's, or whose mirror neither is ISOLATED nor waits for LIVE, is only seen no more. -/
theorem evPartnerStrobeTimeout_waits {s : State} (h : s.pair.strobeEn = false ∨ s.pair.role ≠ .mirror ∨ (s.pair.condition ≠ .isolated ∧ s.pair.liveAt = none)) :
    evPartnerStrobeTimeout s = { s with pair := { s.pair with strobeSeen := false } } := by
  refine if_neg ?_
  rcases h with h | h | ⟨hcond, hlive⟩
  · simp [setPair, h]
  · simp [setPair, h]
  · simp [setPair, hcond, hlive]

/-! ### The link (R582) -/

/-- An event that leaves the core as `g` does, which keeps the device calm. -/
theorem eventTo_core {f : Nat → State → State} {g : State → State} {ev : Nat → Instr} {pre : Nat → State → Prop} {post : Nat → State → State → Prop}
    (hrow : ∀ k s, exec (ev k) s = runEvent (f k) k s) (hf : ∀ k s, pre k s → core (f k (opened s)) = core (g s))
    (hcalm : ∀ k s, pre k s → Calm s → Calm (g s)) (h : ∀ k s t, pre k s → core t = core (g s) → post k s t) : EventTo ev pre post :=
  eventTo_of hrow (fun k s hp hs => (hcalm k s hp hs).core (hf k s hp)) fun k s _ _ hp _ ht =>
    h k s _ hp (ht ▸ (pairNotice_core ..).trans ((repliesFirst_opened ..).trans (hf k s hp)))

theorem partnerStrobeTimeout_waits : EventTo (fun k => .partnerStrobeTimeout k)
    (fun _ s => s.pair.strobeEn = false ∨ s.pair.role ≠ .mirror ∨ (s.pair.condition ≠ .isolated ∧ s.pair.liveAt = none))
    (fun _ s t => t.pair = { s.pair with strobeSeen := false } ∧ t.mode = s.mode) :=
  eventTo_core (f := fun _ => evPartnerStrobeTimeout) (g := fun s => { s with pair := { s.pair with strobeSeen := false } }) (fun _ _ => rfl)
    (fun _ s h => by rw [evPartnerStrobeTimeout_waits (s := opened s) h]; rfl) (fun _ _ _ hs => ⟨hs.none, hs.alone, hs.forwarded⟩)
    fun _ _ _ _ ht => ⟨core_pair ht, (core_mode ht :)⟩

section
variable {latency compat : Nat} {v : Variant} {later : Bool} {s : State}

theorem evPairLinkTrained_off (h : s.pair.linkEn = false) : evPairLinkTrained latency v compat later s = s := by
  simp [evPairLinkTrained, h]

theorem evPairLinkTrained_other (hen : s.pair.linkEn = true) (h : v ≠ s.variant ∨ compat ≠ s.compat) : evPairLinkTrained latency v compat later s =
    { s with pair := { s.pair with link := .incompatible, mirrored := false, otherEligible := false } } := by
  rcases h with h | h <;> simp [evPairLinkTrained, hen, h, setPair]

theorem evPairLinkTrained_solo (hen : s.pair.linkEn = true) (hv : v = s.variant) (hc : compat = s.compat) (hr : s.pair.role = .solo) :
    evPairLinkTrained latency v compat later s = { s with pair := { s.pair with link := .up, latency := latency } } := by
  simp [evPairLinkTrained, hen, hv, hc, hr, setPair]

theorem evPairLinkTrained_deposed (hen : s.pair.linkEn = true) (hv : v = s.variant) (hc : compat = s.compat) (hr : s.pair.role = .primary) :
    evPairLinkTrained latency v compat true s = depose { s with pair := { s.pair with link := .up, latency := latency } } := by
  simp [evPairLinkTrained, hen, hv, hc, hr, setPair]

end

/-- A deposed device is SOLO, and holds the change to QUIET. -/
theorem depose_calm {s : State} (hnone : noneWaits s.cmds = true) (hforwarded : s.pair.forwarded = []) : Calm (depose s) where
  none := by
    show noneWaits (s.cmds ++ _) = true
    rw [noneWaits, List.all_append, ← noneWaits, hnone]
    rfl
  alone := rfl
  forwarded := hforwarded

theorem evPairLinkDown_solo {s : State} (hlink : s.pair.link ≠ .down) (hr : s.pair.role = .solo) : evPairLinkDown s = linkLost s := by
  simp only [evPairLinkDown, linkDown, hr]
  rw [if_neg (by simpa using hlink)]
  rfl

theorem evPairLinkDown_joining {s : State} {id : Nat} (hlink : s.pair.link ≠ .down) (hr : s.pair.role = .mirror) (hc : s.pair.condition = .joining)
    (hj : s.pair.join = some id) : evPairLinkDown s = completeId id .busy [0, 0, 1] s.index (leaveMirror s.index (linkLost s)) := by
  rw [evPairLinkDown, if_neg (by simpa using hlink), linkDown_joining hr hc hj]

/-- The mirror leaves for SOLO in QUIET, whatever its commands do then. -/
theorem completeId_left (id : Nat) (st : Status) (pl : List Word) (i e : Nat) (s : State) :
    (completeId id st pl i (leaveMirror e s)).pair.role = .solo ∧ (completeId id st pl i (leaveMirror e s)).mode = .quiet :=
  have h : stance (completeId id st pl i (leaveMirror e s)) = stance (leaveMirror e s) := completeId_stance ..
  ⟨congrArg (fun x => x.2.2.1) h, congrArg Prod.fst h⟩

theorem pairLinkDown_joining (id : Nat) : EventTo (fun k => .pairLinkDown k)
    (fun _ s => s.pair.link ≠ .down ∧ s.pair.role = .mirror ∧ s.pair.condition = .joining ∧ s.pair.join = some id)
    (fun _ _ t => t.pair.role = .solo ∧ t.mode = .quiet ∧ t.pair.link = .down ∧ (t.cmds.any fun c => c.id == id) = false) := by
  refine eventTo_of_calm (eventTo_of (f := fun _ => evPairLinkDown) (fun _ _ => rfl) ?_ ?_)
  · intro k s ⟨⟨hlink, hrole, hcond, hjoin⟩, _⟩ hs
    obtain ⟨hfewer, hforwarded, -, hdown⟩ := evPairLinkDown_unpaired (s := opened s) hs.forwarded
    exact ⟨hfewer.noneWaits hs.none, hasMirror_down hdown, hforwarded⟩
  · intro k s t old ⟨⟨hlink, hrole, hcond, hjoin⟩, hs⟩ _ ht
    have hcore : core t = core (evPairLinkDown (opened s)) := ht ▸ (pairNotice_core ..).trans (repliesFirst_opened ..)
    obtain ⟨-, -, -, hdown⟩ := evPairLinkDown_unpaired (s := opened s) hs.forwarded
    have heq := evPairLinkDown_joining (s := opened s) hlink hrole hcond hjoin
    obtain ⟨hsolo, hquiet⟩ := completeId_left id .busy [0, 0, 1] s.index s.index (linkLost (opened s))
    rw [core_pair hcore, core_mode hcore, core_cmds hcore]
    refine ⟨?_, ?_, hdown, ?_⟩ <;> rw [heq]
    · exact hsolo
    · exact hquiet
    · exact gone_completeId ..

/-! ### The relay (R409, R606) -/

section
variable {entry : Nat} {bytes : List Byte} {s : State}

theorem evPairRelayPacket_udp {port : Nat} {v6 : Bool} {dscp src dst : Nat} {mac : Nat} {addr : List Word} (hlink : s.pair.link = .up)
    (hd : (destOf s entry).dest = .udp port v6 dscp src dst mac addr) (hready : destReady s entry = true) :
    evPairRelayPacket entry bytes s = sendTo entry bytes s := by
  simp [evPairRelayPacket, linkUp, hlink, hd, hready]

theorem evPairRelayPacket_down (h : s.pair.link ≠ .up) : evPairRelayPacket entry bytes s = s := by
  simp [evPairRelayPacket, linkUp, h]

theorem evPairRelayPacket_none (hlink : s.pair.link = .up) (hd : (destOf s entry).dest = .none) : evPairRelayPacket entry bytes s =
    { s with pair := { s.pair with relayDropped := satAdd 32 s.pair.relayDropped 1 } } := by
  simp [evPairRelayPacket, linkUp, hlink, hd, setPair]

end

theorem pairRelayPacket_none (entry : Nat) (bytes : List Byte) : EventTo (fun k => .pairRelayPacket k entry bytes)
    (fun _ s => s.pair.link = .up ∧ (destOf s entry).dest = .none)
    (fun _ s t => t.pair = { s.pair with relayDropped := satAdd 32 s.pair.relayDropped 1 } ∧ t.out = s.out ∧ t.strm = s.strm) :=
  eventTo_plain (effect := fun s => { s with pair := { s.pair with relayDropped := satAdd 32 s.pair.relayDropped 1 } })
    (event_hushed (f := fun _ => evPairRelayPacket entry bytes) (fun _ _ => rfl)
      (fun _ s ⟨hlink, hd⟩ => evPairRelayPacket_none (s := opened s) hlink hd) (fun _ hs => ⟨hs.none, hs.alone, hs.forwarded⟩) fun _ => rfl)
    (fun _ _ => rfl) fun _ _ _ => ⟨rfl, rfl, rfl⟩

/-! ### The obligation -/

theorem pairLinkTrained_other (latency : Nat) (v : Variant) (compat : Nat) (later : Bool) : EventTo (fun k => .pairLinkTrained k latency v compat later)
    (fun _ s => s.pair.linkEn = true ∧ (v ≠ s.variant ∨ compat ≠ s.compat))
    (fun _ s t => t.pair = { s.pair with link := .incompatible, mirrored := false, otherEligible := false } ∧ t.mode = s.mode ∧ t.time = s.time) :=
  eventTo_core (f := fun _ => evPairLinkTrained latency v compat later)
    (g := fun s => { s with pair := { s.pair with link := .incompatible, mirrored := false, otherEligible := false } }) (fun _ _ => rfl)
    (fun _ s ⟨hen, h⟩ => by rw [evPairLinkTrained_other (s := opened s) hen h]; rfl) (fun _ _ _ hs => ⟨hs.none, Bool.and_false _, hs.forwarded⟩)
    fun _ _ _ _ ht => ⟨core_pair ht, (core_mode ht :), (core_time ht :)⟩

theorem pairLinkTrained_solo (latency : Nat) (v : Variant) (compat : Nat) (later : Bool) : EventTo (fun k => .pairLinkTrained k latency v compat later)
    (fun _ s => s.pair.linkEn = true ∧ v = s.variant ∧ compat = s.compat ∧ s.pair.role = .solo)
    (fun _ s t => t.pair = { s.pair with link := .up, latency := latency } ∧ t.mode = s.mode ∧ t.time = s.time) :=
  eventTo_core (f := fun _ => evPairLinkTrained latency v compat later)
    (g := fun s => { s with pair := { s.pair with link := .up, latency := latency } }) (fun _ _ => rfl)
    (fun _ s ⟨hen, hv, hc, hr⟩ => by rw [evPairLinkTrained_solo (s := opened s) hen hv hc hr]; rfl)
    (fun _ s ⟨_, _, _, hr⟩ hs => ⟨hs.none, by simp [hasMirror, hr], hs.forwarded⟩)
    fun _ _ _ _ ht => ⟨core_pair ht, (core_mode ht :), (core_time ht :)⟩

theorem pairLinkTrained_deposed (latency : Nat) (v : Variant) (compat : Nat) : EventTo (fun k => .pairLinkTrained k latency v compat true)
    (fun _ s => s.pair.linkEn = true ∧ v = s.variant ∧ compat = s.compat ∧ s.pair.role = .primary)
    (fun _ _ t => t.pair.role = .solo ∧ t.pair.link = .up ∧ t.pair.deposed = true ∧ t.pair.suppressed = true) :=
  eventTo_core (f := fun _ => evPairLinkTrained latency v compat true)
    (g := fun s => depose { opened s with pair := { s.pair with link := .up, latency := latency } }) (fun _ _ => rfl)
    (fun _ s ⟨hen, hv, hc, hr⟩ => by rw [evPairLinkTrained_deposed (s := opened s) hen hv hc hr]; rfl)
    (fun _ _ _ hs => depose_calm hs.none hs.forwarded)
    fun _ _ _ _ ht => by rw [core_pair ht]; exact ⟨rfl, rfl, rfl, rfl⟩

theorem pairLinkDown_solo : EventTo (fun k => .pairLinkDown k) (fun _ s => s.pair.link ≠ .down ∧ s.pair.role = .solo)
    (fun _ s t => t.pair = { s.pair with link := .down, fourLanes := false, mirrored := false, otherEligible := false } ∧ t.mode = s.mode) :=
  eventTo_core (f := fun _ => evPairLinkDown) (g := linkLost) (fun _ _ => rfl)
    (fun _ s ⟨hlink, hr⟩ => by rw [evPairLinkDown_solo (s := opened s) hlink hr]; rfl)
    (fun _ _ _ hs => ⟨hs.none, hasMirror_down rfl, hs.forwarded⟩) fun _ _ _ _ ht => ⟨core_pair ht, (core_mode ht :)⟩

theorem pairLaneFail_retrains : EventTo (fun k => .pairLaneFail k) (fun _ s => s.pair.link = .up)
    (fun _ s t => t.pair = { s.pair with link := .training, fourLanes := true, retrains := satAdd 32 s.pair.retrains 1 }) :=
  eventTo_core (f := fun _ => evPairLaneFail)
    (g := fun s => { s with pair := { s.pair with link := .training, fourLanes := true, retrains := satAdd 32 s.pair.retrains 1 } }) (fun _ _ => rfl)
    (fun _ s hlink => by simp [evPairLaneFail, linkUp, opened, hlink, setPair, core])
    (fun _ s hlink hs => ⟨hs.none, by have h := hs.alone; simpa [hasMirror, hlink] using h, hs.forwarded⟩) fun _ _ _ _ ht => core_pair ht

/-- Settles O42, clause by clause. -/
theorem pairLink : Obligations.PairLink := by
  refine ⟨heartbeatSend_alone, heartbeatSend_sends,
    event_idle (f := fun _ => evHeartbeatSend) (fun _ _ => rfl) fun _ s h => evHeartbeatSend_halted (s := opened s) h.1 h.2,
    fun hb => event_idle (f := fun _ => evHeartbeatReceive hb) (fun _ _ => rfl) fun _ s h => evHeartbeatReceive_down (s := opened s) h,
    heartbeatReceive_mirror, heartbeatReceive_heard, ?_, ?_, ?_, ?_, partnerStrobeTimeout_waits,
    fun latency v compat later => event_idle (f := fun _ => evPairLinkTrained latency v compat later) (fun _ _ => rfl)
      fun _ s h => evPairLinkTrained_off (s := opened s) h,
    pairLinkTrained_other, pairLinkTrained_solo, pairLinkTrained_deposed, ?_, pairLinkDown_solo, pairLinkDown_joining, ?_, pairLaneFail_retrains,
    fun entry bytes port v6 dscp src dst mac addr => ?_, fun entry bytes => ?_, pairRelayPacket_none⟩
  · exact event_hushed (f := fun _ => evLiveStall) (fun _ _ => rfl) (fun _ s h => evLiveStall_stalls (s := opened s) h.1 h.2)
      (fun _ hs => ⟨hs.none, hs.alone, hs.forwarded⟩) fun _ => rfl
  · exact event_idle (f := fun _ => evLiveStall) (fun _ _ => rfl) fun _ s h => evLiveStall_idle (s := opened s) h
  · exact event_hushed (f := fun _ => evPartnerStrobeEdge) (fun _ _ => rfl) (fun _ s h => evPartnerStrobeEdge_seen (s := opened s) h)
      (fun _ hs => ⟨hs.none, hs.alone, hs.forwarded⟩) fun _ => rfl
  · exact event_idle (f := fun _ => evPartnerStrobeEdge) (fun _ _ => rfl) fun _ s h => evPartnerStrobeEdge_off (s := opened s) h
  · exact event_idle (f := fun _ => evPairLinkDown) (fun _ _ => rfl) fun _ s h => if_pos (beq_iff_eq.mpr h)
  · exact event_idle (f := fun _ => evPairLaneFail) (fun _ _ => rfl) fun _ s h => if_pos (by simpa [linkUp, opened] using h)
  · exact event_sends (f := fun _ => evPairRelayPacket entry bytes) (bytes := fun _ => bytes) (fun _ _ => rfl)
      (fun _ s ⟨hlink, hd, hready⟩ => evPairRelayPacket_udp (s := opened s) hlink hd hready) fun _ => rfl
  · exact event_idle (f := fun _ => evPairRelayPacket entry bytes) (fun _ _ => rfl) fun _ s h => evPairRelayPacket_down (s := opened s) h

end Sys2Proof.Machine
end

section
/-! O43: yielding and taking over (R599, R600, R604, R608). -/

namespace Sys2Proof.Machine

/-- A row of the event kind that leaves the device calm leaves the core of what it did. -/
theorem runEvent_calm {f : State → State} {k : Nat} {s u : State} (hf : f (opened (passTo k s)) = u) (h : Calm u) :
    ∃ t, runEvent f k s = .next t ∧ core t = core u :=
  have ⟨t, hrun, _, ht⟩ := event_calm (hf ▸ h)
  ⟨t, hrun, hf ▸ ht ▸ (pairNotice_core ..).trans (repliesFirst_opened ..)⟩

/-! ### Yielding -/

/-- A device that yields is SOLO, deposed and silent, in the mode that it had. -/
theorem yieldNow_leaves {k : Nat} {s : State} (hq : s.quiet = true) : Calm (yieldNow (opened (passTo k s)))
    ∧ ∀ t, core t = core (yieldNow (opened (passTo k s))) → t.pair.role = .solo ∧ t.pair.deposed = true ∧ t.pair.suppressed = true ∧ t.mode = s.mode
      ∧ t.time = s.time :=
  ⟨depose_calm (by show noneWaits (passTo k s).cmds = true; rw [passTo_cmds]; exact quiet_noneWaits hq)
      (by show (passTo k s).pair.forwarded = []; rw [passTo_pair]; exact quiet_forwarded hq),
    fun _ ht => ⟨(congrArg PairUnit.role (core_pair ht) :), (congrArg PairUnit.deposed (core_pair ht) :), (congrArg PairUnit.suppressed (core_pair ht) :),
      (core_mode ht).trans (passTo_mode k s), (core_time ht).trans (passTo_time k s)⟩⟩

theorem evTakeoverRequestReceive_yields {s : State} (hlink : s.pair.link = .up) (hr : s.pair.role = .primary) :
    evTakeoverRequestReceive s = yieldNow s := by
  simp [evTakeoverRequestReceive, linkUp, hlink, hr]

theorem evTakeoverRequestReceive_idle {s : State} (h : s.pair.link ≠ .up ∨ s.pair.role ≠ .primary) : evTakeoverRequestReceive s = s := by
  rcases h with h | h <;> simp [evTakeoverRequestReceive, linkUp, h]

theorem takeoverRequest_yields (k : Nat) (s : State) (hq : s.quiet = true) (hlink : s.pair.link = .up) (hr : s.pair.role = .primary) :
    ∃ t, exec (.takeoverRequestReceive k) s = .next t
      ∧ t.pair.role = .solo ∧ t.pair.deposed = true ∧ t.pair.suppressed = true ∧ t.mode = s.mode ∧ t.time = s.time := by
  have hpair : (opened (passTo k s)).pair = s.pair := passTo_pair k s
  have heq : evTakeoverRequestReceive (opened (passTo k s)) = yieldNow (opened (passTo k s)) :=
    evTakeoverRequestReceive_yields (hpair ▸ hlink) (hpair ▸ hr)
  obtain ⟨hcalm, hleaves⟩ := yieldNow_leaves (k := k) hq
  obtain ⟨t, hrun, ht⟩ := runEvent_calm heq hcalm
  exact ⟨t, hrun, hleaves t ht⟩

/-- The entry of a context is a UDP one of the port. -/
def onPort (s : State) (port e : Nat) : Bool :=
  match (destOf s e).dest with
  | .udp p _ _ _ _ _ _ => p == port
  | _ => false

section
variable {port : Nat} {s : State}

theorem evEgressDownTimeout_yields (hm : hasMirror s = true) (hmask : s.pair.yieldMask.testBit 2 = true) (hdown : (portOf s port).linkUp = false)
    (hctx : (s.strm.ctxs.any fun c => c.started && c.cfg.entries.any (onPort s port)) = true) : evEgressDownTimeout port s = yieldNow s := by
  have hyield : yieldClass 2 s = yieldNow s := by simp [yieldClass, hm, hmask]
  refine Eq.trans (if_pos ?_) hyield
  rw [hdown]
  exact hctx

theorem evEgressDownTimeout_alone (hm : hasMirror s = false) : evEgressDownTimeout port s = s := by
  have hyield : yieldClass 2 s = s := by simp [yieldClass, hm]
  simp only [evEgressDownTimeout, hyield, ite_self]

end

theorem egressDown_yields (k port : Nat) (s : State) (hq : s.quiet = true) (hm : hasMirror s = true) (hmask : s.pair.yieldMask.testBit 2 = true)
    (hdown : (portOf s port).linkUp = false) (hctx : (s.strm.ctxs.any fun c => c.started && c.cfg.entries.any (onPort s port)) = true) :
    ∃ t, exec (.egressDownTimeout k port) s = .next t ∧ t.pair.role = .solo ∧ t.pair.deposed = true ∧ t.mode = s.mode ∧ t.time = s.time := by
  have hpair : (opened (passTo k s)).pair = s.pair := passTo_pair k s
  have hstrm : (opened (passTo k s)).strm = s.strm := by show (passTo k s).strm = s.strm; rw [passTo_frame]
  have hdest (e : Nat) : onPort (opened (passTo k s)) port e = onPort s port e := by rw [onPort, destOf, hstrm]; rfl
  have heq : evEgressDownTimeout port (opened (passTo k s)) = yieldNow (opened (passTo k s)) :=
    evEgressDownTimeout_yields ((hasMirror_congr hpair).trans hm) (by rw [hpair, hmask]) (by rw [portOf, hstrm]; exact hdown)
      (by rw [hstrm]; simpa only [funext hdest] using hctx)
  obtain ⟨hcalm, hleaves⟩ := yieldNow_leaves (k := k) hq
  obtain ⟨t, hrun, ht⟩ := runEvent_calm heq hcalm
  obtain ⟨hsolo, hdeposed, -, hmode, htime⟩ := hleaves t ht
  exact ⟨t, hrun, hsolo, hdeposed, hmode, htime⟩

/-! ### The heartbeat and the strobe of the partner fail (R586, R599) -/

/-- The heartbeats that have not come are counted. -/
def silenceCounted (s : State) : State :=
  setPair (fun p => { p with hbMissed := satAdd 32 p.hbMissed (missedSince s s.index), heardAt := none }) s

section
variable {s : State}

theorem evHeartbeatTimeout_takes (hr : s.pair.role = .mirror) (hc : conditionNow s = .eligible) (hlive : overdue s s.pair.liveAt = true)
    (hstrobe : s.pair.strobeEn = false ∨ s.pair.strobeSeen = false) : evHeartbeatTimeout s = takeOver 1 (silenceCounted s) := by
  rcases hstrobe with h | h <;> simp [evHeartbeatTimeout, hr, hc, hlive, h, silenceCounted]

theorem evHeartbeatTimeout_isolates (hr : s.pair.role = .mirror) (hc : conditionNow s = .eligible) (hlive : overdue s s.pair.liveAt = true)
    (hen : s.pair.strobeEn = true) (hseen : s.pair.strobeSeen = true) (hheard : overdue s s.pair.heardAt = true) :
    evHeartbeatTimeout s = setPair (fun p => { p with condition := .isolated }) (silenceCounted s) := by
  simp [evHeartbeatTimeout, hr, hc, hlive, hen, hseen, hheard, silenceCounted]

theorem evHeartbeatTimeout_waits (h : s.pair.role ≠ .mirror ∨ overdue s s.pair.liveAt = false
    ∨ (s.pair.strobeEn = true ∧ s.pair.strobeSeen = true ∧ overdue s s.pair.heardAt = false)) : evHeartbeatTimeout s = s := by
  rcases h with h | h | ⟨hen, hseen, h⟩
  · simp [evHeartbeatTimeout, h]
  · simp [evHeartbeatTimeout, h]
  · simp only [evHeartbeatTimeout, hen, hseen, h, Bool.and_self, if_true, Bool.false_eq_true, if_false, ite_self]

/-- The strobe is absent. -/
def strobeLost (s : State) : State := setPair (fun p => { p with strobeSeen := false }) s

theorem evPartnerStrobeTimeout_takes (hr : s.pair.role = .mirror) (hen : s.pair.strobeEn = true) (h : s.pair.condition = .isolated
    ∨ (conditionNow s = .eligible ∧ s.pair.liveAt.isSome = true ∧ overdue s s.pair.liveAt = true)) :
    evPartnerStrobeTimeout s = takeOver 1 (strobeLost s) := by
  have hnow : conditionNow (strobeLost s) = conditionNow s := rfl
  have hover : overdue (strobeLost s) (strobeLost s).pair.liveAt = overdue s s.pair.liveAt := rfl
  refine if_pos (show ((strobeLost s).pair.strobeEn && (strobeLost s).pair.role == .mirror && ((strobeLost s).pair.condition == .isolated
    || (conditionNow (strobeLost s) == .eligible && (strobeLost s).pair.liveAt.isSome && overdue (strobeLost s) (strobeLost s).pair.liveAt))) = true
    from ?_)
  rw [hnow, hover]
  rcases h with h | ⟨hc, hsome, hlive⟩
  · simp [strobeLost, setPair, hr, hen, h]
  · simp [strobeLost, setPair, hr, hen, hc, hsome, hlive]

theorem evYieldReceive_takes (hlink : s.pair.link = .up) (h : mayTakeOver s = true) : evYieldReceive s = takeOver 0 s := by
  simp [evYieldReceive, linkUp, hlink, h]

theorem evYieldReceive_idle (h : s.pair.link ≠ .up ∨ mayTakeOver s = false) : evYieldReceive s = s := by
  rcases h with h | h <;> simp [evYieldReceive, linkUp, h]

end

/-- What a takeover leaves of the role, the mode, the takeovers, the timebase and the commands. -/
structure Inherits (s t : State) : Prop where
  role : t.pair.role = .primary
  mode : t.mode = s.shadowed
  takeovers : t.pair.takeovers = satAdd 32 s.pair.takeovers 1
  time : t.time = s.time
  cmds : t.cmds = s.cmds.map muted

theorem inherits_core {cause : Nat} {s t : State} (h : core t = core (takeOver cause s)) : Inherits s t :=
  have ht := takeOver_takenOver cause s
  ⟨core_pair h ▸ ht.role, core_mode h ▸ ht.mode, core_pair h ▸ ht.takeovers, core_time h ▸ ht.time, core_cmds h ▸ ht.cmds⟩

/-- An event by which the mirror takes over, after a change of what it knows of its partner. -/
theorem eventTo_takesOver {f : Nat → State → State} {ev : Nat → Instr} {pre : Nat → State → Prop} {cause : Nat} {g : State → State}
    (hrow : ∀ k s, exec (ev k) s = runEvent (f k) k s) (hf : ∀ k s, pre k s → f k (opened s) = takeOver cause (g (opened s)))
    (hcmds : ∀ s, (g s).cmds = s.cmds) : EventTo ev pre fun _ s t => Inherits (g (opened s)) t :=
  eventTo_core (g := fun s => takeOver cause (g (opened s))) hrow (fun k s hp => by rw [hf k s hp])
    (fun _ s _ hs => (takeOver_takenOver cause (g (opened s))).calm (by rw [hcmds]; exact hs.none)) fun _ _ _ _ ht => inherits_core ht

/-- What stands after an event, told in fewer words. -/
theorem EventTo.imp {ev : Nat → Instr} {pre : Nat → State → Prop} {post post' : Nat → State → State → Prop} (h : EventTo ev pre post)
    (himp : ∀ k s t, post k s t → post' k s t) : EventTo ev pre post' := fun k s hq hm hp =>
  have ⟨t, hrun, ht⟩ := h k s hq hm hp
  ⟨t, hrun, himp k _ t ht⟩

/-- A command of the partner no longer answers. -/
theorem muted_mute {l : List Cmd} {c : Cmd} (h : c ∈ l.map muted) (hsrc : c.src = .pairLink) : c.mute = true := by
  obtain ⟨d, -, rfl⟩ := List.mem_map.mp h
  unfold muted at hsrc ⊢
  split
  · rfl
  · next hd => rw [if_neg hd] at hsrc; exact absurd (beq_iff_eq.mpr hsrc) hd

theorem heartbeatTimeout_takes : EventTo (fun k => .heartbeatTimeout k)
    (fun _ s => s.pair.role = .mirror ∧ conditionNow s = .eligible ∧ overdue s s.pair.liveAt = true
      ∧ (s.pair.strobeEn = false ∨ s.pair.strobeSeen = false))
    (fun _ s t => t.pair.role = .primary ∧ t.mode = s.shadowed ∧ t.pair.takeovers = satAdd 32 s.pair.takeovers 1 ∧ t.time = s.time
      ∧ (∀ c ∈ t.cmds, c.src = .pairLink → c.mute = true)) :=
  (eventTo_takesOver (g := silenceCounted) (f := fun _ => evHeartbeatTimeout) (fun _ _ => rfl)
    (fun _ s ⟨hr, hc, hlive, hstrobe⟩ => evHeartbeatTimeout_takes (s := opened s) hr hc hlive hstrobe) fun _ => rfl).imp
    fun _ _ _ ht => ⟨ht.role, ht.mode, ht.takeovers, ht.time, fun _ hc hsrc => muted_mute (ht.cmds ▸ hc) hsrc⟩

theorem heartbeatTimeout_isolates : EventTo (fun k => .heartbeatTimeout k)
    (fun _ s => s.pair.role = .mirror ∧ conditionNow s = .eligible ∧ overdue s s.pair.liveAt = true ∧ s.pair.strobeEn = true
      ∧ s.pair.strobeSeen = true ∧ overdue s s.pair.heardAt = true)
    (fun _ s t => t.pair = { s.pair with
        condition := .isolated, hbMissed := satAdd 32 s.pair.hbMissed (missedSince s s.index), heardAt := none } ∧ t.mode = s.mode ∧ t.time = s.time) :=
  eventTo_core (f := fun _ => evHeartbeatTimeout) (g := fun s => setPair (fun p => { p with condition := .isolated }) (silenceCounted s))
    (fun _ _ => rfl) (fun _ s ⟨hr, hc, hlive, hen, hseen, hheard⟩ => by
      rw [evHeartbeatTimeout_isolates (s := opened s) hr hc hlive hen hseen hheard]
      rfl)
    (fun _ _ _ hs => ⟨hs.none, hs.alone, hs.forwarded⟩) fun _ _ _ _ ht => ⟨core_pair ht, (core_mode ht :), (core_time ht :)⟩

theorem partnerStrobeTimeout_takes : EventTo (fun k => .partnerStrobeTimeout k)
    (fun _ s => s.pair.role = .mirror ∧ s.pair.strobeEn = true
      ∧ (s.pair.condition = .isolated ∨ (conditionNow s = .eligible ∧ s.pair.liveAt.isSome = true ∧ overdue s s.pair.liveAt = true)))
    (fun _ s t => t.pair.role = .primary ∧ t.mode = s.shadowed ∧ t.time = s.time) :=
  (eventTo_takesOver (g := strobeLost) (f := fun _ => evPartnerStrobeTimeout) (fun _ _ => rfl)
    (fun _ s ⟨hr, hen, h⟩ => evPartnerStrobeTimeout_takes (s := opened s) hr hen h) fun _ => rfl).imp fun _ _ _ ht => ⟨ht.role, ht.mode, ht.time⟩

theorem yieldReceive_takes : EventTo (fun k => .yieldReceive k) (fun _ s => s.pair.link = .up ∧ mayTakeOver s = true)
    (fun _ s t => t.pair.role = .primary ∧ t.mode = s.shadowed ∧ t.pair.takeovers = satAdd 32 s.pair.takeovers 1 ∧ t.time = s.time) :=
  (eventTo_takesOver (g := id) (f := fun _ => evYieldReceive) (fun _ _ => rfl) (fun _ s ⟨hlink, h⟩ => evYieldReceive_takes (s := opened s) hlink h)
    fun _ => rfl).imp fun _ _ _ ht => ⟨ht.role, ht.mode, ht.takeovers, ht.time⟩

/-! ### The switch of the roles (R604) -/

theorem mirrorSwitch_takes {w : Nat} {s : State} (hr : s.pair.role = .mirror) (hc : conditionNow s = .eligible) (hw : s.pair.switchAt = some w) :
    mirrorSwitch w s = setPair (fun p => { p with handover := some w }) (takeOver 3 s) := by
  simp [mirrorSwitch, hr, hc, hw]

theorem switchIndex_takes (w : Nat) (s : State) (hq : s.quiet = true) (hr : s.pair.role = .mirror) (hc : conditionNow s = .eligible)
    (hw : s.pair.switchAt = some w) : ∃ t, exec (.switchIndex w) s = .next t
      ∧ t.pair.role = .primary ∧ t.pair.handover = some w ∧ t.mode = s.shadowed ∧ t.time = s.time := by
  have hpair : (opened (passTo w s)).pair = s.pair := passTo_pair w s
  have hshown : shown (opened (passTo w s)) = shown s := shown_of hpair (passTo_time w s)
  have heq := mirrorSwitch_takes (w := w) (s := opened (passTo w s)) (hpair ▸ hr) ((congrArg (fun x => x.2.1) hshown).trans hc) (hpair ▸ hw)
  have htaken := takeOver_takenOver 3 (opened (passTo w s))
  have hcalm : Calm (takeOver 3 (opened (passTo w s))) := htaken.calm (by
    show noneWaits (passTo w s).cmds = true
    rw [passTo_cmds]
    exact quiet_noneWaits hq)
  have hmode : (takeOver 3 (opened (passTo w s))).mode = s.shadowed := htaken.mode.trans (passTo_shadowed w s)
  have htime : (takeOver 3 (opened (passTo w s))).time = s.time := htaken.time.trans (passTo_time w s)
  have hrole := htaken.role
  generalize takeOver 3 (opened (passTo w s)) = u at heq hcalm hmode htime hrole
  obtain ⟨t, hrun, ht⟩ := runEvent_calm heq ⟨hcalm.none, hcalm.alone, hcalm.forwarded⟩
  have hrow : exec (.switchIndex w) s = runEvent (mirrorSwitch w) w s := if_neg (by simp [hr])
  have hpair' : t.pair = { u.pair with handover := some w } := core_pair ht
  exact ⟨t, hrow.trans hrun, by rw [hpair', ← hrole], by rw [hpair'], (core_mode ht).trans hmode, (core_time ht).trans htime⟩

theorem switchIndex_solo (w : Nat) (s : State) (hq : s.quiet = true) (hr : s.pair.role = .solo) :
    ∃ t, exec (.switchIndex w) s = .next t ∧ t.pair = s.pair ∧ t.mode = s.mode ∧ t.time = s.time := by
  have hpair : (opened (passTo w s)).pair = s.pair := passTo_pair w s
  have heq : mirrorSwitch w (opened (passTo w s)) = opened (passTo w s) := if_neg (by rw [hpair, hr]; simp)
  have hcalm : Calm (opened (passTo w s)) := opened_calm (calm_quiet hq (by simp [hasMirror, hr]))
  obtain ⟨t, hrun, ht⟩ := runEvent_calm heq hcalm
  have hrow : exec (.switchIndex w) s = runEvent (mirrorSwitch w) w s := if_neg (by simp [hr])
  exact ⟨t, hrow.trans hrun, (core_pair ht).trans hpair, (core_mode ht).trans (passTo_mode w s), (core_time ht).trans (passTo_time w s)⟩

/-! ### The obligation -/

/-- Settles O43, clause by clause. -/
theorem takeover : Obligations.Takeover :=
  ⟨takeoverRequest_yields,
    event_idle (f := fun _ => evTakeoverRequestReceive) (fun _ _ => rfl) fun _ s h => evTakeoverRequestReceive_idle (s := opened s) h,
    egressDown_yields,
    fun port => event_of_calm (event_of (f := fun _ => evEgressDownTimeout port) (fun _ _ => rfl)
      (fun _ s h => evEgressDownTimeout_alone (s := opened s) h.2.alone) (fun _ _ _ hs => opened_calm hs) (fun _ _ _ _ => rfl) fun _ _ _ => rfl),
    heartbeatTimeout_takes, heartbeatTimeout_isolates,
    event_idle (f := fun _ => evHeartbeatTimeout) (fun _ _ => rfl) fun _ s h => evHeartbeatTimeout_waits (s := opened s) h,
    partnerStrobeTimeout_takes, yieldReceive_takes,
    event_idle (f := fun _ => evYieldReceive) (fun _ _ => rfl) fun _ s h => evYieldReceive_idle (s := opened s) h,
    switchIndex_takes, switchIndex_solo⟩

end Sys2Proof.Machine
end

section
/-! O44: what the mirror receives (R588, R591, R593, R597). -/

namespace Sys2Proof.Machine

theorem core_shadowed {s t : State} (h : core t = core s) : t.shadowed = s.shadowed := congrArg (fun x => x.2.2.2.2.2.1) h

theorem core_nextId {s t : State} (h : core t = core s) : t.nextId = s.nextId := congrArg (fun x => x.2.2.2.2.2.2.2.2.2.2) h

/-- The notices of an action write the ways of the notices alone. -/
theorem repliesFirst_frame (f : State → State) (s : State) :
    repliesFirst f s = { f (opened s) with
      aside := (repliesFirst f s).aside, qps := (repliesFirst f s).qps, spi := (repliesFirst f s).spi, glob := (repliesFirst f s).glob,
      strm := (repliesFirst f s).strm, out := (repliesFirst f s).out, notices := (repliesFirst f s).notices } := by
  have h := after_frame (repliesFirst f s) f s
  rwa [pairNotice_same rfl] at h

/-! ### Forwarded commands (R588, R591) -/

/-- A forwarded command as the mirror takes it. -/
def forwardedCmd (f : Forwarded) (s : State) : Cmd :=
  { id := s.nextId, opcode := f.opcode, src := .pairLink, flags := f.flags &&& 0xEF#8, plen := f.params.length, tag := f.tag, atIndex := f.atIndex,
    inline := f.params, fetched := none, arrival := s.index, phase := .waiting, replied := false, mute := false, origin := f.origin, mseq := f.mseq }

/-- The mirror has heard of the next forwarded command. -/
def forwardedSeen (f : Forwarded) (s : State) : State := setPair (fun p => { p with mseq := f.mseq }) { s with nextId := s.nextId + 1 }

section
variable {f : Forwarded} {s : State}

theorem forwardedCmd_direct : (forwardedCmd f s).indirect = false := by
  show (f.flags &&& 0xEF#8).getLsbD 4 = false
  simp

theorem evForwardedCommand_idle (h : s.pair.link ≠ .up ∨ s.pair.role ≠ .mirror ∨ neverForwarded f.opcode = true) : evForwardedCommand f s = s := by
  rcases h with h | h | h <;> simp [evForwardedCommand, linkUp, h]

theorem evForwardedCommand_waits (hlink : s.pair.link = .up) (hr : s.pair.role = .mirror) (hnever : neverForwarded f.opcode = false)
    (horigin : f.origin < 18) (hop : f.opcode ≠ 0x0105) :
    evForwardedCommand f s = { forwardedSeen f s with cmds := s.cmds ++ [forwardedCmd f s] } := by
  have horigin' : ¬18 ≤ f.origin := by omega
  simp only [evForwardedCommand, linkUp, hlink, hr, hnever, horigin', hop, decide_false, beq_self_eq_true, bne_self_eq_false, Bool.not_true, Bool.or_self,
    Bool.false_eq_true, if_false]
  rfl

/-- A forwarded MEM_WRITE is done, and answered OK. -/
def forwardedWrite (f : Forwarded) (p : Partition) (s : State) : State :=
  emit (.pairStatus f.mseq .ok)
    (poolWrite p.slot ((f.params.take f.params.length).getD 1 0).toNat (f.data.take ((f.params.take f.params.length).getD 2 0).toNat) (forwardedSeen f s))

/-- The words of a command whose words are those that were forwarded. -/
theorem word_forwarded {c : Cmd} (hinline : c.inline = f.params) (hdirect : c.indirect = false) (hplen : c.plen = f.params.length) (i : Nat) :
    c.word i = (f.params.take f.params.length).getD i 0 := by
  rw [Cmd.word, Cmd.params, hdirect, hinline, hplen]
  rfl

theorem evForwardedCommand_writes {p : Partition} (hlink : s.pair.link = .up) (hr : s.pair.role = .mirror) (horigin : f.origin < 18)
    (hop : f.opcode = 0x0105) (hpart : partForUse s (f.params.getD 0 0) = some p) (hfree : writtenBy s (f.params.getD 0 0) = false)
    (hfit : ∀ c : Cmd, c.inline = f.params → c.indirect = false → c.plen = f.params.length →
      c.word 0 = f.params.getD 0 0 ∧ transferOk c p = true) : evForwardedCommand f s = forwardedWrite f p s := by
  have horigin' : ¬18 ≤ f.origin := by omega
  have hnever : neverForwarded 0x0105 = false := by decide
  obtain ⟨hhandle, hok⟩ := hfit (forwardedCmd f s) rfl forwardedCmd_direct rfl
  have hpart' : partForUse (forwardedSeen f s) ((forwardedCmd f s).word 0) = some p := by rw [hhandle]; exact hpart
  have hfree' : writtenBy (forwardedSeen f s) ((forwardedCmd f s).word 0) = false := by rw [hhandle]; exact hfree
  have hdone : evForwardedCommand f s = (match partForUse (forwardedSeen f s) ((forwardedCmd f s).word 0) with
      | some p =>
        if transferOk (forwardedCmd f s) p && !writtenBy (forwardedSeen f s) ((forwardedCmd f s).word 0) then
          emit (.pairStatus f.mseq .ok) (poolWrite p.slot ((forwardedCmd f s).word 1).toNat (f.data.take ((forwardedCmd f s).word 2).toNat) (forwardedSeen f s))
        else emit (.pairStatus f.mseq .badParam) (diverge f.mseq (forwardedSeen f s))
      | none => emit (.pairStatus f.mseq .badParam) (diverge f.mseq (forwardedSeen f s))) := by
    simp only [evForwardedCommand, linkUp, hlink, hr, hop, hnever, horigin', decide_false, beq_self_eq_true, bne_self_eq_false, Bool.not_true,
      Bool.or_self, Bool.false_eq_true, if_false, if_true]
    rfl
  rw [hdone, hpart']
  simp only [hok, hfree', Bool.not_false, Bool.and_self, if_true]
  rw [word_forwarded (c := forwardedCmd f s) rfl forwardedCmd_direct rfl, word_forwarded (c := forwardedCmd f s) rfl forwardedCmd_direct rfl]
  rfl

theorem forwardedWrite_core (p : Partition) : core (forwardedWrite f p s) = core (forwardedSeen f s) := (emit_core ..).trans (poolWrite_core ..)

end

/-- A device that does not serve starts nothing. -/
theorem pump_stopped {s : State} (h : serves s = false) (n : Nat) : pump n s = s := by
  cases n with
  | zero => rfl
  | succ n => rw [pump, h]; rfl

/-- An event of a device that serves no command, and has no mirror then. -/
theorem eventTo_unserved {f : Nat → State → State} {ev : Nat → Instr} {pre : Nat → State → Prop} {post : Nat → State → State → Prop}
    (hrow : ∀ k s, exec (ev k) s = runEvent (f k) k s)
    (hstill : ∀ k s, pre k s → Calm s → serves (f k (opened s)) = false ∧ hasMirror (f k (opened s)) = false ∧ (f k (opened s)).pair.forwarded = [])
    (h : ∀ k s t, pre k s → core t = core (f k (opened s)) → post k s t) : EventTo ev pre post := by
  intro k s hq hm hp
  obtain ⟨hserves, halone, hforwarded⟩ := hstill k _ hp (calm_quiet (k := k) hq hm)
  have hcore : core (repliesFirst (f k) (passTo k s)) = core (f k (opened (passTo k s))) := repliesFirst_opened ..
  have hpair := core_pair hcore
  have hserves' : serves (repliesFirst (f k) (passTo k s)) = false := by
    rw [repliesFirst_frame]
    exact hserves
  refine ⟨_, by rw [hrow, runEvent, finish, yieldFaults_alone ((hasMirror_congr hpair).trans halone), pump_stopped hserves',
    compareAll_none (by rw [hpair, hforwarded])], h k _ _ hp ((pairNotice_core ..).trans hcore)⟩

theorem forwardedCommand_waits (f : Forwarded) : EventTo (fun k => .forwardedCommand k f)
    (fun _ s => s.pair.link = .up ∧ s.pair.role = .mirror ∧ neverForwarded f.opcode = false ∧ f.origin < 18 ∧ f.opcode ≠ 0x0105 ∧ serves s = false)
    (fun _ s t => t.pair.mseq = f.mseq ∧ t.nextId = s.nextId + 1 ∧ (∃ c, t.cmds = s.cmds ++ [c] ∧ c.opcode = f.opcode ∧ c.src = .pairLink ∧ c.id = s.nextId
      ∧ c.tag = f.tag ∧ c.atIndex = f.atIndex ∧ c.inline = f.params ∧ c.mseq = f.mseq ∧ c.phase = .waiting)) := by
  refine eventTo_unserved (f := fun _ => evForwardedCommand f) (fun _ _ => rfl) ?_ ?_
  · intro k s ⟨hlink, hr, hnever, horigin, hop, hserves⟩ hs
    rw [evForwardedCommand_waits (s := opened s) hlink hr hnever horigin hop]
    exact ⟨hserves, hs.alone, hs.forwarded⟩
  · intro k s t ⟨hlink, hr, hnever, horigin, hop, _⟩ ht
    rw [evForwardedCommand_waits (s := opened s) hlink hr hnever horigin hop] at ht
    exact ⟨(congrArg PairUnit.mseq (core_pair ht) :), (core_nextId ht :), forwardedCmd f s, (core_cmds ht :), rfl, rfl, rfl, rfl, rfl, rfl, rfl, rfl⟩

theorem forwardedCommand_writes (f : Forwarded) (p : Partition) : EventTo (fun k => .forwardedCommand k f)
    (fun _ s => s.pair.link = .up ∧ s.pair.role = .mirror ∧ f.origin < 18 ∧ f.opcode = 0x0105 ∧ partForUse s (f.params.getD 0 0) = some p
      ∧ writtenBy s (f.params.getD 0 0) = false
      ∧ (∀ c : Cmd, c.inline = f.params → c.indirect = false → c.plen = f.params.length → c.word 0 = f.params.getD 0 0 ∧ transferOk c p = true))
    (fun _ s t => t.pair.mseq = f.mseq ∧ t.cmds = s.cmds ∧ t.time = s.time ∧ t.mode = s.mode ∧ t.out = s.out ++ [.pairStatus f.mseq .ok]
      ∧ (∀ c : Cmd, c.inline = f.params → c.indirect = false → c.plen = f.params.length →
          t.pool = (poolWrite p.slot (c.word 1).toNat (f.data.take (c.word 2).toNat) s).pool)) := by
  refine eventTo_plain (effect := forwardedWrite f p) (event_hushed (f := fun _ => evForwardedCommand f) (fun _ _ => rfl)
    (fun _ s ⟨hlink, hr, horigin, hop, hpart, hfree, hfit⟩ => evForwardedCommand_writes (s := opened s) hlink hr horigin hop hpart hfree hfit)
    (fun s hs => ?_) fun s => ?_) (fun _ _ => rfl) fun _ s _ => ⟨rfl, rfl, rfl, rfl, rfl, fun c hinline hdirect hplen => ?_⟩
  · exact Calm.core (s := forwardedSeen f s) ⟨hs.none, hs.alone, hs.forwarded⟩ (forwardedWrite_core p)
  · exact (shown_core (forwardedWrite_core p)).trans rfl
  · rw [word_forwarded hinline hdirect hplen, word_forwarded hinline hdirect hplen]
    rfl

/-! ### The statuses of the mirror (R591) -/

theorem evMirrorStatusReturn_none {mseq : Nat} {st : Status} {s : State} (h : s.pair.forwarded = []) : evMirrorStatusReturn mseq st s = s := by
  have hpair (g : ForwardRecord → ForwardRecord) : { s.pair with forwarded := s.pair.forwarded.map g } = s.pair := by rw [h, List.map_nil, ← h]
  unfold evMirrorStatusReturn
  split
  · rfl
  · rw [setPair, hpair]

/-- The mirror's status reaches the record of its command. -/
theorem evMirrorStatusReturn_meets {mseq a : Nat} {own st : Status} {s : State} (hlink : s.pair.link = .up)
    (hf : s.pair.forwarded = [{ mseq := mseq, cmd := a, own := some own, other := none }]) : evMirrorStatusReturn mseq st s =
      setPair (fun p => { p with forwarded := [{ mseq := mseq, cmd := a, own := some own, other := some st }] }) s := by
  simp [evMirrorStatusReturn, linkUp, hlink, setPair, hf]

/-- The device compares the two statuses, and starts nothing when it holds no command. -/
theorem mirrorStatusReturn_compares {k mseq a : Nat} {own st : Status} {s : State} (hcmds : s.cmds = []) (hlink : s.pair.link = .up)
    (hf : s.pair.forwarded = [{ mseq := mseq, cmd := a, own := some own, other := none }]) :
    ∃ t u, exec (.mirrorStatusReturn k mseq st) s = .next t ∧ core t = core (compareStatus { mseq := mseq, cmd := a, own := some own, other := some st } u)
      ∧ u.pair = { s.pair with forwarded := [{ mseq := mseq, cmd := a, own := some own, other := some st }] } ∧ u.mode = s.mode := by
  have hpair : (opened (passTo k s)).pair = s.pair := passTo_pair k s
  have heq := evMirrorStatusReturn_meets (mseq := mseq) (st := st) (s := opened (passTo k s)) (hpair ▸ hlink) (hpair ▸ hf)
  let u := repliesFirst (evMirrorStatusReturn mseq st) (passTo k s)
  have hcore : core u = core _ := (repliesFirst_opened ..).trans (congrArg core heq)
  have hu : u.pair = { s.pair with forwarded := [{ mseq := mseq, cmd := a, own := some own, other := some st }] } := by
    rw [core_pair hcore, ← hpair]
    rfl
  have hcause : u.faultCause = s.faultCause := by
    show (repliesFirst _ _).faultCause = _
    rw [repliesFirst_frame, heq]
    exact passTo_faultCause k s
  have hnone : noneWaits u.cmds = true := by
    rw [core_cmds hcore]
    show noneWaits (passTo k s).cmds = true
    rw [passTo_cmds, hcmds]
    rfl
  refine ⟨_, u, rfl, ?_, hu, (core_mode hcore).trans (passTo_mode k s)⟩
  show core (finish s u) = _
  rw [finish, yieldFaults_same hcause, pump_none hnone, compareAll, hu]
  exact pairNotice_core ..

section
variable {r : ForwardRecord} {own st : Status} {s : State}

theorem compareStatus_agree (hown : r.own = some st) (hother : r.other = some st) (hfirst : st.isFirst = false) (hrej : st.rejects = false) :
    compareStatus r s = setPair (fun p => { p with forwarded := p.forwarded.filter (fun x => x.mseq != r.mseq) }) s := by
  simp [compareStatus, hown, hother, hfirst, hrej]

theorem compareStatus_diverges (hown : r.own = some own) (hother : r.other = some st) (hcode : own.code < 0x10) (hrej : st.rejects = true) :
    (compareStatus r s).pair.divergeMseq = r.mseq ∧ (compareStatus r s).pair.otherEligible = false ∧ (compareStatus r s).mode = s.mode := by
  simp only [compareStatus, hown, hother, hcode, hrej, decide_true, Bool.and_self, if_true, notify_pair]
  exact ⟨rfl, rfl, (core_mode (notify_core ..)).trans rfl⟩

end

theorem mirrorStatusReturn_agrees (k mseq : Nat) (st : Status) (a : Nat) (s : State) (hcmds : s.cmds = []) (hlink : s.pair.link = .up)
    (hf : s.pair.forwarded = [{ mseq := mseq, cmd := a, own := some st, other := none }]) (hfirst : st.isFirst = false) (hrej : st.rejects = false) :
    ∃ t, exec (.mirrorStatusReturn k mseq st) s = .next t ∧ t.pair.forwarded = [] ∧ t.pair.divergeMseq = s.pair.divergeMseq ∧ t.mode = s.mode := by
  obtain ⟨t, u, hrun, ht, hu, hmode⟩ := mirrorStatusReturn_compares (k := k) (st := st) hcmds hlink hf
  rw [compareStatus_agree rfl rfl hfirst hrej] at ht
  refine ⟨t, hrun, ?_, ?_, (core_mode ht).trans hmode⟩ <;> rw [core_pair ht] <;> simp [setPair, hu]

theorem mirrorStatusReturn_diverges (k mseq : Nat) (own st : Status) (a : Nat) (s : State) (hcmds : s.cmds = []) (hlink : s.pair.link = .up)
    (hf : s.pair.forwarded = [{ mseq := mseq, cmd := a, own := some own, other := none }]) (_ : own.isFirst = false) (hcode : own.code < 0x10)
    (hrej : st.rejects = true) : ∃ t, exec (.mirrorStatusReturn k mseq st) s = .next t
      ∧ t.pair.divergeMseq = mseq ∧ t.pair.otherEligible = false ∧ t.mode = s.mode := by
  obtain ⟨t, u, hrun, ht, -, hmode⟩ := mirrorStatusReturn_compares (k := k) (st := st) hcmds hlink hf
  obtain ⟨hmseq, helig, hm⟩ := compareStatus_diverges (r := { mseq := mseq, cmd := a, own := some own, other := some st }) (s := u) rfl rfl hcode hrej
  exact ⟨t, hrun, (congrArg PairUnit.divergeMseq (core_pair ht)).trans hmseq, (congrArg PairUnit.otherEligible (core_pair ht)).trans helig,
    (core_mode ht).trans (hm.trans hmode)⟩

/-! ### The state that the primary tells (R593, R604) -/

theorem evMirrorStateReceive_idle {m : MirrorState} {s : State} (h : s.pair.link ≠ .up ∨ s.pair.role ≠ .mirror) : evMirrorStateReceive m s = s := by
  rcases h with h | h <;> simp [evMirrorStateReceive, linkUp, h]

theorem evMirrorStateReceive_switch {w : Nat} {s : State} (hlink : s.pair.link = .up) (hr : s.pair.role = .mirror) :
    evMirrorStateReceive (.switchIndex w) s = setPair (fun p => { p with switchAt := some w }) s := by
  simp [evMirrorStateReceive, linkUp, hlink, hr]

theorem evMirrorStateReceive_item {n seq cell : Nat} {ends : Bool} {s : State} (hlink : s.pair.link = .up) (hr : s.pair.role = .mirror)
    (hitem : 1 < (ctxOf s n).cfg.pkind) : evMirrorStateReceive (.checkpoint n seq cell ends) s =
      setPair (fun p => { p with checkpoints := p.checkpoints ++ [{ ctx := n, seq := seq, cell := cell, ends := ends }] }) s := by
  simp only [evMirrorStateReceive, linkUp, hlink, hr, beq_self_eq_true, bne_self_eq_false, Bool.not_true, Bool.or_self, Bool.false_eq_true, if_false]
  exact if_neg (show ¬(ctxOf s n).cfg.pkind ≤ 1 by omega)

theorem mirrorStateReceive_switch (w : Nat) : EventTo (fun k => .mirrorStateReceive k (.switchIndex w))
    (fun _ s => s.pair.link = .up ∧ s.pair.role = .mirror)
    (fun _ s t => t.pair = { s.pair with switchAt := some w } ∧ t.mode = s.mode ∧ t.time = s.time) :=
  eventTo_core (f := fun _ => evMirrorStateReceive (.switchIndex w)) (g := setPair (fun p => { p with switchAt := some w })) (fun _ _ => rfl)
    (fun _ s ⟨hlink, hr⟩ => by rw [evMirrorStateReceive_switch (s := opened s) hlink hr]; rfl) (fun _ _ _ hs => ⟨hs.none, hs.alone, hs.forwarded⟩)
    fun _ _ _ _ ht => ⟨core_pair ht, (core_mode ht :), (core_time ht :)⟩

theorem mirrorStateReceive_item (n seq cell : Nat) (ends : Bool) : EventTo (fun k => .mirrorStateReceive k (.checkpoint n seq cell ends))
    (fun _ s => s.pair.link = .up ∧ s.pair.role = .mirror ∧ 1 < (ctxOf s n).cfg.pkind)
    (fun _ s t => t.pair.checkpoints = s.pair.checkpoints ++ [{ ctx := n, seq := seq, cell := cell, ends := ends }] ∧ t.strm = s.strm ∧ t.time = s.time) :=
  eventTo_plain (effect := setPair fun p => { p with checkpoints := p.checkpoints ++ [{ ctx := n, seq := seq, cell := cell, ends := ends }] })
    (event_hushed (f := fun _ => evMirrorStateReceive (.checkpoint n seq cell ends)) (fun _ _ => rfl)
      (fun _ s ⟨hlink, hr, hitem⟩ => evMirrorStateReceive_item (s := opened s) hlink hr hitem) (fun _ hs => ⟨hs.none, hs.alone, hs.forwarded⟩) fun _ => rfl)
    (fun _ _ => rfl) fun _ _ _ => ⟨rfl, rfl, rfl⟩

/-! ### Joining (R597) -/

/-- The joining mirror has taken the snapshot. -/
def snapshotTaken (fwd : Cmd → Bool) (x : Snapshot) (s : State) : State :=
  setPair (fun p => { p with m0 := x.m0, mseq := x.m0, joinMode := x.mode, joined := some s.index }) (takeSnapshot fwd x s)

/-- The join has failed: the mirror leaves, and its PAIR_JOIN ends. -/
def joinFailed (s : State) : State :=
  match s.pair.join with
  | some id => completeId id .clock [] (leaveMirror s.index s).index (leaveMirror s.index s)
  | none => leaveMirror s.index s

section
variable {fwd : Cmd → Bool} {x : Snapshot} {s : State}

theorem evSnapshotReceive_idle (h : s.pair.link ≠ .up ∨ s.pair.role ≠ .mirror ∨ s.pair.condition ≠ .joining) : evSnapshotReceive fwd x s = s := by
  rcases h with h | h | h <;> simp [evSnapshotReceive, linkUp, h]

section
variable (hlink : s.pair.link = .up) (hr : s.pair.role = .mirror) (hc : s.pair.condition = .joining) (hx : x.mode ≠ .shadow)
include hlink hr hc hx

theorem evSnapshotReceive_takes (hskew : skewed s = false) : evSnapshotReceive fwd x s = snapshotTaken fwd x s := by
  simp [evSnapshotReceive, linkUp, hlink, hr, hc, hx, hskew, snapshotTaken]

theorem evSnapshotReceive_skewed (hskew : skewed s = true) : evSnapshotReceive fwd x s = joinFailed s := by
  refine (if_neg ?_).trans (if_pos hskew)
  simp [linkUp, hlink, hr, hc, hx]

end

/-- What the snapshot brings of commands is held. -/
theorem takeSnapshot_noneWaits (h : noneWaits s.cmds = true) : noneWaits (takeSnapshot fwd x s).cmds = true := by
  refine List.all_eq_true.mpr fun c hc => ?_
  rcases List.mem_append.mp (show c ∈ s.cmds ++ _ from hc) with hc | hc
  · exact List.all_eq_true.mp h c hc
  · obtain ⟨y, hy, rfl⟩ := List.mem_map.mp hc
    have hmem := (List.mem_filter.mp (List.fst_mem_of_mem_zipIdx hy)).2
    simp only [Bool.and_eq_true] at hmem
    have heff : y.1.eff.isSome = true := hmem.1.1
    show (y.1.phase != .waiting) = true
    cases hphase : y.1.phase <;> simp_all [Cmd.eff]

end

theorem snapshotReceive_takes (x : Snapshot) : EventTo (fun k => .snapshotReceive k x)
    (fun _ s => s.pair.link = .up ∧ s.pair.role = .mirror ∧ s.pair.condition = .joining ∧ x.mode ≠ .shadow ∧ skewed s = false)
    (fun _ s t => t.pair.joined = some s.index ∧ t.pair.m0 = x.m0 ∧ t.pair.joinMode = x.mode ∧ t.time.syncRef = x.time.syncRef
      ∧ t.time.syncIndex = x.time.syncIndex ∧ t.time.gen = x.time.gen ∧ t.time.tb = s.time.tb ∧ t.mode = s.mode
      ∧ t.strm.dests = x.strm.dests ∧ t.tdc.slots = x.tdc.slots ∧ t.pool.parts = bareParts x.pool.parts) := by
  refine eventTo_of (f := fun _ => evSnapshotReceive isForwarded x) (fun _ _ => rfl) ?_ ?_
  · intro k s ⟨hlink, hr, hc, hx, hskew⟩ hs
    rw [evSnapshotReceive_takes (s := opened s) hlink hr hc hx hskew]
    exact ⟨takeSnapshot_noneWaits hs.none, hs.alone, hs.forwarded⟩
  · intro k s t old ⟨hlink, hr, hc, hx, hskew⟩ _ ht
    have heq := evSnapshotReceive_takes (fwd := isForwarded) (s := opened s) hlink hr hc hx hskew
    have hcore : core t = core (snapshotTaken isForwarded x (opened s)) := by
      rw [← heq, ht]
      exact (pairNotice_core ..).trans (repliesFirst_opened ..)
    have hstrm : streams t = streams (snapshotTaken isForwarded x (opened s)) := by
      rw [← heq, ht]
      exact after_streams ..
    have hunits : t.tdc = (snapshotTaken isForwarded x (opened s)).tdc ∧ t.pool = (snapshotTaken isForwarded x (opened s)).pool := by
      rw [← heq, ht, after_frame]
      exact ⟨rfl, rfl⟩
    have hdests : t.strm.dests = (streams (snapshotTaken isForwarded x (opened s))).dests := (congrArg StreamUnit.dests hstrm :)
    rw [core_pair hcore, core_time hcore, core_mode hcore, hdests, hunits.1, hunits.2]
    exact ⟨rfl, rfl, rfl, rfl, rfl, rfl, rfl, rfl, rfl, rfl, rfl⟩

section
variable {s : State} (hf : s.pair.forwarded = [])
include hf

theorem joinFailed_unpaired : Unpaired s (joinFailed s) := by
  have hleave := leaveMirror_unpaired s.index hf
  unfold joinFailed
  split
  · exact hleave.trans (completeId_unpaired _ _ _ _ hleave.forwarded)
  · exact hleave

end

theorem joinFailed_left (s : State) : (joinFailed s).pair.role = .solo ∧ (joinFailed s).mode = .quiet := by
  unfold joinFailed
  split
  · exact completeId_left ..
  · exact ⟨rfl, rfl⟩

theorem joinFailed_gone {s : State} {id : Nat} (h : s.pair.join = some id) : ((joinFailed s).cmds.any fun c => c.id == id) = false := by
  rw [joinFailed, h]
  exact gone_completeId ..

theorem snapshotReceive_fails (x : Snapshot) : EventTo (fun k => .snapshotReceive k x)
    (fun _ s => s.pair.link = .up ∧ s.pair.role = .mirror ∧ s.pair.condition = .joining ∧ x.mode ≠ .shadow ∧ skewed s = true)
    (fun _ s t => t.pair.role = .solo ∧ t.mode = .quiet ∧ t.time = s.time
      ∧ (∀ id, s.pair.join = some id → (t.cmds.any fun c => c.id == id) = false)) := by
  refine eventTo_of_calm (eventTo_core (f := fun _ => evSnapshotReceive isForwarded x) (g := fun s => joinFailed (opened s)) (fun _ _ => rfl)
    (fun k s ⟨⟨hlink, hr, hc, hx, hskew⟩, _⟩ => by rw [evSnapshotReceive_skewed (s := opened s) hlink hr hc hx hskew]) (fun k s _ hs => ?_)
    fun k s t ⟨_, hs⟩ ht => ?_)
  · have hleft := joinFailed_unpaired (s := opened s) hs.forwarded
    exact ⟨hleft.fewer.noneWaits hs.none, by simp [hasMirror, joinFailed_left], hleft.forwarded⟩
  · rw [core_pair ht, core_mode ht, core_time ht, core_cmds ht]
    exact ⟨(joinFailed_left _).1, (joinFailed_left _).2, (joinFailed_unpaired (s := opened s) hs.forwarded).time, fun id h => joinFailed_gone h⟩

/-! ### The join index (R597) -/

/-- A forwarded command that would take effect before the join index takes effect there. -/
def heldFor (j : Nat) (c : Cmd) : Cmd :=
  match c.eff with
  | some e => if c.src == .pairLink && e < j then { c with phase := .held (some j) } else c
  | none => c

/-- The units start at the join index. -/
def joinStarted (j : Nat) (s : State) : State :=
  let s1 := { s with shadowed := s.pair.joinMode, index := j, cmds := s.cmds.map (heldFor j) }
  if modeRunsProducts s1.shadowed then joinUnits j s1 else s1

/-- The mirror has joined. -/
def joined (j : Nat) (s : State) : State :=
  setPair (fun p => { p with
    condition := if p.divergeMseq = 0 then .eligible else .diverged, deposed := false, noMirrorCount := 0, join := none, joined := none })
    (joinStarted j s)

/-- The mirror has joined, and its PAIR_JOIN is done. -/
def joinDone (j : Nat) (s : State) : State :=
  match s.pair.join with
  | some id => completeId id .ok (u64Words j ++ [BitVec.ofNat 32 s.pair.m0]) j (joined j s)
  | none => joined j s

theorem setPair_congr (f : PairUnit → PairUnit) {s t : State} (h : core t = core s) : core (setPair f t) = core (setPair f s) := by
  simp only [core, Prod.mk.injEq] at h
  obtain ⟨h1, h2, h3, h4, h5, h6, h7, h8, h9, h10, h11⟩ := h
  simp only [core, setPair, h1, h2, h3, h4, h5, h6, h7, h8, h9, h10, h11]

/-- The mirror that has joined, before its units start. -/
def joinedAlone (j : Nat) (s : State) : State :=
  setPair (fun p => { p with
    condition := if p.divergeMseq = 0 then .eligible else .diverged, deposed := false, noMirrorCount := 0, join := none, joined := none })
    { s with shadowed := s.pair.joinMode, index := j, cmds := s.cmds.map (heldFor j) }

theorem joined_core (j : Nat) (s : State) : core (joined j s) = core (joinedAlone j s) :=
  setPair_congr _ (core_if (joinUnits_core ..) rfl)

theorem evJoinIndex_joins {j : Nat} {s : State} (hr : s.pair.role = .mirror) (hc : s.pair.condition = .joining) (hok : joinIndexOk j s = true)
    (hj : s.index ≤ j) (hl : locked s = true) : evJoinIndex j s = joinDone j s := by
  refine (if_neg ?_).trans rfl
  simp [hr, hc, hok, hj, hl]

theorem heldFor_waits (j : Nat) {c : Cmd} (h : c.phase ≠ .waiting) : (heldFor j c).phase ≠ .waiting := by
  unfold heldFor
  split
  · split
    · exact nofun
    · exact h
  · exact h

theorem joinDone_ends {j : Nat} {s : State} : Ends (joined j s) (joinDone j s) := by
  unfold joinDone
  split
  · exact ends_completeId ..
  · exact Ends.refl _

theorem joinDone_pair {j : Nat} {s : State} (hf : (joined j s).pair.forwarded = []) : (joinDone j s).pair = (joined j s).pair := by
  unfold joinDone
  split
  · exact completeId_pair _ _ _ hf
  · rfl

theorem joinDone_gone {j id : Nat} {s : State} (h : s.pair.join = some id) : ((joinDone j s).cmds.any fun c => c.id == id) = false := by
  rw [joinDone, h]
  exact gone_completeId ..

theorem joined_calm {j : Nat} {s : State} (hr : s.pair.role = .mirror) (hw : noneWaits s.cmds = true) (hf : s.pair.forwarded = []) : Calm (joined j s) := by
  refine Calm.core (s := joinedAlone j s) ⟨?_, ?_, hf⟩ (joined_core j s)
  · show noneWaits (s.cmds.map (heldFor j)) = true
    rw [noneWaits, List.all_map]
    refine List.all_eq_true.mpr fun c hc => ?_
    have hphase := List.all_eq_true.mp hw c hc
    simp only [bne_iff_ne] at hphase
    exact bne_iff_ne.mpr (heldFor_waits j hphase)
  · show (s.pair.role == .primary && _ && _) = false
    rw [hr]
    rfl

theorem passTo_index_le {j : Nat} {s : State} (h : s.index ≤ j) : (passTo j s).index ≤ j := by
  show (advance (delivering s) j (keepNotes s)).index ≤ j
  have hkeep : (keepNotes s).index = s.index := by unfold keepNotes; split <;> rfl
  unfold advance
  split
  · exact le_refl j
  · exact hkeep ▸ h

theorem joinIndex_joins (j a : Nat) (s : State) (hq : s.quiet = true) (hr : s.pair.role = .mirror) (hc : s.pair.condition = .joining)
    (hjoined : s.pair.joined = some a) (hmod : j % 32 = 0) (ha : a + ceilDiv (fsOf s.time) 1000 ≤ j) (hj : s.index ≤ j) (hl : locked s = true) :
    ∃ t, exec (.joinIndex j) s = .next t ∧ t.pair.condition = (if s.pair.divergeMseq = 0 then .eligible else .diverged) ∧ t.index = j
      ∧ t.shadowed = s.pair.joinMode ∧ t.mode = s.mode ∧ t.time = s.time ∧ t.pair.join = none
      ∧ (∀ id, s.pair.join = some id → (t.cmds.any fun c => c.id == id) = false) := by
  have hpair : (opened (passTo j s)).pair = s.pair := passTo_pair j s
  have htime : (opened (passTo j s)).time = s.time := passTo_time j s
  have hmode : (opened (passTo j s)).mode = s.mode := passTo_mode j s
  have hcmds : noneWaits (opened (passTo j s)).cmds = true := (passTo_cmds j s).symm ▸ quiet_noneWaits hq
  have hindex : (opened (passTo j s)).index ≤ j := passTo_index_le hj
  generalize hu : opened (passTo j s) = u at hpair htime hmode hcmds hindex
  have hok : joinIndexOk j u = true := by simp [joinIndexOk, hpair, hjoined, htime, hmod, ha]
  have hjoins : evJoinIndex j u = joinDone j u := evJoinIndex_joins (hpair ▸ hr) (hpair ▸ hc) hok hindex (by rw [locked, htime]; exact hl)
  have heq : evJoinIndex j (opened (passTo j s)) = joinDone j u :=
    hu ▸ hjoins
  have hcalm := joined_calm (j := j) (hpair ▸ hr) hcmds (hpair ▸ quiet_forwarded hq)
  have hends := joinDone_ends (j := j) (s := u)
  obtain ⟨t, hrun, ht⟩ := runEvent_calm heq (hcalm.ends hends)
  have hcore := joined_core j u
  have hleft : t.pair = (joined j u).pair := (core_pair ht).trans (joinDone_pair hcalm.forwarded)
  refine ⟨t, hrun, ?_, ?_, ?_, ?_, ?_, ?_, fun id h => ?_⟩
  · rw [hleft, core_pair hcore, ← hpair]
    rfl
  · rw [core_index ht, hends.index, core_index hcore]
    rfl
  · rw [core_shadowed ht, hends.shadowed, core_shadowed hcore, ← hpair]
    rfl
  · rw [core_mode ht, hends.mode, core_mode hcore, ← hmode]
    rfl
  · rw [core_time ht, hends.time, core_time hcore, ← htime]
    rfl
  · rw [hleft, core_pair hcore]
    rfl
  · rw [core_cmds ht]
    exact joinDone_gone (hpair ▸ h)

/-! ### The obligation -/

/-- Settles O44, clause by clause. -/
theorem mirrorReceives : Obligations.MirrorReceives :=
  ⟨fun f => event_idle (f := fun _ => evForwardedCommand f) (fun _ _ => rfl) fun _ s h => evForwardedCommand_idle (s := opened s) h,
    forwardedCommand_waits, forwardedCommand_writes,
    fun mseq st => event_of_calm (event_of (f := fun _ => evMirrorStatusReturn mseq st) (fun _ _ => rfl)
      (fun _ s h => evMirrorStatusReturn_none (s := opened s) h.2.forwarded) (fun _ _ _ hs => opened_calm hs) (fun _ _ _ _ => rfl) fun _ _ _ => rfl),
    mirrorStatusReturn_agrees, mirrorStatusReturn_diverges,
    fun m => event_idle (f := fun _ => evMirrorStateReceive m) (fun _ _ => rfl) fun _ s h => evMirrorStateReceive_idle (s := opened s) h,
    mirrorStateReceive_switch, mirrorStateReceive_item,
    fun x => event_idle (f := fun _ => evSnapshotReceive isForwarded x) (fun _ _ => rfl) fun _ s h => evSnapshotReceive_idle (s := opened s) h,
    snapshotReceive_takes, snapshotReceive_fails, joinIndex_joins⟩

end Sys2Proof.Machine
end

section
/-! O19: the commands of diagnostics and of the black box (R628, R639-R645). -/

namespace Sys2Proof.Machine

/-! ### DIAG_RESET (R639) -/

/-- The WARM reset is held as an internal command. -/
def resetHeld (s : State) : State := holdInternal 0x1200 [0x52455345#32] (if locked s then some (boundaryAfter s 100000) else none) s

theorem diagReset_run {c : Cmd} (e : Nat) {s : State} (h : c.src ≠ .pairLink) : specDiagReset.run c e s = (resetHeld s, .done .ok []) :=
  if_neg (by simpa using h)

theorem diagReset_holds : Does .diagReset specDiagReset (fun c _ => c.src ≠ .pairLink) (fun _ s => resetHeld s) noWords := by
  intro k p s ha ht hsrc
  refine row_runs ha rfl ht rfl (diagReset_run _ hsrc) rfl ?_ (rowState_pair k p s) (rowState_locked k p s)
  show noneWaits (((rowState k p s).cmds ++ _).filter _) = true
  rw [List.filter_append, noneWaits, List.all_append, ← noneWaits, noneWaits_served (accepted_iff.mp ha).1.quiet]
  exact noneWaits_filter (l := [_]) _ rfl

/-! ### BB_READ (R642) -/

/-- An entry has words. -/
theorem bbBytes_isEmpty (l : List BbEntry) : (bytesOfWords (l.flatMap bbWords)).isEmpty = l.isEmpty := by
  cases l with
  | nil => rfl
  | cons e l => rfl

/-- A write of nothing reaches no range that does not answer. -/
theorem hostFails_none (s : State) (address : Nat) : hostFails s address 0 = false := by
  refine List.any_eq_false.mpr fun x _ => ?_
  simp only [decide_eq_true_eq, not_lt]
  omega

section
variable {c : Cmd} {s : State}

theorem bbRead_inline (e : Nat) (h : c.flag 1 17 = false) :
    specBbRead.run c e s = (s, .done .ok (BitVec.ofNat 32 (bbSelect c s).length :: (bbSelect c s).flatMap bbWords)) :=
  if_neg (by simp [h])

/-- A BB_READ to host memory. -/
theorem bbRead_host (e : Nat) (h : c.flag 1 17 = true) : specBbRead.run c e s =
    ((hostResult c.id (c.arg64 2) (bytesOfWords ((bbSelect c s).flatMap bbWords)) s).1,
      if (hostResult c.id (c.arg64 2) (bytesOfWords ((bbSelect c s).flatMap bbWords)) s).2 then .done .ok [BitVec.ofNat 32 (bbSelect c s).length]
      else .done .internal []) :=
  if_pos h

theorem hostResult_writes {id address : Nat} {bytes : List Byte} (hok : hostFails s address bytes.length = false) :
    hostResult id address bytes s = (if bytes.isEmpty then s else emit (.hostWrite true address bytes) s, true) :=
  if_neg (by simp [hok])

theorem hostResult_fails {id address : Nat} {bytes : List Byte} (hfail : hostFails s address bytes.length = true) (hc : cmdById s id = some c) :
    hostResult id address bytes s = (refuseEffects c .internal s, false) := by
  rw [hostResult, if_pos hfail, hc]

theorem bbRead_writes (e : Nat) (h : c.flag 1 17 = true) (hsome : bbSelect c s ≠ [])
    (hok : hostFails s (c.arg64 2) (bytesOfWords ((bbSelect c s).flatMap bbWords)).length = false) : specBbRead.run c e s =
      (emit (.hostWrite true (c.arg64 2) (bytesOfWords ((bbSelect c s).flatMap bbWords))) s, .done .ok [BitVec.ofNat 32 (bbSelect c s).length]) := by
  rw [bbRead_host e h, hostResult_writes hok, bbBytes_isEmpty, if_neg (by simpa using hsome)]
  rfl

theorem bbRead_empty (e : Nat) (h : c.flag 1 17 = true) (hnone : bbSelect c s = []) : specBbRead.run c e s = (s, .done .ok [0]) := by
  rw [bbRead_host e h, hnone, hostResult_writes (hostFails_none _ _)]
  rfl

theorem bbRead_fails (e : Nat) (h : c.flag 1 17 = true) (hc : cmdById s c.id = some c)
    (hfail : hostFails s (c.arg64 2) (bytesOfWords ((bbSelect c s).flatMap bbWords)).length = true) :
    specBbRead.run c e s = (refuseEffects c .internal s, .done .internal []) := by
  rw [bbRead_host e h, hostResult_fails hfail hc]
  rfl

/-! ### BB_CLEAR (R644) -/

/-- The black box, cleared as a BB_CLEAR says. -/
def bbCleared (c : Cmd) (b : BlackBox) : BlackBox :=
  let b1 := if c.flag 0 0 then { b with live := [], nextSeq := 0 } else b
  if c.flag 0 1 then { b1 with frozen := none, freezeEvent := 0, freezeSeq := 0 } else b1

theorem bbClear_run (e : Nat) : specBbClear.run c e s = ({ s with bb := bbCleared c s.bb }, .done .ok []) := rfl

theorem bbCleared_live (b : BlackBox) (h : c.flag 0 0 = true) : (bbCleared c b).live = [] ∧ (bbCleared c b).nextSeq = 0 := by
  simp only [bbCleared, h, if_true]
  split <;> exact ⟨rfl, rfl⟩

theorem bbCleared_keeps (b : BlackBox) (h : c.flag 0 0 = false) : (bbCleared c b).live = b.live ∧ (bbCleared c b).nextSeq = b.nextSeq := by
  simp only [bbCleared, h, Bool.false_eq_true, if_false]
  split <;> exact ⟨rfl, rfl⟩

theorem bbCleared_thaws (b : BlackBox) (h : c.flag 0 1 = true) : (bbCleared c b).frozen = none := by
  simp [bbCleared, h]

theorem bbCleared_frozen (b : BlackBox) (h : c.flag 0 1 = false) : (bbCleared c b).frozen = b.frozen := by
  simp only [bbCleared, h, Bool.false_eq_true, if_false]
  split <;> rfl

end

theorem bbClear_clears (k : Nat) (p : Packet) (s : State) (ha : accepted specBbClear k p s = true) : ∃ t, exec (.bbClear k p) s = .next t
    ∧ ((rowCmd k p s).flag 0 0 = true → t.bb.live = [] ∧ t.bb.nextSeq = 0)
    ∧ ((rowCmd k p s).flag 0 0 = false → t.bb.live = s.bb.live ∧ t.bb.nextSeq = s.bb.nextSeq)
    ∧ ((rowCmd k p s).flag 0 1 = true → t.bb.frozen = none)
    ∧ ((rowCmd k p s).flag 0 1 = false → t.bb.frozen = s.bb.frozen) := by
  obtain ⟨t, hrow, ht⟩ := row_served ha rfl (accepted_untimed ha rfl) rfl (bbClear_run _) (ends_core (core_mk ..))
  have hbb : t.bb = bbCleared (rowCmd k p s) s.bb := by
    rw [ht.bb]
    show bbCleared _ (passTo k s).bb = _
    rw [passTo_frame]
  refine ⟨t, hrow, ?_⟩
  rw [hbb]
  exact ⟨bbCleared_live _, bbCleared_keeps _, bbCleared_thaws _, bbCleared_frozen _⟩

/-! ### The obligation -/

theorem diagFault_reads {c : Cmd} (e : Nat) {s : State} (h : c.flag 0 0 = false) : specDiagFault.run c e s = (s, .done .ok [s.faultCause]) :=
  congrArg (fun u : State => (u, Fate.done .ok [s.faultCause])) (if_neg (by simp [h]))

theorem diagFault_clears {c : Cmd} (e : Nat) {s : State} (h : c.flag 0 0 = true) :
    specDiagFault.run c e s = ({ s with faultCause := s.faultCause &&& s.faultActive }, .done .ok [s.faultCause]) :=
  congrArg (fun u : State => (u, Fate.done .ok [s.faultCause])) (if_pos h)

/-- Settles O19, clause by clause. -/
theorem diagnosticCommands : Obligations.DiagnosticCommands := by
  refine ⟨diagReset_holds, ?_, ?_, ?_, ?_, ?_, ?_, ?_, ?_, bbClear_clears, ?_⟩
  · exact does_core (fun _ _ _ => rfl) rfl (fun _ => rfl) (fun _ s _ _ h => diagFault_reads (s := opened s) _ h) fun _ _ => rfl
  · exact does_core (fun _ _ _ => rfl) rfl (fun _ => rfl) (fun _ s _ _ h => diagFault_clears (s := opened s) _ h) fun _ _ => rfl
  · exact does_core (fun _ _ _ => rfl) rfl (fun _ => rfl) (fun _ _ _ _ _ => rfl) fun _ _ => rfl
  · exact does_core (fun _ _ _ => rfl) rfl (fun _ => rfl) (fun _ s _ _ h => bbRead_inline (s := opened s) _ h) fun _ _ => rfl
  · exact does_core (fun _ _ _ => rfl) rfl (fun _ => rfl)
      (fun _ s _ _ ⟨h, hsome, hok⟩ => bbRead_writes (s := opened s) _ h hsome hok) fun _ _ => emit_core ..
  · exact does_core (fun _ _ _ => rfl) rfl (fun _ => rfl) (fun _ s _ _ ⟨h, hnone⟩ => bbRead_empty (s := opened s) _ h hnone) fun _ _ => rfl
  · exact answers_core (fun _ _ _ => rfl) rfl (fun _ => rfl)
      (fun _ s _ _ ⟨h, hc, hfail⟩ => bbRead_fails (s := opened s) _ h hc hfail) fun _ _ => refuseEffects_core ..
  · exact does_core (fun _ _ _ => rfl) rfl (fun _ => rfl) (fun _ _ _ _ _ => rfl) fun _ _ => bbFreeze_core ..
  · exact does_core (fun _ _ _ => rfl) rfl (fun _ => rfl) (fun _ _ _ _ _ => rfl) fun _ _ => rfl

end Sys2Proof.Machine
end

section
/-! O20: the commands of the firmware slots (R636, R637, R646-R649). -/

namespace Sys2Proof.Machine

section
variable {c : Cmd} {s : State}

/-- The bytes that a FW_LOAD brings. -/
def fwLoadData (c : Cmd) : List Byte := bytesOfWords ((c.params.take c.plen).drop 2)

theorem fwLoad_erases (e : Nat) (h : c.word 1 = 0) : specFwLoad.run c e s =
    (setFw (fun f => { noteValid (c.arg 0 0 0) false f with erase := some { cmd := c.id, slot := c.arg 0 0 0, data := fwLoadData c }, loadOffset := 0 }) s,
      .later) :=
  if_pos (by rw [h]; rfl)

theorem fwLoad_writes (e : Nat) (h : c.word 1 ≠ 0) : specFwLoad.run c e s =
    (setFw (fun f => { f with
        slots := modAt f.slots (c.arg 0 0 0) (flashWrite (c.word 1).toNat (fwLoadData c)), loadOffset := (c.word 1).toNat + (fwLoadData c).length }) s,
      .done .ok [BitVec.ofNat 32 ((c.word 1).toNat + (fwLoadData c).length)]) :=
  if_neg fun h0 => h (BitVec.eq_of_toNat_eq h0)

theorem fwActivate_runs (e : Nat) (hrec : s.hub.fw.recovery = false) (h : c.arg 0 0 0 = s.hub.fw.running) :
    specFwActivate.run c e s = (s, .done .ok [runningHeader s 3]) :=
  (if_neg (by simp [hrec])).trans (if_pos h)

theorem fwActivate_begins (e : Nat) (hrec : s.hub.fw.recovery = false) (h : c.arg 0 0 0 ≠ s.hub.fw.running) : specFwActivate.run c e s =
    (setFw (fun f => { f with activate := some { cmd := c.id, slot := c.arg 0 0 0, prefer := c.flag 0 1, raise := c.flag 0 2 } }) s, .later) :=
  (if_neg (by simp [hrec])).trans (if_neg h)

end

/-- Settles O20, clause by clause. -/
theorem firmwareCommands : Obligations.FirmwareCommands := by
  refine ⟨?_, ?_, fun data => ?_, ?_, ?_, ?_⟩
  · exact does_core (fun _ _ _ => rfl) rfl (fun _ => rfl) (fun _ _ _ _ _ => rfl) fun _ _ => rfl
  · exact begins_core (fun _ _ _ => rfl) rfl (fun _ => rfl) (fun _ s _ _ h => fwLoad_erases (s := opened s) _ h) fun _ _ => rfl
  · refine does_core (fun _ _ _ => rfl) rfl (fun _ => rfl) (fun _ s _ _ ⟨h, hdata⟩ => ?_) fun _ _ => rfl
    subst hdata
    exact fwLoad_writes (s := opened s) _ h
  · exact does_core (fun _ _ _ => rfl) rfl (fun _ => rfl) (fun _ _ _ _ _ => rfl) fun _ _ => rfl
  · exact does_core (fun _ _ _ => rfl) rfl (fun _ => rfl) (fun _ s _ _ ⟨hrec, h⟩ => fwActivate_runs (s := opened s) _ hrec h) fun _ _ => rfl
  · exact begins_core (fun _ _ _ => rfl) rfl (fun _ => rfl) (fun _ s _ _ ⟨hrec, h⟩ => fwActivate_begins (s := opened s) _ hrec h) fun _ _ => rfl

end Sys2Proof.Machine
end

section
/-! O47: the debug port (R650-R658), and the run control of a pair (R663, R664). -/

namespace Sys2Proof.Machine

/-- An event of the debug port, told of what its effect leaves of the port, the control complex and the pool. -/
theorem eventTo_debug {f : Nat → State → State} {ev : Nat → Instr} {pre : Nat → State → Prop} {post : Nat → State → State → Prop}
    (hrow : ∀ k s, exec (ev k) s = runEvent (f k) k s) (hc : ∀ k s, pre k s → core (f k (opened s)) = core s)
    (h : ∀ k s t, pre k s → core t = core s → t.dbg = (f k (opened s)).dbg → t.hub = (f k (opened s)).hub → t.pool = (f k (opened s)).pool →
      post k s t) : EventTo ev pre post :=
  eventTo_of hrow (fun k s hp hs => hs.core (hc k s hp)) fun k s t old hp _ ht =>
    h k s t hp (ht ▸ (pairNotice_core ..).trans ((repliesFirst_opened ..).trans (hc k s hp))) (by rw [ht, after_frame]) (by rw [ht, after_frame])
      (by rw [ht, after_frame])

theorem debugEntry_frame (place event : Nat) (data : List Word) (s : State) : (debugEntry place event data s).dbg = s.dbg
    ∧ (debugEntry place event data s).hub = s.hub ∧ (debugEntry place event data s).pool = s.pool := by
  unfold debugEntry
  rw [notify_frame, bbWrite_frame]
  exact ⟨rfl, rfl, rfl⟩

/-! ### Instructions and the boundary scan (R652, R655) -/

/-- An instruction that drives pins is one that is known, and captures nothing. -/
theorem drivesPins_plain {c : Nat} (h : drivesPins c = true) (s : State) : tapKnown c = true ∧ c ≠ 0x20 ∧ tapCapture c s = none := by
  simp only [drivesPins, List.contains_eq_mem, decide_eq_true_eq, List.mem_cons, List.not_mem_nil, or_false] at h
  rcases h with rfl | rfl | rfl | rfl | rfl <;> exact ⟨rfl, by decide, rfl⟩

/-- A code that stands for no instruction does nothing but to bypass. -/
theorem tapUnknown_plain {c : Nat} (h : tapKnown c = false) (s : State) :
    drivesPins c = false ∧ c ≠ 0x20 ∧ selectsBoundary c = false ∧ tapCapture c s = none := by
  simp only [tapKnown, List.contains_eq_mem, decide_eq_false_iff_not, List.mem_cons, List.not_mem_nil, or_false, not_or] at h
  obtain ⟨h0, h1, h2, h3, h4, h5, h6, h8, h9, h20, -⟩ := h
  refine ⟨by simp [drivesPins, h0, h3, h4, h8, h9], h20, by simp [selectsBoundary, h0, h2, h8, h9], ?_⟩
  unfold tapCapture
  split <;> simp_all

section
variable {code : Nat} {levels shifted : List Bool} {s : State}

theorem evTapInstructionLoad_refused (h : drivesPins (code % 256) = true) (hlow : s.hub.resetLow = false) :
    evTapInstructionLoad code levels shifted s = { s with dbg := { s.dbg with ir := 0xFF, testRefused := satAdd 32 s.dbg.testRefused 1 } } :=
  if_pos (by rw [h, hlow]; rfl)

theorem evTapInstructionLoad_drives (h : drivesPins (code % 256) = true) (hlow : s.hub.resetLow = true) :
    evTapInstructionLoad code [] shifted s =
      { s with dbg := { s.dbg with ir := code % 256 }, out := s.out ++ [.pinsDriven (drivenBalls (code % 256) s.dbg.cells)] } := by
  obtain ⟨hknown, hselect, hnone⟩ := drivesPins_plain h s
  have hcapture (u : State) : tapCapture (code % 256) u = none := (drivesPins_plain h u).2.2
  simp only [evTapInstructionLoad, h, hlow, hselect, hknown, hcapture, List.isEmpty_nil, Bool.not_true, Bool.and_false, Bool.false_eq_true, if_false,
    if_true]
  rfl

theorem evTapInstructionLoad_unknown (h : tapKnown (code % 256) = false) :
    evTapInstructionLoad code levels shifted s = { s with dbg := { s.dbg with ir := 0xFF } } := by
  obtain ⟨hdrives, hselect, hboundary, -⟩ := tapUnknown_plain h s
  have hcapture (u : State) : tapCapture (code % 256) u = none := (tapUnknown_plain h u).2.2.2
  simp only [evTapInstructionLoad, h, hdrives, hselect, hboundary, hcapture, Bool.false_and, Bool.false_eq_true, if_false]
  rfl

theorem evTapInstructionLoad_scans (h : levels ≠ []) : evTapInstructionLoad 0x02 levels shifted s =
    { s with
      dbg := { s.dbg with ir := 0x02, cells := (shifted ++ s.dbg.cells.drop shifted.length).take scanRegister.length },
      out := s.out ++ [.scanOut ((List.range scanRegister.length).map fun i => levels.getD i false)] } := by
  have hscan : (selectsBoundary (0x02 % 256) && !levels.isEmpty) = true := by simp [h, selectsBoundary]
  unfold evTapInstructionLoad
  dsimp only
  rw [if_pos hscan]
  rfl

/-! ### The Gauntlet (R656, R657) -/

theorem freeWords_length (n : Nat) (s : State) : (freeWords n s).1.length = n := by
  induction n generalizing s with
  | zero => rfl
  | succ n ih => exact congrArg Nat.succ (ih _)

/-- GAUNTLET is selected, with a fresh challenge. -/
def challenged (s : State) : State :=
  let r := freeWords 8 (setDbg (fun d => { d with ir := 0x20 }) s)
  emit (.readData (bytesOfWords r.1)) (setDbg (fun d => { d with challenge := r.1 }) r.2)

/-- GAUNTLET is selected while it is closed. -/
def challengeDenied (s : State) : State := emit (.readData (List.replicate 32 0)) (setDbg (fun d => { d with ir := 0x20, challenge := [] }) s)

theorem newChallenge_open {s : State} (h : gauntletClosed s = false) :
    newChallenge s = setDbg (fun d => { d with challenge := (freeWords 8 s).1 }) (freeWords 8 s).2 :=
  if_neg (by rw [h]; exact Bool.false_ne_true)

theorem newChallenge_closed {s : State} (h : gauntletClosed s = true) : newChallenge s = setDbg (fun d => { d with challenge := [] }) s := if_pos h

theorem evGauntletSelect_open (h : gauntletClosed s = false) : evGauntletSelect s = challenged s := by
  have hnew := newChallenge_open (s := setDbg (fun d => { d with ir := 0x20 }) s) h
  have hclosed : gauntletClosed (newChallenge (setDbg (fun d => { d with ir := 0x20 }) s)) = false := by
    rw [hnew]
    exact h
  simp only [evGauntletSelect, hclosed, Bool.false_eq_true, if_false]
  rw [hnew]
  rfl

theorem evGauntletSelect_closed (h : gauntletClosed s = true) : evGauntletSelect s = challengeDenied s := by
  have hnew := newChallenge_closed (s := setDbg (fun d => { d with ir := 0x20 }) s) h
  have hclosed : gauntletClosed (newChallenge (setDbg (fun d => { d with ir := 0x20 }) s)) = true := by
    rw [hnew]
    exact h
  simp only [evGauntletSelect, hclosed, if_true]
  rw [hnew]
  rfl

/-- The response opens the port. -/
def responseTaken (r : BitVec 776) (s : State) : State :=
  debugEntry 0 0x1290 [BitVec.ofNat 32 (r.extractLsb' 768 8).toNat]
    (setDbg (fun d => { d with level := (r.extractLsb' 768 8).toNat, challenge := [], wrote := false }) s)

/-- The response fails. -/
def responseFailed (s : State) : State :=
  debugEntry 0 0x1291 [BitVec.ofNat 32 (s.dbg.failures + 1)] (setDbg (fun d => { d with failures := d.failures + 1 }) s)

theorem evGauntletResponse_idle {r : BitVec 776} (h : s.dbg.ir ≠ 0x20 ∨ s.dbg.challenge = [] ∨ gauntletClosed s = true) : evGauntletResponse r s = s := by
  refine if_pos ?_
  rcases h with h | h | h <;> simp [h]

section
variable {r : BitVec 776} (hir : s.dbg.ir = 0x20) (hsome : s.dbg.challenge ≠ []) (hopen : gauntletClosed s = false)
include hir hsome hopen

theorem evGauntletResponse_takes (hlevel : (r.extractLsb' 768 8).toNat = 1 ∨ (r.extractLsb' 768 8).toNat = 2)
    (hkey : Config.debugKeyOk s.dbg.challenge r = true) : evGauntletResponse r s = responseTaken r s := by
  refine (if_neg (by simp [hir, hsome, hopen])).trans (if_pos ?_)
  rw [hkey]
  simpa using hlevel

theorem evGauntletResponse_fails (h : (r.extractLsb' 768 8).toNat ≠ 1 ∧ (r.extractLsb' 768 8).toNat ≠ 2 ∨ Config.debugKeyOk s.dbg.challenge r = false) :
    evGauntletResponse r s = newChallenge (responseFailed s) := by
  refine (if_neg (by simp [hir, hsome, hopen])).trans (if_neg ?_)
  rcases h with ⟨h1, h2⟩ | h
  · rw [decide_eq_false h1, decide_eq_false h2]
    exact Bool.false_ne_true
  · rw [h, Bool.and_false]
    exact Bool.false_ne_true

end

end

theorem gauntletSelect_open : EventTo (fun k => .gauntletSelect k) (fun _ s => gauntletClosed s = false)
    (fun _ s t => t.dbg.ir = 0x20 ∧ t.dbg.challenge.length = 8 ∧ t.out = s.out ++ [.readData (bytesOfWords t.dbg.challenge)]
      ∧ t.dbg.level = s.dbg.level ∧ t.cmds = s.cmds) :=
  eventTo_plain (effect := challenged)
    (event_of_core (f := fun _ => evGauntletSelect) (fun _ _ => rfl) (fun _ s h => evGauntletSelect_open (s := opened s) h)
      fun _ _ => (emit_core ..).trans ((setDbg_core ..).trans ((freeWords_core ..).trans (setDbg_core ..))))
    (fun _ _ => rfl) fun _ _ _ => ⟨rfl, freeWords_length 8 _, rfl, rfl, rfl⟩

theorem gauntletSelect_closed : EventTo (fun k => .gauntletSelect k) (fun _ s => gauntletClosed s = true)
    (fun _ s t => t.dbg.ir = 0x20 ∧ t.dbg.challenge = [] ∧ t.out = s.out ++ [.readData (List.replicate 32 0)] ∧ t.dbg.level = s.dbg.level) :=
  eventTo_plain (effect := challengeDenied)
    (event_of_core (f := fun _ => evGauntletSelect) (fun _ _ => rfl) (fun _ s h => evGauntletSelect_closed (s := opened s) h)
      fun _ _ => (emit_core ..).trans (setDbg_core ..))
    (fun _ _ => rfl) fun _ _ _ => ⟨rfl, rfl, rfl, rfl⟩

theorem gauntletResponse_takes (r : BitVec 776) : EventTo (fun k => .gauntletResponse k r)
    (fun _ s => s.dbg.ir = 0x20 ∧ s.dbg.challenge ≠ [] ∧ gauntletClosed s = false
      ∧ ((r.extractLsb' 768 8).toNat = 1 ∨ (r.extractLsb' 768 8).toNat = 2) ∧ Config.debugKeyOk s.dbg.challenge r = true)
    (fun _ s t => t.dbg.level = (r.extractLsb' 768 8).toNat ∧ t.dbg.challenge = [] ∧ t.dbg.failures = s.dbg.failures ∧ t.cmds = s.cmds) :=
  eventTo_debug (f := fun _ => evGauntletResponse r) (fun _ _ => rfl) (fun _ s _ => (evGauntletResponse_core ..).trans (opened_core s))
    fun k s t ⟨hir, hsome, hopen, hlevel, hkey⟩ hcore hdbg _ _ => by
      rw [evGauntletResponse_takes (s := opened s) hir hsome hopen hlevel hkey, responseTaken, (debugEntry_frame ..).1] at hdbg
      rw [hdbg]
      exact ⟨rfl, rfl, rfl, core_cmds hcore⟩

theorem responseFailed_dbg (s : State) : (responseFailed s).dbg = { s.dbg with failures := s.dbg.failures + 1 } := (debugEntry_frame ..).1

/-- A new challenge leaves the level and the count of failures; after the third failure there is none. -/
theorem newChallenge_dbg (s : State) : (newChallenge s).dbg.level = s.dbg.level ∧ (newChallenge s).dbg.failures = s.dbg.failures
    ∧ (gauntletClosed s = true → (newChallenge s).dbg.challenge = []) := by
  cases h : gauntletClosed s with
  | true =>
    rw [newChallenge_closed h]
    exact ⟨rfl, rfl, fun _ => rfl⟩
  | false =>
    rw [newChallenge_open h]
    exact ⟨rfl, rfl, nofun⟩

theorem gauntletResponse_fails (r : BitVec 776) : EventTo (fun k => .gauntletResponse k r)
    (fun _ s => s.dbg.ir = 0x20 ∧ s.dbg.challenge ≠ [] ∧ gauntletClosed s = false
      ∧ ((r.extractLsb' 768 8).toNat ≠ 1 ∧ (r.extractLsb' 768 8).toNat ≠ 2 ∨ Config.debugKeyOk s.dbg.challenge r = false))
    (fun _ s t => t.dbg.level = s.dbg.level ∧ t.dbg.failures = s.dbg.failures + 1 ∧ (s.dbg.failures = 2 → t.dbg.challenge = []) ∧ t.cmds = s.cmds) :=
  eventTo_debug (f := fun _ => evGauntletResponse r) (fun _ _ => rfl) (fun _ s _ => (evGauntletResponse_core ..).trans (opened_core s))
    fun k s t ⟨hir, hsome, hopen, hwrong⟩ hcore hdbg _ _ => by
      rw [evGauntletResponse_fails (s := opened s) hir hsome hopen hwrong] at hdbg
      obtain ⟨hlevel, hfailures, hclosed⟩ := newChallenge_dbg (responseFailed (opened s))
      have hfailed := responseFailed_dbg (opened s)
      rw [hfailed] at hlevel hfailures
      refine ⟨hdbg ▸ hlevel, hdbg ▸ hfailures, fun h => ?_, core_cmds hcore⟩
      rw [hdbg]
      refine hclosed ?_
      rw [gauntletClosed, hfailed]
      have h2 : (opened s).dbg.failures = 2 := h
      simp [h2]

/-! ### Debug access (R657-R662) -/

/-- What an operation answers leaves of the port its result, and all else. -/
theorem dbgResult_frame (data : Word) (addr st : Nat) (s : State) : (dbgResult data addr st s).dbg = { s.dbg with data := data, addr := addr, status := st }
    ∧ (dbgResult data addr st s).hub = s.hub ∧ (dbgResult data addr st s).pool = s.pool := ⟨rfl, rfl, rfl⟩

section
variable {space addr : Nat} {v : Word} {begun : List Nat} {s : State}

theorem evDbgRead_idle (h : s.dbg.ir ≠ 0x21) : evDbgRead space addr [] s = s := if_pos (bne_iff_ne.mpr h)

theorem evDbgRead_locked (hir : s.dbg.ir = 0x21) (hlevel : s.dbg.level = 0) : evDbgRead space addr [] s = dbgResult 0 addr 1 s :=
  (if_neg (by simp [hir])).trans (if_pos hlevel)

theorem evDbgRead_register (hir : s.dbg.ir = 0x21) (hlevel : s.dbg.level ≠ 0) (hplace : dbgPlace 0 addr = true) :
    evDbgRead 0 addr [] s = dbgResult (readReg s addr) addr 0 (afterRead 0 addr s) := by
  have hfetch : dbgFetch 0 addr s = (readReg s addr, false, afterRead 0 addr s) := if_neg (by rw [hplace]; exact Bool.false_ne_true)
  refine (if_neg (by simp [hir])).trans ((if_neg hlevel).trans ?_)
  show dbgResult (dbgFetch 0 addr s).1 addr (if (dbgFetch 0 addr s).2.1 then 4 else 0) (dbgFetch 0 addr s).2.2 = _
  rw [hfetch]
  rfl

theorem evDbgWrite_idle (h : s.dbg.ir ≠ 0x21) : evDbgWrite space addr v begun s = s := if_pos (bne_iff_ne.mpr h)

theorem evDbgWrite_denied (hir : s.dbg.ir = 0x21) (hlevel : s.dbg.level = 1) : evDbgWrite space addr v begun s = dbgResult 0 addr 2 s :=
  (if_neg (by simp [hir])).trans ((if_neg (by simp [hlevel])).trans (if_pos hlevel))

theorem evDbgWrite_stores (hir : s.dbg.ir = 0x21) (hlevel : s.dbg.level = 2) :
    evDbgWrite space addr v begun s = dbgResult 0 addr 0 (dbgStore (space % 8) addr v begun (countWrite s)) :=
  (if_neg (by simp [hir])).trans ((if_neg (by simp [hlevel])).trans (if_neg (by simp [hlevel])))

theorem evDbgCtrlLock_idle (h : s.dbg.ir ≠ 0x21) : evDbgCtrlLock s = s := if_pos (bne_iff_ne.mpr h)

theorem evDbgCtrlLock_locks (hir : s.dbg.ir = 0x21) (hlevel : s.dbg.level ≠ 0) :
    evDbgCtrlLock s = dbgResult 0 0 0 (debugEntry 0 0x1292 [] (setDbg (fun d => { d with level := 0 }) s)) :=
  (if_neg (by simp [hir])).trans (if_neg hlevel)

theorem afterRead_frame (bar off : Nat) (s : State) :
    (afterRead bar off s).dbg = s.dbg ∧ (afterRead bar off s).hub = s.hub ∧ (afterRead bar off s).pool = s.pool := by
  unfold afterRead
  split <;> exact ⟨rfl, rfl, rfl⟩

/-- A write is counted, whether it is the first since the opening or not. -/
theorem countWrite_frame (s : State) : (countWrite s).dbg = { s.dbg with writes := satAdd 32 s.dbg.writes 1, wrote := true }
    ∧ (countWrite s).hub = s.hub ∧ (countWrite s).pool = s.pool := by
  unfold countWrite
  dsimp only
  split
  · exact ⟨rfl, rfl, rfl⟩
  · exact debugEntry_frame ..

theorem dbgStore_pool {p : Partition × Nat} (hplace : dbgPlace 2 addr = true) (hp : poolPlace s addr = some p) :
    dbgStore 2 addr v begun s = poolWriteWord p.1 p.2 v s := by
  refine (if_neg (by rw [hplace]; exact Bool.false_ne_true)).trans ?_
  show (match poolPlace s addr with
    | some (p, o) => poolWriteWord p o v s
    | none => s) = _
  rw [hp]

theorem poolWriteWord_pool {p : Partition} {o : Nat} {t : State} (h : t.pool = s.pool) : (poolWriteWord p o v t).pool = (poolWriteWord p o v s).pool := by
  simp only [poolWriteWord, poolWrite, setPart, h]

end

theorem dbgRead_locked (space addr : Nat) : EventTo (fun k => .dbgRead k space addr []) (fun _ s => s.dbg.ir = 0x21 ∧ s.dbg.level = 0)
    (fun _ s t => t.dbg = { s.dbg with data := 0, addr := addr, status := 1 } ∧ t.hub = s.hub ∧ t.pool = s.pool) :=
  eventTo_debug (f := fun _ => evDbgRead space addr []) (fun _ _ => rfl) (fun _ s _ => (evDbgRead_core ..).trans (opened_core s))
    fun _ s t ⟨hir, hlevel⟩ _ hdbg hhub hpool => by
      rw [evDbgRead_locked (s := opened s) hir hlevel] at hdbg hhub hpool
      exact ⟨hdbg, hhub, hpool⟩

theorem dbgRead_register (addr : Nat) : EventTo (fun k => .dbgRead k 0 addr [])
    (fun _ s => s.dbg.ir = 0x21 ∧ s.dbg.level ≠ 0 ∧ dbgPlace 0 addr = true)
    (fun _ s t => t.dbg.data = readReg s addr ∧ t.dbg.addr = addr ∧ t.dbg.status = 0 ∧ t.hub = s.hub ∧ t.pool = s.pool ∧ t.cmds = s.cmds) :=
  eventTo_debug (f := fun _ => evDbgRead 0 addr []) (fun _ _ => rfl) (fun _ s _ => (evDbgRead_core ..).trans (opened_core s))
    fun _ s t ⟨hir, hlevel, hplace⟩ hcore hdbg hhub hpool => by
      rw [evDbgRead_register (s := opened s) hir hlevel hplace] at hdbg hhub hpool
      obtain ⟨-, hhub', hpool'⟩ := afterRead_frame 0 addr (opened s)
      exact ⟨(congrArg DebugUnit.data hdbg).trans rfl, (congrArg DebugUnit.addr hdbg :), (congrArg DebugUnit.status hdbg :), hhub.trans hhub',
        hpool.trans hpool', core_cmds hcore⟩

theorem dbgWrite_denied (space addr : Nat) (v : Word) (begun : List Nat) : EventTo (fun k => .dbgWrite k space addr v begun)
    (fun _ s => s.dbg.ir = 0x21 ∧ s.dbg.level = 1)
    (fun _ s t => t.dbg = { s.dbg with data := 0, addr := addr, status := 2 } ∧ t.hub = s.hub ∧ t.pool = s.pool ∧ t.qps = s.qps) :=
  eventTo_plain (effect := dbgResult 0 addr 2)
    (event_of_core (f := fun _ => evDbgWrite space addr v begun) (fun _ _ => rfl) (fun _ s h => evDbgWrite_denied (s := opened s) h.1 h.2)
      fun _ _ => dbgResult_core ..)
    (fun _ _ => rfl) fun _ _ _ => ⟨rfl, rfl, rfl, rfl⟩

theorem dbgWrite_pool (addr : Nat) (v : Word) (begun : List Nat) (p : Partition × Nat) : EventTo (fun k => .dbgWrite k 2 addr v begun)
    (fun _ s => s.dbg.ir = 0x21 ∧ s.dbg.level = 2 ∧ dbgPlace 2 addr = true ∧ poolPlace s addr = some p)
    (fun _ s t => t.pool = (poolWriteWord p.1 p.2 v s).pool ∧ t.dbg.status = 0 ∧ t.dbg.addr = addr ∧ t.dbg.writes = satAdd 32 s.dbg.writes 1
      ∧ t.cmds = s.cmds) := by
  have hstore {s : State} (h : s.dbg.ir = 0x21 ∧ s.dbg.level = 2 ∧ dbgPlace 2 addr = true ∧ poolPlace s addr = some p) :
      evDbgWrite 2 addr v begun (opened s) = dbgResult 0 addr 0 (poolWriteWord p.1 p.2 v (countWrite (opened s))) := by
    obtain ⟨hir, hlevel, hplace, hp⟩ := h
    have hp' : poolPlace (countWrite (opened s)) addr = some p := by
      rw [poolPlace, (countWrite_frame (opened s)).2.2]
      exact hp
    rw [evDbgWrite_stores (s := opened s) hir hlevel]
    exact congrArg (dbgResult 0 addr 0) (dbgStore_pool hplace hp')
  refine eventTo_debug (f := fun _ => evDbgWrite 2 addr v begun) (fun _ _ => rfl) (fun k s hp => ?_) fun k s t hp hcore hdbg _ hpool => ?_
  · rw [hstore hp]
    exact (dbgResult_core ..).trans ((poolWriteWord_core ..).trans ((countWrite_core ..).trans (opened_core s)))
  · rw [hstore hp] at hdbg hpool
    have hdbg' : t.dbg = { (countWrite (opened s)).dbg with data := 0, addr := addr, status := 0 } := hdbg
    have hpool' : t.pool = (poolWriteWord p.1 p.2 v s).pool := hpool.trans (poolWriteWord_pool (s := s) (countWrite_frame (opened s)).2.2)
    rw [(countWrite_frame (opened s)).1] at hdbg'
    exact ⟨hpool', by rw [hdbg'], by rw [hdbg'], by rw [hdbg']; rfl, core_cmds hcore⟩

theorem dbgCtrlLock_locks : EventTo (fun k => .dbgCtrlLock k) (fun _ s => s.dbg.ir = 0x21 ∧ s.dbg.level ≠ 0)
    (fun _ s t => t.dbg.level = 0 ∧ t.dbg.status = 0 ∧ t.hub = s.hub ∧ t.cmds = s.cmds) :=
  eventTo_debug (f := fun _ => evDbgCtrlLock) (fun _ _ => rfl) (fun _ s _ => (evDbgCtrlLock_core ..).trans (opened_core s))
    fun _ s t ⟨hir, hlevel⟩ hcore hdbg hhub _ => by
      rw [evDbgCtrlLock_locks (s := opened s) hir hlevel] at hdbg hhub
      obtain ⟨hdbg', hhub', -⟩ := debugEntry_frame 0 0x1292 [] (setDbg (fun d => { d with level := 0 }) (opened s))
      have hport : t.dbg = { (debugEntry 0 0x1292 [] (setDbg (fun d => { d with level := 0 }) (opened s))).dbg with data := 0, addr := 0, status := 0 } :=
        hdbg
      rw [hdbg'] at hport
      exact ⟨by rw [hport]; rfl, by rw [hport], hhub.trans hhub', core_cmds hcore⟩

/-! ### Run control (R663, R664) -/

/-- From `s` to `t` the pair `p` is what `c` says, and the others are as they were. -/
structure PairIs (p : Nat) (c : CorePair) (s t : State) : Prop where
  own : coreOf t p = c
  others : ∀ i, i ≠ p → coreOf t i = coreOf s i

theorem coreOf_hub {s t : State} (h : t.hub = s.hub) (i : Nat) : coreOf t i = coreOf s i := by rw [coreOf, h, coreOf]

theorem PairIs.hub {p : Nat} {c : CorePair} {s t s' t' : State} (h : PairIs p c s t) (hs : s.hub = s'.hub) (ht : t'.hub = t.hub) : PairIs p c s' t' :=
  ⟨(coreOf_hub ht p).trans h.own, fun i hi => (coreOf_hub ht i).trans ((h.others i hi).trans (coreOf_hub hs i))⟩

theorem setCore_is {p : Nat} {s : State} (hp : p < s.hub.cores.length) (f : CorePair → CorePair) : PairIs p (f (coreOf s p)) s (setCore p f s) :=
  ⟨coreOf_setCore hp, fun _ hi => coreOf_setCore_ne hi⟩

theorem setCore_length (p : Nat) (f : CorePair → CorePair) (s : State) : (setCore p f s).hub.cores.length = s.hub.cores.length := by
  simp [setCore, setHub, modAt]

theorem freeWords_hub (n : Nat) (s : State) : (freeWords n s).2.hub = s.hub := by
  induction n generalizing s with
  | zero => rfl
  | succ n ih => exact ih _

/-- The registers of a pair that has just stopped. -/
theorem freeRegs_is {p : Nat} (pc : Option Word) {s : State} (hp : p < s.hub.cores.length) : ∃ gprs w, gprs.length = 31 ∧ (∀ a, pc = some a → w = a)
    ∧ PairIs p { coreOf s p with gprs := gprs, pc := w } s (freeRegs p pc s) := by
  have hhub := freeWords_hub 31 s
  have is {u : State} (hu : u.hub = s.hub) (w : Word) :
      PairIs p { coreOf s p with gprs := (freeWords 31 s).1, pc := w } s (setCore p (fun c => { c with gprs := (freeWords 31 s).1, pc := w }) u) := by
    have h := setCore_is (p := p) (s := u) (by rw [hu]; exact hp) fun c => { c with gprs := (freeWords 31 s).1, pc := w }
    rw [coreOf_hub hu] at h
    exact h.hub hu rfl
  cases pc with
  | some a => exact ⟨_, a, freeWords_length 31 s, fun b hb => Option.some.inj hb, is hhub a⟩
  | none => exact ⟨_, _, freeWords_length 31 s, nofun, is (u := (takeFree (freeWords 31 s).2).2) hhub (takeFree (freeWords 31 s).2).1⟩

section
variable {p : Nat} {s : State}

/-- A pair that halts under debug, without a command begun. -/
theorem debugHalt_is {cause number : Nat} (pc : Option Word) (hst : (coreOf s p).st = .running) (hp : p < s.hub.cores.length)
    (htrip : s.hub.tripped = false) (hlow : s.hub.resetLow = false) : ∃ gprs w, gprs.length = 31 ∧ (∀ a, pc = some a → w = a)
      ∧ PairIs p { coreOf s p with st := .halted, cause := cause, number := number, gprs := gprs, pc := w } s (debugHalt p cause number pc [] s) := by
  let u := setCore p (fun c => { c with st := .halted, cause := cause, number := number }) s
  have hu : PairIs p { coreOf s p with st := .halted, cause := cause, number := number } s u := setCore_is hp fun c => { c with st := .halted, cause := cause, number := number }
  obtain ⟨gprs, w, hlen, hpc, hregs⟩ := freeRegs_is pc (s := u) (by rw [setCore_length]; exact hp)
  have heq : debugHalt p cause number pc [] s = debugEntry p 0x1294 [BitVec.ofNat 32 p, 0] (freeRegs p pc u) :=
    if_neg (by simp [hst, hp, htrip, hlow])
  rw [heq]
  rw [hu.own] at hregs
  have hentry : PairIs p _ u (debugEntry p 0x1294 [BitVec.ofNat 32 p, 0] (freeRegs p pc u)) := hregs.hub rfl (debugEntry_frame ..).2.1
  exact ⟨gprs, w, hlen, hpc, hentry.own, fun i hi => (hentry.others i hi).trans (hu.others i hi)⟩

theorem debugHalt_core (cause number : Nat) (pc : Option Word) (s : State) : core (debugHalt p cause number pc [] s) = core s := by
  unfold debugHalt
  split
  · rfl
  · exact (debugEntry_core ..).trans ((freeRegs_core ..).trans (setCore_core ..))

theorem debugHalt_idle {cause number : Nat} {pc : Option Word} {begun : List Nat} (h : (coreOf s p).st ≠ .running) :
    debugHalt p cause number pc begun s = s :=
  if_pos (by simp [h])

/-- A halted pair takes back its work, where no reply waits. -/
theorem debugResume_is (hst : (coreOf s p).st = .halted) (hp : p < s.hub.cores.length) (hr : s.hub.replies = []) :
    PairIs p { coreOf s p with st := .running, cause := 0, number := 0 } s (debugResume p s) ∧ core (debugResume p s) = core s := by
  let u := debugEntry p 0x1294 [BitVec.ofNat 32 p, 1] (setCore p (fun c => { c with st := .running, cause := 0, number := 0 }) s)
  have heq : debugResume p s = resumeService u := if_neg (by simp [hst])
  have hentry : u.hub = (setCore p (fun c => { c with st := .running, cause := 0, number := 0 }) s).hub := (debugEntry_frame ..).2.1
  have hunits : SameUnits u (resumeService u) := resumeService_units (by rw [hentry]; exact hr)
  rw [heq]
  exact ⟨(setCore_is hp _).hub rfl (hunits.hub.trans hentry), hunits.core.trans ((debugEntry_core ..).trans (setCore_core ..))⟩

theorem debugStep_is (hst : (coreOf s p).st = .halted) (hp : p < s.hub.cores.length) :
    ∃ gprs w, PairIs p { coreOf s p with cause := 2, number := 0, gprs := gprs, pc := w } s (debugStep p s) := by
  let u := setCore p (fun c => { c with cause := 2, number := 0 }) s
  have hu : PairIs p { coreOf s p with cause := 2, number := 0 } s u := setCore_is hp fun c => { c with cause := 2, number := 0 }
  obtain ⟨gprs, w, -, -, hregs⟩ := freeRegs_is none (s := u) (by rw [setCore_length]; exact hp)
  have heq : debugStep p s = freeRegs p none u := if_neg (by simp [hst])
  rw [heq]
  rw [hu.own] at hregs
  exact ⟨gprs, w, hregs.own, fun i hi => (hregs.others i hi).trans (hu.others i hi)⟩

/-- A row that writes DCTRL is a debug write to the control register of its pair. -/
theorem evDctrl_writes {value : Nat} {begun : List Nat} (hp : p < s.hub.cores.length) (h2 : p < 2) (hir : s.dbg.ir = 0x21) (hlevel : s.dbg.level = 2) :
    evDctrl p value begun s = dbgResult 0 (p * 0x1000) 0 (writeDctrl p (BitVec.ofNat 32 value) begun (countWrite s)) := by
  refine (if_pos hp).trans ((evDbgWrite_stores hir hlevel).trans (congrArg (dbgResult 0 (p * 0x1000) 0) ?_))
  have hplace : dbgPlace 3 (p * 0x1000) = true := by interval_cases p <;> rfl
  have hpair : p * 0x1000 / 0x1000 = p := Nat.mul_div_cancel _ (by decide)
  have hoff : p * 0x1000 % 0x1000 = 0 := Nat.mul_mod_left ..
  refine (if_neg (by rw [show 3 % 8 = 3 from rfl, hplace]; exact Bool.false_ne_true)).trans ?_
  show writeCoreReg (p * 0x1000 / 0x1000) (p * 0x1000 % 0x1000) _ begun (countWrite s) = _
  rw [hpair, hoff]
  rfl

theorem writeDctrl_halts (s : State) : writeDctrl p 1 [] s = debugHalt p 1 0 none [] s := rfl

theorem writeDctrl_resumes (s : State) : writeDctrl p 2 [] s = debugResume p s := rfl

theorem writeDctrl_steps (s : State) : writeDctrl p 4 [] s = debugStep p s := rfl

theorem evBreakpointHit_idle {n : Nat} (h : bit (coreOf s p).bpEn n = false ∨ (coreOf s p).st ≠ .running) : evBreakpointHit p n [] s = s := by
  unfold evBreakpointHit
  rcases h with h | h
  · rw [h, Bool.and_false]
    rfl
  · rw [debugHalt_idle h, ite_self]

end

/-- A pair halts by DCTRL, at a breakpoint or at a watchpoint. -/
theorem halt_post {p cause number : Nat} {pc : Option Word} {s u : State} (hu : u.hub = s.hub) (hst : (coreOf s p).st = .running)
    (hp : p < s.hub.cores.length) (htrip : s.hub.tripped = false) (hlow : s.hub.resetLow = false) {t : State}
    (ht : t.hub = (debugHalt p cause number pc [] u).hub) : (coreOf t p).st = .halted ∧ (coreOf t p).cause = cause ∧ (coreOf t p).number = number
      ∧ (coreOf t p).gprs.length = 31 ∧ (∀ a, pc = some a → (coreOf t p).pc = a) ∧ (∀ i, i ≠ p → coreOf t i = coreOf s i) := by
  obtain ⟨gprs, w, hlen, hpc, hhalt⟩ := debugHalt_is (s := u) (cause := cause) (number := number) pc ((coreOf_hub hu p).symm ▸ hst) (hu ▸ hp) (hu ▸ htrip)
    (hu ▸ hlow)
  have h := hhalt.hub hu ht
  rw [h.own]
  exact ⟨rfl, rfl, rfl, hlen, hpc, h.others⟩

theorem dctrlHalt_halts (p : Nat) : EventTo (fun k => .dctrlHalt k p [])
    (fun _ s => p < s.hub.cores.length ∧ p < 2 ∧ s.dbg.ir = 0x21 ∧ s.dbg.level = 2 ∧ (coreOf s p).st = .running ∧ s.hub.tripped = false
      ∧ s.hub.resetLow = false)
    (fun _ s t => (coreOf t p).st = .halted ∧ (coreOf t p).cause = 1 ∧ (coreOf t p).gprs.length = 31 ∧ (∀ i, i ≠ p → coreOf t i = coreOf s i)
      ∧ t.cmds = s.cmds ∧ t.time = s.time) := by
  refine eventTo_debug (f := fun _ => evDctrl p 1 []) (fun _ _ => rfl) (fun k s ⟨hp, h2, hir, hlevel, _⟩ => ?_)
    fun k s t ⟨hp, h2, hir, hlevel, hst, htrip, hlow⟩ hcore _ hhub _ => ?_
  · rw [evDctrl_writes (s := opened s) hp h2 hir hlevel]
    exact (dbgResult_core ..).trans ((debugHalt_core ..).trans ((countWrite_core ..).trans (opened_core s)))
  · rw [evDctrl_writes (s := opened s) hp h2 hir hlevel] at hhub
    obtain ⟨hhalted, hcause, -, hlen, -, hothers⟩ := halt_post (s := s) (u := countWrite (opened s)) (countWrite_frame (opened s)).2.1 hst hp htrip hlow hhub
    exact ⟨hhalted, hcause, hlen, hothers, core_cmds hcore, core_time hcore⟩

theorem dctrlResume_resumes (p : Nat) : EventTo (fun k => .dctrlResume k p)
    (fun _ s => p < s.hub.cores.length ∧ p < 2 ∧ s.dbg.ir = 0x21 ∧ s.dbg.level = 2 ∧ (coreOf s p).st = .halted ∧ s.hub.tripped = false
      ∧ s.hub.resetLow = false ∧ s.hub.replies = [])
    (fun _ s t => (coreOf t p).st = .running ∧ (coreOf t p).cause = 0 ∧ (∀ i, i ≠ p → coreOf t i = coreOf s i) ∧ t.cmds = s.cmds ∧ t.time = s.time) := by
  have resume {s : State} (hst : (coreOf s p).st = .halted) (hp : p < s.hub.cores.length) (hr : s.hub.replies = []) :
      PairIs p { coreOf s p with st := .running, cause := 0, number := 0 } s (debugResume p (countWrite (opened s)))
        ∧ core (debugResume p (countWrite (opened s))) = core s := by
    have hhub : (countWrite (opened s)).hub = s.hub := (countWrite_frame (opened s)).2.1
    obtain ⟨his, hcore⟩ := debugResume_is (s := countWrite (opened s)) (p := p) ((coreOf_hub hhub p).symm ▸ hst) (hhub ▸ hp) (hhub ▸ hr)
    rw [coreOf_hub hhub] at his
    exact ⟨his.hub hhub rfl, hcore.trans ((countWrite_core ..).trans (opened_core s))⟩
  refine eventTo_debug (f := fun _ => evDctrl p 2 []) (fun _ _ => rfl) (fun k s ⟨hp, h2, hir, hlevel, hst, _, _, hr⟩ => ?_)
    fun k s t ⟨hp, h2, hir, hlevel, hst, _, _, hr⟩ hcore _ hhub _ => ?_
  · rw [evDctrl_writes (s := opened s) hp h2 hir hlevel]
    exact (dbgResult_core ..).trans (resume hst hp hr).2
  · rw [evDctrl_writes (s := opened s) hp h2 hir hlevel] at hhub
    have his : PairIs p _ s t := (resume hst hp hr).1.hub rfl hhub
    rw [his.own]
    exact ⟨rfl, rfl, his.others, core_cmds hcore, core_time hcore⟩

theorem dctrlStep_steps (p : Nat) : EventTo (fun k => .dctrlStep k p)
    (fun _ s => p < s.hub.cores.length ∧ p < 2 ∧ s.dbg.ir = 0x21 ∧ s.dbg.level = 2 ∧ (coreOf s p).st = .halted)
    (fun _ s t => (coreOf t p).st = .halted ∧ (coreOf t p).cause = 2 ∧ (∀ i, i ≠ p → coreOf t i = coreOf s i) ∧ t.cmds = s.cmds ∧ t.time = s.time) := by
  refine eventTo_debug (f := fun _ => evDctrl p 4 []) (fun _ _ => rfl) (fun k s ⟨hp, h2, hir, hlevel, _⟩ => ?_)
    fun k s t ⟨hp, h2, hir, hlevel, hst⟩ hcore _ hhub _ => ?_
  · rw [evDctrl_writes (s := opened s) hp h2 hir hlevel]
    exact (dbgResult_core ..).trans ((debugStep_core ..).trans ((countWrite_core ..).trans (opened_core s)))
  · rw [evDctrl_writes (s := opened s) hp h2 hir hlevel] at hhub
    have hcount : (countWrite (opened s)).hub = s.hub := (countWrite_frame (opened s)).2.1
    obtain ⟨gprs, w, hstep⟩ := debugStep_is (s := countWrite (opened s)) (p := p) ((coreOf_hub hcount p).symm ▸ hst) (hcount ▸ hp)
    have his : PairIs p _ s t := hstep.hub hcount hhub
    rw [his.own]
    exact ⟨(congrArg CorePair.st (coreOf_hub hcount p)).trans hst, rfl, his.others, core_cmds hcore, core_time hcore⟩

theorem breakpointHit_halts (p n : Nat) : EventTo (fun k => .breakpointHit k p n [])
    (fun _ s => p < s.hub.cores.length ∧ n < 4 ∧ bit (coreOf s p).bpEn n = true ∧ (coreOf s p).st = .running ∧ s.hub.tripped = false
      ∧ s.hub.resetLow = false)
    (fun _ s t => (coreOf t p).st = .halted ∧ (coreOf t p).cause = 3 ∧ (coreOf t p).number = n ∧ (coreOf t p).pc = (coreOf s p).bps.getD n 0
      ∧ (∀ i, i ≠ p → coreOf t i = coreOf s i) ∧ t.cmds = s.cmds) := by
  have heq {s : State} (hn : n < 4) (hen : bit (coreOf s p).bpEn n = true) :
      evBreakpointHit p n [] s = debugHalt p 3 n (some ((coreOf s p).bps.getD n 0)) [] s := if_pos (by simp [hn, hen])
  refine eventTo_debug (f := fun _ => evBreakpointHit p n []) (fun _ _ => rfl) (fun k s ⟨_, hn, hen, _⟩ => ?_)
    fun k s t ⟨hp, hn, hen, hst, htrip, hlow⟩ hcore _ hhub _ => ?_
  · rw [heq (s := opened s) hn hen]
    exact (debugHalt_core ..).trans (opened_core s)
  · rw [heq (s := opened s) hn hen] at hhub
    obtain ⟨hhalted, hcause, hnumber, -, hpc, hothers⟩ := halt_post (s := s) (u := opened s) rfl hst hp htrip hlow hhub
    exact ⟨hhalted, hcause, hnumber, hpc _ rfl, hothers, core_cmds hcore⟩

theorem watchpointHit_halts (p n : Nat) : EventTo (fun k => .watchpointHit k p n [])
    (fun _ s => p < s.hub.cores.length ∧ n < 2 ∧ field ((coreOf s p).wpCtrl.getD n 0) 1 0 ≠ 0 ∧ (coreOf s p).st = .running ∧ s.hub.tripped = false
      ∧ s.hub.resetLow = false)
    (fun _ s t => (coreOf t p).st = .halted ∧ (coreOf t p).cause = 4 ∧ (coreOf t p).number = n ∧ (∀ i, i ≠ p → coreOf t i = coreOf s i)
      ∧ t.cmds = s.cmds) := by
  have heq {s : State} (hn : n < 2) (hon : field ((coreOf s p).wpCtrl.getD n 0) 1 0 ≠ 0) : evWatchpointHit p n [] s = debugHalt p 4 n none [] s :=
    if_pos (by rw [decide_eq_true hn, bne_iff_ne.mpr hon]; rfl)
  refine eventTo_debug (f := fun _ => evWatchpointHit p n []) (fun _ _ => rfl) (fun k s ⟨_, hn, hon, _⟩ => ?_)
    fun k s t ⟨hp, hn, hon, hst, htrip, hlow⟩ hcore _ hhub _ => ?_
  · rw [heq (s := opened s) hn hon]
    exact (debugHalt_core ..).trans (opened_core s)
  · rw [heq (s := opened s) hn hon] at hhub
    obtain ⟨hhalted, hcause, hnumber, -, -, hothers⟩ := halt_post (s := s) (u := opened s) rfl hst hp htrip hlow hhub
    exact ⟨hhalted, hcause, hnumber, hothers, core_cmds hcore⟩

/-! ### The obligation -/

/-- Settles O47, clause by clause. -/
theorem debugEvents : Obligations.DebugEvents := by
  refine ⟨?_, fun code levels shifted => ?_, fun code shifted => ?_, fun levels shifted => ?_, fun levels shifted => ?_, fun levels shifted => ?_,
    fun code levels shifted => ?_, gauntletSelect_open, gauntletSelect_closed, gauntletResponse_takes, gauntletResponse_fails, fun r => ?_,
    fun space addr => ?_, dbgRead_locked, dbgRead_register, dbgWrite_denied, dbgWrite_pool, fun space addr v begun => ?_, dbgCtrlLock_locks, ?_,
    dctrlHalt_halts, dctrlResume_resumes, dctrlStep_steps, breakpointHit_halts, fun p n => ?_, watchpointHit_halts⟩
  · exact event_of_core (f := fun _ => evTapReset) (fun _ _ => rfl) (fun _ _ _ => rfl) fun _ _ => rfl
  · exact event_of_core (f := fun _ => evTapInstructionLoad code levels shifted) (fun _ _ => rfl)
      (fun _ s h => evTapInstructionLoad_refused (s := opened s) h.1 h.2) fun _ _ => rfl
  · exact event_of_core (f := fun _ => evTapInstructionLoad code [] shifted) (fun _ _ => rfl)
      (fun _ s h => evTapInstructionLoad_drives (s := opened s) h.1 h.2) fun _ _ => rfl
  · exact event_of_core (f := fun _ => evTapInstructionLoad 0x01 levels shifted) (fun _ _ => rfl) (fun _ _ _ => rfl) fun _ _ => rfl
  · exact event_of_core (f := fun _ => evTapInstructionLoad 0x02 levels shifted) (fun _ _ => rfl)
      (fun _ s h => evTapInstructionLoad_scans (s := opened s) h) fun _ _ => rfl
  · exact event_of_core (f := fun _ => evTapInstructionLoad 0x21 levels shifted) (fun _ _ => rfl) (fun _ _ _ => rfl) fun _ _ => rfl
  · exact event_of_core (f := fun _ => evTapInstructionLoad code levels shifted) (fun _ _ => rfl)
      (fun _ s h => evTapInstructionLoad_unknown (s := opened s) h) fun _ _ => rfl
  · exact event_idle (f := fun _ => evGauntletResponse r) (fun _ _ => rfl) fun _ s h => evGauntletResponse_idle (s := opened s) h
  · exact event_idle (f := fun _ => evDbgRead space addr []) (fun _ _ => rfl) fun _ s h => evDbgRead_idle (s := opened s) h
  · exact event_idle (f := fun _ => evDbgWrite space addr v begun) (fun _ _ => rfl) fun _ s h => evDbgWrite_idle (s := opened s) h
  · exact event_idle (f := fun _ => evDbgCtrlLock) (fun _ _ => rfl) fun _ s h => evDbgCtrlLock_idle (s := opened s) h
  · exact event_idle (f := fun _ => evBreakpointHit p n []) (fun _ _ => rfl) fun _ s h => evBreakpointHit_idle (s := opened s) h

end Sys2Proof.Machine
end

section
/-! What the operations of the device leave of the control complex, beside the replies that wait; of the fallback mark of the black box; and of the
causes of faults. -/

namespace Sys2Proof.Machine

/-- What an operation keeps that is neither a boot nor a fault: the control complex without the replies that wait, the fallback mark, and the causes
of faults. -/
def house (s : State) : HubUnit × Bool × Word := ({ s.hub with replies := [] }, s.bb.fallback, s.faultCause)

/-- Every other field may change. -/
theorem house_mk (s : State) (pending_ : _) (out_ : _) (variant_ : _) (compat_ : _) (index_ : _) (ready_ : _) (mode_ : _) (shadowed_ : _) (nextId_ : _)
    (cmds_ : _) (qps_ : _) (spi_ : _) (ctlport_ : _) (routes_ : _) (notices_ : _) (aside_ : _) (glob_ : _) (pool_ : _) (time_ : _) (conv_ : _)
    (eqs_ : _) (tuners_ : _) (engines_ : _) (dens_ : _) (spgm_ : _) (trig_ : _) (cap_ : _) (intg_ : _) (th_ : _) (strm_ : _) (packers_ : _) (mq_ : _)
    (tdc_ : _) (mc_ : _) (maint_ : _) (disp_ : _) (dbg_ : _) (pair_ : _) (faultActive_ : _) (hist_ : _) (free_ : _) :
    house (State.mk pending_ out_ variant_ compat_ index_ ready_ mode_ shadowed_ nextId_ cmds_ qps_ spi_ ctlport_ routes_ notices_ aside_ glob_
      pool_ time_ conv_ eqs_ tuners_ engines_ dens_ spgm_ trig_ cap_ intg_ th_ strm_ packers_ mq_ tdc_ mc_ maint_ disp_ s.hub dbg_ pair_ s.bb
      s.faultCause faultActive_ hist_ free_) = house s := rfl

/-- The replies that wait may change. -/
@[simp] theorem house_replies (s : State) (l : List (Cmd × Entry)) : house { s with hub := { s.hub with replies := l } } = house s := rfl

/-- The entries of the black box may change. -/
theorem house_bb (s : State) (b : BlackBox) (h : b.fallback = s.bb.fallback) : house { s with bb := b } = house s := by
  rw [house, house, h]

@[simp] theorem house_ite {p : Prop} [Decidable p] (a b : State) : house (if p then a else b) = if p then house a else house b :=
  apply_ite house p a b

@[simp] theorem house_foldl {β : Type} {l : List β} {f : State → β → State} {s : State} (h : ∀ a i, house (f a i) = house a) :
    house (l.foldl f s) = house s := by
  induction l generalizing s with
  | nil => rfl
  | cons x t ih => exact ih.trans (h s x)

@[simp] theorem house_foldl_fst {α β : Type} {l : List β} {f : State × α → β → State × α} {r : State × α} (h : ∀ a i, house (f a i).1 = house a.1) :
    house (l.foldl f r).1 = house r.1 := by
  induction l generalizing r with
  | nil => rfl
  | cons x t ih => exact ih.trans (h r x)

@[simp] theorem emit_house (o : Output) (s : State) : house (emit o s) = house s := rfl

@[simp] theorem raiseVector_house (v : Nat) (s : State) : house (raiseVector v s) = house s := by simp [raiseVector]

@[simp] theorem latchGint_house (b : Nat) (s : State) : house (latchGint b s) = house s := by simp [latchGint, ↓house_mk]

@[simp] theorem setStrm_house (f : StreamUnit → StreamUnit) (s : State) : house (setStrm f s) = house s := rfl

@[simp] theorem setPort_house (p : Nat) (f : EthPort → EthPort) (s : State) : house (setPort p f s) = house s := rfl

@[simp] theorem sendDatagram_house (dest : Sender) (l : List Entry) (s : State) : house (sendDatagram dest l s) = house s := rfl

@[simp] theorem setQp_house (q : Nat) (f : QueuePair → QueuePair) (s : State) : house (setQp q f s) = house s := rfl

@[simp] theorem stopQp_house (q code : Nat) (s : State) : house (stopQp q code s) = house s := by
  unfold stopQp
  split <;> simp

@[simp] theorem tryRq_house (q : Nat) (e : Entry) (s : State) : house (tryRq q e s).1 = house s := by
  unfold tryRq
  dsimp only
  repeat' split
  all_goals simp

@[simp] theorem replyQp_house (q : Nat) (e : Entry) (s : State) : house (replyQp q e s) = house s := by
  have h := tryRq_house q e s
  unfold replyQp
  dsimp only
  split
  · exact setQp_house ..
  · split <;> next hr => simp_all

@[simp] theorem rememberReply_house (id : Nat) (e : Entry) (s : State) : house (rememberReply id e s) = house s := rfl

@[simp] theorem diverge_house (mseq : Nat) (s : State) : house (diverge mseq s) = house s := by simp [diverge, ↓house_mk]

@[simp] theorem writeReply_house (c : Cmd) (e : Entry) (s : State) : house (writeReply c e s) = house s := by
  unfold writeReply
  repeat' split
  all_goals simp [↓house_mk]

@[simp] theorem deliverReply_house (c : Cmd) (e : Entry) (s : State) : house (deliverReply c e s) = house s := by simp [deliverReply]

@[simp] theorem complete_house (c : Cmd) (st : Status) (payload : List Word) (idx : Nat) (s : State) :
    house (complete c st payload idx s) = house s := by
  unfold complete
  split <;> simp [↓house_mk]

@[simp] theorem completeId_house (id : Nat) (st : Status) (payload : List Word) (idx : Nat) (s : State) :
    house (completeId id st payload idx s) = house s := by
  unfold completeId
  split <;> simp

@[simp] theorem putNotice_house (d : Nat) (e : Entry) (s : State) : house (putNotice d e s).1 = house s := by
  unfold putNotice
  repeat' split
  all_goals simp [↓house_mk]

@[simp] theorem holdNotice_house (d : Nat) (e : Entry) (s : State) : house (holdNotice d e s) = house s := by
  rw [holdNotice_frame]
  rfl

@[simp] theorem sendNotice_house (d : Nat) (e : Entry) (s : State) : house (sendNotice d e s) = house s := by
  have hput := putNotice_house d e s
  unfold sendNotice
  split
  · split <;> next hr => simp_all
  · simp

@[simp] theorem notify_house (code : Nat) (payload : List Word) (idx : Nat) (s : State) : house (notify code payload idx s) = house s := by
  unfold notify
  split <;> simp [↓house_mk]

@[simp] theorem setPart_house (slot : Nat) (f : Partition → Partition) (s : State) : house (setPart slot f s) = house s := rfl

@[simp] theorem poolWrite_house (slot o : Nat) (bytes : List Byte) (s : State) : house (poolWrite slot o bytes s) = house s := rfl

@[simp] theorem bbFreeze_house (event : Nat) (s : State) : house (bbFreeze event s) = house s := by
  unfold bbFreeze
  split <;> rfl

@[simp] theorem bbWrite_house (unit place event : Nat) (data : List Word) (idx : Nat) (s : State) :
    house (bbWrite unit place event data idx s) = house s := by
  unfold bbWrite
  dsimp only
  split_ifs
  · exact house_bb _ _ rfl
  · exact (bbFreeze_house ..).trans (house_bb _ _ rfl)
  · exact house_bb _ _ rfl

@[simp] theorem endFault_house (b : Nat) (s : State) : house (endFault b s) = house s := rfl

@[simp] theorem settleConv_house (stop next : Nat) (s : State) : house (settleConv stop next s) = house s := rfl

@[simp] theorem setTuner_house (t : Nat) (f : Tuner → Tuner) (s : State) : house (setTuner t f s) = house s := rfl

@[simp] theorem setCtx_house (n : Nat) (f : StreamCtx → StreamCtx) (s : State) : house (setCtx n f s) = house s := rfl

@[simp] theorem offerItem_house (pkind unit seq index : Nat) (source : ItemSource) (s : State) :
    house (offerItem pkind unit seq index source s) = house s := by simp [offerItem, ↓house_mk]

@[simp] theorem sendCheckpoint_house (n cell : Nat) (ends : Bool) (s : State) : house (sendCheckpoint n cell ends s) = house s :=
  by simp [sendCheckpoint]

@[simp] theorem endCtxRun_house (limit n : Nat) (s : State) : house (endCtxRun limit n s) = house s := by
  unfold endCtxRun
  dsimp only
  repeat' split
  all_goals simp

@[simp] theorem endStreams_house (kind unit limit : Nat) (s : State) : house (endStreams kind unit limit s) = house s := by simp [endStreams]

@[simp] theorem startCtxRun_house (e n : Nat) (s : State) : house (startCtxRun e n s) = house s := by simp [startCtxRun]

@[simp] theorem startStreams_house (kind unit e : Nat) (s : State) : house (startStreams kind unit e s) = house s := by simp [startStreams]

@[simp] theorem setEngine_house (e : Nat) (f : Engine → Engine) (s : State) : house (setEngine e f s) = house s := rfl

@[simp] theorem pushRecord_house (e : Nat) (r : RingRecord) (s : State) : house (pushRecord e r s) = house s := rfl

@[simp] theorem emitProduct_house (e : Nat) (s : State) : house (emitProduct e s) = house s := by
  unfold emitProduct
  dsimp only
  repeat' split
  all_goals simp

@[simp] theorem writeAt_house (h : Word) (o : Nat) (bytes : List Byte) (s : State) : house (writeAt h o bytes s) = house s := by
  unfold writeAt
  split <;> rfl

@[simp] theorem setDens_house (c : Nat) (f : Density → Density) (s : State) : house (setDens c f s) = house s := rfl

@[simp] theorem closeDensity_house (c stop : Nat) (gap early lost busy : Bool) (next : Option Nat) (s0 : State) :
    house (closeDensity c stop gap early lost busy next s0) = house s0 := by
  unfold closeDensity
  split <;> simp

@[simp] theorem closeDueDensity_house (u i : Nat) (lost busy : Bool) (fuel : Nat) (s : State) :
    house (closeDueDensity u i lost busy fuel s) = house s := by
  induction fuel generalizing lost busy s with
  | zero => rfl
  | succ fuel ih =>
    unfold closeDueDensity
    dsimp only
    repeat' split
    all_goals simp [ih]

@[simp] theorem densUpTo_house (u i : Nat) (s : State) : house (densUpTo u i s) = house s := by simp [densUpTo]

@[simp] theorem endDensity_house (c i : Nat) (gap : Bool) (s0 : State) : house (endDensity c i gap s0) = house s0 := by
  unfold endDensity
  dsimp only
  repeat' split
  all_goals simp

@[simp] theorem anchorDensity_house (c e : Nat) (s : State) : house (anchorDensity c e s) = house s := rfl

@[simp] theorem setSpgm_house (i : Nat) (f : Spgm → Spgm) (s : State) : house (setSpgm i f s) = house s := rfl

@[simp] theorem emitLine_house (i : Nat) (lost : Bool) (s : State) : house (emitLine i lost s) = house s := by
  unfold emitLine
  dsimp only
  split
  · rfl
  · simp only [setSpgm_house, house_ite, offerItem_house, writeAt_house, ite_self]

@[simp] theorem checkLineRates_house (e : Nat) (s : State) : house (checkLineRates e s) = house s := by simp [checkLineRates, ↓house_mk]

@[simp] theorem setSheaf_house (n : Nat) (f : Sheaf → Sheaf) (s : State) : house (setSheaf n f s) = house s := rfl

@[simp] theorem setRing_house (kind unit : Nat) (f : CapRing → CapRing) (s : State) : house (setRing kind unit f s) = house s := rfl

@[simp] theorem closeSegmentOn_house (records : List RingRecord) (n reason limit : Nat) (s : State) :
    house (closeSegmentOn records n reason limit s) = house s := by
  unfold closeSegmentOn
  dsimp only
  repeat' split
  all_goals rfl

@[simp] theorem closeSegment_house (n reason limit : Nat) (s : State) : house (closeSegment n reason limit s) = house s := by simp [closeSegment]

@[simp] theorem endRun_house (kind unit reason limit : Nat) (s : State) : house (endRun kind unit reason limit s) = house s := by simp [endRun]

@[simp] theorem startRun_house (kind unit e : Nat) (s : State) : house (startRun kind unit e s) = house s := rfl

@[simp] theorem resizeRing_house (e : Nat) (s : State) : house (resizeRing e s) = house s := by
  unfold resizeRing
  split <;> simp [↓house_mk]

@[simp] theorem setSlot_house (c : Nat) (f : TrigSlot → TrigSlot) (s : State) : house (setSlot c f s) = house s := rfl

@[simp] theorem pushEvent_house (x : TrigEvent) (s : State) : house (pushEvent x s) = house s := by simp [pushEvent, ↓house_mk]

@[simp] theorem endEngineEvents_house (g e : Nat) (s : State) : house (endEngineEvents g e s) = house s := by simp [endEngineEvents]

@[simp] theorem setTh_house (c : Nat) (f : Thresher → Thresher) (s : State) : house (setTh c f s) = house s := rfl

@[simp] theorem restartTh_house (c : Nat) (s : State) : house (restartTh c s) = house s := rfl

@[simp] theorem restartThOn_house (g : Nat) (s : State) : house (restartThOn g s) = house s := by simp [restartThOn]

@[simp] theorem setInt_house (f : IntUnit → IntUnit) (s : State) : house (setInt f s) = house s := rfl

@[simp] theorem openIntFrame_house (x : Nat) (s : State) : house (openIntFrame x s) = house s := rfl

@[simp] theorem closeIntFrame_house (close last : Nat) (s : State) : house (closeIntFrame close last s) = house s := by
  unfold closeIntFrame
  split <;> simp

@[simp] theorem stopInt_house (close i : Nat) (s : State) : house (stopInt close i s) = house s := by simp [stopInt]

@[simp] theorem endBefore_house (k n : Nat) (s : State) : house (endBefore k n s) = house s := by
  unfold endBefore
  split <;> simp

@[simp] theorem sheafTrigger_house (k trigSeq n : Nat) (s0 : State) : house (sheafTrigger k trigSeq n s0) = house s0 := by
  unfold sheafTrigger
  dsimp only
  repeat' split
  all_goals simp

@[simp] theorem armSheaf_house (e : Nat) (arm finish : Bool) (n : Nat) (s : State) : house (armSheaf e arm finish n s) = house s := by simp [armSheaf]

@[simp] theorem winnerAction_house (k w fmask : Nat) (vs : List Verdict) (s : State) : house (winnerAction k w fmask vs s) = house s := by
  unfold winnerAction
  split <;> simp [↓house_mk]

@[simp] theorem decideIndex_house (k : Nat) (s : State) : house (decideIndex k s) = house s := by
  unfold decideIndex
  dsimp only
  refine (house_foldl fun _ _ => completeId_house ..).trans ?_
  split
  · exact (winnerAction_house ..).trans (house_mk s ..)
  · exact house_mk s ..

@[simp] theorem restartSlots_house (e : Nat) (keep : Bool) (s : State) : house (restartSlots e keep s) = house s := rfl

@[simp] theorem stopSlots_house (e : Nat) (cancel : Bool) (s : State) : house (stopSlots e cancel s) = house s := rfl

@[simp] theorem applyChange_house (e : Nat) (x : TrigChange) (s : State) : house (applyChange e x s) = house s := by
  cases x with
  | config i g => rfl
  | arm m st => exact house_foldl fun _ _ => rfl
  | sheaves m arm finish => exact house_foldl fun _ _ => armSheaf_house ..

@[simp] theorem afterChanges_house (s : State) : house (afterChanges s) = house s := by simp [afterChanges, ↓house_mk]

@[simp] theorem decideRun_house (hi fuel : Nat) (s : State) : house (decideRun hi fuel s) = house s := by
  induction fuel generalizing s with
  | zero => rfl
  | succ fuel ih =>
    unfold decideRun
    repeat' split
    all_goals simp [ih]

@[simp] theorem decideSpan_house (hi : Nat) (s : State) : house (decideSpan hi s) = house s := by simp [decideSpan, ↓house_mk]

@[simp] theorem decideSteps_house (hi : Nat) (all : Bool) (fuel : Nat) (s : State) : house (decideSteps hi all fuel s) = house s := by
  induction fuel generalizing s with
  | zero => rfl
  | succ fuel ih =>
    unfold decideSteps
    dsimp only
    generalize (if all then hi else min hi (undecided s)) = limit
    split
    · split
      · rw [ih, applyChange_house]
        exact (house_mk (decideSpan ..) ..).trans (decideSpan_house ..)
      · exact decideSpan_house ..
    · exact decideSpan_house ..

@[simp] theorem dropEvents_house (s : State) : house (dropEvents s) = house s := rfl

@[simp] theorem decideTo_house (k : Nat) (s : State) : house (decideTo k s) = house s := by simp [decideTo]

@[simp] theorem decideBefore_house (e : Nat) (s : State) : house (decideBefore e s) = house s := by simp [decideBefore, ↓house_mk]

@[simp] theorem endThReports_house (ch e : Nat) (s : State) : house (endThReports ch e s) = house s := by simp [endThReports]

@[simp] theorem runThAct_house (ch e : Nat) (x : ThAct) (s : State) : house (runThAct ch e x s) = house s := by
  unfold runThAct
  split <;> simp

@[simp] theorem thCatch_house (all : Bool) (ch fuel : Nat) (s : State) : house (thCatch all ch fuel s) = house s := by
  induction fuel generalizing s with
  | zero => rfl
  | succ fuel ih =>
    unfold thCatch
    split
    · rfl
    · split
      · rw [ih, runThAct_house, setTh_house]
      · rfl

@[simp] theorem thCatchAll_house (all : Bool) (s : State) : house (thCatchAll all s) = house s := by simp [thCatchAll]

@[simp] theorem thTake_house (c : Nat) (invalid dropped : Bool) (binStart : Nat) (powers : List Dyad) (s : State) :
    house (thTake c invalid dropped binStart powers s).1 = house s := by
  unfold thTake
  dsimp only
  repeat' split
  all_goals simp

@[simp] theorem accumulateBin_house (ms : List IntMember) (p j arr cnt : Nat) (first : Bool) (s : State) :
    house (accumulateBin ms p j arr cnt first s) = house s := by simp [accumulateBin]

@[simp] theorem accumulateSet_house (ms : List IntMember) (s : State) : house (accumulateSet ms s) = house s := by simp [accumulateSet]

@[simp] theorem closeDueInt_house (key32 fuel : Nat) (s : State) : house (closeDueInt key32 fuel s) = house s := by
  induction fuel generalizing s with
  | zero => rfl
  | succ fuel ih =>
    unfold closeDueInt
    repeat' split
    all_goals simp [ih]

@[simp] theorem intUpTo_house (key32 : Nat) (s : State) : house (intUpTo key32 s) = house s := by simp [intUpTo]

@[simp] theorem mapIntFrame_house (f : IntFrame → IntFrame) (s : State) : house (mapIntFrame f s) = house s := rfl

@[simp] theorem accountSet_house (ms : List IntMember) (lost : Bool) (s : State) : house (accountSet ms lost s) = house s := by simp [accountSet]

@[simp] theorem takeSet_house (ms : List IntMember) (lost dropped : Bool) (s0 : State) : house (takeSet ms lost dropped s0) = house s0 := by
  unfold takeSet
  dsimp only
  repeat' split
  all_goals simp

@[simp] theorem intDrain_house (i fuel : Nat) (s : State) : house (intDrain i fuel s) = house s := by
  induction fuel generalizing s with
  | zero => rfl
  | succ fuel ih =>
    unfold intDrain
    repeat' split
    all_goals simp [ih]

@[simp] theorem intBefore_house (i : Nat) (s : State) : house (intBefore i s) = house s := by simp [intBefore]

@[simp] theorem startInt_house (e : Nat) (s : State) : house (startInt e s) = house s := by simp [startInt]

@[simp] theorem runIntAct_house (e : Nat) (x : IntAct) (s0 : State) : house (runIntAct e x s0) = house s0 := by
  unfold runIntAct
  split <;> simp

@[simp] theorem intCatch_house (all : Bool) (fuel : Nat) (s : State) : house (intCatch all fuel s) = house s := by
  induction fuel generalizing s with
  | zero => rfl
  | succ fuel ih =>
    unfold intCatch
    split
    · rfl
    · split
      · rw [ih, runIntAct_house, setInt_house]
      · rfl

@[simp] theorem intCatchAll_house (all : Bool) (s : State) : house (intCatchAll all s) = house s := by simp [intCatchAll]

@[simp] theorem intAct_house (e : Nat) (x : IntAct) (s : State) : house (intAct e x s) = house s := by simp [intAct]

@[simp] theorem checkIntSource_house (e i : Nat) (stopped : Bool) (s : State) : house (checkIntSource e i stopped s) = house s :=
  by simp [checkIntSource]

@[simp] theorem startDensity_house (u e : Nat) (s : State) : house (startDensity u e s) = house s := by simp [startDensity]

@[simp] theorem runDensAct_house (u e : Nat) (x : DensAct) (s : State) : house (runDensAct u e x s) = house s := by
  unfold runDensAct
  split <;> simp

@[simp] theorem densCatch_house (all : Bool) (u fuel : Nat) (s : State) : house (densCatch all u fuel s) = house s := by
  induction fuel generalizing s with
  | zero => rfl
  | succ fuel ih =>
    unfold densCatch
    split
    · rfl
    · split
      · rw [ih, runDensAct_house, setDens_house]
      · rfl

@[simp] theorem densCatchAll_house (all : Bool) (s : State) : house (densCatchAll all s) = house s := by simp [densCatchAll]

@[simp] theorem densityTake_house (u key : Nat) (invalid : Bool) (flags : SpecFlags) (regrid : Bool) (cols : List Dyad) (s0 : State) :
    house (densityTake u key invalid flags regrid cols s0) = house s0 := by
  unfold densityTake
  dsimp only
  repeat' split
  all_goals simp

@[simp] theorem spgmTake_house (i : Nat) (x : FrameIn) (cols : List Dyad) (lost : Bool) (s : State) : house (spgmTake i x cols lost s) = house s :=
  by simp [spgmTake]

@[simp] theorem runSpgmAct_house (i : Nat) (x : SpgmAct) (s : State) : house (runSpgmAct i x s) = house s := by
  unfold runSpgmAct
  split <;> simp

@[simp] theorem spgmCatch_house (all : Bool) (i fuel : Nat) (s : State) : house (spgmCatch all i fuel s) = house s := by
  induction fuel generalizing s with
  | zero => rfl
  | succ fuel ih =>
    unfold spgmCatch
    split
    · rfl
    · split
      · rw [ih, runSpgmAct_house, setSpgm_house]
      · rfl

@[simp] theorem spgmCatchAll_house (all : Bool) (s : State) : house (spgmCatchAll all s) = house s := by simp [spgmCatchAll]

@[simp] theorem catchAll_house (s : State) : house (catchAll s) = house s := by simp [catchAll]

@[simp] theorem switchOutput_house (x : Spectrum) (s : State) : house (switchOutput x s) = house s := by
  unfold switchOutput
  dsimp only
  repeat' split
  all_goals simp

@[simp] theorem productTake_house (x : Spectrum) (s0 : State) : house (productTake x s0) = house s0 := by simp [productTake]

@[simp] theorem trigTake_house (x : Spectrum) (s : State) : house (trigTake x s) = house s := by
  unfold trigTake
  dsimp only
  repeat' split
  all_goals simp

@[simp] theorem thresherTake_house (x : Spectrum) (dropped : Bool) (s : State) : house (thresherTake x dropped s) = house s := by
  unfold thresherTake
  dsimp only
  repeat' split
  all_goals simp

@[simp] theorem completeSpectrum_house (e : Nat) (linesLost : List Nat) (thDrop : Bool) (s0 : State) :
    house (completeSpectrum e linesLost thDrop s0) = house s0 := by simp [completeSpectrum]

@[simp] theorem drainFrames_house (e i fuel : Nat) (s : State) : house (drainFrames e i fuel s) = house s := by
  induction fuel generalizing s with
  | zero => rfl
  | succ fuel ih =>
    unfold drainFrames
    repeat' split
    all_goals simp [ih]

@[simp] theorem drainEngine_house (e i : Nat) (s : State) : house (drainEngine e i s) = house s := by simp [drainEngine]

@[simp] theorem endGrid_house (g e reason : Nat) (s : State) : house (endGrid g e reason s) = house s := by simp [endGrid]

@[simp] theorem startGrid_house (g e : Nat) (s : State) : house (startGrid g e s) = house s := by simp [startGrid]

@[simp] theorem checkColumns_house (g e : Nat) (s : State) : house (checkColumns g e s) = house s := by simp [checkColumns]

@[simp] theorem regrid_house (g e : Nat) (f : Engine → Engine) (s : State) : house (regrid g e f s) = house s := by simp [regrid]

@[simp] theorem endFeeds_house (t e reason : Nat) (s : State) : house (endFeeds t e reason s) = house s := by simp [endFeeds]

@[simp] theorem startFeeds_house (t e : Nat) (s : State) : house (startFeeds t e s) = house s := by simp [startFeeds]

@[simp] theorem changeTuner_house (t e : Nat) (f : Tuner → Tuner) (s : State) : house (changeTuner t e f s) = house s := by simp [changeTuner]

@[simp] theorem completeSegment_house (n : Nat) (g : Segment) (s : State) : house (completeSegment n g s) = house s :=
  by simp [completeSegment, ↓house_mk]

@[simp] theorem completeOldest_house (n : Nat) (s : State) : house (completeOldest n s) = house s := by
  unfold completeOldest
  split <;> simp

@[simp] theorem completeAll_house (n : Nat) (s : State) : house (completeAll n s) = house s := by simp [completeAll]

@[simp] theorem setMq_house (f : MqUnit → MqUnit) (s : State) : house (setMq f s) = house s := rfl

@[simp] theorem mqTrim_house (s : State) : house (mqTrim s) = house s := rfl

@[simp] theorem mqLevelCheck_house (s : State) : house (mqLevelCheck s) = house s := by simp [mqLevelCheck]

@[simp] theorem mqFlush_house (s : State) : house (mqFlush s).1 = house s := by simp [mqFlush]

@[simp] theorem mqBind_house (h : Word) (s : State) : house (mqBind h s) = house s := by simp [mqBind]

@[simp] theorem endRewind_house (n : Nat) (st : Status) (s : State) : house (endRewind n st s) = house s := by
  unfold endRewind
  split <;> simp

@[simp] theorem dropMarkWaits_house (n : Nat) (s : State) : house (dropMarkWaits n s) = house s := by simp [dropMarkWaits]

@[simp] theorem stopCtx_house (e n : Nat) (s : State) : house (stopCtx e n s) = house s := by simp [stopCtx]

@[simp] theorem setMaint_house (f : MaintUnit → MaintUnit) (s : State) : house (setMaint f s) = house s := rfl

@[simp] theorem setTdc_house (f : TdcUnit → TdcUnit) (s : State) : house (setTdc f s) = house s := rfl

@[simp] theorem setTdcSlot_house (n : Nat) (f : TdcSlot → TdcSlot) (s : State) : house (setTdcSlot n f s) = house s := rfl

@[simp] theorem countStart_house (codes : List Nat) (from_ : Option Nat) (k : Nat) (s : State) : house (countStart codes from_ k s) = house s :=
  house_foldl fun _ _ => rfl

@[simp] theorem countWait_house (codes : List Nat) (s : State) : house (countWait codes s) = house s := house_foldl fun _ _ => rfl

@[simp] theorem pumpDwell_house (s : State) : house (pumpDwell s) = house s := by
  unfold pumpDwell
  split <;> simp

@[simp] theorem dwellDue_house (s : State) : house (dwellDue s) = house s := by simp [dwellDue]

@[simp] theorem clearWay_house (conflicts : Activity → Bool) (s : State) : house (clearWay conflicts s) = house s := rfl

@[simp] theorem dropDwell_house (s : State) : house (dropDwell s) = house s := rfl

@[simp] theorem endActivity_house (sel : Activity → Bool) (s : State) : house (endActivity sel s) = house s := by simp [endActivity]

@[simp] theorem tdcOffer_house (n : Nat) (words : List Word) (s : State) : house (tdcOffer n words s) = house s := by simp [tdcOffer]

@[simp] theorem emitStats_house (n : Nat) (s : State) : house (emitStats n s) = house s := by simp [emitStats]

@[simp] theorem disarmSlot_house (n : Nat) (s : State) : house (disarmSlot n s) = house s := by simp [disarmSlot]

@[simp] theorem tdcResult_house (n k : Nat) (r : TdcResult) (s : State) : house (tdcResult n k r s) = house s := by
  unfold tdcResult
  dsimp only
  repeat' split
  all_goals simp

@[simp] theorem closeEmpty_house (n k : Nat) (clock : Bool) (s : State) : house (closeEmpty n k clock s) = house s := by
  unfold closeEmpty
  dsimp only
  repeat' split
  all_goals simp

@[simp] theorem closeWindow_house (n : Nat) (clock : Bool) (s : State) : house (closeWindow n clock s) = house s := by
  unfold closeWindow
  dsimp only
  repeat' split
  all_goals simp

@[simp] theorem unlockTdc_house (s : State) : house (unlockTdc s) = house s := by
  refine (setTdc_house ..).trans (house_foldl fun a n => ?_)
  dsimp only
  repeat' split
  all_goals simp

@[simp] theorem relockTdc_house (v : Nat) (s : State) : house (relockTdc v s) = house s := rfl

@[simp] theorem setTime_house (f : TimeUnit → TimeUnit) (s : State) : house (setTime f s) = house s := rfl

@[simp] theorem breakMeasure_house (st : Status) (s : State) : house (breakMeasure st s) = house s := by
  unfold breakMeasure
  split <;> simp

@[simp] theorem setPool_house (f : Pool → Pool) (s : State) : house (setPool f s) = house s := rfl

@[simp] theorem addRole_house (slot au : Nat) (s : State) : house (addRole slot au s) = house s := by simp [addRole]

@[simp] theorem dropPart_house (slot : Nat) (s : State) : house (dropPart slot s) = house s := rfl

@[simp] theorem settleWide_house (stop next : Nat) (s : State) : house (settleWide stop next s) = house s := rfl

@[simp] theorem startTuner_house (t e : Nat) (s : State) : house (startTuner t e s) = house s := by simp [startTuner]

@[simp] theorem finishBefore_house (e : Nat) (s : State) : house (finishBefore e s) = house s := by simp [finishBefore]

@[simp] theorem stopProducts_house (reason e ring limit : Nat) (gap : Bool) (s0 : State) : house (stopProducts reason e ring limit gap s0) = house s0 :=
  by simp [stopProducts]

@[simp] theorem startProducts_house (e : Nat) (keep : Bool) (s : State) : house (startProducts e keep s) = house s := by simp [startProducts]

@[simp] theorem setRunMode_house (m : Mode) (s : State) : house (setRunMode m s) = house s := by simp [setRunMode, ↓house_mk]

@[simp] theorem leaveCalibrate_house (e : Nat) (s : State) : house (leaveCalibrate e s) = house s := by simp [leaveCalibrate, ↓house_mk]

@[simp] theorem changeMode_house (m : Mode) (e : Nat) (s : State) : house (changeMode m e s) = house s := by simp [changeMode]

@[simp] theorem loseContext_house (n e : Nat) (s : State) : house (loseContext n e s) = house s := by simp [loseContext]

@[simp] theorem unbindAll_house (h : Word) (e : Nat) (s0 : State) : house (unbindAll h e s0) = house s0 := by simp [unbindAll, ↓house_mk]

@[simp] theorem layoutSlot_house (m : Mode) (e slot : Nat) (r : State × Nat) : house (layoutSlot m e slot r).1 = house r.1 := by
  unfold layoutSlot
  dsimp only
  repeat' split
  all_goals simp

@[simp] theorem applyLayout_house (m : Mode) (e : Nat) (s : State) : house (applyLayout m e s).1 = house s := by simp [applyLayout]

@[simp] theorem stepInt_house (u : Nat) (g : Option IntGap) (s : State) : house (stepInt u g s) = house s := by simp [stepInt]

@[simp] theorem gapInt_house (u : Nat) (step : Bool) (s : State) : house (gapInt u step s) = house s := by simp [gapInt]

@[simp] theorem markGap_house (u stop : Nat) (s : State) : house (markGap u stop s) = house s := rfl

@[simp] theorem skipForced_house (u : Nat) (s : State) : house (skipForced u s) = house s := by
  refine (house_foldl fun a f => ?_).trans (house_mk s ..)
  split
  · split
    · exact complete_house ..
    · rfl
  · rfl

@[simp] theorem gapStop_house (u reason ring stop : Nat) (step : Bool) (s0 : State) : house (gapStop u reason ring stop step s0) = house s0 :=
  by simp [gapStop, ↓house_mk]

@[simp] theorem gapStart_house (v : Nat) (s : State) : house (gapStart v s) = house s := by simp [gapStart, ↓house_mk]

@[simp] theorem skipHeld_house (u v : Nat) (c : Cmd) (s : State) : house (skipHeld u v c s) = house s := by
  unfold skipHeld
  split <;> simp [↓house_mk]

@[simp] theorem skipGap_house (u v : Nat) (s : State) : house (skipGap u v s) = house s := by simp [skipGap]

@[simp] theorem firstLock_house (edge band : Nat) (s : State) : house (firstLock edge band s) = house s := by simp [firstLock, ↓house_mk]

@[simp] theorem setPair_house (f : PairUnit → PairUnit) (s : State) : house (setPair f s) = house s := rfl

@[simp] theorem leaveMirror_house (e : Nat) (s : State) : house (leaveMirror e s) = house s := by simp [leaveMirror, ↓house_mk]

@[simp] theorem linkDown_house (s : State) : house (linkDown s) = house s := by
  unfold linkDown
  split <;> simp

@[simp] theorem clearHostRings_house (s : State) : house (clearHostRings s) = house s := by simp [clearHostRings]

end Sys2Proof.Machine
end

section
/-! O45: power, the resets and the boots (R615-R623, R685, R687, R692), and the thermal trip (R629). -/

namespace Sys2Proof.Machine

theorem house_fw {s t : State} (h : house t = house s) : t.hub.fw = s.hub.fw := congrArg (fun x => x.1.fw) h

theorem house_fallback {s t : State} (h : house t = house s) : t.bb.fallback = s.bb.fallback := congrArg (fun x => x.2.1) h

theorem house_faultCause {s t : State} (h : house t = house s) : t.faultCause = s.faultCause := congrArg (fun x => x.2.2) h

theorem house_resetLow {s t : State} (h : house t = house s) : t.hub.resetLow = s.hub.resetLow := congrArg (fun x => x.1.resetLow) h

theorem after_house (old : State) (f : State → State) (s : State) : house (pairNotice old (repliesFirst f s)) = house (f (opened s)) := by
  rw [after_frame]
  rfl

/-- An event, told of what its effect leaves of the core, the control complex, the black box and the causes of faults. -/
theorem eventTo_house {f : Nat → State → State} {ev : Nat → Instr} {pre : Nat → State → Prop} {post : Nat → State → State → Prop}
    (hrow : ∀ k s, exec (ev k) s = runEvent (f k) k s) (hcalm : ∀ k s, pre k s → Calm s → Calm (f k (opened s)))
    (h : ∀ k s t, pre k s → core t = core (f k (opened s)) → house t = house (f k (opened s)) → post k s t) : EventTo ev pre post :=
  eventTo_of hrow hcalm fun k s t _ hp _ ht =>
    h k s t hp (ht ▸ (pairNotice_core ..).trans (repliesFirst_opened ..)) (ht ▸ after_house ..)

/-! ### Boots (R619, R622, R623) -/

/-- A boot by the choice of its image. -/
def bootInto (entry : Bool) (s : State) : Option (Nat × Bool) → State
  | none => enterRecovery (bootMark entry (bootStart s))
  | some (slot, false) => bootMark entry (runFirmware slot (bootStart s))
  | some (slot, true) => fallbackEntry (otherSlot slot) 0 slot (bootMark entry (runFirmware slot (bootStart s)))

/-- The definition is opened by `delta`: the kernel would evaluate the images of its unfolding lemma. -/
theorem bootNow_eq (entry : Bool) (s : State) : bootNow entry s = bootInto entry s (bootChoice s.hub.fw) := by
  generalize hb : bootNow = boot
  delta bootNow at hb
  subst hb
  beta_reduce
  generalize bootChoice s.hub.fw = choice
  rcases choice with - | ⟨slot, - | -⟩
  · exact rfl
  · exact rfl
  · exact rfl

theorem bootNow_recovers {entry : Bool} {s : State} (h : bootChoice s.hub.fw = none) : bootNow entry s = enterRecovery (bootMark entry (bootStart s)) := by
  rw [bootNow_eq, h, bootInto]

theorem bootNow_prefers {entry : Bool} {s : State} {slot : Nat} (h : bootChoice s.hub.fw = some (slot, false)) :
    bootNow entry s = bootMark entry (runFirmware slot (bootStart s)) := by
  rw [bootNow_eq, h, bootInto]

theorem bootNow_falls {entry : Bool} {s : State} {slot : Nat} (h : bootChoice s.hub.fw = some (slot, true)) :
    bootNow entry s = fallbackEntry (otherSlot slot) 0 slot (bootMark entry (runFirmware slot (bootStart s))) := by
  rw [bootNow_eq, h, bootInto]

@[simp] theorem bootMark_house (entry : Bool) (s : State) : house (bootMark entry s) = house s := by
  unfold bootMark resetEntry
  split
  · exact bbWrite_house ..
  · rfl

theorem bootMark_core (entry : Bool) (s : State) : core (bootMark entry s) = core s := by
  unfold bootMark
  split
  · exact resetEntry_core s
  · rfl

theorem bootStart_core (s : State) : core (bootStart s) = core s := (setFw_core ..).trans (core_mk ..)

/-- The control complex and the marks of a device whose firmware runs from a slot. -/
structure RunsFrom (slot : Nat) (fallback : Bool) (s t : State) : Prop where
  running : t.hub.fw.running = slot
  recovery : t.hub.fw.recovery = false
  resetLow : t.hub.resetLow = s.hub.resetLow
  fallback : t.bb.fallback = fallback

theorem RunsFrom.house {slot : Nat} {fb : Bool} {s t u : State} (h : RunsFrom slot fb s t) (hu : house u = house t) : RunsFrom slot fb s u where
  running := by rw [house_fw hu, h.running]
  recovery := by rw [house_fw hu, h.recovery]
  resetLow := (house_resetLow hu).trans h.resetLow
  fallback := by rw [house_fallback hu, h.fallback]

theorem runFirmware_runs (slot : Nat) (s : State) : RunsFrom slot s.bb.fallback s (runFirmware slot s) := by
  unfold runFirmware
  extract_lets s1
  have h1 : RunsFrom slot s.bb.fallback s s1 := ⟨rfl, rfl, rfl, rfl⟩
  exact h1.house ((endFault_house ..).trans ((house_mk ..).trans (applyLayout_house ..)))

theorem bootStart_hub (s : State) : (bootStart s).hub = { s.hub with fw := bootVerify s.hub.fw } := by rw [bootStart, setFw_eq, setHub_hub]

theorem bootStart_bb (s : State) : (bootStart s).bb = { s.bb with fallback := false } := by rw [bootStart, setFw_eq, setHub_bb]

theorem RunsFrom.of_start {slot : Nat} {s t : State} (h : RunsFrom slot (bootStart s).bb.fallback (bootStart s) t) : RunsFrom slot false s t where
  running := h.running
  recovery := h.recovery
  resetLow := by
    rw [h.resetLow, bootStart_hub]
  fallback := by
    rw [h.fallback, bootStart_bb]

theorem fallbackEntry_runs {slot failed why booted : Nat} {fb : Bool} {s t : State} (h : RunsFrom slot fb s t) :
    RunsFrom slot true s (fallbackEntry failed why booted t) := by
  have h1 : RunsFrom slot true s { t with bb := { t.bb with fallback := true } } := ⟨h.running, h.recovery, h.resetLow, rfl⟩
  exact h1.house (bbWrite_house ..)

/-- A boot that finds an image runs it, and marks whether it is the fallback. -/
theorem bootNow_runs {entry : Bool} {s : State} {slot : Nat} {fb : Bool} (h : bootChoice s.hub.fw = some (slot, fb)) :
    RunsFrom slot fb s (bootNow entry s) := by
  have hrun : RunsFrom slot false s (bootMark entry (runFirmware slot (bootStart s))) :=
    RunsFrom.house (t := runFirmware slot (bootStart s)) (runFirmware_runs slot (bootStart s)).of_start (bootMark_house ..)
  cases fb with
  | false => rwa [bootNow_prefers h]
  | true =>
    rw [bootNow_falls h]
    exact fallbackEntry_runs hrun

/-- The firmware runs: the commands may have ended, and READY is 1. -/
theorem runFirmware_ends (slot : Nat) (s : State) : ∃ u, Ends s u ∧ core (runFirmware slot s) = core { u with ready := true } := by
  unfold runFirmware
  extract_lets s1
  have h1 : Ends s s1 := ends_core (core_mk ..)
  exact ⟨_, h1.trans (ends_applyLayout .quiet s.index s1), endFault_core ..⟩

/-- What a boot leaves of a device without partner where nothing waits. -/
structure Boots (s t : State) : Prop where
  calm : Calm s → Calm t
  time : t.time = s.time
  role : t.pair.role = s.pair.role

theorem Boots.trans {s t u : State} (a : Boots s t) (b : Boots t u) : Boots s u :=
  ⟨fun h => b.calm (a.calm h), b.time.trans a.time, b.role.trans a.role⟩

theorem boots_core {s t : State} (h : core t = core s) : Boots s t :=
  ⟨fun hs => hs.core h, core_time h, (congrArg PairUnit.role (core_pair h) :)⟩

theorem runFirmware_boots (slot : Nat) (s : State) : Boots s (runFirmware slot s) := by
  obtain ⟨u, hu, hcore⟩ := runFirmware_ends slot s
  have h1 : Boots s { u with ready := true } := ⟨fun hs => (hs.ends hu).same rfl rfl, hu.time, hu.role⟩
  exact h1.trans (boots_core hcore)

theorem runFirmware_ready (slot : Nat) (s : State) : (runFirmware slot s).ready = true := rfl

theorem bootMark_boots (entry : Bool) (s : State) : Boots s (bootMark entry s) := boots_core (bootMark_core ..)

theorem bootStart_boots (s : State) : Boots s (bootStart s) := boots_core (bootStart_core s)

theorem enterRecovery_boots (s : State) : Boots s (enterRecovery s) := by
  have h1 : Boots s (setFw (fun f => { f with recovery := true }) { s with ready := false }) := ⟨fun hs => hs.same rfl rfl, rfl, rfl⟩
  exact h1.trans (boots_core (setFault_core ..))

/-- No image runs: READY is 0, and the cause of it latches. -/
theorem enterRecovery_left (s : State) : (enterRecovery s).ready = false ∧ (enterRecovery s).hub = { s.hub with fw := { s.hub.fw with recovery := true } }
    ∧ bit (enterRecovery s).faultCause 0 = true :=
  ⟨by rw [enterRecovery, setFault_frame]; rfl, by rw [enterRecovery, setFault_frame]; rfl, setFault_bit (by decide) _⟩

theorem bootNow_boots (entry : Bool) (s : State) : Boots s (bootNow entry s) := by
  have run (slot : Nat) : Boots s (bootMark entry (runFirmware slot (bootStart s))) :=
    ((bootStart_boots s).trans (runFirmware_boots ..)).trans (bootMark_boots ..)
  rcases bootNow_cases entry s with h | ⟨slot, h | h⟩ <;> rw [h]
  · exact ((bootStart_boots s).trans (bootMark_boots ..)).trans (enterRecovery_boots _)
  · exact run slot
  · exact (run slot).trans (boots_core (fallbackEntry_core ..))

theorem bootNow_ready {entry : Bool} {s : State} {slot : Nat} {fb : Bool} (h : bootChoice s.hub.fw = some (slot, fb)) :
    (bootNow entry s).ready = true := by
  have run : (bootMark entry (runFirmware slot (bootStart s))).ready = true := (core_ready (bootMark_core ..)).trans (runFirmware_ready ..)
  cases fb with
  | false => rwa [bootNow_prefers h]
  | true => rwa [bootNow_falls h, core_ready (fallbackEntry_core ..)]

theorem resumeIndex_boots (s : State) : Boots s (resumeIndex s) := by
  unfold resumeIndex
  split
  · exact ⟨fun h => h.same rfl rfl, rfl, rfl⟩
  · exact boots_core rfl

theorem resumeIndex_hub (s : State) : (resumeIndex s).hub = s.hub := by
  unfold resumeIndex
  split <;> rfl

theorem reboot_boots (s : State) : Boots s (reboot s) := (resumeIndex_boots s).trans (bootNow_boots ..)

/-! ### POWER_ON and PWR_GOOD_LOW (R615, R619, R620, R623) -/

/-- The power-down leaves the data of the flash and what waits, and nothing else of the device. -/
theorem pwrGoodLow_powers (k : Nat) (s : State) : ∃ t, exec (.pwrGoodLow k) s = .next t ∧ t.ready = false ∧ t.mode = .quiet ∧ t.cmds = []
    ∧ t.index = 0 ∧ t.time = TimeUnit.power ∧ t.pool = Pool.power ∧ t.pair = PairUnit.power ∧ t.faultCause = 0 ∧ t.bb = BlackBox.power ∧ t.dbg = DebugUnit.power
    ∧ t.pending = s.pending ∧ t.hub.fw.slots.map (fun f => f.data) = s.hub.fw.slots.map (fun f => f.data)
    ∧ t.hub.fw.preferred = s.hub.fw.preferred := by
  have hcalm : Calm (evPwrGoodLow (opened (passTo k s))) := (powerDown_starting _).calm
  obtain ⟨t, hrun, -, ht⟩ := event_calm hcalm
  refine ⟨t, hrun, ?_⟩
  rw [ht, after_frame]
  refine ⟨rfl, rfl, rfl, rfl, rfl, rfl, rfl, rfl, rfl, rfl, ?_, ?_, ?_⟩
  · exact passTo_pending k s
  · show ((passTo k s).hub.fw.slots.map fun f => { f with valid := false }).map (fun f => f.data) = _
    rw [passTo_hub, List.map_map]
    rfl
  · show (passTo k s).hub.fw.preferred = _
    rw [passTo_hub]

/-- The device at the start of a boot from the power-down, its flash as a board fits it. -/
def fitted (fit : Option FlashImage) (s : State) : State :=
  match fit with
  | some x => fitFlash x (powerDown s)
  | none => powerDown s

theorem evPowerOn_eq (fit : Option FlashImage) (refOk : Bool) (band : Nat) (s : State) :
    evPowerOn fit refOk band s =
      if (bootNow false (fitted fit s)).hub.fw.recovery then setTime (fun t => { t with refPresent := refOk }) (bootNow false (fitted fit s))
      else if refOk then firstLock (takeFree (bootNow false (fitted fit s))).1.toNat band (takeFree (bootNow false (fitted fit s))).2
      else bootNow false (fitted fit s) := by
  cases fit <;> rfl

theorem fitted_starting (fit : Option FlashImage) (s : State) : Starting (fitted fit s) := by
  cases fit with
  | none => exact powerDown_starting s
  | some x => exact (powerDown_starting s).same (fitFlash_core ..) (fitFlash_pool ..)

theorem fitted_time (fit : Option FlashImage) (s : State) : (fitted fit s).time = TimeUnit.power := by
  cases fit <;> rfl

theorem powerOn_pending (fit : Option FlashImage) (refOk : Bool) (band : Nat) (s : State) : (finish s (evPowerOn fit refOk band s)).pending = s.pending :=
  (exec_answers (i := .powerOn fit refOk band) (s := s) rfl).2

theorem pairNotice_house (old s : State) : house (pairNotice old s) = house s := by
  unfold pairNotice
  split
  · exact notify_house ..
  · rfl

theorem finish_house {old s : State} (h : Calm s) : core (finish old s) = core s ∧ house (finish old s) = house s := by
  rw [finish_calm h]
  exact ⟨pairNotice_core .., pairNotice_house ..⟩

theorem firstLock_time (edge band : Nat) (s : State) : (firstLock edge band s).time = firstLockTime edge band s.time := by
  obtain ⟨u, hu, hlock⟩ := firstLock_ends edge band s
  rw [hlock, core_time (endFault_core ..), hu.time]
  rfl

theorem firstLock_index (edge band : Nat) (s : State) : (firstLock edge band s).index = s.time.indexStart := by
  obtain ⟨u, hu, hlock⟩ := firstLock_ends edge band s
  rw [hlock, core_index (endFault_core ..), hu.index]
  rfl

/-- The first lock keeps the firmware, and starts the timebase. -/
theorem firstLock_runs {slot edge band : Nat} {fb : Bool} {s u : State} (h : RunsFrom slot fb s u) (htime : u.time = TimeUnit.power) :
    RunsFrom slot fb s (firstLock edge band u) ∧ (firstLock edge band u).time = firstLockTime edge band TimeUnit.power
      ∧ (firstLock edge band u).index = TimeUnit.power.indexStart :=
  ⟨h.house (firstLock_house ..), by rw [firstLock_time, htime], by rw [firstLock_index, htime]⟩

theorem takeFree_runs {slot : Nat} {fb : Bool} {s u : State} (h : RunsFrom slot fb s u) : RunsFrom slot fb s (takeFree u).2 := h.house rfl

theorem takeFree_time (s : State) : (takeFree s).2.time = s.time := rfl

/-- What POWER_ON leaves where an image runs, with a reference and without one. -/
def StartsFrom (slot : Nat) (fb refOk : Bool) (s t : State) : Prop :=
  RunsFrom slot fb s t ∧ t.time.everLocked = refOk
    ∧ (refOk = true → t.time.tb = .locked ∧ t.index = TimeUnit.power.indexStart ∧ t.time.syncIndex = TimeUnit.power.indexStart)

theorem startsFrom_lock {slot edge band : Nat} {fb : Bool} {s u : State} (h : RunsFrom slot fb s u) (htime : u.time = TimeUnit.power) :
    StartsFrom slot fb true s (firstLock edge band u) := by
  obtain ⟨hruns, hlock, hindex⟩ := firstLock_runs (edge := edge) (band := band) h htime
  refine ⟨hruns, ?_, fun _ => ⟨?_, hindex, ?_⟩⟩ <;> rw [hlock, firstLockTime]

theorem startsFrom_power {slot : Nat} {fb : Bool} {s u : State} (h : RunsFrom slot fb s u) (htime : u.time = TimeUnit.power) :
    StartsFrom slot fb false s u := ⟨h, by rw [htime, TimeUnit.power], fun h => absurd h (by decide)⟩

theorem powerOn_starts {fit : Option FlashImage} {s : State} {slot : Nat} {fb : Bool} (h : bootChoice (fitted fit s).hub.fw = some (slot, fb))
    (refOk : Bool) (band : Nat) : StartsFrom slot fb refOk (fitted fit s) (evPowerOn fit refOk band s) := by
  have hruns := bootNow_runs (entry := false) h
  have htime : (bootNow false (fitted fit s)).time = TimeUnit.power := (bootNow_boots ..).time.trans (fitted_time fit s)
  rw [evPowerOn_eq, hruns.recovery, if_neg (by decide)]
  generalize bootNow false (fitted fit s) = u at hruns htime ⊢
  cases refOk with
  | false =>
    rw [if_neg (by decide)]
    exact startsFrom_power hruns htime
  | true =>
    rw [if_pos rfl]
    exact startsFrom_lock (takeFree_runs hruns) ((takeFree_time u).trans htime)

theorem powerOn_boots (fit : Option FlashImage) (refOk : Bool) (band : Nat) (s : State) (slot : Nat) (fb : Bool)
    (h : bootChoice (fitted fit s).hub.fw = some (slot, fb)) :
    ∃ t, exec (.powerOn fit refOk band) s = .next t ∧ t.ready = true ∧ t.mode = .quiet ∧ t.cmds = [] ∧ t.hub.fw.running = slot
      ∧ t.hub.fw.recovery = false ∧ t.bb.fallback = fb ∧ t.pending = s.pending ∧ t.time.everLocked = refOk
      ∧ (refOk = true → t.time.tb = .locked ∧ t.index = TimeUnit.power.indexStart ∧ t.time.syncIndex = TimeUnit.power.indexStart) := by
  obtain ⟨hruns, hever, hlocked⟩ := powerOn_starts h refOk band
  obtain hb | hb := evPowerOn_ends fit refOk band s
  · exact absurd (hruns.recovery.symm.trans hb.recovery) (by decide)
  · obtain ⟨hcore, hhouse⟩ := finish_house (old := s) hb.calm
    have hleft := hruns.house hhouse
    exact ⟨_, rfl, (core_ready hcore).trans hb.ready, (core_mode hcore).trans hb.mode, (core_cmds hcore).trans hb.cmds, hleft.running, hleft.recovery,
      hleft.fallback, powerOn_pending .., by rw [core_time hcore]; exact hever, fun hr => by
        rw [core_time hcore, core_index hcore]
        exact hlocked hr⟩

/-- Without an image that runs, a power-up ends in the recovery loader. -/
theorem powerOn_recovers (fit : Option FlashImage) (refOk : Bool) (band : Nat) (s : State) (h : bootChoice (fitted fit s).hub.fw = none) :
    ∃ t, exec (.powerOn fit refOk band) s = .next t ∧ t.ready = false ∧ t.hub.fw.recovery = true ∧ bit t.faultCause 0 = true ∧ t.cmds = []
      ∧ t.pending = s.pending := by
  have hboot : bootNow false (fitted fit s) = enterRecovery (bootStart (fitted fit s)) := bootNow_recovers h
  obtain ⟨hready, hhub, hbit⟩ := enterRecovery_left (bootStart (fitted fit s))
  have hrec : Recovering (enterRecovery (bootStart (fitted fit s))) := enterRecovery_recovering (bootStart_starting (fitted_starting fit s))
  have hev : evPowerOn fit refOk band s = setTime (fun t => { t with refPresent := refOk }) (enterRecovery (bootStart (fitted fit s))) := by
    rw [evPowerOn_eq, hboot, if_pos hrec.recovery]
  have hpending := powerOn_pending fit refOk band s
  refine ⟨finish s (evPowerOn fit refOk band s), rfl, ?_⟩
  rw [hev] at hpending ⊢
  generalize enterRecovery (bootStart (fitted fit s)) = u at hready hbit hrec hpending ⊢
  obtain ⟨hcore, hhouse⟩ := finish_house (old := s) (setTime_recovering (f := fun t => { t with refPresent := refOk }) hrec).calm
  exact ⟨(core_ready hcore).trans hready, by rw [house_fw hhouse]; exact hrec.recovery, (house_faultCause hhouse).symm ▸ hbit,
    (core_cmds hcore).trans hrec.cmds, hpending⟩

/-! ### RESET_N (R615-R617, R619, R629, R687) -/

theorem evResetNLow_resets {s : State} (hlow : s.hub.resetLow = false) (htrip : s.hub.tripped = false) :
    evResetNLow s = hubReset 1 (setHub (fun h => { h with resetLow := true }) s) := by
  simp [evResetNLow, hlow, htrip]

theorem evResetNLow_holds {s : State} (hlow : s.hub.resetLow = false) (htrip : s.hub.tripped = true) (hcooled : s.hub.cooled = false) :
    evResetNLow s = setHub (fun h => { h with warmHeld := true }) (setHub (fun h => { h with resetLow := true }) s) := by
  simp [evResetNLow, hlow, htrip, hcooled]

theorem evResetNLow_idle {s : State} (h : s.hub.resetLow = true) : evResetNLow s = s := by
  simp [evResetNLow, h]

theorem hubReset_calm (kind : Nat) (s : State) : Calm (hubReset kind s) := ⟨rfl, rfl, rfl⟩

/-- What a WARM reset leaves. -/
theorem hubReset_left (s : State) : (hubReset 1 s).hub.resetLow = s.hub.resetLow ∧ (hubReset 1 s).ready = false ∧ (hubReset 1 s).mode = .quiet
    ∧ (hubReset 1 s).cmds = [] ∧ (hubReset 1 s).pair.role = .solo ∧ (hubReset 1 s).dbg.level = 0 ∧ (hubReset 1 s).pool = Pool.power
    ∧ (hubReset 1 s).bb.lastReset = 1 ∧ (hubReset 1 s).bb.warmResets = satAdd 32 s.bb.warmResets 1 ∧ (hubReset 1 s).bb.live = s.bb.live
    ∧ (hubReset 1 s).time.tb = s.time.tb ∧ (hubReset 1 s).index = s.index ∧ (hubReset 1 s).hub.fw.slots = s.hub.fw.slots
    ∧ (hubReset 1 s).faultCause = s.faultCause ∧ (hubReset 1 s).pending = s.pending :=
  ⟨rfl, rfl, rfl, rfl, rfl, rfl, rfl, rfl, rfl, rfl, rfl, rfl, rfl, rfl, rfl⟩

theorem resetNLow_resets : EventTo (fun k => .resetNLow k) (fun _ s => s.hub.resetLow = false ∧ s.hub.tripped = false)
    (fun _ s t => t.hub.resetLow = true ∧ t.ready = false ∧ t.mode = .quiet ∧ t.cmds = [] ∧ t.pair.role = .solo ∧ t.dbg.level = 0 ∧ t.pool = Pool.power
      ∧ t.bb.lastReset = 1 ∧ t.bb.warmResets = satAdd 32 s.bb.warmResets 1 ∧ t.bb.live = s.bb.live ∧ t.time.tb = s.time.tb ∧ t.index = s.index
      ∧ t.hub.fw.slots = s.hub.fw.slots ∧ t.faultCause = s.faultCause ∧ t.pending = s.pending) := by
  have hf (s : State) (h : s.hub.resetLow = false ∧ s.hub.tripped = false) :
      evResetNLow (opened s) = hubReset 1 (setHub (fun h => { h with resetLow := true }) (opened s)) := evResetNLow_resets (s := opened s) h.1 h.2
  refine eventTo_of (f := fun _ => evResetNLow) (fun _ _ => rfl) (fun k s h _ => hf s h ▸ hubReset_calm ..) fun k s t old h _ ht => ?_
  have hleft := hubReset_left (setHub (fun h => { h with resetLow := true }) (opened s))
  rw [ht, after_frame, hf s h]
  generalize hubReset 1 (setHub (fun h => { h with resetLow := true }) (opened s)) = u at hleft ⊢
  exact hleft

/-- While the die is hot a reset waits. -/
theorem resetNLow_waits : EventTo (fun k => .resetNLow k) (fun _ s => s.hub.resetLow = false ∧ s.hub.tripped = true ∧ s.hub.cooled = false)
    (fun _ s t => t.hub.warmHeld = true ∧ t.hub.resetLow = true ∧ t.cmds = s.cmds ∧ t.mode = s.mode ∧ t.bb = s.bb) := by
  have hf (s : State) (h : s.hub.resetLow = false ∧ s.hub.tripped = true ∧ s.hub.cooled = false) :
      evResetNLow (opened s) = setHub (fun h => { h with warmHeld := true }) (setHub (fun h => { h with resetLow := true }) (opened s)) :=
    evResetNLow_holds (s := opened s) h.1 h.2.1 h.2.2
  refine eventTo_of (f := fun _ => evResetNLow) (fun _ _ => rfl) (fun k s h hs => hf s h ▸ (opened_calm hs).same rfl rfl) fun k s t old h _ ht => ?_
  rw [ht, after_frame, hf s h]
  exact ⟨rfl, rfl, rfl, rfl, rfl⟩

/-- RESET_N is high again, before the boot. -/
def released (s : State) : State := setHub (fun h => { h with resetLow := false }) s

theorem evResetNRelease_boots {s : State} (hlow : s.hub.resetLow = true) (htrip : s.hub.tripped = false) : evResetNRelease s = reboot (released s) := by
  simp [evResetNRelease, hlow, htrip, released]

theorem evResetNRelease_idle {s : State} (h : s.hub.resetLow = false) : evResetNRelease s = s := by
  simp [evResetNRelease, h]

theorem released_boots (s : State) : Boots s (reboot (released s)) := (Boots.trans (boots_core (setHub_core _ s)) (reboot_boots _))

theorem reboot_runs {s : State} {slot : Nat} {fb : Bool} (h : bootChoice s.hub.fw = some (slot, fb)) : RunsFrom slot fb (resumeIndex s) (reboot s) :=
  bootNow_runs (by rw [resumeIndex_hub, h])

theorem reboot_ready {s : State} {slot : Nat} {fb : Bool} (h : bootChoice s.hub.fw = some (slot, fb)) : (reboot s).ready = true :=
  bootNow_ready (by rw [resumeIndex_hub, h])

theorem reboot_recovers {s : State} (h : bootChoice s.hub.fw = none) : reboot s = enterRecovery (bootMark true (bootStart (resumeIndex s))) :=
  bootNow_recovers (by rw [resumeIndex_hub, h])

theorem resetNRelease_runs (slot : Nat) : EventTo (fun k => .resetNRelease k)
    (fun _ s => s.hub.resetLow = true ∧ s.hub.tripped = false ∧ bootChoice s.hub.fw = some (slot, false))
    (fun _ s t => t.ready = true ∧ t.hub.resetLow = false ∧ t.hub.fw.running = slot ∧ t.hub.fw.recovery = false ∧ t.bb.fallback = false
      ∧ t.time = s.time ∧ t.pair.role = s.pair.role) := by
  refine eventTo_house (f := fun _ => evResetNRelease) (fun _ _ => rfl)
    (fun k s ⟨hlow, htrip, _⟩ hs => ?_) fun k s t ⟨hlow, htrip, hchoice⟩ hcore hhouse => ?_
  · rw [evResetNRelease_boots (s := opened s) hlow htrip]
    exact (released_boots _).calm (opened_calm hs)
  · rw [evResetNRelease_boots (s := opened s) hlow htrip] at hcore hhouse
    have hboot := released_boots (opened s)
    have hchoice' : bootChoice (released (opened s)).hub.fw = some (slot, false) := hchoice
    have hruns := (reboot_runs hchoice').house hhouse
    exact ⟨(core_ready hcore).trans (reboot_ready hchoice'), by rw [hruns.resetLow, resumeIndex_hub]; rfl, hruns.running, hruns.recovery,
      hruns.fallback, (core_time hcore).trans hboot.time, ((congrArg PairUnit.role (core_pair hcore) :)).trans hboot.role⟩

theorem resetNRelease_recovers : EventTo (fun k => .resetNRelease k)
    (fun _ s => s.hub.resetLow = true ∧ s.hub.tripped = false ∧ bootChoice s.hub.fw = none)
    (fun _ _ t => t.ready = false ∧ t.hub.resetLow = false ∧ t.hub.fw.recovery = true ∧ bit t.faultCause 0 = true) := by
  refine eventTo_house (f := fun _ => evResetNRelease) (fun _ _ => rfl)
    (fun k s ⟨hlow, htrip, _⟩ hs => ?_) fun k s t ⟨hlow, htrip, hchoice⟩ hcore hhouse => ?_
  · rw [evResetNRelease_boots (s := opened s) hlow htrip]
    exact (released_boots _).calm (opened_calm hs)
  · have hchoice' : bootChoice (released (opened s)).hub.fw = none := hchoice
    rw [evResetNRelease_boots (s := opened s) hlow htrip, reboot_recovers hchoice'] at hcore hhouse
    have hmark := bootMark_house true (bootStart (resumeIndex (released (opened s))))
    obtain ⟨hready, hhub, hbit⟩ := enterRecovery_left (bootMark true (bootStart (resumeIndex (released (opened s)))))
    have hlow' : (bootMark true (bootStart (resumeIndex (released (opened s))))).hub.resetLow = false := by
      rw [house_resetLow hmark, bootStart_hub, resumeIndex_hub]
      rfl
    refine ⟨(core_ready hcore).trans hready, ?_, ?_, (house_faultCause hhouse).symm ▸ hbit⟩
    · rw [house_resetLow hhouse, hhub]
      exact hlow'
    · rw [house_fw hhouse, hhub]

/-! ### BOOT_START_TIMEOUT (R622) -/

/-- Firmware from the other slot has been looked at, and has not started. -/
def otherNoted (v : Bool) (s : State) : State := setFw (noteValid (otherSlot s.hub.fw.running) v) s

section
variable {s : State} (hready : s.ready = true) (hid : s.nextId = s.hub.bootId) (hcmds : s.cmds = [])
include hready hid hcmds

theorem evBootStartTimeout_recovers (hv : validImage s.hub.fw (otherSlot s.hub.fw.running) = false) :
    evBootStartTimeout s = enterRecovery (otherNoted false s) := by
  simp [evBootStartTimeout, hready, hid, hcmds, hv, otherNoted]

theorem evBootStartTimeout_falls (hv : validImage s.hub.fw (otherSlot s.hub.fw.running) = true) (hfb : s.bb.fallback = false) :
    evBootStartTimeout s = fallbackEntry s.hub.fw.running 1 (otherSlot s.hub.fw.running)
      (runFirmware (otherSlot s.hub.fw.running) (otherNoted true s)) := by
  simp [evBootStartTimeout, hready, hid, hcmds, hv, hfb, otherNoted]

end

theorem evBootStartTimeout_idle {s : State} (h : s.ready = false ∨ s.nextId ≠ s.hub.bootId) : evBootStartTimeout s = s := by
  rcases h with h | h <;> simp [evBootStartTimeout, h]

theorem otherNoted_boots (v : Bool) (s : State) : Boots s (otherNoted v s) := boots_core (setFw_core ..)

theorem bootStartTimeout_recovers : EventTo (fun k => .bootStartTimeout k)
    (fun _ s => s.ready = true ∧ s.nextId = s.hub.bootId ∧ s.cmds = [] ∧ validImage s.hub.fw (otherSlot s.hub.fw.running) = false)
    (fun _ _ t => t.ready = false ∧ t.hub.fw.recovery = true ∧ bit t.faultCause 0 = true) := by
  have hf (s : State) (h : s.ready = true ∧ s.nextId = s.hub.bootId ∧ s.cmds = [] ∧ validImage s.hub.fw (otherSlot s.hub.fw.running) = false) :
      evBootStartTimeout (opened s) = enterRecovery (otherNoted false (opened s)) :=
    evBootStartTimeout_recovers (s := opened s) h.1 h.2.1 h.2.2.1 h.2.2.2
  refine eventTo_house (f := fun _ => evBootStartTimeout) (fun _ _ => rfl) (fun k s h hs => ?_) fun k s t h hcore hhouse => ?_
  · rw [hf s h]
    exact ((otherNoted_boots ..).trans (enterRecovery_boots _)).calm (opened_calm hs)
  · rw [hf s h] at hcore hhouse
    obtain ⟨hready, hhub, hbit⟩ := enterRecovery_left (otherNoted false (opened s))
    exact ⟨(core_ready hcore).trans hready, by rw [house_fw hhouse, hhub], (house_faultCause hhouse).symm ▸ hbit⟩

theorem bootStartTimeout_falls : EventTo (fun k => .bootStartTimeout k)
    (fun _ s => s.ready = true ∧ s.nextId = s.hub.bootId ∧ s.cmds = [] ∧ validImage s.hub.fw (otherSlot s.hub.fw.running) = true ∧ s.bb.fallback = false)
    (fun _ s t => t.ready = true ∧ t.hub.fw.running = otherSlot s.hub.fw.running ∧ t.bb.fallback = true) := by
  have hf (s : State) (h : s.ready = true ∧ s.nextId = s.hub.bootId ∧ s.cmds = [] ∧ validImage s.hub.fw (otherSlot s.hub.fw.running) = true
        ∧ s.bb.fallback = false) :
      evBootStartTimeout (opened s) = fallbackEntry s.hub.fw.running 1 (otherSlot s.hub.fw.running)
        (runFirmware (otherSlot s.hub.fw.running) (otherNoted true (opened s))) :=
    evBootStartTimeout_falls (s := opened s) h.1 h.2.1 h.2.2.1 h.2.2.2.1 h.2.2.2.2
  refine eventTo_house (f := fun _ => evBootStartTimeout) (fun _ _ => rfl) (fun k s h hs => ?_) fun k s t h hcore hhouse => ?_
  · rw [hf s h]
    exact (((otherNoted_boots ..).trans (runFirmware_boots ..)).trans (boots_core (fallbackEntry_core ..))).calm (opened_calm hs)
  · rw [hf s h] at hcore hhouse
    have hruns := (fallbackEntry_runs (failed := s.hub.fw.running) (why := 1) (booted := otherSlot s.hub.fw.running)
      (runFirmware_runs (otherSlot s.hub.fw.running) (otherNoted true (opened s)))).house hhouse
    exact ⟨(core_ready hcore).trans ((core_ready (fallbackEntry_core ..)).trans (runFirmware_ready ..)), hruns.running, hruns.fallback⟩

/-! ### THERMAL_TRIP_CLEAR (R629) -/

theorem evThermalTripClear_resets {s : State} (htrip : s.hub.tripped = true) (hheld : s.hub.warmHeld = true) (hlow : s.hub.resetLow = true) :
    evThermalTripClear s = hubReset 4 s := by
  simp [evThermalTripClear, htrip, hheld, hlow]

theorem evThermalTripClear_cools {s : State} (htrip : s.hub.tripped = true) (hheld : s.hub.warmHeld = false) :
    evThermalTripClear s = setHub (fun h => { h with cooled := true }) s := by
  simp [evThermalTripClear, htrip, hheld]

theorem evThermalTripClear_idle {s : State} (h : s.hub.tripped = false) : evThermalTripClear s = s := by
  simp [evThermalTripClear, h]

/-- What a reset that waited for the die leaves. -/
theorem hubReset_cooled (s : State) : (hubReset 4 s).bb.lastReset = 4 ∧ (hubReset 4 s).hub.tripped = false ∧ (hubReset 4 s).ready = false
    ∧ (hubReset 4 s).cmds = [] ∧ (hubReset 4 s).mode = .quiet ∧ (hubReset 4 s).pending = s.pending := ⟨rfl, rfl, rfl, rfl, rfl, rfl⟩

theorem thermalTripClear_resets : EventTo (fun k => .thermalTripClear k)
    (fun _ s => s.hub.tripped = true ∧ s.hub.warmHeld = true ∧ s.hub.resetLow = true)
    (fun _ s t => t.bb.lastReset = 4 ∧ t.hub.tripped = false ∧ t.ready = false ∧ t.cmds = [] ∧ t.mode = .quiet ∧ t.pending = s.pending) := by
  have hf (s : State) (h : s.hub.tripped = true ∧ s.hub.warmHeld = true ∧ s.hub.resetLow = true) :
      evThermalTripClear (opened s) = hubReset 4 (opened s) := evThermalTripClear_resets (s := opened s) h.1 h.2.1 h.2.2
  refine eventTo_of (f := fun _ => evThermalTripClear) (fun _ _ => rfl) (fun k s h _ => hf s h ▸ hubReset_calm ..) fun k s t old h _ ht => ?_
  have hleft := hubReset_cooled (opened s)
  rw [ht, after_frame, hf s h]
  generalize hubReset 4 (opened s) = u at hleft ⊢
  exact hleft

/-! ### PCIE_RESET (R616, R618) -/

/-- What stands apart from the stream and message units: the registers of the host, the pool, and the notices of the action. -/
def apart (s : State) : Global × Pool × Option (List (Nat × Entry)) := (s.glob, s.pool, s.aside)

theorem sendCheckpoint_apart (n cell : Nat) (ends : Bool) (s : State) : apart (sendCheckpoint n cell ends s) = apart s := by
  unfold sendCheckpoint
  split <;> rfl

theorem endCtxRun_apart (e n : Nat) (s : State) : apart (endCtxRun e n s) = apart s := by
  unfold endCtxRun
  dsimp only
  split
  · exact sendCheckpoint_apart ..
  · rfl

theorem stopCtx_apart (e n : Nat) (s : State) : apart (stopCtx e n s) = apart s := by
  unfold stopCtx
  extract_lets s1
  have h1 : apart s1 = apart s := endCtxRun_apart ..
  split
  · exact h1
  · exact h1

/-- A context whose host ring is cleared stops. -/
def unring (s : State) (a : State) (n : Nat) : State :=
  if (ctxOf a n).started && (ctxOf a n).cfg.entries.any (isHostRing s) then
    setCtx n (fun c => { c with bindingLost := true }) (stopCtx (a.index + 1) n a)
  else a

/-- A destination that is a host ring is none any more. -/
def unlist (d : DestEntry) : DestEntry :=
  match d.dest with
  | .hostRing .. => { dest := .none, prod := 0, cons := 0, unsignalled := 0 }
  | _ => d

theorem unring_apart (s a : State) (n : Nat) : apart (unring s a n) = apart a := by
  unfold unring
  split
  · exact stopCtx_apart ..
  · rfl

theorem clearHostRings_apart (s : State) : apart (clearHostRings s) = apart s := by
  have hfold : apart ((List.range s.strm.ctxs.length).foldl (unring s) s) = apart s :=
    List.foldlRecOn (motive := fun a => apart a = apart s) _ _ rfl fun a ha n _ => (unring_apart s a n).trans ha
  exact hfold

theorem unlist_noRing (d : DestEntry) (base slots size ptr vector : Nat) (intEn : Bool) (count time : Nat) :
    (unlist d).dest ≠ .hostRing base slots size ptr vector intEn count time := by
  unfold unlist
  split
  · exact Destination.noConfusion
  · next h => exact fun hd => h _ _ _ _ _ _ _ _ hd

/-- A command that goes on is the one that was there, unheard if it is of a queue pair. -/
theorem pcieCmd_some {c c' : Cmd} (h : pcieCmd c = some c') : c'.id = c.id ∧ c'.phase = c.phase ∧ (isQp c'.src = true → c'.mute = true) := by
  unfold pcieCmd at h
  split at h
  · next hq =>
    obtain rfl := Option.some.inj h
    exact ⟨rfl, rfl, fun hq' => absurd hq' (by simpa using hq)⟩
  · split at h
    · exact absurd h (by simp)
    · split at h
      · exact absurd h (by simp)
      · obtain rfl := Option.some.inj h
        exact ⟨rfl, rfl, fun _ => rfl⟩
    · obtain rfl := Option.some.inj h
      exact ⟨rfl, rfl, fun _ => rfl⟩

theorem pcieCmd_fewer (l : List Cmd) : Fewer l (l.filterMap pcieCmd) := fun c hc => by
  obtain ⟨d, hd, hkept⟩ := List.mem_filterMap.mp hc
  obtain ⟨hid, hphase, -⟩ := pcieCmd_some hkept
  exact ⟨d, hd, hid.symm, fun h => hphase ▸ h⟩

/-- What a PCIE reset leaves of the host's part, before the host rings are cleared. -/
theorem evPcieReset_apart (s : State) : (evPcieReset s).glob = { s.glob with gintEnable := 0, bar2 := [], msixEnabled := false }
    ∧ (evPcieReset s).pool = s.pool ∧ (evPcieReset s).aside = s.aside := by
  have h := clearHostRings_apart { s with
    cmds := s.cmds.filterMap pcieCmd, qps := List.replicate 16 QueuePair.power,
    glob := { s.glob with gintEnable := 0, bar2 := [], msixEnabled := false },
    hub := { s.hub with pcieUp := false, replies := s.hub.replies.filter (fun r => !isQp r.1.src) } }
  exact ⟨congrArg (fun x => x.1) h, congrArg (fun x => x.2.1) h, congrArg (fun x => x.2.2) h⟩

/-- The host's part at a PCIE reset, before the host rings are cleared. -/
def hostReset (s : State) : State := { s with
  cmds := s.cmds.filterMap pcieCmd, qps := List.replicate 16 QueuePair.power,
  glob := { s.glob with gintEnable := 0, bar2 := [], msixEnabled := false },
  hub := { s.hub with pcieUp := false, replies := s.hub.replies.filter (fun r => !isQp r.1.src) } }

theorem evPcieReset_core (s : State) : core (evPcieReset s) = core { s with cmds := s.cmds.filterMap pcieCmd } :=
  (clearHostRings_core (hostReset s)).trans rfl

theorem evPcieReset_house (s : State) : house (evPcieReset s) = house { s with hub := { s.hub with pcieUp := false } } :=
  (clearHostRings_house (hostReset s)).trans rfl

theorem evPcieReset_calm {s : State} (h : Calm s) : Calm (evPcieReset s) := by
  have hreset : Calm { s with cmds := s.cmds.filterMap pcieCmd } := ⟨(pcieCmd_fewer s.cmds).noneWaits h.none, h.alone, h.forwarded⟩
  exact hreset.core (evPcieReset_core s)

theorem evPcieReset_noRing (s : State) : ∀ d ∈ (evPcieReset s).strm.dests, ∀ b n z p v i c m, d.dest ≠ .hostRing b n z p v i c m := by
  intro d hd
  obtain ⟨d', -, rfl⟩ := List.mem_map.mp (show d ∈ List.map unlist _ from hd)
  exact unlist_noRing d'

theorem house_pcieUp {s t : State} (h : house t = house s) : t.hub.pcieUp = s.hub.pcieUp := congrArg (fun x => x.1.pcieUp) h

theorem pcieReset_clears : EventTo (fun k => .pcieReset k) always
    (fun _ s t => t.hub.pcieUp = false ∧ t.glob.msixEnabled = false ∧ t.glob.gintEnable = 0 ∧ t.mode = s.mode ∧ t.time = s.time ∧ t.pool = s.pool
      ∧ (∀ c ∈ t.cmds, isQp c.src = true → c.mute = true) ∧ (∀ d ∈ t.strm.dests, ∀ b n z p v i c m, d.dest ≠ .hostRing b n z p v i c m)) := by
  intro k s hq hm _
  have hcalm : Calm (opened (passTo k s)) := opened_calm (calm_quiet hq hm)
  have hcore := evPcieReset_core (opened (passTo k s))
  obtain ⟨hglob, hpool, haside⟩ := evPcieReset_apart (opened (passTo k s))
  have hpair : (evPcieReset (opened (passTo k s))).pair = s.pair := (core_pair hcore).trans (passTo_pair k s)
  have hlocked : locked (evPcieReset (opened (passTo k s))) = locked s := by
    rw [locked, core_time hcore]
    exact congrArg (fun x : TimeUnit => x.tb.isLocked) (passTo_time k s)
  have hmute (c : Cmd) (hc : c ∈ (evPcieReset (opened (passTo k s))).cmds) : isQp c.src = true → c.mute = true := by
    rw [core_cmds hcore] at hc
    obtain ⟨d, -, hd⟩ := List.mem_filterMap.mp hc
    exact (pcieCmd_some hd).2.2
  refine ⟨_, event_quiet (f := evPcieReset) hq hm (evPcieReset_calm hcalm).none hpair hlocked, ?_⟩
  rw [repliesFirst_silent haside]
  exact ⟨house_pcieUp (evPcieReset_house _), congrArg Global.msixEnabled hglob, congrArg Global.gintEnable hglob, (core_mode hcore :), (core_time hcore :),
    hpool, hmute, evPcieReset_noRing _⟩

/-! ### PCIE_LINK_UP (R619, R680) -/

theorem evPcieLinkUp_up (msix : Bool) (dead : List (Nat × Nat)) {s : State} (h : s.hub.resetLow = false ∧ s.hub.tripped = false) :
    evPcieLinkUp msix dead s = { s with hub := { s.hub with pcieUp := true }, glob := { s.glob with msixEnabled := msix, dead := dead } } := by
  simp [evPcieLinkUp, h]

theorem evPcieLinkUp_idle (msix : Bool) (dead : List (Nat × Nat)) {s : State} (h : s.hub.resetLow = true ∨ s.hub.tripped = true) :
    evPcieLinkUp msix dead s = s := by
  simp [evPcieLinkUp, h]

/-! ### The thermal trip (R629) -/

/-- The trip is noted and its cause latches. -/
def tripNoted (input : Nat) (value : Int) (s : State) : State :=
  setFault 7 (bbWrite 0x12 input 0x1286 [BitVec.ofNat 32 input, BitVec.ofInt 32 value, 1] s.index s)

/-- Samples stop. -/
def tripStopped (s : State) : State :=
  if delivering s then gapStop (s.index + 1) 1 (s.index + 1) (s.index + 1) false s else s

/-- The timebase is no longer locked, and what it waited for ends. -/
def tripTime (u : Nat) (wasLocked : Bool) (t : TimeUnit) : TimeUnit :=
  { t with
    tb := if t.refPresent then .relocking else .waitRef, unlockIndex := if wasLocked then u else t.unlockIndex, step := none, relockStep := none,
    applyCapture := none }

/-- The device after the stop of samples and links. -/
def tripLinks (s : State) : State := linkDown (setTime (tripTime (s.index + 1) (locked s)) (tripStopped s))

/-- Display, ports and cores stop. -/
def darkened (s : State) : State :=
  setHub (fun h => { h with tripped := true, cooled := false })
    (setDisp (fun d => { d with mode := .off, running := false }) (setStrm (fun u => { u with ports := u.ports.map fun p => { p with linkUp := false } }) s))

theorem darkened_core (s : State) : core (darkened s) = core s := rfl

theorem evThermalTrip_trips {input : Nat} {value : Int} {s : State} (h : s.hub.tripped = false) :
    evThermalTrip input value s = darkened (evPcieReset (tripLinks (tripNoted input value s))) := by
  rw [evThermalTrip, if_neg (by rw [h]; decide)]
  rfl

theorem evThermalTrip_idle {input : Nat} {value : Int} {s : State} (h : s.hub.tripped = true) : evThermalTrip input value s = s := by
  rw [evThermalTrip, if_pos h]

theorem tripNoted_core (input : Nat) (value : Int) (s : State) : core (tripNoted input value s) = core s := (setFault_core ..).trans (bbWrite_core ..)

theorem tripStopped_ends (s : State) : Ends s (tripStopped s) := by
  unfold tripStopped
  split
  · exact ends_gapStop ..
  · exact ends_core rfl

/-- The timebase after the trip, before the pair link goes. -/
theorem tripTime_calm {s : State} (h : Calm s) : Calm (setTime (tripTime (s.index + 1) (locked s)) (tripStopped s)) :=
  setTime_calm (h.ends (tripStopped_ends s))

theorem linkDown_link {s : State} (h : s.pair.forwarded = []) : (linkDown s).pair.link = .down := congrArg (fun x => x.2) (linkDown_unpaired h).wire

theorem linkDown_calm {s : State} (h : Calm s) : Calm (linkDown s) where
  none := (linkDown_unpaired h.forwarded).fewer.noneWaits h.none
  alone := hasMirror_down (linkDown_link h.forwarded)
  forwarded := (linkDown_unpaired h.forwarded).forwarded

theorem tripLinks_time {s : State} (h : Calm s) : (tripLinks s).time = tripTime (s.index + 1) (locked s) (tripStopped s).time :=
  (linkDown_unpaired (tripTime_calm h).forwarded).time

theorem tripLinks_house (s : State) : house (tripLinks s) = house s := by
  unfold tripLinks tripStopped
  rw [linkDown_house, setTime_house, house_ite, gapStop_house, ite_self]

theorem tripTime_unlocked (u : Nat) (l : Bool) (t : TimeUnit) : (tripTime u l t).tb.isLocked = false := by
  simp only [tripTime]
  split <;> rfl

/-- No port of a device that has tripped has a link, and what has been sent since does not change that. -/
theorem darkened_ports {s t : State} (h : streams t = streams (darkened s)) : ∀ p ∈ t.strm.ports, p.linkUp = false := by
  intro p hp
  have hmem : { p with txFrames := 0 } ∈ (streams (darkened s)).ports := by
    rw [← h]
    exact List.mem_map_of_mem hp
  obtain ⟨q, hq, hqp⟩ := List.mem_map.mp hmem
  obtain ⟨r, -, rfl⟩ := List.mem_map.mp (show q ∈ s.strm.ports.map fun p => { p with linkUp := false } from hq)
  exact (congrArg EthPort.linkUp hqp).symm

theorem darkened_disp {old : State} {f : State → State} {s u : State} (h : f (opened s) = darkened u) :
    (pairNotice old (repliesFirst f s)).disp.mode = .off ∧ (pairNotice old (repliesFirst f s)).disp.running = false := by
  rw [after_frame, h]
  exact ⟨rfl, rfl⟩

/-- What the links leave is dark after the PCIE reset. -/
theorem tripped_left {s t : State} (hs : Calm s) (hcore : core t = core (darkened (evPcieReset (tripLinks s))))
    (hhouse : house t = house (darkened (evPcieReset (tripLinks s)))) :
    t.hub.tripped = true ∧ t.hub.cooled = false ∧ t.hub.pcieUp = false ∧ t.faultCause = s.faultCause ∧ locked t = false ∧ t.pair.link = .down := by
  have hreset := evPcieReset_core (tripLinks s)
  have hresetHouse := evPcieReset_house (tripLinks s)
  have htime : (evPcieReset (tripLinks s)).time = tripTime (s.index + 1) (locked s) (tripStopped s).time := (core_time hreset :).trans (tripLinks_time hs)
  have hlink : (evPcieReset (tripLinks s)).pair.link = .down :=
    (congrArg PairUnit.link (core_pair hreset) :).trans (linkDown_link (tripTime_calm hs).forwarded)
  have hup : (evPcieReset (tripLinks s)).hub.pcieUp = false := house_pcieUp hresetHouse
  have hkept : (evPcieReset (tripLinks s)).faultCause = (tripLinks s).faultCause := (house_faultCause hresetHouse :)
  have hfault : (evPcieReset (tripLinks s)).faultCause = s.faultCause := hkept.trans (house_faultCause (tripLinks_house s))
  generalize evPcieReset (tripLinks s) = u at hcore hhouse htime hlink hup hfault
  refine ⟨congrArg (fun x => x.1.tripped) hhouse, congrArg (fun x => x.1.cooled) hhouse, (house_pcieUp hhouse).trans hup,
    (house_faultCause hhouse).trans hfault, ?_, (congrArg PairUnit.link (core_pair hcore) :).trans hlink⟩
  rw [locked, core_time hcore, show (darkened u).time = u.time from rfl, htime, tripTime_unlocked]

theorem thermalTrip_stops (input : Nat) (value : Int) : EventTo (fun k => .thermalTripEvent k input value) (fun _ s => s.hub.tripped = false)
    (fun _ _ t => t.hub.tripped = true ∧ t.hub.cooled = false ∧ t.hub.pcieUp = false ∧ bit t.faultCause 7 = true ∧ locked t = false
      ∧ t.disp.mode = .off ∧ t.disp.running = false ∧ t.pair.link = .down ∧ coresRun t = false ∧ (∀ p ∈ t.strm.ports, p.linkUp = false)) := by
  have hf (s : State) (h : s.hub.tripped = false) : evThermalTrip input value (opened s)
      = darkened (evPcieReset (tripLinks (tripNoted input value (opened s)))) := evThermalTrip_trips (s := opened s) h
  refine eventTo_of_calm (eventTo_of (f := fun _ => evThermalTrip input value) (fun _ _ => rfl) (fun k s ⟨h, _⟩ hs => ?_)
    fun k s t old ⟨h, hs⟩ _ ht => ?_)
  · rw [hf s h]
    have hnoted : Calm (tripNoted input value (opened s)) := (opened_calm hs).core (tripNoted_core ..)
    exact (evPcieReset_calm (linkDown_calm (tripTime_calm hnoted))).core (darkened_core _)
  · have hnoted : Calm (tripNoted input value (opened s)) := (opened_calm hs).core (tripNoted_core ..)
    have hcore : core t = core (evThermalTrip input value (opened s)) := ht ▸ (pairNotice_core ..).trans (repliesFirst_opened ..)
    have hhouse : house t = house (evThermalTrip input value (opened s)) := ht ▸ after_house ..
    have hstreams : streams t = streams (evThermalTrip input value (opened s)) := ht ▸ after_streams ..
    obtain ⟨hmode, hrunning⟩ := darkened_disp (old := old) (hf s h)
    rw [hf s h] at hcore hhouse hstreams
    obtain ⟨htrip, hcooled, hup, hfault, hlocked, hlink⟩ := tripped_left hnoted hcore hhouse
    exact ⟨htrip, hcooled, hup, hfault.symm ▸ setFault_bit (by decide) _, hlocked, ht ▸ hmode, ht ▸ hrunning, hlink,
      by rw [coresRun, htrip]; rfl, darkened_ports hstreams⟩

/-- Settles O45, clause by clause. -/
theorem powerAndReset : Obligations.PowerAndReset := by
  have hfit (fit : Option FlashImage) (s : State) :
      (match fit with | some x => fitFlash x (powerDown s) | none => powerDown s) = fitted fit s := by cases fit <;> rfl
  refine ⟨pwrGoodLow_powers, fun fit refOk band s slot fb h => powerOn_boots fit refOk band s slot fb (hfit fit s ▸ h),
    fun fit refOk band s h => powerOn_recovers fit refOk band s (hfit fit s ▸ h), resetNLow_resets, resetNLow_waits,
    event_idle (fun _ _ => rfl) fun _ s h => evResetNLow_idle (s := opened s) h, resetNRelease_runs, resetNRelease_recovers,
    event_idle (fun _ _ => rfl) fun _ s h => evResetNRelease_idle (s := opened s) h, bootStartTimeout_recovers, bootStartTimeout_falls,
    event_idle (fun _ _ => rfl) fun _ s h => evBootStartTimeout_idle (s := opened s) h, pcieReset_clears,
    fun msix dead => event_of_core (fun _ _ => rfl) (fun _ s h => evPcieLinkUp_up msix dead (s := opened s) h) fun _ _ => core_mk .., 
    fun msix dead => event_idle (fun _ _ => rfl) fun _ s h => evPcieLinkUp_idle msix dead (s := opened s) h, thermalTrip_stops,
    fun _ _ => event_idle (fun _ _ => rfl) fun _ s h => evThermalTrip_idle (s := opened s) h,
    event_of_core (fun _ _ => rfl) (fun _ s h => evThermalTripClear_cools (s := opened s) h.1 h.2) fun _ _ => core_mk .., thermalTripClear_resets,
    event_idle (fun _ _ => rfl) fun _ s h => evThermalTripClear_idle (s := opened s) h⟩

end Sys2Proof.Machine
end
